-- ==== Sys2Proof/Word.lean ====
section
/-! DEFINITION. The word types of the block and their plainest arithmetic. -/

namespace Sys2Proof

/-- A byte. -/
abbrev Byte := BitVec 8

/-- A general register of a Wolivis rope (R126). -/
abbrev Word := BitVec 64

/-- A Crampon register (R196). -/
abbrev KWord := BitVec 512

/-- The number of a rope in the layout of ROPEID: [10:7] cluster, [6:3] core, [2:0] rope (R129). -/
abbrev RopeId := BitVec 11

/-- A sparse map over natural keys: the keys rise. -/
abbrev Map (α : Type) := List (Nat × α)

end Sys2Proof
end

