-- ==== Sys2Proof/Syntax.lean ====
section
/-! DEFINITION. The commands of the block: one constructor per row of spec/opcode_table.json. The rows
give no operands; the operands here are the model's own (log entry 4): the port, rope, cluster or
object the row speaks of, the bytes received, and what only the environment decides. -/

namespace Sys2Proof

/-- An operand of an instruction that reads the core, with what the parity of that read finds: true for an error that cannot
be corrected (R171). -/
structure Checked (α : Type) where
  val : α
  parity : Bool
  deriving DecidableEq, Repr

/-- A rope that issues an instruction, with what the parity of the instruction memory and of the registers that the
instruction uses finds: true for an error that cannot be corrected (R171). -/
structure Issuer where
  rope : RopeId
  parity : Bool
  deriving DecidableEq, Repr

/-- The number of the rope. -/
abbrev Issuer.toNat (i : Issuer) : Nat := i.rope.toNat

/-- A CAN FD frame of SDP as a client sends it (R363); the function code is the command itself. -/
structure CanReq where
  pri : BitVec 3
  dst : BitVec 7
  src : BitVec 7
  seq : BitVec 6
  data : List Byte
  deriving DecidableEq, Repr

/-- The requester classes of the HBM (R326). -/
inductive ReqClass where
  | core
  | table
  | spill
  | sys
  deriving DecidableEq, Repr

/-- How an HBM read of a line turns out (R330). -/
inductive HbmOutcome where
  /-- No error. -/
  | good
  /-- A single-bit error. -/
  | corrected
  /-- Uncorrectable at first, correct on the retry. -/
  | transient
  /-- Uncorrectable twice. -/
  | lasting
  deriving DecidableEq, Repr

/-- A row that failed a pattern of the in-service test, and whether it failed again (R336). -/
structure RowTest where
  pch : Nat
  bank : Nat
  row : Nat
  again : Bool
  deriving DecidableEq, Repr

/-- The commands. -/
inductive Instr where
  /-- FRAME_RECEIVED (R63). A frame arrives whole at a port; the MAC tests it and Col parses, polices, stamps, looks it up and passes it to pitch formation or consumes it. -/
  | frameReceived (lp : Nat) (bytes : List Byte) (noBank : Nat)
  /-- PTP_MESSAGE (R345). A PTP frame handed to the slave is processed, and a Sync with its delay measurement forms one measurement of FT. -/
  | ptpMessage (m : Nat)
  /-- PULSE_SEND (R17). Every 10 µs the device sends a PULSE ahead of all queued frames on each Active logical port. -/
  | pulseSend (lp : Nat)
  /-- PULSE_LOSS_TIMEOUT (R19). 30 µs without a valid PULSE marks the partner lost, discards its queued cells, fails or frees its sending contexts and writes a Cairn record. -/
  | pulseLossTimeout (lp : Nat)
  /-- PULSE_MISSED (R61). A PULSE interval passes on a logical port without a valid PULSE and PulseMissed is counted. -/
  | pulseMissed (lp : Nat)
  /-- ACK_DELAY_EXPIRY (R37). AckDelay after the cumulative acknowledged PSN first moves, the receiver sends an ACK. -/
  | ackDelayExpiry (ep : BitVec 24)
  /-- RETRANSMIT_TIMEOUT (R38). A context's retransmission timer expires and the oldest unacknowledged PSN is retransmitted, or the context fails if that PSN was already retransmitted. -/
  | retransmitTimeout (ep : BitVec 24)
  /-- CONTEXT_IDLE_EXPIRY (R35). A receiver or sender context that has met the freeing conditions for 100 ms is freed. -/
  | contextIdleExpiry (receiver : Bool) (ep : BitVec 24)
  /-- CRED_SEND (R44). Every CredInterval, or when a limit has advanced by CredStep cells, the device sends a CRED frame. -/
  | credSend (lp : Nat)
  /-- MODE_WRITE (R52). A write to Mode takes the physical port's logical ports down, flushes their cells and retrains the port in the new mode. -/
  | modeWrite (lp : Nat) (v : BitVec 8)
  /-- LANE_MAP_WRITE (R53). A write to LaneMap or LanePolarity retrains the physical port as a Mode write does. -/
  | laneMapWrite (lp : Nat) (polarity : Bool) (v : BitVec 16)
  /-- TRAINING_COMPLETE (R54). Link training completes on all lanes with codeword alignment and the logical port is up. -/
  | trainingComplete (lp : Nat)
  /-- TRAINING_TIMEOUT (R54). A training attempt not complete after 500 ms is abandoned, counted in LinkDownCount and restarted. -/
  | trainingTimeout (lp : Nat)
  /-- TRAINING_RESTART (R54). Loss of receive signal or a partner restart during training starts a fresh attempt without counting it. -/
  | trainingRestart (lp : Nat)
  /-- FEC_ERROR_BURST (R55). Eight uncorrectable codewords within 1 ms take the logical port down, count it and retrain it. The
  operands count the corrected and the uncorrectable codewords of the 1 ms; fewer than eight are only counted. -/
  | fecErrorBurst (lp corrected uncorrectable : Nat)
  /-- LINK_DOWN (R56). A logical port goes down; its PULSE stops, its loss timer keeps running and its queued frames stay queued. -/
  | linkDown (lp : Nat)
  /-- LPI_RECEIVED_OUTSIDE (R60). LPI received outside Bivouac is treated as idle and counted in LpiOutside. -/
  | lpiReceivedOutside (lp : Nat)
  /-- PFC_XOFF_SEND (R57). When a class ingress queue reaches its limit less PfcHeadroom, PFC XOFF is sent and repeated every 20 µs while the condition holds. -/
  | pfcXoffSend (lp : Nat) (cls : BitVec 3)
  /-- PAUSE_TIME_EXPIRY (R57). The received pause time elapses and sending of the paused class resumes. -/
  | pauseTimeExpiry (lp : Nat) (cls : BitVec 3)
  /-- RULE_READ_DONE (R74). A rule-table read from HBM for a cache miss returns, is installed in the cache and lets the waiting frame proceed to pitch formation. -/
  | ruleReadDone (frame : Nat)
  /-- LEARN_REQUEST (R92). The table engine serves a queued learn request by inserting, moving or leaving the endpoint entry. -/
  | learnRequest
  /-- STAGE_OPEN (R78). A write of 1 to StageOpen opens a STAGING version, or is refused if one is open. -/
  | stageOpen
  /-- STAGE_DISCARD (R84). A write of 1 to StageDiscard ends the STAGING version without commit and starts a discard walk. -/
  | stageDiscard
  /-- VERSION_RETIRED (R81). A DRAINING version's in-flight count reaches 0; it retires, any commit waiting for drain takes effect, and a reclaim walk starts. -/
  | versionRetired
  /-- RECLAIM_WALK_DONE (R83). A reclaim or discard walk over the rule table ends, and any queued walk starts. -/
  | reclaimWalkDone
  /-- INSERT (R101). Table command INSERT writes an endpoint entry, or a rule entry in the staging version, with cuckoo placement. -/
  | insert
  /-- DELETE (R101). Table command DELETE frees an endpoint entry or applies the versioned delete to a rule entry. -/
  | deleteEntry
  /-- SEARCH (R101). Table command SEARCH returns the entry for a key, or for a key and version in the rule table. -/
  | search
  /-- NEXT (R101). Table command NEXT returns the first valid slot at or after Cursor and advances it. -/
  | nextSlot
  /-- FLUSH_PORT (R101). Table command FLUSH_PORT frees every endpoint entry of a logical port by read-then-CAS over all buckets. -/
  | flushPort (raced : List Nat)
  /-- AGE_SWEEP (R101). Table command AGE_SWEEP starts an age sweep, or reports BUSY. -/
  | ageSweep
  /-- AGE_SWEEP_TIMER (R95). AgeInterval elapses and a periodic age sweep starts unless one runs. -/
  | ageSweepTimer
  /-- AGE_SWEEP_BUCKET (R95). Every 100 dp-cycles the sweep reads a bucket, clears HIT or frees entries and writes the result by CAS. -/
  | ageSweepBucket (split : Bool)
  /-- AGE_INTERVAL_WRITE (R95). A write to AgeInterval restarts the sweep schedule, or stops periodic sweeps when 0. -/
  | ageIntervalWrite (v : BitVec 32)
  /-- SHADOW_CTL_WRITE (R104). A write to ShadowCtl starts, changes or ends shadow comparison, tested against the exclusion matrix. -/
  | shadowCtlWrite (v : BitVec 8)
  /-- SHADOW_BUCKET (R103). Every BucketInterval the comparator compares one bucket of the enabled tables with the shadow. -/
  | shadowBucket
  /-- SHADOW_RECHECK (R104). Settle after a difference, the comparator re-reads both sides, counts a persistent mismatch and repairs it if REPAIR is set. -/
  | shadowRecheck (raced : Bool)
  /-- COALESCE_WINDOW_EXPIRY (R109). CoalesceWindow dp-cycles after its first frame, an open pitch closes. -/
  | coalesceWindowExpiry (lp : Nat) (cls : BitVec 3)
  /-- PITCH_DISPATCH (R113). Watershed chooses the next pitch of a cluster and starts it on a free pitch rope of an eligible core with a descriptor. -/
  | pitchDispatch (c : BitVec 4)
  /-- STRAGGLER_BUDGET_EXPIRY (R120). A pitch not complete StragglerBudget after dispatch is counted and reported to the lead rope. -/
  | stragglerBudgetExpiry (pitch : Nat)
  /-- LATE_RELEASE_EXPIRY (R120). LateRelease after the straggler event, the pitch is marked late, its frames NAKed LATE and discarded, and its lane advanced. -/
  | lateReleaseExpiry (pitch : Nat)
  /-- ADD (R144). ALU addition with flags NZCV. -/
  | add (r : Issuer) (kf : Bool) (w32 : Bool) (d : BitVec 5) (a : BitVec 5) (b : BitVec 5)
  /-- SUB (R144). ALU subtraction with flags NZCV. -/
  | sub (r : Issuer) (kf : Bool) (w32 : Bool) (d : BitVec 5) (a : BitVec 5) (b : BitVec 5)
  /-- ADC (R144). ALU addition with carry. -/
  | adc (r : Issuer) (kf : Bool) (w32 : Bool) (d : BitVec 5) (a : BitVec 5) (b : BitVec 5)
  /-- SBC (R144). ALU subtraction with borrow as x + NOT y + C. -/
  | sbc (r : Issuer) (kf : Bool) (w32 : Bool) (d : BitVec 5) (a : BitVec 5) (b : BitVec 5)
  /-- AND (R144). ALU bitwise AND. -/
  | andOp (r : Issuer) (kf : Bool) (w32 : Bool) (d : BitVec 5) (a : BitVec 5) (b : BitVec 5)
  /-- OR (R144). ALU bitwise OR. -/
  | orOp (r : Issuer) (kf : Bool) (w32 : Bool) (d : BitVec 5) (a : BitVec 5) (b : BitVec 5)
  /-- XOR (R144). ALU bitwise XOR. -/
  | xorOp (r : Issuer) (kf : Bool) (w32 : Bool) (d : BitVec 5) (a : BitVec 5) (b : BitVec 5)
  /-- ANDN (R144). ALU x AND NOT y. -/
  | andn (r : Issuer) (kf : Bool) (w32 : Bool) (d : BitVec 5) (a : BitVec 5) (b : BitVec 5)
  /-- SHL (R144). ALU shift left. -/
  | shl (r : Issuer) (kf : Bool) (w32 : Bool) (d : BitVec 5) (a : BitVec 5) (b : BitVec 5)
  /-- SHR (R144). ALU logical shift right. -/
  | shr (r : Issuer) (kf : Bool) (w32 : Bool) (d : BitVec 5) (a : BitVec 5) (b : BitVec 5)
  /-- SAR (R144). ALU arithmetic shift right. -/
  | sar (r : Issuer) (kf : Bool) (w32 : Bool) (d : BitVec 5) (a : BitVec 5) (b : BitVec 5)
  /-- ROR (R144). ALU rotate right. -/
  | ror (r : Issuer) (kf : Bool) (w32 : Bool) (d : BitVec 5) (a : BitVec 5) (b : BitVec 5)
  /-- MUL (R144). ALU low 64 bits of product. -/
  | mul (r : Issuer) (kf : Bool) (w32 : Bool) (d : BitVec 5) (a : BitVec 5) (b : BitVec 5)
  /-- MULHU (R144). ALU high bits of unsigned product. -/
  | mulhu (r : Issuer) (kf : Bool) (w32 : Bool) (d : BitVec 5) (a : BitVec 5) (b : BitVec 5)
  /-- MINU (R144). ALU unsigned minimum. -/
  | minu (r : Issuer) (kf : Bool) (w32 : Bool) (d : BitVec 5) (a : BitVec 5) (b : BitVec 5)
  /-- MAXU (R144). ALU unsigned maximum. -/
  | maxu (r : Issuer) (kf : Bool) (w32 : Bool) (d : BitVec 5) (a : BitVec 5) (b : BitVec 5)
  /-- CLZ (R144). ALU count leading zeros. -/
  | clz (r : Issuer) (kf : Bool) (w32 : Bool) (d : BitVec 5) (a : BitVec 5)
  /-- CTZ (R144). ALU count trailing zeros. -/
  | ctz (r : Issuer) (kf : Bool) (w32 : Bool) (d : BitVec 5) (a : BitVec 5)
  /-- POPC (R144). ALU population count. -/
  | popc (r : Issuer) (kf : Bool) (w32 : Bool) (d : BitVec 5) (a : BitVec 5)
  /-- BSWAP (R144). ALU byte reversal. -/
  | bswap (r : Issuer) (kf : Bool) (w32 : Bool) (d : BitVec 5) (a : BitVec 5)
  /-- CMP (R144). ALU compare setting flags of x − y. -/
  | cmp (r : Issuer) (kf : Bool) (w32 : Bool) (a : BitVec 5) (b : BitVec 5)
  /-- TST (R144). ALU test setting flags of x AND y. -/
  | tst (r : Issuer) (kf : Bool) (w32 : Bool) (a : BitVec 5) (b : BitVec 5)
  /-- ADDI (R145). Add sign-extended immediate. -/
  | addi (r : Issuer) (d : BitVec 5) (a : BitVec 5) (imm : BitVec 16)
  /-- CMPI (R145). Compare with sign-extended immediate. -/
  | cmpi (r : Issuer) (a : BitVec 5) (imm : BitVec 16)
  /-- ANDI (R145). AND with zero-extended immediate. -/
  | andi (r : Issuer) (d : BitVec 5) (a : BitVec 5) (imm : BitVec 16)
  /-- ORI (R145). OR with zero-extended immediate. -/
  | ori (r : Issuer) (d : BitVec 5) (a : BitVec 5) (imm : BitVec 16)
  /-- XORI (R145). XOR with zero-extended immediate. -/
  | xori (r : Issuer) (d : BitVec 5) (a : BitVec 5) (imm : BitVec 16)
  /-- SHI (R145). Shift or rotate by an immediate amount. -/
  | shi (r : Issuer) (d : BitVec 5) (a : BitVec 5) (kind : BitVec 2) (n : BitVec 6)
  /-- BFX (R145). Bit-field extract. -/
  | bfx (r : Issuer) (d : BitVec 5) (a : BitVec 5) (lsb : BitVec 6) (width1 : BitVec 6)
  /-- BFI (R145). Bit-field insert. -/
  | bfi (r : Issuer) (d : BitVec 5) (a : BitVec 5) (lsb : BitVec 6) (width1 : BitVec 6)
  /-- IPL (R145). Load a zero-extended halfword at position q. -/
  | ipl (r : Issuer) (d : BitVec 5) (q : BitVec 2) (imm : BitVec 16)
  /-- IPS (R145). Load a sign-extended halfword at position q. -/
  | ips (r : Issuer) (d : BitVec 5) (q : BitVec 2) (imm : BitVec 16)
  /-- IMG (R145). Merge a halfword at position q keeping other bits. -/
  | img (r : Issuer) (d : BitVec 5) (q : BitVec 2) (imm : BitVec 16)
  /-- LB (R146). Load one byte zero-extended. -/
  | lb (r : Issuer) (d : BitVec 5) (a : BitVec 5) (imm : BitVec 16) (parity : Bool)
  /-- LH (R146). Load two bytes zero-extended. -/
  | lh (r : Issuer) (d : BitVec 5) (a : BitVec 5) (imm : BitVec 16) (parity : Bool)
  /-- LW (R146). Load four bytes zero-extended. -/
  | lw (r : Issuer) (d : BitVec 5) (a : BitVec 5) (imm : BitVec 16) (parity : Bool)
  /-- LD (R146). Load eight bytes. -/
  | ld (r : Issuer) (d : BitVec 5) (a : BitVec 5) (imm : BitVec 16) (parity : Bool)
  /-- SB (R146). Store one byte. -/
  | sb (r : Issuer) (d : BitVec 5) (a : BitVec 5) (imm : BitVec 16)
  /-- SH (R146). Store two bytes. -/
  | sh (r : Issuer) (d : BitVec 5) (a : BitVec 5) (imm : BitVec 16)
  /-- SW (R146). Store four bytes. -/
  | sw (r : Issuer) (d : BitVec 5) (a : BitVec 5) (imm : BitVec 16)
  /-- SD (R146). Store eight bytes. -/
  | sd (r : Issuer) (d : BitVec 5) (a : BitVec 5) (imm : BitVec 16)
  /-- LOAD_RETURN (R139). A class L load or other long stall completes and the rope becomes ready again. -/
  | loadReturn (r : RopeId)
  /-- ADDM (R147). Atomic add to a scratchpad word returning the old value. -/
  | addm (r : Issuer) (w32 : Bool) (d : BitVec 5) (a : Checked (BitVec 5)) (b : BitVec 5)
  /-- SWPM (R147). Atomic swap of a scratchpad word returning the old value. -/
  | swpm (r : Issuer) (w32 : Bool) (d : BitVec 5) (a : Checked (BitVec 5)) (b : BitVec 5)
  /-- JMP (R159). Unconditional jump. -/
  | jmp (r : Issuer) (off : BitVec 22)
  /-- JZ (R159). Jump when Z is 1. -/
  | jz (r : Issuer) (off : BitVec 22)
  /-- JNZ (R159). Jump when Z is 0. -/
  | jnz (r : Issuer) (off : BitVec 22)
  /-- JC (R159). Jump when C is 1. -/
  | jc (r : Issuer) (off : BitVec 22)
  /-- JNC (R159). Jump when C is 0. -/
  | jnc (r : Issuer) (off : BitVec 22)
  /-- JN (R159). Jump when N is 1. -/
  | jn (r : Issuer) (off : BitVec 22)
  /-- JNN (R159). Jump when N is 0. -/
  | jnn (r : Issuer) (off : BitVec 22)
  /-- JV (R159). Jump when V is 1. -/
  | jv (r : Issuer) (off : BitVec 22)
  /-- JNV (R159). Jump when V is 0. -/
  | jnv (r : Issuer) (off : BitVec 22)
  /-- JLT (R159). Jump when N differs from V. -/
  | jlt (r : Issuer) (off : BitVec 22)
  /-- JGE (R159). Jump when N equals V. -/
  | jge (r : Issuer) (off : BitVec 22)
  /-- JGT (R159). Jump when Z is 0 and N equals V. -/
  | jgt (r : Issuer) (off : BitVec 22)
  /-- JLE (R159). Jump when Z is 1 or N differs from V. -/
  | jle (r : Issuer) (off : BitVec 22)
  /-- JHI (R159). Jump when C is 1 and Z is 0. -/
  | jhi (r : Issuer) (off : BitVec 22)
  /-- JLS (R159). Jump when C is 0 or Z is 1. -/
  | jls (r : Issuer) (off : BitVec 22)
  /-- CALL (R160). Push the return address and jump, or fault on a full stack under TRAP. -/
  | call (r : Issuer) (off : BitVec 26)
  /-- RET (R160). Pop the return stack and jump to the entry. -/
  | ret (r : Issuer)
  /-- JR (R160). Jump to a register address. -/
  | jr (r : Issuer) (a : BitVec 5)
  /-- REPB (R162). Start a block repeat of the next n instructions held in w29, or skip the body when the count is 0. -/
  | repb (r : Issuer) (n1 : BitVec 3)
  /-- SCOPY (R165). Copy w28 bytes from w26 to w27 in steps. -/
  | scopy (r : Issuer) (steps : Checked Nat)
  /-- SFILL (R165). Fill bytes from w27 with a register pattern. -/
  | sfill (r : Issuer) (b : BitVec 5) (steps : Nat)
  /-- SCMP (R165). Compare byte strings and stop at the first difference. -/
  | scmp (r : Issuer) (steps : Checked Nat)
  /-- SSCAN (R165). Search for a byte value and stop at a match. -/
  | sscan (r : Issuer) (b : BitVec 5) (steps : Checked Nat)
  /-- EVW (R168). Wait for a masked event or a timeout and consume the events. -/
  | evw (r : Issuer) (d : BitVec 5) (a : BitVec 5) (b : BitVec 5)
  /-- EVS (R168). Send software event bits to a rope. -/
  | evs (r : Issuer) (a : BitVec 5) (b : BitVec 5)
  /-- EVENT_DELIVERY (R168). An event reaches its target rope 4 or 24 dp-cycles after issue and wakes a matching EVW. -/
  | eventDelivery
  /-- EVW_TIMEOUT (R168). The EVW timeout elapses and the rope resumes with Z set. -/
  | evwTimeout (r : RopeId)
  /-- TWAIT (R169). Wait until FT reaches a value or a timeout passes. -/
  | twait (r : Issuer) (d : BitVec 5) (a : BitVec 5) (b : BitVec 5)
  /-- TWAIT_WAKE (R169). FT reaches the TWAIT instant or its timeout elapses and the rope becomes ready. -/
  | twaitWake (r : RopeId)
  /-- KMV_WK (R148). Move a general register into a lane of a k register. -/
  | kmvWk (r : Issuer) (kd : BitVec 4) (w : BitVec 5) (lane : BitVec 3)
  /-- KMV_KW (R148). Move a lane of a k register into a general register. -/
  | kmvKw (r : Issuer) (w : BitVec 5) (ka : BitVec 4) (lane : BitVec 3)
  /-- KMV_LD (R148). Load 64 B from memory into a k register. -/
  | kmvLd (r : Issuer) (kd : BitVec 4) (w : Checked (BitVec 5))
  /-- KMV_ST (R148). Store a k register as 64 B to memory. -/
  | kmvSt (r : Issuer) (ka : BitVec 4) (w : BitVec 5)
  /-- KMV_KK (R148). Copy one k register to another. -/
  | kmvKk (r : Issuer) (kd : BitVec 4) (ka : BitVec 4)
  /-- KCRC32C (R201). Compute CRC-32C over bytes of a k register. -/
  | kcrc32c (r : Issuer) (kd : BitVec 4) (ka : BitVec 4) (w : BitVec 5)
  /-- KCRC32 (R201). Compute IEEE 802.3 CRC-32 over bytes of a k register. -/
  | kcrc32 (r : Issuer) (kd : BitVec 4) (ka : BitVec 4) (w : BitVec 5)
  /-- KH2 (R202). Compute two seeded cuckoo hashes. -/
  | kh2 (r : Issuer) (kd : BitVec 4) (ka : BitVec 4) (kb : BitVec 4) (w : BitVec 5)
  /-- KCMPM (R203). Masked 512-bit compare. -/
  | kcmpm (r : Issuer) (kd : BitVec 4) (ka : BitVec 4) (kb : BitVec 4)
  /-- KSPLICE (R204). Copy a k register with a run of bytes replaced. -/
  | ksplice (r : Issuer) (kd : BitVec 4) (ka : BitVec 4) (kb : BitVec 4) (w : BitVec 5)
  /-- KTXL (R205). Translation-cache lookup with the window and granule checks of the tenant. -/
  | ktxl (r : Issuer) (kd : BitVec 4) (ka : BitVec 4)
  /-- K_RESULT_WRITTEN (R198). A pending Crampon or KTXL result is written into its k register, the pending bit clears and a waiting rope becomes ready. -/
  | kResultWritten (r : RopeId) (kd : BitVec 4)
  /-- MAP_READ_DONE (R234). A granule-map read for a KTXL miss returns, is retried from the other copy on MEDIA, and is installed in the translation cache. -/
  | mapReadDone (r : RopeId) (kd : BitVec 4)
  /-- KSAVE (R206). Save k0–k15 to 1,024 B of scratchpad. -/
  | ksave (r : Issuer) (w : BitVec 5)
  /-- KLOAD (R206). Load k0–k15 from 1,024 B of scratchpad. -/
  | kload (r : Issuer) (w : Checked (BitVec 5))
  /-- MFS (R149). Read a system register into a general register. -/
  | mfs (r : Issuer) (d : BitVec 5) (n : BitVec 12)
  /-- MTS (R149). Write a general register into a system register. -/
  | mts (r : Issuer) (a : BitVec 5) (n : BitVec 12)
  /-- FEMIT (R153). Dispose a frame of the pitch by a disposition word: send, flood, discard or NAK. -/
  | femit (r : Issuer) (a : BitVec 5) (b : BitVec 5)
  /-- FEMIT_R (R154). Dispose the frame at a record as its record and rule result direct, then advance the record pointer. -/
  | femitR (r : Issuer) (a : BitVec 5)
  /-- FNEW (R155). Send a derived frame built from a build slot. -/
  | fnew (r : Issuer) (a : BitVec 5) (b : BitVec 5)
  /-- NOP (R150). No operation. -/
  | nop (r : Issuer)
  /-- ILLEGAL_INSTRUCTION (R142). A rope issues a word whose opcode or func is unassigned, including 0x00, 0x3F and an all-zero word, and raises the illegal-instruction fault. -/
  | illegalInstruction (r : Issuer) (word : BitVec 32)
  /-- FENCE (R140). Wait until earlier loads have returned and stores have been performed. -/
  | fence (r : Issuer)
  /-- PDONE (R156). Complete the pitch: discard undisposed frames, pass outputs to Switchback and free the rope. -/
  | pdone (r : Issuer)
  /-- PARK (R177). ParkCtl PARK stops a rope at its next boundary with code LEAD_PARK. -/
  | park (c : BitVec 4) (rope : BitVec 7)
  /-- RESUME (R177). ParkCtl RESUME continues a parked rope at ViewPC with its view registers. -/
  | resume (c : BitVec 4) (rope : BitVec 7)
  /-- FREE (R177). ParkCtl FREE returns a parked rope to free, clears its record and frees its task slot. -/
  | freeRope (c : BitVec 4) (rope : BitVec 7)
  /-- PARK_HOLD_EXPIRY (R177). ParkHold after a pitch rope parked, it is freed automatically. -/
  | parkHoldExpiry (r : RopeId)
  /-- CORE_FENCE_WRITE (R175). A write to CoreFence fences or unfences cores of the cluster. -/
  | coreFenceWrite (c : BitVec 4) (v : BitVec 16)
  /-- LEAD_BEAT (R193). A write to LeadBeat restarts the lead heartbeat timer. -/
  | leadBeat (c : BitVec 4)
  /-- LEAD_BEAT_TIMEOUT (R192). LeadBeatLimit passes without a LeadBeat write and Basecamp declares the lead rope failed. -/
  | leadBeatTimeout (c : BitVec 4)
  /-- ACQUIRE (R187). Belay processes an ACQUIRE: take a free lock, or join its waiters and raise the holder's priority. -/
  | acquire (c : BitVec 4) (lock : BitVec 12)
  /-- RELEASE (R187). Belay processes a RELEASE by the holder and passes the lock to the best waiter or frees it. -/
  | release (c : BitVec 4) (lock : BitVec 12)
  /-- FORCE (R187). Belay processes a FORCE at PL2 and passes the lock whoever holds it. -/
  | force (c : BitVec 4) (lock : BitVec 12)
  /-- WITHDRAW (R187). Belay removes a waiting rope from a lock's queue. -/
  | withdraw (c : BitVec 4) (lock : BitVec 12)
  /-- PRIORITY_RAISE_PROPAGATE (R189). A priority raise passes to the holder of the next lock in a wait chain, one link every 4 dp-cycles, and is reported to the task scheduler. -/
  | priorityRaisePropagate (c : BitVec 4)
  /-- SYSTEM_PORT_RETRY (R184). After COLLIDE, the system port retries its write in the next dp-cycle. -/
  | systemPortRetry (c : BitVec 4)
  /-- SPAWN (R216). Take the lowest free task slot and fill it from the staging registers into WAIT, DELAY or READY. -/
  | spawn (c : BitVec 4)
  /-- SIGNAL (R216). Lower a slot's dependence counter and ready a WAIT slot that reaches 0. -/
  | signal (c : BitVec 4)
  /-- CANCEL (R216). Free a WAIT, DELAY or READY slot and report its completion. -/
  | cancel (c : BitVec 4)
  /-- END (R216). Free the caller's slot and report completion with StgResult. -/
  | endTask (c : BitVec 4)
  /-- WAIT (R216). The caller suspends until its counter reaches 0 or its timeout. -/
  | waitTask (c : BitVec 4)
  /-- SLEEP (R216). The caller suspends until its wake instant. -/
  | sleep (c : BitVec 4)
  /-- YIELD (R216). The caller returns to READY at its resume address. -/
  | yield (c : BitVec 4)
  /-- TASK_DISPATCH (R219). Every 2 dp-cycles the scheduler gives the head of the highest ready list to a free task rope. -/
  | taskDispatch (c : BitVec 4)
  /-- DELAY_TICK (R222). Every 1 µs of FT the scheduler readies DELAY slots whose wake instant has passed and expires WAIT timeouts. -/
  | delayTick (c : BitVec 4)
  /-- WAIT_TIMEOUT_SWEEP (R223). On the SKX-9624 a sweep every 64 µs readies WAIT slots whose timeout has passed. -/
  | waitTimeoutSweep (c : BitVec 4)
  /-- MAP_WRITE (R238). Map command WRITE writes an entry into every copy and updates the translation cache at one instant. -/
  | mapWrite
  /-- MAP_READ (R251). Map command READ returns a granule entry from copy A. -/
  | mapRead
  /-- HOME_TABLE_UPDATE (R244). Within 10 µs of a TxlMode or HomeLp write, the home-disposition table entry is rewritten through the system port. -/
  | homeTableUpdate (c : BitVec 4) (tid : BitVec 12)
  /-- KEY_LOAD (R246). KeyLoad loads the key pair into the selected Vault slot, or refuses equal keys, and clears KeyMaterial. -/
  | keyLoad
  /-- KEY_ERASE (R246). KeyErase empties the selected Vault slot. -/
  | keyErase
  /-- SCAN_SEGMENT_ACCEPT (R256). The sequencer accepts a segment into a scan context, or refuses it, once a context is free. -/
  | scanSegmentAccept
  /-- SEGMENT_WAIT_EXPIRY (R256). SegmentWait passes without all segments and the scan ends MALFORMED. -/
  | segmentWaitExpiry (scan : Nat)
  /-- SCAN_RD_ISSUE (R258). The sequencer issues the next RD of a segment when the tenant's ScanWindow and a pairing entry allow. -/
  | scanRdIssue (tid : BitVec 12)
  /-- SCREE_RSP_EVALUATE (R269). A Scree engine takes a paired scan RSP, evaluates its rows and packs matching rows, sending the summary after the last. -/
  | screeRspEvaluate (engine : Nat) (parity : Nat)
  /-- ROW_FLUSH_EXPIRY (R267). RowFlush after its first row, a part-filled row frame is sent. -/
  | rowFlushExpiry (engine : Nat) (scan : Nat)
  /-- SCREE_TEST_GO (R273). TestGo fences an engine for in-service self-test, or is refused. -/
  | screeTestGo
  /-- SCREE_TEST_DONE (R273). An engine self-test ends and the engine returns to service or is removed. -/
  | screeTestDone (pass : Bool)
  /-- PROG_LOAD (R274). ProgLoad validates an image and makes a program load pending. -/
  | progLoad
  /-- PROG_UNLOAD (R274). ProgUnload makes emptying of a program slot pending. -/
  | progUnload
  /-- PROG_TAKES_EFFECT (R274). When the last scan on the old program ends, the pending load or unload takes effect and waiting segments start. -/
  | progTakesEffect
  /-- CELL_WRITE_STAGE (R283). A cell waiting in a port write stage is written when a bank is free, or its frame is discarded when the stage is full. -/
  | cellWriteStage (port : Nat)
  /-- SPILL_READBACK (R294). When a spilling queue falls below half its threshold, spilled outputs are read back in order. -/
  | spillReadback (queue : Nat)
  /-- RETAIN_MOVE (R295). When RetainedCells exceeds RetainLimit, the oldest retained output moves to a Piton HBM buffer. -/
  | retainMove
  /-- OUTPUT_TRANSMIT (R308). A logical port chooses its next output through the scheduling tree and sends it, freeing or retaining its cells on departure. -/
  | outputTransmit (lp : Nat)
  /-- CALENDAR_ENTRY (R311). A shaping calendar entry fires at its offset and sets the tenant's shaper values in force. -/
  | calendarEntry
  /-- HBM_READ_DONE (R330). An HBM read returns, with single-bit correction, one retry of an uncorrectable read, and MEDIA marking on a lasting fault. -/
  | hbmReadDone (addr : Nat) (cls : ReqClass) (o : HbmOutcome)
  /-- HBM_REFRESH (R325). A per-bank refresh command refreshes 8 rows of one bank. -/
  | hbmRefresh (pch : Nat) (bank : Nat)
  /-- REFRESH_WINDOW_START (R327). A new refresh window resets activation counts and lets deferred activations proceed. -/
  | refreshWindowStart (stack : Nat)
  /-- NRS_GO (R329). NrsGo starts a neighbour-refresh sweep, or is refused. -/
  | nrsGo
  /-- NRS_SWEEP_END (R329). The sweep ends after one refresh window. -/
  | nrsSweepEnd
  /-- SELF_REFRESH_ENTRY (R333). On the power manager's request a stack drains and enters self-refresh, or aborts on an arriving request. -/
  | selfRefreshEntry (stack : Nat) (arriving : Bool)
  /-- SELF_REFRESH_EXIT (R334). A request waiting on a stack in self-refresh starts its exit sequence. -/
  | selfRefreshExit (stack : Nat)
  /-- HBM_TEST_GO (R335). TestGo fences a stack for in-service test, or is refused. -/
  | hbmTestGo
  /-- HBM_TEST_DONE (R336). The in-service test ends, the fence lifts and the copy rebuild starts. -/
  | hbmTestDone (rows : List RowTest)
  /-- REBUILD_DONE (R337). The last byte of the rebuilt copies is written and RebuildActive falls. -/
  | rebuildDone
  /-- HBM_TRAINING_DONE (R332). A stack completes or fails a training attempt, retrying once. -/
  | hbmTrainingDone (stack : Nat) (ok : Bool)
  /-- PPS_EDGE (R344). A PPS_IN rising edge labelled by a valid sentence forms a measurement that steps or slews FT. -/
  | ppsEdge (err : Int)
  /-- TOD_SENTENCE (R344). A TOD_RX sentence is received and checked. -/
  | todSentence (bytes : List Byte)
  /-- TIME_SOURCE_LOST (R347). The time source is lost and FtState enters HOLDOVER or LOST. -/
  | timeSourceLost
  /-- HOLDOVER_EXPIRY (R347). HoldoverLimit passes in HOLDOVER and FtState becomes LOST. -/
  | holdoverExpiry
  /-- TIME_SOURCE_WRITE (R343). A write to TimeSource puts FtState in LOST, or FREERUN for 0. -/
  | timeSourceWrite (v : BitVec 8)
  /-- VERSION_COMMIT (R79). An Itinerary VERSION_COMMIT commits the STAGING version, waits for drain, merges, or does nothing. -/
  | versionCommit
  /-- DICT_WRITE (R349). An Itinerary DICT_WRITE performs a dictionary write at its FT. -/
  | dictWrite
  /-- TASK_SIGNAL (R349). An Itinerary TASK_SIGNAL signals a task slot. -/
  | taskSignal
  /-- MARK (R349). An Itinerary MARK writes a Cairn record carrying ARG1. -/
  | markEvent
  /-- PLAN_APPLY (R353). PlanApply validates the plan image and applies its sections. -/
  | planApply
  /-- READ (R364). SDP expedited READ of an object. -/
  | sdpRead (q : CanReq)
  /-- WRITE (R364). SDP expedited WRITE of an object. -/
  | sdpWrite (q : CanReq)
  /-- SEG_WRITE (R366). SDP opens a segmented write. -/
  | segWrite (q : CanReq)
  /-- SEG_READ (R366). SDP opens a segmented read. -/
  | segRead (q : CanReq)
  /-- SEG_DATA (R366). SDP segment of data, checked and written whole at END. -/
  | segData (q : CanReq)
  /-- SEG_ACK (R366). SDP acknowledgement of a block lets the sender continue. -/
  | segAck (q : CanReq)
  /-- ABORT (R364). SDP ABORT received ends a transfer. A frame of a FUNC that R364 does not list comes by this row too. -/
  | abortXfer (func : BitVec 6) (q : CanReq)
  /-- SDP_TIMEOUT (R366). SdpTimeout passes without the next frame and the transfer ends with TIMEOUT. -/
  | sdpTimeout (node : BitVec 7)
  /-- MGMT_READ (R369). In-band MGMT READ of an object. -/
  | mgmtRead
  /-- MGMT_WRITE (R369). In-band MGMT WRITE of an object. -/
  | mgmtWrite
  /-- DOMAIN_READ (R369). In-band read of bytes of a DOMAIN object. -/
  | domainRead
  /-- DOMAIN_WRITE (R372). In-band write of bytes of a DOMAIN object, opening or closing an image. -/
  | domainWrite
  /-- OBJECT_WRITE (R358). A write to an object with no behaviour of its own is checked and stored. -/
  | objectWrite (idx : BitVec 16) (sub : BitVec 8) (data : List Byte)
  /-- PARAM_STORE (R375). A pending RWS value is stored to MRAM, verified and retried once. -/
  | paramStore (idx : BitVec 16) (sub : BitVec 8) (fails : Nat)
  /-- STORE_CLEAR (R375). StoreClear erases every stored value and cancels pending stores. -/
  | storeClear
  /-- POWER_MEASUREMENT (R381). Every 100 µs the power manager measures VIN and power, selects the profile and steps frequency for the cap. -/
  | powerMeasurement (vinMv : Nat) (watts : Nat)
  /-- CURRENT_LIMIT_HELD (R382). The current limit holds for 1 ms and the power manager commands 0.6 GHz and writes a Cairn record. -/
  | currentLimitHeld
  /-- OP_COMMAND (R385). A write to OpCommand is refused or starts a rail and frequency command, superseding any in progress. -/
  | opCommand (v : BitVec 32)
  /-- FREQUENCY_CHANGE_DONE (R385). A frequency change completes 0.5 µs after it starts. -/
  | frequencyChangeDone
  /-- RAIL_TARGET_REACHED (R385). The core rail reaches its target voltage. -/
  | railTargetReached
  /-- RAIL_HOLD_EXPIRY (R385). The 10 µs hold ends and the frequency rises. -/
  | railHoldExpiry
  /-- VIN_UNDERVOLTAGE (R380). VIN falls below 8.5 V; every domain stops and FAULT_N falls. -/
  | vinUndervoltage (torn : Bool)
  /-- VIN_VALID (R428). VIN rises through 8.8 V and the power-up sequence starts. -/
  | vinValid
  /-- DOZE_ENTRY (R387). After DozeIdle of idleness a cluster gates its clocks. -/
  | dozeEntry (c : BitVec 4)
  /-- DOZE_EXIT (R387). Work or an event for a dozing cluster wakes it. -/
  | dozeExit (c : BitVec 4)
  /-- BIVOUAC_ENTRY (R388). After BivouacIdle of device idleness the device enters Bivouac in order. -/
  | bivouacEntry
  /-- WAKE (R390). A write of 1 to Wake starts the Bivouac exit, or restarts the idle timer in Run. -/
  | wake
  /-- BASECAMP_ENTRY (R391). After BasecampIdle in Bivouac the device enters the Basecamp state. -/
  | basecampEntry
  /-- SIDEBAND_ADDRESS_MATCH (R392). The sideband target acknowledges a matching address byte, starting a wake in Bivouac or the Basecamp state. -/
  | sidebandAddressMatch (addr : BitVec 7) (rd : Bool)
  /-- SERVICE_CMD_OUT (R408). ServiceCmd 1 takes the device out of service. -/
  | serviceCmdOut
  /-- SERVICE_CMD_RETURN (R408). ServiceCmd 2 returns the device to service, or is refused. -/
  | serviceCmdReturn
  /-- RECOVERY_RESET (R429). A write to RecoveryReset resets the device from step 4 with ResetCause 5. -/
  | recoveryReset
  /-- BASECAMP_WD_EXPIRY (R409). The Basecamp watchdog expires and the device goes dark as Basecamp failed. -/
  | basecampWdExpiry
  /-- BASECAMP_ECC_ERROR (R409). An uncorrectable error in Basecamp's own ECC check fails Basecamp. -/
  | basecampEccError
  /-- THERMAL_SAMPLE (R439). Every 100 µs thermal limits are compared, driving ALERT_N, THERM_N throttling or latched shutdown. -/
  | thermalSample (die : List Int) (hbm : List Int)
  /-- SXDUMP_SEL (R425). JTAG instruction selecting a dump target. -/
  | sxdumpSel (upd : BitVec 32)
  /-- SXDUMP_CHAIN (R425). JTAG instruction shifting the selected chain. -/
  | sxdumpChain (n : Nat)
  /-- SXDUMP_MEM (R425). JTAG instruction reading words of the selected memory. -/
  | sxdumpMem (upd : BitVec 128)
  /-- COMPACT_GO (R420). CompactGo, or ParamFill reaching 75 %, starts parameter-area compaction. -/
  | compactGo (auto : Bool)
  /-- LEASE_GRANT (R404). An accepted grant makes the device lease holder for 300 ms, or a stale grant is ignored. -/
  | leaseGrant (q : CanReq)
  /-- LEASE_REVOKE (R403). The device drops the lease at once and replies with LEASE_STATE. -/
  | leaseRevoke (q : CanReq)
  /-- LEASE_QUERY (R403). The device replies with LEASE_STATE. -/
  | leaseQuery (q : CanReq)
  /-- LEASE_EXPIRY (R404). 300 ms pass without a renewal and the lease expires. -/
  | leaseExpiry
  /-- WRITE_FENCE_CLEAR (R406). WriteFenceClear clears the WriteFence latch. -/
  | writeFenceClear
  /-- CAIRN_RECORD_WRITE (R415). A record admitted by the token bucket is written to its MRAM slot and verified. -/
  | cairnRecordWrite
  /-- CAIRN_SCAN_DONE (R415). The reset scan of the ring ends and the BOOT record is written. -/
  | cairnScanDone
  /-- RECORD_READ (R417). A read of Record returns the record at the cursor and advances ReadSeq. -/
  | recordRead
  /-- WINDOW_READ (R417). A read of Window returns up to 64 records and advances ReadSeq. -/
  | windowRead
  /-- SNAP_TAKE (R418). SnapTake starts a consistent copy of the ring into HBM. -/
  | snapTake
  /-- SNAP_DONE (R418). The snapshot copy ends and SnapStatus reads DONE. -/
  | snapDone
  /-- COMPACTION_DONE (R419). Compaction switches halves and erases the old half. -/
  | compactionDone
  /-- COMPACTION_RETRY (R421). A refused automatic compaction is tried again every 100 ms. -/
  | compactionRetry
  /-- FREEZE (R423). FREEZE_N low stops every clock domain within 64 ns. -/
  | freeze
  /-- RESET (R429). RESET_N low resets every domain except the always-on domain. -/
  | reset
  /-- START_T0 (R428). T0 is reached: straps are sampled and start-up proceeds through its steps. -/
  | startT0
  /-- STARTUP_COMPLETE (R428). HBM zero write ends; FAULT_N rises and the device enters service. -/
  | startupComplete
  /-- ALERT_CLEAR (R441). AlertClear clears bit 3 of AlertStatus. -/
  | alertClear
  /-- CAN_BUS_OFF (R377). The CAN FD controller enters bus-off, is counted in CanBusOff, and later recovers under ISO 11898-1. -/
  | canBusOff
  deriving DecidableEq, Repr

end Sys2Proof
end

