-- ==== Sys2Proof/Decode.lean ====
section
/-! DEFINITION. The decoder of the opcode table's words, which no row gives, so that every one of them is rejected (log
entry 12); and the instruction that a 32-bit word of a rope's program spells (R141, R142). -/

namespace Sys2Proof

/-- The command that a word spells by the table's bits: none, for no row has bits. -/
def decodeTableWord (_nbits _w : Nat) : Option Instr := none

/-! ### Instruction words (R141, R142)

Each function gives one major opcode, from the fields of its form: none where a func, cond or field value is not listed. -/

/-- ALU (R143, R144). -/
def aluWord (r : Issuer) (d a b : BitVec 5) (func : BitVec 11) : Option Instr :=
  let kf := func.getLsbD 10
  let w32 := func.getLsbD 9
  if func.extractLsb' 6 3 != 0 then none
  else match (func.extractLsb' 0 6).toNat with
    | 0x00 => some (.add r kf w32 d a b)
    | 0x01 => some (.sub r kf w32 d a b)
    | 0x02 => some (.adc r kf w32 d a b)
    | 0x03 => some (.sbc r kf w32 d a b)
    | 0x04 => some (.andOp r kf w32 d a b)
    | 0x05 => some (.orOp r kf w32 d a b)
    | 0x06 => some (.xorOp r kf w32 d a b)
    | 0x07 => some (.andn r kf w32 d a b)
    | 0x08 => some (.shl r kf w32 d a b)
    | 0x09 => some (.shr r kf w32 d a b)
    | 0x0A => some (.sar r kf w32 d a b)
    | 0x0B => some (.ror r kf w32 d a b)
    | 0x0C => some (.mul r kf w32 d a b)
    | 0x0D => some (.mulhu r kf w32 d a b)
    | 0x0E => some (.minu r kf w32 d a b)
    | 0x0F => some (.maxu r kf w32 d a b)
    | 0x10 => some (.clz r kf w32 d a)
    | 0x11 => some (.ctz r kf w32 d a)
    | 0x12 => some (.popc r kf w32 d a)
    | 0x13 => some (.bswap r kf w32 d a)
    | 0x14 => some (.cmp r kf w32 a b)
    | 0x15 => some (.tst r kf w32 a b)
    | _ => none

/-- SHI, BFX, BFI (R145). -/
def fieldWord (r : Issuer) (op : Nat) (d a : BitVec 5) (imm : BitVec 16) : Option Instr :=
  match op with
  | 7 => if imm.extractLsb' 8 8 != 0 then none else some (.shi r d a (imm.extractLsb' 6 2) (imm.extractLsb' 0 6))
  | 8 => if imm.extractLsb' 12 4 != 0 then none else some (.bfx r d a (imm.extractLsb' 6 6) (imm.extractLsb' 0 6))
  | _ => if imm.extractLsb' 12 4 != 0 then none else some (.bfi r d a (imm.extractLsb' 6 6) (imm.extractLsb' 0 6))

/-- IPL, IPS, IMG (R145). -/
def immWord (r : Issuer) (d : BitVec 5) (q op : BitVec 2) (b16 : Bool) (imm : BitVec 16) : Option Instr :=
  if b16 then none
  else match op.toNat with
    | 0 => some (.ipl r d q imm)
    | 1 => some (.ips r d q imm)
    | 2 => some (.img r d q imm)
    | _ => none

/-- ADDM and SWPM (R147). -/
def bankWord (r : Issuer) (d a b : BitVec 5) (func : BitVec 11) : Option Instr :=
  if func.getLsbD 10 || func.extractLsb' 1 8 != 0 then none
  else if func.getLsbD 0 then some (.swpm r (func.getLsbD 9) d ⟨a, false⟩ b)
  else some (.addm r (func.getLsbD 9) d ⟨a, false⟩ b)

/-- JMP and the conditional jumps (R159). -/
def jumpWord (r : Issuer) (cond : BitVec 4) (off : BitVec 22) : Option Instr :=
  match cond.toNat with
  | 0x0 => some (.jmp r off)
  | 0x1 => some (.jz r off)
  | 0x2 => some (.jnz r off)
  | 0x3 => some (.jc r off)
  | 0x4 => some (.jnc r off)
  | 0x5 => some (.jn r off)
  | 0x6 => some (.jnn r off)
  | 0x7 => some (.jv r off)
  | 0x8 => some (.jnv r off)
  | 0x9 => some (.jlt r off)
  | 0xA => some (.jge r off)
  | 0xB => some (.jgt r off)
  | 0xC => some (.jle r off)
  | 0xD => some (.jhi r off)
  | 0xE => some (.jls r off)
  | _ => none

/-- SCOPY, SFILL, SCMP and SSCAN (R164), each run to its end. -/
def stringWord (r : Issuer) (d a b : BitVec 5) (func : BitVec 11) : Option Instr :=
  let whole : Nat := 2 ^ 64
  if d != 0 || a != 0 then none
  else match func.toNat with
    | 0 => if b != 0 then none else some (.scopy r ⟨whole, false⟩)
    | 1 => some (.sfill r b whole)
    | 2 => if b != 0 then none else some (.scmp r ⟨whole, false⟩)
    | 3 => some (.sscan r b ⟨whole, false⟩)
    | _ => none

/-- EVW, EVS and TWAIT (R168). -/
def eventWord (r : Issuer) (d a b : BitVec 5) (func : BitVec 11) : Option Instr :=
  match func.toNat with
  | 0 => some (.evw r d a b)
  | 1 => if d != 0 then none else some (.evs r a b)
  | 2 => some (.twait r d a b)
  | _ => none

/-- KMV (R148). -/
def kmvWord (r : Issuer) (kd ka : BitVec 4) (w : BitVec 5) (func : BitVec 9) : Option Instr :=
  let lane : BitVec 3 := func.extractLsb' 6 3
  if func.extractLsb' 3 3 != 0 then none
  else match (func.extractLsb' 0 3).toNat with
    | 0 => some (.kmvWk r kd w lane)
    | 1 => some (.kmvKw r w ka lane)
    | 2 => some (.kmvLd r kd ⟨w, false⟩)
    | 3 => some (.kmvSt r ka w)
    | 4 => some (.kmvKk r kd ka)
    | _ => none

/-- KOP (R200). -/
def kopWord (r : Issuer) (kd ka kb : BitVec 4) (w : BitVec 5) (func : BitVec 9) : Option Instr :=
  match func.toNat with
  | 0 => if kb != 0 then none else some (.kcrc32c r kd ka w)
  | 1 => if kb != 0 then none else some (.kcrc32 r kd ka w)
  | 2 => some (.kh2 r kd ka kb w)
  | 3 => if w != 0 then none else some (.kcmpm r kd ka kb)
  | 4 => some (.ksplice r kd ka kb w)
  | 5 => if kb != 0 || w != 0 then none else some (.ktxl r kd ka)
  | _ => none

/-- KSAVE and KLOAD (R206). -/
def kstateWord (r : Issuer) (kd ka kb : BitVec 4) (w : BitVec 5) (func : BitVec 9) : Option Instr :=
  if kd != 0 || ka != 0 || kb != 0 || func.extractLsb' 1 8 != 0 then none
  else if func.getLsbD 0 then some (.kload r ⟨w, false⟩) else some (.ksave r w)

/-- MFS and MTS (R149). -/
def sysregWord (r : Issuer) (d a : BitVec 5) (imm : BitVec 16) : Option Instr :=
  if imm.extractLsb' 12 3 != 0 then none
  else if imm.getLsbD 15 then some (.mts r a (imm.extractLsb' 0 12)) else some (.mfs r d (imm.extractLsb' 0 12))

/-- FEMIT, FEMIT.R and FNEW (R153 to R155). -/
def frmWord (r : Issuer) (d a b : BitVec 5) (func : BitVec 11) : Option Instr :=
  match func.toNat with
  | 0 => some (.femit r a b)
  | 1 => some (.femitR r a)
  | 2 => if d != 0 then none else some (.fnew r a b)
  | _ => none

/-- RET, JR (R160) and NOP, FENCE, PDONE (R150). -/
def funcWord (r : Issuer) (sys : Bool) (a : BitVec 5) (func : BitVec 11) : Option Instr :=
  match sys, func.toNat with
  | false, 0 => some (.ret r)
  | false, 1 => some (.jr r a)
  | true, 0 => some (.nop r)
  | true, 1 => some (.fence r)
  | true, 2 => some (.pdone r)
  | _, _ => none

/-- The instruction that a word spells for the rope that fetches it, none where it spells none (R142). What no word holds is
taken as it is where nothing goes wrong: no read finds a parity error, and a string instruction is not interrupted. A field that
a layout gives as 0 must be 0: DEDUCED, log entry 128. -/
def wordInstr (r : Issuer) (v : BitVec 32) : Option Instr :=
  let d : BitVec 5 := v.extractLsb' 21 5
  let a : BitVec 5 := v.extractLsb' 16 5
  let b : BitVec 5 := v.extractLsb' 11 5
  let func : BitVec 11 := v.extractLsb' 0 11
  let imm : BitVec 16 := v.extractLsb' 0 16
  let kd : BitVec 4 := v.extractLsb' 22 4
  let ka : BitVec 4 := v.extractLsb' 18 4
  let kb : BitVec 4 := v.extractLsb' 14 4
  let w : BitVec 5 := v.extractLsb' 9 5
  let kfunc : BitVec 9 := v.extractLsb' 0 9
  match (v.extractLsb' 26 6).toNat with
  | 0x01 => aluWord r d a b func
  | 0x02 => some (.addi r d a imm)
  | 0x03 => some (.cmpi r a imm)
  | 0x04 => some (.andi r d a imm)
  | 0x05 => some (.ori r d a imm)
  | 0x06 => some (.xori r d a imm)
  | 0x07 => fieldWord r 7 d a imm
  | 0x08 => fieldWord r 8 d a imm
  | 0x09 => fieldWord r 9 d a imm
  | 0x0A => immWord r d (v.extractLsb' 19 2) (v.extractLsb' 17 2) (v.getLsbD 16) imm
  | 0x10 => some (.lb r d a imm false)
  | 0x11 => some (.lh r d a imm false)
  | 0x12 => some (.lw r d a imm false)
  | 0x13 => some (.ld r d a imm false)
  | 0x18 => some (.sb r d a imm)
  | 0x19 => some (.sh r d a imm)
  | 0x1A => some (.sw r d a imm)
  | 0x1B => some (.sd r d a imm)
  | 0x1C => bankWord r d a b func
  | 0x20 => jumpWord r kd (v.extractLsb' 0 22)
  | 0x21 => some (.call r (v.extractLsb' 0 26))
  | 0x22 => funcWord r false a func
  | 0x23 => if v.extractLsb' 3 23 != 0 then none else some (.repb r (v.extractLsb' 0 3))
  | 0x24 => stringWord r d a b func
  | 0x25 => eventWord r d a b func
  | 0x30 => kmvWord r kd ka w kfunc
  | 0x31 => kopWord r kd ka kb w kfunc
  | 0x32 => kstateWord r kd ka kb w kfunc
  | 0x3C => sysregWord r d a imm
  | 0x3D => frmWord r d a b func
  | 0x3E => funcWord r true a func
  | _ => none

end Sys2Proof
end

