-- ==== Sys2Proof/Machine/Data.lean ====
section
/-! DEFINITION. Operations over plain data that every family uses: sparse maps, byte memories, byte order
(R6, R25, R358), the CRC of R201 and bit fields. -/

namespace Sys2Proof.Machine

/-! ### Sparse maps -/

/-- The entry of a key. -/
def mfind {α : Type} : Map α → Nat → Option α
  | [], _ => none
  | (k, v) :: m, a => if k = a then some v else mfind m a

/-- The entry of a key, or the map's default. -/
def mget {α : Type} (m : Map α) (k : Nat) (d : α) : α := (mfind m k).getD d

/-- Put an entry at a key, keeping the keys in rising order. -/
def mset {α : Type} : Map α → Nat → α → Map α
  | [], a, x => [(a, x)]
  | (k, v) :: m, a, x =>
    if k = a then (a, x) :: m
    else if a < k then (a, x) :: (k, v) :: m
    else (k, v) :: mset m a x

/-- Remove the entry of a key. -/
def merase {α : Type} (m : Map α) (a : Nat) : Map α := m.filter (fun e => e.1 != a)

/-- Change the entry of a key, from the default where there is none. -/
def mmod {α : Type} (m : Map α) (k : Nat) (d : α) (f : α → α) : Map α := mset m k (f (mget m k d))

/-- The keys rise strictly. -/
def keysRise {α : Type} : Map α → Bool
  | [] => true
  | [_] => true
  | (a, _) :: (b, y) :: m => decide (a < b) && keysRise ((b, y) :: m)

/-! ### Byte memories: an unlisted byte reads 0 -/

/-- Byte `a` of a memory: one that is not listed reads 0 (DESIGN CHOICE, log entry 24). -/
def rd8 (m : List Host.Cell) (a : Nat) : Byte := mget m a 0

def wr8 (m : List Host.Cell) (a : Nat) (b : Byte) : List Host.Cell :=
  if b = 0 then merase m a else mset m a b

/-- The canonical form of a byte memory: addresses rise and no listed byte is 0. -/
def cellsWf (m : List Host.Cell) : Bool := keysRise m && m.all (fun e => e.2 != 0)

/-- The `n` bytes from address `a`. -/
def rdN (m : List Host.Cell) (a : Nat) : Nat → List Byte
  | 0 => []
  | n + 1 => rd8 m a :: rdN m (a + 1) n

/-- Store bytes from address `a` on. -/
def wrN (m : List Host.Cell) (a : Nat) : List Byte → List Host.Cell
  | [] => m
  | b :: bs => wrN (wr8 m a b) (a + 1) bs

/-! ### Byte order -/

/-- The value of bytes, the first the least significant. -/
def ofLE : List Byte → Nat
  | [] => 0
  | b :: bs => b.toNat + 256 * ofLE bs

/-- The `n` low bytes of a value, least significant first. -/
def toLE : Nat → Nat → List Byte
  | 0, _ => []
  | n + 1, v => BitVec.ofNat 8 v :: toLE n (v / 256)

/-- The value of bytes, the first the most significant. -/
def ofBE (bs : List Byte) : Nat := bs.foldl (fun a b => a * 256 + b.toNat) 0

/-- The `n` low bytes of a value, most significant first. -/
def toBE (n v : Nat) : List Byte := (toLE n v).reverse

/-- Bytes `i` to `i + n - 1` of a list, 0 beyond its end. -/
def slice (bs : List Byte) (i n : Nat) : List Byte :=
  let t := (bs.drop i).take n
  t ++ List.replicate (n - t.length) 0

/-- The list with `new` in place of what stands from position `i` on. -/
def splice (bs : List Byte) (i : Nat) (new : List Byte) : List Byte :=
  bs.take i ++ new ++ bs.drop (i + new.length)

/-- Element `i` of a list replaced. -/
def lset {α : Type} (l : List α) (i : Nat) (x : α) : List α := l.set i x

/-- Element `i` of a list, or a default. -/
def lget {α : Type} (l : List α) (i : Nat) (d : α) : α := (l[i]?).getD d

/-- Bits [hi:lo] of a value. -/
def bits (v hi lo : Nat) : Nat := v / 2 ^ lo % 2 ^ (hi + 1 - lo)

/-- Bit `i` of a value. -/
def bit (v i : Nat) : Bool := v / 2 ^ i % 2 = 1

def b2n (b : Bool) : Nat := if b then 1 else 0

/-- Ceiling of a quotient. -/
def cdiv (a b : Nat) : Nat := (a + b - 1) / b

/-- A signed value in `w` bits, two's complement. -/
def ofInt (w : Nat) (i : Int) : Nat := (BitVec.ofInt w i).toNat

/-! ### CRC (R201) -/

def crcBit (poly c : Nat) : Nat := if c % 2 = 1 then (c / 2) ^^^ poly else c / 2

def crcByte (poly c : Nat) (b : Byte) : Nat :=
  let c := c ^^^ b.toNat
  crcBit poly (crcBit poly (crcBit poly (crcBit poly
    (crcBit poly (crcBit poly (crcBit poly (crcBit poly c)))))))

/-- The loop of R201 from prior value `p`: complement, the bytes in order, complement. -/
def crc (poly p : Nat) (bs : List Byte) : Nat :=
  (bs.foldl (crcByte poly) (p ^^^ 0xFFFFFFFF)) ^^^ 0xFFFFFFFF

/-- CRC-32C: 0x1EDC6F41 reflected. -/
def crc32c (bs : List Byte) : Nat := crc 0x82F63B78 0 bs

/-- CRC-32 of IEEE 802.3: the Ethernet FCS. -/
def crc32 (bs : List Byte) : Nat := crc 0xEDB88320 0 bs

/-- The sum of 16-bit big-endian words in one's complement, as UDP over IPv6 takes it (R22). -/
def onesSum : List Byte → Nat
  | [] => 0
  | [a] => a.toNat * 256
  | a :: b :: t => a.toNat * 256 + b.toNat + onesSum t

def onesFold (n : Nat) : Nat :=
  let n := n % 65536 + n / 65536
  let n := n % 65536 + n / 65536
  n % 65536 + n / 65536

/-! ### Serial comparison -/

/-- `a` lies before `b`, modulo 2^32 (R34). -/
def psnLt (a b : BitVec 32) : Bool := a != b && (b - a).toNat < 2 ^ 31

def psnLe (a b : BitVec 32) : Bool := a == b || psnLt a b

/-- The version after `v`: 0 is never used (R75). DEDUCED, log entry 84. -/
def verNext (v : BitVec 16) : BitVec 16 := if v = 0xFFFF#16 then 1#16 else v + 1

/-- A version's place on the ring of 65,535 versions. -/
def verDist (a b : BitVec 16) : Nat := (b.toNat + 65535 - a.toNat) % 65535

/-- `a` is at or before `b` in the serial order of versions (R77). -/
def verLe (a b : BitVec 16) : Bool := verDist a b < 32768

/-- The lowest number not in a rising list, from `lo` on. -/
def lowestFree (lo : Nat) : List Nat → Nat
  | [] => lo
  | u :: us => if u < lo then lowestFree lo us else if u = lo then lowestFree (lo + 1) us else lo

/-- Insert into a rising list. -/
def insertNat (a : Nat) : List Nat → List Nat
  | [] => [a]
  | u :: us => if a < u then a :: u :: us else if a = u then u :: us else u :: insertNat a us

end Sys2Proof.Machine
end

