-- ==== Sys2Proof/Machine/Aes.lean ====
section
/-! DEFINITION. AES-256 (FIPS 197), the cipher of Vault (R245, R246, R248), over blocks whose first byte is the most
significant (log entry 18). -/

namespace Sys2Proof.Machine

/-! ### The field of 256 elements -/

def xtime (a : Nat) : Nat := if a < 128 then 2 * a else (2 * a) ^^^ 0x11B

/-- The product, by the bits of the first factor. -/
def gmul (a b : Nat) : Nat :=
  ((List.range 8).foldl (fun (e : Nat × Nat) i => (if bit a i then e.1 ^^^ e.2 else e.1, xtime e.2)) (0, b)).1

/-- The inverse of an element, 0 for 0: its power 254. -/
def ginv (a : Nat) : Nat :=
  let a2 := gmul a a
  let a3 := gmul a2 a
  let a12 := gmul (gmul a3 a3) (gmul a3 a3)
  let a15 := gmul a12 a3
  let a60 := gmul (gmul a15 a15) (gmul a15 a15)
  let a63 := gmul a60 a3
  let a126 := gmul a63 a63
  gmul (gmul a126 a) (gmul a126 a)

def rotl8 (a n : Nat) : Nat := (a * 2 ^ n + a / 2 ^ (8 - n)) % 256

/-- The S-box. -/
def sbox (a : Nat) : Nat :=
  let b := ginv a
  b ^^^ rotl8 b 1 ^^^ rotl8 b 2 ^^^ rotl8 b 3 ^^^ rotl8 b 4 ^^^ 0x63

def sboxTable : List Nat := (List.range 256).map sbox

def subByte (a : Nat) : Nat := lget sboxTable a 0
def unsubByte (a : Nat) : Nat := sboxTable.findIdx (· == a)

/-! ### Key expansion -/

def xorList (a b : List Nat) : List Nat := List.zipWith (· ^^^ ·) a b

/-- Word `i` of the schedule from the words before it, the last first. -/
def nextWord (i : Nat) (ws : List (List Nat)) : List Nat :=
  let t := lget ws 0 []
  let t := if i % 8 = 0 then
      xorList ((t.drop 1 ++ t.take 1).map subByte) [(List.range (i / 8 - 1)).foldl (fun a _ => xtime a) 1, 0, 0, 0]
    else if i % 8 = 4 then t.map subByte
    else t
  xorList (lget ws 7 []) t

/-- The 15 round keys of a 32-byte key. -/
def roundKeys (key : List Byte) : List (List Nat) :=
  let k := (slice key 0 32).map (·.toNat)
  let first := ((List.range 8).map (fun i => (k.drop (4 * i)).take 4)).reverse
  let ws := ((List.range 52).foldl (fun ws i => nextWord (i + 8) ws :: ws) first).reverse
  (List.range 15).map (fun i => ((ws.drop (4 * i)).take 4).flatten)

/-! ### Rounds: byte `r + 4c` of the state is row r of column c -/

def shiftRows (b : List Nat) : List Nat := (List.range 16).map (fun i => lget b ((i + 4 * (i % 4)) % 16) 0)
def unshiftRows (b : List Nat) : List Nat := (List.range 16).map (fun i => lget b ((i + 12 * (i % 4)) % 16) 0)

/-- Each column times the circulant matrix of a row of coefficients. -/
def mixWith (m : List Nat) (b : List Nat) : List Nat :=
  (List.range 16).map (fun i =>
    (List.range 4).foldl (fun a j => a ^^^ gmul (lget m ((j + 4 - i % 4) % 4) 0) (lget b (i / 4 * 4 + j) 0)) 0)

def aesRounds (ks : List (List Nat)) (b : List Nat) : List Nat :=
  let b := xorList b (lget ks 0 [])
  let b := (List.range 13).foldl (fun b i =>
    xorList (mixWith [2, 3, 1, 1] (shiftRows (b.map subByte))) (lget ks (i + 1) [])) b
  xorList (shiftRows (b.map subByte)) (lget ks 14 [])

def aesUnrounds (ks : List (List Nat)) (b : List Nat) : List Nat :=
  let b := xorList b (lget ks 14 [])
  let b := (List.range 13).foldl (fun b i =>
    mixWith [14, 11, 13, 9] (xorList ((unshiftRows b).map unsubByte) (lget ks (13 - i) []))) b
  xorList ((unshiftRows b).map unsubByte) (lget ks 0 [])

def blockBytes (x : BitVec 128) : List Nat := (toBE 16 x.toNat).map (·.toNat)

def blockOfBytes (b : List Nat) : BitVec 128 := BitVec.ofNat 128 (b.foldl (fun a x => a * 256 + x) 0)

/-- Encryption of a block under a 32-byte key. PRESUMED, log entry 18. -/
def aesEncrypt (key : List Byte) (x : BitVec 128) : BitVec 128 := blockOfBytes (aesRounds (roundKeys key) (blockBytes x))

/-- Decryption of a block. -/
def aesDecrypt (key : List Byte) (x : BitVec 128) : BitVec 128 := blockOfBytes (aesUnrounds (roundKeys key) (blockBytes x))

end Sys2Proof.Machine
end

