-- ==== Sys2Proof/Config.lean ====
section
/-! DEFINITION. What an implementation fixes and the spec does not state: constants and free values
without a body, so that no proof can see them. The free values of a run are `freeNat` applied to the
counter `State.free`. -/

namespace Sys2Proof.Config

/-- Silicon stepping (R376: CONST, no value given). Log entry 13. -/
opaque siliconStep : BitVec 8

/-- Module serial number (R376: CONST, no value given). Log entry 13. -/
opaque serial : BitVec 64

/-- Version of the boot ROM programs (R376: CONST, no value given). Log entry 13. -/
opaque bootRomVersion : BitVec 32

/-- The uniform 16-bit draws of the WRED generators (R291), by the number of the draw. Log entry 15. -/
opaque freeDraw : Nat → BitVec 16

/-- The slew rate in ppm that the device chooses, held to the 100 ppm of R346 where it is used, by the
number of the choice. Log entry 16. -/
opaque slewPpm : Nat → Nat

/-- The UDP source port of an IPv6/UDP frame: a hash of TID, SRC_EP and OSTREAM that R22 does not name.
Log entry 17. -/
opaque udpPortHash : BitVec 12 → BitVec 24 → BitVec 16 → BitVec 16

/-- Sign and payload of the NaN that a sum of F64 values gives, by the operands: IEEE 754 leaves them open (R265).
Log entry 19. -/
opaque nanBits : BitVec 64 → BitVec 64 → BitVec 64

/-- The bits of a scan chain but one, and the words of a memory whose size the spec does not give, by dump target (R425
gives none). Log entry 20. -/
opaque chainBits : Nat → BitVec 24

/-- A bit of a scan chain in freeze, by the number of the freeze, the target and the position (R425 gives no layout). Log
entry 20. -/
opaque chainBit : Nat → Nat → Nat → Bool

/-- A word of a memory target in freeze that the spec does not lay out by address, by the number of the freeze, the target
and the word address. Log entry 20. -/
opaque memWord : Nat → Nat → Nat → BitVec 64

/-- Bytes that one store takes in the parameter area (R419 gives none), by object, and by plan section and stack for what
else the area holds. Log entry 22. -/
opaque storeBytes : Nat → BitVec 10

/-- A byte that an entry of Bivouac has saved, by the number of the entry and the address (R389 gives no layout). Log entry
62. -/
opaque savedByte : Nat → Nat → BitVec 8

/-- Any other value the spec leaves open, by the number of the draw. -/
opaque freeNat : Nat → Nat

end Sys2Proof.Config
end

