-- ==== Sys2Proof/Machine/State.lean ====
section
/-! DEFINITION. The state of the block as plain data, and the state right after reset. The default of each
field is its reset value; INVENTORY.md names the rule that gives each piece and log entries 1, 5, 6 and 14
name the values the spec leaves open. Times are in units of 1/90 ns of the model's local clock (log 1). -/

namespace Sys2Proof.Machine

/-- Faults: use that the spec calls unsupported, whose results R9 calls undefined. -/
inductive Fault where
  /-- Unsupported use under rule R`rule` (R9, R411): the results are undefined, so the model stops. Raised by
  the meaning whose operands show the case. Safe: nothing is claimed of what follows. -/
  | unsupported (rule : Nat)
  deriving DecidableEq, Repr

/-- Refusals. -/
inductive Refusal where
  /-- A command whose meaning is not written. Raised by the dispatcher only. Safe. -/
  | notModelled (mnemonic : String)
  deriving DecidableEq, Repr

/-! ### Frames -/

/-- The SXT header (R25). -/
structure Sxt where
  ver : BitVec 4 := 1
  typ : BitVec 4 := 0
  cls : BitVec 3 := 0
  colour : BitVec 2 := 0
  opn : Bool := false
  retx : Bool := false
  last : Bool := false
  sub : BitVec 4 := 0
  tid : BitVec 12 := 0
  dst : BitVec 24 := 0
  src : BitVec 24 := 0
  ostream : BitVec 16 := 0
  rsver : BitVec 16 := 0
  len : BitVec 16 := 0
  psn : BitVec 32 := 0
  tag : BitVec 16 := 0
  xarg : BitVec 16 := 0
  addr : BitVec 64 := 0
  deriving DecidableEq, Repr

/-- A pairing entry (R240): what the device remembers of a request toward a MEMORY or PEER port. -/
structure Pair where
  /-- The model's own number of the request that holds the entry. -/
  id : Nat := 0
  lp : Nat := 0
  /-- The far endpoint of the sender context that carries the request. -/
  ctx : BitVec 24 := 0
  /-- The number of the entry on its port, sent as TAG. -/
  no : Nat := 0
  kind : BitVec 4 := 0
  tid : BitVec 12 := 0
  hostEp : BitVec 24 := 0
  ostream : BitVec 16 := 0
  tag : BitVec 16 := 0
  psn : BitVec 32 := 0
  hostLp : Nat := 0
  taddr : BitVec 64 := 0
  gaddr : BitVec 64 := 0
  enc : Bool := false
  /-- Bytes cut from the front of the reply, and the bytes the host asked for (R247). -/
  trim : Nat := 0
  want : Nat := 0
  /-- The scan an RD was split for, and the row number of its first row (R258). -/
  scan : Option Nat := none
  row : Nat := 0
  deriving DecidableEq, Repr

/-- A received frame the device holds (R72, R117, R280). -/
structure Frame where
  lp : Nat := 0
  /-- Arrival instant: FT (R64). -/
  arr : Nat := 0
  /-- The frame from destination address through FCS, with the fields Col writes. -/
  bytes : List Byte := []
  /-- Offset of the SXT header (HDR_OFF). -/
  off : Nat := 14
  ecn : BitVec 2 := 0
  head : Nat := 0
  cells : List Nat := []
  dkind : Nat := 0
  destLp : Nat := 0
  srcLp : Option Nat := none
  level : Nat := 0
  rule : List Byte := []
  /-- The frame came on a class in credit mode (R289). -/
  credited : Bool := false
  /-- A paired RSP carries its entry to Vault (R241). -/
  pair : Option Pair := none
  deriving DecidableEq, Repr

/-- An output: one copy, derived frame or frame of the device's own on its way to a port (R285). -/
structure Output where
  id : Nat := 0
  /-- The received frame whose cells it shares. -/
  frame : Option Nat := none
  hdr : Sxt := {}
  payload : List Byte := []
  lp : Nat := 0
  /-- An ACK, NAK or CRED of the transport engine (R305). -/
  ctl : Bool := false
  /-- The device originates it: SRC_EP, PSN, OPEN and RETX are set at sending (R153). -/
  orig : Bool := false
  /-- A derived frame keeps the SRC_EP of its build slot (R155). -/
  keepSrc : Bool := false
  /-- It counts toward the in-flight count of its RSVER (R81). -/
  counted : Bool := false
  owner : Bool := true
  mirror : Bool := false
  head : Nat := 0
  cells : List Nat := []
  ecn : BitVec 2 := 0
  credited : Bool := false
  /-- Settings of the port in force when it was queued (R62). -/
  encap : Bool := false
  tagCtl : Nat := 0
  ip6Hi : Nat := 0
  ip6Lo : Nat := 0
  role : Nat := 0
  credMode : Nat := 0
  pfcEn : Nat := 0
  /-- What a request on a MEMORY or PEER port will put into its pairing entry (R240). -/
  req : Option Pair := none
  /-- The host request it serves, as context endpoint and PSN (R14). -/
  host : Option (BitVec 24 × BitVec 32) := none
  /-- The entry of a paired RSP (R241). -/
  pair : Option Pair := none
  /-- It has waited for a pairing entry and was counted (R240). -/
  pairWaited : Bool := false
  /-- The SRC_EP of its ordering domain, where that is no more the header's (R32, R304). -/
  dom : Option (BitVec 24) := none
  /-- The model's own number of the derived WR that it is a leg of, 0 for none (R14, R155). -/
  derived : Nat := 0
  /-- Its place among the RESPONSEs of the management agent, 0 for none (R371). -/
  respNo : Nat := 0
  /-- The Piton buffer that a retransmission reads, as a consumer that is not its owner (R287, R298). -/
  reads : Option (Nat × Nat) := none
  deriving DecidableEq, Repr

/-- A frame or word that has left the device. -/
inductive Out where
  /-- A frame on a logical port, destination address through FCS. -/
  | frame (lp : Nat) (bytes : List Byte)
  /-- A CAN FD frame: identifier and payload (R363). -/
  | can (ident : BitVec 29) (data : List Byte)
  /-- The sideband target acknowledged, and returned a byte on a read (R392). -/
  | sideband (data : Option Byte)
  /-- Data shifted out by the TAP (R425). -/
  | tdo (data : BitVec 128)
  deriving DecidableEq, Repr

/-! ### Time, dictionary and the device as a whole -/

/-- A PTP frame handed to the slave: its port, FT at the MAC in ns, and its bytes from the PTP header on (R345). -/
structure PtpFrame where
  lp : Nat
  ft : Nat
  bytes : List Byte
  deriving DecidableEq, Repr

/-- A master that the slave has heard of: its port identity, the data set that its Announce compares by, the interval of its
Announces, and the instants of the last two (R345, log entry 55). -/
structure PtpMaster where
  id : Nat
  rank : Nat
  every : Nat
  at_ : Nat
  before : Option Nat := none
  deriving DecidableEq, Repr

/-- A Sync that waits for its Follow_Up: sequence number, FT of its arrival in ns, correction in ns / 65,536. -/
structure PtpSync where
  seq : Nat
  t2 : Nat
  corr : Int
  deriving DecidableEq, Repr

/-- A Delay_Req that waits for its Delay_Resp: sequence number, FT of its departure in ns, and the way of its Sync, from
departure to arrival, in ns / 65,536. -/
structure PtpAsk where
  seq : Nat
  t3 : Nat
  way : Int
  deriving DecidableEq, Repr

/-- The PTP slave (R345). -/
structure PtpSt where
  masters : List PtpMaster := []
  sync : Option PtpSync := none
  ask : Option PtpAsk := none
  /-- The sequence number of the next Delay_Req. -/
  nextSeq : Nat := 0
  /-- The interval of the Syncs, in 1/90 ns. -/
  syncEvery : Option Nat := none
  deriving DecidableEq, Repr

/-- Fabric time (R342 to R347). -/
structure TimeSt where
  /-- Local time since reset, in 1/90 ns. -/
  now : Nat := 0
  /-- The instant from which the clock has had its present frequency, and the dp-cycles counted up to it (R109, R129). -/
  cycAt : Nat := 0
  cycBase : Nat := 0
  /-- FT less local time, in 1/90 ns. -/
  ftOrigin : Int := 0
  /-- Slew still to apply, in 1/90 ns. -/
  slewLeft : Int := 0
  /-- The rate of FT above nominal in HOLDOVER and until the next measurement, in parts of 10^9 (R347). -/
  rate : Int := 0
  state : Nat := 0
  goodRun : Nat := 0
  firstSinceLost : Bool := true
  lastMeas : Option Nat := none
  holdoverAt : Option Nat := none
  /-- The last valid TOD sentence: its seconds, and the instant at which it ended. -/
  tod : Option (Nat × Nat) := none
  /-- PTP frames handed to the slave and not yet processed. -/
  ptpQ : List PtpFrame := []
  ptp : PtpSt := {}
  deriving DecidableEq, Repr

/-- The answer the server gave to the last access. -/
inductive Answer where
  | none
  | ok (data : List Byte)
  | abort (code : Nat) (detail : Nat)
  deriving DecidableEq, Repr

/-- A DOMAIN image (R372). -/
structure Image where
  opened : Bool := false
  closed : Bool := false
  data : List Host.Cell := []
  len : Nat := 0
  deriving DecidableEq, Repr

/-- An open segmented transfer of SDP (R366). -/
structure Xfer where
  node : Nat
  pri : BitVec 3
  seq : BitVec 6
  wr : Bool
  key : Nat
  total : Nat
  crc : Nat
  data : List Byte
  nextSeg : Nat
  lastAt : Nat
  deriving DecidableEq, Repr

/-- An in-band request held by the management agent (R373). -/
structure MgmtReq where
  hdr : Sxt
  payload : List Byte
  lp : Nat
  deriving DecidableEq, Repr

/-- What SDP remembers of the last request of a node (R367). -/
structure LastReq where
  func : Nat
  seq : Nat
  at_ : Nat
  reply : List Out
  deriving DecidableEq, Repr

/-- The dictionary server (R361 to R375). -/
structure DictSt where
  storeQ : List (Nat × Nat) := []
  lastStore : List (Nat × Nat) := []
  storedPlan : List (Nat × List Byte) := []
  images : List (Nat × Image) := []
  xfers : List Xfer := []
  lastReq : List (Nat × LastReq) := []
  mgmtQ : List MgmtReq := []
  deriving DecidableEq, Repr

/-- Where the device is in R428. -/
inductive Phase where
  /-- No valid VIN. -/
  | unpowered
  /-- VIN is valid; T0 has not come. -/
  | held
  /-- From T0 until FAULT_N rises. -/
  | starting
  | run
  deriving DecidableEq, Repr

/-- The device as a whole (R1, R408, R428, R434). -/
structure SysSt where
  skx9624 : Bool := false
  nodePins : BitVec 7 := 1
  sbPins : BitVec 2 := 0
  node : BitVec 7 := 1
  sbaddr : BitVec 2 := 0
  deviceId : BitVec 4 := 1
  resetCause : Nat := 1
  pendingCause : Nat := 1
  resetN : Bool := true
  freezeN : Bool := true
  faultN : Bool := false
  thermN : Bool := true
  wakeOut : Bool := false
  phase : Phase := .held
  frozen : Bool := false
  thermalShut : Bool := false
  basecampFailed : Bool := false
  failCause : Nat := 0
  wdExpiries : Nat := 0
  thermShutdowns : Nat := 0
  everInService : Bool := false
  /-- Every core has been fenced: only a reset returns the device to service (R408, code 5). -/
  fencedOut : Bool := false
  svcOut : Bool := false
  vinLow : Bool := false
  inBasecamp : Bool := false
  t0 : Nat := 0
  cairnScanned : Bool := false
  /-- The level of TRST_N (R434). -/
  trstN : Bool := true
  dieTemp : Int := 0
  /-- Bit 0 of AlertStatus, and the last comparison of the temperatures (R439). -/
  thermWarn : Bool := false
  thermAt : Nat := 0
  deriving DecidableEq, Repr

/-! ### Ports and transport -/

/-- One logical port (R50 to R62, R43 to R47). -/
structure Port where
  /-- LinkState (R61). -/
  link : Nat := 1
  trainAt : Nat := 0
  /-- PartnerState (R61). -/
  partner : Nat := 0
  pulseCount : BitVec 32 := 0
  nextPulse : Option Nat := none
  /-- The instant of the last valid PULSE, or of entry into service: the loss timer runs from it (R47). -/
  lossFrom : Option Nat := none
  missedFrom : Option Nat := none
  dstMac : BitVec 48 := 0xFFFFFFFFFFFF#48
  dstIp6 : BitVec 128 := 0xFF020000000000000000000000000001#128
  partnerEp : Option (BitVec 24) := none
  credSeen : Bool := false
  credLimit : List (BitVec 32) := List.replicate 8 0
  cellsSent : List (BitVec 32) := List.replicate 8 0
  /-- Cells of each class received, which the limits of CRED grant ahead of (R44, R289). -/
  grantLimit : List (BitVec 32) := List.replicate 8 0
  sentLimit : List (BitVec 32) := List.replicate 8 0
  lastCred : Nat := 0
  pauseUntil : List (Option Nat) := List.replicate 8 none
  xoffAt : List (Option Nat) := List.replicate 8 none
  ingress : List Nat := List.replicate 8 0
  /-- The open pitch of each class, by number. -/
  openPitch : List (Option Nat) := List.replicate 8 none
  deriving DecidableEq, Repr

/-- A receiver context, keyed by the sender's endpoint (R35, R36). -/
structure RxCtx where
  cum : BitVec 32 := 0xFFFFFFFF#32
  /-- PSNs received above `cum`. -/
  got : List (BitVec 32) := []
  /-- Missing PSNs for which SEQ_GAP was sent. -/
  reported : List (BitVec 32) := []
  /-- Accepted PSNs not yet settled (R444). -/
  unsettled : List (BitVec 32) := []
  lastAck : BitVec 32 := 0xFFFFFFFF#32
  ackDue : Option Nat := none
  /-- A gap has closed and its ACK has not gone (R37). -/
  gapClosed : Bool := false
  lastEvent : Nat := 0
  tid : BitVec 12 := 0
  ostream : BitVec 16 := 0
  tag : BitVec 16 := 0
  lp : Nat := 0
  deriving DecidableEq, Repr

/-- An output sent and not yet acknowledged (R287, R38). -/
structure Sent where
  psn : BitVec 32
  out : Output
  retx : Bool := false
  /-- The instant of its retransmission (R38). -/
  retxAt : Option Nat := none
  /-- Held in a Piton buffer: pool and index (R295). -/
  spilled : Option (Nat × Nat) := none
  /-- The pairing entry it holds, by the entry's `id`. -/
  pairId : Option Nat := none
  deriving DecidableEq, Repr

/-- A sender context, keyed by its two endpoints: the destination where this device is the source, else both (R34,
R35, R38). -/
structure TxCtx where
  next : BitVec 32 := 0
  cum : BitVec 32 := 0xFFFFFFFF#32
  sent : List Sent := []
  acked : Bool := false
  /-- The retransmission timer's deadline. -/
  due : Option Nat := none
  transient : Nat := 0
  lp : Nat := 0
  lastEvent : Nat := 0
  deriving DecidableEq, Repr

/-- A host WR whose legs have not all answered (R14). -/
structure HostTx where
  ep : BitVec 24
  psn : BitVec 32
  hdr : Sxt
  lp : Nat
  legs : Nat
  /-- The model's own number of a derived WR, 0 for a WR of a host. -/
  derived : Nat := 0
  deriving DecidableEq, Repr

/-- An output that admission has discarded and R287 retains, and that its context cannot number yet; from `due` on it joins
its queue again. -/
structure Parked where
  out : Output
  due : Nat
  /-- Held in a Piton buffer: pool and index (R295). -/
  buf : Option (Nat × Nat) := none
  deriving DecidableEq, Repr

structure Xport where
  rx : Map RxCtx := []
  tx : Map TxCtx := []
  host : List HostTx := []
  parked : List Parked := []
  /-- Endpoints whose sender contexts were lost, and the instant until which nothing is sent to them (R35). -/
  quiet : Map Nat := []
  deriving DecidableEq, Repr

/-! ### Col, tables and pitches -/

/-- A rule-table entry (R98). -/
structure RuleEntry where
  key : BitVec 64 := 0
  first : BitVec 16 := 0
  last : BitVec 16 := 0
  valid : Bool := false
  result : List Byte := []
  deriving DecidableEq, Repr

/-- A line of the rule cache: what HBM holds for a key, nothing for a negative line (R100). -/
structure RuleLine where
  key : BitVec 64
  entries : List RuleEntry
  deriving DecidableEq, Repr

/-- A frame that waits behind a rule-table read (R74). -/
structure RuleWait where
  frame : Nat
  /-- Keys whose reads are outstanding. -/
  misses : List (BitVec 64)
  /-- Keys whose reads failed with MEDIA on every copy (R331). -/
  failed : List (BitVec 64) := []
  deriving DecidableEq, Repr

/-- Buckets of one tenant's policer, in units of 1/7200000 byte (R66, R67). -/
structure Policer where
  c : Nat
  e : Nat
  at_ : Nat
  deriving DecidableEq, Repr

/-- The rule-set versions (R75 to R84). -/
structure VerSt where
  current : BitVec 16 := 1
  draining : BitVec 16 := 0
  staging : BitVec 16 := 0
  /-- Frames in flight, by version. -/
  inFlight : Map Nat := []
  /-- The FT at which the waiting commit fell due (R79). -/
  waiting : Option Nat := none
  /-- A reclaim walk runs; walks that wait. -/
  walk : Option Bool := none
  walkQ : List Bool := []
  /-- The version whose discard walk has not ended, 0 for none (R84). -/
  discarding : BitVec 16 := 0
  deriving DecidableEq, Repr

structure LearnReq where
  tid : BitVec 12
  ep : BitVec 24
  lp : Nat
  deriving DecidableEq, Repr

structure ColSt where
  policers : Map Policer := []
  waiting : List RuleWait := []
  learnQ : List LearnReq := []
  ver : VerSt := {}
  cache : List RuleLine := []
  deriving DecidableEq, Repr

/-- A table command block (R105, R138). -/
structure TblBlock where
  op : Nat := 0
  table : Nat := 0
  key : BitVec 64 := 0
  version : BitVec 16 := 0
  /-- The version that was STAGING when the command was issued (R82). -/
  target : BitVec 16 := 0
  arg : BitVec 32 := 0
  result : List Byte := List.replicate 32 0
  cursor : Nat := 0
  status : Nat := 0
  /-- Operation and table of the command that Go has issued (R101). -/
  goOp : Nat := 0
  goTable : Nat := 0
  outEntry : BitVec 64 := 0
  outVersions : BitVec 32 := 0
  moveGen : BitVec 32 := 0
  /-- The rope that wrote Go, which takes the TABLE event (R167). -/
  by_ : Option Nat := none
  deriving DecidableEq, Repr

/-- A bucket found different: its table, the instant of the second read, and the ShadowCtl value it was visited under
(R104). -/
structure ShadowDiff where
  rule : Bool
  bucket : Nat
  due : Nat
  ctl : Nat
  deriving DecidableEq, Repr

/-- The shadow comparator (R103, R104). -/
structure Shadow where
  rule : Bool := false
  bucket : Nat := 0
  nextAt : Nat := 0
  diffs : List ShadowDiff := []
  deriving DecidableEq, Repr

structure TableSt where
  /-- The endpoint table's bucket words (R90). -/
  ep : Map (BitVec 256) := []
  epSeed0 : BitVec 32 := 0x5A17C3E9#32
  epSeed1 : BitVec 32 := 0x2B6D90F1#32
  ruleSeed0 : BitVec 32 := 0x7C410D2B#32
  ruleSeed1 : BitVec 32 := 0xE3A56F18#32
  laneSeed : BitVec 32 := 0x93C45E07#32
  /-- The dictionary's block is 16; cluster c's is c. -/
  blocks : Map TblBlock := []
  engineQ : List Nat := []
  /-- The bucket the running sweep will visit next. -/
  sweep : Option Nat := none
  /-- The word the sweep has read and not yet written back. -/
  sweepCas : Option (BitVec 256) := none
  /-- An atomic access other than a lookup has fallen between that read and the write (R96). -/
  sweepTouched : Bool := false
  sweepNext : Option Nat := none
  shadow : Shadow := {}
  deriving DecidableEq, Repr

/-- How a pitch program disposed of a frame, in order of production (R153, R155). -/
inductive Emit where
  | port (i : Nat) (head : List Byte) (isLocal : Bool) (lp : Nat)
  | flood (i : Nat) (head : List Byte) (isLocal : Bool)
  | nak (i : Nat) (code : BitVec 8) (detail : BitVec 8)
  /-- A rule's DENY, which answers a sequenced frame alone (R99). -/
  | deny (i : Nat)
  | derived (slot : List Byte) (flood : Bool) (lp : Nat)
  deriving DecidableEq, Repr

inductive PitchWhere where
  | opening
  | queued
  | running
  | done
  deriving DecidableEq, Repr

/-- The record of a rope fault (R176). -/
structure FaultRec where
  pc : BitVec 32 := 0
  code : Nat := 0
  valid : Bool := false
  inPitch : Bool := false
  retry : Bool := false
  lane : BitVec 16 := 0
  addr : BitVec 64 := 0
  deriving DecidableEq, Repr

/-- A pitch (R107 to R121). -/
structure Pitch where
  frames : List Nat
  lp : Nat
  cls : BitVec 3
  tid : BitVec 12
  src : BitVec 24
  ostream : BitVec 16
  rsver : BitVec 16
  place : PitchWhere := .opening
  /-- The dp-cycle in which its first frame joined (R109). -/
  openedAt : Nat := 0
  /-- The window in force when it opened, in dp-cycles (R109). -/
  window : Nat := 64
  lane : BitVec 16 := 0
  cluster : Nat := 0
  ticket : BitVec 32 := 0
  ticketed : Bool := false
  dispatchFt : Nat := 0
  dispatchAt : Nat := 0
  rope : Option Nat := none
  retry : Bool := false
  firstFault : Option (Nat × FaultRec) := none
  straggler : Bool := false
  late : Bool := false
  disposed : List Nat := []
  emits : List Emit := []
  /-- The frames as they stood when the pitch was marked late and they were freed: a later run sees them still (R173). -/
  kept : List Frame := []
  deriving DecidableEq, Repr

/-- The next TICKET of a lane and the next to release (R119). -/
structure Lane where
  next : BitVec 32 := 0
  release : BitVec 32 := 0
  deriving DecidableEq, Repr

/-- Watershed's choice state of a cluster (R113, R114). -/
structure Shed where
  /-- Queue of each tenant, closed pitches oldest first. -/
  queues : Map (List Nat) := []
  moved : List Nat := []
  lastClass : Nat := 0
  /-- Per class: the tenant whose turn it is and the pitches it has had in it. -/
  turn : Map (Nat × Nat) := []
  lastCore : Nat := 15
  tokens : Map (Nat × Nat) := []
  deriving DecidableEq, Repr

structure PitchSt where
  pitches : Map Pitch := []
  nextPitch : Nat := 0
  shed : Map Shed := []
  lanes : Map Lane := []
  /-- Entries the plan set (R112). -/
  clusterMap : Map Nat := []
  deriving DecidableEq, Repr

/-! ### Ropes, cores and clusters -/

structure Flags where
  n : Bool := false
  z : Bool := false
  c : Bool := false
  v : Bool := false
  deriving DecidableEq, Repr

/-- What a waiting rope waits for. -/
inductive Wait where
  /-- A class L load of `size` bytes into w[d]. -/
  | load (d : BitVec 5) (addr : BitVec 64) (size : Nat)
  /-- A KMV.LD of cluster control into k[kd]. -/
  | kload (kd : BitVec 4) (addr : BitVec 64)
  /-- EVW: mask, destination, deadline. -/
  | event (d : BitVec 5) (mask : BitVec 64) (due : Option Nat)
  /-- TWAIT: destination, FT awaited, deadline. -/
  | time (d : BitVec 5) (ft : BitVec 64) (due : Option Nat)
  /-- A pending k register (R199). -/
  | kreg (kd : BitVec 4)
  /-- KSAVE or KLOAD at the scratchpad banks (R206). -/
  | kstate
  /-- A KTXL while 16 are outstanding (R205). -/
  | ktxl
  /-- A string step that reads HBM lines not read yet (R166). -/
  | lines (l : List Nat)
  /-- A task command that suspends or ends the caller (R217). -/
  | task
  /-- PDONE while Switchback holds all the completed pitches it can (R119). -/
  | hold
  deriving DecidableEq, Repr

inductive RopeSt where
  | free
  | ready
  | waiting (w : Wait)
  | parked
  deriving DecidableEq, Repr

/-- A KTXL that awaits a map read: what its window check gave, and, where a WRITE has changed the granule since it was
issued, what its read gave: the old entry, or none where every copy failed (R234, R235, R238). -/
structure TxlMiss where
  tid : BitVec 12
  /-- Offset in pooled memory. -/
  off : Nat
  wr : Bool
  win : Nat
  stale : Option (Option (BitVec 128)) := none
  deriving DecidableEq, Repr

/-- A Crampon result that has not been written (R198). -/
structure KPend where
  kd : BitVec 4
  value : KWord
  /-- Instant at which it is due. -/
  due : Nat
  isTxl : Bool := false
  miss : Option TxlMiss := none
  /-- Where the data of a KMV.LD comes from. -/
  src : Option Nat := none
  deriving DecidableEq, Repr

/-- Staging registers of the task interface (R213). -/
structure Staging where
  entry : BitVec 64 := 0
  arg : BitVec 64 := 0
  sp : BitVec 64 := 0
  ctl : BitVec 64 := 0
  timeout : BitVec 64 := 0
  wakeFt : BitVec 64 := 0
  result : BitVec 64 := 0
  cmdStatus : BitVec 8 := 0
  cmdSlot : BitVec 12 := 0
  deriving DecidableEq, Repr

/-- A rope (R126 to R131, R135, R161, R196). -/
structure Rope where
  w : Map Word := []
  k : Map KWord := []
  kPend : List KPend := []
  pc : BitVec 32 := 0
  flags : Flags := {}
  pl : BitVec 2 := 0
  trap : Bool := true
  rstack : List (BitVec 32) := []
  localMask : BitVec 16 := 0
  localDisp : BitVec 64 := 0
  /-- The dp-cycle in which the pitch, the task or the lead program started (CYCLES, R129). -/
  startAt : Nat := 0
  pending : BitVec 64 := 0
  st : RopeSt := .free
  pitch : Option Nat := none
  task : Option Nat := none
  pinned : Option Nat := none
  /-- The frame window, and the lengths of the frames of the pitch in it (R135, R136). -/
  window : List Host.Cell := []
  heads : List Nat := []
  /-- HBM lines the string instruction at hand has read (R166). -/
  lines : List Nat := []
  stg : Staging := {}
  parkedAt : Nat := 0
  frec : FaultRec := {}
  deriving DecidableEq, Repr

/-- A CPEN value that an MTS has replaced: it still judges the next instruction of its rope, at an address, up to an
instant (R208). -/
structure CpenPast where
  rope : Nat
  pc : BitVec 32
  value : Nat
  until_ : Nat
  deriving DecidableEq, Repr

/-- A core: in-flight count and issue slot (R115, R180). CPEN is held with the dictionary values (R207). -/
structure Core where
  inFlight : Nat := 0
  issuing : Option Nat := none
  cpenPast : Option CpenPast := none
  /-- The last instant at which something of its cluster noted here kept the cluster from being idle (R387). -/
  busyAt : Nat := 0
  /-- An event for one of its ropes, or the end of a timer, has come since its cluster entered Doze (R387). -/
  roused : Bool := false
  deriving DecidableEq, Repr

/-- A Belay lock (R185 to R189). -/
structure Lock where
  owner : Option (BitVec 11) := none
  /-- Waiters, oldest first. -/
  waiters : List (BitVec 11) := []
  deriving DecidableEq, Repr

/-- A write to a lock word that Belay has not processed (R185). -/
structure LockWrite where
  lock : Nat
  op : BitVec 2
  id : BitVec 11
  writer : BitVec 11
  pl2 : Bool
  at_ : Nat
  /-- The dp-cycle of the store. -/
  cyc : Nat
  deriving DecidableEq, Repr

inductive TaskState where
  | free
  | wait
  | delay
  | ready
  | run
  | parked
  deriving DecidableEq, Repr

/-- A task slot (R211). -/
structure Slot where
  state : TaskState := .free
  base : Nat := 0
  eff : Nat := 0
  entry : BitVec 32 := 0
  arg : BitVec 64 := 0
  sp : BitVec 64 := 0
  counter : Nat := 0
  parent : Option Nat := none
  notify : Option Nat := none
  /-- Local instant at which a WAIT times out. -/
  due : Option Nat := none
  wake : Nat := 0
  reason : Nat := 0
  rope : Option Nat := none
  /-- The µs of FT in which its timeout made it READY (R223). -/
  timedOut : Option Nat := none
  deriving DecidableEq, Repr

/-- A TaskCmd write not yet processed, with the writer's staging registers (R214). -/
structure TaskCmd where
  rope : Nat
  word : BitVec 64
  at_ : Nat
  /-- The dp-cycle of the store. -/
  cyc : Nat
  deriving DecidableEq, Repr

/-- A write of the system port (R183, R184). -/
structure SysWrite where
  addr : Nat
  data : List Byte
  /-- Rope whose TASK bit is set once the write is performed. -/
  notify : Option Nat := none
  deriving DecidableEq, Repr

/-- A cluster (R129 to R226). -/
structure Cluster where
  leadRope : Nat := 7
  noLead : Bool := false
  prevLead : Nat := 0xFF
  leadEntry : BitVec 32 := 0x00104000#32
  /-- The instant at which its boot ROM self-check and its zeroing end (R428). -/
  startsAt : Nat := 0
  beatAt : Nat := 0
  viewSelect : BitVec 7 := 0
  locks : Map Lock := []
  lockQ : List LockWrite := []
  /-- Effective priorities that Belay holds above the base, by local rope (R189). -/
  boost : Map Nat := []
  /-- Changes of priority on their way along a wait chain: the holder they reach, and when (R189). -/
  raises : List (Nat × Nat) := []
  slots : Map Slot := []
  taskQ : List TaskCmd := []
  /-- The slot that SlotState shows (R213). -/
  slotSelect : BitVec 12 := 0
  /-- The µs of FT of the last tick, and the local instant of the last sweep of the SKX-9624 (R222, R223). -/
  lastTick : Nat := 0
  sweptAt : Nat := 0
  lastTaskCore : Nat := 15
  ready : List Nat := []
  traceSeq : BitVec 32 := 0
  traceBuf : List (List Byte) := []
  traceLost : Nat := 0
  sysQ : List SysWrite := []
  /-- The last port-A write of banks 0 and 1: first and last word, and its dp-cycle; and the dp-cycle of the last COLLIDE
  (R184). -/
  portA : Option (Nat × Nat × Nat) := none
  collideCyc : Nat := 0
  doze : Bool := false
  scratch : List Host.Cell := []
  imem : List Host.Cell := []
  deriving DecidableEq, Repr

/-- An event on its way to a rope (R168). -/
structure Flight where
  rope : Nat
  bits : BitVec 64
  due : Nat
  deriving DecidableEq, Repr

/-! ### Translation, Vault and Scree -/

structure XlatSt where
  /-- Cached granule entries of each set, most recently used first (R237). -/
  cache : Map (List (Nat × BitVec 128)) := []
  pairs : List Pair := []
  /-- Map WRITE commands of MapImage entries and of the block wait here. -/
  mapPending : Bool := false
  /-- Home-table entries to rewrite: cluster, tenant, deadline (R244). -/
  homeUpd : List (Nat × Nat × Nat) := []
  /-- Key slots: Key1 and Key2 (R245). -/
  keys : Map (List Byte × List Byte) := []
  deriving DecidableEq, Repr

/-- A segment handed to the sequencer (R254). -/
structure Segment where
  hdr : Sxt
  lp : Nat
  hostLp : Nat
  len : Nat
  base : BitVec 64
  row : Nat
  num : Nat
  count : Nat
  bad : Bool := false
  waited : Bool := false
  ecn : BitVec 2 := 0
  deriving DecidableEq, Repr

/-- A segment of an open scan: where its next RD starts and what is left. -/
structure SegRun where
  num : Nat
  lp : Nat
  taddr : BitVec 64
  gaddr : BitVec 64
  row : Nat
  /-- Bytes of the segment, and those still to be read. -/
  len : Nat
  left : Nat
  granule : Option Nat := none
  enc : Bool := false
  deriving DecidableEq, Repr

structure AggSt where
  value : BitVec 64 := 0
  rows : Nat := 0
  ovf : Bool := false
  deriving DecidableEq, Repr

/-- A scan context (R256 to R260, R268). -/
structure Scan where
  hdr : Sxt
  hostLp : Nat
  count : Nat
  prog : List Byte
  base : BitVec 64
  segs : List SegRun
  arrived : List Nat
  firstAt : Nat
  issuedAny : Bool := false
  /-- RDs issued and not yet filtered. -/
  outstanding : Nat := 0
  /-- Status and detail that end the scan early (R260). -/
  stopped : Option (Nat × Nat) := none
  scanned : Nat := 0
  matched : Nat := 0
  aggs : List AggSt := []
  /-- The codepoint of its RDs (R293). -/
  ecn : BitVec 2 := 0
  deriving DecidableEq, Repr

/-- A part-filled row frame (R267). -/
structure RowFrame where
  engine : Nat
  scan : Nat
  rows : List (Nat × List Byte)
  firstAt : Nat
  deriving DecidableEq, Repr

/-- A decrypted scan RSP that waits for an engine (R269, R271). -/
structure ScreeRsp where
  scan : Nat
  tid : BitVec 12
  row : Nat
  data : List Byte
  /-- Bytes of the RD that this RSP completes, 0 for one that does not. -/
  bytes : Nat
  deriving DecidableEq, Repr

structure ScreeSt where
  waiting : List Segment := []
  scans : Map Scan := []
  nextScan : Nat := 0
  progs : Map (List Byte) := []
  /-- A pending load (image) or unload, with its tenant and slot. -/
  pendingLoad : Option (Nat × Nat × Option (List Byte)) := none
  /-- Engines removed on a lasting fault; the engine under test. -/
  removed : List Nat := []
  testing : Option Nat := none
  rspQ : List ScreeRsp := []
  /-- The tenant whose RSP an engine works on, and until when (R269, R270). -/
  busy : Map (Nat × Nat) := []
  /-- Tenants whose RDs wait for ScanWindow (R270). -/
  stalled : List Nat := []
  rowFrames : List RowFrame := []
  lastTid : Nat := 4095
  /-- RD bytes issued and not yet filtered, by tenant. -/
  window : Map Nat := []
  lastScan : Map Nat := []
  deriving DecidableEq, Repr

/-! ### Traverse, Piton and the traffic manager -/

structure Copies where
  count : Nat := 0
  ownerGone : Bool := false
  head : Nat := 0
  cells : List Nat := []
  deriving DecidableEq, Repr

structure Spill where
  queue : Nat
  out : Output
  pool : Nat
  buf : Nat
  bytes : Nat
  deriving DecidableEq, Repr

/-- What a dp-cycle has freed, which no allocation of that dp-cycle sees, and the free cells at its start (R284, R288,
R297). -/
structure CycFrees where
  cyc : Nat := 0
  cells : List Nat := []
  heads : List Nat := []
  bufs : List Nat := []
  atStart : Nat := 786432
  deriving DecidableEq, Repr

structure TravSt where
  usedCells : List Nat := []
  usedHeads : List Nat := []
  /-- The frees of the dp-cycle in which the stores last changed. -/
  frees : CycFrees := {}
  lastBank : Nat := 63
  /-- The write stage of each physical port: the frames whose cells wait for a bank, one entry per cell (R283). -/
  stage : Map (List Nat) := []
  copies : Map Copies := []
  spilled : List Spill := []
  /-- Used buffers of the HBM arena, as 4-pool keys pool * 2^32 + index; scratchpad arenas by cluster. -/
  piton : List Nat := []
  spPiton : Map (List Nat) := []
  /-- WRED averages per queue, 8 fractional bits (R291). -/
  avg : Map Nat := []
  deriving DecidableEq, Repr

/-- An egress queue (R304). -/
structure Queue where
  lp : Nat
  cls : Nat
  tid : Nat
  spread : Nat
  outs : List Output := []
  spillMode : Bool := false
  deriving DecidableEq, Repr

/-- The scheduling state of a logical port (R305 to R309). -/
structure Sched where
  classTurn : Nat := 5
  classFresh : Bool := true
  classDef : Map Nat := []
  tenTurn : Map Nat := []
  tenFresh : Map Bool := []
  tenDef : Map Nat := []
  qTurn : Map Nat := []
  /-- Shaper credit in 1/7200000 byte and its instant, by tenant. -/
  credit : Map (Int × Nat) := []
  deriving DecidableEq, Repr

structure CalEntry where
  offset : Nat
  tid : Nat
  rate : Nat
  burst : Nat
  deriving DecidableEq, Repr

structure TmSt where
  queues : List Queue := []
  sched : Map Sched := []
  /-- Shaper values that still act until the end of the dp-cycle of a change: the instant, rate and burst, by tenant
  (R310). -/
  shape : Map (Nat × Nat × Nat) := []
  /-- The instant of the last dictionary write of ShapeRate (2 × TID) and of ShapeBurst (2 × TID + 1) (R311). -/
  shapeWr : Map Nat := []
  /-- The queue that last emptied on each port, the instant, and the scheduling state had it not emptied (R308). -/
  undo : Map (Nat × Nat × Sched) := []
  calendar : List CalEntry := []
  /-- The FT up to which entries have fired. -/
  calFt : Nat := 0
  /-- The entry of that period that fires next. -/
  calNext : Nat := 0
  classTx : Map Nat := []
  deriving DecidableEq, Repr

/-! ### HBM -/

structure Stack where
  state : Nat := 1
  tried : Bool := false
  temp : Int := 0
  window : Nat := 32
  windowAt : Nat := 0
  retired : List (Nat × Nat × Nat) := []
  pendingSr : Bool := false
  /-- All-bank refreshes in this window (R325, R333). -/
  allBank : Nat := 0
  deriving DecidableEq, Repr

/-- The count of a row's activations by a class (R327); a channel's table of R328 numbers its rows over both
pseudo-channels. -/
structure ActCount where
  row : Nat
  cls : Nat
  n : Nat
  deriving DecidableEq, Repr

/-- An access whose activation waits for the next window: its byte address, its row and class, and how it ends where it
is a read (R327, R330). -/
structure Deferred where
  addr : Nat
  row : Nat
  cls : Nat
  read : Option HbmOutcome
  deriving DecidableEq, Repr

/-- A pseudo-channel: its tracker, open rows, rows refreshed in this window and in a sweep's extra pass, banks busy with a
refresh until an instant, and the accesses that wait for the next window (R325, R327, R329). -/
structure PChan where
  tracker : List ActCount := []
  openRow : Map Nat := []
  refresh : Map Nat := []
  extra : Map Nat := []
  busy : Map Nat := []
  deferred : List Deferred := []
  deriving DecidableEq, Repr

/-- The save area as the last entry of Bivouac left it: its base, the clusters saved, the number of the entry, which names its
bytes, and the addresses that writes have replaced since (R389). -/
structure SaveArea where
  base : Nat
  parts : Nat
  seed : Nat
  gone : List Nat := []
  deriving DecidableEq, Repr

structure HbmSt where
  mem : List Host.Cell := []
  save : Option SaveArea := none
  stk : Map Stack := []
  pch : Map PChan := []
  /-- The counting-mode table of each channel (R328). -/
  chan : Map (List ActCount) := []
  /-- Line numbers marked MEDIA. -/
  media : List Nat := []
  test : Option Nat := none
  /-- The instant at which the test in progress started (R336). -/
  testFrom : Nat := 0
  rebuild : Option Nat := none
  sweepEnd : Option Nat := none
  /-- InterleaveGrain, RegionClass0-2, BankHash0-3 in force (R320). -/
  grain : Nat := 12
  regionClass : List Nat := [0xB, 0xB00, 0]
  bankHash : List Nat := [0x11100000, 0x22200000, 0x04400000, 0x08800000]
  mapBaseA : Nat := 0
  mapBaseB : Nat := 0x1200000000
  ruleBaseA : Nat := 0xC0000000
  ruleBaseB : Nat := 0x12C0000000
  progBase : Nat := 0x80000000
  deriving DecidableEq, Repr

/-! ### Itinerary, power, recovery, Cairn and debug -/

structure ItinEvent where
  ft : Nat
  typ : Nat
  gated : Bool
  arg0 : Nat
  arg1 : Nat
  deriving DecidableEq, Repr

structure PlanSt where
  events : List ItinEvent := []
  next : Nat := 0
  deriving DecidableEq, Repr

/-- Where a rail and frequency command stands (R385). -/
inductive OpStage where
  | falling (f : Nat) (due : Nat)
  | slewing
  | holding (due : Nat)
  | rising (due : Nat)
  deriving DecidableEq, Repr

structure OpCmd where
  seq : Nat
  fstep : Nat
  target : Nat
  stage : OpStage
  deriving DecidableEq, Repr

structure PwrSt where
  /-- PowerState: 0 Run, 1 entering Bivouac, 2 Bivouac, 3 waking (R394). -/
  state : Nat := 0
  /-- The data path is off, from step 4 of the entry of Bivouac to step 3 of the exit (R388, R390). -/
  off : Bool := false
  /-- The source of a wake that has come while the device enters Bivouac (R388). -/
  wakeSrc : Option Nat := none
  vinMv : Nat := 48000
  watts : Nat := 0
  profile : Nat := 0
  /-- Rail at `railAt` in 1/1000 mV, and its target in mV. -/
  railUv : Nat := 850000
  railAt : Nat := 0
  target : Nat := 850
  fstep : Nat := 3
  cmd : Option OpCmd := none
  opResult : Nat := 0
  opSeq : Nat := 0
  belowSince : Option Nat := none
  /-- Since when VIN has stood 0.5 V above the lower limit of the bands of profiles 0 to 2 (R381). -/
  above : List (Option Nat) := [none, none, none]
  idleSince : Option Nat := some 0
  bivouacAt : Option Nat := none
  thermHold : Bool := false
  coolSince : Option Nat := none
  capHold : Bool := false
  /-- The last measurement (R381). -/
  measAt : Nat := 0
  deriving DecidableEq, Repr

structure RecSt where
  leaseUntil : Option Nat := none
  epoch : BitVec 32 := 0
  ownEpoch : Option (BitVec 32) := none
  writeFence : Bool := false
  readOnly : Bool := false
  /-- RDONLY of the last valid PULSE from the peer (R402). -/
  peerRdonly : Bool := false
  deriving DecidableEq, Repr

structure CairnSt where
  /-- Slots written, 64 B each. -/
  ring : Map (List Byte) := []
  nextSeq : Nat := 0
  buffer : List (List Byte) := []
  /-- Token level in 1/900000 token, and its instant (R416). -/
  tokens : Nat := 4096 * 900000
  tokensAt : Nat := 0
  dropped : Nat := 0
  boot : Bool := true
  /-- A record of severity 2 or 3 has been written since the last AlertClear (R439). -/
  alert : Bool := false
  snapDue : Option Nat := none
  /-- Parameter area: entries appended to the active half, and a compaction that runs. -/
  paramUsed : Nat := 0
  paramOther : Bool := false
  compacting : Option Nat := none
  retryAt : Option Nat := none
  deriving DecidableEq, Repr

structure DebugSt where
  /-- The instruction register of the TAP (R425). PRESUMED, log entry 127. -/
  ir : BitVec 8 := 0xFF#8
  sel : BitVec 16 := 0
  addr : BitVec 64 := 0
  /-- How far the selected chain is rotated. -/
  rot : Nat := 0
  /-- The model's own number of the freeze, which names its contents (log entry 20). -/
  seed : Nat := 0
  deriving DecidableEq, Repr

/-- The whole state. -/
structure State where
  pending : List Instr := []
  free : Nat := 0
  out : List Out := []
  answer : Answer := .none
  sys : SysSt := {}
  time : TimeSt := {}
  /-- Dictionary values in force that differ from their defaults, by index * 256 + subindex. -/
  obj : Map Nat := []
  /-- Values in force of the objects whose writes take effect at the next reset (R48, R299, R320). -/
  latched : Map Nat := []
  stored : Map Nat := []
  dict : DictSt := {}
  ports : Map Port := []
  xport : Xport := {}
  frames : Map Frame := []
  nextFrame : Nat := 0
  nextOut : Nat := 0
  col : ColSt := {}
  tbl : TableSt := {}
  pit : PitchSt := {}
  ropes : Map Rope := []
  cores : Map Core := []
  clusters : Map Cluster := []
  flights : List Flight := []
  xlat : XlatSt := {}
  scree : ScreeSt := {}
  trav : TravSt := {}
  tm : TmSt := {}
  hbm : HbmSt := {}
  plan : PlanSt := {}
  pwr : PwrSt := {}
  rcv : RecSt := {}
  cairn : CairnSt := {}
  dbg : DebugSt := {}
  deriving DecidableEq, Repr

/-- The machine right after reset: held before T0, nothing listed in any memory, every other field at the
default its declaration gives. -/
def State.reset : State := {}

end Sys2Proof.Machine
end

