-- ==== Sys2Proof/Machine/Catalogue.lean ====
section
/-! DEFINITION. The catalogue of the object dictionary: for every index in use its SubCount and the rows of
its object table (R2, R48, R61, R85 to R87, R105, R123, R124, R157, R178, R194, R209, R226, R230, R250 to R252,
R275 to R277, R299 to R302, R316, R317, R338 to R340, R355, R374, R376, R377, R394, R410, R426, R441), with
types (R358), access codes (R7), defaults and the values a Meaning column allows. -/

namespace Sys2Proof.Machine

inductive Ty where
  | bool | u8 | u16 | u32 | u64 | i32 | i64 | vstr
  | domain (max : Nat)
  deriving DecidableEq, Repr

inductive Acc where
  | ro | rw | wo | rws | const
  deriving DecidableEq, Repr

/-- The values a Meaning column allows (R358). -/
inductive Chk where
  | any
  | range (lo hi : Nat)
  | codes (l : List Nat)
  deriving DecidableEq, Repr

/-- One row of an object table: `cnt` subindices from `sub` on. -/
structure Row where
  sub : Nat
  ty : Ty
  acc : Acc
  dflt : Nat := 0
  chk : Chk := .any
  cnt : Nat := 1
  deriving DecidableEq, Repr

/-- Width in bytes (R358). -/
def Ty.width : Ty → Nat
  | .bool => 1 | .u8 => 1 | .u16 => 2 | .u32 => 4 | .u64 => 8 | .i32 => 4 | .i64 => 8
  | .vstr => 64 | .domain m => m

def key (idx sub : Nat) : Nat := idx * 256 + sub

/-- Counters of U64, read only, starting at 0. -/
def ctr (sub : Nat) (cnt : Nat := 1) : Row := { sub := sub, ty := .u64, acc := .ro, cnt := cnt }

def ro (sub : Nat) (ty : Ty) (d : Nat := 0) (cnt : Nat := 1) : Row :=
  { sub := sub, ty := ty, acc := .ro, dflt := d, cnt := cnt }

def rw (sub : Nat) (ty : Ty) (d : Nat := 0) (chk : Chk := .any) : Row :=
  { sub := sub, ty := ty, acc := .rw, dflt := d, chk := chk }

def wo (sub : Nat) (ty : Ty) (chk : Chk := .any) : Row := { sub := sub, ty := ty, acc := .wo, chk := chk }

def rws (sub : Nat) (ty : Ty) (d : Nat := 0) (chk : Chk := .any) (cnt : Nat := 1) : Row :=
  { sub := sub, ty := ty, acc := .rws, dflt := d, chk := chk, cnt := cnt }

def cst (sub : Nat) (ty : Ty) (d : Nat) : Row := { sub := sub, ty := ty, acc := .const, dflt := d }

/-- The value an object takes from a written one: bits that its Meaning column gives as 0 stay 0. DESIGN CHOICE, log entry
102. -/
def fieldsOf (idx sub v : Nat) : Nat :=
  if 0x2000 ≤ idx ∧ idx < 0x3000 ∧ sub = 6 then v % 0x1000 + v / 0x8000 * 0x8000
  else if idx / 16 = 0x404 then v % 8
  else if idx / 16 = 0x405 ∧ sub = 2 then v % 2
  else if idx = 0x4820 ∧ sub = 1 then v % 16
  else if idx / 8 = 0x5810 / 8 ∧ sub = 1 then v % 8
  else v

def u64max : Nat := 0xFFFFFFFFFFFFFFFF

def nLp (v : SysSt) : Nat := if v.skx9624 then 192 else 384
def nPhys (v : SysSt) : Nat := if v.skx9624 then 48 else 96
def nClusters (v : SysSt) : Nat := if v.skx9624 then 8 else 16
def nStacks (v : SysSt) : Nat := if v.skx9624 then 2 else 4
def hbmSize (v : SysSt) : Nat := if v.skx9624 then 72 * 2 ^ 30 else 144 * 2 ^ 30

/-- 0x0001, 0x0100, 0x0200, 0x1000 (R376, R2, R377). -/
def pageIdentity (v : SysSt) (idx : Nat) : Option (Nat × List Row) :=
  match idx with
  | 0x0001 => some (0x08, [cst 1 .vstr 0, cst 2 .vstr 0, cst 3 .u8 Config.siliconStep.toNat,
      cst 4 .u64 Config.serial.toNat, cst 5 .u32 Config.bootRomVersion.toNat, ro 6 .u8, ro 7 .u8, ro 8 .u8])
  | 0x0100 => some (0x0B, [cst 1 .u8 (if v.skx9624 then 0x24 else 0x40), cst 2 .u8 (nPhys v),
      cst 3 .u8 (nClusters v), cst 4 .u16 (16 * nClusters v), cst 5 .u8 (if v.skx9624 then 3 else 0xF),
      cst 6 .u32 (if v.skx9624 then 0 else 0x1F), cst 7 .u8 (if v.skx9624 then 0 else 32),
      cst 8 .u16 (if v.skx9624 then 0 else 4096), cst 9 .u16 4096, cst 10 .u64 (2 ^ 48), cst 11 .u8 1])
  | 0x0200 => some (0x0C, [rws 1 .u8 0 (.codes [0, 1, 2, 3]), rws 2 .bool 1, rws 3 .u32 100 (.range 10 10000),
      ctr 4 7, ro 11 .u16, ctr 12])
  | 0x1000 => some (2, [wo 1 .bool, rws 2 .u8 (v.node.toNat % 16) (.range 0 15)])
  | _ => none

/-- 0x1010 to 0x1030 (R48, R85, R86, R441). -/
def pageGlobal (idx : Nat) : Option (Nat × List Row) :=
  match idx with
  | 0x1010 => some (2, [rws 1 .u16 0x88B5, rws 2 .u16 0x5BA0])
  | 0x1011 => some (6, [rws 1 .u32 100000 (.range 10000 10000000), rws 2 .u32 2000, ro 3 .u32, ctr 4 3])
  | 0x1012 => some (2, [rws 1 .u32 2000, rws 2 .u16 64])
  | 0x1020 => some (7, [ctr 1 7])
  | 0x1021 => some (0xF, [ro 1 .u16, ro 2 .u16, ro 3 .u16, wo 4 .bool, wo 5 .bool, ro 6 .u32, ro 7 .u32,
      ctr 8 5, ro 13 .u32, ro 14 .bool, ctr 15])
  | 0x1030 => some (9, [ro 1 .i32, rws 2 .u8 95 (.range 60 105), rws 3 .u8 105 (.range 85 110), ro 4 .u8,
      wo 5 .bool, ctr 6, ro 7 .u32, ro 8 .u16, ro 9 .u32])
  | _ => none

/-- Logical port object (R61). -/
def pageLp (v : SysSt) (lp : Nat) : Nat × List Row :=
  (0x24, [rws 1 .u8 0 (.codes [0, 1, 2]), rws 2 .bool 1, rws 3 .u8 0 (.codes [0, 1, 2]),
    rws 4 .u64 (0x025BA0000000 + 512 * v.deviceId.toNat + lp), rws 5 .u8 0 (.codes [0, 1]), rws 6 .u16 0,
    rws 7 .u64 0xFE80000000000000, rws 8 .u64 lp, rws 9 .u8 0, rws 10 .u8 0, rws 11 .u16 512,
    rws 12 .u16 (if lp % 4 = 0 then 0xE4E4 else 0), rws 13 .u8 0, ro 14 .u8, ro 15 .u8, ctr 16 21])

/-- Tenant object (R87, R105, R124, R230, R250, R277, R302, R317, R360). -/
def pageTenant (v : SysSt) : Nat × List Row :=
  (0xFF, [rws 0x10 .u32 8192, rws 0x11 .u32 0, rws 0x12 .u32 65536, rws 0x13 .u8 1 (.codes [1, 2, 4]), ctr 0x14,
    rws 0x20 .u8 0, rws 0x21 .u32 0 .any 4, ctr 0x25 4,
    rws 0x30 .bool 1, rws 0x31 .u64 u64max .any 6, ctr 0x37 4,
    rws 0x40 .u8 1 (.range 1 255), rws 0x41 .u16 0, rws 0x42 .u16 64 (.range 1 65535), ctr 0x43,
    rws 0x50 .u8 0 (.codes [0, 1]), rws 0x51 .u16 0x1FF] ++
   (if v.skx9624 then [] else [rws 0x52 .u16 0xFFFF, ctr 0x54]) ++ [ctr 0x53] ++
   (if v.skx9624 then [] else [rws 0x60 .u8 4 (.range 1 32), rws 0x61 .u32 4194304, rws 0x62 .u16 64 (.range 1 8192),
      ro 0x63 .u16, ctr 0x64 2]) ++
   [rws 0x70 .u8 6 (.range 0 9), ctr 0x71, rws 0x72 .u32 0, rws 0x73 .bool 0, ro 0x74 .u32,
    rws 0x80 .u64 0 .any 128])

/-- 0x4000 to 0x406F (R123, R157, R178, R194, R209, R226, R300). -/
def pageCore (idx : Nat) : Option (Nat × List Row) :=
  if idx = 0x4000 then
    some (0x12, [rws 1 .u16 64 (.range 0 1024), rws 2 .u8 4 (.range 1 7), rws 3 .u8 0x0F,
      rws 4 .u32 20000 (.range 1000 1000000), rws 5 .u32 20000 (.range 1000 1000000), ro 6 .u32, rws 7 .u16 2048,
      ctr 8 9, ro 17 .u16, ctr 18])
  else match idx / 16 with
  | 0x401 => some (5, [rws 1 .u32 0x100000, ctr 2 4])
  | 0x402 => some (7, [rw 1 .u16 0, rws 2 .u32 1000000, ctr 3 4, ro 7 .u8])
  | 0x403 => some (0xA, [ro 1 .u8, ro 2 .u32, rws 3 .u32 10000000, ro 4 .u16, ctr 5 6])
  | 0x404 => some (0x14, [rws 1 .u8 7 .any 16, ctr 17 4])
  | 0x405 => some (0xD, [rws 1 .u8 0xF0, rws 2 .u8 0, rws 3 .u64 0,
      rws 4 .u32 0x10000 (.codes ((List.range 15).map (fun i => 2 ^ (16 + i)))), ro 5 .u32, ctr 6, ro 7 .u16,
      ro 8 .u16, ctr 9 5])
  | 0x406 => some (0xA, [rws 1 .u32 0x300000, rws 2 .u16 512, rws 3 .u16 64, rws 4 .u16 16, rws 5 .u16 4,
      ro 6 .u16 0 4, ctr 10])
  | _ => none

/-- 0x4800 to 0x4831 (R105, R251). A shadow base that is no multiple of 64 KiB is accepted and used as written. DESIGN
CHOICE, log entry 118. -/
def pageTable (idx : Nat) : Option (Nat × List Row) :=
  match idx with
  | 0x4800 => some (0xD, [ro 1 .u32 0 4, rws 5 .u32 60000, ctr 6 5, ro 11 .u32, ro 12 .bool, ctr 13])
  | 0x4801 => some (8, [ro 1 .u32 0 4, ctr 5 2, ro 7 .u32, ctr 8])
  | 0x4810 => some (0xC, [rw 1 .u8 0 (.range 1 6), rw 2 .u8 0 (.codes [0, 1]), rw 3 .u64, rw 4 .u16, rw 5 .u32,
      rw 6 (.domain 32), rw 7 .u32, wo 8 .bool, ro 9 .u8, ro 10 .u64, ro 11 .u32, ro 12 .u32])
  | 0x4820 => some (9, [rw 1 .u8, rw 2 .u64, rw 3 .u64, rw 4 .u32 1000 (.range 100 1000000), rw 5 .u32 100000,
      ctr 6 3, ro 9 .u32])
  | 0x4830 => some (8, [rw 1 .u8 0 (.codes [0, 1]), rw 2 .u32 0 (.range 0 0x07FFFFFF), rw 3 .u64, rw 4 .u64,
      wo 5 .bool, ro 6 .u8, ro 7 .u64, ro 8 .u64])
  | 0x4831 => some (6, [ctr 1 2, ro 3 .u32, ctr 4 2, ro 6 .u32])
  | _ => none

/-- 0x5000 to 0x5821 (R299, R301, R316, R338 to R340). -/
def pageHbm (v : SysSt) (idx : Nat) : Option (Nat × List Row) :=
  if idx / 8 = 0x5810 / 8 then
    some (0xD, [rws 1 .u8 0, rws 2 .u8 9 (.range 0 15), rws 3 .u32 65536, rws 4 .u32 131072, rws 5 .u8 32,
      rws 6 .u32 32768, rws 7 .u32 65536, rws 8 .u8 64, rws 9 .u32 8192, rws 10 .u32 16384, rws 11 .u8 128, ctr 12 2])
  else if 0x5010 ≤ idx ∧ idx < 0x5010 + nStacks v then
    some (7, [ro 1 .u8, ro 2 .u8, ro 3 .i32, ro 4 .u16, ro 5 .u32, ctr 6 2])
  else match idx with
  | 0x5000 => some (0x12, [rws 1 .u8 12 (.range 8 16), rws 2 .u64 0xB, rws 3 .u64 0xB00, rws 4 .u64 0,
      rws 5 .u32 0x11100000, rws 6 .u32 0x22200000, rws 7 .u32 0x04400000, rws 8 .u32 0x08800000, ro 9 .u64,
      ro 10 .u64, rws 11 .u16 240, rws 12 .u16 2000, ctr 13 6])
  | 0x5020 => some (5, [rw 1 .u8 0 (.range 0 3), wo 2 .bool, ro 3 .u8, ro 4 .u32, ro 5 .bool])
  | 0x5021 => some (3, [wo 1 .bool, ro 2 .u8, ro 3 .u32])
  | 0x5800 => some (0xB, [ro 1 .u32 0 3, rws 4 .u32 131072, rws 5 .u32 65536, rws 6 .u8 0, ctr 7 5])
  | 0x5801 => some (0xC, [rws 1 .u64 0x90000000, rws 2 .u32 131072, rws 3 .u32 32768, rws 4 .u32 8192,
      rws 5 .u32 256, ro 6 .u32 0 4, ctr 10 3])
  | 0x5820 => some (7, [rws 1 .u32 16384 .any 6, ro 7 .u32])
  | 0x5821 => some (4, [rws 1 .u64 86400000000000 (.range 1000000 (2 ^ 48 - 1)), rws 2 .bool 0, ro 3 .u16, ctr 4])
  | 0x5822 => some (0x11, [rw 1 .u16, ctr 2 16])
  | _ => none

/-- 0x6000 to 0x6810 (R252, R275, R276, R355). -/
def pageUnits (v : SysSt) (idx : Nat) : Option (Nat × List Row) :=
  if v.skx9624 && idx < 0x6800 then none else
  match idx with
  | 0x6000 => some (0xE, [ro 1 .u8, ro 2 .u32, ro 3 .u64, ro 4 .u16, ctr 5, rws 6 .u32 2000, rws 7 .u32 100000, ctr 8 7])
  | 0x6001 => some (3, [rw 1 .u8 0 (.range 0 31), wo 2 .bool, ro 3 .u8])
  | 0x6010 => some (7, [rw 1 .u16 0 (.range 0 4095), rw 2 .u8 0 (.range 0 15), wo 3 (.domain 4096), wo 4 .bool,
      wo 5 .bool, ro 6 .u8, ro 7 .u16])
  | 0x6080 => some (9, [rw 1 .u16 0 (.range 0 4095), wo 2 (.domain 64), wo 3 .bool, wo 4 .bool, ro 5 .u8, ro 6 .u32,
      ro 7 .u16, ctr 8 2])
  | 0x6800 => some (0xB, [rws 1 .u8 0 (.codes [0, 1, 2]), ro 2 .u8, rws 3 .u32 1000 (.range 100 1000000),
      rws 4 .u32 10000 (.range 0 3600000), rws 5 .u16 0, rws 6 .u8 0, ro 7 .i64, ctr 8, ro 9 .i64, ctr 10 2])
  | 0x6801 => some (7, [ro 1 .u16 0 2, ctr 3 5])
  | 0x6810 => some (6, [wo 1 (.domain 4194304), wo 2 .bool, ro 3 .u8, ro 4 .u32, ro 5 .u32, ro 6 .u64])
  | _ => none

/-- 0x7000 to 0x9002 (R374, R394, R410, R426). -/
def pageSystem (v : SysSt) (idx : Nat) : Option (Nat × List Row) :=
  match idx with
  | 0x7000 => some (0xF, [ro 1 .u8, ro 2 .u32 0 2, ro 4 .u16, ro 5 .u8, rws 6 .u32 50, rws 7 .u32 10, rws 8 .u32 1000,
      wo 9 .bool, rws 10 .u64 0xA0000000, ro 11 .u16, ctr 12 2, ro 14 .u8, ctr 15])
  | 0x7001 => some (0xA, [rws 1 .u8 0 (.codes [0, 1]), wo 2 .u32, ro 3 .u32, ro 4 .u8, ro 5 .u16 0 2, ro 7 .u8, ctr 8,
      rws 9 .u8 10 (.range 0 20), ctr 10])
  | 0x7800 => some (9, [ro 1 .u64 0 2, rw 3 .u64, ro 4 (.domain 64), ro 5 (.domain 4096), ctr 6, ro 7 .u32, ctr 8,
      rws 9 .u8 0 (.range 0 3)])
  | 0x7801 => some (6, [rws 1 .u64 0xA8000000, wo 2 .bool, ro 3 .u8, ro 4 .u64 0 3])
  | 0x7802 => some (4, [wo 1 .bool, ro 2 .u8, ro 3 .u8, ro 4 .u32])
  | 0x8000 => some (6, [ro 1 .u8 0 3, ctr 4 3])
  | 0x8001 => some (6, [ro 1 .u8, ro 2 .u8, wo 3 .u8 (.codes [1, 2]), wo 4 .bool, ro 5 .u8, ro 6 .u32])
  | 0x8002 => some (0xC, [rws 1 .bool 0, ro 2 .u8, ro 3 .bool, ro 4 .u32 0 2, ro 6 .bool 0 2, wo 8 .bool, ctr 9 4])
  | 0x8010 => some (0x40, [rws 1 .u64 0 .any 64])
  | 0x9000 => some (1, [rw 1 (.domain (2 ^ 31))])
  | 0x9001 => some (0x10, [{ sub := 1, ty := .domain (2 ^ 20), acc := .rw, cnt := nClusters v }])
  | 0x9002 => some (1, [rw 1 (.domain (hbmSize v))])
  | _ => none

/-- The page of an index: SubCount and rows, none where no chapter defines it or the unit is absent (R5, R359). -/
def page (v : SysSt) (idx : Nat) : Option (Nat × List Row) :=
  if idx < 0x1010 then pageIdentity v idx
  else if idx < 0x2000 then pageGlobal idx
  else if idx < 0x3000 then (if idx - 0x2000 < nLp v then some (pageLp v (idx - 0x2000)) else none)
  else if idx < 0x4000 then some (pageTenant v)
  else if idx < 0x4800 then
    (if idx ≠ 0x4000 ∧ nClusters v ≤ idx % 16 then none else pageCore idx)
  else if idx < 0x5000 then pageTable idx
  else if idx < 0x6000 then pageHbm v idx
  else if idx < 0x7000 then pageUnits v idx
  else pageSystem v idx

/-- The row of an object: NO_OBJECT (0x01) or NO_SUBINDEX (0x02) where there is none (R357, R360). -/
def rowOf (v : SysSt) (idx sub : Nat) : Except Nat Row :=
  match page v idx with
  | none => .error 1
  | some (n, rows) =>
    if sub = 0 then .ok (cst 0 .u8 n)
    else if v.skx9624 ∧ idx / 4096 = 3 ∧ (sub = 0x52 ∨ sub = 0x54 ∨ (0x60 ≤ sub ∧ sub ≤ 0x65)) then .error 1
    else match rows.find? (fun r => r.sub ≤ sub && sub < r.sub + r.cnt) with
      | some r => .ok r
      | none => .error 2

/-- The default of an object. -/
def dfltOf (v : SysSt) (k : Nat) : Nat :=
  match rowOf v (k / 256) (k % 256) with
  | .ok r => r.dflt
  | .error _ => 0

end Sys2Proof.Machine
end

