-- ==== Sys2Proof/Machine/Ops.lean ====
section
/-! DEFINITION. The named operations over the state that every family uses: dictionary values and counters,
time, the entries of ports, ropes, cores and clusters, HBM bytes, Cairn records, and the conditions under
which the block takes a command at all. -/

namespace Sys2Proof.Machine

abbrev Res := Host.Outcome State Fault Refusal

/-! ### Dictionary values in force -/

/-- The value in force of an object. -/
def getO (s : State) (k : Nat) : Nat :=
  match mfind s.obj k with
  | some v => v
  | none => dfltOf s.sys k

def setO (s : State) (k v : Nat) : State := { s with obj := mset s.obj k v }

def obj (s : State) (idx sub : Nat) : Nat := getO s (key idx sub)

def putObj (s : State) (idx sub v : Nat) : State := setO s (key idx sub) v

/-- The value in force of an object whose writes take effect at the next reset. DEDUCED, log entry 26. -/
def inForce (s : State) (idx sub : Nat) : Nat :=
  match mfind s.latched (key idx sub) with
  | some v => v
  | none => dfltOf s.sys (key idx sub)

/-- Counters wrap modulo 2^64 (R61, R377). -/
def bumpBy (s : State) (idx sub n : Nat) : State := putObj s idx sub ((obj s idx sub + n) % 2 ^ 64)

def bump (s : State) (idx sub : Nat) : State := bumpBy s idx sub 1

/-- Counters of U32 (R105: MoveGen, R194: LeadElections). -/
def bump32 (s : State) (idx sub : Nat) : State := putObj s idx sub ((obj s idx sub + 1) % 2 ^ 32)

/-- A value of an RWS object waits to be stored, the latest one of its object (R375). -/
def storeLater (s : State) (idx sub v : Nat) : State :=
  let k := key idx sub
  { s with dict := { s.dict with storeQ := s.dict.storeQ.filter (fun e => e.1 != k) ++ [(k, v)] } }

def lpo (s : State) (lp sub : Nat) : Nat := obj s (0x2000 + lp) sub
def bumpLp (s : State) (lp sub : Nat) : State := bump s (0x2000 + lp) sub
def ten (s : State) (tid sub : Nat) : Nat := obj s (0x3000 + tid) sub
def bumpTen (s : State) (tid sub : Nat) : State := bump s (0x3000 + tid) sub

def clusters (s : State) : Nat := nClusters s.sys
def lps (s : State) : Nat := nLp s.sys
def absent (s : State) : Bool := s.sys.skx9624

/-- Scree engines in service under the supply profile: the lowest numbers (R381). DEDUCED, log entry 59. -/
def profileEngines (s : State) : Nat :=
  match s.pwr.profile with
  | 0 => 32
  | 1 => 32
  | 2 => 8
  | _ => 4

/-- The next free value's number, and the state with it drawn. -/
def draw (s : State) : State := { s with free := s.free + 1 }

/-- Something leaves the device; `out` keeps it for the record (DESIGN CHOICE, log entry 88). -/
def emit (s : State) (o : Out) : State := { s with out := o :: s.out }

/-! ### Time (log entries 1, 2 and 16) -/

def nsU (n : Nat) : Nat := n * 90
def usU (n : Nat) : Nat := n * 90000
def msU (n : Nat) : Nat := n * 90000000

/-- The frequency step the clock runs at: the lower of the two while a fall is under way (R383). -/
def fstepNow (s : State) : Nat :=
  match s.pwr.cmd with
  | some c => (match c.stage with | .falling f _ => min f s.pwr.fstep | _ => s.pwr.fstep)
  | none => s.pwr.fstep

/-- The length of a dp-cycle at the frequency in force (R383). -/
def dpU (s : State) : Nat :=
  match fstepNow s with
  | 0 => 150
  | 1 => 100
  | 2 => 75
  | _ => 60

/-- The slew that `dt` of local time applies, at no more than 100 ppm (R346). What each advance applies is counted
from the start of local time, so that short advances lose none of it to rounding. DESIGN CHOICE, log entry 16. -/
def slewFor (s : State) (dt : Nat) : Int :=
  let upTo (t : Nat) : Nat := t * min 100 (Config.slewPpm s.free) / 1000000
  let lim : Int := upTo (s.time.now + dt) - upTo s.time.now
  if s.time.slewLeft = 0 then 0
  else if s.time.slewLeft < 0 then max s.time.slewLeft (-lim) else min s.time.slewLeft lim

/-- The dp-cycle that runs now, counted since reset at whatever frequency was in force (R109). -/
def cyc (s : State) : Nat := s.time.cycBase + (s.time.now - s.time.cycAt) / dpU s

/-- The instant at which dp-cycle `n` starts, at the frequency in force. -/
def cycStart (s : State) (n : Nat) : Nat := s.time.cycAt + (n - s.time.cycBase) * dpU s

/-- An instant lies in the dp-cycle that runs now. -/
def sameCycle (s : State) (t : Nat) : Bool := decide (cycStart s (cyc s) ≤ t) && decide (t < cycStart s (cyc s + 1))

/-- What `dt` of local time adds to FT at the rate that discipline left it (R347). -/
def driftFor (s : State) (dt : Nat) : Int :=
  let upTo (t : Nat) : Int := (t : Int) * s.time.rate / 1000000000
  upTo (s.time.now + dt) - upTo s.time.now

/-- Local time passes. DESIGN CHOICE, log entry 1. -/
def advance (s : State) (dt : Nat) : State :=
  { s with time := { s.time with
      now := s.time.now + dt
      ftOrigin := s.time.ftOrigin + slewFor s dt + driftFor s dt
      slewLeft := s.time.slewLeft - slewFor s dt } }

/-- Local time passes up to an instant, if it has not come yet. DEDUCED, log entry 2. -/
def advanceTo (s : State) (t : Nat) : State := advance s (t - s.time.now)

/-- FT at the most recent tick, rounded down to whole ns (R342). -/
def ftAt (s : State) (t : Nat) : Nat :=
  (((t / 576 * 576 : Nat) + s.time.ftOrigin) / 90).toNat % 2 ^ 64

def ft (s : State) : Nat := ftAt s s.time.now

/-- The least of the 2^`b` numbers from `a` on at which a condition holds that stays true once it does. -/
def leastFrom (p : Nat → Bool) : Nat → Nat → Nat
  | 0, a => a
  | b + 1, a => if p (a + 2 ^ b - 1) then leastFrom p b a else leastFrom p b (a + 2 ^ b)

/-- Local time passes up to the first tick at which FT is `t` or later, slew included (R342, R350). -/
def advanceToFt (s : State) (t : Nat) : State :=
  if ft s < t then
    advanceTo s (576 * leastFrom (fun n => decide (t ≤ ft (advanceTo s (576 * n)))) 62 (s.time.now / 576 + 1))
  else s

/-! ### Entries -/

def port (s : State) (lp : Nat) : Port := mget s.ports lp {}
def setPort (s : State) (lp : Nat) (p : Port) : State := { s with ports := mset s.ports lp p }
def rope (s : State) (r : Nat) : Rope := mget s.ropes r {}
def setRope (s : State) (r : Nat) (x : Rope) : State := { s with ropes := mset s.ropes r x }
def core (s : State) (k : Nat) : Core := mget s.cores k {}
def setCore (s : State) (k : Nat) (x : Core) : State := { s with cores := mset s.cores k x }
def cluster (s : State) (c : Nat) : Cluster := mget s.clusters c {}
def setCluster (s : State) (c : Nat) (x : Cluster) : State := { s with clusters := mset s.clusters c x }
def shed (s : State) (c : Nat) : Shed := mget s.pit.shed c {}
def setShed (s : State) (c : Nat) (x : Shed) : State := { s with pit := { s.pit with shed := mset s.pit.shed c x } }
def pitch (s : State) (p : Nat) : Option Pitch := mfind s.pit.pitches p
def setPitch (s : State) (p : Nat) (x : Pitch) : State :=
  { s with pit := { s.pit with pitches := mset s.pit.pitches p x } }
def dropPitch (s : State) (p : Nat) : State := { s with pit := { s.pit with pitches := merase s.pit.pitches p } }
def frameOf (s : State) (f : Nat) : Frame := mget s.frames f {}
def setFrame (s : State) (f : Nat) (x : Frame) : State := { s with frames := mset s.frames f x }
def stackOf (s : State) (k : Nat) : Stack := mget s.hbm.stk k {}
def setStack (s : State) (k : Nat) (x : Stack) : State := { s with hbm := { s.hbm with stk := mset s.hbm.stk k x } }
def pchOf (s : State) (k : Nat) : PChan := mget s.hbm.pch k {}
def setPch (s : State) (k : Nat) (x : PChan) : State := { s with hbm := { s.hbm with pch := mset s.hbm.pch k x } }

def ropeCluster (r : Nat) : Nat := r / 128
def ropeCore (r : Nat) : Nat := r / 8
def ropeLocal (r : Nat) : Nat := r % 128

/-- The lead rope of a cluster, by ROPEID (R191). -/
def leadOf (s : State) (c : Nat) : Option Nat :=
  if (cluster s c).noLead then none else some (c * 128 + (cluster s c).leadRope)

def fenced (s : State) (k : Nat) : Bool := bit (obj s (0x4020 + k / 16) 1) (k % 16)

/-- The cores of a cluster that are not fenced. -/
def openCores (s : State) (c : Nat) : List Nat :=
  ((List.range 16).map (fun n => c * 16 + n)).filter (fun k => !fenced s k)

/-! ### HBM bytes (R132, R320 to R330) -/

/-- Stack pair of an HBM byte address. -/
def pairOf (a : Nat) : Nat := if a < 0x1200000000 then 0 else 1

/-- The first address of a stack pair. -/
def pairBase (p : Nat) : Nat := p * 0x1200000000

/-- Pseudo-channel (numbered over the device), bank with SID, and row of an HBM byte address (R321). -/
def hbmPlace (s : State) (a : Nat) : Nat × Nat × Nat :=
  let pp := pairOf a
  let p := a - pp * 0x1200000000
  let r := p / 2 ^ 30
  let o := p % 2 ^ 30
  let n := 72 * pp + r
  let tcls := bit (lget s.hbm.regionClass (n / 64) 0) (n % 64)
  let g := if tcls then 256 else 2 ^ s.hbm.grain
  let kk := o / g
  let pcs := kk % 64
  let loc := r * 2 ^ 24 + kk / 64 * g + o % g
  let par (h : Nat) : Nat := b2n (((List.range 30).filter (fun i => bit o i && bit h i)).length % 2 = 1)
  let h := if tcls then par (lget s.hbm.bankHash 0 0) + 2 * par (lget s.hbm.bankHash 1 0)
      + 4 * par (lget s.hbm.bankHash 2 0) + 8 * par (lget s.hbm.bankHash 3 0) else 0
  let bank := bits loc 13 10 ^^^ h
  let t := loc / 2 ^ 14
  let stk := 2 * pp + pcs / 32
  (32 * stk + pcs % 32, t / 24576 * 16 + bank, t % 24576)

/-- The requester classes (R326): each access of the model names its own. -/
def reqNo : ReqClass → Nat
  | .core => 0
  | .table => 1
  | .spill => 2
  | .sys => 3

/-- A stack counts for neighbour refresh in place of throttling (R328). -/
def counting (s : State) (stk : Nat) : Bool :=
  s.sys.phase == .starting || s.hbm.test == some stk || s.hbm.sweepEnd.isSome

/-- The lowest count of a table of counts. -/
def leastCount (l : List ActCount) : Nat := ((l.map (·.n)).min?).getD 0

/-- One more activation of a row: its entry rises, or takes a free place, or that of the first entry with the lowest
count at that count plus 1 (R327). -/
def countAct (cap : Nat) (l : List ActCount) (row cls : Nat) : List ActCount :=
  if l.any (fun e => e.row == row && e.cls == cls) then
    l.map (fun e => if e.row = row && e.cls = cls then { e with n := e.n + 1 } else e)
  else if l.length < cap then l ++ [{ row := row, cls := cls, n := 1 }]
  else
    let low := leastCount l
    match l.find? (fun e => e.n == low) with
    | some e => l.erase e ++ [{ row := row, cls := cls, n := low + 1 }]
    | none => l

def actOf (l : List ActCount) (row cls : Nat) : Nat :=
  match l.find? (fun e => e.row == row && e.cls == cls) with | some e => e.n | none => 0

/-- Rows r − 2 to r + 2 of a bank that exist, but r (R328). -/
def neighbours (row : Nat) : Nat := ([row - 2, row - 1].eraseDups.filter (fun r => decide (r < row))).length
  + ([row + 1, row + 2].filter (fun r => decide (r < 24576))).length

/-- A row of a bank opens. -/
def openRowOf (s : State) (pc bank row : Nat) : State :=
  let p := pchOf s pc
  setPch s pc { p with openRow := mset p.openRow bank row }

/-- An activation in counting mode: the channel counts it, and above DisturbThreshold the row's neighbours are refreshed
(R328). -/
def countChannel (s : State) (pc k row : Nat) : State :=
  let ch := pc / 2
  let k := pc % 2 * 2 ^ 24 + k
  let l := countAct 1024 (mget s.hbm.chan ch []) k 0
  let above := decide (obj s 0x5000 0x0C < actOf l k 0)
  let l := if above then l.map (fun e => if e.row = k then { e with n := 0 } else e) else l
  let s := { s with hbm := { s.hbm with chan := mset s.hbm.chan ch l } }
  if above then bumpBy s 0x5000 0x11 (neighbours row) else s

/-- An access opens its row, which counts as an activation unless the row is open; false where the activation must wait for
the next window (R327). The row is numbered over the pseudo-channel, bank with SID first. -/
def activate (s : State) (pc bank row : Nat) (cls : ReqClass) (addr : Nat) (read : Option HbmOutcome) : State × Bool :=
  let p := pchOf s pc
  let k := bank * 24576 + row
  if mfind p.openRow bank = some row then (s, true)
  else if counting s (pc / 32) then (openRowOf (countChannel s pc k row) pc bank row, true)
  else if obj s 0x5000 0x0B ≤ actOf p.tracker k (reqNo cls) then
    (setPch (bump s 0x5000 0x10) pc { p with deferred := p.deferred ++ [⟨addr, k, reqNo cls, read⟩] }, false)
  else (openRowOf (setPch s pc { p with tracker := countAct 256 p.tracker k (reqNo cls) }) pc bank row, true)

/-- A read of a class at an address waits for the next window (R327). -/
def throttled (s : State) (cls : ReqClass) (a : Nat) : Bool :=
  let (pc, bank, row) := hbmPlace s a
  (pchOf s pc).deferred.any (fun e => e.row == bank * 24576 + row && e.cls == reqNo cls && e.read.isSome)

/-- The lines of a row, by their addresses: what lies in the row's place of the region under one of the bank's bits (R320,
R321). -/
def rowLines (s : State) (pc bank row : Nat) : List Nat :=
  let t := bank / 16 * 24576 + row
  let base := pairBase (pc / 64)
  ((List.range 256).map (fun i =>
    let loc := t * 2 ^ 14 + i * 64
    let r := loc / 2 ^ 24
    let n := 72 * (pc / 64) + r
    let g := if bit (lget s.hbm.regionClass (n / 64) 0) (n % 64) then 256 else 2 ^ s.hbm.grain
    let x := loc % 2 ^ 24
    base + r * 2 ^ 30 + (x / g * 64 + pc % 64) * g + x % g)).filter (fun a => hbmPlace s a == (pc, bank, row))

/-- A read of a class over `n` bytes waits for the next window: a row that waits holds one of them (R327). -/
def throttledIn (s : State) (cls : ReqClass) (a n : Nat) : Bool :=
  s.hbm.pch.any (fun e => e.2.deferred.any (fun d => d.cls == reqNo cls && d.read.isSome &&
    (rowLines s e.1 (d.row / 24576) (d.row % 24576)).any (fun l => decide (l < a + n) && decide (a < l + 64))))

/-- The lines a write of `n` bytes touches, one after the other: each counts its bytes in WriteBytes (R339) and opens its
row (R327). A write is performed when it is accepted (R323), so one whose activation waits has its data in place. -/
def countWrite (s : State) (cls : ReqClass) (a n : Nat) : State :=
  (List.range (n / 64 + 2)).foldl (fun s i =>
    let l := (a / 64 + i) * 64
    let lo := max a l
    let hi := min (a + n) (l + 64)
    if lo < hi then
      let (pc, bank, row) := hbmPlace s lo
      (activate (bumpBy s (0x5010 + pc / 32) 7 (hi - lo)) pc bank row cls lo none).1
    else s) s

/-- A write of whole lines clears their MEDIA marks (R330). -/
def clearMedia (s : State) (a n : Nat) : State :=
  let full := (List.range (n / 64 + 1)).map (fun i => cdiv a 64 + i)
  let cov := full.filter (fun l => decide (l * 64 + 64 ≤ a + n))
  { s with hbm := { s.hbm with media := s.hbm.media.filter (fun l => !cov.contains l) } }

/-- An address of the save area that still holds what the last entry of Bivouac saved: 6 MiB of each cluster, and 32 MiB from
96 MiB on (R389). DEDUCED, log entry 62. -/
def savedAt (v : SaveArea) (a : Nat) : Bool :=
  decide (v.base ≤ a) && decide (a < v.base + 2 ^ 27) &&
    (decide (a - v.base < v.parts * 0x600000) || decide (0x6000000 ≤ a - v.base)) && !v.gone.contains a

/-- A write takes bytes of the save area over. -/
def savedOver (v : SaveArea) (a n : Nat) : SaveArea :=
  { v with gone := (((List.range n).map (a + ·)).filter (savedAt v)).foldl (fun l b => insertNat b l) v.gone }

/-- A write of bytes by a requester class. -/
def hbmWrite (s : State) (cls : ReqClass) (a : Nat) (bs : List Byte) : State :=
  let s := clearMedia (countWrite s cls a bs.length) a bs.length
  { s with hbm := { s.hbm with mem := wrN s.hbm.mem a bs, save := s.hbm.save.map (fun v => savedOver v a bs.length) } }

/-- HBM bytes; those that an entry of Bivouac has saved and no write has replaced are free values, for R389 gives no layout. -/
def hbmRead (s : State) (a n : Nat) : List Byte :=
  match s.hbm.save with
  | none => rdN s.hbm.mem a n
  | some v => ((rdN s.hbm.mem a n).zipIdx).map (fun e =>
      if savedAt v (a + e.2) then Config.savedByte v.seed (a + e.2) else e.1)

/-- A line of the range is marked MEDIA. -/
def mediaIn (s : State) (a n : Nat) : Bool :=
  s.hbm.media.any (fun l => decide (a / 64 ≤ l) && decide (l ≤ (a + n - 1) / 64))

/-- Stack pair `p` is fenced for test or its copies are being rebuilt (R234, R335, R337). -/
def pairOut (s : State) (p : Nat) : Bool :=
  (match s.hbm.test with | some k => k / 2 == p | none => false) ||
  (match s.hbm.rebuild with | some k => k == p | none => false)

/-- Store into both copies of a table, or into the live one while the other is fenced (R234, R335). -/
def writeCopies (s : State) (baseA baseB off : Nat) (bs : List Byte) : State :=
  let s := if pairOut s 0 && s.hbm.test.isSome then s else hbmWrite s .table (baseA + off) bs
  if absent s || (pairOut s 1 && s.hbm.test.isSome) then s else hbmWrite s .table (baseB + off) bs

/-- The copy a read of entry or bucket `n` uses, and the other (R100, R234). -/
def copyFor (s : State) (baseA baseB n : Nat) : Nat × Option Nat :=
  if absent s then (baseA, none)
  else if pairOut s 0 then (baseB, none)
  else if pairOut s 1 then (baseA, none)
  else if n % 2 = 0 then (baseA, some baseB) else (baseB, some baseA)

/-! ### Cairn (R413 to R416) -/

/-- The token level at this instant: 100,000 tokens per second up to 4,096. -/
def cairnTokens (s : State) : Nat :=
  min (4096 * 900000) (s.cairn.tokens + (s.time.now - s.cairn.tokensAt))

/-- A record for the write buffer: bytes 8 to 59; SEQ, DROPPED, BOOT and CRC are set when it is written. -/
def cairnBody (s : State) (src code sev : Nat) (data : List Byte) : List Byte :=
  toLE 8 (ft s) ++ toLE 1 src ++ toLE 1 sev ++ toLE 2 code ++ toLE 2 0 ++ toLE 1 s.time.state ++ toLE 1 0
    ++ slice data 0 36

/-- The recorder works in every state in which VIN is valid and the clocks run (R415, R423). -/
def cairnOn (s : State) : Bool := s.sys.phase != .unpowered && !s.sys.vinLow && !s.sys.frozen

/-- The token level after a record of a severity has been let through, none where the bucket holds it back: severity 0
and 1 leave a reserve of 1,024 tokens (R416). -/
def cairnSpend (s : State) (sev : Nat) : Option Nat :=
  let need := if sev < 2 then 1025 else 1
  if cairnTokens s < need * 900000 then none else some (cairnTokens s - 900000)

/-- A record is dropped and counted, with the token level that stands. -/
def cairnDrop (s : State) (level : Nat) : State :=
  bump { s with cairn := { s.cairn with tokens := level, tokensAt := s.time.now, dropped := s.cairn.dropped + 1 } } 0x7800 6

/-- A rule sends an event to Cairn. DESIGN CHOICE, log entry 46. -/
def cairn (s : State) (src code sev : Nat) (data : List Byte) : State :=
  if !cairnOn s || sev < obj s 0x7800 9 then s
  else match cairnSpend s sev with
    | none => cairnDrop s (cairnTokens s)
    | some l =>
      if s.cairn.buffer.length < 16 then
        { s with cairn := { s.cairn with
          tokens := l, tokensAt := s.time.now, buffer := s.cairn.buffer ++ [cairnBody s src code sev data] } }
      else cairnDrop s l

/-- A store appends an entry to the active half of the parameter area (R419). DESIGN CHOICE, log entry 22. -/
def paramAppend (s : State) (k : Nat) : State :=
  { s with cairn := { s.cairn with paramUsed := s.cairn.paramUsed + (Config.storeBytes k).toNat } }

/-- The numbers by which the parameter area's entries of a stored plan section and of a stack's retired rows are told apart
from those of objects. -/
def planEntry (typ : Nat) : Nat := 2 ^ 24 + typ
def stackEntry (stk : Nat) : Nat := 2 ^ 25 + stk

/-! ### Conditions of the device -/

/-- VIN is valid, the clocks run, and the thermal shutdown is not latched. -/
def powered (s : State) : Bool :=
  s.sys.phase != .unpowered && !s.sys.frozen && !s.sys.thermalShut && !s.sys.inBasecamp

/-- T0 has passed. -/
def started (s : State) : Bool := powered s && (s.sys.phase == .starting || s.sys.phase == .run)

/-- The data path has power: Run or Doze, and the entry and the exit of Bivouac outside steps 4 to 3 (R388, R390). -/
def on (s : State) : Bool := started s && !s.pwr.off

/-- What a command does in the data path: nothing where that has no power or its clocks stand (R388, R423, R439). -/
def live (s : State) (r : Res) : Res := if on s then r else .next s

/-- What a command does outside the data path: nothing before T0, in the Basecamp state and where the clocks stand (R391,
R423). -/
def running (s : State) (r : Res) : Res := if started s then r else .next s

/-- The device was not idle up to now (R388). -/
def stir (s : State) : State := { s with pwr := { s.pwr with idleSince := s.pwr.idleSince.map (fun _ => s.time.now) } }

/-- Every core of every present cluster is fenced (R408, code 5). -/
def allFenced (s : State) : Bool := (List.range (clusters s)).all (fun c => obj s (0x4020 + c) 1 % 65536 == 0xFFFF)

/-- The code of the lowest condition that holds FAULT_N low, 0 in service (R408). -/
def outCause (s : State) : Nat :=
  if s.sys.phase != .run && s.sys.phase != .unpowered && !s.sys.inBasecamp then 1
  else if s.sys.vinLow || s.sys.phase == .unpowered || s.sys.inBasecamp then 2
  else if s.sys.frozen then 3
  else if s.sys.basecampFailed then 4
  else if s.sys.fencedOut || allFenced s then 5
  else if s.sys.thermalShut then 6
  else if s.sys.svcOut then 7
  else 0

/-- ServiceState (R410). -/
def serviceState (s : State) : Nat :=
  if s.sys.basecampFailed then 3
  else if s.sys.phase != .run then 0
  else if outCause s = 0 then 1
  else 2

def inService (s : State) : Bool := outCause s == 0

/-- That every core has been fenced lasts until a reset (R408, code 5). -/
def latchFenced (s : State) : State := if allFenced s then { s with sys := { s.sys with fencedOut := true } } else s

/-- FAULT_N follows the conditions of R408. The lease drops when it falls (R404). -/
def setFaultN (s : State) : State :=
  let s := latchFenced s
  if inService s then { s with sys := { s.sys with faultN := true, everInService := true } }
  else { s with sys := { s.sys with faultN := false }
                rcv := { s.rcv with leaseUntil := if s.sys.faultN then none else s.rcv.leaseUntil } }

/-- The port exists in the physical port's mode (R50, R51). -/
def lpDefined (s : State) (lp : Nat) : Bool :=
  decide (lp < lps s) &&
  (match lpo s (lp / 4 * 4) 1, lp % 4 with
   | _, 0 => true
   | 1, 2 => true
   | 2, _ => true
   | _, _ => false)

/-- LinkState (R59, R61). -/
def linkState (s : State) (lp : Nat) : Nat :=
  if !lpDefined s lp then 5
  else if !started s || s.sys.basecampFailed || lpo s lp 2 = 0 then 4
  else (port s lp).link

def linkUp (s : State) (lp : Nat) : Bool := linkState s lp == 2

/-- The transmitter is Active: frames pass both ways (R17, R59). -/
def active (s : State) (lp : Nat) : Bool := on s && s.pwr.state == 0 && inService s && linkUp s lp

/-- Bits per second of a logical port (R50). -/
def lpRate (s : State) (lp : Nat) : Nat :=
  match lpo s (lp / 4 * 4) 1 with
  | 0 => 800000000000
  | 1 => 400000000000
  | _ => 200000000000

def role (s : State) (lp : Nat) : Nat := lpo s lp 3

/-- The tenant is mirrored by one half of a pair (R402). -/
def mirrored (s : State) (tid : Nat) : Bool := obj s 0x8002 1 == 1 && bit (obj s 0x8010 (1 + tid / 64)) (tid % 64)

/-- The device endpoint (R28). -/
def devEp (s : State) : BitVec 24 := 0xFFFFF0#24 + (s.sys.deviceId.setWidth 24)

def isPeerPresent (s : State) : Bool :=
  (List.range (lps s)).any (fun lp => role s lp == 2 && (port s lp).partner == 1)

/-- Change a port. -/
def modPort (s : State) (lp : Nat) (f : Port → Port) : State := setPort s lp (f (port s lp))
def modRope (s : State) (r : Nat) (f : Rope → Rope) : State := setRope s r (f (rope s r))
def modCore (s : State) (k : Nat) (f : Core → Core) : State := setCore s k (f (core s k))
def modCluster (s : State) (c : Nat) (f : Cluster → Cluster) : State := setCluster s c (f (cluster s c))

/-- Free cells and head slots (R279, R280, R299). -/
def freeCells (s : State) : Nat := 786432 - s.trav.usedCells.length

end Sys2Proof.Machine
end

