-- ==== Sys2Proof/Machine/Wire.lean ====
section
/-! DEFINITION. Frames on the wire: the SXT header (R25), and the frame the device builds round it (R21 to
R24, R61). -/

namespace Sys2Proof.Machine

/-- The 32 header bytes, in network byte order (R25). -/
def buildSxt (h : Sxt) : List Byte :=
  [h.ver ++ h.typ,
   h.cls ++ h.colour ++ BitVec.ofBool h.opn ++ BitVec.ofBool h.retx ++ BitVec.ofBool h.last]
  ++ toBE 2 (h.sub.toNat * 4096 + h.tid.toNat) ++ toBE 3 h.dst.toNat ++ toBE 3 h.src.toNat
  ++ toBE 2 h.ostream.toNat ++ toBE 2 h.rsver.toNat ++ toBE 2 h.len.toNat ++ toBE 4 h.psn.toNat
  ++ toBE 2 h.tag.toNat ++ toBE 2 h.xarg.toNat ++ toBE 8 h.addr.toNat

/-- Header field of `n` bytes at offset `i`. -/
def beAt (bs : List Byte) (i n : Nat) : Nat := ofBE (slice bs i n)

/-- The header that stands at the front of a list of bytes. -/
def parseSxt (bs : List Byte) : Sxt :=
  let b0 := beAt bs 0 1
  let b1 := beAt bs 1 1
  let st := beAt bs 2 2
  { ver := BitVec.ofNat 4 (b0 / 16), typ := BitVec.ofNat 4 b0
    cls := BitVec.ofNat 3 (b1 / 32), colour := BitVec.ofNat 2 (b1 / 8)
    opn := bit b1 2, retx := bit b1 1, last := bit b1 0
    sub := BitVec.ofNat 4 (st / 4096), tid := BitVec.ofNat 12 st
    dst := BitVec.ofNat 24 (beAt bs 4 3), src := BitVec.ofNat 24 (beAt bs 7 3)
    ostream := BitVec.ofNat 16 (beAt bs 10 2), rsver := BitVec.ofNat 16 (beAt bs 12 2)
    len := BitVec.ofNat 16 (beAt bs 14 2), psn := BitVec.ofNat 32 (beAt bs 16 4)
    tag := BitVec.ofNat 16 (beAt bs 20 2), xarg := BitVec.ofNat 16 (beAt bs 22 2)
    addr := BitVec.ofNat 64 (beAt bs 24 8) }

/-- RD, WR, SRD, ATOM, RSP and MGMT are sequenced (R34). -/
def sequenced (t : BitVec 4) : Bool := t.toNat ≤ 4 || t == 9

/-- The header of a held frame. -/
def hdrOf (f : Frame) : Sxt := parseSxt (f.bytes.drop f.off)

/-- The payload of a held frame: LEN bytes after the header. -/
def payloadOf (f : Frame) : List Byte := slice f.bytes (f.off + 32) (hdrOf f).len.toNat

/-- Frame length in bytes, destination address through FCS, of a payload sent under settings (R21, R22). -/
def frameLen (encap tagged : Bool) (payload : Nat) : Nat :=
  max 64 (14 + (if tagged then 4 else 0) + (if encap then 48 else 0) + 32 + payload + 4)

def outLen (o : Output) : Nat := frameLen o.encap (bit o.tagCtl 15) o.payload.length

/-- Charged cells of an output (R280). -/
def outCells (o : Output) : Nat := cdiv (outLen o) 256

/-- The UDP checksum over the pseudo-header of IPv6, the UDP header and the data (RFC 768, RFC 8200). -/
def udpSum (src dst : List Byte) (udp : List Byte) : Nat :=
  onesFold (onesSum (src ++ dst ++ toBE 4 udp.length ++ toBE 4 17 ++ udp))

/-- An IPv6 packet that carries one UDP datagram, from its EtherType on (R22). -/
def udp6 (src dst : List Byte) (ecn sport dport : Nat) (body : List Byte) : List Byte :=
  let u0 := toBE 2 sport ++ toBE 2 dport ++ toBE 2 (8 + body.length)
  let ck := 65535 - udpSum src dst (u0 ++ [0, 0] ++ body)
  toBE 2 0x86DD ++ toBE 4 (6 * 2 ^ 28 + ecn * 2 ^ 20) ++ toBE 2 (8 + body.length) ++ toBE 1 17 ++ toBE 1 64 ++ src ++ dst
    ++ u0 ++ toBE 2 (if ck = 0 then 65535 else ck) ++ body

/-- A frame with its addresses, padded to 64 B, and its FCS. -/
def macFrame (dst src : Nat) (rest : List Byte) : List Byte :=
  let fr := toBE 6 dst ++ toBE 6 src ++ rest
  let fr := fr ++ List.replicate (60 - fr.length) 0
  fr ++ toLE 4 (crc32 fr)

/-- The VLAN tag of a port whose TagCtl asks for one, with the priority of a class (R23, R61). -/
def vlanTag (tagCtl cls : Nat) : List Byte :=
  if bit tagCtl 15 then toBE 2 0x8100 ++ toBE 2 (cls * 8192 + tagCtl % 4096) else []

/-- The frame that leaves: every byte before the SXT header is rebuilt from the port's settings (R23, R136). DESIGN
CHOICE, log entry 17. PRESUMED, log entry 85. -/
def wireBytes (s : State) (o : Output) (h : Sxt) : List Byte :=
  let p := port s o.lp
  let body := buildSxt h ++ o.payload
  let l3 :=
    if o.encap then
      udp6 (toBE 8 o.ip6Hi ++ toBE 8 o.ip6Lo) (toBE 16 p.dstIp6.toNat) o.ecn.toNat
        (Config.udpPortHash h.tid h.src h.ostream).toNat (inForce s 0x1010 2) body
    else toBE 2 (inForce s 0x1010 1) ++ body
  macFrame p.dstMac.toNat (lpo s o.lp 4) (vlanTag o.tagCtl h.cls.toNat ++ l3)

/-- A frame that the device sends beside its queues leaves: TxFrames and TxBytes count it (R61). -/
def sendRaw (s : State) (lp : Nat) (bs : List Byte) : State :=
  emit (bumpBy (bumpLp s lp 0x13) (0x2000 + lp) 0x15 bs.length) (.frame lp bs)

/-- TxFrames, TxBytes, the class count and the frame on the wire (R61, R316). A PULSE stands beside the classes (R305). -/
def putOnWire (s : State) (o : Output) (h : Sxt) : State :=
  let bs := wireBytes s o h
  let s := bumpBy (bumpLp s o.lp 0x13) (0x2000 + o.lp) 0x15 bs.length
  let k := o.lp * 8 + h.cls.toNat
  let s := if h.typ = 8 then s
    else { s with tm := { s.tm with classTx := mset s.tm.classTx k (mget s.tm.classTx k 0 + bs.length + 20) } }
  emit s (.frame o.lp bs)

/-- The settings a frame takes when it joins its egress queue (R62). DEDUCED, log entry 80. -/
def withSettings (s : State) (o : Output) : Output :=
  { o with encap := lpo s o.lp 5 == 1, tagCtl := lpo s o.lp 6, ip6Hi := lpo s o.lp 7, ip6Lo := lpo s o.lp 8,
           role := lpo s o.lp 3, credMode := lpo s o.lp 0x0A, pfcEn := lpo s o.lp 9 }

/-- The ECN codepoint of a frame the device originates for a tenant (R293). -/
def ecnOf (s : State) (tid : Nat) : BitVec 2 := if ten s tid 0x73 = 1 then 2 else 0

end Sys2Proof.Machine
end

