-- ==== Sys2Proof/Machine/Traverse.lean ====
section
/-! DEFINITION. The Traverse's stores, its copies and owners, and Piton (R279 to R287, R294 to R298). -/

namespace Sys2Proof.Machine

/-- What the dp-cycle that runs now has freed, and the free cells at its start (R284, R288). -/
def cycFrees (s : State) : CycFrees :=
  if s.trav.frees.cyc = cyc s then s.trav.frees else { cyc := cyc s, atStart := freeCells s }

/-- F of R288: the free cells at the start of the dp-cycle. -/
def cellsAtStart (s : State) : Nat := (cycFrees s).atStart

/-- Numbers in use as an allocation sees them: those freed in the dp-cycle that runs now among them (R284, R297). -/
def unseen (freed used : List Nat) : List Nat := freed.foldl (fun l n => insertNat n l) used

/-- Free cells that an allocation sees (R284). -/
def cellsSeen (s : State) : Nat := freeCells s - (cycFrees s).cells.length

/-- The lowest free head slot: in the control reserve 0 to 4,095 for the transport engine's own frames, above
it for others (R281, R284). -/
def pickHead (s : State) (ctl : Bool) : Option Nat :=
  let used := unseen (cycFrees s).heads s.trav.usedHeads
  let lo := lowestFree 0 used
  let hi := lowestFree 4096 used
  if ctl && lo < 4096 then some lo
  else if hi < 262144 then some hi
  else none

def useHead (s : State) (h : Nat) : State :=
  { s with trav := { s.trav with usedHeads := insertNat h s.trav.usedHeads } }

/-- A head slot is freed at the end of the dp-cycle (R284). -/
def freeHead (s : State) (h : Nat) : State :=
  let c := cycFrees s
  if s.trav.usedHeads.contains h then
    { s with trav := { s.trav with
        usedHeads := s.trav.usedHeads.filter (· != h), frees := { c with heads := h :: c.heads } } }
  else s

/-- The cell the allocator grants next: banks in round robin after the last bank written, the lowest free
cell of the bank (R282, R284). -/
def pickCell (s : State) : Option Nat :=
  (List.range 64).findSome? (fun i =>
    let b := (s.trav.lastBank + 1 + i) % 64
    let c := lowestFree (b * 12288) (unseen (cycFrees s).cells s.trav.usedCells)
    if c < (b + 1) * 12288 then some c else none)

def useCell (s : State) (c : Nat) : State :=
  { s with trav := { s.trav with
      usedCells := insertNat c s.trav.usedCells, lastBank := c / 12288, frees := cycFrees s } }

/-- The head number of an output that holds no slot. -/
def noHead : Nat := 262144

/-- Cells are freed at the end of the dp-cycle (R284). -/
def freeCellList (s : State) (cs : List Nat) : State :=
  if cs.isEmpty then s
  else
    let c := cycFrees s
    stir { s with trav := { s.trav with
        usedCells := s.trav.usedCells.filter (fun c => !cs.contains c), frees := { c with cells := cs ++ c.cells } } }

/-- Take `n` cells, or none of them. -/
def takeCells (s : State) : Nat → Option (State × List Nat)
  | 0 => some (s, [])
  | n + 1 =>
    match pickCell s with
    | none => none
    | some c =>
      match takeCells (useCell s c) n with
      | none => none
      | some (s', cs) => some (s', c :: cs)

/-- Cells a frame of `l` bytes takes beyond its head slot (R280). -/
def cellsFor (l : Nat) : Nat := cdiv (l - 192) 256

/-- A version's in-flight count (R81). -/
def inFlightOf (s : State) (v : BitVec 16) : Nat := mget s.col.ver.inFlight v.toNat 0

def setInFlight (s : State) (v : BitVec 16) (n : Nat) : State :=
  { s with col := { s.col with ver := { s.col.ver with
      inFlight := if n = 0 then merase s.col.ver.inFlight v.toNat else mset s.col.ver.inFlight v.toNat n } } }

def versionUp (s : State) (v : BitVec 16) : State := setInFlight s v (inFlightOf s v + 1)

/-- A frame stamped with `v` retires (R81). -/
def retire (s : State) (v : BitVec 16) : State := setInFlight s v (inFlightOf s v - 1)

/-- The ingress queue limit of a class in cells (R110), and the point at which XOFF is sent (R57). -/
def ingressLimit (s : State) : Nat := obj s 0x4000 7

def xoffPoint (s : State) (lp : Nat) : Nat := ingressLimit s - lpo s lp 0x0B

/-- PFC acts on the class: PfcEnable set and credit mode clear (R45, R57). -/
def pfcOn (s : State) (lp cls : Nat) : Bool := bit (lpo s lp 9) cls && !bit (lpo s lp 0x0A) cls

/-- A PFC frame of IEEE 802.1Qbb for one class (R57). -/
def pfcBytes (s : State) (lp cls time : Nat) : List Byte :=
  macFrame 0x0180C2000001 (lpo s lp 4) (toBE 2 0x8808 ++ toBE 2 0x0101 ++ toBE 2 (2 ^ cls)
    ++ (List.range 8).flatMap (fun c => toBE 2 (if c = cls then time else 0)))

def sendPfc (s : State) (lp cls time : Nat) : State :=
  sendRaw (bumpLp s lp 0x1F) lp (pfcBytes s lp cls time)

/-- An ingress queue gives its cells back (R110); 64 cells below the XOFF point a paused class resumes (R57). -/
def ingressDown (s : State) (lp cls n : Nat) : State :=
  let s := modPort s lp (fun p => { p with ingress := lset p.ingress cls (lget p.ingress cls 0 - n) })
  let p := port s lp
  if (lget p.xoffAt cls none).isSome && decide (lget p.ingress cls 0 + 64 ≤ xoffPoint s lp) then
    let s := setPort s lp { p with xoffAt := lset p.xoffAt cls none }
    if active s lp && pfcOn s lp cls then sendPfc s lp cls 0 else s
  else s

/-- Cells of a frame that wait for a bank wait no longer. -/
def dropStage (s : State) (f : Nat) : State :=
  { s with trav := { s.trav with stage :=
      (s.trav.stage.map (fun e => (e.1, e.2.filter (· != f)))).filter (fun e => !e.2.isEmpty) } }

/-- A held frame goes: its slot and cells are freed and its record is dropped. -/
def freeFrame (s : State) (f : Nat) : State :=
  let x := frameOf s f
  let s := dropStage (freeCellList (freeHead s x.head) x.cells) f
  { s with frames := merase s.frames f }

/-! ### Scans that lose an RD or an RSP (R260) -/

/-- A scan stops early with a status and a detail; the first one stands (R260). -/
def stopScan (s : State) (k : Nat) (code detail : Nat) : State :=
  match mfind s.scree.scans k with
  | none => s
  | some c =>
    let c := { c with stopped := if c.stopped.isSome then c.stopped else some (code, detail) }
    { s with scree := { s.scree with scans := mset s.scree.scans k c } }

/-- An RD of a scan is over: one fewer is outstanding, and its bytes leave the tenant's window (R270). -/
def scanRdBack (s : State) (k bytes : Nat) : State :=
  match mfind s.scree.scans k with
  | none => s
  | some c =>
    let t := c.hdr.tid.toNat
    { s with scree := { s.scree with
        scans := mset s.scree.scans k { c with outstanding := c.outstanding - 1 }
        window := mset s.scree.window t (mget s.scree.window t 0 - bytes) } }

/-- A paired RSP with `len` payload bytes at tenant address `addr` is discarded for good: where its RD was a scan's, the
scan stops with PATH_FAILED, and the RSP that would have ended the RD ends it. DESIGN CHOICE, log entry 92. -/
def scanLost (s : State) (p : Pair) (addr : BitVec 64) (len : Nat) : State :=
  match p.scan with
  | none => s
  | some k =>
    let s := stopScan s k 5 0
    if p.want ≤ len - p.trim then scanRdBack s k (p.want + (addr - p.taddr).toNat) else s

/-- A held frame is discarded or consumed and retires. -/
def retireFrame (s : State) (f : Nat) : State :=
  let x := frameOf s f
  let h := hdrOf x
  let s := match x.pair with | some p => scanLost s p h.addr h.len.toNat | none => s
  freeFrame (retire s h.rsver) f

/-! ### Copies and the final owner (R285, R286) -/

/-- Free the shared head and cells of a frame once its owner is gone and no copy is queued. -/
def copiesSettle (s : State) (f : Nat) : State :=
  let c := mget s.trav.copies f {}
  if c.ownerGone && c.count = 0 then
    let s := dropStage (freeCellList (freeHead s c.head) c.cells) f
    { s with trav := { s.trav with copies := merase s.trav.copies f } }
  else s

/-- The stores of an output are freed: a copy's own slot, or the owner's share (R286). -/
def freeStores (s : State) (o : Output) : State :=
  match o.frame with
  | none => freeCellList (freeHead s o.head) o.cells
  | some f =>
    let c := mget s.trav.copies f {}
    let s := if o.head = c.head then s else freeHead s o.head
    if o.owner then
      copiesSettle { s with trav := { s.trav with copies := mset s.trav.copies f { c with ownerGone := true } } } f
    else
      copiesSettle { s with trav := { s.trav with copies := mset s.trav.copies f { c with count := c.count - 1 } } } f

/-! ### Piton (R296 to R298) -/

def poolSize (i : Nat) : Nat := lget [256, 2048, 16384, 131072] i 0

def pitonKey (pool idx : Nat) : Nat := pool * 2 ^ 32 + idx

/-- Where a buffer of the HBM arena stands: the pools lie in order from the arena base, the buffers of each one after the
other (R296). -/
def pitonAddr (s : State) (pool idx : Nat) : Nat :=
  inForce s 0x5801 1 + ((List.range pool).map (fun i => inForce s 0x5801 (2 + i) * poolSize i)).sum + idx * poolSize pool

/-- `n` bytes of an output go into a Piton buffer of HBM; what stands there is the output that State keeps (R294, R295). -/
def fillBuffer (s : State) (b : Nat × Nat) (n : Nat) : State :=
  let a := pitonAddr s b.1 b.2
  clearMedia (countWrite s .spill a n) a n

/-- A line of a Piton buffer's first `n` bytes is marked MEDIA. -/
def bufferMedia (s : State) (b : Nat × Nat) (n : Nat) : Bool := mediaIn s (pitonAddr s b.1 b.2) n

/-- A read of a Piton buffer's first `n` bytes waits for the next window (R327). -/
def bufferWaits (s : State) (b : Nat × Nat) (n : Nat) : Bool := throttledIn s .spill (pitonAddr s b.1 b.2) n

/-- The lowest free buffer of pool `i` of the HBM arena. -/
def pitonFree (s : State) (i : Nat) : Option Nat :=
  let used := ((unseen (cycFrees s).bufs s.trav.piton).filter (fun k => k / 2 ^ 32 == i)).map (fun k => k % 2 ^ 32)
  let n := lowestFree 0 used
  if n < inForce s 0x5801 (2 + i) then some n else none

/-- Allocate `n` bytes: the smallest fitting pool with a free buffer; Promotions and AllocFails count (R297). -/
def pitonAlloc (s : State) (n : Nat) : State × Option (Nat × Nat) :=
  let fits := (List.range 4).filter (fun i => decide (n ≤ poolSize i))
  match fits.findSome? (fun i => (pitonFree s i).map (fun b => (i, b))) with
  | none => (bump s 0x5801 0x0A, none)
  | some (i, b) =>
    let s := if fits.head? = some i then s else bump s 0x5801 0x0B
    ({ s with trav := { s.trav with piton := insertNat (pitonKey i b) s.trav.piton } }, some (i, b))

/-- A free by the final owner returns the buffer; one by another consumer is ignored and counted (R298). DEDUCED, log
entry 45. -/
def pitonRelease (s : State) (owner : Bool) (pool idx : Nat) : State :=
  if owner then
    let c := cycFrees s
    { s with trav := { s.trav with
        piton := s.trav.piton.filter (· != pitonKey pool idx), frees := { c with bufs := pitonKey pool idx :: c.bufs } } }
  else bump s 0x5801 0x0C

/-- An output departs or is discarded for good: it retires, and its stores are freed; a retransmission that reads a Piton
buffer is no owner of it (R298). DEDUCED, log entry 124. -/
def endOutput (s : State) (o : Output) : State :=
  let s := freeStores (if o.counted then retire s o.hdr.rsver else s) o
  match o.reads with
  | some (p, b) => pitonRelease s false p b
  | none => s

/-- The cells an output answers for. -/
def ownCells (s : State) (o : Output) : Nat :=
  match o.frame with
  | some f => if o.owner then (mget s.trav.copies f {}).cells.length else 0
  | none => o.cells.length

/-- Cells of outputs retained under R287 that still stand in SRAM. -/
def retainedCells (s : State) : Nat :=
  (s.xport.tx.map (fun e => (e.2.sent.map (fun x => if x.spilled.isSome then 0 else ownCells s x.out)).sum)).sum +
    (s.xport.parked.map (fun x => ownCells s x.out)).sum

end Sys2Proof.Machine
end

