-- ==== Sys2Proof/Machine/Transport.lean ====
section
/-! DEFINITION. Egress queues as lists, the shapers' credit, the frames the transport engine originates, and the sequence
contexts of both directions (R14, R34 to R44, R239 to R242, R294, R304, R308 to R310, R443, R444). -/

namespace Sys2Proof.Machine

/-! ### Egress queues -/

/-- The SRC_EP of an output's ordering domain: what the device originates for a host's request stays in the host's (R32,
R304). -/
def domSrc (o : Output) : BitVec 24 := o.dom.getD o.hdr.src

/-- CRC-32C over SRC_EP and OSTREAM modulo QueueSpread (R304). -/
def spreadOf (s : State) (o : Output) (tid : Nat) : Nat :=
  crc32c (toBE 3 (domSrc o).toNat ++ toBE 2 o.hdr.ostream.toNat) % max 1 (ten s tid 0x13)

def queueTid (o : Output) : Nat := if o.ctl then 0 else o.hdr.tid.toNat

def Queue.is (q : Queue) (lp cls tid spread : Nat) : Bool :=
  q.lp == lp && q.cls == cls && q.tid == tid && q.spread == spread

def queueNo (lp cls tid spread : Nat) : Nat := ((lp * 8 + cls) * 4096 + tid) * 4 + spread

/-- The queue an output joins: one that already holds its domain, spilled outputs included, else by the spread index
(R304, R317). -/
def spreadFor (s : State) (o : Output) : Nat :=
  let tid := queueTid o
  let sameDomain (x : Output) : Bool := domSrc x == domSrc o && x.hdr.ostream == o.hdr.ostream
  let holds (q : Queue) : Bool := q.outs.any sameDomain ||
    s.trav.spilled.any (fun e => e.queue == queueNo q.lp q.cls q.tid q.spread && sameDomain e.out)
  match s.tm.queues.find? (fun q => q.lp == o.lp && q.cls == o.hdr.cls.toNat && q.tid == tid && holds q) with
  | some q => q.spread
  | none => spreadOf s o tid

def queueOf (s : State) (lp cls tid spread : Nat) : Option Queue :=
  s.tm.queues.find? (fun q => q.is lp cls tid spread)

def setQueue (s : State) (q : Queue) : State :=
  let rest := s.tm.queues.filter (fun x => !x.is q.lp q.cls q.tid q.spread)
  { s with tm := { s.tm with queues := if q.outs.isEmpty && !q.spillMode then rest else rest ++ [q] } }

/-- The shaper rate and burst that act for a tenant: those in force, or until the dp-cycle of a change ends those before it
(R309, R310). -/
def shapeOf (s : State) (tid : Nat) : Nat × Nat :=
  match mfind s.tm.shape tid with
  | some (u, r, b) => if s.time.now < u then (r, b) else (ten s tid 0x11, ten s tid 0x12)
  | none => (ten s tid 0x11, ten s tid 0x12)

/-- The tenant has a queue on the port. DEDUCED, log entry 47. -/
def activeOn (s : State) (lp tid : Nat) : Bool := s.tm.queues.any (fun q => q.lp == lp && q.tid == tid)

/-- A credit after it has risen at rate `r` for a time, up to its cap: the burst, or 0 for a tenant with nothing queued
(R309). -/
def creditRise (c : Int) (r b dt : Nat) (act : Bool) : Int := min (c + (r * dt : Nat)) (if act then (b * 7200000 : Nat) else 0)

/-- The tenant's shaper credit on a port now, in 1/7200000 byte, a unit that one unit of ShapeRate gives in one unit
of time; a change of the values acts from the next dp-cycle (R309, R310). -/
def shaperNow (s : State) (lp tid : Nat) : Int :=
  match mfind (mget s.tm.sched lp {}).credit tid with
  | none => 0
  | some (c, t) =>
    let act := activeOn s lp tid
    let now := s.time.now
    let (r, b) := shapeOf s tid
    match mfind s.tm.shape tid with
    | some (u, r0, b0) =>
      if t < u ∧ u ≤ now then creditRise (creditRise c r0 b0 (u - t) act) r b (now - u) act
      else creditRise c r b (now - t) act
    | none => creditRise c r b (now - t) act

def setCredit (s : State) (lp tid : Nat) (c : Int) : State :=
  let x := mget s.tm.sched lp {}
  { s with tm := { s.tm with sched := mset s.tm.sched lp { x with credit := mset x.credit tid (c, s.time.now) } } }

/-- A tenant becomes active on a port: its credit starts at 0, or where it was kept (R309). -/
def shaperStart (s : State) (lp tid : Nat) : State :=
  if activeOn s lp tid then s else setCredit s lp tid (shaperNow s lp tid)

/-- The scheduling state a port has as its queue `qn` comes to be: where the queue emptied in this very dp-cycle it never
emptied, and deficits, turn and credit stand (R308). -/
def queueStart (s : State) (lp tid qn : Nat) : State :=
  match mfind s.tm.undo lp with
  | some (n, t, x) =>
    if n = qn ∧ sameCycle s t then
      let held := (mget s.tm.sched lp {}).credit
      let x := match mfind x.credit tid with | some c => { x with credit := mset held tid c } | none => { x with credit := held }
      { s with tm := { s.tm with sched := mset s.tm.sched lp x, undo := merase s.tm.undo lp } }
    else shaperStart s lp tid
  | none => shaperStart s lp tid

/-- Join a queue at its end; the queue is created where it does not exist. -/
def enqueue (s : State) (o : Output) : State :=
  let tid := queueTid o
  let sp := spreadFor s o
  let s := if (queueOf s o.lp o.hdr.cls.toNat tid sp).isSome then s
    else queueStart s o.lp tid (queueNo o.lp o.hdr.cls.toNat tid sp)
  let o := { o with id := s.nextOut }
  let s := { s with nextOut := s.nextOut + 1 }
  match queueOf s o.lp o.hdr.cls.toNat tid sp with
  | some q => { s with tm := { s.tm with
      queues := s.tm.queues.map (fun x => if x.is q.lp q.cls q.tid q.spread then { x with outs := x.outs ++ [o] } else x) } }
  | none => { s with tm := { s.tm with
      queues := s.tm.queues ++ [{ lp := o.lp, cls := o.hdr.cls.toNat, tid := tid, spread := sp, outs := [o] }] } }

/-! ### What holds a port back (R44, R57) -/

/-- The pause time received for a class on a port has not passed. -/
def pauseRuns (s : State) (lp cls : Nat) : Bool :=
  match lget (port s lp).pauseUntil cls none with | some t => decide (s.time.now < t) | none => false

/-- PFC holds an output back now, under the settings in force when it was queued (R45, R57, R62). -/
def paused (s : State) (o : Output) : Bool :=
  let c := o.hdr.cls.toNat
  bit o.pfcEn c && !bit o.credMode c && pauseRuns s o.lp c

/-- ACK, NAK, CRED and PULSE are exempt from credit, whoever sent them (R44). -/
def creditFree (t : BitVec 4) : Bool := decide (5 ≤ t.toNat) && decide (t.toNat ≤ 8)

/-- An output has the credit it needs (R44, R62). -/
def credited (s : State) (o : Output) : Bool :=
  let c := o.hdr.cls.toNat
  let p := port s o.lp
  creditFree o.hdr.typ || !bit o.credMode c ||
    decide (outCells o ≤ ((if p.credSeen then lget p.credLimit c 0 else 0) - lget p.cellsSent c 0).toNat)

/-- Cells sent of a class in credit mode (R44). -/
def countCells (s : State) (o : Output) : State :=
  let c := o.hdr.cls.toNat
  if creditFree o.hdr.typ || !bit o.credMode c then s
  else modPort s o.lp (fun p => { p with
    cellsSent := lset p.cellsSent c (lget p.cellsSent c 0 + BitVec.ofNat 32 (outCells o)) })

/-- The turn passes from a class that became ineligible on a port, and from the tenant that held it in the class (R307). -/
def yieldTurn (s : State) (lp cls : Nat) : State :=
  let x := mget s.tm.sched lp {}
  let x := if mget x.tenFresh cls true then x
    else { x with tenTurn := mset x.tenTurn cls (mget x.tenTurn cls 0 + 1), tenFresh := mset x.tenFresh cls true }
  let x := if x.classTurn = cls ∧ x.classFresh = false then { x with classTurn := (cls + 5) % 6, classFresh := true } else x
  { s with tm := { s.tm with sched := mset s.tm.sched lp x } }

/-! ### Spill (R294) -/

/-- Bytes a tenant holds spilled (R294, R302). -/
def spilledBytes (s : State) (tid : Nat) : Nat :=
  ((s.trav.spilled.filter (fun x => queueTid x.out == tid)).map (·.bytes)).sum

/-- Move an output to a Piton HBM buffer; its queue is then in spill mode. None where the tenant's limit or Piton has no
room (R294). DESIGN CHOICE, log entry 44. -/
def trySpill (s : State) (o : Output) (sp : Nat) : State × Bool :=
  let tid := queueTid o
  let n := outLen o
  if ten s tid 0x72 * 1024 < spilledBytes s tid + n then (s, false)
  else
    match pitonAlloc s n with
    | (s, none) => (s, false)
    | (s, some (p, b)) =>
      let cls := o.hdr.cls.toNat
      let s := fillBuffer (freeStores (bump s 0x5800 0x0A) o) (p, b) n
      let qn := queueNo o.lp cls tid sp
      let q := queueOf s o.lp cls tid sp
      let s := if q.isSome then s else queueStart s o.lp tid qn
      let o := { o with frame := none, owner := true, cells := [], head := noHead, id := s.nextOut }
      let e : Spill := { queue := qn, out := o, pool := p, buf := b, bytes := n }
      let s := { s with nextOut := s.nextOut + 1, trav := { s.trav with spilled := s.trav.spilled ++ [e] } }
      (setQueue s { q.getD { lp := o.lp, cls := cls, tid := tid, spread := sp } with spillMode := true }, true)

/-- The queue that an output would join spills. -/
def joinsSpill (s : State) (o : Output) : Bool :=
  match queueOf s o.lp o.hdr.cls.toNat (queueTid o) (spreadFor s o) with
  | some q => q.spillMode
  | none => false

/-! ### ACK, NAK and CRED (R443) -/

/-- An ACK, NAK or CRED joins its queue with no test (R288); a queue in spill mode takes it after what it has spilled
(R294). One for a port whose partner has been lost joins and leaves as any other: those queued at the moment of the loss are
discarded (R19). DESIGN CHOICE, log entry 113. -/
def joinCtl (s : State) (o : Output) : State :=
  if joinsSpill s o then
    match trySpill s o (spreadFor s o) with
    | (s, true) => s
    | (s, false) => endOutput (bump s 0x5800 0x0B) o
  else enqueue s o

/-- A frame of the transport engine's own joins class 7 as an output of TID 0 (R305), in a slot of the
control reserve (R281). -/
def sendCtl (s : State) (lp : Nat) (h : Sxt) (payload : List Byte) : State :=
  match pickHead s true with
  | none => s
  | some hd => joinCtl (useHead s hd) (withSettings s
      { hdr := h, payload := payload, lp := lp, ctl := true, head := hd, ecn := ecnOf s h.tid.toNat })

/-- A NAK for a frame with header `h` received on `lp` (R42, R443). -/
def sendNak (s : State) (lp : Nat) (h : Sxt) (code detail : Nat) : State :=
  sendCtl s lp { typ := 6, cls := 7, tid := h.tid, dst := h.src, src := h.dst, ostream := h.ostream, psn := h.psn,
                 tag := if code = 1 then 0 else h.tag, xarg := BitVec.ofNat 16 (detail * 256 + code),
                 addr := if code = 6 then h.addr else 0 } []

/-- NAK SEQ_GAP for a missing PSN, told by the frame that revealed it (R36). -/
def sendGap (s : State) (lp : Nat) (h : Sxt) (psn : BitVec 32) : State := sendNak s lp { h with psn := psn } 1 0

/-! ### Receiver contexts (R35 to R37, R444) -/

def rxOf (s : State) (ep : BitVec 24) : Option RxCtx := mfind s.xport.rx ep.toNat

def setRx (s : State) (ep : BitVec 24) (c : RxCtx) : State :=
  { s with xport := { s.xport with rx := mset s.xport.rx ep.toNat c } }

/-- The cumulative acknowledged PSN: the cumulative PSN, held back below the first PSN not settled. -/
def ackedOf (c : RxCtx) : BitVec 32 :=
  c.unsettled.foldl (fun a p => if psnLe p a then p - 1 else a) c.cum

def sendAck (s : State) (ep : BitVec 24) (c : RxCtx) : State :=
  let s := stir (setRx s ep { c with lastAck := ackedOf c, ackDue := none, gapClosed := false, lastEvent := s.time.now })
  sendCtl s c.lp { typ := 5, cls := 7, tid := c.tid, dst := ep, src := devEp s, ostream := c.ostream,
                   psn := ackedOf c, tag := c.tag } []

/-- The moments of R37: 16 PSNs, the closing of a gap, or AckDelay after the first move. -/
def ackCheck (s : State) (ep : BitVec 24) : State :=
  match rxOf s ep with
  | none => s
  | some c =>
    let moved := (ackedOf c - c.lastAck).toNat
    if moved = 0 then s
    else if 16 ≤ moved || c.gapClosed then sendAck s ep c
    else if c.ackDue.isSome then s
    else setRx s ep { c with ackDue := some (s.time.now + nsU (obj s 0x1011 2)) }

/-- An accepted PSN is settled (R444). -/
def settle (s : State) (ep : BitVec 24) (psn : BitVec 32) : State :=
  match rxOf s ep with
  | none => s
  | some c => ackCheck (setRx s ep { c with unsettled := c.unsettled.filter (· != psn), lastEvent := s.time.now }) ep

/-- Advance the cumulative PSN over the PSNs received above it. -/
def cumAdvance (c : RxCtx) : Nat → RxCtx
  | 0 => c
  | n + 1 =>
    if c.got.contains (c.cum + 1) then
      cumAdvance { c with cum := c.cum + 1, got := c.got.filter (· != c.cum + 1) } n
    else c

/-- The acceptance of a PSN is withdrawn: it counts as not received, and no SEQ_GAP is sent for it (R444). -/
def withdraw (s : State) (ep : BitVec 24) (psn : BitVec 32) : State :=
  match rxOf s ep with
  | none => s
  | some c =>
    let c := { c with unsettled := c.unsettled.filter (· != psn), reported := psn :: c.reported }
    if psnLe psn c.cum then
      let above := (List.range (c.cum - psn).toNat).map (fun i => psn + 1 + BitVec.ofNat 32 i)
      ackCheck (setRx s ep { c with cum := psn - 1, got := c.got ++ above }) ep
    else ackCheck (setRx s ep { c with got := c.got.filter (· != psn) }) ep

inductive Verdict where
  | fresh | dup | beyond | noContext
  deriving DecidableEq, Repr

/-- The missing PSNs below `psn` that have not been reported. -/
def gapsBelow (c : RxCtx) (psn : BitVec 32) : List (BitVec 32) :=
  ((List.range ((psn - c.cum).toNat - 1)).map (fun i => c.cum + 1 + BitVec.ofNat 32 i)).filter
    (fun p => !c.got.contains p && !c.reported.contains p)

/-- A sequenced frame for this device meets its context (R35, R36). -/
def accept (s : State) (lp : Nat) (h : Sxt) : State × Verdict :=
  let openNew := h.opn && decide (s.xport.rx.length < 131072)
  match (match rxOf s h.src with | some c => some c | none => if openNew then some {} else none) with
  | none => (sendNak s lp h 3 (if h.opn then 1 else 0), .noContext)
  | some c =>
    let d := (h.psn - c.cum).toNat
    if psnLe h.psn c.cum || c.got.contains h.psn then (sendAck s h.src c, .dup)
    else if 1024 < d then (bump (setRx s h.src c) 0x1011 4, .beyond)
    else
      let gaps := gapsBelow c h.psn
      let closes := c.reported.contains h.psn
      let c := { c with got := h.psn :: c.got, reported := (c.reported.filter (· != h.psn)) ++ gaps,
                        unsettled := h.psn :: c.unsettled, gapClosed := c.gapClosed || closes,
                        tid := h.tid, ostream := h.ostream, tag := h.tag, lp := lp, lastEvent := s.time.now }
      let s := setRx s h.src (cumAdvance c 1025)
      (ackCheck (gaps.foldl (fun s p => sendGap s lp h p) s) h.src, .fresh)

/-- A final NAK answers an accepted frame and completes its PSN (R444). -/
def finalNak (s : State) (lp : Nat) (h : Sxt) (code detail : Nat) : State :=
  settle (sendNak s lp h code detail) h.src h.psn

/-- A NAK for a frame of any type, as a pitch program sends one (R153): a sequenced frame addressed to this device holds a
PSN here, which it completes. -/
def nakAny (s : State) (lp : Nat) (h : Sxt) (code detail : Nat) : State :=
  if sequenced h.typ && h.dst = devEp s then finalNak s lp h code detail else sendNak s lp h code detail

/-- A NAK for a sequenced frame that was addressed to this device, or that is in transit. -/
def nakFrame (s : State) (lp : Nat) (h : Sxt) (code detail : Nat) : State :=
  if sequenced h.typ then nakAny s lp h code detail else s

/-- A retryable NAK withdraws the acceptance of a frame of this device's own (R444). For an RSP that was paired it carries
the header as R241 has rewritten it, toward that header's SRC_EP. DESIGN CHOICE, log entry 115. -/
def nakRetry (s : State) (lp : Nat) (h : Sxt) (code detail : Nat) : State :=
  if !sequenced h.typ then s
  else
    let s := sendNak s lp h code detail
    if h.dst = devEp s then withdraw s h.src h.psn else s

/-! ### Host transactions and pairing entries (R14, R240 to R242) -/

/-- A relayed or originated NAK for a host request held in a pairing entry (R42, R443). -/
def nakPair (s : State) (p : Pair) (code detail : Nat) : State :=
  sendCtl s p.hostLp { typ := 6, cls := 7, tid := p.tid, dst := p.hostEp, src := devEp s, ostream := p.ostream,
                       psn := p.psn, tag := p.tag, xarg := BitVec.ofNat 16 (detail * 256 + code),
                       addr := if code = 6 then p.taddr else 0 } []

def dropPair (s : State) (p : Pair) : State :=
  { s with xlat := { s.xlat with pairs := s.xlat.pairs.filter (fun q => !(q.lp == p.lp && q.no == p.no)) } }

def pairAt (s : State) (lp no : Nat) : Option Pair := s.xlat.pairs.find? (fun q => q.lp == lp && q.no == no)

/-- The live entry of a request, by the entry's `id`. -/
def pairOfId (s : State) (k : Option Nat) : Option Pair :=
  match k with
  | some n => s.xlat.pairs.find? (fun q => q.id == n)
  | none => none

/-- The WR whose leg an output is: a host's by endpoint and PSN, or a derived one. -/
def HostTx.isOf (x : HostTx) (o : Output) : Bool :=
  match o.host with
  | some (ep, psn) => x.ep == ep && x.psn == psn && x.derived == o.derived
  | none => false

/-- One leg of a WR is acknowledged; the last settles the host's PSN (R14). A derived WR holds no PSN of a host. DEDUCED, log
entries 78 and 125. -/
def legDone (s : State) (o : Output) : State :=
  match s.xport.host.find? (fun x => x.isOf o) with
  | none => s
  | some x =>
    let rest := s.xport.host.filter (fun y => !y.isOf o)
    if x.legs ≤ 1 then
      let s := { s with xport := { s.xport with host := rest } }
      if x.derived = 0 then settle s x.ep x.psn else s
    else { s with xport := { s.xport with host := { x with legs := x.legs - 1 } :: rest } }

/-- A leg of a WR is refused: the first refusal answers the host (R14), or the SRC_EP that a derived WR names. -/
def legNak (s : State) (o : Output) (code detail : Nat) : State :=
  match s.xport.host.find? (fun x => x.isOf o) with
  | none => s
  | some x =>
    let s := { s with xport := { s.xport with host := s.xport.host.filter (fun y => !y.isOf o) } }
    if x.derived = 0 then finalNak s x.lp x.hdr code detail else sendNak s x.lp x.hdr code detail

/-- The requester behind a pairing entry is told that it failed, and the entry is freed (R242). -/
def failPair (s : State) (p : Pair) (code detail : Nat) : State :=
  let s := dropPair s p
  match p.scan with
  | some k => scanRdBack (stopScan s k code detail) k p.want
  | none => if p.kind = 1 then s else nakPair s p code detail

/-! ### Sender contexts (R34, R35, R38, R39) -/

/-- The key of a sender context: the far endpoint where this device is the source, else source and destination (R34). -/
def ctxKey (s : State) (src dst : BitVec 24) : Nat :=
  if src = devEp s then dst.toNat else (src.toNat + 1) * 2 ^ 24 + dst.toNat

/-- The source and the destination of a context's key. -/
def keySrc (s : State) (k : Nat) : BitVec 24 := if k < 2 ^ 24 then devEp s else BitVec.ofNat 24 (k / 2 ^ 24 - 1)

def keyDst (k : Nat) : BitVec 24 := BitVec.ofNat 24 k

def txAt (s : State) (k : Nat) : Option TxCtx := mfind s.xport.tx k

def setTxAt (s : State) (k : Nat) (c : TxCtx) : State := { s with xport := { s.xport with tx := mset s.xport.tx k c } }

def dropTxAt (s : State) (k : Nat) : State := { s with xport := { s.xport with tx := merase s.xport.tx k } }

/-- The device's own context toward an endpoint. -/
def txOf (s : State) (ep : BitVec 24) : Option TxCtx := txAt s ep.toNat

def rto (s : State) : Nat := nsU (obj s 0x1011 1)

/-- The retained stores of a sent output are freed, in SRAM and in Piton (R287, R295). -/
def freeSent (s : State) (x : Sent) : State :=
  match x.spilled with
  | some (p, b) => pitonRelease s true p b
  | none => freeStores s x.out

/-- A sent PSN is acknowledged: stores, WR pairing entries and host legs complete (R242, R287). -/
def sentDone (s : State) (x : Sent) : State :=
  let s := freeSent s x
  let s := if x.retx then bump s 0x1011 5 else s
  let s := match pairOfId s x.pairId with
    | some p => if p.kind = 1 then dropPair s p else s
    | none => s
  if x.out.hdr.typ = 1 then legDone s x.out else s

/-- A sent PSN ends with a final code: it completes, and the code goes to the requester (R42). -/
def sentNak (s : State) (x : Sent) (code detail : Nat) : State :=
  let s := freeSent s x
  let s := match pairOfId s x.pairId with
    | some p => failPair s p code detail
    | none => s
  if x.out.hdr.typ = 1 then legNak s x.out code detail else s

/-- A context fails: counted, recorded, freed, and its dependents answered with PATH_FAILED (R39). -/
def failCtx (s : State) (k : Nat) : State :=
  match txAt s k with
  | none => s
  | some c =>
    let p0 := match c.sent with | x :: _ => x.psn | [] => c.next
    let s := cairn (bump (stir (dropTxAt s k)) 0x1011 6) 2 1 2
      (toLE 3 (keySrc s k).toNat ++ toLE 3 (keyDst k).toNat ++ toLE 4 p0.toNat)
    let s := c.sent.foldl (fun s x => sentNak s x 5 0) s
    (s.xlat.pairs.filter (fun p => p.ctx.toNat == k)).foldl (fun s p => failPair s p 5 0) s

/-- The header with which a sent output goes, or goes again. -/
def sentHdr (c : TxCtx) (x : Sent) (retx : Bool) : Sxt :=
  { x.out.hdr with psn := x.psn, opn := !c.acked, retx := retx }

/-- The lowest free number of a pairing entry on a port (R240; DESIGN CHOICE, log entry 11). -/
def pairNoFree (s : State) (lp : Nat) : Option Nat :=
  let used := (s.xlat.pairs.filter (fun p => p.lp == lp)).map (·.no)
  let n := lowestFree 0 (used.foldl (fun l a => insertNat a l) [])
  if n < 65536 && s.xlat.pairs.length < 262144 then some n else none

/-- The endpoints of the context that an originated output goes in (R34, R153, R155, R239). -/
def outSrc (s : State) (o : Output) : BitVec 24 := if o.keepSrc && o.req.isNone then o.hdr.src else devEp s

def outDst (s : State) (o : Output) : Option (BitVec 24) :=
  match o.req with
  | some _ => (port s o.lp).partnerEp
  | none => some o.hdr.dst

/-- Contexts toward an endpoint were lost less than 100 ms ago, and none is opened (R35). -/
def quietTo (s : State) (ep : BitVec 24) : Bool :=
  match mfind s.xport.quiet ep.toNat with
  | some t => decide (s.time.now < t)
  | none => false

/-- The sender contexts in `l` are lost or freed early: nothing goes to their endpoints for 100 ms (R35). DEDUCED, log
entry 93. -/
def loseCtxs (s : State) (l : Map TxCtx) : State :=
  { s with xport := { s.xport with
      tx := s.xport.tx.filter (fun e => (mfind l e.1).isNone)
      quiet := l.foldl (fun q e => mset q (keyDst e.1).toNat (s.time.now + msU 100)) s.xport.quiet } }

/-- The output is numbered in a context of this device when it departs (R34, R153). -/
def numbered (o : Output) : Bool := o.orig && sequenced o.hdr.typ

/-- Whether an originated output can be numbered now: its window, its partner's endpoint, its entry (R35, R36, R239,
R240). -/
def ctxReady (s : State) (o : Output) : Bool :=
  if !numbered o then true
  else
    match outDst s o with
    | none => false
    | some ep => decide (((txAt s (ctxKey s (outSrc s o) ep)).getD {}).sent.length < 1024) && !quietTo s ep &&
        (o.req.isNone || (pairNoFree s o.lp).isSome)

/-- Number an originated output in its context and take its pairing entry: what goes out, and the state with
the output retained (R35, R153, R239, R240, R287). -/
def originate (s : State) (o : Output) : State × Sxt :=
  if !numbered o then (s, o.hdr)
  else
    let src := outSrc s o
    let dst := (outDst s o).getD 0
    let k := ctxKey s src dst
    let c := (txAt s k).getD {}
    let no := match o.req with | some _ => pairNoFree s o.lp | none => none
    let h := { o.hdr with
      src := src, dst := dst, psn := c.next, opn := !c.acked, retx := false
      tag := match no with | some n => BitVec.ofNat 16 n | none => o.hdr.tag
      addr := match o.req with
        | some q => if o.role = 2 then q.taddr else q.gaddr - BitVec.ofNat 64 q.trim
        | none => o.hdr.addr }
    let id := s.nextOut
    let o := { o with hdr := h, id := id, dom := some (domSrc o) }
    let s := { s with nextOut := s.nextOut + 1 }
    let s := match o.req, no with
      | some q, some n =>
        let q := { q with id := id, lp := o.lp, no := n, ctx := dst }
        { s with xlat := { s.xlat with pairs := q :: s.xlat.pairs } }
      | _, _ => s
    let due := if c.due.isSome then c.due else some (s.time.now + rto s)
    (setTxAt s k { c with next := c.next + 1, lp := o.lp, due := due, lastEvent := s.time.now,
                          sent := c.sent ++ [{ psn := c.next, out := { o with counted := false }, pairId := no.map (fun _ => id) }] }, h)

/-- An output that cannot be numbered yet, or finds no room, is retained and joins its queue again after RtoInitial (R36,
R240, R287). DESIGN CHOICE, log entry 94. -/
def park (s : State) (o : Output) : State :=
  let x : Parked := { out := { o with id := s.nextOut }, due := s.time.now + rto s }
  { s with nextOut := s.nextOut + 1, xport := { s.xport with parked := s.xport.parked ++ [x] } }

end Sys2Proof.Machine
end

