-- ==== Sys2Proof/Machine/Vault.lean ====
section
/-! DEFINITION. Vault at stage 7: XTS over the global address space, the refusals, the widened RD and the reply cut
to what the host asked for (R245 to R249). -/

namespace Sys2Proof.Machine

/-- One AES block over bytes in their order. -/
def aesBlock (f : BitVec 128 → BitVec 128) (bs : List Byte) : List Byte := toBE 16 (f (BitVec.ofNat 128 (ofBE bs))).toNat

/-- Multiplication by α of a tweak, as IEEE 1619 orders its bytes. -/
def xtsAlpha (t : Nat) : Nat := if t < 2 ^ 127 then 2 * t else (2 * t % 2 ^ 128) ^^^ 0x87

/-- The tweak of the block at global address `x`: i is x[51:12] and j is x[11:4] (R248). -/
def xtsTweak (key2 : List Byte) (x : Nat) : Nat :=
  (List.range (bits x 11 4)).foldl (fun t _ => xtsAlpha t)
    (ofLE (aesBlock (aesEncrypt key2) (toLE 16 (bits x 51 12))))

/-- One block: XOR with the tweak, the cipher, XOR with the tweak. -/
def xtsBlock (f : BitVec 128 → BitVec 128) (key2 : List Byte) (x : Nat) (bs : List Byte) : List Byte :=
  let t := xtsTweak key2 x
  toLE 16 (ofLE (aesBlock f (toLE 16 (ofLE bs ^^^ t))) ^^^ t)

/-- Payload of whole blocks from global address `x` on. -/
def xts (f : BitVec 128 → BitVec 128) (key2 : List Byte) (x : Nat) (bs : List Byte) : List Byte :=
  (List.range (bs.length / 16)).flatMap (fun i => xtsBlock f key2 (x + 16 * i) (slice bs (16 * i) 16))

/-- The key pair of a tenant, where its slot holds one (R245, R247). -/
def keysOf (s : State) (tid : Nat) : Option (List Byte × List Byte) :=
  if absent s then none else mfind s.xlat.keys (ten s tid 0x52)

def countRefused (s : State) (tid : Nat) : State := bumpTen s tid 0x54

/-- What Vault does with a request toward a MEMORY port whose granule has ENC: none is a refusal (R247). -/
def vaultRequest (s : State) (o : Output) (q : Pair) : Option (State × Output) :=
  let t := o.hdr.tid.toNat
  let x := q.gaddr.toNat
  match keysOf s t with
  | none => if o.hdr.typ = 0 then some (s, o) else none
  | some (k1, k2) =>
    if o.hdr.typ = 3 then none
    else if o.hdr.typ = 1 then
      if x % 16 != 0 || o.payload.length % 16 != 0 then none
      else some (bumpBy s 0x6080 8 o.payload.length,
        { o with payload := xts (aesEncrypt k1) k2 x o.payload })
    else
      let lo := x / 16 * 16
      let n := cdiv (x + q.want) 16 * 16 - lo
      let cut := x % 16
      some (s, { o with hdr := { o.hdr with xarg := BitVec.ofNat 16 (o.hdr.xarg.toNat / 4096 * 4096 + (n - 1) % 4096) }
                        req := some { q with trim := cut } })

/-- A refused WR or ATOM is answered with NAK ACCESS, detail VAULT_REFUSED, and retires (R247). -/
def vaultRefuse (s : State) (o : Output) (q : Pair) : State :=
  let s := endOutput (countRefused s o.hdr.tid.toNat) o
  if o.hdr.typ = 1 && o.host.isSome then legNak s o 6 0x0A else nakPair s q 6 0x0A

/-- A paired RSP toward a HOST or PEER port: its payload is decrypted where its RD was widened for Vault, and cut to what was
asked (R247). DEDUCED, log entry 49. -/
def vaultReply (s : State) (o : Output) (p : Pair) : State × Output :=
  let x := p.gaddr.toNat
  let (s, body) := match p.enc, keysOf s p.tid.toNat with
    | true, some (k1, k2) =>
      if p.kind = 0 && x % 16 = 0 && o.payload.length % 16 = 0 then
        (bumpBy s 0x6080 9 o.payload.length, xts (aesDecrypt k1) k2 x o.payload)
      else (s, o.payload)
    | _, _ => (s, o.payload)
  let body := if p.kind = 0 then (body.drop p.trim).take p.want else body
  (s, { o with payload := body, hdr := { o.hdr with len := BitVec.ofNat 16 body.length } })

/-- Stage 7 (R13, R247, R249): what Vault makes of an output on its way out, none where it refuses the output. A copy toward
a MEMORY port stays ciphertext. -/
def stage7 (s : State) (o : Output) : State × Option Output :=
  match o.pair, o.req with
  | some p, _ =>
    if o.role = 1 then (s, some o)
    else
      let (s, o) := vaultReply s o p
      (s, some o)
  | none, some q =>
    if q.enc && o.role == 1 then
      match vaultRequest s o q with
      | some (s, o) => (s, some o)
      | none => (vaultRefuse s o q, none)
    else (s, some o)
  | none, none => (s, some o)

end Sys2Proof.Machine
end

