-- ==== Sys2Proof/Machine/Egress.lean ====
section
/-! DEFINITION. Admission to an egress queue: dynamic threshold, WRED and spill (R288 to R294). -/

namespace Sys2Proof.Machine

/-- Charged cells waiting in a queue (Q of R288). -/
def queuedCells (q : Queue) : Nat := (q.outs.map outCells).sum

/-- An output that admission discards. One of the device's own in a sequence context is retained (R287): it passes stage 7
and is numbered, so that its timer recovers it, or it waits where it cannot be numbered yet or is a scan's RSP. Any other
retires and frees its stores (R288). -/
def dropOutput (s : State) (o : Output) : State :=
  if numbered o then
    let s := if o.counted then retire s o.hdr.rsver else s
    let o := { o with counted := false }
    if (match o.pair with | some p => p.scan.isSome | none => false) || !ctxReady s o then park s o
    else match stage7 s o with
      | (s, some o) => (originate s o).1
      | (s, none) => s
  else endOutput s o

/-- The requester behind an output that no context will carry is answered: a host with PATH_FAILED (R19, R39, R239), a scan
by stopping (R260). -/
def answerLost (s : State) (o : Output) : State :=
  match o.req, o.pair with
  | some p, _ => (match p.scan with
    | some k => scanRdBack (stopScan s k 5 0) k p.want
    | none => if o.hdr.typ = 1 then legNak s o 5 0 else nakPair s p 5 0)
  | none, some p => if o.lp = p.hostLp then scanLost s p o.hdr.addr o.payload.length else s
  | none, none => s

/-- An output for a port whose partner is lost: counted in PartnerLoss and discarded (R19). -/
def loseOutput (s : State) (o : Output) : State :=
  answerLost (endOutput (bumpBy s (0x2000 + o.lp) 0x1C (outCells o)) o) o

/-- The average after an admission attempt, 8 fractional bits (R291). -/
def wredAvg (avg q w : Nat) : Nat := ((avg : Int) + ((q * 256 : Int) - avg) / (2 ^ w : Int)).toNat

/-- Whether a profile selects: draw below p × 65,536 (R291). DESIGN CHOICE, log entry 15. -/
def wredSelects (avg lo hi maxP : Nat) (d : BitVec 16) : Bool :=
  if avg < lo * 256 then false
  else if hi * 256 ≤ avg then true
  else decide (d.toNat * 256 * 256 * (hi - lo) < maxP * (avg - lo * 256) * 65536)

/-- An output of a queue that spills: it is spilled, or discarded and counted in SpillFull (R294). -/
def spillOutput (s : State) (o : Output) (sp : Nat) : State :=
  match trySpill s o sp with
  | (s, true) => s
  | (s, false) => dropOutput (bump s 0x5800 0x0B) o

def maySpill (s : State) (o : Output) : Bool :=
  bit (obj s 0x5800 6) o.hdr.cls.toNat && decide (0 < ten s (queueTid o) 0x72)

/-- An output is tested and joins its queue, is marked, spilled or discarded (R288, R291, R292). One for a logical port that
the mode in force does not have joins the port's queue and stands there (DESIGN CHOICE, log entry 116). -/
def lodge (s : State) (o : Output) : State :=
  let o := withSettings s o
  if o.ctl then joinCtl s o
  else if (port s o.lp).partner = 2 then loseOutput s o
  else
    let tid := queueTid o
    let sp := spreadFor s o
    let cls := o.hdr.cls.toNat
    let qu := queueOf s o.lp cls tid sp
    let q := match qu with | some x => queuedCells x | none => 0
    let inSpill := match qu with | some x => x.spillMode | none => false
    let under := decide (q * 64 < cellsAtStart s * 2 ^ ten s tid 0x70)
    if !under && !o.credited && !inSpill && !maySpill s o then dropOutput (bumpTen s tid 0x71) o
    else if !under && !o.credited && !inSpill then spillOutput s o sp
    else
      let qn := queueNo o.lp cls tid sp
      let ci := 0x5810 + cls
      let avg := wredAvg (mget s.trav.avg qn 0) q (obj s ci 2)
      let col := o.hdr.colour.toNat
      let s := draw { s with trav := { s.trav with avg := mset s.trav.avg qn avg } }
      let sel := bit (obj s ci 1) col && wredSelects avg (obj s ci (3 + 3 * col)) (obj s ci (4 + 3 * col))
        (obj s ci (5 + 3 * col)) (Config.freeDraw s.free)
      let mark := sel && o.encap && o.ecn != 0
      let s := if mark then bump s ci 0x0D else s
      let o := if mark then { o with ecn := 3 } else o
      if sel && !mark && !o.credited then dropOutput (bump s ci 0x0C) o
      else if inSpill then spillOutput s o sp
      else enqueue s o

/-- The head slot and the cells that an output needs which shares none with a received frame: a copy needs a head slot alone
(R280, R285). -/
def takeStores (s : State) (o : Output) : Option (State × Output) :=
  match pickHead s false with
  | none => none
  | some hd =>
    if o.frame.isSome then some (useHead s hd, { o with head := hd })
    else (takeCells (useHead s hd) (cellsFor (outLen o))).map (fun e => (e.1, { o with head := hd, cells := e.2 }))

/-- An earlier RESPONSE to the same requester waits parked, so that this one waits too (R371). -/
def answerParked (s : State) (o : Output) : Bool :=
  o.respNo != 0 && s.xport.parked.any (fun x =>
    x.out.respNo != 0 && decide (x.out.respNo < o.respNo) && x.out.hdr.dst == o.hdr.dst)

/-- An output that needs stores of its own is admitted (R280, R281, R285, R288). Where they are not free, one of the device's
own in a sequence context waits for them, and any other is discarded and counted in BufferFullDiscards. DESIGN CHOICE, log
entry 94. -/
def admitNew (s : State) (o : Output) : State :=
  let o := withSettings s o
  if answerParked s o then park s { o with head := noHead }
  else match takeStores s o with
  | some (s, o) => lodge s o
  | none =>
    let o := { o with head := noHead }
    if numbered o then park s o else endOutput (bump s 0x5800 7) o

/-- An output that waits tries again: it takes the stores that it lacks, out of the Piton buffer where it has been moved to
one, and joins its queue (R287, R295). On a line marked MEDIA it is lost (R331). -/
def retryParked (s : State) (x : Parked) : State :=
  let again : State := { s with xport := { s.xport with parked := s.xport.parked ++ [{ x with due := s.time.now + rto s }] } }
  if answerParked s x.out then again
  else match x.buf with
  | none => if x.out.head = noHead then admitNew s x.out else lodge s x.out
  | some (p, b) =>
    if bufferMedia s (p, b) (outLen x.out) then
      let s := pitonRelease s true p b
      answerLost (endOutput s x.out) x.out
    else match takeStores s x.out with
      | some (s, o) => lodge (pitonRelease s true p b) o
      | none => again

/-- Outputs that wait for a port, or for a context on it, and whose time has come join their queues again (R287). -/
def unpark (s : State) (lp : Nat) : State :=
  let ready (x : Parked) : Bool := x.out.lp == lp && decide (x.due ≤ s.time.now)
  (s.xport.parked.filter ready).foldl (fun s x =>
    retryParked { s with xport := { s.xport with parked := s.xport.parked.filter (fun y => y.out.id != x.out.id) } } x) s

/-- A spilled output on a line marked MEDIA is discarded (R331). DESIGN CHOICE, log entry 44. -/
def dropSpilled (s : State) (e : Spill) : State :=
  let left := s.trav.spilled.filter (fun x => x.out.id != e.out.id)
  let s := pitonRelease { s with trav := { s.trav with spilled := left } } true e.pool e.buf
  let s := if left.any (fun x => x.queue == e.queue) then s
    else match s.tm.queues.find? (fun q => queueNo q.lp q.cls q.tid q.spread == e.queue) with
      | some q => setQueue s { q with spillMode := false }
      | none => s
  answerLost (endOutput s e.out) e.out

/-- Spilled outputs of a queue come back in order while the queue is below half its threshold (R294). -/
def readBack (s : State) (qn : Nat) : Nat → State
  | 0 => s
  | n + 1 =>
    match s.trav.spilled.find? (fun e => e.queue == qn) with
    | none => s
    | some e =>
      let o := e.out
      let tid := queueTid o
      let cls := o.hdr.cls.toNat
      match queueOf s o.lp cls tid (qn % 4) with
      | none => s
      | some q =>
        if bufferWaits s (e.pool, e.buf) e.bytes then s
        else if bufferMedia s (e.pool, e.buf) e.bytes then readBack (dropSpilled s e) qn n
        else if queuedCells q * 128 < cellsAtStart s * 2 ^ ten s tid 0x70 then
          match takeStores s o with
          | none => s
          | some (s, o) =>
            let left := s.trav.spilled.filter (fun x => x.out.id != o.id)
            let s := pitonRelease { s with trav := { s.trav with spilled := left } } true e.pool e.buf
            let more := left.any (fun x => x.queue == qn)
            let s := setQueue s { q with outs := q.outs ++ [o], spillMode := more }
            readBack s qn n
        else s

end Sys2Proof.Machine
end

