-- ==== Sys2Proof/Machine/Resend.lean ====
section
/-! DEFINITION. Retransmission, the reopening of a context, and what an ACK or NAK does to a context the device sends in
(R35, R38, R39, R41, R42, R46, R287). -/

namespace Sys2Proof.Machine

/-- A retained copy goes again with the header `h`: it takes its place in its egress queue, under the settings of its port,
and holds no stores of its own; `b` is the Piton buffer that it reads, where it was moved to one (R38, R287, R288). DEDUCED,
log entry 42. -/
def sendAgain (s : State) (o : Output) (b : Option (Nat × Nat)) (h : Sxt) : State :=
  lodge s { o with hdr := h, frame := none, orig := false, counted := false, owner := true, head := noHead, cells := []
                   req := none, host := none, pair := none, reads := b }

/-- The retained copy of a sent PSN can be read: no line of its Piton buffer is marked MEDIA. One that cannot is discarded,
and the timer goes on (R331). -/
def keptWhole (s : State) (x : Sent) : Bool := match x.spilled with | some b => !bufferMedia s b (outLen x.out) | none => true

/-- A sent PSN is retransmitted with RETX set, on its port, from the retained copy (R38, R287). -/
def retransmit (s : State) (c : TxCtx) (x : Sent) : State :=
  if keptWhole s x then sendAgain s x.out x.spilled (sentHdr c x true) else s

/-- A retryable cause names a PSN: one retransmission, or the failure of the context; a cause that comes with the one that
has just had it retransmitted adds nothing (R38, R39). -/
def resendPsn (s : State) (k : Nat) (psn : BitVec 32) : State :=
  match txAt s k with
  | none => s
  | some c =>
    match c.sent.find? (fun x => x.psn == psn) with
    | none => s
    | some x =>
      if x.retx then (if x.retxAt = some s.time.now then s else failCtx s k)
      else
        let again (y : Sent) : Sent := if y.psn == psn then { y with retx := true, retxAt := some s.time.now } else y
        retransmit (setTxAt s k { c with sent := c.sent.map again, lastEvent := s.time.now }) c x

/-- Send again under a new context every frame held in the old one, numbered from 0 with OPEN (R35). -/
def reopenCtx (s : State) (k : Nat) : State :=
  match txAt s k with
  | none => s
  | some c =>
    let sent := (c.sent.zipIdx).map (fun e => { e.1 with psn := BitVec.ofNat 32 e.2, retx := false, retxAt := none })
    let c' : TxCtx := { next := BitVec.ofNat 32 sent.length, sent := sent, lp := c.lp, lastEvent := s.time.now,
                        due := if sent.isEmpty then none else some (s.time.now + rto s) }
    let s := setTxAt s k c'
    sent.foldl (fun s x => if keptWhole s x then sendAgain s x.out x.spilled (sentHdr c' x false) else s) s

/-- An ACK for a context the device sends in (R38, R287): PSNs covered complete, and an advance of the cumulative PSN restarts
the timer. -/
def ackReceived (s : State) (h : Sxt) : State :=
  let k := ctxKey s h.dst h.src
  match txAt s k with
  | none => s
  | some c =>
    if psnLe h.psn c.cum then setTxAt s k { c with acked := true }
    else
      let done := c.sent.filter (fun x => psnLe x.psn h.psn)
      let rest := c.sent.filter (fun x => !psnLe x.psn h.psn)
      let c := { c with sent := rest, cum := h.psn, acked := true, lastEvent := s.time.now,
                        transient := c.transient + (done.filter (·.retx)).length,
                        due := if rest.isEmpty then none else some (s.time.now + rto s) }
      done.foldl sentDone (setTxAt s k c)

/-- A NAK for a context the device sends in (R38, R41, R42). -/
def nakReceived (s : State) (h : Sxt) : State :=
  let code := h.xarg.toNat % 256
  let detail := h.xarg.toNat / 256
  let k := ctxKey s h.dst h.src
  if code = 3 then reopenCtx s k
  else if code = 1 || code = 2 || code = 4 then resendPsn s k h.psn
  else
    match txAt s k with
    | none => s
    | some c =>
      match c.sent.find? (fun x => x.psn == h.psn) with
      | none => s
      | some x =>
        let rest := c.sent.filter (fun y => y.psn != h.psn)
        sentNak (setTxAt s k { c with sent := rest, lastEvent := s.time.now,
                                      due := if rest.isEmpty then none else c.due }) x code detail

/-- The ACK or NAK closes a context the device sends in (R46). -/
def closesOwn (s : State) (h : Sxt) : Bool := h.dst == devEp s || (txAt s (ctxKey s h.dst h.src)).isSome

end Sys2Proof.Machine
end

