-- ==== Sys2Proof/Machine/ScanEnd.lean ====
section
/-! DEFINITION. What Scree sends: row frames and the summary that ends a scan (R267, R268, R271). -/

namespace Sys2Proof.Machine

/-! ### Fields of a program image (R261) -/

def progRow (p : List Byte) : Nat := ofLE (slice p 0 2)
def progNcol (p : List Byte) : Nat := (lget p 2 0).toNat
def progNterm (p : List Byte) : Nat := (lget p 3 0).toNat
def progNpat (p : List Byte) : Nat := (lget p 4 0).toNat
def progNagg (p : List Byte) : Nat := (lget p 5 0).toNat
def progResult (p : List Byte) : Nat := (lget p 6 0).toNat
def progFlag (p : List Byte) (i : Nat) : Bool := bit (lget p 7 0).toNat i
def progNull (p : List Byte) : Nat := ofLE (slice p 8 2)

def setScan (s : State) (k : Nat) (c : Scan) : State := { s with scree := { s.scree with scans := mset s.scree.scans k c } }

/-- A frame of Scree leaves by the SRD's ingress port as one the device originates; it is admitted as any other output (R267,
R271, R288). DEDUCED, log entry 37. -/
def screeSend (s : State) (c : Scan) (h : Sxt) (payload : List Byte) (counted : Bool) : State :=
  let h := { h with typ := 4, cls := c.hdr.cls, tid := c.hdr.tid, src := devEp s, dst := c.hdr.src, ostream := c.hdr.ostream,
                    rsver := c.hdr.rsver, tag := c.hdr.tag, len := BitVec.ofNat 16 payload.length }
  admitNew s { hdr := h, payload := payload, lp := c.hostLp, orig := true, counted := counted, ecn := ecnOf s c.hdr.tid.toNat }

/-- The rows of a frame as they leave: an 8 B head with the row number, then the row (R267). -/
def rowsBytes (rows : List (Nat × List Byte)) : List Byte := rows.flatMap (fun r => toLE 6 r.1 ++ toLE 2 0 ++ r.2)

/-- A row frame is sent (R267). -/
def sendRows (s : State) (f : RowFrame) : State :=
  match mfind s.scree.scans f.scan with
  | none => s
  | some c =>
    let first := match f.rows with | r :: _ => r.1 | [] => 0
    screeSend s c { sub := 1, xarg := BitVec.ofNat 16 f.rows.length
                    addr := c.base + BitVec.ofNat 64 (first * progRow c.prog) } (rowsBytes f.rows) false

def dropRowFrame (s : State) (e k : Nat) : State :=
  { s with scree := { s.scree with rowFrames := s.scree.rowFrames.filter (fun f => !(f.engine == e && f.scan == k)) } }

/-- The summary record (R268). -/
def summaryBytes (c : Scan) : List Byte :=
  let st := c.stopped.getD (0, 0)
  let ovf := (((c.aggs.take 8).zipIdx).map (fun e => b2n e.1.ovf * 2 ^ e.2)).sum
  let aggs := (c.aggs.take 8).flatMap (fun a => toLE 8 a.value.toNat ++ toLE 8 a.rows)
  slice (toLE 8 c.scanned ++ toLE 8 c.matched ++ toLE 8 (c.scanned * progRow c.prog) ++ toLE 1 st.1 ++ toLE 1 st.2
    ++ toLE 1 c.aggs.length ++ toLE 1 ovf ++ toLE 4 0 ++ aggs) 0 160

/-- Every RD has been filtered, and none is left to issue. -/
def scanOver (c : Scan) : Bool :=
  c.outstanding == 0 && (c.stopped.isSome || (c.arrived.length == c.count && c.segs.all (fun g => g.left == 0)))

/-- The scan's row frames go, then its summary, and the context is freed (R267, R268). -/
def endScan (s : State) (k : Nat) (c : Scan) : State :=
  let s := (s.scree.rowFrames.filter (fun f => f.scan == k)).foldl sendRows s
  let s := { s with scree := { s.scree with rowFrames := s.scree.rowFrames.filter (fun f => f.scan != k) } }
  let s := screeSend s c { sub := 2, last := true, addr := c.base } (summaryBytes c) true
  let s := bump s 0x6000 (if (c.stopped.getD (0, 0)).1 = 0 then 8 else 9)
  stir { s with scree := { s.scree with scans := merase s.scree.scans k } }

/-- Scans that are over send their summaries. -/
def finishScans (s : State) : State :=
  s.scree.scans.foldl (fun s e => if scanOver e.2 then endScan s e.1 e.2 else s) s

end Sys2Proof.Machine
end

