-- ==== Sys2Proof/Machine/Sched.lean ====
section
/-! DEFINITION. The ropes of a core: register access (R126), the program counter and block repeats (R162), the
issue slot (R180, R181), and pending events (R167 to R169). -/

namespace Sys2Proof.Machine

/-! ### General registers -/

/-- w0 reads 0 (R126). -/
def getW (x : Rope) (d : BitVec 5) : Word := if d = 0 then 0 else mget x.w d.toNat 0

/-- A write to w0 is discarded (R126). -/
def setW (x : Rope) (d : BitVec 5) (v : Word) : Rope := if d = 0 then x else { x with w := mset x.w d.toNat v }

def getK (x : Rope) (d : BitVec 4) : KWord := mget x.k d.toNat 0

def setK (x : Rope) (d : BitVec 4) (v : KWord) : Rope := { x with k := mset x.k d.toNat v }

/-! ### Block repeats (R162) -/

/-- ACT of w29. -/
def repAct (x : Rope) : Bool := (getW x 29).getLsbD 63

def repStart (x : Rope) : BitVec 32 := ((getW x 29).extractLsb' 32 24).setWidth 32 <<< 2

/-- Address of the last body instruction. -/
def repEnd (x : Rope) : BitVec 32 := repStart x + (((getW x 29).extractLsb' 60 3).setWidth 32 <<< 2)

/-- The instruction at the program counter stands in the body of the repeat that runs. -/
def inBody (x : Rope) : Bool :=
  repAct x && decide ((x.pc - repStart x).toNat ≤ (repEnd x - repStart x).toNat)

/-- The instruction at the program counter completes: the end of a body goes round or ends the repeat, any
other instruction is followed by the next (R162). -/
def nextPc (x : Rope) : Rope :=
  if repAct x && x.pc = repEnd x then
    let v := getW x 29
    let count := v.setWidth 32 - 1#32
    let v := (v &&& 0xFFFFFFFF00000000#64) ||| count.setWidth 64
    if count = 0 then { setW x 29 (v &&& 0x7FFFFFFFFFFFFFFF#64) with pc := x.pc + 4 }
    else { setW x 29 v with pc := repStart x }
  else { x with pc := x.pc + 4 }

/-! ### The issue slot -/

/-- The first ready rope of a core after rope `n`, wrapping from 7 to 0 (R181). -/
def nextReady (s : State) (k n : Nat) : Option Nat :=
  ((List.range 8).map (fun i => (n + 1 + i) % 8)).find? (fun i => (rope s (k * 8 + i)).st == .ready)

/-- Something of a core's cluster has kept it from being idle up to now (R387). -/
def busyCore (s : State) (k : Nat) : State := modCore s k (fun x => { x with busyAt := s.time.now })

/-- An event, or the end of a timer, wakes the cluster of a core where it dozes (R387). -/
def rouse (s : State) (k : Nat) : State := modCore s k (fun x => { x with roused := true })

/-- A rope is ready no more; the one that issues gives up the core (R180, R181). -/
def giveUp (s : State) (r : Nat) : State :=
  let k := ropeCore r
  let s := busyCore s k
  if (core s k).issuing = some (r % 8) then
    bump (modCore s k (fun x => { x with issuing := nextReady s k (r % 8) }))
      (0x4030 + ropeCluster r) 0x0A
  else s

/-- A rope becomes ready; it takes the issue slot where no rope holds it (R181). -/
def makeReady (s : State) (r : Nat) : State :=
  let k := ropeCore r
  let s := modRope s r (fun x => { x with st := .ready })
  if (core s k).issuing.isNone then modCore s k (fun x => { x with issuing := some (r % 8) }) else s

/-- A rope meets a long stall. -/
def stall (s : State) (r : Nat) (w : Wait) : State := giveUp (modRope s r (fun x => { x with st := .waiting w })) r

/-- The wait of a rope ends and its instruction completes. -/
def wakeDone (s : State) (r : Nat) (f : Rope → Rope) : State :=
  makeReady (modRope s r (fun x => nextPc (f x))) r

/-! ### Events -/

/-- EVW ends with the events of the mask (R168). -/
def evwTake (x : Rope) (d : BitVec 5) (m : BitVec 64) (timeout : Bool) : Rope :=
  let got := x.pending &&& m
  { setW x d got with pending := x.pending &&& ~~~m, flags := { x.flags with z := timeout } }

/-- Event bits join a rope's pending word; an EVW that waits for one of them ends (R167, R168). -/
def setEvent (s : State) (r : Nat) (b : BitVec 64) : State :=
  let s := rouse (modRope s r (fun x => { x with pending := x.pending ||| b })) (ropeCore r)
  match (rope s r).st with
  | .waiting (.event d m _) =>
    if (rope s r).pending &&& m != 0 then wakeDone s r (fun x => evwTake x d m false) else s
  | _ => s

def evFault : BitVec 64 := 1#64 <<< 63
def evStraggler : BitVec 64 := 1#64 <<< 62
def evBasecamp : BitVec 64 := 1#64 <<< 61
def evLock : BitVec 64 := 1#64 <<< 60
def evTask : BitVec 64 := 1#64 <<< 59
def evTable : BitVec 64 := 1#64 <<< 58

/-- An event for the lead rope of a cluster, where it has one. -/
def leadEvent (s : State) (c : Nat) (b : BitVec 64) : State :=
  match leadOf s c with
  | some r => setEvent s r b
  | none => s

/-- An event that reaches its rope after a time (R168, R188). -/
def sendEvent (s : State) (r : Nat) (b : BitVec 64) (cycles : Nat) : State :=
  { s with flights := s.flights ++ [{ rope := r, bits := b, due := s.time.now + cycles * dpU s }] }

/-- The flight that lands first; of several at one instant, the one sent first. -/
def firstFlight : List Flight → Option Flight
  | [] => none
  | f :: fs => match firstFlight fs with
    | none => some f
    | some g => if g.due < f.due then some g else some f

/-! ### States -/

/-- RopeState (R175). -/
def ropeStateNo (x : Rope) : Nat :=
  match x.st with
  | .free => 0
  | .ready => 1
  | .waiting _ => 2
  | .parked => 3

/-- Ropes of a cluster that are parked now. -/
def parkedRopes (s : State) (c : Nat) : Nat :=
  (s.ropes.filter (fun e => ropeCluster e.1 == c && e.2.st == .parked)).length

end Sys2Proof.Machine
end

