-- ==== Sys2Proof/Machine/Switchback.lean ====
section
/-! DEFINITION. Switchback: the outputs of a completed pitch, mirroring and flooding, what the management agent
and the scan sequencer take, and release in TICKET order (R14, R94, R119, R153, R155, R254, R285, R370, R402). -/

namespace Sys2Proof.Machine

/-- Ports a flood reaches: named, Active, partner not lost, not the ingress port (R94). -/
def floodPorts (s : State) (tid ingress : Nat) : List Nat :=
  (List.range (lps s)).filter (fun lp => lp != ingress && bit (ten s tid (0x31 + lp / 64)) (lp % 64) &&
    active s lp && (port s lp).partner != 2)

/-- The tenant is mirrored and the peer takes its writes now (R402). -/
def mirrorPort (s : State) (tid : Nat) : Option Nat :=
  if mirrored s tid && !s.rcv.peerRdonly then
    (List.range (lps s)).find? (fun lp => role s lp == 2 && (port s lp).partner == 1)
  else none

/-- What the map holds for a granule, in the copy R234 names or else in the other; none where every copy is lost. -/
def mapPeek (s : State) (g : Nat) : Option Nat :=
  let (b, o) := copyFor s s.hbm.mapBaseA s.hbm.mapBaseB g
  let at_ (base : Nat) : Option Nat :=
    if mediaIn s (base + 16 * g) 16 then none else some (ofLE (hbmRead s (base + 16 * g) 16))
  (at_ b).or (o.bind at_)

/-- ENC of the granule a global address lies in, for a tenant in WINDOWS mode (R232, R236, R240). DEDUCED, log entry
43. -/
def encOf (s : State) (tid : Nat) (gaddr : BitVec 64) : Bool :=
  !absent s && ten s tid 0x50 == 1 &&
    (match mapPeek s (bits gaddr.toNat 47 21) with | some e => bit e 124 | none => false)

/-- What a request will put into its pairing entry (R239, R240). -/
def reqOf (s : State) (orig h : Sxt) (hostLp : Nat) : Pair :=
  let g : BitVec 64 := (h.addr &&& 0x0000FFFFFFFFFFFF#64) ||| (s.sys.deviceId.setWidth 64 <<< 48)
  { kind := h.typ, tid := h.tid, hostEp := orig.src, ostream := orig.ostream, tag := orig.tag, psn := orig.psn,
    hostLp := hostLp, taddr := orig.addr, gaddr := g, enc := encOf s h.tid.toNat g
    want := if h.typ = 0 then h.xarg.toNat % 4096 + 1 else h.len.toNat }

/-- The management agent takes an MGMT frame, or discards it when full or switched off (R370, R373, R377). DEDUCED,
log entry 41. -/
def mgmtTake (s : State) (h : Sxt) (payload : List Byte) (lp : Nat) : State :=
  let settled (s : State) : State := if h.dst = devEp s then settle s h.src h.psn else s
  if obj s 0x0200 2 = 0 then settled (bump s 0x0200 9)
  else if 256 ≤ s.dict.mgmtQ.length then
    let s := bump s 0x0200 9
    if h.dst = devEp s then withdraw s h.src h.psn else s
  else
    let s := { s with dict := { s.dict with mgmtQ := s.dict.mgmtQ ++ [{ hdr := h, payload := payload, lp := lp }] } }
    settled s

/-- A segment as the sequencer takes it (R254). -/
def segmentOf (h : Sxt) (payload : List Byte) (lp hostLp : Nat) (ecn : BitVec 2) : Segment :=
  if h.len = 8 then
    { hdr := h, lp := lp, hostLp := hostLp, len := beAt payload 0 8, base := h.addr,
      row := 0, num := 0, count := 1, ecn := ecn }
  else
    { hdr := h, ecn := ecn, lp := lp, hostLp := hostLp, len := beAt payload 0 8
      base := BitVec.ofNat 64 (beAt payload 8 8), row := beAt payload 16 6, num := beAt payload 22 1
      count := beAt payload 23 1, bad := h.len != 24 }

/-- The scan sequencer takes an SRD segment; the SKX-9624 answers UNIT_ABSENT (R5, R31, R254). -/
def scanTake (s : State) (h : Sxt) (payload : List Byte) (lp hostLp : Nat) (ecn : BitVec 2) : State :=
  if absent s then nakFrame s hostLp h 8 0
  else
    let s := { s with scree := { s.scree with waiting := s.scree.waiting ++ [segmentOf h payload lp hostLp ecn] } }
    if h.dst = devEp s then settle s h.src h.psn else s

/-- One copy of a frame: where it goes, and what it carries. -/
structure Copy where
  frame : Nat
  orig : Sxt
  hdr : Sxt
  payload : List Byte
  lp : Nat
  own : Bool
  mirror : Bool := false
  host : Bool := false
  deriving DecidableEq, Repr

/-- The management agent takes what is disposed to 0x1FF (R370), and the scan sequencer an SRD disposed to a MEMORY port
(R254): neither becomes a copy. -/
def toAgent (h : Sxt) (lp : Nat) : Bool := h.typ == 9 && lp == 0x1FF

def toSequencer (s : State) (h : Sxt) (lp : Nat) : Bool := h.typ == 2 && role s lp == 1 && decide (lp < lps s)

/-- The bytes of a frame under the head that an emission gave it (R153). -/
def headed (x : Frame) (head : List Byte) : List Byte := splice x.bytes 0 (head.take (min 128 x.bytes.length))

/-- A frame's copies under one emission, floods by rising port (R94, R153). -/
def emitCopies (s : State) (f : Nat) (x : Frame) (e : Emit) : List Copy :=
  let orig := hdrOf x
  let mk (head : List Byte) (loc : Bool) (lp : Nat) : Copy :=
    let bs := headed x head
    let h := { parseSxt (bs.drop x.off) with rsver := orig.rsver, len := orig.len }
    { frame := f, orig := orig, hdr := h, payload := slice bs (x.off + 32) orig.len.toNat, lp := lp, own := loc || x.pair.isSome,
      host := loc }
  match e with
  | .port _ head loc lp => if toAgent orig lp || toSequencer s orig lp then [] else [mk head loc lp]
  | .flood _ head loc => (floodPorts s orig.tid.toNat x.lp).map (mk head loc)
  | _ => []

/-- The MEMORY copy of a mirrored WR is followed by one for the PEER port (R14); one that came from the peer is not sent
back. DEDUCED, log entry 42. -/
def withMirror (s : State) (c : Copy) : List Copy :=
  if c.host && c.hdr.typ = 1 && role s c.lp == 1 && role s (frameOf s c.frame).lp != 2 then
    match mirrorPort s c.hdr.tid.toNat with
    | some p => [c, { c with lp := p, mirror := true }]
    | none => [c]
  else [c]

/-- The index of the final owner among a frame's copies (R285). -/
def ownerIx (cs : List Copy) : Nat :=
  if cs.any (·.mirror) then (cs.findIdx (·.mirror)) - 1 else cs.length - 1

/-- The pairing entry that a copy of a paired RSP carries to stages 7 and 8: of a scan's RSP the first copy on the host's
port is the one that Scree takes and that ends the RD, a further one there is filtered again, and a copy on another port is
no part of the scan (R271). DESIGN CHOICE, log entry 92. -/
def copyPair (x : Frame) (lp : Nat) (first : Bool) : Option Pair :=
  match x.pair with
  | none => none
  | some p =>
    if p.scan.isNone then some p
    else if lp ≠ p.hostLp then some { p with scan := none }
    else if first then some p
    else some { p with want := p.want + 2 ^ 20 }

/-- What Switchback knows of a frame of a pitch that it releases: its copies, and which of them owns the stores. -/
structure Leaving where
  frame : Nat
  x : Frame
  copies : List Copy
  owner : Nat
  deriving DecidableEq, Repr

def Emit.frame? : Emit → Option Nat
  | .port i _ _ _ => some i
  | .flood i _ _ => some i
  | .nak i _ _ => some i
  | .deny i => some i
  | .derived _ _ _ => none

/-- The copies of one emission of a frame. -/
def copiesOf (s : State) (f : Nat) (x : Frame) (e : Emit) : List Copy := (emitCopies s f x e).flatMap (withMirror s)

def leavingOf (s : State) (p : Pitch) (i f : Nat) : Leaving :=
  let x := frameOf s f
  let cs := (p.emits.filter (fun e => e.frame? == some i)).flatMap (copiesOf s f x)
  { frame := f, x := x, copies := cs, owner := ownerIx cs }

/-- Admit copy number `ix` of a frame: the first output uses the frame's slot, a further one takes its own (R285). -/
def admitCopy (s : State) (l : Leaving) (c : Copy) (ix : Nat) : State :=
  let x := l.x
  let req := if c.host && (c.hdr.typ = 0 || c.hdr.typ = 1 || c.hdr.typ = 3) && (role s c.lp == 1 || c.mirror)
    then some (reqOf s c.orig c.hdr x.lp) else none
  let first := match x.pair with
    | some p => l.copies.findIdx (fun d => d.lp == p.hostLp) == ix
    | none => false
  let o : Output :=
    { frame := some c.frame, hdr := c.hdr, payload := c.payload, lp := c.lp, orig := c.own, counted := true,
      owner := ix == l.owner, mirror := c.mirror, head := x.head, ecn := x.ecn, credited := x.credited,
      req := req, host := if c.host && c.hdr.typ = 1 && req.isSome then some (c.orig.src, c.orig.psn) else none,
      pair := copyPair x c.lp first }
  if ix = 0 then lodge s o else admitNew s o

/-- A frame's part in the release of its pitch, before its outputs: floods are counted (R94), its PSN is settled or waits for
the legs of a WR (R14, R444), and its stores pass to its copies, or are freed where it has none (R285). -/
def settleLeaving (s : State) (p : Pitch) (i : Nat) (l : Leaving) : State :=
  let x := l.x
  let h := hdrOf x
  let mine := p.emits.filter (fun e => e.frame? == some i)
  let has (q : Emit → Bool) : Bool := mine.any q
  let s := if has (fun e => match e with | .flood _ _ _ => true | _ => false) then
      bumpTen s h.tid.toNat (if (floodPorts s h.tid.toNat x.lp).isEmpty then 0x39 else 0x38)
    else s
  let taken := has (fun e => match e with | .port _ _ _ lp => toAgent h lp || toSequencer s h lp | _ => false)
  let refused := has (fun e => match e with | .nak _ _ _ => true | .deny _ => true | _ => false)
  let legs := (l.copies.filter (fun c => c.host && c.hdr.typ = 1 && (role s c.lp == 1 || c.mirror))).length
  let s := if refused || taken || !(sequenced h.typ && h.dst == devEp s) then s
    else if legs = 0 then settle s h.src h.psn
    else { s with xport := { s.xport with host := { ep := h.src, psn := h.psn, hdr := h, lp := x.lp, legs := legs } :: s.xport.host } }
  if l.copies.isEmpty then retireFrame s l.frame
  else
    let s := match x.pair with
      | some q => if l.copies.any (fun c => c.lp == q.hostLp) then s else scanLost s q h.addr h.len.toNat
      | none => s
    let s := setInFlight s h.rsver (inFlightOf s h.rsver + l.copies.length - 1)
    let cp : Copies := { count := l.copies.length - 1, head := x.head, cells := x.cells }
    { s with frames := merase s.frames l.frame, trav := { s.trav with copies := mset s.trav.copies l.frame cp } }

/-- The ports that a derived frame for a port goes to: a WR of a mirrored tenant toward a MEMORY port has a copy for the PEER
port too, unless its pitch came from the peer (R14, R402). -/
def derivedPorts (s : State) (p : Pitch) (h : Sxt) (lp : Nat) : List Nat :=
  if h.typ = 1 && role s lp == 1 && role s p.lp != 2 then lp :: (mirrorPort s h.tid.toNat).toList else [lp]

/-- A derived frame of FNEW (R155): its copies, or the segment the sequencer takes (R254). A derived WR has its legs counted
as a host's has, and its refusal goes to the SRC_EP that it names (R14, R242). DEDUCED, log entries 96 and 125. One that names
a logical port that the mode in force does not have joins that port's queue: R158 speaks of FEMIT and LOCALDISP alone. DESIGN
CHOICE, log entry 119. -/
def releaseDerived (s : State) (p : Pitch) (first : Option Frame) (slot : List Byte) (flood : Bool) (lp : Nat) : State :=
  let psn := match first with | some x => (hdrOf x).psn | none => 0
  let ecn := match first with | some x => x.ecn | none => 0
  let h := { parseSxt slot with rsver := p.rsver, psn := psn, opn := false, retx := false }
  let payload := slice (slot.drop 32) 0 h.len.toNat
  let t := h.tid.toNat
  if !flood && toSequencer s h lp then
    scanTake s { h with dst := match first with | some x => (hdrOf x).dst | none => h.dst } payload lp p.lp ecn
  else
    let named := if flood then floodPorts s t p.lp else [lp]
    let s := if flood then bumpTen s t (if named.isEmpty then 0x39 else 0x38) else s
    let asks := h.typ = 0 || h.typ = 1 || h.typ = 3
    let ports := named.flatMap (fun lp => (derivedPorts s p h lp).map (fun q => (q, asks && role s lp == 1)))
    let legs := if h.typ = 1 then (ports.filter (·.2)).length else 0
    let no := s.nextOut + 1
    let s := if legs = 0 then s
      else { s with nextOut := no, xport := { s.xport with
        host := { ep := h.src, psn := psn, hdr := h, lp := p.lp, legs := legs, derived := no } :: s.xport.host } }
    ports.foldl (fun s e =>
      let o : Output := { hdr := h, payload := payload, lp := e.1, orig := true, keepSrc := true, counted := true, ecn := ecn
                          req := if e.2 then some (reqOf s h h p.lp) else none }
      let o := if legs = 0 then o
        else { o with mirror := role s e.1 == 2, host := if e.2 then some (h.src, psn) else none, derived := no }
      admitNew (versionUp s p.rsver) o) s

/-- A frame as an emission edited its head: what the agent and the sequencer take of it (R153). The fields that no program may
change stay as received (R158). -/
def asEdited (x : Frame) (head : List Byte) : Sxt × List Byte :=
  let h := hdrOf x
  let bs := headed x head
  ({ parseSxt (bs.drop x.off) with rsver := h.rsver, len := h.len, dst := h.dst, src := h.src, psn := h.psn },
   slice bs (x.off + 32) h.len.toNat)

/-- One emission of a released pitch, with the copies each frame has had so far: a copy or a flood is admitted, the agent or
the sequencer takes what is disposed to it, a NAK is sent, a derived frame is admitted (R119, R153 to R156). -/
def releaseEmit (s0 : State) (p : Pitch) (ls : List Leaving) (acc : State × Map Nat) (e : Emit) : State × Map Nat :=
  let (s, seen) := acc
  match e with
  | .derived slot fl lp => (releaseDerived s p (ls.head?.map (·.x)) slot fl lp, seen)
  | _ =>
    match e.frame?.bind (fun i => (ls[i]?).map (fun l => (i, l))) with
    | none => acc
    | some (i, l) =>
      let h := hdrOf l.x
      let copies : State × Map Nat :=
        let cs := copiesOf s0 l.frame l.x e
        let n := mget seen i 0
        ((cs.zipIdx).foldl (fun s c => admitCopy s l c.1 (n + c.2)) s, mset seen i (n + cs.length))
      match e with
      | .nak _ code detail => (nakAny s l.x.lp h code.toNat detail.toNat, seen)
      | .deny _ => (nakFrame s l.x.lp h 6 0, seen)
      | .port _ head _ lp =>
        let (y, body) := asEdited l.x head
        if toAgent h lp then (mgmtTake s y body l.x.lp, seen)
        else if toSequencer s0 h lp then (scanTake s y body lp l.x.lp l.x.ecn, seen)
        else copies
      | _ => copies

/-- Switchback releases a completed pitch: its outputs in the order in which the rope produced them (R119, R156). A derived
frame answers for the PSN of the pitch's first frame where it is a segment of its SRD (R255), and takes that frame's ECN
codepoint (R293). -/
def releasePitch (s : State) (p : Pitch) : State :=
  let ls := (p.frames.zipIdx).map (fun e => leavingOf s p e.2 e.1)
  let t := (ls.zipIdx).foldl (fun t e => settleLeaving t p e.2 e.1) s
  finishScans (p.emits.foldl (releaseEmit s p ls) (t, [])).1

def laneOf (s : State) (l : Nat) : Lane := mget s.pit.lanes l {}

def setLane (s : State) (l : Nat) (x : Lane) : State := { s with pit := { s.pit with lanes := mset s.pit.lanes l x } }

/-- The pitch that holds a TICKET of a lane. -/
def pitchAt (s : State) (l : Nat) (t : BitVec 32) : Option (Nat × Pitch) :=
  s.pit.pitches.find? (fun e => e.2.ticketed && e.2.lane.toNat == l && e.2.ticket == t)

/-- Release the oldest pitches of a lane that have completed or were marked late, in TICKET order (R119). -/
def releaseLane (s : State) (l : Nat) : Nat → State
  | 0 => s
  | n + 1 =>
    let la := laneOf s l
    match pitchAt s l la.release with
    | none => s
    | some (k, p) =>
      let next := setLane s l { la with release := la.release + 1 }
      if p.late then releaseLane (if p.place = .done then dropPitch next k else next) l n
      else if p.place = .done then releaseLane (releasePitch (dropPitch next k) p) l n
      else s

/-- Completed pitches that Switchback holds, with outputs or without (R119). -/
def heldPitches (s : State) : Nat := (s.pit.pitches.filter (fun e => e.2.place == .done && !e.2.late)).length

/-- Ropes whose PDONE waits for room in Switchback go on where there is room. -/
def wakeHeld (s : State) : State :=
  if 4096 ≤ heldPitches s then s
  else (s.ropes.map (·.1)).foldl (fun s r => if (rope s r).st = .waiting .hold then makeReady s r else s) s

/-- A pitch completes: it is held for its lane, or its output is discarded when it was marked late (R119,
R120). -/
def completePitch (s : State) (k : Nat) : State :=
  match pitch s k with
  | none => s
  | some p => wakeHeld <|
    if p.late then
      let s := bump s 0x4000 0x10
      if psnLt p.ticket (laneOf s p.lane.toNat).release then dropPitch s k
      else setPitch s k { p with place := .done, frames := [], emits := [] }
    else
      let s := setPitch s k { p with place := .done, rope := none }
      releaseLane s p.lane.toNat (s.pit.pitches.length + 1)

/-- Switchback holds 4,096 completed pitches, and one that completed now would be held behind an earlier one of its lane
(R119). -/
def holdFull (s : State) (k : Nat) : Bool :=
  match pitch s k with
  | none => false
  | some p => !p.late && p.ticket != (laneOf s p.lane.toNat).release && decide (4096 ≤ heldPitches s)

/-- A pitch ends with no outputs: its sequenced frames are answered and discarded, and it counts as completed
(R119, R174). -/
def failPitch (s : State) (k : Nat) (code detail : Nat) : State :=
  match pitch s k with
  | none => s
  | some p =>
    let s := if p.late then s else p.frames.foldl (fun s f =>
      let x := frameOf s f
      let h := hdrOf x
      retireFrame (if code = 4 then nakRetry s x.lp h code detail else nakFrame s x.lp h code detail) f) s
    finishScans (completePitch (setPitch s k { p with frames := [], emits := [] }) k)

end Sys2Proof.Machine
end

