-- ==== Sys2Proof/Machine/Pitches.lean ====
section
/-! DEFINITION. Pitch formation, order lanes and the cluster map (R107 to R112). -/

namespace Sys2Proof.Machine

/-- Charged cells of a held frame (R280). -/
def frameCells (x : Frame) : Nat := cdiv x.bytes.length 256

/-- A frame that Col discards before dispatch: its ingress queue gives its cells back and it retires (R81, R110). -/
def dropAtCol (s : State) (f : Nat) : State :=
  let x := frameOf s f
  retireFrame (ingressDown s x.lp (hdrOf x).cls.toNat (frameCells x)) f

/-- The lane of an ordering domain (R111). -/
def laneNo (s : State) (tid : BitVec 12) (src : BitVec 24) (ostream : BitVec 16) : Nat :=
  crc32c (toBE 4 s.tbl.laneSeed.toNat ++ toBE 2 tid.toNat ++ toBE 3 src.toNat ++ toBE 2 ostream.toNat) % 65536

/-- The cluster map's entry for a lane (R112). -/
def mapEntry (s : State) (lane : Nat) : Nat :=
  mget s.pit.clusterMap (lane % 4096) (lane % 4096 % 16) % clusters s

/-- The cluster that runs the pitches of a lane: the entry's, or the next with an unfenced core (R112). -/
def clusterFor (s : State) (lane : Nat) : Option Nat :=
  ((List.range (clusters s)).map (fun i => (mapEntry s lane + i) % clusters s)).find?
    (fun c => !(openCores s c).isEmpty)

/-- A pitch is discarded while every core is fenced: its frames are counted and retire (R112); one that had
been dispatched gives up its place in its lane. -/
def discardPitch (s : State) (k : Nat) : State :=
  match pitch s k with
  | none => s
  | some p =>
    if p.ticketed then
      let s := if p.late then s else
        p.frames.foldl (fun s f => retireFrame (bumpLp s (frameOf s f).lp 0x1E) f) s
      completePitch (setPitch s k { p with frames := [], emits := [] }) k
    else dropPitch (p.frames.foldl (fun s f => dropAtCol (bumpLp s (frameOf s f).lp 0x1E) f) s) k

/-- Close a pitch, counted in `ctr`; it joins its tenant's queue in its cluster (R108, R112, R113). -/
def closePitch (s : State) (k ctr : Nat) : State :=
  match pitch s k with
  | none => s
  | some p =>
    let s := modPort s p.lp (fun q => { q with
      openPitch := if lget q.openPitch p.cls.toNat none = some k then lset q.openPitch p.cls.toNat none else q.openPitch })
    let s := bumpBy (bump (bump s 0x4000 ctr) 0x4000 8) 0x4000 9 p.frames.length
    let lane := laneNo s p.tid p.src p.ostream
    match clusterFor s lane with
    | none => discardPitch s k
    | some c =>
      let s := setPitch s k { p with place := .queued, lane := BitVec.ofNat 16 lane, cluster := c }
      let sh := shed s c
      let t := p.tid.toNat
      setShed s c { sh with queues := mset sh.queues t (mget sh.queues t [] ++ [k]) }

/-- A frame and a pitch have one key (R107). -/
def keyOf (p : Pitch) (x : Frame) (h : Sxt) : Bool :=
  p.lp == x.lp && p.cls == h.cls && p.tid == h.tid && p.src == h.src && p.ostream == h.ostream && p.rsver == h.rsver

/-- A frame opens a pitch. -/
def openNew (s : State) (f : Nat) : State × Nat :=
  let x := frameOf s f
  let h := hdrOf x
  let k := s.pit.nextPitch
  let p : Pitch := { frames := [f], lp := x.lp, cls := h.cls, tid := h.tid, src := h.src, ostream := h.ostream,
                     rsver := h.rsver, openedAt := cyc s, window := obj s 0x4000 1 }
  let s := setPitch { s with pit := { s.pit with nextPitch := k + 1 } } k p
  (modPort s x.lp (fun q => { q with openPitch := lset q.openPitch h.cls.toNat (some k) }), k)

/-- A frame reaches the former of its logical port; in the dp-cycle in which the window of the open pitch expires it finds it
closed (R108, R109). -/
def formPitch (s : State) (f : Nat) : State :=
  let x := frameOf s f
  let h := hdrOf x
  let alone := h.typ == 2 || h.typ == 9
  let s := match lget (port s x.lp).openPitch h.cls.toNat none with
    | none => s
    | some k => match pitch s k with
      | none => s
      | some p => if p.openedAt + p.window ≤ cyc s then closePitch s k 0x0A else s
  let cur := lget (port s x.lp).openPitch h.cls.toNat none
  let fresh (s : State) : State :=
    let (s, k) := openNew s f
    if alone then closePitch s k 0x0C
    else if obj s 0x4000 1 = 0 then closePitch s k 0x0A
    else s
  match cur with
  | none => fresh s
  | some k => match pitch s k with
    | none => fresh s
    | some p =>
      if !alone && keyOf p x h then
        let s := setPitch s k { p with frames := p.frames ++ [f] }
        if 16 ≤ p.frames.length + 1 then closePitch s k 0x0B else s
      else fresh (closePitch s k 0x0C)

/-- CoalesceWindow dp-cycles after its first frame, at whatever frequency was in force, an open pitch closes (R108, R109). -/
def execCoalesceWindowExpiry (lp : Nat) (cls : BitVec 3) (s : State) : Res := live s <|
  match lget (port s lp).openPitch cls.toNat none with
  | none => .next s
  | some k => match pitch s k with
    | none => .next s
    | some p => .next (closePitch (advanceTo s (cycStart s (p.openedAt + p.window))) k 0x0A)

end Sys2Proof.Machine
end

