-- ==== Sys2Proof/Machine/Links.lean ====
section
/-! DEFINITION. Ports and links, PULSE, PFC, CRED and the timers of the transport engine (R17 to R19, R35 to R47,
R50 to R61). -/

namespace Sys2Proof.Machine

/-! ### Read-only state of a mirrored pair (R402, R405, R406) -/

/-- The peer is lost: no PEER port has its partner present (R402). -/
def peerLost (s : State) : Bool := !isPeerPresent s

/-- The 300 ms of the lease have passed (R404). -/
def leaseOver (s : State) : Bool := s.rcv.leaseUntil.any (fun t => decide (t ≤ s.time.now))

/-- A lease whose time has passed is dropped, and its expiry counts (R404). -/
def dropOver (s : State) : State :=
  if leaseOver s then bump { s with rcv := { s.rcv with leaseUntil := none } } 0x8002 0x0A else s

/-- WriteFence takes a value, which is stored (R375, R406). -/
def latchFence (s : State) (b : Bool) : State :=
  if s.rcv.writeFence = b then s else storeLater { s with rcv := { s.rcv with writeFence := b } } 0x8002 7 (b2n b)

/-- Enter or leave read-only by the lease held (R405); on entry WriteFence is set (R406). -/
def readOnlyNow (s : State) : State :=
  let ro := obj s 0x8002 1 == 1 && ((peerLost s && s.rcv.leaseUntil.isNone) || s.rcv.writeFence)
  if ro && !s.rcv.readOnly then
    let s := latchFence { s with rcv := { s.rcv with readOnly := true } } true
    let s := if peerLost s then bump s 0x8002 0x0B else s
    cairn s 0x0C 2 2 (toLE 1 1 ++ toLE 4 s.rcv.epoch.toNat)
  else { s with rcv := { s.rcv with readOnly := ro } }

/-- Enter or leave read-only as R405 says; a lease whose time has passed is held no more. -/
def recheckReadOnly (s : State) : State := readOnlyNow (dropOver s)

/-- FAULT_N follows its conditions, and what hangs on it (R404, R408). -/
def recheckService (s : State) : State := recheckReadOnly (setFaultN (dropOver s))

/-- What a lease whose time has passed brings, before anything asks who may write (R404, R405). DEDUCED, log entry 2. -/
def settleLease (s : State) : State := if leaseOver s then recheckReadOnly s else s

/-! ### Links -/

/-- A port enters service with its link up: PULSE starts, the loss timer starts unless it runs or the partner is lost,
and no partner endpoint is known (R17, R19, R47, R239). DESIGN CHOICE, log entry 39. -/
def enterPort (s : State) (lp : Nat) : State :=
  if active s lp then
    modPort s lp (fun p => { p with
      nextPulse := some s.time.now, partnerEp := none
      lossFrom := if p.partner = 2 then none else some (p.lossFrom.getD s.time.now)
      missedFrom := some (p.missedFrom.getD s.time.now) })
  else s

def enterPorts (s : State) : State := (List.range (lps s)).foldl enterPort s

/-- A fresh training attempt with a new limit of 500 ms (R54). -/
def trainPort (s : State) (lp : Nat) : State :=
  if lpDefined s lp && lpo s lp 2 == 1 then modPort s lp (fun p => { p with link := 1, trainAt := s.time.now, nextPulse := none })
  else modPort s lp (fun p => { p with link := 0, nextPulse := none })

/-- A link that was up is lost: counted, its PULSE stops, and it trains again (R55, R56). DEDUCED, log entry 40. -/
def loseLink (s : State) (lp : Nat) : State := trainPort (bumpLp s lp 0x21) lp

/-- A port's queues are gone: its classes and tenants lose their deficits and their turns (R307). -/
def emptySched (s : State) (lp : Nat) : State :=
  let s := (List.range 8).foldl (fun s c => yieldTurn s lp c) s
  { s with tm := { s.tm with
      sched := mset s.tm.sched lp { mget s.tm.sched lp {} with classDef := [], tenDef := [] }, undo := merase s.tm.undo lp } }

/-- The outputs queued for a port, those that wait to join its queues again, and the state without them. Spilled ones, which
hold no head or cells, give back their buffers. -/
def takeQueued (s : State) (lp : Nat) : State × List Output × List Output :=
  let outs := (s.tm.queues.filter (fun q => q.lp == lp)).flatMap (·.outs)
  let sp := s.trav.spilled.filter (fun x => x.out.lp == lp)
  let waits := s.xport.parked.filter (fun x => x.out.lp == lp)
  let bufs := sp.map (fun x => (x.pool, x.buf)) ++ waits.filterMap (·.buf)
  let s := { s with tm := { s.tm with queues := s.tm.queues.filter (fun q => q.lp != lp) }
                    trav := { s.trav with spilled := s.trav.spilled.filter (fun x => x.out.lp != lp) }
                    xport := { s.xport with parked := s.xport.parked.filter (fun x => x.out.lp != lp) } }
  (emptySched (bufs.foldl (fun s b => pitonRelease s true b.1 b.2) s) lp, outs ++ sp.map (·.out), waits.map (·.out))

/-- Everything queued for a port is discarded for good and its cells are counted in subindex `ctr`; a request or a scan's RSP
that no context will carry any more is answered for (R19, R52). DEDUCED, log entry 91. Outputs that R287 keeps for the port
and that stand in no queue go with them, and their cells are not counted. DESIGN CHOICE, log entry 116. -/
def dropPort (s : State) (lp ctr : Nat) : State :=
  let (s, outs, waits) := takeQueued s lp
  let s := bumpBy s (0x2000 + lp) ctr (outs.map outCells).sum
  (outs ++ waits).foldl (fun s o => answerLost (endOutput s o) o) s

/-- A mode or lane change discards what is queued for a port and counts its cells (R52). -/
def flushQueued (s : State) (lp : Nat) : State := dropPort s lp 0x1D

/-- A Mode, LaneMap or LanePolarity write takes the physical port's logical ports down, flushes them and trains
them (R52, R53). -/
def retrainPhys (s : State) (lp : Nat) : State :=
  finishScans (((List.range 4).map (fun i => lp / 4 * 4 + i)).foldl (fun s l => trainPort (flushQueued s l) l) s)

/-- Training completes on all lanes: the link is up; credit counts start afresh with it (R44, R54). A pause received and the
XOFF state outlast the link. DESIGN CHOICE, log entry 95. -/
def execTrainingComplete (lp : Nat) (s : State) : Res :=
  if linkState s lp = 1 && on s then
    .next (enterPort (modPort s lp (fun p => { p with
      link := 2, credSeen := false, credLimit := List.replicate 8 0, cellsSent := List.replicate 8 0,
      grantLimit := List.replicate 8 0, sentLimit := List.replicate 8 0 })) lp)
  else .next s

/-- An attempt not complete after 500 ms is abandoned, counted and restarted at once (R54). -/
def execTrainingTimeout (lp : Nat) (s : State) : Res :=
  if linkState s lp = 1 then
    let s := advanceTo s ((port s lp).trainAt + msU 500)
    .next (trainPort (bumpLp s lp 0x21) lp)
  else .next s

/-- Loss of the receive signal or a partner restart during training starts a fresh attempt, not counted (R54). -/
def execTrainingRestart (lp : Nat) (s : State) : Res :=
  if linkState s lp = 1 then .next (trainPort s lp) else .next s

/-- The codewords of 1 ms are counted; with eight uncorrectable ones the port goes down, is counted and retrains (R55).
DESIGN CHOICE, log entry 90. -/
def execFecErrorBurst (lp corrected uncorrectable : Nat) (s : State) : Res :=
  if linkUp s lp then
    let s := bumpBy (bumpBy s (0x2000 + lp) 0x10 corrected) (0x2000 + lp) 0x11 uncorrectable
    .next (if 8 ≤ uncorrectable then loseLink s lp else s)
  else .next s

/-- A logical port goes down: its PULSE stops, the loss timer runs on and its queued frames stay (R56). -/
def execLinkDown (lp : Nat) (s : State) : Res :=
  if linkUp s lp then .next (loseLink s lp) else .next s

/-- LPI received outside Bivouac is treated as idle and counted (R60). -/
def execLpiReceivedOutside (lp : Nat) (s : State) : Res :=
  if linkUp s lp && s.pwr.state != 2 then .next (bumpLp s lp 0x22) else .next s

/-! ### A Bivouac entry that ends at its step 1 (R47, R60, R333, R388) -/

/-- A port leaves Bivouac: LPI ends, or training starts afresh (R60). -/
def portAwake (s : State) (lp : Nat) : State :=
  if (port s lp).link = 3 then modPort s lp (fun p => { p with link := 2 }) else trainPort s lp

/-- The entry of Bivouac ends before the data path has lost power: the ports leave LPI, each loss timer starts with a full
30 µs, and the idle timer starts again. -/
def entryAborts (s : State) : State :=
  let s := (List.range (nStacks s.sys)).foldl (fun s k => setStack s k { stackOf s k with pendingSr := false }) s
  let s := { s with pwr := { s.pwr with state := 0, wakeSrc := none, idleSince := some s.time.now } }
  enterPorts ((List.range (lps s)).foldl portAwake s)

/-- A frame that comes while the ports go to LPI aborts the entry (R388). -/
def wokenBy (s : State) (lp : Nat) : State :=
  if on s && s.pwr.state == 1 && (port s lp).link == 3 then entryAborts s else s

/-! ### PULSE -/

/-- The PULSE of a port at this instant (R46); it carries the CURRENT version (R81). DEDUCED, log entry 38. -/
def pulseHdr (s : State) (lp : Nat) : Sxt :=
  { typ := 8, cls := 7, dst := 0xFFFFFF#24, src := devEp s, psn := (port s lp).pulseCount, rsver := s.col.ver.current,
    xarg := BitVec.ofNat 16 (1 + 2 * b2n s.rcv.readOnly + 4 * b2n s.rcv.leaseUntil.isSome),
    addr := BitVec.ofNat 64 (ft s) }

/-- At its 10 µs mark a PULSE leaves ahead of every queued frame of an Active port (R17, R47). -/
def execPulseSend (lp : Nat) (s : State) : Res :=
  if active s lp then
    let s := settleLease (advanceTo s ((port s lp).nextPulse.getD s.time.now))
    let s := putOnWire s (withSettings s { hdr := pulseHdr s lp, lp := lp, ecn := ecnOf s 0 }) (pulseHdr s lp)
    .next (modPort s lp (fun p => { p with
      pulseCount := p.pulseCount + 1, nextPulse := some (s.time.now + usU 10) }))
  else .next s

/-- A PULSE interval passes without a valid PULSE (R61). No interval runs while the data path has no power (R47). The
intervals run from the port's entry into service and from each valid PULSE, whatever becomes of the link, the partner or the
port's mode. DESIGN CHOICE, log entry 117. -/
def execPulseMissed (lp : Nat) (s : State) : Res :=
  if !on s then .next s
  else match (port s lp).missedFrom with
  | none => .next s
  | some t =>
    let s := advanceTo s (t + usU 10)
    .next (modPort (bumpLp s lp 0x23) lp (fun p => { p with missedFrom := some (t + usU 10) }))

/-- A valid PULSE restarts the loss timer and brings a lost partner back (R19, R47, R239, R402). -/
def pulseReceived (s : State) (lp : Nat) (h : Sxt) : State :=
  let s := if role s lp = 2 then { s with rcv := { s.rcv with peerRdonly := bit h.xarg.toNat 1 } } else s
  recheckReadOnly (modPort s lp (fun p => { p with
    partner := 1, lossFrom := some s.time.now, missedFrom := some s.time.now, partnerEp := some h.src }))

/-- The cells queued for a port. -/
def queuedFor (s : State) (lp : Nat) : Nat := ((takeQueued s lp).2.1.map outCells).sum

/-- The partner of a port is lost: its cells are discarded and counted, contexts sending on it fail or, with nothing
unacknowledged, are freed, and a record is written (R19, R39, R239, R407). DEDUCED, log entry 91. -/
def partnerLost (s : State) (lp : Nat) : State :=
  let s := modPort s lp (fun p => { p with partner := 2, lossFrom := none })
  let n := queuedFor s lp
  let s := dropPort s lp 0x1C
  let mine := s.xport.tx.filter (fun e => e.2.lp == lp || e.2.sent.any (fun x => x.out.lp == lp))
  let s := mine.foldl (fun s e => if e.2.sent.isEmpty then dropTxAt s e.1 else failCtx s e.1) s
  let s := cairn s 1 1 2 (toLE 2 lp ++ toLE 8 n)
  recheckReadOnly s

/-- 30 µs without a valid PULSE (R19). The timer runs in no state in which the data path has no power (R47). -/
def execPulseLossTimeout (lp : Nat) (s : State) : Res :=
  if !on s then .next s
  else match (port s lp).lossFrom with
  | none => .next s
  | some t => .next (finishScans (partnerLost (advanceTo s (t + usU 30)) lp))

/-! ### Contexts -/

/-- AckDelay after the cumulative acknowledged PSN first moved (R37). -/
def execAckDelayExpiry (ep : BitVec 24) (s : State) : Res := live s <|
  match rxOf s ep with
  | none => .next s
  | some c => match c.ackDue with
    | none => .next s
    | some t => .next (sendAck (advanceTo s t) ep c)

/-- The context toward an endpoint whose deadline comes first, where it has one; of several at one instant, the first by
key. -/
def firstCtx (due : TxCtx → Option Nat) (ep : BitVec 24) : Map TxCtx → Option (Nat × TxCtx × Nat)
  | [] => none
  | (k, c) :: m =>
    match (if keyDst k = ep then due c else none), firstCtx due ep m with
    | none, r => r
    | some t, none => some (k, c, t)
    | some t, some r => if r.2.2 < t then some r else some (k, c, t)

/-- The timer of a context toward an endpoint expires: the oldest unacknowledged PSN goes once more, or the context fails;
an expiry that comes with the NAK that has just had that PSN retransmitted adds nothing (R38, R39). -/
def execRetransmitTimeout (ep : BitVec 24) (s : State) : Res := live s <|
  match firstCtx (fun c => if c.sent.isEmpty then none else c.due) ep s.xport.tx with
  | none => .next s
  | some (k, c, t) =>
    let s := advanceTo s t
    match c.sent with
    | [] => .next s
    | x :: rest =>
      let due := some (s.time.now + 2 * rto s)
      if x.retx then
        if x.retxAt = some s.time.now then .next (setTxAt s k { c with due := due })
        else .next (finishScans (failCtx s k))
      else
        let again : Sent := { x with retx := true, retxAt := some s.time.now }
        let c := { c with sent := again :: rest, due := due, lastEvent := s.time.now }
        .next (finishScans (retransmit (setTxAt s k c) c x))

/-- A context that meets the conditions of R35 for 100 ms is freed. -/
def execContextIdleExpiry (receiver : Bool) (ep : BitVec 24) (s : State) : Res :=
  if receiver then
    match rxOf s ep with
    | none => .next s
    | some c =>
      if c.lastAck = c.cum && c.got.isEmpty then
        let s := advanceTo s (c.lastEvent + msU 100)
        .next { s with xport := { s.xport with rx := merase s.xport.rx ep.toNat } }
      else .next s
  else
    match firstCtx (fun c => if c.sent.isEmpty then some c.lastEvent else none) ep s.xport.tx with
    | none => .next s
    | some (k, _, t) => .next (dropTxAt (advanceTo s (t + msU 100)) k)

/-! ### Credit and PFC -/

/-- The credit limits the device grants now: while F is above CreditFloor each class in credit mode advances by an
amount the spec leaves open, within the room of its ingress queue (R43, R44, R289; a free value). DESIGN CHOICE, log
entry 23. -/
def credLimits (s : State) (lp : Nat) : List (BitVec 32) :=
  let p := port s lp
  (List.range 8).map (fun c =>
    let old := lget p.sentLimit c 0
    let top := lget p.grantLimit c 0 + BitVec.ofNat 32 (ingressLimit s - lget p.ingress c 0)
    if bit (lpo s lp 0x0A) c && decide (obj s 0x5800 5 < freeCells s) then
      old + BitVec.ofNat 32 (min (Config.freeNat (s.free + c)) (top - old).toNat)
    else old)

/-- CRED goes every CredInterval, or as soon as a limit has advanced by CredStep cells (R44). -/
def execCredSend (lp : Nat) (s : State) : Res :=
  let mask := lpo s lp 0x0A
  if active s lp && mask != 0 then
    let p := port s lp
    let lim := credLimits s lp
    let early := (List.range 8).any (fun c =>
      decide (obj s 0x1012 2 ≤ (lget lim c 0 - lget p.sentLimit c 0).toNat) && decide (0 < obj s 0x1012 2))
    let s := if early then s else advanceTo s (p.lastCred + nsU (obj s 0x1012 1))
    let body := (List.range 8).flatMap (fun c => toBE 4 (if bit mask c then (lget lim c 0).toNat else 0))
    let s := modPort { s with free := s.free + 8 } lp (fun p => { p with sentLimit := lim, lastCred := s.time.now })
    .next (sendCtl s lp { typ := 7, cls := 7, dst := 0xFFFFFF#24, src := devEp s, len := 32,
                          xarg := BitVec.ofNat 16 mask } body)
  else .next s

/-- XOFF when the ingress queue reaches its limit less the headroom, and again every 20 µs; the first of a new crossing keeps
the 20 µs from an XOFF whose resume has not gone (R57). DESIGN CHOICE, log entry 95. -/
def execPfcXoffSend (lp : Nat) (cls : BitVec 3) (s : State) : Res :=
  let c := cls.toNat
  if active s lp && pfcOn s lp c && decide (xoffPoint s lp ≤ lget (port s lp).ingress c 0) then
    let s := match lget (port s lp).xoffAt c none with
      | some t => advanceTo s (t + usU 20)
      | none => s
    let s := sendPfc s lp c 65535
    .next (modPort s lp (fun p => { p with xoffAt := lset p.xoffAt c (some s.time.now) }))
  else .next s

/-- The pause time received for a class passes (R57). -/
def execPauseTimeExpiry (lp : Nat) (cls : BitVec 3) (s : State) : Res := live s <|
  match lget (port s lp).pauseUntil cls.toNat none with
  | none => .next s
  | some t =>
    .next (modPort (advanceTo s t) lp (fun p => { p with pauseUntil := lset p.pauseUntil cls.toNat none }))

end Sys2Proof.Machine
end

