-- ==== Sys2Proof/Machine/Tables.lean ====
section
/-! DEFINITION. The endpoint and rule tables: entries, hashing, cuckoo placement, version validity and the rule
cache (R75 to R77, R83, R89 to R93, R98, R100). -/

namespace Sys2Proof.Machine

/-! ### Endpoint entries (R90) -/

def epKey (tid : BitVec 12) (ep : BitVec 24) : Nat := tid.toNat * 2 ^ 24 + ep.toNat

def epEntry (hit static : Bool) (k lp : Nat) : BitVec 64 :=
  BitVec.ofNat 64 (2 ^ 63 + b2n hit * 2 ^ 62 + b2n static * 2 ^ 61 + k % 2 ^ 36 * 2 ^ 24 + lp % 512 * 2 ^ 15)

def eValid (e : BitVec 64) : Bool := e.getLsbD 63
def eHit (e : BitVec 64) : Bool := e.getLsbD 62
def eStatic (e : BitVec 64) : Bool := e.getLsbD 61
def eKey (e : BitVec 64) : Nat := bits e.toNat 59 24
def eLp (e : BitVec 64) : Nat := bits e.toNat 23 15

def epWord (s : State) (b : Nat) : BitVec 256 := mget s.tbl.ep b 0

def slotOf (w : BitVec 256) (i : Nat) : BitVec 64 := (w >>> (64 * i)).setWidth 64

def withSlot (w : BitVec 256) (i : Nat) (e : BitVec 64) : BitVec 256 :=
  (w &&& ~~~((0xFFFFFFFFFFFFFFFF#256) <<< (64 * i))) ||| (e.setWidth 256 <<< (64 * i))

def setEpWord (s : State) (b : Nat) (w : BitVec 256) : State :=
  { s with tbl := { s.tbl with ep := if w = 0 then merase s.tbl.ep b else mset s.tbl.ep b w } }

def epSlot (s : State) (p : Nat × Nat) : BitVec 64 := slotOf (epWord s p.1) p.2

/-- An atomic access other than a lookup falls on a bucket: the sweep's write of it fails, where it has read it (R96). -/
def touchBucket (s : State) (b : Nat) : State :=
  if s.tbl.sweepCas.isSome && s.tbl.sweep == some b then { s with tbl := { s.tbl with sweepTouched := true } } else s

/-- A slot is written by learning, a command or a cuckoo move (R91). -/
def setEpSlot (s : State) (p : Nat × Nat) (e : BitVec 64) : State :=
  setEpWord (touchBucket s p.1) p.1 (withSlot (epWord s p.1) p.2 e)

/-- The two candidate buckets of an endpoint key (R89). -/
def epHash (s : State) (k : Nat) : Nat × Nat :=
  (crc32c (toBE 4 s.tbl.epSeed0.toNat ++ toBE 5 k) % 131072, crc32c (toBE 4 s.tbl.epSeed1.toNat ++ toBE 5 k) % 131072)

/-- The slots of a key's candidate buckets, H0 before H1. -/
def candSlots (h : Nat × Nat) : List (Nat × Nat) :=
  (List.range 4).map (fun i => (h.1, i)) ++ (if h.1 = h.2 then [] else (List.range 4).map (fun i => (h.2, i)))

/-- Where the entry of a key stands. -/
def epFind (s : State) (k : Nat) : Option (Nat × Nat) :=
  (candSlots (epHash s k)).find? (fun p => eValid (epSlot s p) && eKey (epSlot s p) == k)

/-- A lookup: the entry, and the state with HIT set in its slot (R91). -/
def epLookup (s : State) (k : Nat) : State × Option (BitVec 64) :=
  match epFind s k with
  | none => (s, none)
  | some p => (setEpWord s p.1 (withSlot (epWord s p.1) p.2 (epSlot s p ||| 0x4000000000000000#64)), some (epSlot s p))

/-! ### Placement (R93) -/

/-- A chain of exactly `n` displacements that ends in a free slot, the first by rank: `free` and `next` tell
of a position whether it is free, and the positions its occupant could move to. -/
def chainFrom (free : Nat × Nat → Bool) (next : Nat × Nat → List (Nat × Nat)) :
    Nat → List (Nat × Nat) → List (Nat × Nat) → Option (List (Nat × Nat))
  | 0, _, ps => (ps.find? free).map (fun p => [p])
  | n + 1, seen, ps => ps.findSome? (fun p =>
      if free p || seen.contains p then none
      else (chainFrom free next n (p :: seen) (next p)).map (fun c => p :: c))

/-- A chain with the fewest displacements, at most 4. -/
def findChain (free : Nat × Nat → Bool) (next : Nat × Nat → List (Nat × Nat)) (ps : List (Nat × Nat)) :
    Option (List (Nat × Nat)) :=
  (List.range 5).findSome? (fun n => chainFrom free next n [] ps)

/-- The bucket a key may also stand in. -/
def otherBucket (h : Nat × Nat) (b : Nat) : Nat := if h.1 = b then h.2 else h.1

/-- Write an endpoint entry along a chain: each displaced entry moves one position on. -/
def epPlace (s : State) (e : BitVec 64) : List (Nat × Nat) → State
  | [] => s
  | p :: ps => epPlace (setEpSlot s p e) (epSlot s p) ps

/-- Insert an endpoint entry, none where no chain exists; MoveGen counts the moves. -/
def epInsert (s : State) (e : BitVec 64) : Option State :=
  let free (p : Nat × Nat) : Bool := !eValid (epSlot s p)
  let next (p : Nat × Nat) : List (Nat × Nat) :=
    let b := otherBucket (epHash s (eKey (epSlot s p))) p.1
    (List.range 4).map (fun i => (b, i))
  match findChain free next (candSlots (epHash s (eKey e))) with
  | none => none
  | some c =>
    let s := epPlace s e c
    some (putObj s 0x4800 0x0B ((obj s 0x4800 0x0B + (c.length - 1)) % 2 ^ 32))

def epAll (s : State) : List (Nat × Nat × BitVec 64) :=
  s.tbl.ep.flatMap (fun e => ((List.range 4).map (fun i => (e.1, i, slotOf e.2 i))).filter (fun x => eValid x.2.2))

/-! ### Versions (R75 to R77) -/

def verLt (a b : BitVec 16) : Bool := a != b && verLe a b

def validFor (e : RuleEntry) (v : BitVec 16) : Bool :=
  e.valid && verLe e.first v && (e.last == 0 || verLt v e.last)

def liveVersions (s : State) : List (BitVec 16) :=
  [s.col.ver.staging, s.col.ver.current, s.col.ver.draining].filter (· != 0)

def dead (s : State) (e : RuleEntry) : Bool := e.valid && !(liveVersions s).any (validFor e)

/-! ### Rule entries (R98, R99) -/

def ruleBytes (e : RuleEntry) : List Byte :=
  toLE 8 e.key.toNat ++ toLE 2 e.first.toNat ++ toLE 2 e.last.toNat ++ toLE 1 (b2n e.valid)
    ++ List.replicate 19 0 ++ slice e.result 0 32

def ruleOfBytes (bs : List Byte) : RuleEntry :=
  { key := BitVec.ofNat 64 (ofLE (slice bs 0 8)), first := BitVec.ofNat 16 (ofLE (slice bs 8 2))
    last := BitVec.ofNat 16 (ofLE (slice bs 10 2)), valid := bit (ofLE (slice bs 12 1)) 0, result := slice bs 32 32 }

def ruleHash (s : State) (k : BitVec 64) : Nat × Nat :=
  (crc32c (toBE 4 s.tbl.ruleSeed0.toNat ++ toBE 8 k.toNat) % 1048576,
   crc32c (toBE 4 s.tbl.ruleSeed1.toNat ++ toBE 8 k.toNat) % 1048576)

/-- The copies that serve the table engine: the first and then the other, or the only one that can be read (R100, R331). -/
def ruleCopies (s : State) : Nat × Option Nat := copyFor s s.hbm.ruleBaseA s.hbm.ruleBaseB 0

def emptyRule : RuleEntry := { result := List.replicate 32 0 }

/-- The entry of a slot in a copy. -/
def ruleAt (s : State) (base : Nat) (p : Nat × Nat) : RuleEntry :=
  ruleOfBytes (hbmRead s (base + 256 * p.1 + 64 * p.2) 64)

/-- The slot's line in a copy is marked MEDIA. -/
def slotMedia (s : State) (base : Nat) (p : Nat × Nat) : Bool := mediaIn s (base + 256 * p.1 + 64 * p.2) 64

/-- A bucket holds a line marked MEDIA in a copy. -/
def bucketMedia (s : State) (base b : Nat) : Bool := mediaIn s (base + 256 * b) 256

/-- The copy whose bucket a read returns: the first, or after MEDIA the other, where that is good (R331). -/
def goodCopy (s : State) (c : Nat × Option Nat) (b : Nat) : Nat :=
  if bucketMedia s c.1 b then (c.2.filter (fun x => !bucketMedia s x b)).getD c.1 else c.1

/-- The entry of a slot as the table engine reads it. A slot that no copy gives holds none. DESIGN CHOICE, log entry 109. -/
def ruleSlot (s : State) (p : Nat × Nat) : RuleEntry :=
  let c := goodCopy s (ruleCopies s) p.1
  if slotMedia s c p then emptyRule else ruleAt s c p

/-- What a read of a bucket leaves: after MEDIA in the first copy, the good bucket of the other is written back. The number
of the slot that failed in the copy read last, where no copy is good (R331). -/
def healBucket (s : State) (c : Nat × Option Nat) (b : Nat) : State × Option Nat :=
  if !bucketMedia s c.1 b then (s, none)
  else
    let failed (base : Nat) : Nat := ((List.range 4).find? (fun i => slotMedia s base (b, i))).getD 0
    match c.2 with
    | some x => if bucketMedia s x b then (s, some (failed x))
      else (hbmWrite s .table (c.1 + 256 * b) (hbmRead s (x + 256 * b) 256), none)
    | none => (s, some (failed c.1))

/-- A failed rule-table read is counted and recorded (R331). -/
def ruleMedia (s : State) (b slot : Nat) (key : BitVec 64) : State :=
  cairn (bump s 0x4801 8) 4 2 3 (toLE 4 b ++ toLE 1 slot ++ toLE 8 key.toNat)

/-- The table engine or the comparator reads buckets: each is healed, or its failure counted and recorded. -/
def readBuckets (s : State) (c : Nat × Option Nat) (key : BitVec 64) (bs : List Nat) : State :=
  bs.foldl (fun s b => match healBucket s c b with
    | (s, some i) => ruleMedia s b i key
    | (s, none) => s) s

/-- Buckets from `lo` to `hi` that hold a line marked MEDIA in the copy that is read first. -/
def mediaBuckets (s : State) (lo hi : Nat) : List Nat :=
  let base := (ruleCopies s).1
  ((s.hbm.media.map (fun l => (64 * l - base) / 256)).filter (fun b =>
    decide (lo ≤ b) && decide (b ≤ hi) && bucketMedia s base b)).eraseDups

def setRule (s : State) (p : Nat × Nat) (e : RuleEntry) : State :=
  writeCopies s s.hbm.ruleBaseA s.hbm.ruleBaseB (256 * p.1 + 64 * p.2) (if e.valid then ruleBytes e else List.replicate 64 0)

/-- The read of a bucket from a copy waits for the next window (R327). -/
def bucketWaits (s : State) (base b : Nat) : Bool := throttledIn s .table (base + 256 * b) 256

/-- A read of the candidate buckets of a key for a probe waits for the next window. -/
def probeWaits (s : State) (k : BitVec 64) : Bool :=
  let at_ (b : Nat) : Bool := bucketWaits s (copyFor s s.hbm.ruleBaseA s.hbm.ruleBaseB b).1 b
  at_ (ruleHash s k).1 || at_ (ruleHash s k).2

/-- A read of the candidate buckets of a key by the table engine waits for the next window. -/
def keyWaits (s : State) (k : BitVec 64) : Bool :=
  let at_ (b : Nat) : Bool := bucketWaits s (ruleCopies s).1 b
  at_ (ruleHash s k).1 || at_ (ruleHash s k).2

/-- A command reads the candidate buckets of a key (R331). -/
def readKey (s : State) (k : BitVec 64) : State :=
  let h := ruleHash s k
  readBuckets s (ruleCopies s) k (if h.1 = h.2 then [h.1] else [h.1, h.2])

/-- The entries of a key, with their places. -/
def ruleFind (s : State) (k : BitVec 64) : List ((Nat × Nat) × RuleEntry) :=
  ((candSlots (ruleHash s k)).map (fun p => (p, ruleSlot s p))).filter (fun x => x.2.valid && x.2.key == k)

def cacheDrop (s : State) (k : BitVec 64) : State :=
  { s with col := { s.col with cache := s.col.cache.filter (fun l => l.key != k) } }

def rulePlace (s : State) (e : RuleEntry) : List (Nat × Nat) → State
  | [] => s
  | p :: ps => rulePlace (setRule s p e) (ruleSlot s p) ps

/-- Insert a rule entry by R93; every cache line of its key goes at the instant (R100). -/
def ruleInsert (s : State) (e : RuleEntry) : Option State :=
  let free (p : Nat × Nat) : Bool := !(ruleSlot s p).valid
  let next (p : Nat × Nat) : List (Nat × Nat) :=
    let b := otherBucket (ruleHash s (ruleSlot s p).key) p.1
    (List.range 4).map (fun i => (b, i))
  match findChain free next (candSlots (ruleHash s e.key)) with
  | none => none
  | some c =>
    let s := readBuckets s (ruleCopies s) e.key (((c.map (·.1)).eraseDups).filter (fun b =>
      b != (ruleHash s e.key).1 && b != (ruleHash s e.key).2))
    let s := cacheDrop (rulePlace s e c) e.key
    some (putObj s 0x4801 0x07 ((obj s 0x4801 0x07 + (c.length - 1)) % 2 ^ 32))

/-- Numbers of the rule slots that hold any byte in a copy, rising (R102). -/
def ruleSlots (s : State) : List Nat :=
  let of (base : Nat) : List Nat :=
    (s.hbm.mem.filter (fun e => base ≤ e.1 && e.1 < base + 268435456)).map (fun e => (e.1 - base) / 64)
  let c := ruleCopies s
  (of c.1 ++ (match c.2 with | some x => of x | none => [])).foldl (fun l a => insertNat a l) []

def ruleAll (s : State) : List ((Nat × Nat) × RuleEntry) :=
  ((ruleSlots s).map (fun n => ((n / 4, n % 4), ruleSlot s (n / 4, n % 4)))).filter (fun x => x.2.valid)

/-! ### Rule cache (R100) -/

def cacheFind (s : State) (k : BitVec 64) : Option RuleLine := s.col.cache.find? (fun l => l.key == k)

/-- The line becomes the most recently used. -/
def cacheTouch (s : State) (l : RuleLine) : State :=
  { s with col := { s.col with cache := l :: s.col.cache.filter (fun x => x.key != l.key) } }

/-- Install a line; the least recently used goes when the cache is full. -/
def cacheInstall (s : State) (l : RuleLine) : State :=
  { s with col := { s.col with cache := (l :: s.col.cache.filter (fun x => x.key != l.key)).take 262144 } }

/-- The three rule keys of a frame in order of precedence (R71). -/
def ruleKeys (h : Sxt) : List (BitVec 64) :=
  [h.tid ++ h.src ++ h.dst ++ h.typ, h.tid ++ 0xFFFFFF#24 ++ h.dst ++ h.typ, h.tid ++ 0xFFFFFF#24 ++ 0xFFFFFF#24 ++ h.typ]

/-- Read one bucket for a key: the copy by parity, the second copy after MEDIA, the good bucket written back.
Where every copy fails, the slot that failed in the copy read last (R100, R331). -/
def readBucket (s : State) (b : Nat) : State × Except Nat (List RuleEntry) :=
  let c := copyFor s s.hbm.ruleBaseA s.hbm.ruleBaseB b
  match healBucket s c b with
  | (s, some i) => (s, .error i)
  | (s, none) => (s, .ok ((List.range 4).map (fun i => ruleAt s c.1 (b, i))))

/-- A probe served from HBM: installs what it read, or fails with MEDIA (R74, R331). -/
def probeHbm (s : State) (k : BitVec 64) : State × Bool :=
  let h := ruleHash s k
  let (s, b0) := readBucket s h.1
  let (s, b1) := readBucket s h.2
  let fails (b slot : Nat) : State × Bool := (ruleMedia s b slot k, false)
  match b0, b1 with
  | .ok x, .ok y =>
    let es := (x ++ (if h.1 = h.2 then [] else y)).filter (fun e => e.valid && e.key == k)
    (cacheInstall s { key := k, entries := es }, true)
  | .error i, _ => fails h.1 i
  | _, .error i => fails h.2 i

end Sys2Proof.Machine
end

