-- ==== Sys2Proof/Machine/Versions.lean ====
section
/-! DEFINITION. The maintenance arbiter (R397 to R401), the rule-set versions (R75 to R84) and how a command of
the dictionary is answered (R368). -/

namespace Sys2Proof.Machine

/-! ### Answers -/

/-- What an access comes to: the state, the abort code (0 is success) and its detail. -/
abbrev Ack := State × Nat × Nat

def ackOk (s : State) : Ack := (s, 0, 0)

/-- Abort codes of R368. -/
def abNoObject : Nat := 1
def abNoSub : Nat := 2
def abReadOnly : Nat := 3
def abLength : Nat := 4
def abRange : Nat := 5
def abState : Nat := 6
def abMaint : Nat := 7

/-- The answer is recorded, and an abort is counted in SdpAborts (R368). -/
def answered (a : Ack) : State :=
  if a.2.1 = 0 then { a.1 with answer := .ok [] }
  else { bump a.1 0x0200 7 with answer := .abort a.2.1 a.2.2 }

/-! ### Maintenance arbiter -/

/-- Class `c` runs (R397): class 1 is a FLUSH_PORT of the endpoint table. The sweep that ends in this dp-cycle no longer does (R398). -/
def maintRuns (s : State) (c : Nat) : Bool :=
  match c with
  | 0 => obj s 0x4820 1 % 4 != 0
  | 1 => s.tbl.blocks.any (fun e => e.2.goOp == 5 && e.2.goTable == 0 && e.2.status == 0xFF)
  | 2 => s.hbm.test.isSome || s.hbm.rebuild.isSome
  | 3 => s.hbm.sweepEnd.any (fun t => decide (cycStart s (cyc s + 1) ≤ t))
  | 4 => s.scree.pendingLoad.isSome
  | 5 => s.scree.testing.isSome
  | 6 => s.cairn.compacting.isSome
  | 7 => s.col.ver.draining != 0 || s.col.ver.waiting.isSome || s.col.ver.walk.isSome || !s.col.ver.walkQ.isEmpty
  | _ => false

/-- The exclusion matrix, with the ShadowCtl value in force or being written (R399). -/
def maintConflict (ctl a b : Nat) : Bool :=
  match min a b, max a b with
  | 0, 1 => bit ctl 3
  | 0, 2 => bit ctl 1
  | 2, 3 => true
  | 2, 6 => true
  | 2, 7 => true
  | _, _ => false

/-- The test of a start: the code of R400, none when it is accepted (R5, R398, R401). A start of an absent class answers
UNIT_ABSENT before the test of ServiceState: DEDUCED, log entry 105. -/
def maintTest (s : State) (c ctl : Nat) : Option Nat :=
  if absent s && (c == 2 || c == 4 || c == 5) then some 1
  else if serviceState s != 1 then some 2
  else ((List.range 8).find? (fun r => r != c && maintRuns s r && maintConflict ctl r c)).map (fun r => 0x10 + r)

/-- A refused start (R398). -/
def maintRefuse (s : State) (c code : Nat) : State :=
  let s := putObj (putObj (putObj s 0x8000 2 c) 0x8000 3 code) 0x8000 6 (ft s)
  cairn (bump s 0x8000 4) 0x0B 1 1 (toLE 1 c ++ toLE 1 code)

/-- A start: the state after an accepted start, or after the refusal with its code (R398). -/
def maintStart (s : State) (c ctl : Nat) : State × Option Nat :=
  match maintTest s c ctl with
  | some code => (maintRefuse s c code, some code)
  | none => (bump s 0x8000 5, none)

/-- MaintActive (R410). -/
def maintActive (s : State) : Nat := ((List.range 8).map (fun c => b2n (maintRuns s c) * 2 ^ c)).sum

/-! ### Versions -/

def setVer (s : State) (f : VerSt → VerSt) : State := { s with col := { s.col with ver := f s.col.ver } }

/-- Version data of a Cairn record of Col (R414). -/
def verData (s : State) : List Byte :=
  toLE 2 s.col.ver.current.toNat ++ toLE 2 s.col.ver.draining.toNat ++ toLE 2 s.col.ver.staging.toNat

/-- A walk starts, or waits for the one that runs (R83, R84). -/
def startWalk (s : State) (discard : Bool) : State :=
  setVer s (fun v => if v.walk.isSome then { v with walkQ := v.walkQ ++ [discard] } else { v with walk := some discard })

/-- StageOpen (R78, R84). -/
def stageOpen (s : State) : Ack :=
  let v := s.col.ver
  if v.staging != 0 || v.discarding != 0 then (s, abState, 0)
  else ackOk (setVer s (fun v => { v with staging := verNext v.current }))

/-- A commit takes effect at an FT (R79). -/
def doCommit (s : State) (at_ : Nat) : State :=
  let s := setVer s (fun v => { v with draining := v.current, current := v.staging, staging := 0, waiting := none })
  putObj (bump s 0x1021 8) 0x1021 0x0C at_

/-- Where the DRAINING version's count is 0 it retires, a waiting commit takes effect at this instant, and the reclaim walk
starts (R79, R81, R83). -/
def retireDraining (s : State) : State :=
  let v := s.col.ver
  if v.draining != 0 && inFlightOf s v.draining = 0 then
    let s := setVer s (fun v => { v with draining := 0 })
    let s := match v.waiting with
      | none => s
      | some t =>
        let d := ft s - t
        let s := putObj (bump (doCommit s (ft s)) 0x1021 9) 0x1021 0x0D (d % 2 ^ 32)
        cairn s 3 2 1 (verData s ++ toLE 4 d)
    startWalk s false
  else s

/-- A VERSION_COMMIT event at the FT `at_`, after the retirements of the same FT: one that finds a version STAGING is a start
of class 7, also where it joins a commit that waits (R79, R80, R84, R397). -/
def commitEvent (s : State) (at_ : Nat) : State :=
  let v := s.col.ver
  if v.staging = 0 then cairn (bump s 0x1021 0x0A) 3 1 1 (verData s)
  else
    match maintStart s 7 (obj s 0x4820 1) with
    | (s, some code) => cairn (bump s 0x1021 0x0B) 3 3 1 (verData s ++ toLE 1 code)
    | (s, none) =>
      if v.waiting.isSome then cairn (bump s 0x1021 0x0F) 3 4 1 (verData s)
      else if v.draining = 0 then doCommit s at_
      else setVer s (fun v => { v with waiting := some at_ })

/-- StageDiscard: the staging version ends, a waiting commit ends empty, and the discard walk starts (R84). -/
def stageDiscard (s : State) : Ack :=
  let v := s.col.ver
  if v.staging = 0 then (s, abState, 0)
  else
    match maintStart s 7 (obj s 0x4820 1) with
    | (s, some code) => (s, abMaint, code)
    | (s, none) =>
      let s := if v.waiting.isSome then cairn (bump s 0x1021 0x0A) 3 1 1 (verData s) else s
      ackOk (startWalk (setVer s (fun v => { v with discarding := v.staging, staging := 0, waiting := none })) true)

/-- The DRAINING version's count is 0, and it retires. -/
def execVersionRetired (s : State) : Res := live s <| .next (retireDraining s)

/-- Remove the rule entries whose LAST is at or below the oldest live version (R83). -/
def reclaim (s : State) : State :=
  let s := readBuckets s (ruleCopies s) 0 (mediaBuckets s 0 1048575)
  let oldest := if s.col.ver.draining = 0 then s.col.ver.current else s.col.ver.draining
  (ruleAll s).foldl (fun s e =>
    if e.2.last != 0 && verLe e.2.last oldest then cacheDrop (setRule s e.1 emptyRule) e.2.key else s) s

/-- Undo a discarded version: its inserted entries go, the entries it deleted stay (R84). -/
def discardWalk (s : State) (d : BitVec 16) : State :=
  let s := readBuckets s (ruleCopies s) 0 (mediaBuckets s 0 1048575)
  (ruleAll s).foldl (fun s e =>
    if e.2.first = d then cacheDrop (setRule s e.1 emptyRule) e.2.key
    else if e.2.last = d then cacheDrop (setRule s e.1 { e.2 with last := 0 }) e.2.key
    else s) s

/-- A reclaim or discard walk ends, and the next that waits starts (R83, R84). -/
def execReclaimWalkDone (s : State) : Res := live s <|
  match s.col.ver.walk with
  | none => .next s
  | some disc =>
    let s := if disc then discardWalk s s.col.ver.discarding else reclaim s
    .next (setVer (stir s) (fun v => { v with
      discarding := if disc then 0 else v.discarding, walk := v.walkQ.head?, walkQ := v.walkQ.tail }))

end Sys2Proof.Machine
end

