-- ==== Sys2Proof/Machine/TableCmd.lean ====
section
/-! DEFINITION. The table engine: learning, the commands of R101, aging (R95) and the shadow comparator (R103,
R104). -/

namespace Sys2Proof.Machine

/-! ### Command blocks -/

def blockOf (s : State) (n : Nat) : TblBlock := mget s.tbl.blocks n {}

def setBlock (s : State) (n : Nat) (b : TblBlock) : State :=
  { s with tbl := { s.tbl with blocks := mset s.tbl.blocks n b } }

/-- Status codes of R105. -/
def stOk : Nat := 0
def stNotFound : Nat := 1
def stTableFull : Nat := 2
def stExists : Nat := 3
def stNoStaging : Nat := 4
def stVersionLive : Nat := 5
def stBusy : Nat := 6
def stBadOp : Nat := 7
def stKeyLimit : Nat := 8
def stEnd : Nat := 9
def stRefused : Nat := 0x0A
def stPending : Nat := 0xFF

/-- A command of a cluster's own block completes: TABLE goes to the rope that wrote Go (R167). DEDUCED, log entry 27.
-/
def tableEvent (s : State) (n : Nat) : State :=
  match (blockOf s n).by_ with
  | some r => setEvent (setBlock s n { blockOf s n with by_ := none }) r evTable
  | none => s

/-- MoveGen of a table. -/
def moveGenOf (s : State) (table : Nat) : BitVec 32 :=
  BitVec.ofNat 32 (obj s (0x4800 + table) (if table = 0 then 0x0B else 0x07))

/-- The command of block `n` ends: its outputs, its status and the MoveGen of its table (R105). -/
def blockDone (s : State) (n : Nat) (b : TblBlock) (st : Nat) : State :=
  stir (tableEvent (setBlock s n { b with status := st, moveGen := moveGenOf s b.goTable }) n)

/-- Go on block `n`: 16 is the dictionary's, others are the clusters' (R101, R105, R138). A refused FLUSH_PORT changes nothing
but Status, and ends the access that carried it (R400). -/
def tableGo (s : State) (n : Nat) : Ack :=
  let b := blockOf s n
  if b.status = stPending then (s, abState, 0)
  else
    let b := { b with goOp := b.op, goTable := b.table }
    if b.op = 0 || 6 < b.op then ackOk (blockDone s n b stBadOp)
    else match if b.op = 5 && b.table = 0 then maintStart s 1 (obj s 0x4820 1) else (s, none) with
      | (s, some code) => (tableEvent (setBlock s n { blockOf s n with status := stRefused }) n, abMaint, code)
      | (s, none) =>
        let s := setBlock s n { b with status := stPending, target := s.col.ver.staging }
        ackOk { s with tbl := { s.tbl with engineQ := s.tbl.engineQ ++ [n] } }

/-- The engine's next command, when its operation is `op`: operation and table are those of Go, the other inputs of its block
are read as they stand now. DEDUCED, log entry 27. -/
def nextCmd (s : State) (op : Nat) : Option (Nat × TblBlock) :=
  match s.tbl.engineQ with
  | [] => none
  | n :: _ =>
    let b := blockOf s n
    if b.goOp = op && !(b.goTable == 1 && decide (op ≤ 3) && keyWaits s b.key) then some (n, b) else none

/-- The engine's command ends, and the next is its turn. -/
def endCmd (s : State) (n : Nat) (b : TblBlock) (st : Nat) : State :=
  blockDone { s with tbl := { s.tbl with engineQ := s.tbl.engineQ.tail } } n b st

/-- A rule command finds its target version no longer STAGING (R77, R82). -/
def stagingGone (s : State) (b : TblBlock) : Option Nat :=
  let v := s.col.ver
  if b.target = 0 then some stNoStaging
  else if b.target = v.staging then none
  else if verLe b.target v.current then some stVersionLive
  else some stNoStaging

/-- An entry of the key that is still valid for version `v`, other than the one inserted for it, has its LAST set to `v`, so
that validity ranges do not overlap (R77). DEDUCED, log entry 25. -/
def closeOlder (s : State) (key : BitVec 64) (v : BitVec 16) : State :=
  match (ruleFind s key).find? (fun e => e.2.first != v && validFor e.2 v) with
  | some (p, e) => cacheDrop (setRule s p { e with last := v }) key
  | none => s

/-- INSERT (R77, R93, R101). DEDUCED, log entry 25. -/
def execInsert (s : State) : Res := live s <|
  match nextCmd s 1 with
  | none => .next s
  | some (n, b) =>
    if b.goTable = 0 then
      let k := bits b.key.toNat 35 0
      let lp := bits b.arg.toNat 8 0
      let e := epEntry true (bit b.arg.toNat 9) k lp
      if !lpDefined s lp then .fault (.unsupported 106)
      else match epFind s k with
        | some p => .next (endCmd (setEpSlot s p e) n b stOk)
        | none => match epInsert s e with
          | some s => .next (endCmd s n b stOk)
          | none => .next (endCmd s n b stTableFull)
    else match stagingGone s b with
      | some st => .next (endCmd s n b st)
      | none =>
        let s := readKey s b.key
        let es := ruleFind s b.key
        if es.any (fun e => e.2.first == b.target) then .next (endCmd s n b stExists)
        else if 3 ≤ es.length then .next (endCmd s n b stKeyLimit)
        else match ruleInsert s { key := b.key, first := b.target, last := 0, valid := true, result := b.result } with
          | some s => .next (endCmd (closeOlder s b.key b.target) n b stOk)
          | none => .next (endCmd (bump s 0x4801 5) n b stTableFull)

/-- DELETE (R77, R101). -/
def execDeleteEntry (s : State) : Res := live s <|
  match nextCmd s 2 with
  | none => .next s
  | some (n, b) =>
    if b.goTable = 0 then
      match epFind s (bits b.key.toNat 35 0) with
      | some p => .next (endCmd (setEpSlot s p 0) n b stOk)
      | none => .next (endCmd s n b stNotFound)
    else match stagingGone s b with
      | some st => .next (endCmd s n b st)
      | none =>
        let s := readKey s b.key
        match (ruleFind s b.key).find? (fun e => validFor e.2 b.target) with
        | none => .next (endCmd s n b stNotFound)
        | some (p, e) =>
          let e' := if e.first = b.target then emptyRule else { e with last := b.target }
          .next (endCmd (cacheDrop (setRule s p e') b.key) n b stOk)

/-- What SEARCH and NEXT return for a rule entry. -/
def ruleOut (b : TblBlock) (e : RuleEntry) : TblBlock :=
  { b with outEntry := e.key, outVersions := e.first ++ e.last, result := slice e.result 0 32 }

/-- SEARCH (R101): it does not set HIT. -/
def execSearch (s : State) : Res := live s <|
  match nextCmd s 3 with
  | none => .next s
  | some (n, b) =>
    if b.goTable = 0 then
      match epFind s (bits b.key.toNat 35 0) with
      | some p => .next (endCmd s n { b with outEntry := epSlot s p } stOk)
      | none => .next (endCmd s n b stNotFound)
    else
      let s := readKey s b.key
      match (ruleFind s b.key).find? (fun e => validFor e.2 b.version) with
      | some e => .next (endCmd s n (ruleOut b e.2) stOk)
      | none => .next (endCmd s n b stNotFound)

/-- NEXT (R101, R102): the first valid slot at or after Cursor, of whatever version. DEDUCED, log entry 25. -/
def execNextSlot (s : State) : Res := live s <|
  match nextCmd s 4 with
  | none => .next s
  | some (n, b) =>
    if b.goTable = 0 then
      match (epAll s).find? (fun e => decide (b.cursor ≤ 4 * e.1 + e.2.1)) with
      | some (k, i, e) => .next (endCmd s n { b with outEntry := e, cursor := 4 * k + i + 1 } stOk)
      | none => .next (endCmd s n b stEnd)
    else
      let waits (hi : Nat) : Bool :=
        throttledIn s .table ((ruleCopies s).1 + 256 * (b.cursor / 4)) (256 * (hi + 1 - b.cursor / 4))
      let passed (hi : Nat) : State := readBuckets s (ruleCopies s) 0 (mediaBuckets s (b.cursor / 4) hi)
      match (ruleAll s).find? (fun e => decide (b.cursor ≤ 4 * e.1.1 + e.1.2)) with
      | some ((k, i), e) =>
        if waits k then .next s else .next (endCmd (passed k) n { ruleOut b e with cursor := 4 * k + i + 1 } stOk)
      | none => if waits 1048575 then .next s else .next (endCmd (passed 1048575) n b stEnd)

/-- An entry that FLUSH_PORT frees (R101). -/
def flushes (arg : BitVec 32) (e : BitVec 64) : Bool :=
  eValid e && eLp e == bits arg.toNat 8 0 && (!eStatic e || bit arg.toNat 9) &&
    (!bit arg.toNat 24 || bits e.toNat 59 48 == bits arg.toNat 23 12)

/-- FLUSH_PORT (R101): every bucket by read and CAS, a failed CAS retried once. `raced` lists a bucket once for
each CAS on it that another access made fail. -/
def execFlushPort (raced : List Nat) (s : State) : Res := live s <|
  match nextCmd s 5 with
  | none => .next s
  | some (n, b) =>
    if b.goTable ≠ 0 then .next (endCmd s n b stBadOp)
    else
      let hit := (epAll s).filter (fun e => flushes b.arg e.2.2)
      let left (k : Nat) : Bool := decide (2 ≤ raced.count k)
      let freed := hit.filter (fun e => !left e.1)
      let failed := (raced.eraseDups.filter left).length
      let s := freed.foldl (fun s e => setEpSlot s (e.1, e.2.1) 0) s
      .next (endCmd (bumpBy s 0x4800 0x0D failed) n { b with outEntry := BitVec.ofNat 64 freed.length } stOk)

/-- AGE_SWEEP (R95, R101). -/
def execAgeSweep (s : State) : Res := live s <|
  match nextCmd s 6 with
  | none => .next s
  | some (n, b) =>
    if b.goTable ≠ 0 then .next (endCmd s n b stBadOp)
    else if s.tbl.sweep.isSome then .next (endCmd s n b stBusy)
    else .next (endCmd { s with tbl := { s.tbl with sweep := some 0 } } n b stOk)

/-! ### Learning (R92, R93) -/

/-- The engine serves the oldest learn request against the table as it stands. -/
def execLearnRequest (s : State) : Res := live s <|
  match s.col.learnQ with
  | [] => .next s
  | q :: rest =>
    let s := { s with col := { s.col with learnQ := rest } }
    let k := epKey q.tid q.ep
    match epFind s k with
    | some p =>
      let e := epSlot s p
      if eStatic e || eLp e = q.lp then .next s
      else
        let e' := (e &&& ~~~0x0000000000FF8000#64) ||| BitVec.ofNat 64 (q.lp * 2 ^ 15)
        .next (bump (setEpSlot s p e') 0x4800 8)
    | none => match epInsert s (epEntry true false k q.lp) with
      | some s => .next s
      | none => .next (bump (bumpTen s q.tid.toNat 0x37) 0x4800 0x0A)

/-! ### Aging (R95 to R97) -/

/-- AgeInterval passes: a sweep starts unless one runs. -/
def execAgeSweepTimer (s : State) : Res := live s <|
  match s.tbl.sweepNext with
  | none => .next s
  | some t =>
    let s := advanceTo s t
    let next := t + msU (obj s 0x4800 5)
    .next { s with tbl := { s.tbl with
      sweep := if s.tbl.sweep.isSome then s.tbl.sweep else some 0, sweepNext := some next } }

/-- What the sweep makes of one slot. -/
def agedSlot (e : BitVec 64) : BitVec 64 :=
  if !eValid e then e
  else if eStatic e || eHit e then e &&& ~~~0x4000000000000000#64
  else 0

def agedWord (w : BitVec 256) : BitVec 256 :=
  (List.range 4).foldl (fun w i => withSlot w i (agedSlot (slotOf w i))) w

/-- Slots that the sweep frees in a word. -/
def agedOut (w : BitVec 256) : Nat :=
  ((List.range 4).filter (fun i => eValid (slotOf w i) && !eStatic (slotOf w i) && !eHit (slotOf w i))).length

/-- The compare-and-swap that ends a bucket's visit: it fails where the word has changed, or where an atomic access other than a
lookup has come between (R91, R96). -/
def sweepWrite (s : State) (b : Nat) (w : BitVec 256) : State :=
  let s := if epWord s b = w && !s.tbl.sweepTouched then bumpBy (setEpWord s b (agedWord w)) 0x4800 6 (agedOut w)
    else bump s 0x4800 7
  { s with tbl := { s.tbl with sweepCas := none, sweepTouched := false, sweep := if b + 1 < 131072 then some (b + 1) else none } }

/-- The sweep visits its next bucket: it reads, and writes at once, or with `split` leaves the write to the
next command, so that other accesses can fall between (R96). -/
def execAgeSweepBucket (split : Bool) (s : State) : Res := live s <|
  match s.tbl.sweep with
  | none => .next s
  | some b => match s.tbl.sweepCas with
    | some w => .next (sweepWrite s b w)
    | none =>
      if split then .next { s with tbl := { s.tbl with sweepCas := some (epWord s b) } }
      else .next (sweepWrite s b (epWord s b))

/-! ### Shadow comparison (R103, R104) -/

def shadowCtl (s : State) : Nat := obj s 0x4820 1

/-- A ShadowCtl write (R104, R397). Differences that wait to be read again keep the value under which their buckets were
visited. -/
def writeShadowCtl (s : State) (v : Nat) : Ack :=
  if v % 4 = 0 then
    ackOk (stir (putObj { s with tbl := { s.tbl with shadow := { diffs := s.tbl.shadow.diffs } } } 0x4820 1 v))
  else match maintStart s 0 v with
    | (s, some code) => (s, abMaint, code)
    | (s, none) =>
      let s := if shadowCtl s % 4 = 0 then
          { s with tbl := { s.tbl with shadow := { s.tbl.shadow with
            rule := !bit v 0, bucket := 0, nextAt := s.time.now + nsU (obj s 0x4820 4) } } }
        else s
      ackOk (putObj s 0x4820 1 v)

def noHit (e : BitVec 64) : BitVec 64 := e &&& ~~~0x4000000000000000#64

/-- The comparator reads a bucket of the rule table from its first copy, or after MEDIA from the other (R103, R331). -/
def readShadowed (s : State) (rule : Bool) (b : Nat) : State :=
  if rule then readBuckets s (s.hbm.ruleBaseA, if absent s || pairOut s 1 then none else some s.hbm.ruleBaseB) 0 [b] else s

/-- Slots of a bucket in which table and shadow differ under a ShadowCtl value, as a mask (R103); a slot that no copy gives
differs. -/
def shadowDiff (s : State) (ctl : Nat) (rule : Bool) (b : Nat) : Nat :=
  let differs (i : Nat) : Bool :=
    if rule then
      slotMedia s s.hbm.ruleBaseA (b, i) || hbmRead s (s.hbm.ruleBaseA + 256 * b + 64 * i) 64 != hbmRead s (obj s 0x4820 3 + 256 * b + 64 * i) 64
    else
      let t := slotOf (epWord s b) i
      let x := BitVec.ofNat 64 (ofLE (hbmRead s (obj s 0x4820 2 + 32 * b + 8 * i) 8))
      (bit ctl 2 || eStatic t || eStatic x) && noHit t != noHit x
  ((List.range 4).map (fun i => b2n (differs i) * 2 ^ i)).sum

/-- A read of a bucket and of its shadow by the comparator waits for the next window (R327). -/
def shadowWaits (s : State) (rule : Bool) (b : Nat) : Bool :=
  if rule then bucketWaits s s.hbm.ruleBaseA b || bucketWaits s (obj s 0x4820 3) b
  else throttledIn s .table (obj s 0x4820 2 + 32 * b) 32

/-- The table the comparator is in: one that has been disabled is left for the other. -/
def shadowTable (s : State) : Bool :=
  if s.tbl.shadow.rule then bit (shadowCtl s) 1 else !bit (shadowCtl s) 0

/-- BucketInterval passes: one bucket is compared; rule buckets pass uncompared while a walk runs (R399). -/
def execShadowBucket (s : State) : Res := live s <|
  if shadowCtl s % 4 = 0 then .next s
  else
    let s := advanceTo s s.tbl.shadow.nextAt
    let rule := shadowTable s
    let sh := s.tbl.shadow
    let b := if rule == sh.rule then sh.bucket else 0
    let skip := rule && s.col.ver.walk.isSome
    if !skip && shadowWaits s rule b then .next s else
    let s := if skip then s else readShadowed s rule b
    let diff := !skip && shadowDiff s (shadowCtl s) rule b != 0
    let last := b + 1 == (if rule then 1048576 else 131072)
    let both := shadowCtl s % 4 == 3
    let sh' : Shadow := { rule := if last && both then !rule else rule, bucket := if last then 0 else b + 1
                          nextAt := s.time.now + nsU (obj s 0x4820 4)
                          diffs := if diff then sh.diffs ++ [{ rule := rule, bucket := b, due := s.time.now + nsU (obj s 0x4820 5), ctl := shadowCtl s }] else sh.diffs }
    let s := if last && (rule || !both) then putObj s 0x4820 9 ((obj s 0x4820 9 + 1) % 2 ^ 32) else s
    .next { s with tbl := { s.tbl with shadow := sh' } }

/-- The shadow's bucket goes into the table (R104). -/
def repair (s : State) (rule : Bool) (b : Nat) : State :=
  if rule then
    let keys := (List.range 4).map (fun i => (ruleAt s s.hbm.ruleBaseA (b, i)).key)
    let s := writeCopies s s.hbm.ruleBaseA s.hbm.ruleBaseB (256 * b) (hbmRead s (obj s 0x4820 3 + 256 * b) 256)
    let keys := keys ++ (List.range 4).map (fun i => (ruleAt s s.hbm.ruleBaseA (b, i)).key)
    keys.foldl cacheDrop s
  else setEpWord s b (BitVec.ofNat 256 (ofLE (hbmRead s (obj s 0x4820 2 + 32 * b) 32)))

/-- Settle after a difference both sides are read again; one that persists is counted, recorded and, with
REPAIR, written into the table unless another access makes the CAS fail (`raced`). A rule bucket is passed while a walk runs
(R399). -/
def execShadowRecheck (raced : Bool) (s : State) : Res := live s <|
  match s.tbl.shadow.diffs with
  | [] => .next s
  | d :: rest =>
    let s := advanceTo s d.due
    if !(d.rule && s.col.ver.walk.isSome) && shadowWaits s d.rule d.bucket then .next s else
    let s := { s with tbl := { s.tbl with shadow := { s.tbl.shadow with diffs := rest } } }
    let s := if d.rule && s.col.ver.walk.isSome then s else readShadowed s d.rule d.bucket
    let m := if d.rule && s.col.ver.walk.isSome then 0 else shadowDiff s d.ctl d.rule d.bucket
    if m = 0 then .next s
    else
      let s := cairn (bump s 0x4820 6) 4 1 2 (toLE 1 (b2n d.rule) ++ toLE 4 d.bucket ++ toLE 1 m)
      if !bit d.ctl 3 then .next s
      else if raced then .next (bump s 0x4820 8)
      else .next (bump (repair s d.rule d.bucket) 0x4820 7)

end Sys2Proof.Machine
end

