-- ==== Sys2Proof/Machine/Xlat.lean ====
section
/-! DEFINITION. Translation: windows, the granule map and its cache, the map command block, the home-disposition
table and the key slots (R228 to R238, R244 to R246, R251, R252). -/

namespace Sys2Proof.Machine

/-! ### Windows (R230, R231) -/

/-- Window `w` of a tenant, 128 bits. -/
def windowWord (s : State) (tid w : Nat) : Nat := ten s tid (0x80 + 2 * w) + ten s tid (0x81 + 2 * w) * 2 ^ 64

/-- A tenant address falls in a window. -/
def inWindow (a w : Nat) : Bool :=
  bit w 127 && decide (bits w 26 0 * 2 ^ 21 ≤ a) && decide (a < (bits w 26 0 + bits w 91 64) * 2 ^ 21)

/-- The lowest-numbered window a tenant address falls in, and the window's word. -/
def windowFor (s : State) (tid a : Nat) : Option (Nat × Nat) :=
  if 2 ^ 48 ≤ a then none
  else ((List.range 64).map (fun i => (i, windowWord s tid i))).find? (fun e => inWindow a e.2)

/-- The offset of a tenant address in pooled memory. -/
def windowOff (a w : Nat) : Nat := (bits w 58 32 * 2 ^ 21 + a - bits w 26 0 * 2 ^ 21) % 2 ^ 48

/-! ### The map and its cache (R232 to R238) -/

/-- Read the entry of a granule from the copy R234 names, then from the other; none when every copy fails. -/
def mapRead (s : State) (g : Nat) : State × Option (BitVec 128) :=
  let (b, o) := copyFor s s.hbm.mapBaseA s.hbm.mapBaseB g
  let at_ (base : Nat) : BitVec 128 := BitVec.ofNat 128 (ofLE (hbmRead s (base + 16 * g) 16))
  let fail (s : State) : State × Option (BitVec 128) :=
    (cairn (bump s 0x4831 2) 6 1 3 (toLE 4 g), none)
  if !mediaIn s (b + 16 * g) 16 then (s, some (at_ b))
  else match o with
    | none => fail s
    | some o =>
      if !mediaIn s (o + 16 * g) 16 then
        (bump (hbmWrite s .table (b + 16 * g) (hbmRead s (o + 16 * g) 16)) 0x4831 1, some (at_ o))
      else fail s

def txlSet (s : State) (g : Nat) : List (Nat × BitVec 128) := mget s.xlat.cache (g % 65536) []

def txlCached (s : State) (g : Nat) : Option (BitVec 128) :=
  ((txlSet s g).find? (fun e => e.1 == g)).map (·.2)

/-- Install an entry as the most recently used of its set of 16 (R237). -/
def txlInstall (s : State) (g : Nat) (e : BitVec 128) : State :=
  let rest := (txlSet s g).filter (fun x => x.1 != g)
  { s with xlat := { s.xlat with cache := mset s.xlat.cache (g % 65536) (((g, e) :: rest).take 16) } }

/-- A KTXL result that awaits the map read of a granule. -/
def awaits (g : Nat) (p : KPend) : Bool :=
  match p.miss with
  | some m => m.off / 2 ^ 21 == g && m.stale.isNone
  | none => false

/-- The rope and the register of every KTXL that awaits the map read of a granule. -/
def openMisses (s : State) (g : Nat) : List (Nat × BitVec 4) :=
  s.ropes.flatMap (fun e => (e.2.kPend.filter (awaits g)).map (fun p => (e.1, p.kd)))

/-- The map read of a KTXL's miss comes before a change of its granule: it keeps what the read gave, from the other copy or
with the failure counted where the first copy's is MEDIA, and installs nothing (R234, R238). -/
def readBefore (g : Nat) (s : State) (m : Nat × BitVec 4) : State :=
  let (s, e) := mapRead s g
  let fix (p : KPend) : KPend :=
    if p.kd = m.2 then { p with miss := p.miss.map (fun x => { x with stale := some e }) } else p
  modRope s m.1 (fun x => { x with kPend := x.kPend.map fix })

/-- A change of a granule's entry replaces the cache entry, if there is one (R238). -/
def cacheChange (s : State) (g : Nat) (new : BitVec 128) : State :=
  let l := (txlSet s g).map (fun x => if x.1 = g then (g, new) else x)
  if (txlCached s g).isSome then { s with xlat := { s.xlat with cache := mset s.xlat.cache (g % 65536) l } } else s

/-- Write a granule's entry into every copy in service and the cache; the map reads that have started end first (R234,
R238). -/
def mapPut (s : State) (g : Nat) (e : BitVec 128) : State :=
  let s := (openMisses s g).foldl (readBefore g) s
  cacheChange (writeCopies s s.hbm.mapBaseA s.hbm.mapBaseB (16 * g) (toLE 16 e.toNat)) g e

/-! ### KTXL (R229, R235, R236) -/

/-- Lane 0 and lane 1 of a result; lanes 2 to 7 are 0. -/
def txlWord (gaddr status code win cached enc lp : Nat) : KWord :=
  BitVec.ofNat 512 (gaddr % 2 ^ 52 +
    (status * 2 ^ 56 + code * 2 ^ 48 + win * 2 ^ 42 + cached * 2 ^ 41 + enc * 2 ^ 40 + lp) * 2 ^ 64)

/-- A fault of a check, counted in the tenant's AccessFaults; `enc` is the granule's where its entry has been read (R236). -/
def txlFault (s : State) (tid : BitVec 12) (code win cached enc : Nat) : State × KWord :=
  (bumpTen s tid.toNat 0x53, txlWord 0 1 code win cached enc 0)

/-- Checks 5 to 8 of R235 on a granule's entry, and the result. -/
def txlEntry (s : State) (m : TxlMiss) (e : BitVec 128) (cached : Nat) : State × KWord :=
  let v := e.toNat
  let enc := b2n (bit v 124)
  if !bit v 127 then txlFault s m.tid 5 m.win cached enc
  else if bits v 123 112 != m.tid.toNat && m.tid != 0 then txlFault s m.tid 4 m.win cached enc
  else if bit v 125 then txlFault s m.tid 7 m.win cached enc
  else if bit v 126 && m.wr then txlFault s m.tid 6 m.win cached enc
  else (s, txlWord (s.sys.deviceId.toNat * 2 ^ 48 + m.off) 0 0 m.win cached enc (bits v 104 96))

/-- What a KTXL finds at issue: a result that needs no map read or hits the cache, or a miss. -/
def txlIssue (s : State) (a : BitVec 64) (tid : BitVec 12) (wr : Bool) : State × (KWord ⊕ TxlMiss) :=
  let wrap (r : State × KWord) : State × (KWord ⊕ TxlMiss) := (r.1, .inl r.2)
  if ten s tid.toNat 0x50 = 0 then
    let lp := ten s tid.toNat 0x51
    if 384 ≤ lp then wrap (txlFault s tid 9 0 1 0)
    else (s, .inl (txlWord (s.sys.deviceId.toNat * 2 ^ 48 + bits a.toNat 47 0) 0 0 0 1 0 lp))
  else if bits a.toNat 63 48 != 0 then wrap (txlFault s tid 8 0 1 0)
  else match windowFor s tid.toNat a.toNat with
  | none => wrap (txlFault s tid 1 0 1 0)
  | some (i, w) =>
    if wr && !bit w 125 then wrap (txlFault s tid 3 i 1 0)
    else if !wr && !bit w 126 then wrap (txlFault s tid 2 i 1 0)
    else
      let m : TxlMiss := { tid := tid, off := windowOff a.toNat w, wr := wr, win := i }
      let g := m.off / 2 ^ 21
      match txlCached s g with
      | some e => wrap (txlEntry (txlInstall s g e) m e 1)
      | none => (s, .inr m)

/-- The map read of a miss returns: its entry is installed unless a WRITE has changed the granule, and the
result is known (R234, R235, R238). -/
def txlMissDone (s : State) (m : TxlMiss) : State × KWord :=
  match m.stale with
  | some (some e) => txlEntry s m e 0
  | some none => (s, txlWord 0 2 0 m.win 0 0 0)
  | none =>
    match mapRead s (m.off / 2 ^ 21) with
    | (s, none) => (s, txlWord 0 2 0 m.win 0 0 0)
    | (s, some e) => txlEntry (txlInstall s (m.off / 2 ^ 21) e) m e 0

/-! ### Map command block (R238, R251) -/

/-- Go of the map command block. -/
def mapGo (s : State) : Ack :=
  if s.xlat.mapPending then (s, abState, 0)
  else ackOk { putObj s 0x4830 6 0xFF with xlat := { s.xlat with mapPending := true } }

def mapEnd (s : State) (status : Nat) : State :=
  { putObj (stir s) 0x4830 6 status with xlat := { s.xlat with mapPending := false } }

/-- WRITE puts an entry into every copy and the cache at one instant (R238). -/
def execMapWrite (s : State) : Res := live s <|
  if s.xlat.mapPending && obj s 0x4830 1 == 0 then
    let g := obj s 0x4830 2
    if 2 ^ 27 ≤ g then .next (mapEnd s 1)
    else .next (mapEnd (mapPut s g (BitVec.ofNat 128 (obj s 0x4830 3 + obj s 0x4830 4 * 2 ^ 64))) 0)
  else .next s

/-- The map copy that commands and MapImage read: A, or B while A is fenced or being rebuilt (R234, R251, R337, R374). -/
def mapBase (s : State) : Nat := if !absent s && pairOut s 0 then s.hbm.mapBaseB else s.hbm.mapBaseA

/-- READ returns an entry (R251). -/
def execMapRead (s : State) : Res := live s <|
  if s.xlat.mapPending && obj s 0x4830 1 == 1 then
    let g := obj s 0x4830 2
    let a := mapBase s + 16 * g
    if 2 ^ 27 ≤ g then .next (mapEnd s 1)
    else if throttledIn s .table a 16 then .next s
    else if mediaIn s a 16 then .next (mapEnd s 2)
    else .next (mapEnd (putObj (putObj s 0x4830 3 (ofLE (hbmRead s a 8))) 0x4830 4 (ofLE (hbmRead s (a + 8) 8))) 0)
  else .next s

/-! ### The system port and the home-disposition table (R183, R184, R244) -/

/-- Store into a cluster's scratchpad. -/
def scratchWrite (s : State) (c a : Nat) (bs : List Byte) : State :=
  modCluster s c (fun x => { x with scratch := wrN x.scratch a bs })

/-- A write of the system port is performed. -/
def sysDone (s : State) (c : Nat) (w : SysWrite) : State :=
  let s := scratchWrite s c w.addr w.data
  match w.notify with
  | some r => setEvent s r evTask
  | none => s

/-- Port A writes one of the words in this dp-cycle; what it wrote before a COLLIDE is done. -/
def collides (s : State) (c : Nat) (w : SysWrite) : Bool :=
  match (cluster s c).portA with
  | none => false
  | some (lo, hi, t) => decide (w.addr < 0x40000) && t == cyc s &&
      decide (lo ≤ (w.addr + w.data.length - 1) / 8) && decide (w.addr / 8 ≤ hi)

/-- COLLIDE: counted, and port A's access is over (R184). -/
def collided (s : State) (c : Nat) : State := modCluster (bump s (0x4030 + c) 9) c (fun x => { x with portA := none, collideCyc := cyc s })

/-- A write through the system port: performed, or COLLIDE and a retry behind which later ones wait (R184); in Doze it waits for
the exit (R387). -/
def sysWrite (s : State) (c : Nat) (w : SysWrite) : State :=
  let queue (s : State) : State := modCluster s c (fun x => { x with sysQ := x.sysQ ++ [w] })
  if !(cluster s c).sysQ.isEmpty || (cluster s c).doze then queue s
  else if collides s c w then queue (collided s c)
  else sysDone s c w

/-- After COLLIDE the system port retries in the next dp-cycle, against what port A writes in it (R184). -/
def execSystemPortRetry (c : BitVec 4) (s : State) : Res := live s <|
  let c := c.toNat
  match (cluster s c).sysQ with
  | [] => .next s
  | w :: ws =>
    if (cluster s c).doze then .next s else
    let s := busyCore (advanceTo s (cycStart s ((cluster s c).collideCyc + 1))) (16 * c)
    if collides s c w then .next (collided s c)
    else .next (sysDone (modCluster s c (fun x => { x with sysQ := ws })) c w)

/-- The word of a tenant in the home-disposition table. -/
def homeWord (s : State) (tid : Nat) : Nat :=
  if ten s tid 0x50 = 0 && ten s tid 0x51 < 384 then 0x80000000 + ten s tid 0x51 else 0x80030906

/-- The table's cells as they stand at reset, tenant by tenant. -/
def homeCells (s : State) : List Host.Cell :=
  ((List.range 4096).flatMap (fun t =>
    ((toLE 4 (homeWord s t)).zipIdx).map (fun e => (0x20000 + 8 * t + e.2, e.1)))).filter (fun c => c.2 != 0)

/-- A cluster runs the built-in Pass program. -/
def runsPass (s : State) (c : Nat) : Bool := obj s (0x4010 + c) 1 == 0x100000

/-- The home-disposition table of a cluster is written whole. -/
def homeWrite (s : State) (c : Nat) : State :=
  modCluster s c (fun x =>
    let below := x.scratch.filter (fun e => decide (e.1 < 0x20000))
    let above := x.scratch.filter (fun e => decide (0x28000 ≤ e.1))
    { x with scratch := below ++ homeCells s ++ above })

/-- PitchEntry of a cluster takes a value, from the dictionary or through its mirror, and is stored as an RWS value (R138,
R375). With the built-in Pass program back, the table holds every tenant's word again (R244). DEDUCED, log entry 103. -/
def setPitchEntry (s : State) (c v : Nat) : State :=
  let was := runsPass s c
  let s := storeLater (putObj s (0x4010 + c) 1 v) (0x4010 + c) 1 v
  if runsPass s c && !was then homeWrite s c else s

/-- TxlMode or HomeLp of a tenant was written: every cluster that runs Pass will rewrite its entry (R244). -/
def homeDirty (s : State) (tid : Nat) : State :=
  let cs := (List.range (clusters s)).filter (fun c => runsPass s c && !s.xlat.homeUpd.any (fun e => e.1 == c && e.2.1 == tid))
  { s with xlat := { s.xlat with homeUpd := s.xlat.homeUpd ++ cs.map (fun c => (c, tid, s.time.now + usU 10)) } }

/-- The entry is rewritten through the system port as one aligned 8 B word (R244). -/
def execHomeTableUpdate (c : BitVec 4) (tid : BitVec 12) (s : State) : Res := live s <|
  let c := c.toNat
  let t := tid.toNat
  if s.xlat.homeUpd.any (fun e => e.1 == c && e.2.1 == t) then
    let s := stir { s with xlat := { s.xlat with homeUpd := s.xlat.homeUpd.filter (fun e => !(e.1 == c && e.2.1 == t)) } }
    .next (if runsPass s c then sysWrite s c { addr := 0x20000 + 8 * t, data := toLE 8 (homeWord s t) } else s)
  else .next s

/-! ### Images (R372) -/

def imageOf (s : State) (k : Nat) : Option Image := (s.dict.images.find? (fun e => e.1 == k)).map (·.2)

def setImage (s : State) (k : Nat) (x : Image) : State :=
  { s with dict := { s.dict with images := (k, x) :: s.dict.images.filter (fun e => e.1 != k) } }

/-- The bytes of a closed image; none for one that is open or was never written. -/
def closedImage (s : State) (k : Nat) : Option Image :=
  match imageOf s k with
  | some x => if x.closed then some x else none
  | none => none

/-! ### Key slots (R245, R246, R252) -/

/-- KeyLoad: an unequal pair of the closed image fills the selected slot; KeyMaterial is cleared either way. -/
def keyLoad (s : State) : Ack :=
  match closedImage s (key 0x6080 2) with
  | none => (s, abState, 0)
  | some x =>
    let m := rdN x.data 0 64
    let s := setImage s (key 0x6080 2) { closed := true, len := 64 }
    if m.take 32 = m.drop 32 then ackOk (putObj s 0x6080 5 1)
    else ackOk (putObj { s with xlat := { s.xlat with
      keys := mset s.xlat.keys (obj s 0x6080 1) (m.take 32, m.drop 32) } } 0x6080 5 0)

/-- KeyErase empties the selected slot. -/
def keyErase (s : State) : State :=
  { s with xlat := { s.xlat with keys := merase s.xlat.keys (obj s 0x6080 1) } }

/-- KeyCheck: the first 4 bytes of the encrypted all-zero block under Key1, 0 for an empty slot. -/
def keyCheck (s : State) : Nat :=
  match mfind s.xlat.keys (obj s 0x6080 1) with
  | some (k1, _) => (aesEncrypt k1 0).toNat / 2 ^ 96
  | none => 0

end Sys2Proof.Machine
end

