-- ==== Sys2Proof/Machine/Slots.lean ====
section
/-! DEFINITION. Belay's ranking (R189), the slots of the task scheduler, its ready lists, its completion reports
and its trace (R211 to R225). -/

namespace Sys2Proof.Machine

/-! ### Priorities (R189) -/

/-- The rope is the lead rope of its cluster. -/
def isLead (s : State) (r : Nat) : Bool := leadOf s (ropeCluster r) == some r

/-- The task that a rope runs, or is kept for (R217). -/
def taskOf (x : Rope) : Option Nat := x.task.or x.pinned

/-- Base priority: 8 for the lead rope, the task's for a rope that runs one, else 0. -/
def basePri (s : State) (r : Nat) : Nat :=
  if isLead s r then 8
  else match taskOf (rope s r) with
    | some n => (mget (cluster s (ropeCluster r)).slots n {}).base
    | none => 0

/-- Locks a rope holds. -/
def heldBy (s : State) (r : Nat) : List (Nat × Lock) :=
  (cluster s (ropeCluster r)).locks.filter (fun e => e.2.owner == some (BitVec.ofNat 11 r))

/-- The lock a rope waits on. -/
def waitsOn (s : State) (r : Nat) : Option (Nat × Lock) :=
  (cluster s (ropeCluster r)).locks.find? (fun e => e.2.waiters.contains (BitVec.ofNat 11 r))

/-- The priority by which Belay ranks a rope, 0 to 8: its base, or what it holds above it. -/
def rankOf (s : State) (r : Nat) : Nat :=
  max (basePri s r) (mget (cluster s (ropeCluster r)).boost (ropeLocal r) 0)

/-- The highest rank among the ropes that wait on locks a rope holds. -/
def waiterRank (s : State) (r : Nat) : Nat :=
  (heldBy s r).foldl (fun p e => e.2.waiters.foldl (fun p w => max p (rankOf s w.toNat)) p) 0

/-! ### Slots (R211) -/

def slot (s : State) (c n : Nat) : Slot := mget (cluster s c).slots n {}

def setSlot (s : State) (c n : Nat) (x : Slot) : State :=
  modCluster s c (fun y => { y with slots := if x.state = .free then merase y.slots n else mset y.slots n x })

def taskStateNo : TaskState → Nat
  | .free => 0 | .wait => 1 | .delay => 2 | .ready => 3 | .run => 4 | .parked => 5

/-- Slots READY. -/
def readyCount (s : State) (c : Nat) : Nat := (cluster s c).ready.length

/-! ### Trace (R225) -/

/-- The HBM can take a record of the ring now. DEDUCED, log entry 34. -/
def traceUp (s : State) (a : Nat) : Bool := (stackOf s ((hbmPlace s a).1 / 32)).state == 2

/-- Store the oldest buffered records in the ring. -/
def traceDrain (s : State) (c : Nat) : Nat → State
  | 0 => s
  | n + 1 =>
    let i := 0x4050 + c
    let a := obj s i 3 + obj s i 5
    match (cluster s c).traceBuf with
    | [] => s
    | b :: bs =>
      if traceUp s a then
        let s := putObj (hbmWrite s .sys a b) i 5 ((obj s i 5 + 32) % max 32 (obj s i 4))
        traceDrain (modCluster s c (fun x => { x with traceBuf := bs })) c n
      else s

/-- A record of the scheduling trace, where TraceCtl is on. -/
def trace (s : State) (c kind n : Nat) (x : Slot) (rp reason : Nat) : State :=
  if obj s (0x4050 + c) 2 % 2 = 0 then s
  else
    let s := traceDrain s c 64
    let cl := cluster s c
    if 64 ≤ cl.traceBuf.length then
      bump (modCluster s c (fun y => { y with traceLost := y.traceLost + 1 })) (0x4050 + c) 6
    else
      let b := toLE 8 (ft s) ++ toLE 1 kind ++ toLE 1 (x.base * 16 + min x.eff 7) ++ toLE 2 n ++ toLE 1 rp
        ++ toLE 1 reason ++ toLE 2 (min cl.traceLost 65535) ++ toLE 2 (readyCount s c) ++ toLE 2 c
        ++ toLE 4 cl.traceSeq.toNat ++ toLE 8 0
      let s := modCluster s c (fun y => { y with traceBuf := y.traceBuf ++ [b], traceSeq := y.traceSeq + 1, traceLost := 0 })
      traceDrain s c 64

/-- The local rope number of a slot's rope, 0xFF for none. -/
def traceRope (x : Slot) : Nat := match x.rope with | some r => ropeLocal r | none => 0xFF

/-! ### Ready lists (R219, R221) -/

/-- Insert at the end of the list of an effective priority, lists in falling order. -/
def readyInsert (s : State) (c n : Nat) : List Nat → List Nat
  | [] => [n]
  | m :: ms => if (slot s c m).eff < (slot s c n).eff then n :: m :: ms else m :: readyInsert s c n ms

/-- A slot enters READY with a reason (R219, R220). -/
def readySlot (s : State) (c n reason : Nat) : State :=
  let x := { slot s c n with state := .ready, reason := reason, rope := none, due := none, timedOut := none }
  let s := setSlot s c n x
  let s := modCluster s c (fun y => { y with ready := readyInsert s c n (y.ready.filter (· != n)) })
  trace s c 2 n x 0xFF reason

def unready (s : State) (c n : Nat) : State := modCluster s c (fun y => { y with ready := y.ready.filter (· != n) })

/-- Belay reports a rope's effective priority: stored, at most 7, and a READY task moves (R221). -/
def priReport (s : State) (r v : Nat) : State :=
  let c := ropeCluster r
  match taskOf (rope s r) with
  | none => s
  | some n =>
    let x := slot s c n
    let e := min v 7
    if x.eff = e then s
    else
      let x := { x with eff := e }
      let s := setSlot s c n x
      let s := if x.state = .ready then
          let s := unready s c n
          modCluster s c (fun y => { y with ready := readyInsert s c n y.ready })
        else s
      trace s c 6 n x (traceRope x) 0

/-- The counter of a slot falls under the SIGNAL rule (R216). One that reaches 0 in the tick of its timeout wins over it
(R223). -/
def signalSlot (s : State) (c n k : Nat) : State :=
  let x := slot s c n
  let s := if x.counter < k then bump s (0x4050 + c) 0x0C else s
  let x := { x with counter := x.counter - k }
  let s := setSlot s c n x
  if x.state = .wait && x.counter = 0 then readySlot s c n 0
  else if x.state = .ready && x.counter = 0 && x.timedOut == some (ft s / 1000) then
    bumpBy (setSlot s c n { x with reason := 0, timedOut := none }) (0x4050 + c) 0x0B (2 ^ 64 - 1)
  else s

/-- A completion is reported: to the parent, then to the mailbox of a rope (R218). -/
def reportDone (s : State) (c n : Nat) (x : Slot) (kind result : Nat) : State :=
  let s := match x.parent with
    | some p => if (slot s c p).state = .free then bump s (0x4050 + c) 0x0D else signalSlot s c p 1
    | none => s
  match x.notify with
  | none => s
  | some q => sysWrite s c
      { addr := 0x1F800 + 16 * q, data := toLE 2 n ++ toLE 1 kind ++ toLE 1 0 ++ toLE 4 result ++ toLE 8 (ft s),
        notify := some (c * 128 + q) }

/-! ### Locks and what they do to priorities (R186 to R189) -/

def lock (s : State) (c n : Nat) : Lock := mget (cluster s c).locks n {}

def setLock (s : State) (c n : Nat) (x : Lock) : State :=
  modCluster s c (fun y => { y with
    locks := if x.owner.isNone && x.waiters.isEmpty then merase y.locks n else mset y.locks n x })

/-- A rope's priority is computed again from the locks it holds, and a change is told to the scheduler. When the
rope itself waits, the change goes on to that lock's holder, one link every 4 dp-cycles (R189). -/
def recompute (s : State) (r : Nat) (raise : Bool) : State :=
  let c := ropeCluster r
  let old := rankOf s r
  let w := waiterRank s r
  let s := modCluster s c (fun y => { y with
    boost := if w = 0 then merase y.boost (ropeLocal r) else mset y.boost (ropeLocal r) w })
  let new := rankOf s r
  if new = old then s
  else
    let s := if raise && decide (old < new) then bump s (0x4030 + c) 6 else s
    let s := priReport s r new
    match waitsOn s r with
    | some (_, l) => match l.owner with
      | some o => modCluster s c (fun y => { y with raises := y.raises ++ [(o.toNat, s.time.now + 4 * dpU s)] })
      | none => s
    | none => s

/-- A rope leaves the queue of a lock. -/
def leaveLock (s : State) (c n : Nat) (w : BitVec 11) : State :=
  let l := lock s c n
  let s := setLock s c n { l with waiters := l.waiters.filter (· != w) }
  match l.owner with
  | some o => recompute s o.toNat false
  | none => s

/-- A waiting rope's own rank has changed: the holder's priority is computed again (R189). -/
def rankMoved (s : State) (r : Nat) : State :=
  match waitsOn s r with
  | some (_, l) => match l.owner with
    | some o => recompute s o.toNat true
    | none => s
  | none => s

/-- The rope kept for a pinned task (R217). -/
def pinnedRope (s : State) (c n : Nat) : Option Nat :=
  (s.ropes.find? (fun e => ropeCluster e.1 == c && e.2.pinned == some n)).map (·.1)

/-- A slot is freed and its completion is reported (R216, R218, R224); a rope kept for its task is kept no longer. A slot that
the lead rope frees makes no record (R225). -/
def endSlot (s : State) (c n kind result : Nat) : State :=
  let x := slot s c n
  let s := setSlot (unready s c n) c n {}
  let s := match pinnedRope s c n with
    | some r => modRope s r (fun y => { y with pinned := none })
    | none => s
  let s := if kind < 2 then trace (bump s (0x4050 + c) 0x0A) c (4 + kind) n x (traceRope x) 0 else s
  reportDone s c n x kind result

end Sys2Proof.Machine
end

