-- ==== Sys2Proof/Machine/Parking.lean ====
section
/-! DEFINITION. How a rope starts and parks: the start of a pitch (R115 to R118, R130, R197), faults and retried
pitches (R170 to R177), core fencing (R112, R175) and the lead rope (R191 to R193). -/

namespace Sys2Proof.Machine

/-! ### Pending Crampon results (R170, R197) -/

/-- A rope that waits for the register, or for a KTXL of its core to complete, is ready again (R199, R205). -/
def kWake (s : State) (r : Nat) (p : KPend) : State :=
  let s := if (rope s r).st = .waiting (.kreg p.kd) then makeReady s r else s
  if p.isTxl then
    ((List.range 8).map (fun i => ropeCore r * 8 + i)).foldl
      (fun s q => if (rope s q).st = .waiting .ktxl then makeReady s q else s) s
  else s

/-- A pending result is written, and its pending bit clears (R198). -/
def kWrite (s : State) (r : Nat) (p : KPend) : State :=
  let (s, v) := match p.miss with
    | some m => txlMissDone s m
    | none => (s, p.value)
  kWake (busyCore (modRope s r (fun x => setK { x with kPend := x.kPend.filter (fun q => q.kd != p.kd) } p.kd v)) (ropeCore r)) r p

/-- Every pending result of a rope is written. -/
def kSettle (s : State) (r : Nat) : State := (rope s r).kPend.foldl (fun s p => kWrite s r p) s

/-! ### Starts (R130, R167, R213) -/

/-- The registers with which a rope starts a pitch, a task or the lead program. -/
def startRope (s : State) (x : Rope) (pc : BitVec 32) (pl : BitVec 2) (w : Map Word) : Rope :=
  { x with w := w, pc := pc, pl := pl, flags := {}, rstack := [], localMask := 0, localDisp := 0, startAt := cyc s,
           pending := 0, lines := []
           stg := { cmdStatus := x.stg.cmdStatus, cmdSlot := x.stg.cmdSlot } }

/-! ### Service (R112, R408) -/

/-- FAULT_N is looked at again; ports enter service with the device. -/
def serviceChange (s : State) : State :=
  let was := s.sys.faultN
  let s := recheckService s
  if !was && s.sys.faultN then enterPorts s else s

/-- Every pitch that waits in a cluster's queues is discarded (R112). -/
def discardQueued (s : State) : State :=
  let ks := (s.pit.pitches.filter (fun e => e.2.place == .queued)).map (·.1)
  let s := { s with pit := { s.pit with shed := s.pit.shed.map (fun e => (e.1, { e.2 with queues := [], moved := [] })) } }
  ks.foldl discardPitch ((List.range (clusters s)).foldl (fun s c => busyCore s (16 * c)) s)

/-- CoreFence takes a value, apart from what becomes of moved pitches. -/
def fenceValue (s : State) (c v : Nat) : State :=
  let s := serviceChange (putObj s (0x4020 + c) 1 (v % 65536))
  if allFenced s then discardQueued s else s

/-- A core is fenced, apart from what becomes of moved pitches. -/
def fenceOne (s : State) (k : Nat) : State :=
  let c := k / 16
  let v := obj s (0x4020 + c) 1
  if bit v (k % 16) then s else fenceValue s c (v + 2 ^ (k % 16))

/-! ### Fault records and faulted pitches (R173, R174, R176) -/

/-- A fault record of 16 bytes (R176). -/
def frecBytes (f : FaultRec) : List Byte :=
  toLE 4 f.pc.toNat ++ toLE 1 f.code ++ toLE 1 (b2n f.valid + 2 * b2n f.inPitch + 4 * b2n f.retry)
    ++ toLE 2 f.lane.toNat ++ toLE 8 f.addr.toNat

/-- Whether an unfenced core other than `k` exists in a cluster. -/
def otherCore (s : State) (c k : Nat) : Bool := (openCores s c).any (fun j => j != k)

/-- The cluster that takes a moved pitch: its own, or the next with an unfenced core (R112, R173). -/
def moveTarget (s : State) (c k : Nat) : Option Nat :=
  ((List.range (clusters s)).map (fun i => (c + i) % clusters s)).find? (fun d => otherCore s d k)

/-- A pitch failed for good: what is counted and fenced follows its first fault (R174). Where no other core could retry it
there is one fault, whose record stands for both in the Cairn record. DESIGN CHOICE, log entry 122. -/
def lastingFault (s : State) (k : Nat) (p : Pitch) (c : Nat) (first : Nat × FaultRec) (rec2 : FaultRec) : State :=
  let s := cairn s 5 2 3 (toLE 1 c ++ frecBytes first.2 ++ frecBytes rec2)
  let fc := ropeCluster first.1
  let s := failPitch (setPitch s k { p with place := .running }) k 4 c
  if first.2.code = 0x0A then fenceOne (bump s (0x4020 + fc) 4) (ropeCore first.1)
  else if first.2.code = 0x0B then s
  else bump s (0x4020 + fc) 5

/-- A pitch joins the moved pitches of a cluster. -/
def moveTo (s : State) (k d : Nat) : State := setShed s d { shed s d with moved := (shed s d).moved ++ [k] }

/-- A moved pitch that waits in a cluster with no unfenced core but the one it faulted on: the cluster, the pitch, and its
first fault. -/
def strandedPitch (s : State) : Option (Nat × Nat × Pitch × Nat × FaultRec) :=
  s.pit.shed.findSome? (fun e => e.2.moved.findSome? (fun k => match pitch s k with
    | none => none
    | some p => match p.firstFault with
      | none => none
      | some f => if otherCore s e.1 (ropeCore f.1) then none else some (e.1, k, p, f.1, f.2)))

/-- Moved pitches that a fence has left with no core in their cluster go on to another, or fail for good (R112, R173, R174). -/
def passMoved (s : State) : Nat → State
  | 0 => s
  | n + 1 =>
    match strandedPitch s with
    | none => s
    | some (c, k, p, r, f) =>
      let s := setShed s c { shed s c with moved := (shed s c).moved.filter (· != k) }
      match moveTarget s c (ropeCore r) with
      | some d => passMoved (moveTo (setPitch s k { p with cluster := d }) k d) n
      | none => passMoved (lastingFault s k p c (r, f) f) n

def passAll (s : State) : State := passMoved s (2 * s.pit.pitches.length + 1)

/-- CoreFence takes a value (R112, R173, R175). -/
def setFence (s : State) (c v : Nat) : State := passAll (fenceValue s c v)

/-- The pitch of a faulted rope is moved, or it fails; a fault of any kind on the retry is lasting (R173, R174, R396). -/
def pitchFault (s : State) (k r : Nat) (f : FaultRec) : State :=
  match pitch s k with
  | none => s
  | some p =>
    let c := ropeCluster r
    if f.code = 9 && !p.retry then failPitch (bump s (0x4020 + c) 6) k 0x0A 0
    else match p.retry, moveTarget s c (ropeCore r) with
      | false, some d =>
        let s := setPitch s k { p with retry := true, firstFault := some (r, f), emits := [], disposed := [],
                                       place := .queued, rope := none, cluster := d }
        moveTo s k d
      | _, _ => passAll (lastingFault s k p c (p.firstFault.getD (r, f)) f)

/-- A rope parks: its record is written, it gives up the core, its pitch leaves it and its task is PARKED. DEDUCED,
log entry 30. -/
def parkAs (s : State) (r code : Nat) (addr : BitVec 64) : State × FaultRec :=
  let s := kSettle (modRope s r (fun x => { x with st := .parked })) r
  let x := rope s r
  let p := match x.pitch with | some k => pitch s k | none => none
  let f : FaultRec := { pc := x.pc, code := code, valid := true, inPitch := x.pitch.isSome, addr := addr,
                        retry := match p with | some q => q.retry | none => false
                        lane := match p with | some q => q.lane | none => 0 }
  let s := giveUp (setRope s r { x with st := .parked, parkedAt := s.time.now, frec := f, pitch := none }) r
  let s := match x.task with
    | some n => setSlot s (ropeCluster r) n { slot s (ropeCluster r) n with state := .parked }
    | none => s
  let s := if x.pitch.isSome then modCore s (ropeCore r) (fun y => { y with inFlight := y.inFlight - 1 }) else s
  let s := cairn s 5 1 2 (toLE 1 (ropeCluster r) ++ frecBytes f)
  (match x.pitch with | some k => pitchFault s k r f | none => s, f)

/-! ### The lead rope (R191, R192) -/

/-- A rope starts as lead rope: LeadEntry, PL2, every general register 0 (R191). -/
def startLead (s : State) (c n : Nat) (pending : BitVec 64) : State :=
  let r := c * 128 + n
  let x := startRope s (rope s r) (cluster s c).leadEntry 2 []
  let s := setRope s r { x with pending := pending, pitch := none, task := none, pinned := none }
  makeReady (modCluster s c (fun y => { y with leadRope := n, beatAt := s.time.now })) r

/-- The rope Basecamp takes gives up what it is doing (R192, R224). -/
def vacate (s : State) (r : Nat) : State :=
  let x := rope s r
  let c := ropeCluster r
  if x.pitch.isSome then (parkAs s r 0x0B 0).1
  else match x.task with
    | some n =>
      let s := giveUp (modRope s r (fun y => { y with task := none, st := .free })) r
      readySlot s c n 4
    | none => s

/-- Basecamp elects rope 7 of the next eligible core, or fences the cluster (R192). DEDUCED, log entry 33. -/
def electLead (s : State) (c : Nat) : State :=
  let cl := cluster s c
  let old := cl.leadRope
  let word := (rope s (c * 128 + old)).pending ||| evBasecamp
  match ((List.range 15).map (fun i => (old / 8 + 1 + i) % 16)).find? (fun n =>
      !fenced s (c * 16 + n) && (rope s (c * 128 + n * 8 + 7)).st != .parked) with
  | some n =>
    let s := vacate s (c * 128 + n * 8 + 7)
    let s := bump32 (modCluster s c (fun y => { y with prevLead := old })) (0x4030 + c) 2
    let s := rankMoved (rankMoved (startLead s c (n * 8 + 7) word) (c * 128 + old)) (c * 128 + n * 8 + 7)
    cairn s 5 4 2 (toLE 1 c ++ toLE 1 (n * 8 + 7) ++ toLE 1 old)
  | none =>
    let s := modCluster s c (fun y => { y with noLead := true })
    cairn (setFence s c 0xFFFF) 5 5 2 (toLE 1 c ++ toLE 1 old)

/-- The lead rope has failed: it is parked, and another is elected unless Basecamp itself has failed (R192,
R409). -/
def leadFailed (s : State) (c : Nat) : State := if s.sys.basecampFailed then s else electLead s c

/-- A rope faults or is parked: R172 for any rope, R192 for the lead. -/
def faultRope (s : State) (r code : Nat) (addr : BitVec 64) : State :=
  let lead := isLead s r
  let s := if code = 8 then bump s (0x4040 + ropeCluster r) 0x14 else s
  let s := (parkAs s r code addr).1
  if lead then leadFailed s (ropeCluster r) else leadEvent s (ropeCluster r) evFault

/-! ### Park, resume and free (R177, R190, R224) -/

def parkRope (s : State) (r : Nat) : State :=
  if isLead s r then s
  else match (rope s r).st with
    | .parked => s
    | .free => modRope s r (fun x => { x with st := .parked, parkedAt := s.time.now })
    | _ => faultRope s r 0x0B 0

def resumeRope (s : State) (r : Nat) : State :=
  if (rope s r).st = .parked then
    let s := match (rope s r).task with
      | some n => setSlot s (ropeCluster r) n { slot s (ropeCluster r) n with state := .run }
      | none => s
    makeReady s r
  else s

/-- A parked rope is free again: its record is no longer valid, it waits on no lock, and its task's slot is
freed with KIND 2. -/
def freeParked (s : State) (r : Nat) : State :=
  if (rope s r).st = .parked then
    let c := ropeCluster r
    let t := (rope s r).task
    let s := modRope s r (fun x => { x with
      st := .free, frec := { x.frec with valid := false }, task := none, pinned := none, pitch := none })
    let s := match waitsOn s r with
      | some (l, _) => leaveLock s c l (BitVec.ofNat 11 r)
      | none => s
    match t with
    | some n => endSlot s c n 2 0xFFFFFFFE
    | none => s
  else s

/-- A write of ParkCtl (R175, R177). -/
def parkCtl (s : State) (c : Nat) (v : BitVec 64) : State :=
  let r := c * 128 + (v.extractLsb' 0 7).toNat
  match (v.extractLsb' 7 2).toNat with
  | 0 => parkRope s r
  | 1 => resumeRope s r
  | 2 => freeParked s r
  | _ => s

/-- PARK (R177). -/
def execPark (c : BitVec 4) (rope : BitVec 7) (s : State) : Res := live s <| .next (parkRope s (c.toNat * 128 + rope.toNat))

/-- RESUME (R177). -/
def execResume (c : BitVec 4) (rope : BitVec 7) (s : State) : Res := live s <| .next (resumeRope s (c.toNat * 128 + rope.toNat))

/-- FREE (R177). -/
def execFreeRope (c : BitVec 4) (rope : BitVec 7) (s : State) : Res := live s <| .next (freeParked s (c.toNat * 128 + rope.toNat))

/-- ParkHold after a pitch rope parked it is freed, unless the lead rope has acted on it (R177). -/
def execParkHoldExpiry (r : RopeId) (s : State) : Res := live s <|
  let n := r.toNat
  let hold := obj s (0x4020 + ropeCluster n) 2
  let x := rope s n
  if x.st = .parked && x.frec.valid && x.frec.inPitch && hold != 0 then
    .next (freeParked (rouse (advanceTo s (x.parkedAt + nsU hold)) (ropeCore n)) n)
  else .next s

/-- A write of LeadBeat restarts the heartbeat timer (R193). -/
def execLeadBeat (c : BitVec 4) (s : State) : Res := live s <|
  .next (modCluster s c.toNat (fun y => { y with beatAt := s.time.now }))

/-- LeadBeatLimit passes without a write of LeadBeat: Basecamp parks the lead rope and elects another (R192). In Doze the check
is suspended (R387). -/
def execLeadBeatTimeout (c : BitVec 4) (s : State) : Res :=
  let c := c.toNat
  let lim := obj s (0x4030 + c) 3
  match leadOf s c with
  | none => .next s
  | some r =>
    if on s && lim != 0 && !s.sys.basecampFailed && !(cluster s c).doze && (rope s r).st != .free then
      let s := advanceTo s ((cluster s c).beatAt + nsU lim)
      let s := if (rope s r).st = .parked then s else (parkAs s r 0x0B 0).1
      .next (leadFailed s c)
    else .next s

end Sys2Proof.Machine
end

