-- ==== Sys2Proof/Machine/Belay.lean ====
section
/-! DEFINITION. Belay locks (R185 to R190). -/

namespace Sys2Proof.Machine

/-- A read of a lock word (R186). -/
def lockWord (s : State) (c n : Nat) : BitVec 32 :=
  match (lock s c n).owner with
  | none => BitVec.ofNat 32 ((lock s c n).waiters.length * 2 ^ 16)
  | some o => BitVec.ofNat 32 (2 ^ 31 + rankOf s o.toNat * 2 ^ 24 + (lock s c n).waiters.length * 2 ^ 16 + o.toNat)

/-- The waiter that takes a lock: the highest rank, and among equals the first that joined (R188). -/
def bestWaiter (s : State) : List (BitVec 11) → Option (BitVec 11)
  | [] => none
  | w :: ws => match bestWaiter s ws with
    | none => some w
    | some v => if rankOf s w.toNat < rankOf s v.toNat then some v else some w

/-- The lock passes to the best waiter, or is free (R188). -/
def passLock (s : State) (c n : Nat) : State :=
  let l := lock s c n
  let s := match bestWaiter s l.waiters with
    | none => setLock s c n {}
    | some w =>
      let s := setLock s c n { owner := some w, waiters := l.waiters.filter (· != w) }
      recompute (sendEvent s w.toNat evLock 4) w.toNat false
  match l.owner with
  | some o => recompute s o.toNat false
  | none => s

/-- ACQUIRE (R187). One repeated by a rope that waits on the lock changes nothing. DESIGN CHOICE, log entry 123. -/
def lockAcquire (s : State) (c n : Nat) (id : BitVec 11) : State :=
  let l := lock s c n
  if l.owner.isNone then setLock s c n { l with owner := some id }
  else if l.owner = some id || l.waiters.contains id then s
  else
    let s := match waitsOn s id.toNat with
      | some (m, _) => leaveLock s c m id
      | none => s
    let s := bump (setLock s c n { l with waiters := l.waiters ++ [id] }) (0x4030 + c) 5
    match l.owner with
    | some o => recompute s o.toNat true
    | none => s

/-- RELEASE (R187). -/
def lockRelease (s : State) (c n : Nat) (id : BitVec 11) : State :=
  if (lock s c n).owner = some id then passLock s c n else bump s (0x4030 + c) 8

/-- FORCE (R187). -/
def lockForce (s : State) (c n : Nat) (w : LockWrite) : State :=
  if !w.pl2 then bump s (0x4030 + c) 8
  else match (lock s c n).owner with
    | none => s
    | some o =>
      let s := cairn (bump s (0x4030 + c) 7) 5 3 2 (toLE 1 c ++ toLE 2 o.toNat ++ toLE 2 w.writer.toNat)
      passLock s c n

/-- WITHDRAW (R187). -/
def lockWithdraw (s : State) (c n : Nat) (id : BitVec 11) : State :=
  if (lock s c n).waiters.contains id then leaveLock s c n id else s

/-- Place of an operation among the writes of one dp-cycle (R188). -/
def lockRank (op : BitVec 2) : Nat :=
  if op = 1 || op = 2 then 0 else if op = 3 then 1 else 2

/-- The write to a lock that Belay processes next: the earliest, and among those of one dp-cycle the order of R188. A core
issues one store in a dp-cycle, so writes of one core are in the order received (R185). -/
def nextLockWrite (n : Nat) : List LockWrite → Option LockWrite
  | [] => none
  | w :: ws =>
    if w.lock != n then nextLockWrite n ws
    else match nextLockWrite n ws with
      | none => some w
      | some v =>
        let apart := ropeCore v.writer.toNat != ropeCore w.writer.toNat
        if v.cyc < w.cyc || (v.cyc = w.cyc && apart && lockRank v.op < lockRank w.op) then some v else some w

/-- Belay processes the next write to a lock, 4 dp-cycles after its store, when it has the operation `op`
(R185). -/
def belayNext (s : State) (c n : Nat) (op : BitVec 2) (f : State → LockWrite → State) : State :=
  match nextLockWrite n (cluster s c).lockQ with
  | none => s
  | some w =>
    if w.op = op then
      let s := modCluster s c (fun y => { y with lockQ := y.lockQ.erase w })
      f (busyCore (advanceTo s (w.at_ + 4 * dpU s)) (16 * c)) w
    else s

def execAcquire (c : BitVec 4) (lock : BitVec 12) (s : State) : Res := live s <|
  .next (belayNext s c.toNat lock.toNat 0 (fun s w => lockAcquire s c.toNat lock.toNat w.id))

def execRelease (c : BitVec 4) (lock : BitVec 12) (s : State) : Res := live s <|
  .next (belayNext s c.toNat lock.toNat 1 (fun s w => lockRelease s c.toNat lock.toNat w.id))

def execForce (c : BitVec 4) (lock : BitVec 12) (s : State) : Res := live s <|
  .next (belayNext s c.toNat lock.toNat 2 (fun s w => lockForce s c.toNat lock.toNat w))

def execWithdraw (c : BitVec 4) (lock : BitVec 12) (s : State) : Res := live s <|
  .next (belayNext s c.toNat lock.toNat 3 (fun s w => lockWithdraw s c.toNat lock.toNat w.id))

/-- A change of priority reaches the holder of the next lock of a wait chain (R189). -/
def execPriorityRaisePropagate (c : BitVec 4) (s : State) : Res := live s <|
  let c := c.toNat
  match (cluster s c).raises with
  | [] => .next s
  | (r, t) :: rest =>
    .next (recompute (advanceTo (modCluster s c (fun y => { y with raises := rest })) t) r true)

end Sys2Proof.Machine
end

