-- ==== Sys2Proof/Machine/Flags.lean ====
section
/-! DEFINITION. Every flag computation and every ALU operation (R127, R128, R143, R144). -/

namespace Sys2Proof.Machine

/-- What an operation gives: its result, and C and V where it sets them. -/
structure AluRes where
  val : Word
  c : Option Bool := none
  v : Option Bool := none
  deriving DecidableEq, Repr

/-- An operand of a 32-bit operation is its low half (R143). -/
def opnd (w32 : Bool) (x : Word) : Word := if w32 then x &&& 0xFFFFFFFF#64 else x

/-- NOT within the width of the operation. -/
def notW (w32 : Bool) (x : Word) : Word := opnd w32 (~~~x)

/-- Bits of the operation. -/
def wid (w32 : Bool) : Nat := if w32 then 32 else 64

/-- The top bit of a value in the width of the operation. -/
def topBit (w32 : Bool) (x : Word) : Bool := x.getLsbD (wid w32 - 1)

/-- N and Z follow the result; C and V where the operation sets them (R128). -/
def flagsOf (w32 : Bool) (r : AluRes) (f : Flags) : Flags :=
  { n := topBit w32 r.val, z := r.val == 0, c := r.c.getD f.c, v := r.v.getD f.v }

/-- x + y + carry: C is the carry out of the top bit, V the signed overflow (R128). -/
def addWith (w32 : Bool) (x y : Word) (cin : Bool) : AluRes :=
  let sum := x.toNat + y.toNat + b2n cin
  let r := opnd w32 (BitVec.ofNat 64 sum)
  { val := r, c := some (decide (2 ^ wid w32 ≤ sum))
    v := some (topBit w32 x == topBit w32 y && topBit w32 r != topBit w32 x) }

/-- x + NOT y + carry: C = 1 means no borrow (R128). -/
def subWith (w32 : Bool) (x y : Word) (cin : Bool) : AluRes := addWith w32 x (notW w32 y) cin

/-- A logical result clears V and leaves C (R144). -/
def logic (r : Word) : AluRes := { val := r, v := some false }

/-- Shift amount: y[5:0], or y[4:0] in a 32-bit operation (R144). -/
def amount (w32 : Bool) (y : Word) : Nat := y.toNat % wid w32

def shlOp (w32 : Bool) (x : Word) (n : Nat) : AluRes :=
  { val := opnd w32 (x <<< n), c := if n = 0 then none else some (x.getLsbD (wid w32 - n)) }

def shrOp (x : Word) (n : Nat) : AluRes :=
  { val := x >>> n, c := if n = 0 then none else some (x.getLsbD (n - 1)) }

def sarOp (w32 : Bool) (x : Word) (n : Nat) : AluRes :=
  let v := if w32 then ((x.setWidth 32).sshiftRight n).setWidth 64 else x.sshiftRight n
  { val := v, c := if n = 0 then none else some (x.getLsbD (n - 1)) }

def rorOp (w32 : Bool) (x : Word) (n : Nat) : AluRes :=
  { val := if w32 then ((x.setWidth 32).rotateRight n).setWidth 64 else x.rotateRight n }

def mulOp (w32 : Bool) (x y : Word) : AluRes := { val := opnd w32 (x * y) }

def mulhuOp (w32 : Bool) (x y : Word) : AluRes :=
  { val := BitVec.ofNat 64 (x.toNat * y.toNat / 2 ^ wid w32) }

/-- Leading zeros among the low `n` bits. -/
def clzIn (x : Word) : Nat → Nat
  | 0 => 0
  | n + 1 => if x.getLsbD n then 0 else 1 + clzIn x n

/-- Trailing zeros from bit `i` on, over at most `n` bits. -/
def ctzIn (x : Word) (i : Nat) : Nat → Nat
  | 0 => 0
  | n + 1 => if x.getLsbD i then 0 else 1 + ctzIn x (i + 1) n

def clzOp (w32 : Bool) (x : Word) : AluRes := { val := BitVec.ofNat 64 (clzIn x (wid w32)) }

def ctzOp (w32 : Bool) (x : Word) : AluRes := { val := BitVec.ofNat 64 (ctzIn x 0 (wid w32)) }

def popcOp (x : Word) : AluRes :=
  { val := BitVec.ofNat 64 ((List.range 64).filter (fun i => x.getLsbD i)).length }

def bswapOp (w32 : Bool) (x : Word) : AluRes :=
  { val := BitVec.ofNat 64 (ofBE (toLE (wid w32 / 8) x.toNat)) }

/-- An operation of the ALU over the operands of its width and the flags. -/
abbrev AluFn := Bool → Word → Word → Flags → AluRes

/-- The ALU opcode (R143): operands of the width, the result where there is a destination, and the flags unless
KF keeps them. -/
def aluRope (op : AluFn) (kf w32 : Bool) (d : Option (BitVec 5)) (a b : BitVec 5) (x : Rope) : Rope :=
  let r := op w32 (opnd w32 (getW x a)) (opnd w32 (getW x b)) x.flags
  let y := match d with | some d => setW x d r.val | none => x
  { y with flags := if kf then x.flags else flagsOf w32 r x.flags }

/-- A full-width operation with an immediate operand (R145). -/
def immRope (op : AluFn) (d : Option (BitVec 5)) (a : BitVec 5) (imm : Word) (x : Rope) : Rope :=
  let r := op false (getW x a) imm x.flags
  let y := match d with | some d => setW x d r.val | none => x
  { y with flags := flagsOf false r x.flags }

/-- CMP of two values into the flags (R128, R165). -/
def cmpFlags (x y : Word) (f : Flags) : Flags := flagsOf false (subWith false x y true) f

end Sys2Proof.Machine
end

