-- ==== Sys2Proof/Machine/Operands.lean ====
section
/-! DEFINITION. Every memory operand form: the address map (R132), alignment (R137), the frame window (R135, R136),
the cluster-control window (R138, R175, R186, R193, R213) and the bytes a rope reads and writes. -/

namespace Sys2Proof.Machine

/-! ### The address map (R132, R137) -/

inductive Region where
  | scratch | imem | window | ctl | hbm
  deriving DecidableEq, Repr

/-- The region that holds all `n` bytes from `a` on. -/
def regionOf (s : State) (a n : Nat) : Option Region :=
  let within (base size : Nat) : Bool := decide (base ≤ a) && decide (a + n ≤ base + size)
  if within 0 0x400000 then some .scratch
  else if within 0x1000000 0x100000 then some .imem
  else if within 0x2000000 0x2000 then some .window
  else if within 0x3000000 0x10000 then some .ctl
  else if within 0x1000000000000000 (hbmSize s.sys) then some .hbm
  else none

/-- The level that R132 asks of an access. -/
def levelFor (g : Region) (a : Nat) (wr : Bool) : Nat :=
  match g with
  | .scratch => 0
  | .window => 0
  | .hbm => 0
  | .imem => if wr then 2 else 1
  | .ctl => if a < 0x3008000 then 1 else 2

/-- The region of an access, or the fault code it raises: ADDRESS, then PRIVILEGE, then ALIGNMENT. DEDUCED, log entry
21. -/
def access (s : State) (x : Rope) (a n align : Nat) (wr : Bool) : Except Nat Region :=
  match regionOf s a n with
  | none => .error 3
  | some g =>
    if x.pl.toNat < levelFor g a wr then .error 2
    else if g != .window && a % align != 0 then .error 4
    else .ok g

/-! ### The frame window (R135, R136) -/

/-- Whether the byte at an offset of the frame window holds anything. -/
def winByte (x : Rope) (o : Nat) : Bool :=
  x.pitch.isSome &&
  (decide (o < 0x40)
    || (decide (0x40 ≤ o) && decide (o < 0x440) && decide ((o - 0x40) / 64 < x.heads.length))
    || (decide (0x800 ≤ o) && decide (o < 0x1000) && decide ((o - 0x800) % 128 < lget x.heads ((o - 0x800) / 128) 0))
    || (decide (0x1000 ≤ o) && decide (o < 0x1800)))

def winRead (x : Rope) (o n : Nat) : List Byte :=
  (List.range n).map (fun i => if winByte x (o + i) then rd8 x.window (o + i) else 0)

def winWrite (x : Rope) (o : Nat) (bs : List Byte) : Rope :=
  { x with window := (bs.zipIdx).foldl (fun m e => if winByte x (o + e.2) then wr8 m (o + e.2) e.1 else m) x.window }

/-! ### The cluster-control window -/

/-- The rope the view registers show, while it is parked (R175). -/
def viewed (s : State) (c : Nat) : Option Nat :=
  let r := c * 128 + (cluster s c).viewSelect.toNat
  if (rope s r).st = .parked then some r else none

/-- A word of the table command block: subindex k at offset 8k (R138). -/
def blockRead (s : State) (c k : Nat) : Nat :=
  let b := blockOf s c
  match k with
  | 0 => 0x0C
  | 1 => b.op
  | 2 => b.table
  | 3 => b.key.toNat
  | 4 => b.version.toNat
  | 5 => b.arg.toNat
  | 7 => b.cursor
  | 9 => b.status
  | 10 => b.outEntry.toNat
  | 11 => b.outVersions.toNat
  | 12 => b.moveGen.toNat
  | _ => 0

/-- A word of the task interface (R213). DEDUCED, log entry 28. -/
def taskRead (s : State) (r o : Nat) : Nat :=
  let x := rope s r
  let g := x.stg
  match o with
  | 0x1008 => g.cmdStatus.toNat * 2 ^ 56 + g.cmdSlot.toNat
  | 0x1010 => match x.task with | some n => 2 ^ 12 + n | none => 0
  | 0x1100 => g.entry.toNat
  | 0x1108 => g.arg.toNat
  | 0x1110 => g.sp.toNat
  | 0x1118 => g.ctl.toNat
  | 0x1120 => g.timeout.toNat
  | 0x1128 => g.wakeFt.toNat
  | 0x1130 => g.result.toNat
  | 0x1200 => if x.pl = 2 then (cluster s (ropeCluster r)).slotSelect.toNat else 0
  | 0x1208 =>
    let y := slot s (ropeCluster r) (cluster s (ropeCluster r)).slotSelect.toNat
    taskStateNo y.state * 2 ^ 32 + y.eff * 2 ^ 24 + y.base * 2 ^ 16 + y.counter
  | _ => 0

/-- Two bits for each of the 128 ropes (R175). -/
def ropeStates (s : State) (c : Nat) : List Byte :=
  (List.range 32).map (fun i => BitVec.ofNat 8 ((List.range 4).map (fun j =>
    ropeStateNo (rope s (c * 128 + 4 * i + j)) * 4 ^ j)).sum)

/-- A word of the lead part (R157, R175, R193). -/
def leadRead (s : State) (c o : Nat) : Nat :=
  let cl := cluster s c
  if o = 0x8000 then obj s (0x4010 + c) 1
  else if o = 0x8100 then obj s (0x4020 + c) 1
  else if 0x8110 ≤ o ∧ o < 0x8130 then ofLE (slice (ropeStates s c) (o - 0x8110) 8)
  else if o = 0x8140 then cl.viewSelect.toNat
  else if o = 0x8300 then cl.leadRope
  else if o = 0x8308 then cl.prevLead
  else if o = 0x8310 then cl.leadEntry.toNat
  else if o = 0x8320 then obj s (0x4030 + c) 3
  else if o = 0x8328 then obj s (0x4030 + c) 2
  else if 0x8800 ≤ o ∧ o < 0x9000 then
    ofLE (slice (frecBytes (rope s (c * 128 + (o - 0x8800) / 16)).frec) (o % 16) 8)
  else match viewed s c with
    | none => 0
    | some r =>
      let x := rope s r
      if o = 0x8148 then x.pc.toNat
      else if o = 0x8150 then b2n x.flags.n * 8 + b2n x.flags.z * 4 + b2n x.flags.c * 2 + b2n x.flags.v
      else if 0x8200 ≤ o ∧ o < 0x8300 then (getW x (BitVec.ofNat 5 ((o - 0x8200) / 8))).toNat
      else 0

/-- The aligned 8 B word of the cluster-control window at offset `o`, as rope `r` reads it. -/
def ctlRead (s : State) (r o : Nat) : Nat :=
  let c := ropeCluster r
  if o < 0x68 then blockRead s c (o / 8)
  else if 0x100 ≤ o ∧ o < 0x120 then ofLE (slice (blockOf s c).result (o - 0x100) 8)
  else if 0x1000 ≤ o ∧ o < 0x2000 then taskRead s r o
  else if 0x4000 ≤ o ∧ o < 0x8000 then
    (lockWord s c ((o - 0x4000) / 4)).toNat + (lockWord s c ((o - 0x4000) / 4 + 1)).toNat * 2 ^ 32
  else if 0x8000 ≤ o then leadRead s c o
  else 0

/-- FLAGS of a value in the layout of R127. -/
def flagsFrom (v : Nat) : Flags := { n := bit v 3, z := bit v 2, c := bit v 1, v := bit v 0 }

/-- A write of the table command block; an Op or a Table outside its range changes nothing (R101, R138). -/
def blockWrite (s : State) (r k v : Nat) : State :=
  let c := ropeCluster r
  let b := blockOf s c
  match k with
  | 1 => if 1 ≤ v % 256 ∧ v % 256 ≤ 6 then setBlock s c { b with op := v % 256 } else s
  | 2 => if v % 256 ≤ 1 then setBlock s c { b with table := v % 256 } else s
  | 3 => setBlock s c { b with key := BitVec.ofNat 64 v }
  | 4 => setBlock s c { b with version := BitVec.ofNat 16 v }
  | 5 => setBlock s c { b with arg := BitVec.ofNat 32 v }
  | 7 => setBlock s c { b with cursor := v % 2 ^ 32 }
  | 8 => if v = 1 && b.status != stPending then (tableGo (setBlock s c { b with by_ := some r }) c).1 else s
  | _ => s

/-- A write of TaskCmd: the command waits for the scheduler (R214). -/
def taskCmdWrite (s : State) (r v : Nat) : State :=
  let op := v / 2 ^ 60 % 16
  if op = 0 || 7 < op then s
  else
    let s := modRope s r (fun x => { x with stg := { x.stg with cmdStatus := 0xFF, cmdSlot := 0 } })
    modCluster s (ropeCluster r) (fun y => { y with
      taskQ := y.taskQ ++ [{ rope := r, word := BitVec.ofNat 64 v, at_ := s.time.now, cyc := cyc s }] })

def setStg (s : State) (r : Nat) (f : Staging → Staging) : State := modRope s r (fun x => { x with stg := f x.stg })

/-- A write of the task interface (R213). -/
def taskWrite (s : State) (r o v : Nat) : State :=
  let w := BitVec.ofNat 64 v
  match o with
  | 0x1000 => taskCmdWrite s r v
  | 0x1100 => setStg s r (fun g => { g with entry := w })
  | 0x1108 => setStg s r (fun g => { g with arg := w })
  | 0x1110 => setStg s r (fun g => { g with sp := w })
  | 0x1118 => setStg s r (fun g => { g with ctl := w })
  | 0x1120 => setStg s r (fun g => { g with timeout := w })
  | 0x1128 => setStg s r (fun g => { g with wakeFt := w })
  | 0x1130 => setStg s r (fun g => { g with result := w })
  | 0x1200 => if (rope s r).pl = 2 then modCluster s (ropeCluster r) (fun y => { y with slotSelect := w.setWidth 12 })
    else s
  | _ => s

/-- A write of a lock word waits for Belay (R185). -/
def lockWrite (s : State) (r n v : Nat) : State :=
  modCluster s (ropeCluster r) (fun y => { y with lockQ := y.lockQ ++
    [{ lock := n, op := BitVec.ofNat 2 (v / 2 ^ 30), id := BitVec.ofNat 11 v, writer := BitVec.ofNat 11 r
       pl2 := (rope s r).pl == 2, at_ := s.time.now, cyc := cyc s }] })

/-- A write of the lead part (R157, R175, R193). The mirror of an RWS object is that object: what is written there is stored
(R7, R138, R375). DEDUCED, log entry 103. -/
def leadWrite (s : State) (c o v : Nat) : State :=
  if o = 0x8000 then setPitchEntry s c (v % 2 ^ 32)
  else if o = 0x8100 then setFence s c (v % 65536)
  else if o = 0x8108 then parkCtl s c (BitVec.ofNat 64 v)
  else if o = 0x8140 then modCluster s c (fun y => { y with viewSelect := BitVec.ofNat 7 v })
  else if o = 0x8310 then modCluster s c (fun y => { y with leadEntry := BitVec.ofNat 32 v })
  else if o = 0x8318 then modCluster s c (fun y => { y with beatAt := s.time.now })
  else if o = 0x8320 then storeLater (putObj s (0x4030 + c) 3 (v % 2 ^ 32)) (0x4030 + c) 3 (v % 2 ^ 32)
  else match viewed s c with
    | none => s
    | some r =>
      if o = 0x8148 then modRope s r (fun x => { x with pc := BitVec.ofNat 32 v })
      else if o = 0x8150 then modRope s r (fun x => { x with flags := flagsFrom v })
      else if 0x8200 ≤ o ∧ o < 0x8300 then
        modRope s r (fun x => setW x (BitVec.ofNat 5 ((o - 0x8200) / 8)) (BitVec.ofNat 64 v))
      else s

/-- The aligned 8 B word at offset `o` takes a value; `lo` and `hi` are the offsets of the bytes stored. -/
def ctlWrite (s : State) (r o v lo hi : Nat) : State :=
  let c := ropeCluster r
  if o < 0x68 then blockWrite s r (o / 8) v
  else if 0x100 ≤ o ∧ o < 0x120 then
    setBlock s c { blockOf s c with result := splice (blockOf s c).result (o - 0x100) (toLE 8 v) }
  else if 0x1000 ≤ o ∧ o < 0x2000 then taskWrite s r o v
  else if 0x4000 ≤ o ∧ o < 0x8000 then
    let n := (o - 0x4000) / 4
    let s := if lo < o + 4 then lockWrite s r n (v % 2 ^ 32) else s
    if o + 4 ≤ hi then lockWrite s r (n + 1) (v / 2 ^ 32) else s
  else if 0x8000 ≤ o then leadWrite s c o v
  else s

/-- Bytes of the cluster-control window from offset `o` on. -/
def ctlBytes (s : State) (r o n : Nat) : List Byte :=
  slice ((List.range ((o % 8 + n + 7) / 8)).flatMap (fun i => toLE 8 (ctlRead s r (o / 8 * 8 + 8 * i)))) (o % 8) n

/-- Bytes stored into the cluster-control window, word by word; the bytes of a word that are not stored stay as they
read. DESIGN CHOICE, log entry 29. -/
def ctlStore (s : State) (r o : Nat) (bs : List Byte) : State :=
  (List.range ((o % 8 + bs.length + 7) / 8)).foldl (fun s i =>
    let w := o / 8 * 8 + 8 * i
    let lo := max o w
    let hi := min (o + bs.length) (w + 8)
    let old := if w = 0x1000 || w = 0x40 || w = 0x8108 || (decide (0x4000 ≤ w) && decide (w < 0x8000)) then toLE 8 0
      else toLE 8 (ctlRead s r w)
    ctlWrite s r w (ofLE (splice old (lo - w) (slice bs (lo - o) (hi - lo)))) lo (hi - 1)) s

/-! ### Bytes of a region -/

/-- The `n` bytes a rope reads from `a` on. -/
def memRead (s : State) (r : Nat) (g : Region) (a n : Nat) : List Byte :=
  match g with
  | .scratch => rdN (cluster s (ropeCluster r)).scratch a n
  | .imem => rdN (cluster s (ropeCluster r)).imem (a - 0x1000000) n
  | .window => winRead (rope s r) (a - 0x2000000) n
  | .ctl => ctlBytes s r (a - 0x3000000) n
  | .hbm => hbmRead s (a - 0x1000000000000000) n

/-- The bytes a rope stores from `a` on. A store to banks 0 and 1 is remembered as port A's access (R184). -/
def memWrite (s : State) (r : Nat) (g : Region) (a : Nat) (bs : List Byte) : State :=
  let c := ropeCluster r
  match g with
  | .scratch =>
    modCluster s c (fun y => { y with
      scratch := wrN y.scratch a bs
      portA := if a < 0x40000 then some (a / 8, (a + bs.length - 1) / 8, cyc s) else y.portA })
  | .imem => modCluster s c (fun y => { y with imem := wrN y.imem (a - 0x1000000) bs })
  | .window => modRope s r (fun x => winWrite x (a - 0x2000000) bs)
  | .ctl => ctlStore s r (a - 0x3000000) bs
  | .hbm => hbmWrite s .core (a - 0x1000000000000000) bs

/-- A line of an HBM range is marked MEDIA. -/
def memMedia (s : State) (g : Region) (a n : Nat) : Bool :=
  g == .hbm && mediaIn s (a - 0x1000000000000000) n

/-- A read of an HBM address by a rope waits for the next refresh window (R327). -/
def memThrottled (s : State) (g : Region) (a : Nat) : Bool :=
  g == .hbm && throttled s .core (a - 0x1000000000000000)

/-- A load of cluster control sees the rope's own earlier lock writes and task commands: it does not return
while one is still unprocessed (R186, R214). -/
def ownWriteWaits (s : State) (r a n : Nat) : Bool :=
  let c := ropeCluster r
  let o := a - 0x3000000
  (cluster s c).lockQ.any (fun w => w.writer.toNat == r && decide (o < 0x4000 + 4 * w.lock + 4) &&
    decide (0x4000 + 4 * w.lock < o + n)) ||
  (decide (o < 0x1010) && decide (0x1008 < o + n) && (cluster s c).taskQ.any (fun w => w.rope == r))

def kOf (bs : List Byte) : KWord := BitVec.ofNat 512 (ofLE bs)

/-- A store to TaskCmd of END, WAIT, SLEEP or YIELD is a long stall (R217). -/
def suspends (a : Nat) (bs : List Byte) : Bool :=
  let op := ofLE (slice bs (0x3001000 + 7 - a) 1) / 16
  decide (a ≤ 0x3001007) && decide (0x3001007 < a + bs.length) && decide (4 ≤ op) && decide (op ≤ 7)

end Sys2Proof.Machine
end

