-- ==== Sys2Proof/Machine/Issue.lean ====
section
/-! DEFINITION. The issue of an instruction (R139, R141, R160, R163, R170 to R172, R180): when a rope issues, what
comes of the instruction, and the waits on k registers (R198, R199). -/

namespace Sys2Proof.Machine

/-- What comes of an instruction at its issue. -/
inductive Eff where
  /-- It completes, and the next instruction follows (R162). -/
  | done (s : State)
  /-- It completes, and the program goes on at an address. -/
  | jump (s : State) (pc : BitVec 32)
  /-- It has been dealt with whole: the rope stays on it, waits, or has left it. -/
  | held (s : State)
  /-- It faults and has no effect (R170). -/
  | trap (code : Nat) (addr : BitVec 64)
  /-- Use that is not supported (R9). -/
  | unsupported (rule : Nat)

/-- Rope `r` holds the issue slot of its core and is ready (R180). DESIGN CHOICE, log entry 3. -/
def issuing (s : State) (r : Nat) : Bool :=
  on s && decide ((cluster s (ropeCluster r)).startsAt ≤ s.time.now) && decide (r < 128 * clusters s) && !(cluster s (ropeCluster r)).doze &&
    (core s (ropeCore r)).issuing == some (r % 8) && (rope s r).st == .ready

/-- An address from which instructions are fetched (R133). DESIGN CHOICE, log entry 7. -/
def fetchOk (pc : BitVec 32) : Bool := decide (pc.toNat < 0x110000) && decide (pc.toNat % 4 = 0)

/-- What the machine does with the outcome of an instruction. -/
def settleEff (s : State) (r : Nat) (e : Eff) : Res :=
  match e with
  | .done t => .next (modRope t r nextPc)
  | .jump t pc => .next (modRope t r (fun x => { x with pc := pc }))
  | .held t => .next t
  | .trap code addr => .next (faultRope s r code addr)
  | .unsupported n => .fault (.unsupported n)

/-- A rope issues an instruction. Nothing happens where it does not hold the issue slot (log entry 3). A fetch
out of range raises ADDRESS (R133, R160), an uncorrectable error in instruction memory or the registers CORE_PARITY
(R171), and an instruction that may not stand in a repeat's body ILLEGAL there (R163). -/
def issue (s : State) (r : Issuer) (branch : Bool) (f : State → Eff) : Res :=
  if !issuing s r.toNat then .next s
  else if !fetchOk (rope s r.toNat).pc then .next (faultRope s r.toNat 3 0)
  else if r.parity then .next (faultRope s r.toNat 0x0A 0)
  else if branch && inBody (rope s r.toNat) then .next (faultRope s r.toNat 1 0)
  else settleEff s r.toNat (f s)

/-- An instruction that changes its rope alone. DESIGN CHOICE, log entry 8. -/
def issueRope (s : State) (r : Issuer) (f : Rope → Rope) : Res :=
  issue s r false (fun s => .done (modRope s r.toNat f))

/-! ### Waits on k registers (R148, R198, R199) -/

def pendingK (x : Rope) (k : BitVec 4) : Option KPend := x.kPend.find? (fun p => p.kd == k)

/-- Results in the order in which they are due (R198). -/
def dueInsert (p : KPend) : List KPend → List KPend
  | [] => [p]
  | q :: qs => if p.due < q.due then p :: q :: qs else q :: dueInsert p qs

def byDue (l : List KPend) : List KPend := l.foldl (fun l p => dueInsert p l) []

/-- A result cannot be written yet: a KTXL miss waits for its map read, and a KMV.LD of HBM for the next refresh window
(R198, R327). -/
def kHeld (s : State) (p : KPend) : Bool :=
  p.miss.isSome || (match p.src with
    | some a => (match regionOf s a 64 with
      | some g => memThrottled s g a
      | none => false)
    | none => false)

/-- The rope's results that are due by an instant are written, each at its own (R198). -/
def kDue (s : State) (r t : Nat) : State :=
  (byDue ((rope s r).kPend.filter (fun p => decide (p.due ≤ t) && !kHeld s p))).foldl (fun s p =>
    kWrite (advanceTo s p.due) r p) s

/-- How an instruction that needs k registers stands (R199). -/
inductive KWait where
  /-- None of them is pending. -/
  | ready
  /-- The wait for one is class S: the rope keeps the core. -/
  | inPlace
  /-- The wait for one is class L. -/
  | long (k : BitVec 4)
  deriving DecidableEq, Repr

/-- The registers an instruction reads or writes must not be pending. Where the wait predicted at issue is less than 8
dp-cycles for each of them it is spent in place; else it is a long stall on the register that comes last (R199). A result that
comes later than its prediction is waited for in place too. DEDUCED, log entry 110. -/
def kReady (s : State) (r : Nat) (ks : List (BitVec 4)) : State × KWait :=
  let waits := byDue ((rope s r).kPend.filter (fun p => ks.contains p.kd))
  match waits.getLast? with
  | none => (s, .ready)
  | some p =>
    if s.time.now + 8 * dpU s ≤ p.due then (s, .long p.kd)
    else
      let s := kDue s r p.due
      (s, if ks.any (fun k => (pendingK (rope s r) k).isSome) then .inPlace else .ready)

/-- The CPEN value that judges the rope's next instruction (R207, R208). -/
def cpenFor (s : State) (r : Nat) : Nat :=
  let now := obj s (0x4040 + ropeCluster r) (1 + ropeCore r % 16)
  match (core s (ropeCore r)).cpenPast with
  | some w => if w.rope = r && w.pc = (rope s r).pc && decide (s.time.now < w.until_) then w.value else now
  | none => now

/-- The instruction that a replaced CPEN value judged has issued. -/
def cpenSpent (s : State) (r : Nat) : State :=
  if (core s (ropeCore r)).cpenPast.isSome then modCore s (ropeCore r) (fun y => { y with cpenPast := none }) else s

/-- Crampon is usable at the rope's level (R207, R208). -/
def cramponOn (s : State) (r : Nat) : Bool := bit (cpenFor s r) (rope s r).pl.toNat

/-- An instruction of Crampon: it waits for its k registers, and issues under the CPEN in force then (R199, R208). -/
def issueK (s : State) (r : Issuer) (ks : List (BitVec 4)) (f : State → Eff) : Res :=
  issue s r false (fun s =>
    match kReady s r.toNat ks with
    | (s, .long k) => .held (stall (bump s (0x4040 + ropeCluster r.toNat) 0x13) r.toNat (.kreg k))
    | (s, .inPlace) => .held s
    | (s, .ready) =>
      if !cramponOn s r.toNat then .trap 8 0 else f (cpenSpent s r.toNat))

/-- A result joins the scoreboard with its latency in dp-cycles (R198). -/
def kPost (s : State) (r : Nat) (kd : BitVec 4) (v : KWord) (cycles : Nat) : State :=
  modRope s r (fun x => { x with kPend := x.kPend ++ [{ kd := kd, value := v, due := s.time.now + cycles * dpU s }] })

end Sys2Proof.Machine
end

