-- ==== Sys2Proof/Machine/Alu.lean ====
section
/-! DEFINITION. Arithmetic and logic: the ALU opcode (R143, R144) and the immediate forms (R145). -/

namespace Sys2Proof.Machine

/-- ADD: x + y (R144). -/
def execAdd (r : Issuer) (kf w32 : Bool) (d a b : BitVec 5) (s : State) : Res :=
  issueRope s r (aluRope (fun w x y _ => addWith w x y false) kf w32 (some d) a b)

/-- SUB: x − y (R144). -/
def execSub (r : Issuer) (kf w32 : Bool) (d a b : BitVec 5) (s : State) : Res :=
  issueRope s r (aluRope (fun w x y _ => subWith w x y true) kf w32 (some d) a b)

/-- ADC: x + y + C (R144). -/
def execAdc (r : Issuer) (kf w32 : Bool) (d a b : BitVec 5) (s : State) : Res :=
  issueRope s r (aluRope (fun w x y f => addWith w x y f.c) kf w32 (some d) a b)

/-- SBC: x + NOT y + C (R144). -/
def execSbc (r : Issuer) (kf w32 : Bool) (d a b : BitVec 5) (s : State) : Res :=
  issueRope s r (aluRope (fun w x y f => subWith w x y f.c) kf w32 (some d) a b)

/-- AND (R144). -/
def execAndOp (r : Issuer) (kf w32 : Bool) (d a b : BitVec 5) (s : State) : Res :=
  issueRope s r (aluRope (fun _ x y _ => logic (x &&& y)) kf w32 (some d) a b)

/-- OR (R144). -/
def execOrOp (r : Issuer) (kf w32 : Bool) (d a b : BitVec 5) (s : State) : Res :=
  issueRope s r (aluRope (fun _ x y _ => logic (x ||| y)) kf w32 (some d) a b)

/-- XOR (R144). -/
def execXorOp (r : Issuer) (kf w32 : Bool) (d a b : BitVec 5) (s : State) : Res :=
  issueRope s r (aluRope (fun _ x y _ => logic (x ^^^ y)) kf w32 (some d) a b)

/-- ANDN: x AND NOT y (R144). -/
def execAndn (r : Issuer) (kf w32 : Bool) (d a b : BitVec 5) (s : State) : Res :=
  issueRope s r (aluRope (fun _ x y _ => logic (x &&& ~~~y)) kf w32 (some d) a b)

/-- SHL (R144). -/
def execShl (r : Issuer) (kf w32 : Bool) (d a b : BitVec 5) (s : State) : Res :=
  issueRope s r (aluRope (fun w x y _ => shlOp w x (amount w y)) kf w32 (some d) a b)

/-- SHR (R144). -/
def execShr (r : Issuer) (kf w32 : Bool) (d a b : BitVec 5) (s : State) : Res :=
  issueRope s r (aluRope (fun w x y _ => shrOp x (amount w y)) kf w32 (some d) a b)

/-- SAR (R144). -/
def execSar (r : Issuer) (kf w32 : Bool) (d a b : BitVec 5) (s : State) : Res :=
  issueRope s r (aluRope (fun w x y _ => sarOp w x (amount w y)) kf w32 (some d) a b)

/-- ROR (R144). -/
def execRor (r : Issuer) (kf w32 : Bool) (d a b : BitVec 5) (s : State) : Res :=
  issueRope s r (aluRope (fun w x y _ => rorOp w x (amount w y)) kf w32 (some d) a b)

/-- MUL: the low half of the product (R144). -/
def execMul (r : Issuer) (kf w32 : Bool) (d a b : BitVec 5) (s : State) : Res :=
  issueRope s r (aluRope (fun w x y _ => mulOp w x y) kf w32 (some d) a b)

/-- MULHU: the high half of the unsigned product (R144). -/
def execMulhu (r : Issuer) (kf w32 : Bool) (d a b : BitVec 5) (s : State) : Res :=
  issueRope s r (aluRope (fun w x y _ => mulhuOp w x y) kf w32 (some d) a b)

/-- MINU (R144). -/
def execMinu (r : Issuer) (kf w32 : Bool) (d a b : BitVec 5) (s : State) : Res :=
  issueRope s r (aluRope (fun _ x y _ => { val := if x.toNat ≤ y.toNat then x else y }) kf w32 (some d) a b)

/-- MAXU (R144). -/
def execMaxu (r : Issuer) (kf w32 : Bool) (d a b : BitVec 5) (s : State) : Res :=
  issueRope s r (aluRope (fun _ x y _ => { val := if x.toNat ≤ y.toNat then y else x }) kf w32 (some d) a b)

/-- CLZ (R144). -/
def execClz (r : Issuer) (kf w32 : Bool) (d a : BitVec 5) (s : State) : Res :=
  issueRope s r (aluRope (fun w x _ _ => clzOp w x) kf w32 (some d) a 0)

/-- CTZ (R144). -/
def execCtz (r : Issuer) (kf w32 : Bool) (d a : BitVec 5) (s : State) : Res :=
  issueRope s r (aluRope (fun w x _ _ => ctzOp w x) kf w32 (some d) a 0)

/-- POPC (R144). -/
def execPopc (r : Issuer) (kf w32 : Bool) (d a : BitVec 5) (s : State) : Res :=
  issueRope s r (aluRope (fun _ x _ _ => popcOp x) kf w32 (some d) a 0)

/-- BSWAP (R144). -/
def execBswap (r : Issuer) (kf w32 : Bool) (d a : BitVec 5) (s : State) : Res :=
  issueRope s r (aluRope (fun w x _ _ => bswapOp w x) kf w32 (some d) a 0)

/-- CMP: the flags of x − y; with KF 1 it does nothing (R144). -/
def execCmp (r : Issuer) (kf w32 : Bool) (a b : BitVec 5) (s : State) : Res :=
  issueRope s r (aluRope (fun w x y _ => subWith w x y true) kf w32 none a b)

/-- TST: the flags of x AND y; with KF 1 it does nothing (R144). -/
def execTst (r : Issuer) (kf w32 : Bool) (a b : BitVec 5) (s : State) : Res :=
  issueRope s r (aluRope (fun _ x y _ => logic (x &&& y)) kf w32 none a b)

/-- ADDI (R145). -/
def execAddi (r : Issuer) (d a : BitVec 5) (imm : BitVec 16) (s : State) : Res :=
  issueRope s r (immRope (fun w x y _ => addWith w x y false) (some d) a (imm.signExtend 64))

/-- CMPI (R145). -/
def execCmpi (r : Issuer) (a : BitVec 5) (imm : BitVec 16) (s : State) : Res :=
  issueRope s r (immRope (fun w x y _ => subWith w x y true) none a (imm.signExtend 64))

/-- ANDI (R145). -/
def execAndi (r : Issuer) (d a : BitVec 5) (imm : BitVec 16) (s : State) : Res :=
  issueRope s r (immRope (fun _ x y _ => logic (x &&& y)) (some d) a (imm.setWidth 64))

/-- ORI (R145). -/
def execOri (r : Issuer) (d a : BitVec 5) (imm : BitVec 16) (s : State) : Res :=
  issueRope s r (immRope (fun _ x y _ => logic (x ||| y)) (some d) a (imm.setWidth 64))

/-- XORI (R145). -/
def execXori (r : Issuer) (d a : BitVec 5) (imm : BitVec 16) (s : State) : Res :=
  issueRope s r (immRope (fun _ x y _ => logic (x ^^^ y)) (some d) a (imm.setWidth 64))

/-- The shift or rotation that SHI's kind names (R145). -/
def shiftKind (kind : BitVec 2) (x : Word) (n : Nat) : AluRes :=
  match kind.toNat with
  | 0 => shlOp false x n
  | 1 => shrOp x n
  | 2 => sarOp false x n
  | _ => rorOp false x n

/-- SHI (R145). -/
def execShi (r : Issuer) (d a : BitVec 5) (kind : BitVec 2) (n : BitVec 6) (s : State) : Res :=
  issueRope s r (immRope (fun _ x _ _ => shiftKind kind x n.toNat) (some d) a 0)

/-- The low `width1 + 1` bits. -/
def lowMask (width1 : BitVec 6) : Word := 0xFFFFFFFFFFFFFFFF#64 >>> (63 - width1.toNat)

/-- BFX (R145). -/
def execBfx (r : Issuer) (d a : BitVec 5) (lsb width1 : BitVec 6) (s : State) : Res :=
  issueRope s r (fun x => setW x d ((getW x a >>> lsb.toNat) &&& lowMask width1))

/-- BFI: bits that fall above 63 are dropped (R145). -/
def execBfi (r : Issuer) (d a : BitVec 5) (lsb width1 : BitVec 6) (s : State) : Res :=
  issueRope s r (fun x =>
    let m := lowMask width1 <<< lsb.toNat
    setW x d ((getW x d &&& ~~~m) ||| ((getW x a <<< lsb.toNat) &&& m)))

/-- IPL (R145). -/
def execIpl (r : Issuer) (d : BitVec 5) (q : BitVec 2) (imm : BitVec 16) (s : State) : Res :=
  issueRope s r (fun x => setW x d (imm.setWidth 64 <<< (16 * q.toNat)))

/-- IPS (R145). -/
def execIps (r : Issuer) (d : BitVec 5) (q : BitVec 2) (imm : BitVec 16) (s : State) : Res :=
  issueRope s r (fun x => setW x d (imm.signExtend 64 <<< (16 * q.toNat)))

/-- IMG: the other bits stay (R145). -/
def execImg (r : Issuer) (d : BitVec 5) (q : BitVec 2) (imm : BitVec 16) (s : State) : Res :=
  issueRope s r (fun x =>
    let m := 0xFFFF#64 <<< (16 * q.toNat)
    setW x d ((getW x d &&& ~~~m) ||| (imm.setWidth 64 <<< (16 * q.toNat))))

end Sys2Proof.Machine
end

