-- ==== Sys2Proof/Machine/Ptp.lean ====
section
/-! DEFINITION. The PTP slave: the messages of an IEEE 1588-2019 ordinary clock that R345 names, its choice of a master and
its delay measurement. The spec states no layout: PRESUMED, log entry 55. -/

namespace Sys2Proof.Machine

def setPtp (s : State) (f : PtpSt → PtpSt) : State := { s with time := { s.time with ptp := f s.time.ptp } }

/-! ### Fields of a message -/

def ptpType (q : PtpFrame) : Nat := beAt q.bytes 0 1 % 16
def ptpSeq (q : PtpFrame) : Nat := beAt q.bytes 30 2

/-- The identity of the port that sent the message. -/
def ptpFrom (q : PtpFrame) : Nat := beAt q.bytes 20 10

/-- The correction field, in ns / 65,536. -/
def ptpCorr (q : PtpFrame) : Int := (BitVec.ofNat 64 (beAt q.bytes 8 8)).toInt

/-- A timestamp of 48 bits of seconds and 32 of ns, in ns / 65,536. -/
def ptpStamp (q : PtpFrame) (i : Nat) : Int := ((beAt q.bytes i 6 * 1000000000 + beAt q.bytes (i + 6) 4) * 65536 : Nat)

/-- The interval that a message states, a power of 2 in s. -/
def ptpEvery (q : PtpFrame) : Nat :=
  let l := beAt q.bytes 33 1
  if l < 128 then msU 1000 * 2 ^ l else msU 1000 / 2 ^ (256 - l)

/-- A message for the slave: from PtpPort, whole, of version 2 and of PtpDomain. -/
def ptpHears (s : State) (q : PtpFrame) : Bool :=
  let need := match ptpType q with | 0 => 44 | 8 => 44 | 9 => 54 | 11 => 64 | _ => 34
  q.lp == obj s 0x6800 5 && decide (need ≤ q.bytes.length) && beAt q.bytes 0 1 / 16 == 0 && beAt q.bytes 1 1 % 16 == 2
    && beAt q.bytes 4 1 == obj s 0x6800 6

/-! ### The choice of a master -/

/-- A master counts once two Announces have come within 4 of their intervals. -/
def ptpQualified (m : PtpMaster) : Bool := m.before.any (fun t => decide (m.at_ ≤ t + 4 * m.every))

/-- The Announce receipt timeout of a master: 3 of its intervals. -/
def ptpTimeout (m : PtpMaster) : Nat := m.at_ + 3 * m.every

def ptpBetter (a b : PtpMaster) : Bool := decide (a.rank < b.rank) || (a.rank == b.rank && decide (a.id < b.id))

/-- The best master of those that are qualified and not timed out. -/
def ptpParent (s : State) : Option PtpMaster :=
  (s.time.ptp.masters.filter (fun m => ptpQualified m && decide (s.time.now < ptpTimeout m))).foldl
    (fun b m => if b.all (fun x => ptpBetter m x) then some m else b) none

def fromParent (s : State) (q : PtpFrame) : Bool := (ptpParent s).any (fun m => m.id == ptpFrom q)

/-- An Announce: its data set from grandmasterPriority1 to stepsRemoved; 255 steps or more are ignored. -/
def ptpAnnounce (s : State) (q : PtpFrame) : State :=
  if 255 ≤ beAt q.bytes 61 2 then s
  else setPtp s (fun p =>
    let old := p.masters.find? (fun m => m.id == ptpFrom q)
    let m : PtpMaster := { id := ptpFrom q, rank := beAt q.bytes 47 16, every := ptpEvery q, at_ := s.time.now
                           before := old.map (·.at_) }
    { p with masters := m :: p.masters.filter (fun x => x.id != m.id) })

/-! ### The delay measurement -/

/-- The clock identity of a port from its MAC address, and port number 1. -/
def ptpSelf (s : State) (lp : Nat) : Nat :=
  let mac := lpo s lp 4
  (mac / 2 ^ 24 * 2 ^ 40 + 0xFFFE * 2 ^ 24 + mac % 2 ^ 24) * 2 ^ 16 + 1

/-- A Delay_Req of 44 B. -/
def delayReq (s : State) (lp seq : Nat) : List Byte :=
  [0x01, 0x12] ++ toBE 2 44 ++ toBE 1 (obj s 0x6800 6) ++ List.replicate 15 0 ++ toBE 10 (ptpSelf s lp) ++ toBE 2 seq
    ++ [1, 0x7F] ++ List.replicate 10 0

/-- The frame of a Delay_Req in the port's Encap, to the multicast address of the protocol. -/
def delayFrame (s : State) (lp seq : Nat) : List Byte :=
  let tag := vlanTag (lpo s lp 6) 0
  if lpo s lp 5 = 1 then
    macFrame 0x333300000181 (lpo s lp 4)
      (tag ++ udp6 (toBE 8 (lpo s lp 7) ++ toBE 8 (lpo s lp 8)) (toBE 2 0xFF0E ++ List.replicate 12 0 ++ toBE 2 0x181) 0 319 319
        (delayReq s lp seq))
  else macFrame 0x011B19000000 (lpo s lp 4) (tag ++ toBE 2 0x88F7 ++ delayReq s lp seq)

/-- A Sync has come with its time of departure: its way is known, and a Delay_Req leaves an Active port, `m` ns later at the
MAC. -/
def ptpSynced (s : State) (m : Nat) (t2 : Nat) (t1 : Int) : State :=
  let lp := obj s 0x6800 5
  if !active s lp then s
  else
    let seq := s.time.ptp.nextSeq
    setPtp (sendRaw s lp (delayFrame s lp seq)) (fun p => { p with
      ask := some { seq := seq, t3 := ft s + m, way := (t2 : Int) * 65536 - t1 }, nextSeq := (seq + 1) % 65536 })

/-- A Sync of the parent: with TWO_STEP set its time comes in the Follow_Up. -/
def ptpSyncIn (s : State) (m : Nat) (q : PtpFrame) : State :=
  let s := setPtp s (fun p => { p with sync := none, syncEvery := some (ptpEvery q) })
  if bit (beAt q.bytes 6 1) 1 then setPtp s (fun p => { p with sync := some { seq := ptpSeq q, t2 := q.ft, corr := ptpCorr q } })
  else ptpSynced s m q.ft (ptpStamp q 34 + ptpCorr q)

/-- A Follow_Up of the parent. -/
def ptpFollowUp (s : State) (m : Nat) (q : PtpFrame) : State :=
  match s.time.ptp.sync with
  | some y =>
    if y.seq = ptpSeq q then
      ptpSynced (setPtp s (fun p => { p with sync := none })) m y.t2 (ptpStamp q 34 + ptpCorr q + y.corr)
    else s
  | none => s

/-- The offset that a Delay_Resp completes: half of what the way of the Sync exceeds that of the Delay_Req by, in ns. -/
def ptpOffset (a : PtpAsk) (q : PtpFrame) : Int :=
  (a.way - (ptpStamp q 34 - ptpCorr q - (a.t3 : Int) * 65536)) / 131072

/-- A Delay_Resp of the parent to the Delay_Req that waits. -/
def ptpAnswers (s : State) (a : PtpAsk) (q : PtpFrame) : Bool := a.seq == ptpSeq q && beAt q.bytes 44 10 == ptpSelf s q.lp

/-- What the slave makes of a message, and the offset of FT that it measures. -/
def ptpTake (s : State) (m : Nat) (q : PtpFrame) : State × Option Int :=
  if !ptpHears s q then (s, none)
  else if ptpType q = 11 then (ptpAnnounce s q, none)
  else if !fromParent s q then (s, none)
  else match ptpType q, s.time.ptp.ask with
    | 0, _ => (ptpSyncIn s m q, none)
    | 8, _ => (ptpFollowUp s m q, none)
    | 9, some a => if ptpAnswers s a q then (setPtp s (fun p => { p with ask := none }), some (ptpOffset a q)) else (s, none)
    | _, _ => (s, none)

/-- The instant at which PTP has lost its source: the last Announce receipt timeout of a master, or 3 Sync intervals after the
last measurement, whichever comes first (R345). -/
def ptpLossDue (s : State) : Option Nat :=
  let p := s.time.ptp
  let heard := ((p.masters.filter ptpQualified).map ptpTimeout).max?
  let measured := match s.time.lastMeas, p.syncEvery with | some t, some e => some (t + 3 * e) | _, _ => none
  match heard, measured with
  | some a, some b => some (min a b)
  | some a, none => some a
  | none, b => b

end Sys2Proof.Machine
end

