-- ==== Sys2Proof/Machine/Traffic.lean ====
section
/-! DEFINITION. The traffic manager: the scheduling tree, the shapers, what an output does on departure, the shaping
calendar, and the moves between the cell store and Piton (R271, R283, R286, R287, R294, R295, R304 to R312). -/

namespace Sys2Proof.Machine

/-! ### Eligibility (R306) -/

def charge (o : Output) : Nat := outLen o + 20

/-- The scan whose RSP this is, where Scree takes it in place of its departure (R269, R271). -/
def scanRsp (o : Output) : Option (Pair × Nat) :=
  match o.pair with
  | some p => if o.lp = p.hostLp then p.scan.map (fun k => (p, k)) else none
  | none => none

/-- An RSP that Scree takes needs no place in a context; every other output needs what its context asks. -/
def departable (s : State) (o : Output) : Bool := (scanRsp o).isSome || ctxReady s o

/-- Credit below 0 holds a shaped tenant back (R309). -/
def shaperHolds (s : State) (lp tid : Nat) : Bool := (shapeOf s tid).1 != 0 && decide (shaperNow s lp tid < 0)

/-- An earlier RESPONSE to the same requester has not left yet (R371). -/
def answersAhead (s : State) (o : Output) : Bool :=
  let ahead (x : Output) : Bool := x.respNo != 0 && decide (x.respNo < o.respNo) && x.hdr.dst == o.hdr.dst
  o.respNo != 0 && (s.tm.queues.any (fun q => q.outs.any ahead) || s.trav.spilled.any (fun e => ahead e.out) ||
    s.xport.parked.any (fun x => ahead x.out))

/-- The head of a queue may be sent now. -/
def headReady (s : State) (q : Queue) : Bool :=
  match q.outs with
  | [] => false
  | o :: _ => !answersAhead s o && !paused s o && credited s o && (o.ctl || !shaperHolds s q.lp q.tid) && departable s o

/-! ### Choice (R305, R307) -/

def schedOf (s : State) (lp : Nat) : Sched := mget s.tm.sched lp {}
def setSched (s : State) (lp : Nat) (x : Sched) : State := { s with tm := { s.tm with sched := mset s.tm.sched lp x } }

/-- The eligible queues of a class on a port. -/
def readyQueues (s : State) (lp cls : Nat) : List Queue :=
  s.tm.queues.filter (fun q => q.lp == lp && q.cls == cls && headReady s q)

/-- The least element of a list that is at least `lo`, else the least. -/
def nextFrom (lo : Nat) (l : List Nat) : Option Nat :=
  let up := l.filter (fun a => decide (lo ≤ a))
  (if up.isEmpty then l else up).min?

/-- The next eligible queue of a tenant, round robin over the spread index. -/
def nextQueue (x : Sched) (qs : List Queue) (cls tid : Nat) : Option Queue :=
  let mine := qs.filter (fun q => q.tid == tid)
  match nextFrom (mget x.qTurn (cls * 4096 + tid) 0) (mine.map (·.spread)) with
  | none => none
  | some sp => mine.find? (fun q => q.spread == sp)

def headCharge (q : Queue) : Nat := match q.outs with | o :: _ => charge o | [] => 0

/-- DWRR over the tenants of a class: the queue whose head is sent, and the state with its charge taken. -/
def pickTenant (s : State) (qs : List Queue) (cls : Nat) : Nat → Sched → Option (Sched × Queue)
  | 0, _ => none
  | n + 1, x =>
    match nextFrom (mget x.tenTurn cls 0) (qs.map (·.tid)) with
    | none => none
    | some t =>
      match nextQueue x qs cls t with
      | none => none
      | some q =>
        let fresh := mget x.tenFresh cls true || t != mget x.tenTurn cls 0
        let k := cls * 4096 + t
        let d := mget x.tenDef k 0 + (if fresh then ten s t 0x10 else 0)
        let x := { x with tenTurn := mset x.tenTurn cls t, tenFresh := mset x.tenFresh cls false }
        if headCharge q ≤ d then
          some ({ x with tenDef := mset x.tenDef k (d - headCharge q), qTurn := mset x.qTurn k (q.spread + 1) }, q)
        else
          pickTenant s qs cls n
            { x with tenDef := mset x.tenDef k d, tenTurn := mset x.tenTurn cls (t + 1), tenFresh := mset x.tenFresh cls true }

/-- Rounds enough for a quantum of 1 byte to reach the longest frame's charge. DESIGN CHOICE, log entry 50. -/
def rounds (qs : List Queue) : Nat := 4219 * (qs.length + 1)

def chooseIn (s : State) (lp cls : Nat) (x : Sched) : Option (Sched × Queue) :=
  let qs := readyQueues s lp cls
  pickTenant s qs cls (rounds qs) x

/-- DWRR over classes 5 to 0, from 5 down. -/
def pickClass (s : State) (lp : Nat) : Nat → Sched → Option (Sched × Queue)
  | 0, _ => none
  | n + 1, x =>
    let up := (List.range 6).filter (fun i => !(readyQueues s lp (5 - i)).isEmpty)
    match nextFrom (5 - x.classTurn) up with
    | none => none
    | some i =>
      let c := 5 - i
      let fresh := x.classFresh || c != x.classTurn
      let d := mget x.classDef c 0 + (if fresh then obj s 0x5820 (c + 1) else 0)
      match chooseIn s lp c x with
      | none => none
      | some (y, q) =>
        if headCharge q ≤ d then
          some ({ y with classTurn := c, classFresh := false, classDef := mset y.classDef c (d - headCharge q) }, q)
        else
          pickClass s lp n { x with classDef := mset x.classDef c d, classTurn := (c + 5) % 6, classFresh := true }

/-- The queue a port sends from next, and its scheduling state with the charge taken: 7, then 6, then the rest. -/
def chooseQueue (s : State) (lp : Nat) : Option (Sched × Queue) :=
  let x := schedOf s lp
  match chooseIn s lp 7 x with
  | some r => some r
  | none => match chooseIn s lp 6 x with
    | some r => some r
    | none => pickClass s lp (4219 * 7) x

/-- After a change of a port's queues: a member that has emptied loses its deficit, and one that is no longer eligible passes
its turn, in every class. A queue whose outputs are all spilled is not empty (R307). -/
def passTurns (s : State) (lp : Nat) : State :=
  let x := schedOf s lp
  let here := s.tm.queues.filter (fun q => q.lp == lp && (!q.outs.isEmpty || q.spillMode))
  let x := { x with tenDef := x.tenDef.filter (fun e => here.any (fun q => q.cls * 4096 + q.tid == e.1))
                    classDef := x.classDef.filter (fun e => here.any (fun q => q.cls == e.1)) }
  let pass (x : Sched) (c : Nat) : Sched :=
    let t := mget x.tenTurn c 0
    if mget x.tenFresh c true || (readyQueues s lp c).any (fun q => q.tid == t) then x
    else { x with tenTurn := mset x.tenTurn c (t + 1), tenFresh := mset x.tenFresh c true }
  let x := (List.range 8).foldl pass x
  let x := if x.classFresh || !(readyQueues s lp x.classTurn).isEmpty then x
    else { x with classTurn := (x.classTurn + 5) % 6, classFresh := true }
  setSched s lp x

/-- A choice counts each tenant with a queue that credit holds back. DEDUCED, log entry 48. -/
def countStalls (s : State) (lp : Nat) : State :=
  let waits (q : Queue) : Bool := match q.outs with | o :: _ => !o.ctl && shaperHolds s lp q.tid | [] => false
  let held := (s.tm.queues.filter (fun q => q.lp == lp && waits q)).map (·.tid)
  held.eraseDups.foldl (fun s t => bumpTen s t 0x14) s

/-- A request at the head of its queue that finds no pairing entry is counted once (R240). -/
def countPairWaits (s : State) (lp : Nat) : State :=
  if (pairNoFree s lp).isSome then s
  else
    let waits (o : Output) : Bool := o.req.isSome && !o.pairWaited
    let n := (s.tm.queues.filter (fun q => q.lp == lp && (match q.outs with | o :: _ => waits o | [] => false))).length
    let mark (q : Queue) : Queue := match q.outs with
      | o :: os => if q.lp = lp && waits o then { q with outs := { o with pairWaited := true } :: os } else q
      | [] => q
    let s := { s with tm := { s.tm with queues := s.tm.queues.map mark } }
    if n = 0 then s else bumpBy s 0x4831 4 n

/-! ### Departure -/

/-- The frame leaves. A frame that the device's own contexts answer for is numbered and retained (R287); every other
frees its stores (R286). What the transport engine sends carries the CURRENT version (R81). -/
def sendOut (s : State) (o : Output) : State :=
  let h := { o.hdr with rsver := s.col.ver.current }
  let o := if o.ctl || (o.orig && !o.counted && o.hdr.typ == 9) then { o with hdr := h } else o
  let (s, h) := originate s o
  let s := putOnWire (countCells s o) o h
  if o.orig && sequenced o.hdr.typ then (if o.counted then retire s o.hdr.rsver else s) else endOutput s o

/-- Scree takes a decrypted scan RSP in place of its departure (R269, R271). -/
def screeTake (s : State) (o : Output) (p : Pair) (k : Nat) : State :=
  let ahead := (o.hdr.addr - p.taddr).toNat
  let row := match mfind s.scree.scans k with
    | some c => p.row + ahead / max 1 (progRow c.prog)
    | none => p.row
  let x : ScreeRsp := { scan := k, tid := p.tid, row := row, data := o.payload,
                        bytes := if p.want ≤ o.payload.length then p.want + ahead else 0 }
  endOutput { s with scree := { s.scree with rspQ := s.scree.rspQ ++ [x] } } o

/-- Stages 7 and 8 for an output on its way out (R13, R249, R271). -/
def depart (s : State) (o : Output) : State :=
  match stage7 s o with
  | (s, none) => s
  | (s, some o) =>
    match scanRsp o with
    | some (p, k) => screeTake s o p k
    | none => sendOut s o

/-- Where a sending has emptied its queue, the scheduling state that stands if an admission of the same dp-cycle finds that
the queue never emptied (R308). -/
def keepUndo (s : State) (lp qn tid : Nat) (credit : Int) (emptied : Bool) : State :=
  let x := schedOf s lp
  let was := { x with credit := mset x.credit tid (credit, s.time.now) }
  { s with tm := { s.tm with undo := if emptied then mset s.tm.undo lp (qn, s.time.now, was) else merase s.tm.undo lp } }

/-- What a sending leaves of the tenant's credit, before a positive credit ends with the tenant's last queue (R309). -/
def creditAfter (s : State) (tid : Nat) (before : Int) (o : Output) : Int :=
  if o.ctl || (shapeOf s tid).1 = 0 then before else before - charge o * 7200000

/-- A port sends the head of the queue it has chosen. -/
def sendFrom (s : State) (lp : Nat) (x : Sched) (q : Queue) (o : Output) (rest : List Output) : State :=
  let before := shaperNow s lp q.tid
  let s := setSched s lp x
  let qs := (s.tm.queues.map (fun y => if y.is lp q.cls q.tid q.spread then { y with outs := rest } else y)).filter
    (fun y => !(y.outs.isEmpty && !y.spillMode))
  let s := { s with tm := { s.tm with queues := qs } }
  let c := creditAfter s q.tid before o
  let qn := queueNo lp q.cls q.tid q.spread
  let s := keepUndo s lp qn q.tid c (queueOf s lp q.cls q.tid q.spread).isNone
  let s := setCredit s lp q.tid (if activeOn s lp q.tid then c else min c 0)
  let s := depart s o
  passTurns { s with pwr := { s.pwr with idleSince := some s.time.now } } lp

/-- The PULSE of a port is due: it goes ahead of every queued frame (R47, R305). -/
def pulseDue (s : State) (lp : Nat) : Bool :=
  match (port s lp).nextPulse with | some t => decide (t ≤ s.time.now) | none => false

/-- A logical port chooses its next output and sends it (R308). -/
def execOutputTransmit (lp : Nat) (s : State) : Res :=
  if !active s lp then .next s
  else if pulseDue s lp then execPulseSend lp s
  else
    let s := finishScans (unpark s lp)
    let s := countPairWaits (countStalls s lp) lp
    match chooseQueue s lp with
    | none => .next s
    | some (x, q) =>
      match q.outs with
      | [] => .next s
      | o :: rest => .next (finishScans (sendFrom s lp x q o rest))

/-! ### The cell store and Piton -/

/-- A cell written for a frame belongs to the frame, or to what its copies share. -/
def giveCell (s : State) (f c : Nat) : State :=
  match mfind s.frames f, mfind s.trav.copies f with
  | some x, _ => setFrame (useCell s c) f { x with cells := x.cells ++ [c] }
  | none, some x =>
    let s := useCell s c
    { s with trav := { s.trav with copies := mset s.trav.copies f { x with cells := x.cells ++ [c] } } }
  | none, none => s

/-- The oldest cell in a port's write stage takes the next bank that has a free cell, and is written there (R282, R283); the
reads of a dp-cycle keep no bank from it. DESIGN CHOICE, log entry 112. -/
def execCellWriteStage (port : Nat) (s : State) : Res := live s <|
  match mget s.trav.stage port [], pickCell s with
  | f :: fs, some c =>
    let st := if fs.isEmpty then merase s.trav.stage port else mset s.trav.stage port fs
    .next (giveCell { s with trav := { s.trav with stage := st } } f c)
  | _, _ => .next s

/-- A spilling queue below half its threshold takes its outputs back in order (R294). -/
def execSpillReadback (queue : Nat) (s : State) : Res := live s <|
  .next (passTurns (readBack s queue s.trav.spilled.length) (queue / (8 * 4096 * 4)))

/-- The oldest retained output that still stands in the cell store: one that was sent, or one that waits (R287). -/
def oldestRetained (s : State) : Option Output :=
  let sent := s.xport.tx.flatMap (fun e => (e.2.sent.filter (fun x => x.spilled.isNone)).map (·.out))
  let waits := (s.xport.parked.filter (fun x => x.buf.isNone && x.out.head != noHead)).map (·.out)
  (sent ++ waits).foldl (fun b x => match b with
    | none => some x
    | some y => if x.id < y.id then some x else some y) none

/-- A retained output stands in a Piton buffer from now on. -/
def markMoved (s : State) (o : Output) (b : Nat × Nat) : State :=
  let sent (y : Sent) : Sent := if y.out.id = o.id then { y with spilled := some b } else y
  let waits (y : Parked) : Parked :=
    if y.out.id = o.id then { y with buf := some b, out := { y.out with frame := none, owner := true, cells := [], head := noHead } }
    else y
  { s with xport := { s.xport with
      tx := s.xport.tx.map (fun e => (e.1, { e.2 with sent := e.2.sent.map sent })), parked := s.xport.parked.map waits } }

/-- Above RetainLimit the oldest retained output moves to a Piton buffer (R295). -/
def execRetainMove (s : State) : Res :=
  if retainedCells s ≤ obj s 0x5800 4 then .next s
  else match oldestRetained s with
    | none => .next s
    | some o =>
      match pitonAlloc s (outLen o) with
      | (s, none) => .next s
      | (s, some b) => .next (markMoved (fillBuffer (freeStores (bump s 0x5800 9) o) b (outLen o)) o b)

/-! ### The shaping calendar (R310 to R312) -/

/-- Bring a tenant's credit on every port up to now, under the shaper values in force. -/
def settleShape (s : State) (tid : Nat) : State :=
  let go (lp : Nat) (x : Sched) : Sched :=
    if (mfind x.credit tid).isSome then { x with credit := mset x.credit tid (shaperNow s lp tid, s.time.now) } else x
  { s with tm := { s.tm with sched := s.tm.sched.map (fun e => (e.1, go e.1 e.2)) } }

/-- New shaper values for a tenant: the credit is brought up to now, and the values that act until the end of this dp-cycle
are kept beside the new ones (R310). -/
def reshape (s : State) (tid : Nat) (change : State → State) : State :=
  let s := settleShape s tid
  let (r, b) := shapeOf s tid
  let s := change s
  { s with tm := { s.tm with shape := mset s.tm.shape tid (cycStart s (cyc s + 1), r, b) } }

/-- The dictionary wrote one of a tenant's two shaper values (0 rate, 1 burst) in this dp-cycle. -/
def shapeWritten (s : State) (tid i : Nat) : Bool :=
  match mfind s.tm.shapeWr (2 * tid + i) with | some t => sameCycle s t | none => false

/-- The calendar sets a tenant's values in force; the stored ones stay, and so does a value that the dictionary wrote in the
same dp-cycle (R311). -/
def setShape (s : State) (e : CalEntry) : State :=
  let rate := if shapeWritten s e.tid 0 then ten s e.tid 0x11 else e.rate
  let burst := if shapeWritten s e.tid 1 then ten s e.tid 0x12 else e.burst
  reshape s e.tid (fun s => putObj (putObj s (0x3000 + e.tid) 0x11 rate) (0x3000 + e.tid) 0x12 burst)

def calPeriod (s : State) : Nat := max 1 (obj s 0x5821 1)

/-- The FT at which the next entry fires. -/
def calDue (s : State) : Option (Nat × CalEntry) :=
  let start := s.tm.calFt / calPeriod s * calPeriod s
  match s.tm.calendar[s.tm.calNext]? with
  | some e => some (start + e.offset, e)
  | none => (s.tm.calendar.head?).map (fun e => (start + calPeriod s + e.offset, e))

/-- The next entry fires: values, CalFired, and the place in the table. -/
def calFire (s : State) (at_ : Nat) (e : CalEntry) : State :=
  let nxt := if s.tm.calNext < s.tm.calendar.length then s.tm.calNext + 1 else 1
  let s := bump (setShape s e) 0x5821 4
  { s with tm := { s.tm with calFt := at_, calNext := nxt } }

/-- The calendar stands at an FT with everything up to it taken as fired. -/
def calSync (s : State) : State :=
  let t := ft s
  let n := (s.tm.calendar.filter (fun e => decide (e.offset ≤ t % calPeriod s))).length
  { s with tm := { s.tm with calFt := t, calNext := n } }

/-- Entries that an FT stepped forward has passed fire in order. -/
def calPassed (s : State) : Nat → State
  | 0 => s
  | n + 1 =>
    if obj s 0x5821 2 = 0 then s
    else match calDue s with
      | none => s
      | some (at_, e) => if at_ ≤ ft s then calPassed (calFire s at_ e) n else s

/-- After FT was stepped from `old`: forward, the entries passed fire; back, nothing fires again until FT passes an
entry (R311). -/
def calStepped (s : State) (old : Nat) : State :=
  if ft s < old then calSync s
  else calPassed s (s.tm.calendar.length * ((ft s - old) / calPeriod s + 2))

/-- The next entry of the calendar fires when FT reaches it. -/
def execCalendarEntry (s : State) : Res :=
  if !started s || obj s 0x5821 2 = 0 then .next s
  else match calDue s with
    | none => .next s
    | some (at_, e) => .next (calFire (advanceToFt s at_) at_ e)

end Sys2Proof.Machine
end

