-- ==== Sys2Proof/Machine/Time.lean ====
section
/-! DEFINITION. Fabric time: its sources, measurements, steps and slews, and the loss of a source (R342 to R347). -/

namespace Sys2Proof.Machine

/-- FtState (R343). -/
def ftAcquiring : Nat := 1
def ftLocked : Nat := 2
def ftHoldover : Nat := 3
def ftLost : Nat := 4

def modTime (s : State) (f : TimeSt → TimeSt) : State := { s with time := f s.time }

/-- The scheduler's tick of a µs is past in every cluster: the next is that of the next µs (R222). -/
def tickFrom (s : State) (us : Nat) : State :=
  (List.range (clusters s)).foldl (fun s c => modCluster s c (fun y => { y with lastTick := us })) s

/-- FT steps by an amount in ns, in one tick (R346); the slots that it passes wake at the next tick of the scheduler (R222). -/
def stepFt (s : State) (d : Int) : State :=
  let old := ft s
  let s := modTime s (fun t => { t with ftOrigin := t.ftOrigin + d * 90, slewLeft := 0 })
  let s := tickFrom s (ft s / 1000)
  let s := putObj (bump s 0x6800 8) 0x6800 9 (ofInt 64 d)
  calStepped (cairn s 9 1 1 (toLE 8 (ofInt 64 d))) old

/-- A valid measurement: it steps or slews FT and moves FtState (R343, R346). DEDUCED, log entry 54. -/
def measure (s : State) (offset : Int) : State :=
  let s := putObj s 0x6800 7 (ofInt 64 offset)
  let s := if (obj s 0x6800 3 : Int) ≤ offset.natAbs || s.time.firstSinceLost then stepFt s (-offset)
    else modTime { s with free := s.free + 1 } (fun t => { t with slewLeft := -offset * 90 })
  let run := if offset.natAbs ≤ 100 then s.time.goodRun + 1 else 0
  modTime s (fun t => { t with
    rate := 0, goodRun := run, state := if 4 ≤ run then ftLocked else ftAcquiring, firstSinceLost := false,
    lastMeas := some t.now, holdoverAt := none })

/-- FtState becomes LOST: the next measurement is the first since. -/
def loseTime (s : State) : State :=
  modTime s (fun t => { t with state := ftLost, goodRun := 0, firstSinceLost := true, holdoverAt := none })

/-- A write to TimeSource enters LOST, or FREERUN for 0 (R343); the PTP slave starts afresh. -/
def timeSourceSet (s : State) (v : Nat) : State :=
  let s := modTime (loseTime s) (fun t => { t with tod := none, lastMeas := none, ptp := {} })
  if v = 0 then modTime s (fun t => { t with state := 0 }) else s

/-! ### PPS and TOD (R344) -/

def hexDigit (n : Nat) : Nat := if n < 10 then 48 + n else 55 + n

/-- The XOR of the bytes between the dollar sign and the asterisk. -/
def todSum (bs : List Byte) : Nat := (((bs.drop 1).take 20).foldl (fun a b => a ^^^ b) 0).toNat

/-- The value of decimal digits, none where one is no digit. -/
def decimal (bs : List Byte) : Option Nat :=
  bs.foldl (fun a b => match a with
    | none => none
    | some n => if 48 ≤ b.toNat && b.toNat ≤ 57 then some (n * 10 + (b.toNat - 48)) else none) (some 0)

/-- The seconds of a sentence that is whole, whose checksum holds and whose Q is 0 or 1. -/
def todValid (bs : List Byte) : Option Nat :=
  let sum := todSum bs
  let lead := ([0x24, 0x53, 0x58, 0x54, 0x4F, 0x44, 0x2C] : List Byte)
  let q := lget bs 20 0
  if bs.length = 26 && bs.take 7 == lead && lget bs 19 0 == 0x2C && (q == 0x30 || q == 0x31) && lget bs 21 0 == 0x2A
      && (lget bs 22 0).toNat == hexDigit (sum / 16) && (lget bs 23 0).toNat == hexDigit (sum % 16)
      && lget bs 24 0 == 0x0D && lget bs 25 0 == 0x0A
  then decimal ((bs.drop 7).take 12) else none

/-- A sentence that no edge has followed within 900 ms has bad timing (R344). -/
def todUnused (s : State) : State :=
  if s.time.tod.any (fun e => decide (e.2 + msU 900 < s.time.now)) then bump s 0x6800 0x0A else s

/-- A sentence ends now; it takes the place of one that no edge has followed. DEDUCED, log entry 108. -/
def execTodSentence (bytes : List Byte) (s : State) : Res :=
  if !started s || obj s 0x6800 1 != 1 then .next s
  else
    let s := todUnused s
    match todValid bytes with
    | some v => .next (modTime s (fun t => { t with tod := some (v, t.now) }))
    | none => .next (modTime (bump s 0x6800 0x0A) (fun t => { t with tod := none }))

/-! ### Loss of the source (R347) -/

/-- The instant at which the source counts as lost: PPS after 1.5 s without a valid measurement, PTP by its timeouts (R344,
R345). -/
def lossDue (s : State) : Option Nat :=
  match obj s 0x6800 1 with
  | 1 => s.time.lastMeas.map (· + msU 1500)
  | 2 => ptpLossDue s
  | _ => none

/-- The rate above nominal at which discipline has left FT, in parts of 10^9: within the 100 ppm of R346. DESIGN CHOICE, log
entry 107. -/
def disciplined (s : State) : Int := (Config.freeNat s.free % 200001 : Nat) - 100000

/-- The source is lost at an instant: HOLDOVER from LOCKED, where FT goes on at its last disciplined rate, LOST from
ACQUIRING. -/
def sourceLost (s : State) (at_ : Nat) : State :=
  if s.time.state = ftLocked then
    let s := modTime (draw s) (fun t => { t with state := ftHoldover, holdoverAt := some at_, rate := disciplined s, slewLeft := 0 })
    cairn (bump s 0x6800 0x0B) 9 2 1 (toLE 8 (obj s 0x6800 7))
  else if s.time.state = ftAcquiring then loseTime s
  else s

/-- The instant at which HOLDOVER ends. -/
def holdoverDue (s : State) : Option Nat :=
  if s.time.state = ftHoldover then s.time.holdoverAt.map (· + msU (obj s 0x6800 4)) else none

/-- The source is lost where its timeout has passed. -/
def loseOverdue (s : State) : State :=
  match lossDue s with
  | some t => if t ≤ s.time.now then sourceLost s t else s
  | none => s

/-- HOLDOVER ends where HoldoverLimit has passed. -/
def limitHoldover (s : State) : State :=
  match holdoverDue s with
  | some t => if t ≤ s.time.now then loseTime s else s
  | none => s

/-- What the clock has brought due before FtState is asked for or a measurement is taken: the loss of the source, and the end
of HOLDOVER (R343, R347). DEDUCED, log entry 2. -/
def settleTime (s : State) : State := if !started s then s else limitHoldover (loseOverdue s)

/-- The source is lost: by its timeout, or, where none runs, as the command says. -/
def execTimeSourceLost (s : State) : Res :=
  if !started s || obj s 0x6800 1 = 0 then .next s
  else match lossDue s with
    | some t => .next (sourceLost (advanceTo s t) (max s.time.now t))
    | none => .next (sourceLost s s.time.now)

/-- HoldoverLimit passes in HOLDOVER. -/
def execHoldoverExpiry (s : State) : Res := running s <|
  match holdoverDue s with
  | none => .next s
  | some t => .next (loseTime (advanceTo s t))

end Sys2Proof.Machine
end

