-- ==== Sys2Proof/Machine/Plan.lean ====
section
/-! DEFINITION. The plan image: its validation and what each section sets (R311, R312, R351 to R353). -/

namespace Sys2Proof.Machine

/-! ### Reading the image -/

structure Sect where
  typ : Nat
  at_ : Nat
  len : Nat
  deriving DecidableEq, Repr

def imAt (x : Image) (a n : Nat) : Nat := ofLE (rdN x.data a n)

/-- The body length a section type allows (R352); of a type that does not exist, any (R351). -/
def sectLen (typ len : Nat) : Bool :=
  match typ with
  | 1 => len == 24
  | 2 => len == 112
  | 3 => len == 2048
  | 4 => len == 8
  | 5 => len == 384
  | 6 => decide (8 ≤ len) && (len - 8) % 16 == 0 && decide (len ≤ 8 + 16 * 4096)
  | 7 => len % 32 == 0 && decide (len ≤ 32 * 16384)
  | _ => len % 8 == 0

/-- The sections from an offset on, by their lengths; or the offset of the first byte that is wrong. -/
def sections (x : Image) : Nat → Nat → Except Nat (List Sect)
  | 0, p => if p = x.len then .ok [] else .error p
  | n + 1, p =>
    if x.len < p + 8 then .error p
    else
      let t := imAt x p 2
      let l := imAt x (p + 4) 4
      if !sectLen t l || x.len < p + 8 + l then .error (p + 4)
      else match sections x n (p + 8 + l) with
        | .ok r => .ok ({ typ := t, at_ := p + 8, len := l } :: r)
        | .error e => .error e

/-- The first section of an unknown type, or of one that has stood before (R352). -/
def badType : List Nat → List Sect → Option Nat
  | _, [] => none
  | seen, c :: l => if c.typ = 0 || 7 < c.typ || seen.contains c.typ then some (c.at_ - 8) else badType (c.typ :: seen) l

/-- The first offset at which an entry's key of `w` bytes falls below that of the entry before it. -/
def unsorted (x : Image) (a step w : Nat) (n : Nat) : Option Nat :=
  ((List.range (n - 1)).map (fun i => a + (i + 1) * step)).find? (fun p => decide (imAt x p w < imAt x (p - step) w))

/-- The first entry of a section that is out of order (R311, R348). -/
def badOrder (x : Image) (c : Sect) : Option Nat :=
  match c.typ with
  | 6 => unsorted x (c.at_ + 8) 16 6 ((c.len - 8) / 16)
  | 7 => unsorted x c.at_ 32 8 (c.len / 32)
  | _ => none

/-- The first value of a section outside the range of its object (R353). -/
def badValue (x : Image) (c : Sect) : Option Nat :=
  let a := c.at_
  match c.typ with
  | 2 => if imAt x a 8 < 8 || 16 < imAt x a 8 then some a
    else ((List.range 4).map (fun i => a + 32 + 8 * i)).find? (fun p => decide (2 ^ 32 ≤ imAt x p 8))
  | 4 => if 1024 < imAt x a 2 then some a else none
  | 5 => ((List.range 8).map (fun i => a + 48 * i + 1)).find? (fun p => decide (15 < imAt x p 1))
  | 6 => if imAt x a 8 < 1000000 || 2 ^ 48 ≤ imAt x a 8 then some a
    else ((List.range ((c.len - 8) / 16)).map (fun i => a + 8 + 16 * i)).find? (fun p => decide (imAt x a 8 ≤ imAt x p 6))
  | 7 => ((List.range (c.len / 32)).map (fun i => a + 32 * i + 8)).find? (fun p =>
      imAt x p 1 == 0 || decide (4 < imAt x p 1))
  | _ => none

/-- The image's CRC, its own field taken as 0. -/
def planCrc (x : Image) : Nat :=
  let bs := rdN x.data 0 x.len
  crc32c (bs.take 12 ++ (if 12 < x.len then List.replicate (min 4 (x.len - 12)) 0 else []) ++ bs.drop 16)

/-- The first value outside its range: of the header, then of each section. -/
def badValues (x : Image) (l : List Sect) : Option Nat :=
  if imAt x 6 2 = 0 || 7 < imAt x 6 2 then some 6
  else if imAt x 16 4 = 0 then some 16
  else l.findSome? (badValue x)

/-- The image as a whole: magic, format, CRC, lengths, section types, sorting and values, in this order (R353). DEDUCED, log
entry 57. -/
def validPlan (x : Image) : Except Nat (List Sect) :=
  if imAt x 0 4 != 0x4C504B53 then .error 0
  else if imAt x 4 2 != 1 then .error 4
  else if imAt x 12 4 != planCrc x then .error 12
  else if imAt x 8 4 != x.len || x.len < 64 then .error 8
  else match sections x (imAt x 6 2) 64 with
    | .error e => .error e
    | .ok l => match (badType [] l).or ((l.findSome? (badOrder x)).or (badValues x l)) with
      | some e => .error e
      | none => .ok l

/-! ### Applying -/

/-- A stored value, by object. -/
def putStored (s : State) (idx sub v : Nat) : State := { s with stored := mset s.stored (key idx sub) v }

/-- HBM_LAYOUT goes among the stored values: those of objects to their objects, the others by themselves (R353).
DEDUCED, log entry 58. -/
def storeLayout (s : State) (x : Image) (a : Nat) : State :=
  let v (i : Nat) : Nat := imAt x (a + 8 * i) 8
  let s := (List.range 8).foldl (fun s i => putStored s 0x5000 (i + 1) (v i)) s
  putStored s 0x5801 1 (v 13)

/-- A section is stored, in the parameter area (R375, R419). -/
def storeSection (s : State) (x : Image) (c : Sect) : State :=
  paramAppend { s with dict := { s.dict with
    storedPlan := (c.typ, rdN x.data c.at_ c.len) :: s.dict.storedPlan.filter (fun e => e.1 != c.typ) } } (planEntry c.typ)

/-- A profile of WRED: MinTh, MaxTh, MaxP. -/
def applyWred (s : State) (x : Image) (a cls : Nat) : State :=
  let i := 0x5810 + cls
  let s := putObj (putObj s i 1 (fieldsOf i 1 (imAt x a 1))) i 2 (imAt x (a + 1) 1)
  (List.range 3).foldl (fun s j =>
    let p := a + 4 + 12 * j
    putObj (putObj (putObj s i (3 + 3 * j) (imAt x p 4)) i (4 + 3 * j) (imAt x (p + 4) 4)) i (5 + 3 * j) (imAt x (p + 8) 1)) s

/-- The entry a tenant's values stand at for a phase: its last at or before it, wrapping (R312). -/
def calCurrent (l : List CalEntry) (phase tid : Nat) : Option CalEntry :=
  let mine := l.filter (fun e => e.tid == tid)
  match (mine.filter (fun e => decide (e.offset ≤ phase))).getLast? with
  | some e => some e
  | none => mine.getLast?

/-- A calendar is loaded: with CalEnable 1 each tenant takes the values of its entry (R312). -/
def loadCalendar (s : State) (l : List CalEntry) : State :=
  let s := calSync { s with tm := { s.tm with calendar := l } }
  if obj s 0x5821 2 = 0 then s
  else (l.map (·.tid)).eraseDups.foldl (fun s t =>
    match calCurrent l (ft s % calPeriod s) t with | some e => setShape s e | none => s) s

def calEntryAt (x : Image) (p : Nat) : CalEntry :=
  { offset := imAt x p 6, tid := imAt x (p + 6) 2 % 4096, rate := imAt x (p + 8) 4, burst := imAt x (p + 12) 4 }

def eventAt (x : Image) (p : Nat) : ItinEvent :=
  { ft := imAt x p 8, typ := imAt x (p + 8) 1, gated := bit (imAt x (p + 9) 1) 0, arg0 := imAt x (p + 12) 4,
    arg1 := imAt x (p + 16) 8 }

/-- An ITINERARY replaces the whole Itinerary; events that are past are discarded and counted (R353). -/
def loadItinerary (s : State) (l : List ItinEvent) : State :=
  let live := l.filter (fun e => decide (ft s < e.ft))
  bumpBy { s with plan := { events := live, next := 0 } } 0x6801 4 (l.length - live.length)

/-- What a section sets. -/
def applySection (s : State) (x : Image) (c : Sect) : State :=
  let a := c.at_
  match c.typ with
  | 1 => storeSection s x c
  | 2 => storeLayout (storeSection s x c) x a
  | 3 =>
    let lanes := (List.range 4096).map (fun i => (i, imAt x (a + i / 2) 1 / 16 ^ (i % 2) % 16))
    { s with pit := { s.pit with clusterMap := lanes } }
  | 4 => putObj s 0x4000 1 (imAt x a 2)
  | 5 => (List.range 8).foldl (fun s i => applyWred s x (a + 48 * i) i) s
  | 6 =>
    let s := putObj s 0x5821 1 (imAt x a 8)
    loadCalendar s ((List.range ((c.len - 8) / 16)).map (fun i => calEntryAt x (a + 8 + 16 * i)))
  | _ => loadItinerary s ((List.range (c.len / 32)).map (fun i => eventAt x (a + 32 * i)))

/-- A write of 1 to PlanApply: INVALID with the offset of the first failure, or every section is applied (R353). -/
def planGo (s : State) : Ack :=
  if obj s 0x6810 3 = 0xFF then (s, abState, 0)
  else match closedImage s (key 0x6810 1) with
    | none => (s, abState, 0)
    | some x => match validPlan x with
      | .error e => ackOk (putObj (putObj s 0x6810 3 1) 0x6810 4 e)
      | .ok l =>
        let s := l.foldl (fun s c => applySection s x c) s
        ackOk (putObj (putObj (putObj s 0x6810 3 0) 0x6810 5 (imAt x 16 4)) 0x6810 6 (ft s))

end Sys2Proof.Machine
end

