-- ==== Sys2Proof/Machine/Hbm.lean ====
section
/-! DEFINITION. The HBM controllers: activations and their limits, refresh, ECC outcomes, training, self-refresh, the
in-service test and the rebuild of copies (R325 to R337). -/

namespace Sys2Proof.Machine

/-- Accesses reach the stack. -/
def stackServes (s : State) (stk : Nat) : Bool :=
  let x := (stackOf s stk).state
  on s && decide (stk < nStacks s.sys) && (x == 2 || x == 3 || x == 6)

/-! ### Reads and their outcome (R330) -/

/-- The retired-row list of a stack, 16 rows to a pseudo-channel, can take a row that it does not hold. -/
def retires (s : State) (pc bank row : Nat) : Bool :=
  let l := (stackOf s (pc / 32)).retired
  decide ((l.filter (fun e => e.1 == pc)).length < 16) && !l.contains (pc, bank, row)

/-- A row enters the retired-row list of its stack, in the parameter area (R375, R419). DEDUCED, log entry 52. -/
def retireRow (s : State) (pc bank row : Nat) : State :=
  let x := stackOf s (pc / 32)
  if retires s pc bank row then
    paramAppend (setStack s (pc / 32) { x with retired := x.retired ++ [(pc, bank, row)] }) (stackEntry (pc / 32))
  else s

/-- Every line of a row is marked MEDIA. -/
def markRow (s : State) (pc bank row : Nat) : State :=
  { s with hbm := { s.hbm with media := (rowLines s pc bank row).foldl (fun m a => insertNat (a / 64) m) s.hbm.media } }

def rowData (pc bank row : Nat) : List Byte := toLE 1 (pc / 32) ++ toLE 1 (pc % 32) ++ toLE 1 bank ++ toLE 2 row

/-- How a read of a line ends. A corrected line is written back; no write to it is queued, since a write is performed when
it is accepted. -/
def readOutcome (s : State) (cls : ReqClass) (pc bank row addr : Nat) (o : HbmOutcome) : State :=
  let l := addr / 64
  let s := bumpBy s (0x5010 + pc / 32) 6 64
  match o with
  | .good => s
  | .corrected => hbmWrite (bump s 0x5000 0x0D) cls (64 * l) (hbmRead s (64 * l) 64)
  | .transient => bump s 0x5000 0x0E
  | .lasting =>
    let s := retireRow (bump s 0x5000 0x0F) pc bank row
    cairn { s with hbm := { s.hbm with media := insertNat l s.hbm.media } } 8 1 3 (rowData pc bank row)

/-- The instant from which a bank takes an access: its refresh keeps it busy until then (R325). -/
def bankFrom (s : State) (pc bank : Nat) : Nat := mget (pchOf s pc).busy bank 0

/-- An HBM read of a line returns. -/
def execHbmReadDone (addr : Nat) (cls : ReqClass) (o : HbmOutcome) (s : State) : Res :=
  let (pc, bank, row) := hbmPlace s addr
  if hbmSize s.sys ≤ addr || !stackServes s (pc / 32) || s.hbm.media.contains (addr / 64) then .next s
  else match activate (advanceTo s (bankFrom s pc bank)) pc bank row cls addr (some o) with
    | (s, false) => .next s
    | (s, true) => .next (readOutcome s cls pc bank row addr o)

/-! ### Refresh (R325, R327) -/

/-- The rows of a bank that this window has refreshed (R325). -/
def rowsDone (s : State) (pc bank : Nat) : Nat :=
  mget (pchOf s pc).refresh bank 0 + 8 * (stackOf s (pc / 32)).allBank

/-- A pseudo-channel's refresh of a bank can start: no bank of its bank group is busy, so at most 4 are (R325). -/
def groupFrom (s : State) (pc bank : Nat) : Nat :=
  (((pchOf s pc).busy.filter (fun e => decide (e.1 / 4 % 4 = bank / 4 % 4))).map (·.2)).foldl max 0

/-- A refresh of 8 rows keeps its bank busy for 260 ns and closes its row. It belongs to the window's pass or, where that
has reached every row of the bank and a sweep runs, to the sweep's extra pass (R325, R329). -/
def refreshBank (s : State) (pc bank : Nat) (extra : Bool) : State :=
  let p := pchOf s pc
  let more (m : Map Nat) : Map Nat := mset m bank (mget m bank 0 + 8)
  setPch s pc { p with
    openRow := merase p.openRow bank
    refresh := if extra then p.refresh else more p.refresh
    extra := if extra then more p.extra else p.extra
    busy := mset (p.busy.filter (fun e => decide (s.time.now < e.2))) bank (s.time.now + nsU 260) }

/-- The window of a stack follows its temperature (R325). -/
def setWindow (s : State) (stk : Nat) : State :=
  let x := stackOf s stk
  setStack s stk { x with window := if x.temp ≤ 85 then 32 else 16 }

/-- A per-bank refresh. Once every row of the bank has had its refreshes of this window, none is left to issue. -/
def execHbmRefresh (pch bank : Nat) (s : State) : Res :=
  let extra := decide (24576 ≤ rowsDone s pch bank)
  if !stackServes s (pch / 32) || 48 ≤ bank then .next s
  else if extra && (s.hbm.sweepEnd.isNone || decide (24576 ≤ mget (pchOf s pch).extra bank 0)) then .next s
  else .next (setWindow (refreshBank (advanceTo s (groupFrom s pch bank)) pch bank extra) (pch / 32))

def clsOf : Nat → ReqClass
  | 0 => .core
  | 1 => .table
  | 2 => .spill
  | _ => .sys

/-- A deferred access goes on in the new window, and its read ends as it would have. DEDUCED, log entry 51. -/
def resumeDeferred (s : State) (pc : Nat) (e : Deferred) : State :=
  let bank := e.row / 24576
  let row := e.row % 24576
  match activate s pc bank row (clsOf e.cls) e.addr e.read, e.read with
  | (s, true), some o => readOutcome s (clsOf e.cls) pc bank row e.addr o
  | (s, _), _ => s

/-- A pseudo-channel starts a window: the refreshes that the old one still owed have closed the rows of their banks (R325;
DEDUCED, log entry 51), its counts are 0, every row is due a refresh, and what waited goes on. -/
def windowPch (s : State) (pc : Nat) : State :=
  let p := pchOf s pc
  let open_ := p.openRow.filter (fun e => decide (24576 ≤ rowsDone s pc e.1))
  let s := if p.tracker.isEmpty && p.refresh.isEmpty && p.deferred.isEmpty && p.openRow.isEmpty then s
    else setPch s pc { p with tracker := [], refresh := [], deferred := [], openRow := open_ }
  p.deferred.foldl (fun s e => resumeDeferred s pc e) s

/-- A new refresh window of a stack starts; its channels' counting tables start at 0 too. -/
def newWindow (s : State) (stack : Nat) : State :=
  let x := stackOf s stack
  let s := advanceTo s (x.windowAt + msU x.window)
  let s := { s with hbm := { s.hbm with chan := s.hbm.chan.filter (fun e => e.1 / 16 != stack) } }
  let s := (List.range 32).foldl (fun s i => windowPch s (32 * stack + i)) s
  setStack s stack { stackOf s stack with windowAt := s.time.now, allBank := 0 }

def execRefreshWindowStart (stack : Nat) (s : State) : Res :=
  if !stackServes s stack then .next s else .next (newWindow s stack)

/-- Accesses of a stack wait for the next window. -/
def waitsWindow (s : State) (stack : Nat) : Bool :=
  s.hbm.pch.any (fun e => e.1 / 32 == stack && !e.2.deferred.isEmpty)

/-- Queued reads complete before a stack enters self-refresh: those that wait for a window do so in the next ones (R327,
R333). -/
def drainWaits (s : State) (stack : Nat) : Nat → State
  | 0 => s
  | n + 1 => if waitsWindow s stack then drainWaits (newWindow s stack) stack n else s

/-- Trace records that have waited for a stack go to the ring (R225). -/
def traceFlush (s : State) : State := (List.range (clusters s)).foldl (fun s c => traceDrain s c 64) s

/-! ### The neighbour-refresh sweep (R329) -/

/-- The sweep ends. Its extra pass has refreshed every row, and so closed every bank. -/
def nrsEnd (s : State) : State :=
  let s := bump32 (putObj (stir s) 0x5021 2 0) 0x5021 3
  { s with hbm := { s.hbm with
    sweepEnd := none, pch := s.hbm.pch.map (fun e => (e.1, { e.2 with openRow := [], extra := [] })) } }

/-- A write of 1 to NrsGo, after the end of a sweep that ends in this dp-cycle. -/
def nrsGo (s : State) : Ack :=
  let s := if s.hbm.sweepEnd.isSome && !maintRuns s 3 then nrsEnd s else s
  if s.hbm.sweepEnd.isSome && serviceState s == 1 then (s, abState, 0)
  else match maintStart s 3 (obj s 0x4820 1) with
    | (s, some code) => (putObj s 0x5021 2 2, abMaint, code)
    | (s, none) =>
      ackOk { putObj s 0x5021 2 1 with hbm := { s.hbm with sweepEnd := some (s.time.now + msU 32) } }

/-- One refresh window of 32 ms has passed since the sweep started. -/
def execNrsSweepEnd (s : State) : Res := live s <|
  match s.hbm.sweepEnd with
  | none => .next s
  | some t => .next (nrsEnd (advanceTo s t))

/-! ### Self-refresh (R333, R334) -/

/-- A stack precharges its banks, performs one all-bank refresh and is in self-refresh (R325, R333). An all-bank refresh
counts 8 rows of each bank: DEDUCED, log entry 51. -/
def closeStack (s : State) (stk : Nat) : State :=
  let x := stackOf s stk
  let s := setStack s stk { x with state := 4, pendingSr := false, allBank := x.allBank + 1 }
  { s with hbm := { s.hbm with pch := s.hbm.pch.map (fun e =>
    if e.1 / 32 = stk then (e.1, { e.2 with openRow := [] }) else e) } }

/-! ### In-service test and rebuild (R335 to R337) -/

/-- A write of 1 to TestGo. -/
def hbmTestGo (s : State) : Ack :=
  let k := obj s 0x5020 1
  let mate := 2 * (1 - k / 2)
  if absent s then
    let (s, code) := maintStart s 2 (obj s 0x4820 1)
    (putObj s 0x5020 3 4, abMaint, code.getD 1)
  else if serviceState s == 1 && ((stackOf s mate).state != 2 || (stackOf s (mate + 1)).state != 2 || s.hbm.test.isSome || s.hbm.rebuild.isSome)
  then (putObj s 0x5020 3 2, abState, 0)
  else match maintStart s 2 (obj s 0x4820 1) with
    | (s, some code) => (putObj s 0x5020 3 3, abMaint, code)
    | (s, none) =>
      let s := setStack (putObj s 0x5020 3 0xFF) k { stackOf s k with state := 3 }
      ackOk { s with hbm := { s.hbm with test := some k, testFrom := s.time.now } }

/-- A row that failed a pattern: it passed when tested once more, or it is retired, which makes the test FAIL, or,
where its list is full, its lines are marked MEDIA; either way it is counted (R330, R336, R396). DEDUCED, log entry 52. -/
def testedRow (s : State) (stk : Nat) (t : RowTest) : State :=
  let pc := 32 * stk + t.pch % 32
  if t.again then
    let s := if (stackOf s stk).retired.contains (pc, t.bank, t.row) then s
      else if retires s pc t.bank t.row then bump32 (putObj (retireRow s pc t.bank t.row) 0x5020 3 1) 0x5020 4
      else bump32 (markRow s pc t.bank t.row) 0x5020 4
    cairn s 8 1 3 (rowData pc t.bank t.row)
  else bump s 0x5000 0x0E

/-- The test ends after 1 µs for each of the 1,179,648 rows: PASS or FAIL, the fence lifts and the copies of its pair are
rebuilt. -/
def execHbmTestDone (rows : List RowTest) (s : State) : Res := live s <|
  match s.hbm.test with
  | none => .next s
  | some k =>
    let s := putObj (advanceTo s (s.hbm.testFrom + msU 1179 + usU 648)) 0x5020 3 0
    let s := rows.foldl (fun s t => testedRow s k t) s
    let s := setStack s k { stackOf s k with state := 6 }
    .next { s with hbm := { s.hbm with test := none, rebuild := some (k / 2) } }

/-- Copy `len` bytes of HBM from `src` to `dst`, MEDIA marks included. -/
def copyHbm (s : State) (src dst len : Nat) : State :=
  let from_ := s.hbm.mem.filter (fun c => decide (src ≤ c.1) && decide (c.1 < src + len))
  let kept := s.hbm.mem.filter (fun c => !(decide (dst ≤ c.1) && decide (c.1 < dst + len)))
  let mem := from_.foldl (fun m c => wr8 m (dst + (c.1 - src)) c.2) kept
  let marks := s.hbm.media.filter (fun l => decide (src / 64 ≤ l) && decide (l < (src + len) / 64))
  let clean := s.hbm.media.filter (fun l => !(decide (dst / 64 ≤ l) && decide (l < (dst + len) / 64)))
  let media := marks.foldl (fun m l => insertNat (dst / 64 + (l - src / 64)) m) clean
  { s with hbm := { s.hbm with mem := mem, media := media } }

/-- The last byte of the rebuilt copies is written: map and rule table of the other pair. -/
def execRebuildDone (s : State) : Res := live s <|
  match s.hbm.rebuild with
  | none => .next s
  | some p =>
    let h := s.hbm
    let s := if p = 0 then copyHbm (copyHbm s h.mapBaseB h.mapBaseA (2 ^ 31)) h.ruleBaseB h.ruleBaseA (2 ^ 28)
      else copyHbm (copyHbm s h.mapBaseA h.mapBaseB (2 ^ 31)) h.ruleBaseA h.ruleBaseB (2 ^ 28)
    let half := (2 ^ 31 + 2 ^ 28) / 2
    let s := [0, 1].foldl (fun s i => bumpBy (bumpBy s (0x5010 + 2 * (1 - p) + i) 6 half) (0x5010 + 2 * p + i) 7 half) s
    let s := [2 * p, 2 * p + 1].foldl (fun s k =>
      if (stackOf s k).state = 6 then setStack s k { stackOf s k with state := 2 } else s) s
    .next (traceFlush (stir { s with hbm := { s.hbm with rebuild := none } }))

/-! ### Training (R332) -/

/-- The bytes of a stack are written with zeros, which ends its training (R332, step 6). -/
def zeroStack (s : State) (stk : Nat) : State :=
  let other (a : Nat) : Bool := (hbmPlace s a).1 / 32 != stk
  { s with hbm := { s.hbm with mem := s.hbm.mem.filter (fun c => other c.1), media := s.hbm.media.filter (fun l => other (64 * l)) } }

/-- The list of retired rows is cleared, in the parameter area where it held any (R330, R419). -/
def clearRetired (s : State) (stk : Nat) : State :=
  let x := stackOf s stk
  if x.retired.isEmpty then s else paramAppend (setStack s stk { x with retired := [] }) (stackEntry stk)

/-- A training attempt of a stack ends, its zero write with it. Post-package repair clears the list of retired rows. -/
def execHbmTrainingDone (stack : Nat) (ok : Bool) (s : State) : Res :=
  let x := stackOf s stack
  if s.sys.phase != .starting || !started s || nStacks s.sys ≤ stack || x.state != 1 then .next s
  else if ok then
    let s := clearRetired (zeroStack s stack) stack
    .next (traceFlush (setStack s stack { stackOf s stack with state := 2, windowAt := s.time.now }))
  else
    let s := bump32 s (0x5010 + stack) 5
    if x.tried then .next (cairn (setStack s stack { x with state := 5 }) 8 2 3 (toLE 1 stack))
    else .next (setStack s stack { x with tried := true })

end Sys2Proof.Machine
end

