-- ==== Sys2Proof/Machine/Power.lean ====
section
/-! DEFINITION. The power manager: profiles and the power cap, rail and frequency commands, Doze, Bivouac, the Basecamp
state and the sideband target (R380 to R393, R422). -/

namespace Sys2Proof.Machine

/-! ### Profiles (R381) -/

def profileOf (mv : Nat) : Nat := if 30000 ≤ mv then 0 else if 20000 ≤ mv then 1 else if 11500 ≤ mv then 2 else 3

/-- The lowest VIN of a profile's band, in mV. -/
def bandLow (p : Nat) : Nat := lget [30000, 20000, 11500, 9000] p 9000

def powerCap (s : State) : Nat := lget [1500, 1000, 590, 450] s.pwr.profile 450

/-- The profile's highest frequency step. -/
def maxStep (p : Nat) : Nat := 3 - p

/-- Vmin of a frequency step in mV (R383). -/
def vmin (f : Nat) : Nat := lget [620, 680, 760, 840] f 840

def modPwr (s : State) (f : PwrSt → PwrSt) : State := { s with pwr := f s.pwr }

/-! ### Rail and frequency commands (R383 to R386) -/

/-- The rail's instantaneous voltage in 1/1000 mV: it moves at 5 mV/µs while a command slews it, and holds in freeze (R423). -/
def railNow (s : State) : Nat :=
  if s.sys.frozen then s.pwr.railUv else
  let p := s.pwr
  let goal := p.target * 1000
  let d := (s.time.now - p.railAt) / 18
  match p.cmd with
  | some { stage := .slewing, .. } => if p.railUv ≤ goal then min goal (p.railUv + d) else max goal (p.railUv - d)
  | _ => p.railUv

def settleRail (s : State) : State := modPwr s (fun p => { p with railUv := railNow s, railAt := s.time.now })

/-- A command is done (R385, step 4). -/
def opDone (s : State) : State :=
  modPwr s (fun p => { p with cmd := none, opResult := if p.opResult = 1 then 0 else p.opResult })

def setStage (s : State) (c : OpCmd) (g : OpStage) : State := modPwr s (fun p => { p with cmd := some { c with stage := g } })

/-- The rail stands at its target: the hold before a rise, or the end (step 3). -/
def railThere (s : State) (c : OpCmd) : State :=
  if s.pwr.fstep < c.fstep then setStage s c (.holding (s.time.now + usU 10)) else opDone s

/-- Steps 1 and 2: the fall, or the slew from the instantaneous voltage. -/
def opBegin (s : State) (c : OpCmd) : State :=
  if c.fstep < s.pwr.fstep then setStage s c (.falling c.fstep (s.time.now + nsU 500))
  else
    let s := setStage s c .slewing
    if s.pwr.railUv = c.target * 1000 then railThere s c else s

/-- The command in progress, if there is one, is superseded and counted (R385). -/
def opSupersede (s : State) : State :=
  match s.pwr.cmd with
  | some o => bump (putObj s 0x7001 7 o.seq) 0x7001 8
  | none => s

/-- A command starts; the frequency change of one it supersedes completes first where it has started (R385). -/
def opStart (s : State) (old : Option OpCmd) (c : OpCmd) : State :=
  match old with
  | some { stage := .falling g due, .. } => setStage s c (.falling g due)
  | some { stage := .rising due, fstep := f, .. } => setStage s c (.falling f due)
  | _ => opBegin s c

/-- The frequency in force may have changed since `was`: dp-cycles are counted on from now, and what is due after a number of
dp-cycles keeps that number (R109, R129). -/
def reclock (was s : State) : State :=
  let a := dpU was
  let b := dpU s
  if a = b then s
  else
    let now := s.time.now
    let at_ (t : Nat) : Nat := if t ≤ now then t else now + (t - now) * b / a
    let due (p : KPend) : KPend := { p with due := at_ p.due }
    let n := s.time.cycBase + (now - s.time.cycAt) / a
    { s with
      time := { s.time with cycBase := n, cycAt := now }
      flights := s.flights.map (fun f => { f with due := at_ f.due })
      ropes := s.ropes.map (fun e => (e.1, { e.2 with kPend := e.2.kPend.map due }))
      clusters := s.clusters.map (fun e => (e.1, { e.2 with raises := e.2.raises.map (fun r => (r.1, at_ r.2)) })) }

/-- A command is accepted. -/
def opAccept (s : State) (seq f v : Nat) : State :=
  let t := modPwr (opSupersede (settleRail s)) (fun p => { p with target := v, opResult := 1, opSeq := seq })
  reclock s (opStart t s.pwr.cmd { seq := seq, fstep := f, target := v, stage := .slewing })

/-- The power manager commands a step at the voltage of R384, with SEQ 0. -/
def managerCmd (s : State) (f : Nat) : State := opAccept s 0 f (vmin f + obj s 0x7001 9)

/-- The step last commanded. -/
def stepAimed (s : State) : Nat := match s.pwr.cmd with | some c => c.fstep | none => s.pwr.fstep

/-- A write to OpCommand (R384). -/
def opWrite (s : State) (v : Nat) : Ack :=
  if obj s 0x7001 1 = 0 then (s, abState, 0)
  else
    let seq := bits v 31 24
    let f := bits v 17 16
    let code := bits v 6 0
    let t := 620 + 2 * code
    if 120 < code || t < vmin f || maxStep s.pwr.profile < f then
      ackOk (modPwr (bump s 0x7001 0x0A) (fun p => { p with opSeq := seq, opResult := 2 }))
    else ackOk (opAccept s seq f t)

/-- A frequency change completes 0.5 µs after it starts. DEDUCED, log entry 61. -/
def execFrequencyChangeDone (s : State) : Res := running s <|
  match s.pwr.cmd with
  | none => .next s
  | some c => match c.stage with
    | .falling g due => .next (reclock s (opBegin (settleRail (modPwr (advanceTo s due) (fun p => { p with fstep := g }))) c))
    | .rising due => .next (reclock s (opDone (modPwr (advanceTo s due) (fun p => { p with fstep := c.fstep }))))
    | _ => .next s

/-- The rail reaches its target. -/
def execRailTargetReached (s : State) : Res := running s <|
  match s.pwr.cmd with
  | none => .next s
  | some c => match c.stage with
    | .slewing =>
      let goal := c.target * 1000
      let d := if s.pwr.railUv ≤ goal then goal - s.pwr.railUv else s.pwr.railUv - goal
      let s := advanceTo s (s.pwr.railAt + 18 * d)
      .next (railThere (modPwr s (fun p => { p with railUv := goal, railAt := s.time.now })) c)
    | _ => .next s

/-- The hold of 10 µs ends and the frequency starts to rise. -/
def execRailHoldExpiry (s : State) : Res := running s <|
  match s.pwr.cmd with
  | none => .next s
  | some c => match c.stage with
    | .holding due =>
      let s := advanceTo s due
      .next (setStage s c (.rising (s.time.now + nsU 500)))
    | _ => .next s

/-! ### Measurements (R381, R382) -/

/-- The profile follows VIN: down at once, up to each higher band once VIN has stood 0.5 V above the band's lower limit for
100 ms. DEDUCED, log entry 60. -/
def followVin (s : State) (mv : Nat) : State :=
  let now := s.time.now
  let above := (List.range 3).map (fun p =>
    if bandLow p + 500 ≤ mv then some ((lget s.pwr.above p none).getD now) else none)
  let held (p : Nat) : Bool := (lget above p none).any (fun t => decide (t + msU 100 ≤ now))
  let p := s.pwr.profile
  let q := if p < profileOf mv then profileOf mv else ((List.range p).find? held).getD p
  modPwr s (fun x => { x with profile := q, above := above })

/-- The profile's command: down to its highest step in either mode, up to it in AUTO unless the cap or heat holds. -/
def profileCmd (s : State) (was : Nat) : State :=
  let top := maxStep s.pwr.profile
  if top < stepAimed s then managerCmd s top
  else if s.pwr.profile < was && obj s 0x7001 1 = 0 && !s.pwr.capHold && !s.pwr.thermHold && stepAimed s < top then
    managerCmd s top
  else s

/-- The cap: one step down each time power exceeds it; in AUTO one step up after 10 ms below 90 % of it. -/
def capStep (s : State) : State :=
  let cap := powerCap s
  let f := stepAimed s
  let now := s.time.now
  if cap < s.pwr.watts then
    let s := modPwr s (fun p => { p with belowSince := none, capHold := true })
    if f = 0 then s else managerCmd (bump s 0x7000 0x0F) (f - 1)
  else if s.pwr.watts * 10 < cap * 9 then
    let t := s.pwr.belowSince.getD now
    let top := maxStep s.pwr.profile
    if t + msU 10 ≤ now && obj s 0x7001 1 = 0 && f < top && !s.pwr.thermHold then
      let s := modPwr s (fun p => { p with belowSince := some now, capHold := decide (f + 1 < top) })
      managerCmd s (f + 1)
    else modPwr s (fun p => { p with belowSince := some t, capHold := p.capHold && decide (f < top) })
  else modPwr s (fun p => { p with belowSince := none })

/-- In AUTO the rail stands at Vmin + VMargin of the step: with neither a command in progress nor that voltage, as after
a MANUAL command or a write of VMargin, the power manager commands it (R384). DEDUCED, log entry 60. -/
def autoRail (s : State) : State :=
  if obj s 0x7001 1 = 0 ∧ s.pwr.cmd = none ∧ s.pwr.target ≠ vmin s.pwr.fstep + obj s 0x7001 9 then
    managerCmd s s.pwr.fstep
  else s

/-- Every 100 µs VIN and input power are measured. -/
def execPowerMeasurement (vinMv : Nat) (watts : Nat) (s : State) : Res :=
  if !started s then .next s
  else
    let s := advanceTo s (s.pwr.measAt + usU 100)
    let s := modPwr s (fun p => { p with vinMv := vinMv, watts := watts, measAt := s.time.now })
    let was := s.pwr.profile
    .next (autoRail (capStep (profileCmd (followVin s vinMv) was)))

/-- The current limit has held for 1 ms: 0.6 GHz at once, and a record. -/
def execCurrentLimitHeld (s : State) : Res :=
  if !started s then .next s
  else
    let s := managerCmd (modPwr s (fun p => { p with capHold := true, belowSince := none })) 0
    .next (cairn s 0x0A 1 2 (toLE 4 s.pwr.vinMv ++ toLE 4 s.pwr.watts))

/-! ### Doze (R387) -/

/-- A rope keeps its cluster awake: it is ready, waits for something other than an event or FT, or has a Crampon
result outstanding. -/
def ropeBusy (x : Rope) : Bool :=
  !x.kPend.isEmpty || (match x.st with
    | .free => false
    | .parked => false
    | .waiting (.event _ _ _) => false
    | .waiting (.time _ _ _) => false
    | _ => true)

/-- The cluster is idle. -/
def clusterIdle (s : State) (c : Nat) : Bool :=
  !s.pit.pitches.any (fun e => e.2.cluster == c && (e.2.place == .queued || e.2.place == .running))
    && !(cluster s c).slots.any (fun e => e.2.state == .ready || e.2.state == .run)
    && !s.ropes.any (fun e => e.1 / 128 == c && ropeBusy e.2)
    && (cluster s c).sysQ.isEmpty && (cluster s c).lockQ.isEmpty && (cluster s c).taskQ.isEmpty

/-- The instant from which an idle cluster has been idle, as its cores note it. -/
def idleFrom (s : State) (c : Nat) : Nat := ((List.range 16).map (fun i => (core s (c * 16 + i)).busyAt)).foldl max 0

/-- After DozeIdle of continuous idleness a cluster enters Doze (R387). DEDUCED, log entry 104. -/
def execDozeEntry (c : BitVec 4) (s : State) : Res :=
  let c := c.toNat
  if !on s || clusters s ≤ c || obj s 0x7000 6 = 0 || (cluster s c).doze || !clusterIdle s c then .next s
  else
    let s := advanceTo s (idleFrom s c + usU (obj s 0x7000 6))
    let s := (List.range 16).foldl (fun s i => modCore s (c * 16 + i) (fun x => { x with roused := false })) s
    .next (stir (bump (modCluster s c (fun x => { x with doze := true })) 0x7000 0x0C))

/-- What wakes a cluster has come since it entered Doze: work, a system-port access, or an event or the end of a timer (R387). -/
def wakeCause (s : State) (c : Nat) : Bool := !clusterIdle s c || (List.range 16).any (fun i => (core s (c * 16 + i)).roused)

/-- A cluster that work or an event has woken leaves Doze 100 dp-cycles later; its heartbeat limit starts afresh (R387,
R393). -/
def execDozeExit (c : BitVec 4) (s : State) : Res :=
  let c := c.toNat
  if !on s || !(cluster s c).doze || !wakeCause s c then .next s
  else
    let s := advance s (100 * dpU s)
    .next (stir (busyCore (modCluster s c (fun x => { x with doze := false, beatAt := s.time.now })) (c * 16)))

/-! ### Bivouac (R388 to R390, R422) -/

/-- A receiver context owes no acknowledgement. -/
def rxSettled (c : RxCtx) : Bool := c.lastAck == c.cum && c.got.isEmpty && c.unsettled.isEmpty

/-- The device is idle (R388). -/
def deviceIdle (s : State) : Bool :=
  (List.range (clusters s)).all (fun c => (cluster s c).doze) && s.trav.usedCells.isEmpty && s.frames.isEmpty
    && retainedCells s == 0 && s.xport.parked.isEmpty && s.scree.scans.isEmpty && s.scree.waiting.isEmpty && s.xlat.pairs.isEmpty
    && s.xport.tx.all (fun e => e.2.sent.isEmpty) && s.xport.rx.all (fun e => rxSettled e.2)
    && maintActive s == 0 && s.dict.xfers.isEmpty
    && s.dict.images.all (fun e => !e.2.opened) && s.tbl.engineQ.isEmpty && s.xlat.homeUpd.isEmpty
    && !s.xlat.mapPending && s.cairn.snapDue.isNone && s.dict.mgmtQ.isEmpty

/-- A port at Bivouac entry: LPI where it was up, else squelched; PULSE and the loss timer stop (R47, R60). -/
def portAsleep (s : State) (lp : Nat) : State :=
  modPort s lp (fun p => { p with
    link := if p.link = 2 then 3 else 4, nextPulse := none, lossFrom := none, missedFrom := none })

/-- A record of a cluster's way into or out of Bivouac, where its trace is on (R422). -/
def bivouacTrace (s : State) (kind reason : Nat) : State :=
  (List.range (clusters s)).foldl (fun s c => traceDrain (trace s c kind 0 {} 0xFF reason) c 65) s

/-- What the data path holds and R389 does not save is gone: contexts, caches, averages and scheduling state. DEDUCED,
log entry 62. -/
def loseUnsaved (s : State) : State :=
  let s := loseCtxs s s.xport.tx
  let s := { s with xport := { quiet := s.xport.quiet }, xlat := { s.xlat with cache := [] }, trav := { s.trav with avg := [] } }
  let s := { s with tm := { s.tm with sched := [], undo := [] }, pit := { s.pit with shed := [], lanes := [] } }
  { s with col := { s.col with cache := [], policers := [] } }

/-- The listed state is written to the save area, whose bytes are free values; it also stays in place (R389). DEDUCED, log
entry 62. -/
def saveState (s : State) : State :=
  let v : SaveArea := { base := inForce s 0x7000 0x0A, parts := clusters s, seed := s.free }
  let s := draw s
  { s with hbm := { s.hbm with
    save := some v
    mem := s.hbm.mem.filter (fun c => !savedAt v c.1)
    media := s.hbm.media.filter (fun l => !savedAt v (64 * l)) } }

/-- Step 1 of the entry, after BivouacIdle of idleness: the ports signal LPI (R388). DEDUCED, log entry 104. -/
def execBivouacEntry (s : State) : Res :=
  let t := s.pwr.idleSince
  if !(on s && s.sys.phase == .run && !s.sys.basecampFailed) || s.pwr.state != 0 || obj s 0x7000 7 = 0 || !deviceIdle s || t.isNone then .next s
  else
    let s := advanceTo s (t.getD 0 + msU (obj s 0x7000 7))
    let s := (List.range (lps s)).foldl portAsleep s
    let s := (List.range (nStacks s.sys)).foldl (fun s k => setStack s k { stackOf s k with pendingSr := true }) s
    .next (modPwr s (fun p => { p with state := 1, wakeSrc := none }))

/-- Steps 2 to 4: the descent records, the save, and the data path's loss of power, with which WAKE_OUT falls (R388, R435). -/
def powerOff (s : State) : State :=
  let s := loseUnsaved (saveState (bivouacTrace s 7 2))
  modPwr { s with sys := { s.sys with wakeOut := false } } (fun p => { p with off := true })

/-- The exit from Bivouac starts, with its source: 1 sideband, 2 the Wake object; WAKE_OUT rises (R390, R435). -/
def wakeStart (s : State) (src : Nat) : State :=
  let s := modPwr s (fun p => { p with state := 3, bivouacAt := none, wakeSrc := none })
  putObj { s with sys := { s.sys with wakeOut := true } } 0x7000 0x0E src

/-- The entry is complete; a wake that came meanwhile starts the exit at once (R388). -/
def entryDone (s : State) : State :=
  let s := cairn (bump s 0x7000 0x0D) 0x0A 2 0 []
  let src := s.pwr.wakeSrc
  let s := modPwr s (fun p => { p with state := 2, bivouacAt := some s.time.now, idleSince := none })
  match src with
  | some n => wakeStart s n
  | none => s

/-- A stack that the power manager asks to drains and enters self-refresh, the first of them after steps 2 to 4 of the entry of
Bivouac; with the last, the entry is complete (R333, R388). A request that arrives first aborts the entry; once the data path is
off nothing makes one. DEDUCED, log entry 104. -/
def execSelfRefreshEntry (stack : Nat) (arriving : Bool) (s : State) : Res :=
  if !started s || !(stackOf s stack).pendingSr then .next s
  else if arriving then (if s.pwr.off then .next s else .next (entryAborts (bump s 0x5000 0x12)))
  else
    let s := if s.pwr.off then s else powerOff s
    let n := ((s.hbm.pch.filter (fun e => e.1 / 32 == stack)).map (fun e => e.2.deferred.length)).sum
    let s := drainWaits s stack n
    if waitsWindow s stack then .next s
    else
      let s := closeStack s stack
      .next (if (List.range (nStacks s.sys)).any (fun k => (stackOf s k).pendingSr) then s else entryDone s)

/-- A wake of the device from a source: in Bivouac the exit starts, during the entry it will (R388, R390). -/
def wakeFrom (s : State) (src : Nat) : State :=
  if s.pwr.state = 2 then wakeStart s src
  else if s.pwr.state = 1 then modPwr s (fun p => { p with wakeSrc := some src })
  else s

/-- A write to Wake: 1 wakes the device from Bivouac; in Run any value restarts the idle timer. -/
def wakeGo (s : State) : Ack :=
  if s.pwr.state = 0 then ackOk (modPwr s (fun p => { p with idleSince := some s.time.now })) else ackOk (wakeFrom s 2)

/-- Steps 3 and 4 of the exit: the data path has its state again and the ports leave LPI (R390). -/
def wakeUp (s : State) : State :=
  let s := modPwr s (fun p => { p with state := 0, off := false, idleSince := some s.time.now })
  (List.range (lps s)).foldl portAwake s

/-- Steps 6 and 7: the ascent records, and PULSE; the heartbeat limits start afresh and the wake is recorded (R387, R390,
R422). -/
def wakeEnd (s : State) : State :=
  let src := obj s 0x7000 0x0E
  let s := (List.range (clusters s)).foldl (fun s c => modCluster s c (fun x => { x with beatAt := s.time.now })) s
  cairn (enterPorts (bivouacTrace s 8 src)) 0x0A 3 0 (toLE 1 src)

/-! ### The Basecamp state and the sideband (R391, R392) -/

/-- After BasecampIdle in Bivouac everything but the always-on domain and the MRAM goes dark. -/
def execBasecampEntry (s : State) : Res :=
  match s.pwr.bivouacAt with
  | none => .next s
  | some t =>
    if s.pwr.state != 2 || obj s 0x7000 8 = 0 || !started s then .next s
    else
      let s := cairn (advanceTo s (t + msU (obj s 0x7000 8))) 0x0A 4 0 []
      let s := { s with sys := { s.sys with inBasecamp := true }, xlat := { s.xlat with keys := [] } }
      let s := { s with hbm := { s.hbm with mem := [], media := [], save := none } }
      let s := (List.range (lps s)).foldl (fun s lp => modPort s lp (fun p => { p with link := 0 })) s
      .next (setFaultN s)

/-- The state byte that a sideband read returns. DEDUCED, log entry 63. -/
def sidebandByte (s : State) : Byte :=
  if s.sys.inBasecamp then 3
  else if s.sys.phase == .run then (match s.pwr.state with | 2 => 2 | 3 => 4 | _ => 0)
  else if s.sys.pendingCause = 4 then 4
  else 0

end Sys2Proof.Machine
end

