-- ==== Sys2Proof/Machine/Can.lean ====
section
/-! DEFINITION. The CAN FD side of the dictionary: identifiers, padding, and which frames reach the device (R362,
R363, R377). -/

namespace Sys2Proof.Machine

/-- The next permitted CAN FD data length (R363). -/
def canLen (n : Nat) : Nat := ([0, 1, 2, 3, 4, 5, 6, 7, 8, 12, 16, 20, 24, 32, 48].find? (fun l => decide (n ≤ l))).getD 64

def canPad (bs : List Byte) : List Byte := bs ++ List.replicate (canLen bs.length - bs.length) 0

def canIdent (pri func dst src seq : Nat) : BitVec 29 :=
  BitVec.ofNat 29 (pri % 8 * 2 ^ 26 + func % 64 * 2 ^ 20 + dst % 128 * 2 ^ 13 + src % 128 * 2 ^ 6 + seq % 64)

/-- A response to a request: its priority, its sender as destination, its SEQ. -/
def canReply (s : State) (q : CanReq) (func : Nat) (data : List Byte) : Out :=
  .can (canIdent q.pri.toNat func q.src.toNat s.sys.node.toNat q.seq.toNat) (canPad data)

def canSend (s : State) (o : Out) : State := bump (emit s o) 0x0200 5

/-- CAN FD answers: from 2 ms after T0 on, in Run, Doze and Bivouac, and when Basecamp has failed (R362, R428). -/
def canUp (s : State) : Bool := started s && (s.sys.phase == .run || decide (s.sys.t0 + msU 2 ≤ s.time.now))

/-- In-band access answers in Run and Doze (R362). DEDUCED, log entry 75. -/
def agentUp (s : State) : Bool := on s && s.sys.phase == .run && !s.sys.basecampFailed

/-- A frame is for this device: its node, or every node (R363). -/
def canHears (s : State) (q : CanReq) : Bool := canUp s && (q.dst == s.sys.node || q.dst == 0x7F#7)

/-- A data byte of a request, 0 beyond its end. -/
def qByte (q : CanReq) (i n : Nat) : Nat := ofLE (slice q.data i n)

/-- The CAN FD controller enters bus-off; it recovers by itself under ISO 11898-1 (R377). DEDUCED, log entry 68. -/
def execCanBusOff (s : State) : Res := if canUp s then .next (bump s 0x0200 6) else .next s

end Sys2Proof.Machine
end

