-- ==== Sys2Proof/Machine/Recovery.lean ====
section
/-! DEFINITION. The Summit lease, the write fence, leaving and entering service, and the failure of Basecamp (R402 to
R409). -/

namespace Sys2Proof.Machine

def modRcv (s : State) (f : RecSt → RecSt) : State := { s with rcv := f s.rcv }

/-- LEASE_STATE (R403). -/
def leaseState (s : State) (q : CanReq) : State :=
  let r := s.rcv
  let flags := b2n r.leaseUntil.isSome + 2 * b2n r.readOnly + 4 * b2n (peerLost s) + 8 * b2n r.writeFence
  canSend s (canReply s q 0x11 (toLE 4 r.epoch.toNat ++ toLE 1 flags ++ toLE 3 0))

/-- Lease frames reach a device of a pair; with PairEnable 0, and by the responder of a failed Basecamp, they are
ignored (R402, R409). -/
def leaseHears (s : State) (q : CanReq) : Bool := canHears s q && !s.sys.basecampFailed && obj s 0x8002 1 == 1

/-- A frame of the bus for this node is counted, heeded or not (R377). DEDUCED, log entry 79. -/
def canCount (s : State) (q : CanReq) : State := if canHears s q then bump s 0x0200 4 else s

/-- `a` lies below `b` as a serial number. -/
def epochBelow (a b : BitVec 32) : Bool := psnLt a b

/-- A grant is accepted: the device holds for 300 ms, and the fence clears where it held last under this EPOCH (R404,
R406). -/
def grantLease (s : State) (e : BitVec 32) : State :=
  let s := if s.rcv.ownEpoch = some e then latchFence s false else s
  recheckReadOnly (modRcv s (fun r => { r with
    leaseUntil := some (s.time.now + msU 300), epoch := e, ownEpoch := some e }))

/-- LEASE_GRANT (R403). A grant while FAULT_N is low is accepted like any other: only its fall drops the lease (R404). DEDUCED,
log entry 64. -/
def execLeaseGrant (q : CanReq) (s : State) : Res :=
  let s := canCount s q
  if !leaseHears s q then .next s
  else
    let s := settleLease s
    let e := BitVec.ofNat 32 (qByte q 0 4)
    if s.rcv.ownEpoch.isSome && epochBelow e s.rcv.epoch then .next (leaseState (bump s 0x8002 0x0C) q)
    else .next (leaseState (grantLease s e) q)

/-- LEASE_REVOKE: the lease is dropped at once. -/
def execLeaseRevoke (q : CanReq) (s : State) : Res :=
  let s := canCount s q
  if !leaseHears s q then .next s
  else .next (leaseState (recheckReadOnly (modRcv (settleLease s) (fun r => { r with leaseUntil := none }))) q)

/-- LEASE_QUERY. -/
def execLeaseQuery (q : CanReq) (s : State) : Res :=
  let s := canCount s q
  if !leaseHears s q then .next s else .next (leaseState (settleLease s) q)

/-- 300 ms pass without a renewal. -/
def execLeaseExpiry (s : State) : Res := running s <|
  match s.rcv.leaseUntil with
  | none => .next s
  | some t => .next (recheckReadOnly (advanceTo s t))

/-- A write of 1 to WriteFenceClear clears the latch; read-only follows R405. -/
def fenceClear (s : State) : Ack := ackOk (recheckReadOnly (latchFence (settleLease s) false))

/-! ### Service (R408) -/

/-- ServiceCmd: 1 takes the device out of service, 2 returns it unless another condition holds. -/
def serviceCmd (s : State) (v : Nat) : Ack :=
  if v = 1 then ackOk (serviceChange { s with sys := { s.sys with svcOut := true } })
  else
    let s' := { s with sys := { s.sys with svcOut := false } }
    if outCause s' != 0 then (s, abState, 0) else ackOk (serviceChange s')

/-- Basecamp has failed, with its cause (R409). -/
def basecampFails (s : State) (cause : Nat) : State :=
  if s.sys.phase == .unpowered || s.sys.frozen || s.sys.basecampFailed then s
  else recheckService { s with sys := { s.sys with basecampFailed := true, failCause := cause } }

/-- 5 ms after Basecamp's last write of its watchdog. -/
def execBasecampWdExpiry (s : State) : Res :=
  if s.sys.phase == .unpowered || s.sys.frozen || s.sys.basecampFailed then .next s
  else .next (basecampFails { s with sys := { s.sys with wdExpiries := (s.sys.wdExpiries + 1) % 2 ^ 32 } } 1)

/-- An uncorrectable error in Basecamp's own ECC check. -/
def execBasecampEccError (s : State) : Res := .next (basecampFails s 2)

end Sys2Proof.Machine
end

