-- ==== Sys2Proof/Machine/Reset.lean ====
section
/-! DEFINITION. Reset, VIN, freeze and start-up, and the thermal limits (R342, R380, R391, R415, R423, R424, R428 to R430,
R439). -/

namespace Sys2Proof.Machine

/-! ### What a reset leaves (R375, R406, R415, R416, R429) -/

/-- A value is in MRAM, as an entry of the parameter area (R375, R419). -/
def storeNow (s : State) (e : Nat × Nat) : State := paramAppend { s with stored := mset s.stored e.1 e.2 } e.1

/-- Stores still pending are performed within 1 ms of the start of a reset, each with its latest value (R375). -/
def flushStores (s : State) : State :=
  let s := s.dict.storeQ.foldl storeNow s
  { s with dict := { s.dict with storeQ := [] } }

/-- Every domain but the always-on domain returns to reset; the MRAM and what the always-on domain holds stay.
DEDUCED, log entry 65. -/
def resetDomains (s : State) : State :=
  let v := s.sys
  let sys : SysSt :=
    { skx9624 := v.skx9624, nodePins := v.nodePins, sbPins := v.sbPins, node := v.node, sbaddr := v.sbaddr,
      deviceId := v.deviceId, resetCause := v.resetCause, pendingCause := v.pendingCause, dieTemp := v.dieTemp,
      thermalShut := v.thermalShut, failCause := v.failCause, wdExpiries := v.wdExpiries, thermShutdowns := v.thermShutdowns, trstN := v.trstN }
  let time : TimeSt := { now := s.time.now, ftOrigin := s.time.ftOrigin, cycAt := s.time.now }
  let dict : DictSt := { storeQ := s.dict.storeQ, lastStore := s.dict.lastStore, storedPlan := s.dict.storedPlan }
  let hbm : HbmSt := { stk := s.hbm.stk.map (fun e => (e.1, { retired := e.2.retired })) }
  let pwr : PwrSt := { vinMv := s.pwr.vinMv, watts := s.pwr.watts, profile := profileOf s.pwr.vinMv, measAt := s.pwr.measAt }
  let cairn : CairnSt := { s.cairn with alert := false, snapDue := none, compacting := none, retryAt := none }
  { pending := s.pending, free := s.free, out := s.out, answer := s.answer, sys := sys, time := time, stored := s.stored,
    dict := dict, hbm := hbm, pwr := pwr, cairn := cairn, xport := { quiet := (loseCtxs s s.xport.tx).xport.quiet } }

/-- A reset that waits for the next T0, with the cause it will report. That Basecamp had failed goes to Cairn (R409). -/
def beginReset (s : State) (cause : Nat) : State :=
  let s := if s.sys.frozen then { s with cairn := { s.cairn with buffer := [] } } else s
  let failed := s.sys.basecampFailed
  let s := resetDomains (flushStores s)
  let s := { s with sys := { s.sys with pendingCause := cause } }
  if failed then cairn s 0x0C 1 3 (toLE 1 s.sys.failCause) else s

/-- RESET_N low (R429), by a pulse that R437 does not ignore: a shorter one is no command. DEDUCED, log entry 89. -/
def execReset (s : State) : Res :=
  if s.sys.phase == .unpowered then .next s
  else
    let s := beginReset s (if s.sys.frozen then 3 else 2)
    .next { s with sys := { s.sys with resetN := false } }

/-- A write of 1 to RecoveryReset (R409, R429). -/
def recoveryReset (s : State) : Ack := ackOk (beginReset s 5)

/-- FREEZE_N low, by a pulse that R437 does not ignore: before T0 start-up waits; after it every clock stops, the stacks are in
self-refresh and the rail holds (R423, R429). DEDUCED, log entry 89. -/
def execFreeze (s : State) : Res :=
  let pin (s : State) : State := { s with sys := { s.sys with freezeN := false } }
  if s.sys.phase == .unpowered then .next s
  else if s.sys.phase == .held then .next (pin s)
  else
    let s := (List.range (nStacks s.sys)).foldl closeStack (settleRail s)
    let s := { pin s with sys := { (pin s).sys with frozen := true }, dbg := { s.dbg with seed := s.free } }
    .next (setFaultN (draw s))

/-- Loss of VIN cuts the pending stores: each object keeps the old value or has the new one, a free choice (R375).
DEDUCED, log entry 66. -/
def cutStores (s : State) : State :=
  let s := s.dict.storeQ.foldl (fun s e =>
    let t := if Config.freeNat s.free % 2 = 1 then storeNow s e else s
    draw t) s
  { s with dict := { s.dict with storeQ := [] } }

/-- VIN falls below 8.5 V: every domain stops, with ALERT_N and THERM_N high-impedance; the write buffer is lost and a record
being written may be torn (R380, R415, R434). -/
def execVinUndervoltage (torn : Bool) (s : State) : Res :=
  if s.sys.phase == .unpowered then .next s
  else
    let s := match torn, s.cairn.buffer with
      | true, b :: _ =>
        let bytes := toLE 8 s.cairn.nextSeq ++ b
        let slot := bytes ++ toLE 4 (crc32c bytes ^^^ 0xFFFFFFFF)
        { s with cairn := { s.cairn with ring := mset s.cairn.ring (s.cairn.nextSeq % 524288) slot } }
      | _, _ => s
    let s := cutStores { s with cairn := { s.cairn with buffer := [] } }
    let s := { s with rcv := { s.rcv with readOnly := false }, pwr := { s.pwr with thermHold := false, capHold := false }
                      cairn := { s.cairn with alert := false } }
    .next (setFaultN { s with sys := { s.sys with
      phase := .unpowered, vinLow := true, wakeOut := false, thermN := true, thermWarn := false } })

/-- VIN rises through 8.8 V: the power-up sequence starts; SBADDR is sampled and Cairn's bucket is full (R380, R416,
R430). -/
def execVinValid (s : State) : Res :=
  if s.sys.phase != .unpowered then .next s
  else
    let s := resetDomains s
    let sys := { s.sys with phase := .held, vinLow := false, pendingCause := 1, sbaddr := s.sys.sbPins, failCause := 0,
                            wdExpiries := 0, thermShutdowns := 0 }
    .next { s with sys := sys, cairn := { s.cairn with tokens := 4096 * 900000, tokensAt := s.time.now } }

/-! ### Start-up (R428) -/

/-- The bytes of a stored plan section. -/
def planSection (s : State) (typ : Nat) : Option (List Byte) := (s.dict.storedPlan.find? (fun e => e.1 == typ)).map (·.2)

/-- HASH_SEEDS of the stored plan are in force (R89, R111). -/
def useSeeds (s : State) : State :=
  match planSection s 1 with
  | none => s
  | some b =>
    let v (i : Nat) : BitVec 32 := BitVec.ofNat 32 (ofLE (slice b (4 * i) 4))
    { s with tbl := { s.tbl with epSeed0 := v 0, epSeed1 := v 1, ruleSeed0 := v 2, ruleSeed1 := v 3, laneSeed := v 4 } }

/-- The HBM layout in force: the objects' values, and those that only a stored plan sets (R320, R322, R352). -/
def useLayout (s : State) : State :=
  let o (i : Nat) : Nat := inForce s 0x5000 i
  let h := { s.hbm with grain := o 1, regionClass := [o 2, o 3, o 4], bankHash := [o 5, o 6, o 7, o 8] }
  match planSection s 2 with
  | none => { s with hbm := h }
  | some b =>
    let v (i : Nat) : Nat := ofLE (slice b (8 * i) 8)
    { s with hbm := { h with mapBaseA := v 8, mapBaseB := v 9, ruleBaseA := v 10, ruleBaseB := v 11, progBase := v 12 } }

/-- Stored values replace the defaults, WriteFence among them (R375, R406). -/
def useStored (s : State) : State :=
  { s with obj := s.stored, latched := s.stored, rcv := { s.rcv with writeFence := mget s.stored (key 0x8002 7) 0 == 1 } }

/-- FT starts from 0, or goes on after the Basecamp state from the count of 32.768 kHz periods that carried it; its state
follows TimeSource (R342, R347). A period is 1,953,125 ns / 64; that its last whole multiple is carried is DEDUCED, log entry
54. -/
def startTime (s : State) : State :=
  let s := if s.sys.resetCause = 4 then
      let carried := ft s * 64 / 1953125 * 1953125 / 64
      { s with time := { s.time with ftOrigin := s.time.ftOrigin - ((ft s - carried : Nat) : Int) * 90 } }
    else { s with time := { s.time with ftOrigin := -((s.time.now / 576 * 576 : Nat) : Int) } }
  { s with time := { s.time with state := if obj s 0x6800 1 = 0 then 0 else 4 } }

/-- The rail and the clock settle for the profile (R381, R384). -/
def startRail (s : State) : State :=
  let f := maxStep s.pwr.profile
  let v := vmin f + obj s 0x7001 9
  reclock s { s with pwr := { s.pwr with fstep := f, target := v, railUv := v * 1000, railAt := s.time.now } }

/-- A cluster's memories are zero but for the home-disposition table, where it runs Pass, and its lead rope starts, at an
instant from 2 ms to 10 ms after T0 that no rule fixes (R191, R244, R428, step 8). DESIGN CHOICE, log entry 106. -/
def startCluster (s : State) (c : Nat) : State :=
  let at_ := s.sys.t0 + msU 2 + Config.freeNat s.free % (msU 8 + 1)
  let s := if runsPass s c then modCluster s c (fun x => { x with scratch := homeCells s }) else s
  modCluster (startLead (draw s) c 7 0) c (fun x => { x with startsAt := at_, beatAt := at_ })

/-- The ports start training 2 ms after T0 (R428, step 7). -/
def startPorts (s : State) : State :=
  (List.range (lps s)).foldl (fun s lp => modPort (trainPort s lp) lp (fun p => { p with trainAt := s.time.now + msU 2 })) s

/-- What the Basecamp state leaves of the Itinerary: the events that have come due by the end of the wake, which fire there (R350,
R391). DEDUCED, log entry 87. -/
def heldEvents (s : State) : PlanSt := { events := s.plan.events.drop s.plan.next }

/-- T0: straps, ResetCause, WAKE_OUT, FT, stored values, the ports, the stacks and the clusters (steps 4 to 8). With the
stored PairEnable in force the device is read-only until its peer comes (R402, R405). -/
def execStartT0 (s : State) : Res :=
  if s.sys.phase != .held || (s.sys.thermalShut && 95 < s.sys.dieTemp) then .next s
  else
    let s := if s.sys.pendingCause = 4 then { resetDomains (flushStores s) with plan := heldEvents s } else s
    let v := s.sys
    let s := { s with sys := { v with phase := .starting, node := v.nodePins, sbaddr := v.sbPins, resetCause := v.pendingCause,
                                      resetN := true, freezeN := true, wakeOut := true, thermalShut := false, t0 := s.time.now } }
    let s := useStored s
    let s := if v.pendingCause = 4 then cairn (putObj s 0x7000 0x0E 1) 0x0A 3 0 (toLE 1 1) else s
    let s := { s with sys := { s.sys with deviceId := BitVec.ofNat 4 (obj s 0x1000 2) } }
    let s := startRail (startTime (useLayout (useSeeds s)))
    .next (recheckReadOnly ((List.range (clusters s)).foldl startCluster (startPorts s)))

/-- How long start-up takes from T0: as step 12 has it, with a second attempt where a stack was trained twice (R428).
DESIGN CHOICE, log entry 106. -/
def startupTime (s : State) : Nat :=
  if (List.range (nStacks s.sys)).any (fun k => (stackOf s k).tried) then msU 118 else msU 60

/-- Start-up can end: the ring is scanned and the zero write of every stack has ended (R428). -/
def startupReady (s : State) : Bool :=
  s.sys.phase == .starting && started s && s.sys.cairnScanned &&
    (List.range (nStacks s.sys)).all (fun k => (stackOf s k).state == 2)

/-- The caches are empty and aging runs, from here or from a write of AgeInterval before it; then `held` comes, FAULT_N rises and
PULSE starts on the links that are up (R95, R233, R428). -/
def startupEnd (held : State → State) (s : State) : State :=
    let s := advanceTo s (s.sys.t0 + startupTime s)
    let s := putObj s 0x1030 9 ((s.time.now - s.sys.t0) / 90000 % 2 ^ 32)
    let age := obj s 0x4800 5
    let first := s.tbl.sweepNext.getD (s.time.now + msU age)
    let s := { s with sys := { s.sys with phase := .run }
                      tbl := { s.tbl with sweepNext := if age = 0 then none else some first }
                      xlat := { s.xlat with cache := [] }, col := { s.col with cache := [] } }
    serviceChange (held { s with pwr := { s.pwr with idleSince := some s.time.now } })

/-! ### Thermal limits (R438, R439) -/

def hottest (l : List Int) (d : Int) : Int := (l.max?).getD d

/-- The stacks' sensors are read. -/
def senseStacks (s : State) (l : List Int) : State :=
  ((l.take (nStacks s.sys)).zipIdx).foldl (fun s e => setStack s e.2 { stackOf s e.2 with temp := e.1 }) s

/-- The thermal shutdown: latched, the stacks in self-refresh, the data path off. -/
def thermalShutdown (s : State) : State :=
  let s := (List.range (nStacks s.sys)).foldl closeStack s
  let v := s.sys
  recheckService { s with sys := { v with thermalShut := true, thermShutdowns := (v.thermShutdowns + 1) % 2 ^ 32, wakeOut := false } }

/-- THERM_N is low: its fall is counted, and 0.6 GHz is commanded unless it is the step last commanded. -/
def thermalHot (s : State) : State :=
  let fell := s.sys.thermN
  let s := if fell then bump { s with sys := { s.sys with thermN := false } } 0x1030 6 else s
  let s := modPwr s (fun p => { p with thermHold := true, coolSince := none })
  if fell || stepAimed s != 0 then managerCmd s 0 else s

/-- THERM_N rises 5 °C below every threshold, in the thermal shutdown too. -/
def thermalPin (s : State) (die hbm hot : Int) : State :=
  if die ≤ hot - 5 && hbm ≤ 90 then { s with sys := { s.sys with thermN := true } } else s

/-- The frequency may rise after 10 ms below ThermHot − 5 °C. -/
def thermalCool (s : State) (die hbm hot : Int) : State :=
  let s := thermalPin s die hbm hot
  if die < hot - 5 then
    let t := s.pwr.coolSince.getD s.time.now
    modPwr s (fun p => { p with coolSince := some t, thermHold := p.thermHold && decide (s.time.now < t + msU 10) })
  else modPwr s (fun p => { p with coolSince := none })

/-- Every 100 µs the temperatures are compared, in the thermal shutdown too, where only THERM_N and the warning follow them. -/
def execThermalSample (die : List Int) (hbm : List Int) (s : State) : Res :=
  if s.sys.phase == .unpowered || s.sys.frozen then .next s
  else
    let d := hottest die s.sys.dieTemp
    let s := { s with sys := { s.sys with dieTemp := d } }
    if s.sys.phase == .held || s.sys.inBasecamp then .next s
    else
      let s := advanceTo s (s.sys.thermAt + usU 100)
      let s := senseStacks { s with sys := { s.sys with thermAt := s.time.now } } hbm
      let h := hottest ((List.range (nStacks s.sys)).map (fun k => (stackOf s k).temp)) 0
      let warn : Int := obj s 0x1030 2
      let hot : Int := obj s 0x1030 3
      let s := { s with sys := { s.sys with thermWarn := decide (warn ≤ d) || decide (85 ≤ h) } }
      if s.sys.thermalShut then .next (thermalPin s d h hot)
      else if 115 ≤ d || 105 ≤ h then .next (thermalShutdown (if hot ≤ d || 95 ≤ h then thermalHot s else s))
      else if hot ≤ d || 95 ≤ h then .next (thermalHot s)
      else .next (thermalCool s d h hot)

end Sys2Proof.Machine
end

