-- ==== Sys2Proof/Machine/Cairn.lean ====
section
/-! DEFINITION. The Cairn ring, its reading and snapshots, the parameter area and its compaction, and the scan dump
(R375, R413 to R421, R425). -/

namespace Sys2Proof.Machine

def modCairn (s : State) (f : CairnSt → CairnSt) : State := { s with cairn := f s.cairn }

def ringSlots : Nat := 524288

/-- A slot whose CRC is valid (R413, R415). -/
def slotValid (b : List Byte) : Bool := b.length == 64 && ofLE (slice b 60 4) == crc32c (b.take 60)

/-- The record as it goes to MRAM: SEQ, the event, DROPPED and FLAGS in their places, and the CRC (R413). -/
def cairnSlot (s : State) (b : List Byte) : List Byte :=
  let b := splice b 12 (toLE 2 (min s.cairn.dropped 65535))
  let b := splice b 15 (toLE 1 (b2n s.cairn.boot))
  let r := toLE 8 s.cairn.nextSeq ++ b
  r ++ toLE 4 (crc32c r)

/-- The oldest record of the write buffer reaches its slot (R415). -/
def execCairnRecordWrite (s : State) : Res :=
  match s.cairn.buffer with
  | [] => .next s
  | b :: bs =>
    if !cairnOn s || !s.sys.cairnScanned then .next s
    else
      let r := cairnSlot s b
      let sev := (lget b 9 0).toNat
      let s := bump s 0x7800 8
      .next (modCairn s (fun c => { c with
        ring := mset c.ring (c.nextSeq % ringSlots) r, nextSeq := c.nextSeq + 1, buffer := bs, dropped := 0, boot := false
        alert := c.alert || decide (2 ≤ sev) }))

/-- The reset scan of the ring ends: NextSeq, CairnBadCrc, and the BOOT record (R415). -/
def execCairnScanDone (s : State) : Res :=
  if s.sys.phase != .starting || !started s || s.sys.cairnScanned then .next s
  else
    let good := s.cairn.ring.filter (fun e => slotValid e.2)
    let bad := (s.cairn.ring.filter (fun e => !slotValid e.2 && e.2.any (· != 0))).length
    let next := good.foldl (fun n e => max n (ofLE (slice e.2 0 8) + 1)) 0
    let s := advanceTo { s with sys := { s.sys with cairnScanned := true } } (s.sys.t0 + usU 16800)
    let s := putObj (modCairn s (fun c => { c with nextSeq := next, boot := true })) 0x7800 7 bad
    .next (cairn s 0x0E 1 0 (toLE 1 s.sys.resetCause ++ toLE 4 bad))

/-! ### Reading (R417) -/

def oldestSeq (s : State) : Nat := s.cairn.nextSeq - ringSlots

def ringAt (s : State) (n : Nat) : List Byte := slice (mget s.cairn.ring (n % ringSlots) []) 0 64

/-- Record: the record at the cursor, and the cursor moves past it. -/
def recordTake (s : State) : State × List Byte :=
  let cur := obj s 0x7800 3
  if s.cairn.nextSeq ≤ cur then (s, List.replicate 64 0)
  else
    let n := max cur (oldestSeq s)
    (putObj s 0x7800 3 (n + 1), ringAt s n)

/-- Window: up to 64 records, and the cursor moves past the last. -/
def windowTake (s : State) : State × List Byte :=
  let cur := obj s 0x7800 3
  if s.cairn.nextSeq ≤ cur then (s, [])
  else
    let n := max cur (oldestSeq s)
    let k := min 64 (s.cairn.nextSeq - n)
    (putObj s 0x7800 3 (n + k), (List.range k).flatMap (fun i => ringAt s (n + i)))

/-- The dictionary serves Record on one path at least: on CAN FD from its enable on, in Bivouac too, not when Basecamp has
failed (R362). -/
def cairnServed (s : State) : Bool := canUp s && !s.sys.basecampFailed

def execRecordRead (s : State) : Res :=
  if !cairnServed s then .next s
  else
    let (s, b) := recordTake s
    .next { s with answer := .ok b }

/-- Window travels in-band only (R417). -/
def execWindowRead (s : State) : Res :=
  if !agentUp s then .next s
  else
    let (s, b) := windowTake s
    .next { s with answer := .ok b }

/-! ### Snapshots (R418) -/

/-- A write of 1 to SnapTake. DEDUCED, log entry 53. -/
def snapTake (s : State) : Ack :=
  if s.cairn.snapDue.isSome || s.pwr.state != 0 then (s, abState, 0)
  else
    let n := s.cairn.nextSeq
    let first := n - 516096
    let s := putObj (putObj (putObj s 0x7801 4 first) 0x7801 5 ((n + 2 ^ 64 - 1) % 2 ^ 64)) 0x7801 6 (ft s)
    ackOk (modCairn (putObj s 0x7801 3 0xFF) (fun c => { c with snapDue := some (s.time.now + nsU (32 * (n - first))) }))

/-- The copy ends: record s stands at SnapBase + 64 × (s mod 524,288). -/
def execSnapDone (s : State) : Res := live s <|
  match s.cairn.snapDue with
  | none => .next s
  | some t =>
    let s := advanceTo s t
    let first := obj s 0x7801 4
    let n := (obj s 0x7801 5 + 1) % 2 ^ 64 - first
    let base := obj s 0x7801 1
    let s := (List.range n).foldl (fun s i =>
      hbmWrite s .sys (base + 64 * ((first + i) % ringSlots)) (ringAt s (first + i))) s
    .next (modCairn (putObj (stir s) 0x7801 3 1) (fun c => { c with snapDue := none }))

/-! ### Stores and compaction (R375, R419 to R421) -/

def halfBytes : Nat := 524288

/-- ParamFill: the percentage of the active half in use. DESIGN CHOICE, log entry 22. -/
def paramFill (s : State) : Nat := s.cairn.paramUsed * 100 / halfBytes

/-- Compaction starts, or is refused with the arbiter's code (R420, R421). -/
def compactStart (s : State) (auto : Bool) : Ack :=
  match maintStart s 6 (obj s 0x4820 1) with
  | (s, some code) =>
    let s := cairn (putObj s 0x7802 2 2) 0x0D 2 3 (toLE 1 code)
    (modCairn s (fun c => { c with retryAt := if auto then some (s.time.now + msU 100) else c.retryAt }), abMaint, code)
  | (s, none) =>
    ackOk (modCairn (putObj s 0x7802 2 1) (fun c => { c with compacting := some (s.time.now + msU 50), retryAt := none }))

/-- A write of 1 to CompactGo. -/
def compactGo (s : State) : Ack :=
  if s.cairn.compacting.isSome && serviceState s == 1 then (s, abState, 0) else compactStart s false

/-- ParamFill has reached 75 %: compaction starts by itself where none runs and no retry waits. -/
def compactAuto (s : State) : State :=
  if paramFill s < 75 || s.cairn.compacting.isSome || s.cairn.retryAt.isSome then s else (compactStart s true).1

/-- A refused automatic start is tried again. -/
def execCompactionRetry (s : State) : Res := running s <|
  match s.cairn.retryAt with
  | none => .next s
  | some t =>
    let s := modCairn (advanceTo s t) (fun c => { c with retryAt := none })
    .next (compactAuto s)

/-- The latest entry of every object stands in the other half, which is now the active one (R419). DEDUCED, log entry
69. -/
def execCompactionDone (s : State) : Res := running s <|
  match s.cairn.compacting with
  | none => .next s
  | some _ =>
    let stks := (List.range (nStacks s.sys)).filter (fun k => !(stackOf s k).retired.isEmpty)
    let held := s.stored.map (·.1) ++ s.dict.storedPlan.map (fun e => planEntry e.1) ++ stks.map stackEntry
    let used := (held.map (fun k => (Config.storeBytes k).toNat)).sum
    let s := bump32 (putObj (stir s) 0x7802 2 0) 0x7802 4
    .next (modCairn s (fun c => { c with compacting := none, paramUsed := used, paramOther := !c.paramOther }))

def unqueue (s : State) (k : Nat) : State :=
  { s with dict := { s.dict with storeQ := s.dict.storeQ.filter (fun e => e.1 != k) } }

/-- The always-on domain works: VIN is valid, and its clock runs (R375, R423). -/
def alwaysOn (s : State) : Bool := s.sys.phase != .unpowered && !s.sys.frozen

/-- A pending value goes to MRAM, in the Basecamp state and the thermal shutdown too: at most one store of an object per second,
but for WriteFence; verified, retried once, and on a second failure counted and recorded (R375, R406). -/
def execParamStore (idx : BitVec 16) (sub : BitVec 8) (fails : Nat) (s : State) : Res :=
  let k := key idx.toNat sub.toNat
  match s.dict.storeQ.find? (fun e => e.1 == k) with
  | none => .next s
  | some (_, v) =>
    if !alwaysOn s || halfBytes < s.cairn.paramUsed + (Config.storeBytes k).toNat then .next s
    else
      let s := match if k = key 0x8002 7 then none else s.dict.lastStore.find? (fun e => e.1 == k) with
        | some (_, t) => advanceTo s (t + msU 1000)
        | none => s
      let s := unqueue s k
      let d := { s.dict with lastStore := (k, s.time.now) :: s.dict.lastStore.filter (fun e => e.1 != k) }
      let s := { s with dict := d }
      if 2 ≤ fails then .next (cairn (bump s 0x0200 0x0C) 0x0D 1 3 (toLE 2 idx.toNat ++ toLE 1 sub.toNat))
      else
        let s := storeNow s (k, v)
        .next (if started s then compactAuto s else s)

/-- A write of 1 to StoreClear: every stored value goes, and every pending store (R375). DEDUCED, log entry 67. -/
def storeClear (s : State) : Ack :=
  ackOk (modCairn { s with stored := [], dict := { s.dict with storeQ := [], storedPlan := [] } }
    (fun c => { c with paramUsed := 0 }))

/-! ### The scan dump (R425) -/

/-- A dump target is a chain that a unit of this device has; the Vault key domain's reads as zeros. -/
def chainHere (s : State) (t : Nat) : Bool :=
  decide (t < nPhys s.sys) || (decide (0x60 ≤ t) && decide (t < 0x60 + nStacks s.sys)) || (decide (0x64 ≤ t) && decide (t ≤ 0x6B))

/-- The chain of the always-on domain, and the bits of Cairn's write buffer in it: 16 records of 52 B. -/
def alwaysOnChain : Nat := 0x67
def bufferBits : Nat := 16 * 52 * 8

/-- Length of a chain: at least one bit, and the write buffer's in the always-on domain. DESIGN CHOICE, log entry 20. -/
def chainLength (t : Nat) : Nat := (Config.chainBits t).toNat + 1 + (if t = alwaysOnChain then bufferBits else 0)

/-- Where the write buffer stands in the chain of the always-on domain. DESIGN CHOICE, log entry 20. -/
def bufferAt : Nat := (Config.chainBits (2 ^ 16)).toNat % ((Config.chainBits alwaysOnChain).toNat + 2)

/-- A bit of a chain in freeze: of a record not written where the write buffer stands (R424), else a free value. -/
def dumpBit (s : State) (t i : Nat) : Bool :=
  let b := s.cairn.buffer.flatten
  if t = alwaysOnChain && decide (bufferAt ≤ i) && decide (i < bufferAt + 8 * b.length) then
    bit (lget b ((i - bufferAt) / 8) 0).toNat ((i - bufferAt) % 8)
  else Config.chainBit s.dbg.seed t i

/-- Words of a memory target, none for what is no memory here. -/
def dumpWords (s : State) (t : Nat) : Option Nat :=
  if 0x100 ≤ t && t < 0x100 + clusters s then some (2 ^ 22 / 8)
  else if 0x110 ≤ t && t < 0x110 + clusters s then some (2 ^ 20 / 8)
  else if t = 0x120 then some (786432 * 256 / 8)
  else if t = 0x121 then some (262144 * 192 / 8)
  else if t = 0x122 then some (131072 * 4)
  else if 0x123 ≤ t && t ≤ 0x125 then some (chainLength t)
  else if 0x130 ≤ t && t < 0x130 + nStacks s.sys then some (36 * 2 ^ 30 / 8)
  else none

/-- The length of a target: bits of a chain, words of a memory, 0 for an absent unit. -/
def dumpLength (s : State) (t : Nat) : Nat :=
  match dumpWords s t with
  | some n => n
  | none => if chainHere s t then chainLength t else 0

/-- The device address of a byte of a stack, the stack's bytes in rising order of it (R320, R321). DESIGN CHOICE, log entry
20. -/
def stackByte (s : State) (stk l : Nat) : Nat :=
  let r := l / 2 ^ 29
  let n := 72 * (stk / 2) + r
  let g := if bit (lget s.hbm.regionClass (n / 64) 0) (n % 64) then 256 else 2 ^ s.hbm.grain
  let x := l % 2 ^ 29
  pairBase (stk / 2) + r * 2 ^ 30 + (x / g / 32 * 64 + stk % 2 * 32 + x / g % 32) * g + x % g

/-- A word of a memory target: scratchpad and instruction memory by address, endpoint table by bucket and slot (R90), HBM by the
stack's bytes. The caches, the cell and head stores and the always-on SRAM have no layout by address: their words hold free
values that stand throughout the freeze. DESIGN CHOICE, log entry 20. -/
def dumpWord (s : State) (t a : Nat) : Nat :=
  if 0x100 ≤ t && t < 0x110 then ofLE (rdN (cluster s (t - 0x100)).scratch (8 * a) 8)
  else if 0x110 ≤ t && t < 0x120 then ofLE (rdN (cluster s (t - 0x110)).imem (8 * a) 8)
  else if t = 0x122 then (epSlot s (a / 4, a % 4)).toNat
  else if 0x130 ≤ t then ofLE (hbmRead s (stackByte s (t - 0x130) (8 * a)) 8)
  else (Config.memWord s.dbg.seed t a).toNat

/-- `n` bits of a chain of `len` bits from a position on, the first as the least significant. -/
def chainShift (s : State) (t len rot n : Nat) : Nat :=
  ((List.range n).map (fun i => b2n (dumpBit s t ((rot + i) % len)) * 2 ^ i)).sum

/-- The TAP works while VIN is valid and TRST_N is high (R434). -/
def tapOn (s : State) : Bool := s.sys.phase != .unpowered && s.sys.trstN

def modDbg (s : State) (f : DebugSt → DebugSt) : State := { s with dbg := f s.dbg }

/-- SXDUMP_SEL: FROZEN and the length of the selected target are captured, and the update selects. Outside freeze every
target's length stands, FROZEN reads 0. -/
def execSxdumpSel (upd : BitVec 32) (s : State) : Res :=
  if !tapOn s then .next s
  else
    let cap := b2n s.sys.frozen * 2 ^ 31 + dumpLength s s.dbg.sel.toNat % 2 ^ 31
    .next (modDbg (emit s (.tdo (BitVec.ofNat 128 cap))) (fun d => { d with ir := 0xA0#8, sel := upd.setWidth 16, rot := 0 }))

/-- SXDUMP_CHAIN shifts `n` bits of the selected chain, which rotates. Its bits are free values that stand throughout the
freeze, zeros outside freeze and for the Vault key domain. DESIGN CHOICE, log entry 20. -/
def execSxdumpChain (n : Nat) (s : State) : Res :=
  if !tapOn s then .next s
  else
    let t := s.dbg.sel.toNat
    let len := if chainHere s t then chainLength t else 0
    let live := s.sys.frozen && t != 0x6B && len != 0
    let data := if live then chainShift s t len s.dbg.rot (min n 128) else 0
    let s := emit s (.tdo (BitVec.ofNat 128 data))
    .next (modDbg s (fun d => { d with ir := 0xA1#8, rot := if live then (d.rot + n) % len else d.rot }))

/-- SXDUMP_MEM captures the word at the address, the address rises, and an update with [127] set moves it. -/
def execSxdumpMem (upd : BitVec 128) (s : State) : Res :=
  if !tapOn s then .next s
  else
    let t := s.dbg.sel.toNat
    let a := s.dbg.addr.toNat
    let n := (dumpWords s t).getD 0
    let w := if s.sys.frozen && decide (a < n) then dumpWord s t a else 0
    let s := emit s (.tdo (BitVec.ofNat 128 (a * 2 ^ 64 + w % 2 ^ 64)))
    let next := if upd.msb then upd.setWidth 64 else s.dbg.addr + 1
    .next (modDbg s (fun d => { d with ir := 0xA2#8, addr := next }))

end Sys2Proof.Machine
end

