-- ==== Sys2Proof/Machine/Col.lean ====
section
/-! DEFINITION. FRAME_RECEIVED and RULE_READ_DONE: the port MAC, Col's parse graph, pairing, policing, the version
stamp, the lookups and the checks before pitch formation (R16, R22 to R31, R43, R57, R63 to R74, R92, R110,
R241, R281, R283, R405, R444). -/

namespace Sys2Proof.Machine

/-! ### The port MAC (R24) -/

inductive MacTest where
  | undersize | oversize | fcs | pass
  deriving DecidableEq, Repr

def macTest (bs : List Byte) : MacTest :=
  let et := if beAt bs 12 2 = 0x8100 then beAt bs 16 2 else beAt bs 12 2
  if bs.length < 64 then .undersize
  else if (if et = 0x86DD then 4198 else 4150) < bs.length then .oversize
  else if slice bs (bs.length - 4) 4 != toLE 4 (crc32 (bs.take (bs.length - 4))) then .fcs
  else .pass

/-- PFC acts on a class of a port, or on an output of that class queued while it did, spilled or not (R45, R57, R62). -/
def pfcHeard (s : State) (lp c : Nat) : Bool :=
  let under (o : Output) : Bool := o.lp == lp && o.hdr.cls.toNat == c && bit o.pfcEn c && !bit o.credMode c
  pfcOn s lp c || s.tm.queues.any (fun q => q.outs.any under) || s.trav.spilled.any (fun x => under x.out)

/-- A received PFC frame: sending of each class it names pauses or resumes (R57); a class that pauses gives up its turn
(R307). -/
def pfcReceived (s : State) (lp : Nat) (bs : List Byte) : State :=
  if beAt bs 14 2 != 0x0101 then s
  else
    let mask := beAt bs 16 2
    let s := bumpLp s lp 0x20
    (List.range 8).foldl (fun s c =>
      if bit mask c && pfcHeard s lp c then
        let q := beAt bs (18 + 2 * c) 2
        let till := if q = 0 then none else some (s.time.now + q * 512 * 90000000000 / lpRate s lp)
        let s := modPort s lp (fun p => { p with pauseUntil := lset p.pauseUntil c till })
        if q = 0 then s else yieldTurn s lp c
      else s) s

/-! ### The parse graph down to the SXT node (R63) -/

inductive Parsed where
  /-- Discarded: index and subindex of the counter. -/
  | discard (idx sub : Nat)
  /-- The offset of the PTP header. -/
  | ptp (off : Nat)
  /-- The SXT header's offset, and the source IPv6 address and ECN codepoint where encapsulated. -/
  | sxt (off : Nat) (ip6 : Option (BitVec 128)) (ecn : BitVec 2)
  deriving DecidableEq, Repr

/-- The UDP checksum of a frame whose IPv6 header stands at `o` holds (R22). -/
def udpOk (bs : List Byte) (o : Nat) : Bool :=
  let ulen := beAt bs (o + 44) 2
  decide (8 ≤ ulen) && decide (o + 40 + ulen + 4 ≤ bs.length) && beAt bs (o + 46) 2 != 0 &&
    udpSum (slice bs (o + 8) 16) (slice bs (o + 24) 16) (slice bs (o + 40) ulen) == 65535

def parseIp6 (s : State) (lp : Nat) (bs : List Byte) (o : Nat) : Parsed :=
  if beAt bs o 1 / 16 ≠ 6 ∨ beAt bs (o + 6) 1 ≠ 17 ∨ bs.length < o + 48 + 4 then .discard 0x1020 3
  else if !udpOk bs o then .discard (0x2000 + lp) 0x1A
  else
    let p := beAt bs (o + 42) 2
    if p = 319 ∨ p = 320 then .ptp (o + 48)
    else if p = inForce s 0x1010 2 then
      .sxt (o + 48) (some (BitVec.ofNat 128 (beAt bs (o + 8) 16))) (BitVec.ofNat 2 (beAt bs (o + 1) 1 / 16))
    else .discard 0x1020 4

def parseFrame (s : State) (lp : Nat) (bs : List Byte) : Parsed :=
  let tagged := beAt bs 12 2 == 0x8100
  let o := if tagged then 18 else 14
  let et := beAt bs (o - 2) 2
  if tagged && et == 0x8100 then .discard (0x2000 + lp) 0x19
  else if et = inForce s 0x1010 1 then .sxt o none 0
  else if et = 0x86DD then parseIp6 s lp bs o
  else if et = 0x88F7 then .ptp o
  else if et = 0x0800 then .discard 0x1020 2
  else .discard 0x1020 1

/-- The header is complete (R27). -/
def sxtWhole (bs : List Byte) (off : Nat) : Bool := decide (off + 32 + 4 ≤ bs.length)

/-- A condition of R27 holds. -/
def sxtBad (bs : List Byte) (off : Nat) : Bool :=
  let h := parseSxt (bs.drop off)
  !sxtWhole bs off || h.ver != 1 || decide (9 < h.typ.toNat) || h.colour == 3 ||
    decide (bs.length < off + 32 + h.len.toNat + 4)

/-- A frame goes to the PTP slave, with FT at the MAC (R63, R345). -/
def ptpHand (s : State) (lp : Nat) (bs : List Byte) : State :=
  { s with time := { s.time with ptpQ := s.time.ptpQ ++ [{ lp := lp, ft := ft s, bytes := bs }] } }

/-- A valid PULSE, as a port out of service takes one (R47, R59). -/
def pulseIn (s : State) (lp : Nat) (bs : List Byte) : Option Sxt :=
  match parseFrame s lp bs with
  | .sxt off _ _ =>
    let h := parseSxt (bs.drop off)
    if !sxtBad bs off && h.typ == 8 then some h else none
  | _ => none

/-! ### Policing (R66 to R69) -/

/-- The policer of a tenant, filled up to now; one not touched since a write is full. It fills by local time, which no step
or slew of FT moves. DESIGN CHOICE, log entry 97. -/
def policer (s : State) (tid : Nat) : Policer :=
  let cbs := ten s tid 0x22 * 7200000
  let ebs := ten s tid 0x24 * 7200000
  match mfind s.col.policers tid with
  | none => { c := cbs, e := ebs, at_ := s.time.now }
  | some p =>
    let dt := s.time.now - p.at_
    let gain := ten s tid 0x21 * dt
    if ten s tid 0x20 % 4 = 1 then
      { c := min cbs (p.c + gain), e := min ebs (p.e + (p.c + gain - cbs)), at_ := s.time.now }
    else { c := min cbs (p.c + gain), e := min ebs (p.e + ten s tid 0x23 * dt), at_ := s.time.now }

/-- The colour of a frame of `len` bytes and the policer after it (RFC 2697, RFC 2698). PRESUMED, log entry 86. -/
def colourOf (mode : Nat) (p : Policer) (pre len : Nat) : Nat × Policer :=
  let b := len * 7200000
  let pre := if bit mode 2 then pre else 0
  match mode % 4 with
  | 1 =>
    if pre = 0 ∧ b ≤ p.c then (0, { p with c := p.c - b })
    else if pre ≤ 1 ∧ b ≤ p.e then (1, { p with e := p.e - b })
    else (2, p)
  | 2 =>
    if pre = 2 ∨ p.e < b then (2, p)
    else if pre = 1 ∨ p.c < b then (1, { p with e := p.e - b })
    else (0, { p with c := p.c - b, e := p.e - b })
  | _ => (0, p)

/-- Police a frame: its colour, whether it is discarded red, and the state with it counted (R68). -/
def police (s : State) (tid pre len : Nat) : State × Nat × Bool :=
  let mode := ten s tid 0x20
  let (col, p) := colourOf mode (policer s tid) pre len
  let s := { s with col := { s.col with policers := mset s.col.policers tid p } }
  let s := bumpTen s tid (0x25 + col)
  let drop := col == 2 && bit mode 3
  (if drop then bumpTen s tid 0x28 else s, col, drop)

/-! ### Learning and lookups -/

/-- The source search, and the learn request it makes (R70, R92). -/
def sourceLookup (s : State) (lp : Nat) (h : Sxt) : State × Option Nat :=
  let (s, e) := epLookup s (epKey h.tid h.src)
  let wants := match e with | none => true | some e => eLp e != lp && !eStatic e
  let s :=
    if wants && ten s h.tid.toNat 0x30 == 1 && decide (h.src.toNat < 0xFFFFF0) then
      if s.col.learnQ.length < 4096 then
        { s with col := { s.col with learnQ := s.col.learnQ ++ [{ tid := h.tid, ep := h.src, lp := lp }] } }
      else bump s 0x4800 9
    else s
  (s, e.map eLp)

/-- The range check of R30. -/
def rangeBad (h : Sxt) : Bool :=
  let n := if h.typ = 0 then h.xarg.toNat % 4096 + 1 else if h.typ = 1 then h.len.toNat else 8
  let crosses := decide (4096 < h.addr.toNat % 4096 + n)
  match h.typ.toNat with
  | 0 => crosses
  | 1 => crosses
  | 3 => crosses || h.addr.toNat % 8 != 0 || h.len.toNat != (if h.sub = 2 then 16 else 8)
  | _ => false

/-- The write fence refuses the frame (R405). -/
def fenceBad (s : State) (lp : Nat) (h : Sxt) : Bool :=
  (settleLease s).rcv.readOnly && ((h.dst == devEp s && (h.typ == 1 || h.typ == 3)) ||
    (h.typ == 1 && role s lp == 2 && mirrored s h.tid.toNat))

/-- The ordering domain of a held frame (R32). -/
def domainOf (s : State) (f : Nat) : BitVec 12 × BitVec 24 × BitVec 16 :=
  let h := hdrOf (frameOf s f)
  (h.tid, h.src, h.ostream)

/-- The entries that a probe of a key sees: the cached line, or the table. -/
def probeLine (s : State) (k : BitVec 64) : List RuleEntry :=
  match cacheFind s k with
  | some l => l.entries
  | none => (ruleFind s k).map (·.2)

/-- The outcome of the probes in order of precedence: level and result, or a failed probe first (R71, R331). -/
def decideRule (s : State) (failed : List (BitVec 64)) (v : BitVec 16) : Nat → List (BitVec 64) → Option (Nat × List Byte)
  | _, [] => some (0, List.replicate 32 0)
  | n, k :: ks =>
    if failed.contains k then none
    else match (probeLine s k).find? (fun e => validFor e v) with
      | some e => some (n, slice e.result 0 32)
      | none => decideRule s failed v (n + 1) ks

/-- A frame with all its probes back goes to pitch formation, or is discarded for a failed probe (R72, R331). -/
def ruleDecided (s : State) (w : RuleWait) : State :=
  let x := frameOf s w.frame
  let h := hdrOf x
  match decideRule s w.failed h.rsver 1 (ruleKeys h) with
  | none => dropAtCol (nakFrame s x.lp h 0x0A 0) w.frame
  | some (level, r) => formPitch (setFrame s w.frame { x with level := level, rule := r }) w.frame

/-- Frames that wait go on in arrival order, each when its reads are back and no earlier frame of its domain
waits (R65, R74). -/
def releaseWaiting (s : State) (blocked : List (BitVec 12 × BitVec 24 × BitVec 16)) : List RuleWait → State
  | [] => s
  | w :: ws =>
    let d := domainOf s w.frame
    if w.misses.isEmpty && !blocked.contains d then
      let s := { s with col := { s.col with waiting := s.col.waiting.filter (fun x => x.frame != w.frame) } }
      releaseWaiting (ruleDecided s w) blocked ws
    else releaseWaiting s (d :: blocked) ws

/-- Issue the three probes of a frame: hits are counted and touched, misses wait for HBM (R71, R74, R100). -/
def ruleProbe (s : State) (f : Nat) : State :=
  let keys := ruleKeys (hdrOf (frameOf s f))
  let (s, misses) := keys.foldl (fun (acc : State × List (BitVec 64)) k =>
    match cacheFind acc.1 k with
    | some l => (cacheTouch (bump acc.1 0x4801 6) l, acc.2)
    | none => (bump acc.1 0x1020 6, acc.2 ++ [k])) (s, [])
  let s := { s with col := { s.col with waiting := s.col.waiting ++ [{ frame := f, misses := misses }] } }
  releaseWaiting s [] s.col.waiting

/-- The reads of a waiting frame return: what they read is installed, and frames go on (R74, R100, R331). -/
def execRuleReadDone (frame : Nat) (s : State) : Res := live s <|
  match s.col.waiting.find? (fun w => w.frame == frame) with
  | none => .next s
  | some w =>
    if w.misses.any (probeWaits s) then .next s else
    let (s, failed) := w.misses.foldl (fun (acc : State × List (BitVec 64)) k =>
      match probeHbm acc.1 k with
      | (s, true) => (s, acc.2)
      | (s, false) => (s, acc.2 ++ [k])) (s, [])
    let s := { s with col := { s.col with waiting := s.col.waiting.map (fun x =>
      if x.frame == frame then { x with misses := [], failed := failed } else x) } }
    .next (finishScans (releaseWaiting s [] s.col.waiting))

/-! ### Pairing (R241, R242) -/

/-- Rewrite a paired RSP toward its host, and what Vault needs to know of it. -/
def pairHdr (p : Pair) (h : Sxt) : Sxt × Pair :=
  let g := h.addr.toNat % 2 ^ 52
  let g0 := p.gaddr.toNat % 2 ^ 52
  let ahead := g - g0
  let addr := if p.kind = 3 then p.taddr else p.taddr + BitVec.ofNat 64 ahead
  ({ h with dst := p.hostEp, ostream := p.ostream, tag := p.tag, addr := addr },
   { p with gaddr := h.addr, trim := g0 - g, want := if p.kind = 3 then h.len.toNat else p.want - ahead })

/-- The reply ends its request: LAST, an ATOM's result, or a frame that reaches the end of the read. A WR ends with its ACK
(R242). -/
def pairEnds (p : Pair) (h : Sxt) : Bool :=
  p.kind != 1 && (h.last || p.kind == 3 ||
    decide (p.gaddr.toNat % 2 ^ 52 + p.want ≤ h.addr.toNat % 2 ^ 52 + h.len.toNat))

/-! ### The frame in the buffer -/

/-- Cell writes that wait for a bank, on every port. -/
def stagedCells (s : State) : Nat := (s.trav.stage.map (·.2.length)).sum

/-- Banks that have a free cell, as an allocation sees them (R284). -/
def openBanks (s : State) : Nat :=
  ((List.range 64).filter (fun b => decide (lowestFree (b * 12288) (unseen (cycFrees s).cells s.trav.usedCells) < (b + 1) * 12288))).length

/-- Slot and cells for an arriving frame, number `nextFrame` (R281 to R283). The last `noBank` of its cells found no bank in
their dp-cycle, which the reads of other cells may use before them (R282; DESIGN CHOICE, log entry 112), and wait in the port's write stage; a full stage discards the frame where fewer banks have free cells than
writes are pending, and else leaves its cells no need to wait. -/
def storeFrame (s : State) (lp : Nat) (bs : List Byte) (noBank : Nat) : State × Option (Nat × List Nat) :=
  let n := cellsFor bs.length
  let wait := min noBank n
  let st := mget s.trav.stage (lp / 4) []
  let full := decide (32 < st.length + wait)
  let wait := if full then 32 - st.length else wait
  match pickHead s false with
  | none => (bump s 0x5800 7, none)
  | some hd =>
    if cellsSeen s < n + stagedCells s then (bump s 0x5800 7, none)
    else if full && decide (openBanks s < stagedCells s + min noBank n) then (bump s 0x5800 8, none)
    else
      match takeCells (useHead s hd) (n - wait) with
      | none => (bump s 0x5800 7, none)
      | some (s', cs) =>
        let st := st ++ List.replicate wait s.nextFrame
        ({ s' with trav := { s'.trav with
            stage := if st.isEmpty then s'.trav.stage else mset s'.trav.stage (lp / 4) st } }, some (hd, cs))

/-- The bytes of a frame with its header rewritten. -/
def withHdr (bs : List Byte) (off : Nat) (h : Sxt) : List Byte := splice bs off (buildSxt h)

/-- From the version stamp to pitch formation (R70 to R75). The SKX-9624 answers an SRD addressed to it after the source
search, before the rule probes, and forwards one in transit. DESIGN CHOICE, log entry 98. -/
def lookupStage (s : State) (lp : Nat) (bs : List Byte) (off : Nat) (ecn : BitVec 2) (h : Sxt) (colour : Nat)
    (store : Nat × List Nat) (pr : Option Pair) : State :=
  let s := settleLease s
  let here := h.dst == devEp s && pr.isNone
  let h := { h with rsver := s.col.ver.current, colour := BitVec.ofNat 2 colour }
  let f := s.nextFrame
  let s := versionUp { s with nextFrame := f + 1 } h.rsver
  let s := modPort s lp (fun p => { p with
    ingress := lset p.ingress h.cls.toNat (lget p.ingress h.cls.toNat 0 + cdiv bs.length 256) })
  let ecn := if 60 ≤ off then ecn else if ten s h.tid.toNat 0x73 = 1 then 2 else 0
  let x : Frame := { lp := lp, arr := ft s, bytes := withHdr bs off h, off := off, ecn := ecn, head := store.1,
                     cells := store.2, credited := bit (lpo s lp 0x0A) h.cls.toNat, pair := pr }
  let (s, src) := sourceLookup s lp h
  let s := setFrame s f { x with srcLp := src }
  if here && rangeBad h then dropAtCol (nakFrame (bumpLp s lp 0x17) lp h 0x0B 0) f
  else if fenceBad s lp h then dropAtCol (nakFrame (bump s 0x8002 9) lp h 7 0) f
  else if here && h.typ == 2 && absent s then dropAtCol (nakFrame s lp h 8 0) f
  else
    let (s, dk, dl) :=
      match pr with
      | some p => (s, 0, p.hostLp)
      | none =>
        if here then (s, 2, 0)
        else match epLookup s (epKey h.tid h.dst) with
          | (s, some e) => (s, 0, eLp e)
          | (s, none) => (s, 1, 0)
    ruleProbe (setFrame s f { x with srcLp := src, dkind := dk, destLp := dl }) f

/-- An ingress queue has room for a frame's cells (R110). -/
def ingressFits (s : State) (lp cls n : Nat) : Bool :=
  decide (lget (port s lp).ingress cls 0 + n ≤ ingressLimit s)

/-- The head slot and cells of an arriving frame are given back. -/
def unstore (s : State) (store : Nat × List Nat) : State := dropStage (freeCellList (freeHead s store.1) store.2) s.nextFrame

/-- The entry that pairs an RSP received on a MEMORY port (R241). -/
def pairFor (s : State) (lp : Nat) (h : Sxt) : Option Pair := (pairAt s lp h.tag.toNat).filter (fun p => p.tid == h.tid)

/-- A frame that the sender's credit pays for has come: the cells received count towards what is granted (R44). -/
def countGranted (s : State) (lp : Nat) (bs : List Byte) (h : Sxt) : State :=
  if creditFree h.typ then s
  else modPort s lp (fun p => { p with
    grantLimit := lset p.grantLimit h.cls.toNat (lget p.grantLimit h.cls.toNat 0 + BitVec.ofNat 32 (cdiv bs.length 256)) })

/-- Ingress admission, pairing, policing and acceptance of a frame past the SXT node (R16, R68, R110, R241, R444;
the order is DEDUCED, log entry 10). A frame that does not fit is discarded and counted whether or not PFC acts on its class.
DESIGN CHOICE, log entry 99. -/
def admitFrame (s : State) (lp : Nat) (bs : List Byte) (off : Nat) (ecn : BitVec 2) (h : Sxt)
    (store : Nat × List Nat) : State :=
  let here := h.dst == devEp s
  if !ingressFits s lp h.cls.toNat (cdiv bs.length 256) then unstore (bumpLp s lp 0x1B) store
  else if here && h.typ == 4 && role s lp == 1 then
    let (s1, v) := accept s lp h
    match pairFor s1 lp h with
      | none => unstore (let s := bump s1 0x4831 5; if v = .fresh then settle s h.src h.psn else s) store
      | some p =>
        if v ≠ .fresh then unstore s1 store
        else
          match police s h.tid.toNat h.colour.toNat bs.length with
          | (sp, _, true) => unstore sp store
          | (_, col, false) =>
            let s2 := (police s1 h.tid.toNat h.colour.toNat bs.length).1
            let s2 := settle s2 h.src h.psn
            let s2 := if pairEnds p h then dropPair s2 p else s2
            let (h', p') := pairHdr p h
            lookupStage s2 lp bs off ecn h' col store (some p')
  else
    match police s h.tid.toNat h.colour.toNat bs.length with
    | (s, _, true) => unstore s store
    | (s, col, false) =>
      if here && sequenced h.typ then
        match accept s lp h with
        | (s, .fresh) => lookupStage s lp bs off ecn h col store none
        | (s, _) => unstore s store
      else lookupStage s lp bs off ecn h col store none

/-- The SXT node (R23, R27, R31, R63): what only PULSE and CRED may carry to the link-local endpoint goes no further (R28),
uncounted and unanswered, once its source MAC is learned. DESIGN CHOICE, log entry 114. -/
def sxtNode (s : State) (lp : Nat) (bs : List Byte) (off : Nat) (ip6 : Option (BitVec 128)) (ecn : BitVec 2)
    (store : Nat × List Nat) : State :=
  let h := parseSxt (bs.drop off)
  let here := h.dst == devEp s
  if sxtBad bs off then
    let s := unstore (bumpLp s lp 0x17) store
    if sxtWhole bs off && sequenced h.typ && here then
      match accept s lp h with
      | (s, .fresh) => finalNak s lp h 0x0B 0
      | (s, _) => s
    else s
  else if h.typ == 9 && h.tid != 0 then unstore (bump s 0x1020 7) store
  else
    let s := countGranted s lp bs h
    let stray := h.typ == 4 && here && role s lp == 1 && (pairFor s lp h).isNone
    let s := if stray then s else modPort s lp (fun p => { p with
      dstMac := BitVec.ofNat 48 (beAt bs 6 6), dstIp6 := ip6.getD p.dstIp6 })
    if h.typ == 8 then unstore (pulseReceived s lp h) store
    else if h.typ == 7 then
      let lim := (List.range 8).map (fun c =>
        if bit h.xarg.toNat c then BitVec.ofNat 32 (beAt bs (off + 32 + 4 * c) 4) else lget (port s lp).credLimit c 0)
      unstore (modPort s lp (fun p => { p with credLimit := lim, credSeen := true })) store
    else if h.dst == 0xFFFFFF#24 then unstore s store
    else if h.typ == 5 && closesOwn s h then unstore (ackReceived s h) store
    else if h.typ == 6 && closesOwn s h then unstore (nakReceived s h) store
    else admitFrame s lp bs off ecn h store

/-- A frame arrives whole at a port; any but a PULSE keeps the device from being idle (R388). -/
def execFrameReceived (lp : Nat) (bytes : List Byte) (noBank : Nat) (s : State) : Res :=
  let s := wokenBy s lp
  if !(on s && linkUp s lp) then .next s
  else
  let s := if macTest bytes == .pass && (pulseIn s lp bytes).isSome then s else stir s
  match macTest bytes with
  | .undersize => .next (bumpLp s lp 0x24)
  | .oversize => .next (bumpLp s lp 0x18)
  | .fcs => .next (bumpLp s lp 0x16)
  | .pass =>
    let s := bumpBy (bumpLp s lp 0x12) (0x2000 + lp) 0x14 bytes.length
    if !inService s then
      let s := bumpLp s lp 0x1E
      match pulseIn s lp bytes with
      | some h => .next (if s.sys.everInService then pulseReceived s lp h else s)
      | none => .next s
    else if beAt bytes 12 2 = 0x8808 then .next (pfcReceived s lp bytes)
    else
      match storeFrame s lp bytes noBank with
      | (s, none) => .next s
      | (s, some store) =>
        match parseFrame s lp bytes with
        | .discard idx sub => .next (unstore (bump s idx sub) store)
        | .ptp off => .next (unstore (ptpHand (bump s 0x1020 5) lp (bytes.drop off)) store)
        | .sxt off ip6 ecn => .next (finishScans (sxtNode s lp bytes off ip6 ecn store))

end Sys2Proof.Machine
end

