-- ==== Sys2Proof/Machine/Crampon.lean ====
section
/-! DEFINITION. Crampon: the KMV moves (R148), the KOP operations (R200 to R205), the results on the scoreboard
(R198, R199, R234) and KSAVE and KLOAD (R206). -/

namespace Sys2Proof.Machine

/-! ### Lanes and bytes (R196) -/

def laneAt (k : KWord) (i : Nat) : Word := (k >>> (64 * i)).setWidth 64

def withLane (k : KWord) (i : Nat) (v : Word) : KWord :=
  (k &&& ~~~(0xFFFFFFFFFFFFFFFF#512 <<< (64 * i))) ||| (v.setWidth 512 <<< (64 * i))

def kBytes (k : KWord) : List Byte := toLE 64 k.toNat

/-! ### Moves (R148) -/

/-- KMV.WK. -/
def execKmvWk (r : Issuer) (kd : BitVec 4) (w : BitVec 5) (lane : BitVec 3) (s : State) : Res :=
  issueK s r [kd] (fun s =>
    let x := rope s r.toNat
    .done (kPost s r.toNat kd (withLane (getK x kd) lane.toNat (getW x w)) 1))

/-- KMV.KW. -/
def execKmvKw (r : Issuer) (w : BitVec 5) (ka : BitVec 4) (lane : BitVec 3) (s : State) : Res :=
  issueK s r [ka] (fun s => .done (modRope s r.toNat (fun x => setW x w (laneAt (getK x ka) lane.toNat))))

/-- Units of 1/90 ns until a load of a region into a k register arrives (R139, R148, R324). -/
def kLoadTime (s : State) (g : Region) : Nat :=
  match g with
  | .window => 3 * dpU s
  | .scratch => 4 * dpU s
  | .imem => 5 * dpU s
  | .ctl => 13 * dpU s
  | .hbm => nsU 600 + dpU s

/-- KMV.LD: a load of cluster control is class L and gives up the core at issue; any other, that of HBM too, leaves its
register pending (R139, R148). DEDUCED, log entry 31. -/
def execKmvLd (r : Issuer) (kd : BitVec 4) (w : Checked (BitVec 5)) (s : State) : Res :=
  issueK s r [kd] (fun s =>
    let n := r.toNat
    let a := getW (rope s n) w.val
    match access s (rope s n) a.toNat 64 64 false with
    | .error c => .trap c a
    | .ok g =>
      if w.parity then .trap 0x0A a
      else if memMedia s g a.toNat 64 then .trap 9 a
      else if g = .ctl then .held (stall s n (.kload kd a))
      else
        let p : KPend := { kd := kd, value := kOf (memRead s n g a.toNat 64), due := s.time.now + kLoadTime s g, src := some a.toNat }
        .done (modRope s n (fun x => { x with kPend := x.kPend ++ [p] })))

/-- KMV.ST. -/
def execKmvSt (r : Issuer) (ka : BitVec 4) (w : BitVec 5) (s : State) : Res :=
  issueK s r [ka] (fun s =>
    let n := r.toNat
    let a := getW (rope s n) w
    let bs := kBytes (getK (rope s n) ka)
    match access s (rope s n) a.toNat 64 64 true with
    | .error c => .trap c a
    | .ok g =>
      let t := memWrite s n g a.toNat bs
      if g = .ctl && suspends a.toNat bs then .held (stall (modRope t n nextPc) n .task) else .done t)

/-- KMV.KK. -/
def execKmvKk (r : Issuer) (kd ka : BitVec 4) (s : State) : Res :=
  issueK s r [ka, kd] (fun s => .done (kPost s r.toNat kd (getK (rope s r.toNat) ka) 1))

/-! ### Operations (R200 to R204) -/

/-- The bytes of a k register that w covers: n bytes from s on (R201). -/
def covered (k : KWord) (w : Word) : List Byte :=
  let n := w.toNat / 2 ^ 32 % 128
  let s := w.toNat / 2 ^ 40 % 64
  ((kBytes k).drop s).take n

/-- KCRC32C. -/
def execKcrc32c (r : Issuer) (kd ka : BitVec 4) (w : BitVec 5) (s : State) : Res :=
  issueK s r [ka, kd] (fun s =>
    let x := rope s r.toNat
    let v := getW x w
    .done (kPost s r.toNat kd (BitVec.ofNat 512 (crc 0x82F63B78 (v.toNat % 2 ^ 32) (covered (getK x ka) v))) 4))

/-- KCRC32. -/
def execKcrc32 (r : Issuer) (kd ka : BitVec 4) (w : BitVec 5) (s : State) : Res :=
  issueK s r [ka, kd] (fun s =>
    let x := rope s r.toNat
    let v := getW x w
    .done (kPost s r.toNat kd (BitVec.ofNat 512 (crc 0xEDB88320 (v.toNat % 2 ^ 32) (covered (getK x ka) v))) 4))

/-- The two seeded hashes of R202. -/
def kh2Of (ka kb : KWord) (w : Word) : KWord :=
  let h (seed : Nat) : Nat := crc32c (toBE 4 seed ++ covered ka w)
  BitVec.ofNat 512 (h (kb.toNat % 2 ^ 32) + h (kb.toNat / 2 ^ 32 % 2 ^ 32) * 2 ^ 64)

/-- KH2. -/
def execKh2 (r : Issuer) (kd ka kb : BitVec 4) (w : BitVec 5) (s : State) : Res :=
  issueK s r [ka, kb, kd] (fun s =>
    let x := rope s r.toNat
    .done (kPost s r.toNat kd (kh2Of (getK x ka) (getK x kb) (getW x w)) 5))

/-- The masked compare of R203: byte-equal bits in lane 0, lane-equal bits and ALL in lane 1. -/
def kcmpmOf (ka kb mask : KWord) : KWord :=
  let d := toLE 64 ((ka ^^^ kb) &&& mask).toNat
  let e := d.map (fun b => b == 0)
  let lane (l : Nat) : Bool := ((e.drop (8 * l)).take 8).all id
  let lane0 := ((e.zipIdx).map (fun p => b2n p.1 * 2 ^ p.2)).sum
  let lane1 := ((List.range 8).map (fun l => b2n (lane l) * 2 ^ (8 + l))).sum + b2n (e.all id)
  BitVec.ofNat 512 (lane0 + lane1 * 2 ^ 64)

/-- KCMPM. -/
def execKcmpm (r : Issuer) (kd ka kb : BitVec 4) (s : State) : Res :=
  issueK s r [ka, kb, kd] (fun s =>
    let x := rope s r.toNat
    .done (kPost s r.toNat kd (kcmpmOf (getK x ka) (getK x kb) (getK x kd)) 2))

/-- The splice of R204. -/
def kspliceOf (ka kb : KWord) (w : Word) : KWord :=
  let o := w.toNat % 64
  let m := w.toNat / 2 ^ 8 % 128
  let a := kBytes ka
  kOf (((List.range 64).map (fun i => if o ≤ i ∧ i < o + m then lget (kBytes kb) (i - o) 0 else lget a i 0)))

/-- KSPLICE. -/
def execKsplice (r : Issuer) (kd ka kb : BitVec 4) (w : BitVec 5) (s : State) : Res :=
  issueK s r [ka, kb, kd] (fun s =>
    let x := rope s r.toNat
    .done (kPost s r.toNat kd (kspliceOf (getK x ka) (getK x kb) (getW x w)) 2))

/-! ### KTXL (R205) -/

/-- KTXL operations of a core that are outstanding. -/
def txlOut (s : State) (k : Nat) : Nat :=
  ((List.range 8).map (fun i => ((rope s (k * 8 + i)).kPend.filter (fun p =>
    p.isTxl && (p.miss.isSome || decide (s.time.now < p.due)))).length)).sum

/-- KTXL: a hit or a result that needs no map read is due after 24 dp-cycles, a miss after the map read too. -/
def execKtxl (r : Issuer) (kd ka : BitVec 4) (s : State) : Res :=
  issueK s r [ka, kd] (fun s =>
    let n := r.toNat
    if 16 ≤ txlOut s (ropeCore n) then .held (stall s n .ktxl)
    else
      let k := getK (rope s n) ka
      let l1 := laneAt k 1
      let s := bump s (0x4040 + ropeCluster n) 0x11
      let post (s : State) (p : KPend) : State := modRope s n (fun x => { x with kPend := x.kPend ++ [p] })
      match txlIssue s (laneAt k 0) (l1.setWidth 12) (l1.getLsbD 16) with
      | (s, .inl v) => .done (post s { kd := kd, value := v, due := s.time.now + 24 * dpU s, isTxl := true })
      | (s, .inr m) =>
        .done (post (bump s (0x4040 + ropeCluster n) 0x12)
          { kd := kd, value := 0, due := s.time.now + 24 * dpU s + nsU 600, isTxl := true, miss := some m }))

/-- A pending result is written at its instant, after those of the rope that are due before it; one that cannot be written
yet waits (R198). -/
def execKResultWritten (r : RopeId) (kd : BitVec 4) (s : State) : Res := live s <|
  match pendingK (rope s r.toNat) kd with
  | none => .next s
  | some p => if kHeld s p then .next s else .next (kDue s r.toNat p.due)

/-- The map read of a KTXL miss returns: what it read is installed in the cache, and the result is known (R234,
R237, R238). -/
def execMapReadDone (r : RopeId) (kd : BitVec 4) (s : State) : Res := live s <|
  match pendingK (rope s r.toNat) kd with
  | none => .next s
  | some p => match p.miss with
    | none => .next s
    | some m =>
      if throttled s .table ((copyFor s s.hbm.mapBaseA s.hbm.mapBaseB (m.off / 2 ^ 21)).1 + 16 * (m.off / 2 ^ 21)) then .next s else
      let (s, v) := txlMissDone s m
      .next (modRope s r.toNat (fun x => { x with
        kPend := x.kPend.map (fun q => if q.kd = kd then { q with value := v, miss := none } else q) }))

/-! ### KSAVE and KLOAD (R206) -/

/-- The 1,024 B at an address: in the scratchpad and aligned to 1,024 B. -/
def kArea (s : State) (r : Nat) (w : BitVec 5) : Except Nat Nat :=
  let a := (getW (rope s r) w).toNat
  if 0x400000 ≤ a then .error 3 else if a % 1024 != 0 then .error 4 else .ok a

def allK : List (BitVec 4) := (List.range 16).map (BitVec.ofNat 4)

/-- KSAVE: nothing pending, then k0 to k15 go to the scratchpad; class L. -/
def execKsave (r : Issuer) (w : BitVec 5) (s : State) : Res :=
  issueK s r allK (fun s =>
    let n := r.toNat
    match kArea s n w with
    | .error c => .trap c (getW (rope s n) w)
    | .ok a =>
      let t := memWrite s n .scratch a (allK.flatMap (fun k => kBytes (getK (rope s n) k)))
      .held (stall (modRope t n nextPc) n .kstate))

/-- KLOAD: k0 to k15 come from the scratchpad; class L. -/
def execKload (r : Issuer) (w : Checked (BitVec 5)) (s : State) : Res :=
  issueK s r allK (fun s =>
    let n := r.toNat
    match kArea s n w.val with
    | .error c => .trap c (getW (rope s n) w.val)
    | .ok a =>
      if w.parity then .trap 0x0A (getW (rope s n) w.val) else
      let bs := memRead s n .scratch a 1024
      let t := modRope s n (fun x => allK.foldl (fun x k => setK x k (kOf (slice bs (64 * k.toNat) 64))) x)
      .held (stall (modRope t n nextPc) n .kstate))

end Sys2Proof.Machine
end

