-- ==== Sys2Proof/Machine/Floats.lean ====
section
/-! DEFINITION. The IEEE 754 arithmetic that a float SUM takes (R265): F32 to F64, and the sum of two F64, rounded to
nearest, ties to even (log entry 19). -/

namespace Sys2Proof.Machine

/-- The F64 of a magnitude n × 2^(e − 1075), e at least 1. -/
def f64Pack (neg : Bool) (n e : Nat) : BitVec 64 :=
  let sign := b2n neg * 2 ^ 63
  let put (m e : Nat) : BitVec 64 :=
    BitVec.ofNat 64 (sign + (if 2047 ≤ e then 2047 * 2 ^ 52 else if m < 2 ^ 52 then m else (e - 1) * 2 ^ 52 + m))
  let len := if n = 0 then 0 else Nat.log2 n + 1
  if len ≤ 53 then
    let k := min (53 - len) (e - 1)
    put (n * 2 ^ k) (e - k)
  else
    let k := len - 53
    let q := n / 2 ^ k
    let r := n % 2 ^ k
    let up := 2 ^ (k - 1) < r || (r == 2 ^ (k - 1) && q % 2 == 1)
    let q := if up then q + 1 else q
    if q = 2 ^ 53 then put (2 ^ 52) (e + k + 1) else put q (e + k)

/-- A quiet NaN; its sign and payload are free values of the operands, for IEEE 754 leaves them open. -/
def f64Nan (a b : BitVec 64) : BitVec 64 := 0x7FF8000000000000#64 ||| (Config.nanBits a b &&& 0x8007FFFFFFFFFFFF#64)

def f64Exp (a : BitVec 64) : Nat := bits a.toNat 62 52
def f64Frac (a : BitVec 64) : Nat := bits a.toNat 51 0

/-- The signed significand of a finite value, in units of its exponent. -/
def f64Sig (a : BitVec 64) : Int :=
  let m : Int := if f64Exp a = 0 then f64Frac a else f64Frac a + 2 ^ 52
  if bit a.toNat 63 then -m else m

/-- The sum of two F64. PRESUMED, log entry 19. -/
def f64Add (a b : BitVec 64) : BitVec 64 :=
  let ea := f64Exp a
  let eb := f64Exp b
  let nan (e : Nat) (x : BitVec 64) : Bool := e == 2047 && f64Frac x != 0
  if nan ea a || nan eb b then f64Nan a b
  else if ea = 2047 then (if eb = 2047 && a != b then f64Nan a b else a)
  else if eb = 2047 then b
  else
    let xa := max 1 ea
    let xb := max 1 eb
    let lo := min xa xb
    let sum : Int := f64Sig a * 2 ^ (xa - lo) + f64Sig b * 2 ^ (xb - lo)
    if sum = 0 then f64Pack (bit a.toNat 63 && bit b.toNat 63) 0 1
    else f64Pack (decide (sum < 0)) sum.natAbs lo

/-- The F64 of an F32: exact, and a NaN stays one, quiet, with its sign and payload. -/
def f32ToF64 (x : BitVec 32) : BitVec 64 :=
  let neg := bit x.toNat 31
  let e := bits x.toNat 30 23
  let f := bits x.toNat 22 0
  if e = 255 then
    BitVec.ofNat 64 (b2n neg * 2 ^ 63 + 2047 * 2 ^ 52 + (if f = 0 then 0 else f % 2 ^ 22 * 2 ^ 29 + 2 ^ 51))
  else f64Pack neg (if e = 0 then f else f + 2 ^ 23) (max 1 e + 925)

end Sys2Proof.Machine
end

