-- ==== Sys2Proof/Machine/Predicate.lean ====
section
/-! DEFINITION. Predicate programs: validation (R266), terms (R262 to R264) and aggregates (R265). -/

namespace Sys2Proof.Machine

/-! ### Columns and values (R262) -/

structure Column where
  off : Nat
  ty : Nat
  len : Nat
  deriving DecidableEq, Repr

def columnOf (p : List Byte) (i : Nat) : Column :=
  let o := 0x40 + 4 * i
  { off := ofLE (slice p o 2), ty := (lget p (o + 2) 0).toNat, len := (lget p (o + 3) 0).toNat }

def colWidth (c : Column) : Nat :=
  match c.ty with
  | 0 => 1 | 1 => 2 | 2 => 4 | 3 => 8 | 4 => 1 | 5 => 2 | 6 => 4 | 7 => 8 | 8 => 4 | 9 => 8
  | _ => c.len

/-- A float as an integer in the order of IEEE 754, none for a NaN; `e` exponent and `m` mantissa bits. −0 and
+0 are both 0. -/
def floatKey (e m v : Nat) : Option Int :=
  let mag := v % 2 ^ (e + m)
  if (2 ^ e - 1) * 2 ^ m < mag then none
  else if bit v (e + m) then some (-(mag : Int)) else some mag

/-- The value of a number in its order: none for a NaN. -/
def numKey (ty : Nat) (bs : List Byte) : Option Int :=
  let v := ofLE bs
  if ty ≤ 3 then some v
  else if ty ≤ 7 then some ((v : Int) - (if bit v (8 * bs.length - 1) then 2 ^ (8 * bs.length) else 0))
  else if ty = 8 then floatKey 8 23 v
  else floatKey 11 52 v

/-- Lexicographic order by unsigned byte: −1, 0 or 1. -/
def byteOrder : List Byte → List Byte → Int
  | a :: as, b :: bs => if a.toNat < b.toNat then -1 else if b.toNat < a.toNat then 1 else byteOrder as bs
  | [], _ :: _ => -1
  | _ :: _, [] => 1
  | [], [] => 0

/-- How two values of a column's type compare: none with a NaN. -/
def valOrder (ty : Nat) (x y : List Byte) : Option Int :=
  if ty = 0xA then some (byteOrder x y)
  else match numKey ty x, numKey ty y with
    | some a, some b => some (a - b)
    | _, _ => none

/-! ### Terms (R263, R264) -/

structure Term where
  op : Nat
  a : Nat
  b : Nat
  c : Nat
  deriving DecidableEq, Repr

def termOf (p : List Byte) (i : Nat) : Term :=
  let o := 0xC0 + 8 * i
  { op := (lget p o 0).toNat, a := (lget p (o + 1) 0).toNat, b := ofLE (slice p (o + 2) 2), c := ofLE (slice p (o + 4) 2) }

def poolAt (p : List Byte) (o n : Nat) : List Byte := slice p (0x800 + o) n

/-- A column is null in a row. -/
def isNull (p row : List Byte) (c : Nat) : Bool := progFlag p 1 && bit (ofLE (slice row (progNull p) 4)) c

/-- A comparison: NE is true with a NaN, every other false (R262). -/
def cmpHolds (op : Nat) (o : Option Int) : Bool :=
  match o with
  | none => op == 2
  | some d => match op with
    | 1 => d == 0
    | 2 => d != 0
    | 3 => decide (d < 0)
    | 4 => decide (d ≤ 0)
    | 5 => decide (0 < d)
    | 6 => decide (0 ≤ d)
    | _ => false

/-- ASCII letters alike in either case. -/
def foldCase (b : Byte) : Byte := if 0x41 ≤ b.toNat ∧ b.toNat ≤ 0x5A then b + 0x20 else b

/-- A pattern of the table: its bytes and FOLD. -/
def patternOf (p : List Byte) (i : Nat) : List Byte × Bool :=
  let o := 0x300 + 4 * i
  (slice p (0x400 + ofLE (slice p o 2)) (lget p (o + 2) 0).toNat, bit (lget p (o + 3) 0).toNat 0)

/-- A pattern occurs complete in a list of bytes. -/
def occurs (pat : List Byte × Bool) : List Byte → Bool
  | [] => pat.1.isEmpty
  | b :: bs =>
    let f := fun l : List Byte => if pat.2 then l.map foldCase else l
    (f pat.1).isPrefixOf (f (b :: bs)) || occurs pat bs

/-- Whether a term holds of a row, given the terms before it. DEDUCED, log entry 35. -/
def termHolds (p row : List Byte) (prev : List Bool) (t : Term) : Bool :=
  let c := columnOf p t.a
  let w := colWidth c
  let v := slice row c.off w
  let null := isNull p row t.a
  if t.op ≤ 6 then !null && cmpHolds t.op (valOrder c.ty v (poolAt p t.b w))
  else match t.op with
    | 7 => !null && cmpHolds 6 (valOrder c.ty v (poolAt p t.b w)) && cmpHolds 4 (valOrder c.ty v (poolAt p t.c w))
    | 8 => null
    | 9 => !null
    | 0xA => !null && (List.range t.c).any (fun i => cmpHolds 1 (valOrder c.ty v (poolAt p (t.b + i * w) w)))
    | 0xB => !null && (List.range (progNpat p)).any (fun i =>
        bit (ofLE (poolAt p t.b 8)) i && occurs (patternOf p i) v)
    | 0x10 => lget prev t.a false && lget prev (t.b % 256) false
    | 0x11 => lget prev t.a false || lget prev (t.b % 256) false
    | 0x12 => !lget prev t.a false
    | _ => false

/-- RESULT of a row. -/
def rowMatches (p row : List Byte) : Bool :=
  lget ((List.range (progNterm p)).foldl (fun l i => l ++ [termHolds p row l (termOf p i)]) []) (progResult p) false

/-! ### Aggregates (R265) -/

/-- VALUE of a column's value: U64, I64 or F64 by type. -/
def aggValue (ty : Nat) (bs : List Byte) : BitVec 64 :=
  let v := ofLE bs
  if ty ≤ 3 then BitVec.ofNat 64 v
  else if ty ≤ 7 then BitVec.ofInt 64 ((numKey ty bs).getD 0)
  else if ty = 8 then f32ToF64 (BitVec.ofNat 32 v)
  else BitVec.ofNat 64 v

/-- A 64-bit sum of the column's signedness overflows (R265). -/
def sumOvf (ty : Nat) (a b : BitVec 64) : Bool :=
  if ty ≤ 3 then decide (2 ^ 64 ≤ a.toNat + b.toNat)
  else if ty ≤ 7 then decide ((a + b).toInt ≠ a.toInt + b.toInt)
  else false

/-- An aggregate takes a matching row. -/
def aggStep (p row : List Byte) (i : Nat) (g : AggSt) : AggSt :=
  let o := 0x2C0 + 8 * i
  let fn := (lget p o 0).toNat
  let col := (lget p (o + 1) 0).toNat
  let c := columnOf p col
  let bs := slice row c.off (colWidth c)
  let v := aggValue c.ty bs
  if fn = 1 && col = 0xFF then { g with value := g.value + 1, rows := g.rows + 1 }
  else if isNull p row col then g
  else match fn with
    | 1 => { g with value := g.value + 1, rows := g.rows + 1 }
    | 2 => { value := if c.ty ≤ 7 then g.value + v else f64Add g.value v, rows := g.rows + 1
             ovf := g.ovf || sumOvf c.ty g.value v }
    | _ =>
      let key (x : BitVec 64) : Option Int :=
        if c.ty ≤ 3 then some x.toNat else if c.ty ≤ 7 then some x.toInt else floatKey 11 52 x.toNat
      let better := match key v, key g.value with
        | some a, some b => if fn = 3 then decide (a < b) else decide (b < a)
        | _, _ => false
      { g with value := if g.rows = 0 || better then v else g.value, rows := g.rows + 1 }

/-! ### Validation (R266) -/

/-- Bytes other than 0 from `o` on. -/
def nonzero (p : List Byte) (o n : Nat) : Bool := (slice p o n).any (fun b => b != 0)

def headerBad (p : List Byte) : List (Nat × Bool) :=
  let rb := progRow p
  [(0, !([8, 16, 32, 64, 128, 256, 512, 1024, 2048].contains rb)),
   (2, progNcol p == 0 || decide (32 < progNcol p)), (3, progNterm p == 0 || decide (64 < progNterm p)),
   (4, decide (64 < progNpat p)), (5, decide (8 < progNagg p)), (6, decide (progNterm p ≤ progResult p)),
   (7, decide (3 < (lget p 7 0).toNat)), (8, progFlag p 1 && decide (rb < progNull p + 4))]
  ++ (List.range 54).map (fun i => (10 + i, nonzero p (10 + i) 1))

def columnBad (p : List Byte) (i : Nat) : List (Nat × Bool) :=
  let c := columnOf p i
  let o := 0x40 + 4 * i
  [(o, decide (progRow p < c.off + colWidth c)), (o + 2, decide (0xA < c.ty)),
   (o + 3, if c.ty = 0xA then c.len == 0 else c.len != 0)]

def termBad (p : List Byte) (i : Nat) : List (Nat × Bool) :=
  let t := termOf p i
  let o := 0xC0 + 8 * i
  let c := columnOf p t.a
  let w := colWidth c
  let isCol := decide (1 ≤ t.op) && decide (t.op ≤ 0xB)
  let two := t.op == 0x10 || t.op == 0x11
  let usesB := decide (1 ≤ t.op) && decide (t.op ≤ 7)
  let noB := t.op == 8 || t.op == 9 || t.op == 0x12
  let noC := t.op != 7 && t.op != 0xA
  [(o, !(isCol || two || t.op == 0x12)),
   (o + 1, if isCol then decide (progNcol p ≤ t.a) || (t.op == 0xB && c.ty != 0xA) else decide (i ≤ t.a)),
   (o + 2, (usesB && decide (2048 < t.b + w)) || (t.op == 0xA && decide (2048 < t.b + t.c * w)) ||
      (t.op == 0xB && decide (2048 < t.b + 8)) || (two && decide (i ≤ t.b % 256)) || (noB && nonzero p (o + 2) 1)),
   (o + 3, (two || noB) && nonzero p (o + 3) 1),
   (o + 4, if t.op = 7 then decide (2048 < t.c + w) else if t.op = 0xA then t.c == 0 || decide (256 < t.c)
      else nonzero p (o + 4) 1),
   (o + 5, noC && nonzero p (o + 5) 1), (o + 6, nonzero p (o + 6) 1), (o + 7, nonzero p (o + 7) 1)]

def aggBad (p : List Byte) (i : Nat) : List (Nat × Bool) :=
  let o := 0x2C0 + 8 * i
  let fn := (lget p o 0).toNat
  let col := (lget p (o + 1) 0).toNat
  let c := columnOf p col
  [(o, fn == 0 || decide (4 < fn)),
   (o + 1, if col = 0xFF then fn != 1 else decide (progNcol p ≤ col) || (decide (2 ≤ fn) && c.ty == 0xA))]
  ++ (List.range 6).map (fun j => (o + 2 + j, nonzero p (o + 2 + j) 1))

def patternBad (p : List Byte) (i : Nat) : List (Nat × Bool) :=
  let o := 0x300 + 4 * i
  let len (j : Nat) : Nat := (lget p (0x302 + 4 * j) 0).toNat
  let total := ((List.range (i + 1)).map len).sum
  [(o, decide (1024 < ofLE (slice p o 2) + len i)), (o + 2, len i == 0 || decide (64 < len i) || decide (1024 < total)),
   (o + 3, decide (1 < (lget p (o + 3) 0).toNat))]

/-- The offset of the first byte at which an image is invalid. DEDUCED, log entry 36. -/
def progError (p : List Byte) : Option Nat :=
  let checks := headerBad p ++ (List.range (progNcol p)).flatMap (columnBad p)
    ++ (List.range (progNterm p)).flatMap (termBad p) ++ (List.range (progNagg p)).flatMap (aggBad p)
    ++ (List.range (progNpat p)).flatMap (patternBad p)
  (checks.find? (·.2)).map (·.1)

end Sys2Proof.Machine
end

