-- ==== Sys2Proof/Machine/Scree.lean ====
section
/-! DEFINITION. The scan sequencer, the engines and program loading (R254 to R260, R267 to R274). -/

namespace Sys2Proof.Machine

/-! ### Acceptance of segments (R255, R256) -/

def progKey (tid sub : Nat) : Nat := tid * 16 + sub

/-- Where a slot's image stands in HBM (R274). -/
def progAddr (s : State) (tid sub : Nat) : Nat := s.hbm.progBase + 4096 * progKey tid sub

/-- The open scan a segment belongs to: the same TID, SRC_EP and TAG (R256). -/
def scanOf (s : State) (h : Sxt) : Option (Nat × Scan) :=
  s.scree.scans.find? (fun e => e.2.hdr.tid == h.tid && e.2.hdr.src == h.src && e.2.hdr.tag == h.tag)

/-- A load or unload of the slot is pending (R274). -/
def slotPending (s : State) (tid sub : Nat) : Bool :=
  match s.scree.pendingLoad with
  | some (t, n, _) => t == tid && n == sub
  | none => false

/-- A context can be opened for the tenant (R256). -/
def contextFree (s : State) (tid : Nat) : Bool :=
  decide (s.scree.scans.length < 8192) &&
    decide ((s.scree.scans.filter (fun e => e.2.hdr.tid.toNat == tid)).length < ten s tid 0x62)

/-- The refusal of a segment: NAK code and detail (R255). -/
def segRefused (s : State) (g : Segment) : Option (Nat × Nat) :=
  let tid := g.hdr.tid.toNat
  let sub := g.hdr.sub.toNat
  let prog := match scanOf s g.hdr with
    | some (_, c) => some c.prog
    | none => mfind s.scree.progs (progKey tid sub)
  let before := match scanOf s g.hdr with
    | some (_, c) => (c.segs.map (·.len)).sum
    | none => 0
  match prog with
  | none => if role s g.hostLp != 0 then some (0x0B, 0) else some (9, sub)
  | some p =>
    let rb := progRow p
    if role s g.hostLp != 0 then some (0x0B, 0)
    else if g.bad || g.count ≤ g.num || g.count = 0 || 16 < g.count then some (0x0B, 0)
    else if g.len = 0 || g.len % rb != 0 || g.hdr.addr.toNat % rb != 0 || g.base.toNat % rb != 0
        || 2 ^ 40 < before + g.len then some (0x0B, 0)
    else none

/-- A segment waits: its slot is being reloaded and its scan does not run yet, or no context is free. -/
def segWaits (s : State) (g : Segment) : Bool :=
  (scanOf s g.hdr).isNone &&
    (slotPending s g.hdr.tid.toNat g.hdr.sub.toNat ||
      ((segRefused s g).isNone && !contextFree s g.hdr.tid.toNat))

/-- Segments that wait for a context are counted once (R256). -/
def countWaits (s : State) : State :=
  let fresh := s.scree.waiting.filter (fun g => segWaits s g && !g.waited &&
    !slotPending s g.hdr.tid.toNat g.hdr.sub.toNat)
  let s := { s with scree := { s.scree with
    waiting := s.scree.waiting.map (fun g => if segWaits s g && !slotPending s g.hdr.tid.toNat g.hdr.sub.toNat
      then { g with waited := true } else g) } }
  bumpBy s 0x6000 5 fresh.length

/-- A segment as the sequencer runs it. -/
def segRun (s : State) (g : Segment) (rb : Nat) : SegRun :=
  { num := g.num, lp := g.lp, taddr := g.base + BitVec.ofNat 64 (g.row * rb)
    gaddr := (g.hdr.addr &&& 0x0000FFFFFFFFFFFF#64) ||| (s.sys.deviceId.setWidth 64 <<< 48), row := g.row
    len := g.len, left := g.len }

/-- An accepted segment opens a scan, or joins the one that is open (R256, R257). A program on a line marked MEDIA ends the
scan at once (R331). -/
def acceptSegment (s : State) (g : Segment) : State :=
  match scanOf s g.hdr with
  | some (k, c) =>
    setScan s k { c with segs := c.segs ++ [segRun s g (progRow c.prog)], arrived := insertNat g.num c.arrived }
  | none =>
    let p := mget s.scree.progs (progKey g.hdr.tid.toNat g.hdr.sub.toNat) []
    let k := s.scree.nextScan
    let c : Scan := { hdr := g.hdr, hostLp := g.hostLp, count := g.count, prog := p, base := g.base,
                      segs := [segRun s g (progRow p)], arrived := [g.num], firstAt := s.time.now,
                      aggs := List.replicate (progNagg p) {}, ecn := g.ecn
                      stopped := if mediaIn s (progAddr s g.hdr.tid.toNat g.hdr.sub.toNat) 4096 then some (0x0A, 0) else none }
    finishScans (versionUp (setScan { s with scree := { s.scree with nextScan := k + 1 } } k c) g.hdr.rsver)

/-- A refused segment: NAK where no segment of its scan has issued an RD, else the scan ends with the code. -/
def refuseSegment (s : State) (g : Segment) (code detail : Nat) : State :=
  let s := bump s 0x6000 0x0E
  let nak (s : State) : State := sendNak s g.hostLp g.hdr code detail
  match scanOf s g.hdr with
  | none => nak s
  | some (k, c) =>
    if c.issuedAny then finishScans (stopScan s k code detail)
    else nak (retire { s with scree := { s.scree with scans := merase s.scree.scans k } } c.hdr.rsver)

/-- The sequencer takes the first segment that need not wait (R255, R256). -/
def execScanSegmentAccept (s : State) : Res := live s <|
  if absent s then .next s
  else
    let s := countWaits s
    match s.scree.waiting.find? (fun g => !segWaits s g) with
    | none => .next s
    | some g =>
      let s := { s with scree := { s.scree with waiting := s.scree.waiting.erase g } }
      match segRefused s g with
      | some (code, detail) => .next (refuseSegment s g code detail)
      | none => .next (acceptSegment s g)

/-- SegmentWait passes without every segment: the scan ends MALFORMED, detail 1 (R256). -/
def execSegmentWaitExpiry (scan : Nat) (s : State) : Res := live s <|
  match mfind s.scree.scans scan with
  | none => .next s
  | some c =>
    if c.arrived.length < c.count && c.stopped.isNone then
      .next (finishScans (stopScan (advanceTo s (c.firstAt + nsU (obj s 0x6000 7))) scan 0x0B 1))
    else .next s

/-! ### RDs of a scan (R258, R259, R270) -/

/-- Bytes of the next RD: to the end of the 4,096 B block, or of the segment. -/
def rdBytes (g : SegRun) : Nat := min g.left (4096 - g.gaddr.toNat % 4096)

/-- The granule check on entering a new granule: ENC, or the status that stops the scan (R259). -/
def granuleCheck (s : State) (tid : BitVec 12) (g : SegRun) : State × Except (Nat × Nat) Bool :=
  let n := bits g.gaddr.toNat 47 21
  let check (s : State) (e : BitVec 128) : State × Except (Nat × Nat) Bool :=
    let v := e.toNat
    let fail (code : Nat) : State × Except (Nat × Nat) Bool := (bumpTen s tid.toNat 0x53, .error (6, code))
    if !bit v 127 then fail 5
    else if bits v 123 112 != tid.toNat && tid != 0 then fail 4
    else if bit v 125 then fail 7
    else if bits v 104 96 != g.lp then fail 9
    else (s, .ok (bit v 124))
  match txlCached s n with
  | some e => check (txlInstall s n e) e
  | none => match mapRead s n with
    | (s, none) => (s, .error (0x0A, 0))
    | (s, some e) => check (txlInstall s n e) e

/-- An RD of a scan joins the egress queue of its segment's port (R257, R258). -/
def sendScanRd (s : State) (k : Nat) (c : Scan) (g : SegRun) (n : Nat) : State :=
  let h : Sxt := { typ := 0, cls := c.hdr.cls, tid := c.hdr.tid, ostream := c.hdr.ostream, rsver := c.hdr.rsver,
                   src := devEp s, xarg := BitVec.ofNat 16 (n - 1), addr := g.gaddr }
  let q : Pair := { kind := 0, tid := c.hdr.tid, hostEp := c.hdr.src, ostream := c.hdr.ostream, tag := c.hdr.tag,
                    psn := c.hdr.psn, hostLp := c.hostLp, taddr := g.taddr, gaddr := g.gaddr, enc := g.enc, want := n,
                    scan := some k, row := g.row }
  admitNew (versionUp s c.hdr.rsver)
    { hdr := h, lp := g.lp, orig := true, counted := true, ecn := c.ecn, req := some q }

/-- A segment after an RD of `n` bytes. -/
def segStep (g : SegRun) (rb n : Nat) : SegRun :=
  { g with taddr := g.taddr + BitVec.ofNat 64 n, gaddr := g.gaddr + BitVec.ofNat 64 n, row := g.row + n / rb
           left := g.left - n }

def putSeg (l : List SegRun) (g : SegRun) : List SegRun := l.map (fun x => if x.num = g.num then g else x)

/-- The next RD of a scan: its first segment with rows left. -/
def scanRd (s : State) (k : Nat) (c : Scan) : State :=
  match c.segs.find? (fun g => g.left != 0) with
  | none => s
  | some g =>
    let t := c.hdr.tid
    let n := bits g.gaddr.toNat 47 21
    let (s, r) := if ten s t.toNat 0x50 = 0 then (s, .ok false)
      else if g.granule = some n then (s, .ok g.enc) else granuleCheck s t g
    match r with
    | .error (code, detail) => finishScans (stopScan s k code detail)
    | .ok enc =>
      let m := rdBytes g
      let g := { g with enc := enc, granule := some n }
      let s := setScan s k { c with issuedAny := true, outstanding := c.outstanding + 1,
                                    segs := putSeg c.segs (segStep g (progRow c.prog) m) }
      let s := { s with scree := { s.scree with
        window := mset s.scree.window t.toNat (mget s.scree.window t.toNat 0 + m)
        lastScan := mset s.scree.lastScan t.toNat k } }
      finishScans (sendScanRd s k c g m)

/-- A tenant's RDs wait for its window: a wait counts once in ScreeStalls (R270). -/
def stallTenant (s : State) (t : Nat) : State :=
  if s.scree.stalled.contains t then s
  else bumpTen { s with scree := { s.scree with stalled := insertNat t s.scree.stalled } } t 0x64

/-- The sequencer issues one RD for a tenant, its scans in turn, while ScanWindow allows (R258, R270). -/
def execScanRdIssue (tid : BitVec 12) (s : State) : Res := live s <|
  let t := tid.toNat
  if absent s then .next s
  else
    let live := s.scree.scans.filter (fun e => e.2.hdr.tid == tid && e.2.stopped.isNone &&
      e.2.segs.any (fun g => g.left != 0))
    let last := mget s.scree.lastScan t 0
    match (live.filter (fun e => decide (last < e.1)) ++ live).head? with
    | none => .next s
    | some (k, c) =>
      if ten s t 0x61 < mget s.scree.window t 0 then .next (stallTenant s t)
      else .next (scanRd { s with scree := { s.scree with stalled := s.scree.stalled.filter (· != t) } } k c)

/-! ### Engines (R267 to R272) -/

def engineUp (s : State) (e : Nat) : Bool :=
  decide (e < profileEngines s) && !s.scree.removed.contains e && s.scree.testing != some e && !absent s

def enginesUp (s : State) : List Nat := (List.range 32).filter (engineUp s)

/-- A matching row is packed; a full frame is sent (R267). -/
def packRow (s : State) (e k : Nat) (c : Scan) (row : Nat) (bs : List Byte) : State :=
  if !progFlag c.prog 0 then s
  else
    let f := (s.scree.rowFrames.find? (fun f => f.engine == e && f.scan == k)).getD
      { engine := e, scan := k, rows := [], firstAt := s.time.now }
    let f := { f with rows := f.rows ++ [(row, bs)] }
    let s := dropRowFrame s e k
    if 4096 / (8 + progRow c.prog) ≤ f.rows.length then sendRows s f
    else { s with scree := { s.scree with rowFrames := s.scree.rowFrames ++ [f] } }

/-- One row is evaluated: the aggregates take it and it is packed when it matches. -/
def evalRow (s : State) (e k : Nat) (row : Nat) (bs : List Byte) : State :=
  match mfind s.scree.scans k with
  | none => s
  | some c =>
    let s := bump s 0x6000 0x0A
    let hit := rowMatches c.prog bs
    let c := { c with scanned := c.scanned + 1 }
    if hit then
      let aggs := (c.aggs.zipIdx).map (fun g => aggStep c.prog bs g.2 g.1)
      let c := { c with matched := c.matched + 1, aggs := aggs }
      packRow (setScan (bump s 0x6000 0x0B) k c) e k c row bs
    else setScan s k c

/-- The rows of an RSP in address order. -/
def evalRows (s : State) (e k : Nat) (rb : Nat) (bs : List Byte) (row : Nat) : State :=
  (List.range (bs.length / rb)).foldl (fun s i => evalRow s e k (row + i) (slice bs (i * rb) rb)) s

/-- dp-cycles that a program takes for a row (R269). -/
def rowCycles (p : List Byte) : Nat :=
  let terms := (List.range (progNterm p)).map (termOf p)
  let t := cdiv (terms.filter (fun t => t.op != 0xA && t.op != 0xB)).length 4
    + ((terms.filter (fun t => t.op == 0xA)).map (fun t => cdiv t.c 16)).sum
    + ((terms.filter (fun t => t.op == 0xB)).map (fun t => cdiv (columnOf p t.a).len 8)).sum
  max (cdiv (progRow p) 32) t + 1

/-- How long an engine works on an RSP: its rows, at no more than 256 Gbit/s, in proportion less below 1.5 GHz (R269,
R382). -/
def engineTime (s : State) (p : List Byte) (n : Nat) : Nat :=
  max (n / progRow p * rowCycles p * dpU s) (cdiv (n * 3 * dpU s) 64)

/-- Engines that work on a tenant's RSPs now. -/
def enginesOn (s : State) (tid : Nat) : Nat :=
  (s.scree.busy.filter (fun e => e.2.1 == tid && decide (s.time.now < e.2.2))).length

/-- The instant from which an engine is free. -/
def engineFrom (s : State) (e : Nat) : Nat := (mget s.scree.busy e (0, 0)).2

/-- The RSP that the next free engine takes: tenants below ScreeShare in turn (R270). -/
def nextRsp (s : State) : Option ScreeRsp :=
  let q := s.scree.rspQ.filter (fun x => decide (enginesOn s x.tid.toNat < ten s x.tid.toNat 0x60))
  let up := q.filter (fun x => decide (s.scree.lastTid < x.tid.toNat))
  let least (l : List ScreeRsp) : Option ScreeRsp :=
    l.foldl (fun b x => match b with | none => some x | some y => if x.tid.toNat < y.tid.toNat then some x else some y) none
  if up.isEmpty then least q else least up

/-- The other engine that a retry takes: the one that is free first, the lowest number of those (R269, R272). DESIGN CHOICE,
log entry 126. -/
def retryEngine (s : State) (engine : Nat) : Option Nat :=
  ((enginesUp s).filter (· != engine)).foldl (fun b e => match b with
    | none => some e
    | some f => if max s.time.now (engineFrom s e) < max s.time.now (engineFrom s f) then some e else b) none

/-- An engine takes an RSP, once it has done with its last, and evaluates its rows. `parity` 1 is an engine fault that a retry
on another cures, once that is free, 2 one that stays (R269, R272). -/
def execScreeRspEvaluate (engine parity : Nat) (s : State) : Res :=
  if !engineUp s engine then .next s
  else
    let s := advanceTo s (engineFrom s engine)
    match nextRsp s with
    | none => .next s
    | some x =>
      let s := { s with scree := { s.scree with rspQ := s.scree.rspQ.erase x, lastTid := x.tid.toNat } }
      match mfind s.scree.scans x.scan with
      | none => .next s
      | some c =>
        let mate := retryEngine s engine
        let bad := parity != 0 && (2 ≤ parity || mate.isNone)
        let s := if x.bytes = 0 then s else scanRdBack s x.scan x.bytes
        if bad then
          let s := bump { s with scree := { s.scree with removed := insertNat engine s.scree.removed } } 0x6000 0x0D
          let s := cairn s 7 1 3 (toLE 1 engine)
          .next (finishScans (stopScan s x.scan 4 engine))
        else
          let e := if parity = 0 then engine else mate.getD engine
          let s := if parity = 0 then s else bump (advanceTo s (engineFrom s e)) 0x6000 0x0C
          let s := bumpBy s (0x3000 + x.tid.toNat) 0x65 x.data.length
          let s := { s with scree := { s.scree with
            busy := mset s.scree.busy e (x.tid.toNat, s.time.now + engineTime s c.prog x.data.length) } }
          .next (finishScans (evalRows s e x.scan (progRow c.prog) x.data x.row))

/-- RowFlush after its first row, a part-filled row frame is sent (R267). -/
def execRowFlushExpiry (engine scan : Nat) (s : State) : Res := live s <|
  match s.scree.rowFrames.find? (fun f => f.engine == engine && f.scan == scan) with
  | none => .next s
  | some f => .next (sendRows (dropRowFrame (advanceTo s (f.firstAt + nsU (obj s 0x6000 6))) engine scan) f)

/-! ### Engine test (R273) -/

/-- TestGo. -/
def screeTestGo (s : State) : Ack :=
  let e := obj s 0x6001 1
  if s.scree.testing.isSome && serviceState s == 1 then (s, abState, 0)
  else if serviceState s == 1 && ((enginesUp s).filter (· != e)).isEmpty then (putObj s 0x6001 3 2, abState, 0)
  else match maintStart s 5 (obj s 0x4820 1) with
    | (s, some code) => (s, abMaint, code)
    | (s, none) => ackOk (putObj { s with scree := { s.scree with testing := some e } } 0x6001 3 0xFF)

/-- The self-test ends: the engine returns to service, or is removed (R273). -/
def execScreeTestDone (pass : Bool) (s : State) : Res := live s <|
  match s.scree.testing with
  | none => .next s
  | some e =>
    let s := { s with scree := { s.scree with testing := none
                                              removed := if pass then s.scree.removed.filter (· != e)
                                                else insertNat e s.scree.removed } }
    .next (if pass then putObj (stir s) 0x6001 3 0 else cairn (putObj (stir s) 0x6001 3 1) 7 2 3 (toLE 1 e))

/-! ### Programs (R274) -/

def progStart (s : State) (img : Option (List Byte)) : Ack :=
  if s.scree.pendingLoad.isSome && serviceState s == 1 then (s, abState, 0)
  else match maintStart s 4 (obj s 0x4820 1) with
    | (s, some code) => (putObj s 0x6010 6 2, abMaint, code)
    | (s, none) =>
      ackOk (putObj { s with scree := { s.scree with
        pendingLoad := some (obj s 0x6010 1, obj s 0x6010 2, img) } } 0x6010 6 0xFF)

/-- ProgLoad: an invalid image is refused and changes nothing but its status. -/
def progLoad (s : State) : Ack :=
  if s.scree.pendingLoad.isSome && serviceState s == 1 then (s, abState, 0)
  else match closedImage s (key 0x6010 3) with
  | none => (s, abState, 0)
  | some x =>
    let img := rdN x.data 0 4096
    match progError img with
    | some o => ackOk (putObj (putObj s 0x6010 6 1) 0x6010 7 o)
    | none => progStart s (some img)

/-- ProgUnload. -/
def progUnload (s : State) : Ack := progStart s none

/-- The pending load or unload takes effect once no scan runs on the slot's program. -/
def execProgTakesEffect (s : State) : Res := live s <|
  match s.scree.pendingLoad with
  | none => .next s
  | some (t, n, img) =>
    if s.scree.scans.any (fun e => e.2.hdr.tid.toNat == t && e.2.hdr.sub.toNat == n) then .next s
    else
      let s := { s with scree := { s.scree with pendingLoad := none } }
      let s := stir (putObj s 0x6010 6 0)
      match img with
      | some p =>
        let s := { s with scree := { s.scree with progs := mset s.scree.progs (progKey t n) p } }
        .next (hbmWrite s .sys (progAddr s t n) p)
      | none => .next { s with scree := { s.scree with progs := merase s.scree.progs (progKey t n) } }

/-- ProgramsLoaded of a tenant (R277). -/
def progsLoaded (s : State) (t : Nat) : Nat :=
  ((List.range 16).map (fun n => b2n (mfind s.scree.progs (progKey t n)).isSome * 2 ^ n)).sum

end Sys2Proof.Machine
end

