-- ==== Sys2Proof/Machine/Watershed.lean ====
section
/-! DEFINITION. Watershed: the choice of the next pitch, the pitch descriptor, and the straggler and late-release
timers (R113 to R121, R135). -/

namespace Sys2Proof.Machine

/-! ### Token buckets (R113), in 1/90000 token -/

/-- The level of a tenant's bucket in a cluster now. -/
def capLevel (s : State) (c tid : Nat) : Nat :=
  let top := ten s tid 0x42 * 90000
  match mfind (shed s c).tokens tid with
  | none => top
  | some (l, t) => min top (l + ten s tid 0x41 * (s.time.now - t))

def setTokens (s : State) (c tid l : Nat) : State :=
  setShed s c { shed s c with tokens := mset (shed s c).tokens tid (l, s.time.now) }

/-- Every cluster's bucket of a tenant at its level now, before PitchCap or PitchBurst changes. -/
def tokensNow (s : State) (tid : Nat) : State :=
  (List.range (clusters s)).foldl (fun s c => setTokens s c tid (capLevel s c tid)) s

def hasToken (s : State) (c tid : Nat) : Bool := ten s tid 0x41 == 0 || decide (90000 ≤ capLevel s c tid)

def takeToken (s : State) (c tid : Nat) : State :=
  if ten s tid 0x41 = 0 then s else setTokens s c tid (capLevel s c tid - 90000)

/-! ### The choice of a pitch (R113) -/

/-- Tenants eligible in a cluster: the tenant, the pitch at the head of its queue, and its class. -/
def eligible (s : State) (c : Nat) : List (Nat × Nat × Nat) :=
  (shed s c).queues.filterMap (fun e => match e.2 with
    | [] => none
    | k :: _ => match pitch s k with
      | none => none
      | some p => if hasToken s c e.1 then some (e.1, k, p.cls.toNat) else none)

/-- The class served next: 7, then 6, then 5 to 0 in turn. -/
def chooseClass (last : Nat) (cs : List Nat) : Option Nat :=
  if cs.contains 7 then some 7
  else if cs.contains 6 then some 6
  else ((List.range 6).map (fun i => (last + 5 - i) % 6)).find? (fun k => cs.contains k)

/-- The tenant served next in a class, and the pitches it has had in its turn with this one (weighted round robin). -/
def chooseTenant (s : State) (turn : Nat × Nat) (ts : List Nat) : Option (Nat × Nat) :=
  if turn.2 < ten s turn.1 0x40 && ts.contains turn.1 then some (turn.1, turn.2 + 1)
  else match (ts.filter (fun t => decide (turn.1 < t)) ++ ts).head? with
    | none => none
    | some t => some (t, 1)

/-- The next pitch of a cluster: pitch, tenant and class, with the turn that follows. -/
def choosePitch (s : State) (c : Nat) : Option (Nat × Nat × Nat × Nat) :=
  let el := eligible s c
  let sh := shed s c
  match chooseClass sh.lastClass (el.map (·.2.2)) with
  | none => none
  | some k =>
    let ts := (el.filter (fun e => e.2.2 == k)).map (·.1)
    match chooseTenant s (mget sh.turn k (4095, 255)) ts with
    | none => none
    | some (t, had) => (el.find? (fun e => e.1 == t)).map (fun e => (e.2.1, t, k, had))

/-! ### The choice of a core (R114, R173) -/

/-- A rope is free to take work: not the lead rope, and not kept for a pinned task. -/
def ropeFree (s : State) (r : Nat) : Bool :=
  (rope s r).st == .free && (rope s r).pinned.isNone && !isLead s r

/-- The lowest-numbered free pitch rope of a core. -/
def pitchRope (s : State) (k : Nat) : Option Nat :=
  ((List.range 8).map (fun i => k * 8 + i)).find? (fun r => bit (obj s 0x4000 3) (r % 8) && ropeFree s r)

def coreTakes (s : State) (k : Nat) : Bool :=
  !fenced s k && decide ((core s k).inFlight < obj s 0x4000 2) && (pitchRope s k).isSome

/-- The next core in round-robin order that R114 allows, other than `no`. -/
def chooseCore (s : State) (c : Nat) (no : Option Nat) : Option Nat :=
  ((List.range 16).map (fun i => c * 16 + ((shed s c).lastCore + 1 + i) % 16)).find? (fun k =>
    coreTakes s k && no != some k)

/-! ### The pitch descriptor (R116, R117, R135) -/

/-- The frames of a pitch as they were received: those held, or those that were held when it was marked late. -/
def framesOf (s : State) (p : Pitch) : List Frame := if p.late then p.kept else p.frames.map (frameOf s)

def descBytes (s : State) (p : Pitch) : List Byte :=
  toLE 4 p.ticket.toNat ++ toLE 2 p.lane.toNat ++ toLE 1 p.frames.length ++ toLE 1 (b2n p.retry) ++ toLE 2 p.tid.toNat
    ++ toLE 2 p.ostream.toNat ++ toLE 3 p.src.toNat ++ toLE 1 p.cls.toNat ++ toLE 2 p.rsver.toNat ++ toLE 2 p.lp
    ++ toLE 4 0 ++ toLE 8 p.dispatchFt ++ toLE 8 (match framesOf s p with | x :: _ => x.arr | [] => 0)

/-- A frame record: HANDLE is the head slot (R117, R280). -/
def recordBytes (x : Frame) : List Byte :=
  let h := hdrOf x
  toLE 4 x.head ++ toLE 2 x.bytes.length ++ toLE 2 x.off ++ toLE 1 (h.typ.toNat + 16 * h.colour.toNat + 64 * x.level)
    ++ toLE 1 x.dkind ++ toLE 2 (if x.dkind = 0 then x.destLp else 0) ++ toLE 1 (b2n x.srcLp.isSome) ++ toLE 1 0
    ++ toLE 2 (x.srcLp.getD 0) ++ toLE 8 x.arr ++ toLE 8 0 ++ slice x.rule 0 32

/-- The frame window as Watershed writes it. -/
def windowCells (s : State) (p : Pitch) : List Host.Cell :=
  let m := wrN [] 0 (descBytes s p)
  let m := ((framesOf s p).zipIdx).foldl (fun m e => wrN m (0x40 + 64 * e.2) (recordBytes e.1)) m
  ((framesOf s p).zipIdx).foldl (fun m e => wrN m (0x800 + 128 * e.2) (e.1.bytes.take 128)) m

/-! ### Dispatch (R114 to R119) -/

/-- First dispatch: the ingress queues give the cells back, and the pitch takes the next TICKET of its lane
and its DISPATCH_FT (R110, R119, R121). -/
def firstDispatch (s : State) (p : Pitch) : State × Pitch :=
  let s := p.frames.foldl (fun s f => let x := frameOf s f
                                      ingressDown s x.lp (hdrOf x).cls.toNat (frameCells x)) s
  let l := p.lane.toNat
  let la := laneOf s l
  let s := bumpTen (setLane s l { la with next := la.next + 1 }) p.tid.toNat 0x43
  (s, { p with ticket := la.next, ticketed := true, dispatchFt := ft s, dispatchAt := s.time.now })

/-- A core starts a pitch on a rope (R115, R118, R130, R197). -/
def startPitch (s : State) (k : Nat) (p : Pitch) (r : Nat) : State :=
  let (s, p) := if p.ticketed then (s, p) else firstDispatch s p
  let s := setPitch s k { p with place := .running, rope := some r }
  let s := kSettle s r
  let x := startRope s (rope s r) (BitVec.ofNat 32 (obj s (0x4010 + ropeCluster r) 1)) 0
    [(1, 0x2000000#64), (26, 0x2000040#64), (29, BitVec.ofNat 64 p.frames.length)]
  let s := setRope s r { x with k := [], pitch := some k, task := none, window := windowCells s p,
                                heads := (framesOf s p).map (·.bytes.length) }
  let s := modCore s (ropeCore r) (fun y => { y with inFlight := y.inFlight + 1 })
  let s := setShed s (ropeCluster r) { shed s (ropeCluster r) with lastCore := ropeCore r % 16 }
  makeReady s r

/-- Watershed can start a pitch on a rope now (R114, R212). -/
def watershedClaims (s : State) (c r : Nat) : Bool :=
  decide (heldPitches s < 4096) && (match (shed s c).moved with
    | k :: _ => (match pitch s k with
      | some p => ((chooseCore s c (p.firstFault.map (fun f => ropeCore f.1))).bind (pitchRope s)) == some r
      | none => false)
    | [] => (choosePitch s c).isSome && ((chooseCore s c none).bind (pitchRope s)) == some r)

/-- Watershed dispatches the next pitch of a cluster, in service or out of it: a moved pitch goes ahead of every other (R113,
R114, R173). -/
def execPitchDispatch (c : BitVec 4) (s : State) : Res :=
  let c := c.toNat
  if !on s || (cluster s c).doze then .next s
  else
    let full := decide (4096 ≤ heldPitches s)
    match (shed s c).moved with
    | k :: ks =>
      match pitch s k with
      | none => .next (setShed s c { shed s c with moved := ks })
      | some p =>
        match chooseCore s c (p.firstFault.map (fun f => ropeCore f.1)) with
        | none => .next s
        | some j =>
          if full then .next (bump s 0x4000 0x12)
          else match pitchRope s j with
            | none => .next s
            | some r => .next (startPitch (setShed s c { shed s c with moved := ks }) k p r)
    | [] =>
      match choosePitch s c, chooseCore s c none with
      | some (k, t, cls, had), some j =>
        if full then .next (bump s 0x4000 0x12)
        else match pitch s k, pitchRope s j with
          | some p, some r =>
            let sh := shed s c
            let q := (mget sh.queues t []).tail
            let s := takeToken s c t
            let s := setShed s c { shed s c with
              queues := if q.isEmpty then merase sh.queues t else mset sh.queues t q
              lastClass := if cls < 6 then cls else sh.lastClass
              turn := mset sh.turn cls (t, had) }
            .next (startPitch s k p r)
          | _, _ => .next s
      | _, _ => .next s

/-! ### Stragglers and late pitches (R120, R121) -/

/-- A pitch not complete StragglerBudget after its first dispatch is counted and told to the lead rope. -/
def execStragglerBudgetExpiry (pitch : Nat) (s : State) : Res := live s <|
  match Machine.pitch s pitch with
  | none => .next s
  | some p =>
    if p.ticketed && !p.straggler && p.place != .done then
      let s := advanceTo s (p.dispatchAt + nsU (obj s 0x4000 4))
      let s := bump (setPitch s pitch { p with straggler := true }) 0x4000 0x0D
      .next (leadEvent s p.cluster evStraggler)
    else .next s

/-- LateRelease after the straggler event, at the end of that dp-cycle, the pitch is marked late: its sequenced frames are
answered with NAK LATE, its frames are discarded, and its lane goes on past it (R120, R121). -/
def execLateReleaseExpiry (pitch : Nat) (s : State) : Res := live s <|
  match Machine.pitch s pitch with
  | none => .next s
  | some p =>
    if p.straggler && !p.late && p.place != .done then
      let s := advanceTo s (p.dispatchAt + nsU (obj s 0x4000 4) + nsU (obj s 0x4000 5))
      let s := rouse (advanceTo s (cycStart s (cyc s + 1))) (16 * p.cluster)
      let kept := framesOf s p
      let s := bumpBy (bump s 0x4000 0x0E) 0x4000 0x0F p.frames.length
      let s := p.frames.foldl (fun s f =>
        let x := frameOf s f
        retireFrame (nakRetry s x.lp (hdrOf x) 2 p.cluster) f) s
      let s := setPitch s pitch { p with late := true, kept := kept }
      .next (finishScans (wakeHeld (releaseLane s p.lane.toNat (s.pit.pitches.length + 1))))
    else .next s

end Sys2Proof.Machine
end

