-- ==== Sys2Proof/Machine/Dictionary.lean ====
section
/-! DEFINITION. The dictionary server: which accesses it answers, what a read returns, and what a write does (R357 to
R362, R368, R372, R374, R375), with the rows of the table that are writes of one object. -/

namespace Sys2Proof.Machine

/-! ### Which accesses are answered (R362, R366) -/

/-- The path of an access: CAN FD, MGMT, or an Itinerary event. -/
inductive Path where
  | can
  | inband
  | itinerary
  deriving DecidableEq, Repr

def abSequence : Nat := 8
def abTimeout : Nat := 9
def abBusy : Nat := 0x0A
def abCrc : Nat := 0x0B
def abInBand : Nat := 0x0C
def abUnavailable : Nat := 0x0D
def abBadCommand : Nat := 0x0E

/-- The detail of UNAVAILABLE where the condition of the device withholds the index (R362, R409). -/
def withheld (s : State) (idx : Nat) : Option Nat :=
  let within (lo hi : Nat) : Bool := decide (lo ≤ idx) && decide (idx ≤ hi)
  if s.sys.basecampFailed then (if within 1 0x1FF || idx == 0x8001 then none else some 2)
  else if s.pwr.off then
    (if within 1 0x2FF || within 0x7000 0x70FF || within 0x7800 0x78FF || within 0x8000 0x80FF then none else some 1)
  else none

/-- DOMAIN objects longer than 64 B, and the bulk objects, travel in-band only. -/
def inBandOnly (idx : Nat) (r : Row) : Bool :=
  idx / 256 == 0x90 || (match r.ty with | .domain m => decide (64 < m) | _ => false)

/-- The row of an object, or the abort an access to it ends with. DEDUCED, log entry 70. -/
def objectFor (s : State) (p : Path) (idx sub : Nat) : Except (Nat × Nat) Row :=
  match (if p == .itinerary then none else withheld s idx) with
  | some d => .error (abUnavailable, d)
  | none => match rowOf s.sys idx sub with
    | .error e => .error (e, 0)
    | .ok r => if p == .can && inBandOnly idx r then .error (abInBand, 0) else .ok r

/-! ### Values that follow the state -/

def countB {α : Type} (l : List α) (f : α → Bool) : Nat := (l.filter f).length

/-- AlertStatus (R439). -/
def alertStatus (s : State) : Nat :=
  b2n s.sys.thermWarn + 2 * b2n ((s.pwr.capHold || s.pwr.thermHold) && decide (fstepNow s < maxStep s.pwr.profile))
    + 4 * b2n s.rcv.readOnly + 8 * b2n s.cairn.alert

/-- PeerState (R410): 0 no PEER port, 1 present, 2 lost. DEDUCED, log entry 77. -/
def peerState (s : State) : Nat :=
  if (List.range (lps s)).any (fun lp => role s lp == 2) then (if peerLost s then 2 else 1) else 0

/-- Live values of the identity, comms and global objects. -/
def liveGlobal (s : State) (idx sub : Nat) : Option Nat :=
  let v := s.col.ver
  match idx, sub with
  | 0x0001, 6 => some s.sys.node.toNat
  | 0x0001, 7 => some s.sys.deviceId.toNat
  | 0x0001, 8 => some s.sys.resetCause
  | 0x0200, 0x0B => some s.dict.storeQ.length
  | 0x1011, 3 => some s.xport.rx.length
  | 0x1021, 1 => some v.current.toNat
  | 0x1021, 2 => some v.draining.toNat
  | 0x1021, 3 => some v.staging.toNat
  | 0x1021, 6 => some (inFlightOf s v.current)
  | 0x1021, 7 => some (if v.draining = 0 then 0 else inFlightOf s v.draining)
  | 0x1021, 0x0E => some (b2n v.walk.isSome)
  | 0x1030, 1 => some (ofInt 32 s.sys.dieTemp)
  | 0x1030, 4 => some (alertStatus s)
  | 0x1030, 7 => some s.sys.thermShutdowns
  | 0x1030, 8 => some (s.sys.sbaddr.toNat * 128 + s.sys.node.toNat)
  | _, _ => none

/-- Live values of a logical port, a tenant and a cluster. -/
def liveUnit (s : State) (idx sub : Nat) : Option Nat :=
  if idx < 0x3000 then
    let lp := idx - 0x2000
    match sub with
    | 1 => some (lpo s (lp / 4 * 4) 1)
    | 0x0E => some (linkState s lp)
    | 0x0F => some (port s lp).partner
    | _ => none
  else if idx < 0x4000 then
    match sub with
    | 0x63 => some (progsLoaded s (idx - 0x3000))
    | 0x74 => some (cdiv (spilledBytes s (idx - 0x3000)) 1024)
    | _ => none
  else
    let c := idx % 16
    let y := cluster s c
    match idx / 16, sub with
    | 0x400, 6 => some s.tbl.laneSeed.toNat
    | 0x400, 0x11 => some (heldPitches s)
    | 0x402, 7 => some (parkedRopes s c)
    | 0x403, 1 => some y.leadRope
    | 0x403, 4 => some (countB y.locks (fun e => e.2.owner.isSome))
    | 0x405, 7 => some y.slots.length
    | 0x405, 8 => some y.ready.length
    | 0x406, k => if 6 ≤ k ∧ k ≤ 9 then
        some (obj s idx (k - 4) - countB (mget s.trav.spPiton c []) (fun b => b / 2 ^ 32 == k - 6)) else none
    | _, _ => none

/-- Live values of the tables and of the map. -/
def liveTable (s : State) (idx sub : Nat) : Option Nat :=
  let b := blockOf s 16
  match idx, sub with
  | 0x4800, 1 => some s.tbl.epSeed0.toNat
  | 0x4800, 2 => some s.tbl.epSeed1.toNat
  | 0x4800, 3 => some (epAll s).length
  | 0x4800, 4 => some (countB (epAll s) (fun e => eStatic e.2.2))
  | 0x4800, 0x0C => some (b2n s.tbl.sweep.isSome)
  | 0x4801, 1 => some s.tbl.ruleSeed0.toNat
  | 0x4801, 2 => some s.tbl.ruleSeed1.toNat
  | 0x4801, 3 => some (ruleAll s).length
  | 0x4801, 4 => some (countB (ruleAll s) (fun e => dead s e.2))
  | 0x4810, 1 => some b.op
  | 0x4810, 2 => some b.table
  | 0x4810, 3 => some b.key.toNat
  | 0x4810, 4 => some b.version.toNat
  | 0x4810, 5 => some b.arg.toNat
  | 0x4810, 7 => some b.cursor
  | 0x4810, 9 => some b.status
  | 0x4810, 0x0A => some b.outEntry.toNat
  | 0x4810, 0x0B => some b.outVersions.toNat
  | 0x4810, 0x0C => some b.moveGen.toNat
  | 0x4830, 7 => some s.hbm.mapBaseA
  | 0x4830, 8 => some (if absent s then 0 else s.hbm.mapBaseB)
  | 0x4831, 3 => some s.xlat.pairs.length
  | 0x4831, 6 => some ((s.xlat.cache.map (fun e => e.2.length)).sum)
  | _, _ => none

/-- Live values of the HBM, the Traverse and the traffic manager. The counters of a port that does not exist read 0 (R316). -/
def liveStore (s : State) (idx sub : Nat) : Option Nat :=
  let x := stackOf s (idx - 0x5010)
  if 0x5010 ≤ idx ∧ idx < 0x5014 then
    match sub with
    | 1 => some x.state
    | 2 => some x.window
    | 3 => some (ofInt 32 x.temp)
    | 4 => some x.retired.length
    | _ => none
  else
    let lp := obj s 0x5822 1
    let shown (n : Nat) : Nat := if lpDefined s lp then n else 0
    match idx, sub with
    | 0x5000, 9 => some s.hbm.ruleBaseA
    | 0x5000, 0x0A => some (if absent s then 0 else s.hbm.ruleBaseB)
    | 0x5020, 5 => some (b2n s.hbm.rebuild.isSome)
    | 0x5800, 1 => some (freeCells s)
    | 0x5800, 2 => some (258048 - countB s.trav.usedHeads (fun h => decide (4096 ≤ h)))
    | 0x5800, 3 => some (retainedCells s)
    | 0x5820, 7 => some s.tm.queues.length
    | 0x5821, 3 => some s.tm.calendar.length
    | 0x5801, k => if 6 ≤ k ∧ k ≤ 9 then
        some (inForce s 0x5801 (k - 4) - countB s.trav.piton (fun b => b / 2 ^ 32 == k - 6)) else none
    | 0x5822, k =>
      if 2 ≤ k ∧ k ≤ 9 then some (shown (mget s.tm.classTx (lp * 8 + (k - 2)) 0))
      else if 10 ≤ k ∧ k ≤ 17 then
        some (shown ((s.tm.queues.filter (fun q => q.lp == lp && q.cls + 10 == k)).map queuedCells).sum)
      else none
    | _, _ => none

/-- Live values of Scree, Vault, time and the Itinerary. -/
def liveMove (s : State) (idx sub : Nat) : Option Nat :=
  match idx, sub with
  | 0x6000, 1 => some (enginesUp s).length
  | 0x6000, 2 => some ((enginesUp s).map (fun e => 2 ^ e)).sum
  | 0x6000, 3 => some s.hbm.progBase
  | 0x6000, 4 => some s.scree.scans.length
  | 0x6080, 6 => some (keyCheck s)
  | 0x6080, 7 => some s.xlat.keys.length
  | 0x6800, 2 => some s.time.state
  | 0x6801, 1 => some s.plan.events.length
  | 0x6801, 2 => some s.plan.next
  | _, _ => none

/-- Live values of power, Cairn and recovery. -/
def liveSystem (s : State) (idx sub : Nat) : Option Nat :=
  match idx, sub with
  | 0x7000, 1 => some s.pwr.state
  | 0x7000, 2 => some s.pwr.vinMv
  | 0x7000, 3 => some s.pwr.watts
  | 0x7000, 4 => some (powerCap s)
  | 0x7000, 5 => some s.pwr.profile
  | 0x7000, 0x0B => some ((List.range (clusters s)).map (fun c => b2n (cluster s c).doze * 2 ^ c)).sum
  | 0x7001, 3 => some (s.pwr.opSeq * 2 ^ 24 + s.pwr.opResult * 2 ^ 16)
  | 0x7001, 4 => some s.pwr.fstep
  | 0x7001, 5 => some (railNow s / 1000)
  | 0x7001, 6 => some s.pwr.target
  | 0x7800, 1 => some s.cairn.nextSeq
  | 0x7800, 2 => some (oldestSeq s)
  | 0x7802, 3 => some (paramFill s)
  | 0x8000, 1 => some (maintActive s)
  | 0x8001, 1 => some (serviceState s)
  | 0x8001, 2 => some (outCause s)
  | 0x8001, 5 => some s.sys.failCause
  | 0x8001, 6 => some s.sys.wdExpiries
  | 0x8002, 2 => some (peerState s)
  | 0x8002, 3 => some (b2n s.rcv.leaseUntil.isSome)
  | 0x8002, 4 => some s.rcv.epoch.toNat
  | 0x8002, 5 => some (match s.rcv.leaseUntil with | some t => cdiv (t - s.time.now) 90000000 | none => 0)
  | 0x8002, 6 => some (b2n s.rcv.readOnly)
  | 0x8002, 7 => some (b2n s.rcv.writeFence)
  | _, _ => none

def liveValue (s : State) (idx sub : Nat) : Option Nat :=
  if idx < 0x2000 then liveGlobal s idx sub
  else if idx < 0x4800 then liveUnit s idx sub
  else if idx < 0x5000 then liveTable s idx sub
  else if idx < 0x6000 then liveStore s idx sub
  else if idx < 0x7000 then liveMove s idx sub
  else liveSystem s idx sub

/-- The value a read of a numeric object returns, with what time has brought due of FtState and of the lease; a WO object
reads 0 (R343, R358, R404). -/
def valueOf (s : State) (idx sub : Nat) (r : Row) : Nat :=
  let s := settleLease (settleTime s)
  if r.acc = .wo then 0
  else if r.acc = .const then r.dflt
  else (liveValue s idx sub).getD (obj s idx sub)

/-! ### Reads -/

def ascii (l : List Nat) : List Byte := l.map (BitVec.ofNat 8)

/-- Vendor and Part (R376). -/
def stringOf (s : State) (sub : Nat) : List Byte :=
  if sub = 1 then ascii [0x55, 0x72, 0x74, 0x65, 0x72]
  else ascii ([0x53, 0x4B, 0x58, 0x2D, 0x39, 0x36] ++ (if s.sys.skx9624 then [0x32, 0x34] else [0x34, 0x30]))

/-- HBM bytes as the server reads them: those of a line marked MEDIA are free values, for no rule says what such a
read returns (R331). -/
def mediaRead (s : State) (a n : Nat) : State × List Byte :=
  if mediaIn s a n then
    ({ s with free := s.free + n }, ((hbmRead s a n).zipIdx).map (fun e =>
      if s.hbm.media.contains ((a + e.2) / 64) then BitVec.ofNat 8 (Config.freeNat (s.free + e.2)) else e.1))
  else (s, hbmRead s a n)

/-- A read of a bulk object (R374): `n` bytes at an offset, whole entries of the map. DEDUCED, log entry 71. -/
def bulkRead (s : State) (idx sub m off n : Nat) : State × Except (Nat × Nat) (List Byte) :=
  if m < off + n then (s, .error (abLength, 0))
  else match idx with
    | 0x9000 =>
      if off % 16 != 0 || n % 16 != 0 then (s, .error (abLength, 0))
      else
        let (s, b) := mediaRead s (mapBase s + off) n
        (s, .ok b)
    | 0x9001 => (s, .ok (rdN (cluster s (sub - 1)).imem off n))
    | _ =>
      let (s, b) := mediaRead s off n
      (s, .ok b)

/-- The bytes of an image object that can be read, and what the read does (R105, R417). -/
def imageRead (s : State) (idx sub : Nat) : State × List Byte :=
  match idx, sub with
  | 0x4810, 6 => (s, slice (blockOf s 16).result 0 32)
  | 0x7800, 4 => recordTake s
  | 0x7800, 5 => windowTake s
  | _, _ => (s, [])

/-- A read of `n` bytes at an offset of a DOMAIN object, or with none of the whole object. -/
def domainGet (s : State) (idx sub m : Nat) (r : Row) (off : Nat) (n : Option Nat) :
    State × Except (Nat × Nat) (List Byte) :=
  if r.acc = .wo then (s, .ok [])
  else if idx / 256 = 0x90 then
    match n with
    | some n => bulkRead s idx sub m off n
    | none => (s, .error (abLength, 0))
  else
    let (s, b) := imageRead s idx sub
    (s, .ok (match n with | some n => (b.drop off).take n | none => b))

/-- A read of a whole object as the server answers it. -/
def readObj (s : State) (p : Path) (idx sub : Nat) : State × Except (Nat × Nat) (List Byte) :=
  match objectFor s p idx sub with
  | .error e => (s, .error e)
  | .ok r => match r.ty with
    | .domain m => domainGet s idx sub m r 0 none
    | .vstr => (s, .ok (stringOf s sub))
    | t => (s, .ok (toLE t.width (valueOf s idx sub r)))

/-! ### DOMAIN writes (R372, R374) -/

/-- Bytes of an addressed object take their place at once. -/
def bulkWrite (s : State) (idx sub off : Nat) (bs : List Byte) : Ack :=
  match idx with
  | 0x9000 =>
    if off % 16 != 0 || bs.length % 16 != 0 then (s, abLength, 0)
    else ackOk ((List.range (bs.length / 16)).foldl (fun s i =>
      mapPut s (off / 16 + i) (BitVec.ofNat 128 (ofLE (slice bs (16 * i) 16)))) s)
  | 0x9001 => ackOk (modCluster s (sub - 1) (fun y => { y with imem := wrN y.imem off bs }))
  | _ => ackOk (hbmWrite s .sys off bs)

/-- Bytes of an image object: at offset 0 a new image opens; END closes it. -/
def imageWrite (s : State) (idx sub off : Nat) (bs : List Byte) (fin : Bool) : Ack :=
  let k := key idx sub
  let old := (imageOf s k).getD {}
  if off != 0 && !old.opened then (s, abState, 0)
  else
    let x : Image := if off = 0 then {} else old
    let x : Image := { opened := !fin, closed := fin, data := wrN x.data off bs, len := max x.len (off + bs.length) }
    let s := setImage (if fin then stir s else s) k x
    ackOk (if fin && k == key 0x4810 6 then setBlock s 16 { blockOf s 16 with result := rdN x.data 0 32 } else s)

/-- A write of bytes at an offset of a DOMAIN object of at most `m` bytes; what is written is counted. -/
def domainPut (s : State) (idx sub m : Nat) (r : Row) (off : Nat) (bs : List Byte) (fin : Bool) : Ack :=
  if r.acc = .ro then (s, abReadOnly, 0)
  else if m < off + bs.length then (s, abLength, 0)
  else
    let a := if idx / 256 = 0x90 then bulkWrite s idx sub off bs else imageWrite s idx sub off bs fin
    if a.2.1 = 0 then (bumpBy a.1 0x0200 0x0A bs.length, 0, 0) else a

/-! ### Writes of values (R358, R375) -/

/-- A value the row allows. -/
def allowed (r : Row) (v : Nat) : Bool :=
  (r.ty != .bool || decide (v ≤ 1)) &&
  (match r.chk with
   | .any => true
   | .range lo hi => decide (lo ≤ v) && decide (v ≤ hi)
   | .codes l => l.contains v)

/-- The value is in force, and an RWS value waits to be stored, the latest one of its object (R375). -/
def keepValue (s : State) (idx sub v : Nat) (r : Row) : State :=
  if r.acc = .rws then storeLater (putObj s idx sub v) idx sub v else putObj s idx sub v

/-- A write of an object of a logical port (R52, R53, R59, R402). -/
def portWrite (s : State) (lp sub v : Nat) (r : Row) : Ack :=
  let kept := keepValue s (0x2000 + lp) sub v r
  match sub with
  | 1 => if lp % 4 = 0 then ackOk (retrainPhys kept lp) else (s, abReadOnly, 0)
  | 2 => if lpo s lp 2 = v then ackOk kept else ackOk (trainPort kept lp)
  | 3 => ackOk (recheckReadOnly kept)
  | 0x0C => if lp % 4 = 0 then ackOk (retrainPhys kept lp) else ackOk s
  | 0x0D => if lp % 4 = 0 then ackOk (retrainPhys kept lp) else ackOk s
  | _ => ackOk kept

/-- A write of an object of a tenant: policers start afresh, shaper values act from the next dp-cycle, dispatch shares settle
first, and the home table follows (R66, R113, R244, R310, R311). DEDUCED, log entry 76. -/
def tenantWrite (s : State) (t sub v : Nat) (r : Row) : Ack :=
  let idx := 0x3000 + t
  if 0x20 ≤ sub ∧ sub ≤ 0x24 then
    ackOk { keepValue s idx sub v r with col := { s.col with policers := merase s.col.policers t } }
  else if sub = 0x11 ∨ sub = 0x12 then
    let s := reshape s t (fun s => keepValue s idx sub v r)
    ackOk { s with tm := { s.tm with shapeWr := mset s.tm.shapeWr (2 * t + (sub - 0x11)) s.time.now } }
  else if sub = 0x41 ∨ sub = 0x42 then ackOk (keepValue (tokensNow s t) idx sub v r)
  else if sub = 0x50 ∨ sub = 0x51 then ackOk (homeDirty (keepValue s idx sub v r) t)
  else ackOk (keepValue s idx sub v r)

/-- Go of the dictionary's table block: a rule INSERT uses the image of Result (R101, R372). -/
def tableBlockGo (s : State) : Ack :=
  let b := blockOf s 16
  if b.status != stPending && b.op == 1 && b.table == 1 && (closedImage s (key 0x4810 6)).isNone then (s, abState, 0)
  else tableGo s 16

/-- A write of a word of the table command block (R105). -/
def tableBlockWrite (s : State) (sub v : Nat) : Ack :=
  let b := blockOf s 16
  match sub with
  | 1 => ackOk (setBlock s 16 { b with op := v })
  | 2 => ackOk (setBlock s 16 { b with table := v })
  | 3 => ackOk (setBlock s 16 { b with key := BitVec.ofNat 64 v })
  | 4 => ackOk (setBlock s 16 { b with version := BitVec.ofNat 16 v })
  | 5 => ackOk (setBlock s 16 { b with arg := BitVec.ofNat 32 v })
  | 7 => ackOk (setBlock s 16 { b with cursor := v })
  | _ => if v = 0 then ackOk s else tableBlockGo s

/-- A write to AgeInterval restarts the schedule, or stops periodic sweeps (R95). -/
def ageWrite (s : State) (v : Nat) (r : Row) : Ack :=
  let s := keepValue s 0x4800 5 v r
  ackOk { s with tbl := { s.tbl with sweepNext := if v = 0 then none else some (s.time.now + msU v) } }

/-- A write of a value to a WO object: 0 does nothing, but for OpCommand and, in Run, for Wake (R390). -/
def goWrite (s : State) (idx sub v : Nat) : Ack :=
  if idx = 0x7001 then opWrite s v
  else if idx = 0x7000 && s.pwr.state == 0 then wakeGo s
  else if v = 0 then ackOk s
  else match idx, sub with
    | 0x1000, _ => storeClear s
    | 0x1021, 4 => stageOpen s
    | 0x1021, _ => stageDiscard s
    | 0x1030, _ => ackOk (modCairn s (fun c => { c with alert := false }))
    | 0x4830, _ => mapGo s
    | 0x5020, _ => hbmTestGo s
    | 0x5021, _ => nrsGo s
    | 0x6001, _ => screeTestGo s
    | 0x6010, 4 => progLoad s
    | 0x6010, _ => progUnload s
    | 0x6080, 3 => keyLoad s
    | 0x6080, _ => ackOk (keyErase s)
    | 0x6810, _ => planGo s
    | 0x7000, _ => wakeGo s
    | 0x7801, _ => snapTake s
    | 0x7802, _ => compactGo s
    | 0x8001, 3 => serviceCmd s v
    | 0x8001, _ => recoveryReset s
    | 0x8002, _ => fenceClear s
    | _, _ => ackOk s

/-- What an accepted value does. -/
def valueWrite (s : State) (idx sub w : Nat) (r : Row) : Ack :=
  let v := fieldsOf idx sub w
  if 0x2000 ≤ idx ∧ idx < 0x3000 then portWrite s (idx - 0x2000) sub v r
  else if 0x3000 ≤ idx ∧ idx < 0x4000 then tenantWrite s (idx - 0x3000) sub v r
  else if idx = 0x4810 then tableBlockWrite s sub v
  else if r.acc = .wo then goWrite s idx sub v
  else if idx / 16 = 0x402 ∧ sub = 1 then ackOk (setFence s (idx % 16) v)
  else if idx / 16 = 0x401 then ackOk (setPitchEntry s (idx % 16) v)
  else if idx = 0x4800 then ageWrite s v r
  else if idx = 0x4820 ∧ sub = 1 then writeShadowCtl s v
  else
    let s := keepValue s idx sub v r
    if idx = 0x5821 then ackOk (calSync s)
    else if idx = 0x6800 ∧ sub = 1 then ackOk (timeSourceSet s v)
    else if idx = 0x6800 ∧ (sub = 5 ∨ sub = 6) then ackOk (setPtp s (fun _ => {}))
    else if idx = 0x8002 then ackOk (recheckReadOnly s)
    else ackOk s

/-- A write of a whole object as the server performs it: the object, its access, the length, the value, and then what
the object's own rules say (R357, R358, R368). -/
def writeObj (s : State) (p : Path) (idx sub : Nat) (bs : List Byte) : Ack :=
  match objectFor s p idx sub with
  | .error e => (s, e.1, e.2)
  | .ok r =>
    if r.acc = .ro ∨ r.acc = .const then (s, abReadOnly, 0)
    else if idx / 4096 = 2 ∧ sub = 1 ∧ idx % 4 != 0 then (s, abReadOnly, 0)
    else match r.ty with
      | .domain m => domainPut s idx sub m r 0 bs true
      | t =>
        if bs.length != t.width then (s, abLength, 0)
        else if !allowed r (ofLE bs) then (s, abRange, 0)
        else valueWrite s idx sub (ofLE bs) r

/-! ### The rows that write one object -/

/-- A write of one object, on a path that answers (R362). DEDUCED, log entry 74. -/
def put (s : State) (idx sub : Nat) (bs : List Byte) : Res :=
  if canUp s then .next (answered (writeObj s .can idx sub bs)) else .next s

/-- The index of a logical port's object: no port has a number of 0x1000 or more. -/
def lpIndex (lp : Nat) : Nat := 0x2000 + min lp 0xFFF

def execModeWrite (lp : Nat) (v : BitVec 8) (s : State) : Res := put s (lpIndex lp) 1 (toLE 1 v.toNat)

/-- LaneMap, or LanePolarity of one byte. -/
def execLaneMapWrite (lp : Nat) (polarity : Bool) (v : BitVec 16) (s : State) : Res :=
  if polarity then put s (lpIndex lp) 0x0D (toLE 1 v.toNat) else put s (lpIndex lp) 0x0C (toLE 2 v.toNat)

def execStageOpen (s : State) : Res := put s 0x1021 4 [1]
def execStageDiscard (s : State) : Res := put s 0x1021 5 [1]
def execAgeIntervalWrite (v : BitVec 32) (s : State) : Res := put s 0x4800 5 (toLE 4 v.toNat)
def execShadowCtlWrite (v : BitVec 8) (s : State) : Res := put s 0x4820 1 (toLE 1 v.toNat)
def execCoreFenceWrite (c : BitVec 4) (v : BitVec 16) (s : State) : Res := put s (0x4020 + c.toNat) 1 (toLE 2 v.toNat)
def execKeyLoad (s : State) : Res := put s 0x6080 3 [1]
def execKeyErase (s : State) : Res := put s 0x6080 4 [1]
def execScreeTestGo (s : State) : Res := put s 0x6001 2 [1]
def execProgLoad (s : State) : Res := put s 0x6010 4 [1]
def execProgUnload (s : State) : Res := put s 0x6010 5 [1]
def execNrsGo (s : State) : Res := put s 0x5021 1 [1]
def execHbmTestGo (s : State) : Res := put s 0x5020 2 [1]
def execTimeSourceWrite (v : BitVec 8) (s : State) : Res := put s 0x6800 1 (toLE 1 v.toNat)
def execPlanApply (s : State) : Res := put s 0x6810 2 [1]
def execStoreClear (s : State) : Res := put s 0x1000 1 [1]
def execOpCommand (v : BitVec 32) (s : State) : Res := put s 0x7001 2 (toLE 4 v.toNat)
def execServiceCmdOut (s : State) : Res := put s 0x8001 3 [1]
def execServiceCmdReturn (s : State) : Res := put s 0x8001 3 [2]
def execRecoveryReset (s : State) : Res := put s 0x8001 4 [1]
def execWriteFenceClear (s : State) : Res := put s 0x8002 8 [1]
def execSnapTake (s : State) : Res := put s 0x7801 2 [1]
def execAlertClear (s : State) : Res := put s 0x1030 5 [1]

/-- CompactGo, or the start that a ParamFill of 75 % makes by itself (R420). -/
def execCompactGo (auto : Bool) (s : State) : Res :=
  if auto then (if canUp s then .next (compactAuto s) else .next s) else put s 0x7802 1 [1]

end Sys2Proof.Machine
end

