-- ==== Sys2Proof/Machine/Events.lean ====
section
/-! DEFINITION. Events and time waits (R167 to R169). -/

namespace Sys2Proof.Machine

/-- Events that have reached the rope, or reach it in this dp-cycle, join its pending word (R168). -/
def landDue (s : State) (r : Nat) : State :=
  let due (f : Flight) : Bool := f.rope == r && (decide (f.due ≤ s.time.now) || sameCycle s f.due)
  let b := (s.flights.filter due).foldl (fun b f => b ||| f.bits) 0
  let s := { s with flights := s.flights.filter (fun f => !due f) }
  modRope s r (fun x => { x with pending := x.pending ||| b })

/-- EVW: a masked event that is pending is taken at once, else the rope waits (R168). -/
def execEvw (r : Issuer) (d a b : BitVec 5) (s : State) : Res :=
  issue s r false (fun s =>
    let n := r.toNat
    let s := landDue s n
    let x := rope s n
    let m := getW x a
    let t := (getW x b).toNat
    if x.pending &&& m != 0 then .done (modRope s n (fun x => evwTake x d m false))
    else .held (stall s n (.event d m (if t = 0 then none else some (s.time.now + nsU t)))))

/-- EVS: software events for a rope, 4 dp-cycles away in the cluster and 24 beyond it (R168). -/
def execEvs (r : Issuer) (a b : BitVec 5) (s : State) : Res :=
  issue s r false (fun s =>
    let n := r.toNat
    let x := rope s n
    let q := (getW x a).toNat % 2048
    if clusters s ≤ ropeCluster q then .trap 3 0
    else if ropeCluster q != ropeCluster n && x.pl = 0 then .trap 2 0
    else .done (sendEvent s q (getW x b &&& 0xFFFFFFFF#64) (if ropeCluster q = ropeCluster n then 4 else 24)))

/-- The next event reaches its rope (R168, R188). -/
def execEventDelivery (s : State) : Res := live s <|
  match firstFlight s.flights with
  | none => .next s
  | some f =>
    let s := advanceTo s f.due
    .next (setEvent { s with flights := s.flights.erase f } f.rope f.bits)

/-- The timeout of an EVW elapses (R168). -/
def execEvwTimeout (r : RopeId) (s : State) : Res := live s <|
  match (rope s r.toNat).st with
  | .waiting (.event d m (some t)) => .next (wakeDone (advanceTo s t) r.toNat (fun x => evwTake x d m true))
  | _ => .next s

/-- TWAIT ends: w[d] is FT at wake, and Z tells of a timeout (R169). -/
def twaitTake (x : Rope) (d : BitVec 5) (now : Nat) (timeout : Bool) : Rope :=
  { setW x d (BitVec.ofNat 64 now) with flags := { x.flags with z := timeout } }

/-- TWAIT; its timeout runs on a local counter of 10 ns and never ends early (R169). -/
def execTwait (r : Issuer) (d a b : BitVec 5) (s : State) : Res :=
  issue s r false (fun s =>
    let n := r.toNat
    let x := rope s n
    let w := getW x a
    let t := (getW x b).toNat
    if w.toNat ≤ ft s then .done (modRope s n (fun x => twaitTake x d (ft s) false))
    else .held (stall s n (.time d w (if t = 0 then none else some (cdiv (s.time.now + nsU t) 900 * 900)))))

/-- FT reaches the instant of a TWAIT, or its timeout elapses, whichever comes first (R169). -/
def execTwaitWake (r : RopeId) (s : State) : Res := live s <|
  let n := r.toNat
  match (rope s n).st with
  | .waiting (.time d w due) =>
    let s := match due with
      | some t => if t < (advanceToFt s w.toNat).time.now then advanceTo s t else advanceToFt s w.toNat
      | none => advanceToFt s w.toNat
    .next (wakeDone s n (fun x => twaitTake x d (ft s) (decide (ft s < w.toNat))))
  | _ => .next s

end Sys2Proof.Machine
end

