-- ==== Sys2Proof/Machine/Flow.lean ====
section
/-! DEFINITION. Jumps, calls and block repeats (R159 to R163). -/

namespace Sys2Proof.Machine

/-- A jump taken when its condition holds (R159). -/
def jumpIf (s : State) (r : Issuer) (off : BitVec 22) (cond : Flags → Bool) : Res :=
  issue s r true (fun s =>
    let x := rope s r.toNat
    if cond x.flags then .jump s (x.pc + (off.signExtend 32 <<< 2)) else .done s)

/-- JMP (R159). -/
def execJmp (r : Issuer) (off : BitVec 22) (s : State) : Res := jumpIf s r off (fun _ => true)

/-- JZ (R159). -/
def execJz (r : Issuer) (off : BitVec 22) (s : State) : Res := jumpIf s r off (fun f => f.z)

/-- JNZ (R159). -/
def execJnz (r : Issuer) (off : BitVec 22) (s : State) : Res := jumpIf s r off (fun f => !f.z)

/-- JC (R159). -/
def execJc (r : Issuer) (off : BitVec 22) (s : State) : Res := jumpIf s r off (fun f => f.c)

/-- JNC (R159). -/
def execJnc (r : Issuer) (off : BitVec 22) (s : State) : Res := jumpIf s r off (fun f => !f.c)

/-- JN (R159). -/
def execJn (r : Issuer) (off : BitVec 22) (s : State) : Res := jumpIf s r off (fun f => f.n)

/-- JNN (R159). -/
def execJnn (r : Issuer) (off : BitVec 22) (s : State) : Res := jumpIf s r off (fun f => !f.n)

/-- JV (R159). -/
def execJv (r : Issuer) (off : BitVec 22) (s : State) : Res := jumpIf s r off (fun f => f.v)

/-- JNV (R159). -/
def execJnv (r : Issuer) (off : BitVec 22) (s : State) : Res := jumpIf s r off (fun f => !f.v)

/-- JLT (R159). -/
def execJlt (r : Issuer) (off : BitVec 22) (s : State) : Res := jumpIf s r off (fun f => f.n != f.v)

/-- JGE (R159). -/
def execJge (r : Issuer) (off : BitVec 22) (s : State) : Res := jumpIf s r off (fun f => f.n == f.v)

/-- JGT (R159). -/
def execJgt (r : Issuer) (off : BitVec 22) (s : State) : Res := jumpIf s r off (fun f => !f.z && f.n == f.v)

/-- JLE (R159). -/
def execJle (r : Issuer) (off : BitVec 22) (s : State) : Res := jumpIf s r off (fun f => f.z || f.n != f.v)

/-- JHI (R159). -/
def execJhi (r : Issuer) (off : BitVec 22) (s : State) : Res := jumpIf s r off (fun f => f.c && !f.z)

/-- JLS (R159). -/
def execJls (r : Issuer) (off : BitVec 22) (s : State) : Res := jumpIf s r off (fun f => !f.c || f.z)

/-- CALL: on a full stack TRAP decides between the fault and the loss of the oldest entry (R160, R161). -/
def execCall (r : Issuer) (off : BitVec 26) (s : State) : Res :=
  issue s r true (fun s =>
    let x := rope s r.toNat
    if 16 ≤ x.rstack.length && x.trap then .trap 5 0
    else .jump (modRope s r.toNat (fun x => { x with rstack := (x.pc + 4) :: x.rstack.take 15 }))
      (x.pc + (off.signExtend 32 <<< 2)))

/-- RET (R160, R161). -/
def execRet (r : Issuer) (s : State) : Res :=
  issue s r true (fun s =>
    match (rope s r.toNat).rstack with
    | [] => .trap 5 0
    | t :: ts => .jump (modRope s r.toNat (fun x => { x with rstack := ts })) t)

/-- JR (R160). -/
def execJr (r : Issuer) (a : BitVec 5) (s : State) : Res :=
  issue s r true (fun s => .jump s ((getW (rope s r.toNat) a).setWidth 32))

/-- w29 of a repeat of `n1 + 1` instructions whose body starts at `pc` (R162). -/
def repWord (v : Word) (n1 : BitVec 3) (pc : BitVec 32) : Word :=
  0x8000000000000000#64 ||| (n1.setWidth 64 <<< 60) ||| (v &&& 0x0F000000FFFFFFFF#64)
    ||| ((pc.extractLsb' 2 24).setWidth 64 <<< 32)

/-- REPB: the body is skipped for a count of 0, else the repeat starts (R162). -/
def execRepb (r : Issuer) (n1 : BitVec 3) (s : State) : Res :=
  issue s r true (fun s =>
    let x := rope s r.toNat
    let v := getW x 29
    if v.setWidth 32 = 0#32 then .jump s (x.pc + 8 + (n1.setWidth 32 <<< 2))
    else .jump (modRope s r.toNat (fun x => setW x 29 (repWord v n1 (x.pc + 4)))) (x.pc + 4))

end Sys2Proof.Machine
end

