-- ==== Sys2Proof/Machine/FrameOps.lean ====
section
/-! DEFINITION. The frame instructions and PDONE (R151 to R156), the system instructions (R149, R150) and the
words no instruction has (R142). -/

namespace Sys2Proof.Machine

/-! ### Dispositions (R152, R153) -/

/-- The head of frame `i` as it stands in the window. -/
def headOf (x : Rope) (i : Nat) : List Byte := winRead x (0x800 + 128 * i) 128

/-- Record `i` as it stands in the window. -/
def recordOf (x : Rope) (i : Nat) : List Byte := winRead x (0x40 + 64 * i) 64

/-- The record has DKIND 2. -/
def recLocal (x : Rope) (i : Nat) : Bool := lget (recordOf x i) 9 0 == 2

/-- A disposition of a frame: what it produces, and the counters of the cluster it raises. -/
inductive Disp where
  | port (lp : Nat)
  | flood
  | drop
  | nak (code detail : Nat)
  /-- A rule's DENY (R99). -/
  | deny
  deriving DecidableEq, Repr

/-- A disposition word (R152). Bits that the layout gives as 0 are not looked at. DESIGN CHOICE, log entry 121. -/
def dispOf (w : Nat) : Disp :=
  match bits w 17 16 with
  | 0 => .port (bits w 8 0)
  | 1 => .flood
  | 2 => .drop
  | _ => .nak (bits w 7 0) (bits w 15 8)

/-- The output a disposition gives; a discard gives none (R156). -/
def emitOf (x : Rope) (i : Nat) (d : Disp) : List Emit :=
  match d with
  | .port lp => [.port i (headOf x i) (recLocal x i) lp]
  | .flood => [.flood i (headOf x i) (recLocal x i)]
  | .drop => []
  | .nak code detail => [.nak i (BitVec.ofNat 8 code) (BitVec.ofNat 8 detail)]
  | .deny => [.deny i]

/-- The pitch of a rope takes a disposition of frame `i`, counted in its cluster. DEDUCED, log entry 32. -/
def dispose (s : State) (r k i : Nat) (d : Disp) : State :=
  match pitch s k with
  | none => s
  | some p =>
    let s := setPitch s k { p with emits := p.emits ++ emitOf (rope s r) i d, disposed := insertNat i p.disposed }
    match d with
    | .drop => bump s (0x4010 + ropeCluster r) 2
    | .nak _ _ => bump s (0x4010 + ropeCluster r) 3
    | .deny => bump s (0x4010 + ropeCluster r) 3
    | _ => s

/-- Outputs a pitch has produced. -/
def outputsOf (s : State) (k : Nat) : Nat := match pitch s k with | some p => p.emits.length | none => 0

/-- A logical port that a disposition may name for this frame: one of the mode in force, or the management agent
for an MGMT frame (R158, R370). -/
def portOk (s : State) (x : Rope) (i lp : Nat) : Bool :=
  lpDefined s lp || (lp == 0x1FF && lget (recordOf x i) 8 0 &&& 0xF == 9)

def dispOk (s : State) (x : Rope) (i : Nat) (d : Disp) : Bool :=
  match d with
  | .port lp => portOk s x i lp
  | _ => true

/-- FEMIT (R153). -/
def execFemit (r : Issuer) (a b : BitVec 5) (s : State) : Res :=
  issue s r false (fun s =>
    let x := rope s r.toNat
    match x.pitch with
    | none => .trap 6 0
    | some k =>
      let i := (getW x a).toNat % 16
      let d := dispOf (getW x b).toNat
      if x.heads.length ≤ i then .trap 3 0
      else if !dispOk s x i d then .unsupported 158
      else if 64 < outputsOf s k + (emitOf x i d).length then .trap 7 0
      else .done (dispose s r.toNat k i d))

/-- What FEMIT.R does with a frame: the dispositions in order, or left to the program (R154). -/
def femitRDisp (x : Rope) (i : Nat) : List Disp :=
  let b := recordOf x i
  let act := (lget b 32 0).toNat
  let lp := ofLE (slice b 34 2) % 512
  let dest := ofLE (slice b 10 2) % 512
  let dk := (lget b 9 0).toNat
  if act = 1 then [.deny]
  else (if act = 3 then [.port lp] else []) ++
    (if act = 2 then [.port lp]
     else if dk = 0 then [.port dest]
     else if dk = 1 then [.flood]
     else if x.localDisp.getLsbD 31 then [dispOf x.localDisp.toNat]
     else [])

/-- COUNT of the descriptor as it stands at issue: the rope may lower it, and no more frames are there than the pitch holds
(R136, R154). DEDUCED, log entry 100. -/
def countNow (x : Rope) : Nat := min (lget (winRead x 6 1) 0 0).toNat x.heads.length

/-- CLASS of the head of frame `i` is replaced where the rule says SETCLASS (R99, R154). -/
def setClass (x : Rope) (i : Nat) : Rope :=
  let b := recordOf x i
  if bit (lget b 33 0).toNat 0 then
    let o := 0x800 + 128 * i + ofLE (slice b 6 2) + 1
    let old := lget (winRead x o 1) 0 0
    winWrite x o [(old &&& 0x1F) ||| (lget b 36 0 <<< 5)]
  else x

/-- FEMIT.R (R154). -/
def execFemitR (r : Issuer) (a : BitVec 5) (s : State) : Res :=
  issue s r false (fun s =>
    let n := r.toNat
    let x := rope s n
    match x.pitch with
    | none => .trap 6 0
    | some k =>
      let p := (getW x a).toNat
      let i := (p - 0x2000040) / 64
      if p < 0x2000040 || countNow x ≤ i then .trap 3 (getW x a)
      else
        let y := setClass x i
        let ds := femitRDisp y i
        let deny := (lget (recordOf y i) 32 0).toNat == 1
        let left := ds.isEmpty || (ds.length = 1 && (lget (recordOf y i) 32 0).toNat = 3
          && (lget (recordOf y i) 9 0).toNat ≥ 2 && !x.localDisp.getLsbD 31)
        let viaLocal := (lget (recordOf y i) 9 0).toNat ≥ 2 && x.localDisp.getLsbD 31 && !deny
          && (lget (recordOf y i) 32 0).toNat != 2
        if viaLocal && !dispOk s y i (dispOf x.localDisp.toNat) then .unsupported 158
        else if 64 < outputsOf s k + (ds.flatMap (emitOf y i)).length then .trap 7 0
        else
          let s := ds.foldl (fun s d => dispose s n k i d) (setRope s n y)
          let s := match deny, pitch s k with
            | true, some q => bumpTen s q.tid.toNat 0x3A
            | _, _ => s
          .done (modRope s n (fun x => { setW x a (getW x a + 64) with
            localMask := if left then x.localMask ||| (1#16 <<< i) else x.localMask })))

/-- FNEW: a derived frame from a build slot (R155). -/
def execFnew (r : Issuer) (a b : BitVec 5) (s : State) : Res :=
  issue s r false (fun s =>
    let n := r.toNat
    let x := rope s n
    match x.pitch with
    | none => .trap 6 0
    | some k =>
      let j := (getW x a).toNat % 16
      let w := (getW x b).toNat
      let slot := winRead x (0x1000 + 128 * j) 128
      let lp := bits w 8 0
      if 2 ≤ bits w 17 16 || 96 < (parseSxt slot).len.toNat then .unsupported 158
      else if 64 < outputsOf s k + 1 then .trap 7 0
      else match pitch s k with
        | none => .trap 6 0
        | some p =>
          let s := setPitch s k { p with emits := p.emits ++ [.derived slot (bits w 17 16 == 1) lp] }
          .done (bump s (0x4010 + ropeCluster n) 5))

/-- PDONE: undisposed frames are counted, a cured fault is counted, the rope and the core are free again, and
the outputs pass to Switchback (R115, R156, R174, R180). While Switchback holds all the pitches it can, a PDONE that would
be held waits. DESIGN CHOICE, log entry 101. -/
def execPdone (r : Issuer) (s : State) : Res :=
  issue s r true (fun s =>
    let n := r.toNat
    let x := rope s n
    match x.pitch with
    | none => .trap 6 0
    | some k => if holdFull s k then .held (stall s n .hold) else
      let s := match pitch s k with
        | none => s
        | some p =>
          let s := bumpBy s (0x4010 + ropeCluster n) 4 (x.heads.length - p.disposed.length)
          match p.firstFault with
          | some f => bump s (0x4020 + ropeCluster f.1) 3
          | none => s
      let s := giveUp (setRope s n { x with st := .free, pitch := none, window := [], heads := [] }) n
      let s := modCore s (ropeCore n) (fun y => { y with inFlight := y.inFlight - 1 })
      .held (completePitch s k))

/-! ### System registers (R129, R149) -/

def flagsWord (f : Flags) : Nat := b2n f.n * 8 + b2n f.z * 4 + b2n f.c * 2 + b2n f.v

/-- A read of a system register. -/
def sysRead (s : State) (r n : Nat) : Nat :=
  let x := rope s r
  match n with
  | 0 => r
  | 1 => x.pl.toNat
  | 2 => flagsWord x.flags
  | 3 => b2n x.trap
  | 4 => obj s (0x4040 + ropeCluster r) (1 + ropeCore r % 16) % 8
  | 5 => x.localMask.toNat
  | 6 => x.localDisp.toNat
  | 7 => ft s
  | 8 => cyc s - x.startAt
  | 9 => x.rstack.length
  | _ => 0

/-- MFS (R149). -/
def execMfs (r : Issuer) (d : BitVec 5) (n : BitVec 12) (s : State) : Res :=
  issue s r false (fun s => .done (modRope s r.toNat (fun x => setW x d (BitVec.ofNat 64 (sysRead s r.toNat n.toNat)))))

/-- The value of CPEN that a write replaces still judges the instruction that a rope of core `k` issues next, at `pc`, before
2 dp-cycles have passed (R208). -/
def cpenKeep (s : State) (k r : Nat) (pc : BitVec 32) : State :=
  let past : CpenPast :=
    { rope := r, pc := pc, value := obj s (0x4040 + k / 16) (1 + k % 16), until_ := s.time.now + 2 * dpU s }
  modCore s k (fun y => { y with cpenPast := some past })

/-- A write of CPEN: the writer's core, or every core of its cluster (R207). The instructions that issue next take the value
before it (R208). DEDUCED, log entry 111. -/
def cpenWrite (s : State) (r v : Nat) : State :=
  let c := ropeCluster r
  let s := cpenKeep s (ropeCore r) r (nextPc (rope s r)).pc
  if bit v 63 then (List.range 16).foldl (fun s i =>
    let k := c * 16 + i
    let s := if k = ropeCore r then s else match (core s k).issuing with
      | some q => cpenKeep s k (k * 8 + q) (rope s (k * 8 + q)).pc
      | none => s
    putObj s (0x4040 + c) (1 + i) (v % 8)) s
  else putObj s (0x4040 + c) (1 + ropeCore r % 16) (v % 8)

/-- MTS: a write below the Write level raises PRIVILEGE; PL is only lowered (R129, R131, R149). A write of FTNOW, CYCLES or
RSDEPTH, which no level may write, changes nothing. DESIGN CHOICE, log entry 120. -/
def execMts (r : Issuer) (a : BitVec 5) (n : BitVec 12) (s : State) : Res :=
  issue s r false (fun s =>
    let k := r.toNat
    let x := rope s k
    let v := (getW x a).toNat
    match n.toNat with
    | 1 => .done (modRope s k (fun x => { x with pl := if v % 4 < x.pl.toNat then BitVec.ofNat 2 v else x.pl }))
    | 2 => .done (modRope s k (fun x => { x with flags := flagsFrom v }))
    | 3 => if x.pl.toNat < 1 then .trap 2 0 else .done (modRope s k (fun x => { x with trap := bit v 0 }))
    | 4 => if x.pl.toNat < 2 then .trap 2 0 else .done (cpenWrite s k v)
    | 6 => .done (modRope s k (fun x => { x with localDisp := BitVec.ofNat 64 v }))
    | _ => .done s)

/-- NOP (R150). -/
def execNop (r : Issuer) (s : State) : Res := issue s r false (fun s => .done s)

/-- FENCE waits until every KMV.LD of the rope has its data; every store has been performed at issue (R140, R150). DESIGN
CHOICE, log entry 9. -/
def execFence (r : Issuer) (s : State) : Res :=
  issue s r false (fun s =>
    let n := r.toNat
    match kReady s n (((rope s n).kPend.filter (·.src.isSome)).map (·.kd)) with
    | (s, .long k) => .held (stall s n (.kreg k))
    | (s, .inPlace) => .held s
    | (s, .ready) => .done s)

/-! ### Words that are no instruction (R142, R145, R148 to R150, R159, R160, R164, R168, R171, R200, R206) -/

/-- A word that is no instruction: a form, func or field value that none has. -/
def illegalWord (w : BitVec 32) : Bool := (wordInstr ⟨0, false⟩ w).isNone

/-- A rope issues a word that is no instruction (R142, R171). -/
def execIllegalInstruction (r : Issuer) (word : BitVec 32) (s : State) : Res :=
  if illegalWord word then issue s r false (fun _ => .trap 1 0) else .next s

end Sys2Proof.Machine
end

