-- ==== Sys2Proof/Machine/Tasks.lean ====
section
/-! DEFINITION. The task scheduler: its commands, dispatch and time (R211 to R223). -/

namespace Sys2Proof.Machine

/-- Status codes of R214. -/
def tsOk : Nat := 0
def tsNoSlot : Nat := 1
def tsNotFound : Nat := 2
def tsBusy : Nat := 3
def tsLocksHeld : Nat := 4
def tsUnitAbsent : Nat := 5
def tsNoTask : Nat := 6

/-- The command the scheduler processes next: the earliest, and of one dp-cycle the lowest rope (R214). -/
def nextTaskCmd : List TaskCmd → Option TaskCmd
  | [] => none
  | t :: ts => match nextTaskCmd ts with
    | none => some t
    | some u => if u.cyc < t.cyc || (u.cyc = t.cyc && decide (u.rope < t.rope)) then some u else some t

/-- A command ends with a status: TaskResult shows it where no later command waits (R213). -/
def taskStatus (s : State) (r st n : Nat) : State :=
  let later := (cluster s (ropeCluster r)).taskQ.any (fun t => t.rope == r)
  if later then s else
    modRope s r (fun x => { x with stg := { x.stg with cmdStatus := BitVec.ofNat 8 st, cmdSlot := BitVec.ofNat 12 n } })

/-- A command that would end or suspend the caller, or cancel a slot, is refused: the trace records it with its status
(R225), and the rope that a refused END, WAIT, SLEEP or YIELD holds goes on (R217). -/
def taskRefused (s : State) (t : TaskCmd) (kind st n : Nat) (x : Slot) : State :=
  let r := t.rope
  let s := trace (taskStatus s r st n) (ropeCluster r) kind n x (if kind = 5 then traceRope x else ropeLocal r) st
  if kind != 5 && (rope s r).st = .waiting .task then makeReady s r else s

/-- The scheduler processes its next command, 4 dp-cycles after its store, when it has the operation `op`. -/
def taskNext (s : State) (c op : Nat) (f : State → TaskCmd → State) : State :=
  match nextTaskCmd (cluster s c).taskQ with
  | none => s
  | some t =>
    if t.word.toNat / 2 ^ 60 = op then
      let s := modCluster s c (fun y => { y with taskQ := y.taskQ.erase t })
      f (busyCore (advanceTo s (t.at_ + 4 * dpU s)) (16 * c)) t
    else s

/-! ### Commands of R216 -/

/-- The slot SPAWN fills from the writer's staging registers (R215). -/
def spawnSlot (g : Staging) : Slot :=
  let ctl := g.ctl.toNat
  { base := bits ctl 2 0, eff := bits ctl 2 0, entry := g.entry.setWidth 32, arg := g.arg, sp := g.sp,
    counter := bits ctl 31 16, parent := if bit ctl 44 then some (bits ctl 43 32) else none
    notify := if bit ctl 55 then some (bits ctl 54 48) else none
    wake := g.wakeFt.toNat
    state := if g.wakeFt != 0 then .delay else if bits ctl 31 16 = 0 then .ready else .wait
    reason := 0 }

/-- SPAWN. -/
def taskSpawn (s : State) (c : Nat) (t : TaskCmd) : State :=
  let g := (rope s t.rope).stg
  let n := lowestFree 0 ((cluster s c).slots.map (·.1))
  if absent s && g.wakeFt != 0 then taskStatus s t.rope tsUnitAbsent 0
  else if 4096 ≤ n then taskStatus s t.rope tsNoSlot 0
  else
    let x := spawnSlot g
    let s := match x.parent with
      | some p => if (slot s c p).state = .free then s
          else setSlot s c p { slot s c p with counter := min 65535 ((slot s c p).counter + 1) }
      | none => s
    let s := bump (setSlot s c n x) (0x4050 + c) 9
    let s := if x.state = .ready then readySlot s c n 0 else s
    taskStatus s t.rope tsOk n

/-- SIGNAL. -/
def taskSignal (s : State) (c : Nat) (t : TaskCmd) : State :=
  let n := t.word.toNat % 4096
  if (slot s c n).state = .free then taskStatus (bump s (0x4050 + c) 0x0D) t.rope tsNotFound n
  else taskStatus (signalSlot s c n (bits t.word.toNat 59 44)) t.rope tsOk n

/-- CANCEL. -/
def taskCancel (s : State) (c : Nat) (t : TaskCmd) : State :=
  let n := t.word.toNat % 4096
  let x := slot s c n
  match x.state with
  | .free => taskRefused s t 5 tsNotFound n x
  | .run => taskRefused s t 5 tsBusy n x
  | .parked => taskRefused s t 5 tsBusy n x
  | _ => taskStatus (endSlot s c n 1 0xFFFFFFFF) t.rope tsOk n

/-- The caller's rope is free again; kept for its task when it is pinned (R217). -/
def taskLeave (s : State) (r n : Nat) (pin : Bool) : State :=
  rankMoved (modRope s r (fun x => { x with
    task := none, pinned := if pin then some n else none
    st := match x.st with | .waiting .task => .free | st => st })) r

/-- A command of a rope with no task (R216). -/
def taskNone (s : State) (t : TaskCmd) (kind : Nat) : State := taskRefused s t kind tsNoTask 0 {}

/-- END. -/
def taskEnd (s : State) (c : Nat) (t : TaskCmd) : State :=
  match (rope s t.rope).task with
  | none => taskNone s t 4
  | some n =>
    if !(heldBy s t.rope).isEmpty then taskRefused s t 4 tsLocksHeld n (slot s c n)
    else
      let res := (rope s t.rope).stg.result.toNat % 2 ^ 32
      let s := taskStatus s t.rope tsOk n
      endSlot (taskLeave s t.rope n false) c n 0 res

/-- The caller suspends: its slot takes the staged addresses and enters a state (R216, R217). -/
def suspend (s : State) (c : Nat) (t : TaskCmd) (n : Nat) (f : Slot → Slot) : State :=
  let g := (rope s t.rope).stg
  let x := f { slot s c n with entry := g.entry.setWidth 32, sp := g.sp, rope := none }
  let pin := !(heldBy s t.rope).isEmpty
  let s := taskStatus s t.rope tsOk n
  let s := taskLeave (setSlot s c n x) t.rope n pin
  trace s c 3 n x (ropeLocal t.rope) 0

/-- WAIT. -/
def taskWait (s : State) (c : Nat) (t : TaskCmd) : State :=
  match (rope s t.rope).task with
  | none => taskNone s t 3
  | some n =>
    let us := (rope s t.rope).stg.timeout.toNat
    let s := suspend s c t n (fun x => { x with
      state := .wait, due := if us = 0 then none else some (s.time.now + usU us) })
    if (slot s c n).counter = 0 then readySlot s c n 0 else s

/-- SLEEP: every one ends with UNIT_ABSENT on the SKX-9624 (R5). -/
def taskSleep (s : State) (c : Nat) (t : TaskCmd) : State :=
  match (rope s t.rope).task with
  | none => if absent s then taskRefused s t 3 tsUnitAbsent 0 {} else taskNone s t 3
  | some n =>
    if absent s then taskRefused s t 3 tsUnitAbsent n (slot s c n)
    else
      let ft := (rope s t.rope).stg.wakeFt.toNat
      suspend s c t n (fun x => { x with state := .delay, wake := ft })

/-- YIELD. -/
def taskYield (s : State) (c : Nat) (t : TaskCmd) : State :=
  match (rope s t.rope).task with
  | none => taskNone s t 3
  | some n => readySlot (suspend s c t n (fun x => { x with state := .ready })) c n 3

def execSpawn (c : BitVec 4) (s : State) : Res := live s <| .next (taskNext s c.toNat 1 (fun s t => taskSpawn s c.toNat t))

def execSignal (c : BitVec 4) (s : State) : Res := live s <| .next (taskNext s c.toNat 2 (fun s t => taskSignal s c.toNat t))

def execCancel (c : BitVec 4) (s : State) : Res := live s <| .next (taskNext s c.toNat 3 (fun s t => taskCancel s c.toNat t))

def execEndTask (c : BitVec 4) (s : State) : Res := live s <| .next (taskNext s c.toNat 4 (fun s t => taskEnd s c.toNat t))

def execWaitTask (c : BitVec 4) (s : State) : Res := live s <| .next (taskNext s c.toNat 5 (fun s t => taskWait s c.toNat t))

def execSleep (c : BitVec 4) (s : State) : Res := live s <| .next (taskNext s c.toNat 6 (fun s t => taskSleep s c.toNat t))

def execYield (c : BitVec 4) (s : State) : Res := live s <| .next (taskNext s c.toNat 7 (fun s t => taskYield s c.toNat t))

/-! ### Dispatch (R219, R220) -/

/-- The rope a task takes: its own when pinned, else the lowest free task rope of the next core. -/
def taskRope (s : State) (c n : Nat) : Option Nat :=
  match pinnedRope s c n with
  | some r => if (rope s r).st = .free then some r else none
  | none =>
    (((List.range 16).map (fun i => c * 16 + ((cluster s c).lastTaskCore + 1 + i) % 16)).filter
      (fun k => !fenced s k)).findSome? (fun k =>
        ((List.range 8).map (fun i => k * 8 + i)).find? (fun r =>
          bit (obj s (0x4050 + c) 1) (r % 8) && ropeFree s r))

/-- A task starts on a rope (R130, R220). -/
def startTask (s : State) (c n r : Nat) : State :=
  let y := slot s c n
  let s := unready s c n
  let s := setSlot s c n { y with state := .run, rope := some r }
  let s := modCluster s c (fun z => { z with lastTaskCore := ropeCore r % 16 })
  let s := trace s c 1 n { y with rope := some r } (ropeLocal r) y.reason
  let s := kSettle s r
  let x := startRope s (rope s r) y.entry 1
    ([(1, BitVec.ofNat 64 n), (2, y.arg), (3, BitVec.ofNat 64 y.reason), (30, y.sp)])
  rankMoved (makeReady (setRope s r { x with task := some n, pinned := none, pitch := none }) r) r

/-- The scheduler gives the head of the highest ready list to a rope, unless Watershed claims that rope now (R212, R219). -/
def execTaskDispatch (c : BitVec 4) (s : State) : Res :=
  let c := c.toNat
  if !on s || (cluster s c).doze then .next s
  else match (cluster s c).ready with
    | [] => .next s
    | n :: _ => match taskRope s c n with
      | none => .next s
      | some r => if watershedClaims s c r then .next s else .next (startTask s c n r)

/-! ### Time (R222, R223) -/

/-- A WAIT timeout fires (R223). -/
def timeoutSlot (s : State) (c n : Nat) : State :=
  let s := readySlot (bump s (0x4050 + c) 0x0B) c n 1
  setSlot s c n { slot s c n with timedOut := some (ft s / 1000) }

/-- WAIT slots whose timeout had passed at an instant are readied. -/
def sweepWaits (s : State) (c at_ : Nat) : State :=
  let due := ((cluster s c).slots.filter (fun e => e.2.state == .wait &&
    (match e.2.due with | some t => decide (t ≤ at_) | none => false))).map (·.1)
  due.foldl (fun s n => timeoutSlot s c n) s

/-- Insert by wake instant, equal instants in the order they come. -/
def wakeInsert (e : Nat × Nat) : List (Nat × Nat) → List (Nat × Nat)
  | [] => [e]
  | u :: us => if e.1 < u.1 then e :: u :: us else u :: wakeInsert e us

/-- The tick of every 1 µs of FT: DELAY slots whose wake instant has come, in order of instant, then WAIT
timeouts (R222, R223). Time passes up to the next tick where the cluster has had the last one. The SKX-9624 has no delay
lists. -/
def execDelayTick (c : BitVec 4) (s : State) : Res :=
  let c := c.toNat
  if absent s || !on s then .next s
  else
    let s := if (cluster s c).lastTick = ft s / 1000 then advanceToFt s ((ft s / 1000 + 1) * 1000) else s
    let s := modCluster s c (fun y => { y with lastTick := ft s / 1000 })
    let tick := ft s / 1000 * 1000
    let due := ((cluster s c).slots.filter (fun e => e.2.state == .delay && decide (e.2.wake ≤ tick))).foldl
      (fun l e => wakeInsert (e.2.wake, e.1) l) []
    .next (sweepWaits (due.foldl (fun s e => readySlot s c e.2 2) s) c (s.time.now - nsU (ft s - tick)))

/-- On the SKX-9624 a sweep every 64 µs readies WAIT slots whose timeout has passed (R223). -/
def execWaitTimeoutSweep (c : BitVec 4) (s : State) : Res :=
  let c := c.toNat
  if !absent s || !on s then .next s
  else
    let t := (cluster s c).sweptAt + usU 64
    let s := advanceTo s t
    let s := modCluster s c (fun y => { y with sweptAt := t + (s.time.now - t) / usU 64 * usU 64 })
    .next (sweepWaits s c (cluster s c).sweptAt)

end Sys2Proof.Machine
end

