-- ==== Sys2Proof/Machine/Itinerary.lean ====
section
/-! DEFINITION. The events of the Itinerary, and the rows whose measurement or wake makes them fire (R79, R344, R345, R348 to
R350, R390, R392). -/

namespace Sys2Proof.Machine

/-- The next event, where FT can fire it: not in Bivouac, and not before start-up has ended (R350). DEDUCED, log entry 87. -/
def headEvent (s : State) : Option ItinEvent :=
  if on s && s.sys.phase == .run then s.plan.events[s.plan.next]? else none

/-- The next event, when it is of the type of the command. -/
def nextEvent (s : State) (typ : Nat) : Option ItinEvent := (headEvent s).filter (fun e => e.typ == typ)

/-- A gated event, and every commit, is skipped while FT is ACQUIRING or LOST (R350). -/
def skipped (s : State) (e : ItinEvent) : Bool := (e.gated || e.typ == 1) && (s.time.state == 1 || s.time.state == 4)

/-- The record of an event that is skipped, refused or withheld: its index and TYPE (R414). -/
def itinRecord (s : State) (n : Nat) (e : ItinEvent) : State := cairn s 9 3 1 (toLE 2 n ++ toLE 1 e.typ)

/-- VERSION_COMMIT: withheld where a version is STAGING and ARG0 expects another (R349). A retirement at the same FT counts
before it (R79). -/
def actCommit (s : State) (n : Nat) (e : ItinEvent) (at_ : Nat) : State :=
  let s := retireDraining s
  let want := e.arg0 % 65536
  let v := s.col.ver.staging.toNat
  if v != 0 && want != 0 && v != want then itinRecord (bump s 0x6801 7) n e else commitEvent s at_

/-- A type that DICT_WRITE can write: the numbers of up to 8 B (R349). -/
def scalar (t : Ty) : Bool := match t with | .vstr => false | .domain _ => false | _ => true

/-- DICT_WRITE of ARG1, truncated to the width of the object that ARG0 names (R349). -/
def actDictWrite (s : State) (n : Nat) (e : ItinEvent) : State :=
  let idx := bits e.arg0 23 8
  let sub := bits e.arg0 7 0
  let refuse (s : State) : State := itinRecord (bump s 0x6801 5) n e
  match objectFor s .itinerary idx sub with
  | .error _ => refuse s
  | .ok r =>
    if scalar r.ty then
      let a := writeObj s .itinerary idx sub (toLE r.ty.width e.arg1)
      if a.2.1 = 0 then a.1 else refuse a.1
    else refuse s

/-- TASK_SIGNAL of ARG1[15:0] to the slot ARG0[11:0] of the cluster ARG0[19:16] (R216, R349). -/
def actSignal (s : State) (n : Nat) (e : ItinEvent) : State :=
  let c := bits e.arg0 19 16
  let k := bits e.arg0 11 0
  if clusters s ≤ c then itinRecord (bump s 0x6801 5) n e
  else if (slot s c k).state = .free then bump s (0x4050 + c) 0x0D
  else signalSlot s c k (e.arg1 % 65536)

/-- MARK: a record with ARG1 (R349). -/
def actMark (s : State) (_ : Nat) (e : ItinEvent) : State := cairn s 9 4 0 (toLE 8 e.arg1)

/-- What an event does, by its type; a commit takes effect at the FT `at_`. -/
def act (s : State) (n : Nat) (e : ItinEvent) (at_ : Nat) : State :=
  match e.typ with
  | 1 => actCommit s n e at_
  | 2 => actDictWrite s n e
  | 3 => actSignal s n e
  | 4 => actMark s n e
  | _ => s

/-- The next event is due: it is skipped, by FtState as it is now, or it fires and counts, as late where it is. A commit takes
effect at its own FT, a late one at FT as it is (R350). -/
def fire (s : State) (e : ItinEvent) (late : Bool) : State :=
  let n := s.plan.next
  let s := settleTime { s with plan := { s.plan with next := n + 1 } }
  if skipped s e then itinRecord (bump s 0x6801 4) n e
  else act (bump (if late then bump s 0x6801 6 else s) 0x6801 3) n e (if late then ft s else e.ft)

/-- FT reaches the next event. -/
def fireEvent (s : State) (typ : Nat) : Res :=
  match nextEvent s typ with
  | none => .next s
  | some e => .next (fire (advanceToFt s e.ft) e false)

def execVersionCommit (s : State) : Res := fireEvent s 1
def execDictWrite (s : State) : Res := fireEvent s 2
def execTaskSignal (s : State) : Res := fireEvent s 3
def execMarkEvent (s : State) : Res := fireEvent s 4

/-! ### A step of FT and a wake (R346, R350) -/

/-- The events that FT has reached fire in table order, at most `n` of them: late where FT was still before them at `was`
and has passed them now. DEDUCED, log entry 56. -/
def firePassed (was : Nat) (s : State) : Nat → State
  | 0 => s
  | n + 1 => match headEvent s with
    | some e => if e.ft ≤ ft s then firePassed was (fire s e (decide (was < e.ft) && decide (e.ft < ft s))) n else s
    | none => s

/-- A valid measurement, and what it makes due. -/
def measured (s : State) (offset : Int) : Res :=
  let t := measure (settleTime s) offset
  .next (firePassed (ft s) t t.plan.events.length)

/-- A rising edge of PPS_IN, captured with an error of at most 2 ns. -/
def execPpsEdge (err : Int) (s : State) : Res :=
  if !started s || obj s 0x6800 1 != 1 then .next s
  else match s.time.tod with
    | none => .next s
    | some (v, at_) =>
      let gap := s.time.now - at_
      let s := modTime s (fun t => { t with tod := none })
      if gap < msU 10 || msU 900 < gap then .next (bump s 0x6800 0x0A)
      else measured s ((ft s : Int) + max (-2) (min 2 err) - v * 1000000000)

/-- The slave processes the oldest PTP frame it was handed; a Delay_Resp completes a measurement. `m` is how many ns the
Delay_Req that it causes takes to the MAC. PRESUMED, log entry 55. DEDUCED, log entry 83. -/
def execPtpMessage (m : Nat) (s : State) : Res := live s <|
  match s.time.ptpQ with
  | [] => .next s
  | q :: rest =>
    let s := modTime s (fun t => { t with ptpQ := rest })
    if obj s 0x6800 1 != 2 then .next s
    else match ptpTake s m q with
      | (s, none) => .next s
      | (s, some d) => measured s d

/-- The events held up to now fire in order, as late ones (R350). -/
def fireHeld (s : State) : State := firePassed 0 s s.plan.events.length

/-- The events held over the Basecamp state fire before FAULT_N rises, and no other event of the old plan is left (R350, R391).
DEDUCED, log entry 87. -/
def dropPlan (s : State) : State := { fireHeld s with plan := {} }

/-- Start-up ends (R428). -/
def execStartupComplete (s : State) : Res :=
  if !startupReady s then .next s else .next (startupEnd (if s.sys.resetCause = 4 then dropPlan else id) s)

/-- A stack leaves self-refresh, in 1,200 ns at most, where the device wakes; with the last, the data path is on again, the
events held in Bivouac fire, and the rest of the exit follows (R334, R350, R390). -/
def execSelfRefreshExit (stack : Nat) (s : State) : Res :=
  let x := stackOf s stack
  if !started s || s.pwr.state != 3 || x.state != 4 then .next s
  else
    let s := setStack (advance s (nsU 1200)) stack { x with state := 2 }
    if (List.range (nStacks s.sys)).any (fun k => (stackOf s k).state == 4) then .next s
    else .next (wakeEnd (fireHeld (wakeUp s)))

def execWake (s : State) : Res := put s 0x7000 9 [1]

def execObjectWrite (idx : BitVec 16) (sub : BitVec 8) (data : List Byte) (s : State) : Res := put s idx.toNat sub.toNat data

/-- The sideband target sees an address byte: it acknowledges its own, and in Bivouac, the way into it, and the Basecamp state
that starts the wake, but in a Basecamp state in which Basecamp has failed (R388, R392, R409). -/
def execSidebandAddressMatch (addr : BitVec 7) (rd : Bool) (s : State) : Res :=
  if s.sys.phase == .unpowered || s.sys.vinLow || s.sys.frozen || addr.toNat != 0x58 + s.sys.sbaddr.toNat then .next s
  else
    let t := emit s (.sideband (if rd then some (sidebandByte s) else none))
    if s.sys.inBasecamp then
      if s.sys.basecampFailed then .next t
      else .next { t with sys := { s.sys with inBasecamp := false, phase := .held, pendingCause := 4 } }
    else if started s then .next (wakeFrom t 1)
    else .next t

end Sys2Proof.Machine
end

