-- ==== Sys2Proof/Machine/Memory.lean ====
section
/-! DEFINITION. Loads, stores and bank atomics (R137, R139, R146, R147). -/

namespace Sys2Proof.Machine

/-- The effective address (R146). -/
def effAddr (x : Rope) (a : BitVec 5) (imm : BitVec 16) : BitVec 64 := getW x a + imm.signExtend 64

/-- A load of `n` bytes: at once from the regions of class S, and with a long stall from cluster control and
the HBM window (R139). `parity` is an uncorrectable error in what it reads of the scratchpad (R171). -/
def loadEff (s : State) (r : Nat) (n : Nat) (d a : BitVec 5) (imm : BitVec 16) (parity : Bool) : Eff :=
  let x := rope s r
  let ea := effAddr x a imm
  match access s x ea.toNat n n false with
  | .error c => .trap c ea
  | .ok g =>
    if parity then .trap 0x0A ea
    else if g = .ctl || g = .hbm then .held (stall s r (.load d ea n))
    else .done (modRope s r (fun x => setW x d (BitVec.ofNat 64 (ofLE (memRead s r g ea.toNat n)))))

/-- A store of the low `n` bytes of w[d] (R146). DESIGN CHOICE, log entry 9. -/
def storeEff (s : State) (r : Nat) (n : Nat) (d a : BitVec 5) (imm : BitVec 16) : Eff :=
  let x := rope s r
  let ea := effAddr x a imm
  let bs := toLE n (getW x d).toNat
  match access s x ea.toNat n n true with
  | .error c => .trap c ea
  | .ok g =>
    let t := memWrite s r g ea.toNat bs
    if g = .ctl && suspends ea.toNat bs then .held (stall (modRope t r nextPc) r .task) else .done t

/-- LB (R146). -/
def execLb (r : Issuer) (d a : BitVec 5) (imm : BitVec 16) (parity : Bool) (s : State) : Res :=
  issue s r false (fun s => loadEff s r.toNat 1 d a imm parity)

/-- LH (R146). -/
def execLh (r : Issuer) (d a : BitVec 5) (imm : BitVec 16) (parity : Bool) (s : State) : Res :=
  issue s r false (fun s => loadEff s r.toNat 2 d a imm parity)

/-- LW (R146). -/
def execLw (r : Issuer) (d a : BitVec 5) (imm : BitVec 16) (parity : Bool) (s : State) : Res :=
  issue s r false (fun s => loadEff s r.toNat 4 d a imm parity)

/-- LD (R146). -/
def execLd (r : Issuer) (d a : BitVec 5) (imm : BitVec 16) (parity : Bool) (s : State) : Res :=
  issue s r false (fun s => loadEff s r.toNat 8 d a imm parity)

/-- SB (R146). -/
def execSb (r : Issuer) (d a : BitVec 5) (imm : BitVec 16) (s : State) : Res :=
  issue s r false (fun s => storeEff s r.toNat 1 d a imm)

/-- SH (R146). -/
def execSh (r : Issuer) (d a : BitVec 5) (imm : BitVec 16) (s : State) : Res :=
  issue s r false (fun s => storeEff s r.toNat 2 d a imm)

/-- SW (R146). -/
def execSw (r : Issuer) (d a : BitVec 5) (imm : BitVec 16) (s : State) : Res :=
  issue s r false (fun s => storeEff s r.toNat 4 d a imm)

/-- SD (R146). -/
def execSd (r : Issuer) (d a : BitVec 5) (imm : BitVec 16) (s : State) : Res :=
  issue s r false (fun s => storeEff s r.toNat 8 d a imm)

/-- A read and a write of a scratchpad word as one access at the bank (R147). -/
def bankEff (s : State) (r : Nat) (w32 : Bool) (d : BitVec 5) (a : Checked (BitVec 5)) (b : BitVec 5) (f : Word → Word → Word) : Eff :=
  let x := rope s r
  let ea := (getW x a.val).toNat
  let n := if w32 then 4 else 8
  if 0x400000 ≤ ea then .trap 3 (getW x a.val)
  else if ea % n != 0 then .trap 4 (getW x a.val)
  else if a.parity then .trap 0x0A (getW x a.val)
  else
    let old := BitVec.ofNat 64 (ofLE (memRead s r .scratch ea n))
    let t := memWrite s r .scratch ea (toLE n (f old (getW x b)).toNat)
    .done (modRope t r (fun x => setW x d old))

/-- ADDM (R147). -/
def execAddm (r : Issuer) (w32 : Bool) (d : BitVec 5) (a : Checked (BitVec 5)) (b : BitVec 5) (s : State) : Res :=
  issue s r false (fun s => bankEff s r.toNat w32 d a b (fun old v => old + v))

/-- SWPM (R147). -/
def execSwpm (r : Issuer) (w32 : Bool) (d : BitVec 5) (a : Checked (BitVec 5)) (b : BitVec 5) (s : State) : Res :=
  issue s r false (fun s => bankEff s r.toNat w32 d a b (fun _ v => v))

/-- A class L load or another long stall of the memory system ends: the load's value is written and the rope is
ready; an HBM line that stays uncorrectable raises MEDIA (R139, R166, R171, R206). -/
def execLoadReturn (r : RopeId) (s : State) : Res := live s <|
  let n := r.toNat
  match (rope s n).st with
  | .waiting (.load d ea k) =>
    let x := rope s n
    match access s x ea.toNat k k false with
    | .error c => .next (faultRope s n c ea)
    | .ok g =>
      if (g = .ctl && ownWriteWaits s n ea.toNat k) || memThrottled s g ea.toNat then .next s
      else if memMedia s g ea.toNat k then .next (faultRope s n 9 ea)
      else .next (wakeDone s n (fun x => setW x d (BitVec.ofNat 64 (ofLE (memRead s n g ea.toNat k)))))
  | .waiting (.lines l) =>
    if l.any (fun i => throttled s .core (64 * i)) then .next s
    else match l.find? (fun i => s.hbm.media.contains i) with
    | some i => .next (faultRope s n 9 (BitVec.ofNat 64 (0x1000000000000000 + 64 * i)))
    | none => .next (makeReady (modRope s n (fun x => { x with lines := l })) n)
  | .waiting (.kload kd ea) =>
    if ownWriteWaits s n ea.toNat 64 then .next s
    else .next (wakeDone s n (fun x => setK x kd (kOf (memRead s n .ctl ea.toNat 64))))
  | .waiting .kstate => .next (makeReady s n)
  | _ => .next s

end Sys2Proof.Machine
end

