-- ==== Sys2Proof/Machine/Mgmt.lean ====
section
/-! DEFINITION. The management agent: in-band requests and their responses (R369 to R373). -/

namespace Sys2Proof.Machine

def mIdx (m : MgmtReq) : Nat := bits m.hdr.addr.toNat 15 0
def mSub (m : MgmtReq) : Nat := bits m.hdr.addr.toNat 23 16
def mOff (m : MgmtReq) : Nat := bits m.hdr.addr.toNat 63 24

/-- The RESPONSE: TAG and ADDR as the request, from the device endpoint to its SRC_EP, on its ingress port; its number keeps
the answers to one requester in order of execution (R369, R371). -/
def respond (s : State) (m : MgmtReq) (code detail : Nat) (data : List Byte) : State :=
  let s := bump s 0x0200 8
  let s := if code = 0 then { s with answer := .ok data } else { bump s 0x0200 7 with answer := .abort code detail }
  let data := if code = 0 then data else []
  let h : Sxt := { typ := 9, cls := m.hdr.cls, sub := 8, src := devEp s, dst := m.hdr.src, ostream := m.hdr.ostream, tag := m.hdr.tag,
                   len := BitVec.ofNat 16 data.length, xarg := BitVec.ofNat 16 (detail * 256 + code), addr := m.hdr.addr }
  let no := s.nextOut + 1
  admitNew { s with nextOut := no } { hdr := h, payload := data, lp := m.lp, orig := true, ecn := ecnOf s m.hdr.tid.toNat, respNo := no }

/-- The agent's next request, when the command is its operation; an unknown SUB is any operation's. -/
def nextMgmt (s : State) (sub : Nat) : Option MgmtReq :=
  match s.dict.mgmtQ with
  | [] => none
  | m :: _ => if agentUp s && (m.hdr.sub.toNat == sub || decide (4 ≤ m.hdr.sub.toNat)) then some m else none

def dropMgmt (s : State) : State := stir { s with dict := { s.dict with mgmtQ := s.dict.mgmtQ.tail } }

/-- The answer to a request that reads. -/
def respondRead (m : MgmtReq) (a : State × Except (Nat × Nat) (List Byte)) : State :=
  match a with
  | (s, .ok b) => respond s m 0 0 b
  | (s, .error e) => respond s m e.1 e.2 []

/-- A request is executed, or answered with BAD_COMMAND for its SUB. -/
def serveMgmt (s : State) (sub : Nat) (f : State → MgmtReq → State) : Res :=
  match nextMgmt s sub with
  | none => .next s
  | some m =>
    let s := dropMgmt s
    if m.hdr.sub.toNat = sub then .next (f s m) else .next (respond s m abBadCommand 0 [])

/-- READ. -/
def execMgmtRead (s : State) : Res := serveMgmt s 0 (fun s m => respondRead m (readObj s .inband (mIdx m) (mSub m)))

/-- WRITE. -/
def execMgmtWrite (s : State) : Res :=
  serveMgmt s 1 (fun s m =>
    let a := writeObj s .inband (mIdx m) (mSub m) m.payload
    respond a.1 m a.2.1 a.2.2 [])

/-- The bytes of HBM that a DOMAIN_READ moves wait for the next window (R327). -/
def domainWaits (s : State) (m : MgmtReq) : Bool :=
  let n := m.hdr.xarg.toNat % 4096 + 1
  (mIdx m == 0x9000 && throttledIn s .sys (mapBase s + mOff m) n) || (mIdx m == 0x9002 && throttledIn s .sys (mOff m) n)

/-- DOMAIN_READ of XARG[11:0] + 1 bytes. -/
def execDomainRead (s : State) : Res :=
  if (nextMgmt s 2).any (fun m => m.hdr.sub.toNat == 2 && domainWaits s m) then .next s else
  serveMgmt s 2 (fun s m =>
    match objectFor s .inband (mIdx m) (mSub m) with
    | .error e => respond s m e.1 e.2 []
    | .ok r => match r.ty with
      | .domain n =>
        respondRead m (domainGet s (mIdx m) (mSub m) n r (mOff m) (some (m.hdr.xarg.toNat % 4096 + 1)))
      | _ => respond s m abBadCommand 0 [])

/-- DOMAIN_WRITE, END in XARG[15]. -/
def execDomainWrite (s : State) : Res :=
  serveMgmt s 3 (fun s m =>
    match objectFor s .inband (mIdx m) (mSub m) with
    | .error e => respond s m e.1 e.2 []
    | .ok r => match r.ty with
      | .domain n =>
        let a := domainPut s (mIdx m) (mSub m) n r (mOff m) m.payload (bit m.hdr.xarg.toNat 15)
        respond a.1 m a.2.1 a.2.2 []
      | _ => respond s m abBadCommand 0 [])

end Sys2Proof.Machine
end

