-- ==== Sys2Proof/Machine/Sdp.lean ====
section
/-! DEFINITION. The Skoex Dictionary Protocol on CAN FD: expedited and segmented transfers (R363 to R368). -/

namespace Sys2Proof.Machine

/-! ### Answers -/

/-- Bytes 0 to 3 of a request or a response: index and subindex. -/
def objBytes (k : Nat) : List Byte := toLE 2 (k / 256) ++ toLE 1 (k % 256) ++ [0]

/-- The object a request names. -/
def qKey (q : CanReq) : Nat := key (qByte q 0 2) (qByte q 2 1)

/-- An ABORT, which SdpAborts counts (R364, R368). -/
def sdpAbort (s : State) (q : CanReq) (k code detail : Nat) : State :=
  let s := { bump s 0x0200 7 with answer := .abort code detail }
  canSend s (canReply s q 9 ((objBytes k).take 3 ++ toLE 1 code ++ toLE 1 detail))

def sdpReply (s : State) (q : CanReq) (func : Nat) (data : List Byte) : State := canSend s (canReply s q func data)

/-- The answer to a write. -/
def sdpWritten (q : CanReq) (func k : Nat) (data : List Byte) (a : Ack) : State :=
  if a.2.1 = 0 then sdpReply { a.1 with answer := .ok [] } q func data else sdpAbort a.1 q k a.2.1 a.2.2

/-! ### Requests that open a transaction (R363, R367) -/

/-- The frames sent since `n` were out, oldest first. -/
def sentSince (s : State) (n : Nat) : List Out := (s.out.take (s.out.length - n)).reverse

/-- An answer that is an ABORT. -/
def isAbort (o : Out) : Bool :=
  match o with
  | .can ident _ => ident.extractLsb' 20 6 == 9#6
  | _ => false

/-- The last answer goes again; an ABORT sent again counts again (R367, R368). -/
def repeatAnswer (s : State) (l : List Out) : State :=
  l.foldl (fun s o => canSend (if isAbort o then bump s 0x0200 7 else s) o) s

/-- A request for this device: READ and WRITE to every node are ignored (R363). -/
def sdpHears (s : State) (q : CanReq) (func : Nat) : Bool := canHears s q && !(q.dst == 0x7F#7 && (func == 1 || func == 3))

/-- The last request of a node, a repeat among them, and its answer (R367). -/
def lastAnswer (s : State) (n : Nat) (e : LastReq) : State :=
  { s with dict := { s.dict with lastReq := (n, e) :: s.dict.lastReq.filter (fun x => x.1 != n) } }

/-- A request is served, or, as a repeat of the last of its node within 1 s, answered as before (R367). DESIGN CHOICE, log
entry 72. -/
def sdpRequest (s : State) (q : CanReq) (func : Nat) (serve : State → State) : Res :=
  if !sdpHears s q func then .next s
  else
    let s := bump s 0x0200 4
    let n := q.src.toNat
    let last := (s.dict.lastReq.find? (fun e => e.1 == n)).map (·.2)
    let old := match last with
      | some l => if l.func = func && l.seq = q.seq.toNat && decide (s.time.now ≤ l.at_ + msU 1000) then some l.reply else none
      | none => none
    match old with
    | some r => .next (lastAnswer (repeatAnswer s r) n { func := func, seq := q.seq.toNat, at_ := s.time.now, reply := r })
    | none =>
      let t := serve s
      .next (lastAnswer t n { func := func, seq := q.seq.toNat, at_ := s.time.now, reply := sentSince t s.out.length })

/-! ### Expedited transfers (R365) -/

/-- A READ that a DOMAIN of more than 60 B would answer ends with LENGTH, before the read does anything. -/
def tooLong (s : State) (k : Nat) : Bool :=
  match objectFor s .can (k / 256) (k % 256) with
  | .ok { ty := .domain m, acc := a, .. } => a != .wo && decide (60 < m)
  | _ => false

def serveRead (q : CanReq) (s : State) : State :=
  let k := qKey q
  if tooLong s k then sdpAbort s q k abLength 0
  else match readObj s .can (k / 256) (k % 256) with
    | (s, .error e) => sdpAbort s q k e.1 e.2
    | (s, .ok b) =>
      if 60 < b.length then sdpAbort s q k abLength 0
      else sdpReply { s with answer := .ok b } q 2 (slice q.data 0 4 ++ b)

/-- The value a WRITE carries: without the padding that its length needed, where the object fixes the length. DEDUCED,
log entry 73. -/
def writeValue (s : State) (k : Nat) (q : CanReq) : List Byte :=
  let v := q.data.drop 4
  match objectFor s .can (k / 256) (k % 256) with
  | .ok r =>
    let w := r.ty.width
    if w < v.length && q.data.length == canLen (4 + w) && (v.drop w).all (· == 0) then v.take w else v
  | .error _ => v

def serveWrite (q : CanReq) (s : State) : State :=
  let k := qKey q
  sdpWritten q 4 k (slice q.data 0 4) (writeObj s .can (k / 256) (k % 256) (writeValue s k q))

/-- READ. -/
def execSdpRead (q : CanReq) (s : State) : Res := sdpRequest s q 1 (serveRead q)

/-- WRITE. -/
def execSdpWrite (q : CanReq) (s : State) : Res := sdpRequest s q 3 (serveWrite q)

/-! ### Segmented transfers (R366) -/

def xferOf (s : State) (node : Nat) : Option Xfer := s.dict.xfers.find? (fun x => x.node == node)

def dropXfer (s : State) (node : Nat) : State :=
  let l := s.dict.xfers.filter (fun x => x.node != node)
  if l.length = s.dict.xfers.length then s else stir { s with dict := { s.dict with xfers := l } }

def setXfer (s : State) (x : Xfer) : State :=
  let s := dropXfer s x.node
  { s with dict := { s.dict with xfers := s.dict.xfers ++ [x] } }

/-- The instant by which a transfer has been without its next frame for SdpTimeout (R366). -/
def xferDue (s : State) (x : Xfer) : Nat := x.lastAt + msU (obj s 0x0200 3)

/-- A transfer ends with TIMEOUT. -/
def timeOut (s : State) (x : Xfer) : State :=
  sdpAbort (dropXfer s x.node) { pri := x.pri, dst := s.sys.node, src := BitVec.ofNat 7 x.node, seq := x.seq, data := [] } x.key
    abTimeout 0

/-- The transfers whose time has passed end before a frame of a transfer that the node hears is served (R366). DEDUCED,
log entry 2. -/
def settleXfers (s : State) (q : CanReq) : State :=
  if !canHears s q then s
  else (s.dict.xfers.filter (fun x => decide (xferDue s x ≤ s.time.now))).foldl timeOut s

/-- SEG_DATA frames of a read: 60 B each, the last with END. -/
def segCount (x : Xfer) : Nat := max 1 (cdiv x.data.length 60)

/-- The next block of up to 16 SEG_DATA goes out, and the server waits for its SEG_ACK. -/
def sendBlock (s : State) (q : CanReq) (x : Xfer) : State :=
  let n := segCount x
  let k := x.nextSeg
  let top := min (k + 16) n
  let s := (List.range (top - k)).foldl (fun s j =>
    let i := k + j
    sdpReply s q 7 (toLE 2 i ++ toLE 1 (b2n (i + 1 == n)) ++ [0] ++ (x.data.drop (60 * i)).take 60)) s
  setXfer s { x with nextSeg := top, lastAt := s.time.now }

/-- SEG_ACK of a write: the segment expected next. -/
def ackSeg (s : State) (q : CanReq) (x : Xfer) : State := sdpReply s q 8 (objBytes x.key ++ toLE 2 x.nextSeg ++ [0, 0])

/-- A transfer opens: the object must take one; a transfer of the node is replaced, and a fifth ends with BUSY. -/
def openXfer (s : State) (q : CanReq) (f : State → State) : State :=
  let k := qKey q
  match objectFor s .can (k / 256) (k % 256) with
  | .error e => sdpAbort s q k e.1 e.2
  | .ok _ =>
    let s := dropXfer s q.src.toNat
    if 4 ≤ s.dict.xfers.length then sdpAbort s q k abBusy 0 else f s

def newXfer (s : State) (q : CanReq) (wr : Bool) : Xfer :=
  { node := q.src.toNat, pri := q.pri, seq := q.seq, wr := wr, key := qKey q, total := 0, crc := 0, data := [], nextSeg := 0,
    lastAt := s.time.now }

def serveSegWrite (q : CanReq) (s : State) : State :=
  openXfer s q (fun s =>
    let x := { newXfer s q true with total := qByte q 4 4, crc := qByte q 8 4 }
    ackSeg (setXfer s x) q x)

/-- The value as it stands now is what the transfer sends. -/
def serveSegRead (q : CanReq) (s : State) : State :=
  openXfer s q (fun s =>
    let k := qKey q
    match readObj s .can (k / 256) (k % 256) with
    | (s, .error e) => sdpAbort s q k e.1 e.2
    | (s, .ok b) =>
      let s := sdpReply s q 8 (objBytes k ++ [0, 0, 0, 0] ++ toLE 4 b.length ++ toLE 4 (crc32c b))
      sendBlock { s with answer := .ok b } q { newXfer s q false with data := b })

/-- SEG_WRITE. -/
def execSegWrite (q : CanReq) (s : State) : Res := sdpRequest (settleXfers s q) q 5 (serveSegWrite q)

/-- SEG_READ. -/
def execSegRead (q : CanReq) (s : State) : Res := sdpRequest (settleXfers s q) q 6 (serveSegRead q)

/-- END: the length, then the CRC, and then the whole value in one access. Up to 15 bytes of padding may follow the
last data. -/
def segFinish (s : State) (q : CanReq) (x : Xfer) : State :=
  let s := dropXfer s x.node
  let v := x.data.take x.total
  if x.data.length < x.total || x.total + 15 < x.data.length || (x.data.drop x.total).any (· != 0) then
    sdpAbort s q x.key abLength 0
  else if crc32c v != x.crc then sdpAbort s q x.key abCrc 0
  else
    let a := writeObj s .can (x.key / 256) (x.key % 256) v
    sdpWritten q 8 x.key (objBytes x.key ++ toLE 2 x.nextSeg ++ [0, 0]) a

/-- SEG_DATA of a write. -/
def segTake (s : State) (q : CanReq) (x : Xfer) : State :=
  if qByte q 0 2 != x.nextSeg then sdpAbort (dropXfer s x.node) q x.key abSequence 0
  else
    let x := { x with data := x.data ++ q.data.drop 4, nextSeg := x.nextSeg + 1, lastAt := s.time.now }
    if bit (qByte q 2 1) 0 then segFinish s q x
    else
      let s := setXfer s x
      if x.nextSeg % 16 = 0 then ackSeg s q x else s

def execSegData (q : CanReq) (s : State) : Res :=
  if !sdpHears s q 7 then .next s
  else
    let s := bump (settleXfers s q) 0x0200 4
    match xferOf s q.src.toNat with
    | none => .next (sdpAbort s q 0 abSequence 0)
    | some x => .next (if x.wr then segTake s q x else sdpAbort s q 0 abSequence 0)

/-- SEG_ACK of a read: the next block, the end, or SEQUENCE. One that belongs to no read is ignored. -/
def execSegAck (q : CanReq) (s : State) : Res :=
  if !sdpHears s q 8 then .next s
  else
    let s := bump (settleXfers s q) 0x0200 4
    match xferOf s q.src.toNat with
    | none => .next s
    | some x =>
      if x.wr then .next s
      else if qByte q 4 2 != x.nextSeg then .next (sdpAbort (dropXfer s x.node) q x.key abSequence 0)
      else if segCount x ≤ x.nextSeg then .next (dropXfer s x.node)
      else .next (sendBlock s q x)

/-- The function codes of R364. -/
def listedFunc (func : Nat) : Bool := (1 ≤ func && func ≤ 9) || (0x10 ≤ func && func ≤ 0x13)

/-- The function codes of R364 and R403 that only a device sends: READ_RSP, WRITE_RSP and LEASE_STATE. -/
def answerFunc (func : Nat) : Bool := func == 2 || func == 4 || func == 0x11

/-- ABORT from the client ends its transfer; a FUNC that R364 does not list is a request that gets BAD_COMMAND; an answer for
this node is counted (R377), and any other listed FUNC has its own row. DESIGN CHOICE, log entry 72. -/
def execAbortXfer (func : BitVec 6) (q : CanReq) (s : State) : Res :=
  if !canHears s q then .next s
  else if func = 9 then .next (dropXfer (bump (settleXfers s q) 0x0200 4) q.src.toNat)
  else if answerFunc func.toNat then .next (bump s 0x0200 4)
  else if listedFunc func.toNat then .next s
  else sdpRequest s q func.toNat (fun s => sdpAbort s q 0 abBadCommand 0)

/-- SdpTimeout passes without the next frame of a node's transfer. -/
def execSdpTimeout (node : BitVec 7) (s : State) : Res :=
  match xferOf s node.toNat with
  | none => .next s
  | some x => if canUp s then .next (timeOut (advanceTo s (xferDue s x)) x) else .next s

end Sys2Proof.Machine
end

