-- ==== Sys2Proof/Machine/Strings.lean ====
section
/-! DEFINITION. String instructions (R164 to R166). -/

namespace Sys2Proof.Machine

/-- The pointers of a string instruction, with whether the bytes there are written. -/
structure StrOps where
  ptrs : List (BitVec 5 × Bool)

/-- Bytes of the next step: up to the next 32 B boundary of each pointer (R164). -/
def stepLen (x : Rope) (o : StrOps) : Nat :=
  o.ptrs.foldl (fun n p => min n (32 - (getW x p.1).toNat % 32)) (getW x 28).toNat

/-- The fault of a step, none where every byte may be touched; cluster control is no operand (R166). -/
def stepFault (s : State) (x : Rope) (n : Nat) : List (BitVec 5 × Bool) → Option (Nat × BitVec 64)
  | [] => none
  | (p, wr) :: ps =>
    let a := getW x p
    if regionOf s a.toNat n = some .ctl then some (3, a)
    else match access s x a.toNat n 1 wr with
    | .error c => some (c, a)
    | .ok _ => stepFault s x n ps

/-- HBM lines the step reads. -/
def stepLines (s : State) (x : Rope) (n : Nat) (o : StrOps) : List Nat :=
  o.ptrs.filterMap (fun p =>
    let a := (getW x p.1).toNat
    if !p.2 && regionOf s a n == some .hbm then some ((a - 0x1000000000000000) / 64) else none)

/-- The bytes at a pointer. -/
def strBytes (s : State) (r : Nat) (p : BitVec 5) (n : Nat) : List Byte :=
  let a := (getW (rope s r) p).toNat
  match regionOf s a n with
  | some g => memRead s r g a n
  | none => []

def strPut (s : State) (r : Nat) (p : BitVec 5) (bs : List Byte) : State :=
  let a := (getW (rope s r) p).toNat
  match regionOf s a bs.length with
  | some g => memWrite s r g a bs
  | none => s

/-- Pointers go on by `n` bytes and w28 falls by as much. -/
def strMove (o : StrOps) (n : Nat) (x : Rope) : Rope :=
  let x := o.ptrs.foldl (fun x p => setW x p.1 (getW x p.1 + BitVec.ofNat 64 n)) x
  setW x 28 (getW x 28 - BitVec.ofNat 64 n)

/-- What a step does: the state with its bytes handled, and where it stops early, the bytes before the stop and
the flags there. -/
abbrev StrStep := State → Nat → Nat → State × Option (Nat × (Flags → Flags))

/-- An uncorrectable error in what the next step reads: the steps before it stand (R164, R170, R171). -/
def strParity (steps : Checked Nat) (o : StrOps) (run : State → Nat → Nat → Eff) (s : State) (r : Nat) : Eff :=
  let x := rope s r
  if steps.parity && getW x 28 != 0 && (stepFault s x (stepLen x o) o.ptrs).isNone then .trap 0x0A (getW x 26) else run s r steps.val

/-- The instruction completes. -/
def strEnd (s : State) (r : Nat) (f : Flags → Flags) : Eff :=
  .done (modRope s r (fun x => { x with lines := [], flags := f x.flags }))

/-- Up to `steps` steps run; between steps the program counter stays on the instruction, and a step that needs HBM
lines not read yet is a long stall (R164, R166). DEDUCED, log entry 82. -/
def strRun (o : StrOps) (step : StrStep) (fin : Flags → Flags) (s : State) (r : Nat) (steps : Nat) : Eff :=
  let x := rope s r
  if getW x 28 = 0 then strEnd s r fin
  else match steps with
  | 0 => .held s
  | k + 1 =>
    let n := stepLen x o
    match stepFault s x n o.ptrs with
    | some (c, a) => .held (faultRope s r c a)
    | none =>
      let l := stepLines s x n o
      if l.all (fun i => x.lines.contains i) then
        match step s r n with
        | (s, some (i, f)) => strEnd (modRope s r (strMove o i)) r f
        | (s, none) => strRun o step fin (modRope s r (strMove o n)) r k
      else .held (stall s r (.lines l))

/-- The bytes a byte-by-byte copy over `k` bytes of distance leaves (R165). -/
def copyBytes (bs : List Byte) (k : Nat) : List Byte :=
  if k = 0 then bs else (List.range bs.length).map (fun i => lget bs (i % k) 0)

def copyStep : StrStep := fun s r n =>
  let x := rope s r
  (strPut s r 27 (copyBytes (strBytes s r 26 n) ((getW x 27).toNat - (getW x 26).toNat)), none)

def fillStep (b : BitVec 5) : StrStep := fun s r n =>
  let x := rope s r
  let a := (getW x 27).toNat
  let v := toLE 8 (getW x b).toNat
  (strPut s r 27 ((List.range n).map (fun i => lget v ((a + i) % 8) 0)), none)

/-- The first place where two lists of bytes differ. -/
def firstDiff : List Byte → List Byte → Nat → Option (Nat × Byte × Byte)
  | a :: as, b :: bs, i => if a = b then firstDiff as bs (i + 1) else some (i, a, b)
  | _, _, _ => none

def cmpStep : StrStep := fun s r n =>
  match firstDiff (strBytes s r 26 n) (strBytes s r 27 n) 0 with
  | some (i, a, b) => (s, some (i, cmpFlags (a.setWidth 64) (b.setWidth 64)))
  | none => (s, none)

def scanStep (b : BitVec 5) : StrStep := fun s r n =>
  let v := (getW (rope s r) b).setWidth 8
  match (strBytes s r 26 n).findIdx? (fun c => c == v) with
  | some i => (s, some (i, fun f => { f with z := true }))
  | none => (s, none)

/-- SCOPY (R165). -/
def execScopy (r : Issuer) (steps : Checked Nat) (s : State) : Res :=
  let o : StrOps := ⟨[(26, false), (27, true)]⟩
  issue s r false (fun s => strParity steps o (strRun o copyStep id) s r.toNat)

/-- SFILL (R165). -/
def execSfill (r : Issuer) (b : BitVec 5) (steps : Nat) (s : State) : Res :=
  issue s r false (fun s => strRun ⟨[(27, true)]⟩ (fillStep b) id s r.toNat steps)

/-- SCMP (R165). -/
def execScmp (r : Issuer) (steps : Checked Nat) (s : State) : Res :=
  let o : StrOps := ⟨[(26, false), (27, false)]⟩
  issue s r false (fun s => strParity steps o (strRun o cmpStep
    (fun _ => { n := false, z := true, c := true, v := false })) s r.toNat)

/-- SSCAN (R165). -/
def execSscan (r : Issuer) (b : BitVec 5) (steps : Checked Nat) (s : State) : Res :=
  let o : StrOps := ⟨[(26, false)]⟩
  issue s r false (fun s => strParity steps o (strRun o (scanStep b) (fun f => { f with z := false })) s r.toNat)

end Sys2Proof.Machine
end

