-- ==== Sys2Proof/Machine/Dispatch.lean ====
section
/-! DEFINITION. The meaning of each command, one arm per constructor. -/

namespace Sys2Proof.Machine

def exec (i : Instr) (s : State) : Host.Outcome State Fault Refusal :=
  match i with
  | .frameReceived lp bytes noBank => Sys2Proof.Machine.execFrameReceived lp bytes noBank s
  | .ptpMessage m => Sys2Proof.Machine.execPtpMessage m s
  | .pulseSend lp => Sys2Proof.Machine.execPulseSend lp s
  | .pulseLossTimeout lp => Sys2Proof.Machine.execPulseLossTimeout lp s
  | .pulseMissed lp => Sys2Proof.Machine.execPulseMissed lp s
  | .ackDelayExpiry ep => Sys2Proof.Machine.execAckDelayExpiry ep s
  | .retransmitTimeout ep => Sys2Proof.Machine.execRetransmitTimeout ep s
  | .contextIdleExpiry receiver ep => Sys2Proof.Machine.execContextIdleExpiry receiver ep s
  | .credSend lp => Sys2Proof.Machine.execCredSend lp s
  | .modeWrite lp v => Sys2Proof.Machine.execModeWrite lp v s
  | .laneMapWrite lp polarity v => Sys2Proof.Machine.execLaneMapWrite lp polarity v s
  | .trainingComplete lp => Sys2Proof.Machine.execTrainingComplete lp s
  | .trainingTimeout lp => Sys2Proof.Machine.execTrainingTimeout lp s
  | .trainingRestart lp => Sys2Proof.Machine.execTrainingRestart lp s
  | .fecErrorBurst lp corrected uncorrectable => Sys2Proof.Machine.execFecErrorBurst lp corrected uncorrectable s
  | .linkDown lp => Sys2Proof.Machine.execLinkDown lp s
  | .lpiReceivedOutside lp => Sys2Proof.Machine.execLpiReceivedOutside lp s
  | .pfcXoffSend lp cls => Sys2Proof.Machine.execPfcXoffSend lp cls s
  | .pauseTimeExpiry lp cls => Sys2Proof.Machine.execPauseTimeExpiry lp cls s
  | .ruleReadDone frame => Sys2Proof.Machine.execRuleReadDone frame s
  | .learnRequest => Sys2Proof.Machine.execLearnRequest s
  | .stageOpen => Sys2Proof.Machine.execStageOpen s
  | .stageDiscard => Sys2Proof.Machine.execStageDiscard s
  | .versionRetired => Sys2Proof.Machine.execVersionRetired s
  | .reclaimWalkDone => Sys2Proof.Machine.execReclaimWalkDone s
  | .insert => Sys2Proof.Machine.execInsert s
  | .deleteEntry => Sys2Proof.Machine.execDeleteEntry s
  | .search => Sys2Proof.Machine.execSearch s
  | .nextSlot => Sys2Proof.Machine.execNextSlot s
  | .flushPort raced => Sys2Proof.Machine.execFlushPort raced s
  | .ageSweep => Sys2Proof.Machine.execAgeSweep s
  | .ageSweepTimer => Sys2Proof.Machine.execAgeSweepTimer s
  | .ageSweepBucket split => Sys2Proof.Machine.execAgeSweepBucket split s
  | .ageIntervalWrite v => Sys2Proof.Machine.execAgeIntervalWrite v s
  | .shadowCtlWrite v => Sys2Proof.Machine.execShadowCtlWrite v s
  | .shadowBucket => Sys2Proof.Machine.execShadowBucket s
  | .shadowRecheck raced => Sys2Proof.Machine.execShadowRecheck raced s
  | .coalesceWindowExpiry lp cls => Sys2Proof.Machine.execCoalesceWindowExpiry lp cls s
  | .pitchDispatch c => Sys2Proof.Machine.execPitchDispatch c s
  | .stragglerBudgetExpiry pitch => Sys2Proof.Machine.execStragglerBudgetExpiry pitch s
  | .lateReleaseExpiry pitch => Sys2Proof.Machine.execLateReleaseExpiry pitch s
  | .add r kf w32 d a b => Sys2Proof.Machine.execAdd r kf w32 d a b s
  | .sub r kf w32 d a b => Sys2Proof.Machine.execSub r kf w32 d a b s
  | .adc r kf w32 d a b => Sys2Proof.Machine.execAdc r kf w32 d a b s
  | .sbc r kf w32 d a b => Sys2Proof.Machine.execSbc r kf w32 d a b s
  | .andOp r kf w32 d a b => Sys2Proof.Machine.execAndOp r kf w32 d a b s
  | .orOp r kf w32 d a b => Sys2Proof.Machine.execOrOp r kf w32 d a b s
  | .xorOp r kf w32 d a b => Sys2Proof.Machine.execXorOp r kf w32 d a b s
  | .andn r kf w32 d a b => Sys2Proof.Machine.execAndn r kf w32 d a b s
  | .shl r kf w32 d a b => Sys2Proof.Machine.execShl r kf w32 d a b s
  | .shr r kf w32 d a b => Sys2Proof.Machine.execShr r kf w32 d a b s
  | .sar r kf w32 d a b => Sys2Proof.Machine.execSar r kf w32 d a b s
  | .ror r kf w32 d a b => Sys2Proof.Machine.execRor r kf w32 d a b s
  | .mul r kf w32 d a b => Sys2Proof.Machine.execMul r kf w32 d a b s
  | .mulhu r kf w32 d a b => Sys2Proof.Machine.execMulhu r kf w32 d a b s
  | .minu r kf w32 d a b => Sys2Proof.Machine.execMinu r kf w32 d a b s
  | .maxu r kf w32 d a b => Sys2Proof.Machine.execMaxu r kf w32 d a b s
  | .clz r kf w32 d a => Sys2Proof.Machine.execClz r kf w32 d a s
  | .ctz r kf w32 d a => Sys2Proof.Machine.execCtz r kf w32 d a s
  | .popc r kf w32 d a => Sys2Proof.Machine.execPopc r kf w32 d a s
  | .bswap r kf w32 d a => Sys2Proof.Machine.execBswap r kf w32 d a s
  | .cmp r kf w32 a b => Sys2Proof.Machine.execCmp r kf w32 a b s
  | .tst r kf w32 a b => Sys2Proof.Machine.execTst r kf w32 a b s
  | .addi r d a imm => Sys2Proof.Machine.execAddi r d a imm s
  | .cmpi r a imm => Sys2Proof.Machine.execCmpi r a imm s
  | .andi r d a imm => Sys2Proof.Machine.execAndi r d a imm s
  | .ori r d a imm => Sys2Proof.Machine.execOri r d a imm s
  | .xori r d a imm => Sys2Proof.Machine.execXori r d a imm s
  | .shi r d a kind n => Sys2Proof.Machine.execShi r d a kind n s
  | .bfx r d a lsb width1 => Sys2Proof.Machine.execBfx r d a lsb width1 s
  | .bfi r d a lsb width1 => Sys2Proof.Machine.execBfi r d a lsb width1 s
  | .ipl r d q imm => Sys2Proof.Machine.execIpl r d q imm s
  | .ips r d q imm => Sys2Proof.Machine.execIps r d q imm s
  | .img r d q imm => Sys2Proof.Machine.execImg r d q imm s
  | .lb r d a imm parity => Sys2Proof.Machine.execLb r d a imm parity s
  | .lh r d a imm parity => Sys2Proof.Machine.execLh r d a imm parity s
  | .lw r d a imm parity => Sys2Proof.Machine.execLw r d a imm parity s
  | .ld r d a imm parity => Sys2Proof.Machine.execLd r d a imm parity s
  | .sb r d a imm => Sys2Proof.Machine.execSb r d a imm s
  | .sh r d a imm => Sys2Proof.Machine.execSh r d a imm s
  | .sw r d a imm => Sys2Proof.Machine.execSw r d a imm s
  | .sd r d a imm => Sys2Proof.Machine.execSd r d a imm s
  | .loadReturn r => Sys2Proof.Machine.execLoadReturn r s
  | .addm r w32 d a b => Sys2Proof.Machine.execAddm r w32 d a b s
  | .swpm r w32 d a b => Sys2Proof.Machine.execSwpm r w32 d a b s
  | .jmp r off => Sys2Proof.Machine.execJmp r off s
  | .jz r off => Sys2Proof.Machine.execJz r off s
  | .jnz r off => Sys2Proof.Machine.execJnz r off s
  | .jc r off => Sys2Proof.Machine.execJc r off s
  | .jnc r off => Sys2Proof.Machine.execJnc r off s
  | .jn r off => Sys2Proof.Machine.execJn r off s
  | .jnn r off => Sys2Proof.Machine.execJnn r off s
  | .jv r off => Sys2Proof.Machine.execJv r off s
  | .jnv r off => Sys2Proof.Machine.execJnv r off s
  | .jlt r off => Sys2Proof.Machine.execJlt r off s
  | .jge r off => Sys2Proof.Machine.execJge r off s
  | .jgt r off => Sys2Proof.Machine.execJgt r off s
  | .jle r off => Sys2Proof.Machine.execJle r off s
  | .jhi r off => Sys2Proof.Machine.execJhi r off s
  | .jls r off => Sys2Proof.Machine.execJls r off s
  | .call r off => Sys2Proof.Machine.execCall r off s
  | .ret r => Sys2Proof.Machine.execRet r s
  | .jr r a => Sys2Proof.Machine.execJr r a s
  | .repb r n1 => Sys2Proof.Machine.execRepb r n1 s
  | .scopy r steps => Sys2Proof.Machine.execScopy r steps s
  | .sfill r b steps => Sys2Proof.Machine.execSfill r b steps s
  | .scmp r steps => Sys2Proof.Machine.execScmp r steps s
  | .sscan r b steps => Sys2Proof.Machine.execSscan r b steps s
  | .evw r d a b => Sys2Proof.Machine.execEvw r d a b s
  | .evs r a b => Sys2Proof.Machine.execEvs r a b s
  | .eventDelivery => Sys2Proof.Machine.execEventDelivery s
  | .evwTimeout r => Sys2Proof.Machine.execEvwTimeout r s
  | .twait r d a b => Sys2Proof.Machine.execTwait r d a b s
  | .twaitWake r => Sys2Proof.Machine.execTwaitWake r s
  | .kmvWk r kd w lane => Sys2Proof.Machine.execKmvWk r kd w lane s
  | .kmvKw r w ka lane => Sys2Proof.Machine.execKmvKw r w ka lane s
  | .kmvLd r kd w => Sys2Proof.Machine.execKmvLd r kd w s
  | .kmvSt r ka w => Sys2Proof.Machine.execKmvSt r ka w s
  | .kmvKk r kd ka => Sys2Proof.Machine.execKmvKk r kd ka s
  | .kcrc32c r kd ka w => Sys2Proof.Machine.execKcrc32c r kd ka w s
  | .kcrc32 r kd ka w => Sys2Proof.Machine.execKcrc32 r kd ka w s
  | .kh2 r kd ka kb w => Sys2Proof.Machine.execKh2 r kd ka kb w s
  | .kcmpm r kd ka kb => Sys2Proof.Machine.execKcmpm r kd ka kb s
  | .ksplice r kd ka kb w => Sys2Proof.Machine.execKsplice r kd ka kb w s
  | .ktxl r kd ka => Sys2Proof.Machine.execKtxl r kd ka s
  | .kResultWritten r kd => Sys2Proof.Machine.execKResultWritten r kd s
  | .mapReadDone r kd => Sys2Proof.Machine.execMapReadDone r kd s
  | .ksave r w => Sys2Proof.Machine.execKsave r w s
  | .kload r w => Sys2Proof.Machine.execKload r w s
  | .mfs r d n => Sys2Proof.Machine.execMfs r d n s
  | .mts r a n => Sys2Proof.Machine.execMts r a n s
  | .femit r a b => Sys2Proof.Machine.execFemit r a b s
  | .femitR r a => Sys2Proof.Machine.execFemitR r a s
  | .fnew r a b => Sys2Proof.Machine.execFnew r a b s
  | .nop r => Sys2Proof.Machine.execNop r s
  | .illegalInstruction r word => Sys2Proof.Machine.execIllegalInstruction r word s
  | .fence r => Sys2Proof.Machine.execFence r s
  | .pdone r => Sys2Proof.Machine.execPdone r s
  | .park c rope => Sys2Proof.Machine.execPark c rope s
  | .resume c rope => Sys2Proof.Machine.execResume c rope s
  | .freeRope c rope => Sys2Proof.Machine.execFreeRope c rope s
  | .parkHoldExpiry r => Sys2Proof.Machine.execParkHoldExpiry r s
  | .coreFenceWrite c v => Sys2Proof.Machine.execCoreFenceWrite c v s
  | .leadBeat c => Sys2Proof.Machine.execLeadBeat c s
  | .leadBeatTimeout c => Sys2Proof.Machine.execLeadBeatTimeout c s
  | .acquire c lock => Sys2Proof.Machine.execAcquire c lock s
  | .release c lock => Sys2Proof.Machine.execRelease c lock s
  | .force c lock => Sys2Proof.Machine.execForce c lock s
  | .withdraw c lock => Sys2Proof.Machine.execWithdraw c lock s
  | .priorityRaisePropagate c => Sys2Proof.Machine.execPriorityRaisePropagate c s
  | .systemPortRetry c => Sys2Proof.Machine.execSystemPortRetry c s
  | .spawn c => Sys2Proof.Machine.execSpawn c s
  | .signal c => Sys2Proof.Machine.execSignal c s
  | .cancel c => Sys2Proof.Machine.execCancel c s
  | .endTask c => Sys2Proof.Machine.execEndTask c s
  | .waitTask c => Sys2Proof.Machine.execWaitTask c s
  | .sleep c => Sys2Proof.Machine.execSleep c s
  | .yield c => Sys2Proof.Machine.execYield c s
  | .taskDispatch c => Sys2Proof.Machine.execTaskDispatch c s
  | .delayTick c => Sys2Proof.Machine.execDelayTick c s
  | .waitTimeoutSweep c => Sys2Proof.Machine.execWaitTimeoutSweep c s
  | .mapWrite => Sys2Proof.Machine.execMapWrite s
  | .mapRead => Sys2Proof.Machine.execMapRead s
  | .homeTableUpdate c tid => Sys2Proof.Machine.execHomeTableUpdate c tid s
  | .keyLoad => Sys2Proof.Machine.execKeyLoad s
  | .keyErase => Sys2Proof.Machine.execKeyErase s
  | .scanSegmentAccept => Sys2Proof.Machine.execScanSegmentAccept s
  | .segmentWaitExpiry scan => Sys2Proof.Machine.execSegmentWaitExpiry scan s
  | .scanRdIssue tid => Sys2Proof.Machine.execScanRdIssue tid s
  | .screeRspEvaluate engine parity => Sys2Proof.Machine.execScreeRspEvaluate engine parity s
  | .rowFlushExpiry engine scan => Sys2Proof.Machine.execRowFlushExpiry engine scan s
  | .screeTestGo => Sys2Proof.Machine.execScreeTestGo s
  | .screeTestDone pass => Sys2Proof.Machine.execScreeTestDone pass s
  | .progLoad => Sys2Proof.Machine.execProgLoad s
  | .progUnload => Sys2Proof.Machine.execProgUnload s
  | .progTakesEffect => Sys2Proof.Machine.execProgTakesEffect s
  | .cellWriteStage port => Sys2Proof.Machine.execCellWriteStage port s
  | .spillReadback queue => Sys2Proof.Machine.execSpillReadback queue s
  | .retainMove => Sys2Proof.Machine.execRetainMove s
  | .outputTransmit lp => Sys2Proof.Machine.execOutputTransmit lp s
  | .calendarEntry => Sys2Proof.Machine.execCalendarEntry s
  | .hbmReadDone addr cls o => Sys2Proof.Machine.execHbmReadDone addr cls o s
  | .hbmRefresh pch bank => Sys2Proof.Machine.execHbmRefresh pch bank s
  | .refreshWindowStart stack => Sys2Proof.Machine.execRefreshWindowStart stack s
  | .nrsGo => Sys2Proof.Machine.execNrsGo s
  | .nrsSweepEnd => Sys2Proof.Machine.execNrsSweepEnd s
  | .selfRefreshEntry stack arriving => Sys2Proof.Machine.execSelfRefreshEntry stack arriving s
  | .selfRefreshExit stack => Sys2Proof.Machine.execSelfRefreshExit stack s
  | .hbmTestGo => Sys2Proof.Machine.execHbmTestGo s
  | .hbmTestDone rows => Sys2Proof.Machine.execHbmTestDone rows s
  | .rebuildDone => Sys2Proof.Machine.execRebuildDone s
  | .hbmTrainingDone stack ok => Sys2Proof.Machine.execHbmTrainingDone stack ok s
  | .ppsEdge err => Sys2Proof.Machine.execPpsEdge err s
  | .todSentence bytes => Sys2Proof.Machine.execTodSentence bytes s
  | .timeSourceLost => Sys2Proof.Machine.execTimeSourceLost s
  | .holdoverExpiry => Sys2Proof.Machine.execHoldoverExpiry s
  | .timeSourceWrite v => Sys2Proof.Machine.execTimeSourceWrite v s
  | .versionCommit => Sys2Proof.Machine.execVersionCommit s
  | .dictWrite => Sys2Proof.Machine.execDictWrite s
  | .taskSignal => Sys2Proof.Machine.execTaskSignal s
  | .markEvent => Sys2Proof.Machine.execMarkEvent s
  | .planApply => Sys2Proof.Machine.execPlanApply s
  | .sdpRead q => Sys2Proof.Machine.execSdpRead q s
  | .sdpWrite q => Sys2Proof.Machine.execSdpWrite q s
  | .segWrite q => Sys2Proof.Machine.execSegWrite q s
  | .segRead q => Sys2Proof.Machine.execSegRead q s
  | .segData q => Sys2Proof.Machine.execSegData q s
  | .segAck q => Sys2Proof.Machine.execSegAck q s
  | .abortXfer func q => Sys2Proof.Machine.execAbortXfer func q s
  | .sdpTimeout node => Sys2Proof.Machine.execSdpTimeout node s
  | .mgmtRead => Sys2Proof.Machine.execMgmtRead s
  | .mgmtWrite => Sys2Proof.Machine.execMgmtWrite s
  | .domainRead => Sys2Proof.Machine.execDomainRead s
  | .domainWrite => Sys2Proof.Machine.execDomainWrite s
  | .objectWrite idx sub data => Sys2Proof.Machine.execObjectWrite idx sub data s
  | .paramStore idx sub fails => Sys2Proof.Machine.execParamStore idx sub fails s
  | .storeClear => Sys2Proof.Machine.execStoreClear s
  | .powerMeasurement vinMv watts => Sys2Proof.Machine.execPowerMeasurement vinMv watts s
  | .currentLimitHeld => Sys2Proof.Machine.execCurrentLimitHeld s
  | .opCommand v => Sys2Proof.Machine.execOpCommand v s
  | .frequencyChangeDone => Sys2Proof.Machine.execFrequencyChangeDone s
  | .railTargetReached => Sys2Proof.Machine.execRailTargetReached s
  | .railHoldExpiry => Sys2Proof.Machine.execRailHoldExpiry s
  | .vinUndervoltage torn => Sys2Proof.Machine.execVinUndervoltage torn s
  | .vinValid => Sys2Proof.Machine.execVinValid s
  | .dozeEntry c => Sys2Proof.Machine.execDozeEntry c s
  | .dozeExit c => Sys2Proof.Machine.execDozeExit c s
  | .bivouacEntry => Sys2Proof.Machine.execBivouacEntry s
  | .wake => Sys2Proof.Machine.execWake s
  | .basecampEntry => Sys2Proof.Machine.execBasecampEntry s
  | .sidebandAddressMatch addr rd => Sys2Proof.Machine.execSidebandAddressMatch addr rd s
  | .serviceCmdOut => Sys2Proof.Machine.execServiceCmdOut s
  | .serviceCmdReturn => Sys2Proof.Machine.execServiceCmdReturn s
  | .recoveryReset => Sys2Proof.Machine.execRecoveryReset s
  | .basecampWdExpiry => Sys2Proof.Machine.execBasecampWdExpiry s
  | .basecampEccError => Sys2Proof.Machine.execBasecampEccError s
  | .thermalSample die hbm => Sys2Proof.Machine.execThermalSample die hbm s
  | .sxdumpSel upd => Sys2Proof.Machine.execSxdumpSel upd s
  | .sxdumpChain n => Sys2Proof.Machine.execSxdumpChain n s
  | .sxdumpMem upd => Sys2Proof.Machine.execSxdumpMem upd s
  | .compactGo auto => Sys2Proof.Machine.execCompactGo auto s
  | .leaseGrant q => Sys2Proof.Machine.execLeaseGrant q s
  | .leaseRevoke q => Sys2Proof.Machine.execLeaseRevoke q s
  | .leaseQuery q => Sys2Proof.Machine.execLeaseQuery q s
  | .leaseExpiry => Sys2Proof.Machine.execLeaseExpiry s
  | .writeFenceClear => Sys2Proof.Machine.execWriteFenceClear s
  | .cairnRecordWrite => Sys2Proof.Machine.execCairnRecordWrite s
  | .cairnScanDone => Sys2Proof.Machine.execCairnScanDone s
  | .recordRead => Sys2Proof.Machine.execRecordRead s
  | .windowRead => Sys2Proof.Machine.execWindowRead s
  | .snapTake => Sys2Proof.Machine.execSnapTake s
  | .snapDone => Sys2Proof.Machine.execSnapDone s
  | .compactionDone => Sys2Proof.Machine.execCompactionDone s
  | .compactionRetry => Sys2Proof.Machine.execCompactionRetry s
  | .freeze => Sys2Proof.Machine.execFreeze s
  | .reset => Sys2Proof.Machine.execReset s
  | .startT0 => Sys2Proof.Machine.execStartT0 s
  | .startupComplete => Sys2Proof.Machine.execStartupComplete s
  | .alertClear => Sys2Proof.Machine.execAlertClear s
  | .canBusOff => Sys2Proof.Machine.execCanBusOff s

end Sys2Proof.Machine
end

