-- ==== Sys2Proof/Machine/Tick.lean ====
section
/-! DEFINITION. What a step does when no command waits. -/

namespace Sys2Proof.Machine

/-- One tick of the fabric-time domain, 6.4 ns, passes (R342; DESIGN CHOICE, log entry 1). -/
def tick (s : State) : State := advance s 576

end Sys2Proof.Machine
end

