-- ==== Sys2Proof/Safety.lean ====
section
/-! DEFINITION. What the statements speak of: when a rope executes, what of the state an operation leaves alone, and the
invariants that every step keeps. -/

namespace Sys2Proof.Claim

open Sys2Proof.Machine

/-! ### When a rope executes -/

/-- Rope `r` is ready and holds the issue slot of its core, in a cluster that is powered and awake (R180, R387), and its
program counter is an address from which instructions are fetched (R133); nothing that the instruction uses fails its parity
(R171). -/
def Issues (s : State) (r : Issuer) : Prop :=
  issuing s r.toNat = true ∧ fetchOk (rope s r.toNat).pc = true ∧ r.parity = false

/-- As `Issues`, and the instruction does not stand in the body of a repeat (R163). -/
def IssuesFree (s : State) (r : Issuer) : Prop := Issues s r ∧ inBody (rope s r.toNat) = false

/-- Rope `r` has become `x` and the program goes on (R162); nothing else of the state has changed. -/
def after (s : State) (r : Issuer) (x : Rope) : State := setRope s r.toNat (nextPc x)

/-- Rope `r` has become `x` and stands at `pc`; nothing else of the state has changed. -/
def jumped (s : State) (r : Issuer) (x : Rope) (pc : BitVec 32) : State := setRope s r.toNat { x with pc := pc }

/-- A rope that also has a result for k register `kd` on the scoreboard, due at an instant (R198). -/
def posted (x : Rope) (kd : BitVec 4) (v : KWord) (due : Nat) : Rope :=
  { x with kPend := x.kPend ++ [{ kd := kd, value := v, due := due }] }

/-- As `Issues`, and Crampon is enabled for the rope (R208) and none of the k registers is pending (R199). -/
def CramponIssues (s : State) (r : Issuer) (ks : List (BitVec 4)) : Prop :=
  Issues s r ∧ cramponOn s r.toNat = true ∧ ∀ k ∈ ks, pendingK (rope s r.toNat) k = none

/-- The dictionary answers an access to an index on the CAN FD path (R362, R409). -/
def Served (s : State) (idx : Nat) : Prop := canUp s = true ∧ withheld s idx = none

/-- An object whose write only takes the value: none of the ports, the tenants, the command blocks and the objects that
other rules hang on. -/
def Plain (idx : Nat) : Prop :=
  (idx < 0x2000 ∨ 0x4000 ≤ idx) ∧ idx / 16 ≠ 0x401 ∧ idx / 16 ≠ 0x402 ∧ idx ∉ [0x0200, 0x4800, 0x4810, 0x4820, 0x5821, 0x6800, 0x8002]

/-- A number of the dictionary that may be written: its row is RW or RWS and no DOMAIN. -/
def Writable (r : Row) : Prop := (r.acc = .rw ∨ r.acc = .rws) ∧ ∀ m, r.ty ≠ .domain m

/-- A device of a pair must not write: it has lost its peer and holds no lease, or WriteFence is set (R402, R405). -/
def mustNotWrite (s : State) : Bool :=
  obj s 0x8002 1 == 1 && ((!isPeerPresent s && s.rcv.leaseUntil.isNone) || s.rcv.writeFence)

/-! ### Operands and flags of the ALU, as numbers -/

/-- Width of an operation in bits. -/
def width (w32 : Bool) : Nat := if w32 then 32 else 64

/-- An operand as an unsigned number of the width. -/
def uns (w32 : Bool) (v : Word) : Nat := v.toNat % 2 ^ width w32

/-- A number of the width read as two's complement. -/
def sgn (w32 : Bool) (n : Nat) : Int := if n < 2 ^ (width w32 - 1) then n else (n : Int) - 2 ^ width w32

/-- The exact result of a signed operation does not fit the width. -/
def overflows (w32 : Bool) (i : Int) : Bool :=
  !(decide (-(2 ^ (width w32 - 1) : Int) ≤ i) && decide (i < (2 ^ (width w32 - 1) : Int)))

/-- Flags of a result: N its top bit, Z whether it is 0, C and V as given. -/
def nzcv (w32 : Bool) (n : Nat) (c v : Bool) : Flags :=
  { n := decide (2 ^ (width w32 - 1) ≤ n), z := decide (n = 0), c := c, v := v }

/-- A rope that takes result `n` in w[d] and flags `f`, unless KF keeps its flags. -/
def takes (x : Rope) (kf : Bool) (d : BitVec 5) (n : Nat) (f : Flags) : Rope :=
  { setW x d (BitVec.ofNat 64 n) with flags := if kf then x.flags else f }

/-! ### Loads, stores and jumps by size or condition -/

/-- LB, LH, LW or LD, by the bytes it loads. -/
def loadOf (n : Nat) (r : Issuer) (d a : BitVec 5) (imm : BitVec 16) (parity : Bool) : Instr :=
  match n with
  | 1 => .lb r d a imm parity
  | 2 => .lh r d a imm parity
  | 4 => .lw r d a imm parity
  | _ => .ld r d a imm parity

/-- SB, SH, SW or SD, by the bytes it stores. -/
def storeOf (n : Nat) (r : Issuer) (d a : BitVec 5) (imm : BitVec 16) : Instr :=
  match n with
  | 1 => .sb r d a imm
  | 2 => .sh r d a imm
  | 4 => .sw r d a imm
  | _ => .sd r d a imm

/-- The jumps of R159 with their conditions over the flags. -/
def jumps (r : Issuer) (off : BitVec 22) (f : Flags) : List (Instr × Bool) :=
  [(.jmp r off, true), (.jz r off, f.z), (.jnz r off, !f.z), (.jc r off, f.c), (.jnc r off, !f.c), (.jn r off, f.n),
   (.jnn r off, !f.n), (.jv r off, f.v), (.jnv r off, !f.v), (.jlt r off, f.n != f.v), (.jge r off, f.n == f.v),
   (.jgt r off, !f.z && f.n == f.v), (.jle r off, f.z || f.n != f.v), (.jhi r off, f.c && !f.z), (.jls r off, !f.c || f.z)]

/-- Byte `a` of the scratchpad and of the instruction memory of cluster `c`, and of the HBM. -/
def scratchByte (s : State) (c a : Nat) : Byte := rd8 (cluster s c).scratch a
def imemByte (s : State) (c a : Nat) : Byte := rd8 (cluster s c).imem a
def hbmByte (s : State) (a : Nat) : Byte := (hbmRead s a 1).getD 0 0

/-- Memory byte after a store of `bs` at `a`, where `old` stood. -/
def stored (a : Nat) (bs : List Byte) (b : Nat) (old : Byte) : Byte :=
  if a ≤ b ∧ b < a + bs.length then bs.getD (b - a) 0 else old

/-! ### Unsupported use -/

/-- A disposition names a logical port that the mode in force does not have, for a frame that is not the management agent's
(R158, R370). -/
def NoPort (s : State) (x : Rope) (i : Nat) (d : Disp) : Prop :=
  ∃ lp, d = .port lp ∧ lpDefined s lp = false ∧ ¬(lp = 0x1FF ∧ lget (recordOf x i) 8 0 &&& 0xF = 9)

/-- A command is use that a rule calls unsupported: an endpoint INSERT whose LP does not exist (R106), and the frame instructions
of R158, where they issue in a pitch and fault on nothing that is tested before. FEMIT.R takes LOCALDISP for a frame of DKIND 2 of
which its rule decides nothing (R154). -/
def Unsupported (s : State) (c : Instr) (rule : Nat) : Prop :=
  (c = .insert ∧ rule = 106 ∧ on s = true ∧ ∃ n b, nextCmd s 1 = some (n, b) ∧ b.goTable = 0 ∧
    lpDefined s (b.arg.extractLsb' 0 9).toNat = false) ∨
  rule = 158 ∧ ∃ r : Issuer, Issues s r ∧
    let x := rope s r.toNat
    x.pitch ≠ none ∧
    ((∃ a b, c = .femit r a b ∧ (getW x a).toNat % 16 < x.heads.length ∧
        NoPort s x ((getW x a).toNat % 16) (dispOf (getW x b).toNat)) ∨
     (∃ a, c = .femitR r a ∧
        let i := ((getW x a).toNat - 0x2000040) / 64
        let b := recordOf (setClass x i) i
        0x2000040 ≤ (getW x a).toNat ∧ i < countNow x ∧ 2 ≤ (lget b 9 0).toNat ∧ (lget b 32 0).toNat ≠ 1 ∧ (lget b 32 0).toNat ≠ 2 ∧
        x.localDisp.getLsbD 31 = true ∧ NoPort s (setClass x i) i (dispOf x.localDisp.toNat)) ∨
     ∃ a b, c = .fnew r a b ∧
        (2 ≤ ((getW x b).extractLsb' 16 2).toNat ∨ 96 < (parseSxt (winRead x (0x1000 + 128 * ((getW x a).toNat % 16)) 128)).len.toNat))

/-! ### Outputs on their way out -/

/-- An output of a class of a port, of a tenant, joins its queue: no queue it could join spills or is at its threshold, WRED
is off, and the partner is not lost (R19, R288, R291, R294). -/
def Roomy (s : State) (lp cls tid : Nat) : Prop :=
  (∀ q ∈ s.tm.queues, q.lp = lp → q.cls = cls → q.tid = tid →
    q.spillMode = false ∧ queuedCells q * 64 < cellsAtStart s * 2 ^ ten s tid 0x70) ∧
  0 < cellsAtStart s ∧ obj s (0x5810 + cls) 1 = 0 ∧ (port s lp).partner ≠ 2

/-- An output with a property is on its way out: in an egress queue, spilled, kept for a later try, or kept until it is
acknowledged (R287, R288, R294). -/
def Waits (s : State) (f : Output → Prop) : Prop :=
  (∃ q ∈ s.tm.queues, ∃ o ∈ q.outs, f o) ∨ (∃ e ∈ s.trav.spilled, f e.out) ∨ (∃ x ∈ s.xport.parked, f x.out) ∨
  ∃ e ∈ s.xport.tx, ∃ x ∈ e.2.sent, f x.out

/-! ### What stays -/

/-- Ports, contexts, tables, queues, memories and the device's own registers stay: all but ropes, cores, clusters,
flights and counters. -/
def RestKept (s t : State) : Prop :=
  t.sys = s.sys ∧ t.time = s.time ∧ t.ports = s.ports ∧ t.xport = s.xport ∧ t.frames = s.frames ∧ t.col = s.col ∧
  t.tbl = s.tbl ∧ t.pit = s.pit ∧ t.xlat = s.xlat ∧ t.scree = s.scree ∧ t.trav = s.trav ∧ t.tm = s.tm ∧ t.hbm = s.hbm ∧
  t.plan = s.plan ∧ t.pwr = s.pwr ∧ t.rcv = s.rcv ∧ t.cairn = s.cairn ∧ t.dict = s.dict ∧ t.stored = s.stored

/-- Every rope but `r` stays. -/
def OtherRopesKept (s t : State) (r : Nat) : Prop := ∀ q, q ≠ r → rope t q = rope s q

/-- Neither pitch `k` nor a pitch that could go stands at the turn of lane `l` (R119), in a state that lists each pitch once. -/
def HeldBack (s : State) (l k : Nat) : Prop :=
  keysRise s.pit.pitches = true ∧ ∀ q, pitchAt s l (laneOf s l).release = some q → q.1 ≠ k ∧ q.2.late = false ∧ q.2.place ≠ .done

/-! ### Invariants -/

/-- The rule-set versions of R75 to R84: CURRENT is never 0; STAGING, where there is one, is the version after CURRENT;
DRAINING, where there is one, is the version before it; a commit waits only while both are there; and no version is STAGING
while a discard walk runs. -/
def VersionsOk (s : State) : Prop :=
  let v := s.col.ver
  v.current ≠ 0 ∧ (v.staging = 0 ∨ v.staging = verNext v.current) ∧ (v.draining = 0 ∨ verNext v.draining = v.current) ∧
  (v.waiting.isSome = true → v.staging ≠ 0 ∧ v.draining ≠ 0) ∧ (v.discarding ≠ 0 → v.staging = 0)

/-- The HBM, every cluster's memories and every rope's frame window are in canonical form. -/
def MemoriesOk (s : State) : Prop :=
  cellsWf s.hbm.mem = true ∧ (∀ c, cellsWf (cluster s c).scratch = true ∧ cellsWf (cluster s c).imem = true) ∧
  ∀ r, cellsWf (rope s r).window = true

/-- The variant of the device and the levels on its strap pins. -/
def identity (s : State) : Bool × BitVec 7 × BitVec 2 := (s.sys.skx9624, s.sys.nodePins, s.sys.sbPins)

end Sys2Proof.Claim
end

