-- ==== Sys2Proof/Certificates/Slice0/Obligations.lean ====
section
/-! DEFINITION. The statements for the provers. Each docstring names the rules of the spec that the statement speaks of, and
the log entries where it rests on a choice of the model. -/

open Sys2Proof Sys2Proof.Machine Sys2Proof.Claim

/-! ### Arithmetic and logic -/

/-- ADD, SUB, ADC, SBC and CMP (R128, R143, R144) over unsigned operands X and Y of the width: the result modulo
2^width; C is the carry out of the sum, or no borrow; V is set where the exact signed result does not fit. CMP writes
no register. Nothing else changes but the program counter. AND, OR, XOR, ANDN and TST (R144), bit by bit: N and Z
follow the result, V is cleared and C stays. TST writes no register. SHL, SHR, SAR and ROR (R144) by the low 6 bits of
the second operand, 5 in a 32-bit operation: C is the last bit out, and stays for a shift by 0 and for ROR; V stays.
MUL, MULHU, MINU and MAXU (R144) over unsigned operands of the width: N and Z follow the result, C and V stay. CLZ,
CTZ, POPC and BSWAP (R144): each completes with a result `n` that its bits determine, N and Z follow it, C and V stay.
A count of zeros ends at the first 1 from the top or from the bottom; POPC adds up the bits; byte i of BSWAP's result
is byte (last − i) of its operand. -/
def Obligations.AluOperationsSetResultAndFlags : Prop :=
  (∀ (s : State) (r : Issuer) (kf w32 : Bool) (d a b : BitVec 5), Issues s r →
    let x := rope s r.toNat
    let m : Nat := 2 ^ width w32
    let p := uns w32 (getW x a)
    let q := uns w32 (getW x b)
    let c := b2n x.flags.c
    let sp := sgn w32 p
    let sq := sgn w32 q
    let flags (n : Nat) (cy : Bool) (i : Int) : Flags := nzcv w32 n cy (overflows w32 i)
    exec (.add r kf w32 d a b) s =
      .next (after s r (takes x kf d ((p + q) % m) (flags ((p + q) % m) (decide (m ≤ p + q)) (sp + sq)))) ∧
    exec (.adc r kf w32 d a b) s =
      .next (after s r (takes x kf d ((p + q + c) % m) (flags ((p + q + c) % m) (decide (m ≤ p + q + c)) (sp + sq + c)))) ∧
    exec (.sub r kf w32 d a b) s =
      .next (after s r (takes x kf d ((p + m - q) % m) (flags ((p + m - q) % m) (decide (q ≤ p)) (sp - sq)))) ∧
    exec (.sbc r kf w32 d a b) s =
      .next (after s r (takes x kf d ((p + m - q + c - 1) % m)
        (flags ((p + m - q + c - 1) % m) (decide (q + 1 ≤ p + c)) (sp - sq + c - 1)))) ∧
    exec (.cmp r kf w32 a b) s =
      .next (after s r { x with flags := if kf then x.flags else flags ((p + m - q) % m) (decide (q ≤ p)) (sp - sq) })) ∧
  (∀ (s : State) (r : Issuer) (kf w32 : Bool) (d a b : BitVec 5), Issues s r →
    let x := rope s r.toNat
    let bitwise (f : Bool → Bool → Bool) : Word :=
      BitVec.ofFnLE (fun i : Fin 64 => decide (i.val < width w32) && f ((getW x a).getLsbD i) ((getW x b).getLsbD i))
    let result (f : Bool → Bool → Bool) : Rope :=
      takes x kf d (bitwise f).toNat (nzcv w32 (bitwise f).toNat x.flags.c false)
    exec (.andOp r kf w32 d a b) s = .next (after s r (result (fun u v => u && v))) ∧
    exec (.orOp r kf w32 d a b) s = .next (after s r (result (fun u v => u || v))) ∧
    exec (.xorOp r kf w32 d a b) s = .next (after s r (result (fun u v => u != v))) ∧
    exec (.andn r kf w32 d a b) s = .next (after s r (result (fun u v => u && !v))) ∧
    exec (.tst r kf w32 a b) s = .next (after s r { x with
      flags := if kf then x.flags
        else nzcv w32 (bitwise (fun u v => u && v)).toNat x.flags.c false })) ∧
  (∀ (s : State) (r : Issuer) (kf w32 : Bool) (d a b : BitVec 5), Issues s r →
    let x := rope s r.toNat
    let w := width w32
    let p := uns w32 (getW x a)
    let n := uns w32 (getW x b) % w
    let carry (i : Nat) : Bool := if n = 0 then x.flags.c else p.testBit i
    let result (v : Nat) (c : Bool) : Rope := takes x kf d v (nzcv w32 v c x.flags.v)
    exec (.shl r kf w32 d a b) s = .next (after s r (result (p * 2 ^ n % 2 ^ w) (carry (w - n)))) ∧
    exec (.shr r kf w32 d a b) s = .next (after s r (result (p / 2 ^ n) (carry (n - 1)))) ∧
    exec (.sar r kf w32 d a b) s =
      .next (after s r (result (sgn w32 p / (2 ^ n : Int) % (2 ^ w : Int)).toNat (carry (n - 1)))) ∧
    exec (.ror r kf w32 d a b) s =
      .next (after s r (result ((p / 2 ^ n + p * 2 ^ (w - n)) % 2 ^ w) x.flags.c))) ∧
  (∀ (s : State) (r : Issuer) (kf w32 : Bool) (d a b : BitVec 5), Issues s r →
    let x := rope s r.toNat
    let w := width w32
    let p := uns w32 (getW x a)
    let q := uns w32 (getW x b)
    let result (v : Nat) : Rope := takes x kf d v (nzcv w32 v x.flags.c x.flags.v)
    exec (.mul r kf w32 d a b) s = .next (after s r (result (p * q % 2 ^ w))) ∧
    exec (.mulhu r kf w32 d a b) s = .next (after s r (result (p * q / 2 ^ w))) ∧
    exec (.minu r kf w32 d a b) s = .next (after s r (result (min p q))) ∧
    exec (.maxu r kf w32 d a b) s = .next (after s r (result (max p q)))) ∧
  (∀ (s : State) (r : Issuer) (kf w32 : Bool) (d a : BitVec 5), Issues s r →
    let x := rope s r.toNat
    let w := width w32
    let p := uns w32 (getW x a)
    let result (v : Nat) : Rope := takes x kf d v (nzcv w32 v x.flags.c x.flags.v)
    (∃ n, exec (.clz r kf w32 d a) s = .next (after s r (result n)) ∧ n ≤ w ∧ p < 2 ^ (w - n) ∧
      (n < w → 2 ^ (w - n - 1) ≤ p)) ∧
    (∃ n, exec (.ctz r kf w32 d a) s = .next (after s r (result n)) ∧ n ≤ w ∧ p % 2 ^ n = 0 ∧
      (n < w → p / 2 ^ n % 2 = 1)) ∧
    exec (.popc r kf w32 d a) s = .next (after s r (result ((List.range w).map (fun i => p / 2 ^ i % 2)).sum)) ∧
    (∃ n, exec (.bswap r kf w32 d a) s = .next (after s r (result n)) ∧ n < 2 ^ w ∧
      ∀ i, i < w / 8 → n / 256 ^ i % 256 = p / 256 ^ (w / 8 - 1 - i) % 256))

/-- ADDI, CMPI, ANDI, ORI and XORI (R141, R145) over 64 bits: the immediate is sign-extended for ADDI and CMPI, and
zero-extended for the logic forms; their flags are those of ADD, CMP and the logic operations. SHI shifts by its own
count as the register forms do; BFX, BFI, IPL, IPS and IMG build their result bit by bit and leave the flags alone
(R145). w0 reads 0 and takes no write (R126): a result for w0 leaves every general register as it was, and the instruction
completes as any other. -/
def Obligations.ImmediateFormsAndRegisterZero : Prop :=
  (∀ (x : Rope) (v : Word),
    getW x 0 = 0 ∧ setW x 0 v = x ∧
    (∀ d : BitVec 5, d ≠ 0 → getW (setW x d v) d = v) ∧
    (∀ d e : BitVec 5, d ≠ e → getW (setW x d v) e = getW x e) ∧
    ∀ (s : State) (r : Issuer) (a b : BitVec 5), Issues s r →
      exec (.add r true false 0 a b) s = .next (after s r (rope s r.toNat))) ∧
  (∀ (s : State) (r : Issuer) (d a : BitVec 5) (imm : BitVec 16), Issues s r →
    let x := rope s r.toNat
    let m : Nat := 2 ^ 64
    let p := (getW x a).toNat
    let sp := (getW x a).toInt
    let q := (imm.toInt % (m : Int)).toNat
    let u := imm.toNat
    let logic (v : Nat) : Rope := takes x false d v (nzcv false v x.flags.c false)
    exec (.addi r d a imm) s = .next (after s r (takes x false d ((p + q) % m)
      (nzcv false ((p + q) % m) (decide (m ≤ p + q)) (overflows false (sp + imm.toInt))))) ∧
    exec (.cmpi r a imm) s = .next (after s r { x with
      flags := nzcv false ((p + m - q) % m) (decide (q ≤ p)) (overflows false (sp - imm.toInt)) }) ∧
    exec (.andi r d a imm) s = .next (after s r (logic (p &&& u))) ∧
    exec (.ori r d a imm) s = .next (after s r (logic (p ||| u))) ∧
    exec (.xori r d a imm) s = .next (after s r (logic (p ^^^ u)))) ∧
  (∀ (s : State) (r : Issuer) (d a : BitVec 5), Issues s r →
    let x := rope s r.toNat
    let p := (getW x a).toNat
    let written (f : Nat → Bool) : Rope := setW x d (BitVec.ofFnLE (fun i : Fin 64 => f i))
    (∀ n : BitVec 6,
      let k := n.toNat
      let carry (i : Nat) : Bool := if k = 0 then x.flags.c else p.testBit i
      let result (v : Nat) (c : Bool) : Rope := takes x false d v (nzcv false v c x.flags.v)
      exec (.shi r d a 0 n) s = .next (after s r (result (p * 2 ^ k % 2 ^ 64) (carry (64 - k)))) ∧
      exec (.shi r d a 1 n) s = .next (after s r (result (p / 2 ^ k) (carry (k - 1)))) ∧
      exec (.shi r d a 2 n) s =
        .next (after s r (result (sgn false p / (2 ^ k : Int) % (2 ^ 64 : Int)).toNat (carry (k - 1)))) ∧
      exec (.shi r d a 3 n) s = .next (after s r (result ((p / 2 ^ k + p * 2 ^ (64 - k)) % 2 ^ 64) x.flags.c))) ∧
    (∀ lsb width1 : BitVec 6,
      exec (.bfx r d a lsb width1) s = .next (after s r (written (fun i =>
        decide (i ≤ width1.toNat) && (getW x a).getLsbD (i + lsb.toNat)))) ∧
      exec (.bfi r d a lsb width1) s = .next (after s r (written (fun i =>
        if lsb.toNat ≤ i ∧ i ≤ lsb.toNat + width1.toNat then (getW x a).getLsbD (i - lsb.toNat)
        else (getW x d).getLsbD i)))) ∧
    (∀ (q : BitVec 2) (imm : BitVec 16),
      let lo := 16 * q.toNat
      exec (.ipl r d q imm) s = .next (after s r (written (fun i => decide (lo ≤ i) && imm.getLsbD (i - lo)))) ∧
      exec (.ips r d q imm) s = .next (after s r (written (fun i =>
        if i < lo then false else if i < lo + 16 then imm.getLsbD (i - lo) else imm.msb))) ∧
      exec (.img r d q imm) s = .next (after s r (written (fun i =>
        if lo ≤ i ∧ i < lo + 16 then imm.getLsbD (i - lo) else (getW x d).getLsbD i)))))

/-! ### Memory -/

/-- The address map of R132 with its levels, and the alignment of R137: an access is granted where all its bytes lie
in one region, the rope's level reaches that of the region, and, but in the frame window, the address is a multiple of
the size. The level is tested before the alignment (DEDUCED, log entry 21). -/
def Obligations.AccessIsGrantedInsideOneRegion : Prop :=
  ∀ (s : State) (x : Rope) (a n : Nat) (wr : Bool), 0 < n →
    (a + n ≤ 0x400000 → access s x a n n wr = if a % n = 0 then .ok .scratch else .error 4) ∧
    (0x1000000 ≤ a → a + n ≤ 0x1100000 → access s x a n n wr =
      if x.pl.toNat < (if wr then 2 else 1) then .error 2 else if a % n = 0 then .ok .imem else .error 4) ∧
    (0x2000000 ≤ a → a + n ≤ 0x2002000 → access s x a n n wr = .ok .window) ∧
    (0x3000000 ≤ a → a + n ≤ 0x3010000 → access s x a n n wr =
      if x.pl.toNat < (if a < 0x3008000 then 1 else 2) then .error 2 else if a % n = 0 then .ok .ctl else .error 4) ∧
    (0x1000000000000000 ≤ a → a + n ≤ 0x1000000000000000 + hbmSize s.sys → access s x a n n wr =
      if a % n = 0 then .ok .hbm else .error 4) ∧
    (0x400000 ≤ a → a < 0x1000000 → access s x a n n wr = .error 3)

/-- LB, LH, LW and LD (R139, R146) at ea = w[a] + sext(imm): from the frame window, the instruction memory and the
scratchpad the bytes are in w[d], zero-extended, at once; an uncorrectable error in what the load reads of the core is CORE_PARITY
(R171); from cluster control and the HBM window the rope waits; an access that is not granted faults. An instruction whose words or
registers fail their parity raises CORE_PARITY and has no effect (R171). -/
def Obligations.LoadsReadTheirBytesOrWait : Prop :=
  ∀ (s : State) (r : Issuer) (d a : BitVec 5) (imm : BitVec 16) (parity : Bool) (n : Nat),
    n = 1 ∨ n = 2 ∨ n = 4 ∨ n = 8 → Issues s r →
    let x := rope s r.toNat
    let ea := getW x a + imm.signExtend 64
    let i := loadOf n r d a imm parity
    (∀ g, access s x ea.toNat n n false = .ok g →
      (parity = false → g = .window ∨ g = .imem ∨ g = .scratch →
        exec i s = .next (after s r (setW x d (BitVec.ofNat 64 (ofLE (memRead s r.toNat g ea.toNat n)))))) ∧
      (parity = true → exec i s = .next (faultRope s r.toNat 0x0A ea)) ∧
      (parity = false → g = .ctl ∨ g = .hbm → exec i s = .next (stall s r.toNat (.load d ea n)))) ∧
    (∀ c, access s x ea.toNat n n false = .error c → exec i s = .next (faultRope s r.toNat c ea)) ∧
    exec (loadOf n ⟨r.rope, true⟩ d a imm parity) s = .next (faultRope s r.toNat 0x0A 0)

/-- LOAD_RETURN (R139): the waiting load's bytes are in w[d], the instruction completes and the rope is ready; of
everything else only the issue slot of the rope's core may change. A read of HBM lines for a string instruction, and
KSAVE and KLOAD at the banks, end with the rope ready, and a KMV.LD of cluster control puts its 64 B into k (R148). A load waits on while its lock or task write is unprocessed
(R186, R214) or its row is throttled (R327), and one that reads a MEDIA line faults (R331). -/
def Obligations.LoadReturnWritesTheRegisterAndReadies : Prop :=
  ∀ (s : State) (r : RopeId), let n := r.toNat
    on s = true →
    (∀ d ea k g, (rope s n).st = .waiting (.load d ea k) → access s (rope s n) ea.toNat k k false = .ok g →
      (((g = .ctl ∧ ownWriteWaits s n ea.toNat k = true) ∨ memThrottled s g ea.toNat = true) →
        exec (.loadReturn r) s = .next s) ∧
      ((g = .ctl → ownWriteWaits s n ea.toNat k = false) → memThrottled s g ea.toNat = false →
        memMedia s g ea.toNat k = true → exec (.loadReturn r) s = .next (faultRope s n 9 ea)) ∧
      ((g = .ctl → ownWriteWaits s n ea.toNat k = false) → memThrottled s g ea.toNat = false →
        memMedia s g ea.toNat k = false → ∃ t, exec (.loadReturn r) s = .next t ∧
        rope t n = { nextPc (setW (rope s n) d (BitVec.ofNat 64 (ofLE (memRead s n g ea.toNat k)))) with st := .ready } ∧
        OtherRopesKept s t n ∧ RestKept s t ∧ t.clusters = s.clusters ∧
        (∀ k, k ≠ ropeCore n → Machine.core t k = Machine.core s k))) ∧
    (∀ l, (rope s n).st = .waiting (.lines l) → (∀ i ∈ l, i ∉ s.hbm.media ∧ throttled s .core (64 * i) = false) →
      ∃ t, exec (.loadReturn r) s = .next t ∧ rope t n = { rope s n with lines := l, st := .ready } ∧
        OtherRopesKept s t n ∧ RestKept s t ∧ t.clusters = s.clusters) ∧
    (∀ kd ea, (rope s n).st = .waiting (.kload kd ea) →
      (ownWriteWaits s n ea.toNat 64 = true → exec (.loadReturn r) s = .next s) ∧
      (ownWriteWaits s n ea.toNat 64 = false → ∃ t, exec (.loadReturn r) s = .next t ∧
        rope t n = { nextPc (setK (rope s n) kd (BitVec.ofNat 512 (ofLE (memRead s n .ctl ea.toNat 64)))) with st := .ready } ∧
        OtherRopesKept s t n ∧ RestKept s t ∧ t.clusters = s.clusters)) ∧
    ((rope s n).st = .waiting .kstate →
      ∃ t, exec (.loadReturn r) s = .next t ∧ rope t n = { rope s n with st := .ready } ∧
        OtherRopesKept s t n ∧ RestKept s t ∧ t.clusters = s.clusters)

/-- SB, SH, SW and SD (R146) of the low bytes of w[d] at ea = w[a] + sext(imm), least significant first. In the
scratchpad, the instruction memory and the HBM exactly the addressed bytes change; in the frame window and the
cluster-control window the store acts as those windows say. A store that ends or suspends the rope's task makes it
wait; one that is not granted faults. That a store is performed at once is the model's choice (log entry 9), and so is
what a store narrower than a register of the cluster-control window does (log entry 29). -/
def Obligations.StoresWriteTheirBytesAndNoOthers : Prop :=
  ∀ (s : State) (r : Issuer) (d a : BitVec 5) (imm : BitVec 16) (n : Nat),
    n = 1 ∨ n = 2 ∨ n = 4 ∨ n = 8 → Issues s r →
    let x := rope s r.toNat
    let c := ropeCluster r.toNat
    let ea := getW x a + imm.signExtend 64
    let bs := toLE n (getW x d).toNat
    let i := storeOf n r d a imm
    (access s x ea.toNat n n true = .ok .scratch → ∃ t, exec i s = .next t ∧ rope t r.toNat = nextPc x ∧
      OtherRopesKept s t r.toNat ∧ RestKept s t ∧ (∀ e, e ≠ c → cluster t e = cluster s e) ∧
      cluster t c = { cluster s c with scratch := (cluster t c).scratch, portA := (cluster t c).portA } ∧
      ∀ b, scratchByte t c b = stored ea.toNat bs b (scratchByte s c b)) ∧
    (access s x ea.toNat n n true = .ok .imem → ∃ t, exec i s = .next t ∧ rope t r.toNat = nextPc x ∧
      OtherRopesKept s t r.toNat ∧ RestKept s t ∧ (∀ e, e ≠ c → cluster t e = cluster s e) ∧
      cluster t c = { cluster s c with imem := (cluster t c).imem } ∧
      ∀ b, imemByte t c b = stored (ea.toNat - 0x1000000) bs b (imemByte s c b)) ∧
    (access s x ea.toNat n n true = .ok .hbm → ∃ t, exec i s = .next t ∧ rope t r.toNat = nextPc x ∧
      OtherRopesKept s t r.toNat ∧ RestKept { s with hbm := t.hbm } t ∧ t.clusters = s.clusters ∧
      ∀ b, hbmByte t b = stored (ea.toNat - 0x1000000000000000) bs b (hbmByte s b)) ∧
    (access s x ea.toNat n n true = .ok .window →
      exec i s = .next (after s r (winWrite x (ea.toNat - 0x2000000) bs))) ∧
    (access s x ea.toNat n n true = .ok .ctl →
      let t := ctlStore s r.toNat (ea.toNat - 0x3000000) bs
      exec i s = .next (if suspends ea.toNat bs then stall (modRope t r.toNat nextPc) r.toNat .task
        else modRope t r.toNat nextPc)) ∧
    (∀ k, access s x ea.toNat n n true = .error k → exec i s = .next (faultRope s r.toNat k ea))

/-- ADDM and SWPM (R147): the word at w[a] of the scratchpad, 4 or 8 bytes, is replaced by its sum with w[b], modulo
its width, or by w[b], and its old value is in w[d]. No flag and no other byte changes. Outside the scratchpad the
address fault is raised, for a misaligned word the alignment fault, and for an uncorrectable error in what is read
CORE_PARITY (R171). -/
def Obligations.BankAtomicsReplaceOneWord : Prop :=
  ∀ (s : State) (r : Issuer) (w32 : Bool) (d a b : BitVec 5), Issues s r →
    let x := rope s r.toNat
    let c := ropeCluster r.toNat
    let ea := (getW x a).toNat
    let n := width w32 / 8
    let old := ofLE (memRead s r.toNat .scratch ea n)
    let does (i : Bool → Instr) (v : Nat) : Prop :=
      (ea < 0x400000 → ea % n = 0 → ∃ t, exec (i false) s = .next t ∧ rope t r.toNat = nextPc (setW x d (BitVec.ofNat 64 old)) ∧
        OtherRopesKept s t r.toNat ∧ RestKept s t ∧ (∀ e, e ≠ c → cluster t e = cluster s e) ∧
        cluster t c = { cluster s c with scratch := (cluster t c).scratch, portA := (cluster t c).portA } ∧
        ∀ k, scratchByte t c k = stored ea (toLE n v) k (scratchByte s c k)) ∧
      (ea < 0x400000 → ea % n = 0 → exec (i true) s = .next (faultRope s r.toNat 0x0A (getW x a))) ∧
      (∀ q, 0x400000 ≤ ea → exec (i q) s = .next (faultRope s r.toNat 3 (getW x a))) ∧
      (∀ q, ea < 0x400000 → ea % n ≠ 0 → exec (i q) s = .next (faultRope s r.toNat 4 (getW x a)))
    does (fun e => .addm r w32 d ⟨a, e⟩ b) ((old + (getW x b).toNat) % 2 ^ width w32) ∧
    does (fun e => .swpm r w32 d ⟨a, e⟩ b) ((getW x b).toNat)

/-! ### Control flow -/

/-- JMP and the conditional jumps (R141, R159, R163): a jump whose condition over the flags holds goes to PC + 4 ×
sext(off22), any other goes on at PC + 4; no flag and nothing else changes. In the body of a repeat each raises the
illegal-instruction fault. CALL, RET and JR (R160, R161, R163). A CALL on a full stack faults under TRAP and else
loses the oldest entry; a RET on an empty stack faults. In the body of a repeat each raises the illegal-instruction
fault. -/
def Obligations.JumpsCallsAndReturns : Prop :=
  (∀ (s : State) (r : Issuer) (off : BitVec 22), Issues s r →
    let x := rope s r.toNat
    ∀ e ∈ jumps r off x.flags,
      (inBody x = false → exec e.1 s = .next (jumped s r x (x.pc + (if e.2 then 4 * off.signExtend 32 else 4)))) ∧
      (inBody x = true → exec e.1 s = .next (faultRope s r.toNat 1 0))) ∧
  (∀ (s : State) (r : Issuer) (off : BitVec 26) (a : BitVec 5), Issues s r →
    let x := rope s r.toNat
    (inBody x = false →
      (x.rstack.length < 16 ∨ x.trap = false →
        exec (.call r off) s =
          .next (jumped s r { x with rstack := ((x.pc + 4) :: x.rstack).take 16 } (x.pc + 4 * off.signExtend 32))) ∧
      (16 ≤ x.rstack.length → x.trap = true → exec (.call r off) s = .next (faultRope s r.toNat 5 0)) ∧
      (∀ top rest, x.rstack = top :: rest → exec (.ret r) s = .next (jumped s r { x with rstack := rest } top)) ∧
      (x.rstack = [] → exec (.ret r) s = .next (faultRope s r.toNat 5 0)) ∧
      exec (.jr r a) s = .next (jumped s r x ((getW x a).setWidth 32))) ∧
    (inBody x = true → exec (.call r off) s = .next (faultRope s r.toNat 1 0) ∧
      exec (.ret r) s = .next (faultRope s r.toNat 1 0) ∧ exec (.jr r a) s = .next (faultRope s r.toNat 1 0)))

/-- REPB (R162): with a count of 0 the body is skipped, else w29 takes ACT, BLEN and START and keeps the rest. The
last instruction of the body counts a pass down and goes back to the first, or ends the repeat; any other is followed
by the next. -/
def Obligations.BlockRepeatRunsItsBodyCountTimes : Prop :=
  (∀ (s : State) (r : Issuer) (n1 : BitVec 3), IssuesFree s r →
    let x := rope s r.toNat
    let old := getW x 29
    (old.setWidth 32 = 0#32 → exec (.repb r n1) s = .next (jumped s r x (x.pc + 4 + 4 * (n1.setWidth 32 + 1)))) ∧
    (old.setWidth 32 ≠ 0#32 → ∃ v, exec (.repb r n1) s = .next (jumped s r (setW x 29 v) (x.pc + 4)) ∧
      v.extractLsb' 63 1 = 1#1 ∧ v.extractLsb' 60 3 = n1 ∧ v.extractLsb' 56 4 = old.extractLsb' 56 4 ∧
      v.extractLsb' 32 24 = (x.pc + 4).extractLsb' 2 24 ∧ v.extractLsb' 0 32 = old.extractLsb' 0 32)) ∧
  ∀ x : Rope,
    let v := getW x 29
    let start : BitVec 32 := 4 * (v.extractLsb' 32 24).setWidth 32
    let last : BitVec 32 := start + 4 * (v.extractLsb' 60 3).setWidth 32
    let count := v.extractLsb' 0 32
    (v.getLsbD 63 = true ∧ x.pc = last →
      (count = 1 → (nextPc x).pc = x.pc + 4 ∧ (getW (nextPc x) 29).getLsbD 63 = false) ∧
      (count ≠ 1 → (nextPc x).pc = start ∧ (getW (nextPc x) 29).getLsbD 63 = true) ∧
      (getW (nextPc x) 29).extractLsb' 0 32 = count - 1) ∧
    (¬(v.getLsbD 63 = true ∧ x.pc = last) → nextPc x = { x with pc := x.pc + 4 })

/-- NOP completes with no effect. FENCE (R140) waits for the rope's KMV.LD, class L where that takes 8 dp-cycles or more, and
completes with no other effect: stores are performed as they issue (log entry 9), and data that come later than predicted are
waited for in place (log entry 110). A word that is no instruction (R142) raises the
illegal-instruction fault. -/
def Obligations.NopFenceAndIllegalWords : Prop :=
  ∀ (s : State) (r : Issuer) (w : BitVec 32), Issues s r →
    exec (.nop r) s = .next (after s r (rope s r.toNat)) ∧
    ((∀ p ∈ (rope s r.toNat).kPend, p.src = none) → exec (.fence r) s = .next (after s r (rope s r.toNat))) ∧
    (∀ p, (rope s r.toNat).kPend = [p] → p.src ≠ none →
      (s.time.now + 8 * dpU s ≤ p.due → exec (.fence r) s = .next (stall s r.toNat (.kreg p.kd))) ∧
      (kHeld s p = true → p.due < s.time.now + 8 * dpU s → exec (.fence r) s = .next s) ∧
      (kHeld s p = false → p.due < s.time.now + 8 * dpU s → ∃ t, exec (.fence r) s = .next t ∧
        t.time.now = max s.time.now p.due ∧ (rope t r.toNat).kPend = [] ∧ (rope t r.toNat).pc = (nextPc (rope s r.toNat)).pc)) ∧
    (illegalWord w = true → exec (.illegalInstruction r w) s = .next (faultRope s r.toNat 1 0))

/-- What a fault does to a rope that is not the lead rope (R170, R172 to R176): it parks on the faulting instruction with its
registers, and its record holds PC, code and address; the lead rope, unless it waits for an event, has FAULT pending; of the
other ropes nothing changes. The slot of its task is PARKED. Its pitch, on the first fault, starts afresh as a retry on another
core, its outputs dropped, and the first fault is kept with it; where it faults again, or where no other core of the device is
open, the pitch has failed for good: it completes with no outputs, and by its first fault the core is fenced, or nothing is
counted, or a lasting fault is. A first fault for want of time ends the pitch, and is counted. -/
def Obligations.FaultParksTheRopeWithItsRecord : Prop :=
  ∀ (s : State) (r code : Nat) (addr : BitVec 64),
    let x := rope s r
    let c := ropeCluster r
    let t := faultRope s r code addr
    let rec0 : FaultRec := { pc := x.pc, code := code, valid := true, addr := addr }
    let told : Prop := ∀ q, leadOf s c = some q → (∀ d m u, (rope s q).st ≠ .waiting (.event d m u)) →
      rope t q = { rope s q with pending := (rope s q).pending ||| 1#64 <<< 63 }
    let others : Prop := (∀ q, q ≠ r → leadOf s c ≠ some q → rope t q = rope s q) ∧ t.time = s.time ∧ t.hbm = s.hbm
    x.kPend = [] → isLead s r = false →
    (x.pitch = none → x.task = none → rope t r = { x with st := .parked, parkedAt := s.time.now, frec := rec0 } ∧ told ∧ others ∧
      t.clusters = s.clusters ∧ t.pit = s.pit ∧ t.frames = s.frames) ∧
    (∀ n, x.pitch = none → x.task = some n → rope t r = { x with st := .parked, parkedAt := s.time.now, frec := rec0 } ∧ told ∧
      others ∧ slot t c n = { slot s c n with state := .parked } ∧ t.pit = s.pit ∧ t.frames = s.frames) ∧
    ∀ k p, x.pitch = some k → x.task = none → pitch s k = some p →
      let f : FaultRec := { rec0 with inPitch := true, retry := p.retry, lane := p.lane }
      let left : Prop := rope t r = { x with st := .parked, parkedAt := s.time.now, frec := f, pitch := none } ∧ told ∧
        (Machine.core t (ropeCore r)).inFlight = (Machine.core s (ropeCore r)).inFlight - 1
      let ended : Prop := pitch t k = some { p with place := .done, rope := none, frames := [], emits := [] } ∧
        ∀ g ∈ p.frames, mfind t.frames g = none
      let first := p.firstFault.getD (r, f)
      let fc := ropeCluster first.1
      (∀ d, p.retry = false → code ≠ 9 → moveTarget s c (ropeCore r) = some d → left ∧ others ∧ t.frames = s.frames ∧
        t.clusters = s.clusters ∧ (shed t d).moved = (shed s d).moved ++ [k] ∧
        pitch t k = some { p with retry := true, firstFault := some (r, f), emits := [], disposed := [], place := .queued
                                  rope := none, cluster := d }) ∧
      (p.late = false → HeldBack s p.lane.toNat k → (∀ q, (rope s q).st ≠ .waiting .hold) → (∀ e ∈ s.pit.shed, e.2.moved = []) →
        (p.retry = false → code = 9 → left ∧ ended ∧ obj t (0x4020 + c) 6 = (obj s (0x4020 + c) 6 + 1) % 2 ^ 64) ∧
        (p.retry = true ∨ (code ≠ 9 ∧ moveTarget s c (ropeCore r) = none) →
          (first.2.code ≠ 0x0A → left ∧ ended ∧ obj t (0x4020 + fc) 5 =
            (if first.2.code = 0x0B then obj s (0x4020 + fc) 5 else (obj s (0x4020 + fc) 5 + 1) % 2 ^ 64)) ∧
          (first.2.code = 0x0A → fenced t (ropeCore first.1) = true ∧
            obj t (0x4020 + fc) 4 = (obj s (0x4020 + fc) 4 + 1) % 2 ^ 64)))

/-! ### Strings, events and time -/

/-- The string instructions (R164, R165) with w28 = 0 move nothing: SCOPY and SFILL change no flag, SCMP sets Z and C
and clears N and V, SSCAN clears Z. One step ends a string instruction over scratchpad bytes that reach no 32 B
boundary before the count (R164, R165): SCOPY and SFILL leave exactly the destination bytes changed, and the pointers
at the end; SCMP and SSCAN stop at the first difference or match with pointers and count on it, or go to the end. An
uncorrectable error in what a step reads is CORE_PARITY (R171). The number of steps is an operand of the model (log entries 4 and 82). -/
def Obligations.StringsStepThroughMemory : Prop :=
  (∀ (s : State) (r : Issuer) (b : BitVec 5) (steps : Nat) (e : Bool), Issues s r → getW (rope s r.toNat) 28 = 0 →
    let x := { rope s r.toNat with lines := [] }
    exec (.scopy r ⟨steps, e⟩) s = .next (after s r x) ∧
    exec (.sfill r b steps) s = .next (after s r x) ∧
    exec (.scmp r ⟨steps, e⟩) s = .next (after s r { x with flags := { n := false, z := true, c := true, v := false } }) ∧
    exec (.sscan r b ⟨steps, e⟩) s = .next (after s r { x with flags := { x.flags with z := false } })) ∧
  (∀ (s : State) (r : Issuer) (b : BitVec 5) (n p q : Nat), Issues s r → b ≠ 26 → b ≠ 27 → b ≠ 28 →
    let x := rope s r.toNat
    let c := ropeCluster r.toNat
    0 < n → getW x 28 = BitVec.ofNat 64 n → getW x 26 = BitVec.ofNat 64 p → getW x 27 = BitVec.ofNat 64 q →
    n ≤ 32 - p % 32 → n ≤ 32 - q % 32 → p + n ≤ 0x400000 → q + n ≤ 0x400000 →
    let src := rdN (cluster s c).scratch p n
    let dst := rdN (cluster s c).scratch q n
    let moved (ps : List (BitVec 5)) (k : Nat) : Rope :=
      setW (ps.foldl (fun y w => setW y w (getW y w + BitVec.ofNat 64 k)) { x with lines := [] }) 28
        (BitVec.ofNat 64 (n - k))
    (∀ steps, p + n ≤ q ∨ q + n ≤ p → ∃ t, exec (.scopy r ⟨steps + 1, false⟩) s = .next t ∧
      rope t r.toNat = nextPc (moved [26, 27] n) ∧ OtherRopesKept s t r.toNat ∧ RestKept s t ∧
      ∀ a, scratchByte t c a = stored q src a (scratchByte s c a)) ∧
    (∀ steps, ∃ t, exec (.sfill r b (steps + 1)) s = .next t ∧
      rope t r.toNat = nextPc (moved [27] n) ∧ OtherRopesKept s t r.toNat ∧ RestKept s t ∧
      ∀ a, scratchByte t c a = if q ≤ a ∧ a < q + n then (toLE 8 (getW x b).toNat).getD (a % 8) 0 else scratchByte s c a) ∧
    (∀ steps i u v, firstDiff src dst 0 = some (i, u, v) → exec (.scmp r ⟨steps + 1, false⟩) s = .next (after s r
      { moved [26, 27] i with flags := nzcv false ((u.toNat + 2 ^ 64 - v.toNat) % 2 ^ 64) (decide (v ≤ u)) false })) ∧
    (∀ steps, src = dst → exec (.scmp r ⟨steps + 1, false⟩) s = .next (after s r
      { moved [26, 27] n with flags := { n := false, z := true, c := true, v := false } })) ∧
    (∀ steps i, src.findIdx? (fun w => w == (getW x b).setWidth 8) = some i → exec (.sscan r b ⟨steps + 1, false⟩) s =
      .next (after s r { moved [26] i with flags := { x.flags with z := true } })) ∧
    (∀ steps, (∀ w ∈ src, w ≠ (getW x b).setWidth 8) → exec (.sscan r b ⟨steps + 1, false⟩) s =
      .next (after s r { moved [26] n with flags := { x.flags with z := false } })) ∧
    (∀ steps, let t := faultRope s r.toNat 0x0A (getW x 26)
      exec (.scopy r ⟨steps, true⟩) s = .next t ∧ exec (.scmp r ⟨steps, true⟩) s = .next t ∧
      exec (.sscan r b ⟨steps, true⟩) s = .next t))

/-- EVW and EVS (R168). Events that have reached the rope by now, or reach it in this dp-cycle, are pending. EVW takes the masked events that are
pending and clears them, with Z 0, or waits with its deadline; EVS sends bits [31:0] of w[b], 4 dp-cycles to a rope of
the cluster and 24 to another, which PL0 may not and which must exist. EVENT_DELIVERY and EVW_TIMEOUT (R167, R168):
the first event in flight joins its rope's pending word, and an EVW that waits for one of its bits ends with the
masked bits, which are cleared, and Z 0; the timeout ends an EVW with Z 1. TWAIT and TWAIT_WAKE (R169): where FT has
reached w[a] the wait ends with FT in w[d] and Z 0; else the rope waits, and an elapsed timeout ends the wait with Z
1. The timeout falls on a 10 ns count at or after w[b] ns. That a timeout moves time to its deadline, and the order of
the checks of EVS, are the model's readings (log entries 2 and 21). -/
def Obligations.EventsAndTimeEndWaits : Prop :=
  (∀ (s : State) (r : Issuer) (d a b : BitVec 5), Issues s r →
    let n := r.toNat
    let e := landDue s n
    let x := rope e n
    let m := getW x a
    let q := (getW (rope s n) a).toNat % 2048
    (∀ i, x.pending.getLsbD i = ((rope s n).pending.getLsbD i ||
      s.flights.any (fun f => f.rope == n && (decide (f.due ≤ s.time.now) || sameCycle s f.due) && f.bits.getLsbD i))) ∧
    (x.pending &&& m ≠ 0 → exec (.evw r d a b) s = .next (after e r
      { setW x d (x.pending &&& m) with pending := x.pending &&& ~~~m, flags := { x.flags with z := false } })) ∧
    (x.pending &&& m = 0 → exec (.evw r d a b) s = .next (stall e n (.event d m
      (if getW x b = 0 then none else some (s.time.now + 90 * (getW x b).toNat))))) ∧
    (ropeCluster q < clusters s → (ropeCluster q = ropeCluster n ∨ (rope s n).pl ≠ 0) →
      exec (.evs r a b) s = .next (after { s with flights := s.flights ++ [{
        rope := q, bits := getW (rope s n) b &&& 0xFFFFFFFF#64
        due := s.time.now + (if ropeCluster q = ropeCluster n then 4 else 24) * dpU s }] } r (rope s n))) ∧
    (clusters s ≤ ropeCluster q → exec (.evs r a b) s = .next (faultRope s n 3 0)) ∧
    (ropeCluster q < clusters s → ropeCluster q ≠ ropeCluster n → (rope s n).pl = 0 →
      exec (.evs r a b) s = .next (faultRope s n 2 0))) ∧
  ((∀ (s : State) (f : Flight), on s = true → firstFlight s.flights = some f →
    let x := rope s f.rope
    let w := x.pending ||| f.bits
    ∃ t, exec .eventDelivery s = .next t ∧ t.flights = s.flights.erase f ∧ t.time.now = max s.time.now f.due ∧
      OtherRopesKept s t f.rope ∧ t.hbm = s.hbm ∧ t.clusters = s.clusters ∧
      ((∀ d m u, x.st ≠ .waiting (.event d m u)) → rope t f.rope = { x with pending := w }) ∧
      (∀ d m u, x.st = .waiting (.event d m u) → w &&& m = 0 → rope t f.rope = { x with pending := w }) ∧
      (∀ d m u, x.st = .waiting (.event d m u) → w &&& m ≠ 0 → rope t f.rope = { nextPc
        { setW x d (w &&& m) with pending := w &&& ~~~m, flags := { x.flags with z := false } } with st := .ready })) ∧
  ∀ (s : State) (r : RopeId) (d : BitVec 5) (m : BitVec 64) (u : Nat),
    let x := rope s r.toNat
    on s = true → x.st = .waiting (.event d m (some u)) →
    ∃ t, exec (.evwTimeout r) s = .next t ∧ t.time.now = max s.time.now u ∧ OtherRopesKept s t r.toNat ∧
      t.hbm = s.hbm ∧ t.clusters = s.clusters ∧
      rope t r.toNat = { nextPc { setW x d (x.pending &&& m) with
        pending := x.pending &&& ~~~m, flags := { x.flags with z := true } } with st := .ready }) ∧
  (∀ (s : State) (r : Issuer) (d a b : BitVec 5),
    let x := rope s r.toNat
    (Issues s r → (getW x a).toNat ≤ ft s → exec (.twait r d a b) s = .next (after s r
      { setW x d (BitVec.ofNat 64 (ft s)) with flags := { x.flags with z := false } })) ∧
    (Issues s r → ft s < (getW x a).toNat → ∃ due, exec (.twait r d a b) s = .next (stall s r.toNat (.time d (getW x a) due)) ∧
      (getW x b = 0 → due = none) ∧
      (getW x b ≠ 0 → ∃ u, due = some u ∧ s.time.now + 90 * (getW x b).toNat ≤ u ∧
        u < s.time.now + 90 * (getW x b).toNat + 900 ∧ u % 900 = 0)) ∧
    (∀ w due, on s = true → x.st = .waiting (.time d w due) → w.toNat ≤ ft s → ∃ t, exec (.twaitWake r.rope) s = .next t ∧
      OtherRopesKept s t r.toNat ∧ RestKept s t ∧ t.clusters = s.clusters ∧ rope t r.toNat = { nextPc
        { setW x d (BitVec.ofNat 64 (ft s)) with flags := { x.flags with z := false } } with st := .ready }) ∧
    (∀ w u, on s = true → x.st = .waiting (.time d w (some u)) → ft s < w.toNat → u ≤ s.time.now → ∃ t,
      exec (.twaitWake r.rope) s = .next t ∧ OtherRopesKept s t r.toNat ∧ t.hbm = s.hbm ∧ t.clusters = s.clusters ∧
      rope t r.toNat = { nextPc
        { setW x d (BitVec.ofNat 64 (ft s)) with flags := { x.flags with z := true } } with st := .ready }))

/-! ### Crampon, the system registers and the frame instructions -/

/-- The KMV moves (R148, R197, R199). A result for a k register joins the scoreboard with the instant at which it is
written: KMV.WK replaces one lane and KMV.KK copies, each in 1 dp-cycle; KMV.LD brings 64 B, after the time of its
region. KMV.KW puts a lane into w at once and KMV.ST stores all 64 B. Accesses that are not granted fault, and so does a
KMV.LD of a MEDIA line or with an uncorrectable error (R171, R331). A KMV.LD of cluster control is class L and gives up the
core (R139). That any other takes the bytes at issue is the model's reading (log entry 31). `u` is the state with a CPEN value spent that judged this
instruction (R208). -/
def Obligations.CramponMovesTakeTheirLanesAndBytes : Prop :=
  ∀ (s : State) (r : Issuer) (kd ka : BitVec 4) (w : BitVec 5) (lane : BitVec 3),
    let x := rope s r.toNat
    let a := getW x w
    let c := ropeCluster r.toNat
    let bs := toLE 64 (getK x ka).toNat
    let u := cpenSpent s r.toNat
    CramponIssues s r [kd, ka] →
    (∃ v, exec (.kmvWk r kd w lane) s = .next (after u r (posted x kd v (s.time.now + dpU s))) ∧
      ∀ j, j < 8 → laneAt v j = if j = lane.toNat then a else laneAt (getK x kd) j) ∧
    exec (.kmvKw r w ka lane) s = .next (after u r (setW x w (laneAt (getK x ka) lane.toNat))) ∧
    exec (.kmvKk r kd ka) s = .next (after u r (posted x kd (getK x ka) (s.time.now + dpU s))) ∧
    (∀ g, access s x a.toNat 64 64 false = .ok g →
      (memMedia s g a.toNat 64 = false → g ≠ .ctl → exec (.kmvLd r kd ⟨w, false⟩) s = .next (after u r { x with kPend := x.kPend ++ [{
        kd := kd, value := BitVec.ofNat 512 (ofLE (memRead s r.toNat g a.toNat 64)), due := s.time.now + kLoadTime s g
        src := some a.toNat }] })) ∧
      (g = .ctl → exec (.kmvLd r kd ⟨w, false⟩) s = .next (stall u r.toNat (.kload kd a))) ∧
      (memMedia s g a.toNat 64 = true → exec (.kmvLd r kd ⟨w, false⟩) s = .next (faultRope u r.toNat 9 a)) ∧
      exec (.kmvLd r kd ⟨w, true⟩) s = .next (faultRope u r.toNat 0x0A a)) ∧
    (∀ k q, access s x a.toNat 64 64 false = .error k → exec (.kmvLd r kd ⟨w, q⟩) s = .next (faultRope u r.toNat k a)) ∧
    (access s x a.toNat 64 64 true = .ok .scratch → ∃ t, exec (.kmvSt r ka w) s = .next t ∧ rope t r.toNat = nextPc x ∧
      OtherRopesKept s t r.toNat ∧ RestKept s t ∧ (∀ e, e ≠ c → cluster t e = cluster s e) ∧
      ∀ b, scratchByte t c b = stored a.toNat bs b (scratchByte s c b)) ∧
    (access s x a.toNat 64 64 true = .ok .hbm → ∃ t, exec (.kmvSt r ka w) s = .next t ∧ rope t r.toNat = nextPc x ∧
      OtherRopesKept s t r.toNat ∧ RestKept { s with hbm := t.hbm } t ∧ t.clusters = s.clusters ∧
      ∀ b, hbmByte t b = stored (a.toNat - 0x1000000000000000) bs b (hbmByte s b)) ∧
    (access s x a.toNat 64 64 true = .ok .window →
      exec (.kmvSt r ka w) s = .next (after u r (winWrite x (a.toNat - 0x2000000) bs))) ∧
    (access s x a.toNat 64 64 true = .ok .ctl →
      let t := ctlStore u r.toNat (a.toNat - 0x3000000) bs
      exec (.kmvSt r ka w) s = .next (if suspends a.toNat bs then stall (modRope t r.toNat nextPc) r.toNat .task
        else modRope t r.toNat nextPc)) ∧
    (∀ k, access s x a.toNat 64 64 true = .error k → exec (.kmvSt r ka w) s = .next (faultRope u r.toNat k a))

/-- The operations of R200 to R204 join the scoreboard with their latency: the CRCs over the bytes that w covers, with
the low 32 bits of w as prior value, in 4 dp-cycles; KH2's two hashes in 5; KCMPM's byte-equal, lane-equal and ALL
bits in 2; KSPLICE's bytes in 2. All else of the result is 0. -/
def Obligations.CramponOperationsComputeTheirResults : Prop :=
  ∀ (s : State) (r : Issuer) (kd ka kb : BitVec 4) (w : BitVec 5),
    let x := rope s r.toNat
    let byte (k : KWord) (i : Nat) : BitVec 8 := k.extractLsb' (8 * i) 8
    let o := ((getW x w).extractLsb' 40 6).toNat
    let n := ((getW x w).extractLsb' 32 7).toNat
    let bs := ((List.range 64).filter (fun i => decide (o ≤ i) && decide (i < o + n))).map (byte (getK x ka))
    let prior := ((getW x w).extractLsb' 0 32).toNat
    let seed (i : Nat) : List Byte := toBE 4 ((getK x kb).extractLsb' (32 * i) 32).toNat
    let takesIn (i : Instr) (v : KWord) (cycles : Nat) : Prop :=
      exec i s = .next (after (cpenSpent s r.toNat) r (posted x kd v (s.time.now + cycles * dpU s)))
    CramponIssues s r [ka, kb, kd] →
    takesIn (.kcrc32c r kd ka w) (BitVec.ofNat 512 (crc 0x82F63B78 prior bs)) 4 ∧
    takesIn (.kcrc32 r kd ka w) (BitVec.ofNat 512 (crc 0xEDB88320 prior bs)) 4 ∧
    takesIn (.kh2 r kd ka kb w) (BitVec.ofNat 512 (crc32c (seed 0 ++ bs) + crc32c (seed 1 ++ bs) * 2 ^ 64)) 5 ∧
    (∃ v, takesIn (.kcmpm r kd ka kb) v 2 ∧ ∀ i,
      let eq (j : Nat) : Bool := byte ((getK x ka ^^^ getK x kb) &&& getK x kd) j == 0
      v.getLsbD i = if i < 64 then eq i
        else if i = 64 then (List.range 64).all eq
        else if 72 ≤ i ∧ i < 80 then (List.range 8).all (fun j => eq (8 * (i - 72) + j))
        else false) ∧
    (∃ v, takesIn (.ksplice r kd ka kb w) v 2 ∧ ∀ i, i < 64 →
      let at_ := ((getW x w).extractLsb' 0 6).toNat
      let m := ((getW x w).extractLsb' 8 7).toNat
      byte v i = if at_ ≤ i ∧ i < at_ + m then byte (getK x kb) (i - at_) else byte (getK x ka) i)

/-- What keeps a Crampon instruction back (R199, R205, R207, R208): on a register whose result is 8 dp-cycles or more away the
rope waits, and that is counted; a result due sooner is written first, and one that cannot be written yet keeps the rope on the
instruction (log entry 110); where CPEN, as it stands once the registers are there, does not enable the rope's level it faults.
A KTXL also waits while 16 of its core are outstanding. -/
def Obligations.CramponWaitsForItsRegistersAndEnable : Prop :=
  ∀ (s : State) (r : Issuer) (kd ka : BitVec 4) (w : BitVec 5) (lane : BitVec 3),
    let x := rope s r.toNat
    let n := r.toNat
    let u := cpenSpent s n
    (Issues s r → x.kPend = [] → cramponOn s n = false → exec (.kmvKw r w ka lane) s = .next (faultRope s n 8 0) ∧
      exec (.kmvKk r kd ka) s = .next (faultRope s n 8 0) ∧ exec (.ktxl r kd ka) s = .next (faultRope s n 8 0) ∧
      exec (.ksave r w) s = .next (faultRope s n 8 0) ∧ ∀ q, exec (.kload r ⟨w, q⟩) s = .next (faultRope s n 8 0)) ∧
    (∀ p, Issues s r → x.kPend.filter (fun q => q.kd == ka) = [p] →
      (s.time.now + 8 * dpU s ≤ p.due →
        exec (.kmvKw r w ka lane) s = .next (stall (bump s (0x4040 + ropeCluster n) 0x13) n (.kreg ka))) ∧
      (p.due < s.time.now + 8 * dpU s → kHeld s p = true → (∀ q ∈ x.kPend, q.kd ≠ ka → p.due < q.due) →
        exec (.kmvKw r w ka lane) s = .next s) ∧
      (p.due < s.time.now + 8 * dpU s → p.miss = none → p.src = none → p.isTxl = false →
        (∀ q ∈ x.kPend, q.kd ≠ ka → p.due < q.due) → cramponOn (advanceTo s p.due) n = true → ∃ t, exec (.kmvKw r w ka lane) s = .next t ∧
        t.time.now = max s.time.now p.due ∧ rope t n = nextPc (setW
          (setK { x with kPend := x.kPend.filter (fun q => q.kd != ka) } ka p.value) w (laneAt p.value lane.toNat)))) ∧
    (CramponIssues s r [ka, kd] → 16 ≤ txlOut s (ropeCore n) → exec (.ktxl r kd ka) s = .next (stall u n .ktxl))

/-- KTXL (R205, R229, R231, R235): lane 0 of ka is the address, bits [11:0] of lane 1 the tenant and bit 16 a write.
Each is counted. In pass-through mode the low 48 bits, under the device's own number, and HomeLp are the result; in
window mode the lowest window that holds the address must permit the access, and a cached granule's entry decides. A
fault is counted and carries its code. A hit is due after 24 dp-cycles; a miss waits for its map read and is counted.
-/
def Obligations.TranslationOfAnAddress : Prop :=
  ∀ (s : State) (r : Issuer) (kd ka : BitVec 4),
    let x := rope s r.toNat
    let c := ropeCluster r.toNat
    let a := laneAt (getK x ka) 0
    let tid := (laneAt (getK x ka) 1).extractLsb' 0 12
    let t := tid.toNat
    let wr := (laneAt (getK x ka) 1).getLsbD 16
    let u := bump (cpenSpent s r.toNat) (0x4040 + c) 0x11
    let due := s.time.now + 24 * dpU s
    let hit (v : State) (k : KWord) : Prop :=
      exec (.ktxl r kd ka) s = .next (after v r { x with kPend := x.kPend ++ [{ kd := kd, value := k, due := due, isTxl := true }] })
    let fails (code win cached : Nat) (v : State) (enc : Nat) : Prop :=
      hit (bumpTen v t 0x53) (txlWord 0 1 code win cached enc 0)
    CramponIssues s r [ka, kd] → txlOut s (ropeCore r.toNat) < 16 →
    (ten s t 0x50 = 0 → 384 ≤ ten s t 0x51 → fails 9 0 1 u 0) ∧
    (ten s t 0x50 = 0 → ten s t 0x51 < 384 →
      hit u (txlWord (s.sys.deviceId.toNat * 2 ^ 48 + a.toNat % 2 ^ 48) 0 0 0 1 0 (ten s t 0x51))) ∧
    (ten s t 0x50 ≠ 0 → 2 ^ 48 ≤ a.toNat → fails 8 0 1 u 0) ∧
    (ten s t 0x50 ≠ 0 → a.toNat < 2 ^ 48 → (∀ i, i < 64 → inWindow a.toNat (windowWord s t i) = false) → fails 1 0 1 u 0) ∧
    (∀ i, ten s t 0x50 ≠ 0 → a.toNat < 2 ^ 48 → i < 64 → inWindow a.toNat (windowWord s t i) = true →
      (∀ j, j < i → inWindow a.toNat (windowWord s t j) = false) →
      let v := windowWord s t i
      let off := windowOff a.toNat v
      (wr = true → v.testBit 125 = false → fails 3 i 1 u 0) ∧
      (wr = false → v.testBit 126 = false → fails 2 i 1 u 0) ∧
      (v.testBit (if wr then 125 else 126) = true →
        (txlCached s (off / 2 ^ 21) = none → exec (.ktxl r kd ka) s = .next (after (bump u (0x4040 + c) 0x12) r { x with
          kPend := x.kPend ++ [{ kd := kd, value := 0, due := due + 90 * 600, isTxl := true,
                                 miss := some { tid := tid, off := off, wr := wr, win := i } }] })) ∧
        (∀ e : BitVec 128, txlCached s (off / 2 ^ 21) = some e →
          let y := txlInstall u (off / 2 ^ 21) e
          let enc := b2n (e.getLsbD 124)
          (e.getLsbD 127 = false → fails 5 i 1 y enc) ∧
          (e.getLsbD 127 = true → e.extractLsb' 112 12 ≠ tid → tid ≠ 0 → fails 4 i 1 y enc) ∧
          (e.getLsbD 127 = true → (e.extractLsb' 112 12 = tid ∨ tid = 0) →
            (e.getLsbD 125 = true → fails 7 i 1 y enc) ∧
            (e.getLsbD 125 = false → e.getLsbD 126 = true → wr = true → fails 6 i 1 y enc) ∧
            (e.getLsbD 125 = false → (e.getLsbD 126 = false ∨ wr = false) →
              hit y (txlWord (s.sys.deviceId.toNat * 2 ^ 48 + off) 0 0 i 1 enc
                (e.extractLsb' 96 9).toNat))))))

/-- K_RESULT_WRITTEN (R198, R199, R205) puts the result that the rope has due first into its register, no longer pending,
at its instant; one that must wait for what it reads changes nothing. A rope that waits for that register is ready, and after a KTXL so are the ropes of its core that wait for one to end.
MAP_READ_DONE (R234, R237, R238) makes a missed KTXL's result known and installs the entry, but one that a map WRITE
has overtaken keeps what its read gave, the entry or the failure, and installs nothing. KSAVE stores k0 to k15 in order, 64 B each, in an aligned
1,024 B of the scratchpad, and KLOAD takes them from there (R206); the rope then waits for the banks. An address outside
the scratchpad or misaligned faults, and so does a KLOAD with an uncorrectable error (R171). -/
def Obligations.CramponResultsAndSavedRegisters : Prop :=
  (∀ (s : State) (r : RopeId) (kd : BitVec 4) (p : KPend),
    let x := rope s r.toNat
    on s = true → pendingK x kd = some p →
    (kHeld s p = true → exec (.kResultWritten r kd) s = .next s) ∧
    (p.miss = none → p.src = none → (∀ q ∈ x.kPend, q.kd ≠ kd → p.due < q.due) →
      x.kPend.filter (fun q => q.kd == kd) = [p] → ∃ t, exec (.kResultWritten r kd) s = .next t ∧
      t.time.now = max s.time.now p.due ∧ t.hbm = s.hbm ∧ t.clusters = s.clusters ∧
      rope t r.toNat = { setK { x with kPend := x.kPend.filter (fun q => q.kd != kd) } kd p.value with
        st := if x.st = .waiting (.kreg kd) ∨ (p.isTxl = true ∧ x.st = .waiting .ktxl) then .ready else x.st } ∧
      ∀ q, q ≠ r.toNat → rope t q = { rope s q with
        st := if p.isTxl = true ∧ ropeCore q = ropeCore r.toNat ∧ (rope s q).st = .waiting .ktxl then .ready
          else (rope s q).st }) ∧
    (∀ m, p.miss = some m →
      throttled s .table ((copyFor s s.hbm.mapBaseA s.hbm.mapBaseB (m.off / 2 ^ 21)).1 + 16 * (m.off / 2 ^ 21)) = false →
      ∃ t v, exec (.mapReadDone r kd) s = .next t ∧ t.time = s.time ∧ OtherRopesKept s t r.toNat ∧
        rope t r.toNat = { x with kPend := x.kPend.map (fun q => if q.kd = kd then { q with value := v, miss := none } else q) } ∧
        (∀ e, m.stale = some (some e) → t.xlat = s.xlat ∧ v = (txlEntry s m e 0).2) ∧
        (m.stale = some none → t.xlat = s.xlat ∧ v = txlWord 0 2 0 m.win 0 0 0) ∧
        (∀ e, m.stale = none → (mapRead s (m.off / 2 ^ 21)).2 = some e →
          t.xlat = (txlInstall s (m.off / 2 ^ 21) e).xlat ∧ v = (txlEntry s m e 0).2) ∧
        (m.stale = none → (mapRead s (m.off / 2 ^ 21)).2 = none → t.xlat = s.xlat ∧ v = txlWord 0 2 0 m.win 0 0 0))) ∧
  (∀ (s : State) (r : Issuer) (w : BitVec 5), CramponIssues s r allK →
    let x := rope s r.toNat
    let c := ropeCluster r.toNat
    let a := (getW x w).toNat
    (a < 0x400000 → a % 1024 = 0 →
      (∃ t, exec (.ksave r w) s = .next t ∧ rope t r.toNat = { nextPc x with st := .waiting .kstate } ∧
        OtherRopesKept s t r.toNat ∧ RestKept s t ∧
        (∀ k : BitVec 4, rdN (cluster t c).scratch (a + 64 * k.toNat) 64 = toLE 64 (getK x k).toNat) ∧
        ∀ b, b < a ∨ a + 1024 ≤ b → scratchByte t c b = scratchByte s c b) ∧
      exec (.kload r ⟨w, true⟩) s = .next (faultRope (cpenSpent s r.toNat) r.toNat 0x0A (getW x w)) ∧
      (∃ t, exec (.kload r ⟨w, false⟩) s = .next t ∧ OtherRopesKept s t r.toNat ∧ RestKept s t ∧ t.clusters = s.clusters ∧
        (∀ k : BitVec 4, getK (rope t r.toNat) k =
          BitVec.ofNat 512 (ofLE (rdN (cluster s c).scratch (a + 64 * k.toNat) 64))) ∧
        rope t r.toNat = { nextPc x with k := (rope t r.toNat).k, st := .waiting .kstate })) ∧
    (∀ code q, (0x400000 ≤ a ∧ code = 3) ∨ (a < 0x400000 ∧ a % 1024 ≠ 0 ∧ code = 4) →
      exec (.ksave r w) s = .next (faultRope (cpenSpent s r.toNat) r.toNat code (getW x w)) ∧
      exec (.kload r ⟨w, q⟩) s = .next (faultRope (cpenSpent s r.toNat) r.toNat code (getW x w))))

/-- MFS and MTS (R129, R131, R149, R207). A read gives the register, 0 for a number that names none. A write of PL
only lowers it; FLAGS takes 4 bits; TRAP needs PL1 and CPEN PL2, else PRIVILEGE is raised; LOCALDISP takes all 64
bits; a write of any other number does nothing. A write of CPEN still lets the value before it judge what the writer, and with
ALL each core of the cluster, issues next within 2 dp-cycles (R208; log entry 111). -/
def Obligations.SystemRegistersReadAndWrite : Prop :=
  ∀ (s : State) (r : Issuer) (d a : BitVec 5), Issues s r →
    let n := r.toNat
    let x := rope s n
    let v := getW x a
    let c := ropeCluster n
    let cpen := key (0x4040 + c) (1 + ropeCore n % 16)
    let kept (k q : Nat) (pc : BitVec 32) : Machine.Core := { Machine.core s k with cpenPast := some {
      rope := q, pc := pc, value := getO s (key (0x4040 + c) (1 + k % 16)), until_ := s.time.now + 2 * dpU s } }
    let past (u : State) : State := setCore u (ropeCore n) (kept (ropeCore n) n (nextPc x).pc)
    (∀ e ∈ [(0#12, n), (1, x.pl.toNat), (2, 8 * b2n x.flags.n + 4 * b2n x.flags.z + 2 * b2n x.flags.c + b2n x.flags.v),
        (3, b2n x.trap), (4, getO s cpen % 8), (5, x.localMask.toNat), (6, x.localDisp.toNat), (7, ft s),
        (8, cyc s - x.startAt), (9, x.rstack.length)],
      exec (.mfs r d e.1) s = .next (after s r (setW x d (BitVec.ofNat 64 e.2)))) ∧
    (∀ k : BitVec 12, 10 ≤ k.toNat → exec (.mfs r d k) s = .next (after s r (setW x d 0)) ∧
      exec (.mts r a k) s = .next (after s r x)) ∧
    (∀ k ∈ [0#12, 5, 7, 8, 9], exec (.mts r a k) s = .next (after s r x)) ∧
    exec (.mts r a 1) s = .next (after s r { x with
      pl := if v.extractLsb' 0 2 < x.pl then v.extractLsb' 0 2 else x.pl }) ∧
    exec (.mts r a 2) s = .next (after s r { x with
      flags := { n := v.getLsbD 3, z := v.getLsbD 2, c := v.getLsbD 1, v := v.getLsbD 0 } }) ∧
    exec (.mts r a 3) s = .next (if x.pl = 0 then faultRope s n 2 0 else after s r { x with trap := v.getLsbD 0 }) ∧
    (x.pl.toNat < 2 → exec (.mts r a 4) s = .next (faultRope s n 2 0)) ∧
    (2 ≤ x.pl.toNat → v.getLsbD 63 = false → exec (.mts r a 4) s = .next (after (past (setO s cpen (v.toNat % 8))) r x)) ∧
    (2 ≤ x.pl.toNat → v.getLsbD 63 = true → ∃ t, exec (.mts r a 4) s = .next t ∧ rope t n = nextPc x ∧
      Machine.core t (ropeCore n) = kept (ropeCore n) n (nextPc x).pc ∧
      (∀ k, k / 16 = c → k ≠ ropeCore n → Machine.core t k = match (Machine.core s k).issuing with
        | some q => kept k (k * 8 + q) (rope s (k * 8 + q)).pc
        | none => Machine.core s k) ∧
      (∀ k, k / 16 ≠ c → Machine.core t k = Machine.core s k) ∧ OtherRopesKept s t n ∧ RestKept s t ∧ t.clusters = s.clusters ∧
      ∀ k, getO t k = if 0x404001 + 256 * c ≤ k ∧ k ≤ 0x404010 + 256 * c then v.toNat % 8 else getO s k) ∧
    exec (.mts r a 6) s = .next (after s r { x with localDisp := v })

/-- FEMIT (R152, R153, R158): a disposition of frame w[a] joins the pitch's outputs with the head as it stands in the
window, or discards or NAKs the frame, which the cluster counts, and the frame counts as disposed. No pitch, no such
frame and a 65th output fault; a port that the mode in force does not have is unsupported. The instant of the counts
and the stop on unsupported use are the model's readings (log entries 25 and 32). -/
def Obligations.FemitDisposesOfAFrame : Prop :=
  ∀ (s : State) (r : Issuer) (a b : BitVec 5), Issues s r →
    let n := r.toNat
    let x := rope s n
    let i := ((getW x a).extractLsb' 0 4).toNat
    let w := getW x b
    let lp := (w.extractLsb' 0 9).toNat
    let kind := w.extractLsb' 16 2
    (x.pitch = none → exec (.femit r a b) s = .next (faultRope s n 6 0)) ∧
    ∀ k p, x.pitch = some k → pitch s k = some p →
      (x.heads.length ≤ i → exec (.femit r a b) s = .next (faultRope s n 3 0)) ∧
      (i < x.heads.length →
        let gives (es : List Emit) : State :=
          setPitch s k { p with emits := p.emits ++ es, disposed := insertNat i p.disposed }
        (kind ≠ 2 → 64 ≤ p.emits.length → (kind = 0 → portOk s x i lp = true) →
          exec (.femit r a b) s = .next (faultRope s n 7 0)) ∧
        (kind = 0 → portOk s x i lp = false → exec (.femit r a b) s = .fault (.unsupported 158)) ∧
        (p.emits.length < 64 →
          (kind = 0 → portOk s x i lp = true →
            exec (.femit r a b) s = .next (after (gives [.port i (headOf x i) (recLocal x i) lp]) r x)) ∧
          (kind = 1 → exec (.femit r a b) s = .next (after (gives [.flood i (headOf x i) (recLocal x i)]) r x)) ∧
          (kind = 3 → exec (.femit r a b) s = .next (after (bump
            (gives [.nak i (w.extractLsb' 0 8) (w.extractLsb' 8 8)]) (0x4010 + ropeCluster n) 3) r x))) ∧
        (p.emits.length ≤ 64 → kind = 2 →
          exec (.femit r a b) s = .next (after (bump (gives []) (0x4010 + ropeCluster n) 2) r x)))

/-- FEMIT.R (R99, R154) disposes of the frame whose record w[a] points to, by the rule's ACT in byte 32 of the record
and by DKIND in byte 9, and moves w[a] on by 64. DENY refuses the frame, which the cluster counts as a NAK and its tenant in
RuleDenies; an ACT above 3 is taken as 0; PERMIT follows
DEST_LP, floods, or takes LOCALDISP for a local frame; REDIRECT goes to the rule's port; MIRROR does that first. A
local frame without a LOCALDISP is left to the program, marked in LOCALMASK. A record beyond COUNT of the descriptor as
it stands at issue (R136) faults; that COUNT names no more frames than the pitch holds, and the stop on unsupported use,
are the model's readings (log entries 25 and 100). -/
def Obligations.FemitRFollowsTheRule : Prop :=
  ∀ (s : State) (r : Issuer) (a : BitVec 5) (k : Nat) (p : Pitch) (i : Nat), Issues s r →
    let n := r.toNat
    let x := rope s n
    let y := setClass x i
    let b := recordOf y i
    let act := (lget b 32 0).toNat
    let dkind := (lget b 9 0).toNat
    let named := ofLE (slice b 34 2) % 512
    let dest := ofLE (slice b 10 2) % 512
    let port (lp : Nat) : Emit := .port i (headOf y i) (recLocal y i) lp
    let count := min (lget (winRead x 6 1) 0 0).toNat x.heads.length
    let moved (left : Bool) : Rope := { setW y a (getW y a + 64) with
      localMask := if left then y.localMask ||| (1#16 <<< i) else y.localMask }
    let gives (es : List Emit) (disp left : Bool) : Prop :=
      p.emits.length + es.length ≤ 64 → ∃ t, exec (.femitR r a) s = .next t ∧ rope t n = nextPc (moved left) ∧
        OtherRopesKept s t n ∧ t.hbm = s.hbm ∧ t.clusters = s.clusters ∧
        pitch t k = some { p with
          emits := p.emits ++ es, disposed := if disp then insertNat i p.disposed else p.disposed }
    a ≠ 0 → getW x a = BitVec.ofNat 64 (0x2000040 + 64 * i) → x.pitch = some k → pitch s k = some p →
    (count ≤ i → i < 2 ^ 32 → exec (.femitR r a) s = .next (faultRope s n 3 (getW x a))) ∧
    (i < count → i < 16 → dispOk s y i (dispOf x.localDisp.toNat) = true →
      (act = 1 → gives [.deny i] true false ∧ (p.emits.length < 64 → ∃ t, exec (.femitR r a) s = .next t ∧
        ten t p.tid.toNat 0x3A = (ten s p.tid.toNat 0x3A + 1) % 2 ^ 64 ∧
        obj t (0x4010 + ropeCluster n) 3 = (obj s (0x4010 + ropeCluster n) 3 + 1) % 2 ^ 64)) ∧
      (act ≠ 1 → p.emits.length < 63 → ∃ t, exec (.femitR r a) s = .next t ∧
        ten t p.tid.toNat 0x3A = ten s p.tid.toNat 0x3A) ∧
      (act = 2 → gives [port named] true false) ∧
      (act = 0 ∨ 3 < act → dkind = 0 → gives [port dest] true false) ∧
      (act = 0 ∨ 3 < act → dkind = 1 → gives [.flood i (headOf y i) (recLocal y i)] true false) ∧
      (act = 0 ∨ 3 < act → 2 ≤ dkind → x.localDisp.getLsbD 31 = false → gives [] false true) ∧
      (act = 0 ∨ 3 < act → 2 ≤ dkind → x.localDisp.getLsbD 31 = true →
        gives (emitOf y i (dispOf x.localDisp.toNat)) true false) ∧
      (act = 3 → dkind = 0 → gives [port named, port dest] true false) ∧
      (act = 3 → dkind = 1 → gives [port named, .flood i (headOf y i) (recLocal y i)] true false) ∧
      (act = 3 → 2 ≤ dkind → x.localDisp.getLsbD 31 = false → gives [port named] true true) ∧
      (act = 3 → 2 ≤ dkind → x.localDisp.getLsbD 31 = true →
        gives (port named :: emitOf y i (dispOf x.localDisp.toNat)) true false))

/-- FNEW (R151, R155, R158) adds a derived frame, built in slot w[a] of the window, to the pitch's outputs and counts it;
without a pitch it faults, and a payload of more than 96 B or a disposition that is neither a port nor a flood is unsupported.
PDONE (R115, R156, R174, R180) ends the rope's work: the rope is free, its core has one pitch less, its frames without a
disposition are counted, and a pitch whose turn in its lane has not come is held, complete, with its outputs. While Switchback
holds 4,096, a PDONE that would be held waits (R119; the model's choice, log entry 101). PDONE and REPB in the body of a repeat
raise the illegal-instruction fault (R163). -/
def Obligations.DerivedFramesAndTheEndOfAPitch : Prop :=
  (∀ (s : State) (r : Issuer) (a b : BitVec 5) (k : Nat) (p : Pitch), Issues s r →
    let n := r.toNat
    let x := rope s n
    let w := getW x b
    let slot := winRead x (0x1000 + 128 * ((getW x a).extractLsb' 0 4).toNat) 128
    let lp := (w.extractLsb' 0 9).toNat
    let kind := w.extractLsb' 16 2
    (∀ s' : State, Issues s' r → (rope s' n).pitch = none → exec (.fnew r a b) s' = .next (faultRope s' n 6 0)) ∧
    (x.pitch = some k → 2 ≤ kind.toNat ∨ 96 < (parseSxt slot).len.toNat → exec (.fnew r a b) s = .fault (.unsupported 158)) ∧
    (x.pitch = some k → pitch s k = some p → kind.toNat < 2 → (parseSxt slot).len.toNat ≤ 96 →
    (p.emits.length < 64 → exec (.fnew r a b) s = .next (after (bump
      (setPitch s k { p with emits := p.emits ++ [.derived slot (kind == 1) lp] }) (0x4010 + ropeCluster n) 5) r x)) ∧
    (64 ≤ p.emits.length → exec (.fnew r a b) s = .next (faultRope s n 7 0)))) ∧
  (∀ (s : State) (r : Issuer) (n1 : BitVec 3), Issues s r → inBody (rope s r.toNat) = true →
    exec (.pdone r) s = .next (faultRope s r.toNat 1 0) ∧ exec (.repb r n1) s = .next (faultRope s r.toNat 1 0)) ∧
  ∀ (s : State) (r : Issuer), IssuesFree s r →
    let n := r.toNat
    let x := rope s n
    (x.pitch = none → exec (.pdone r) s = .next (faultRope s n 6 0)) ∧
    ∀ k p, x.pitch = some k → pitch s k = some p → p.late = false →
      (holdFull s k = true → exec (.pdone r) s = .next (stall s n .hold)) ∧
      (holdFull s k = false → ∃ t, exec (.pdone r) s = .next t ∧ (rope t n).pitch = none ∧
        (rope t n).st = .free ∧ t.clusters = s.clusters) ∧
      (holdFull s k = false → HeldBack s p.lane.toNat k → (∀ q, (rope s q).st ≠ .waiting .hold) →
        ∃ t, exec (.pdone r) s = .next t ∧ rope t n = { x with st := .free, pitch := none, window := [], heads := [] } ∧
          obj t (0x4010 + ropeCluster n) 4 =
            (obj s (0x4010 + ropeCluster n) 4 + (x.heads.length - p.disposed.length)) % 2 ^ 64 ∧
          OtherRopesKept s t n ∧ t.hbm = s.hbm ∧ t.clusters = s.clusters ∧ t.frames = s.frames ∧ t.tm = s.tm ∧
          (Machine.core t (ropeCore n)).inFlight = (Machine.core s (ropeCore n)).inFlight - 1 ∧
          pitch t k = some { p with place := .done, rope := none })

/-! ### Pitches, parking, locks and tasks -/

/-- COALESCE_WINDOW_EXPIRY (R108, R109, R112, R113): at its window's end, counted in dp-cycles, the open pitch closes, is
counted with its frames, and joins its tenant's queue in the cluster of its lane; where no core of the device is open it is discarded.
PITCH_DISPATCH (R113 to R119, R130): the chosen pitch takes the next TICKET of its lane and starts on a rope of the
chosen core at ProgEntry, at PL0, with w1, w26 and w29 as R116 says and every other general register 0; a moved pitch
goes first and keeps its TICKET and its instant (R173). Class 7 is chosen before 6, and 6 before the rest. -/
def Obligations.PitchesCloseAndStartOnRopes : Prop :=
  (∀ (s : State) (lp : Nat) (cls : BitVec 3) (k : Nat) (p : Pitch), on s = true →
    lget (port s lp).openPitch cls.toNat none = some k → pitch s k = some p → p.lp = lp → p.cls = cls →
    let lane := laneNo s p.tid p.src p.ostream
    (∀ c, clusterFor s lane = some c → ∃ t, exec (.coalesceWindowExpiry lp cls) s = .next t ∧
      t.time.now = max s.time.now (cycStart s (p.openedAt + p.window)) ∧ t.ropes = s.ropes ∧ t.hbm = s.hbm ∧
      pitch t k = some { p with place := .queued, lane := BitVec.ofNat 16 lane, cluster := c } ∧
      mget (shed t c).queues p.tid.toNat [] = mget (shed s c).queues p.tid.toNat [] ++ [k] ∧
      lget (port t lp).openPitch cls.toNat none = none ∧
      obj t 0x4000 0x0A = (obj s 0x4000 0x0A + 1) % 2 ^ 64 ∧ obj t 0x4000 8 = (obj s 0x4000 8 + 1) % 2 ^ 64 ∧
      obj t 0x4000 9 = (obj s 0x4000 9 + p.frames.length) % 2 ^ 64) ∧
    (clusterFor s lane = none → p.ticketed = false →
      ∃ t, exec (.coalesceWindowExpiry lp cls) s = .next t ∧ pitch t k = none ∧ t.ropes = s.ropes)) ∧
  (∀ (s : State) (c : BitVec 4) (k j r : Nat) (p : Pitch),
    let n := c.toNat
    let d : Pitch := if p.ticketed then p else
      { p with ticketed := true, dispatchFt := ft s, dispatchAt := s.time.now, ticket := (laneOf s p.lane.toNat).next }
    on s = true → (cluster s n).doze = false → heldPitches s < 4096 → pitch s k = some p →
    pitchRope s j = some r → ropeCluster r = n → (rope s r).kPend = [] → p.late = false →
    ((shed s n).moved = [] ∧ (∃ t cls left, choosePitch s n = some (k, t, cls, left)) ∧ chooseCore s n none = some j) ∨
      (∃ ks, (shed s n).moved = k :: ks ∧ chooseCore s n (p.firstFault.map (fun f => ropeCore f.1)) = some j) →
    ∃ t, exec (.pitchDispatch c) s = .next t ∧ OtherRopesKept s t r ∧ t.hbm = s.hbm ∧ t.clusters = s.clusters ∧
      t.frames = s.frames ∧
      pitch t k = some { d with place := .running, rope := some r } ∧
      (laneOf t p.lane.toNat).next = (laneOf s p.lane.toNat).next + (if p.ticketed then 0 else 1) ∧
      (Machine.core t (ropeCore r)).inFlight = (Machine.core s (ropeCore r)).inFlight + 1 ∧
      let x := rope t r
      x.st = .ready ∧ x.pitch = some k ∧ x.task = none ∧ x.pc = BitVec.ofNat 32 (obj s (0x4010 + n) 1) ∧ x.pl = 0 ∧
      x.flags = {} ∧ x.rstack = [] ∧ x.localMask = 0 ∧ x.localDisp = 0 ∧ x.pending = 0 ∧ x.k = [] ∧
      x.heads = p.frames.map (fun f => (frameOf s f).bytes.length) ∧
      ∀ d, getW x d = if d = 1 then 0x2000000 else if d = 26 then 0x2000040
        else if d = 29 then BitVec.ofNat 64 p.frames.length else 0) ∧
  ∀ (s : State) (c k t cls left : Nat), choosePitch s c = some (k, t, cls, left) →
    (∃ e ∈ eligible s c, e.1 = t ∧ e.2.1 = k) ∧ (∃ e ∈ eligible s c, e.2.2 = cls) ∧
    ((∃ e ∈ eligible s c, e.2.2 = 7) → cls = 7) ∧
    ((∀ e ∈ eligible s c, e.2.2 ≠ 7) → (∃ e ∈ eligible s c, e.2.2 = 6) → cls = 6)

/-- STRAGGLER_BUDGET_EXPIRY and LATE_RELEASE_EXPIRY (R120, R121): a dispatched pitch not complete StragglerBudget
after its dispatch is counted once and told to the lead rope; LateRelease later it is marked late, counted with its
frames, and its frames are no longer held. That the command moves time to its deadline, and the late mark to the end of
its dp-cycle, so that a PDONE in it wins, is the model's reading (log entry 2). -/
def Obligations.StragglersAreToldAndThenLate : Prop :=
  ∀ (s : State) (k : Nat) (p : Pitch), on s = true → pitch s k = some p → p.ticketed = true → p.place ≠ .done →
    let budget := p.dispatchAt + 90 * obj s 0x4000 4
    (p.straggler = false → ∃ t, exec (.stragglerBudgetExpiry k) s = .next t ∧
      t.time.now = max s.time.now budget ∧ pitch t k = some { p with straggler := true } ∧
      obj t 0x4000 0x0D = (obj s 0x4000 0x0D + 1) % 2 ^ 64 ∧ t.frames = s.frames ∧
      ∀ q, leadOf s p.cluster = some q → (∀ d m u, (rope s q).st ≠ .waiting (.event d m u)) →
        rope t q = { rope s q with pending := (rope s q).pending ||| 1#64 <<< 62 }) ∧
    (p.straggler = true → p.late = false → HeldBack s p.lane.toNat k → (∀ q, (rope s q).st ≠ .waiting .hold) →
      s.time.cycAt ≤ s.time.now → ∃ t, exec (.lateReleaseExpiry k) s = .next t ∧
      (let m := max s.time.now (budget + 90 * obj s 0x4000 5)
       m < t.time.now ∧ t.time.now ≤ m + dpU s) ∧ t.ropes = s.ropes ∧
      pitch t k = some { p with straggler := true, late := true, kept := p.frames.map (frameOf s) } ∧ (∀ f ∈ p.frames, mfind t.frames f = none) ∧
      obj t 0x4000 0x0E = (obj s 0x4000 0x0E + 1) % 2 ^ 64 ∧
      obj t 0x4000 0x0F = (obj s 0x4000 0x0F + p.frames.length) % 2 ^ 64)

/-- PARK, RESUME, FREE, PARK_HOLD_EXPIRY and CORE_FENCE_WRITE (R112, R175, R177, R190). A free rope parks with its
registers; a running one parks as by a fault of code 0x0B; the lead rope does not park. A parked rope resumes ready,
its task running, or is freed: its record is no longer valid and it waits on no lock. ParkHold ends the parking of a
pitch's rope. -/
def Obligations.RopesParkResumeAndAreFreed : Prop :=
  (∀ (s : State) (c : BitVec 4) (l : BitVec 7), on s = true →
    let r := c.toNat * 128 + l.toNat
    let x := rope s r
    (isLead s r = true → exec (.park c l) s = .next s) ∧
    (isLead s r = false → x.st = .free →
      exec (.park c l) s = .next (setRope s r { x with st := .parked, parkedAt := s.time.now })) ∧
    (isLead s r = false → (x.st = .ready ∨ ∃ w, x.st = .waiting w) → exec (.park c l) s = .next (faultRope s r 0x0B 0)) ∧
    (x.st ≠ .parked → exec (.resume c l) s = .next s ∧ exec (.freeRope c l) s = .next s) ∧
    (x.st = .parked →
      (isLead s r = false → exec (.park c l) s = .next s) ∧
      (∃ t, exec (.resume c l) s = .next t ∧ rope t r = { x with st := .ready } ∧ OtherRopesKept s t r ∧ RestKept s t ∧
        ∀ n, x.task = some n → slot t c.toNat n = { slot s c.toNat n with state := .run }) ∧
      (x.task = none → ∃ t, exec (.freeRope c l) s = .next t ∧ OtherRopesKept s t r ∧ RestKept s t ∧
        rope t r = { x with st := .free, frec := { x.frec with valid := false }, pinned := none, pitch := none } ∧
        ∀ m q, waitsOn s r = some (m, q) → ∀ w ∈ (lock t c.toNat m).waiters, w.toNat ≠ r))) ∧
  (∀ (s : State) (r : RopeId), let x := rope s r.toNat
    let hold := obj s (0x4020 + ropeCluster r.toNat) 2
    on s = true → x.st = .parked → x.frec.valid = true → x.frec.inPitch = true → hold ≠ 0 → x.task = none →
    ∃ t, exec (.parkHoldExpiry r) s = .next t ∧ t.time.now = max s.time.now (x.parkedAt + 90 * hold) ∧
      rope t r.toNat = { x with st := .free, frec := { x.frec with valid := false }, pinned := none, pitch := none }) ∧
  ∀ (s : State) (c : BitVec 4) (v : BitVec 16), Served s (0x4020 + c.toNat) → c.toNat < clusters s →
    (∃ e, e < clusters s ∧ e ≠ c.toNat ∧ obj s (0x4020 + e) 1 % 65536 ≠ 0xFFFF) → (∀ e ∈ s.pit.shed, e.2.moved = []) →
    ∃ t, exec (.coreFenceWrite c v) s = .next t ∧ t.answer = .ok [] ∧ t.ropes = s.ropes ∧ t.hbm = s.hbm ∧
      ∀ k, k < 16 → fenced t (c.toNat * 16 + k) = v.getLsbD k

/-- LEAD_BEAT restarts the heartbeat timer. When LEAD_BEAT_TIMEOUT finds the lead rope without a beat, and when a lead rope
faults, the lead rope parks, by a fault of code 0x0B or its own, if it is not parked already, and rope 7 of the next core that is
open and whose rope 7 is not parked is elected (R191 to R193): it starts at LeadEntry, at PL2, with the old lead rope's pending
word and BASECAMP, and the election is counted. In Doze the check of the beat is suspended (R387). That the command moves time
to its deadline is the model's reading (log entry 2). -/
def Obligations.LeadRopesBeatAndAreElected : Prop :=
  (∀ (s : State) (c : BitVec 4), on s = true → exec (.leadBeat c) s =
    .next (setCluster s c.toNat { cluster s c.toNat with beatAt := s.time.now })) ∧
  ∀ (s : State) (c : BitVec 4) (i : Nat),
    let cl := cluster s c.toNat
    let old := c.toNat * 128 + cl.leadRope
    let core (i : Nat) : Nat := c.toNat * 16 + (cl.leadRope / 8 + 1 + i) % 16
    let new := core i * 8 + 7
    let y := rope s old
    let elects (t : State) (code : Nat) (addr : BitVec 64) : Prop :=
      (∀ q, q ≠ new → q ≠ old → rope t q = rope s q) ∧
      rope t old = (if y.st = .parked then y else { y with
        st := .parked, parkedAt := t.time.now, frec := { pc := y.pc, code := code, valid := true, addr := addr } }) ∧
      (cluster t c.toNat).leadRope = new % 128 ∧ (cluster t c.toNat).prevLead = cl.leadRope ∧
      (cluster t c.toNat).beatAt = t.time.now ∧
      obj t (0x4030 + c.toNat) 2 = (obj s (0x4030 + c.toNat) 2 + 1) % 2 ^ 32 ∧
      let x := rope t new
      x.st = .ready ∧ x.pc = cl.leadEntry ∧ x.pl = 2 ∧ (∀ d, getW x d = 0) ∧ x.rstack = [] ∧ x.flags = {} ∧
      x.pending = y.pending ||| 1#64 <<< 61
    s.sys.basecampFailed = false → cl.noLead = false → cl.leadRope < 128 →
    y.pitch = none → y.task = none → y.kPend = [] → i < 15 → fenced s (core i) = false →
    (rope s new).st ≠ .parked → (rope s new).pitch = none → (rope s new).task = none →
    (∀ j, j < i → fenced s (core j) = true ∨ (rope s (core j * 8 + 7)).st = .parked) →
    (on s = true → obj s (0x4030 + c.toNat) 3 ≠ 0 → cl.doze = false → y.st ≠ .free → ∃ t,
      exec (.leadBeatTimeout c) s = .next t ∧ elects t 0x0B 0 ∧
      t.time.now = max s.time.now (cl.beatAt + 90 * obj s (0x4030 + c.toNat) 3)) ∧
    (cl.doze = true → exec (.leadBeatTimeout c) s = .next s) ∧
    (∀ code addr, y.st ≠ .parked → elects (faultRope s old code addr) code addr)

/-- ACQUIRE, RELEASE, FORCE, WITHDRAW and PRIORITY_RAISE_PROPAGATE (R185 to R189): Belay processes a lock's next write
4 dp-cycles after it. A free lock is taken; of a held one the rope becomes the last waiter, counted. A release by the
owner, or a FORCE at PL2, passes the lock to the best waiter, the highest rank and of equals the first, with a LOCK
event, or frees it; by another it is counted only. A rope's rank is the highest of its own and of those that wait for
it. -/
def Obligations.LocksPassToTheBestWaiter : Prop :=
  (∀ (s : State) (c : BitVec 4) (m : BitVec 12) (w : LockWrite),
    let k := c.toNat
    let n := m.toNat
    let l := lock s k n
    let runs (i : Instr) (op : BitVec 2) (f : State → Prop) : Prop :=
      w.op = op → ∃ t, exec i s = .next t ∧ t.time.now = max s.time.now (w.at_ + 4 * dpU s) ∧
        (cluster t k).lockQ = (cluster s k).lockQ.erase w ∧ t.ropes = s.ropes ∧ f t
    let passed (t : State) : Prop :=
      (l.waiters = [] → lock t k n = {} ∧ t.flights = s.flights) ∧
      ∀ v, bestWaiter s l.waiters = some v →
        lock t k n = { owner := some v, waiters := l.waiters.filter (· != v) } ∧
        t.flights = s.flights ++ [{ rope := v.toNat, bits := 1#64 <<< 60, due := t.time.now + 4 * dpU s }]
    on s = true → nextLockWrite n (cluster s k).lockQ = some w →
    runs (.acquire c m) 0 (fun t =>
      (l.owner = none → lock t k n = { l with owner := some w.id }) ∧
      (∀ o, l.owner = some o → o = w.id ∨ w.id ∈ l.waiters → lock t k n = l) ∧
      (∀ o, l.owner = some o → o ≠ w.id → w.id ∉ l.waiters → waitsOn s w.id.toNat = none →
        lock t k n = { l with waiters := l.waiters ++ [w.id] } ∧
        obj t (0x4030 + k) 5 = (obj s (0x4030 + k) 5 + 1) % 2 ^ 64)) ∧
    runs (.release c m) 1 (fun t =>
      (l.owner = some w.id → passed t) ∧
      (l.owner ≠ some w.id → lock t k n = l ∧ obj t (0x4030 + k) 8 = (obj s (0x4030 + k) 8 + 1) % 2 ^ 64)) ∧
    runs (.force c m) 2 (fun t =>
      (w.pl2 = true → l.owner ≠ none → passed t) ∧ (w.pl2 = true → l.owner = none → lock t k n = l) ∧
      (w.pl2 = false → lock t k n = l ∧ obj t (0x4030 + k) 8 = (obj s (0x4030 + k) 8 + 1) % 2 ^ 64)) ∧
    runs (.withdraw c m) 3 (fun t => lock t k n = { l with waiters := l.waiters.filter (· != w.id) })) ∧
  (∀ (s : State) (ws : List (BitVec 11)) (v : BitVec 11), bestWaiter s ws = some v →
    v ∈ ws ∧ (∀ w ∈ ws, rankOf s w.toNat ≤ rankOf s v.toNat) ∧
    ∀ i, i < ws.findIdx (· == v) → ∀ w, ws[i]? = some w → rankOf s w.toNat < rankOf s v.toNat) ∧
  ∀ (s : State) (c : BitVec 4) (r u : Nat) (rest : List (Nat × Nat)), on s = true →
    (cluster s c.toNat).raises = (r, u) :: rest →
    ropeCluster r = c.toNat → ∃ t, exec (.priorityRaisePropagate c) s = .next t ∧ t.time.now = max s.time.now u ∧
      rankOf t r = max (basePri s r) (waiterRank s r) ∧ t.ropes = s.ropes

/-- SPAWN, SIGNAL, CANCEL, END, WAIT, SLEEP and YIELD (R214 to R218, R223): the scheduler takes its next command 4
dp-cycles after its store. SPAWN fills the lowest free slot from the staging registers; SIGNAL lowers a counter, not
below 0, and at 0 readies a waiting slot; CANCEL and END free theirs; WAIT, SLEEP and YIELD put the caller's slot into
its next state and free its rope, kept for the task where it holds a lock. TaskResult shows the status, and a refused
command changes no slot. A SIGNAL in the tick of a WAIT's timeout that brings the counter to 0 wins over it. -/
def Obligations.TaskCommandsMoveSlots : Prop :=
  ∀ (s : State) (c : BitVec 4) (q : TaskCmd),
    let k := c.toNat
    let x := rope s q.rope
    let g := x.stg
    let n := q.word.toNat % 4096
    let now := max s.time.now (q.at_ + 4 * dpU s)
    let runs (i : Instr) (op : Nat) (f : State → Prop) : Prop :=
      q.word.toNat / 2 ^ 60 = op → ∃ t, exec i s = .next t ∧ t.time.now = now ∧
        (cluster t k).taskQ = (cluster s k).taskQ.erase q ∧ f t
    let shows (t : State) (status slot : Nat) : Prop :=
      (∀ u ∈ (cluster s k).taskQ.erase q, u.rope ≠ q.rope) →
        (rope t q.rope).stg.cmdStatus = BitVec.ofNat 8 status ∧ (rope t q.rope).stg.cmdSlot = BitVec.ofNat 12 slot
    let leaves (t : State) (m : Nat) : Prop :=
      (rope t q.rope).task = none ∧ (x.st = .waiting .task → (rope t q.rope).st = .free) ∧
        (rope t q.rope).pinned = if (heldBy s q.rope).isEmpty then none else some m
    let freed := lowestFree 0 ((cluster s k).slots.map (·.1))
    let calm := waitsOn s q.rope = none
    let caller (m : Nat) : Slot := { slot s k m with entry := g.entry.setWidth 32, sp := g.sp, rope := none }
    on s = true → nextTaskCmd (cluster s k).taskQ = some q → ropeCluster q.rope = k →
    runs (.spawn c) 1 (fun t =>
      (freed < 4096 → (absent s = false ∨ g.wakeFt = 0) → slot s k freed = {} →
        slot t k freed = spawnSlot g ∧ shows t 0 freed) ∧
      (absent s = true → g.wakeFt ≠ 0 → (cluster t k).slots = (cluster s k).slots ∧ shows t 5 0) ∧
      (4096 ≤ freed → (absent s = false ∨ g.wakeFt = 0) → (cluster t k).slots = (cluster s k).slots ∧ shows t 1 0)) ∧
    runs (.signal c) 2 (fun t =>
      let y := slot s k n
      let left := y.counter - (q.word.extractLsb' 44 16).toNat
      (y.state = .free → (cluster t k).slots = (cluster s k).slots ∧ shows t 2 n) ∧
      (y.state ≠ .free → (y.state = .wait → left ≠ 0) → y.timedOut = none →
        slot t k n = { y with counter := left } ∧ shows t 0 n) ∧
      (y.state = .ready → left = 0 → y.timedOut = some (ft t / 1000) →
        slot t k n = { y with counter := 0, reason := 0, timedOut := none } ∧ shows t 0 n) ∧
      (y.state = .wait → left = 0 → shows t 0 n ∧ slot t k n =
        { y with counter := 0, state := .ready, reason := 0, rope := none, due := none, timedOut := none })) ∧
    runs (.cancel c) 3 (fun t =>
      ((slot s k n).state = .free → (cluster t k).slots = (cluster s k).slots ∧ shows t 2 n) ∧
      ((slot s k n).state = .run ∨ (slot s k n).state = .parked → (cluster t k).slots = (cluster s k).slots ∧ shows t 3 n) ∧
      ((slot s k n).state = .wait ∨ (slot s k n).state = .delay ∨ (slot s k n).state = .ready →
        (slot t k n).state = .free ∧ shows t 0 n)) ∧
    runs (.endTask c) 4 (fun t =>
      (x.task = none → (cluster t k).slots = (cluster s k).slots ∧ shows t 6 0) ∧
      (∀ m, x.task = some m → heldBy s q.rope ≠ [] → (cluster t k).slots = (cluster s k).slots ∧ shows t 4 m) ∧
      (∀ m, x.task = some m → heldBy s q.rope = [] → (slot t k m).state = .free ∧ leaves t m ∧ shows t 0 m)) ∧
    runs (.waitTask c) 5 (fun t =>
      (x.task = none → (cluster t k).slots = (cluster s k).slots ∧ shows t 6 0) ∧
      (∀ m, x.task = some m → leaves t m ∧ shows t 0 m ∧
        (calm → (slot s k m).counter ≠ 0 → slot t k m = { caller m with
          state := .wait, due := if g.timeout = 0 then none else some (now + 90000 * g.timeout.toNat) }) ∧
        (calm → (slot s k m).counter = 0 → slot t k m =
          { caller m with state := .ready, reason := 0, due := none, timedOut := none }))) ∧
    runs (.sleep c) 6 (fun t =>
      (x.task = none → (cluster t k).slots = (cluster s k).slots ∧ shows t (if absent s then 5 else 6) 0) ∧
      (∀ m, x.task = some m → absent s = true → (cluster t k).slots = (cluster s k).slots ∧ shows t 5 m) ∧
      (∀ m, x.task = some m → absent s = false → leaves t m ∧ shows t 0 m ∧
        (calm → slot t k m = { caller m with state := .delay, wake := g.wakeFt.toNat }))) ∧
    runs (.yield c) 7 (fun t =>
      (x.task = none → (cluster t k).slots = (cluster s k).slots ∧ shows t 6 0) ∧
      (∀ m, x.task = some m → leaves t m ∧ shows t 0 m ∧
        (calm → slot t k m = { caller m with state := .ready, reason := 3, due := none, timedOut := none })))

/-- TASK_DISPATCH (R130, R219, R220): the head of the ready list starts on its rope at its entry, at PL1, with its
number, argument, reason and stack pointer in w1, w2, w3 and w30; a rope that Watershed claims now it does not take
(R212). DELAY_TICK (R222, R223): at a microsecond of FT that the cluster has not had, every delayed slot whose instant
has come is ready with reason 2, and a timed-out WAIT with reason 1; on the SKX-9624 WAIT_TIMEOUT_SWEEP does the
latter every 64 µs. -/
def Obligations.TasksStartAndWakeInTime : Prop :=
  (∀ (s : State) (c : BitVec 4) (n r : Nat) (rest : List Nat),
    let k := c.toNat
    let y := slot s k n
    on s = true → (cluster s k).doze = false → (cluster s k).ready = n :: rest → taskRope s k n = some r →
    ropeCluster r = k → (rope s r).kPend = [] → waitsOn s r = none →
    (watershedClaims s k r = true → exec (.taskDispatch c) s = .next s) ∧ (watershedClaims s k r = false →
    ∃ t, exec (.taskDispatch c) s = .next t ∧ OtherRopesKept s t r ∧ t.time = s.time ∧
      slot t k n = { y with state := .run, rope := some r } ∧ (cluster t k).ready = rest.filter (· != n) ∧
      (cluster t k).lastTaskCore = ropeCore r % 16 ∧
      let x := rope t r
      x.st = .ready ∧ x.task = some n ∧ x.pinned = none ∧ x.pitch = none ∧ x.pc = y.entry ∧ x.pl = 1 ∧ x.flags = {} ∧
      x.rstack = [] ∧ x.pending = 0 ∧
      ∀ d, getW x d = if d = 1 then BitVec.ofNat 64 n else if d = 2 then y.arg else if d = 3 then BitVec.ofNat 64 y.reason
        else if d = 30 then y.sp else 0)) ∧
  (∀ (s : State) (c : BitVec 4), let k := c.toNat
    absent s = false → on s = true → keysRise (cluster s k).slots = true → ∃ t, exec (.delayTick c) s = .next t ∧ t.ropes = s.ropes ∧
      ((cluster s k).lastTick = ft s / 1000 → s.time.now < t.time.now) ∧
      ((cluster s k).lastTick ≠ ft s / 1000 → t.time = s.time) ∧ (cluster t k).lastTick = ft t / 1000 ∧
      (∀ n, (slot s k n).state = .delay → (slot s k n).wake ≤ ft t / 1000 * 1000 → slot t k n =
        { slot s k n with state := .ready, reason := 2, rope := none, due := none, timedOut := none }) ∧
      (∀ n u, (slot s k n).state = .wait → (slot s k n).due = some u → u ≤ t.time.now - 90 * (ft t % 1000) → slot t k n =
        { slot s k n with state := .ready, reason := 1, rope := none, due := none, timedOut := some (ft t / 1000) })) ∧
  ∀ (s : State) (c : BitVec 4), let k := c.toNat
    absent s = true → on s = true → keysRise (cluster s k).slots = true →
      ∃ t, exec (.waitTimeoutSweep c) s = .next t ∧ t.ropes = s.ropes ∧
        t.time.now = max s.time.now ((cluster s k).sweptAt + 5760000) ∧
        (cluster t k).sweptAt ≤ t.time.now ∧ t.time.now < (cluster t k).sweptAt + 5760000 ∧
        ∀ n u, (slot s k n).state = .wait → (slot s k n).due = some u → u ≤ (cluster t k).sweptAt → slot t k n =
          { slot s k n with state := .ready, reason := 1, rope := none, due := none, timedOut := some (ft t / 1000) }

/-! ### Ports, links and the transport -/

/-- FRAME_RECEIVED (R24, R28, R44, R47, R64, R74, R81, R110, R388, R402): a frame too short, too long or with a wrong FCS is
counted, and the device was not idle; it does nothing else. A PULSE brings the partner back; a CRED takes the limits of the classes it names; another
frame to the link-local endpoint enters nothing. A frame for another device is held: its arrival is FT, its version the CURRENT one, which counts it in flight, its class's ingress
queue takes its cells, and it waits for its rule reads. The order of the tests is the model's reading (log entry 10).
-/
def Obligations.FramesAreTestedTakenAndStamped : Prop :=
  ∀ (s : State) (lp : Nat) (bs : List Byte) (nb : Nat), on s = true → linkUp s lp = true →
    let taken (t : State) : Prop := lpo t lp 0x12 = (lpo s lp 0x12 + 1) % 2 ^ 64 ∧
      lpo t lp 0x14 = (lpo s lp 0x14 + bs.length) % 2 ^ 64 ∧ t.ropes = s.ropes ∧ t.hbm = s.hbm ∧ t.time.now = s.time.now
    (bs.length < 64 → exec (.frameReceived lp bs nb) s = .next (bumpLp (stir s) lp 0x24)) ∧
    (4198 < bs.length → exec (.frameReceived lp bs nb) s = .next (bumpLp (stir s) lp 0x18)) ∧
    (64 ≤ bs.length → bs.length ≤ 4150 → (∃ i, i < 4 ∧
        lget bs (bs.length - 4 + i) 0 ≠ BitVec.ofNat 8 (crc32 (bs.take (bs.length - 4)) / 256 ^ i)) →
      exec (.frameReceived lp bs nb) s = .next (bumpLp (stir s) lp 0x16)) ∧
    ∀ off ip6 ecn, macTest bs = .pass → inService s = true → beAt bs 12 2 ≠ 0x8808 →
      parseFrame s lp bs = .sxt off ip6 ecn → sxtBad bs off = false → (pickHead s false).isSome = true →
      bs.length ≤ 192 → (mget s.trav.stage (lp / 4) []).length ≤ 32 → stagedCells s ≤ cellsSeen s → s.scree.scans = [] →
      let h := parseSxt (bs.drop off)
      let p := port s lp
      let mac : BitVec 48 := BitVec.ofNat 48 (beAt bs 6 6)
      (h.typ = 8 → ∃ t, exec (.frameReceived lp bs nb) s = .next t ∧ taken t ∧ port t lp = { p with
        partner := 1, lossFrom := some s.time.now, missedFrom := some s.time.now, partnerEp := some h.src
        dstMac := mac, dstIp6 := ip6.getD p.dstIp6 } ∧
        t.rcv.peerRdonly = (if role s lp = 2 then h.xarg.getLsbD 1 else s.rcv.peerRdonly)) ∧
      (h.typ = 7 → ∃ t, exec (.frameReceived lp bs nb) s = .next t ∧ taken t ∧ (port t lp).credSeen = true ∧
        ∀ c, c < 8 → lget (port t lp).credLimit c 0 =
          if h.xarg.getLsbD c then BitVec.ofNat 32 (beAt bs (off + 32 + 4 * c) 4) else lget p.credLimit c 0) ∧
      (h.typ.toNat < 4 → h.dst = 0xFFFFFF → ∃ t, exec (.frameReceived lp bs nb) s = .next t ∧ taken t ∧
        t.frames = s.frames ∧ t.nextFrame = s.nextFrame ∧ t.col = s.col ∧ t.tm = s.tm) ∧
      (h.typ.toNat < 4 → h.dst ≠ 0xFFFFFF → h.dst ≠ devEp s → ingressFits s lp h.cls.toNat 1 = true → ten s h.tid.toNat 0x20 % 4 = 0 →
        fenceBad s lp h = false → s.col.waiting = [] → s.col.cache = [] → p.ingress.length = 8 →
        ∃ t x, exec (.frameReceived lp bs nb) s = .next t ∧ taken t ∧ t.nextFrame = s.nextFrame + 1 ∧
          mfind t.frames s.nextFrame = some x ∧ x.lp = lp ∧ x.arr = ft s ∧ x.off = off ∧
          x.bytes = withHdr bs off { h with rsver := s.col.ver.current, colour := 0 } ∧
          t.col.waiting.map (·.frame) = [s.nextFrame] ∧
          inFlightOf t s.col.ver.current = inFlightOf s s.col.ver.current + 1 ∧
          lget (port t lp).ingress h.cls.toNat 0 = lget p.ingress h.cls.toNat 0 + 1)

/-- MODE_WRITE, LANE_MAP_WRITE, the training commands, FEC_ERROR_BURST, LINK_DOWN and LPI_RECEIVED_OUTSIDE (R50 to
R56, R60): a new mode or lane map trains every port that the physical port has and takes the others down. Training
ends with the link up and credit counts at 0; codewords are counted; a failed attempt, 8 uncorrectable codewords and a
lost link are counted and train again; a restart is not counted. A pause received and the XOFF state outlast the link.
That they do, that credit counts start afresh with the link, that a lost link trains in the same step, and that the
codewords of 1 ms come as counts, are the model's readings (log entries 23, 40, 90 and 95). -/
def Obligations.LinksTrainComeUpAndGoDown : Prop :=
  (∀ (s : State) (lp : Nat), lpo s lp 2 = 1 →
    let p := port s lp
    let training (now : Nat) : Port := { p with link := 1, trainAt := now, nextPulse := none }
    let lost (u : State) : State := setPort (bumpLp u lp 0x21) lp (training u.time.now)
    (linkState s lp = 1 →
      (on s = true → ∃ t, exec (.trainingComplete lp) s = .next t ∧ (port t lp).link = 2 ∧
        (port t lp).credLimit = List.replicate 8 0 ∧ (port t lp).cellsSent = List.replicate 8 0 ∧
        (port t lp).pauseUntil = p.pauseUntil ∧ (port t lp).xoffAt = p.xoffAt ∧
        (port t lp).credSeen = false ∧ (active t lp = true → (port t lp).nextPulse = some s.time.now) ∧
        t.time = s.time ∧ t.obj = s.obj ∧ ∀ q, q ≠ lp → port t q = port s q) ∧
      exec (.trainingTimeout lp) s = .next (lost (advanceTo s (p.trainAt + 45000000000))) ∧
      exec (.trainingRestart lp) s = .next (setPort s lp (training s.time.now))) ∧
    (linkUp s lp = true →
      (∀ a b, let u := bumpBy (bumpBy s (0x2000 + lp) 0x10 a) (0x2000 + lp) 0x11 b
        exec (.fecErrorBurst lp a b) s = .next (if 8 ≤ b then lost u else u)) ∧
      exec (.linkDown lp) s = .next (lost s) ∧
      (s.pwr.state ≠ 2 → exec (.lpiReceivedOutside lp) s = .next (bumpLp s lp 0x22)))) ∧
  ∀ (s : State) (lp : Nat), Served s (0x2000 + lp) → lp < lps s →
    let trains (i : Instr) (sub v : Nat) : Prop := ∃ t, exec i s = .next t ∧ t.answer = .ok [] ∧ lpo t lp sub = v ∧
      t.ropes = s.ropes ∧ ∀ j, j < 4 → (port t (lp + j)).link = if lpDefined t (lp + j) && lpo t (lp + j) 2 == 1 then 1 else 0
    let refuses (i : Instr) (code : Nat) : Prop :=
      exec i s = .next { bump s 0x0200 7 with answer := .abort code 0 }
    (∀ v : BitVec 8, (lp % 4 = 0 → v.toNat ≤ 2 → trains (.modeWrite lp v) 1 v.toNat) ∧
      (lp % 4 = 0 → 2 < v.toNat → refuses (.modeWrite lp v) 5) ∧ (lp % 4 ≠ 0 → refuses (.modeWrite lp v) 3)) ∧
    ∀ v : BitVec 16, lp % 4 = 0 → trains (.laneMapWrite lp false v) 0x0C v.toNat ∧
      trains (.laneMapWrite lp true v) 0x0D (v.toNat % 256)

/-- PULSE_SEND, PULSE_MISSED, PULSE_LOSS_TIMEOUT, CRED_SEND, PFC_XOFF_SEND and PAUSE_TIME_EXPIRY (R19, R44, R46, R47,
R57, R61). A PULSE leaves every 10 µs of an Active port and is numbered; an interval without one is counted; after 30
µs the partner is lost; neither timer runs while the data path has no power. A CRED carries limits that move only for classes in credit mode; XOFF goes again every 20 µs;
a pause ends at its time. How far a credit limit moves is a free value (log entry 23); that a command moves time to
its deadline is the model's reading (log entry 2). -/
def Obligations.PulseCreditAndPause : Prop :=
  ∀ (s : State) (lp : Nat), let p := port s lp
    (active s lp = true → ∃ t bs, exec (.pulseSend lp) s = .next t ∧
      t.time.now = max s.time.now (p.nextPulse.getD s.time.now) ∧ t.out = .frame lp bs :: s.out ∧
      port t lp = { p with pulseCount := p.pulseCount + 1, nextPulse := some (t.time.now + 900000) } ∧
      lpo t lp 0x13 = (lpo s lp 0x13 + 1) % 2 ^ 64 ∧ t.tm.queues = s.tm.queues ∧ t.ropes = s.ropes) ∧
    (∀ u, on s = true → p.missedFrom = some u → ∃ t, exec (.pulseMissed lp) s = .next t ∧ t.time.now = max s.time.now (u + 900000) ∧
      port t lp = { p with missedFrom := some (u + 900000) } ∧ lpo t lp 0x23 = (lpo s lp 0x23 + 1) % 2 ^ 64 ∧
      t.ropes = s.ropes) ∧
    (on s = false → exec (.pulseMissed lp) s = .next s ∧ exec (.pulseLossTimeout lp) s = .next s) ∧
    (∀ u, on s = true → p.lossFrom = some u → ∃ t, exec (.pulseLossTimeout lp) s = .next t ∧
      t.time.now = max s.time.now (u + 2700000) ∧ port t lp = { p with partner := 2, lossFrom := none } ∧
      t.ropes = s.ropes ∧ t.hbm.mem = s.hbm.mem) ∧
    (active s lp = true → lpo s lp 0x0A ≠ 0 → (pickHead s true).isSome = true →
      (∀ q ∈ s.tm.queues, q.lp = lp → q.cls = 7 → q.spillMode = false) → ∃ t, exec (.credSend lp) s = .next t ∧
      (port t lp).lastCred = t.time.now ∧
      (∀ c, c < 8 → (lpo s lp 0x0A).testBit c = false → lget (port t lp).sentLimit c 0 = lget p.sentLimit c 0) ∧
      ∃ q ∈ t.tm.queues, q.lp = lp ∧ q.cls = 7 ∧ ∃ o ∈ q.outs, o.hdr.typ = 7 ∧ o.hdr.xarg = BitVec.ofNat 16 (lpo s lp 0x0A) ∧
        o.payload.length = 32) ∧
    (∀ c : BitVec 3, active s lp = true → pfcOn s lp c.toNat = true → xoffPoint s lp ≤ lget p.ingress c.toNat 0 →
      p.xoffAt.length = 8 → ∃ t bs, exec (.pfcXoffSend lp c) s = .next t ∧ t.out = .frame lp bs :: s.out ∧
        t.time.now = (match lget p.xoffAt c.toNat none with | some u => max s.time.now (u + 1800000) | none => s.time.now) ∧
        lget (port t lp).xoffAt c.toNat none = some t.time.now ∧ lpo t lp 0x1F = (lpo s lp 0x1F + 1) % 2 ^ 64) ∧
    (∀ (c : BitVec 3) u, on s = true → lget p.pauseUntil c.toNat none = some u → ∃ t, exec (.pauseTimeExpiry lp c) s = .next t ∧
      t.time.now = max s.time.now u ∧ port t lp = { p with pauseUntil := p.pauseUntil.set c.toNat none } ∧ t.obj = s.obj)

/-- ACK_DELAY_EXPIRY, RETRANSMIT_TIMEOUT, CONTEXT_IDLE_EXPIRY and RULE_READ_DONE (R34 to R39, R74): an ACK of the
cumulative PSN goes by the context's port; the oldest unacknowledged PSN goes once more, marked, by its egress queue; the
second time its context fails and is counted, but not by an expiry that comes with the NAK that has just had it
retransmitted; an idle context is freed. Of contexts toward one endpoint from several sources, the first deadline counts.
The reads of a waiting frame return, and it goes on. That the commands move time to their deadlines, and that a
retransmission takes its place in a queue, are the model's readings (log entries 2 and 42). -/
def Obligations.TransportTimersActAtTheirDeadlines : Prop :=
  (∀ (s : State) (ep : BitVec 24) (c : RxCtx) (u : Nat), on s = true → rxOf s ep = some c → c.ackDue = some u →
    (pickHead s true).isSome = true → (∀ q ∈ s.tm.queues, q.lp = c.lp → q.cls = 7 → q.spillMode = false) →
    ∃ t, exec (.ackDelayExpiry ep) s = .next t ∧ t.time.now = max s.time.now u ∧
      rxOf t ep = some { c with lastAck := ackedOf c, ackDue := none, gapClosed := false, lastEvent := t.time.now } ∧
      ∃ q ∈ t.tm.queues, q.lp = c.lp ∧ q.cls = 7 ∧ ∃ o ∈ q.outs, o.hdr.typ = 5 ∧ o.hdr.psn = ackedOf c ∧ o.hdr.dst = ep) ∧
  (∀ (s : State) (ep : BitVec 24) (k : Nat) (c : TxCtx) (u : Nat) (x : Sent) (rest : List Sent), on s = true → s.scree.scans = [] →
    firstCtx (fun c => if c.sent.isEmpty then none else c.due) ep s.xport.tx = some (k, c, u) → c.sent = x :: rest →
    let due : Option Nat := some (max s.time.now u + 180 * obj s 0x1011 1)
    (x.retx = false → ∃ t, exec (.retransmitTimeout ep) s = .next t ∧ t.time.now = max s.time.now u ∧ t.ropes = s.ropes ∧
      txAt t k = some { c with sent := { x with retx := true, retxAt := some t.time.now } :: rest, due := due
                               lastEvent := t.time.now } ∧
      (keptWhole s x = true → Roomy s x.out.lp x.out.hdr.cls.toNat (queueTid x.out) → ∃ q ∈ t.tm.queues,
        q.lp = x.out.lp ∧ q.cls = x.out.hdr.cls.toNat ∧ ∃ o ∈ q.outs,
          o.hdr.psn = x.psn ∧ o.hdr.retx = true ∧ o.payload = x.out.payload)) ∧
    (x.retx = true → x.retxAt = some (max s.time.now u) → ∃ t, exec (.retransmitTimeout ep) s = .next t ∧
      txAt t k = some { c with due := due } ∧ t.tm = s.tm ∧ t.obj = s.obj) ∧
    (x.retx = true → x.retxAt ≠ some (max s.time.now u) → ∃ t, exec (.retransmitTimeout ep) s = .next t ∧
      t.time.now = max s.time.now u ∧ txAt t k = none ∧ obj t 0x1011 6 = (obj s 0x1011 6 + 1) % 2 ^ 64 ∧ t.ropes = s.ropes)) ∧
  (∀ (s : State) (ep : BitVec 24),
    (∀ c, rxOf s ep = some c → c.lastAck = c.cum → c.got = [] → ∃ t, exec (.contextIdleExpiry true ep) s = .next t ∧
      t.time.now = max s.time.now (c.lastEvent + 9000000000) ∧ rxOf t ep = none ∧ t.obj = s.obj ∧ t.xport.tx = s.xport.tx) ∧
    (∀ k c u, firstCtx (fun c => if c.sent.isEmpty then some c.lastEvent else none) ep s.xport.tx = some (k, c, u) →
      ∃ t, exec (.contextIdleExpiry false ep) s = .next t ∧
      t.time.now = max s.time.now (u + 9000000000) ∧ txAt t k = none ∧ t.obj = s.obj ∧ t.xport.rx = s.xport.rx)) ∧
  ∀ (s : State) (w : RuleWait), on s = true → s.col.waiting = [w] → (∀ k ∈ w.misses, probeWaits s k = false) →
    (∀ q, (rope s q).st ≠ .waiting .hold) → ∃ t, exec (.ruleReadDone w.frame) s = .next t ∧ t.col.waiting = [] ∧
    t.ropes = s.ropes ∧ t.time = s.time
/-! ### Tables, versions, time and the Itinerary -/

/-- INSERT, DELETE, SEARCH, NEXT, FLUSH_PORT, AGE_SWEEP and LEARN_REQUEST (R77, R91 to R93, R101, R102, R106): the
engine's next command ends with a status. On the endpoint table INSERT rewrites the key's entry, takes its first free slot, or
displaces entries along a chain of at most four moves, each to the other bucket of its key; DELETE and FLUSH_PORT free entries;
SEARCH and NEXT return one without setting HIT. On the rule table INSERT and DELETE act on the staging version, and are refused
where there is none or it is live: INSERT adds an entry from that version on, which takes a slot as on the endpoint table, and
ends the entry valid before; DELETE removes an entry of that version and ends any other; both drop the key from the cache.
Learning adds a station, or moves one that is not static and came by another port. An INSERT for a port that the mode does not
have is unsupported. The stop on unsupported use, and that an INSERT ends the older entry, are the model's readings (log entry
25). -/
def Obligations.EndpointCommandsChangeTheirSlots : Prop :=
  (∀ (s : State) (n : Nat) (rest : List Nat), on s = true → s.tbl.engineQ = n :: rest →
    let b := blockOf s n
    let k := (b.key.extractLsb' 0 36).toNat
    let lp := (b.arg.extractLsb' 0 9).toNat
    let e := epEntry true (b.arg.getLsbD 9) k lp
    let runs (i : Instr) (op : Nat) (st : Nat) (f : State → Prop) : Prop := b.goOp = op → ∃ t, exec i s = .next t ∧
      (blockOf t n).status = st ∧ t.tbl.engineQ = rest ∧ (b.by_ = none → t.ropes = s.ropes) ∧ t.hbm = s.hbm ∧
      (∀ r, b.by_ = some r → (∀ d m u, (rope s r).st ≠ .waiting (.event d m u)) →
        rope t r = { rope s r with pending := (rope s r).pending ||| 1#64 <<< 58 }) ∧ f t
    let only (p : Nat × Nat) (v : BitVec 64) (t : State) : Prop :=
      ∀ q : Nat × Nat, q.2 < 4 → epSlot t q = if q = p then v else epSlot s q
    let same (t : State) : Prop := t.tbl.ep = s.tbl.ep
    let chain (t : State) : Prop := ∃ ps : List (Nat × Nat), ps.length ≤ 5 ∧
      (∃ p, ps.head? = some p ∧ p ∈ candSlots (epHash s k) ∧ epSlot t p = e) ∧
      (∃ p, ps.getLast? = some p ∧ eValid (epSlot s p) = false) ∧
      (∀ i p q, ps[i]? = some p → ps[i + 1]? = some q → eValid (epSlot s p) = true ∧ q.2 < 4 ∧
        q.1 = otherBucket (epHash s (eKey (epSlot s p))) p.1 ∧ epSlot t q = epSlot s p) ∧
      (∀ q : Nat × Nat, q.2 < 4 → q ∉ ps → epSlot t q = epSlot s q) ∧
      obj t 0x4800 0x0B = (obj s 0x4800 0x0B + (ps.length - 1)) % 2 ^ 32
    b.goTable = 0 →
    (b.goOp = 1 → lpDefined s lp = false → exec .insert s = .fault (.unsupported 106)) ∧
    (lpDefined s lp = true →
      (∀ p, epFind s k = some p → runs .insert 1 0 (only p e)) ∧
      (∀ p, epFind s k = none → (candSlots (epHash s k)).find? (fun q => !eValid (epSlot s q)) = some p →
        runs .insert 1 0 (only p e)) ∧
      (epFind s k = none → (epInsert s e).isSome = true → runs .insert 1 0 chain) ∧
      (epFind s k = none → epInsert s e = none → runs .insert 1 2 same)) ∧
    (∀ p, epFind s k = some p → runs .deleteEntry 2 0 (only p 0)) ∧
    (epFind s k = none → runs .deleteEntry 2 1 same) ∧
    (∀ p, epFind s k = some p → runs .search 3 0 (fun t => same t ∧ (blockOf t n).outEntry = epSlot s p)) ∧
    (epFind s k = none → runs .search 3 1 same) ∧
    (∀ x, (epAll s).find? (fun x => decide (b.cursor ≤ 4 * x.1 + x.2.1)) = some x → runs .nextSlot 4 0 (fun t => same t ∧
      (blockOf t n).outEntry = x.2.2 ∧ (blockOf t n).cursor = 4 * x.1 + x.2.1 + 1)) ∧
    ((∀ x ∈ epAll s, 4 * x.1 + x.2.1 < b.cursor) → runs .nextSlot 4 9 same) ∧
    (keysRise s.tbl.ep = true → runs (.flushPort []) 5 0 (fun t => ∀ q : Nat × Nat, q.2 < 4 →
      epSlot t q = if flushes b.arg (epSlot s q) then 0 else epSlot s q)) ∧
    runs .ageSweep 6 (if s.tbl.sweep.isSome then 6 else 0) (fun t => same t ∧ t.tbl.sweep = some (s.tbl.sweep.getD 0))) ∧
  (∀ (s : State) (n : Nat) (rest : List Nat), on s = true → s.tbl.engineQ = n :: rest →
    let b := blockOf s n
    let v := b.target
    let es := ruleFind s b.key
    let new : RuleEntry := { key := b.key, first := v, valid := true, result := slice b.result 0 32 }
    let runs (i : Instr) (op : Nat) (st : Nat) (f : State → Prop) : Prop := b.goOp = op → ∃ t, exec i s = .next t ∧
      (blockOf t n).status = st ∧ t.tbl.engineQ = rest ∧ t.tbl.ep = s.tbl.ep ∧ f t
    let same (t : State) : Prop := t.hbm = s.hbm
    let slots (f : Nat × Nat → RuleEntry) (t : State) : Prop :=
      (∀ q : Nat × Nat, q.1 < 2 ^ 20 → q.2 < 4 → ruleSlot t q = f q) ∧ ∀ l ∈ t.col.cache, l.key ≠ b.key
    let shows (x : RuleEntry) (t : State) : Prop := (blockOf t n).outEntry = x.key ∧
      (blockOf t n).outVersions = x.first ++ x.last ∧ (blockOf t n).result = slice x.result 0 32
    let chain (t : State) : Prop := ∃ ps : List (Nat × Nat), ps.length ≤ 5 ∧
      (∃ p, ps.head? = some p ∧ p ∈ candSlots (ruleHash s b.key) ∧ ruleSlot t p = new) ∧
      (∃ p, ps.getLast? = some p ∧ (ruleSlot s p).valid = false) ∧
      (∀ i p q, ps[i]? = some p → ps[i + 1]? = some q → (ruleSlot s p).valid = true ∧ q.2 < 4 ∧
        q.1 = otherBucket (ruleHash s (ruleSlot s p).key) p.1 ∧ ruleSlot t q = ruleSlot s p) ∧
      (∀ q : Nat × Nat, q.1 < 2 ^ 20 → q.2 < 4 → q ∉ ps → ruleSlot t q = ruleSlot s q) ∧
      (∀ l ∈ t.col.cache, l.key ≠ b.key) ∧ obj t 0x4801 7 = (obj s 0x4801 7 + (ps.length - 1)) % 2 ^ 32
    b.goTable = 1 → (∀ e ∈ s.hbm.pch, e.2.deferred = []) → s.hbm.media = [] → s.hbm.test = none → s.hbm.rebuild = none →
    s.hbm.ruleBaseA + 2 ^ 28 ≤ s.hbm.ruleBaseB →
    (v = 0 ∨ v ≠ s.col.ver.staging → let st := if v ≠ 0 ∧ verLe v s.col.ver.current = true then 5 else 4
      runs .insert 1 st same ∧ runs .deleteEntry 2 st same) ∧
    (v ≠ 0 → v = s.col.ver.staging →
      ((∃ x ∈ es, x.2.first = v) → runs .insert 1 3 same) ∧
      ((∀ x ∈ es, x.2.first ≠ v) → 3 ≤ es.length → runs .insert 1 8 same) ∧
      ((∀ x ∈ es, x.2.first ≠ v ∧ validFor x.2 v = false) → es.length < 3 →
        ((ruleInsert s new).isSome = true → runs .insert 1 0 chain) ∧
        (ruleInsert s new = none → runs .insert 1 2 (fun t => same t ∧ obj t 0x4801 5 = (obj s 0x4801 5 + 1) % 2 ^ 64))) ∧
      (∀ p x f, es = [(p, x)] → x.first ≠ v → validFor x v = true →
        (candSlots (ruleHash s b.key)).find? (fun q => !(ruleSlot s q).valid) = some f →
        runs .insert 1 0 (slots (fun q => if q = f then new else if q = p then { x with last := v } else ruleSlot s q))) ∧
      (∀ p x, es.find? (fun e => validFor e.2 v) = some (p, x) → runs .deleteEntry 2 0 (slots (fun q =>
        if q = p then (if x.first = v then emptyRule else { x with last := v }) else ruleSlot s q))) ∧
      (es.find? (fun e => validFor e.2 v) = none → runs .deleteEntry 2 1 same)) ∧
    (∀ x, es.find? (fun e => validFor e.2 b.version) = some x → runs .search 3 0 (fun t => same t ∧ shows x.2 t)) ∧
    (es.find? (fun e => validFor e.2 b.version) = none → runs .search 3 1 same) ∧
    (∀ x, (ruleAll s).find? (fun e => decide (b.cursor ≤ 4 * e.1.1 + e.1.2)) = some x → runs .nextSlot 4 0 (fun t => same t ∧
      shows x.2 t ∧ (blockOf t n).cursor = 4 * x.1.1 + x.1.2 + 1)) ∧
    ((∀ x ∈ ruleAll s, 4 * x.1.1 + x.1.2 < b.cursor) → runs .nextSlot 4 9 (fun t => same t ∧ (blockOf t n).cursor = b.cursor)) ∧
    runs (.flushPort []) 5 7 same ∧ runs .ageSweep 6 7 same) ∧
  ∀ (s : State) (q : LearnReq) (rest : List LearnReq), on s = true → s.col.learnQ = q :: rest → q.lp < 512 →
    let k := epKey q.tid q.ep
    (∀ p, epFind s k = some p → ∃ t, exec .learnRequest s = .next t ∧ t.col.learnQ = rest ∧ t.ropes = s.ropes ∧
      (eStatic (epSlot s p) = true ∨ eLp (epSlot s p) = q.lp → t.tbl = s.tbl) ∧
      (eStatic (epSlot s p) = false → eLp (epSlot s p) ≠ q.lp → eValid (epSlot t p) = true ∧ eKey (epSlot t p) = k ∧
        eLp (epSlot t p) = q.lp ∧ eStatic (epSlot t p) = false ∧ eHit (epSlot t p) = eHit (epSlot s p) ∧
        obj t 0x4800 8 = (obj s 0x4800 8 + 1) % 2 ^ 64)) ∧
    (∀ p, epFind s k = none → (candSlots (epHash s k)).find? (fun q => !eValid (epSlot s q)) = some p →
      ∃ t, exec .learnRequest s = .next t ∧ t.col.learnQ = rest ∧ t.ropes = s.ropes ∧
        epSlot t p = epEntry true false k q.lp)

/-- AGE_SWEEP_TIMER, AGE_SWEEP_BUCKET, AGE_INTERVAL_WRITE, SHADOW_CTL_WRITE, SHADOW_BUCKET and SHADOW_RECHECK (R95,
R96, R103, R104). A sweep clears HIT where it is set or the entry is static, and frees the others, in one word by
compare-and-swap, which fails when the word has changed or another atomic access has come between. A difference from the shadow that persists is
counted, and with REPAIR mended unless another access intervenes, under the ShadowCtl value its bucket was visited
under; a rule bucket is passed while a walk runs (R399). -/
def Obligations.SweepsAgeAndShadowsCompare : Prop :=
  (∀ (s : State) (u : Nat), on s = true → s.tbl.sweepNext = some u → ∃ t, exec .ageSweepTimer s = .next t ∧
    t.time.now = max s.time.now u ∧ t.tbl.sweepNext = some (u + 90000000 * obj s 0x4800 5) ∧
    t.tbl.sweep = some (s.tbl.sweep.getD 0) ∧ t.tbl.ep = s.tbl.ep) ∧
  (∀ (s : State) (b : Nat), on s = true → s.tbl.sweep = some b →
    let next : Option Nat := if b + 1 < 131072 then some (b + 1) else none
    let free (w : BitVec 256) (i : Nat) : Bool :=
      eValid (slotOf w i) && !eStatic (slotOf w i) && !eHit (slotOf w i)
    let swept (t : State) (w : BitVec 256) : Prop := t.tbl.sweep = next ∧ t.tbl.sweepCas = none ∧ t.tbl.sweepTouched = false ∧
      (∀ c, c ≠ b → epWord t c = epWord s c) ∧
      (∀ i, i < 4 → slotOf (epWord t b) i = if free w i then (0 : BitVec 64)
        else if eValid (slotOf w i) then slotOf w i &&& ~~~(1#64 <<< 62) else slotOf w i) ∧
      obj t 0x4800 6 = (obj s 0x4800 6 + ((List.range 4).filter (free w)).length) % 2 ^ 64
    (s.tbl.sweepCas = none →
      exec (.ageSweepBucket true) s = .next { s with tbl := { s.tbl with sweepCas := some (epWord s b) } } ∧
      (s.tbl.sweepTouched = false →
        ∃ t, exec (.ageSweepBucket false) s = .next t ∧ t.ropes = s.ropes ∧ swept t (epWord s b))) ∧
    ∀ w split, s.tbl.sweepCas = some w → ∃ t, exec (.ageSweepBucket split) s = .next t ∧ t.ropes = s.ropes ∧
      (epWord s b = w → s.tbl.sweepTouched = false → swept t w) ∧
      (epWord s b ≠ w ∨ s.tbl.sweepTouched = true → t.tbl.ep = s.tbl.ep ∧ t.tbl.sweep = next ∧ obj t 0x4800 7 = (obj s 0x4800 7 + 1) % 2 ^ 64)) ∧
  (∀ (s : State) (v : BitVec 32), Served s 0x4800 → ∃ t, exec (.ageIntervalWrite v) s = .next t ∧ t.answer = .ok [] ∧
    obj t 0x4800 5 = v.toNat ∧ t.tbl.sweepNext = (if v = 0 then none else some (s.time.now + 90000000 * v.toNat))) ∧
  (∀ (s : State) (v : BitVec 8), Served s 0x4820 →
    (v.extractLsb' 0 2 = 0 → ∃ t, exec (.shadowCtlWrite v) s = .next t ∧ t.answer = .ok [] ∧ obj t 0x4820 1 = v.toNat % 16 ∧
      t.tbl.shadow = { diffs := s.tbl.shadow.diffs }) ∧
    (v.extractLsb' 0 2 ≠ 0 → maintTest s 0 (v.toNat % 16) = none → ∃ t, exec (.shadowCtlWrite v) s = .next t ∧ t.answer = .ok [] ∧
      obj t 0x4820 1 = v.toNat % 16 ∧ t.tbl.shadow.diffs = s.tbl.shadow.diffs ∧ obj t 0x8000 5 = (obj s 0x8000 5 + 1) % 2 ^ 64) ∧
    (∀ k, v.extractLsb' 0 2 ≠ 0 → maintTest s 0 (v.toNat % 16) = some k → ∃ t, exec (.shadowCtlWrite v) s = .next t ∧
      t.answer = .abort 7 k ∧ obj t 0x4820 1 = obj s 0x4820 1 ∧ obj t 0x8000 4 = (obj s 0x8000 4 + 1) % 2 ^ 64)) ∧
  (∀ s : State, on s = true → obj s 0x4820 1 % 4 ≠ 0 → (∀ e ∈ s.hbm.pch, e.2.deferred = []) → s.hbm.media = [] →
    ∃ t, exec .shadowBucket s = .next t ∧
    t.time.now = max s.time.now s.tbl.shadow.nextAt ∧ t.tbl.shadow.nextAt = t.time.now + 90 * obj s 0x4820 4 ∧
    t.tbl.ep = s.tbl.ep ∧ t.hbm = s.hbm ∧ (∀ d ∈ s.tbl.shadow.diffs, d ∈ t.tbl.shadow.diffs)) ∧
  ∀ (s : State) (d : ShadowDiff) (rest : List ShadowDiff) (raced : Bool), on s = true →
    s.tbl.shadow.diffs = d :: rest → (∀ e ∈ s.hbm.pch, e.2.deferred = []) → s.hbm.media = [] → ∃ t, exec (.shadowRecheck raced) s = .next t ∧
      t.time.now = max s.time.now d.due ∧ t.tbl.shadow.diffs = rest ∧
      let m := if d.rule = true ∧ s.col.ver.walk.isSome = true then 0 else shadowDiff s d.ctl d.rule d.bucket
      (m = 0 → t.tbl.ep = s.tbl.ep ∧ t.obj = s.obj) ∧
      (m ≠ 0 → obj t 0x4820 6 = (obj s 0x4820 6 + 1) % 2 ^ 64 ∧
        (d.ctl / 8 % 2 = 0 ∨ raced = true → t.tbl.ep = s.tbl.ep) ∧
        (d.ctl / 8 % 2 = 1 → raced = false → obj t 0x4820 7 = (obj s 0x4820 7 + 1) % 2 ^ 64 ∧
          (d.rule = false → epWord t d.bucket =
            BitVec.ofNat 256 (ofLE (hbmRead s (obj s 0x4820 2 + 32 * d.bucket) 32)))))

/-- STAGE_OPEN, STAGE_DISCARD, VERSION_RETIRED, RECLAIM_WALK_DONE and VERSION_COMMIT (R78 to R84, R349, R350): a
staging version is the one after CURRENT; a commit makes it CURRENT and the old one DRAINING, and waits while one
drains; a version retires when no frame is in flight under it, also at the instant of a commit and then before it, which
lets a waiting commit take effect, and a walk starts. A commit takes effect at the FT of its event, and a waiting one at the
retirement; one that finds a version STAGING is tested as a start of class 7, and where another waits it joins it (R397). -/
def Obligations.VersionsStageCommitAndRetire : Prop :=
  ∀ s : State,
    let v := s.col.ver
    let walks (w : VerSt) (discard : Bool) : VerSt :=
      if w.walk.isSome then { w with walkQ := w.walkQ ++ [discard] } else { w with walk := some discard }
    let commits (w : VerSt) : VerSt := { w with draining := w.current, current := w.staging, staging := 0, waiting := none }
    (Served s 0x1021 →
      (v.staging = 0 → v.discarding = 0 → ∃ t, exec .stageOpen s = .next t ∧ t.answer = .ok [] ∧
        t.col.ver = { v with staging := if v.current = 0xFFFF then 1 else v.current + 1 }) ∧
      (v.staging ≠ 0 ∨ v.discarding ≠ 0 → ∃ t, exec .stageOpen s = .next t ∧ t.answer = .abort 6 0 ∧ t.col = s.col) ∧
      (v.staging = 0 → ∃ t, exec .stageDiscard s = .next t ∧ t.answer = .abort 6 0 ∧ t.col = s.col) ∧
      (∀ k, v.staging ≠ 0 → maintTest s 7 (obj s 0x4820 1) = some k → ∃ t, exec .stageDiscard s = .next t ∧
        t.answer = .abort 7 k ∧ t.col = s.col) ∧
      (v.staging ≠ 0 → maintTest s 7 (obj s 0x4820 1) = none → ∃ t, exec .stageDiscard s = .next t ∧ t.answer = .ok [] ∧
        t.col.ver = walks { v with discarding := v.staging, staging := 0, waiting := none } true)) ∧
    let retires := v.draining ≠ 0 ∧ inFlightOf s v.draining = 0
    let retired := walks (if v.waiting.isSome then commits { v with draining := 0 } else { v with draining := 0 }) false
    (on s = true → retires → ∃ t, exec .versionRetired s = .next t ∧ t.ropes = s.ropes ∧ t.frames = s.frames ∧ t.col.ver = retired ∧
      ∀ u, v.waiting = some u → obj t 0x1021 0x0C = ft s ∧ obj t 0x1021 0x0D = (ft s - u) % 2 ^ 32 ∧
        obj t 0x1021 9 = (obj s 0x1021 9 + 1) % 2 ^ 64) ∧
    (¬retires → exec .versionRetired s = .next s) ∧
    (∀ d, on s = true → v.walk = some d → ∃ t, exec .reclaimWalkDone s = .next t ∧ t.ropes = s.ropes ∧ t.tbl = s.tbl ∧
      t.col.ver = { v with discarding := if d then 0 else v.discarding, walk := v.walkQ.head?, walkQ := v.walkQ.tail }) ∧
    ∀ e, nextEvent s 1 = some e →
      let y := settleTime (advanceToFt s e.ft)
      y.time.state ≠ 1 → y.time.state ≠ 4 →
      let runs (f : State → Prop) : Prop := ∃ t, exec .versionCommit s = .next t ∧ t.time = y.time ∧ t.ropes = s.ropes ∧
        t.plan.next = s.plan.next + 1 ∧ obj t 0x6801 3 = (obj s 0x6801 3 + 1) % 2 ^ 64 ∧ f t
      let want := e.arg0 % 65536
      let v := if v.draining ≠ 0 ∧ inFlightOf s v.draining = 0 then retired else v
      let test := maintTest y 7 (obj s 0x4820 1)
      (v.staging ≠ 0 → want ≠ 0 → want ≠ v.staging.toNat → runs (fun t => t.col.ver = v ∧
        obj t 0x6801 7 = (obj s 0x6801 7 + 1) % 2 ^ 64)) ∧
      (v.staging = 0 → runs (fun t => t.col.ver = v ∧ obj t 0x1021 0x0A = (obj s 0x1021 0x0A + 1) % 2 ^ 64)) ∧
      (v.staging ≠ 0 → want = 0 ∨ want = v.staging.toNat →
        (∀ k, test = some k → runs (fun t => t.col.ver = v ∧ obj t 0x1021 0x0B = (obj s 0x1021 0x0B + 1) % 2 ^ 64)) ∧
        (test = none → v.waiting.isSome = true → runs (fun t => t.col.ver = v ∧
          obj t 0x1021 0x0F = (obj s 0x1021 0x0F + 1) % 2 ^ 64)) ∧
        (test = none → v.waiting = none → v.draining = 0 → runs (fun t => t.col.ver = commits v ∧ obj t 0x1021 0x0C = e.ft)) ∧
        (test = none → v.waiting = none → v.draining ≠ 0 → runs (fun t => t.col.ver = { v with waiting := some e.ft })))

/-- PPS_EDGE, TOD_SENTENCE, PTP_MESSAGE, TIME_SOURCE_LOST, HOLDOVER_EXPIRY and TIME_SOURCE_WRITE (R343 to R347): a
measurement is the difference from the source; the first since LOST, and one of StepLimit or more, steps FT, any other
slews it; the fourth good one in a row locks. A TOD sentence that is no good, or that no edge has followed within 900 ms
when the next one comes, is counted; the latter is the model's reading (log entry 108). A PTP Sync of the best master is answered with a Delay_Req, and the Delay_Resp
completes the measurement. A lost source takes LOCKED to HOLDOVER, which lasts HoldoverLimit, and
ACQUIRING to LOST. An event of the Itinerary that a step passes fires in it, late. That a newer measurement takes the place
of a slew, and the PTP messages, are the model's readings (log entries 54 and 55). -/
def Obligations.FabricTimeFollowsItsSource : Prop :=
  ∀ s : State,
    let tm := s.time
    let stepped (d : Int) : State := { s with time := { tm with ftOrigin := tm.ftOrigin - 90 * d } }
    let clear (d : Int) : Prop := settleTime s = s ∧
      ∀ e, s.plan.events[s.plan.next]? = some e → ft s < e.ft ∧ ft (stepped d) < e.ft
    let measured (t : State) (d : Int) : Prop :=
      let run := if d.natAbs ≤ 100 then tm.goodRun + 1 else 0
      let step := (obj s 0x6800 3 : Int) ≤ d.natAbs ∨ tm.firstSinceLost = true
      t.time.now = tm.now ∧ t.time.state = (if 4 ≤ run then 2 else 1) ∧ t.time.goodRun = run ∧
      t.time.firstSinceLost = false ∧ t.time.lastMeas = some tm.now ∧ t.time.holdoverAt = none ∧ t.time.rate = 0 ∧
      obj t 0x6800 7 = (BitVec.ofInt 64 d).toNat ∧
      (step → t.time.ftOrigin = tm.ftOrigin - 90 * d ∧ t.time.slewLeft = 0 ∧
        obj t 0x6800 8 = (obj s 0x6800 8 + 1) % 2 ^ 64) ∧
      (¬step → t.time.ftOrigin = tm.ftOrigin ∧ t.time.slewLeft = -(90 * d))
    (started s = true → obj s 0x6800 1 = 1 →
      (∀ e v a, tm.tod = some (v, a) →
        (900000000 ≤ tm.now - a → tm.now - a ≤ 81000000000 → -2 ≤ e → e ≤ 2 →
          let d := (ft s : Int) + e - v * 1000000000
          (clear d → ∃ t, exec (.ppsEdge e) s = .next t ∧ t.ropes = s.ropes ∧ t.time.tod = none ∧ measured t d) ∧
          ∀ m, on s = true → s.sys.phase = .run → tm.firstSinceLost = true → s.plan.events.drop s.plan.next = [m] → m.typ = 4 → m.gated = false →
            ft s < m.ft → m.ft < ft (stepped d) → ∃ t, exec (.ppsEdge e) s = .next t ∧ t.plan.next = s.plan.next + 1 ∧
              obj t 0x6801 3 = (obj s 0x6801 3 + 1) % 2 ^ 64 ∧ obj t 0x6801 6 = (obj s 0x6801 6 + 1) % 2 ^ 64) ∧
        (tm.now - a < 900000000 ∨ 81000000000 < tm.now - a → ∃ t, exec (.ppsEdge e) s = .next t ∧
          t.time = { tm with tod := none } ∧ obj t 0x6800 0x0A = (obj s 0x6800 0x0A + 1) % 2 ^ 64)) ∧
      (∀ bs (late : Nat), late = (if tm.tod.any (fun e => decide (e.2 + 81000000000 < tm.now)) then 1 else 0) →
        (∀ v, todValid bs = some v → ∃ t, exec (.todSentence bs) s = .next t ∧ t.time = { tm with tod := some (v, tm.now) } ∧
          (late = 0 → t.obj = s.obj) ∧ (late = 1 → obj t 0x6800 0x0A = (obj s 0x6800 0x0A + 1) % 2 ^ 64)) ∧
        (todValid bs = none → ∃ t, exec (.todSentence bs) s = .next t ∧ t.time = { tm with tod := none } ∧
          (late = 0 → obj t 0x6800 0x0A = (obj s 0x6800 0x0A + 1) % 2 ^ 64))) ∧
      (∀ u, tm.state = 2 → tm.lastMeas = some u → ∃ t, exec .timeSourceLost s = .next t ∧
        t.time.now = max tm.now (u + 135000000000) ∧ t.time.state = 3 ∧ t.time.holdoverAt = some t.time.now)) ∧
    (started s = true → obj s 0x6800 1 = 2 → tm.state = 1 → (∀ u, lossDue s = some u → u ≤ tm.now) →
      ∃ t, exec .timeSourceLost s = .next t ∧
        t.time = { tm with state := 4, goodRun := 0, firstSinceLost := true, holdoverAt := none }) ∧
    (∀ q rest (k : Nat), on s = true → tm.ptpQ = q :: rest →
      let took : State := { s with time := { tm with ptpQ := rest } }
      let sent := (beAt q.bytes 34 6 * 1000000000 + beAt q.bytes 40 4) * 65536
      (obj s 0x6800 1 ≠ 2 ∨ ptpHears s q = false → exec (.ptpMessage k) s = .next took) ∧
      (obj s 0x6800 1 = 2 → ptpHears s q = true →
        (ptpType q = 11 → beAt q.bytes 61 2 < 255 → ∃ t m, exec (.ptpMessage k) s = .next t ∧ t.out = s.out ∧
          t.time.ptp.masters = m :: tm.ptp.masters.filter (fun x => x.id != beAt q.bytes 20 10) ∧
          m.id = beAt q.bytes 20 10 ∧ m.rank = beAt q.bytes 47 16 ∧ m.at_ = tm.now) ∧
        (ptpType q ≠ 11 → fromParent s q = false → exec (.ptpMessage k) s = .next took) ∧
        (fromParent s q = true → ptpType q = 0 → beAt q.bytes 6 1 % 4 < 2 → active s (obj s 0x6800 5) = true →
          ∃ t, exec (.ptpMessage k) s = .next t ∧ t.ropes = s.ropes ∧
            t.out = .frame (obj s 0x6800 5) (delayFrame s (obj s 0x6800 5) tm.ptp.nextSeq) :: s.out ∧
            t.time.ptp.ask = some { seq := tm.ptp.nextSeq, t3 := ft s + k, way := (q.ft : Int) * 65536 - (sent + ptpCorr q) }) ∧
        ∀ a, fromParent s q = true → ptpType q = 9 → tm.ptp.ask = some a → ptpAnswers s a q = true →
          let d := (a.way - ((sent : Int) - ptpCorr q - (a.t3 : Int) * 65536)) / 131072
          clear d → ∃ t, exec (.ptpMessage k) s = .next t ∧ t.time.ptpQ = rest ∧ t.time.ptp.ask = none ∧ t.ropes = s.ropes ∧
            measured t d)) ∧
    (∀ u, started s = true → tm.state = 3 → tm.holdoverAt = some u → ∃ t, exec .holdoverExpiry s = .next t ∧
      t.time.now = max tm.now (u + 90000000 * obj s 0x6800 4) ∧ t.time.state = 4 ∧ t.time.firstSinceLost = true ∧
      t.time.holdoverAt = none) ∧
    ∀ v : BitVec 8, Served s 0x6800 →
      (v.toNat ≤ 2 → ∃ t, exec (.timeSourceWrite v) s = .next t ∧ t.answer = .ok [] ∧ obj t 0x6800 1 = v.toNat ∧
        t.time = { tm with state := if v = 0 then 0 else 4, goodRun := 0, firstSinceLost := true, holdoverAt := none
                           tod := none, lastMeas := none, ptp := {} }) ∧
      (2 < v.toNat → ∃ t, exec (.timeSourceWrite v) s = .next t ∧ t.answer = .abort 5 0 ∧ t.time = tm)

/-- DICT_WRITE, TASK_SIGNAL, MARK and PLAN_APPLY (R216, R223, R349 to R353): the next event fires when FT reaches it, is
counted, and the list moves on; a write acts on the object it names, or is refused and counted; a signal lowers a slot's
counter, readies one that waits and wins over a timeout of the same tick, is refused for a cluster that does not exist, and is
counted for a slot that is free; a mark is recorded. While FT is ACQUIRING or LOST a gated event is skipped and counted. PLAN_APPLY puts the sections of a valid plan into force, or
names the first byte that is wrong; in Bivouac it is not answered. The order of the checks of an image, and that
events are held while in Bivouac, are the model's readings (log entries 57 and 87). -/
def Obligations.ItineraryEventsFire : Prop :=
  (∀ (s : State) (e : ItinEvent) (i : Instr) (n : Nat), (i, n) ∈ [(Instr.dictWrite, 2), (.taskSignal, 3), (.markEvent, 4)] →
    nextEvent s n = some e → let u := settleTime (advanceToFt s e.ft)
    skipped u e = true → ∃ t, exec i s = .next t ∧ t.plan.next = s.plan.next + 1 ∧ t.time = u.time ∧ t.ropes = s.ropes ∧
      t.clusters = s.clusters ∧ t.col = s.col ∧ obj t 0x6801 4 = (obj s 0x6801 4 + 1) % 2 ^ 64) ∧
  (∀ (s : State) (e : ItinEvent), let u := settleTime (advanceToFt s e.ft)
    skipped u e = false →
    (∀ sub r, nextEvent s 2 = some e → e.arg0 / 256 % 65536 = 0x4000 → e.arg0 % 256 = sub →
      rowOf s.sys 0x4000 sub = .ok r → scalar r.ty = true → r.acc = .rws →
      let v := e.arg1 % 256 ^ r.ty.width
      (allowed r v = true → ∃ t, exec .dictWrite s = .next t ∧ t.plan.next = s.plan.next + 1 ∧ obj t 0x4000 sub = v ∧
        t.time = u.time ∧
        obj t 0x6801 3 = (obj s 0x6801 3 + 1) % 2 ^ 64) ∧
      (allowed r v = false → ∃ t, exec .dictWrite s = .next t ∧ t.plan.next = s.plan.next + 1 ∧
        obj t 0x4000 sub = obj s 0x4000 sub ∧ obj t 0x6801 5 = (obj s 0x6801 5 + 1) % 2 ^ 64)) ∧
    (nextEvent s 3 = some e →
      let c := e.arg0 / 65536 % 16
      let k := e.arg0 % 4096
      let y := slot s c k
      let low := y.counter ≤ e.arg1 % 65536
      ∃ t, exec .taskSignal s = .next t ∧ t.plan.next = s.plan.next + 1 ∧ t.ropes = s.ropes ∧ t.time = u.time ∧
        obj t 0x6801 3 = (obj s 0x6801 3 + 1) % 2 ^ 64 ∧
        (clusters s ≤ c → t.clusters = s.clusters ∧ obj t 0x6801 5 = (obj s 0x6801 5 + 1) % 2 ^ 64) ∧
        (c < clusters s → y.state = .free → t.clusters = s.clusters ∧
          obj t (0x4050 + c) 0x0D = (obj s (0x4050 + c) 0x0D + 1) % 2 ^ 64) ∧
        (c < clusters s → y.state ≠ .free → slot t c k =
          if y.state = .wait ∧ low then { y with counter := 0, state := .ready, reason := 0, rope := none, due := none, timedOut := none }
          else if y.state = .ready ∧ low ∧ y.timedOut = some (ft u / 1000) then { y with counter := 0, reason := 0, timedOut := none }
          else { y with counter := y.counter - e.arg1 % 65536 })) ∧
    (nextEvent s 4 = some e → ∃ t, exec .markEvent s = .next t ∧ t.plan.next = s.plan.next + 1 ∧ t.ropes = s.ropes ∧ t.time = u.time ∧
      t.clusters = s.clusters ∧ obj t 0x6801 3 = (obj s 0x6801 3 + 1) % 2 ^ 64)) ∧
  ∀ s : State, canUp s = true →
    (∀ k, withheld s 0x6810 = some k → ∃ t, exec .planApply s = .next t ∧ t.answer = .abort 0x0D k ∧ t.plan = s.plan ∧
      obj t 0x0200 7 = (obj s 0x0200 7 + 1) % 2 ^ 64) ∧
    (withheld s 0x6810 = none → closedImage s (key 0x6810 1) = none → ∃ t, exec .planApply s = .next t ∧
      t.answer = .abort 6 0 ∧ t.plan = s.plan ∧ t.tm = s.tm) ∧
    (∀ x, withheld s 0x6810 = none → closedImage s (key 0x6810 1) = some x → obj s 0x6810 3 ≠ 0xFF →
      (∀ a, validPlan x = .error a → ∃ t, exec .planApply s = .next t ∧ t.answer = .ok [] ∧ obj t 0x6810 3 = 1 ∧
        obj t 0x6810 4 = a ∧ t.plan = s.plan ∧ t.tm = s.tm ∧ t.pit = s.pit) ∧
      ∀ l, validPlan x = .ok l → ∃ t, exec .planApply s = .next t ∧ t.answer = .ok [] ∧ obj t 0x6810 3 = 0 ∧
        obj t 0x6810 5 = imAt x 16 4 ∧ obj t 0x6810 6 = ft s ∧ t.ropes = s.ropes ∧ t.hbm = s.hbm ∧
        (∀ c, l = [c] → c.typ = 4 → obj t 0x4000 1 = imAt x c.at_ 2) ∧
        (∀ c, l = [c] → c.typ = 7 → t.plan.next = 0 ∧ t.plan.events =
          ((List.range (c.len / 32)).map (fun i => eventAt x (c.at_ + 32 * i))).filter (fun e => decide (ft s < e.ft))))
/-! ### Translation, scans, egress and HBM -/

/-- MAP_WRITE, MAP_READ, HOME_TABLE_UPDATE, SYSTEM_PORT_RETRY, KEY_LOAD and KEY_ERASE (R183, R184, R234, R238, R244 to
R246): a WRITE puts an entry into both copies of the map and into the cache, a READ returns copy A's, or copy B's
while A is fenced or being rebuilt; a tenant's word of the home table is one aligned 8 B; a write of the system port that
met COLLIDE is performed in the next dp-cycle, or collides again with what port A has written in it, and waits while the
cluster dozes (R387). Two equal keys are refused; key material is cleared either way. -/
def Obligations.MapHomeTableAndKeys : Prop :=
  (∀ s : State, on s = true → s.xlat.mapPending = true → throttledIn s .table (mapBase s + 16 * obj s 0x4830 2) 16 = false →
    let g := obj s 0x4830 2
    let a := s.hbm.mapBaseA + 16 * g
    let b := mapBase s + 16 * g
    let ends (t : State) (st : Nat) : Prop := t.xlat.mapPending = false ∧ obj t 0x4830 6 = st ∧ t.clusters = s.clusters
    (obj s 0x4830 1 = 0 → 2 ^ 27 ≤ g → ∃ t, exec .mapWrite s = .next t ∧ ends t 1 ∧ t.hbm = s.hbm) ∧
    (obj s 0x4830 1 = 0 → g < 2 ^ 27 → absent s = false → s.hbm.test = none → s.hbm.rebuild = none →
      let e := BitVec.ofNat 128 (obj s 0x4830 3 + obj s 0x4830 4 * 2 ^ 64)
      ∃ t, exec .mapWrite s = .next t ∧ ends t 0 ∧
        (∀ b, hbmByte t b = stored (s.hbm.mapBaseB + 16 * g) (toLE 16 e.toNat) b
          (stored a (toLE 16 e.toNat) b (hbmByte s b))) ∧
        txlCached t g = (txlCached s g).map (fun _ => e)) ∧
    (obj s 0x4830 1 = 1 → 2 ^ 27 ≤ g → ∃ t, exec .mapRead s = .next t ∧ ends t 1 ∧ t.hbm = s.hbm) ∧
    (obj s 0x4830 1 = 1 → g < 2 ^ 27 → mediaIn s b 16 = true → ∃ t, exec .mapRead s = .next t ∧ ends t 2 ∧ t.hbm = s.hbm) ∧
    (obj s 0x4830 1 = 1 → g < 2 ^ 27 → mediaIn s b 16 = false → ∃ t, exec .mapRead s = .next t ∧ ends t 0 ∧ t.hbm = s.hbm ∧
      obj t 0x4830 3 = ofLE (hbmRead s b 8) ∧ obj t 0x4830 4 = ofLE (hbmRead s (b + 8) 8)) ∧
    b = (if absent s = false ∧ pairOut s 0 = true then s.hbm.mapBaseB else s.hbm.mapBaseA) + 16 * g) ∧
  (∀ (s : State) (c : BitVec 4) (tid : BitVec 12) (u : Nat), (c.toNat, tid.toNat, u) ∈ s.xlat.homeUpd →
    on s = true → runsPass s c.toNat = true → (cluster s c.toNat).sysQ = [] → (cluster s c.toNat).portA = none →
    (cluster s c.toNat).doze = false →
    ∃ t, exec (.homeTableUpdate c tid) s = .next t ∧ t.ropes = s.ropes ∧ t.hbm = s.hbm ∧
      (∀ e ∈ t.xlat.homeUpd, ¬(e.1 = c.toNat ∧ e.2.1 = tid.toNat)) ∧ (∀ d, d ≠ c.toNat → cluster t d = cluster s d) ∧
      ∀ b, scratchByte t c.toNat b =
        stored (0x20000 + 8 * tid.toNat) (toLE 8 (homeWord s tid.toNat)) b (scratchByte s c.toNat b)) ∧
  (∀ (s : State) (c : BitVec 4) (w : SysWrite) (ws : List SysWrite), on s = true → (cluster s c.toNat).sysQ = w :: ws →
    let u := advanceTo s (cycStart s ((cluster s c.toNat).collideCyc + 1))
    ((cluster s c.toNat).doze = true → exec (.systemPortRetry c) s = .next s) ∧ ((cluster s c.toNat).doze = false →
    (collides u c.toNat w = true → ∃ t, exec (.systemPortRetry c) s = .next t ∧ t.time = u.time ∧
      cluster t c.toNat = { cluster s c.toNat with portA := none, collideCyc := cyc u } ∧ t.ropes = s.ropes ∧
      obj t (0x4030 + c.toNat) 9 = (obj s (0x4030 + c.toNat) 9 + 1) % 2 ^ 64) ∧
    (collides u c.toNat w = false →
    ∃ t, exec (.systemPortRetry c) s = .next t ∧ t.time = u.time ∧ (cluster t c.toNat).sysQ = ws ∧
      (∀ b, scratchByte t c.toNat b = stored w.addr w.data b (scratchByte s c.toNat b)) ∧
      (w.notify = none → t.ropes = s.ropes) ∧
      ∀ r, w.notify = some r → (∀ d m u, (rope s r).st ≠ .waiting (.event d m u)) →
        rope t r = { rope s r with pending := (rope s r).pending ||| 1#64 <<< 59 }))) ∧
  ∀ s : State, Served s 0x6080 → absent s = false →
    let slot := obj s 0x6080 1
    (∃ t, exec .keyErase s = .next t ∧ t.answer = .ok [] ∧ mfind t.xlat.keys slot = none ∧
      ∀ k, k ≠ slot → mfind t.xlat.keys k = mfind s.xlat.keys k) ∧
    (closedImage s (key 0x6080 2) = none → ∃ t, exec .keyLoad s = .next t ∧ t.answer = .abort 6 0 ∧ t.xlat = s.xlat) ∧
    ∀ x, closedImage s (key 0x6080 2) = some x →
      let k1 := rdN x.data 0 32
      let k2 := rdN x.data 32 32
      ∃ t, exec .keyLoad s = .next t ∧ t.answer = .ok [] ∧ obj t 0x6080 5 = (if k1 = k2 then 1 else 0) ∧
        closedImage t (key 0x6080 2) = some { closed := true, len := 64 } ∧
        ∀ k, mfind t.xlat.keys k = if k = slot ∧ k1 ≠ k2 then some (k1, k2) else mfind s.xlat.keys k

/-- SCAN_SEGMENT_ACCEPT, SEGMENT_WAIT_EXPIRY, SCAN_RD_ISSUE, SCREE_RSP_EVALUATE and ROW_FLUSH_EXPIRY (R255 to R258,
R267 to R272): an accepted segment opens a scan under the program loaded, or joins its own; a scan that lacks segments
stops with MALFORMED, and one whose program stands on a line marked MEDIA ends at once (R331); an RD covers the segment
to the end of a block, within ScanWindow, and a wait for it counts once; an engine evaluates every row of an RSP and is
busy as long as R269 says; an RSP whose engine fails its parity goes to another engine, once that is free, and an engine with a
lasting fault leaves service. Which engine the retry takes is the model's choice (log entry 126). -/
def Obligations.ScansRunThroughTheirSegments : Prop :=
  (∀ (s : State) (g : Segment), on s = true → absent s = false → s.scree.waiting = [g] → segWaits s g = false →
    (∀ e ∈ s.scree.scans, scanOver e.2 = false) →
    let p := mget s.scree.progs (progKey g.hdr.tid.toNat g.hdr.sub.toNat) []
    let lost := mediaIn s (progAddr s g.hdr.tid.toNat g.hdr.sub.toNat) 4096
    (segRefused s g = none → scanOf s g.hdr = none → lost = true → ∃ t, exec .scanSegmentAccept s = .next t ∧
      t.scree.waiting = [] ∧ mfind t.scree.scans s.scree.nextScan = none ∧ obj t 0x6000 9 = (obj s 0x6000 9 + 1) % 2 ^ 64) ∧
    (segRefused s g = none → scanOf s g.hdr = none → lost = false → ∃ t, exec .scanSegmentAccept s = .next t ∧ t.scree.waiting = [] ∧
      t.scree.nextScan = s.scree.nextScan + 1 ∧ inFlightOf t g.hdr.rsver = inFlightOf s g.hdr.rsver + 1 ∧
      mfind t.scree.scans s.scree.nextScan = some { hdr := g.hdr, hostLp := g.hostLp, count := g.count, prog := p, base := g.base
                                                    segs := [segRun s g (progRow p)], arrived := [g.num]
                                                    firstAt := s.time.now, aggs := List.replicate (progNagg p) {}
                                                    ecn := g.ecn }) ∧
    (∀ k c, segRefused s g = none → scanOf s g.hdr = some (k, c) → ∃ t, exec .scanSegmentAccept s = .next t ∧
      t.scree.waiting = [] ∧ mfind t.scree.scans k =
        some { c with segs := c.segs ++ [segRun s g (progRow c.prog)], arrived := insertNat g.num c.arrived }) ∧
    (∀ e, segRefused s g = some e → scanOf s g.hdr = none → ∃ t, exec .scanSegmentAccept s = .next t ∧
      t.scree.waiting = [] ∧ t.scree.scans = s.scree.scans ∧ obj t 0x6000 0x0E = (obj s 0x6000 0x0E + 1) % 2 ^ 64)) ∧
  (∀ (s : State) (k : Nat) (c : Scan), on s = true → s.scree.scans = [(k, c)] →
    (c.arrived.length < c.count → c.stopped = none → ∃ t, exec (.segmentWaitExpiry k) s = .next t ∧
      t.time.now = max s.time.now (c.firstAt + 90 * obj s 0x6000 7) ∧
      (c.outstanding ≠ 0 → t.scree.scans = [(k, { c with stopped := some (0x0B, 1) })]) ∧
      (c.outstanding = 0 → t.scree.scans = [] ∧ obj t 0x6000 9 = (obj s 0x6000 9 + 1) % 2 ^ 64)) ∧
    (∀ g, absent s = false → c.stopped = none → c.segs.find? (fun x => x.left != 0) = some g →
      let tid := c.hdr.tid.toNat
      let m := min g.left (4096 - g.gaddr.toNat % 4096)
      (ten s tid 0x61 < mget s.scree.window tid 0 → exec (.scanRdIssue c.hdr.tid) s = .next (
        if tid ∈ s.scree.stalled then s
        else bumpTen { s with scree := { s.scree with stalled := insertNat tid s.scree.stalled } } tid 0x64)) ∧
      (mget s.scree.window tid 0 ≤ ten s tid 0x61 → ten s tid 0x50 = 0 → (port s g.lp).partner ≠ 2 →
        ∃ t, exec (.scanRdIssue c.hdr.tid) s = .next t ∧ t.ropes = s.ropes ∧
          mget t.scree.window tid 0 = mget s.scree.window tid 0 + m ∧ tid ∉ t.scree.stalled ∧
          mfind t.scree.scans k = some { c with
            issuedAny := true, outstanding := c.outstanding + 1
            segs := putSeg c.segs { g with
              granule := some (g.gaddr.extractLsb' 21 27).toNat, enc := false, taddr := g.taddr + BitVec.ofNat 64 m
              gaddr := g.gaddr + BitVec.ofNat 64 m, row := g.row + m / progRow c.prog, left := g.left - m } })) ∧
    ∀ e x, engineUp s e = true → nextRsp (advanceTo s (engineFrom s e)) = some x → x.scan = k →
      (∃ t, exec (.screeRspEvaluate e 0) s = .next t ∧ t.time.now = max s.time.now (engineFrom s e) ∧
        mfind t.scree.busy e = some (x.tid.toNat, t.time.now + engineTime s c.prog x.data.length) ∧ t.scree.rspQ = s.scree.rspQ.erase x ∧ t.scree.lastTid = x.tid.toNat ∧
        obj t (0x3000 + x.tid.toNat) 0x65 = (obj s (0x3000 + x.tid.toNat) 0x65 + x.data.length) % 2 ^ 64 ∧
        (obj s 0x6000 0x0A < 2 ^ 64 →
          obj t 0x6000 0x0A = (obj s 0x6000 0x0A + x.data.length / progRow c.prog) % 2 ^ 64)) ∧
      (∀ m, retryEngine (advanceTo s (engineFrom s e)) e = some m → ∃ t, exec (.screeRspEvaluate e 1) s = .next t ∧
        t.time.now = max (max s.time.now (engineFrom s e)) (engineFrom s m) ∧ t.scree.rspQ = s.scree.rspQ.erase x ∧
        mfind t.scree.busy m = some (x.tid.toNat, t.time.now + engineTime s c.prog x.data.length) ∧
        t.scree.removed = s.scree.removed ∧ obj t 0x6000 0x0C = (obj s 0x6000 0x0C + 1) % 2 ^ 64) ∧
      ∃ t, exec (.screeRspEvaluate e 2) s = .next t ∧ t.scree.rspQ = s.scree.rspQ.erase x ∧
        t.scree.removed = insertNat e s.scree.removed ∧ obj t 0x6000 0x0D = (obj s 0x6000 0x0D + 1) % 2 ^ 64) ∧
  ∀ (s : State) (f : RowFrame), on s = true → s.scree.rowFrames = [f] → ∃ t, exec (.rowFlushExpiry f.engine f.scan) s = .next t ∧
    t.scree.rowFrames = [] ∧ t.time.now = max s.time.now (f.firstAt + 90 * obj s 0x6000 6) ∧ t.scree.scans = s.scree.scans

/-- SCREE_TEST_GO, SCREE_TEST_DONE, PROG_LOAD, PROG_UNLOAD and PROG_TAKES_EFFECT (R261, R273, R274): the engine under
test leaves service, and returns when it passes; a load of a valid image, or an unload, waits until no scan runs on
the slot's program, and then takes effect. -/
def Obligations.EnginesAreTestedAndProgramsLoaded : Prop :=
  ∀ s : State, absent s = false →
    (Served s 0x6001 →
      let e := obj s 0x6001 1
      (serviceState s = 1 → s.scree.testing ≠ none →
        ∃ t, exec .screeTestGo s = .next t ∧ t.answer = .abort 6 0 ∧ t.scree = s.scree) ∧
      (serviceState s = 1 → s.scree.testing = none → (∀ d ∈ enginesUp s, d = e) →
        ∃ t, exec .screeTestGo s = .next t ∧ t.answer = .abort 6 0 ∧ t.scree = s.scree ∧ obj t 0x6001 3 = 2) ∧
      (serviceState s ≠ 1 → ∃ t, exec .screeTestGo s = .next t ∧ t.answer = .abort 7 2 ∧ t.scree = s.scree) ∧
      (s.scree.testing = none → (∃ d ∈ enginesUp s, d ≠ e) → maintTest s 5 (obj s 0x4820 1) = none →
        ∃ t, exec .screeTestGo s = .next t ∧ t.answer = .ok [] ∧ t.scree = { s.scree with testing := some e } ∧
          obj t 0x6001 3 = 0xFF)) ∧
    (∀ e, on s = true → s.scree.testing = some e →
      (∃ t, exec (.screeTestDone true) s = .next t ∧ t.scree = { s.scree with
        testing := none, removed := s.scree.removed.filter (· != e) } ∧ obj t 0x6001 3 = 0) ∧
      ∃ t, exec (.screeTestDone false) s = .next t ∧ t.scree = { s.scree with
        testing := none, removed := insertNat e s.scree.removed } ∧ obj t 0x6001 3 = 1) ∧
    (Served s 0x6010 → s.scree.pendingLoad = none →
      let t0 := obj s 0x6010 1
      let n0 := obj s 0x6010 2
      (closedImage s (key 0x6010 3) = none → ∃ t, exec .progLoad s = .next t ∧ t.answer = .abort 6 0 ∧ t.scree = s.scree) ∧
      (∀ x, closedImage s (key 0x6010 3) = some x →
        let img := rdN x.data 0 4096
        (∀ o, progError img = some o → ∃ t, exec .progLoad s = .next t ∧ t.answer = .ok [] ∧ t.scree = s.scree ∧
          obj t 0x6010 6 = 1 ∧ obj t 0x6010 7 = o) ∧
        (progError img = none → maintTest s 4 (obj s 0x4820 1) = none → ∃ t, exec .progLoad s = .next t ∧ t.answer = .ok [] ∧
          t.scree = { s.scree with pendingLoad := some (t0, n0, some img) } ∧ obj t 0x6010 6 = 0xFF)) ∧
      (∀ c, maintTest s 4 (obj s 0x4820 1) = some c → ∃ t, exec .progUnload s = .next t ∧ t.answer = .abort 7 c ∧
        t.scree = s.scree ∧ obj t 0x6010 6 = 2) ∧
      (maintTest s 4 (obj s 0x4820 1) = none → ∃ t, exec .progUnload s = .next t ∧ t.answer = .ok [] ∧
        t.scree = { s.scree with pendingLoad := some (t0, n0, none) } ∧ obj t 0x6010 6 = 0xFF)) ∧
    (∀ a n img, on s = true → s.scree.pendingLoad = some (a, n, img) →
      ((∃ e ∈ s.scree.scans, e.2.hdr.tid.toNat = a ∧ e.2.hdr.sub.toNat = n) → exec .progTakesEffect s = .next s) ∧
      ((∀ e ∈ s.scree.scans, ¬(e.2.hdr.tid.toNat = a ∧ e.2.hdr.sub.toNat = n)) → ∃ t, exec .progTakesEffect s = .next t ∧
        t.scree.pendingLoad = none ∧ obj t 0x6010 6 = 0 ∧
        (∀ k, mfind t.scree.progs k = if k = progKey a n then img else mfind s.scree.progs k) ∧
        ∀ b, hbmByte t b = stored (s.hbm.progBase + 4096 * progKey a n) (img.getD []) b (hbmByte s b)))

/-- OUTPUT_TRANSMIT, CALENDAR_ENTRY, CELL_WRITE_STAGE, SPILL_READBACK and RETAIN_MOVE (R34, R81, R282, R287, R294,
R295, R305 to R311, R331). A due PULSE goes first, then a head that may be sent, of class 7 before 6 before the rest. A
frame in transit leaves as it is; one of the device's own is numbered in the context of its source and destination and
retained. A cell that waits takes the next bank with a free cell; that the reads of its dp-cycle keep none from it is the
model's choice (log entry 112). A calendar entry sets its tenant's shaper from the next
dp-cycle on, but not a value that the dictionary wrote in this one; spilled outputs come back in order, unless a line of
their buffer is marked MEDIA, and the oldest retained one, sent or waiting, moves to a Piton buffer. Where the turns start and the bytes of Piton
buffers are the model's choices (log entries 14 and 44). -/
def Obligations.OutputsLeaveInTheirTurn : Prop :=
  (∀ (s : State) (lp : Nat) (x : Sched) (q : Queue), chooseQueue s lp = some (x, q) →
    q ∈ s.tm.queues ∧ q.lp = lp ∧ headReady s q = true ∧ ((chooseIn s lp 7 (schedOf s lp)).isSome = true → q.cls = 7) ∧
    (chooseIn s lp 7 (schedOf s lp) = none → (chooseIn s lp 6 (schedOf s lp)).isSome = true → q.cls = 6)) ∧
  (∀ (s : State) (lp : Nat), active s lp = true → pulseDue s lp = true →
    exec (.outputTransmit lp) s = exec (.pulseSend lp) s) ∧
  (∀ (s : State) (lp : Nat) (x : Sched) (q : Queue) (o : Output) (rest : List Output), active s lp = true →
    pulseDue s lp = false → (pairNoFree s lp).isSome = true → (∀ y ∈ s.tm.queues, shaperHolds s lp y.tid = false) →
    chooseQueue s lp = some (x, q) → q.outs = o :: rest → o.pair = none → o.req = none → s.scree.scans = [] →
    (∀ e ∈ s.xport.parked, e.out.lp = lp → s.time.now < e.due) →
    let sent (t : State) : Prop := t.ropes = s.ropes ∧ t.hbm = s.hbm ∧ t.time = s.time ∧
      t.pwr.idleSince = some s.time.now ∧ t.tm.queues = (s.tm.queues.map (fun y =>
        if y.is lp q.cls q.tid q.spread then { y with outs := rest } else y)).filter (fun y => !(y.outs.isEmpty && !y.spillMode))
    (numbered o = false → ∃ t, exec (.outputTransmit lp) s = .next t ∧ sent t ∧ t.out = .frame o.lp (wireBytes s o
      (if o.ctl then { o.hdr with rsver := s.col.ver.current } else o.hdr)) :: s.out) ∧
    (numbered o = true → ∃ t bs c, exec (.outputTransmit lp) s = .next t ∧ sent t ∧ t.out = .frame o.lp bs :: s.out ∧
      let k := ctxKey s (outSrc s o) o.hdr.dst
      txAt t k = some c ∧ let old := (txAt s k).getD {}
      c.next = old.next + 1 ∧ c.sent.map (·.psn) = old.sent.map (·.psn) ++ [old.next] ∧ c.due.isSome = true)) ∧
  (∀ (s : State) (u : Nat) (e : CalEntry), started s = true → obj s 0x5821 2 ≠ 0 → calDue s = some (u, e) → u ≤ ft s →
    ∃ t, exec .calendarEntry s = .next t ∧ t.tm.calFt = u ∧ shapeOf t e.tid = shapeOf s e.tid ∧
      ten t e.tid 0x11 = (if shapeWritten s e.tid 0 then ten s e.tid 0x11 else e.rate) ∧
      ten t e.tid 0x12 = (if shapeWritten s e.tid 1 then ten s e.tid 0x12 else e.burst) ∧
      obj t 0x5821 4 = (obj s 0x5821 4 + 1) % 2 ^ 64 ∧ t.time = s.time) ∧
  (∀ (s : State) (p f c : Nat) (fs : List Nat) (x : Frame), mget s.trav.stage p [] = f :: fs → pickCell s = some c →
    mfind s.frames f = some x → on s = true → ∃ t, exec (.cellWriteStage p) s = .next t ∧ mget t.trav.stage p [] = fs ∧
      t.trav.lastBank = c / 12288 ∧ t.trav.usedCells = insertNat c s.trav.usedCells ∧
      mfind t.frames f = some { x with cells := x.cells ++ [c] } ∧ t.ropes = s.ropes) ∧
  (∀ (s : State) (n hd : Nat) (e : Spill) (q : Queue), s.trav.spilled = [e] → e.queue = n →
    queueOf s e.out.lp e.out.hdr.cls.toNat (queueTid e.out) (n % 4) = some q → bufferMedia s (e.pool, e.buf) e.bytes = false →
    queuedCells q * 128 < cellsAtStart s * 2 ^ ten s (queueTid e.out) 0x70 → pickHead s false = some hd → outLen e.out ≤ 192 →
    on s = true → e.out.frame = none → bufferWaits s (e.pool, e.buf) e.bytes = false →
    ∃ t, exec (.spillReadback n) s = .next t ∧ t.trav.spilled = [] ∧
      { q with spillMode := false, outs := q.outs ++ [{ e.out with head := hd, cells := [] }] } ∈ t.tm.queues) ∧
  ∀ (s u : State) (o : Output) (b : Nat × Nat), obj s 0x5800 4 < retainedCells s → oldestRetained s = some o →
    pitonAlloc s (outLen o) = (u, some b) → ∃ t, exec .retainMove s = .next t ∧ t.ropes = s.ropes ∧
      obj t 0x5800 9 = (obj s 0x5800 9 + 1) % 2 ^ 64 ∧
      (∀ k c, txAt s k = some c → txAt t k = some { c with
        sent := c.sent.map (fun y => if y.out.id = o.id then { y with spilled := some b } else y) }) ∧
      t.xport.parked = s.xport.parked.map (fun y => if y.out.id = o.id then { y with
        buf := some b, out := { y.out with frame := none, owner := true, cells := [], head := noHead } } else y)

/-- HBM_READ_DONE, HBM_REFRESH, REFRESH_WINDOW_START, NRS_GO and NRS_SWEEP_END (R325, R327 to R331): a read counts
its 64 bytes; a corrected or transient error is counted too, a corrected line is written back, and a lasting one marks
the line and retires its row. A row of ActLimit activations waits for the next window; in counting mode its channel counts
it, and above DisturbThreshold its neighbours are refreshed. A refresh closes its bank, keeps it busy for 260 ns and moves
on 8 rows, until every row of the window has had its own; the rows still owed when the window ends have had theirs, which
closed their banks; a sweep lasts 32 ms and adds one pass. When a deferred read counts and that owed refreshes come at the end
are the model's readings (log entry 51). -/
def Obligations.HbmReadsAndRefreshes : Prop :=
  (∀ (s : State) (a pc bank row : Nat) (k : ReqClass), hbmPlace s a = (pc, bank, row) → a < hbmSize s.sys →
    stackServes s (pc / 32) = true → a / 64 ∉ s.hbm.media →
    let p := pchOf s pc
    let counted := bumpBy (advanceTo s (mget p.busy bank 0)) (0x5010 + pc / 32) 6 64
    (mfind p.openRow bank = some row →
      exec (.hbmReadDone a k .good) s = .next counted ∧ exec (.hbmReadDone a k .transient) s = .next (bump counted 0x5000 0x0E) ∧
      (∃ t, exec (.hbmReadDone a k .corrected) s = .next t ∧ obj t 0x5000 0x0D = (obj s 0x5000 0x0D + 1) % 2 ^ 64 ∧
        obj t (0x5010 + pc / 32) 6 = (obj s (0x5010 + pc / 32) 6 + 64) % 2 ^ 64 ∧ ∀ b, hbmByte t b = hbmByte s b) ∧
      ∃ t, exec (.hbmReadDone a k .lasting) s = .next t ∧ a / 64 ∈ t.hbm.media ∧ t.hbm.mem = s.hbm.mem ∧
        obj t 0x5000 0x0F = (obj s 0x5000 0x0F + 1) % 2 ^ 64 ∧
        ((s.hbm.media = [] ∧ (stackOf s (pc / 32)).retired = []) → (stackOf t (pc / 32)).retired = [(pc, bank, row)])) ∧
    (mfind p.openRow bank ≠ some row → counting s (pc / 32) = false →
      let n := actOf p.tracker (bank * 24576 + row) (reqNo k)
      (n < obj s 0x5000 0x0B → ∃ t, exec (.hbmReadDone a k .good) s = .next t ∧
        mfind (pchOf t pc).openRow bank = some row ∧ (pchOf t pc).tracker = countAct 256 p.tracker (bank * 24576 + row) (reqNo k) ∧
        obj t (0x5010 + pc / 32) 6 = (obj s (0x5010 + pc / 32) 6 + 64) % 2 ^ 64) ∧
      (obj s 0x5000 0x0B ≤ n → ∃ t, exec (.hbmReadDone a k .good) s = .next t ∧ (pchOf t pc).openRow = p.openRow ∧
        (pchOf t pc).deferred = p.deferred ++ [{ addr := a, row := bank * 24576 + row, cls := reqNo k, read := some .good }] ∧
        obj t 0x5000 0x10 = (obj s 0x5000 0x10 + 1) % 2 ^ 64 ∧ obj t (0x5010 + pc / 32) 6 = obj s (0x5010 + pc / 32) 6)) ∧
    (mfind p.openRow bank ≠ some row → counting s (pc / 32) = true → ∃ t, exec (.hbmReadDone a k .good) s = .next t ∧
      mfind (pchOf t pc).openRow bank = some row ∧ (pchOf t pc).tracker = p.tracker ∧ (pchOf t pc).deferred = p.deferred ∧
      let j := pc % 2 * 2 ^ 24 + bank * 24576 + row
      let l := countAct 1024 (mget s.hbm.chan (pc / 2) []) j 0
      (actOf l j 0 ≤ obj s 0x5000 0x0C → mget t.hbm.chan (pc / 2) [] = l ∧ obj t 0x5000 0x11 = obj s 0x5000 0x11) ∧
      (obj s 0x5000 0x0C < actOf l j 0 → actOf (mget t.hbm.chan (pc / 2) []) j 0 = 0 ∧
        obj t 0x5000 0x11 = (obj s 0x5000 0x11 + neighbours row) % 2 ^ 64))) ∧
  (∀ (s : State) (pc bank : Nat), stackServes s (pc / 32) = true → bank < 48 →
    let refreshes (f : PChan → Prop) : Prop := ∃ t, exec (.hbmRefresh pc bank) s = .next t ∧
      t.time.now = max s.time.now (groupFrom s pc bank) ∧ mfind (pchOf t pc).openRow bank = none ∧
      mget (pchOf t pc).busy bank 0 = t.time.now + 23400 ∧
      (stackOf t (pc / 32)).window = (if (stackOf s (pc / 32)).temp ≤ 85 then 32 else 16) ∧ t.hbm.mem = s.hbm.mem ∧ f (pchOf t pc)
    let extra := mget (pchOf s pc).extra bank 0
    (rowsDone s pc bank < 24576 → refreshes (fun q => mget q.refresh bank 0 = mget (pchOf s pc).refresh bank 0 + 8)) ∧
    (24576 ≤ rowsDone s pc bank → s.hbm.sweepEnd ≠ none → extra < 24576 →
      refreshes (fun q => mget q.extra bank 0 = extra + 8)) ∧
    (24576 ≤ rowsDone s pc bank → s.hbm.sweepEnd = none ∨ 24576 ≤ extra → exec (.hbmRefresh pc bank) s = .next s)) ∧
  (∀ (s : State) (k : Nat), stackServes s k = true → (∀ i, i < 32 → (pchOf s (32 * k + i)).deferred = []) →
    ∃ t, exec (.refreshWindowStart k) s = .next t ∧
      t.time.now = max s.time.now ((stackOf s k).windowAt + 90000000 * (stackOf s k).window) ∧
      (stackOf t k).windowAt = t.time.now ∧ (stackOf t k).allBank = 0 ∧
      ∀ i, i < 32 → (pchOf t (32 * k + i)).tracker = [] ∧ mget t.hbm.chan (16 * k + i / 2) [] = [] ∧
        (pchOf t (32 * k + i)).refresh = [] ∧ (pchOf t (32 * k + i)).openRow =
          (pchOf s (32 * k + i)).openRow.filter (fun e => decide (24576 ≤ rowsDone s (32 * k + i) e.1))) ∧
  (∀ s : State, Served s 0x5021 →
    (maintRuns s 3 = true → serviceState s = 1 → ∃ t, exec .nrsGo s = .next t ∧ t.answer = .abort 6 0 ∧ t.hbm = s.hbm) ∧
    (s.hbm.sweepEnd ≠ none → maintRuns s 3 = false → maintTest s 3 (obj s 0x4820 1) = none → ∃ t, exec .nrsGo s = .next t ∧
      t.answer = .ok [] ∧ t.hbm.sweepEnd = some (s.time.now + 2880000000) ∧ obj t 0x5021 2 = 1 ∧
      obj t 0x5021 3 = (obj s 0x5021 3 + 1) % 2 ^ 32) ∧
    (s.hbm.sweepEnd = none → maintTest s 3 (obj s 0x4820 1) = none → ∃ t, exec .nrsGo s = .next t ∧ t.answer = .ok [] ∧
      obj t 0x5021 2 = 1 ∧ t.hbm = { s.hbm with sweepEnd := some (s.time.now + 2880000000) }) ∧
    (∀ k, s.hbm.sweepEnd = none ∨ (maintRuns s 3 = true ∧ serviceState s ≠ 1) → maintTest s 3 (obj s 0x4820 1) = some k → ∃ t, exec .nrsGo s = .next t ∧
      t.answer = .abort 7 k ∧ obj t 0x5021 2 = 2 ∧ t.hbm = s.hbm)) ∧
  ∀ (s : State) (u : Nat), on s = true → s.hbm.sweepEnd = some u → ∃ t, exec .nrsSweepEnd s = .next t ∧ t.time.now = max s.time.now u ∧
    t.hbm = { s.hbm with sweepEnd := none, pch := s.hbm.pch.map (fun e => (e.1, { e.2 with openRow := [], extra := [] })) } ∧
    obj t 0x5021 2 = 0 ∧ obj t 0x5021 3 = (obj s 0x5021 3 + 1) % 2 ^ 32

/-- SELF_REFRESH_ENTRY and EXIT, HBM_TEST_GO and DONE, REBUILD_DONE and HBM_TRAINING_DONE (R332 to R337, R388 to R390,
R401): a drained stack closes its banks and is in self-refresh, the first one after the state is saved and the data path has lost
its power; a request that comes before that ends the entry of Bivouac. The last stack to leave self-refresh brings the data path
and the links back. A test fences its stack while the other pair serves; it takes
1 µs a row and fails where a row enters the retired list, and at its end the copies of the pair are rebuilt from the other
pair's. Training succeeds, with which the stack's bytes are zero, is tried once more, or fails for good. What a test records, and what a row does for which the
list has no room, are the model's readings (log entry 52). -/
def Obligations.StacksSleepTestAndTrain : Prop :=
  (∀ (s : State) (k : Nat), started s = true →
    let x := stackOf s k
    let last : Prop := ∀ j, j < nStacks s.sys → j ≠ k → (stackOf s j).state ≠ 4
    let untraced : Prop := ∀ c, obj s (0x4050 + c) 2 % 2 = 0 ∧ (cluster s c).traceBuf = []
    (x.pendingSr = true → k < nStacks s.sys →
      (s.pwr.off = true → exec (.selfRefreshEntry k true) s = .next s) ∧
      (s.pwr.off = false → ∃ t, exec (.selfRefreshEntry k true) s = .next t ∧ t.pwr.state = 0 ∧
        t.pwr.idleSince = some s.time.now ∧ obj t 0x5000 0x12 = (obj s 0x5000 0x12 + 1) % 2 ^ 64 ∧
        (∀ j, j < nStacks s.sys → (stackOf t j) = { stackOf s j with pendingSr := false }) ∧
        ∀ lp, lp < lps s → (port s lp).link = 3 → (port t lp).link = 2) ∧
      ((∀ e ∈ s.hbm.pch, e.2.deferred = []) → s.pwr.off = true ∨ untraced → ∃ t, exec (.selfRefreshEntry k false) s = .next t ∧
        stackOf t k = { x with state := 4, pendingSr := false, allBank := x.allBank + 1 } ∧
        (∀ pc, pc / 32 = k → (pchOf t pc).openRow = []) ∧ t.pwr.off = true ∧
        (s.pwr.off = true → t.hbm.mem = s.hbm.mem) ∧
        (s.pwr.off = false → t.sys.wakeOut = false ∨ t.pwr.state = 3) ∧
        (s.pwr.off = false → ∃ n, t.hbm.save = some { base := inForce s 0x7000 0x0A, parts := clusters s, seed := n }))) ∧
    (s.pwr.state = 3 → x.state = 4 → k < nStacks s.sys →
      (¬last → exec (.selfRefreshExit k) s = .next (setStack (advance s 108000) k { x with state := 2 })) ∧
      (last → s.plan.events.length ≤ s.plan.next → ∃ t, exec (.selfRefreshExit k) s = .next t ∧
        t.time.now = s.time.now + 108000 ∧ t.pwr.state = 0 ∧ t.pwr.off = false ∧ stackOf t k = { x with state := 2 } ∧
        ∀ lp, lp < lps s → (port s lp).link = 3 → (port t lp).link = 2))) ∧
  (∀ s : State, Served s 0x5020 → absent s = false →
    let k := obj s 0x5020 1
    let mate := 2 * (1 - k / 2)
    (serviceState s ≠ 1 → ∃ t, exec .hbmTestGo s = .next t ∧ t.answer = .abort 7 2 ∧ obj t 0x5020 3 = 3 ∧ t.hbm = s.hbm) ∧
    (serviceState s = 1 →
      (stackOf s mate).state ≠ 2 ∨ (stackOf s (mate + 1)).state ≠ 2 ∨ s.hbm.test ≠ none ∨ s.hbm.rebuild ≠ none →
      ∃ t, exec .hbmTestGo s = .next t ∧ t.answer = .abort 6 0 ∧ obj t 0x5020 3 = 2 ∧ t.hbm = s.hbm) ∧
    ((stackOf s mate).state = 2 → (stackOf s (mate + 1)).state = 2 → s.hbm.test = none → s.hbm.rebuild = none →
      maintTest s 2 (obj s 0x4820 1) = none → ∃ t, exec .hbmTestGo s = .next t ∧ t.answer = .ok [] ∧ t.hbm.test = some k ∧
        t.hbm.testFrom = s.time.now ∧ stackOf t k = { stackOf s k with state := 3 } ∧ obj t 0x5020 3 = 0xFF ∧ t.hbm.mem = s.hbm.mem)) ∧
  (∀ (s : State) (k : Nat) (rows : List RowTest), on s = true → s.hbm.test = some k → ∃ t, exec (.hbmTestDone rows) s = .next t ∧
    t.hbm.test = none ∧ t.hbm.rebuild = some (k / 2) ∧ (stackOf t k).state = 6 ∧ t.hbm.mem = s.hbm.mem ∧
    t.time.now = max s.time.now (s.hbm.testFrom + 106168320000) ∧
    obj t 0x5020 3 = if rows.any (fun r => r.again && retires s (32 * k + r.pch % 32) r.bank r.row) then 1 else 0) ∧
  (∀ s : State, on s = true → (∀ c, (cluster s c).traceBuf = []) → s.hbm.save = none → s.hbm.rebuild = some 0 → cellsWf s.hbm.mem = true → s.hbm.mapBaseA = 0 → s.hbm.mapBaseB = 0x1200000000 →
    s.hbm.ruleBaseA = 0xC0000000 → s.hbm.ruleBaseB = 0x12C0000000 → ∃ t, exec .rebuildDone s = .next t ∧ t.hbm.rebuild = none ∧
      ((stackOf s 0).state = 6 → (stackOf t 0).state = 2) ∧
      ∀ b, hbmByte t b = if b < 2 ^ 31 then hbmByte s (0x1200000000 + b)
        else if 0xC0000000 ≤ b ∧ b < 0xD0000000 then hbmByte s (0x1200000000 + b) else hbmByte s b) ∧
  ∀ (s : State) (k : Nat), s.sys.phase = .starting → started s = true → k < nStacks s.sys →
    let x := stackOf s k
    x.state = 1 →
    (∃ t, exec (.hbmTrainingDone k true) s = .next t ∧ t.time = s.time ∧
      stackOf t k = { x with state := 2, retired := [], windowAt := s.time.now } ∧
      ((∀ c, (cluster s c).traceBuf = []) → s.hbm.save = none → ∀ b,
        hbmByte t b = if (hbmPlace s b).1 / 32 = k then 0 else hbmByte s b)) ∧
    ∃ t, exec (.hbmTrainingDone k false) s = .next t ∧ obj t (0x5010 + k) 5 = (obj s (0x5010 + k) 5 + 1) % 2 ^ 32 ∧
      stackOf t k = if x.tried then { x with state := 5 } else { x with tried := true }
/-! ### The dictionary -/

/-- OBJECT_WRITE, READ, WRITE, PARAM_STORE, STORE_CLEAR and CAN_BUS_OFF (R244, R357, R358, R363 to R365, R367, R375,
R377): a write is checked for access, length and value and then takes the value, which an RWS object also puts before the
store; with the Pass program back in PitchEntry the home table holds every tenant's word; an answer goes to the sender as
one CAN frame, and a repeat within 1 s of the last request gets the last answer again. A store is verified and, where it
fails twice, only counted; VIN and a clock suffice for it, and only WriteFence may be stored twice within 1 s (R406). The order of the aborts, the path of the rows that write one object, that bits given as 0 stay 0 and the rewrite
of the home table are the model's readings (log entries 70, 74, 102 and 103). -/
def Obligations.DictionaryServesObjects : Prop :=
  (∀ (s : State) (idx : BitVec 16) (sub : BitVec 8) (data : List Byte),
    let run := exec (.objectWrite idx sub data) s
    let aborts (code detail : Nat) : State := { bump s 0x0200 7 with answer := .abort code detail }
    (canUp s = false → run = .next s) ∧
    (∀ e, canUp s = true → objectFor s .can idx.toNat sub.toNat = .error e → run = .next (aborts e.1 e.2)) ∧
    ∀ r, canUp s = true → objectFor s .can idx.toNat sub.toNat = .ok r →
      (r.acc = .ro ∨ r.acc = .const → run = .next (aborts 3 0)) ∧
      (Writable r → Plain idx.toNat →
        (data.length ≠ r.ty.width → run = .next (aborts 4 0)) ∧
        (data.length = r.ty.width → allowed r (ofLE data) = false → run = .next (aborts 5 0)) ∧
        (data.length = r.ty.width → allowed r (ofLE data) = true → ∃ t, run = .next t ∧
          t = { s with obj := t.obj, dict := t.dict, answer := .ok [] } ∧
          obj t idx.toNat sub.toNat = fieldsOf idx.toNat sub.toNat (ofLE data) ∧
          (∀ k, k ≠ key idx.toNat sub.toNat → getO t k = getO s k) ∧
          (r.acc = .rw → t.dict = s.dict) ∧
          (r.acc = .rws → t.dict.storeQ = s.dict.storeQ.filter (fun e => e.1 != key idx.toNat sub.toNat) ++
            [(key idx.toNat sub.toNat, fieldsOf idx.toNat sub.toNat (ofLE data))]))) ∧
      (idx.toNat / 16 = 0x401 → sub.toNat = 1 → data.length = 4 → ∃ t, run = .next t ∧ t.answer = .ok [] ∧
        obj t idx.toNat 1 = ofLE data ∧ t.ropes = s.ropes ∧ t.hbm = s.hbm ∧
        t.dict.storeQ = s.dict.storeQ.filter (fun e => e.1 != key idx.toNat 1) ++ [(key idx.toNat 1, ofLE data)] ∧
        (ofLE data = 0x100000 → obj s idx.toNat 1 ≠ 0x100000 → ∀ n, n < 4096 →
          ofLE (rdN (cluster t (idx.toNat % 16)).scratch (0x20000 + 8 * n) 4) = homeWord s n))) ∧
  (∀ (s : State) (q : CanReq), q.dst = 0x7F#7 → exec (.sdpRead q) s = .next s ∧ exec (.sdpWrite q) s = .next s) ∧
  (∀ (s : State) (q : CanReq) (l : LastReq) (o : Out), canHears s q = true → q.dst ≠ 0x7F#7 →
    s.dict.lastReq = [(q.src.toNat, l)] → l.seq = q.seq.toNat → s.time.now ≤ l.at_ + 90000000000 → l.reply = [o] →
    isAbort o = false →
    let again : State := canSend (bump s 0x0200 4) o
    let t : State := { again with dict := { again.dict with lastReq := [(q.src.toNat, { l with at_ := s.time.now })] } }
    (l.func = 1 → exec (.sdpRead q) s = .next t) ∧ (l.func = 3 → exec (.sdpWrite q) s = .next t)) ∧
  (∀ (s : State) (q : CanReq), canHears s q = true → q.dst ≠ 0x7F#7 → s.dict.lastReq = [] →
    let idx := qKey q / 256
    let sub := qKey q % 256
    let counted (t : State) : Prop := t.ropes = s.ropes ∧ t.hbm = s.hbm ∧ t.sys = s.sys ∧ t.time = s.time ∧
      obj t 0x0200 4 = (obj s 0x0200 4 + 1) % 2 ^ 64 ∧ obj t 0x0200 5 = (obj s 0x0200 5 + 1) % 2 ^ 64
    (∀ e, objectFor s .can idx sub = .error e →
      let o := canReply s q 9 ((objBytes (qKey q)).take 3 ++ toLE 1 e.1 ++ toLE 1 e.2)
      (∃ t, exec (.sdpRead q) s = .next t ∧ t.answer = .abort e.1 e.2 ∧ t.out = o :: s.out ∧ counted t ∧
        obj t 0x0200 7 = (obj s 0x0200 7 + 1) % 2 ^ 64) ∧
      ∃ t, exec (.sdpWrite q) s = .next t ∧ t.answer = .abort e.1 e.2 ∧ t.out = o :: s.out ∧ counted t ∧
        obj t 0x0200 7 = (obj s 0x0200 7 + 1) % 2 ^ 64) ∧
    ∀ r, objectFor s .can idx sub = .ok r → (∀ m, r.ty ≠ .domain m) → r.ty ≠ .vstr →
      (let b := toLE r.ty.width (valueOf (bump s 0x0200 4) idx sub r)
       ∃ t, exec (.sdpRead q) s = .next t ∧ t.answer = .ok b ∧ t.out = canReply s q 2 (slice q.data 0 4 ++ b) :: s.out ∧ counted t) ∧
      (Writable r → Plain idx → q.data.length = 4 + r.ty.width → allowed r (ofLE (q.data.drop 4)) = true →
        ∃ t, exec (.sdpWrite q) s = .next t ∧ t.answer = .ok [] ∧ t.out = canReply s q 4 (slice q.data 0 4) :: s.out ∧
          counted t ∧ obj t idx sub = fieldsOf idx sub (ofLE (q.data.drop 4)))) ∧
  (∀ (s : State) (idx : BitVec 16) (sub : BitVec 8) (v k : Nat), s.sys.phase ≠ .unpowered → s.sys.frozen = false →
    key idx.toNat sub.toNat = k →
    s.dict.storeQ = [(k, v)] → s.cairn.paramUsed + (Config.storeBytes k).toNat ≤ 524288 →
    (∀ f, f < 2 → ∃ t, exec (.paramStore idx sub f) s = .next t ∧ t.dict.storeQ = [] ∧ mfind t.stored k = some v ∧
      (∀ j, j ≠ k → mfind t.stored j = mfind s.stored j) ∧ t.ropes = s.ropes ∧
      (∀ e, k ≠ key 0x8002 7 → s.dict.lastStore.find? (fun e => e.1 == k) = some e →
        t.time.now = max s.time.now (e.2 + 90000000000)) ∧
      (s.dict.lastStore = [] ∨ k = key 0x8002 7 → t.time = s.time)) ∧
    ∀ f, 2 ≤ f → ∃ t, exec (.paramStore idx sub f) s = .next t ∧ t.dict.storeQ = [] ∧ t.stored = s.stored ∧
      obj t 0x0200 0x0C = (obj s 0x0200 0x0C + 1) % 2 ^ 64) ∧
  ∀ s : State,
    (Served s 0x1000 → ∃ t, exec .storeClear s = .next t ∧ t.answer = .ok [] ∧ t.stored = [] ∧ t.dict.storeQ = [] ∧
      t.dict.storedPlan = [] ∧ t.cairn.paramUsed = 0 ∧ t.obj = s.obj) ∧
    (canUp s = true → exec .canBusOff s = .next (bump s 0x0200 6))

/-- SEG_WRITE, SEG_READ, SEG_DATA, SEG_ACK, ABORT and SDP_TIMEOUT (R366, R368): the device keeps one transfer of a
node, and four in all. The segments of a write are taken in their order, and the whole value is written when the
length and the CRC agree; a read sends its value in segments of 60 B, 16 before each SEG_ACK; a transfer whose SdpTimeout has
passed ends with TIMEOUT before the frame that comes. A FUNC that R364 does not
list gets BAD_COMMAND, and is the last request of its node; a FUNC that only a device sends is counted and nothing more. What
answers a SEG_WRITE and a stray segment, and that BAD_COMMAND names object 0, are the
model's readings (log entries 73 and 72). -/
def Obligations.TransfersRunInSegments : Prop :=
  (∀ (s : State) (q : CanReq) (r : Row), canHears s q = true → s.dict.lastReq = [] → (∀ x ∈ s.dict.xfers, s.time.now < xferDue s x) →
    objectFor s .can (qKey q / 256) (qKey q % 256) = .ok r →
    let others := s.dict.xfers.filter (fun x => x.node != q.src.toNat)
    (4 ≤ others.length →
      (∃ t, exec (.segWrite q) s = .next t ∧ t.answer = .abort 0x0A 0 ∧ t.dict.xfers = others) ∧
      ∃ t, exec (.segRead q) s = .next t ∧ t.answer = .abort 0x0A 0 ∧ t.dict.xfers = others) ∧
    (others.length < 4 →
      (∃ t, exec (.segWrite q) s = .next t ∧ t.out = canReply s q 8 (objBytes (qKey q) ++ [0, 0, 0, 0]) :: s.out ∧
        t.dict.xfers = others ++ [{ node := q.src.toNat, pri := q.pri, seq := q.seq, wr := true, key := qKey q,
                                    total := qByte q 4 4, crc := qByte q 8 4, data := [], nextSeg := 0, lastAt := s.time.now }]) ∧
      ((∀ m, r.ty ≠ .domain m) → r.ty ≠ .vstr →
        let b := toLE r.ty.width (valueOf (dropXfer (bump s 0x0200 4) q.src.toNat) (qKey q / 256) (qKey q % 256) r)
        ∃ t, exec (.segRead q) s = .next t ∧ t.answer = .ok b ∧
          t.out = canReply s q 7 ([0, 0, 1, 0] ++ b) ::
            canReply s q 8 (objBytes (qKey q) ++ [0, 0, 0, 0] ++ toLE 4 b.length ++ toLE 4 (crc32c b)) :: s.out ∧
          t.dict.xfers = others ++ [{ node := q.src.toNat, pri := q.pri, seq := q.seq, wr := false, key := qKey q,
                                      total := 0, crc := 0, data := b, nextSeg := 1, lastAt := s.time.now }]))) ∧
  (∀ (s : State) (q : CanReq) (x : Xfer), canHears s q = true → s.dict.xfers = [x] → x.node = q.src.toNat →
    xferDue s x ≤ s.time.now → ∃ t, exec (.segData q) s = .next t ∧ t.dict.xfers = [] ∧ t.answer = .abort 8 0 ∧
      (∃ o p, t.out = o :: p :: s.out ∧ isAbort o = true ∧ isAbort p = true) ∧ obj t 0x0200 7 = (obj s 0x0200 7 + 2) % 2 ^ 64) ∧
  (∀ (s : State) (q : CanReq) (x : Xfer), canHears s q = true → s.dict.xfers = [x] → x.node = q.src.toNat → s.time.now < xferDue s x →
    let data := x.data ++ q.data.drop 4
    (x.wr = true → qByte q 0 2 ≠ x.nextSeg → ∃ t, exec (.segData q) s = .next t ∧ t.answer = .abort 8 0 ∧ t.dict.xfers = []) ∧
    (x.wr = true → qByte q 0 2 = x.nextSeg → qByte q 2 1 % 2 = 0 → ∃ t, exec (.segData q) s = .next t ∧
      t.dict.xfers = [{ x with data := data, nextSeg := x.nextSeg + 1, lastAt := s.time.now }] ∧
      t.out = if (x.nextSeg + 1) % 16 = 0 then canReply s q 8 (objBytes x.key ++ toLE 2 (x.nextSeg + 1) ++ [0, 0]) :: s.out
        else s.out) ∧
    (x.wr = true → qByte q 0 2 = x.nextSeg → qByte q 2 1 % 2 = 1 →
      (data.length < x.total → ∃ t, exec (.segData q) s = .next t ∧ t.answer = .abort 4 0 ∧ t.dict.xfers = []) ∧
      (data.length = x.total → crc32c data ≠ x.crc → ∃ t, exec (.segData q) s = .next t ∧ t.answer = .abort 0x0B 0 ∧
        t.dict.xfers = []) ∧
      (∀ r, data.length = x.total → crc32c data = x.crc → objectFor s .can (x.key / 256) (x.key % 256) = .ok r → Writable r →
        Plain (x.key / 256) → data.length = r.ty.width → allowed r (ofLE data) = true → ∃ t, exec (.segData q) s = .next t ∧
          t.answer = .ok [] ∧ t.dict.xfers = [] ∧ obj t (x.key / 256) (x.key % 256) = fieldsOf (x.key / 256) (x.key % 256) (ofLE data) ∧
          t.out = canReply s q 8 (objBytes x.key ++ toLE 2 (x.nextSeg + 1) ++ [0, 0]) :: s.out)) ∧
    (x.wr = false → qByte q 4 2 ≠ x.nextSeg → ∃ t, exec (.segAck q) s = .next t ∧ t.answer = .abort 8 0 ∧ t.dict.xfers = []) ∧
    (x.wr = false → qByte q 4 2 = x.nextSeg → segCount x ≤ x.nextSeg → ∃ t, exec (.segAck q) s = .next t ∧ t.dict.xfers = [] ∧
      t.out = s.out) ∧
    (x.wr = false → qByte q 4 2 = x.nextSeg → x.nextSeg < segCount x → ∃ t, exec (.segAck q) s = .next t ∧
      t.dict.xfers = [{ x with nextSeg := min (x.nextSeg + 16) (segCount x), lastAt := s.time.now }] ∧
      t.out.length = s.out.length + min 16 (segCount x - x.nextSeg))) ∧
  (∀ (s : State) (q : CanReq), canHears s q = true → (∀ x ∈ s.dict.xfers, s.time.now < xferDue s x) →
    ∃ t, exec (.abortXfer 9 q) s = .next t ∧ t.out = s.out ∧
    t.dict = { s.dict with xfers := s.dict.xfers.filter (fun x => x.node != q.src.toNat) }) ∧
  (∀ (s : State) (q : CanReq) (f : BitVec 6), canHears s q = true →
    (f = 2 ∨ f = 4 ∨ f = 0x11 → exec (.abortXfer f q) s = .next (bump s 0x0200 4)) ∧
    (listedFunc f.toNat = false → s.dict.lastReq = [] →
      let o := canReply s q 9 [0, 0, 0, 0x0E, 0]
      ∃ t, exec (.abortXfer f q) s = .next t ∧ t.answer = .abort 0x0E 0 ∧ t.out = o :: s.out ∧
        t.dict = { s.dict with
          lastReq := [(q.src.toNat, { func := f.toNat, seq := q.seq.toNat, at_ := s.time.now, reply := [o] })] })) ∧
  ∀ (s : State) (node : BitVec 7) (x : Xfer), canUp s = true → xferOf s node.toNat = some x → ∃ t, exec (.sdpTimeout node) s = .next t ∧
    t.time.now = max s.time.now (x.lastAt + 90000000 * obj s 0x0200 3) ∧ t.answer = .abort 9 0 ∧
    xferOf t node.toNat = none ∧ ∀ n, n ≠ node.toNat → xferOf t n = xferOf s n

/-- MGMT_READ, MGMT_WRITE, DOMAIN_READ and DOMAIN_WRITE (R369 to R374): the agent serves the requests in the order
they came, in service only, and answers each with a RESPONSE that carries its TAG to its sender and waits in a queue or is
retained, where its port's partner is not lost; a DOMAIN_READ of rows of the HBM that are throttled waits (R327); a SUB that names no operation gets BAD_COMMAND. That the agent serves in service only is the model's reading (log entry 75). -/
def Obligations.InBandRequestsAreAnswered : Prop :=
  ∀ (s : State) (m : MgmtReq) (ms : List MgmtReq), s.dict.mgmtQ = m :: ms →
    let rows := [Instr.mgmtRead, .mgmtWrite, .domainRead, .domainWrite]
    let idx := mIdx m
    let sub := mSub m
    let taken (t : State) : Prop := t.dict.mgmtQ = ms ∧ obj t 0x0200 8 = (obj s 0x0200 8 + 1) % 2 ^ 64 ∧ t.ropes = s.ropes ∧
      ((port s m.lp).partner ≠ 2 → Waits t (fun o => o.hdr.typ = 9 ∧ o.hdr.sub = 8 ∧ o.hdr.dst = m.hdr.src ∧
        o.hdr.tag = m.hdr.tag ∧ o.hdr.addr = m.hdr.addr ∧ o.lp = m.lp ∧
        (∀ b, t.answer = .ok b → o.payload = b ∧ o.hdr.xarg = 0) ∧
        ∀ c d, t.answer = .abort c d → o.payload = [] ∧ o.hdr.xarg = BitVec.ofNat 16 (d * 256 + c)))
    (agentUp s = false → ∀ c ∈ rows, exec c s = .next s) ∧
    (m.hdr.sub = 2 → domainWaits s m = true → exec .domainRead s = .next s) ∧
    (agentUp s = true → 4 ≤ m.hdr.sub.toNat → ∀ c ∈ rows, ∃ t, exec c s = .next t ∧ t.answer = .abort 0x0E 0 ∧ taken t) ∧
    (agentUp s = true → domainWaits s m = false →
      (∀ e, objectFor s .inband idx sub = .error e → ∀ n c, rows[n]? = some c → m.hdr.sub.toNat = n →
        ∃ t, exec c s = .next t ∧ t.answer = .abort e.1 e.2 ∧ taken t) ∧
      ∀ r, objectFor s .inband idx sub = .ok r →
        ((∀ n, r.ty ≠ .domain n) → r.ty ≠ .vstr → m.hdr.sub = 0 → ∃ t, exec .mgmtRead s = .next t ∧ taken t ∧
          t.answer = .ok (toLE r.ty.width (valueOf (dropMgmt s) idx sub r)) ∧ t.hbm.mem = s.hbm.mem) ∧
        (Writable r → Plain idx → m.payload.length = r.ty.width → allowed r (ofLE m.payload) = true → m.hdr.sub = 1 →
          ∃ t, exec .mgmtWrite s = .next t ∧ taken t ∧ t.answer = .ok [] ∧ obj t idx sub = fieldsOf idx sub (ofLE m.payload) ∧
            t.hbm.mem = s.hbm.mem) ∧
        ((∀ n, r.ty ≠ .domain n) → (m.hdr.sub = 2 → ∃ t, exec .domainRead s = .next t ∧ taken t ∧ t.answer = .abort 0x0E 0) ∧
          (m.hdr.sub = 3 → ∃ t, exec .domainWrite s = .next t ∧ taken t ∧ t.answer = .abort 0x0E 0)) ∧
        ∀ n, r.ty = .domain n → idx = 0x9001 → r.acc = .rw →
          let c := sub - 1
          let len := m.hdr.xarg.toNat % 4096 + 1
          (m.hdr.sub = 2 → ∃ t, exec .domainRead s = .next t ∧ taken t ∧ t.clusters = s.clusters ∧
            t.answer = if n < mOff m + len then .abort 4 0 else .ok (rdN (cluster s c).imem (mOff m) len)) ∧
          (m.hdr.sub = 3 → mOff m + m.payload.length ≤ n → ∃ t, exec .domainWrite s = .next t ∧ taken t ∧ t.answer = .ok [] ∧
            obj t 0x0200 0x0A = (obj s 0x0200 0x0A + m.payload.length) % 2 ^ 64 ∧
            ∀ b, imemByte t c b = stored (mOff m) m.payload b (imemByte s c b)))

/-! ### Power -/

/-- OP_COMMAND, FREQUENCY_CHANGE_DONE, RAIL_TARGET_REACHED, RAIL_HOLD_EXPIRY, POWER_MEASUREMENT and CURRENT_LIMIT_HELD
(R381 to R386): a command outside the profile or the range of the rail is refused; another takes the place of the one
in progress and falls, slews, holds and rises in that order. A measurement moves the profile, down at once and up to the highest
band above whose lower limit VIN has stood 0.5 V for 100 ms, and over the power cap the frequency step falls by one; in AUTO it brings the rail to the voltage of
its step; a current limit that holds takes the step to 0.
The steps of the profile and the instant at which FSTEP changes are the model's readings (log entries 60 and 61). -/
def Obligations.PowerFollowsItsCommands : Prop :=
  (∀ (s : State) (v : BitVec 32), Served s 0x7001 →
    let seq := (v.extractLsb' 24 8).toNat
    let f := (v.extractLsb' 16 2).toNat
    let mv := 620 + 2 * (v.extractLsb' 0 7).toNat
    let bad := 860 < mv ∨ mv < vmin f ∨ maxStep s.pwr.profile < f
    (obj s 0x7001 1 = 0 → ∃ t, exec (.opCommand v) s = .next t ∧ t.answer = .abort 6 0 ∧ t.pwr = s.pwr) ∧
    (obj s 0x7001 1 ≠ 0 → bad → ∃ t, exec (.opCommand v) s = .next t ∧ t.answer = .ok [] ∧
      t.pwr = { s.pwr with opSeq := seq, opResult := 2 } ∧ obj t 0x7001 0x0A = (obj s 0x7001 0x0A + 1) % 2 ^ 64) ∧
    (obj s 0x7001 1 ≠ 0 → ¬bad →
      let c : OpCmd := { seq := seq, fstep := f, target := mv, stage := .slewing }
      ∃ t, exec (.opCommand v) s = .next t ∧ t.answer = .ok [] ∧ t.pwr.target = mv ∧ t.pwr.opSeq = seq ∧ t.pwr.fstep = s.pwr.fstep ∧
        stepAimed t = f ∧ t.pwr.railUv = railNow s ∧ t.time.now = s.time.now ∧ cyc t = cyc s ∧
        (s.pwr.cmd = none → t.pwr.cmd = (if f < s.pwr.fstep then some { c with stage := .falling f (s.time.now + 45000) }
            else if s.pwr.railUv ≠ mv * 1000 then some c
            else if s.pwr.fstep < f then some { c with stage := .holding (s.time.now + 900000) } else none) ∧
          t.pwr.opResult = if f = s.pwr.fstep ∧ s.pwr.railUv = mv * 1000 then 0 else 1) ∧
        ∀ o, s.pwr.cmd = some o → obj t 0x7001 7 = o.seq ∧ obj t 0x7001 8 = (obj s 0x7001 8 + 1) % 2 ^ 64 ∧
          (∀ g due, o.stage = .falling g due → t.pwr.cmd = some { c with stage := .falling g due }) ∧
          ∀ due, o.stage = .rising due → t.pwr.cmd = some { c with stage := .falling o.fstep due })) ∧
  (∀ (s : State) (c : OpCmd), started s = true → s.pwr.cmd = some c →
    let done (t : State) : Prop := t.pwr.cmd = none ∧ t.pwr.opResult = if s.pwr.opResult = 1 then 0 else s.pwr.opResult
    (∀ g due, c.stage = .falling g due → ∃ t, exec .frequencyChangeDone s = .next t ∧ t.time.now = max s.time.now due ∧
      t.pwr.fstep = g ∧ stepAimed t = c.fstep ∧ t.pwr.railUv = s.pwr.railUv) ∧
    (∀ due, c.stage = .rising due → ∃ t, exec .frequencyChangeDone s = .next t ∧ t.time.now = max s.time.now due ∧
      t.pwr.fstep = c.fstep ∧ done t) ∧
    (∀ due, c.stage = .holding due → ∃ t, exec .railHoldExpiry s = .next t ∧ t.time.now = max s.time.now due ∧
      t.pwr.cmd = some { c with stage := .rising (t.time.now + 45000) } ∧ t.pwr.fstep = s.pwr.fstep) ∧
    (c.stage = .slewing → ∃ t, exec .railTargetReached s = .next t ∧ t.pwr.railUv = c.target * 1000 ∧ t.pwr.fstep = s.pwr.fstep ∧
      t.time.now = max s.time.now (s.pwr.railAt +
        18 * (max s.pwr.railUv (c.target * 1000) - min s.pwr.railUv (c.target * 1000))) ∧
      (s.pwr.fstep < c.fstep → t.pwr.cmd = some { c with stage := .holding (t.time.now + 900000) }) ∧
      (c.fstep ≤ s.pwr.fstep → done t))) ∧
  (∀ (s : State) (v w : Nat), started s = true →
    let now := max s.time.now (s.pwr.measAt + 9000000)
    let p := s.pwr.profile
    let above (q : Nat) : Option Nat := if bandLow q + 500 ≤ v then some ((lget s.pwr.above q none).getD now) else none
    let held (q : Nat) : Prop := q < 3 ∧ ∃ u, above q = some u ∧ u + 9000000000 ≤ now
    let went (t : State) (q : Nat) : Prop := exec (.powerMeasurement v w) s = .next t ∧ t.time.now = now ∧ t.pwr.vinMv = v ∧
      t.pwr.watts = w ∧ t.pwr.measAt = now ∧ t.pwr.profile = q ∧ t.pwr.fstep = s.pwr.fstep ∧ t.pwr.above = [above 0, above 1, above 2]
    (p < profileOf v → ∃ t, went t (profileOf v) ∧ stepAimed t ≤ maxStep (profileOf v)) ∧
    (∀ q, profileOf v ≤ p → q < p → held q → (∀ r, r < q → ¬held r) → ∃ t, went t q) ∧
    (profileOf v ≤ p → (∀ q, q < p → ¬held q) → stepAimed s ≤ maxStep p →
      let cap := powerCap s
      (cap < w → ∃ t, went t p ∧ t.pwr.capHold = true ∧ stepAimed t = stepAimed s - 1) ∧
      let stands (t : State) : Prop :=
        if obj s 0x7001 1 = 0 ∧ s.pwr.cmd = none ∧ s.pwr.target ≠ vmin s.pwr.fstep + obj s 0x7001 9 then
          t.pwr.target = vmin s.pwr.fstep + obj s 0x7001 9 ∧ stepAimed t = s.pwr.fstep
        else t.pwr.cmd = s.pwr.cmd ∧ t.pwr.target = s.pwr.target
      (w ≤ cap → cap * 9 ≤ w * 10 → ∃ t, went t p ∧ stands t ∧ t.pwr.belowSince = none) ∧
      (w * 10 < cap * 9 → obj s 0x7001 1 = 0 → stepAimed s < maxStep p → s.pwr.thermHold = false →
        (∀ t0, s.pwr.belowSince = some t0 → t0 + 900000000 ≤ now → ∃ t, went t p ∧ stepAimed t = stepAimed s + 1) ∧
        (s.pwr.belowSince = none → ∃ t, went t p ∧ stands t ∧ t.pwr.belowSince = some now)))) ∧
  ∀ s : State, started s = true → ∃ t, exec .currentLimitHeld s = .next t ∧ stepAimed t = 0 ∧ t.pwr.capHold = true ∧
    t.pwr.belowSince = none ∧ t.time.now = s.time.now ∧ t.pwr.fstep = s.pwr.fstep

/-- DOZE_ENTRY, DOZE_EXIT, BIVOUAC_ENTRY, WAKE, BASECAMP_ENTRY and SIDEBAND_ADDRESS_MATCH (R387 to R392, R394): a cluster
dozes after DozeIdle of idleness, until work, an event or a timer has come; an idle device leaves its links and asks its stacks to
drain, and with the last of them Bivouac is entered, which a wake that has come meanwhile ends at once. The exit starts on a Wake or
on the sideband address, which is answered with the state; the events held in Bivouac fire late at its end. A write to Wake in Run
restarts the idle timer. The Basecamp state loses the HBM and the keys. When a cluster has been idle, when a stack that drains takes a
request and the byte of the sideband are the model's readings (log entries 63 and 104). -/
def Obligations.SleepAndWake : Prop :=
  (∀ (s : State) (c : BitVec 4), on s = true → c.toNat < clusters s →
    let others (t : State) : Prop := (∀ d, d ≠ c.toNat → cluster t d = cluster s d) ∧ t.ropes = s.ropes ∧
      t.pwr = { s.pwr with idleSince := s.pwr.idleSince.map (fun _ => t.time.now) }
    (obj s 0x7000 6 ≠ 0 → (cluster s c.toNat).doze = false → clusterIdle s c.toNat = true → ∃ t, exec (.dozeEntry c) s = .next t ∧
      t.time.now = max s.time.now (idleFrom s c.toNat + 90000 * obj s 0x7000 6) ∧
      cluster t c.toNat = { cluster s c.toNat with doze := true } ∧ others t ∧
      (∀ i, i < 16 → core t (16 * c.toNat + i) = { core s (16 * c.toNat + i) with roused := false }) ∧
      obj t 0x7000 0x0C = (obj s 0x7000 0x0C + 1) % 2 ^ 64) ∧
    (clusterIdle s c.toNat = false ∨ obj s 0x7000 6 = 0 → exec (.dozeEntry c) s = .next s) ∧
    ((cluster s c.toNat).doze = true →
      let wakes : Prop := clusterIdle s c.toNat = false ∨ ∃ i, i < 16 ∧ (core s (16 * c.toNat + i)).roused = true
      (wakes → ∃ t, exec (.dozeExit c) s = .next t ∧ t.time.now = s.time.now + 100 * dpU s ∧
        cluster t c.toNat = { cluster s c.toNat with doze := false, beatAt := t.time.now } ∧ others t) ∧
      (¬wakes → exec (.dozeExit c) s = .next s))) ∧
  (∀ (s : State) (t0 : Nat), on s = true → s.sys.phase = .run → s.sys.basecampFailed = false → s.pwr.state = 0 →
    obj s 0x7000 7 ≠ 0 → deviceIdle s = true → s.pwr.idleSince = some t0 → ∃ t, exec .bivouacEntry s = .next t ∧
      t.time.now = max s.time.now (t0 + 90000000 * obj s 0x7000 7) ∧
      t.pwr = { s.pwr with state := 1, wakeSrc := none } ∧ t.sys = s.sys ∧ t.obj = s.obj ∧
      (∀ k, k < nStacks s.sys → stackOf t k = { stackOf s k with pendingSr := true }) ∧
      ∀ lp, lp < lps s → port t lp = { port s lp with
        link := if (port s lp).link = 2 then 3 else 4, nextPulse := none, lossFrom := none, missedFrom := none }) ∧
  (∀ s : State, deviceIdle s = false → exec .bivouacEntry s = .next s) ∧
  (∀ (s : State) (k : Nat), started s = true → s.pwr.off = true → (stackOf s k).pendingSr = true →
    (∀ j, j < nStacks s.sys → j ≠ k → (stackOf s j).pendingSr = false) → (∀ e ∈ s.hbm.pch, e.2.deferred = []) →
    ∃ t, exec (.selfRefreshEntry k false) s = .next t ∧ obj t 0x7000 0x0D = (obj s 0x7000 0x0D + 1) % 2 ^ 64 ∧
      (s.pwr.wakeSrc = none → t.pwr.state = 2 ∧ t.pwr.bivouacAt = some s.time.now ∧ t.sys.wakeOut = s.sys.wakeOut) ∧
      ∀ n, s.pwr.wakeSrc = some n → t.pwr.state = 3 ∧ t.pwr.wakeSrc = none ∧ t.sys.wakeOut = true ∧ obj t 0x7000 0x0E = n) ∧
  (∀ (s : State) (k : Nat) (m : ItinEvent), started s = true → s.sys.phase = .run → s.pwr.state = 3 → (stackOf s k).state = 4 →
    (∀ j, j < nStacks s.sys → j ≠ k → (stackOf s j).state ≠ 4) → s.plan.events.drop s.plan.next = [m] → m.typ = 4 →
    m.gated = false → 0 < m.ft → m.ft < ft (advance s 108000) → ∃ t, exec (.selfRefreshExit k) s = .next t ∧ t.pwr.state = 0 ∧
      t.pwr.idleSince = some t.time.now ∧ t.plan.next = s.plan.next + 1 ∧ obj t 0x6801 6 = (obj s 0x6801 6 + 1) % 2 ^ 64 ∧
      ∀ c, c < clusters s → (cluster t c).beatAt = t.time.now) ∧
  (∀ s : State, Served s 0x7000 →
    let exits (src : Nat) (t : State) : Prop := t.pwr = { s.pwr with state := 3, bivouacAt := none, wakeSrc := none } ∧
      t.sys = { s.sys with wakeOut := true } ∧ obj t 0x7000 0x0E = src ∧ t.hbm = s.hbm ∧ t.plan = s.plan
    (s.pwr.state = 2 → ∃ t, exec .wake s = .next t ∧ t.answer = .ok [] ∧ exits 2 t) ∧
    (s.pwr.state = 1 → exec .wake s = .next { s with pwr := { s.pwr with wakeSrc := some 2 }, answer := .ok [] }) ∧
    (s.pwr.state = 3 → exec .wake s = .next { s with answer := .ok [] }) ∧
    (s.pwr.state = 0 → ∀ v : Byte, v.toNat ≤ 1 →
      let t : State := { s with pwr := { s.pwr with idleSince := some s.time.now }, answer := .ok [] }
      exec .wake s = .next t ∧ exec (.objectWrite 0x7000 9 [v]) s = .next t)) ∧
  (∀ (s : State) (t0 : Nat), started s = true → s.pwr.state = 2 → s.pwr.bivouacAt = some t0 → obj s 0x7000 8 ≠ 0 →
    ∃ t, exec .basecampEntry s = .next t ∧ t.sys.inBasecamp = true ∧ t.sys.faultN = false ∧ t.xlat.keys = [] ∧ t.hbm.mem = [] ∧
      t.hbm.media = [] ∧ t.hbm.save = none ∧ t.plan = s.plan ∧
      t.time.now = max s.time.now (t0 + 90000000 * obj s 0x7000 8) ∧ ∀ lp, lp < lps s → (port t lp).link = 0) ∧
  ∀ (s : State) (a : BitVec 7) (rd : Bool), s.sys.phase ≠ .unpowered → s.sys.vinLow = false → s.sys.frozen = false →
    (a.toNat ≠ 0x58 + s.sys.sbaddr.toNat → exec (.sidebandAddressMatch a rd) s = .next s) ∧
    (a.toNat = 0x58 + s.sys.sbaddr.toNat →
      let acks (b : Byte) : State := { s with out := .sideband (if rd then some b else none) :: s.out }
      (s.sys.inBasecamp = true → s.sys.basecampFailed = true → exec (.sidebandAddressMatch a rd) s = .next (acks 3)) ∧
      (s.sys.inBasecamp = true → s.sys.basecampFailed = false → exec (.sidebandAddressMatch a rd) s =
        .next { acks 3 with sys := { s.sys with inBasecamp := false, phase := .held, pendingCause := 4 } }) ∧
      (started s = true → s.sys.phase = .run →
        (s.pwr.state = 2 → ∃ t, exec (.sidebandAddressMatch a rd) s = .next t ∧ t.out = (acks 2).out ∧
          t.pwr = { s.pwr with state := 3, bivouacAt := none, wakeSrc := none } ∧ t.sys = { s.sys with wakeOut := true } ∧
          obj t 0x7000 0x0E = 1) ∧
        (s.pwr.state = 1 → exec (.sidebandAddressMatch a rd) s =
          .next { acks 0 with pwr := { s.pwr with wakeSrc := some 1 } }) ∧
        (s.pwr.state = 0 → exec (.sidebandAddressMatch a rd) s = .next (acks 0)) ∧
        (s.pwr.state = 3 → exec (.sidebandAddressMatch a rd) s = .next (acks 4))) ∧
      (s.sys.inBasecamp = false → s.sys.phase = .held → exec (.sidebandAddressMatch a rd) s =
        .next (acks (if s.sys.pendingCause = 4 then 4 else 0))))


/-! ### The lease, service, reset and start-up -/

/-- LEASE_GRANT, LEASE_REVOKE, LEASE_QUERY, LEASE_EXPIRY and WRITE_FENCE_CLEAR (R402 to R406): a grant holds for 300
ms and takes its EPOCH, which a stale one does not; each request is answered with the state of the lease, and a device
is read-only while it holds none and has lost its peer, or while WriteFence is set, whose changes are stored. That a grant is
accepted out of service too is the model's reading (log entry 64). -/
def Obligations.LeaseDecidesWhoWrites : Prop :=
  (∀ (s : State) (q : CanReq),
    let e := BitVec.ofNat 32 (qByte q 0 4)
    let told (t : State) : Prop := t.out = canReply s q 0x11 (toLE 4 t.rcv.epoch.toNat ++
      toLE 1 (b2n t.rcv.leaseUntil.isSome + 2 * b2n t.rcv.readOnly + 4 * b2n (!isPeerPresent t) + 8 * b2n t.rcv.writeFence)
        ++ [0, 0, 0]) :: s.out ∧ t.ropes = s.ropes ∧ t.time = s.time
    let stale := s.rcv.ownEpoch.isSome = true ∧ epochBelow e s.rcv.epoch = true
    let granted (t : State) : Prop := t.rcv.leaseUntil = some (s.time.now + 27000000000) ∧ t.rcv.epoch = e ∧
      t.rcv.ownEpoch = some e ∧ t.rcv.readOnly = t.rcv.writeFence ∧
      (s.rcv.ownEpoch = some e → t.rcv.writeFence = false ∧ (s.rcv.writeFence = true → (key 0x8002 7, 0) ∈ t.dict.storeQ))
    (leaseHears s q = false → ∀ c ∈ [Instr.leaseGrant q, .leaseRevoke q, .leaseQuery q],
      exec c s = .next (if canHears s q then bump s 0x0200 4 else s)) ∧
    (leaseHears s q = true → leaseOver s = true →
      (∀ c ∈ [Instr.leaseRevoke q, .leaseQuery q], ∃ t, exec c s = .next t ∧
        told t ∧ t.rcv.leaseUntil = none ∧ t.rcv.readOnly = mustNotWrite t ∧ obj t 0x8002 0x0A = (obj s 0x8002 0x0A + 1) % 2 ^ 64) ∧
      (¬stale → ∃ t, exec (.leaseGrant q) s = .next t ∧ told t ∧ granted t ∧
        obj t 0x8002 0x0A = (obj s 0x8002 0x0A + 1) % 2 ^ 64)) ∧
    (leaseHears s q = true → leaseOver s = false →
      (stale → ∃ t, exec (.leaseGrant q) s = .next t ∧ told t ∧ t.rcv = s.rcv ∧
        obj t 0x8002 0x0C = (obj s 0x8002 0x0C + 1) % 2 ^ 64) ∧
      (¬stale → ∃ t, exec (.leaseGrant q) s = .next t ∧ told t ∧ granted t ∧
        t.rcv.writeFence = (s.rcv.writeFence && s.rcv.ownEpoch != some e)) ∧
      (∃ t, exec (.leaseRevoke q) s = .next t ∧ told t ∧ t.rcv.leaseUntil = none ∧ t.rcv.epoch = s.rcv.epoch ∧
        t.rcv.readOnly = mustNotWrite t) ∧
      ∃ t, exec (.leaseQuery q) s = .next t ∧ told t ∧ t.rcv = s.rcv)) ∧
  (∀ (s : State) (u : Nat), started s = true → s.rcv.leaseUntil = some u → ∃ t, exec .leaseExpiry s = .next t ∧
    t.time.now = max s.time.now u ∧
    t.rcv.leaseUntil = none ∧ obj t 0x8002 0x0A = (obj s 0x8002 0x0A + 1) % 2 ^ 64 ∧ t.rcv.readOnly = mustNotWrite t ∧
    (t.rcv.readOnly = true → s.rcv.readOnly = false → t.rcv.writeFence = true ∧
      (s.rcv.writeFence = false → (key 0x8002 7, 1) ∈ t.dict.storeQ))) ∧
  ∀ s : State, Served s 0x8002 → ∃ t, exec .writeFenceClear s = .next t ∧ t.answer = .ok [] ∧ t.rcv.readOnly = mustNotWrite t ∧
    (s.rcv.readOnly = true ∨ isPeerPresent s = true ∨ s.rcv.leaseUntil ≠ none → t.rcv.writeFence = false ∧
      (s.rcv.writeFence = true → (key 0x8002 7, 0) ∈ t.dict.storeQ))


/-- SERVICE_CMD_OUT, SERVICE_CMD_RETURN, BASECAMP_WD_EXPIRY, BASECAMP_ECC_ERROR, THERMAL_SAMPLE and ALERT_CLEAR (R408,
R409, R438, R439): each takes the device out of service or returns it, when no other condition holds; a lease drops
when FAULT_N falls. Heat warns, then slows, then shuts down; in the thermal shutdown THERM_N rises where every sensor has cooled. -/
def Obligations.ServiceFollowsItsConditions : Prop :=
  (∀ s : State, Served s 0x8001 →
    (∃ t, exec .serviceCmdOut s = .next t ∧ t.answer = .ok [] ∧ t.sys.svcOut = true ∧ t.sys.faultN = false ∧
      (s.sys.faultN = true → t.rcv.leaseUntil = none) ∧ t.rcv.readOnly = mustNotWrite t ∧ t.ropes = s.ropes) ∧
    let back : State := { s with sys := { s.sys with svcOut := false } }
    (inService back = false → ∃ t, exec .serviceCmdReturn s = .next t ∧ t.answer = .abort 6 0 ∧ t.sys = s.sys ∧ t.rcv = s.rcv) ∧
    (inService back = true → ∃ t, exec .serviceCmdReturn s = .next t ∧ t.answer = .ok [] ∧ t.sys.svcOut = false ∧
      t.sys.faultN = true ∧ t.ropes = s.ropes ∧
      ∀ lp, lp < lps s → s.sys.faultN = false → active t lp = true → (port t lp).nextPulse = some s.time.now)) ∧
  (∀ s : State, s.sys.phase ≠ .unpowered → s.sys.frozen = false → s.sys.basecampFailed = false →
    let down (t : State) : Prop := t.sys.basecampFailed = true ∧ t.sys.faultN = false ∧
      (s.sys.faultN = true → t.rcv.leaseUntil = none) ∧ t.ropes = s.ropes
    (∃ t, exec .basecampWdExpiry s = .next t ∧ down t ∧ t.sys.failCause = 1 ∧ t.sys.wdExpiries = (s.sys.wdExpiries + 1) % 2 ^ 32) ∧
    ∃ t, exec .basecampEccError s = .next t ∧ down t ∧ t.sys.failCause = 2 ∧ t.sys.wdExpiries = s.sys.wdExpiries) ∧
  (∀ (s : State) (die hbm : List Int), started s = true → hbm.length = nStacks s.sys →
    let d := (die.max?).getD s.sys.dieTemp
    let h := (hbm.max?).getD 0
    let hot : Int := (obj s 0x1030 3 : Int)
    let now := max s.time.now (s.sys.thermAt + 9000000)
    let read (t : State) : Prop := exec (.thermalSample die hbm) s = .next t ∧ t.sys.dieTemp = d ∧ t.time.now = now ∧
      t.sys.thermAt = now ∧ (∀ k, k < nStacks s.sys → (stackOf t k).temp = hbm.getD k 0) ∧
      t.sys.thermWarn = decide ((obj s 0x1030 2 : Int) ≤ d ∨ 85 ≤ h)
    (115 ≤ d ∨ 105 ≤ h → ∃ t, read t ∧ t.sys.thermalShut = true ∧ (hot ≤ d ∨ 95 ≤ h → t.sys.thermN = false) ∧ t.sys.faultN = false ∧ t.sys.wakeOut = false ∧
      t.sys.thermShutdowns = (s.sys.thermShutdowns + 1) % 2 ^ 32 ∧ ∀ k, k < nStacks s.sys → (stackOf t k).state = 4) ∧
    (d < 115 → h < 105 → hot ≤ d ∨ 95 ≤ h →
      (s.sys.thermN = true → ∃ t, read t ∧ t.sys.thermN = false ∧ stepAimed t = 0 ∧ t.pwr.thermHold = true ∧
        obj t 0x1030 6 = (obj s 0x1030 6 + 1) % 2 ^ 64) ∧
      (s.sys.thermN = false → ∃ t, read t ∧ t.sys.thermN = false ∧ stepAimed t = 0 ∧ obj t 0x1030 6 = obj s 0x1030 6 ∧
        (stepAimed s = 0 → t.pwr = { s.pwr with thermHold := true, coolSince := none }))) ∧
    (d < 115 → h < 95 → d < hot → ∃ t, read t ∧ t.sys.thermN = (s.sys.thermN || (decide (d ≤ hot - 5) && decide (h ≤ 90))) ∧
      (d < hot - 5 → t.pwr.coolSince = some (s.pwr.coolSince.getD now) ∧
        t.pwr.thermHold = (s.pwr.thermHold && decide (now < s.pwr.coolSince.getD now + 900000000))) ∧
      (hot - 5 ≤ d → t.pwr.coolSince = none ∧ t.pwr.thermHold = s.pwr.thermHold))) ∧
  (∀ (s : State) (die hbm : List Int), s.sys.phase = .run ∨ s.sys.phase = .starting → s.sys.frozen = false →
    s.sys.inBasecamp = false → s.sys.thermalShut = true → hbm.length = nStacks s.sys →
    let d := (die.max?).getD s.sys.dieTemp
    let h := (hbm.max?).getD 0
    ∃ t, exec (.thermalSample die hbm) s = .next t ∧ t.sys.dieTemp = d ∧ t.pwr = s.pwr ∧ t.obj = s.obj ∧
      (∀ k, k < nStacks s.sys → stackOf t k = { stackOf s k with temp := hbm.getD k 0 }) ∧
      t.sys.thermN = (s.sys.thermN || (decide (d ≤ (obj s 0x1030 3 : Int) - 5) && decide (h ≤ 90)))) ∧
  ∀ s : State, Served s 0x1030 → exec .alertClear s = .next { s with cairn := { s.cairn with alert := false }, answer := .ok [] }

/-- RESET, RECOVERY_RESET, FREEZE, VIN_UNDERVOLTAGE, VIN_VALID, START_T0 and STARTUP_COMPLETE (R350, R375, R380, R391, R406, R415,
R423, R428 to R430, R434): a reset takes every domain back but the always-on one and the MRAM, after the stores that wait;
T0 samples the straps, puts the stored values in force, WriteFence among them, and starts rail and FT, 2 ms later the ports and 2 to
10 ms later the lead ropes; service begins 60 ms later at the earliest, or 118 ms where a stack was trained twice. The events held
over the Basecamp state fire then. A freeze stops the clocks and keeps the memories; without VIN no pin is driven low. What a reset
keeps, what a cut store leaves, the instants of start-up and the events after the Basecamp state are the model's readings (log
entries 65, 66, 87 and 106). -/
def Obligations.ResetAndStartUp : Prop :=
  (∀ s : State,
    let anew (t : State) : Prop := t.sys.phase = .held ∧ t.time.now = s.time.now ∧ t.latched = [] ∧ t.ropes = [] ∧
      t.clusters = [] ∧ t.ports = [] ∧ t.frames = [] ∧ t.col = {} ∧ t.hbm.mem = [] ∧ t.xlat.keys = [] ∧ t.plan = {} ∧
      t.cairn.ring = s.cairn.ring ∧ t.dict.storeQ = [] ∧ t.rcv = {} ∧
      (∀ k, (∀ e ∈ s.dict.storeQ, e.1 ≠ k) → mfind t.stored k = mfind s.stored k) ∧
      (∀ k v, s.dict.storeQ = [(k, v)] → mfind t.stored k = some v) ∧ (s.sys.basecampFailed = false → t.obj = [])
    (s.sys.phase ≠ .unpowered → ∃ t, exec .reset s = .next t ∧ anew t ∧ t.sys.resetN = false ∧
      t.sys.pendingCause = if s.sys.frozen then 3 else 2) ∧
    (Served s 0x8001 → ∃ t, exec .recoveryReset s = .next t ∧ anew t ∧ t.answer = .ok [] ∧ t.sys.pendingCause = 5)) ∧
  (∀ s : State,
    (s.sys.phase = .held → exec .freeze s = .next { s with sys := { s.sys with freezeN := false } }) ∧
    (s.sys.phase = .starting ∨ s.sys.phase = .run → ∃ t, exec .freeze s = .next t ∧ t.sys.frozen = true ∧ t.sys.freezeN = false ∧
      t.sys.faultN = false ∧ t.hbm.mem = s.hbm.mem ∧ t.clusters = s.clusters ∧ t.ropes = s.ropes ∧
      t.pwr.railUv = railNow s ∧ ∀ k, k < nStacks s.sys → (stackOf t k).state = 4)) ∧
  (∀ (s : State) (torn : Bool), s.sys.phase ≠ .unpowered → ∃ t, exec (.vinUndervoltage torn) s = .next t ∧
    t.sys.phase = .unpowered ∧ t.sys.vinLow = true ∧ t.sys.faultN = false ∧ t.sys.wakeOut = false ∧ t.sys.thermN = true ∧
    alertStatus t = 0 ∧ t.cairn.buffer = [] ∧ t.dict.storeQ = [] ∧ (torn = false → t.cairn.ring = s.cairn.ring) ∧
    (∀ n, n ≠ s.cairn.nextSeq % 524288 → mfind t.cairn.ring n = mfind s.cairn.ring n) ∧
    ∀ k, mfind t.stored k = mfind s.stored k ∨ ∃ v, (k, v) ∈ s.dict.storeQ ∧ mfind t.stored k = some v) ∧
  (∀ s : State, s.sys.phase = .unpowered → ∃ t, exec .vinValid s = .next t ∧ t.sys.phase = .held ∧ t.sys.vinLow = false ∧
    t.sys.pendingCause = 1 ∧ t.sys.sbaddr = s.sys.sbPins ∧ t.sys.thermShutdowns = 0 ∧ t.cairn.ring = s.cairn.ring ∧
    t.stored = s.stored ∧ t.obj = [] ∧ t.hbm.mem = [] ∧ t.rcv = {} ∧ cairnTokens t = 4096 * 900000) ∧
  (∀ s : State, s.sys.phase = .held →
    (s.sys.thermalShut = true → 95 < s.sys.dieTemp → exec .startT0 s = .next s) ∧
    (s.sys.thermalShut = false ∨ s.sys.dieTemp ≤ 95 → s.sys.pendingCause ≠ 4 → ∃ t, exec .startT0 s = .next t ∧
      t.sys.phase = .starting ∧ t.sys.node = s.sys.nodePins ∧ t.sys.sbaddr = s.sys.sbPins ∧ t.sys.resetCause = s.sys.pendingCause ∧
      t.sys.wakeOut = true ∧ t.sys.thermalShut = false ∧ t.sys.t0 = s.time.now ∧ t.latched = s.stored ∧
      (mfind s.stored (key 0x8002 1) ≠ some 1 → s.rcv.leaseUntil = none → t.obj = s.stored ∧ t.rcv.readOnly = false ∧
        (t.rcv.writeFence = true ↔ mfind s.stored (key 0x8002 7) = some 1)) ∧ t.rcv.readOnly = mustNotWrite t ∧
      t.sys.deviceId = BitVec.ofNat 4 (obj t 0x1000 2) ∧ ft t = 0 ∧ t.time.state = (if obj t 0x6800 1 = 0 then 0 else 4) ∧
      t.pwr.fstep = maxStep s.pwr.profile ∧ t.pwr.target = vmin (maxStep s.pwr.profile) + obj t 0x7001 9 ∧
      t.pwr.railUv = t.pwr.target * 1000 ∧
      (∀ lp, lp < lps s → lpDefined t lp = true → lpo t lp 2 = 1 → (port t lp).link = 1 ∧ (port t lp).trainAt = s.time.now + 180000000) ∧
      ∀ c, c < clusters s → (cluster t c).leadRope = 7 ∧ (rope t (c * 128 + 7)).st = .ready ∧
        (rope t (c * 128 + 7)).pl = 2 ∧ (rope t (c * 128 + 7)).pc = (cluster s c).leadEntry ∧
        (cluster t c).beatAt = (cluster t c).startsAt ∧ s.time.now + 180000000 ≤ (cluster t c).startsAt ∧
        (cluster t c).startsAt ≤ s.time.now + 900000000) ∧
    (s.sys.thermalShut = false ∨ s.sys.dieTemp ≤ 95 → s.sys.pendingCause = 4 → ∃ t, exec .startT0 s = .next t ∧
      t.sys.phase = .starting ∧ t.sys.resetCause = 4 ∧ t.sys.wakeOut = true ∧ obj t 0x7000 0x0E = 1 ∧ t.hbm.mem = [] ∧
      t.frames = [] ∧ t.plan = { events := s.plan.events.drop s.plan.next } ∧
      ∀ k v, s.dict.storeQ = [(k, v)] → mfind t.stored k = some v)) ∧
  ∀ s : State, s.sys.phase = .starting → started s = true →
    (s.sys.cairnScanned = false ∨ (∃ k, k < nStacks s.sys ∧ (stackOf s k).state ≠ 2) → exec .startupComplete s = .next s) ∧
    (s.sys.cairnScanned = true → (∀ k, k < nStacks s.sys → (stackOf s k).state = 2) →
      let now := max s.time.now (s.sys.t0 + (if ∃ k, k < nStacks s.sys ∧ (stackOf s k).tried = true then 10620000000 else 5400000000))
      let ran (t : State) : Prop := t.sys.phase = .run ∧ t.time.now = now ∧ t.pwr.idleSince = some now ∧
        t.tbl.sweepNext = (if obj s 0x4800 5 = 0 then none else some (s.tbl.sweepNext.getD (now + 90000000 * obj s 0x4800 5)))
      (s.sys.resetCause ≠ 4 → ∃ t, exec .startupComplete s = .next t ∧ ran t ∧ t.hbm = s.hbm ∧ t.plan = s.plan ∧
        obj t 0x1030 9 = (now - s.sys.t0) / 90000 % 2 ^ 32 ∧
        (s.sys.vinLow = false → s.sys.basecampFailed = false → allFenced s = false → s.sys.fencedOut = false →
          s.sys.svcOut = false → t.sys.faultN = true)) ∧
      ∀ m, s.sys.resetCause = 4 → s.pwr.off = false → s.plan.next = 0 → s.plan.events = [m] → m.typ = 4 → m.gated = false →
        0 < m.ft → m.ft < ft (advanceTo s now) → ∃ t, exec .startupComplete s = .next t ∧ ran t ∧ t.plan = {} ∧
          obj t 0x6801 6 = (obj s 0x6801 6 + 1) % 2 ^ 64)


/-! ### Cairn and the scan dump -/

/-- CAIRN_RECORD_WRITE, CAIRN_SCAN_DONE, RECORD_READ, WINDOW_READ, SNAP_TAKE and SNAP_DONE (R413 to R418): a record
takes the next SEQ, a CRC and the slot of its number; the scan after a reset finds the next SEQ; a read moves the
cursor past what it gave, on CAN FD for Record and in-band only for Window (R362); a snapshot copies the ring into the HBM. SnapLast of an empty ring is the model's reading
(log entry 53). -/
def Obligations.CairnKeepsItsRecords : Prop :=
  (∀ s : State, s.cairn.buffer = [] → exec .cairnRecordWrite s = .next s) ∧
  (∀ (s : State) (b : List Byte) (bs : List (List Byte)), cairnOn s = true → s.sys.cairnScanned = true → s.cairn.buffer = b :: bs →
    b.length = 52 → ∃ t r, exec .cairnRecordWrite s = .next t ∧ t.cairn.buffer = bs ∧ t.cairn.nextSeq = s.cairn.nextSeq + 1 ∧
      t.cairn.dropped = 0 ∧ t.cairn.boot = false ∧ obj t 0x7800 8 = (obj s 0x7800 8 + 1) % 2 ^ 64 ∧
      mfind t.cairn.ring (s.cairn.nextSeq % 524288) = some r ∧ r.length = 64 ∧ slotValid r = true ∧
      ofLE (slice r 0 8) = s.cairn.nextSeq % 2 ^ 64 ∧ ofLE (slice r 20 2) = min s.cairn.dropped 65535 ∧
      ofLE (slice r 23 1) = b2n s.cairn.boot ∧ slice r 8 12 = b.take 12 ∧ slice r 24 36 = b.drop 16 ∧
      t.cairn.alert = (s.cairn.alert || decide (2 ≤ (b.getD 9 0).toNat)) ∧
      ∀ n, n ≠ s.cairn.nextSeq % 524288 → mfind t.cairn.ring n = mfind s.cairn.ring n) ∧
  (∀ s : State, s.sys.phase = .starting → started s = true → s.sys.cairnScanned = false → ∃ t, exec .cairnScanDone s = .next t ∧
    t.time.now = max s.time.now (s.sys.t0 + 1512000000) ∧ t.sys.cairnScanned = true ∧ t.cairn.boot = true ∧ t.cairn.ring = s.cairn.ring ∧
    (∀ e ∈ s.cairn.ring, slotValid e.2 = true → ofLE (slice e.2 0 8) < t.cairn.nextSeq) ∧
    (s.cairn.ring = [] → t.cairn.nextSeq = 0 ∧ obj t 0x7800 7 = 0) ∧
    (cairnOn s = true → obj s 0x7800 9 = 0 → s.cairn.buffer = [] → 1025 * 900000 ≤ cairnTokens s →
      ∃ b, t.cairn.buffer = [b] ∧ b.getD 8 0 = 0x0E ∧ b.length = 52)) ∧
  (∀ s : State,
    let cur := obj s 0x7800 3
    let n := max cur (s.cairn.nextSeq - 524288)
    let m := min 64 (s.cairn.nextSeq - n)
    (cairnServed s = false → exec .recordRead s = .next s) ∧ (agentUp s = false → exec .windowRead s = .next s) ∧
    (s.cairn.nextSeq ≤ cur →
      (cairnServed s = true → exec .recordRead s = .next { s with answer := .ok (List.replicate 64 0) }) ∧
      (agentUp s = true → exec .windowRead s = .next { s with answer := .ok [] })) ∧
    (cur < s.cairn.nextSeq →
      (cairnServed s = true → ∃ t, exec .recordRead s = .next t ∧ t.answer = .ok (ringAt s n) ∧ obj t 0x7800 3 = n + 1 ∧
        t.cairn = s.cairn) ∧
      (agentUp s = true → ∃ t bs, exec .windowRead s = .next t ∧ t.answer = .ok bs ∧ obj t 0x7800 3 = n + m ∧ t.cairn = s.cairn ∧
        bs.length = 64 * m ∧ ∀ i, i < m → slice bs (64 * i) 64 = ringAt s (n + i)))) ∧
  (∀ s : State, Served s 0x7801 →
    let first := s.cairn.nextSeq - 516096
    (s.cairn.snapDue ≠ none ∨ s.pwr.state ≠ 0 → ∃ t, exec .snapTake s = .next t ∧ t.answer = .abort 6 0 ∧ t.cairn = s.cairn) ∧
    (s.cairn.snapDue = none → s.pwr.state = 0 → ∃ t, exec .snapTake s = .next t ∧ t.answer = .ok [] ∧ obj t 0x7801 3 = 0xFF ∧
      obj t 0x7801 4 = first ∧ obj t 0x7801 5 = (s.cairn.nextSeq + 2 ^ 64 - 1) % 2 ^ 64 ∧ obj t 0x7801 6 = ft s ∧
      t.cairn = { s.cairn with snapDue := some (s.time.now + 2880 * (s.cairn.nextSeq - first)) })) ∧
  ∀ (s : State) (u : Nat), on s = true → s.cairn.snapDue = some u →
    let a := obj s 0x7801 4
    let n := (obj s 0x7801 5 + 1) % 2 ^ 64 - a
    let at_ (i : Nat) : Nat := obj s 0x7801 1 + 64 * ((a + i) % 524288)
    n ≤ 524288 → ∃ t, exec .snapDone s = .next t ∧ t.time.now = max s.time.now u ∧ t.cairn = { s.cairn with snapDue := none } ∧
      obj t 0x7801 3 = 1 ∧ (∀ i, i < n → ∀ j, j < 64 → hbmByte t (at_ i + j) = (ringAt s (a + i)).getD j 0) ∧
      ∀ b, (∀ i, i < n → b < at_ i ∨ at_ i + 64 ≤ b) → hbmByte t b = hbmByte s b

/-- COMPACT_GO, COMPACTION_DONE and COMPACTION_RETRY (R419 to R421): a compaction starts at ParamFill 75 % or on a
write of 1 to CompactGo, when no class that excludes it runs, takes 50 ms and changes the half in use, in which the latest value of
each object then stands; a CompactGo while one runs ends with STATE, in service, and changes nothing but the count of aborts (R368);
one that started by itself is tried
again 100 ms after a refusal. When a compaction ends is commanded (log entry 69). -/
def Obligations.CompactionStartsAndEnds : Prop :=
  ∀ s : State,
    let run (t : State) : Prop := t.cairn = { s.cairn with compacting := some (s.time.now + 4500000000), retryAt := none } ∧
      obj t 0x7802 2 = 1 ∧ t.stored = s.stored
    (Served s 0x7802 →
      (s.cairn.compacting ≠ none → serviceState s = 1 →
        exec (.compactGo false) s = .next { bump s 0x0200 7 with answer := .abort 6 0 }) ∧
      (s.cairn.compacting = none → maintTest s 6 (obj s 0x4820 1) = none → ∃ t, exec (.compactGo false) s = .next t ∧
        t.answer = .ok [] ∧ run t) ∧
      (∀ c, s.cairn.compacting = none ∨ serviceState s ≠ 1 → maintTest s 6 (obj s 0x4820 1) = some c →
        ∃ t, exec (.compactGo false) s = .next t ∧
        t.answer = .abort 7 c ∧ obj t 0x7802 2 = 2 ∧ t.cairn.compacting = s.cairn.compacting ∧ t.cairn.retryAt = s.cairn.retryAt)) ∧
    (canUp s = true →
      (paramFill s < 75 ∨ s.cairn.compacting ≠ none ∨ s.cairn.retryAt ≠ none → exec (.compactGo true) s = .next s) ∧
      (75 ≤ paramFill s → s.cairn.compacting = none → s.cairn.retryAt = none →
        (maintTest s 6 (obj s 0x4820 1) = none → ∃ t, exec (.compactGo true) s = .next t ∧ run t) ∧
        ∀ c, maintTest s 6 (obj s 0x4820 1) = some c → ∃ t, exec (.compactGo true) s = .next t ∧ obj t 0x7802 2 = 2 ∧
          t.cairn.compacting = none ∧ t.cairn.retryAt = some (s.time.now + 9000000000))) ∧
    (started s = true → s.cairn.compacting ≠ none → ∃ t, exec .compactionDone s = .next t ∧ t.cairn.compacting = none ∧
      t.stored = s.stored ∧
      (s.dict.storedPlan = [] → (∀ k, k < nStacks s.sys → (stackOf s k).retired = []) →
        t.cairn.paramUsed = (s.stored.map (fun e => (Config.storeBytes e.1).toNat)).sum) ∧
      t.cairn.paramOther = !s.cairn.paramOther ∧ obj t 0x7802 2 = 0 ∧ obj t 0x7802 4 = (obj s 0x7802 4 + 1) % 2 ^ 32) ∧
    ∀ u, started s = true → s.cairn.retryAt = some u →
      (paramFill s < 75 → ∃ t, exec .compactionRetry s = .next t ∧ t.time.now = max s.time.now u ∧
        t.cairn = { s.cairn with retryAt := none }) ∧
      (75 ≤ paramFill s → s.cairn.compacting = none → maintTest s 6 (obj s 0x4820 1) = none → ∃ t, exec .compactionRetry s = .next t ∧
        t.time.now = max s.time.now u ∧ t.cairn.compacting = some (t.time.now + 4500000000) ∧ t.cairn.retryAt = none)

/-- SXDUMP_SEL, SXDUMP_CHAIN and SXDUMP_MEM (R425, R434): while TRST_N is high the dump gives length, chain and words of the selected
target, zeros outside freeze and for the Vault key domain; the address rises with each word, or moves where the update says.
The lengths of chains are free values, and the order of the words of a stack is the model's choice (log entry 20). -/
def Obligations.ScanDumpShowsAFrozenDevice : Prop :=
  ∀ s : State, s.sys.phase ≠ .unpowered →
    (s.sys.trstN = false → (∀ upd, exec (.sxdumpSel upd) s = .next s) ∧ (∀ n, exec (.sxdumpChain n) s = .next s) ∧
      ∀ upd, exec (.sxdumpMem upd) s = .next s) ∧
    (s.sys.trstN = true →
    let sel := s.dbg.sel.toNat
    let addr := s.dbg.addr.toNat
    let frozen := b2n s.sys.frozen
    (∀ upd : BitVec 32, ∃ t v, exec (.sxdumpSel upd) s = .next t ∧ t.out = .tdo v :: s.out ∧ t.dbg.sel = upd.setWidth 16 ∧ t.dbg.rot = 0 ∧ t.dbg.ir = 0xA0 ∧
      (sel = 0x122 → v = BitVec.ofNat 128 (frozen * 2 ^ 31 + 524288)) ∧
      (∀ c, c < clusters s → sel = 0x100 + c → v = BitVec.ofNat 128 (frozen * 2 ^ 31 + 524288)) ∧
      (∀ c, c < clusters s → sel = 0x110 + c → v = BitVec.ofNat 128 (frozen * 2 ^ 31 + 131072)) ∧
      (sel = 0x160 → v = BitVec.ofNat 128 (frozen * 2 ^ 31))) ∧
    (∀ n, ∃ t v, exec (.sxdumpChain n) s = .next t ∧ t.out = .tdo v :: s.out ∧ t.dbg.sel = s.dbg.sel ∧ t.dbg.ir = 0xA1 ∧
      (s.sys.frozen = false ∨ sel = 0x6B → v = 0 ∧ t.dbg.rot = s.dbg.rot) ∧
      (s.sys.frozen = true → sel < nPhys s.sys → t.dbg.rot = (s.dbg.rot + n) % chainLength sel)) ∧
    ∀ upd : BitVec 128, ∃ t v, exec (.sxdumpMem upd) s = .next t ∧ t.out = .tdo v :: s.out ∧
      t.dbg.addr = (if upd.msb then upd.setWidth 64 else s.dbg.addr + 1) ∧
      (s.sys.frozen = false → v = BitVec.ofNat 128 (addr * 2 ^ 64)) ∧
      (∀ c, s.sys.frozen = true → c < clusters s → sel = 0x100 + c → addr < 524288 →
        v = BitVec.ofNat 128 (addr * 2 ^ 64 + ofLE (rdN (cluster s c).scratch (8 * addr) 8))) ∧
      (∀ c, s.sys.frozen = true → c < clusters s → sel = 0x110 + c → addr < 131072 →
        v = BitVec.ofNat 128 (addr * 2 ^ 64 + ofLE (rdN (cluster s c).imem (8 * addr) 8))) ∧
      (s.sys.frozen = true → sel = 0x122 → addr < 524288 →
        v = BitVec.ofNat 128 (addr * 2 ^ 64 + (epSlot s (addr / 4, addr % 4)).toNat % 2 ^ 64)) ∧
      ∀ k, s.sys.frozen = true → k < nStacks s.sys → sel = 0x130 + k → addr < 4831838208 →
        v = BitVec.ofNat 128 (addr * 2 ^ 64 + ofLE (hbmRead s (stackByte s k (8 * addr)) 8)))

/-! ### The machine as a whole -/

/-- A step runs the command at the front of the queue on the state with the queue's rest; with none waiting, time
passes by one tick of FT, which is the model's choice (log entry 1). -/
def Obligations.StepRunsTheFrontCommand : Prop :=
  (∀ (s : State) (c : Instr) (cs : List Instr), s.pending = c :: cs → step s = exec c { s with pending := cs }) ∧
  ∀ s : State, s.pending = [] → ∃ t, step s = .next t ∧ t = { s with time := t.time } ∧ t.time.now = s.time.now + 576 ∧
    (s.time.slewLeft = 0 → t.time.ftOrigin = s.time.ftOrigin ∧ t.time.slewLeft = 0)

/-- Every step goes on, but where the command at the front is use that R106 or R158 calls unsupported (R9): an endpoint INSERT whose
LP, or a FEMIT or a LOCALDISP whose port, the mode in force does not have, or an FNEW with KIND 2 or 3 or LEN above 96. There it
stops with that rule's number. No command is refused. -/
def Obligations.StepStopsOnlyOnUnsupportedUse : Prop :=
  ∀ s : State,
    (∀ c cs rule, s.pending = c :: cs → Unsupported { s with pending := cs } c rule → step s = .fault (.unsupported rule)) ∧
    ((∀ c cs rule, s.pending = c :: cs → ¬Unsupported { s with pending := cs } c rule) → ∃ t, step s = .next t)


/-- The rule-set versions stay consistent over every step (R75, R78, R79, R81, R84): CURRENT is never 0, STAGING is
the version after it, DRAINING the one before it, a commit waits only while both are there, and no version is STAGING
while a discard walk runs. -/
def Obligations.VersionsStayConsistent : Prop :=
  ∀ s t : State, VersionsOk s → step s = .next t → VersionsOk t

/-- Every memory keeps its canonical form over every step: addresses rise and no listed byte is 0 (R132, R134, R136, R323). The form
is the model's (log entry 6). -/
def Obligations.MemoriesStayCanonical : Prop :=
  ∀ s t : State, MemoriesOk s → step s = .next t → MemoriesOk t

/-- The state after reset (R28, R75, R81, R191, R358, R375, R429): no command waits, T0 has not come, FAULT_N is low,
every object holds its default, and no memory lists a byte. CURRENT is 1, and DRAINING, STAGING and in-flight counts
are 0. That no object is stored and no memory lists a byte is the model's choice (log entries 6 and 24). -/
def Obligations.ResetState : Prop :=
  let s := State.reset
  s.pending = [] ∧ s.sys.phase = .held ∧ s.sys.faultN = false ∧ s.obj = [] ∧ s.stored = [] ∧ s.ropes = [] ∧ s.hbm.mem = [] ∧
  s.clusters = [] ∧ s.frames = [] ∧ s.xport.tx = [] ∧ s.xport.rx = [] ∧ s.tm.queues = [] ∧ s.cairn.ring = [] ∧
  s.rcv = {} ∧ VersionsOk s ∧ MemoriesOk s ∧ s.col.ver.current = 1 ∧ s.col.ver.draining = 0 ∧ s.col.ver.staging = 0 ∧
  (∀ k, getO s k = dfltOf s.sys k) ∧ (∀ c, (cluster s c).leadRope = 7) ∧ (∀ lp, linkState s lp = 4 ∨ linkState s lp = 5)
end

