-- ==== Sys2Proof/Laws/Maps.lean ====
section
/-! SUPPORT. Laws of sparse maps and byte memories: read after write, the other keys stay, and the canonical form is
kept by every memory operation. -/

namespace Sys2Proof.Machine

variable {α : Type}

/-! ### Maps -/

@[simp] theorem mfind_mset_same (m : Map α) (k : Nat) (x : α) : mfind (mset m k x) k = some x := by
  induction m with
  | nil => simp [mset, mfind]
  | cons e m ih =>
    obtain ⟨a, v⟩ := e
    simp only [mset]
    split
    · simp [mfind]
    · split
      · simp [mfind]
      · next h _ => simp [mfind, h, ih]

@[simp] theorem mfind_mset_ne (m : Map α) {k j : Nat} (x : α) (h : k ≠ j) : mfind (mset m k x) j = mfind m j := by
  induction m with
  | nil => simp [mset, mfind, h]
  | cons e m ih =>
    obtain ⟨a, v⟩ := e
    simp only [mset]
    split
    · next e => subst e; simp [mfind, h]
    · split
      · simp [mfind, h]
      · simp [mfind, ih]

@[simp] theorem mset_mset (m : Map α) (k : Nat) (x y : α) : mset (mset m k x) k y = mset m k y := by
  induction m with
  | nil => simp [mset]
  | cons e m ih =>
    obtain ⟨a, v⟩ := e
    simp only [mset]
    split
    · simp [mset]
    · split
      · simp [mset]
      · next h1 h2 => simp [mset, h1, h2, ih]

@[simp] theorem mget_mset_same (m : Map α) (k : Nat) (x d : α) : mget (mset m k x) k d = x := by simp [mget]

@[simp] theorem mget_mset_ne (m : Map α) {k j : Nat} (x d : α) (h : k ≠ j) : mget (mset m k x) j d = mget m j d := by
  simp [mget, h]

@[simp] theorem mfind_merase_same (m : Map α) (k : Nat) : mfind (merase m k) k = none := by
  induction m with
  | nil => rfl
  | cons e m ih =>
    obtain ⟨a, v⟩ := e
    by_cases h : a = k
    · simpa [merase, h] using ih
    · simp only [merase] at ih
      simp [merase, h, mfind, ih]

@[simp] theorem mfind_merase_ne (m : Map α) {k j : Nat} (h : k ≠ j) : mfind (merase m k) j = mfind m j := by
  induction m with
  | nil => rfl
  | cons e m ih =>
    obtain ⟨a, v⟩ := e
    simp only [merase] at ih
    by_cases e : a = k
    · subst e; simp [merase, mfind, h, ih]
    · by_cases f : a = j
      · subst f; simp [merase, e, mfind]
      · simp [merase, e, mfind, f, ih]

/-! ### The order of the keys -/

theorem keysRise_cons {a : Nat} {v : α} {m : Map α} (h : keysRise m = true) (lo : ∀ e ∈ m, a < e.1) :
    keysRise ((a, v) :: m) = true := by
  cases m with
  | nil => rfl
  | cons e m =>
    obtain ⟨b, y⟩ := e
    simp [keysRise, lo (b, y) (by simp), h]

theorem keysRise_tail {e : Nat × α} {m : Map α} (h : keysRise (e :: m) = true) : keysRise m = true := by
  cases m with
  | nil => rfl
  | cons f m =>
    obtain ⟨a, v⟩ := e; obtain ⟨b, y⟩ := f
    simp [keysRise] at h
    exact h.2

theorem keysRise_lt {e : Nat × α} {m : Map α} (h : keysRise (e :: m) = true) : ∀ f ∈ m, e.1 < f.1 := by
  induction m generalizing e with
  | nil => simp
  | cons g m ih =>
    obtain ⟨a, v⟩ := e; obtain ⟨b, y⟩ := g
    simp [keysRise] at h
    intro f hf
    rcases List.mem_cons.mp hf with rfl | hf
    · exact h.1
    · exact Nat.lt_trans h.1 (ih h.2 f hf)

theorem mem_mset {m : Map α} {k : Nat} {x : α} {e : Nat × α} (h : e ∈ mset m k x) : e = (k, x) ∨ e ∈ m := by
  induction m with
  | nil => simpa [mset] using h
  | cons f m ih =>
    obtain ⟨a, v⟩ := f
    simp only [mset] at h
    split at h
    · rcases List.mem_cons.mp h with h | h
      · exact .inl h
      · exact .inr (by simp [h])
    · split at h
      · rcases List.mem_cons.mp h with h | h
        · exact .inl h
        · exact .inr h
      · rcases List.mem_cons.mp h with h | h
        · exact .inr (by simp [h])
        · rcases ih h with h | h
          · exact .inl h
          · exact .inr (by simp [h])

theorem keysRise_mset {m : Map α} (k : Nat) (x : α) (h : keysRise m = true) : keysRise (mset m k x) = true := by
  induction m with
  | nil => rfl
  | cons f m ih =>
    obtain ⟨a, v⟩ := f
    simp only [mset]
    split
    · next e => subst e; exact keysRise_cons (keysRise_tail h) (keysRise_lt h)
    · split
      · next h2 =>
        refine keysRise_cons h fun e he => ?_
        rcases List.mem_cons.mp he with rfl | he
        · exact h2
        · exact Nat.lt_trans h2 (keysRise_lt h e he)
      · next h1 h2 =>
        refine keysRise_cons (ih (keysRise_tail h)) fun e he => ?_
        rcases mem_mset he with rfl | he
        · simp; omega
        · exact keysRise_lt h e he

theorem keysRise_filter {m : Map α} (p : Nat × α → Bool) (h : keysRise m = true) : keysRise (m.filter p) = true := by
  induction m with
  | nil => rfl
  | cons f m ih =>
    obtain ⟨a, v⟩ := f
    simp only [List.filter]
    split
    · exact keysRise_cons (ih (keysRise_tail h)) fun e he => keysRise_lt h e (List.mem_filter.mp he).1
    · exact ih (keysRise_tail h)

/-! ### Byte memories -/

@[simp] theorem rd8_wr8_same (m : List Host.Cell) (a : Nat) (b : Byte) : rd8 (wr8 m a b) a = b := by
  unfold rd8 wr8
  split
  · next h => simp [mget, h]
  · simp

@[simp] theorem rd8_wr8_ne (m : List Host.Cell) {a c : Nat} (b : Byte) (h : a ≠ c) : rd8 (wr8 m a b) c = rd8 m c := by
  unfold rd8 wr8
  split
  · simp [mget, h]
  · simp [h]

theorem rd8_wrN_out (bs : List Byte) (m : List Host.Cell) (a c : Nat) (h : c < a ∨ a + bs.length ≤ c) :
    rd8 (wrN m a bs) c = rd8 m c := by
  induction bs generalizing m a with
  | nil => rfl
  | cons b bs ih =>
    simp only [List.length_cons] at h
    rw [wrN, ih _ _ (by omega), rd8_wr8_ne _ _ (by omega)]

theorem rd8_wrN_in (bs : List Byte) (m : List Host.Cell) (a i : Nat) (h : i < bs.length) :
    rd8 (wrN m a bs) (a + i) = bs[i] := by
  induction bs generalizing m a i with
  | nil => simp at h
  | cons b bs ih =>
    cases i with
    | zero => rw [wrN, rd8_wrN_out _ _ _ _ (by omega)]; simp
    | succ i =>
      rw [wrN, show a + (i + 1) = a + 1 + i by omega, ih _ _ _ (by simpa using h)]
      simp

theorem cellsWf_wr8 {m : List Host.Cell} (a : Nat) (b : Byte) (h : cellsWf m = true) : cellsWf (wr8 m a b) = true := by
  simp only [cellsWf, Bool.and_eq_true, List.all_eq_true] at *
  unfold wr8
  split
  · exact ⟨keysRise_filter _ h.1, fun e he => h.2 e (List.mem_filter.mp he).1⟩
  · next hb =>
    refine ⟨keysRise_mset _ _ h.1, fun e he => ?_⟩
    rcases mem_mset he with rfl | he
    · simpa using hb
    · exact h.2 e he

theorem cellsWf_wrN (bs : List Byte) {m : List Host.Cell} (a : Nat) (h : cellsWf m = true) : cellsWf (wrN m a bs) = true := by
  induction bs generalizing m a with
  | nil => exact h
  | cons b bs ih => exact ih (a + 1) (cellsWf_wr8 a b h)

theorem cellsWf_filter {m : List Host.Cell} (p : Host.Cell → Bool) (h : cellsWf m = true) : cellsWf (m.filter p) = true := by
  simp only [cellsWf, Bool.and_eq_true, List.all_eq_true] at *
  exact ⟨keysRise_filter p h.1, fun e he => h.2 e (List.mem_filter.mp he).1⟩

theorem cellsWf_fold_wr8 {β : Type} (l : List β) (f : β → Nat) (g : β → Byte) {m : List Host.Cell}
    (h : cellsWf m = true) : cellsWf (l.foldl (fun m c => wr8 m (f c) (g c)) m) = true := by
  induction l generalizing m with
  | nil => exact h
  | cons c l ih => exact ih (cellsWf_wr8 _ _ h)

end Sys2Proof.Machine
end

