-- ==== Sys2Proof/Laws/State.lean ====
section
/-! SUPPORT. What each named update of the state leaves unchanged, field by field: one lemma per field per update. -/

namespace Sys2Proof.Machine

/-! ### setO -/

@[simp] theorem setO_pending (s : State) (k v : Nat) : (setO s k v).pending = s.pending := rfl
@[simp] theorem setO_free (s : State) (k v : Nat) : (setO s k v).free = s.free := rfl
@[simp] theorem setO_out (s : State) (k v : Nat) : (setO s k v).out = s.out := rfl
@[simp] theorem setO_answer (s : State) (k v : Nat) : (setO s k v).answer = s.answer := rfl
@[simp] theorem setO_sys (s : State) (k v : Nat) : (setO s k v).sys = s.sys := rfl
@[simp] theorem setO_time (s : State) (k v : Nat) : (setO s k v).time = s.time := rfl
@[simp] theorem setO_latched (s : State) (k v : Nat) : (setO s k v).latched = s.latched := rfl
@[simp] theorem setO_stored (s : State) (k v : Nat) : (setO s k v).stored = s.stored := rfl
@[simp] theorem setO_dict (s : State) (k v : Nat) : (setO s k v).dict = s.dict := rfl
@[simp] theorem setO_ports (s : State) (k v : Nat) : (setO s k v).ports = s.ports := rfl
@[simp] theorem setO_xport (s : State) (k v : Nat) : (setO s k v).xport = s.xport := rfl
@[simp] theorem setO_frames (s : State) (k v : Nat) : (setO s k v).frames = s.frames := rfl
@[simp] theorem setO_nextFrame (s : State) (k v : Nat) : (setO s k v).nextFrame = s.nextFrame := rfl
@[simp] theorem setO_nextOut (s : State) (k v : Nat) : (setO s k v).nextOut = s.nextOut := rfl
@[simp] theorem setO_col (s : State) (k v : Nat) : (setO s k v).col = s.col := rfl
@[simp] theorem setO_tbl (s : State) (k v : Nat) : (setO s k v).tbl = s.tbl := rfl
@[simp] theorem setO_pit (s : State) (k v : Nat) : (setO s k v).pit = s.pit := rfl
@[simp] theorem setO_ropes (s : State) (k v : Nat) : (setO s k v).ropes = s.ropes := rfl
@[simp] theorem setO_cores (s : State) (k v : Nat) : (setO s k v).cores = s.cores := rfl
@[simp] theorem setO_clusters (s : State) (k v : Nat) : (setO s k v).clusters = s.clusters := rfl
@[simp] theorem setO_flights (s : State) (k v : Nat) : (setO s k v).flights = s.flights := rfl
@[simp] theorem setO_xlat (s : State) (k v : Nat) : (setO s k v).xlat = s.xlat := rfl
@[simp] theorem setO_scree (s : State) (k v : Nat) : (setO s k v).scree = s.scree := rfl
@[simp] theorem setO_trav (s : State) (k v : Nat) : (setO s k v).trav = s.trav := rfl
@[simp] theorem setO_tm (s : State) (k v : Nat) : (setO s k v).tm = s.tm := rfl
@[simp] theorem setO_hbm (s : State) (k v : Nat) : (setO s k v).hbm = s.hbm := rfl
@[simp] theorem setO_plan (s : State) (k v : Nat) : (setO s k v).plan = s.plan := rfl
@[simp] theorem setO_pwr (s : State) (k v : Nat) : (setO s k v).pwr = s.pwr := rfl
@[simp] theorem setO_rcv (s : State) (k v : Nat) : (setO s k v).rcv = s.rcv := rfl
@[simp] theorem setO_cairn (s : State) (k v : Nat) : (setO s k v).cairn = s.cairn := rfl
@[simp] theorem setO_dbg (s : State) (k v : Nat) : (setO s k v).dbg = s.dbg := rfl

/-! ### setPort -/

@[simp] theorem setPort_pending (s : State) (lp : Nat) (p : Port) : (setPort s lp p).pending = s.pending := rfl
@[simp] theorem setPort_free (s : State) (lp : Nat) (p : Port) : (setPort s lp p).free = s.free := rfl
@[simp] theorem setPort_out (s : State) (lp : Nat) (p : Port) : (setPort s lp p).out = s.out := rfl
@[simp] theorem setPort_answer (s : State) (lp : Nat) (p : Port) : (setPort s lp p).answer = s.answer := rfl
@[simp] theorem setPort_sys (s : State) (lp : Nat) (p : Port) : (setPort s lp p).sys = s.sys := rfl
@[simp] theorem setPort_time (s : State) (lp : Nat) (p : Port) : (setPort s lp p).time = s.time := rfl
@[simp] theorem setPort_obj (s : State) (lp : Nat) (p : Port) : (setPort s lp p).obj = s.obj := rfl
@[simp] theorem setPort_latched (s : State) (lp : Nat) (p : Port) : (setPort s lp p).latched = s.latched := rfl
@[simp] theorem setPort_stored (s : State) (lp : Nat) (p : Port) : (setPort s lp p).stored = s.stored := rfl
@[simp] theorem setPort_dict (s : State) (lp : Nat) (p : Port) : (setPort s lp p).dict = s.dict := rfl
@[simp] theorem setPort_xport (s : State) (lp : Nat) (p : Port) : (setPort s lp p).xport = s.xport := rfl
@[simp] theorem setPort_frames (s : State) (lp : Nat) (p : Port) : (setPort s lp p).frames = s.frames := rfl
@[simp] theorem setPort_nextFrame (s : State) (lp : Nat) (p : Port) : (setPort s lp p).nextFrame = s.nextFrame := rfl
@[simp] theorem setPort_nextOut (s : State) (lp : Nat) (p : Port) : (setPort s lp p).nextOut = s.nextOut := rfl
@[simp] theorem setPort_col (s : State) (lp : Nat) (p : Port) : (setPort s lp p).col = s.col := rfl
@[simp] theorem setPort_tbl (s : State) (lp : Nat) (p : Port) : (setPort s lp p).tbl = s.tbl := rfl
@[simp] theorem setPort_pit (s : State) (lp : Nat) (p : Port) : (setPort s lp p).pit = s.pit := rfl
@[simp] theorem setPort_ropes (s : State) (lp : Nat) (p : Port) : (setPort s lp p).ropes = s.ropes := rfl
@[simp] theorem setPort_cores (s : State) (lp : Nat) (p : Port) : (setPort s lp p).cores = s.cores := rfl
@[simp] theorem setPort_clusters (s : State) (lp : Nat) (p : Port) : (setPort s lp p).clusters = s.clusters := rfl
@[simp] theorem setPort_flights (s : State) (lp : Nat) (p : Port) : (setPort s lp p).flights = s.flights := rfl
@[simp] theorem setPort_xlat (s : State) (lp : Nat) (p : Port) : (setPort s lp p).xlat = s.xlat := rfl
@[simp] theorem setPort_scree (s : State) (lp : Nat) (p : Port) : (setPort s lp p).scree = s.scree := rfl
@[simp] theorem setPort_trav (s : State) (lp : Nat) (p : Port) : (setPort s lp p).trav = s.trav := rfl
@[simp] theorem setPort_tm (s : State) (lp : Nat) (p : Port) : (setPort s lp p).tm = s.tm := rfl
@[simp] theorem setPort_hbm (s : State) (lp : Nat) (p : Port) : (setPort s lp p).hbm = s.hbm := rfl
@[simp] theorem setPort_plan (s : State) (lp : Nat) (p : Port) : (setPort s lp p).plan = s.plan := rfl
@[simp] theorem setPort_pwr (s : State) (lp : Nat) (p : Port) : (setPort s lp p).pwr = s.pwr := rfl
@[simp] theorem setPort_rcv (s : State) (lp : Nat) (p : Port) : (setPort s lp p).rcv = s.rcv := rfl
@[simp] theorem setPort_cairn (s : State) (lp : Nat) (p : Port) : (setPort s lp p).cairn = s.cairn := rfl
@[simp] theorem setPort_dbg (s : State) (lp : Nat) (p : Port) : (setPort s lp p).dbg = s.dbg := rfl

/-! ### setRope -/

@[simp] theorem setRope_pending (s : State) (r : Nat) (x : Rope) : (setRope s r x).pending = s.pending := rfl
@[simp] theorem setRope_free (s : State) (r : Nat) (x : Rope) : (setRope s r x).free = s.free := rfl
@[simp] theorem setRope_out (s : State) (r : Nat) (x : Rope) : (setRope s r x).out = s.out := rfl
@[simp] theorem setRope_answer (s : State) (r : Nat) (x : Rope) : (setRope s r x).answer = s.answer := rfl
@[simp] theorem setRope_sys (s : State) (r : Nat) (x : Rope) : (setRope s r x).sys = s.sys := rfl
@[simp] theorem setRope_time (s : State) (r : Nat) (x : Rope) : (setRope s r x).time = s.time := rfl
@[simp] theorem setRope_obj (s : State) (r : Nat) (x : Rope) : (setRope s r x).obj = s.obj := rfl
@[simp] theorem setRope_latched (s : State) (r : Nat) (x : Rope) : (setRope s r x).latched = s.latched := rfl
@[simp] theorem setRope_stored (s : State) (r : Nat) (x : Rope) : (setRope s r x).stored = s.stored := rfl
@[simp] theorem setRope_dict (s : State) (r : Nat) (x : Rope) : (setRope s r x).dict = s.dict := rfl
@[simp] theorem setRope_ports (s : State) (r : Nat) (x : Rope) : (setRope s r x).ports = s.ports := rfl
@[simp] theorem setRope_xport (s : State) (r : Nat) (x : Rope) : (setRope s r x).xport = s.xport := rfl
@[simp] theorem setRope_frames (s : State) (r : Nat) (x : Rope) : (setRope s r x).frames = s.frames := rfl
@[simp] theorem setRope_nextFrame (s : State) (r : Nat) (x : Rope) : (setRope s r x).nextFrame = s.nextFrame := rfl
@[simp] theorem setRope_nextOut (s : State) (r : Nat) (x : Rope) : (setRope s r x).nextOut = s.nextOut := rfl
@[simp] theorem setRope_col (s : State) (r : Nat) (x : Rope) : (setRope s r x).col = s.col := rfl
@[simp] theorem setRope_tbl (s : State) (r : Nat) (x : Rope) : (setRope s r x).tbl = s.tbl := rfl
@[simp] theorem setRope_pit (s : State) (r : Nat) (x : Rope) : (setRope s r x).pit = s.pit := rfl
@[simp] theorem setRope_cores (s : State) (r : Nat) (x : Rope) : (setRope s r x).cores = s.cores := rfl
@[simp] theorem setRope_clusters (s : State) (r : Nat) (x : Rope) : (setRope s r x).clusters = s.clusters := rfl
@[simp] theorem setRope_flights (s : State) (r : Nat) (x : Rope) : (setRope s r x).flights = s.flights := rfl
@[simp] theorem setRope_xlat (s : State) (r : Nat) (x : Rope) : (setRope s r x).xlat = s.xlat := rfl
@[simp] theorem setRope_scree (s : State) (r : Nat) (x : Rope) : (setRope s r x).scree = s.scree := rfl
@[simp] theorem setRope_trav (s : State) (r : Nat) (x : Rope) : (setRope s r x).trav = s.trav := rfl
@[simp] theorem setRope_tm (s : State) (r : Nat) (x : Rope) : (setRope s r x).tm = s.tm := rfl
@[simp] theorem setRope_hbm (s : State) (r : Nat) (x : Rope) : (setRope s r x).hbm = s.hbm := rfl
@[simp] theorem setRope_plan (s : State) (r : Nat) (x : Rope) : (setRope s r x).plan = s.plan := rfl
@[simp] theorem setRope_pwr (s : State) (r : Nat) (x : Rope) : (setRope s r x).pwr = s.pwr := rfl
@[simp] theorem setRope_rcv (s : State) (r : Nat) (x : Rope) : (setRope s r x).rcv = s.rcv := rfl
@[simp] theorem setRope_cairn (s : State) (r : Nat) (x : Rope) : (setRope s r x).cairn = s.cairn := rfl
@[simp] theorem setRope_dbg (s : State) (r : Nat) (x : Rope) : (setRope s r x).dbg = s.dbg := rfl

/-! ### setCore -/

@[simp] theorem setCore_pending (s : State) (k : Nat) (x : Core) : (setCore s k x).pending = s.pending := rfl
@[simp] theorem setCore_free (s : State) (k : Nat) (x : Core) : (setCore s k x).free = s.free := rfl
@[simp] theorem setCore_out (s : State) (k : Nat) (x : Core) : (setCore s k x).out = s.out := rfl
@[simp] theorem setCore_answer (s : State) (k : Nat) (x : Core) : (setCore s k x).answer = s.answer := rfl
@[simp] theorem setCore_sys (s : State) (k : Nat) (x : Core) : (setCore s k x).sys = s.sys := rfl
@[simp] theorem setCore_time (s : State) (k : Nat) (x : Core) : (setCore s k x).time = s.time := rfl
@[simp] theorem setCore_obj (s : State) (k : Nat) (x : Core) : (setCore s k x).obj = s.obj := rfl
@[simp] theorem setCore_latched (s : State) (k : Nat) (x : Core) : (setCore s k x).latched = s.latched := rfl
@[simp] theorem setCore_stored (s : State) (k : Nat) (x : Core) : (setCore s k x).stored = s.stored := rfl
@[simp] theorem setCore_dict (s : State) (k : Nat) (x : Core) : (setCore s k x).dict = s.dict := rfl
@[simp] theorem setCore_ports (s : State) (k : Nat) (x : Core) : (setCore s k x).ports = s.ports := rfl
@[simp] theorem setCore_xport (s : State) (k : Nat) (x : Core) : (setCore s k x).xport = s.xport := rfl
@[simp] theorem setCore_frames (s : State) (k : Nat) (x : Core) : (setCore s k x).frames = s.frames := rfl
@[simp] theorem setCore_nextFrame (s : State) (k : Nat) (x : Core) : (setCore s k x).nextFrame = s.nextFrame := rfl
@[simp] theorem setCore_nextOut (s : State) (k : Nat) (x : Core) : (setCore s k x).nextOut = s.nextOut := rfl
@[simp] theorem setCore_col (s : State) (k : Nat) (x : Core) : (setCore s k x).col = s.col := rfl
@[simp] theorem setCore_tbl (s : State) (k : Nat) (x : Core) : (setCore s k x).tbl = s.tbl := rfl
@[simp] theorem setCore_pit (s : State) (k : Nat) (x : Core) : (setCore s k x).pit = s.pit := rfl
@[simp] theorem setCore_ropes (s : State) (k : Nat) (x : Core) : (setCore s k x).ropes = s.ropes := rfl
@[simp] theorem setCore_clusters (s : State) (k : Nat) (x : Core) : (setCore s k x).clusters = s.clusters := rfl
@[simp] theorem setCore_flights (s : State) (k : Nat) (x : Core) : (setCore s k x).flights = s.flights := rfl
@[simp] theorem setCore_xlat (s : State) (k : Nat) (x : Core) : (setCore s k x).xlat = s.xlat := rfl
@[simp] theorem setCore_scree (s : State) (k : Nat) (x : Core) : (setCore s k x).scree = s.scree := rfl
@[simp] theorem setCore_trav (s : State) (k : Nat) (x : Core) : (setCore s k x).trav = s.trav := rfl
@[simp] theorem setCore_tm (s : State) (k : Nat) (x : Core) : (setCore s k x).tm = s.tm := rfl
@[simp] theorem setCore_hbm (s : State) (k : Nat) (x : Core) : (setCore s k x).hbm = s.hbm := rfl
@[simp] theorem setCore_plan (s : State) (k : Nat) (x : Core) : (setCore s k x).plan = s.plan := rfl
@[simp] theorem setCore_pwr (s : State) (k : Nat) (x : Core) : (setCore s k x).pwr = s.pwr := rfl
@[simp] theorem setCore_rcv (s : State) (k : Nat) (x : Core) : (setCore s k x).rcv = s.rcv := rfl
@[simp] theorem setCore_cairn (s : State) (k : Nat) (x : Core) : (setCore s k x).cairn = s.cairn := rfl
@[simp] theorem setCore_dbg (s : State) (k : Nat) (x : Core) : (setCore s k x).dbg = s.dbg := rfl

/-! ### setCluster -/

@[simp] theorem setCluster_pending (s : State) (c : Nat) (x : Cluster) : (setCluster s c x).pending = s.pending := rfl
@[simp] theorem setCluster_free (s : State) (c : Nat) (x : Cluster) : (setCluster s c x).free = s.free := rfl
@[simp] theorem setCluster_out (s : State) (c : Nat) (x : Cluster) : (setCluster s c x).out = s.out := rfl
@[simp] theorem setCluster_answer (s : State) (c : Nat) (x : Cluster) : (setCluster s c x).answer = s.answer := rfl
@[simp] theorem setCluster_sys (s : State) (c : Nat) (x : Cluster) : (setCluster s c x).sys = s.sys := rfl
@[simp] theorem setCluster_time (s : State) (c : Nat) (x : Cluster) : (setCluster s c x).time = s.time := rfl
@[simp] theorem setCluster_obj (s : State) (c : Nat) (x : Cluster) : (setCluster s c x).obj = s.obj := rfl
@[simp] theorem setCluster_latched (s : State) (c : Nat) (x : Cluster) : (setCluster s c x).latched = s.latched := rfl
@[simp] theorem setCluster_stored (s : State) (c : Nat) (x : Cluster) : (setCluster s c x).stored = s.stored := rfl
@[simp] theorem setCluster_dict (s : State) (c : Nat) (x : Cluster) : (setCluster s c x).dict = s.dict := rfl
@[simp] theorem setCluster_ports (s : State) (c : Nat) (x : Cluster) : (setCluster s c x).ports = s.ports := rfl
@[simp] theorem setCluster_xport (s : State) (c : Nat) (x : Cluster) : (setCluster s c x).xport = s.xport := rfl
@[simp] theorem setCluster_frames (s : State) (c : Nat) (x : Cluster) : (setCluster s c x).frames = s.frames := rfl
@[simp] theorem setCluster_nextFrame (s : State) (c : Nat) (x : Cluster) : (setCluster s c x).nextFrame = s.nextFrame := rfl
@[simp] theorem setCluster_nextOut (s : State) (c : Nat) (x : Cluster) : (setCluster s c x).nextOut = s.nextOut := rfl
@[simp] theorem setCluster_col (s : State) (c : Nat) (x : Cluster) : (setCluster s c x).col = s.col := rfl
@[simp] theorem setCluster_tbl (s : State) (c : Nat) (x : Cluster) : (setCluster s c x).tbl = s.tbl := rfl
@[simp] theorem setCluster_pit (s : State) (c : Nat) (x : Cluster) : (setCluster s c x).pit = s.pit := rfl
@[simp] theorem setCluster_ropes (s : State) (c : Nat) (x : Cluster) : (setCluster s c x).ropes = s.ropes := rfl
@[simp] theorem setCluster_cores (s : State) (c : Nat) (x : Cluster) : (setCluster s c x).cores = s.cores := rfl
@[simp] theorem setCluster_flights (s : State) (c : Nat) (x : Cluster) : (setCluster s c x).flights = s.flights := rfl
@[simp] theorem setCluster_xlat (s : State) (c : Nat) (x : Cluster) : (setCluster s c x).xlat = s.xlat := rfl
@[simp] theorem setCluster_scree (s : State) (c : Nat) (x : Cluster) : (setCluster s c x).scree = s.scree := rfl
@[simp] theorem setCluster_trav (s : State) (c : Nat) (x : Cluster) : (setCluster s c x).trav = s.trav := rfl
@[simp] theorem setCluster_tm (s : State) (c : Nat) (x : Cluster) : (setCluster s c x).tm = s.tm := rfl
@[simp] theorem setCluster_hbm (s : State) (c : Nat) (x : Cluster) : (setCluster s c x).hbm = s.hbm := rfl
@[simp] theorem setCluster_plan (s : State) (c : Nat) (x : Cluster) : (setCluster s c x).plan = s.plan := rfl
@[simp] theorem setCluster_pwr (s : State) (c : Nat) (x : Cluster) : (setCluster s c x).pwr = s.pwr := rfl
@[simp] theorem setCluster_rcv (s : State) (c : Nat) (x : Cluster) : (setCluster s c x).rcv = s.rcv := rfl
@[simp] theorem setCluster_cairn (s : State) (c : Nat) (x : Cluster) : (setCluster s c x).cairn = s.cairn := rfl
@[simp] theorem setCluster_dbg (s : State) (c : Nat) (x : Cluster) : (setCluster s c x).dbg = s.dbg := rfl

/-! ### setShed -/

@[simp] theorem setShed_pending (s : State) (c : Nat) (x : Shed) : (setShed s c x).pending = s.pending := rfl
@[simp] theorem setShed_free (s : State) (c : Nat) (x : Shed) : (setShed s c x).free = s.free := rfl
@[simp] theorem setShed_out (s : State) (c : Nat) (x : Shed) : (setShed s c x).out = s.out := rfl
@[simp] theorem setShed_answer (s : State) (c : Nat) (x : Shed) : (setShed s c x).answer = s.answer := rfl
@[simp] theorem setShed_sys (s : State) (c : Nat) (x : Shed) : (setShed s c x).sys = s.sys := rfl
@[simp] theorem setShed_time (s : State) (c : Nat) (x : Shed) : (setShed s c x).time = s.time := rfl
@[simp] theorem setShed_obj (s : State) (c : Nat) (x : Shed) : (setShed s c x).obj = s.obj := rfl
@[simp] theorem setShed_latched (s : State) (c : Nat) (x : Shed) : (setShed s c x).latched = s.latched := rfl
@[simp] theorem setShed_stored (s : State) (c : Nat) (x : Shed) : (setShed s c x).stored = s.stored := rfl
@[simp] theorem setShed_dict (s : State) (c : Nat) (x : Shed) : (setShed s c x).dict = s.dict := rfl
@[simp] theorem setShed_ports (s : State) (c : Nat) (x : Shed) : (setShed s c x).ports = s.ports := rfl
@[simp] theorem setShed_xport (s : State) (c : Nat) (x : Shed) : (setShed s c x).xport = s.xport := rfl
@[simp] theorem setShed_frames (s : State) (c : Nat) (x : Shed) : (setShed s c x).frames = s.frames := rfl
@[simp] theorem setShed_nextFrame (s : State) (c : Nat) (x : Shed) : (setShed s c x).nextFrame = s.nextFrame := rfl
@[simp] theorem setShed_nextOut (s : State) (c : Nat) (x : Shed) : (setShed s c x).nextOut = s.nextOut := rfl
@[simp] theorem setShed_col (s : State) (c : Nat) (x : Shed) : (setShed s c x).col = s.col := rfl
@[simp] theorem setShed_tbl (s : State) (c : Nat) (x : Shed) : (setShed s c x).tbl = s.tbl := rfl
@[simp] theorem setShed_ropes (s : State) (c : Nat) (x : Shed) : (setShed s c x).ropes = s.ropes := rfl
@[simp] theorem setShed_cores (s : State) (c : Nat) (x : Shed) : (setShed s c x).cores = s.cores := rfl
@[simp] theorem setShed_clusters (s : State) (c : Nat) (x : Shed) : (setShed s c x).clusters = s.clusters := rfl
@[simp] theorem setShed_flights (s : State) (c : Nat) (x : Shed) : (setShed s c x).flights = s.flights := rfl
@[simp] theorem setShed_xlat (s : State) (c : Nat) (x : Shed) : (setShed s c x).xlat = s.xlat := rfl
@[simp] theorem setShed_scree (s : State) (c : Nat) (x : Shed) : (setShed s c x).scree = s.scree := rfl
@[simp] theorem setShed_trav (s : State) (c : Nat) (x : Shed) : (setShed s c x).trav = s.trav := rfl
@[simp] theorem setShed_tm (s : State) (c : Nat) (x : Shed) : (setShed s c x).tm = s.tm := rfl
@[simp] theorem setShed_hbm (s : State) (c : Nat) (x : Shed) : (setShed s c x).hbm = s.hbm := rfl
@[simp] theorem setShed_plan (s : State) (c : Nat) (x : Shed) : (setShed s c x).plan = s.plan := rfl
@[simp] theorem setShed_pwr (s : State) (c : Nat) (x : Shed) : (setShed s c x).pwr = s.pwr := rfl
@[simp] theorem setShed_rcv (s : State) (c : Nat) (x : Shed) : (setShed s c x).rcv = s.rcv := rfl
@[simp] theorem setShed_cairn (s : State) (c : Nat) (x : Shed) : (setShed s c x).cairn = s.cairn := rfl
@[simp] theorem setShed_dbg (s : State) (c : Nat) (x : Shed) : (setShed s c x).dbg = s.dbg := rfl

/-! ### setPitch -/

@[simp] theorem setPitch_pending (s : State) (p : Nat) (x : Pitch) : (setPitch s p x).pending = s.pending := rfl
@[simp] theorem setPitch_free (s : State) (p : Nat) (x : Pitch) : (setPitch s p x).free = s.free := rfl
@[simp] theorem setPitch_out (s : State) (p : Nat) (x : Pitch) : (setPitch s p x).out = s.out := rfl
@[simp] theorem setPitch_answer (s : State) (p : Nat) (x : Pitch) : (setPitch s p x).answer = s.answer := rfl
@[simp] theorem setPitch_sys (s : State) (p : Nat) (x : Pitch) : (setPitch s p x).sys = s.sys := rfl
@[simp] theorem setPitch_time (s : State) (p : Nat) (x : Pitch) : (setPitch s p x).time = s.time := rfl
@[simp] theorem setPitch_obj (s : State) (p : Nat) (x : Pitch) : (setPitch s p x).obj = s.obj := rfl
@[simp] theorem setPitch_latched (s : State) (p : Nat) (x : Pitch) : (setPitch s p x).latched = s.latched := rfl
@[simp] theorem setPitch_stored (s : State) (p : Nat) (x : Pitch) : (setPitch s p x).stored = s.stored := rfl
@[simp] theorem setPitch_dict (s : State) (p : Nat) (x : Pitch) : (setPitch s p x).dict = s.dict := rfl
@[simp] theorem setPitch_ports (s : State) (p : Nat) (x : Pitch) : (setPitch s p x).ports = s.ports := rfl
@[simp] theorem setPitch_xport (s : State) (p : Nat) (x : Pitch) : (setPitch s p x).xport = s.xport := rfl
@[simp] theorem setPitch_frames (s : State) (p : Nat) (x : Pitch) : (setPitch s p x).frames = s.frames := rfl
@[simp] theorem setPitch_nextFrame (s : State) (p : Nat) (x : Pitch) : (setPitch s p x).nextFrame = s.nextFrame := rfl
@[simp] theorem setPitch_nextOut (s : State) (p : Nat) (x : Pitch) : (setPitch s p x).nextOut = s.nextOut := rfl
@[simp] theorem setPitch_col (s : State) (p : Nat) (x : Pitch) : (setPitch s p x).col = s.col := rfl
@[simp] theorem setPitch_tbl (s : State) (p : Nat) (x : Pitch) : (setPitch s p x).tbl = s.tbl := rfl
@[simp] theorem setPitch_ropes (s : State) (p : Nat) (x : Pitch) : (setPitch s p x).ropes = s.ropes := rfl
@[simp] theorem setPitch_cores (s : State) (p : Nat) (x : Pitch) : (setPitch s p x).cores = s.cores := rfl
@[simp] theorem setPitch_clusters (s : State) (p : Nat) (x : Pitch) : (setPitch s p x).clusters = s.clusters := rfl
@[simp] theorem setPitch_flights (s : State) (p : Nat) (x : Pitch) : (setPitch s p x).flights = s.flights := rfl
@[simp] theorem setPitch_xlat (s : State) (p : Nat) (x : Pitch) : (setPitch s p x).xlat = s.xlat := rfl
@[simp] theorem setPitch_scree (s : State) (p : Nat) (x : Pitch) : (setPitch s p x).scree = s.scree := rfl
@[simp] theorem setPitch_trav (s : State) (p : Nat) (x : Pitch) : (setPitch s p x).trav = s.trav := rfl
@[simp] theorem setPitch_tm (s : State) (p : Nat) (x : Pitch) : (setPitch s p x).tm = s.tm := rfl
@[simp] theorem setPitch_hbm (s : State) (p : Nat) (x : Pitch) : (setPitch s p x).hbm = s.hbm := rfl
@[simp] theorem setPitch_plan (s : State) (p : Nat) (x : Pitch) : (setPitch s p x).plan = s.plan := rfl
@[simp] theorem setPitch_pwr (s : State) (p : Nat) (x : Pitch) : (setPitch s p x).pwr = s.pwr := rfl
@[simp] theorem setPitch_rcv (s : State) (p : Nat) (x : Pitch) : (setPitch s p x).rcv = s.rcv := rfl
@[simp] theorem setPitch_cairn (s : State) (p : Nat) (x : Pitch) : (setPitch s p x).cairn = s.cairn := rfl
@[simp] theorem setPitch_dbg (s : State) (p : Nat) (x : Pitch) : (setPitch s p x).dbg = s.dbg := rfl

/-! ### dropPitch -/

@[simp] theorem dropPitch_pending (s : State) (p : Nat) : (dropPitch s p).pending = s.pending := rfl
@[simp] theorem dropPitch_free (s : State) (p : Nat) : (dropPitch s p).free = s.free := rfl
@[simp] theorem dropPitch_out (s : State) (p : Nat) : (dropPitch s p).out = s.out := rfl
@[simp] theorem dropPitch_answer (s : State) (p : Nat) : (dropPitch s p).answer = s.answer := rfl
@[simp] theorem dropPitch_sys (s : State) (p : Nat) : (dropPitch s p).sys = s.sys := rfl
@[simp] theorem dropPitch_time (s : State) (p : Nat) : (dropPitch s p).time = s.time := rfl
@[simp] theorem dropPitch_obj (s : State) (p : Nat) : (dropPitch s p).obj = s.obj := rfl
@[simp] theorem dropPitch_latched (s : State) (p : Nat) : (dropPitch s p).latched = s.latched := rfl
@[simp] theorem dropPitch_stored (s : State) (p : Nat) : (dropPitch s p).stored = s.stored := rfl
@[simp] theorem dropPitch_dict (s : State) (p : Nat) : (dropPitch s p).dict = s.dict := rfl
@[simp] theorem dropPitch_ports (s : State) (p : Nat) : (dropPitch s p).ports = s.ports := rfl
@[simp] theorem dropPitch_xport (s : State) (p : Nat) : (dropPitch s p).xport = s.xport := rfl
@[simp] theorem dropPitch_frames (s : State) (p : Nat) : (dropPitch s p).frames = s.frames := rfl
@[simp] theorem dropPitch_nextFrame (s : State) (p : Nat) : (dropPitch s p).nextFrame = s.nextFrame := rfl
@[simp] theorem dropPitch_nextOut (s : State) (p : Nat) : (dropPitch s p).nextOut = s.nextOut := rfl
@[simp] theorem dropPitch_col (s : State) (p : Nat) : (dropPitch s p).col = s.col := rfl
@[simp] theorem dropPitch_tbl (s : State) (p : Nat) : (dropPitch s p).tbl = s.tbl := rfl
@[simp] theorem dropPitch_ropes (s : State) (p : Nat) : (dropPitch s p).ropes = s.ropes := rfl
@[simp] theorem dropPitch_cores (s : State) (p : Nat) : (dropPitch s p).cores = s.cores := rfl
@[simp] theorem dropPitch_clusters (s : State) (p : Nat) : (dropPitch s p).clusters = s.clusters := rfl
@[simp] theorem dropPitch_flights (s : State) (p : Nat) : (dropPitch s p).flights = s.flights := rfl
@[simp] theorem dropPitch_xlat (s : State) (p : Nat) : (dropPitch s p).xlat = s.xlat := rfl
@[simp] theorem dropPitch_scree (s : State) (p : Nat) : (dropPitch s p).scree = s.scree := rfl
@[simp] theorem dropPitch_trav (s : State) (p : Nat) : (dropPitch s p).trav = s.trav := rfl
@[simp] theorem dropPitch_tm (s : State) (p : Nat) : (dropPitch s p).tm = s.tm := rfl
@[simp] theorem dropPitch_hbm (s : State) (p : Nat) : (dropPitch s p).hbm = s.hbm := rfl
@[simp] theorem dropPitch_plan (s : State) (p : Nat) : (dropPitch s p).plan = s.plan := rfl
@[simp] theorem dropPitch_pwr (s : State) (p : Nat) : (dropPitch s p).pwr = s.pwr := rfl
@[simp] theorem dropPitch_rcv (s : State) (p : Nat) : (dropPitch s p).rcv = s.rcv := rfl
@[simp] theorem dropPitch_cairn (s : State) (p : Nat) : (dropPitch s p).cairn = s.cairn := rfl
@[simp] theorem dropPitch_dbg (s : State) (p : Nat) : (dropPitch s p).dbg = s.dbg := rfl

/-! ### setFrame -/

@[simp] theorem setFrame_pending (s : State) (f : Nat) (x : Frame) : (setFrame s f x).pending = s.pending := rfl
@[simp] theorem setFrame_free (s : State) (f : Nat) (x : Frame) : (setFrame s f x).free = s.free := rfl
@[simp] theorem setFrame_out (s : State) (f : Nat) (x : Frame) : (setFrame s f x).out = s.out := rfl
@[simp] theorem setFrame_answer (s : State) (f : Nat) (x : Frame) : (setFrame s f x).answer = s.answer := rfl
@[simp] theorem setFrame_sys (s : State) (f : Nat) (x : Frame) : (setFrame s f x).sys = s.sys := rfl
@[simp] theorem setFrame_time (s : State) (f : Nat) (x : Frame) : (setFrame s f x).time = s.time := rfl
@[simp] theorem setFrame_obj (s : State) (f : Nat) (x : Frame) : (setFrame s f x).obj = s.obj := rfl
@[simp] theorem setFrame_latched (s : State) (f : Nat) (x : Frame) : (setFrame s f x).latched = s.latched := rfl
@[simp] theorem setFrame_stored (s : State) (f : Nat) (x : Frame) : (setFrame s f x).stored = s.stored := rfl
@[simp] theorem setFrame_dict (s : State) (f : Nat) (x : Frame) : (setFrame s f x).dict = s.dict := rfl
@[simp] theorem setFrame_ports (s : State) (f : Nat) (x : Frame) : (setFrame s f x).ports = s.ports := rfl
@[simp] theorem setFrame_xport (s : State) (f : Nat) (x : Frame) : (setFrame s f x).xport = s.xport := rfl
@[simp] theorem setFrame_nextFrame (s : State) (f : Nat) (x : Frame) : (setFrame s f x).nextFrame = s.nextFrame := rfl
@[simp] theorem setFrame_nextOut (s : State) (f : Nat) (x : Frame) : (setFrame s f x).nextOut = s.nextOut := rfl
@[simp] theorem setFrame_col (s : State) (f : Nat) (x : Frame) : (setFrame s f x).col = s.col := rfl
@[simp] theorem setFrame_tbl (s : State) (f : Nat) (x : Frame) : (setFrame s f x).tbl = s.tbl := rfl
@[simp] theorem setFrame_pit (s : State) (f : Nat) (x : Frame) : (setFrame s f x).pit = s.pit := rfl
@[simp] theorem setFrame_ropes (s : State) (f : Nat) (x : Frame) : (setFrame s f x).ropes = s.ropes := rfl
@[simp] theorem setFrame_cores (s : State) (f : Nat) (x : Frame) : (setFrame s f x).cores = s.cores := rfl
@[simp] theorem setFrame_clusters (s : State) (f : Nat) (x : Frame) : (setFrame s f x).clusters = s.clusters := rfl
@[simp] theorem setFrame_flights (s : State) (f : Nat) (x : Frame) : (setFrame s f x).flights = s.flights := rfl
@[simp] theorem setFrame_xlat (s : State) (f : Nat) (x : Frame) : (setFrame s f x).xlat = s.xlat := rfl
@[simp] theorem setFrame_scree (s : State) (f : Nat) (x : Frame) : (setFrame s f x).scree = s.scree := rfl
@[simp] theorem setFrame_trav (s : State) (f : Nat) (x : Frame) : (setFrame s f x).trav = s.trav := rfl
@[simp] theorem setFrame_tm (s : State) (f : Nat) (x : Frame) : (setFrame s f x).tm = s.tm := rfl
@[simp] theorem setFrame_hbm (s : State) (f : Nat) (x : Frame) : (setFrame s f x).hbm = s.hbm := rfl
@[simp] theorem setFrame_plan (s : State) (f : Nat) (x : Frame) : (setFrame s f x).plan = s.plan := rfl
@[simp] theorem setFrame_pwr (s : State) (f : Nat) (x : Frame) : (setFrame s f x).pwr = s.pwr := rfl
@[simp] theorem setFrame_rcv (s : State) (f : Nat) (x : Frame) : (setFrame s f x).rcv = s.rcv := rfl
@[simp] theorem setFrame_cairn (s : State) (f : Nat) (x : Frame) : (setFrame s f x).cairn = s.cairn := rfl
@[simp] theorem setFrame_dbg (s : State) (f : Nat) (x : Frame) : (setFrame s f x).dbg = s.dbg := rfl

/-! ### setStack -/

@[simp] theorem setStack_pending (s : State) (k : Nat) (x : Stack) : (setStack s k x).pending = s.pending := rfl
@[simp] theorem setStack_free (s : State) (k : Nat) (x : Stack) : (setStack s k x).free = s.free := rfl
@[simp] theorem setStack_out (s : State) (k : Nat) (x : Stack) : (setStack s k x).out = s.out := rfl
@[simp] theorem setStack_answer (s : State) (k : Nat) (x : Stack) : (setStack s k x).answer = s.answer := rfl
@[simp] theorem setStack_sys (s : State) (k : Nat) (x : Stack) : (setStack s k x).sys = s.sys := rfl
@[simp] theorem setStack_time (s : State) (k : Nat) (x : Stack) : (setStack s k x).time = s.time := rfl
@[simp] theorem setStack_obj (s : State) (k : Nat) (x : Stack) : (setStack s k x).obj = s.obj := rfl
@[simp] theorem setStack_latched (s : State) (k : Nat) (x : Stack) : (setStack s k x).latched = s.latched := rfl
@[simp] theorem setStack_stored (s : State) (k : Nat) (x : Stack) : (setStack s k x).stored = s.stored := rfl
@[simp] theorem setStack_dict (s : State) (k : Nat) (x : Stack) : (setStack s k x).dict = s.dict := rfl
@[simp] theorem setStack_ports (s : State) (k : Nat) (x : Stack) : (setStack s k x).ports = s.ports := rfl
@[simp] theorem setStack_xport (s : State) (k : Nat) (x : Stack) : (setStack s k x).xport = s.xport := rfl
@[simp] theorem setStack_frames (s : State) (k : Nat) (x : Stack) : (setStack s k x).frames = s.frames := rfl
@[simp] theorem setStack_nextFrame (s : State) (k : Nat) (x : Stack) : (setStack s k x).nextFrame = s.nextFrame := rfl
@[simp] theorem setStack_nextOut (s : State) (k : Nat) (x : Stack) : (setStack s k x).nextOut = s.nextOut := rfl
@[simp] theorem setStack_col (s : State) (k : Nat) (x : Stack) : (setStack s k x).col = s.col := rfl
@[simp] theorem setStack_tbl (s : State) (k : Nat) (x : Stack) : (setStack s k x).tbl = s.tbl := rfl
@[simp] theorem setStack_pit (s : State) (k : Nat) (x : Stack) : (setStack s k x).pit = s.pit := rfl
@[simp] theorem setStack_ropes (s : State) (k : Nat) (x : Stack) : (setStack s k x).ropes = s.ropes := rfl
@[simp] theorem setStack_cores (s : State) (k : Nat) (x : Stack) : (setStack s k x).cores = s.cores := rfl
@[simp] theorem setStack_clusters (s : State) (k : Nat) (x : Stack) : (setStack s k x).clusters = s.clusters := rfl
@[simp] theorem setStack_flights (s : State) (k : Nat) (x : Stack) : (setStack s k x).flights = s.flights := rfl
@[simp] theorem setStack_xlat (s : State) (k : Nat) (x : Stack) : (setStack s k x).xlat = s.xlat := rfl
@[simp] theorem setStack_scree (s : State) (k : Nat) (x : Stack) : (setStack s k x).scree = s.scree := rfl
@[simp] theorem setStack_trav (s : State) (k : Nat) (x : Stack) : (setStack s k x).trav = s.trav := rfl
@[simp] theorem setStack_tm (s : State) (k : Nat) (x : Stack) : (setStack s k x).tm = s.tm := rfl
@[simp] theorem setStack_plan (s : State) (k : Nat) (x : Stack) : (setStack s k x).plan = s.plan := rfl
@[simp] theorem setStack_pwr (s : State) (k : Nat) (x : Stack) : (setStack s k x).pwr = s.pwr := rfl
@[simp] theorem setStack_rcv (s : State) (k : Nat) (x : Stack) : (setStack s k x).rcv = s.rcv := rfl
@[simp] theorem setStack_cairn (s : State) (k : Nat) (x : Stack) : (setStack s k x).cairn = s.cairn := rfl
@[simp] theorem setStack_dbg (s : State) (k : Nat) (x : Stack) : (setStack s k x).dbg = s.dbg := rfl

/-! ### setPch -/

@[simp] theorem setPch_pending (s : State) (k : Nat) (x : PChan) : (setPch s k x).pending = s.pending := rfl
@[simp] theorem setPch_free (s : State) (k : Nat) (x : PChan) : (setPch s k x).free = s.free := rfl
@[simp] theorem setPch_out (s : State) (k : Nat) (x : PChan) : (setPch s k x).out = s.out := rfl
@[simp] theorem setPch_answer (s : State) (k : Nat) (x : PChan) : (setPch s k x).answer = s.answer := rfl
@[simp] theorem setPch_sys (s : State) (k : Nat) (x : PChan) : (setPch s k x).sys = s.sys := rfl
@[simp] theorem setPch_time (s : State) (k : Nat) (x : PChan) : (setPch s k x).time = s.time := rfl
@[simp] theorem setPch_obj (s : State) (k : Nat) (x : PChan) : (setPch s k x).obj = s.obj := rfl
@[simp] theorem setPch_latched (s : State) (k : Nat) (x : PChan) : (setPch s k x).latched = s.latched := rfl
@[simp] theorem setPch_stored (s : State) (k : Nat) (x : PChan) : (setPch s k x).stored = s.stored := rfl
@[simp] theorem setPch_dict (s : State) (k : Nat) (x : PChan) : (setPch s k x).dict = s.dict := rfl
@[simp] theorem setPch_ports (s : State) (k : Nat) (x : PChan) : (setPch s k x).ports = s.ports := rfl
@[simp] theorem setPch_xport (s : State) (k : Nat) (x : PChan) : (setPch s k x).xport = s.xport := rfl
@[simp] theorem setPch_frames (s : State) (k : Nat) (x : PChan) : (setPch s k x).frames = s.frames := rfl
@[simp] theorem setPch_nextFrame (s : State) (k : Nat) (x : PChan) : (setPch s k x).nextFrame = s.nextFrame := rfl
@[simp] theorem setPch_nextOut (s : State) (k : Nat) (x : PChan) : (setPch s k x).nextOut = s.nextOut := rfl
@[simp] theorem setPch_col (s : State) (k : Nat) (x : PChan) : (setPch s k x).col = s.col := rfl
@[simp] theorem setPch_tbl (s : State) (k : Nat) (x : PChan) : (setPch s k x).tbl = s.tbl := rfl
@[simp] theorem setPch_pit (s : State) (k : Nat) (x : PChan) : (setPch s k x).pit = s.pit := rfl
@[simp] theorem setPch_ropes (s : State) (k : Nat) (x : PChan) : (setPch s k x).ropes = s.ropes := rfl
@[simp] theorem setPch_cores (s : State) (k : Nat) (x : PChan) : (setPch s k x).cores = s.cores := rfl
@[simp] theorem setPch_clusters (s : State) (k : Nat) (x : PChan) : (setPch s k x).clusters = s.clusters := rfl
@[simp] theorem setPch_flights (s : State) (k : Nat) (x : PChan) : (setPch s k x).flights = s.flights := rfl
@[simp] theorem setPch_xlat (s : State) (k : Nat) (x : PChan) : (setPch s k x).xlat = s.xlat := rfl
@[simp] theorem setPch_scree (s : State) (k : Nat) (x : PChan) : (setPch s k x).scree = s.scree := rfl
@[simp] theorem setPch_trav (s : State) (k : Nat) (x : PChan) : (setPch s k x).trav = s.trav := rfl
@[simp] theorem setPch_tm (s : State) (k : Nat) (x : PChan) : (setPch s k x).tm = s.tm := rfl
@[simp] theorem setPch_plan (s : State) (k : Nat) (x : PChan) : (setPch s k x).plan = s.plan := rfl
@[simp] theorem setPch_pwr (s : State) (k : Nat) (x : PChan) : (setPch s k x).pwr = s.pwr := rfl
@[simp] theorem setPch_rcv (s : State) (k : Nat) (x : PChan) : (setPch s k x).rcv = s.rcv := rfl
@[simp] theorem setPch_cairn (s : State) (k : Nat) (x : PChan) : (setPch s k x).cairn = s.cairn := rfl
@[simp] theorem setPch_dbg (s : State) (k : Nat) (x : PChan) : (setPch s k x).dbg = s.dbg := rfl

/-! ### draw -/

@[simp] theorem draw_pending (s : State) : (draw s).pending = s.pending := rfl
@[simp] theorem draw_out (s : State) : (draw s).out = s.out := rfl
@[simp] theorem draw_answer (s : State) : (draw s).answer = s.answer := rfl
@[simp] theorem draw_sys (s : State) : (draw s).sys = s.sys := rfl
@[simp] theorem draw_time (s : State) : (draw s).time = s.time := rfl
@[simp] theorem draw_obj (s : State) : (draw s).obj = s.obj := rfl
@[simp] theorem draw_latched (s : State) : (draw s).latched = s.latched := rfl
@[simp] theorem draw_stored (s : State) : (draw s).stored = s.stored := rfl
@[simp] theorem draw_dict (s : State) : (draw s).dict = s.dict := rfl
@[simp] theorem draw_ports (s : State) : (draw s).ports = s.ports := rfl
@[simp] theorem draw_xport (s : State) : (draw s).xport = s.xport := rfl
@[simp] theorem draw_frames (s : State) : (draw s).frames = s.frames := rfl
@[simp] theorem draw_nextFrame (s : State) : (draw s).nextFrame = s.nextFrame := rfl
@[simp] theorem draw_nextOut (s : State) : (draw s).nextOut = s.nextOut := rfl
@[simp] theorem draw_col (s : State) : (draw s).col = s.col := rfl
@[simp] theorem draw_tbl (s : State) : (draw s).tbl = s.tbl := rfl
@[simp] theorem draw_pit (s : State) : (draw s).pit = s.pit := rfl
@[simp] theorem draw_ropes (s : State) : (draw s).ropes = s.ropes := rfl
@[simp] theorem draw_cores (s : State) : (draw s).cores = s.cores := rfl
@[simp] theorem draw_clusters (s : State) : (draw s).clusters = s.clusters := rfl
@[simp] theorem draw_flights (s : State) : (draw s).flights = s.flights := rfl
@[simp] theorem draw_xlat (s : State) : (draw s).xlat = s.xlat := rfl
@[simp] theorem draw_scree (s : State) : (draw s).scree = s.scree := rfl
@[simp] theorem draw_trav (s : State) : (draw s).trav = s.trav := rfl
@[simp] theorem draw_tm (s : State) : (draw s).tm = s.tm := rfl
@[simp] theorem draw_hbm (s : State) : (draw s).hbm = s.hbm := rfl
@[simp] theorem draw_plan (s : State) : (draw s).plan = s.plan := rfl
@[simp] theorem draw_pwr (s : State) : (draw s).pwr = s.pwr := rfl
@[simp] theorem draw_rcv (s : State) : (draw s).rcv = s.rcv := rfl
@[simp] theorem draw_cairn (s : State) : (draw s).cairn = s.cairn := rfl
@[simp] theorem draw_dbg (s : State) : (draw s).dbg = s.dbg := rfl

/-! ### emit -/

@[simp] theorem emit_pending (s : State) (o : Out) : (emit s o).pending = s.pending := rfl
@[simp] theorem emit_free (s : State) (o : Out) : (emit s o).free = s.free := rfl
@[simp] theorem emit_answer (s : State) (o : Out) : (emit s o).answer = s.answer := rfl
@[simp] theorem emit_sys (s : State) (o : Out) : (emit s o).sys = s.sys := rfl
@[simp] theorem emit_time (s : State) (o : Out) : (emit s o).time = s.time := rfl
@[simp] theorem emit_obj (s : State) (o : Out) : (emit s o).obj = s.obj := rfl
@[simp] theorem emit_latched (s : State) (o : Out) : (emit s o).latched = s.latched := rfl
@[simp] theorem emit_stored (s : State) (o : Out) : (emit s o).stored = s.stored := rfl
@[simp] theorem emit_dict (s : State) (o : Out) : (emit s o).dict = s.dict := rfl
@[simp] theorem emit_ports (s : State) (o : Out) : (emit s o).ports = s.ports := rfl
@[simp] theorem emit_xport (s : State) (o : Out) : (emit s o).xport = s.xport := rfl
@[simp] theorem emit_frames (s : State) (o : Out) : (emit s o).frames = s.frames := rfl
@[simp] theorem emit_nextFrame (s : State) (o : Out) : (emit s o).nextFrame = s.nextFrame := rfl
@[simp] theorem emit_nextOut (s : State) (o : Out) : (emit s o).nextOut = s.nextOut := rfl
@[simp] theorem emit_col (s : State) (o : Out) : (emit s o).col = s.col := rfl
@[simp] theorem emit_tbl (s : State) (o : Out) : (emit s o).tbl = s.tbl := rfl
@[simp] theorem emit_pit (s : State) (o : Out) : (emit s o).pit = s.pit := rfl
@[simp] theorem emit_ropes (s : State) (o : Out) : (emit s o).ropes = s.ropes := rfl
@[simp] theorem emit_cores (s : State) (o : Out) : (emit s o).cores = s.cores := rfl
@[simp] theorem emit_clusters (s : State) (o : Out) : (emit s o).clusters = s.clusters := rfl
@[simp] theorem emit_flights (s : State) (o : Out) : (emit s o).flights = s.flights := rfl
@[simp] theorem emit_xlat (s : State) (o : Out) : (emit s o).xlat = s.xlat := rfl
@[simp] theorem emit_scree (s : State) (o : Out) : (emit s o).scree = s.scree := rfl
@[simp] theorem emit_trav (s : State) (o : Out) : (emit s o).trav = s.trav := rfl
@[simp] theorem emit_tm (s : State) (o : Out) : (emit s o).tm = s.tm := rfl
@[simp] theorem emit_hbm (s : State) (o : Out) : (emit s o).hbm = s.hbm := rfl
@[simp] theorem emit_plan (s : State) (o : Out) : (emit s o).plan = s.plan := rfl
@[simp] theorem emit_pwr (s : State) (o : Out) : (emit s o).pwr = s.pwr := rfl
@[simp] theorem emit_rcv (s : State) (o : Out) : (emit s o).rcv = s.rcv := rfl
@[simp] theorem emit_cairn (s : State) (o : Out) : (emit s o).cairn = s.cairn := rfl
@[simp] theorem emit_dbg (s : State) (o : Out) : (emit s o).dbg = s.dbg := rfl

/-! ### advance -/

@[simp] theorem advance_pending (s : State) (dt : Nat) : (advance s dt).pending = s.pending := rfl
@[simp] theorem advance_free (s : State) (dt : Nat) : (advance s dt).free = s.free := rfl
@[simp] theorem advance_out (s : State) (dt : Nat) : (advance s dt).out = s.out := rfl
@[simp] theorem advance_answer (s : State) (dt : Nat) : (advance s dt).answer = s.answer := rfl
@[simp] theorem advance_sys (s : State) (dt : Nat) : (advance s dt).sys = s.sys := rfl
@[simp] theorem advance_obj (s : State) (dt : Nat) : (advance s dt).obj = s.obj := rfl
@[simp] theorem advance_latched (s : State) (dt : Nat) : (advance s dt).latched = s.latched := rfl
@[simp] theorem advance_stored (s : State) (dt : Nat) : (advance s dt).stored = s.stored := rfl
@[simp] theorem advance_dict (s : State) (dt : Nat) : (advance s dt).dict = s.dict := rfl
@[simp] theorem advance_ports (s : State) (dt : Nat) : (advance s dt).ports = s.ports := rfl
@[simp] theorem advance_xport (s : State) (dt : Nat) : (advance s dt).xport = s.xport := rfl
@[simp] theorem advance_frames (s : State) (dt : Nat) : (advance s dt).frames = s.frames := rfl
@[simp] theorem advance_nextFrame (s : State) (dt : Nat) : (advance s dt).nextFrame = s.nextFrame := rfl
@[simp] theorem advance_nextOut (s : State) (dt : Nat) : (advance s dt).nextOut = s.nextOut := rfl
@[simp] theorem advance_col (s : State) (dt : Nat) : (advance s dt).col = s.col := rfl
@[simp] theorem advance_tbl (s : State) (dt : Nat) : (advance s dt).tbl = s.tbl := rfl
@[simp] theorem advance_pit (s : State) (dt : Nat) : (advance s dt).pit = s.pit := rfl
@[simp] theorem advance_ropes (s : State) (dt : Nat) : (advance s dt).ropes = s.ropes := rfl
@[simp] theorem advance_cores (s : State) (dt : Nat) : (advance s dt).cores = s.cores := rfl
@[simp] theorem advance_clusters (s : State) (dt : Nat) : (advance s dt).clusters = s.clusters := rfl
@[simp] theorem advance_flights (s : State) (dt : Nat) : (advance s dt).flights = s.flights := rfl
@[simp] theorem advance_xlat (s : State) (dt : Nat) : (advance s dt).xlat = s.xlat := rfl
@[simp] theorem advance_scree (s : State) (dt : Nat) : (advance s dt).scree = s.scree := rfl
@[simp] theorem advance_trav (s : State) (dt : Nat) : (advance s dt).trav = s.trav := rfl
@[simp] theorem advance_tm (s : State) (dt : Nat) : (advance s dt).tm = s.tm := rfl
@[simp] theorem advance_hbm (s : State) (dt : Nat) : (advance s dt).hbm = s.hbm := rfl
@[simp] theorem advance_plan (s : State) (dt : Nat) : (advance s dt).plan = s.plan := rfl
@[simp] theorem advance_pwr (s : State) (dt : Nat) : (advance s dt).pwr = s.pwr := rfl
@[simp] theorem advance_rcv (s : State) (dt : Nat) : (advance s dt).rcv = s.rcv := rfl
@[simp] theorem advance_cairn (s : State) (dt : Nat) : (advance s dt).cairn = s.cairn := rfl
@[simp] theorem advance_dbg (s : State) (dt : Nat) : (advance s dt).dbg = s.dbg := rfl

end Sys2Proof.Machine
end

