-- ==== Sys2Proof/Laws/Entries.lean ====
section
/-! SUPPORT. Read after write for the entries of the state (ports, ropes, cores, clusters, stacks) and for the objects
of the dictionary. -/

namespace Sys2Proof.Machine

/-! ### Entries -/

@[simp] theorem port_setPort_same (s : State) (k : Nat) (x : Port) : port (setPort s k x) k = x := by simp [port, setPort]
theorem port_setPort_ne (s : State) {k j : Nat} (x : Port) (h : k ≠ j) : port (setPort s k x) j = port s j := by
  simp [port, setPort, h]
@[simp] theorem rope_setRope_same (s : State) (k : Nat) (x : Rope) : rope (setRope s k x) k = x := by simp [rope, setRope]
theorem rope_setRope_ne (s : State) {k j : Nat} (x : Rope) (h : k ≠ j) : rope (setRope s k x) j = rope s j := by
  simp [rope, setRope, h]
@[simp] theorem setRope_setRope (s : State) (k : Nat) (x y : Rope) : setRope (setRope s k x) k y = setRope s k y := by
  simp [setRope]
@[simp] theorem core_setCore_same (s : State) (k : Nat) (x : Machine.Core) : core (setCore s k x) k = x := by
  simp [core, setCore]
theorem core_setCore_ne (s : State) {k j : Nat} (x : Machine.Core) (h : k ≠ j) : core (setCore s k x) j = core s j := by
  simp [core, setCore, h]
@[simp] theorem cluster_setCluster_same (s : State) (k : Nat) (x : Cluster) : cluster (setCluster s k x) k = x := by
  simp [cluster, setCluster]
theorem cluster_setCluster_ne (s : State) {k j : Nat} (x : Cluster) (h : k ≠ j) :
    cluster (setCluster s k x) j = cluster s j := by
  simp [cluster, setCluster, h]
@[simp] theorem stackOf_setStack_same (s : State) (k : Nat) (x : Stack) : stackOf (setStack s k x) k = x := by
  simp [stackOf, setStack]
theorem stackOf_setStack_ne (s : State) {k j : Nat} (x : Stack) (h : k ≠ j) : stackOf (setStack s k x) j = stackOf s j := by
  simp [stackOf, setStack, h]
@[simp] theorem pchOf_setPch_same (s : State) (k : Nat) (x : PChan) : pchOf (setPch s k x) k = x := by simp [pchOf, setPch]
theorem pchOf_setPch_ne (s : State) {k j : Nat} (x : PChan) (h : k ≠ j) : pchOf (setPch s k x) j = pchOf s j := by
  simp [pchOf, setPch, h]
@[simp] theorem pitch_setPitch_same (s : State) (k : Nat) (x : Pitch) : pitch (setPitch s k x) k = some x := by
  simp [pitch, setPitch]
theorem pitch_setPitch_ne (s : State) {k j : Nat} (x : Pitch) (h : k ≠ j) : pitch (setPitch s k x) j = pitch s j := by
  simp [pitch, setPitch, h]
@[simp] theorem frameOf_setFrame_same (s : State) (k : Nat) (x : Frame) : frameOf (setFrame s k x) k = x := by
  simp [frameOf, setFrame]
theorem frameOf_setFrame_ne (s : State) {k j : Nat} (x : Frame) (h : k ≠ j) : frameOf (setFrame s k x) j = frameOf s j := by
  simp [frameOf, setFrame, h]

/-! ### Objects -/

@[simp] theorem getO_setO_same (s : State) (k v : Nat) : getO (setO s k v) k = v := by simp [getO, setO]
theorem getO_setO_ne (s : State) {k j : Nat} (v : Nat) (h : k ≠ j) : getO (setO s k v) j = getO s j := by
  simp [getO, setO, h]

/-- Two objects share a key only where index and subindex agree. -/
theorem key_eq {i a j b : Nat} (ha : a < 256) (hb : b < 256) : key i a = key j b ↔ i = j ∧ a = b := by
  simp only [key]; omega

@[simp] theorem obj_putObj_same (s : State) (i a v : Nat) : obj (putObj s i a v) i a = v := by simp [obj, putObj]
theorem obj_putObj_ne (s : State) {i a j b : Nat} (v : Nat) (ha : a < 256) (hb : b < 256) (h : i ≠ j ∨ a ≠ b) :
    obj (putObj s i a v) j b = obj s j b := by
  refine getO_setO_ne s v fun e => ?_
  have e := (key_eq ha hb).mp e
  omega
@[simp] theorem obj_bumpBy_same (s : State) (i a n : Nat) : obj (bumpBy s i a n) i a = (obj s i a + n) % 2 ^ 64 := by
  simp [bumpBy]
theorem obj_bumpBy_ne (s : State) {i a j b : Nat} (n : Nat) (ha : a < 256) (hb : b < 256) (h : i ≠ j ∨ a ≠ b) :
    obj (bumpBy s i a n) j b = obj s j b := obj_putObj_ne s _ ha hb h
@[simp] theorem obj_bump_same (s : State) (i a : Nat) : obj (bump s i a) i a = (obj s i a + 1) % 2 ^ 64 := by simp [bump]
theorem obj_bump_ne (s : State) {i a j b : Nat} (ha : a < 256) (hb : b < 256) (h : i ≠ j ∨ a ≠ b) :
    obj (bump s i a) j b = obj s j b := obj_putObj_ne s _ ha hb h

/-- The objects alone decide what an object reads as, with the variant and the straps of the device. -/
theorem obj_congr {s t : State} (ho : t.obj = s.obj) (hs : t.sys = s.sys) (i a : Nat) : obj t i a = obj s i a := by
  simp [obj, getO, ho, hs]

/-! ### Registers -/

@[simp] theorem getW_zero (x : Rope) : getW x 0 = 0 := rfl
@[simp] theorem setW_zero (x : Rope) (v : Word) : setW x 0 v = x := rfl
theorem setW_pc (x : Rope) (d : BitVec 5) (v : Word) : (setW x d v).pc = x.pc := by unfold setW; split <;> rfl
theorem setW_flags (x : Rope) (d : BitVec 5) (v : Word) : (setW x d v).flags = x.flags := by unfold setW; split <;> rfl
theorem setW_st (x : Rope) (d : BitVec 5) (v : Word) : (setW x d v).st = x.st := by unfold setW; split <;> rfl
@[simp] theorem getK_setK_same (x : Rope) (d : BitVec 4) (v : KWord) : getK (setK x d v) d = v := by simp [getK, setK]
theorem getK_setK_ne (x : Rope) {d e : BitVec 4} (v : KWord) (h : d ≠ e) : getK (setK x d v) e = getK x e := by
  have : d.toNat ≠ e.toNat := fun n => h (BitVec.eq_of_toNat_eq n)
  simp [getK, setK, this]

/-! ### Time -/

@[simp] theorem advance_now (s : State) (dt : Nat) : (advance s dt).time.now = s.time.now + dt := rfl
theorem advanceTo_now (s : State) (t : Nat) : (advanceTo s t).time.now = max s.time.now t := by
  simp only [advanceTo, advance_now]; omega

end Sys2Proof.Machine
end

