-- ==== Sys2Proof/Laws/Issue.lean ====
section
/-! SUPPORT. What becomes of an instruction that issues: the laws through which every instruction's meaning is read. -/

namespace Sys2Proof.Claim

open Sys2Proof.Machine

/-- An instruction that may stand in a repeat's body does what its meaning says. -/
theorem issue_ok {s : State} {r : Issuer} (h : Issues s r) (f : State → Eff) :
    issue s r false f = settleEff s r.toNat (f s) := by
  simp [issue, h.1, h.2.1, h.2.2]

/-- So does every other, outside a body. -/
theorem issue_free {s : State} {r : Issuer} (h : IssuesFree s r) (b : Bool) (f : State → Eff) :
    issue s r b f = settleEff s r.toNat (f s) := by
  simp [issue, h.1.1, h.1.2.1, h.1.2.2, h.2]

/-- In a body it raises the illegal-instruction fault. -/
theorem issue_body {s : State} {r : Issuer} (h : Issues s r) (hb : inBody (rope s r.toNat) = true) (f : State → Eff) :
    issue s r true f = .next (faultRope s r.toNat 1 0) := by
  simp [issue, h.1, h.2.1, h.2.2, hb]

/-- A rope that does not hold the issue slot issues nothing. -/
theorem issue_idle {s : State} {r : Issuer} (h : issuing s r.toNat = false) (b : Bool) (f : State → Eff) :
    issue s r b f = .next s := by
  simp [issue, h]

theorem issueRope_ok {s : State} {r : Issuer} (h : Issues s r) (f : Rope → Rope) :
    issueRope s r f = .next (after s r (f (rope s r.toNat))) := by
  simp [issueRope, issue_ok h, settleEff, modRope, after]

/-- With nothing pending there is no wait. -/
theorem kReady_nil (s : State) (r : Nat) (ks : List (BitVec 4)) (h : ∀ k ∈ ks, pendingK (rope s r) k = none) :
    kReady s r ks = (s, .ready) := by
  have : (rope s r).kPend.filter (fun p => ks.contains p.kd) = [] := by
    rw [List.filter_eq_nil_iff]
    intro p hp hk
    have := h p.kd (by simpa using hk)
    simp only [pendingK, List.find?_eq_none] at this
    exact this p hp (by simp)
  unfold kReady
  rw [this]
  rfl

/-- A Crampon instruction that need not wait does what its meaning says, a replaced CPEN value spent. -/
theorem issueK_ok {s : State} {r : Issuer} {ks ls : List (BitVec 4)} (h : CramponIssues s r ks) (hs : ∀ k ∈ ls, k ∈ ks)
    (f : State → Eff) : issueK s r ls f = settleEff s r.toNat (f (cpenSpent s r.toNat)) := by
  simp [issueK, issue_ok h.1, h.2.1, kReady_nil s r.toNat ls (fun k hk => h.2.2 k (hs k hk))]

/-- Outside issue no outcome is a refusal, and a fault tells of unsupported use (R9). -/
theorem settleEff_cases (s : State) (r : Nat) (e : Eff) :
    (∃ t, settleEff s r e = .next t) ∨ ∃ n, e = .unsupported n ∧ settleEff s r e = .fault (.unsupported n) := by
  cases e with
  | done t => exact .inl ⟨_, rfl⟩
  | jump t pc => exact .inl ⟨_, rfl⟩
  | held t => exact .inl ⟨_, rfl⟩
  | trap c a => exact .inl ⟨_, rfl⟩
  | unsupported n => exact .inr ⟨n, rfl, rfl⟩

end Sys2Proof.Claim
end

