-- ==== Sys2Proof/Laws/Ops.lean ====
section
/-! SUPPORT. Everything the shared operations can change: for each, one lemma that names the parts of the state it may
replace, and says that all others stay. Cite it with obtain and rewrite with the equation it gives. -/

namespace Sys2Proof.Machine

/-- What each step of a fold keeps, the fold keeps. -/
theorem foldl_keeps {σ β γ : Type} (g : σ → γ) (f : σ → β → σ) (h : ∀ s x, g (f s x) = g s) (l : List β) (s : σ) :
    g (l.foldl f s) = g s := by
  induction l generalizing s with
  | nil => rfl
  | cons x l ih => rw [List.foldl_cons, ih, h]

/-- A fold stays in a relation that its steps stay in. -/
theorem foldl_rel {σ β : Type} {R : σ → σ → Prop} {f : σ → β → σ} (refl : ∀ s, R s s)
    (trans : ∀ {a b c}, R a b → R b c → R a c) (h : ∀ s x, R s (f s x)) (l : List β) (s : σ) : R s (l.foldl f s) := by
  induction l generalizing s with
  | nil => exact refl s
  | cons x l ih => exact trans (h s x) (ih _)

theorem putObj_only (s : State) (idx sub v : Nat) :
    ∃ obj', putObj s idx sub v = { s with obj := obj' } := ⟨_, rfl⟩

theorem bumpBy_only (s : State) (idx sub n : Nat) :
    ∃ obj', bumpBy s idx sub n = { s with obj := obj' } := ⟨_, rfl⟩

theorem bump_only (s : State) (idx sub : Nat) :
    ∃ obj', bump s idx sub = { s with obj := obj' } := ⟨_, rfl⟩

theorem bump32_only (s : State) (idx sub : Nat) :
    ∃ obj', bump32 s idx sub = { s with obj := obj' } := ⟨_, rfl⟩

theorem bumpLp_only (s : State) (lp sub : Nat) :
    ∃ obj', bumpLp s lp sub = { s with obj := obj' } := ⟨_, rfl⟩

theorem bumpTen_only (s : State) (tid sub : Nat) :
    ∃ obj', bumpTen s tid sub = { s with obj := obj' } := ⟨_, rfl⟩

theorem advanceTo_only (s : State) (t : Nat) :
    ∃ time', advanceTo s t = { s with time := time' } := ⟨_, rfl⟩

theorem modPort_only (s : State) (lp : Nat) (f : Port → Port) :
    ∃ ports', modPort s lp f = { s with ports := ports' } := ⟨_, rfl⟩

theorem modRope_only (s : State) (r : Nat) (f : Rope → Rope) :
    ∃ ropes', modRope s r f = { s with ropes := ropes' } := ⟨_, rfl⟩

theorem modCore_only (s : State) (k : Nat) (f : Machine.Core → Machine.Core) :
    ∃ cores', modCore s k f = { s with cores := cores' } := ⟨_, rfl⟩

theorem modCluster_only (s : State) (c : Nat) (f : Cluster → Cluster) :
    ∃ clusters', modCluster s c f = { s with clusters := clusters' } := ⟨_, rfl⟩

theorem setVer_only (s : State) (f : VerSt → VerSt) :
    ∃ col', setVer s f = { s with col := col' } := ⟨_, rfl⟩

theorem setInFlight_only (s : State) (v : BitVec 16) (n : Nat) :
    ∃ col', setInFlight s v n = { s with col := col' } := ⟨_, rfl⟩

theorem startWalk_only (s : State) (discard : Bool) :
    ∃ col', startWalk s discard = { s with col := col' } := ⟨_, rfl⟩

theorem doCommit_only (s : State) (at_ : Nat) :
    ∃ col' obj', doCommit s at_ = { s with col := col', obj := obj' } := ⟨_, _, rfl⟩

theorem useHead_only (s : State) (h : Nat) :
    ∃ trav', useHead s h = { s with trav := trav' } := ⟨_, rfl⟩

theorem freeHead_only (s : State) (h : Nat) :
    ∃ trav', freeHead s h = { s with trav := trav' } := by
  simp only [freeHead]; split <;> exact ⟨_, rfl⟩

theorem stir_only (s : State) : ∃ pwr', stir s = { s with pwr := pwr' } := ⟨_, rfl⟩

theorem freeCellList_only (s : State) (cs : List Nat) :
    ∃ trav' pwr', freeCellList s cs = { s with trav := trav', pwr := pwr' } := by
  simp only [freeCellList]; split <;> exact ⟨_, _, rfl⟩

theorem busyCore_only (s : State) (k : Nat) : ∃ cores', busyCore s k = { s with cores := cores' } := ⟨_, rfl⟩

theorem paramAppend_only (s : State) (k : Nat) : ∃ cairn', paramAppend s k = { s with cairn := cairn' } := ⟨_, rfl⟩

theorem latchFence_only (s : State) (b : Bool) :
    ∃ dict' rcv', latchFence s b = { s with dict := dict', rcv := rcv' } := by
  unfold latchFence; split <;> exact ⟨_, _, rfl⟩

theorem setCredit_only (s : State) (lp tid : Nat) (c : Int) :
    ∃ tm', setCredit s lp tid c = { s with tm := tm' } := ⟨_, rfl⟩

theorem settleRail_only (s : State) :
    ∃ pwr', settleRail s = { s with pwr := pwr' } := ⟨_, rfl⟩

theorem closeStack_only (s : State) (k : Nat) :
    ∃ hbm', closeStack s k = { s with hbm := hbm' } := ⟨_, rfl⟩

theorem canSend_only (s : State) (o : Out) :
    ∃ out' obj', canSend s o = { s with out := out', obj := obj' } := ⟨_, _, rfl⟩

theorem setFaultN_only (s : State) :
    ∃ sys' rcv', setFaultN s = { s with sys := sys', rcv := rcv' } := by
  have h : ∃ sys', latchFenced s = { s with sys := sys' } := by unfold latchFenced; split <;> exact ⟨_, rfl⟩
  obtain ⟨v, h⟩ := h
  unfold setFaultN
  rw [h]
  dsimp only
  split <;> exact ⟨_, _, rfl⟩

theorem enterPort_only (s : State) (lp : Nat) :
    ∃ ports', enterPort s lp = { s with ports := ports' } := by
  unfold enterPort; split <;> exact ⟨_, rfl⟩

theorem trainPort_only (s : State) (lp : Nat) :
    ∃ ports', trainPort s lp = { s with ports := ports' } := by
  unfold trainPort; split <;> exact ⟨_, rfl⟩

theorem shaperStart_only (s : State) (lp tid : Nat) :
    ∃ tm', shaperStart s lp tid = { s with tm := tm' } := by
  unfold shaperStart; split <;> exact ⟨_, rfl⟩

theorem railThere_only (s : State) (c : OpCmd) :
    ∃ pwr', railThere s c = { s with pwr := pwr' } := by
  unfold railThere; split <;> exact ⟨_, rfl⟩

theorem keepValue_only (s : State) (idx sub v : Nat) (r : Row) :
    ∃ obj' dict', keepValue s idx sub v r = { s with obj := obj', dict := dict' } := by
  unfold keepValue; split <;> exact ⟨_, _, rfl⟩

theorem advanceToFt_only (s : State) (t : Nat) :
    ∃ time', advanceToFt s t = { s with time := time' } := by
  simp only [advanceToFt]; repeat' split
  all_goals exact ⟨_, rfl⟩

theorem makeReady_only (s : State) (r : Nat) :
    ∃ ropes' cores', makeReady s r = { s with ropes := ropes', cores := cores' } := by
  simp only [makeReady]; repeat' split
  all_goals exact ⟨_, _, rfl⟩

theorem cairnDrop_only (s : State) (level : Nat) :
    ∃ obj' cairn', cairnDrop s level = { s with obj := obj', cairn := cairn' } := ⟨_, _, rfl⟩

theorem cairn_only (s : State) (src code sev : Nat) (data : List Byte) :
    ∃ obj' cairn', cairn s src code sev data = { s with obj := obj', cairn := cairn' } := by
  unfold cairn
  split
  · exact ⟨_, _, rfl⟩
  · split
    · exact cairnDrop_only s _
    · split
      · exact ⟨_, _, rfl⟩
      · exact cairnDrop_only s _

theorem dropOver_only (s : State) : ∃ obj' rcv', dropOver s = { s with obj := obj', rcv := rcv' } := by
  unfold dropOver; split <;> exact ⟨_, _, rfl⟩

theorem readOnlyNow_only (s : State) :
    ∃ obj' dict' cairn' rcv', readOnlyNow s = { s with obj := obj', dict := dict', cairn := cairn', rcv := rcv' } := by
  unfold readOnlyNow
  dsimp only
  split
  · obtain ⟨d, r, h⟩ := latchFence_only { s with rcv := { s.rcv with readOnly := true } } true
    rw [h]
    split
    · obtain ⟨o, c, h⟩ := cairn_only (bump { s with dict := d, rcv := r } 0x8002 0x0B) 0x0C 2 2
        (toLE 1 1 ++ toLE 4 r.epoch.toNat)
      exact ⟨o, d, c, r, h⟩
    · obtain ⟨o, c, h⟩ := cairn_only { s with dict := d, rcv := r } 0x0C 2 2 (toLE 1 1 ++ toLE 4 r.epoch.toNat)
      exact ⟨o, d, c, r, h⟩
  · exact ⟨_, _, _, _, rfl⟩

theorem recheckReadOnly_only (s : State) :
    ∃ obj' dict' cairn' rcv', recheckReadOnly s = { s with obj := obj', dict := dict', cairn := cairn', rcv := rcv' } := by
  obtain ⟨o, r, h⟩ := dropOver_only s
  obtain ⟨o', d, c, r', h'⟩ := readOnlyNow_only (dropOver s)
  exact ⟨o', d, c, r', by rw [recheckReadOnly, h', h]⟩

theorem settleLease_only (s : State) :
    ∃ obj' dict' cairn' rcv', settleLease s = { s with obj := obj', dict := dict', cairn := cairn', rcv := rcv' } := by
  unfold settleLease
  split
  · exact recheckReadOnly_only s
  · exact ⟨_, _, _, _, rfl⟩

theorem recheckService_only (s : State) : ∃ sys' obj' dict' cairn' rcv',
    recheckService s = { s with sys := sys', obj := obj', dict := dict', cairn := cairn', rcv := rcv' } := by
  obtain ⟨o, r, h⟩ := dropOver_only s
  obtain ⟨v, r', h'⟩ := setFaultN_only (dropOver s)
  obtain ⟨o', d, c, r'', h''⟩ := recheckReadOnly_only (setFaultN (dropOver s))
  exact ⟨v, o', d, c, r'', by rw [recheckService, h'', h', h]⟩

theorem enterPorts_only (s : State) : ∃ ports', enterPorts s = { s with ports := ports' } :=
  foldl_rel (R := fun s t => ∃ p, t = { s with ports := p }) (fun _ => ⟨_, rfl⟩)
    (by rintro a b c ⟨p, rfl⟩ ⟨q, rfl⟩; exact ⟨q, rfl⟩) (fun s x => enterPort_only s x) _ s

theorem serviceChange_only (s : State) : ∃ sys' obj' dict' cairn' rcv' ports',
    serviceChange s =
      { s with sys := sys', obj := obj', dict := dict', cairn := cairn', rcv := rcv', ports := ports' } := by
  obtain ⟨v, o, d, c, r, h⟩ := recheckService_only s
  obtain ⟨p, h'⟩ := enterPorts_only (recheckService s)
  unfold serviceChange
  dsimp only
  split
  · exact ⟨v, o, d, c, r, p, by rw [h', h]⟩
  · exact ⟨v, o, d, c, r, s.ports, by rw [h]⟩

theorem setPch_only (s : State) (k : Nat) (x : PChan) : ∃ pch', setPch s k x = { s with hbm := { s.hbm with pch := pch' } } :=
  ⟨_, rfl⟩

theorem countChannel_only (s : State) (pc k row : Nat) :
    ∃ obj' chan', countChannel s pc k row = { s with obj := obj', hbm := { s.hbm with chan := chan' } } := by
  simp only [countChannel]; split <;> exact ⟨_, _, rfl⟩

/-- An activation is counted, by the stack's sweep or by the tracker, or it waits; the data stay as they are. -/
theorem activate_only (s : State) (pc bank row : Nat) (cls : ReqClass) (addr : Nat) (read : Option HbmOutcome) :
    ∃ obj' pch' chan', (activate s pc bank row cls addr read).1 =
      { s with obj := obj', hbm := { s.hbm with pch := pch', chan := chan' } } := by
  simp only [activate]
  split
  · exact ⟨_, _, _, rfl⟩
  · split
    · obtain ⟨o, c, h⟩ := countChannel_only s pc (bank * 24576 + row) row
      rw [h]
      exact ⟨_, _, _, rfl⟩
    · split <;> exact ⟨_, _, _, rfl⟩

theorem countWrite_only (s : State) (cls : ReqClass) (a n : Nat) :
    ∃ obj' pch' chan', countWrite s cls a n = { s with obj := obj', hbm := { s.hbm with pch := pch', chan := chan' } } :=
  foldl_rel (R := fun s t => ∃ o p c, t = { s with obj := o, hbm := { s.hbm with pch := p, chan := c } })
    (fun _ => ⟨_, _, _, rfl⟩)
    (by rintro a b c ⟨o, p, q, rfl⟩ ⟨o', p', q', rfl⟩; exact ⟨o', p', q', rfl⟩)
    (fun s x => by
      dsimp only
      split
      · obtain ⟨o, p, c, h⟩ := activate_only (bumpBy s (0x5010 + (hbmPlace s (max a ((a / 64 + x) * 64))).1 / 32) 7
          (min (a + n) ((a / 64 + x) * 64 + 64) - max a ((a / 64 + x) * 64)))
          (hbmPlace s (max a ((a / 64 + x) * 64))).1 (hbmPlace s (max a ((a / 64 + x) * 64))).2.1
          (hbmPlace s (max a ((a / 64 + x) * 64))).2.2 cls (max a ((a / 64 + x) * 64)) none
        exact ⟨o, p, c, h⟩
      · exact ⟨_, _, _, rfl⟩) _ s

theorem hbmWrite_only (s : State) (cls : ReqClass) (a : Nat) (bs : List Byte) :
    ∃ obj' hbm', hbmWrite s cls a bs = { s with obj := obj', hbm := hbm' } := by
  obtain ⟨o, p, c, h⟩ := countWrite_only s cls a bs.length
  unfold hbmWrite
  rw [h]
  exact ⟨_, _, rfl⟩

theorem writeCopies_only (s : State) (baseA baseB off : Nat) (bs : List Byte) :
    ∃ obj' hbm', writeCopies s baseA baseB off bs = { s with obj := obj', hbm := hbm' } := by
  obtain ⟨o, h, e⟩ := hbmWrite_only s .table (baseA + off) bs
  obtain ⟨o', h', e'⟩ := hbmWrite_only (hbmWrite s .table (baseA + off) bs) .table (baseB + off) bs
  obtain ⟨o'', h'', e''⟩ := hbmWrite_only s .table (baseB + off) bs
  unfold writeCopies
  by_cases c : (pairOut s 0 && s.hbm.test.isSome) = true
  · simp only [c, if_true]
    split
    · exact ⟨_, _, rfl⟩
    · exact ⟨_, _, e''⟩
  · simp only [c, if_false, Bool.false_eq_true]
    split
    · exact ⟨_, _, e⟩
    · exact ⟨_, _, by rw [e', e]⟩

theorem giveUp_only (s : State) (r : Nat) : ∃ obj' cores', giveUp s r = { s with obj := obj', cores := cores' } := by
  unfold giveUp
  dsimp only
  split <;> exact ⟨_, _, rfl⟩

theorem stall_only (s : State) (r : Nat) (w : Wait) :
    ∃ ropes' obj' cores', stall s r w = { s with ropes := ropes', obj := obj', cores := cores' } := by
  obtain ⟨o, k, h⟩ := giveUp_only (modRope s r (fun x => { x with st := .waiting w })) r
  exact ⟨_, o, k, by rw [stall, h]; rfl⟩

theorem wakeDone_only (s : State) (r : Nat) (f : Rope → Rope) :
    ∃ ropes' cores', wakeDone s r f = { s with ropes := ropes', cores := cores' } := by
  obtain ⟨x, k, h⟩ := makeReady_only (modRope s r (fun x => nextPc (f x))) r
  exact ⟨x, k, by rw [wakeDone, h]; rfl⟩

theorem setEvent_only (s : State) (r : Nat) (b : BitVec 64) :
    ∃ ropes' cores', setEvent s r b = { s with ropes := ropes', cores := cores' } := by
  unfold setEvent
  dsimp only
  split
  · split
    · obtain ⟨x, k, h⟩ := wakeDone_only (rouse (modRope s r (fun x => { x with pending := x.pending ||| b })) (ropeCore r)) r
        (fun x => evwTake x ‹_› ‹_› false)
      exact ⟨x, k, by rw [h]; rfl⟩
    · exact ⟨_, _, rfl⟩
  · exact ⟨_, _, rfl⟩

theorem leadEvent_only (s : State) (c : Nat) (b : BitVec 64) :
    ∃ ropes' cores', leadEvent s c b = { s with ropes := ropes', cores := cores' } := by
  unfold leadEvent
  split
  · exact setEvent_only _ _ _
  · exact ⟨_, _, rfl⟩

theorem maintRefuse_only (s : State) (c code : Nat) :
    ∃ obj' cairn', maintRefuse s c code = { s with obj := obj', cairn := cairn' } := by
  obtain ⟨o, k, h⟩ := cairn_only (bump (putObj (putObj (putObj s 0x8000 2 c) 0x8000 3 code) 0x8000 6 (ft s)) 0x8000 4) 0x0B 1 1
    (toLE 1 c ++ toLE 1 code)
  exact ⟨o, k, by rw [maintRefuse, h]; rfl⟩

theorem maintStart_only (s : State) (c ctl : Nat) :
    ∃ obj' cairn', (maintStart s c ctl).1 = { s with obj := obj', cairn := cairn' } := by
  unfold maintStart
  split
  · exact maintRefuse_only _ _ _
  · exact ⟨_, _, rfl⟩

theorem queueStart_only (s : State) (lp tid qn : Nat) : ∃ tm', queueStart s lp tid qn = { s with tm := tm' } := by
  unfold queueStart
  split
  · split
    · exact ⟨_, rfl⟩
    · exact shaperStart_only s lp tid
  · exact shaperStart_only s lp tid

theorem enqueue_only (s : State) (o : Output) : ∃ tm' nextOut', enqueue s o = { s with tm := tm', nextOut := nextOut' } := by
  obtain ⟨m, h⟩ := queueStart_only s o.lp (queueTid o) (queueNo o.lp o.hdr.cls.toNat (queueTid o) (spreadFor s o))
  simp only [enqueue, h]
  by_cases c : (queueOf s o.lp o.hdr.cls.toNat (queueTid o) (spreadFor s o)).isSome = true
  all_goals
    simp only [c, if_true, if_false, Bool.false_eq_true]
    split <;> exact ⟨_, _, rfl⟩

theorem dropStage_only (s : State) (f : Nat) : ∃ trav', dropStage s f = { s with trav := trav' } := ⟨_, rfl⟩

theorem copiesSettle_only (s : State) (f : Nat) :
    ∃ trav' pwr', copiesSettle s f = { s with trav := trav', pwr := pwr' } := by
  simp only [copiesSettle]
  split
  · obtain ⟨a, h⟩ := freeHead_only s (mget s.trav.copies f {}).head
    obtain ⟨b, w, h'⟩ := freeCellList_only (freeHead s (mget s.trav.copies f {}).head) (mget s.trav.copies f {}).cells
    rw [h', h]
    exact ⟨_, w, rfl⟩
  · exact ⟨_, _, rfl⟩

theorem freeStores_only (s : State) (o : Output) :
    ∃ trav' pwr', freeStores s o = { s with trav := trav', pwr := pwr' } := by
  have settle : ∀ u f, (∃ v, u = { s with trav := v }) → ∃ v w, copiesSettle u f = { s with trav := v, pwr := w } := by
    rintro _ f ⟨v, rfl⟩
    exact copiesSettle_only { s with trav := v } f
  simp only [freeStores]
  split
  · obtain ⟨a, h⟩ := freeHead_only s o.head
    obtain ⟨b, w, h'⟩ := freeCellList_only (freeHead s o.head) o.cells
    exact ⟨b, w, by rw [h', h]⟩
  · next f _ =>
    by_cases c : o.head = (mget s.trav.copies f {}).head
    · simp only [c, if_true]
      split <;> exact settle _ _ ⟨_, rfl⟩
    · obtain ⟨a, h⟩ := freeHead_only s o.head
      simp only [c, if_false, h]
      split <;> exact settle _ _ ⟨_, rfl⟩

theorem pitonAlloc_only (s : State) (n : Nat) :
    ∃ obj' trav', (pitonAlloc s n).1 = { s with obj := obj', trav := trav' } := by
  simp only [pitonAlloc]
  split
  · exact ⟨_, _, rfl⟩
  · split <;> exact ⟨_, _, rfl⟩

theorem fillBuffer_only (s : State) (b : Nat × Nat) (n : Nat) :
    ∃ obj' hbm', fillBuffer s b n = { s with obj := obj', hbm := hbm' } := by
  obtain ⟨o, p, c, h⟩ := countWrite_only s .spill (pitonAddr s b.1 b.2) n
  simp only [fillBuffer, h]
  exact ⟨_, _, rfl⟩

/-- An output goes to a Piton buffer of its queue, or it stays where it is. -/
theorem trySpill_only (s : State) (o : Output) (sp : Nat) : ∃ obj' hbm' trav' tm' pwr' nextOut', (trySpill s o sp).1 =
    { s with obj := obj', hbm := hbm', trav := trav', tm := tm', pwr := pwr', nextOut := nextOut' } := by
  simp only [trySpill]
  split
  · exact ⟨_, _, _, _, _, _, rfl⟩
  · obtain ⟨b, v, e⟩ := pitonAlloc_only s (outLen o)
    split
    · next u hu => rw [hu] at e; exact ⟨b, _, v, _, _, _, e⟩
    · next u p k hu =>
      rw [hu] at e
      dsimp only at e
      obtain ⟨v', w, e'⟩ := freeStores_only (bump u 0x5800 0x0A) o
      obtain ⟨b', m, e''⟩ := fillBuffer_only (freeStores (bump u 0x5800 0x0A) o) (p, k) (outLen o)
      obtain ⟨q, eq⟩ := queueStart_only (fillBuffer (freeStores (bump u 0x5800 0x0A) o) (p, k) (outLen o)) o.lp (queueTid o)
        (queueNo o.lp o.hdr.cls.toNat (queueTid o) sp)
      rw [eq, e'', e', e]
      split <;> exact ⟨_, _, _, _, _, _, rfl⟩

theorem joinCtl_only (s : State) (o : Output) (h : o.counted = false) (hr : o.reads = none) :
    ∃ obj' hbm' trav' tm' pwr' nextOut', joinCtl s o =
    { s with obj := obj', hbm := hbm', trav := trav', tm := tm', pwr := pwr', nextOut := nextOut' } := by
  unfold joinCtl
  split
  · obtain ⟨b, m, v, q, w, n, e⟩ := trySpill_only s o (spreadFor s o)
    split
    · next t ht => exact ⟨b, m, v, q, w, n, by rw [← e, ht]⟩
    · next t ht =>
      rw [ht] at e
      dsimp only at e
      obtain ⟨v', w', e'⟩ := freeStores_only (bump t 0x5800 0x0B) o
      refine ⟨(bump t 0x5800 0x0B).obj, m, v', q, w', n, ?_⟩
      simp only [endOutput, h, hr, Bool.false_eq_true, if_false]
      rw [e', e]
      rfl
  · obtain ⟨m, n, e⟩ := enqueue_only s o
    exact ⟨_, _, _, m, _, n, e⟩

theorem sendCtl_only (s : State) (lp : Nat) (h : Sxt) (payload : List Byte) : ∃ obj' hbm' trav' tm' pwr' nextOut',
    sendCtl s lp h payload =
      { s with obj := obj', hbm := hbm', trav := trav', tm := tm', pwr := pwr', nextOut := nextOut' } := by
  unfold sendCtl
  split
  · exact ⟨_, _, _, _, _, _, rfl⟩
  · obtain ⟨b, m, v, q, w, n, e⟩ := joinCtl_only (useHead s ‹_›)
      (withSettings s { hdr := h, payload := payload, lp := lp, ctl := true, head := ‹_›, ecn := ecnOf s h.tid.toNat }) rfl rfl
    exact ⟨b, m, v, q, w, n, by rw [e]; rfl⟩

theorem opBegin_only (s : State) (c : OpCmd) : ∃ pwr', opBegin s c = { s with pwr := pwr' } := by
  unfold opBegin
  split
  · exact ⟨_, rfl⟩
  · dsimp only
    split
    · obtain ⟨w, h⟩ := railThere_only (setStage s c .slewing) c
      exact ⟨w, by rw [h]; rfl⟩
    · exact ⟨_, rfl⟩

theorem storeNow_only (s : State) (e : Nat × Nat) :
    ∃ stored' cairn', storeNow s e = { s with stored := stored', cairn := cairn' } := ⟨_, _, rfl⟩

theorem flushStores_only (s : State) :
    ∃ stored' dict' cairn', flushStores s = { s with stored := stored', dict := dict', cairn := cairn' } := by
  obtain ⟨x, c, h⟩ := foldl_rel (R := fun s t : State => ∃ p c, t = { s with stored := p, cairn := c }) (f := storeNow)
    (fun _ => ⟨_, _, rfl⟩) (by rintro a b c ⟨p, q, rfl⟩ ⟨p', q', rfl⟩; exact ⟨p', q', rfl⟩) (fun _ _ => ⟨_, _, rfl⟩)
    s.dict.storeQ s
  unfold flushStores
  rw [h]
  exact ⟨_, _, _, rfl⟩

theorem opSupersede_only (s : State) : ∃ obj', opSupersede s = { s with obj := obj' } := by
  unfold opSupersede
  split <;> exact ⟨_, rfl⟩

theorem opStart_only (s : State) (old : Option OpCmd) (c : OpCmd) : ∃ pwr', opStart s old c = { s with pwr := pwr' } := by
  unfold opStart
  split
  · exact ⟨_, rfl⟩
  · exact ⟨_, rfl⟩
  · exact opBegin_only s c

/-- The dp-cycle clock takes another step: what counts dp-cycles is recounted. -/
theorem reclock_only (was s : State) : ∃ time' flights' ropes' clusters', reclock was s =
    { s with time := time', flights := flights', ropes := ropes', clusters := clusters' } := by
  simp only [reclock]
  split <;> exact ⟨_, _, _, _, rfl⟩

theorem opAccept_only (s : State) (seq f v : Nat) : ∃ pwr' obj' time' flights' ropes' clusters', opAccept s seq f v =
    { s with pwr := pwr', obj := obj', time := time', flights := flights', ropes := ropes', clusters := clusters' } := by
  obtain ⟨o, h⟩ := opSupersede_only (settleRail s)
  obtain ⟨w, h'⟩ := opStart_only (modPwr (opSupersede (settleRail s)) (fun p => { p with target := v, opResult := 1, opSeq := seq }))
    s.pwr.cmd { seq := seq, fstep := f, target := v, stage := .slewing }
  simp only [opAccept, h']
  obtain ⟨t, g, r, c, h''⟩ := reclock_only s
    { modPwr (opSupersede (settleRail s)) (fun p => { p with target := v, opResult := 1, opSeq := seq }) with pwr := w }
  rw [h'', h]
  exact ⟨_, _, _, _, _, _, rfl⟩

theorem managerCmd_only (s : State) (f : Nat) : ∃ pwr' obj' time' flights' ropes' clusters', managerCmd s f =
    { s with pwr := pwr', obj := obj', time := time', flights := flights', ropes := ropes', clusters := clusters' } :=
  opAccept_only s 0 f _

theorem traceDrain_only (c n : Nat) (s : State) : ∃ clusters' obj' hbm',
    traceDrain s c n = { s with clusters := clusters', obj := obj', hbm := hbm' } := by
  induction n generalizing s with
  | zero => exact ⟨_, _, _, rfl⟩
  | succ n ih =>
    unfold traceDrain
    dsimp only
    split
    · exact ⟨_, _, _, rfl⟩
    · next b bs _ =>
      split
      · obtain ⟨o, m, h⟩ := hbmWrite_only s .sys (obj s (0x4050 + c) 3 + obj s (0x4050 + c) 5) b
        rw [h]
        generalize hu : modCluster _ _ _ = u
        obtain ⟨y, o', m', e⟩ := ih u
        rw [e, ← hu]
        exact ⟨y, o', m', rfl⟩
      · exact ⟨_, _, _, rfl⟩

theorem trace_only (s : State) (c kind n : Nat) (x : Slot) (rp reason : Nat) : ∃ clusters' obj' hbm',
    trace s c kind n x rp reason = { s with clusters := clusters', obj := obj', hbm := hbm' } := by
  obtain ⟨y, o, m, h⟩ := traceDrain_only c 64 s
  unfold trace
  dsimp only
  split
  · exact ⟨_, _, _, rfl⟩
  · rw [h]
    split
    · exact ⟨_, _, _, rfl⟩
    · generalize hu : modCluster _ _ _ = u
      obtain ⟨y, o, m, e⟩ := traceDrain_only c 64 u
      rw [e, ← hu]
      exact ⟨y, o, m, rfl⟩

end Sys2Proof.Machine
end

