-- ==== Sys2Proof/Laws/Memory.lean ====
section
/-! SUPPORT. The memories: every operation keeps their canonical form, and each byte reads as it was stored last. -/

namespace Sys2Proof.Claim

open Sys2Proof.Machine

/-- A byte after a store of bytes. -/
theorem rd8_wrN (m : List Host.Cell) (a : Nat) (bs : List Byte) (b : Nat) : rd8 (wrN m a bs) b = stored a bs b (rd8 m b) := by
  unfold stored
  split
  · next h =>
    have := rd8_wrN_in bs m a (b - a) (by omega)
    rw [show a + (b - a) = b by omega] at this
    rw [this, List.getD_eq_getElem]
  · next h => exact rd8_wrN_out bs m a b (by omega)

theorem length_rdN (m : List Host.Cell) (a n : Nat) : (rdN m a n).length = n := by
  induction n generalizing a with
  | zero => rfl
  | succ n ih => simp [rdN, ih]

theorem getElem_rdN (m : List Host.Cell) (a n i : Nat) (h : i < n) : (rdN m a n)[i]? = some (rd8 m (a + i)) := by
  induction n generalizing a i with
  | zero => omega
  | succ n ih =>
    cases i with
    | zero => simp [rdN]
    | succ i => simp only [rdN, List.getElem?_cons_succ]; rw [ih _ _ (by omega)]; congr 2; omega

theorem hbmWrite_mem (s : State) (cls : ReqClass) (a : Nat) (bs : List Byte) :
    (hbmWrite s cls a bs).hbm.mem = wrN s.hbm.mem a bs := by
  obtain ⟨o, p, c, h⟩ := countWrite_only s cls a bs.length
  simp [hbmWrite, clearMedia, h]

theorem hbmWrite_save (s : State) (cls : ReqClass) (a : Nat) (bs : List Byte) :
    (hbmWrite s cls a bs).hbm.save = s.hbm.save.map (fun v => savedOver v a bs.length) := by
  obtain ⟨o, p, c, h⟩ := countWrite_only s cls a bs.length
  simp [hbmWrite, clearMedia, h]

theorem hbmWrite_wf {s : State} (cls : ReqClass) (a : Nat) (bs : List Byte) (h : cellsWf s.hbm.mem = true) :
    cellsWf (hbmWrite s cls a bs).hbm.mem = true := by
  rw [hbmWrite_mem]; exact cellsWf_wrN bs a h

/-- A byte of the HBM: what memory holds, or where an entry of Bivouac has saved and nothing has been written since, a free
value. -/
theorem hbmByte_eq (s : State) (a : Nat) : hbmByte s a = match s.hbm.save with
    | none => rd8 s.hbm.mem a
    | some v => if savedAt v a then Config.savedByte v.seed a else rd8 s.hbm.mem a := by
  unfold hbmByte hbmRead
  cases s.hbm.save <;> simp [rdN]

/-- With nothing saved, the HBM reads as its memory. -/
theorem hbmRead_none {s : State} (h : s.hbm.save = none) (a n : Nat) : hbmRead s a n = rdN s.hbm.mem a n := by
  simp [hbmRead, h]

theorem mem_insertNat {a b : Nat} {l : List Nat} : b ∈ insertNat a l ↔ b = a ∨ b ∈ l := by
  induction l with
  | nil => simp [insertNat]
  | cons x l ih =>
    rw [insertNat]
    split
    · simp
    · split
      · next h => simp [h]
      · simp only [List.mem_cons, ih]
        constructor <;> (rintro (h | h | h) <;> simp [h])

/-- A byte of the save area stays a free value until a write covers it. -/
theorem savedAt_over (v : SaveArea) (a n b : Nat) :
    savedAt (savedOver v a n) b = (savedAt v b && !(decide (a ≤ b) && decide (b < a + n))) := by
  have fold : ∀ (l g : List Nat), b ∈ l.foldl (fun l b => insertNat b l) g ↔ b ∈ g ∨ b ∈ l := by
    intro l
    induction l with
    | nil => simp
    | cons x l ih => intro g; simp only [List.foldl_cons, ih, mem_insertNat, List.mem_cons]; tauto
  have range : b ∈ ((List.range n).map (a + ·)) ↔ a ≤ b ∧ b < a + n := by
    simp only [List.mem_map, List.mem_range]
    exact ⟨by rintro ⟨i, h, rfl⟩; omega, fun h => ⟨b - a, by omega, by omega⟩⟩
  change (decide (v.base ≤ b) && decide (b < v.base + 2 ^ 27) &&
    (decide (b - v.base < v.parts * 0x600000) || decide (0x6000000 ≤ b - v.base)) &&
    !((((List.range n).map (a + ·)).filter (savedAt v)).foldl (fun l b => insertNat b l) v.gone).contains b) = _
  rw [Bool.eq_iff_iff]
  simp only [savedAt, Bool.and_eq_true, Bool.or_eq_true, Bool.not_eq_true', decide_eq_true_eq, ← Bool.not_eq_true,
    List.contains_iff_mem, fold, List.mem_filter, range]
  generalize (v.base ≤ b ∧ b < v.base + 2 ^ 27) = p
  generalize (b - v.base < v.parts * 0x600000 ∨ 0x6000000 ≤ b - v.base) = q
  tauto

theorem hbmByte_hbmWrite (s : State) (cls : ReqClass) (a : Nat) (bs : List Byte) (b : Nat) :
    hbmByte (hbmWrite s cls a bs) b = stored a bs b (hbmByte s b) := by
  rw [hbmByte_eq, hbmByte_eq, hbmWrite_mem, hbmWrite_save]
  cases s.hbm.save with
  | none => exact rd8_wrN _ _ _ _
  | some v =>
    simp only [Option.map_some, savedAt_over, rd8_wrN]
    by_cases h : a ≤ b ∧ b < a + bs.length
    · simp [stored, h]
    · simp only [stored, h, if_false]
      have : (decide (a ≤ b) && decide (b < a + bs.length)) = false := by simpa using fun x => Nat.le_of_not_lt fun y => h ⟨x, y⟩
      simp only [this, Bool.not_false, Bool.and_true]
      rfl

theorem writeCopies_wf {s : State} (baseA baseB off : Nat) (bs : List Byte) (h : cellsWf s.hbm.mem = true) :
    cellsWf (writeCopies s baseA baseB off bs).hbm.mem = true := by
  unfold writeCopies
  dsimp only
  split
  · split
    · exact h
    · exact hbmWrite_wf _ _ _ h
  · split
    · exact hbmWrite_wf _ _ _ h
    · exact hbmWrite_wf _ _ _ (hbmWrite_wf _ _ _ h)

/-- With no stack pair fenced, both copies take the bytes. -/
theorem hbmByte_writeCopies {s : State} (baseA baseB off : Nat) (bs : List Byte) (ha : absent s = false)
    (ht : s.hbm.test = none) (b : Nat) : hbmByte (writeCopies s baseA baseB off bs) b =
      stored (baseB + off) bs b (stored (baseA + off) bs b (hbmByte s b)) := by
  obtain ⟨o, h, e⟩ := hbmWrite_only s .table (baseA + off) bs
  have hm := hbmWrite_mem s .table (baseA + off) bs
  have he : ∀ x, (hbmWrite s .table (baseA + off) bs).hbm.test = x → absent (hbmWrite s .table (baseA + off) bs) = false := by
    intro x _; rw [e]; exact ha
  have ht' : (hbmWrite s .table (baseA + off) bs).hbm.test = none := by
    obtain ⟨o', p, c, hc⟩ := countWrite_only s .table (baseA + off) bs.length
    simp [hbmWrite, clearMedia, hc, ht]
  simp [writeCopies, ht, he _ rfl, ht', hbmByte_hbmWrite]

/-- Memories in canonical form that read alike are equal. -/
theorem cells_ext {m n : List Host.Cell} (hm : cellsWf m = true) (hn : cellsWf n = true) (h : ∀ a, rd8 m a = rd8 n a) :
    m = n := by
  have first : ∀ {x : Nat} {v : Byte} {l : List Host.Cell}, rd8 ((x, v) :: l) x = v := by
    intro x v l; simp [rd8, mget, mfind]
  have below : ∀ {l : List Host.Cell} {x : Nat}, (∀ e ∈ l, x < e.1) → rd8 l x = 0 := by
    intro l x hl
    have : mfind l x = none := by
      induction l with
      | nil => rfl
      | cons e l ih =>
        obtain ⟨y, w⟩ := e
        have : x < y := hl (y, w) (by simp)
        rw [mfind, if_neg (by omega)]
        exact ih fun e he => hl e (by simp [he])
    simp [rd8, mget, this]
  have tail : ∀ {e : Host.Cell} {l : List Host.Cell}, cellsWf (e :: l) = true → cellsWf l = true ∧ e.2 ≠ 0 ∧ ∀ f ∈ l, e.1 < f.1 := by
    intro e l hl
    simp only [cellsWf, Bool.and_eq_true, List.all_cons] at hl
    exact ⟨by rw [cellsWf, keysRise_tail hl.1, hl.2.2]; rfl, by simpa using hl.2.1, keysRise_lt hl.1⟩
  induction m generalizing n with
  | nil =>
    cases n with
    | nil => rfl
    | cons e n =>
      obtain ⟨x, v⟩ := e
      have := h x
      rw [first] at this
      exact absurd this.symm (tail hn).2.1
  | cons e m ih =>
    obtain ⟨x, v⟩ := e
    have tm := tail hm
    cases n with
    | nil =>
      have := h x
      rw [first] at this
      exact absurd this tm.2.1
    | cons f n =>
      obtain ⟨y, w⟩ := f
      have tn := tail hn
      have xy : x = y := by
        rcases Nat.lt_trichotomy x y with lt | eq | gt
        · have := h x
          rw [first, below (fun e he => by
            rcases List.mem_cons.mp he with rfl | he
            · exact lt
            · exact Nat.lt_trans lt (tn.2.2 e he))] at this
          exact absurd this tm.2.1
        · exact eq
        · have := h y
          rw [first, below (fun e he => by
            rcases List.mem_cons.mp he with rfl | he
            · exact gt
            · exact Nat.lt_trans gt (tm.2.2 e he))] at this
          exact absurd this.symm tn.2.1
      subst xy
      have vw : v = w := by have := h x; rwa [first, first] at this
      subst vw
      rw [ih tm.1 tn.1 fun a => ?_]
      by_cases ax : a = x
      · subst ax; rw [below tm.2.2, below tn.2.2]
      · have := h a
        simpa [rd8, mget, mfind, Ne.symm ax] using this

/-! ### The other writers of memories -/

theorem cellsWf_fold {β : Type} (l : List β) (f : List Host.Cell → β → List Host.Cell)
    (hf : ∀ m x, cellsWf m = true → cellsWf (f m x) = true) {m : List Host.Cell} (h : cellsWf m = true) :
    cellsWf (l.foldl f m) = true := by
  induction l generalizing m with
  | nil => exact h
  | cons x l ih => exact ih (hf m x h)

theorem copyHbm_wf {s : State} (src dst len : Nat) (h : cellsWf s.hbm.mem = true) :
    cellsWf (copyHbm s src dst len).hbm.mem = true :=
  cellsWf_fold_wr8 _ _ _ (cellsWf_filter _ h)

theorem winWrite_wf {x : Rope} (o : Nat) (bs : List Byte) (h : cellsWf x.window = true) :
    cellsWf (winWrite x o bs).window = true :=
  cellsWf_fold _ _ (fun m e hm => by split; exacts [cellsWf_wr8 _ _ hm, hm]) h

theorem windowCells_wf (s : State) (p : Pitch) : cellsWf (windowCells s p) = true :=
  cellsWf_fold _ _ (fun _ _ hm => cellsWf_wrN _ _ hm)
    (cellsWf_fold _ _ (fun _ _ hm => cellsWf_wrN _ _ hm) (cellsWf_wrN _ _ rfl))

/-- A store of a rope keeps every memory in its form, wherever it goes but to cluster control. -/
theorem memWrite_ok {s : State} (r : Nat) (g : Region) (a : Nat) (bs : List Byte) (hg : g ≠ .ctl) (h : MemoriesOk s) :
    MemoriesOk (memWrite s r g a bs) := by
  obtain ⟨hm, hc, hw⟩ := h
  have other : ∀ (k : Nat) (f : Cluster → Cluster),
      (cellsWf (f (cluster s k)).scratch = true ∧ cellsWf (f (cluster s k)).imem = true) → ∀ d,
      cellsWf (cluster (modCluster s k f) d).scratch = true ∧ cellsWf (cluster (modCluster s k f) d).imem = true := by
    intro k f hx d
    by_cases e : k = d
    · subst e; simpa [modCluster] using hx
    · rw [modCluster, cluster_setCluster_ne _ _ e]; exact hc d
  cases g with
  | scratch =>
    refine ⟨hm, other (ropeCluster r) (fun y => { y with
      scratch := wrN y.scratch a bs
      portA := if a < 0x40000 then some (a / 8, (a + bs.length - 1) / 8, cyc s) else y.portA }) ?_, hw⟩
    exact ⟨cellsWf_wrN _ _ (hc _).1, (hc _).2⟩
  | imem =>
    refine ⟨hm, other (ropeCluster r) (fun y => { y with imem := wrN y.imem (a - 0x1000000) bs }) ?_, hw⟩
    exact ⟨(hc _).1, cellsWf_wrN _ _ (hc _).2⟩
  | window =>
    refine ⟨hm, hc, fun q => ?_⟩
    by_cases e : r = q
    · subst e; simpa [memWrite, modRope] using winWrite_wf _ _ (hw r)
    · simpa [memWrite, modRope, rope_setRope_ne _ _ e] using hw q
  | ctl => exact absurd rfl hg
  | hbm =>
    obtain ⟨o, m, e⟩ := hbmWrite_only s .core (a - 0x1000000000000000) bs
    refine ⟨hbmWrite_wf _ _ _ hm, fun c => ?_, fun q => ?_⟩
    · simp only [memWrite, e]; exact hc c
    · simp only [memWrite, e]; exact hw q

theorem keysRise_append {α : Type} {m n : Map α} (hm : keysRise m = true) (hn : keysRise n = true)
    (h : ∀ e ∈ m, ∀ f ∈ n, e.1 < f.1) : keysRise (m ++ n) = true := by
  induction m with
  | nil => exact hn
  | cons e m ih =>
    obtain ⟨a, v⟩ := e
    refine keysRise_cons (ih (keysRise_tail hm) fun e he => h e (by simp [he])) fun f hf => ?_
    rcases List.mem_append.mp hf with hf | hf
    · exact keysRise_lt hm f hf
    · exact h (a, v) (by simp) f hf

/-- The home-disposition table as it stands at T0 is in canonical form (R244). -/
theorem homeCells_wf (s : State) : cellsWf (homeCells s) = true := by
  have all : ∀ n, keysRise ((List.range n).flatMap fun t =>
        ((toLE 4 (homeWord s t)).zipIdx).map fun e => (0x20000 + 8 * t + e.2, e.1)) = true ∧
      ∀ e ∈ (List.range n).flatMap fun t => ((toLE 4 (homeWord s t)).zipIdx).map fun e => (0x20000 + 8 * t + e.2, e.1),
        e.1 < 0x20000 + 8 * n := by
    intro n
    induction n with
    | zero => simp [keysRise]
    | succ n ih =>
      rw [List.range_succ, List.flatMap_append]
      constructor
      · refine keysRise_append ih.1 (by simp [toLE, keysRise]) fun e he f hf => ?_
        have := ih.2 e he
        simp [toLE] at hf
        rcases hf with rfl | rfl | rfl | rfl <;> simp <;> omega
      · intro e he
        rcases List.mem_append.mp he with he | he
        · have := ih.2 e he; omega
        · simp [toLE] at he
          rcases he with rfl | rfl | rfl | rfl <;> simp <;> omega
  simp only [homeCells, cellsWf, Bool.and_eq_true, List.all_eq_true]
  exact ⟨keysRise_filter _ (all 4096).1, fun e he => (List.mem_filter.mp he).2⟩

/-- Every memory is in canonical form at reset. -/
theorem reset_memories : MemoriesOk State.reset :=
  ⟨rfl, fun _ => ⟨rfl, rfl⟩, fun _ => rfl⟩

end Sys2Proof.Claim
end

