-- ==== Sys2Proof/Laws/Time.lean ====
section
/-! SUPPORT. What passing deadlines can change before a command acts, and when they change nothing: the lease, the source of
fabric time, segmented transfers and the events of the Itinerary. -/

namespace Sys2Proof.Machine

/-! ### The lease (R404) -/

theorem settleLease_of_held (s : State) (h : leaseOver s = false) : settleLease s = s := by simp [settleLease, h]

theorem dropOver_of_held (s : State) (h : leaseOver s = false) : dropOver s = s := by simp [dropOver, h]

theorem recheckReadOnly_of_held (s : State) (h : leaseOver s = false) : recheckReadOnly s = readOnlyNow s := by
  rw [recheckReadOnly, dropOver_of_held s h]

/-! ### Fabric time (R343, R347) -/

theorem loseTime_only (s : State) : ∃ time', loseTime s = { s with time := time' } := ⟨_, rfl⟩

theorem sourceLost_only (s : State) (t : Nat) :
    ∃ free' time' obj' cairn', sourceLost s t = { s with free := free', time := time', obj := obj', cairn := cairn' } := by
  unfold sourceLost
  split
  · generalize hu : modTime _ _ = u
    obtain ⟨o, c, h⟩ := cairn_only (bump u 0x6800 0x0B) 9 2 1 (toLE 8 (obj u 0x6800 7))
    dsimp only
    rw [h, ← hu]
    exact ⟨_, _, _, _, rfl⟩
  · split <;> exact ⟨_, _, _, _, rfl⟩

theorem loseOverdue_only (s : State) :
    ∃ free' time' obj' cairn', loseOverdue s = { s with free := free', time := time', obj := obj', cairn := cairn' } := by
  unfold loseOverdue
  split
  · split
    · exact sourceLost_only s _
    · exact ⟨_, _, _, _, rfl⟩
  · exact ⟨_, _, _, _, rfl⟩

theorem limitHoldover_only (s : State) : ∃ time', limitHoldover s = { s with time := time' } := by
  unfold limitHoldover
  split
  · split <;> exact ⟨_, rfl⟩
  · exact ⟨_, rfl⟩

theorem settleTime_only (s : State) :
    ∃ free' time' obj' cairn', settleTime s = { s with free := free', time := time', obj := obj', cairn := cairn' } := by
  unfold settleTime
  split
  · exact ⟨_, _, _, _, rfl⟩
  · obtain ⟨f, m, o, c, h⟩ := loseOverdue_only s
    obtain ⟨m', h'⟩ := limitHoldover_only (loseOverdue s)
    rw [h', h]
    exact ⟨_, _, _, _, rfl⟩

/-- Nothing is due of FtState: the source is not overdue and HOLDOVER has not reached its limit. -/
theorem settleTime_of_none (s : State) (h : ∀ t, lossDue s = some t → s.time.now < t)
    (h' : ∀ t, holdoverDue s = some t → s.time.now < t) : settleTime s = s := by
  have e : loseOverdue s = s := by
    unfold loseOverdue
    split
    · next t e => rw [if_neg (Nat.not_le.mpr (h t e))]
    · rfl
  have e' : limitHoldover s = s := by
    unfold limitHoldover
    split
    · next t e => rw [if_neg (Nat.not_le.mpr (h' t e))]
    · rfl
  rw [settleTime, e, e', ite_self]

/-! ### Transfers (R366) -/

theorem settleXfers_of_none (s : State) (q : CanReq) (h : ∀ x ∈ s.dict.xfers, s.time.now < xferDue s x) : settleXfers s q = s := by
  unfold settleXfers
  split
  · rfl
  · rw [List.filter_eq_nil_iff.mpr (fun x m => by simpa using h x m)]
    rfl

/-! ### The Itinerary (R350) -/

/-- No event has come due: a step or a wake fires none. -/
theorem firePassed_of_none (was : Nat) (s : State) (n : Nat) (h : ∀ e, headEvent s = some e → ft s < e.ft) :
    firePassed was s n = s := by
  cases n with
  | zero => rfl
  | succ n =>
    unfold firePassed
    split
    · next e he => rw [if_neg (Nat.not_le.mpr (h e he))]
    · rfl

end Sys2Proof.Machine
end

