-- ==== Sys2Proof/WellFormed.lean ====
section
/-! DEFINITION. Well-formedness of commands: the operands lie in the ranges the spec gives the things they
name (R2, R3, R63, R321, R336, R363). -/

namespace Sys2Proof

/-- A logical port number of the family's largest variant (R50). -/
def lpOk (lp : Nat) : Bool := decide (lp < 384)

/-- A CAN FD frame carries at most 64 bytes (R363). -/
def canOk (q : CanReq) : Bool := decide (q.data.length ≤ 64)

/-- A row of the in-service test lies in a stack (R321, R336). -/
def rowTestOk (t : RowTest) : Bool := decide (t.pch < 128) && decide (t.bank < 48) && decide (t.row < 24576)

/-- The operands are in range. -/
def Instr.wf : Instr → Bool
  | .frameReceived lp bytes noBank => lpOk lp && decide (bytes.length ≤ 16384) && decide (noBank ≤ 18)
  | .ptpMessage _ => true
  | .pulseSend lp => lpOk lp
  | .pulseLossTimeout lp => lpOk lp
  | .pulseMissed lp => lpOk lp
  | .ackDelayExpiry _ => true
  | .retransmitTimeout _ => true
  | .contextIdleExpiry _ _ => true
  | .credSend lp => lpOk lp
  | .modeWrite lp _ => lpOk lp
  | .laneMapWrite lp _ _ => lpOk lp
  | .trainingComplete lp => lpOk lp
  | .trainingTimeout lp => lpOk lp
  | .trainingRestart lp => lpOk lp
  | .fecErrorBurst lp _ _ => lpOk lp
  | .linkDown lp => lpOk lp
  | .lpiReceivedOutside lp => lpOk lp
  | .pfcXoffSend lp _ => lpOk lp
  | .pauseTimeExpiry lp _ => lpOk lp
  | .ruleReadDone _ => true
  | .learnRequest => true
  | .stageOpen => true
  | .stageDiscard => true
  | .versionRetired => true
  | .reclaimWalkDone => true
  | .insert => true
  | .deleteEntry => true
  | .search => true
  | .nextSlot => true
  | .flushPort raced => raced.all (fun b => decide (b < 131072))
  | .ageSweep => true
  | .ageSweepTimer => true
  | .ageSweepBucket _ => true
  | .ageIntervalWrite _ => true
  | .shadowCtlWrite _ => true
  | .shadowBucket => true
  | .shadowRecheck _ => true
  | .coalesceWindowExpiry lp _ => lpOk lp
  | .pitchDispatch _ => true
  | .stragglerBudgetExpiry _ => true
  | .lateReleaseExpiry _ => true
  | .add _ _ _ _ _ _ => true
  | .sub _ _ _ _ _ _ => true
  | .adc _ _ _ _ _ _ => true
  | .sbc _ _ _ _ _ _ => true
  | .andOp _ _ _ _ _ _ => true
  | .orOp _ _ _ _ _ _ => true
  | .xorOp _ _ _ _ _ _ => true
  | .andn _ _ _ _ _ _ => true
  | .shl _ _ _ _ _ _ => true
  | .shr _ _ _ _ _ _ => true
  | .sar _ _ _ _ _ _ => true
  | .ror _ _ _ _ _ _ => true
  | .mul _ _ _ _ _ _ => true
  | .mulhu _ _ _ _ _ _ => true
  | .minu _ _ _ _ _ _ => true
  | .maxu _ _ _ _ _ _ => true
  | .clz _ _ _ _ _ => true
  | .ctz _ _ _ _ _ => true
  | .popc _ _ _ _ _ => true
  | .bswap _ _ _ _ _ => true
  | .cmp _ _ _ _ _ => true
  | .tst _ _ _ _ _ => true
  | .addi _ _ _ _ => true
  | .cmpi _ _ _ => true
  | .andi _ _ _ _ => true
  | .ori _ _ _ _ => true
  | .xori _ _ _ _ => true
  | .shi _ _ _ _ _ => true
  | .bfx _ _ _ _ _ => true
  | .bfi _ _ _ _ _ => true
  | .ipl _ _ _ _ => true
  | .ips _ _ _ _ => true
  | .img _ _ _ _ => true
  | .lb _ _ _ _ _ => true
  | .lh _ _ _ _ _ => true
  | .lw _ _ _ _ _ => true
  | .ld _ _ _ _ _ => true
  | .sb _ _ _ _ => true
  | .sh _ _ _ _ => true
  | .sw _ _ _ _ => true
  | .sd _ _ _ _ => true
  | .loadReturn _ => true
  | .addm _ _ _ _ _ => true
  | .swpm _ _ _ _ _ => true
  | .jmp _ _ => true
  | .jz _ _ => true
  | .jnz _ _ => true
  | .jc _ _ => true
  | .jnc _ _ => true
  | .jn _ _ => true
  | .jnn _ _ => true
  | .jv _ _ => true
  | .jnv _ _ => true
  | .jlt _ _ => true
  | .jge _ _ => true
  | .jgt _ _ => true
  | .jle _ _ => true
  | .jhi _ _ => true
  | .jls _ _ => true
  | .call _ _ => true
  | .ret _ => true
  | .jr _ _ => true
  | .repb _ _ => true
  | .scopy _ _ => true
  | .sfill _ _ _ => true
  | .scmp _ _ => true
  | .sscan _ _ _ => true
  | .evw _ _ _ _ => true
  | .evs _ _ _ => true
  | .eventDelivery => true
  | .evwTimeout _ => true
  | .twait _ _ _ _ => true
  | .twaitWake _ => true
  | .kmvWk _ _ _ _ => true
  | .kmvKw _ _ _ _ => true
  | .kmvLd _ _ _ => true
  | .kmvSt _ _ _ => true
  | .kmvKk _ _ _ => true
  | .kcrc32c _ _ _ _ => true
  | .kcrc32 _ _ _ _ => true
  | .kh2 _ _ _ _ _ => true
  | .kcmpm _ _ _ _ => true
  | .ksplice _ _ _ _ _ => true
  | .ktxl _ _ _ => true
  | .kResultWritten _ _ => true
  | .mapReadDone _ _ => true
  | .ksave _ _ => true
  | .kload _ _ => true
  | .mfs _ _ _ => true
  | .mts _ _ _ => true
  | .femit _ _ _ => true
  | .femitR _ _ => true
  | .fnew _ _ _ => true
  | .nop _ => true
  | .illegalInstruction _ _ => true
  | .fence _ => true
  | .pdone _ => true
  | .park _ _ => true
  | .resume _ _ => true
  | .freeRope _ _ => true
  | .parkHoldExpiry _ => true
  | .coreFenceWrite _ _ => true
  | .leadBeat _ => true
  | .leadBeatTimeout _ => true
  | .acquire _ _ => true
  | .release _ _ => true
  | .force _ _ => true
  | .withdraw _ _ => true
  | .priorityRaisePropagate _ => true
  | .systemPortRetry _ => true
  | .spawn _ => true
  | .signal _ => true
  | .cancel _ => true
  | .endTask _ => true
  | .waitTask _ => true
  | .sleep _ => true
  | .yield _ => true
  | .taskDispatch _ => true
  | .delayTick _ => true
  | .waitTimeoutSweep _ => true
  | .mapWrite => true
  | .mapRead => true
  | .homeTableUpdate _ _ => true
  | .keyLoad => true
  | .keyErase => true
  | .scanSegmentAccept => true
  | .segmentWaitExpiry _ => true
  | .scanRdIssue _ => true
  | .screeRspEvaluate engine parity => decide (engine < 32) && decide (parity < 64)
  | .rowFlushExpiry engine _ => decide (engine < 32)
  | .screeTestGo => true
  | .screeTestDone _ => true
  | .progLoad => true
  | .progUnload => true
  | .progTakesEffect => true
  | .cellWriteStage port => decide (port < 96)
  | .spillReadback queue => decide (queue < 384 * 8 * 4096 * 4)
  | .retainMove => true
  | .outputTransmit lp => lpOk lp
  | .calendarEntry => true
  | .hbmReadDone addr _ _ => decide (addr < 154618822656)
  | .hbmRefresh pch bank => decide (pch < 128) && decide (bank < 48)
  | .refreshWindowStart stack => decide (stack < 4)
  | .nrsGo => true
  | .nrsSweepEnd => true
  | .selfRefreshEntry stack _ => decide (stack < 4)
  | .selfRefreshExit stack => decide (stack < 4)
  | .hbmTestGo => true
  | .hbmTestDone rows => rows.all rowTestOk
  | .rebuildDone => true
  | .hbmTrainingDone stack _ => decide (stack < 4)
  | .ppsEdge _ => true
  | .todSentence bytes => decide (bytes.length ≤ 96)
  | .timeSourceLost => true
  | .holdoverExpiry => true
  | .timeSourceWrite _ => true
  | .versionCommit => true
  | .dictWrite => true
  | .taskSignal => true
  | .markEvent => true
  | .planApply => true
  | .sdpRead q => canOk q
  | .sdpWrite q => canOk q
  | .segWrite q => canOk q
  | .segRead q => canOk q
  | .segData q => canOk q
  | .segAck q => canOk q
  | .abortXfer _ q => canOk q
  | .sdpTimeout _ => true
  | .mgmtRead => true
  | .mgmtWrite => true
  | .domainRead => true
  | .domainWrite => true
  | .objectWrite _ _ data => decide (data.length ≤ 4096)
  | .paramStore _ _ _ => true
  | .storeClear => true
  | .powerMeasurement _ _ => true
  | .currentLimitHeld => true
  | .opCommand _ => true
  | .frequencyChangeDone => true
  | .railTargetReached => true
  | .railHoldExpiry => true
  | .vinUndervoltage _ => true
  | .vinValid => true
  | .dozeEntry _ => true
  | .dozeExit _ => true
  | .bivouacEntry => true
  | .wake => true
  | .basecampEntry => true
  | .sidebandAddressMatch _ _ => true
  | .serviceCmdOut => true
  | .serviceCmdReturn => true
  | .recoveryReset => true
  | .basecampWdExpiry => true
  | .basecampEccError => true
  | .thermalSample die hbm => decide (die.length ≤ 64) && decide (hbm.length ≤ 4)
  | .sxdumpSel _ => true
  | .sxdumpChain _ => true
  | .sxdumpMem _ => true
  | .compactGo _ => true
  | .leaseGrant q => canOk q
  | .leaseRevoke q => canOk q
  | .leaseQuery q => canOk q
  | .leaseExpiry => true
  | .writeFenceClear => true
  | .cairnRecordWrite => true
  | .cairnScanDone => true
  | .recordRead => true
  | .windowRead => true
  | .snapTake => true
  | .snapDone => true
  | .compactionDone => true
  | .compactionRetry => true
  | .freeze => true
  | .reset => true
  | .startT0 => true
  | .startupComplete => true
  | .alertClear => true
  | .canBusOff => true

end Sys2Proof
end

