-- ==== Sys2Proof/Tests/Slice0.lean ====
section
/-! SUPPORT. Tests: ill-formed operands that the checks refuse, a witness for the hypotheses of each statement, and
small steps whose results come from the spec. -/

namespace Sys2Proof.Tests

open Sys2Proof.Machine Sys2Proof.Claim

set_option Elab.async false

/-! ### Small states -/

/-- The step answers a next state of which `p` holds. -/
def ends (o : Host.Outcome State Fault Refusal) (p : State → Bool) : Bool :=
  match o with
  | .next t => p t
  | _ => false

/-- The step answers a next state. -/
def goes (o : Host.Outcome State Fault Refusal) : Bool := ends o (fun _ => true)

/-- A device in service. -/
def dev : State := { sys := { phase := .run, faultN := true } }

/-- A device in service whose rope 5 is `x`. -/
def having (x : Rope) : State := { dev with ropes := [(5, x)] }

/-- A device in service whose rope 5 is `x`, ready, and issues. -/
def at5 (x : Rope) : State := { having { x with st := .ready } with cores := [(0, { issuing := some 5 })] }

/-- Rope 5 issues an instruction, and nothing of it fails its parity. -/
abbrev i5 : Issuer := ⟨5, false⟩

/-- As `at5`, and Crampon is enabled for every level. -/
def at5K (x : Rope) : State := { at5 x with obj := [(key 0x4040 1, 7)] }

/-! ### Well-formedness -/

theorem test_wf_port_number : (Instr.pulseSend 383).wf = true ∧ (Instr.pulseSend 384).wf = false := by decide
theorem test_wf_frame_length : (Instr.frameReceived 0 (List.replicate 16385 0) 0).wf = false := by decide +kernel
theorem test_wf_frame_banks : (Instr.frameReceived 0 [] 18).wf = true ∧ (Instr.frameReceived 0 [] 19).wf = false := by decide
theorem test_wf_frame_port : (Instr.frameReceived 384 [] 0).wf = false := by decide

theorem test_wf_scree : (Instr.screeRspEvaluate 31 63).wf = true ∧ (Instr.screeRspEvaluate 32 0).wf = false ∧
    (Instr.screeRspEvaluate 0 64).wf = false ∧ (Instr.rowFlushExpiry 32 0).wf = false := by decide
theorem test_wf_traverse : (Instr.flushPort [131071]).wf = true ∧ (Instr.flushPort [131072]).wf = false ∧
    (Instr.cellWriteStage 96).wf = false ∧ (Instr.spillReadback 50331648).wf = false := by decide
theorem test_wf_hbm : (Instr.hbmRefresh 127 47).wf = true ∧ (Instr.hbmRefresh 128 0).wf = false ∧
    (Instr.hbmRefresh 0 48).wf = false ∧ (Instr.refreshWindowStart 4).wf = false ∧
    (Instr.selfRefreshEntry 4 false).wf = false ∧ (Instr.selfRefreshExit 4).wf = false ∧
    (Instr.hbmTrainingDone 4 true).wf = false ∧ (Instr.hbmReadDone 154618822656 .core .good).wf = false := by decide
theorem test_wf_row_test : (Instr.hbmTestDone [⟨127, 47, 24575, false⟩]).wf = true ∧
    (Instr.hbmTestDone [⟨128, 0, 0, false⟩]).wf = false ∧ (Instr.hbmTestDone [⟨0, 48, 0, false⟩]).wf = false ∧
    (Instr.hbmTestDone [⟨0, 0, 24576, false⟩]).wf = false := by decide
theorem test_wf_can : (Instr.sdpRead ⟨0, 1, 2, 0, List.replicate 64 0⟩).wf = true ∧
    (Instr.sdpRead ⟨0, 1, 2, 0, List.replicate 65 0⟩).wf = false := by decide
theorem test_wf_sentence : (Instr.todSentence (List.replicate 97 0)).wf = false := by decide
theorem test_wf_object : (Instr.objectWrite 0 0 (List.replicate 4097 0)).wf = false := by decide +kernel
theorem test_wf_thermal : (Instr.thermalSample (List.replicate 65 0) []).wf = false ∧
    (Instr.thermalSample [] (List.replicate 5 0)).wf = false := by decide

/-! ### Arithmetic, memory and control flow -/

/-- The hypothesis of the statements on instructions. -/
theorem witness_issues : Issues (at5 {}) i5 ∧ IssuesFree (at5 {}) i5 ∧ CramponIssues (at5K {}) i5 allK :=
  ⟨⟨rfl, rfl, rfl⟩, ⟨⟨rfl, rfl, rfl⟩, rfl⟩, ⟨rfl, rfl, rfl⟩, rfl, by decide⟩

theorem test_add_wraps : ends (exec (.add i5 false false 1 2 3) (at5 { w := [(2, 0xFFFFFFFFFFFFFFFF), (3, 1)] }))
    (fun t => getW (rope t 5) 1 == 0 && (rope t 5).pc == 4 && (rope t 5).flags == { z := true, c := true }) = true := by decide +kernel
theorem test_sar_of_a_word : ends (exec (.sar i5 false true 1 2 3) (at5 { w := [(2, 0x80000000), (3, 4)] }))
    (fun t => getW (rope t 5) 1 == 0xF8000000 && (rope t 5).flags.n) = true := by decide +kernel
theorem test_bswap : ends (exec (.bswap i5 true true 1 2) (at5 { w := [(2, 0x11223344)] }))
    (fun t => getW (rope t 5) 1 == 0x44332211) = true := by decide +kernel
theorem test_bfi : ends (exec (.bfi i5 1 2 4 7) (at5 { w := [(1, 0xFFFF), (2, 0x12)] }))
    (fun t => getW (rope t 5) 1 == 0xF12F) = true := by decide +kernel

/-- Each clause of the address map has an access at its border. -/
theorem witness_access : 0 < 8 ∧ access dev {} 0x3FFFF8 8 8 true = .ok .scratch ∧
    access dev { pl := 2 } 0x10FFFF8 8 8 true = .ok .imem ∧ access dev { pl := 1 } 0x1000000 4 4 true = .error 2 ∧
    access dev {} 0x2001FFE 2 2 false = .ok .window ∧ access dev { pl := 2 } 0x300FFF8 8 8 true = .ok .ctl ∧
    access dev {} 0x3000000 8 8 false = .error 2 ∧ access dev {} 0x1000000000000000 8 8 true = .ok .hbm ∧
    access dev {} 0x400000 1 1 false = .error 3 ∧ access dev {} 0xFFFFFF 1 1 false = .error 3 := by decide +kernel

/-- Loads that read at once, that meet a parity error, that wait and that fault. -/
theorem witness_loads :
    (Issues (at5 {}) i5 ∧ access (at5 {}) (rope (at5 {}) 5) 8 8 8 false = .ok .scratch ∧
      goes (exec (loadOf 8 i5 1 0 8 false) (at5 {})) = true ∧ goes (exec (loadOf 8 i5 1 0 8 true) (at5 {})) = true) ∧
    (let s := at5 { w := [(2, 0x1000000)], pl := 1 }
     Issues s i5 ∧ access s (rope s 5) 0x1000000 4 4 false = .ok .imem ∧ goes (exec (loadOf 4 i5 1 2 0 false) s) = true) ∧
    (let s := at5 { w := [(2, 0x2000000)] }
     Issues s i5 ∧ access s (rope s 5) 0x2000000 2 2 false = .ok .window ∧ goes (exec (loadOf 2 i5 1 2 0 false) s) = true) ∧
    (let s := at5 { w := [(2, 0x3000000)], pl := 1 }
     Issues s i5 ∧ access s (rope s 5) 0x3000000 1 1 false = .ok .ctl ∧ goes (exec (loadOf 1 i5 1 2 0 false) s) = true) ∧
    (let s := at5 { w := [(2, 0x1000000000000000)] }
     Issues s i5 ∧ access s (rope s 5) 0x1000000000000000 8 8 false = .ok .hbm ∧
      goes (exec (loadOf 8 i5 1 2 0 false) s) = true) ∧
    (let s := at5 { w := [(2, 1)] }
     Issues s i5 ∧ access s (rope s 5) 1 8 8 false = .error 4 ∧ goes (exec (loadOf 8 i5 1 2 0 false) s) = true) :=
  ⟨⟨⟨rfl, rfl, rfl⟩, by decide +kernel⟩, ⟨⟨rfl, rfl, rfl⟩, by decide +kernel⟩, ⟨⟨rfl, rfl, rfl⟩, by decide +kernel⟩,
   ⟨⟨rfl, rfl, rfl⟩, by decide +kernel⟩, ⟨⟨rfl, rfl, rfl⟩, by decide +kernel⟩, ⟨⟨rfl, rfl, rfl⟩, by decide +kernel⟩⟩

theorem test_load_sign_of_the_offset : ends (exec (.lb i5 1 2 0xFFFF false)
    { at5 { w := [(2, 0x10)] } with clusters := [(0, { scratch := [(0x0F, 0x80)] })] })
    (fun t => getW (rope t 5) 1 == 0x80) = true := by decide +kernel

/-- Row 0 of the HBM waits for its next refresh window. -/
def slowRow : HbmSt := { pch := [(0, { deferred := [{ addr := 0, row := 0, cls := reqNo .core, read := some .good }] })] }

/-- Rope 5, which has written lock 9. -/
def behindWrite (st : RopeSt) : State :=
  { having { st := st, pl := 2 } with
    clusters := [(0, { lockQ := [{ lock := 9, op := 0, id := 5, writer := 5, pl2 := true, at_ := 0, cyc := 0 }] })] }

/-- A load, a read of lines and a save at the banks that wait. -/
theorem witness_load_return :
    (let s := having { w := [(1, 7)], st := .waiting (.load 1 0x3000000 8), pl := 1 }
     (rope s 5).st = .waiting (.load 1 0x3000000 8) ∧ access s (rope s 5) 0x3000000 8 8 false = .ok .ctl ∧
      ownWriteWaits s 5 0x3000000 8 = false ∧ memThrottled s .ctl 0x3000000 = false ∧ memMedia s .ctl 0x3000000 8 = false ∧
      ends (exec (.loadReturn 5) s) (fun t => (rope t 5).st == .ready) = true) ∧
    (let s := having { st := .waiting (.lines [1]) }
     (rope s 5).st = .waiting (.lines [1]) ∧ (∀ i ∈ [1], i ∉ s.hbm.media ∧ throttled s .core (64 * i) = false) ∧ goes (exec (.loadReturn 5) s) = true) ∧
    (let s := having { st := .waiting .kstate }
     (rope s 5).st = .waiting .kstate ∧ goes (exec (.loadReturn 5) s) = true) ∧
    (let s := having { st := .waiting (.kload 2 0x3000000) }
     ownWriteWaits s 5 0x3000000 64 = false ∧
      ends (exec (.loadReturn 5) s) (fun t => (rope t 5).st == .ready && (rope t 5).pc == 4) = true) ∧
    (ownWriteWaits (behindWrite .ready) 5 0x3004020 8 = true ∧ ownWriteWaits (behindWrite .ready) 5 0x3004000 64 = true ∧
      ends (exec (.loadReturn 5) (behindWrite (.waiting (.load 1 0x3004020 8)))) (fun t => (rope t 5).st != .ready) = true ∧
      ends (exec (.loadReturn 5) (behindWrite (.waiting (.kload 2 0x3004000)))) (fun t => (rope t 5).st != .ready) = true) ∧
    (let s (h : HbmSt) : State := { having { st := .waiting (.load 1 0x1000000000000000 8) } with hbm := h }
     memThrottled (s slowRow) .hbm 0x1000000000000000 = true ∧ ends (exec (.loadReturn 5) (s slowRow)) (fun t => t == s slowRow) = true ∧
      memMedia (s { media := [0] }) .hbm 0x1000000000000000 8 = true ∧
      ends (exec (.loadReturn 5) (s { media := [0] })) (fun t => (rope t 5).frec.code == 9) = true) := by decide +kernel

/-- Stores to each region, and one that faults. -/
theorem witness_stores :
    (Issues (at5 {}) i5 ∧ access (at5 {}) (rope (at5 {}) 5) 8 8 8 true = .ok .scratch ∧
      goes (exec (storeOf 8 i5 1 0 8) (at5 {})) = true) ∧
    (let s := at5 { w := [(1, 0xAABB), (2, 0x1000000)], pl := 2 }
     Issues s i5 ∧ access s (rope s 5) 0x1000000 2 2 true = .ok .imem ∧
      ends (exec (storeOf 2 i5 1 2 0) s) (fun t => imemByte t 0 0 == 0xBB && imemByte t 0 1 == 0xAA) = true) ∧
    (let s := at5 { w := [(1, 0xAABB), (2, 0x1000000000000000)] }
     Issues s i5 ∧ access s (rope s 5) 0x1000000000000000 4 4 true = .ok .hbm ∧
      ends (exec (storeOf 4 i5 1 2 0) s) (fun t => hbmByte t 0 == 0xBB && hbmByte t 1 == 0xAA) = true) ∧
    (let s := at5 { w := [(1, 0xAABB), (2, 0x2000000)] }
     Issues s i5 ∧ access s (rope s 5) 0x2000000 1 1 true = .ok .window ∧ goes (exec (storeOf 1 i5 1 2 0) s) = true) ∧
    (let s := at5 { w := [(2, 0x3001000)], pl := 2 }
     Issues s i5 ∧ access s (rope s 5) 0x3001000 8 8 true = .ok .ctl ∧ goes (exec (storeOf 8 i5 1 2 0) s) = true) ∧
    (let s := at5 { w := [(2, 0x400000)] }
     Issues s i5 ∧ access s (rope s 5) 0x400000 8 8 true = .error 3 ∧ goes (exec (storeOf 8 i5 1 2 0) s) = true) :=
  ⟨⟨⟨rfl, rfl, rfl⟩, by decide +kernel⟩, ⟨⟨rfl, rfl, rfl⟩, by decide +kernel⟩, ⟨⟨rfl, rfl, rfl⟩, by decide +kernel⟩,
   ⟨⟨rfl, rfl, rfl⟩, by decide +kernel⟩, ⟨⟨rfl, rfl, rfl⟩, by decide +kernel⟩, ⟨⟨rfl, rfl, rfl⟩, by decide +kernel⟩⟩

theorem witness_atomics : Issues (at5 { w := [(2, 8), (3, 5)] }) i5 ∧
    ends (exec (.addm i5 true 1 ⟨2, false⟩ 3) { at5 { w := [(2, 8), (3, 5)] } with clusters := [(0, { scratch := [(8, 0xFF)] })] })
      (fun t => getW (rope t 5) 1 == 0xFF && scratchByte t 0 8 == 4 && scratchByte t 0 9 == 1) = true ∧
    goes (exec (.swpm i5 false 1 ⟨2, false⟩ 3) (at5 { w := [(2, 0x400000)] })) = true ∧
    ends (exec (.swpm i5 false 1 ⟨2, true⟩ 3) (at5 { w := [(2, 8)] })) (fun t => (rope t 5).frec.code == 0x0A) = true ∧
    ends (exec (.swpm i5 false 1 ⟨2, false⟩ 3) (at5 { w := [(2, 4)] })) (fun t => (rope t 5).frec.code == 4) = true :=
  ⟨⟨rfl, rfl, rfl⟩, by decide +kernel⟩

/-- A jump taken and one in the body of a repeat; a full stack and an empty one. -/
theorem witness_jumps :
    (∀ e ∈ jumps i5 0x3FFFFF { n := true }, inBody (rope (at5 { flags := { n := true }, pc := 0x104 }) 5) = false ∧
      ends (exec e.1 (at5 { flags := { n := true }, pc := 0x104 }))
        (fun t => (rope t 5).pc == if e.2 then 0x100 else 0x108) = true) ∧
    (let s := at5 { w := [(29, 0x8000004100000001)], pc := 0x104 }
     Issues s i5 ∧ inBody (rope s 5) = true ∧ ends (exec (.ret i5) s) (fun t => (rope t 5).frec.code == 1) = true) ∧
    (let s := at5 { rstack := List.replicate 16 0 }
     IssuesFree s i5 ∧ 16 ≤ (rope s 5).rstack.length ∧ (rope s 5).trap = true ∧
      ends (exec (.call i5 1) s) (fun t => (rope t 5).frec.code == 5) = true) ∧
    (IssuesFree (at5 {}) i5 ∧ (rope (at5 {}) 5).rstack = [] ∧
      ends (exec (.call i5 1) (at5 {})) (fun t => (rope t 5).rstack == [4] && (rope t 5).pc == 4) = true ∧
      ends (exec (.ret i5) (at5 {})) (fun t => (rope t 5).frec.code == 5) = true) :=
  ⟨by decide +kernel, ⟨⟨rfl, rfl, rfl⟩, by decide +kernel⟩, ⟨⟨⟨rfl, rfl, rfl⟩, rfl⟩, by decide +kernel⟩,
   ⟨⟨rfl, rfl, rfl⟩, rfl⟩, by decide +kernel⟩

/-- A repeat that is skipped, one that starts, and the last instruction of a pass. -/
theorem witness_repeat : IssuesFree (at5 {}) i5 ∧ IssuesFree (at5 { w := [(29, 2)] }) i5 ∧
    ends (exec (.repb i5 1) (at5 {})) (fun t => (rope t 5).pc == 12) = true ∧
    ends (exec (.repb i5 1) (at5 { w := [(29, 2)] })) (fun t => (rope t 5).pc == 4 &&
      getW (rope t 5) 29 == 0x9000000100000002) = true ∧
    (nextPc { w := [(29, 0x9000000100000002)], pc := 8 }).pc = 4 ∧
    (nextPc { w := [(29, 0x9000000100000001)], pc := 8 }).pc = 12 ∧
    (nextPc { w := [(29, 0x9000000100000001)], pc := 4 }).pc = 8 :=
  ⟨⟨⟨rfl, rfl, rfl⟩, rfl⟩, ⟨⟨rfl, rfl, rfl⟩, rfl⟩, by decide +kernel⟩

/-- Words written out by the forms of R141, the opcodes of R142 and the functions of R143, R148, R149, R153, R159 and R162. -/
theorem test_words : wordInstr i5 0x0861FFFF = some (.addi i5 3 1 0xFFFF) ∧ wordInstr i5 0x04853201 = some (.sub i5 false true 4 5 6) ∧
    wordInstr i5 0x80BFFFFE = some (.jnz i5 0x3FFFFE) ∧ wordInstr i5 0x8C000007 = some (.repb i5 7) ∧
    wordInstr i5 0xC0800F40 = some (.kmvWk i5 2 7 5) ∧ wordInstr i5 0xF4011000 = some (.femit i5 1 2) ∧
    wordInstr i5 0xF0038004 = some (.mts i5 3 4) ∧ wordInstr i5 0x0861FFFF ≠ wordInstr i5 0x0C61FFFF := by decide +kernel

theorem witness_illegal : illegalWord 0 = true ∧ illegalWord 0xFC000000 = true ∧
    ends (exec (.illegalInstruction i5 0) (at5 {})) (fun t => (rope t 5).st == .parked && (rope t 5).frec.code == 1) = true := by
  decide +kernel

/-- FENCE with nothing outstanding, behind a KMV.LD that is due soon, behind one that is not, and behind one that is throttled. -/
theorem witness_fence :
    let ld (due : Nat) : Rope := { kPend := [{ kd := 3, value := 7, due := due, src := some 0x40 }] }
    (∀ p ∈ (rope (at5 {}) 5).kPend, p.src = none) ∧ ends (exec (.fence i5) (at5 {})) (fun t => (rope t 5).pc == 4) = true ∧
    (Issues (at5 (ld 479)) i5 ∧ (rope (at5 (ld 479)) 5).kPend.all (fun p => p.due == 479 && !kHeld (at5 (ld 479)) p) = true ∧
      ends (exec (.fence i5) (at5 (ld 479))) (fun t => t.time.now == 479 && (rope t 5).kPend == []) = true) ∧
    (0 + 8 * dpU (at5 (ld 480)) ≤ 480 ∧
      ends (exec (.fence i5) (at5 (ld 480))) (fun t => (rope t 5).st == .waiting (.kreg 3)) = true) ∧
    (let p : KPend := { kd := 3, value := 7, due := 60, src := some 0x1000000000000000 }
     let s := { at5 { kPend := [p] } with hbm := slowRow }
     Issues s i5 ∧ kHeld s p = true ∧ p.due < 0 + 8 * dpU s ∧ ends (exec (.fence i5) s) (fun t => t == s) = true) :=
  ⟨by decide, by decide +kernel, ⟨⟨rfl, rfl, rfl⟩, by decide +kernel⟩, by decide +kernel, ⟨rfl, rfl, rfl⟩, by decide +kernel⟩

/-- A rope without pitch and task that is not the lead rope, whose lead rope waits for no event. -/
theorem witness_fault : let s := having { pc := 0x104, w := [(1, 9)] }
    (rope s 5).pitch = none ∧ (rope s 5).task = none ∧ (rope s 5).kPend = [] ∧ isLead s 5 = false ∧
    leadOf s 0 = some 7 ∧ (rope s 7).st = .free ∧
    (rope (faultRope s 5 3 0x400000) 5).frec = { pc := 0x104, code := 3, valid := true, addr := 0x400000 } ∧
    (rope (faultRope s 5 3 0x400000) 7).pending = 0x8000000000000000 := by decide +kernel

/-- As above, for a rope that runs task 3. -/
theorem witness_fault_of_a_task :
    let s := { having { task := some 3 } with clusters := [(0, { slots := [(3, { state := .run, rope := some 5 })] })] }
    (rope s 5).pitch = none ∧ (rope s 5).task = some 3 ∧ (rope s 5).kPend = [] ∧ isLead s 5 = false ∧
    (slot (faultRope s 5 3 0) 0 3).state = .parked := by decide +kernel

/-! ### Strings, events and time -/

/-- Four bytes at 0x10 and at 0x40. -/
def strings (src dst : List Byte) : State :=
  { at5 { w := [(2, 9), (26, 0x10), (27, 0x40), (28, 4)] } with
    clusters := [(0, { scratch := wrN (wrN [] 0x10 src) 0x40 dst })] }

theorem witness_strings : Issues (at5 {}) i5 ∧ getW (rope (at5 {}) 5) 28 = 0 ∧ Issues (strings [] []) i5 ∧
    (let x := rope (strings [] []) 5
     getW x 28 = BitVec.ofNat 64 4 ∧ getW x 26 = BitVec.ofNat 64 0x10 ∧ getW x 27 = BitVec.ofNat 64 0x40 ∧
      4 ≤ 32 - 0x10 % 32 ∧ 4 ≤ 32 - 0x40 % 32 ∧ (0x10 + 4 ≤ 0x40 ∨ 0x40 + 4 ≤ 0x10)) ∧
    ends (exec (.scopy i5 ⟨1, false⟩) (strings [1, 2, 3, 4] [])) (fun t => scratchByte t 0 0x43 == 4 && getW (rope t 5) 27 == 0x44) = true ∧
    ends (exec (.sfill i5 2 1) (strings [] [])) (fun t => scratchByte t 0 0x40 == 9 && scratchByte t 0 0x41 == 0) = true ∧
    firstDiff [1, 2, 3, 4] [1, 2, 5, 4] 0 = some (2, 3, 5) ∧
    ends (exec (.scmp i5 ⟨1, false⟩) (strings [1, 2, 3, 4] [1, 2, 5, 4])) (fun t => getW (rope t 5) 28 == 2 &&
      (rope t 5).flags == { n := true }) = true ∧
    ends (exec (.scmp i5 ⟨1, false⟩) (strings [1, 2, 3, 4] [1, 2, 3, 4])) (fun t => (rope t 5).flags == { z := true, c := true }) = true ∧
    [1, 9, 3, 4].findIdx? (fun w => w == (9 : Byte)) = some 1 ∧
    ends (exec (.sscan i5 2 ⟨1, false⟩) (strings [1, 9, 3, 4] [])) (fun t => getW (rope t 5) 26 == 0x11 && (rope t 5).flags.z) = true ∧
    ends (exec (.sscan i5 2 ⟨1, false⟩) (strings [1, 2, 3, 4] [])) (fun t => getW (rope t 5) 26 == 0x14 && !(rope t 5).flags.z) = true ∧
    ends (exec (.sscan i5 2 ⟨1, true⟩) (strings [1, 2, 3, 4] [])) (fun t => (rope t 5).frec.code == 0x0A) = true :=
  ⟨⟨rfl, rfl, rfl⟩, rfl, ⟨rfl, rfl, rfl⟩, by decide +kernel⟩

/-- An event that is pending, one awaited, one sent near, far and beyond the device. -/
theorem witness_events :
    (let s := at5 { w := [(2, 6)], pending := 2 }
     Issues s i5 ∧ ends (exec (.evw i5 1 2 0) s) (fun t => getW (rope t 5) 1 == 2 && (rope t 5).pending == 0) = true) ∧
    (let s := at5 { w := [(2, 6), (3, 10)] }
     Issues s i5 ∧ ends (exec (.evw i5 1 2 3) s) (fun t => (rope t 5).st == .waiting (.event 1 6 (some 900))) = true) ∧
    (let s := at5 { w := [(2, 6), (3, 1)] }
     Issues s i5 ∧ ropeCluster 6 = ropeCluster 5 ∧
      ends (exec (.evs i5 2 3) s) (fun t => t.flights == [{ rope := 6, bits := 1, due := 240 }]) = true) ∧
    (let s := at5 { w := [(2, 128), (3, 1)], pl := 1 }
     Issues s i5 ∧ ends (exec (.evs i5 2 3) s) (fun t => t.flights == [{ rope := 128, bits := 1, due := 1440 }]) = true) ∧
    (let s := at5 { w := [(2, 128)] }
     Issues s i5 ∧ ropeCluster 128 < clusters s ∧ ends (exec (.evs i5 2 3) s) (fun t => (rope t 5).frec.code == 2) = true) ∧
    (let s := { at5 { w := [(2, 2047)] } with sys := { dev.sys with skx9624 := true } }
     Issues s i5 ∧ clusters s ≤ ropeCluster 2047 ∧ ends (exec (.evs i5 2 3) s) (fun t => (rope t 5).frec.code == 3) = true) :=
  ⟨⟨⟨rfl, rfl, rfl⟩, by decide +kernel⟩, ⟨⟨rfl, rfl, rfl⟩, by decide +kernel⟩, ⟨⟨rfl, rfl, rfl⟩, by decide +kernel⟩,
   ⟨⟨rfl, rfl, rfl⟩, by decide +kernel⟩, ⟨⟨rfl, rfl, rfl⟩, by decide +kernel⟩, ⟨⟨rfl, rfl, rfl⟩, by decide +kernel⟩⟩

/-- Events that wake nobody, that wake an EVW, and a timeout of EVW. -/
theorem witness_event_delivery :
    (let s := { having { st := .waiting (.event 1 6 (some 900)) } with flights := [{ rope := 5, bits := 2, due := 240 }] }
     firstFlight s.flights = some { rope := 5, bits := 2, due := 240 } ∧
      ends (exec .eventDelivery s) (fun t => (rope t 5).st == .ready && getW (rope t 5) 1 == 2 && t.time.now == 240) = true ∧
      ends (exec (.evwTimeout 5) s) (fun t => (rope t 5).st == .ready && (rope t 5).flags.z && t.time.now == 900) = true) ∧
    (let s := { having { st := .waiting (.event 1 6 none) } with flights := [{ rope := 5, bits := 8, due := 240 }] }
     ends (exec .eventDelivery s) (fun t => (rope t 5).pending == 8 && (rope t 5).st != .ready) = true) ∧
    (let s := { having {} with flights := [{ rope := 5, bits := 8, due := 240 }] }
     ends (exec .eventDelivery s) (fun t => (rope t 5).pending == 8) = true) := by decide +kernel

/-- Waits for time that end at once, that wait with and without a timeout, and that end either way. -/
theorem witness_twait :
    (let s := at5 { w := [(2, 0)] }
     Issues s i5 ∧ (getW (rope s 5) 2).toNat ≤ ft s ∧ goes (exec (.twait i5 1 2 3) s) = true) ∧
    (let s := at5 { w := [(2, 100), (3, 15)] }
     Issues s i5 ∧ ft s < (getW (rope s 5) 2).toNat ∧
      ends (exec (.twait i5 1 2 3) s) (fun t => (rope t 5).st == .waiting (.time 1 100 (some 1800))) = true ∧
      ends (exec (.twait i5 1 2 0) s) (fun t => (rope t 5).st == .waiting (.time 1 100 none)) = true) ∧
    (let s := having { st := .waiting (.time 1 0 none) }
     ends (exec (.twaitWake 5) s) (fun t => (rope t 5).st == .ready && !(rope t 5).flags.z) = true) ∧
    (let s := having { st := .waiting (.time 1 100 (some 0)) }
     ft s < 100 ∧ 0 ≤ s.time.now ∧
      ends (exec (.twaitWake 5) s) (fun t => (rope t 5).st == .ready && (rope t 5).flags.z) = true) :=
  ⟨⟨⟨rfl, rfl, rfl⟩, by decide +kernel⟩, ⟨⟨rfl, rfl, rfl⟩, by decide +kernel⟩, by decide +kernel⟩

/-! ### Crampon, the system registers and the frame instructions -/

/-- Moves within the rope, from and to each region, and accesses that fault. -/
theorem witness_kmv :
    (let s := at5K { w := [(1, 0x40)], k := [(2, 0x11), (3, 0x22 <<< 64)] }
     CramponIssues s i5 [2, 3] ∧ access s (rope s 5) 0x40 64 64 false = .ok .scratch ∧
      access s (rope s 5) 0x40 64 64 true = .ok .scratch ∧ memMedia s .scratch 0x40 64 = false ∧
      ends (exec (.kmvWk i5 2 1 7) s) (fun t => (rope t 5).kPend == [{ kd := 2, value := 0x11 + 0x40 <<< 448, due := 60 }]) = true ∧
      ends (exec (.kmvKw i5 4 3 1) s) (fun t => getW (rope t 5) 4 == 0x22) = true ∧
      ends (exec (.kmvKk i5 2 3) s) (fun t => (rope t 5).kPend == [{ kd := 2, value := 0x22 <<< 64, due := 60 }]) = true ∧
      ends (exec (.kmvLd i5 2 ⟨1, false⟩) s) (fun t => (rope t 5).kPend.all (fun p => p.src == some 0x40)) = true ∧
      ends (exec (.kmvLd i5 2 ⟨1, true⟩) s) (fun t => (rope t 5).frec.code == 0x0A) = true ∧
      ends (exec (.kmvSt i5 3 1) s) (fun t => scratchByte t 0 0x48 == 0x22) = true) ∧
    (let s := at5K { w := [(1, 0x1000000000000000)], k := [(3, 0x22)] }
     CramponIssues s i5 [2, 3] ∧ access s (rope s 5) 0x1000000000000000 64 64 true = .ok .hbm ∧
      ends (exec (.kmvSt i5 3 1) s) (fun t => hbmByte t 0 == 0x22) = true) ∧
    (let s := at5K { w := [(1, 0x2000000)] }
     CramponIssues s i5 [2, 3] ∧ access s (rope s 5) 0x2000000 64 64 true = .ok .window ∧ goes (exec (.kmvSt i5 3 1) s) = true) ∧
    (let s := at5K { w := [(1, 0x20)] }
     CramponIssues s i5 [2, 3] ∧ access s (rope s 5) 0x20 64 64 true = .error 4 ∧
      access s (rope s 5) 0x20 64 64 false = .error 4 ∧
      ends (exec (.kmvLd i5 2 ⟨1, false⟩) s) (fun t => (rope t 5).frec.code == 4) = true) ∧
    (let s := at5K { w := [(1, 0x3001000)], pl := 2 }
     CramponIssues s i5 [2, 3] ∧ access s (rope s 5) 0x3001000 64 64 false = .ok .ctl ∧
      access s (rope s 5) 0x3001000 64 64 true = .ok .ctl ∧ goes (exec (.kmvSt i5 3 1) s) = true ∧
      ends (exec (.kmvLd i5 2 ⟨1, false⟩) s) (fun t => (rope t 5).st == .waiting (.kload 2 0x3001000)) = true) ∧
    (let s := { at5K { w := [(1, 0x1000000000000000)] } with hbm := { media := [0] } }
     CramponIssues s i5 [2, 3] ∧ access s (rope s 5) 0x1000000000000000 64 64 false = .ok .hbm ∧
      memMedia s .hbm 0x1000000000000000 64 = true ∧
      ends (exec (.kmvLd i5 2 ⟨1, false⟩) s) (fun t => (rope t 5).frec.code == 9) = true) :=
  ⟨⟨⟨⟨rfl, rfl, rfl⟩, by decide +kernel⟩, by decide +kernel⟩, ⟨⟨⟨rfl, rfl, rfl⟩, by decide +kernel⟩, by decide +kernel⟩,
   ⟨⟨⟨rfl, rfl, rfl⟩, by decide +kernel⟩, by decide +kernel⟩, ⟨⟨⟨rfl, rfl, rfl⟩, by decide +kernel⟩, by decide +kernel⟩,
   ⟨⟨⟨rfl, rfl, rfl⟩, by decide +kernel⟩, by decide +kernel⟩, ⟨⟨⟨rfl, rfl, rfl⟩, by decide +kernel⟩, by decide +kernel⟩⟩

/-- The check value of CRC-32C over "123456789" (R201). -/
theorem test_kcrc32c_check_value :
    ends (exec (.kcrc32c i5 1 2 3) (at5K { w := [(3, 9 <<< 32)], k := [(2, 0x393837363534333231)] }))
      (fun t => (rope t 5).kPend == [{ kd := 1, value := 0xE3069283, due := 240 }]) = true := by decide +kernel

/-- A level that is not enabled, a result far and one near, and 16 lookups out. -/
theorem witness_crampon_waits :
    (let s := { at5 {} with obj := [(key 0x4040 1, 6)] }
     Issues s i5 ∧ cramponOn s 5 = false ∧ ends (exec (.kload i5 ⟨1, false⟩) s) (fun t => (rope t 5).frec.code == 8) = true) ∧
    (let s := at5K { kPend := [{ kd := 3, value := 7, due := 480 }] }
     Issues s i5 ∧ cramponOn s 5 = true ∧ (rope s 5).kPend.filter (fun q => q.kd == 3) = [{ kd := 3, value := 7, due := 480 }] ∧
      0 + 8 * dpU s ≤ 480 ∧ ends (exec (.kmvKw i5 1 3 0) s) (fun t => (rope t 5).st == .waiting (.kreg 3)) = true) ∧
    (let s := at5K { kPend := [{ kd := 3, value := 7, due := 479 }] }
     Issues s i5 ∧ cramponOn s 5 = true ∧ (rope s 5).kPend.filter (fun q => q.kd == 3) = [{ kd := 3, value := 7, due := 479 }] ∧
      479 < 0 + 8 * dpU s ∧ (∀ q ∈ (rope s 5).kPend, q.kd ≠ 3 → 479 < q.due) ∧
      cramponOn (advanceTo s 479) 5 = true ∧ ends (exec (.kmvKw i5 1 3 0) s) (fun t => getW (rope t 5) 1 == 7 && t.time.now == 479) = true) ∧
    (let p : KPend := { kd := 3, value := 7, due := 60, src := some 0x1000000000000000 }
     let s := { at5K { kPend := [p] } with hbm := slowRow }
     Issues s i5 ∧ (rope s 5).kPend.filter (fun q => q.kd == 3) = [p] ∧ kHeld s p = true ∧ p.due < 0 + 8 * dpU s ∧
      ends (exec (.kmvKw i5 1 3 0) s) (fun t => t == s) = true) ∧
    (let s := at5K { kPend := List.replicate 16 { kd := 3, value := 7, due := 600, isTxl := true } }
     CramponIssues s i5 [1, 2] ∧ 16 ≤ txlOut s (ropeCore 5) ∧
      ends (exec (.ktxl i5 2 1) s) (fun t => (rope t 5).st == .waiting .ktxl) = true) :=
  ⟨⟨⟨rfl, rfl, rfl⟩, by decide +kernel⟩, ⟨⟨rfl, rfl, rfl⟩, by decide +kernel⟩, ⟨⟨rfl, rfl, rfl⟩, by decide +kernel⟩,
   ⟨⟨rfl, rfl, rfl⟩, by decide +kernel⟩, ⟨⟨⟨rfl, rfl, rfl⟩, by decide +kernel⟩, by decide +kernel⟩⟩

/-- Tenant 1 in the mode given, whose window 0 maps two granules at granule 8 for reads, and writes where `wr`. -/
def tenant (mode home : Nat) (wr : Bool) : State :=
  { at5K { k := [(1, 0x200005 + 1 <<< 64), (4, (1 <<< 48) + 1 <<< 64), (5, 0x400000 + 1 <<< 64), (6, 0x10001 <<< 64)] } with
    obj := [(key 0x3001 0x50, mode), (key 0x3001 0x51, home), (key 0x3001 0x80, 8 * 2 ^ 32),
            (key 0x3001 0x81, 2 ^ 63 + 2 ^ 62 + 2 + (if wr then 2 ^ 61 else 0)), (key 0x4040 1, 7)] }

/-- The tenant in window mode with an entry of granule 9 in the cache: valid, of tenant `tid`, at port 3. -/
def cached (tid : Nat) (ro migrating valid : Bool) : State :=
  { tenant 1 0 true with xlat := { cache := [(8, [(8, BitVec.ofNat 128 0)]), (9, [(9, BitVec.ofNat 128
    ((if valid then 2 ^ 127 else 0) + (if ro then 2 ^ 126 else 0) + (if migrating then 2 ^ 125 else 0) + tid * 2 ^ 112 + 3 * 2 ^ 96))])] } }

/-- The fault of the lookup at lane 0 of k register `k`, with or without success. -/
def lookup (s : State) (k : BitVec 4) (v : KWord) : Bool :=
  ends (exec (.ktxl i5 7 k) s) (fun t => (rope t 5).kPend == [{ kd := 7, value := v, due := 1440, isTxl := true }])

/-- Every outcome of a translation. -/
theorem witness_translation : CramponIssues (tenant 1 0 true) i5 [7, 1] ∧ txlOut (tenant 1 0 true) (ropeCore 5) = 0 ∧
    laneAt (getK (rope (tenant 1 0 true) 5) 1) 1 = 1 ∧
    lookup (tenant 0 0x1FF true) 1 (txlWord 0 1 9 0 1 0 0) = true ∧
    lookup (tenant 0 5 true) 1 (txlWord (2 ^ 48 + 0x200005) 0 0 0 1 0 5) = true ∧
    lookup (tenant 1 0 true) 4 (txlWord 0 1 8 0 1 0 0) = true ∧
    lookup (tenant 1 0 true) 5 (txlWord 0 1 1 0 1 0 0) = true ∧
    inWindow 0x200005 (windowWord (tenant 1 0 true) 1 0) = true ∧ inWindow 0x400000 (windowWord (tenant 1 0 true) 1 0) = false ∧
    lookup (tenant 1 0 false) 6 (txlWord 0 1 3 0 1 0 0) = true ∧
    ends (exec (.ktxl i5 7 1) (tenant 1 0 true)) (fun t => (rope t 5).kPend.all (fun p => p.miss.isSome)) = true ∧
    windowOff 0x200005 (windowWord (tenant 1 0 true) 1 0) / 2 ^ 21 = 9 ∧ (txlCached (cached 1 false false true) 9).isSome = true ∧
    lookup (cached 1 false false false) 1 (txlWord 0 1 5 0 1 0 0) = true ∧
    lookup (cached 2 false false true) 1 (txlWord 0 1 4 0 1 0 0) = true ∧
    lookup (cached 1 false true true) 1 (txlWord 0 1 7 0 1 0 0) = true ∧
    lookup (cached 1 true false true) 1 (txlWord (2 ^ 48 + 9 * 2 ^ 21 + 5) 0 0 0 1 0 3) = true :=
  ⟨⟨⟨rfl, rfl, rfl⟩, by decide +kernel⟩, by decide +kernel⟩

/-- Results that are known, missed, and overtaken by a map WRITE, and the area of KSAVE and KLOAD. -/
theorem witness_crampon_results :
    (let s := having { st := .waiting .ktxl, kPend := [{ kd := 3, value := 7, due := 60, isTxl := true }] }
     pendingK (rope s 5) 3 = some { kd := 3, value := 7, due := 60, isTxl := true } ∧
      ends (exec (.kResultWritten 5 3) s) (fun t => (rope t 5).st == .ready && getK (rope t 5) 3 == 7 && t.time.now == 60) = true) ∧
    (let m : TxlMiss := { tid := 1, off := 5, wr := false, win := 0 }
     let s := having { kPend := [{ kd := 3, value := 0, due := 60, isTxl := true, miss := some m }] }
     pendingK (rope s 5) 3 = some { kd := 3, value := 0, due := 60, isTxl := true, miss := some m } ∧
      (mapRead s (m.off / 2 ^ 21)).2 = some 0 ∧
      ends (exec (.mapReadDone 5 3) s) (fun t => (rope t 5).kPend.all (fun p => p.miss.isNone)) = true ∧
      (let u := { s with hbm := { s.hbm with media := [0, 0x1200000000 / 64] } }
       (mapRead u (m.off / 2 ^ 21)).2 = none ∧ goes (exec (.mapReadDone 5 3) u) = true)) ∧
    (let m : TxlMiss := { tid := 1, off := 5, wr := false, win := 0, stale := some (some (1 <<< 127)) }
     let s := having { kPend := [{ kd := 3, value := 0, due := 60, isTxl := true, miss := some m }] }
     m.stale = some (some (1#128 <<< 127)) ∧ goes (exec (.mapReadDone 5 3) s) = true) ∧
    (let m : TxlMiss := { tid := 1, off := 5, wr := false, win := 0, stale := some none }
     let p : KPend := { kd := 3, value := 0, due := 60, isTxl := true, miss := some m }
     m.stale = some none ∧ kHeld (having { kPend := [p] }) p = true ∧
      ends (exec (.kResultWritten 5 3) (having { kPend := [p] })) (fun t => (rope t 5).kPend == [p]) = true ∧
      ends (exec (.mapReadDone 5 3) (having { kPend := [p] })) (fun t =>
        (rope t 5).kPend.all (fun q => q.value == txlWord 0 2 0 0 0 0 0)) = true) ∧
    (let s := at5K { w := [(1, 1024)], k := [(15, 0x99)] }
     CramponIssues s i5 allK ∧
      ends (exec (.kload i5 ⟨1, true⟩) s) (fun t => (rope t 5).frec.code == 0x0A) = true ∧
      ends (exec (.kload i5 ⟨1, false⟩) s) (fun t => getK (rope t 5) 15 == 0 && (rope t 5).st == .waiting .kstate) = true ∧
      ends (exec (.ksave i5 1) s) (fun t => scratchByte t 0 (1024 + 960) == 0x99 && (rope t 5).st == .waiting .kstate) = true) ∧
    (let s := at5K { w := [(1, 0x400000)] }
     CramponIssues s i5 allK ∧ ends (exec (.kload i5 ⟨1, false⟩) s) (fun t => (rope t 5).frec.code == 3) = true) ∧
    (let s := at5K { w := [(1, 0x3FFC01)] }
     CramponIssues s i5 allK ∧ ends (exec (.kload i5 ⟨1, false⟩) s) (fun t => (rope t 5).frec.code == 4) = true) :=
  ⟨by decide +kernel, by decide +kernel, by decide +kernel, by decide +kernel, ⟨⟨⟨rfl, rfl, rfl⟩, by decide +kernel⟩, by decide +kernel⟩,
   ⟨⟨⟨rfl, rfl, rfl⟩, by decide +kernel⟩, by decide +kernel⟩, ⟨⟨⟨rfl, rfl, rfl⟩, by decide +kernel⟩, by decide +kernel⟩⟩

/-- PL0, which may not write TRAP or CPEN, and PL2, which writes CPEN of one core or of all. -/
theorem witness_system_registers :
    (let s := at5 { w := [(1, 3)] }
     Issues s i5 ∧ ends (exec (.mts i5 1 3) s) (fun t => (rope t 5).frec.code == 2) = true ∧
      ends (exec (.mts i5 1 4) s) (fun t => (rope t 5).frec.code == 2) = true ∧
      ends (exec (.mfs i5 2 0) s) (fun t => getW (rope t 5) 2 == 5) = true) ∧
    (let s := at5 { w := [(1, 3)], pl := 2 }
     Issues s i5 ∧ 2 ≤ (rope s 5).pl.toNat ∧ (getW (rope s 5) 1).getLsbD 63 = false ∧
      ends (exec (.mts i5 1 4) s) (fun t => obj t 0x4040 1 == 3) = true) ∧
    (let s := at5 { w := [(1, 0x8000000000000003)], pl := 2 }
     Issues s i5 ∧ (getW (rope s 5) 1).getLsbD 63 = true ∧
      ends (exec (.mts i5 1 4) s) (fun t => obj t 0x4040 16 == 3 && obj t 0x4041 1 == obj s 0x4041 1) = true) :=
  ⟨⟨⟨rfl, rfl, rfl⟩, by decide +kernel⟩, ⟨⟨rfl, rfl, rfl⟩, by decide +kernel⟩, ⟨⟨rfl, rfl, rfl⟩, by decide +kernel⟩⟩

/-- Pitch 1 of one frame, which rope 5 runs. -/
def pitch1 : Pitch :=
  { frames := [0], lp := 0, cls := 0, tid := 1, src := 0, ostream := 0, rsver := 1, place := .running, ticketed := true, rope := some 5 }

/-- Rope 5 runs pitch 1; `w1` and `w2` are its registers, `es` the outputs so far. -/
def pitching (w1 w2 : Word) (es : List Emit) (x : Rope) (late : Bool) : State :=
  let p : Pitch := { pitch1 with emits := es, late := late }
  { at5 { x with w := [(1, w1), (2, w2)], pitch := some 1, heads := [64] } with
    pit := { pitches := [(1, p)], nextPitch := 2 }
    frames := [(0, { bytes := List.replicate 64 0 })], nextFrame := 1 }

/-- How many outputs the pitch has. -/
def emitted (n : Nat) (t : State) : Bool := (pitch t 1).all (fun p => p.emits.length == n)

/-- Each kind of disposition, no pitch, no such frame, an output too many and a port that is not there. -/
theorem witness_femit :
    (Issues (at5 {}) i5 ∧ (rope (at5 {}) 5).pitch = none ∧
      ends (exec (.femit i5 1 2) (at5 {})) (fun t => (rope t 5).frec.code == 6) = true) ∧
    (let s := pitching 0 0 [] {} false
     Issues s i5 ∧ (rope s 5).pitch = some 1 ∧ portOk s (rope s 5) 0 0 = true ∧
      ends (exec (.femit i5 1 2) s) (emitted 1) = true) ∧
    ends (exec (.femit i5 1 2) (pitching 0 0x10000 [] {} false)) (emitted 1) = true ∧
    ends (exec (.femit i5 1 2) (pitching 0 0x20000 [] {} false)) (emitted 0) = true ∧
    ends (exec (.femit i5 1 2) (pitching 0 0x30006 [] {} false)) (emitted 1) = true ∧
    ends (exec (.femit i5 1 2) (pitching 1 0 [] {} false)) (fun t => (rope t 5).frec.code == 3) = true ∧
    portOk (pitching 0 1 [] {} false) (rope (pitching 0 1 [] {} false) 5) 0 1 = false ∧
    goes (exec (.femit i5 1 2) (pitching 0 1 [] {} false)) = false ∧
    (let s := pitching 0 0x10000 (List.replicate 64 (.nak 0 0 0)) {} false
     ends (exec (.femit i5 1 2) s) (fun t => (rope t 5).frec.code == 7) = true) :=
  ⟨⟨⟨rfl, rfl, rfl⟩, by decide +kernel⟩, ⟨⟨rfl, rfl, rfl⟩, by decide +kernel⟩, by decide +kernel⟩

/-- A rope at its record, with DKIND, ACT and the low half of LOCALDISP as given. -/
def recorded (dkind act : Byte) (disp : Nat) : State :=
  pitching 0x2000040 0 [] { window := wrN (wrN [(6, 1)] 0x49 [dkind]) 0x60 [act], localDisp := BitVec.ofNat 64 disp } false

/-- Outputs, and whether the frame counts as disposed and is left to the program. -/
def ruled (s : State) (n : Nat) (disp left : Bool) : Bool :=
  ends (exec (.femitR i5 1) s) (fun t => getW (rope t 5) 1 == 0x2000080 && ((rope t 5).localMask == 1) == left &&
    (pitch t 1).all (fun p => p.emits.length == n && (p.disposed == [0]) == disp))

/-- Each action on each kind of destination. -/
theorem witness_femitR :
    (let s := recorded 0 0 0
     Issues s i5 ∧ getW (rope s 5) 1 = BitVec.ofNat 64 (0x2000040 + 64 * 0) ∧ (rope s 5).pitch = some 1 ∧
      (pitch s 1).isSome = true ∧ min (lget (winRead (rope s 5) 6 1) 0 0).toNat (rope s 5).heads.length = 1 ∧ dispOk s (setClass (rope s 5) 0) 0 (dispOf (rope s 5).localDisp.toNat) = true) ∧
    ruled (recorded 0 1 0) 1 true false = true ∧ ruled (recorded 0 2 0) 1 true false = true ∧
    ruled (recorded 0 0 0) 1 true false = true ∧ ruled (recorded 1 0 0) 1 true false = true ∧
    ruled (recorded 2 0 0) 0 false true = true ∧ ruled (recorded 2 0 0x80020000) 0 true false = true ∧
    ruled (recorded 0 3 0) 2 true false = true ∧ ruled (recorded 1 3 0) 2 true false = true ∧
    (let s := { recorded 0 1 0 with obj := [(key 0x3001 0x3A, 4)] }
     ends (exec (.femitR i5 1) s) (fun t => ten t 1 0x3A == 5 && obj t 0x4010 3 == 1) = true) ∧
    ruled (recorded 0 4 0) 1 true false = true ∧ ruled (recorded 1 255 0) 1 true false = true ∧
    ruled (recorded 2 4 0) 0 false true = true ∧ ruled (recorded 2 4 0x80020000) 0 true false = true ∧
    ruled (recorded 2 3 0) 1 true true = true ∧ ruled (recorded 2 3 0x80010000) 2 true false = true ∧
    (let s := pitching 0x2000080 0 [] {} false
     getW (rope s 5) 1 = BitVec.ofNat 64 (0x2000040 + 64 * 1) ∧ min (lget (winRead (rope s 5) 6 1) 0 0).toNat (rope s 5).heads.length ≤ 1 ∧
      ends (exec (.femitR i5 1) s) (fun t => (rope t 5).frec.code == 3) = true) :=
  ⟨⟨⟨rfl, rfl, rfl⟩, by decide +kernel⟩, by decide +kernel⟩

/-- On a device with one rope that does not wait for room in Switchback, no rope does. -/
theorem nobody_waits (s : State) (x : Rope) (h : s.ropes = [(5, x)]) (hx : x.st ≠ .waiting .hold) (q : Nat) :
    (rope s q).st ≠ .waiting .hold := by
  unfold rope mget; rw [h]; unfold mfind; split
  · exact hx
  · exact nofun

/-- On a device without ropes' state none waits. -/
theorem nobody_waits_of_none (s : State) (h : s.ropes = []) (q : Nat) : (rope s q).st ≠ .waiting .hold := by
  unfold rope mget; rw [h]; exact nofun

/-- Switchback holds 4,096 pitches, and the turn of pitch 1 has not come. -/
def crowded : State :=
  let s := pitching 0 0 [] {} false
  { s with pit := { s.pit with
      pitches := s.pit.pitches ++ (List.range 4096).map (fun i => (i + 2, { frames := [0], lp := 0, cls := 0, tid := 1, src := 0
                                                                            ostream := 0, rsver := 1, place := .done }))
      lanes := [(0, { next := 2, release := 1 })] } }

/-- A PDONE that waits for room. -/
theorem witness_pdone_waits : IssuesFree crowded i5 ∧ (rope crowded 5).pitch = some 1 ∧ holdFull crowded 1 = true ∧
    ends (exec (.pdone i5) crowded) (fun t => (rope t 5).st == .waiting .hold) = true :=
  ⟨⟨⟨rfl, rfl, rfl⟩, rfl⟩, by decide +kernel⟩

/-- A turn at which no pitch stands holds a pitch back. -/
theorem heldBack_of_none (s : State) (hk : keysRise s.pit.pitches = true) (h : pitchAt s 0 (laneOf s 0).release = none) :
    HeldBack s 0 1 := ⟨hk, by intro q hq; rw [h] at hq; cases hq⟩

/-- Only the core of rope 5 is open. -/
def oneCore : Map Nat := (key 0x4020 1, 0xFFFE) :: ((List.range 15).map (fun c => (key (0x4021 + c) 1, 0xFFFF)))

/-- The turn of pitch 1 has not come. -/
def notItsTurn (s : State) : State := { s with pit := { s.pit with lanes := [(0, { next := 2, release := 1 })] } }

/-- A pitch's rope: its first fault, which moves the pitch; one for want of time; and a lasting one, without another core and on the
retry, each of its three ways. -/
theorem witness_fault_of_a_pitch :
    let s := notItsTurn (pitching 0 0 [] {} false)
    let retried (code : Nat) : State := setPitch s 1 { pitch1 with retry := true, firstFault := some (5, { code := code }) }
    ((rope s 5).pitch = some 1 ∧ (rope s 5).task = none ∧ (rope s 5).kPend = [] ∧ isLead s 5 = false ∧ pitch s 1 = some pitch1 ∧
      moveTarget s 0 0 = some 0 ∧ (shed (faultRope s 5 3 0) 0).moved = [1]) ∧
    HeldBack s 0 1 ∧ HeldBack { s with obj := oneCore } 0 1 ∧ HeldBack (retried 3) 0 1 ∧ (∀ e ∈ s.pit.shed, e.2.moved = []) ∧
    (∀ q, (rope s q).st ≠ .waiting .hold) ∧ obj (faultRope s 5 9 0) 0x4020 6 = 1 ∧
    moveTarget { s with obj := oneCore } 0 0 = none ∧ obj (faultRope { s with obj := oneCore } 5 3 0) 0x4020 5 = 1 ∧
    obj (faultRope (retried 3) 5 4 0) 0x4020 5 = 1 ∧ obj (faultRope (retried 0x0B) 5 4 0) 0x4020 5 = 0 ∧
    fenced (faultRope (retried 0x0A) 5 4 0) 0 = true :=
  ⟨by decide +kernel, heldBack_of_none _ rfl rfl, heldBack_of_none _ rfl rfl, heldBack_of_none _ rfl rfl, by decide +kernel,
   nobody_waits _ _ rfl nofun, by decide +kernel⟩

/-- A derived frame, one too many, and the end of a rope with no pitch, with a pitch at its turn and with one held. -/
theorem witness_fnew_pdone :
    (let s := pitching 0 0 [] {} false
     Issues s i5 ∧ (rope s 5).pitch = some 1 ∧ (parseSxt (winRead (rope s 5) 0x1000 128)).len.toNat ≤ 96 ∧ lpDefined s 0 = true ∧
      ends (exec (.fnew i5 1 2) s) (emitted 1) = true) ∧
    (let s := pitching 0 0x10000 (List.replicate 64 (.nak 0 0 0)) {} false
     ends (exec (.fnew i5 1 2) s) (fun t => (rope t 5).frec.code == 7) = true) ∧
    (IssuesFree (at5 {}) i5 ∧ (rope (at5 {}) 5).pitch = none ∧
      ends (exec (.pdone i5) (at5 {})) (fun t => (rope t 5).frec.code == 6) = true) ∧
    (let s := pitching 0 0 [] {} false
     IssuesFree s i5 ∧ holdFull s 1 = false ∧
      ends (exec (.pdone i5) s) (fun t => (rope t 5).st == .free && (pitch t 1).isNone) = true) ∧
    (let s := pitching 0 0x20000 [] {} false
     (rope s 5).pitch = some 1 ∧ 2 ≤ ((getW (rope s 5) 2).extractLsb' 16 2).toNat ∧ goes (exec (.fnew i5 1 2) s) = false) ∧
    (Issues (at5 {}) i5 ∧ ends (exec (.fnew i5 1 2) (at5 {})) (fun t => (rope t 5).frec.code == 6) = true) ∧
    (let s := at5 { w := [(29, 0x8000004100000001)], pc := 0x104 }
     Issues s i5 ∧ inBody (rope s 5) = true ∧ ends (exec (.pdone i5) s) (fun t => (rope t 5).frec.code == 1) = true ∧
      ends (exec (.repb i5 1) s) (fun t => (rope t 5).frec.code == 1) = true) ∧
    (let s := notItsTurn (pitching 0 0 [] {} false)
     IssuesFree s i5 ∧ holdFull s 1 = false ∧ HeldBack s 0 1 ∧ (∀ q, (rope s q).st ≠ .waiting .hold) ∧
      ends (exec (.pdone i5) s) (fun t => (pitch t 1).all (fun p => p.place == .done) && obj t 0x4010 4 == 1) = true) :=
  ⟨⟨⟨rfl, rfl, rfl⟩, by decide +kernel⟩, by decide +kernel, ⟨⟨⟨rfl, rfl, rfl⟩, rfl⟩, by decide +kernel⟩,
   ⟨⟨⟨rfl, rfl, rfl⟩, rfl⟩, by decide +kernel⟩,
   by decide +kernel, ⟨⟨rfl, rfl, rfl⟩, by decide +kernel⟩, ⟨⟨rfl, rfl, rfl⟩, by decide +kernel⟩,
   ⟨⟨⟨rfl, rfl, rfl⟩, rfl⟩, rfl, heldBack_of_none _ rfl rfl, nobody_waits _ _ rfl nofun, by decide +kernel⟩⟩

/-! ### Pitches, parking, locks and tasks -/

/-- Pitch 1 of lane 0, tenant 1 and class 0. -/
def aPitch (place : PitchWhere) : Pitch :=
  { frames := [0], lp := 0, cls := 0, tid := 1, src := 0, ostream := 0, rsver := 1, place := place }

/-- A device with pitch 1. -/
def withPitch (p : Pitch) : State :=
  { dev with pit := { pitches := [(1, p)], nextPitch := 2 }, frames := [(0, { bytes := List.replicate 64 0 })], nextFrame := 1 }

/-- Every core of the device is fenced. -/
def allShut : Map Nat := (List.range 16).map (fun c => (key (0x4020 + c) 1, 0xFFFF))

/-- An open pitch that closes, and one that no core can take. -/
theorem witness_pitch_closes :
    let s := { withPitch (aPitch .opening) with ports := [(0, { openPitch := some 1 :: List.replicate 7 none })] }
    lget (port s 0).openPitch 0 none = some 1 ∧ pitch s 1 = some (aPitch .opening) ∧
    (clusterFor s (laneNo s 1 0 0)).isSome = true ∧
    ends (exec (.coalesceWindowExpiry 0 0) s) (fun t => t.time.now == 3840 && obj t 0x4000 9 == 1) = true ∧
    clusterFor { s with obj := allShut } (laneNo s 1 0 0) = none ∧
    goes (exec (.coalesceWindowExpiry 0 0) { s with obj := allShut }) = true := by decide +kernel

/-- A queued pitch and a moved one that start on the first core. -/
theorem witness_pitch_starts :
    (let s := { withPitch (aPitch .queued) with
       pit := { (withPitch (aPitch .queued)).pit with shed := [(0, { queues := [(1, [1])] })] } }
     Machine.on s = true ∧ (cluster s 0).doze = false ∧ heldPitches s < 4096 ∧ pitchRope s 0 = some 0 ∧
      (rope s 0).kPend = [] ∧ (shed s 0).moved = [] ∧ (choosePitch s 0).map (·.1) = some 1 ∧ chooseCore s 0 none = some 0 ∧
      ends (exec (.pitchDispatch 0) s) (fun t => (rope t 0).pitch == some 1 && getW (rope t 0) 29 == 1) = true) ∧
    (let s := { withPitch (aPitch .queued) with pit := { (withPitch (aPitch .queued)).pit with shed := [(0, { moved := [1] })] } }
     (shed s 0).moved = [1] ∧ chooseCore s 0 ((aPitch .queued).firstFault.map (fun f => ropeCore f.1)) = some 0 ∧
      ends (exec (.pitchDispatch 0) s) (fun t => (rope t 0).pitch == some 1) = true) := by decide +kernel

/-- A dispatched pitch at its budget, and one told and held back at its release. -/
theorem witness_stragglers :
    (let p := { aPitch .running with ticketed := true, cluster := 0 }
     let s := withPitch p
     pitch s 1 = some p ∧ p.place ≠ .done ∧ leadOf s 0 = some 7 ∧ (rope s 7).st = .free ∧
      ends (exec (.stragglerBudgetExpiry 1) s) (fun t => obj t 0x4000 0x0D == 1) = true) ∧
    (let p := { aPitch .running with ticketed := true, straggler := true }
     let s := { withPitch p with pit := { (withPitch p).pit with lanes := [(0, { release := 5, next := 6 })] } }
     pitch s 1 = some p ∧ HeldBack s 0 1 ∧ (∀ q, (rope s q).st ≠ .waiting .hold) ∧ s.time.cycAt ≤ s.time.now ∧
      ends (exec (.lateReleaseExpiry 1) s) (fun t => (pitch t 1).all (fun q => q.late) && obj t 0x4000 0x0E == 1) = true) :=
  ⟨by decide +kernel, by decide +kernel, heldBack_of_none _ rfl (by decide +kernel), nobody_waits_of_none _ rfl, by decide +kernel⟩

/-- A rope free, ready, waiting and parked; the lead rope; a pitch's rope at its hold; fences that leave one core. -/
theorem witness_parking :
    (isLead (having {}) 7 = true ∧ isLead (having {}) 5 = false ∧ (rope (having {}) 5).st = .free ∧
      ends (exec (.park 0 5) (having {})) (fun t => (rope t 5).st == .parked) = true) ∧
    (ends (exec (.park 0 5) (at5 {})) (fun t => (rope t 5).frec.code == 0x0B) = true ∧
      ends (exec (.park 0 5) (having { st := .waiting .ktxl })) (fun t => (rope t 5).frec.code == 0x0B) = true) ∧
    (let s := having { st := .parked, frec := { valid := true } }
     ends (exec (.resume 0 5) s) (fun t => (rope t 5).st == .ready) = true ∧
      ends (exec (.freeRope 0 5) s) (fun t => (rope t 5).st == .free && !(rope t 5).frec.valid) = true) ∧
    (let s := { having { st := .parked, task := some 3, frec := { valid := true } } with
       clusters := [(0, { slots := [(3, { state := .parked, rope := some 5 })] })] }
     (rope s 5).task = some 3 ∧ ends (exec (.resume 0 5) s) (fun t => (slot t 0 3).state == .run) = true) ∧
    (let s := having { st := .parked, frec := { valid := true, inPitch := true } }
     obj s 0x4020 2 ≠ 0 ∧ ends (exec (.parkHoldExpiry 5) s) (fun t => (rope t 5).st == .free) = true) ∧
    (Served dev 0x4020 ∧ 0 < clusters dev ∧ 1 < clusters dev ∧ obj dev 0x4021 1 % 65536 ≠ 0xFFFF ∧ (∀ e ∈ dev.pit.shed, e.2.moved = []) ∧
      ends (exec (.coreFenceWrite 0 0xFFFF) dev) (fun t => fenced t 15 && !fenced t 16) = true) := by
  refine ⟨by decide +kernel, by decide +kernel, by decide +kernel, by decide +kernel, by decide +kernel, ?_, by decide +kernel⟩
  unfold Served; decide +kernel

/-- The lead rope 7 is parked or runs; rope 15, of the next core, is free. The lead rope's silence, its fault, and Doze. -/
theorem witness_election :
    let s (st : RopeSt) : State := { dev with ropes := [(7, { st := st, pending := 5 })] }
    Machine.on (s .parked) = true ∧ obj (s .parked) 0x4030 3 ≠ 0 ∧ (s .parked).sys.basecampFailed = false ∧
    (cluster (s .parked) 0).noLead = false ∧ (rope (s .parked) 7).st = .parked ∧ fenced (s .parked) 1 = false ∧
    (rope (s .parked) 15).st ≠ .parked ∧ (rope (s .parked) 15).pitch = none ∧ (rope (s .parked) 15).task = none ∧
    ends (exec (.leadBeatTimeout 0) (s .parked)) (fun t => (cluster t 0).leadRope == 15 && (rope t 15).pc == 0x104000) = true ∧
    (rope (s .ready) 7).st ≠ .free ∧ (cluster (s .ready) 0).doze = false ∧
    ends (exec (.leadBeatTimeout 0) (s .ready)) (fun t => (cluster t 0).leadRope == 15 && (rope t 7).frec.code == 0x0B &&
      (rope t 15).pending == 0x2000000000000005) = true ∧
    (rope (s .ready) 7).st ≠ .parked ∧ (cluster (faultRope (s .ready) 7 9 1) 0).leadRope = 15 ∧
    (let u := { s .ready with clusters := [(0, { doze := true })] }
     (cluster u 0).doze = true ∧ ends (exec (.leadBeatTimeout 0) u) (fun t => t == u) = true) := by
  decide +kernel

/-- Lock 9 of cluster 0, with the write `op` of rope 5 and a rank for rope 6. -/
def locking (l : Lock) (op : BitVec 2) (pl2 : Bool) : State :=
  { dev with clusters := [(0, { locks := [(9, l)], boost := [(6, 3)]
                                lockQ := [{ lock := 9, op := op, id := 5, writer := 5, pl2 := pl2, at_ := 0, cyc := 0 }] })] }

def lockIs (o : Option (BitVec 11)) (ws : List (BitVec 11)) (t : State) : Bool := lock t 0 9 == { owner := o, waiters := ws }

/-- Every write on a lock that is free, the rope's own and another's. -/
theorem witness_locks :
    (nextLockWrite 9 (cluster (locking {} 0 false) 0).lockQ).isSome = true ∧
    ends (exec (.acquire 0 9) (locking {} 0 false)) (fun t => lockIs (some 5) [] t && t.time.now == 240) = true ∧
    ends (exec (.acquire 0 9) (locking { owner := some 5 } 0 false)) (lockIs (some 5) []) = true ∧
    (waitsOn (locking { owner := some 6 } 0 false) 5 = none ∧
      ends (exec (.acquire 0 9) (locking { owner := some 6 } 0 false)) (lockIs (some 6) [5]) = true) ∧
    bestWaiter (locking {} 0 false) [8, 6] = some 6 ∧
    ends (exec (.release 0 9) (locking { owner := some 5, waiters := [8, 6] } 1 false))
      (fun t => lockIs (some 6) [8] t && t.flights.length == 1) = true ∧
    ends (exec (.release 0 9) (locking { owner := some 5 } 1 false)) (lockIs none []) = true ∧
    ends (exec (.release 0 9) (locking { owner := some 6 } 1 false)) (fun t => lockIs (some 6) [] t && obj t 0x4030 8 == 1) = true ∧
    ends (exec (.force 0 9) (locking { owner := some 6, waiters := [8] } 2 true)) (lockIs (some 8) []) = true ∧
    ends (exec (.force 0 9) (locking {} 2 true)) (lockIs none []) = true ∧
    ends (exec (.force 0 9) (locking { owner := some 6 } 2 false)) (lockIs (some 6) []) = true ∧
    ends (exec (.withdraw 0 9) (locking { owner := some 6, waiters := [5, 8] } 3 false)) (lockIs (some 6) [8]) = true ∧
    (let s := { dev with clusters := [(0, { raises := [(6, 480)] })] }
     (cluster s 0).raises = [(6, 480)] ∧ ropeCluster 6 = 0 ∧
      ends (exec (.priorityRaisePropagate 0) s) (fun t => t.time.now == 480) = true) := by decide +kernel

/-- Rope 5 runs task 3, or none, and has written a task command. -/
def commanding (op n : Nat) (m : Option Nat) (y : Slot) (more : List (Nat × Slot)) : State :=
  { having { st := .waiting .task, task := m, stg := { entry := 0x100, arg := 4, timeout := 2, wakeFt := 0 } } with
    clusters := [(0, { slots := (3, y) :: more, taskQ := [{ rope := 5, word := BitVec.ofNat 64 (op * 2 ^ 60 + 2 ^ 44 + n), at_ := 0, cyc := 0 }] })] }

/-- As `commanding`, and the rope owns lock 1. -/
def locked (s : State) : State := setCluster s 0 { cluster s 0 with locks := [(1, { owner := some 5 })] }

def told (st n : Nat) (t : State) : Bool :=
  (rope t 5).stg.cmdStatus == BitVec.ofNat 8 st && (rope t 5).stg.cmdSlot == BitVec.ofNat 12 n

/-- Every task command done and every one refused. -/
theorem witness_task_commands :
    let run : Slot := { state := .run, rope := some 5 }
    let sixth (s : State) : State := { s with sys := { s.sys with skx9624 := true } }
    (nextTaskCmd (cluster (commanding 1 0 none {} []) 0).taskQ).isSome = true ∧
    (lowestFree 0 [3] = 0 ∧ ends (exec (.spawn 0) (commanding 1 0 none run [])) (fun t => told 0 0 t && (slot t 0 0).state == .ready) = true) ∧
    (let s := modRope (sixth (commanding 1 0 none run [])) 5 (fun x => { x with stg := { x.stg with wakeFt := 9 } })
     ends (exec (.spawn 0) s) (told 5 0) = true) ∧
    ends (exec (.signal 0) (commanding 2 4 none run [])) (told 2 4) = true ∧
    ends (exec (.signal 0) (commanding 2 3 none { state := .wait, counter := 2 } [])) (fun t => told 0 3 t && (slot t 0 3).counter == 1) = true ∧
    ends (exec (.signal 0) (commanding 2 3 none { state := .wait, counter := 1 } [])) (fun t => (slot t 0 3).state == .ready) = true ∧
    ends (exec (.cancel 0) (commanding 3 3 none { state := .ready } [])) (fun t => told 0 3 t && (slot t 0 3).state == .free) = true ∧
    (∀ st ∈ [TaskState.wait, .delay], ends (exec (.cancel 0) (commanding 3 3 none { state := st } []))
      (fun t => told 0 3 t && (slot t 0 3).state == .free) = true) ∧
    ends (exec (.cancel 0) (commanding 3 3 none run [])) (told 3 3) = true ∧
    ends (exec (.cancel 0) (commanding 3 3 none { state := .parked } [])) (told 3 3) = true ∧
    ends (exec (.cancel 0) (commanding 3 4 none run [])) (told 2 4) = true ∧
    ends (exec (.signal 0) (commanding 2 3 none { state := .ready, counter := 1, reason := 1, timedOut := some 0 } []))
      (fun t => ft t / 1000 == 0 && told 0 3 t && (slot t 0 3).reason == 0 && (slot t 0 3).timedOut == none) = true ∧
    ends (exec (.endTask 0) (commanding 4 0 none {} [])) (told 6 0) = true ∧
    (heldBy (locked (commanding 4 0 (some 3) run [])) 5 ≠ [] ∧
      ends (exec (.endTask 0) (locked (commanding 4 0 (some 3) run []))) (told 4 3) = true) ∧
    (heldBy (commanding 4 0 (some 3) run []) 5 = [] ∧
      ends (exec (.endTask 0) (commanding 4 0 (some 3) run [])) (fun t => told 0 3 t && (rope t 5).st == .free) = true) ∧
    ends (exec (.waitTask 0) (commanding 5 0 none {} [])) (told 6 0) = true ∧
    ends (exec (.waitTask 0) (locked (commanding 5 0 (some 3) { run with counter := 1 } [])))
      (fun t => (slot t 0 3).due == some 180240 && (rope t 5).pinned == some 3) = true ∧
    ends (exec (.waitTask 0) (commanding 5 0 (some 3) run [])) (fun t => (slot t 0 3).state == .ready) = true ∧
    ends (exec (.sleep 0) (commanding 6 0 none {} [])) (told 6 0) = true ∧
    ends (exec (.sleep 0) (sixth (commanding 6 0 (some 3) run []))) (told 5 3) = true ∧
    ends (exec (.sleep 0) (commanding 6 0 (some 3) run [])) (fun t => (slot t 0 3).state == .delay) = true ∧
    ends (exec (.yield 0) (commanding 7 0 none {} [])) (told 6 0) = true ∧
    ends (exec (.yield 0) (commanding 7 0 (some 3) run [])) (fun t => (slot t 0 3).reason == 3) = true := by decide +kernel

/-- A table with no free slot (R216). -/
theorem witness_spawn_full :
    let s := { commanding 1 0 none {} [] with clusters := [(0, { slots := (List.range 4096).map (fun n => (n, ({} : Slot)))
                                                                 taskQ := [{ rope := 5, word := 0x1000000000000000, at_ := 0, cyc := 0 }] })] }
    lowestFree 0 ((cluster s 0).slots.map (·.1)) = 4096 ∧ ends (exec (.spawn 0) s) (told 1 0) = true := by decide +kernel

/-- A ready task with a rope, a delayed one and one whose wait has timed out. -/
theorem witness_tasks :
    (let s := { dev with clusters := [(0, { slots := [(3, { state := .ready, entry := 0x100, arg := 8 })], ready := [3] })] }
     Machine.on s = true ∧ (cluster s 0).ready = [3] ∧ (taskRope s 0 3).isSome = true ∧
      (taskRope s 0 3).all (fun r => ropeCluster r == 0 && (rope s r).kPend == [] && waitsOn s r == none && !watershedClaims s 0 r) = true ∧
      ends (exec (.taskDispatch 0) s) (fun t => (slot t 0 3).state == .run) = true) ∧
    (let p := withPitch (aPitch .queued)
     let s := { p with pit := { p.pit with shed := [(0, { queues := [(1, [1])] })] }, obj := [(key 0x4000 3, 0xF0)]
                       clusters := [(0, { slots := [(3, { state := .ready, entry := 0x100, arg := 8 })], ready := [3] })] }
     Machine.on s = true ∧ (taskRope s 0 3).all (fun r => watershedClaims s 0 r) = true ∧
      ends (exec (.taskDispatch 0) s) (fun t => t == s) = true) ∧
    (let s := { dev with clusters := [(0, { slots := [(3, { state := .delay, wake := 900 }), (4, { state := .wait, due := some 90000 })] })] }
     absent s = false ∧ started s = true ∧ keysRise (cluster s 0).slots = true ∧
      ends (exec (.delayTick 0) s) (fun t => (slot t 0 3).reason == 2 && (slot t 0 4).reason == 1) = true) ∧
    (let s := { dev with clusters := [(0, { slots := [(3, { state := .delay, wake := 0 })], lastTick := 7 })] }
     (cluster s 0).lastTick ≠ ft s / 1000 ∧
      ends (exec (.delayTick 0) s) (fun t => t.time == s.time && (slot t 0 3).reason == 2) = true) ∧
    (let s := { dev with sys := { dev.sys with skx9624 := true }, clusters := [(0, { slots := [(4, { state := .wait, due := some 0 })] })] }
     absent s = true ∧ keysRise (cluster s 0).slots = true ∧
      ends (exec (.waitTimeoutSweep 0) s) (fun t => (slot t 0 4).reason == 1) = true) := by decide +kernel

/-! ### Ports, links and the transport -/

/-- The values of port 0: enabled, with credit mode `cm` and PFC on every class. -/
def port0 (cm : Nat) : Map Nat := [(key 0x2000 2, 1), (key 0x2000 9, 0xFF), (key 0x2000 0x0A, cm)]

/-- A device whose port 0 is enabled, with credit mode `cm`, in the state `p`. -/
def linked (cm : Nat) (p : Port) : State := { dev with obj := port0 cm, ports := [(0, p)] }

/-- A frame with an SXT header and payload, padded, with its FCS (R21 to R25). -/
def framed (h : Sxt) (payload : List Byte) : List Byte :=
  let body := toBE 6 0xFFFFFFFFFFFF ++ toBE 6 0x020000000009 ++ toBE 2 (obj dev 0x1010 1) ++ buildSxt h ++ payload
  let body := body ++ List.replicate (60 - body.length) 0
  body ++ toLE 4 (crc32 body)

/-- The hypotheses on a frame that is taken. -/
def takeable (s : State) (bs : List Byte) : Bool :=
  macTest bs == .pass && inService s && beAt bs 12 2 != 0x8808 && parseFrame s 0 bs == .sxt 14 none 0 && !sxtBad bs 14 &&
    (pickHead s false).isSome && decide (bs.length ≤ 192) && s.scree.scans == [] &&
    decide ((mget s.trav.stage 0 []).length ≤ 32) && decide (stagedCells s ≤ cellsSeen s)

theorem witness_frames :
    let s := linked 0 { link := 2 }
    let pulse := framed { typ := 8, src := 0x1234 } []
    let cred := framed { typ := 7, xarg := 1, len := 32 } ([0, 0, 1, 0] ++ List.replicate 28 0)
    let rd := framed { typ := 0, tid := 1, dst := 0x000055, src := 0x000066, len := 0 } []
    Machine.on s = true ∧ linkUp s 0 = true ∧
    ends (exec (.frameReceived 0 (List.replicate 63 0) 0) s) (fun t => lpo t 0 0x24 == 1) = true ∧
    (lget (List.replicate 64 (0 : Byte)) 60 0 ≠ BitVec.ofNat 8 (crc32 ((List.replicate 64 0).take 60)) ∧
      ends (exec (.frameReceived 0 (List.replicate 64 0) 0) s) (fun t => lpo t 0 0x16 == 1) = true) ∧
    (takeable s pulse = true ∧ (parseSxt (pulse.drop 14)).typ = 8 ∧
      ends (exec (.frameReceived 0 pulse 0) s) (fun t => (port t 0).partnerEp == some 0x1234 && lpo t 0 0x12 == 1) = true) ∧
    (let u := { s with obj := port0 0 ++ [(key 0x2000 3, 2)] }
     let bs := framed { typ := 8, src := 0x1234, xarg := 2 } []
     role u 0 = 2 ∧ takeable u bs = true ∧ ends (exec (.frameReceived 0 bs 0) u) (fun t => t.rcv.peerRdonly) = true) ∧
    (takeable s cred = true ∧ (parseSxt (cred.drop 14)).typ = 7 ∧
      ends (exec (.frameReceived 0 cred 0) s) (fun t => lget (port t 0).credLimit 0 0 == 256) = true) ∧
    (let stray := framed { typ := 0, tid := 1, dst := 0xFFFFFF, src := 0x000066, len := 0 } []
     takeable s stray = true ∧ (parseSxt (stray.drop 14)).typ = 0 ∧ (parseSxt (stray.drop 14)).dst = 0xFFFFFF ∧
      ends (exec (.frameReceived 0 stray 0) s) (fun t => lpo t 0 0x12 == 1 && t.nextFrame == 0) = true) ∧
    (takeable s rd = true ∧ (parseSxt (rd.drop 14)).dst ≠ 0xFFFFFF ∧ (parseSxt (rd.drop 14)).typ = 0 ∧ (parseSxt (rd.drop 14)).dst ≠ devEp s ∧ ingressFits s 0 0 1 = true ∧
      ten s 1 0x20 % 4 = 0 ∧ fenceBad s 0 (parseSxt (rd.drop 14)) = false ∧ (port s 0).ingress.length = 8 ∧
      ends (exec (.frameReceived 0 rd 0) s) (fun t => t.nextFrame == 1 && inFlightOf t 1 == 1) = true) := by decide +kernel

theorem test_oversize : ends (exec (.frameReceived 0 (List.replicate 4199 0) 0) (linked 0 { link := 2 }))
    (fun t => lpo t 0 0x18 == 1) = true := by decide +kernel

/-- A port in training, one up, and writes of Mode and LaneMap. -/
theorem witness_links :
    (let s := linked 0 { link := 1 }
     lpo s 0 2 = 1 ∧ linkState s 0 = 1 ∧ Machine.on s = true ∧
      ends (exec (.trainingComplete 0) s) (fun t => (port t 0).link == 2 && active t 0) = true ∧
      ends (exec (.trainingTimeout 0) s) (fun t => lpo t 0 0x21 == 1 && t.time.now == 45000000000) = true ∧
      ends (exec (.trainingRestart 0) s) (fun t => lpo t 0 0x21 == 0) = true) ∧
    (let s := linked 0 { link := 2 }
     linkUp s 0 = true ∧ s.pwr.state ≠ 2 ∧ ends (exec (.fecErrorBurst 0 3 8) s) (fun t => (port t 0).link == 1 && lpo t 0 0x11 == 8) = true ∧
      ends (exec (.linkDown 0) s) (fun t => (port t 0).link == 1) = true ∧
      ends (exec (.lpiReceivedOutside 0) s) (fun t => lpo t 0 0x22 == 1) = true) ∧
    (let s := linked 0 { link := 2 }
     Served s 0x2000 ∧ Served s 0x2001 ∧ 1 < lps s ∧
      ends (exec (.modeWrite 0 1) s) (fun t => t.answer == .ok [] && lpo t 0 1 == 1 && (port t 0).link == 1) = true ∧
      ends (exec (.modeWrite 0 3) s) (fun t => t.answer == .abort 5 0) = true ∧
      ends (exec (.modeWrite 1 1) s) (fun t => t.answer == .abort 3 0) = true ∧
      ends (exec (.laneMapWrite 0 false 0x7531) s) (fun t => lpo t 0 0x0C == 0x7531) = true) := by
  refine ⟨by decide +kernel, by decide +kernel, ?_⟩
  unfold Served; decide +kernel

/-- Each timer and send of an active port. -/
theorem witness_port_timers :
    (let s := linked 0 { link := 2, nextPulse := some 900, missedFrom := some 0, lossFrom := some 0 }
     active s 0 = true ∧ Machine.on s = true ∧ ends (exec (.pulseSend 0) s) (fun t => t.time.now == 900 && t.out.length == 1) = true ∧
      ends (exec (.pulseMissed 0) s) (fun t => lpo t 0 0x23 == 1) = true ∧
      ends (exec (.pulseLossTimeout 0) s) (fun t => (port t 0).partner == 2) = true ∧
      (let u := { s with sys := { dev.sys with frozen := true } }
       Machine.on u = false ∧ ends (exec (.pulseLossTimeout 0) u) (fun t => (port t 0).lossFrom == some 0) = true)) ∧
    (let s := linked 1 { link := 2 }
     active s 0 = true ∧ lpo s 0 0x0A ≠ 0 ∧ (pickHead s true).isSome = true ∧ s.tm.queues = [] ∧
      goes (exec (.credSend 0) s) = true) ∧
    (let s := linked 0 { link := 2, ingress := 100000000 :: List.replicate 7 0, pauseUntil := some 50 :: List.replicate 7 none }
     active s 0 = true ∧ pfcOn s 0 0 = true ∧ xoffPoint s 0 ≤ lget (port s 0).ingress 0 0 ∧ (port s 0).xoffAt.length = 8 ∧
      ends (exec (.pfcXoffSend 0 0) s) (fun t => t.out.length == 1 && lpo t 0 0x1F == 1) = true ∧
      lget (port s 0).pauseUntil 0 none = some 50 ∧
      ends (exec (.pauseTimeExpiry 0 0) s) (fun t => t.time.now == 50 && lget (port t 0).pauseUntil 0 none == none) = true) := by
  decide +kernel

/-- A receiver context with an ACK due, sender contexts before and after their retransmission, idle contexts, a frame
that waits for its rule read. -/
theorem witness_transport_timers :
    (let c : RxCtx := { cum := 4, lastAck := 3, ackDue := some 700 }
     let s := { linked 0 { link := 2 } with xport := { rx := [(9, c)] } }
     rxOf s 9 = some c ∧ (pickHead s true).isSome = true ∧
      ends (exec (.ackDelayExpiry 9) s) (fun t => t.time.now == 700 && t.tm.queues.length == 1) = true) ∧
    (let x : Sent := { psn := 0, out := {} }
     let c : TxCtx := { sent := [x], due := some 700 }
     let s := { linked 0 { link := 2 } with xport := { tx := [(9, c)] } }
     s.scree.scans = [] ∧ firstCtx (fun c => if c.sent.isEmpty then none else c.due) 9 s.xport.tx = some (9, c, 700) ∧
      keptWhole s x = true ∧ s.tm.queues = [] ∧ 0 < cellsAtStart s ∧ obj s 0x5810 1 = 0 ∧ (port s 0).partner ≠ 2 ∧
      ends (exec (.retransmitTimeout 9) s) (fun t => t.out.length == 0 && t.tm.queues.length == 1 &&
        (txAt t 9).all (fun c => c.sent.all (fun x => x.retxAt == some 700))) = true) ∧
    (let c : TxCtx := { sent := [{ psn := 0, out := {}, retx := true, retxAt := some 700 }], due := some 700 }
     let s := { linked 0 { link := 2 } with xport := { tx := [(9, c)] } }
     ends (exec (.retransmitTimeout 9) s) (fun t => (txAt t 9).all (fun c => c.sent.length == 1) && t.tm.queues == []) = true) ∧
    (let c : TxCtx := { sent := [{ psn := 0, out := {}, retx := true }], due := some 700 }
     let s := { linked 0 { link := 2 } with xport := { tx := [(9, c)] } }
     ends (exec (.retransmitTimeout 9) s) (fun t => (txAt t 9).isNone && obj t 0x1011 6 == 1) = true) ∧
    (let s := { dev with xport := { rx := [(9, {})], tx := [(9, {})] } }
     rxOf s 9 = some {} ∧ ({} : RxCtx).lastAck = ({} : RxCtx).cum ∧
      firstCtx (fun c => if c.sent.isEmpty then some c.lastEvent else none) 9 s.xport.tx = some (9, {}, 0) ∧ ends (exec (.contextIdleExpiry true 9) s) (fun t => (rxOf t 9).isNone) = true ∧
      ends (exec (.contextIdleExpiry false 9) s) (fun t => (txAt t 9).isNone) = true) ∧
    (let s := { withPitch (aPitch .queued) with pit := {}, col := { waiting := [{ frame := 0, misses := [1] }] } }
     probeWaits s 1 = false ∧ ends (exec (.ruleReadDone 0) s) (fun t => t.col.waiting == []) = true) := by decide +kernel

/-! ### Tables, versions, time and the Itinerary -/

/-- The dictionary's command on the endpoint table, with its key, argument and cursor. -/
def tabled (op key arg : Nat) (ep : Map (BitVec 256)) : State :=
  { dev with tbl := { engineQ := [16], ep := ep, blocks := [(16, { goOp := op, key := BitVec.ofNat 64 key, arg := BitVec.ofNat 32 arg })] } }

/-- An entry for key 5 at port 3 in slot 0 of its first bucket. -/
def held (static : Bool) : Map (BitVec 256) := [((epHash dev 5).1, (epEntry false static 5 3).setWidth 256)]

def statusIs (n : Nat) (t : State) : Bool := (blockOf t 16).status == n && t.tbl.engineQ == []

/-- Every command on the endpoint table that finds and that misses, and stations that are new, moved and static. -/
theorem witness_table_commands :
    (lpDefined (tabled 1 5 1 []) 1 = false ∧ goes (exec .insert (tabled 1 5 1 [])) = false) ∧
    (lpDefined dev 4 = true ∧ (epFind (tabled 1 5 4 (held false)) 5).isSome = true ∧
      ends (exec .insert (tabled 1 5 4 (held false))) (statusIs 0) = true ∧
      epFind (tabled 1 5 4 []) 5 = none ∧ ends (exec .insert (tabled 1 5 4 [])) (fun t => (epFind t 5).isSome && statusIs 0 t) = true) ∧
    ends (exec .deleteEntry (tabled 2 5 0 (held false))) (fun t => epFind t 5 == none && statusIs 0 t) = true ∧
    ends (exec .deleteEntry (tabled 2 5 0 [])) (statusIs 1) = true ∧
    ends (exec .search (tabled 3 5 0 (held false))) (fun t => (blockOf t 16).outEntry == epEntry false false 5 3) = true ∧
    ends (exec .search (tabled 3 5 0 [])) (statusIs 1) = true ∧
    ends (exec .nextSlot (tabled 4 0 0 (held false))) (fun t => (blockOf t 16).cursor == 4 * (epHash dev 5).1 + 1) = true ∧
    ends (exec .nextSlot (tabled 4 0 0 [])) (statusIs 9) = true ∧
    (keysRise (held false) = true ∧ ends (exec (.flushPort []) (tabled 5 0 3 (held false))) (fun t => t.tbl.ep == []) = true) ∧
    ends (exec .ageSweep (tabled 6 0 0 [])) (fun t => t.tbl.sweep == some 0 && statusIs 0 t) = true ∧
    (let s (ep : Map (BitVec 256)) : State := { dev with tbl := { ep := ep }, col := { learnQ := [{ tid := 0, ep := 5, lp := 7 }] } }
     epKey 0 5 = 5 ∧ (epFind (s (held false)) 5).all (fun p => !eStatic (epSlot (s (held false)) p)) = true ∧
      ends (exec .learnRequest (s (held false))) (fun t => obj t 0x4800 8 == 1) = true ∧
      (epFind (s (held true)) 5).all (fun p => eStatic (epSlot (s (held true)) p)) = true ∧
      ends (exec .learnRequest (s (held true))) (fun t => t.tbl.ep == held true) = true ∧
      epFind (s []) 5 = none ∧ ends (exec .learnRequest (s [])) (fun t => (epFind t 5).isSome) = true) := by decide +kernel

/-- Both hashes of a key agree, and the bucket of key 5 holds four entries whose keys have that bucket too: no chain
ends in a free slot (R93). -/
theorem witness_table_full :
    let w : BitVec 256 := ((List.range 4).map (fun i => (epEntry false false 155637 3).setWidth 256 <<< (64 * i))).foldl (· ||| ·) 0
    let s := { tabled 1 5 4 [(1995, w)] with tbl := { (tabled 1 5 4 [(1995, w)]).tbl with epSeed1 := 0x5A17C3E9 } }
    epFind s 5 = none ∧ (epInsert s (epEntry true false 5 4)).isNone = true ∧ ends (exec .insert s) (statusIs 2) = true := by
  decide +kernel

/-- Both candidate buckets of key 5 are full, and the bucket to which their first entry can move is not: it is displaced. -/
theorem witness_displacement :
    let full (k : Nat) : BitVec 256 :=
      ((List.range 4).map (fun i => (epEntry false false (k + i) 3).setWidth 256 <<< (64 * i))).foldl (· ||| ·) 0
    let s := tabled 1 5 4 (mset (mset [] (epHash dev 5).1 (full 100)) (epHash dev 5).2 (full 104))
    epFind s 5 = none ∧ (candSlots (epHash s 5)).all (fun q => eValid (epSlot s q)) = true ∧
    (epInsert s (epEntry true false 5 4)).isSome = true ∧
    ends (exec .insert s) (fun t => obj t 0x4800 0x0B == 1 && (epFind t 5).isSome && statusIs 0 t) = true := by decide +kernel

/-- The dictionary's command on the rule table, with its key, versions, cursor, and the version being staged. -/
def onRules (op : Nat) (key : BitVec 64) (v staging : Nat) (mem : List Host.Cell) : State :=
  let b : TblBlock := { goOp := op, goTable := 1, key := key, version := BitVec.ofNat 16 v, target := BitVec.ofNat 16 v, result := List.replicate 32 1 }
  { dev with col := { ver := { current := 3, staging := BitVec.ofNat 16 staging }, cache := [{ key := key, entries := [] }] }
             hbm := { mem := mem }, tbl := { engineQ := [16], blocks := [(16, b)] } }

/-- A memory that holds the entries given, each in its slot of copy A. -/
def rulesAt (l : List (Nat × RuleEntry)) : List Host.Cell :=
  l.foldl (fun m e => wrN m (({} : HbmSt).ruleBaseA + 64 * e.1) (ruleBytes e.2)) []

/-- An entry of key 5 from version 2 on, with its end. -/
def ruled5 (last : BitVec 16) : RuleEntry := { key := 5, first := 2, last := last, valid := true, result := List.replicate 32 0 }

/-- The slots of the first candidate bucket of key 5. -/
def slot5 : Nat := 4 * (ruleHash dev 5).1

/-- Every command on the rule table: without a version to change, with a new entry, one that ends an older, too many, and none
free; entries removed and ended; entries found by key and by cursor, and none. -/
theorem witness_rule_commands :
    (({} : HbmSt).ruleBaseA + 2 ^ 28 ≤ ({} : HbmSt).ruleBaseB ∧
      ends (exec .insert (onRules 1 5 4 0 [])) (statusIs 4) = true ∧ ends (exec .deleteEntry (onRules 2 5 3 4 [])) (statusIs 5) = true) ∧
    (ruleFind (onRules 1 5 4 4 []) 5 = [] ∧ (ruleInsert (onRules 1 5 4 4 []) { ruled5 0 with first := 4 }).isSome = true ∧
      ends (exec .insert (onRules 1 5 4 4 [])) (fun t => statusIs 0 t && (ruleSlot t (slot5 / 4, 0)).valid && t.col.cache == []) = true) ∧
    (let s := onRules 1 5 2 2 (rulesAt [(slot5, ruled5 0)])
     (ruleFind s 5).length = 1 ∧ (∃ x ∈ ruleFind s 5, x.2.first = 2) ∧ ends (exec .insert s) (statusIs 3) = true) ∧
    (let s := onRules 1 5 4 4 (rulesAt [(slot5, ruled5 0)])
     (ruleFind s 5).all (fun x => validFor x.2 4) = true ∧
      ends (exec .insert s) (fun t => statusIs 0 t && (ruleSlot t (slot5 / 4, 0)).last == 4 && (ruleSlot t (slot5 / 4, 1)).first == 4) = true) ∧
    (let s := onRules 1 5 4 4 (rulesAt ((List.range 3).map (fun i => (slot5 + i, ruled5 3))))
     (∀ x ∈ ruleFind s 5, x.2.first ≠ 4) ∧ (ruleFind s 5).length = 3 ∧ ends (exec .insert s) (statusIs 8) = true) ∧
    (let s := onRules 2 5 4 4 (rulesAt [(slot5, ruled5 0)])
     ends (exec .deleteEntry s) (fun t => statusIs 0 t && (ruleSlot t (slot5 / 4, 0)).last == 4) = true) ∧
    (let s := onRules 2 5 2 2 (rulesAt [(slot5, ruled5 0)])
     ends (exec .deleteEntry s) (fun t => statusIs 0 t && !(ruleSlot t (slot5 / 4, 0)).valid) = true) ∧
    ends (exec .deleteEntry (onRules 2 5 4 4 [])) (statusIs 1) = true ∧
    ends (exec .search (onRules 3 5 2 0 (rulesAt [(slot5, ruled5 0)])))
      (fun t => statusIs 0 t && (blockOf t 16).outEntry == 5 && (blockOf t 16).outVersions == 0x20000) = true ∧
    ends (exec .search (onRules 3 5 1 0 (rulesAt [(slot5, ruled5 0)]))) (statusIs 1) = true ∧
    ends (exec .nextSlot (onRules 4 0 0 0 (rulesAt [(slot5, ruled5 0)])))
      (fun t => statusIs 0 t && (blockOf t 16).outEntry == 5 && (blockOf t 16).cursor == slot5 + 1) = true ∧
    ends (exec .nextSlot (onRules 4 0 0 0 [])) (statusIs 9) = true ∧
    ends (exec (.flushPort []) (onRules 5 0 0 0 [])) (statusIs 7) = true ∧ ends (exec .ageSweep (onRules 6 0 0 0 [])) (statusIs 7) = true := by
  decide +kernel

/-- The dictionary's INSERT of key 5 into a rule table whose hashes agree. Both buckets that the entries of key 7 can stand in
are full with them, and one is the bucket of key 5. -/
def fullRules : State :=
  let bucket (k : BitVec 64) : Nat := (ruleHash { dev with tbl := { ruleSeed0 := 1, ruleSeed1 := 1 } } k).1
  let m := rulesAt ((List.range 4).flatMap (fun i => [(4 * bucket 5 + i, { ruled5 0 with key := 7 }), (4 * bucket 7 + i, { ruled5 0 with key := 7 })]))
  let s := onRules 1 5 4 4 m
  { s with tbl := { s.tbl with ruleSeed0 := 1, ruleSeed1 := 1 } }

/-- No chain ends in a free slot of the rule table. -/
theorem witness_rule_full : (ruleFind fullRules 5).isEmpty = true ∧ (ruleInsert fullRules { ruled5 0 with first := 4 }).isNone = true ∧
    ends (exec .insert fullRules) (fun t => statusIs 2 t && obj t 0x4801 5 == 1) = true := by decide +kernel

/-- Sweeps and comparisons in each of their cases. -/
theorem witness_shadow_and_sweep :
    (let s := { dev with tbl := { sweepNext := some 90, ep := held false } }
     ends (exec .ageSweepTimer s) (fun t => t.time.now == 90 && t.tbl.sweep == some 0) = true) ∧
    (let s := { dev with tbl := { sweep := some (epHash dev 5).1, ep := held false } }
     s.tbl.sweepCas = none ∧ ends (exec (.ageSweepBucket false) s) (fun t => t.tbl.ep == [] && obj t 0x4800 6 == 1) = true ∧
      ends (exec (.ageSweepBucket true) s) (fun t => t.tbl.sweepCas.isSome) = true) ∧
    (let s := { dev with tbl := { sweep := some 3, sweepCas := some 1 } }
     epWord s 3 ≠ 1 ∧ ends (exec (.ageSweepBucket false) s) (fun t => obj t 0x4800 7 == 1) = true ∧
      (let u := { s with tbl := { s.tbl with sweepCas := some 0 } }
       epWord u 3 = 0 ∧ goes (exec (.ageSweepBucket false) u) = true) ∧
      (let u := { s with tbl := { s.tbl with sweepCas := some 0, sweepTouched := true } }
       ends (exec (.ageSweepBucket false) u) (fun t => obj t 0x4800 7 == 1) = true)) ∧
    (Served dev 0x4800 ∧ ends (exec (.ageIntervalWrite 7) dev) (fun t => t.tbl.sweepNext == some 630000000) = true) ∧
    (Served dev 0x4820 ∧ maintTest dev 0 1 = none ∧
      ends (exec (.shadowCtlWrite 1) dev) (fun t => t.answer == .ok [] && obj t 0x8000 5 == 1) = true ∧
      ends (exec (.shadowCtlWrite 4) dev) (fun t => t.answer == .ok []) = true) ∧
    (let s := { dev with hbm := { test := some 0 } }
     Served s 0x4820 ∧ maintTest s 0 2 ≠ none ∧
      ends (exec (.shadowCtlWrite 2) s) (fun t => obj t 0x8000 4 == 1) = true) ∧
    (let s := { dev with obj := [(key 0x4820 1, 9)], tbl := { ep := held true, shadow := { diffs := [{ rule := false, bucket := (epHash dev 5).1, due := 50, ctl := 9 }] } } }
     obj s 0x4820 1 % 4 ≠ 0 ∧ goes (exec .shadowBucket s) = true ∧ shadowDiff s 9 false (epHash dev 5).1 ≠ 0 ∧
      ends (exec (.shadowRecheck false) s) (fun t => t.tbl.ep == [] && obj t 0x4820 7 == 1) = true ∧
      ends (exec (.shadowRecheck true) s) (fun t => t.tbl.ep == held true) = true ∧
      (let u := { s with col := { ver := { walk := some true } }
                         tbl := { s.tbl with shadow := { diffs := [{ rule := true, bucket := 0, due := 50, ctl := 9 }] } } }
       ends (exec (.shadowRecheck false) u) (fun t => t.obj == u.obj && t.tbl.shadow.diffs == []) = true) ∧
      (let u := { s with tbl := { s.tbl with ep := [] } }
       shadowDiff u 9 false (epHash dev 5).1 = 0 ∧ goes (exec (.shadowRecheck false) u) = true)) := by
  unfold Served; decide +kernel

/-- Staging opened and refused, discarded and refused, a version that retires and one that does not, a walk that ends,
and commits that are wrong, empty, at once and waiting. -/
theorem witness_versions :
    (Served dev 0x1021 ∧ dev.col.ver.staging = 0 ∧ dev.col.ver.discarding = 0 ∧
      ends (exec .stageOpen dev) (fun t => t.col.ver.staging == 2) = true ∧
      ends (exec .stageDiscard dev) (fun t => t.answer == .abort 6 0) = true) ∧
    (let s := { dev with col := { ver := { staging := 2 } } }
     Served s 0x1021 ∧ maintTest s 7 (obj s 0x4820 1) = none ∧
      ends (exec .stageOpen s) (fun t => t.answer == .abort 6 0) = true ∧
      ends (exec .stageDiscard s) (fun t => t.col.ver.discarding == 2 && t.col.ver.walk == some true) = true ∧
      (let u := { s with hbm := { test := some 0 } }
       Served u 0x1021 ∧ maintTest u 7 (obj u 0x4820 1) = some 0x12 ∧
        ends (exec .stageDiscard u) (fun t => t.answer == .abort 7 0x12) = true)) ∧
    (let s := { dev with col := { ver := { current := 2, draining := 1, staging := 3, waiting := some 0 } } }
     inFlightOf s 1 = 0 ∧ ends (exec .versionRetired s) (fun t => t.col.ver.current == 3 && t.col.ver.draining == 2) = true ∧
      (let u := { s with col := { ver := { s.col.ver with inFlight := [(1, 4)] } } }
       inFlightOf u 1 ≠ 0 ∧ ends (exec .versionRetired u) (fun t => t.col.ver.current == 2) = true)) ∧
    (let s := { dev with col := { ver := { walk := some true, walkQ := [false], discarding := 9 } } }
     ends (exec .reclaimWalkDone s) (fun t => t.col.ver.discarding == 0 && t.col.ver.walk == some false) = true) ∧
    (let at_ (n : Nat) (v : VerSt) : State :=
       { dev with col := { ver := v }, plan := { events := [{ ft := 0, typ := 1, gated := false, arg0 := n, arg1 := 0 }] } }
     (nextEvent (at_ 0 {}) 1).isSome = true ∧ (at_ 0 {}).time.state ≠ 1 ∧ (at_ 0 {}).time.state ≠ 4 ∧
      ends (exec .versionCommit (at_ 0 {})) (fun t => t.col.ver == {} && t.plan.next == 1) = true ∧
      ends (exec .versionCommit (at_ 9 { staging := 2 })) (fun t => t.col.ver.current == 1) = true ∧
      (maintTest (at_ 2 { staging := 2 }) 7 (obj (at_ 2 { staging := 2 }) 0x4820 1) = none ∧
        ends (exec .versionCommit (at_ 2 { staging := 2 })) (fun t => t.col.ver.current == 2 && t.col.ver.draining == 1) = true) ∧
      ends (exec .versionCommit (at_ 0 { current := 2, draining := 1, staging := 3, inFlight := [(1, 4)] })) (fun t => t.col.ver.waiting == some 0) = true ∧
      ends (exec .versionCommit (at_ 0 { current := 2, draining := 1, staging := 3, inFlight := [(1, 4)], waiting := some 0 }))
        (fun t => obj t 0x1021 0x0F == 1) = true ∧
      (let s := { at_ 0 { staging := 2 } with hbm := { test := some 0 } }
       maintTest s 7 (obj s 0x4820 1) = some 0x12 ∧
        ends (exec .versionCommit s) (fun t => t.col.ver == { staging := 2 } && obj t 0x1021 0x0B == 1) = true) ∧
      ends (exec .versionCommit (at_ 0 { current := 2, draining := 1, staging := 3 })) (fun t => t.col.ver.current == 3 && t.col.ver.draining == 2) = true) := by
  unfold Served; decide +kernel

/-- A sentence of a GNSS receiver, 1000 s, with its checksum (R344). -/
def sentence : List Byte :=
  let body : List Byte := [0x24, 0x53, 0x58, 0x54, 0x4F, 0x44, 0x2C] ++ List.replicate 8 0x30 ++ [0x31, 0x30, 0x30, 0x30, 0x2C, 0x31]
  body ++ [0x2A, BitVec.ofNat 8 (hexDigit (todSum (body ++ [0x2A]) / 16)), BitVec.ofNat 8 (hexDigit (todSum (body ++ [0x2A]) % 16)), 0x0D, 0x0A]

/-- A PTP message of domain 0 from port identity 7, with what follows its header. -/
def ptpMsg (typ seq : Nat) (rest : List Byte) : List Byte :=
  [BitVec.ofNat 8 typ, 0x12] ++ toBE 2 (34 + rest.length) ++ List.replicate 16 0 ++ toBE 10 7 ++ toBE 2 seq ++ [0, 0] ++ rest

/-- A device whose slave has one message to process. -/
def slaved (p : PtpSt) (q : List Byte) : State :=
  { linked 0 { link := 2 } with
    obj := port0 0 ++ [(key 0x6800 1, 2)]
    time := { state := 1, goodRun := 3, firstSinceLost := false, ptp := p, ptpQ := [{ lp := 0, ft := 5, bytes := q }] } }

/-- A slave that has heard the master of port identity 7 twice. -/
def heard : PtpSt := { masters := [{ id := 7, rank := 0, every := 90000000000, at_ := 0, before := some 0 }] }

/-- A device whose time has source `src` and state `tm`. -/
def timed (src : Nat) (tm : TimeSt) : State := { dev with obj := [(key 0x6800 1, src)], time := tm }

/-- Measurements of each source, a source that is lost, a holdover that ends, a source written. -/
theorem witness_time :
    (let s := timed 1 { now := 900000000, state := 4, tod := some (0, 0) }
     started s = true ∧ obj s 0x6800 1 = 1 ∧ settleTime s = s ∧
      ends (exec (.ppsEdge 2) s) (fun t => t.time.state == 1 && ft t == 0 && t.time.tod == none) = true) ∧
    (let s := { timed 1 { now := 900000000, state := 4, tod := some (1, 0) } with
                plan := { events := [{ ft := 500000000, typ := 4, gated := false, arg0 := 0, arg1 := 0 }] } }
     ft s < 500000000 ∧ ends (exec (.ppsEdge 0) s) (fun t => ft t == 1000000000 && obj t 0x6801 6 == 1 && t.plan.next == 1) = true) ∧
    (let s := timed 1 { now := 900000000, state := 4, lastMeas := some 0, tod := some (0, 0) }
     settleTime s = s) ∧
    (let s := timed 1 { now := 5, tod := some (0, 0) }
     ends (exec (.ppsEdge 0) s) (fun t => obj t 0x6800 0x0A == 1) = true) ∧
    (let s := timed 1 { now := 90000000000, tod := some (0, 0) }
     ends (exec (.todSentence sentence) s) (fun t => t.time.tod == some (1000, 90000000000) && obj t 0x6800 0x0A == 1) = true ∧
      ends (exec (.todSentence []) s) (fun t => t.time.tod == none && obj t 0x6800 0x0A == 2) = true) ∧
    (todValid sentence = some 1000 ∧
      ends (exec (.todSentence sentence) (timed 1 {})) (fun t => t.time.tod == some (1000, 0)) = true ∧
      todValid [] = none ∧ ends (exec (.todSentence []) (timed 1 {})) (fun t => obj t 0x6800 0x0A == 1) = true) ∧
    (let s := timed 1 { state := 2, lastMeas := some 0 }
     ends (exec .timeSourceLost s) (fun t => t.time.state == 3 && t.time.now == 135000000000) = true) ∧
    ends (exec .timeSourceLost (timed 2 { state := 1 })) (fun t => t.time.state == 4) = true ∧
    (let s := slaved {} []
     ptpHears s { lp := 0, ft := 5, bytes := [] } = false ∧ ends (exec (.ptpMessage 0) s) (fun t => t.time.ptpQ == []) = true) ∧
    (let q : PtpFrame := { lp := 0, ft := 5, bytes := ptpMsg 11 1 (List.replicate 12 0 ++ [0, 128] ++ List.replicate 16 0) }
     ptpHears (slaved {} q.bytes) q = true ∧ ptpType q = 11 ∧ beAt q.bytes 61 2 = 0 ∧
      ends (exec (.ptpMessage 0) (slaved {} q.bytes)) (fun t => t.time.ptp.masters.length == 1) = true) ∧
    (let q : PtpFrame := { lp := 0, ft := 5, bytes := ptpMsg 0 1 (List.replicate 10 0) }
     ptpHears (slaved {} q.bytes) q = true ∧ fromParent (slaved {} q.bytes) q = false ∧ fromParent (slaved heard q.bytes) q = true ∧
      active (slaved heard q.bytes) 0 = true ∧
      ends (exec (.ptpMessage 7) (slaved heard q.bytes)) (fun t => t.out.length == 1 &&
        t.time.ptp.ask == some { seq := 0, t3 := 7, way := 327680 }) = true) ∧
    (let a : PtpAsk := { seq := 3, t3 := 0, way := 655360 }
     let q : PtpFrame := { lp := 0, ft := 5, bytes := ptpMsg 9 3 (List.replicate 9 0 ++ [2] ++ toBE 10 (ptpSelf (slaved {} []) 0)) }
     let s := slaved { heard with ask := some a } q.bytes
     ptpHears s q = true ∧ fromParent s q = true ∧ ptpAnswers s a q = true ∧ settleTime s = s ∧ s.plan.events = [] ∧
      ends (exec (.ptpMessage 0) s) (fun t => t.time.state == 2 && t.time.slewLeft == -360) = true) ∧
    ptpLossDue (slaved heard []) = some 270000000000 ∧
    ends (exec .holdoverExpiry (timed 1 { state := 3, holdoverAt := some 0 })) (fun t => t.time.state == 4) = true ∧
    (Served dev 0x6800 ∧ ends (exec (.timeSourceWrite 2) dev) (fun t => t.time.state == 4 && obj t 0x6800 1 == 2) = true ∧
      ends (exec (.timeSourceWrite 3) dev) (fun t => t.answer == .abort 5 0) = true) := by
  unfold Served; decide +kernel

/-- A device whose Itinerary holds one event, due. -/
def itinerary (typ : Nat) (gated : Bool) (a0 a1 st : Nat) : State :=
  { dev with plan := { events := [{ ft := 0, typ := typ, gated := gated, arg0 := a0, arg1 := a1 }] }, time := { state := st }
             clusters := [(0, { slots := [(3, { state := .wait, counter := 2 })] })] }

/-- A plan of one section, as a closed image (R352). -/
def planned (bytes : List Byte) : State :=
  { dev with dict := { images := [(key 0x6810 1, { closed := true, data := wrN [] 0 bytes, len := bytes.length })] } }

/-- A plan that sets CoalesceWindow to 100. -/
def aPlan : List Byte :=
  let bs : List Byte := toLE 4 0x4C504B53 ++ toLE 2 1 ++ toLE 2 1 ++ toLE 4 80 ++ toLE 4 0 ++ toLE 4 7 ++ List.replicate 44 0 ++
    toLE 2 4 ++ toLE 2 0 ++ toLE 4 8 ++ toLE 2 100 ++ List.replicate 6 0
  splice bs 12 (toLE 4 (crc32c bs))

/-- A plan whose Itinerary has one mark at FT 1000. -/
def anItinerary : List Byte :=
  let bs : List Byte := toLE 4 0x4C504B53 ++ toLE 2 1 ++ toLE 2 1 ++ toLE 4 104 ++ toLE 4 0 ++ toLE 4 8 ++ List.replicate 44 0 ++
    toLE 2 7 ++ toLE 2 0 ++ toLE 4 32 ++ toLE 8 1000 ++ [4] ++ List.replicate 23 0
  splice bs 12 (toLE 4 (crc32c bs))

/-- Events of each type, due, refused and skipped; plans that are withheld, missing, wrong and applied. -/
theorem witness_itinerary :
    (skipped (itinerary 4 true 0 0 1) { ft := 0, typ := 4, gated := true, arg0 := 0, arg1 := 0 } = true ∧
      ends (exec .markEvent (itinerary 4 true 0 0 1)) (fun t => obj t 0x6801 4 == 1) = true) ∧
    ((rowOf dev.sys 0x4000 1).isOk = true ∧ ends (exec .dictWrite (itinerary 2 false 0x400001 100 0)) (fun t => obj t 0x4000 1 == 100) = true ∧
      ends (exec .dictWrite (itinerary 2 false 0x400001 5000 0)) (fun t => obj t 0x6801 5 == 1) = true) ∧
    (ends (exec .taskSignal (itinerary 3 false 3 1 0)) (fun t => (slot t 0 3).counter == 1) = true ∧
      ends (exec .taskSignal (itinerary 3 false 3 2 0)) (fun t => (slot t 0 3).state == .ready) = true ∧
      ends (exec .taskSignal (itinerary 3 false 4 2 0)) (fun t => obj t 0x4050 0x0D == 1) = true ∧
      (let s := { itinerary 3 false 0x80003 1 0 with sys := { dev.sys with skx9624 := true } }
       clusters s ≤ 8 ∧ ends (exec .taskSignal s) (fun t => obj t 0x6801 5 == 1) = true) ∧
      (let s := { itinerary 3 false 3 2 0 with
         clusters := [(0, { slots := [(3, { state := .ready, counter := 2, reason := 1, timedOut := some 0 })] })] }
       ends (exec .taskSignal s) (fun t => (slot t 0 3).reason == 0 && (slot t 0 3).timedOut == none) = true)) ∧
    ends (exec .markEvent (itinerary 4 false 0 0 0)) (fun t => obj t 0x6801 3 == 1) = true ∧
    (let s := { dev with pwr := { state := 2, off := true } }
     canUp s = true ∧ withheld s 0x6810 = some 1 ∧ ends (exec .planApply s) (fun t => t.answer == .abort 0x0D 1) = true) ∧
    (withheld dev 0x6810 = none ∧ closedImage dev (key 0x6810 1) = none ∧ obj dev 0x6810 3 ≠ 0xFF ∧
      ends (exec .planApply dev) (fun t => t.answer == .abort 6 0) = true) ∧
    ends (exec .planApply (planned [])) (fun t => obj t 0x6810 3 == 1 && obj t 0x6810 4 == 0) = true ∧
    ends (exec .planApply (planned aPlan)) (fun t => obj t 0x6810 3 == 0 && obj t 0x4000 1 == 100 && obj t 0x6810 5 == 7) = true ∧
    ends (exec .planApply (planned anItinerary)) (fun t => t.plan.events.length == 1 && t.plan.next == 0) = true := by
  decide +kernel

/-! ### Translation, scans, egress and HBM -/

/-- The map command block: operation, granule, entry. -/
def mapping (op g lo hi : Nat) : State :=
  { dev with xlat := { mapPending := true }, obj := [(key 0x4830 1, op), (key 0x4830 2, g), (key 0x4830 3, lo), (key 0x4830 4, hi)] }

/-- A device with key material, two keys of 32 B. -/
def keyed (k1 k2 : Byte) : State :=
  { dev with dict := { images := [(key 0x6080 2, { closed := true, len := 64
                                                   data := wrN [] 0 (List.replicate 32 k1 ++ List.replicate 32 k2) })] } }

/-- Map commands in and out of range and on a marked line, the home table, the system port, and keys. -/
theorem witness_map :
    ends (exec .mapWrite (mapping 0 134217728 1 2)) (fun t => obj t 0x4830 6 == 1) = true ∧
    ends (exec .mapWrite (mapping 0 4 1 2)) (fun t => hbmByte t 64 == 1 && hbmByte t (0x1200000000 + 72) == 2 && obj t 0x4830 6 == 0) = true ∧
    ends (exec .mapRead (mapping 1 134217728 0 0)) (fun t => obj t 0x4830 6 == 1) = true ∧
    (let s := { mapping 1 4 0 0 with hbm := { rebuild := some 0, mem := [(0x1200000040, 9)] } }
     absent s = false ∧ pairOut s 0 = true ∧ ends (exec .mapRead s) (fun t => obj t 0x4830 3 == 9) = true) ∧
    (let s := { mapping 1 4 0 0 with hbm := { media := [1] } }
     mediaIn s 64 16 = true ∧ ends (exec .mapRead s) (fun t => obj t 0x4830 6 == 2) = true) ∧
    (mediaIn (mapping 1 4 0 0) 64 16 = false ∧ ends (exec .mapRead (mapping 1 4 7 7)) (fun t => obj t 0x4830 6 == 0 && obj t 0x4830 3 == 0) = true) ∧
    (let s := { dev with xlat := { homeUpd := [(0, 1, 900000)] } }
     (0, 1, 900000) ∈ s.xlat.homeUpd ∧ runsPass s 0 = true ∧ (cluster s 0).sysQ = [] ∧ (cluster s 0).portA = none ∧
      ends (exec (.homeTableUpdate 0 1) s) (fun t => scratchByte t 0 0x2000B == 0x80 && t.xlat.homeUpd == []) = true) ∧
    (let s := { having {} with clusters := [(0, { sysQ := [{ addr := 0x40, data := [1, 2], notify := some 5 }] })] }
     ends (exec (.systemPortRetry 0) s) (fun t => scratchByte t 0 0x41 == 2 && (rope t 5).pending == 0x800000000000000) = true) ∧
    (let s := { dev with clusters := [(0, { sysQ := [{ addr := 0x40, data := [1] }], doze := true })] }
     (cluster s 0).doze = true ∧ ends (exec (.systemPortRetry 0) s) (fun t => t == s) = true) ∧
    (let s := { dev with clusters := [(0, { sysQ := [{ addr := 0x40, data := [1] }], portA := some (8, 8, 1) })] }
     collides (advanceTo s (cycStart s 1)) 0 { addr := 0x40, data := [1] } = true ∧
      ends (exec (.systemPortRetry 0) s) (fun t => obj t 0x4030 9 == 1 && (cluster t 0).sysQ.length == 1) = true) ∧
    (Served dev 0x6080 ∧ absent dev = false ∧ goes (exec .keyErase dev) = true ∧ closedImage dev (key 0x6080 2) = none ∧
      ends (exec .keyLoad dev) (fun t => t.answer == .abort 6 0) = true) ∧
    (Served (keyed 1 2) 0x6080 ∧ ends (exec .keyLoad (keyed 1 2)) (fun t => (mfind t.xlat.keys 0).isSome && obj t 0x6080 5 == 0) = true) ∧
    (Served (keyed 1 1) 0x6080 ∧ ends (exec .keyLoad (keyed 1 1)) (fun t => (mfind t.xlat.keys 0).isNone && obj t 0x6080 5 == 1) = true) := by
  unfold Served; decide +kernel

/-- A program over rows of 8 B that every row matches (R262, R263). -/
def aProg (result : Byte) : List Byte :=
  splice (splice (List.replicate 4096 0) 0 ([8, 0, 1, 1, 0, 0, result] ++ List.replicate 57 0 ++ [0, 0, 3, 0])) 0xC0 [9]

/-- A scan of tenant 1 with one segment of 64 B at port 4 left. -/
def aScan : Scan :=
  { hdr := { tid := 1, typ := 2 }, hostLp := 0, count := 2, prog := aProg 0, base := 0, arrived := [0], firstAt := 0
    segs := [{ num := 0, lp := 4, taddr := 0, gaddr := 0, row := 0, len := 64, left := 64 }] }

def scanning (x : ScreeSt) : State := { dev with scree := x }

/-- A segment of 64 B of tenant 1. -/
def aSegment : Segment := { hdr := { tid := 1, typ := 2 }, lp := 4, hostLp := 0, len := 64, base := 0, row := 0, num := 1, count := 2 }

/-- Segments that open a scan, join one and are refused; a scan short of segments; RDs held and issued; rows evaluated. -/
theorem witness_scans :
    (let s := scanning { waiting := [aSegment], progs := [(16, aProg 0)] }
     absent s = false ∧ segWaits s aSegment = false ∧ segRefused s aSegment = none ∧ (scanOf s aSegment.hdr).isNone = true ∧
      ends (exec .scanSegmentAccept s) (fun t => (mfind t.scree.scans 0).isSome && inFlightOf t 0 == 1) = true) ∧
    (let s := scanning { waiting := [aSegment], scans := [(0, aScan)], nextScan := 1 }
     segWaits s aSegment = false ∧ segRefused s aSegment = none ∧ (scanOf s aSegment.hdr).isSome = true ∧
      ends (exec .scanSegmentAccept s) (fun t => (mfind t.scree.scans 0).all (fun c => c.arrived == [0, 1])) = true) ∧
    (let s := { scanning { waiting := [aSegment], progs := [(16, aProg 0)] } with hbm := { media := [0x80010000 / 64] } }
     segRefused s aSegment = none ∧ mediaIn s (progAddr s 1 0) 4096 = true ∧
      ends (exec .scanSegmentAccept s) (fun t => (mfind t.scree.scans 0).isNone && obj t 0x6000 9 == 1) = true) ∧
    (let s := scanning { waiting := [aSegment] }
     segWaits s aSegment = false ∧ segRefused s aSegment = some (9, 0) ∧
      ends (exec .scanSegmentAccept s) (fun t => obj t 0x6000 0x0E == 1) = true) ∧
    (aScan.arrived.length < aScan.count ∧
      ends (exec (.segmentWaitExpiry 0) (scanning { scans := [(0, aScan)] })) (fun t => t.scree.scans == [] && obj t 0x6000 9 == 1) = true ∧
      ends (exec (.segmentWaitExpiry 0) (scanning { scans := [(0, { aScan with outstanding := 1 })] }))
        (fun t => t.scree.scans.all (fun e => e.2.stopped == some (11, 1))) = true) ∧
    (let s := scanning { scans := [(0, aScan)], window := [(1, 2 ^ 40)] }
     ten s 1 0x61 < mget s.scree.window 1 0 ∧ ends (exec (.scanRdIssue 1) s) (fun t => ten t 1 0x64 == 1 && t.scree.stalled == [1] &&
       ends (exec (.scanRdIssue 1) t) (fun u => ten u 1 0x64 == 1)) = true) ∧
    (let s := scanning { scans := [(0, aScan)] }
     ten s 1 0x50 = 0 ∧ (port s 4).partner ≠ 2 ∧
      ends (exec (.scanRdIssue 1) s) (fun t => mget t.scree.window 1 0 == 64 && t.scree.scans.all (fun e => e.2.outstanding == 1)) = true) ∧
    (let x : ScreeRsp := { scan := 0, tid := 1, row := 0, data := List.replicate 16 0, bytes := 0 }
     let s := scanning { scans := [(0, { aScan with outstanding := 1 })], rspQ := [x] }
     engineUp s 3 = true ∧ nextRsp s = some x ∧
      ends (exec (.screeRspEvaluate 3 0) s) (fun t => obj t 0x6000 0x0A == 2 && t.scree.rspQ == []) = true ∧
      retryEngine s 3 = some 0 ∧ ends (exec (.screeRspEvaluate 3 1) s)
        (fun t => (mfind t.scree.busy 0).isSome && obj t 0x6000 0x0C == 1 && t.scree.removed == []) = true ∧
      ends (exec (.screeRspEvaluate 3 2) s) (fun t => t.scree.removed == [3]) = true) ∧
    (let s := scanning { scans := [(0, aScan)], rowFrames := [{ engine := 3, scan := 0, rows := [(0, [1, 2, 3, 4, 5, 6, 7, 8])], firstAt := 0 }] }
     ends (exec (.rowFlushExpiry 3 0) s) (fun t => t.scree.rowFrames == []) = true) := by decide +kernel

/-- A device with a program image. -/
def programmed (result : Byte) : State :=
  { dev with obj := [(key 0x6010 1, 1)]
             dict := { images := [(key 0x6010 3, {
               closed := true, len := 4096
               data := (if result = 0 then [] else [(6, result)]).foldl (fun m e => wr8 m e.1 e.2) [(0, 8), (2, 1), (3, 1), (0x42, 3), (0xC0, 9)] })] } }

/-- An engine test that starts, is refused, passes and fails; images missing, wrong and right; a load held and done. -/
theorem witness_engines :
    (Served dev 0x6001 ∧ 1 ∈ enginesUp dev ∧ obj dev 0x6001 1 = 0 ∧ maintTest dev 5 (obj dev 0x4820 1) = none ∧
      ends (exec .screeTestGo dev) (fun t => t.scree.testing == some 0) = true) ∧
    (let s := scanning { testing := some 0 }
     Served s 0x6001 ∧ serviceState s = 1 ∧ ends (exec .screeTestGo s) (fun t => t.answer == .abort 6 0) = true ∧
      ends (exec (.screeTestDone true) s) (fun t => t.scree.removed == []) = true ∧
      ends (exec (.screeTestDone false) s) (fun t => t.scree.removed == [0]) = true) ∧
    (let s := scanning { removed := (List.range 32).tail }
     Served s 0x6001 ∧ enginesUp s = [0] ∧ obj s 0x6001 1 = 0 ∧
      ends (exec .screeTestGo s) (fun t => t.answer == .abort 6 0 && obj t 0x6001 3 == 2) = true) ∧
    (let s := { dev with sys := { dev.sys with svcOut := true } }
     Served s 0x6001 ∧ serviceState s ≠ 1 ∧ ends (exec .screeTestGo s) (fun t => t.answer == .abort 7 2) = true ∧
      maintTest s 4 (obj s 0x4820 1) = some 2 ∧ ends (exec .progUnload s) (fun t => t.answer == .abort 7 2 && obj t 0x6010 6 == 2) = true) ∧
    (Served dev 0x6010 ∧ closedImage dev (key 0x6010 3) = none ∧ maintTest dev 4 (obj dev 0x4820 1) = none ∧
      ends (exec .progLoad dev) (fun t => t.answer == .abort 6 0) = true ∧
      ends (exec .progUnload dev) (fun t => t.scree.pendingLoad == some (0, 0, none)) = true) ∧
    (let s := scanning { pendingLoad := some (1, 0, some (aProg 0)) }
     ends (exec .progTakesEffect s) (fun t => (mfind t.scree.progs 16).isSome && t.scree.pendingLoad.isNone) = true ∧
      (let u := scanning { pendingLoad := some (1, 0, none), scans := [(0, aScan)] }
       ends (exec .progTakesEffect u) (fun t => t.scree.pendingLoad.isSome) = true)) := by
  unfold Served; decide +kernel

/-- An image with a wrong RESULT, and a right one. -/
theorem witness_programs :
    (Served (programmed 1) 0x6010 ∧ progError (aProg 1) = some 6 ∧
      ends (exec .progLoad (programmed 1)) (fun t => obj t 0x6010 6 == 1 && obj t 0x6010 7 == 6) = true) ∧
    (Served (programmed 0) 0x6010 ∧ progError (aProg 0) = none ∧ maintTest (programmed 0) 4 (obj (programmed 0) 0x4820 1) = none ∧
      ends (exec .progLoad (programmed 0)) (fun t => t.scree.pendingLoad.isSome) = true) := by
  unfold Served; decide +kernel

/-- A frame in transit, for port 0 in class 3. -/
def anOutput (orig : Bool) : Output := { hdr := { typ := 9, cls := 3, dst := 9, tid := 1 }, lp := 0, orig := orig, counted := true }

/-- Port 0 up, with one output queued. -/
def queued (o : Output) : State :=
  { linked 0 { link := 2 } with tm := { queues := [{ lp := 0, cls := 3, tid := 1, spread := 0, outs := [o] }] } }

/-- A due PULSE, heads of both kinds, a calendar entry, a staged cell, a spilled output and a retained one. -/
theorem witness_outputs :
    (let s := { queued (anOutput false) with ports := [(0, { link := 2, nextPulse := some 0 })] }
     active s 0 = true ∧ pulseDue s 0 = true ∧ ends (exec (.outputTransmit 0) s) (fun t => t.out.length == 1 && t.tm.queues.length == 1) = true) ∧
    (let s := queued (anOutput false)
     active s 0 = true ∧ pulseDue s 0 = false ∧ (pairNoFree s 0).isSome = true ∧ (s.tm.queues.all (fun y => !shaperHolds s 0 y.tid)) = true ∧
      (chooseQueue s 0).map (·.2.outs) = some [anOutput false] ∧ (anOutput false).pair = none ∧ (anOutput false).req = none ∧
      ends (exec (.outputTransmit 0) s) (fun t => t.out.length == 1 && t.tm.queues == []) = true) ∧
    (let s := queued (anOutput true)
     (chooseQueue s 0).map (·.2.outs) = some [anOutput true] ∧ numbered (anOutput true) = true ∧ numbered (anOutput false) = false ∧ s.xport.parked = [] ∧
      ends (exec (.outputTransmit 0) s) (fun t => t.out.length == 1 && (txAt t 9).all (fun c => c.next == 1)) = true) ∧
    (let e : CalEntry := { offset := 0, tid := 1, rate := 7, burst := 8 }
     let s := { dev with tm := { calendar := [e] }, obj := [(key 0x5821 1, 1000000), (key 0x5821 2, 1)] }
     started s = true ∧ obj s 0x5821 2 ≠ 0 ∧ calDue s = some (0, e) ∧ 0 ≤ ft s ∧
      shapeWritten { s with tm := { s.tm with shapeWr := [(2, 0)] } } 1 0 = true ∧ shapeWritten s 1 0 = false ∧
      ends (exec .calendarEntry s) (fun t => shapeOf t 1 == shapeOf s 1 && ten t 1 0x11 == 7 && ten t 1 0x12 == 8) = true) ∧
    (let s := { dev with trav := { stage := [(2, [0, 5])], lastBank := 3 }, frames := [(0, { bytes := [] })] }
     mget s.trav.stage 2 [] = [0, 5] ∧ pickCell s = some 49152 ∧ (mfind s.frames 0).isSome = true ∧
      ends (exec (.cellWriteStage 2) s) (fun t => t.trav.lastBank == 4 && mget t.trav.stage 2 [] == [5] &&
        (mfind t.frames 0).all (fun x => x.cells == [49152])) = true) ∧
    (let n := queueNo 0 3 1 0
     let e : Spill := { queue := n, out := anOutput false, pool := 0, buf := 0, bytes := 64 }
     let q : Queue := { lp := 0, cls := 3, tid := 1, spread := 0, spillMode := true }
     let s := { dev with trav := { spilled := [e] }, tm := { queues := [q] } }
     queueOf s 0 3 (queueTid e.out) (n % 4) = some q ∧ bufferMedia s (e.pool, e.buf) e.bytes = false ∧ bufferWaits s (e.pool, e.buf) e.bytes = false ∧
      queuedCells q * 128 < cellsAtStart s * 2 ^ ten s 1 0x70 ∧
      (pickHead s false).isSome = true ∧ outLen e.out ≤ 192 ∧
      ends (exec (.spillReadback n) s) (fun t => t.trav.spilled == [] && t.tm.queues.all (fun q => q.outs.length == 1)) = true) ∧
    (let x : Sent := { psn := 0, out := { anOutput true with cells := [1, 2] } }
     let s := { dev with xport := { tx := [(9, { sent := [x] })] }, obj := [(key 0x5800 4, 0)] }
     obj s 0x5800 4 < retainedCells s ∧ oldestRetained s = some x.out ∧ (pitonAlloc s (outLen x.out)).2.isSome = true ∧
      ends (exec .retainMove s) (fun t => obj t 0x5800 9 == 1) = true) ∧
    (let x : Parked := { out := { anOutput true with head := 5, cells := [1, 2] }, due := 9 }
     let s := { dev with xport := { parked := [x] }, obj := [(key 0x5800 4, 0)] }
     obj s 0x5800 4 < retainedCells s ∧ oldestRetained s = some x.out ∧
      ends (exec .retainMove s) (fun t => obj t 0x5800 9 == 1 && t.xport.parked.all (fun y => y.buf.isSome)) = true) := by decide +kernel

/-- A stack that serves, with the open row given and the activations of row 0. -/
def stacked (row : Option Nat) (n : Nat) : State :=
  { dev with hbm := { stk := [(0, { state := 2 })]
                      pch := [(0, { openRow := (row.map (fun r => (0, r))).toList, tracker := [{ row := 0, cls := 0, n := n }] })] } }

/-- Reads of an open and of a closed row, at ActLimit and below; refreshes; the sweep's start, end and refusals. -/
theorem witness_hbm_reads :
    (let s := stacked (some 0) 0
     hbmPlace s 0 = (0, 0, 0) ∧ 0 < hbmSize s.sys ∧ stackServes s 0 = true ∧ 0 / 64 ∉ s.hbm.media ∧ mfind (pchOf s 0).openRow 0 = some 0 ∧
      ends (exec (.hbmReadDone 0 .core .good) s) (fun t => obj t 0x5010 6 == 64) = true ∧
      ends (exec (.hbmReadDone 0 .core .transient) s) (fun t => obj t 0x5000 0x0E == 1) = true ∧
      ends (exec (.hbmReadDone 0 .core .corrected) s) (fun t => obj t 0x5000 0x0D == 1) = true ∧
      ends (exec (.hbmReadDone 0 .core .lasting) s) (fun t => (stackOf t 0).retired == [(0, 0, 0)] && t.hbm.media == [0]) = true) ∧
    (let s := stacked none 0
     mfind (pchOf s 0).openRow 0 ≠ some 0 ∧ counting s 0 = false ∧ actOf (pchOf s 0).tracker 0 (reqNo .core) < obj s 0x5000 0x0B ∧
      ends (exec (.hbmReadDone 0 .core .good) s) (fun t => mfind (pchOf t 0).openRow 0 == some 0) = true) ∧
    (let s := stacked none 100000
     obj s 0x5000 0x0B ≤ actOf (pchOf s 0).tracker 0 (reqNo .core) ∧
      ends (exec (.hbmReadDone 0 .core .good) s) (fun t => (pchOf t 0).deferred.length == 1) = true) ∧
    (let s (n : Nat) : State := { stacked none 0 with hbm := { (stacked none 0).hbm with sweepEnd := some 90, chan := [(0, [{ row := 0, cls := 0, n := n }])] } }
     counting (s 0) 0 = true ∧ actOf (countAct 1024 (mget (s 0).hbm.chan 0 []) 0 0) 0 0 ≤ obj (s 0) 0x5000 0x0C ∧
      ends (exec (.hbmReadDone 0 .core .good) (s 0)) (fun t => obj t 0x5000 0x11 == 0) = true ∧
      obj (s 100000) 0x5000 0x0C < actOf (countAct 1024 (mget (s 100000).hbm.chan 0 []) 0 0) 0 0 ∧
      ends (exec (.hbmReadDone 0 .core .good) (s 100000)) (fun t => obj t 0x5000 0x11 == 2) = true) ∧
    (rowsDone (stacked (some 0) 0) 0 47 = 0 ∧
      ends (exec (.hbmRefresh 0 47) (stacked (some 0) 0)) (fun t => mget (pchOf t 0).refresh 47 0 == 8) = true) ∧
    (let s (e : Option Nat) : State := { dev with hbm := { stk := [(0, { state := 2 })], pch := [(0, { refresh := [(47, 24576)] })], sweepEnd := e } }
     rowsDone (s none) 0 47 = 24576 ∧ ends (exec (.hbmRefresh 0 47) (s none)) (fun t => mget (pchOf t 0).busy 47 0 == 0) = true ∧
      ends (exec (.hbmRefresh 0 47) (s (some 90))) (fun t => mget (pchOf t 0).extra 47 0 == 8) = true) ∧
    (((List.range 32).all (fun i => (pchOf (stacked (some 0) 9) i).deferred == [])) = true ∧
      ends (exec (.refreshWindowStart 0) (stacked (some 0) 9)) (fun t => (pchOf t 0).tracker == [] && t.time.now == 2880000000) = true) ∧
    (Served dev 0x5021 ∧ dev.hbm.sweepEnd = none ∧ maintTest dev 3 (obj dev 0x4820 1) = none ∧
      ends (exec .nrsGo dev) (fun t => t.hbm.sweepEnd.isSome) = true) ∧
    (let s := { dev with hbm := { test := some 0 } }
     Served s 0x5021 ∧ maintTest s 3 (obj s 0x4820 1) = some 0x12 ∧ ends (exec .nrsGo s) (fun t => t.answer == .abort 7 0x12) = true) ∧
    (let s := { dev with hbm := { sweepEnd := some 90 } }
     Served s 0x5021 ∧ maintRuns s 3 = true ∧ ends (exec .nrsGo s) (fun t => t.answer == .abort 6 0) = true ∧
      (let u := { s with time := { now := 90 } }
       maintRuns u 3 = false ∧ maintTest u 3 (obj u 0x4820 1) = none ∧
        ends (exec .nrsGo u) (fun t => t.hbm.sweepEnd == some 2880000090 && obj t 0x5021 3 == 1) = true) ∧
      ends (exec .nrsSweepEnd s) (fun t => obj t 0x5021 3 == 1 && t.time.now == 90) = true) := by
  unfold Served; decide +kernel

/-- Stacks 0 to 3 in the states given. -/
def stacksIn (a b c d : Nat) : Map Stack := [(0, { state := a }), (1, { state := b }), (2, { state := c }), (3, { state := d })]

/-- The stacks of an SKX-9624 on their way into self-refresh or out of it. -/
def drowsy (p : PwrSt) (a b : Stack) : State :=
  { dev with sys := { dev.sys with skx9624 := true }, pwr := p, hbm := { stk := [(0, a), (1, b)], mem := [(0x1000000, 5)] } }

/-- The first stack asked and the last one, a request before and after the save, and wakes on the way; exits of one of two and
of the last. -/
theorem witness_self_refresh :
    (let s := drowsy { state := 1 } { state := 2, pendingSr := true } { state := 2, pendingSr := true }
     started s = true ∧ (stackOf s 0).pendingSr = true ∧ s.pwr.off = false ∧
      (∀ c, c < 8 → obj s (0x4050 + c) 2 % 2 = 0 ∧ (cluster s c).traceBuf = []) ∧
      ends (exec (.selfRefreshEntry 0 true) s) (fun t => t.pwr.state == 0 && !(stackOf t 1).pendingSr && obj t 0x5000 0x12 == 1) = true ∧
      ends (exec (.selfRefreshEntry 0 false) s) (fun t => (stackOf t 0).state == 4 && t.pwr.off && t.pwr.state == 1 && t.hbm.save.isSome) = true) ∧
    (let s (w : Option Nat) : State := drowsy { state := 1, off := true, wakeSrc := w } { state := 4 } { state := 2, pendingSr := true }
     ends (exec (.selfRefreshEntry 1 true) (s none)) (fun t => t == s none) = true ∧
      ends (exec (.selfRefreshEntry 1 false) (s none)) (fun t => t.pwr.state == 2 && t.hbm.mem == [(0x1000000, 5)]) = true ∧
      ends (exec (.selfRefreshEntry 1 false) (s (some 2))) (fun t => t.pwr.state == 3 && t.sys.wakeOut) = true) ∧
    (let s (n : Nat) : State := drowsy { state := 3, off := true } { state := 4 } { state := n }
     ends (exec (.selfRefreshExit 0) (s 4)) (fun t => (stackOf t 0).state == 2 && t.pwr.state == 3) = true ∧
      ends (exec (.selfRefreshExit 0) (s 2)) (fun t => t.pwr.state == 0 && !t.pwr.off) = true) := by decide +kernel

/-- Tests refused, started and done, a rebuild, and training. -/
theorem witness_hbm_states :
    (let s := { dev with sys := { dev.sys with svcOut := true } }
     Served s 0x5020 ∧ serviceState s ≠ 1 ∧
      ends (exec .hbmTestGo s) (fun t => t.answer == .abort 7 2 && obj t 0x5020 3 == 3) = true) ∧
    (let s := { dev with hbm := { stk := stacksIn 2 2 2 5 } }
     Served s 0x5020 ∧ absent s = false ∧ obj s 0x5020 1 = 0 ∧ (stackOf s 3).state ≠ 2 ∧
      ends (exec .hbmTestGo s) (fun t => t.answer == .abort 6 0) = true) ∧
    (let s := { dev with hbm := { stk := stacksIn 2 2 2 2 } }
     Served s 0x5020 ∧ maintTest s 2 (obj s 0x4820 1) = none ∧ ends (exec .hbmTestGo s) (fun t => (stackOf t 0).state == 3) = true) ∧
    (let s := { dev with hbm := { stk := stacksIn 3 2 2 2, test := some 0 } }
     ends (exec (.hbmTestDone [⟨0, 0, 0, true⟩]) s) (fun t => (stackOf t 0).state == 6 && obj t 0x5020 3 == 1 &&
       t.time.now == 106168320000) = true ∧
      (let full : Stack := { state := 3, retired := (List.range 16).map (fun r => (0, 0, r)) }
       let s := { s with hbm := { s.hbm with stk := mset s.hbm.stk 0 full } }
       retires s 0 0 16 = false ∧
        ends (exec (.hbmTestDone [⟨0, 0, 16, true⟩]) s) (fun t => obj t 0x5020 3 == 0 && obj t 0x5020 4 == 1 && t.hbm.media.length == 16) = true)) ∧
    (let s := { dev with hbm := { stk := stacksIn 6 2 2 2, rebuild := some 0, mem := [(0x1200000040, 7)] } }
     cellsWf s.hbm.mem = true ∧ s.hbm.mapBaseA = 0 ∧ s.hbm.ruleBaseB = 0x12C0000000 ∧
      ends (exec .rebuildDone s) (fun t => (stackOf t 0).state == 2 && hbmByte t 64 == 7) = true) ∧
    (let s := { dev with sys := { phase := .starting }, hbm := { mem := [(0, 5)] } }
     ends (exec (.hbmTrainingDone 0 true) s) (fun t => hbmByte t 0 == 0) = true) ∧
    (let s := { dev with sys := { phase := .starting } }
     started s = true ∧ 3 < nStacks s.sys ∧ (stackOf s 3).state = 1 ∧
      ends (exec (.hbmTrainingDone 3 true) s) (fun t => (stackOf t 3).state == 2) = true ∧
      ends (exec (.hbmTrainingDone 3 false) s) (fun t => (stackOf t 3).tried && (stackOf t 3).state == 1) = true) := by
  unfold Served; decide +kernel

/-! ### The dictionary -/

/-- A request from node 2 to this device. -/
def asks (data : List Byte) : CanReq := { pri := 1, dst := 1, src := 2, seq := 5, data := data }

/-- The row of an object on a path has a property. -/
def rowHas (s : State) (p : Path) (idx sub : Nat) (f : Row → Bool) : Bool :=
  match objectFor s p idx sub with
  | .ok r => f r
  | .error _ => false

/-- A number of width `n` with the access given. -/
def numberOf (n : Nat) (a : Acc) (r : Row) : Bool :=
  r.acc == a && r.ty.width == n && (match r.ty with | .domain _ => false | .vstr => false | _ => true)

/-- The abort of an object on a path. -/
def rowFails (s : State) (p : Path) (idx sub code : Nat) : Bool :=
  match objectFor s p idx sub with
  | .ok _ => false
  | .error e => e == (code, 0)

/-- The last answer of the server. -/
def answers (a : Answer) (t : State) : Bool := t.answer == a

/-- Writes of an object that is not there, read only, too long, out of range and right; requests that are read, written,
refused, repeated and meant for others; stores. -/
theorem witness_dictionary :
    (canUp State.reset = false ∧ goes (exec (.objectWrite 0x1011 1 []) State.reset) = true) ∧
    (canUp dev = true ∧ rowFails dev .can 0x0002 1 1 = true ∧ ends (exec (.objectWrite 0x0002 1 []) dev) (answers (.abort 1 0)) = true) ∧
    (rowHas dev .can 0x0001 6 (numberOf 1 .ro) = true ∧ ends (exec (.objectWrite 0x0001 6 [1]) dev) (answers (.abort 3 0)) = true) ∧
    (Plain 0x1011 ∧ rowHas dev .can 0x1011 1 (numberOf 4 .rws) = true ∧ rowHas dev .can 0x1011 1 (fun r => allowed r 100000) = true ∧
      rowHas dev .can 0x1011 1 (fun r => !allowed r 9999) = true ∧
      ends (exec (.objectWrite 0x1011 1 [1]) dev) (answers (.abort 4 0)) = true ∧
      ends (exec (.objectWrite 0x1011 1 (toLE 4 9999)) dev) (answers (.abort 5 0)) = true ∧
      ends (exec (.objectWrite 0x1011 1 (toLE 4 10000)) dev) (fun t => obj t 0x1011 1 == 10000 && t.dict.storeQ.length == 1) = true) ∧
    (Plain 0x6001 ∧ rowHas dev .can 0x6001 1 (numberOf 1 .rw) = true ∧
      ends (exec (.objectWrite 0x6001 1 [31]) dev) (fun t => obj t 0x6001 1 == 31 && t.dict.storeQ == []) = true) ∧
    (let s := { dev with obj := [(key 0x4010 1, 0x104000)], clusters := [(0, { scratch := [(0x20008, 9)] })] }
     obj s 0x4010 1 ≠ 0x100000 ∧ rowHas s .can 0x4010 1 (numberOf 4 .rws) = true ∧
      ends (exec (.objectWrite 0x4010 1 (toLE 4 0x100000)) s) (fun t => obj t 0x4010 1 == 0x100000 &&
        ofLE (rdN (cluster t 0).scratch 0x20008 4) == homeWord s 1 && t.dict.storeQ.length == 1) = true) ∧
    (let q := asks [0x11, 0x10, 1, 0]
     canHears dev q = true ∧ q.dst ≠ 0x7F ∧ dev.dict.lastReq = [] ∧ qKey q = key 0x1011 1 ∧
      ends (exec (.sdpRead q) dev) (fun t => answers (.ok (toLE 4 100000)) t && t.out.length == 1) = true) ∧
    (let q := asks ([0x11, 0x10, 1, 0] ++ toLE 4 10000)
     canHears dev q = true ∧ q.data.length = 8 ∧ ends (exec (.sdpWrite q) dev) (fun t => obj t 0x1011 1 == 10000) = true) ∧
    (let q := asks [2, 0, 1, 0]
     rowFails dev .can (qKey q / 256) (qKey q % 256) 1 = true ∧ ends (exec (.sdpRead q) dev) (answers (.abort 1 0)) = true ∧
      ends (exec (.sdpWrite q) dev) (answers (.abort 1 0)) = true) ∧
    (let q := asks [0x11, 0x10, 1, 0]
     let s (f : Nat) : State := { dev with dict := { lastReq := [(2, { func := f, seq := 5, at_ := 0, reply := [.can 0 []] })] } }
     canHears (s 1) q = true ∧ isAbort (.can 0 []) = false ∧ ends (exec (.sdpRead q) (s 1)) (fun t => t.out == [.can 0 []]) = true ∧
      ends (exec (.sdpWrite q) (s 3)) (fun t => t.out == [.can 0 []]) = true ∧
      ends (exec (.sdpRead q) { s 1 with time := { now := 700 } })
        (fun t => t.dict.lastReq == [(2, { func := 1, seq := 5, at_ := 700, reply := [.can 0 []] })]) = true) ∧
    ends (exec (.sdpRead { asks [] with dst := 0x7F }) dev) (fun t => t.out == []) = true ∧
    (Served dev 0x1000 ∧ ends (exec .storeClear { dev with stored := [(1, 2)] }) (fun t => t.stored == []) = true ∧
      goes (exec .canBusOff dev) = true) := by
  unfold Served Plain; decide +kernel

/-- A value that waits for its store, which fits the half in use. -/
theorem witness_store :
    let s := { dev with sys := { dev.sys with inBasecamp := true }, dict := { storeQ := [(key 0x1011 1, 10000)], lastStore := [(key 0x1011 1, 0)] } }
    s.sys.phase ≠ .unpowered ∧ s.sys.frozen = false ∧ s.cairn.paramUsed + (Config.storeBytes (key 0x1011 1)).toNat ≤ 524288 := by
  refine ⟨by decide +kernel, by decide +kernel, ?_⟩
  have h : (Config.storeBytes (key 0x1011 1)).toNat < 1024 := (Config.storeBytes _).isLt
  show 0 + _ ≤ _
  omega

/-- An open transfer of node 2. -/
def aXfer (wr : Bool) (total crc next : Nat) (data : List Byte) : Xfer :=
  { node := 2, pri := 1, seq := 5, wr := wr, key := key 0x1011 1, total := total, crc := crc, data := data, nextSeg := next, lastAt := 0 }

def moving (l : List Xfer) : State := { dev with dict := { xfers := l } }

/-- Transfers opened, a fifth, segments in and out of order, short, wrong and whole; acknowledgements; aborts; timeouts. -/
theorem witness_transfers :
    (let q := asks [0x11, 0x10, 1, 0, 4, 0, 0, 0]
     canHears dev q = true ∧ rowHas dev .can (qKey q / 256) (qKey q % 256) (numberOf 4 .rws) = true ∧
      ends (exec (.segWrite q) dev) (fun t => t.dict.xfers.length == 1 && t.out.length == 1) = true ∧
      ends (exec (.segRead q) dev) (fun t => answers (.ok (toLE 4 100000)) t && t.out.length == 2) = true ∧
      (let s := moving ((List.range 4).map (fun n => { aXfer true 4 0 0 [] with node := n + 3 }))
       ends (exec (.segWrite q) s) (answers (.abort 0x0A 0)) = true ∧ ends (exec (.segRead q) s) (answers (.abort 0x0A 0)) = true)) ∧
    (let s := moving [aXfer true 4 (crc32c (toLE 4 10000)) 0 []]
     canHears s (asks []) = true ∧ s.dict.xfers.all (fun x => x.node == (asks []).src.toNat) = true ∧
      ends (exec (.segData (asks [1, 0, 0, 0])) s) (answers (.abort 8 0)) = true ∧
      ends (exec (.segData (asks [0, 0, 0, 0, 9])) s) (fun t => t.dict.xfers.all (fun x => x.nextSeg == 1 && x.data == [9])) = true ∧
      ends (exec (.segData (asks [0, 0, 1, 0, 9])) s) (answers (.abort 4 0)) = true ∧
      ends (exec (.segData (asks [0, 0, 1, 0, 9, 9, 9, 9])) s) (answers (.abort 0x0B 0)) = true ∧
      (Plain 0x1011 ∧ rowHas s .can 0x1011 1 (fun r => allowed r 10000) = true ∧
        ends (exec (.segData (asks ([0, 0, 1, 0] ++ toLE 4 10000))) s) (fun t => obj t 0x1011 1 == 10000 && t.dict.xfers == []) = true)) ∧
    (let s := moving [aXfer false 0 0 1 (List.replicate 61 7)]
     ends (exec (.segAck (asks [0, 0, 0, 0, 0, 0])) s) (answers (.abort 8 0)) = true ∧
      segCount (aXfer false 0 0 1 (List.replicate 61 7)) = 2 ∧
      ends (exec (.segAck (asks [0, 0, 0, 0, 1, 0])) s) (fun t => t.out.length == 1 && t.dict.xfers.all (fun x => x.nextSeg == 2)) = true) ∧
    ends (exec (.segAck (asks [0, 0, 0, 0, 1, 0])) (moving [aXfer false 0 0 1 [7]])) (fun t => t.dict.xfers == []) = true ∧
    ends (exec (.abortXfer 9 (asks [])) (moving [aXfer true 4 0 0 []])) (fun t => t.dict.xfers == []) = true ∧
    (let s := { moving [aXfer true 4 0 0 []] with time := { now := 90000000000 } }
     s.dict.xfers.all (fun x => decide (xferDue s x ≤ s.time.now)) = true ∧
      (moving [aXfer true 4 0 0 []]).dict.xfers.all (fun x => decide (0 < xferDue (moving []) x)) = true ∧
      ends (exec (.segData (asks [0, 0, 0, 0, 9])) s) (fun t => answers (.abort 8 0) t && t.out.all isAbort && t.out.length == 2) = true) ∧
    ends (exec (.abortXfer 0x11 (asks [])) dev) (fun t => t.out == [] && obj t 0x0200 4 == 1) = true ∧
    (listedFunc 0x20 = false ∧ ends (exec (.abortXfer 0x20 (asks [])) dev)
      (fun t => answers (.abort 0x0E 0) t && t.out.length == 1 && t.dict.lastReq.length == 1) = true) ∧
    ((xferOf (moving [aXfer true 4 0 0 []]) 2).isSome = true ∧
      ends (exec (.sdpTimeout 2) (moving [aXfer true 4 0 0 []])) (fun t => answers (.abort 9 0) t && t.dict.xfers == []) = true) := by
  unfold Plain; decide +kernel

/-- An in-band request with SUB, XARG and ADDR. -/
def asked (sub xarg : Nat) (a : Nat) (payload : List Byte) : State :=
  { dev with dict := { mgmtQ := [{ hdr := { typ := 9, sub := BitVec.ofNat 4 sub, xarg := BitVec.ofNat 16 xarg, src := 7, addr := BitVec.ofNat 64 a }
                                   payload := payload, lp := 0 }] } }

/-- Requests out of service, with no operation, for no object, that read, write and touch a bulk object. -/
theorem witness_in_band :
    (agentUp { asked 0 0 0 [] with sys := { phase := .starting } } = false ∧
      ends (exec .mgmtRead { asked 0 0 0 [] with sys := { phase := .starting } }) (fun t => t.dict.mgmtQ.length == 1) = true) ∧
    (let slow (r : Nat) (p : Bool) : Deferred := { addr := 0, row := r, cls := reqNo .sys, read := if p then some .good else none }
     let s (p : Bool) : State := { asked 2 0 0x019002 [] with hbm := { pch := [(0, { deferred := [slow 0 p] })] } }
     (s true).dict.mgmtQ.all (fun m => domainWaits (s true) m) = true ∧ (s false).dict.mgmtQ.all (fun m => !domainWaits (s false) m) = true ∧
      ends (exec .domainRead (s true)) (fun t => t == s true) = true) ∧
    (agentUp (asked 4 0 0 []) = true ∧ ends (exec .mgmtRead (asked 4 0 0 [])) (answers (.abort 0x0E 0)) = true) ∧
    (rowFails (asked 0 0 0x010002 []) .inband 2 1 1 = true ∧ ends (exec .mgmtRead (asked 0 0 0x010002 [])) (answers (.abort 1 0)) = true) ∧
    (rowHas (asked 0 0 0x011011 []) .inband 0x1011 1 (numberOf 4 .rws) = true ∧
      ends (exec .mgmtRead (asked 0 0 0x011011 [])) (answers (.ok (toLE 4 100000))) = true) ∧
    (Plain 0x1011 ∧ ends (exec .mgmtWrite (asked 1 0 0x011011 (toLE 4 10000))) (fun t => obj t 0x1011 1 == 10000) = true) ∧
    (ends (exec .domainRead (asked 2 0 0x011011 [])) (answers (.abort 0x0E 0)) = true ∧
      ends (exec .domainWrite (asked 3 0 0x011011 [])) (answers (.abort 0x0E 0)) = true) ∧
    (rowHas (asked 2 1 0x0FFFFE019001 []) .inband 0x9001 1 (fun r => r.ty == .domain 1048576 && r.acc == .rw) = true ∧
      ends (exec .domainRead (asked 2 1 0x0FFFFE019001 [])) (answers (.ok [0, 0])) = true ∧
      ends (exec .domainRead (asked 2 2 0x0FFFFE019001 [])) (answers (.abort 4 0)) = true ∧
      ends (exec .domainWrite (asked 3 0 0x0FFFFE019001 [1, 2])) (fun t => imemByte t 0 0x0FFFFF == 2) = true) := by
  unfold Plain; decide +kernel

/-! ### Power -/

/-- A device with control of the rail as given, and a command in progress. -/
def ruling (ctl : Nat) (c : Option OpCmd) : State :=
  { dev with obj := [(key 0x7001 1, ctl)], pwr := { cmd := c, opResult := 1 } }

/-- A command with SEQ 9: frequency step and rail code. -/
def opWord (f code : Nat) : BitVec 32 := BitVec.ofNat 32 (9 * 2 ^ 24 + f * 2 ^ 16 + code)

/-- Commands withheld, refused, taken and superseding; each stage's end; every outcome of a measurement. -/
theorem witness_power :
    (Served (ruling 0 none) 0x7001 ∧ ends (exec (.opCommand (opWord 0 0)) (ruling 0 none)) (answers (.abort 6 0)) = true) ∧
    (Served (ruling 1 none) 0x7001 ∧ 860 < 620 + 2 * 121 ∧
      ends (exec (.opCommand (opWord 0 121)) (ruling 1 none)) (fun t => t.pwr.opResult == 2 && t.pwr.opSeq == 9) = true ∧
      ends (exec (.opCommand (opWord 1 30)) (ruling 1 none)) (fun t => t.pwr.opResult == 1 && stepAimed t == 1) = true ∧
      ends (exec (.opCommand (opWord 3 115)) (ruling 1 none)) (fun t => t.pwr.opResult == 0 && t.pwr.cmd == none) = true) ∧
    (let c : OpCmd := { seq := 4, fstep := 2, target := 760, stage := .falling 2 45000 }
     ends (exec (.opCommand (opWord 1 30)) (ruling 1 (some c))) (fun t => obj t 0x7001 7 == 4 && t.pwr.cmd == some
       { seq := 9, fstep := 1, target := 680, stage := .falling 2 45000 }) = true ∧
      ends (exec .frequencyChangeDone (ruling 1 (some c))) (fun t => t.pwr.fstep == 2) = true ∧
      ends (exec .frequencyChangeDone (ruling 1 (some { c with stage := .rising 45000 }))) (fun t => t.pwr.cmd == none && t.pwr.opResult == 0) = true ∧
      ends (exec .railHoldExpiry (ruling 1 (some { c with stage := .holding 900000 }))) (fun t => t.pwr.cmd.isSome) = true ∧
      ends (exec .railTargetReached (ruling 1 (some { c with stage := .slewing }))) (fun t => t.pwr.railUv == 760000 && t.pwr.cmd == none) = true) ∧
    (started (ruling 0 none) = true ∧
      ends (exec (.powerMeasurement 15000 100) (ruling 0 none)) (fun t => t.pwr.profile == 2 && decide (stepAimed t ≤ 1)) = true ∧
      ends (exec (.powerMeasurement 48000 1501) (ruling 0 none)) (fun t => t.pwr.capHold && stepAimed t == 2) = true ∧
      ends (exec (.powerMeasurement 48000 1350) (ruling 1 none)) (fun t => t.pwr.cmd == none) = true ∧
      (let s := { ruling 0 none with pwr := { fstep := 2, target := 860 } }
       s.pwr.target ≠ vmin s.pwr.fstep + obj s 0x7001 9 ∧
        ends (exec (.powerMeasurement 48000 1350) s) (fun t => t.pwr.target == vmin 2 + obj s 0x7001 9) = true)) ∧
    (let s : State := { ruling 0 none with pwr := { profile := 3, fstep := 0, above := List.replicate 3 (some 0), measAt := 9000000000 } }
     ends (exec (.powerMeasurement 48000 100) s) (fun t => t.pwr.profile == 0) = true) ∧
    (let s (a : Option Nat) : State := { ruling 0 none with pwr := { profile := 1, fstep := 2, above := [a, none, none], measAt := 9000000000 } }
     bandLow 0 + 500 ≤ 30500 ∧ ends (exec (.powerMeasurement 30500 100) (s none)) (fun t => t.pwr.profile == 1) = true ∧
      ends (exec (.powerMeasurement 30500 100) (s (some 9000000))) (fun t => t.pwr.profile == 0) = true) ∧
    (let s (a : Option Nat) : State := { ruling 0 none with pwr := { fstep := 2, belowSince := a, measAt := 900000000 } }
     stepAimed (s none) < maxStep 0 ∧ ends (exec (.powerMeasurement 48000 1349) (s none)) (fun t => t.pwr.belowSince == some 909000000) = true ∧
      ends (exec (.powerMeasurement 48000 1349) (s (some 0))) (fun t => stepAimed t == 3) = true) ∧
    ends (exec .currentLimitHeld dev) (fun t => stepAimed t == 0 && t.pwr.capHold) = true := by
  unfold Served; decide +kernel

/-- Every cluster of an SKX-9624 dozes. -/
def dozing : State := { dev with sys := { dev.sys with skx9624 := true }, clusters := (List.range 16).map (fun c => (c, { doze := true })), obj := [(key 0x7000 7, 10), (key 0x7000 8, 20)] }

/-- Doze entered after its idleness, refused, and left where there is a cause. -/
theorem witness_doze :
    (let s := { dev with obj := [(key 0x7000 6, 1)] }
     Machine.on s = true ∧ 0 < clusters s ∧ (cluster s 0).doze = false ∧ clusterIdle s 0 = true ∧
      ends (exec (.dozeEntry 0) s) (fun t => (cluster t 0).doze && t.time.now == 90000 && obj t 0x7000 0x0C == 1) = true ∧
      clusterIdle (at5 {}) 0 = false ∧ ends (exec (.dozeEntry 0) (at5 {})) (fun t => !(cluster t 0).doze) = true) ∧
    (let s (b : Bool) : State := { dozing with cores := [(3, { roused := b })] }
     (Machine.core (s true) 3).roused = true ∧ ends (exec (.dozeExit 0) (s true)) (fun t => !(cluster t 0).doze) = true ∧
      clusterIdle (s false) 0 = true ∧ ends (exec (.dozeExit 0) (s false)) (fun t => t == s false) = true) := by decide +kernel

/-- Bivouac entered, refused and left, with an event that it has held; the Basecamp state; a wake in every power state. -/
theorem witness_sleep :
    (dozing.sys.phase = .run ∧ dozing.sys.basecampFailed = false ∧ deviceIdle dozing = true ∧ dozing.pwr.idleSince = some 0 ∧ obj dozing 0x7000 7 ≠ 0 ∧
      ends (exec .bivouacEntry dozing) (fun t => t.pwr.state == 1 && (stackOf t 1).pendingSr && (port t 0).link == 4) = true) ∧
    (deviceIdle dev = false ∧ ends (exec .bivouacEntry dev) (fun t => t.pwr.state == 0) = true) ∧
    (let s := { drowsy { state := 3, off := true } { state := 4 } { state := 2 } with
                plan := { events := [{ ft := 5, typ := 4, gated := false, arg0 := 0, arg1 := 0 }] } }
     5 < ft (advance s 108000) ∧
      ends (exec (.selfRefreshExit 0) s) (fun t => t.pwr.state == 0 && t.plan.next == 1 && obj t 0x6801 6 == 1) = true) ∧
    (let s (n : Nat) (off : Bool) : State := { dev with pwr := { state := n, off := off, bivouacAt := if n = 2 then some 0 else none } }
     Served (s 0 false) 0x7000 ∧ Served (s 1 false) 0x7000 ∧ Served (s 2 true) 0x7000 ∧ Served (s 3 true) 0x7000 ∧
      ends (exec .wake (s 2 true)) (fun t => t.pwr.state == 3 && t.sys.wakeOut && obj t 0x7000 0x0E == 2) = true ∧
      ends (exec .wake (s 1 false)) (fun t => t.pwr.wakeSrc == some 2) = true ∧ goes (exec .wake (s 3 true)) = true ∧
      ends (exec .wake { s 0 false with time := { now := 9 } }) (fun t => t.pwr.idleSince == some 9) = true ∧
      ends (exec (.objectWrite 0x7000 9 [0]) { s 0 false with time := { now := 9 } }) (fun t => t.pwr.idleSince == some 9) = true ∧
      (let s := { s 2 true with obj := [(key 0x7000 8, 20)] }
       started s = true ∧ obj s 0x7000 8 ≠ 0 ∧ ends (exec .basecampEntry s) (fun t => t.sys.inBasecamp && (port t 0).link == 0) = true) ∧
      (∀ n ∈ [0, 1], ends (exec (.sidebandAddressMatch 0x58 true) (s n false)) (fun t => t.out == [.sideband (some 0)] &&
        t.pwr.wakeSrc == if n = 1 then some 1 else none) = true) ∧
      ends (exec (.sidebandAddressMatch 0x58 true) (s 2 true)) (fun t => t.out == [.sideband (some 2)] && t.pwr.state == 3) = true ∧
      ends (exec (.sidebandAddressMatch 0x58 true) (s 3 true)) (fun t => t.out == [.sideband (some 4)]) = true) := by
  unfold Served; decide +kernel

/-- A sideband address of another device and of this one, in a read and a write, in the Basecamp state and while T0 is awaited. -/
theorem witness_sideband :
    ends (exec (.sidebandAddressMatch 0x59 true) dev) (fun t => t.out == []) = true ∧
    ends (exec (.sidebandAddressMatch 0x58 false) dev) (fun t => t.out == [.sideband none]) = true ∧
    (let s (f : Bool) : State := { dev with sys := { dev.sys with inBasecamp := true, basecampFailed := f } }
     ends (exec (.sidebandAddressMatch 0x58 true) (s false)) (fun t => t.out == [.sideband (some 3)] && t.sys.phase == .held) = true ∧
      ends (exec (.sidebandAddressMatch 0x58 true) (s true)) (fun t => t.out == [.sideband (some 3)] && t.sys.phase == .run) = true) ∧
    (let s (c : Nat) : State := { State.reset with sys := { pendingCause := c } }
     (s 4).sys.phase = .held ∧ ends (exec (.sidebandAddressMatch 0x58 true) (s 4)) (fun t => t.out == [.sideband (some 4)]) = true ∧
      ends (exec (.sidebandAddressMatch 0x58 true) (s 2)) (fun t => t.out == [.sideband (some 0)]) = true) := by decide +kernel

/-! ### The lease, service, reset and start-up -/

/-- A device of a pair, with the lease as given. -/
def paired (r : RecSt) : State := { dev with obj := [(key 0x8002 1, 1)], rcv := r }

/-- Lease requests heard and not, stale, accepted and answered only; a lease that ends, a fence that is cleared. -/
theorem witness_lease :
    (let q := asks [5, 0, 0, 0]
     leaseHears dev q = false ∧ canHears dev q = true ∧ ends (exec (.leaseGrant q) dev) (fun t => t.rcv == {}) = true ∧
      leaseHears (paired {}) q = true ∧ inService (paired {}) = true ∧
      ends (exec (.leaseGrant q) (paired {})) (fun t => t.rcv.leaseUntil == some 27000000000 && t.rcv.epoch == 5) = true ∧
      epochBelow 5 6 = true ∧ ends (exec (.leaseGrant q) (paired { epoch := 6, ownEpoch := some 6 })) (fun t => obj t 0x8002 0x0C == 1) = true ∧
      (let s := { paired {} with sys := { dev.sys with svcOut := true } }
       inService s = false ∧ leaseHears s q = true ∧ ends (exec (.leaseGrant q) s) (fun t => t.rcv.leaseUntil.isSome && t.rcv.epoch == 5) = true) ∧
      ends (exec (.leaseGrant q) (paired { leaseUntil := some 0 })) (fun t => t.rcv.leaseUntil == some 27000000000 && obj t 0x8002 0x0A == 1) = true ∧
      ends (exec (.leaseGrant q) (paired { epoch := 5, ownEpoch := some 5, writeFence := true, readOnly := true }))
        (fun t => !t.rcv.writeFence && !t.rcv.readOnly && t.dict.storeQ == [(key 0x8002 7, 0)]) = true ∧
      ends (exec (.leaseRevoke q) (paired { leaseUntil := some 9 })) (fun t => t.rcv.leaseUntil == none && t.rcv.readOnly) = true ∧
      ends (exec (.leaseQuery q) (paired {})) (fun t => t.out.length == 1) = true ∧
      leaseOver (paired {}) = false ∧ leaseOver (paired { leaseUntil := some 0 }) = true ∧
      ends (exec (.leaseQuery q) (paired { leaseUntil := some 0 })) (fun t => t.rcv.readOnly && obj t 0x8002 0x0A == 1) = true) ∧
    ends (exec .leaseExpiry (paired { leaseUntil := some 9 })) (fun t => t.rcv.readOnly && t.rcv.writeFence && t.time.now == 9 && t.dict.storeQ == [(key 0x8002 7, 1)]) = true ∧
    (let s := paired { readOnly := true, writeFence := true }
     Served s 0x8002 ∧ ends (exec .writeFenceClear s) (fun t => !t.rcv.writeFence) = true) := by
  unfold Served; decide +kernel

/-- A sample of the die and of the stacks. -/
def warm (d h : Int) (s : State) : Host.Outcome State Fault Refusal := exec (.thermalSample [d] [h, 0, 0, 0]) s

/-- Service left and returned to, Basecamp failures, every band of heat, and the alert cleared. -/
theorem witness_service :
    (Served dev 0x8001 ∧ ends (exec .serviceCmdOut dev) (fun t => t.sys.svcOut && !t.sys.faultN) = true ∧ inService dev = true ∧
      ends (exec .serviceCmdReturn dev) (fun t => t.sys.faultN) = true) ∧
    (let s := { dev with sys := { dev.sys with svcOut := true }, obj := allShut }
     Served s 0x8001 ∧ inService { s with sys := { s.sys with svcOut := false } } = false ∧
      ends (exec .serviceCmdReturn s) (answers (.abort 6 0)) = true) ∧
    (ends (exec .basecampWdExpiry dev) (fun t => t.sys.failCause == 1 && t.sys.wdExpiries == 1) = true ∧
      ends (exec .basecampEccError dev) (fun t => t.sys.failCause == 2) = true) ∧
    (started dev = true ∧ nStacks dev.sys = 4 ∧ obj dev 0x1030 3 < 115 ∧
      ends (warm 115 0 dev) (fun t => t.sys.thermalShut) = true ∧ ends (warm 0 105 dev) (fun t => t.sys.thermalShut) = true ∧
      ends (warm 0 95 dev) (fun t => !t.sys.thermN && stepAimed t == 0) = true ∧
      ends (warm 0 95 { dev with sys := { dev.sys with thermN := false } }) (fun t => stepAimed t == 0 && t.pwr.thermHold) = true ∧
      (let s := { dev with sys := { dev.sys with thermN := false }, pwr := { fstep := 0, coolSince := some 0 } }
       stepAimed s = 0 ∧ ends (warm 0 95 s) (fun t => t.pwr == { s.pwr with thermHold := true, coolSince := none }) = true) ∧
      ends (warm 20 30 dev) (fun t => t.sys.thermN && t.pwr.coolSince.isSome) = true ∧
      ends (warm (obj dev 0x1030 3 - 1) 30 dev) (fun t => t.pwr.coolSince == none && t.sys.thermN) = true) ∧
    (let s := { dev with sys := { dev.sys with thermalShut := true, thermN := false } }
     ends (warm 20 30 s) (fun t => t.sys.thermN && t.pwr == s.pwr) = true ∧ ends (warm 20 91 s) (fun t => !t.sys.thermN) = true) ∧
    (Served dev 0x1030 ∧ ends (exec .alertClear { dev with cairn := { alert := true } }) (fun t => !t.cairn.alert) = true) := by
  unfold Served; decide +kernel

/-- Resets of each kind, a freeze before and after T0, power lost and back, T0 withheld and come, start-up held and done. -/
theorem witness_reset :
    (let s := { dev with dict := { storeQ := [(key 0x1011 1, 5)] }, latched := [(1, 1)] }
     s.sys.phase ≠ .unpowered ∧ ends (exec .reset s) (fun t => t.sys.phase == .held && mfind t.stored (key 0x1011 1) == some 5) = true ∧
      Served s 0x8001 ∧ ends (exec .recoveryReset s) (fun t => t.sys.pendingCause == 5) = true) ∧
    (ends (exec .freeze State.reset) (fun t => !t.sys.freezeN && !t.sys.frozen) = true ∧
      ends (exec .freeze dev) (fun t => t.sys.frozen && (stackOf t 3).state == 4) = true) ∧
    (ends (exec (.vinUndervoltage false) dev) (fun t => t.sys.phase == .unpowered) = true ∧
      ends (exec .vinValid { State.reset with sys := { phase := .unpowered } }) (fun t => t.sys.phase == .held) = true) ∧
    (let s := { State.reset with sys := { thermalShut := true, dieTemp := 96 } }
     s.sys.phase = .held ∧ ends (exec .startT0 s) (fun t => t.sys.phase == .held) = true) ∧
    (let s := { State.reset with sys := { skx9624 := true } }
     s.sys.pendingCause ≠ 4 ∧ ends (exec .startT0 s) (fun t => t.sys.phase == .starting && (rope t 7).st == .ready) = true) ∧
    (let e : ItinEvent := { ft := 5, typ := 4, gated := false, arg0 := 0, arg1 := 0 }
     let s := { State.reset with sys := { skx9624 := true, pendingCause := 4 }, plan := { events := [e, e], next := 1 }
                                 dict := { storeQ := [(key 0x1011 1, 5)] } }
     ends (exec .startT0 s) (fun t => t.plan == { events := [e] } && obj t 0x7000 0x0E == 1 && mfind t.stored (key 0x1011 1) == some 5) = true ∧
      (let s := { dev with sys := { skx9624 := true, phase := .starting, cairnScanned := true, resetCause := 4 }
                           plan := { events := [e] }, hbm := { stk := stacksIn 2 2 2 2 } }
       5 < ft (advanceTo s 5400000000) ∧ ends (exec .startupComplete s) (fun t => t.plan == {} && obj t 0x6801 6 == 1) = true)) ∧
    ends (exec (.vinUndervoltage true) { dev with sys := { dev.sys with thermN := false, thermWarn := true }, cairn := { alert := true } })
      (fun t => t.sys.thermN && alertStatus t == 0) = true ∧
    (let s (b : Bool) : State := { State.reset with sys := { skx9624 := true, phase := .starting, cairnScanned := b }, hbm := { stk := stacksIn 2 2 2 2 } }
     started (s true) = true ∧ ends (exec .startupComplete (s false)) (fun t => t.sys.phase == .starting) = true ∧
      ends (exec .startupComplete { s true with hbm := { stk := stacksIn 2 1 2 2 } }) (fun t => t.sys.phase == .starting) = true ∧
      allFenced (s true) = false ∧ ends (exec .startupComplete (s true)) (fun t => t.sys.faultN && t.time.now == 5400000000) = true ∧
      (let s := { s true with hbm := { stk := mset (stacksIn 2 2 2 2) 1 { state := 2, tried := true } } }
       ends (exec .startupComplete s) (fun t => t.time.now == 10620000000) = true)) ∧
    (let s := { dev with sys := { dev.sys with svcOut := true }, obj := (List.range 16).map (fun c => (key (0x4020 + c) 1, 0xFFFF)) }
     ends (exec (.coreFenceWrite 0 0xFFFF) s) (fun t => t.sys.fencedOut && outCause t == 5 &&
       outCause { t with obj := [] } == 5) = true) := by
  unfold Served; decide +kernel

/-! ### Cairn and the scan dump -/

/-- An event of severity 2 as the buffer holds it. -/
def anEvent : List Byte := List.replicate 8 0 ++ [9, 2] ++ List.replicate 42 0

/-- A device whose ring holds a record. -/
def recorded1 : State :=
  match exec .cairnRecordWrite { dev with sys := { dev.sys with cairnScanned := true }, cairn := { buffer := [anEvent] } } with
  | .next t => t
  | _ => dev

/-- Nothing to write and a record written, scans of an empty and a filled ring, reads at the end and before it, snapshots. -/
theorem witness_cairn :
    (let s := { dev with sys := { dev.sys with cairnScanned := true }, cairn := { buffer := [anEvent] } }
     cairnOn s = true ∧ s.sys.cairnScanned = true ∧ anEvent.length = 52 ∧
      ends (exec .cairnRecordWrite s) (fun t => t.cairn.nextSeq == 1 && t.cairn.alert && t.cairn.buffer == []) = true ∧
      ends (exec .cairnRecordWrite dev) (fun t => t.cairn.nextSeq == 0) = true) ∧
    (let s := { recorded1 with sys := { phase := .starting }, cairn := { recorded1.cairn with nextSeq := 0 } }
     started s = true ∧ s.sys.cairnScanned = false ∧ (s.cairn.ring.all (fun e => slotValid e.2)) = true ∧ s.cairn.ring.length = 1 ∧
      ends (exec .cairnScanDone s) (fun t => t.cairn.nextSeq == 1) = true ∧
      (let u := { s with cairn := {} }
       cairnOn u = true ∧ obj u 0x7800 9 = 0 ∧ 1025 * 900000 ≤ cairnTokens u ∧
        ends (exec .cairnScanDone u) (fun t => t.cairn.nextSeq == 0 && t.cairn.buffer.length == 1) = true)) ∧
    (let s := { recorded1 with sys := { phase := .starting } }
     cairnServed s = false ∧ agentUp s = false ∧ ends (exec .recordRead s) (fun t => t == s) = true ∧
      ends (exec .windowRead s) (fun t => t == s) = true) ∧
    (cairnServed dev = true ∧ agentUp dev = true ∧ dev.cairn.nextSeq ≤ obj dev 0x7800 3 ∧
      ends (exec .recordRead dev) (answers (.ok (List.replicate 64 0))) = true ∧ ends (exec .windowRead dev) (answers (.ok [])) = true ∧
      obj recorded1 0x7800 3 < recorded1.cairn.nextSeq ∧ ends (exec .recordRead recorded1) (answers (.ok (ringAt recorded1 0))) = true ∧
      ends (exec .windowRead recorded1) (answers (.ok (ringAt recorded1 0))) = true) ∧
    (Served recorded1 0x7801 ∧ ends (exec .snapTake recorded1) (fun t => t.cairn.snapDue == some 2880) = true ∧
      (let s := { recorded1 with cairn := { recorded1.cairn with snapDue := some 2880 }, obj := [(key 0x7801 1, 64), (key 0x7801 4, 0), (key 0x7801 5, 0)] }
       Served s 0x7801 ∧ ends (exec .snapTake s) (answers (.abort 6 0)) = true ∧
        ends (exec .snapDone s) (fun t => hbmByte t (64 + 9) == (ringAt s 0).getD 9 0 && obj t 0x7801 3 == 1) = true)) := by
  unfold Served; decide +kernel

/-- Compactions started, refused, running, started by themselves, tried again and ended. -/
theorem witness_compaction :
    (Served dev 0x7802 ∧ dev.cairn.compacting = none ∧ maintTest dev 6 (obj dev 0x4820 1) = none ∧
      ends (exec (.compactGo false) dev) (fun t => t.cairn.compacting.isSome) = true ∧
      paramFill dev < 75 ∧ canUp dev = true ∧ ends (exec (.compactGo true) dev) (fun t => t.cairn.compacting == none) = true) ∧
    (let s := { dev with cairn := { compacting := some 9 } }
     Served s 0x7802 ∧ serviceState s = 1 ∧ ends (exec (.compactGo false) s) (answers (.abort 6 0)) = true ∧
      (let u := { s with sys := { s.sys with svcOut := true } }
       Served u 0x7802 ∧ serviceState u ≠ 1 ∧ maintTest u 6 (obj u 0x4820 1) = some 2 ∧
        ends (exec (.compactGo false) u) (answers (.abort 7 2)) = true)) ∧
    (let s := { dev with hbm := { test := some 0 }, cairn := { paramUsed := 393216 } }
     Served s 0x7802 ∧ maintTest s 6 (obj s 0x4820 1) = some 0x12 ∧ 75 ≤ paramFill s ∧
      ends (exec (.compactGo false) s) (answers (.abort 7 0x12)) = true ∧
      ends (exec (.compactGo true) s) (fun t => t.cairn.retryAt == some 9000000000) = true ∧
      ends (exec (.compactGo true) { s with hbm := {} }) (fun t => t.cairn.compacting.isSome) = true ∧
      ends (exec .compactionRetry { s with hbm := {}, cairn := { s.cairn with retryAt := some 9 } }) (fun t => t.cairn.compacting.isSome) = true) ∧
    ends (exec .compactionDone { dev with cairn := { compacting := some 9 } }) (fun t => t.cairn.paramOther && obj t 0x7802 4 == 1) = true ∧
    ends (exec .compactionRetry { dev with cairn := { retryAt := some 9 } }) (fun t => t.cairn.retryAt == none && t.time.now == 9) = true := by
  unfold Served; decide +kernel

/-- Targets of the dump, in freeze and out of it. -/
theorem witness_dump :
    let s (f : Bool) (sel : BitVec 16) (a : BitVec 64) : State :=
      { dev with sys := { dev.sys with frozen := f }, dbg := { sel := sel, addr := a }
                 clusters := [(0, { scratch := [(8, 5)], imem := [(8, 6)] })] }
    ends (exec (.sxdumpSel 0) (s true 0x100 0)) (fun t => t.out == [.tdo (2 ^ 31 + 524288)]) = true ∧
    ends (exec (.sxdumpSel 0) (s false 0x110 0)) (fun t => t.out == [.tdo 131072]) = true ∧
    ends (exec (.sxdumpSel 0) (s true 0x160 0)) (fun t => t.out == [.tdo (2 ^ 31)]) = true ∧
    ends (exec (.sxdumpSel 0) (s true 0x122 0)) (fun t => t.out == [.tdo (2 ^ 31 + 524288)] && t.dbg.ir == 0xA0) = true ∧
    (let off := { s true 0x100 1 with sys := { dev.sys with frozen := true, trstN := false } }
     ends (exec (.sxdumpSel 0) off) (fun t => t == off) = true ∧ ends (exec (.sxdumpChain 8) off) (fun t => t == off) = true ∧
      ends (exec (.sxdumpMem 0) off) (fun t => t == off) = true) ∧
    ends (exec (.sxdumpMem 0) { s true 0x122 4 with tbl := { ep := [(1, 77)] } }) (fun t => t.out == [.tdo (4 * 2 ^ 64 + 77)]) = true ∧
    ends (exec (.sxdumpMem 0) { s true 0x130 1 with hbm := { mem := [(8, 3)] } }) (fun t => t.out == [.tdo (2 ^ 64 + 3)]) = true ∧
    ends (exec (.sxdumpChain 8) (s false 3 0)) (fun t => t.out == [.tdo 0]) = true ∧
    ends (exec (.sxdumpChain 8) (s true 0x6B 0)) (fun t => t.out == [.tdo 0]) = true ∧
    (3 < nPhys dev.sys ∧ goes (exec (.sxdumpChain 8) (s true 3 0)) = true) ∧
    ends (exec (.sxdumpMem 0) (s false 0x100 1)) (fun t => t.out == [.tdo (2 ^ 64)] && t.dbg.addr == 2) = true ∧
    ends (exec (.sxdumpMem 0) (s true 0x100 1)) (fun t => t.out == [.tdo (2 ^ 64 + 5)]) = true ∧
    ends (exec (.sxdumpMem (1 <<< 127)) (s true 0x110 1)) (fun t => t.out == [.tdo (2 ^ 64 + 6)] && t.dbg.addr == 0) = true := by
  decide +kernel

/-! ### The machine as a whole -/

/-- A command at the front and none; a device whose versions are consistent and steps. -/
theorem witness_steps :
    ({ dev with pending := [.canBusOff] } : State).pending = [.canBusOff] ∧
    ends (step { dev with pending := [.canBusOff] }) (fun t => t.pending == [] && obj t 0x0200 6 == 1) = true ∧
    dev.pending = [] ∧ ends (step dev) (fun t => t.time.now == 576) = true ∧ VersionsOk State.reset ∧
    ends (step State.reset) (fun t => t.col.ver == {}) = true := by
  unfold VersionsOk; decide +kernel

/-- The invariant on memories holds after reset, from which a step is taken. -/
theorem witness_memories : MemoriesOk State.reset ∧ goes (step State.reset) = true :=
  ⟨⟨rfl, fun _ => ⟨rfl, rfl⟩, fun _ => rfl⟩, by decide +kernel⟩

/-- A command at the front is unsupported with the rule given, and the step stops with it. -/
def stopsAt (s : State) (c : Instr) (rule : Nat) : Bool := match step { s with pending := [c] } with | .fault (.unsupported n) => n == rule | _ => false

/-- Each use that R106 and R158 call unsupported, at which the step stops. -/
theorem witness_unsupported :
    (Unsupported (tabled 1 5 1 []) .insert 106 ∧ stopsAt (tabled 1 5 1 []) .insert 106 = true) ∧
    (let s := pitching 0 1 [] {} false
     Unsupported s (.femit i5 1 2) 158 ∧ stopsAt s (.femit i5 1 2) 158 = true) ∧
    (let s := recorded 2 0 0x80000001
     Unsupported s (.femitR i5 1) 158 ∧ stopsAt s (.femitR i5 1) 158 = true) ∧
    (let s := pitching 0 0x20000 [] {} false
     Unsupported s (.fnew i5 1 2) 158 ∧ stopsAt s (.fnew i5 1 2) 158 = true) := by
  refine ⟨⟨.inl ⟨rfl, rfl, by decide +kernel, 16, blockOf (tabled 1 5 1 []) 16, ?_⟩, ?_⟩,
    ⟨.inr ⟨rfl, i5, ⟨rfl, rfl, rfl⟩, ?_⟩, ?_⟩, ⟨.inr ⟨rfl, i5, ⟨rfl, rfl, rfl⟩, ?_⟩, ?_⟩, .inr ⟨rfl, i5, ⟨rfl, rfl, rfl⟩, ?_⟩, ?_⟩
  · decide +kernel
  · decide +kernel
  · exact ⟨nofun, .inl ⟨1, 2, rfl, by decide +kernel, 1, by decide +kernel⟩⟩
  · decide +kernel
  · exact ⟨nofun, .inr (.inl ⟨1, rfl, by decide +kernel, by decide +kernel, by decide +kernel, by decide +kernel,
      by decide +kernel, by decide +kernel, 1, by decide +kernel⟩)⟩
  · decide +kernel
  · exact ⟨nofun, .inr (.inr ⟨1, 2, rfl, by decide +kernel⟩)⟩
  · decide +kernel

end Sys2Proof.Tests
end

/-! The operations of the ALU as numbers (R128, R143, R144). `Gives` reads the outcome of an operation as a number and two
flags; each operation has one lemma that says what it gives, and `issueRope_alu` turns such a lemma into the next state. -/

namespace Sys2Proof.Proofs

open Sys2Proof.Machine Sys2Proof.Claim

/-! ### Operands and results of the width -/

/-- A word that holds a number of the width. -/
structure Fits (w32 : Bool) (x : Word) (p : Nat) : Prop where
  toNat_eq : x.toNat = p
  lt : p < 2 ^ width w32

/-- An outcome whose result is `n` and that leaves C and V at `c` and `v`, from the flags `f`. -/
structure Gives (w32 : Bool) (res : AluRes) (f : Flags) (n : Nat) (c v : Bool) : Prop where
  val : Fits w32 res.val n
  carry : res.c.getD f.c = c
  overflow : res.v.getD f.v = v

@[simp] theorem width_true : width true = 32 := rfl
@[simp] theorem width_false : width false = 64 := rfl

theorem width_le (w32 : Bool) : width w32 ≤ 64 := by cases w32 <;> decide

theorem two_pow_width_le (w32 : Bool) : 2 ^ width w32 ≤ 2 ^ 64 := Nat.pow_le_pow_right (by decide) (width_le w32)

theorem lt_two_pow_width (w32 : Bool) {n : Nat} (h : n ≤ 64) : n < 2 ^ width w32 := by
  cases w32 <;> simp only [width_true, width_false] <;> omega

/-- A number of the width is held by the word made of it. -/
theorem fits_ofNat {w32 : Bool} {n : Nat} (h : n < 2 ^ width w32) : Fits w32 (BitVec.ofNat 64 n) n :=
  ⟨(BitVec.toNat_ofNat n 64).trans (Nat.mod_eq_of_lt (h.trans_le (two_pow_width_le w32))), h⟩

theorem opnd_toNat (w32 : Bool) (x : Word) : (opnd w32 x).toNat = uns w32 x := by
  cases w32
  · simp [opnd, uns, width, Nat.mod_eq_of_lt x.isLt]
  · simpa [opnd, uns, width] using Nat.and_two_pow_sub_one_eq_mod x.toNat 32

theorem fits_opnd (w32 : Bool) (x : Word) : Fits w32 (opnd w32 x) (uns w32 x) :=
  ⟨opnd_toNat w32 x, Nat.mod_lt _ (by positivity)⟩

theorem getLsbD_opnd (w32 : Bool) (x : Word) (i : Nat) :
    (opnd w32 x).getLsbD i = (decide (i < width w32) && x.getLsbD i) := by
  rw [← BitVec.testBit_toNat, opnd_toNat, uns, Nat.testBit_mod_two_pow, BitVec.testBit_toNat]

theorem Fits.getLsbD_eq {w32 : Bool} {x : Word} {p : Nat} (h : Fits w32 x p) (i : Nat) : x.getLsbD i = p.testBit i := by
  rw [← BitVec.testBit_toNat, h.toNat_eq]

theorem Fits.ofNat_eq {w32 : Bool} {x : Word} {p : Nat} (h : Fits w32 x p) : BitVec.ofNat 64 p = x := by
  rw [← h.toNat_eq, BitVec.ofNat_toNat, BitVec.setWidth_eq]

/-- The low 32 bits of a number of 32 bits are the number. -/
theorem Fits.toNat_setWidth {x : Word} {p : Nat} (h : Fits true x p) : (x.setWidth 32).toNat = p := by
  rw [BitVec.toNat_setWidth, h.toNat_eq]
  exact Nat.mod_eq_of_lt h.lt

/-- The width split at its top bit. -/
theorem two_pow_width_eq (w32 : Bool) : 2 ^ width w32 = 2 * 2 ^ (width w32 - 1) := by cases w32 <;> rfl

theorem Fits.topBit_eq {w32 : Bool} {x : Word} {p : Nat} (h : Fits w32 x p) :
    topBit w32 x = decide (2 ^ (width w32 - 1) ≤ p) := by
  have hdiv : p / 2 ^ (width w32 - 1) < 2 :=
    Nat.div_lt_of_lt_mul (by rw [Nat.mul_comm, ← two_pow_width_eq]; exact h.lt)
  have hpos : 1 ≤ p / 2 ^ (width w32 - 1) ↔ 2 ^ (width w32 - 1) ≤ p := Nat.one_le_div_iff (by positivity)
  rw [topBit, h.getLsbD_eq, Nat.testBit_eq_decide_div_mod_eq, decide_eq_decide, ← hpos]
  change p / 2 ^ (width w32 - 1) % 2 = 1 ↔ _
  generalize p / 2 ^ (width w32 - 1) = t at hdiv ⊢
  omega

/-- A number of the width that is extended to 64 bits still holds the same number. -/
theorem fits_extend {v : BitVec 32} {n : Nat} (h : v.toNat = n) : Fits true (v.setWidth 64) n := by
  refine ⟨?_, h ▸ v.isLt⟩
  rw [BitVec.toNat_setWidth, h, Nat.mod_eq_of_lt (by have := v.isLt; omega)]

/-! ### From an outcome to the next state -/

theorem Gives.flagsOf_eq {w32 : Bool} {res : AluRes} {f : Flags} {n : Nat} {c v : Bool} (g : Gives w32 res f n c v) :
    flagsOf w32 res f = nzcv w32 n c v := by
  have hz : (res.val == 0) = decide (n = 0) := by
    rw [← g.val.toNat_eq, Bool.eq_iff_iff, beq_iff_eq, decide_eq_true_iff]
    exact BitVec.toNat_eq
  rw [flagsOf, nzcv, g.val.topBit_eq, hz, g.carry, g.overflow]

/-- An ALU operation with a destination completes with what it gives, and nothing else of the state changes. -/
theorem issueRope_alu {s : State} {r : Issuer} (h : Issues s r) {op : AluFn} (kf : Bool) {w32 : Bool} (d : BitVec 5)
    {a b : BitVec 5} {n : Nat} {c v : Bool}
    (g : Gives w32 (op w32 (opnd w32 (getW (rope s r.toNat) a)) (opnd w32 (getW (rope s r.toNat) b)) (rope s r.toNat).flags)
      (rope s r.toNat).flags n c v) :
    issueRope s r (aluRope op kf w32 (some d) a b) =
      .next (after s r (takes (rope s r.toNat) kf d n (nzcv w32 n c v))) := by
  rw [issueRope_ok h, aluRope, g.flagsOf_eq, takes, g.val.ofNat_eq]

/-- Without a destination it changes the flags alone. -/
theorem issueRope_alu_flags {s : State} {r : Issuer} (h : Issues s r) {op : AluFn} (kf : Bool) {w32 : Bool}
    {a b : BitVec 5} {n : Nat} {c v : Bool}
    (g : Gives w32 (op w32 (opnd w32 (getW (rope s r.toNat) a)) (opnd w32 (getW (rope s r.toNat) b)) (rope s r.toNat).flags)
      (rope s r.toNat).flags n c v) :
    issueRope s r (aluRope op kf w32 none a b) = .next (after s r { rope s r.toNat with
      flags := if kf then (rope s r.toNat).flags else nzcv w32 n c v }) := by
  rw [issueRope_ok h, aluRope, g.flagsOf_eq]

section Operations

variable {w32 : Bool} {x y : Word} {p q : Nat} (f : Flags)

/-! ### Sums and differences (R128) -/

theorem sgn_eq (w32 : Bool) (n : Nat) :
    sgn w32 n = if n < 2 ^ (width w32 - 1) then (n : Int) else n - 2 * (2 ^ (width w32 - 1) : Nat) := by
  have hw : (2 ^ width w32 : Int) = 2 * (2 ^ (width w32 - 1) : Nat) := by exact_mod_cast two_pow_width_eq w32
  rw [sgn, hw]

theorem overflows_iff (w32 : Bool) (i : Int) :
    overflows w32 i = true ↔ ¬(-((2 ^ (width w32 - 1) : Nat) : Int) ≤ i ∧ i < (2 ^ (width w32 - 1) : Nat)) := by
  simp only [overflows, Bool.not_eq_true', ← Bool.not_eq_true, Bool.and_eq_true, decide_eq_true_eq, Nat.cast_pow,
    Nat.cast_ofNat]

/-- Equal signs of the operands and another sign of the result: the signed sum does not fit. -/
theorem overflows_add (cin : Bool) (hp : p < 2 ^ width w32) (hq : q < 2 ^ width w32) :
    (decide (2 ^ (width w32 - 1) ≤ p) == decide (2 ^ (width w32 - 1) ≤ q) &&
      decide (2 ^ (width w32 - 1) ≤ (p + q + b2n cin) % 2 ^ width w32) != decide (2 ^ (width w32 - 1) ≤ p)) =
      overflows w32 (sgn w32 p + sgn w32 q + b2n cin) := by
  have hc : b2n cin ≤ 1 := by cases cin <;> decide
  have hmod : p + q + b2n cin < 2 ^ width w32 ∧ (p + q + b2n cin) % 2 ^ width w32 = p + q + b2n cin ∨
      2 ^ width w32 ≤ p + q + b2n cin ∧ (p + q + b2n cin) % 2 ^ width w32 = p + q + b2n cin - 2 ^ width w32 := by
    obtain h | h := Nat.lt_or_ge (p + q + b2n cin) (2 ^ width w32)
    · exact .inl ⟨h, Nat.mod_eq_of_lt h⟩
    · exact .inr ⟨h, by rw [Nat.mod_eq_sub_mod h, Nat.mod_eq_of_lt (by omega)]⟩
  rw [Bool.eq_iff_iff, overflows_iff, sgn_eq, sgn_eq, Bool.and_eq_true, beq_iff_eq, bne_iff_ne, ne_eq,
    decide_eq_decide, decide_eq_decide]
  generalize (p + q + b2n cin) % 2 ^ width w32 = t at hmod ⊢
  rw [two_pow_width_eq] at hp hq hmod
  generalize 2 ^ (width w32 - 1) = k at hp hq hmod ⊢
  omega

theorem addWith_gives (hx : Fits w32 x p) (hy : Fits w32 y q) (cin : Bool) :
    Gives w32 (addWith w32 x y cin) f ((p + q + b2n cin) % 2 ^ width w32) (decide (2 ^ width w32 ≤ p + q + b2n cin))
      (overflows w32 (sgn w32 p + sgn w32 q + b2n cin)) := by
  have hr : Fits w32 (opnd w32 (BitVec.ofNat 64 (p + q + b2n cin))) ((p + q + b2n cin) % 2 ^ width w32) := by
    have := fits_opnd w32 (BitVec.ofNat 64 (p + q + b2n cin))
    rwa [uns, BitVec.toNat_ofNat, Nat.mod_mod_of_dvd _ (Nat.pow_dvd_pow 2 (width_le w32))] at this
  rw [← overflows_add cin hx.lt hy.lt, ← hx.topBit_eq, ← hy.topBit_eq, ← hr.topBit_eq]
  unfold addWith
  rw [hx.toNat_eq, hy.toNat_eq]
  exact ⟨hr, rfl, rfl⟩

/-- NOT of a number of the width is its distance from the greatest one. -/
theorem fits_notW (hy : Fits w32 y q) : Fits w32 (notW w32 y) (2 ^ width w32 - 1 - q) := by
  have hq := hy.lt
  have hr := fits_opnd w32 (~~~y)
  have hmod : (2 ^ 64 - 1 - q) % 2 ^ width w32 = 2 ^ width w32 - 1 - q := by
    cases w32 <;> simp only [width_true, width_false] at hq ⊢ <;> omega
  rwa [uns, BitVec.toNat_not, hy.toNat_eq, hmod] at hr

theorem sgn_not (hq : q < 2 ^ width w32) : sgn w32 (2 ^ width w32 - 1 - q) = -sgn w32 q - 1 := by
  rw [sgn_eq, sgn_eq]
  rw [two_pow_width_eq] at hq ⊢
  generalize 2 ^ (width w32 - 1) = k at hq ⊢
  split <;> split <;> omega

/-- A difference with borrow: x + NOT y + C is x − y − 1 + C. -/
theorem subWith_gives (hx : Fits w32 x p) (hy : Fits w32 y q) (cin : Bool) :
    Gives w32 (subWith w32 x y cin) f ((p + 2 ^ width w32 - q + b2n cin - 1) % 2 ^ width w32)
      (decide (q + 1 ≤ p + b2n cin)) (overflows w32 (sgn w32 p - sgn w32 q + b2n cin - 1)) := by
  have hq := hy.lt
  have g := addWith_gives f hx (fits_notW hy) cin
  have hn : p + (2 ^ width w32 - 1 - q) + b2n cin = p + 2 ^ width w32 - q + b2n cin - 1 := by omega
  have hc : 2 ^ width w32 ≤ p + 2 ^ width w32 - q + b2n cin - 1 ↔ q + 1 ≤ p + b2n cin := by omega
  have hv : sgn w32 p + (-sgn w32 q - 1) + b2n cin = sgn w32 p - sgn w32 q + b2n cin - 1 := by ring
  rwa [sgn_not hq, hn, decide_eq_decide.mpr hc, hv] at g

theorem add_gives (hx : Fits w32 x p) (hy : Fits w32 y q) :
    Gives w32 (addWith w32 x y false) f ((p + q) % 2 ^ width w32) (decide (2 ^ width w32 ≤ p + q))
      (overflows w32 (sgn w32 p + sgn w32 q)) := by
  simpa [b2n] using addWith_gives f hx hy false

theorem sub_gives (hx : Fits w32 x p) (hy : Fits w32 y q) :
    Gives w32 (subWith w32 x y true) f ((p + 2 ^ width w32 - q) % 2 ^ width w32) (decide (q ≤ p))
      (overflows w32 (sgn w32 p - sgn w32 q)) := by
  simpa [b2n] using subWith_gives f hx hy true

/-! ### Logic -/

/-- The word of the width whose bits are `φ` of the bits of two words. -/
def bitwise (w32 : Bool) (φ : Bool → Bool → Bool) (x y : Word) : Word :=
  BitVec.ofFnLE (fun i : Fin 64 => decide (i.val < width w32) && φ (x.getLsbD i) (y.getLsbD i))

theorem getLsbD_andn (u v : Word) (i : Nat) (hi : i < 64) :
    (u &&& ~~~v).getLsbD i = (u.getLsbD i && !v.getLsbD i) := by
  rw [BitVec.getLsbD_and, BitVec.getLsbD_not, decide_eq_true hi, Bool.true_and]

theorem getLsbD_bitwise (φ : Bool → Bool → Bool) (x y : Word) {i : Nat} (hi : i < 64) :
    (bitwise w32 φ x y).getLsbD i = (decide (i < width w32) && φ (x.getLsbD i) (y.getLsbD i)) := by
  simp [bitwise, hi]

/-- An operation that works bit by bit, and gives 0 for two bits that are 0, keeps to the width of its operands. -/
theorem logic_gives {op : Word → Word → Word} {φ : Bool → Bool → Bool} (h0 : φ false false = false)
    (hop : ∀ u v : Word, ∀ i < 64, (op u v).getLsbD i = φ (u.getLsbD i) (v.getLsbD i)) (x y : Word) :
    Gives w32 (logic (op (opnd w32 x) (opnd w32 y))) f (bitwise w32 φ x y).toNat f.c false := by
  have hb : op (opnd w32 x) (opnd w32 y) = bitwise w32 φ x y := by
    refine BitVec.eq_of_getLsbD_eq fun i hi => ?_
    rw [hop _ _ i hi, getLsbD_bitwise φ x y hi, getLsbD_opnd, getLsbD_opnd]
    by_cases hw : i < width w32 <;> simp [hw, h0]
  refine ⟨⟨congrArg BitVec.toNat hb, Nat.lt_pow_two_of_testBit _ fun i hi => ?_⟩, rfl, rfl⟩
  rw [BitVec.testBit_toNat]
  by_cases h64 : i < 64
  · simp [getLsbD_bitwise φ x y h64, hi.not_gt]
  · exact BitVec.getLsbD_of_ge _ _ (by omega)

/-! ### Shifts and rotation -/

theorem amount_opnd (w32 : Bool) (y : Word) : amount w32 (opnd w32 y) = uns w32 y % width w32 := by
  rw [amount, opnd_toNat]; rfl

theorem amount_lt (w32 : Bool) (v : Nat) : v % width w32 < width w32 := Nat.mod_lt _ (by cases w32 <;> decide)

/-- C is the last bit out, and stays for a shift by 0. -/
theorem carryOut_getD (hx : Fits w32 x p) (n i : Nat) :
    (if n = 0 then none else some (x.getLsbD i)).getD f.c = if n = 0 then f.c else p.testBit i := by
  rw [← hx.getLsbD_eq]; split <;> rfl

theorem shl_gives (hx : Fits w32 x p) (n : Nat) :
    Gives w32 (shlOp w32 x n) f (p * 2 ^ n % 2 ^ width w32) (if n = 0 then f.c else p.testBit (width w32 - n)) f.v := by
  have hr := fits_opnd w32 (x <<< n)
  rw [uns, BitVec.toNat_shiftLeft, hx.toNat_eq, Nat.shiftLeft_eq,
    Nat.mod_mod_of_dvd _ (Nat.pow_dvd_pow 2 (width_le w32))] at hr
  exact ⟨hr, carryOut_getD f hx n _, rfl⟩

theorem shr_gives (hx : Fits w32 x p) (n : Nat) :
    Gives w32 (shrOp x n) f (p / 2 ^ n) (if n = 0 then f.c else p.testBit (n - 1)) f.v := by
  refine ⟨⟨?_, (Nat.div_le_self _ _).trans_lt hx.lt⟩, carryOut_getD f hx n _, rfl⟩
  rw [← hx.toNat_eq]
  exact (BitVec.toNat_ushiftRight x n).trans (Nat.shiftRight_eq_div_pow _ _)

/-- An arithmetic shift divides the signed number, rounding down. -/
theorem toNat_sshiftRight_eq_toInt_div {w : Nat} (v : BitVec w) (n : Nat) :
    (v.sshiftRight n).toNat = (v.toInt / (2 ^ n : Int) % (2 ^ w : Int)).toNat := by
  rw [← BitVec.ofInt_toInt (x := v.sshiftRight n), BitVec.toNat_ofInt, BitVec.toInt_sshiftRight, Int.shiftRight_eq_div_pow]
  push_cast
  rfl

/-- The words of the widths, read as two's complement. -/
theorem toInt_eq_sgn {w : Nat} {v : BitVec w} (hw : w = width w32) (h : v.toNat = p) : v.toInt = sgn w32 p := by
  rw [BitVec.toInt_eq_toNat_cond, h, sgn_eq, hw, two_pow_width_eq, Nat.cast_mul, Nat.cast_ofNat]
  exact if_congr (Nat.mul_lt_mul_left (by decide)) rfl rfl

theorem sar_gives (hx : Fits w32 x p) (n : Nat) :
    Gives w32 (sarOp w32 x n) f (sgn w32 p / (2 ^ n : Int) % (2 ^ width w32 : Int)).toNat
      (if n = 0 then f.c else p.testBit (n - 1)) f.v := by
  refine ⟨?_, carryOut_getD f hx n _, rfl⟩
  cases w32 with
  | false =>
    have hr := toNat_sshiftRight_eq_toInt_div x n
    rw [toInt_eq_sgn (w32 := false) (v := x) rfl hx.toNat_eq] at hr
    exact ⟨hr, hr ▸ (x.sshiftRight n).isLt⟩
  | true =>
    have hr := toNat_sshiftRight_eq_toInt_div (x.setWidth 32) n
    rw [toInt_eq_sgn (w32 := true) (v := x.setWidth 32) rfl hx.toNat_setWidth] at hr
    exact fits_extend hr

/-- A rotation to the right puts the low `n` bits above the others. -/
theorem toNat_rotateRight_eq_add {w n : Nat} (v : BitVec w) (hn : n < w) :
    (v.rotateRight n).toNat = (v.toNat / 2 ^ n + v.toNat * 2 ^ (w - n)) % 2 ^ w := by
  have hw : 2 ^ w = 2 ^ (w - n) * 2 ^ n := by rw [← Nat.pow_add, Nat.sub_add_cancel hn.le]
  have hhi : v.toNat / 2 ^ n < 2 ^ (w - n) := Nat.div_lt_of_lt_mul (by rw [Nat.mul_comm, ← hw]; exact v.isLt)
  have hlo : v.toNat * 2 ^ (w - n) % 2 ^ w = 2 ^ (w - n) * (v.toNat % 2 ^ n) := by
    rw [hw, Nat.mul_comm, Nat.mul_mod_mul_left]
  have hsum : 2 ^ (w - n) * (v.toNat % 2 ^ n) + v.toNat / 2 ^ n = (v.rotateRight n).toNat := by
    rw [BitVec.toNat_rotateRight, Nat.mod_eq_of_lt hn, Nat.shiftRight_eq_div_pow, Nat.shiftLeft_eq, hlo, Nat.or_comm,
      Nat.two_pow_add_eq_or_of_lt hhi]
  calc (v.rotateRight n).toNat
      = (v.rotateRight n).toNat % 2 ^ w := (Nat.mod_eq_of_lt (v.rotateRight n).isLt).symm
    _ = (v.toNat / 2 ^ n + v.toNat * 2 ^ (w - n)) % 2 ^ w := by rw [← hsum, ← hlo, Nat.mod_add_mod, Nat.add_comm]

theorem ror_gives (hx : Fits w32 x p) {n : Nat} (hn : n < width w32) :
    Gives w32 (rorOp w32 x n) f ((p / 2 ^ n + p * 2 ^ (width w32 - n)) % 2 ^ width w32) f.c f.v := by
  refine ⟨?_, rfl, rfl⟩
  cases w32 with
  | false =>
    have hr := toNat_rotateRight_eq_add x hn
    rw [hx.toNat_eq] at hr
    exact ⟨hr, Nat.mod_lt _ (by positivity)⟩
  | true =>
    have hr := toNat_rotateRight_eq_add (x.setWidth 32) hn
    rw [hx.toNat_setWidth] at hr
    exact fits_extend hr

/-! ### Products, least and greatest -/

theorem mul_gives (hx : Fits w32 x p) (hy : Fits w32 y q) :
    Gives w32 (mulOp w32 x y) f (p * q % 2 ^ width w32) f.c f.v := by
  have hr := fits_opnd w32 (x * y)
  rw [uns, BitVec.toNat_mul, hx.toNat_eq, hy.toNat_eq, Nat.mod_mod_of_dvd _ (Nat.pow_dvd_pow 2 (width_le w32))] at hr
  exact ⟨hr, rfl, rfl⟩

theorem mulhu_gives (hx : Fits w32 x p) (hy : Fits w32 y q) :
    Gives w32 (mulhuOp w32 x y) f (p * q / 2 ^ width w32) f.c f.v := by
  have hlt : p * q / 2 ^ width w32 < 2 ^ width w32 := Nat.div_lt_of_lt_mul (Nat.mul_lt_mul'' hx.lt hy.lt)
  refine ⟨?_, rfl, rfl⟩
  rw [mulhuOp, hx.toNat_eq, hy.toNat_eq]
  exact fits_ofNat hlt

theorem minu_gives (hx : Fits w32 x p) (hy : Fits w32 y q) :
    Gives w32 { val := if x.toNat ≤ y.toNat then x else y } f (min p q) f.c f.v := by
  refine ⟨?_, rfl, rfl⟩
  rw [hx.toNat_eq, hy.toNat_eq, Nat.min_def]
  split
  · exact hx
  · exact hy

theorem maxu_gives (hx : Fits w32 x p) (hy : Fits w32 y q) :
    Gives w32 { val := if x.toNat ≤ y.toNat then y else x } f (max p q) f.c f.v := by
  refine ⟨?_, rfl, rfl⟩
  rw [hx.toNat_eq, hy.toNat_eq, Nat.max_def]
  split
  · exact hy
  · exact hx

/-! ### Counts of zeros and of ones -/

/-- The top bit of a remainder decides which half of its range it lies in. -/
theorem mod_two_pow_succ_eq (p n : Nat) : p % 2 ^ (n + 1) = p % 2 ^ n + if p.testBit n then 2 ^ n else 0 := by
  rw [Nat.mod_pow_succ, Nat.testBit_eq_decide_div_mod_eq]
  obtain h | h := Nat.mod_two_eq_zero_or_one (p / 2 ^ n) <;> simp [h]

/-- The zeros counted from the top end at the first 1. -/
theorem clzIn_spec (hx : Fits w32 x p) (n : Nat) :
    clzIn x n ≤ n ∧ p % 2 ^ n < 2 ^ (n - clzIn x n) ∧ (clzIn x n < n → 2 ^ (n - clzIn x n - 1) ≤ p % 2 ^ n) := by
  induction n with
  | zero => simp [clzIn, Nat.mod_one]
  | succ n ih =>
    obtain ⟨hle, hlt, hge⟩ := ih
    rw [clzIn, hx.getLsbD_eq]
    by_cases hb : p.testBit n
    · rw [if_pos hb]
      refine ⟨Nat.zero_le _, Nat.mod_lt _ (by positivity), fun _ => ?_⟩
      rw [mod_two_pow_succ_eq, if_pos hb]
      exact Nat.le_add_left _ _
    · rw [if_neg hb, mod_two_pow_succ_eq, if_neg hb, Nat.add_zero, Nat.add_comm 1, Nat.add_sub_add_right]
      exact ⟨Nat.succ_le_succ hle, hlt, fun h => hge (Nat.lt_of_succ_lt_succ h)⟩

/-- The zeros counted from bit `i` upwards end at the first 1. -/
theorem ctzIn_spec (hx : Fits w32 x p) (n i : Nat) :
    ctzIn x i n ≤ n ∧ p / 2 ^ i % 2 ^ ctzIn x i n = 0 ∧ (ctzIn x i n < n → p / 2 ^ i / 2 ^ ctzIn x i n % 2 = 1) := by
  induction n generalizing i with
  | zero => simp [ctzIn, Nat.mod_one]
  | succ n ih =>
    obtain ⟨hle, hmod, hbit⟩ := ih (i + 1)
    rw [ctzIn, hx.getLsbD_eq, Nat.testBit_eq_decide_div_mod_eq]
    obtain hb | hb := Nat.mod_two_eq_zero_or_one (p / 2 ^ i)
    · have hdiv : p / 2 ^ (i + 1) = p / 2 ^ i / 2 := by rw [Nat.pow_succ, Nat.div_div_eq_div_mul]
      rw [hdiv] at hmod hbit
      rw [hb, if_neg (by decide), Nat.add_comm 1, Nat.pow_succ', Nat.mod_mul, hb, hmod, ← Nat.div_div_eq_div_mul]
      exact ⟨Nat.succ_le_succ hle, rfl, fun h => hbit (Nat.lt_of_succ_lt_succ h)⟩
    · rw [hb, if_pos (by decide)]
      exact ⟨Nat.zero_le _, Nat.mod_one _, fun _ => by rwa [Nat.pow_zero, Nat.div_one]⟩

theorem clz_gives (hx : Fits w32 x p) : Gives w32 (clzOp w32 x) f (clzIn x (width w32)) f.c f.v :=
  ⟨fits_ofNat (lt_two_pow_width w32 ((clzIn_spec hx _).1.trans (width_le w32))), rfl, rfl⟩

theorem ctz_gives (hx : Fits w32 x p) : Gives w32 (ctzOp w32 x) f (ctzIn x 0 (width w32)) f.c f.v :=
  ⟨fits_ofNat (lt_two_pow_width w32 ((ctzIn_spec hx _ 0).1.trans (width_le w32))), rfl, rfl⟩

/-- Counting the bits that are 1 adds up the bits. -/
theorem length_filter_getLsbD (hx : Fits w32 x p) (l : List Nat) :
    (l.filter (fun i => x.getLsbD i)).length = (l.map (fun i => p / 2 ^ i % 2)).sum := by
  induction l with
  | nil => rfl
  | cons i l ih =>
    rw [List.map_cons, List.sum_cons, ← ih, List.filter_cons, hx.getLsbD_eq, ← Nat.toNat_testBit]
    cases p.testBit i <;> simp [Nat.add_comm]

/-- The bits of a number from the width on add nothing. -/
theorem sum_bits_range (hp : p < 2 ^ width w32) :
    ((List.range 64).map (fun i => p / 2 ^ i % 2)).sum = ((List.range (width w32)).map (fun i => p / 2 ^ i % 2)).sum := by
  have hzero : ∀ i ≥ width w32, p / 2 ^ i % 2 = 0 := fun i hi => by
    rw [Nat.div_eq_of_lt (hp.trans_le (Nat.pow_le_pow_right (by decide) hi))]
  rw [← Nat.add_sub_cancel' (width_le w32), List.range_add, List.map_append, List.sum_append, List.map_map]
  refine Nat.add_eq_left.mpr (List.sum_eq_zero fun b hb => ?_)
  obtain ⟨i, -, rfl⟩ := List.mem_map.mp hb
  exact hzero _ (Nat.le_add_right _ _)

theorem popc_gives (hx : Fits w32 x p) :
    Gives w32 (popcOp x) f ((List.range (width w32)).map (fun i => p / 2 ^ i % 2)).sum f.c f.v := by
  have hcount := (length_filter_getLsbD hx (List.range 64)).trans (sum_bits_range hx.lt)
  have hle : ((List.range 64).filter (fun i => x.getLsbD i)).length ≤ 64 :=
    (List.length_filter_le _ _).trans_eq List.length_range
  rw [← hcount]
  exact ⟨fits_ofNat (lt_two_pow_width w32 hle), rfl, rfl⟩

/-! ### Bytes -/

theorem length_toLE (k v : Nat) : (toLE k v).length = k := by
  induction k generalizing v with
  | zero => rfl
  | succ k ih => simp [toLE, ih]

theorem foldl_bytes_eq (bs : List Byte) (a : Nat) :
    bs.foldl (fun a b => a * 256 + b.toNat) a = a * 256 ^ bs.length + ofBE bs := by
  induction bs generalizing a with
  | nil => simp [ofBE]
  | cons b bs ih =>
    rw [ofBE, List.foldl_cons, List.foldl_cons, ih, ih (0 * 256 + b.toNat), List.length_cons, Nat.pow_succ]
    ring

/-- The first byte is the most significant. -/
theorem ofBE_cons (b : Byte) (bs : List Byte) : ofBE (b :: bs) = b.toNat * 256 ^ bs.length + ofBE bs := by
  rw [ofBE, List.foldl_cons, foldl_bytes_eq, Nat.zero_mul, Nat.zero_add]

theorem ofBE_lt (bs : List Byte) : ofBE bs < 256 ^ bs.length := by
  induction bs with
  | nil => decide
  | cons b bs ih =>
    rw [ofBE_cons, List.length_cons, Nat.pow_succ']
    calc b.toNat * 256 ^ bs.length + ofBE bs < (b.toNat + 1) * 256 ^ bs.length := by rw [Nat.add_one_mul]; omega
      _ ≤ 256 * 256 ^ bs.length := Nat.mul_le_mul_right _ b.isLt

/-- The low bytes of a number in the other order: byte `i` is byte `k - 1 - i` of the number. -/
theorem ofBE_toLE_byte (k v i : Nat) (hi : i < k) :
    ofBE (toLE k v) / 256 ^ i % 256 = v / 256 ^ (k - 1 - i) % 256 := by
  induction k generalizing v with
  | zero => omega
  | succ k ih =>
    have hlt := ofBE_lt (toLE k (v / 256))
    rw [length_toLE] at hlt
    rw [toLE, ofBE_cons, length_toLE, BitVec.toNat_ofNat]
    obtain h | rfl := Nat.lt_succ_iff_lt_or_eq.mp hi
    · have hk : 256 ^ k = 256 ^ i * (256 * 256 ^ (k - 1 - i)) := by
        rw [← Nat.pow_succ', ← Nat.pow_add]; congr 1; omega
      have hpow : k + 1 - 1 - i = k - 1 - i + 1 := by omega
      rw [hk, Nat.mul_left_comm, Nat.mul_add_div (by positivity), Nat.mul_left_comm, Nat.mul_add_mod, ih _ h, hpow,
        Nat.pow_succ', Nat.div_div_eq_div_mul]
    · rw [Nat.mul_comm, Nat.mul_add_div (by positivity), Nat.div_eq_of_lt hlt]
      simp

theorem bswap_lt (w32 : Bool) (v : Nat) : ofBE (toLE (width w32 / 8) v) < 2 ^ width w32 := by
  have h := ofBE_lt (toLE (width w32 / 8) v)
  rw [length_toLE] at h
  cases w32 <;> exact h

theorem bswap_gives (hx : Fits w32 x p) : Gives w32 (bswapOp w32 x) f (ofBE (toLE (width w32 / 8) p)) f.c f.v := by
  refine ⟨?_, rfl, rfl⟩
  rw [bswapOp, hx.toNat_eq]
  exact fits_ofNat (bswap_lt w32 p)

end Operations

/-- Settles O1: each operation completes with what its lemma gives, over the operands of the width. -/
theorem aluOperationsSetResultAndFlags : Obligations.AluOperationsSetResultAndFlags := by
  unfold Obligations.AluOperationsSetResultAndFlags
  refine ⟨fun s r kf w32 d a b h => ?_, fun s r kf w32 d a b h => ?_, fun s r kf w32 d a b h => ?_,
    fun s r kf w32 d a b h => ?_, fun s r kf w32 d a h => ?_⟩
  all_goals
    have hx := fits_opnd w32 (getW (rope s r.toNat) a)
  · have hy := fits_opnd w32 (getW (rope s r.toNat) b)
    exact ⟨issueRope_alu h kf d (add_gives _ hx hy), issueRope_alu h kf d (addWith_gives _ hx hy _),
      issueRope_alu h kf d (sub_gives _ hx hy), issueRope_alu h kf d (subWith_gives _ hx hy _),
      issueRope_alu_flags h kf (sub_gives _ hx hy)⟩
  · exact ⟨issueRope_alu h kf d (logic_gives _ rfl (fun _ _ _ _ => BitVec.getLsbD_and) _ _),
      issueRope_alu h kf d (logic_gives _ rfl (fun _ _ _ _ => BitVec.getLsbD_or) _ _),
      issueRope_alu h kf d (logic_gives _ rfl (fun _ _ _ _ => BitVec.getLsbD_xor) _ _),
      issueRope_alu h kf d (logic_gives _ (op := fun u v => u &&& ~~~v) (φ := fun u v => u && !v) rfl getLsbD_andn _ _),
      issueRope_alu_flags h kf (logic_gives _ rfl (fun _ _ _ _ => BitVec.getLsbD_and) _ _)⟩
  · have hn := amount_opnd w32 (getW (rope s r.toNat) b)
    exact ⟨issueRope_alu h kf d (hn ▸ shl_gives _ hx _), issueRope_alu h kf d (hn ▸ shr_gives _ hx _),
      issueRope_alu h kf d (hn ▸ sar_gives _ hx _), issueRope_alu h kf d (hn ▸ ror_gives _ hx (amount_lt w32 _))⟩
  · have hy := fits_opnd w32 (getW (rope s r.toNat) b)
    exact ⟨issueRope_alu h kf d (mul_gives _ hx hy), issueRope_alu h kf d (mulhu_gives _ hx hy),
      issueRope_alu h kf d (minu_gives _ hx hy), issueRope_alu h kf d (maxu_gives _ hx hy)⟩
  · have hclz := clzIn_spec hx (width w32)
    rw [Nat.mod_eq_of_lt hx.lt] at hclz
    have hctz := ctzIn_spec hx (width w32) 0
    rw [Nat.pow_zero, Nat.div_one] at hctz
    exact ⟨⟨_, issueRope_alu h kf d (clz_gives _ hx), hclz⟩, ⟨_, issueRope_alu h kf d (ctz_gives _ hx), hctz⟩,
      issueRope_alu h kf d (popc_gives _ hx),
      ⟨_, issueRope_alu h kf d (bswap_gives _ hx), bswap_lt w32 _, ofBE_toLE_byte _ _⟩⟩

end Sys2Proof.Proofs

/-! The operations of Crampon (R200 to R204). `issueK_post` puts a value on the scoreboard. The other lemmas read a k register
as its bytes and a sum of powers of 2 as its bits. -/

namespace Sys2Proof.Proofs

open Sys2Proof.Machine Sys2Proof.Claim

/-! ### A result joins the scoreboard (R198) -/

@[simp] theorem rope_cpenSpent (s : State) (r q : Nat) : rope (cpenSpent s r) q = rope s q := by
  unfold cpenSpent
  split <;> rfl

@[simp] theorem cpenSpent_now (s : State) (r : Nat) : (cpenSpent s r).time.now = s.time.now := by
  unfold cpenSpent
  split <;> rfl

@[simp] theorem dpU_cpenSpent (s : State) (r : Nat) : dpU (cpenSpent s r) = dpU s := by
  unfold cpenSpent
  split <;> rfl

/-- An operation that need not wait posts what it makes of its rope's registers, due after its latency. -/
theorem issueK_post {s : State} {r : Issuer} {ks ls : List (BitVec 4)} (h : CramponIssues s r ks) (hs : ls ⊆ ks)
    (kd : BitVec 4) (f : Rope → KWord) (cycles : Nat) :
    issueK s r ls (fun s => .done (kPost s r.toNat kd (f (rope s r.toNat)) cycles)) =
      .next (after (cpenSpent s r.toNat) r
        (posted (rope s r.toNat) kd (f (rope s r.toNat)) (s.time.now + cycles * dpU s))) := by
  rw [issueK_ok h fun _ hk => hs hk]
  simp only [settleEff, kPost, modRope, after, posted, rope_setRope_same, setRope_setRope, rope_cpenSpent, cpenSpent_now,
    dpU_cpenSpent]

/-! ### The bytes of a k register (R196) -/

theorem toLE_eq_map_range (n v : Nat) : toLE n v = (List.range n).map fun i => BitVec.ofNat 8 (v / 256 ^ i) := by
  induction n generalizing v with
  | zero => rfl
  | succ n ih =>
    rw [toLE, ih, List.range_succ_eq_map, List.map_cons, List.map_map, Nat.pow_zero, Nat.div_one]
    congr 2
    funext i
    simp only [Function.comp_apply, Nat.pow_succ', Nat.div_div_eq_div_mul]

/-- Byte `i` of a word is bits [8i + 7:8i]. -/
theorem ofNat_div_eq_extractLsb' {w : Nat} (k : BitVec w) (i : Nat) :
    BitVec.ofNat 8 (k.toNat / 256 ^ i) = k.extractLsb' (8 * i) 8 := by
  apply BitVec.eq_of_toNat_eq
  rw [BitVec.extractLsb'_toNat, BitVec.toNat_ofNat, Nat.shiftRight_eq_div_pow, Nat.pow_mul]

theorem kBytes_eq_map_range (k : KWord) : kBytes k = (List.range 64).map fun i => k.extractLsb' (8 * i) 8 := by
  simp only [kBytes, toLE_eq_map_range, ofNat_div_eq_extractLsb']

theorem lget_map_range {α : Type} (f : Nat → α) {n i : Nat} (h : i < n) (d : α) : lget ((List.range n).map f) i d = f i := by
  simp [lget, h]

theorem lget_kBytes (k : KWord) {i : Nat} (h : i < 64) (d : Byte) : lget (kBytes k) i d = k.extractLsb' (8 * i) 8 := by
  rw [kBytes_eq_map_range, lget_map_range _ h]

theorem ofLE_lt (bs : List Byte) : ofLE bs < 256 ^ bs.length := by
  induction bs with
  | nil => decide
  | cons b bs ih =>
    have hb := b.isLt
    rw [ofLE, List.length_cons, Nat.pow_succ']
    omega

theorem ofNat_ofLE_div (bs : List Byte) (i : Nat) : BitVec.ofNat 8 (ofLE bs / 256 ^ i) = lget bs i 0 := by
  induction bs generalizing i with
  | nil => simp [ofLE, lget]
  | cons b bs ih =>
    cases i with
    | zero =>
      apply BitVec.eq_of_toNat_eq
      simp [ofLE, lget, Nat.mod_eq_of_lt b.isLt]
    | succ i =>
      have hdiv : (b.toNat + 256 * ofLE bs) / 256 = ofLE bs := by have := b.isLt; omega
      rw [ofLE, Nat.pow_succ', ← Nat.div_div_eq_div_mul, hdiv, ih]
      rfl

/-- A word made of no more bytes than it has room for holds them in order. -/
theorem extractLsb'_ofNat_ofLE {n : Nat} (bs : List Byte) (h : bs.length ≤ n) (i : Nat) :
    (BitVec.ofNat (8 * n) (ofLE bs)).extractLsb' (8 * i) 8 = lget bs i 0 := by
  have hlt : ofLE bs < 2 ^ (8 * n) := by
    rw [Nat.pow_mul]
    exact (ofLE_lt bs).trans_le (Nat.pow_le_pow_right (by decide) h)
  rw [← ofNat_div_eq_extractLsb', BitVec.toNat_ofNat, Nat.mod_eq_of_lt hlt, ofNat_ofLE_div]

theorem extractLsb'_kOf (bs : List Byte) (h : bs.length ≤ 64) (i : Nat) :
    (kOf bs).extractLsb' (8 * i) 8 = lget bs i 0 :=
  extractLsb'_ofNat_ofLE bs h i

/-! ### Runs of bytes (R201) -/

theorem take_drop_range (m o n : Nat) :
    ((List.range m).drop o).take n = (List.range (min n (m - o))).map (o + ·) := by
  rw [List.range_eq_range', List.drop_range', List.range'_eq_map_range, ← List.map_take, List.take_range]
  simp

/-- The numbers below `m` in a run of `n` from `o` on are what is left of it below `m`. -/
theorem filter_run_range (m o n : Nat) :
    (List.range m).filter (fun i => decide (o ≤ i) && decide (i < o + n)) = ((List.range m).drop o).take n := by
  have hlen : min m (o + n) - o = min n (m - o) := by omega
  rw [take_drop_range, ← List.filter_filter, ← List.Ico.zero_bot, List.Ico.filter_lt, List.Ico.filter_le, Nat.zero_max,
    List.Ico, hlen, List.range'_eq_map_range]

/-- The bytes that w covers, by the fields of w. -/
theorem covered_eq_filter (k : KWord) (w : Word) :
    covered k w = ((List.range 64).filter fun i => decide ((w.extractLsb' 40 6).toNat ≤ i) &&
      decide (i < (w.extractLsb' 40 6).toNat + (w.extractLsb' 32 7).toNat)).map fun i => k.extractLsb' (8 * i) 8 := by
  rw [filter_run_range, List.map_take, List.map_drop, ← kBytes_eq_map_range, BitVec.extractLsb'_toNat,
    BitVec.extractLsb'_toNat, Nat.shiftRight_eq_div_pow, Nat.shiftRight_eq_div_pow]
  rfl

/-! ### CRCs and hashes (R201, R202) -/

/-- The result of KCRC32C and KCRC32, by their polynomial. -/
def crcOf (poly : Nat) (k : KWord) (w : Word) : KWord := BitVec.ofNat 512 (crc poly (w.toNat % 2 ^ 32) (covered k w))

theorem crcOf_eq (poly : Nat) (k : KWord) (w : Word) :
    crcOf poly k w = BitVec.ofNat 512 (crc poly (w.extractLsb' 0 32).toNat (covered k w)) := by
  rw [crcOf, BitVec.extractLsb'_toNat]
  rfl

theorem kh2Of_eq (ka kb : KWord) (w : Word) :
    kh2Of ka kb w = BitVec.ofNat 512 (crc32c (toBE 4 (kb.extractLsb' (32 * 0) 32).toNat ++ covered ka w) +
      crc32c (toBE 4 (kb.extractLsb' (32 * 1) 32).toNat ++ covered ka w) * 2 ^ 64) := by
  simp only [kh2Of, BitVec.extractLsb'_toNat, Nat.shiftRight_eq_div_pow, Nat.mul_zero, Nat.mul_one, Nat.pow_zero, Nat.div_one]

/-! ### The masked compare (R203) -/

/-- Byte `j` of two registers is equal where the mask has a 1. -/
def byteEq (ka kb mask : KWord) (j : Nat) : Bool := ((ka ^^^ kb) &&& mask).extractLsb' (8 * j) 8 == 0

/-- All bytes of lane `l` are equal. -/
def laneEq (ka kb mask : KWord) (l : Nat) : Bool := (List.range 8).all fun j => byteEq ka kb mask (8 * l + j)

theorem b2n_eq_toNat (b : Bool) : b2n b = b.toNat := by cases b <;> rfl

/-- A sum of powers of 2 is the number of these bits. -/
theorem sum_two_pow_eq_ofBits (n : Nat) (f : Nat → Bool) :
    ((List.range n).map fun i => b2n (f i) * 2 ^ i).sum = Nat.ofBits fun i : Fin n => f i := by
  induction n generalizing f with
  | zero => rfl
  | succ n ih =>
    have hshift : (fun i => b2n (f i) * 2 ^ i) ∘ Nat.succ = fun i => 2 * (b2n (f (i + 1)) * 2 ^ i) := by
      funext i
      rw [Function.comp_apply, Nat.succ_eq_add_one, Nat.pow_succ']
      ring
    rw [List.range_succ_eq_map, List.map_cons, List.map_map, hshift, List.sum_cons, List.sum_map_mul_left,
      ih fun i => f (i + 1), Nat.ofBits_succ, Nat.add_comm, b2n_eq_toNat, Nat.pow_zero, Nat.mul_one]
    rfl

theorem testBit_ofBits_eq (n i : Nat) (f : Nat → Bool) :
    (Nat.ofBits fun j : Fin n => f j).testBit i = if i < n then f i else false := by
  rw [Nat.testBit_ofBits]
  rfl

theorem zipIdx_map_range {α : Type} (n : Nat) (f : Nat → α) :
    ((List.range n).map f).zipIdx = (List.range n).map fun i => (f i, i) :=
  List.ext_getElem (by simp) (by simp)

/-- The equal bytes of a lane, cut out of all 64. -/
theorem all_take_drop_byteEq (ka kb mask : KWord) {l : Nat} (h : l < 8) :
    ((((List.range 64).map (byteEq ka kb mask)).drop (8 * l)).take 8).all id = laneEq ka kb mask l := by
  have hlen : min 8 (64 - 8 * l) = 8 := by omega
  rw [← List.map_drop, ← List.map_take, take_drop_range, hlen, List.map_map, List.all_map]
  rfl

/-- The result as a number: ALL and the lanes from bit 64 on, the bytes below. -/
theorem kcmpmOf_eq (ka kb mask : KWord) :
    kcmpmOf ka kb mask = BitVec.ofNat 512 (2 ^ 64 * (2 ^ 8 * Nat.ofBits (fun l : Fin 8 => laneEq ka kb mask l) +
      b2n ((List.range 64).all (byteEq ka kb mask))) + Nat.ofBits fun j : Fin 64 => byteEq ka kb mask j) := by
  have hbytes : (toLE 64 ((ka ^^^ kb) &&& mask).toNat).map (fun b => b == 0) = (List.range 64).map (byteEq ka kb mask) := by
    rw [← kBytes, kBytes_eq_map_range, List.map_map]
    rfl
  have hlanes : ((List.range 8).map fun l =>
      b2n ((((List.range 64).map (byteEq ka kb mask)).drop (8 * l)).take 8 |>.all id) * 2 ^ (8 + l)).sum =
      2 ^ 8 * Nat.ofBits fun l : Fin 8 => laneEq ka kb mask l := by
    rw [← sum_two_pow_eq_ofBits, ← List.sum_map_mul_left]
    refine congrArg List.sum (List.map_congr_left fun l hl => ?_)
    rw [all_take_drop_byteEq _ _ _ (List.mem_range.mp hl), Nat.pow_add, Nat.mul_left_comm]
  have hbits : (((List.range 64).map (byteEq ka kb mask)).zipIdx.map fun p => b2n p.1 * 2 ^ p.2).sum =
      Nat.ofBits fun j : Fin 64 => byteEq ka kb mask j := by
    rw [zipIdx_map_range, List.map_map, ← sum_two_pow_eq_ofBits]
    rfl
  have hall : ((List.range 64).map (byteEq ka kb mask)).all id = (List.range 64).all (byteEq ka kb mask) := by
    rw [List.all_map]
    rfl
  simp only [kcmpmOf, hbytes, hlanes, hbits, hall]
  rw [Nat.add_comm, Nat.mul_comm (2 ^ 64)]

theorem getLsbD_kcmpmOf (ka kb mask : KWord) (i : Nat) :
    (kcmpmOf ka kb mask).getLsbD i = if i < 64 then byteEq ka kb mask i
      else if i = 64 then (List.range 64).all (byteEq ka kb mask)
      else if 72 ≤ i ∧ i < 80 then laneEq ka kb mask (i - 72)
      else false := by
  have hall : ((List.range 64).all (byteEq ka kb mask)).toNat < 2 ^ 8 := (Bool.toNat_lt _).trans (by decide)
  rw [kcmpmOf_eq, b2n_eq_toNat, BitVec.getLsbD_ofNat, Nat.testBit_two_pow_mul_add _ (Nat.ofBits_lt_two_pow _),
    Nat.testBit_two_pow_mul_add _ hall, Nat.testBit_bool_toNat]
  simp only [testBit_ofBits_eq]
  obtain h | rfl | h | h | h : i < 64 ∨ i = 64 ∨ (64 < i ∧ i < 72) ∨ (72 ≤ i ∧ i < 80) ∨ 80 ≤ i := by omega
  · simp (disch := omega) only [if_pos, decide_eq_true, Bool.true_and]
  · simp
  · simp (disch := omega) only [if_pos, if_neg, decide_eq_false, Bool.false_and, Bool.and_false]
  · simp (disch := omega) only [if_pos, if_neg, decide_eq_true, Bool.true_and, Nat.sub_sub]
  · simp (disch := omega) only [if_neg, Bool.and_false]

/-! ### The splice (R204) -/

theorem extractLsb'_kspliceOf (ka kb : KWord) (w : Word) {i : Nat} (h : i < 64) :
    (kspliceOf ka kb w).extractLsb' (8 * i) 8 =
      if (w.extractLsb' 0 6).toNat ≤ i ∧ i < (w.extractLsb' 0 6).toNat + (w.extractLsb' 8 7).toNat
      then kb.extractLsb' (8 * (i - (w.extractLsb' 0 6).toNat)) 8 else ka.extractLsb' (8 * i) 8 := by
  rw [kspliceOf, extractLsb'_kOf _ (by simp), lget_map_range _ h, lget_kBytes _ h, lget_kBytes _ (by omega)]
  simp only [BitVec.extractLsb'_toNat, Nat.shiftRight_eq_div_pow, Nat.pow_zero, Nat.div_one]

/-- Settles O15: each operation posts what its lemma says of the registers it reads. -/
theorem cramponOperationsComputeTheirResults : Obligations.CramponOperationsComputeTheirResults := by
  unfold Obligations.CramponOperationsComputeTheirResults
  intro s r kd ka kb w x byte o n bs prior seed takesIn h
  have hbs : covered (getK x ka) (getW x w) = bs := covered_eq_filter _ _
  have hcrcRegs : [ka, kd] ⊆ [ka, kb, kd] := by simp
  have hallRegs : [ka, kb, kd] ⊆ [ka, kb, kd] := List.Subset.refl _
  have hcrc (poly : Nat) : crcOf poly (getK x ka) (getW x w) = BitVec.ofNat 512 (crc poly prior bs) := hbs ▸ crcOf_eq _ _ _
  have hkh2 : kh2Of (getK x ka) (getK x kb) (getW x w) =
      BitVec.ofNat 512 (crc32c (seed 0 ++ bs) + crc32c (seed 1 ++ bs) * 2 ^ 64) := hbs ▸ kh2Of_eq _ _ _
  rw [← hcrc, ← hcrc, ← hkh2]
  exact ⟨issueK_post h hcrcRegs kd (fun x => crcOf 0x82F63B78 (getK x ka) (getW x w)) 4,
    issueK_post h hcrcRegs kd (fun x => crcOf 0xEDB88320 (getK x ka) (getW x w)) 4,
    issueK_post h hallRegs kd (fun x => kh2Of (getK x ka) (getK x kb) (getW x w)) 5,
    ⟨_, issueK_post h hallRegs kd (fun x => kcmpmOf (getK x ka) (getK x kb) (getK x kd)) 2, getLsbD_kcmpmOf _ _ _⟩,
    ⟨_, issueK_post h hallRegs kd (fun x => kspliceOf (getK x ka) (getK x kb) (getW x w)) 2,
      fun _ => extractLsb'_kspliceOf _ _ _⟩⟩

end Sys2Proof.Proofs

/-! The immediate forms and the address map (R126, R132, R137, R145). -/

namespace Sys2Proof.Proofs

open Sys2Proof.Machine Sys2Proof.Claim

/-! ### General registers (R126) -/

theorem getW_setW_same (x : Rope) {d : BitVec 5} (v : Word) (h : d ≠ 0) : getW (setW x d v) d = v := by
  rw [getW, setW, if_neg h, if_neg h]
  exact mget_mset_same _ _ _ _

theorem getW_setW_ne (x : Rope) {d e : BitVec 5} (v : Word) (h : d ≠ e) : getW (setW x d v) e = getW x e := by
  have hn : d.toNat ≠ e.toNat := fun n => h (BitVec.eq_of_toNat_eq n)
  unfold getW setW
  split
  · rfl
  · split
    · rfl
    · exact mget_mset_ne _ _ _ hn

/-! ### The immediate forms (R145) -/

theorem fits_word (x : Word) : Fits false x x.toNat := ⟨rfl, x.isLt⟩

/-- An immediate form with a destination completes with what its operation gives. -/
theorem issueRope_imm {s : State} {r : Issuer} (h : Issues s r) {op : AluFn} (d : BitVec 5) {a : BitVec 5} {imm : Word}
    {n : Nat} {c v : Bool}
    (g : Gives false (op false (getW (rope s r.toNat) a) imm (rope s r.toNat).flags) (rope s r.toNat).flags n c v) :
    issueRope s r (immRope op (some d) a imm) =
      .next (after s r (takes (rope s r.toNat) false d n (nzcv false n c v))) := by
  rw [issueRope_ok h, immRope, g.flagsOf_eq, takes, g.val.ofNat_eq]
  rfl

/-- Without a destination it changes the flags alone. -/
theorem issueRope_imm_flags {s : State} {r : Issuer} (h : Issues s r) {op : AluFn} {a : BitVec 5} {imm : Word}
    {n : Nat} {c v : Bool}
    (g : Gives false (op false (getW (rope s r.toNat) a) imm (rope s r.toNat).flags) (rope s r.toNat).flags n c v) :
    issueRope s r (immRope op none a imm) =
      .next (after s r { rope s r.toNat with flags := nzcv false n c v }) := by
  rw [issueRope_ok h, immRope, g.flagsOf_eq]

theorem fits_signExtend (imm : BitVec 16) : Fits false (imm.signExtend 64) (imm.toInt % ((2 ^ 64 : Nat) : Int)).toNat :=
  ⟨by rw [BitVec.signExtend, BitVec.toNat_ofInt], by
    have := (imm.signExtend 64).isLt
    rwa [BitVec.signExtend, BitVec.toNat_ofInt] at this⟩

theorem sgn_word (x : Word) : sgn false x.toNat = x.toInt := (toInt_eq_sgn rfl rfl).symm

theorem sgn_signExtend (imm : BitVec 16) : sgn false (imm.toInt % ((2 ^ 64 : Nat) : Int)).toNat = imm.toInt := by
  rw [← (fits_signExtend imm).toNat_eq, sgn_word, BitVec.toInt_signExtend_of_le (by decide)]

/-- A logical result of two words has the bits of the numbers' result. -/
theorem logic_word_gives (f : Flags) {v : Word} {n : Nat} (h : v.toNat = n) : Gives false (logic v) f n f.c false :=
  ⟨h ▸ fits_word v, rfl, rfl⟩

theorem toNat_setWidth_imm (imm : BitVec 16) : (imm.setWidth 64).toNat = imm.toNat := by
  rw [BitVec.toNat_setWidth, Nat.mod_eq_of_lt (imm.isLt.trans (by decide))]

/-- SHI completes with what its shift gives. -/
theorem execShi_of_gives {s : State} {r : Issuer} (h : Issues s r) (d : BitVec 5) {a : BitVec 5} (kind : BitVec 2)
    {k : BitVec 6} {n : Nat} {c v : Bool}
    (g : Gives false (shiftKind kind (getW (rope s r.toNat) a) k.toNat) (rope s r.toNat).flags n c v) :
    exec (.shi r d a kind k) s = .next (after s r (takes (rope s r.toNat) false d n (nzcv false n c v))) :=
  issueRope_imm (op := fun _ x _ _ => shiftKind kind x k.toNat) h d g

/-! ### Bit fields and the parts of an immediate (R145) -/

theorem eq_ofFnLE {x : Word} {f : Nat → Bool} (h : ∀ i < 64, x.getLsbD i = f i) :
    x = BitVec.ofFnLE (fun i : Fin 64 => f i) :=
  BitVec.eq_of_getLsbD_eq fun i hi => by rw [h i hi, BitVec.getLsbD_ofFnLE, dif_pos hi]

/-- An instruction that writes w[d] bit by bit. -/
theorem issueRope_setW {s : State} {r : Issuer} (h : Issues s r) (d : BitVec 5) (f : Rope → Word) {g : Nat → Bool}
    (hf : ∀ i < 64, (f (rope s r.toNat)).getLsbD i = g i) :
    issueRope s r (fun x => setW x d (f x)) =
      .next (after s r (setW (rope s r.toNat) d (BitVec.ofFnLE (fun i : Fin 64 => g i)))) := by
  rw [issueRope_ok h, eq_ofFnLE hf]

theorem getLsbD_lowMask (width1 : BitVec 6) (i : Nat) :
    (lowMask width1).getLsbD i = decide (i ≤ width1.toNat) := by
  have hones : (0xFFFFFFFFFFFFFFFF#64) = BitVec.allOnes 64 := by decide
  have hw := width1.isLt
  rw [lowMask, BitVec.getLsbD_ushiftRight, hones, BitVec.getLsbD_allOnes, decide_eq_decide]
  omega

/-- The 16 bits that a part of an immediate covers. -/
theorem getLsbD_partMask {lo i : Nat} (hi : i < 64) :
    ((0xFFFF#64) <<< lo).getLsbD i = (decide (lo ≤ i) && decide (i < lo + 16)) := by
  have hones : (0xFFFF#64) = (BitVec.allOnes 16).setWidth 64 := by decide
  rw [hones, BitVec.getLsbD_shiftLeft, BitVec.getLsbD_setWidth, BitVec.getLsbD_allOnes]
  by_cases h : lo ≤ i
  · have h1 : i - lo < 64 := by omega
    have h2 : i - lo < 16 ↔ i < lo + 16 := by omega
    simp [hi, h, h1, h2, Nat.not_lt.mpr h]
  · simp [hi, h, Nat.lt_of_not_le h]

theorem getLsbD_bfx (x : Word) (lsb width1 : BitVec 6) (i : Nat) :
    ((x >>> lsb.toNat) &&& lowMask width1).getLsbD i = (decide (i ≤ width1.toNat) && x.getLsbD (i + lsb.toNat)) := by
  rw [BitVec.getLsbD_and, getLsbD_lowMask width1 i, BitVec.getLsbD_ushiftRight, Bool.and_comm, Nat.add_comm]

theorem getLsbD_bfi (x y : Word) (lsb width1 : BitVec 6) {i : Nat} (hi : i < 64) :
    ((y &&& ~~~(lowMask width1 <<< lsb.toNat)) ||| ((x <<< lsb.toNat) &&& (lowMask width1 <<< lsb.toNat))).getLsbD i =
      if lsb.toNat ≤ i ∧ i ≤ lsb.toNat + width1.toNat then x.getLsbD (i - lsb.toNat) else y.getLsbD i := by
  have hm : (lowMask width1 <<< lsb.toNat).getLsbD i =
      (decide (lsb.toNat ≤ i) && decide (i ≤ lsb.toNat + width1.toNat)) := by
    rw [BitVec.getLsbD_shiftLeft, getLsbD_lowMask width1]
    by_cases h : lsb.toNat ≤ i
    · have h' : i - lsb.toNat ≤ width1.toNat ↔ i ≤ lsb.toNat + width1.toNat := by omega
      simp [hi, h, h', Nat.not_lt.mpr h]
    · simp [hi, h, Nat.lt_of_not_le h]
  rw [BitVec.getLsbD_or, BitVec.getLsbD_and, BitVec.getLsbD_and, BitVec.getLsbD_not, hm]
  by_cases h : lsb.toNat ≤ i ∧ i ≤ lsb.toNat + width1.toNat
  · rw [BitVec.getLsbD_shiftLeft, if_pos h]
    simp only [hi, h, Nat.not_lt.mpr h.1, decide_true, decide_false, Bool.not_true, Bool.not_false, Bool.and_true,
      Bool.true_and, Bool.and_false, Bool.false_or]
  · have h' : (decide (lsb.toNat ≤ i) && decide (i ≤ lsb.toNat + width1.toNat)) = false := by simpa using h
    rw [h', if_neg h]
    simp [hi]

theorem getLsbD_ipl (imm : BitVec 16) (lo : Nat) {i : Nat} (hi : i < 64) :
    (imm.setWidth 64 <<< lo).getLsbD i = (decide (lo ≤ i) && imm.getLsbD (i - lo)) := by
  rw [BitVec.getLsbD_shiftLeft, BitVec.getLsbD_setWidth]
  by_cases h : lo ≤ i
  · simp [hi, h, Nat.not_lt.mpr h, show i - lo < 64 by omega]
  · simp [hi, h, Nat.lt_of_not_le h]

theorem getLsbD_ips (imm : BitVec 16) (lo : Nat) {i : Nat} (hi : i < 64) :
    (imm.signExtend 64 <<< lo).getLsbD i =
      if i < lo then false else if i < lo + 16 then imm.getLsbD (i - lo) else imm.msb := by
  rw [BitVec.getLsbD_shiftLeft, BitVec.getLsbD_signExtend]
  by_cases h : i < lo
  · simp [h]
  · have h' : i - lo < 16 ↔ i < lo + 16 := by omega
    simp [hi, h, h', show i - lo < 64 by omega]

theorem getLsbD_img (imm : BitVec 16) (y : Word) (lo : Nat) {i : Nat} (hi : i < 64) :
    ((y &&& ~~~((0xFFFF#64) <<< lo)) ||| (imm.setWidth 64 <<< lo)).getLsbD i =
      if lo ≤ i ∧ i < lo + 16 then imm.getLsbD (i - lo) else y.getLsbD i := by
  rw [BitVec.getLsbD_or, BitVec.getLsbD_and, BitVec.getLsbD_not, getLsbD_partMask hi, getLsbD_ipl imm lo hi]
  by_cases h : lo ≤ i
  · by_cases h' : i < lo + 16
    · simp [h, h']
    · have : imm.getLsbD (i - lo) = false := BitVec.getLsbD_of_ge _ _ (by omega)
      simp [h, h', hi, this]
  · simp [h, hi]

/-- Settles O2: the immediate forms through what their operations give, the bit fields bit by bit. -/
theorem immediateFormsAndRegisterZero : Obligations.ImmediateFormsAndRegisterZero := by
  unfold Obligations.ImmediateFormsAndRegisterZero
  refine ⟨fun x v => ⟨rfl, rfl, fun d h => getW_setW_same x v h, fun d e h => getW_setW_ne x v h,
    fun s r a b h => issueRope_ok h _⟩, fun s r d a imm h => ?_, fun s r d a h => ?_⟩
  · have hx := fits_word (getW (rope s r.toNat) a)
    have hq := fits_signExtend imm
    have hadd := add_gives (rope s r.toNat).flags hx hq
    have hsub := sub_gives (rope s r.toNat).flags hx hq
    rw [sgn_word, sgn_signExtend] at hadd hsub
    exact ⟨issueRope_imm h d hadd, issueRope_imm_flags h hsub,
      issueRope_imm h d (logic_word_gives _ (by rw [BitVec.toNat_and, toNat_setWidth_imm])),
      issueRope_imm h d (logic_word_gives _ (by rw [BitVec.toNat_or, toNat_setWidth_imm])),
      issueRope_imm h d (logic_word_gives _ (by rw [BitVec.toNat_xor, toNat_setWidth_imm]))⟩
  · have hx := fits_word (getW (rope s r.toNat) a)
    refine ⟨fun n => ?_, fun lsb width1 => ?_, fun q imm => ?_⟩
    · have hshl := shl_gives (rope s r.toNat).flags hx n.toNat
      have hshr := shr_gives (rope s r.toNat).flags hx n.toNat
      have hsar := sar_gives (rope s r.toNat).flags hx n.toNat
      have hror := ror_gives (rope s r.toNat).flags hx n.isLt
      rw [width_false] at hshl hsar hror
      exact ⟨execShi_of_gives h d 0 hshl, execShi_of_gives h d 1 hshr, execShi_of_gives h d 2 hsar,
        execShi_of_gives h d 3 hror⟩
    · have hbfx := issueRope_setW h d (fun x => (getW x a >>> lsb.toNat) &&& lowMask width1)
        fun i _ => getLsbD_bfx (getW (rope s r.toNat) a) lsb width1 i
      have hbfi := issueRope_setW h d (fun x => (getW x d &&& ~~~(lowMask width1 <<< lsb.toNat)) |||
          ((getW x a <<< lsb.toNat) &&& (lowMask width1 <<< lsb.toNat)))
        fun i hi => getLsbD_bfi (getW (rope s r.toNat) a) (getW (rope s r.toNat) d) lsb width1 hi
      exact ⟨hbfx, hbfi⟩
    · have hipl := issueRope_setW h d (fun _ => imm.setWidth 64 <<< (16 * q.toNat)) fun i hi => getLsbD_ipl imm _ hi
      have hips := issueRope_setW h d (fun _ => imm.signExtend 64 <<< (16 * q.toNat)) fun i hi => getLsbD_ips imm _ hi
      have himg := issueRope_setW h d
        (fun x => (getW x d &&& ~~~((0xFFFF#64) <<< (16 * q.toNat))) ||| (imm.setWidth 64 <<< (16 * q.toNat)))
        fun i hi => getLsbD_img imm (getW (rope s r.toNat) d) _ hi
      exact ⟨hipl, hips, himg⟩

/-! ### The address map (R132) -/

/-- What becomes of an access whose bytes lie in a region. -/
theorem access_of_region {s : State} {x : Rope} {a n : Nat} {g : Region} (h : regionOf s a n = some g) (m : Nat) (wr : Bool) :
    access s x a n m wr = if x.pl.toNat < levelFor g a wr then .error 2
      else if g != .window && a % m != 0 then .error 4 else .ok g := by
  simp only [access, h]

theorem access_of_none {s : State} {x : Rope} {a n : Nat} (h : regionOf s a n = none) (m : Nat) (wr : Bool) :
    access s x a n m wr = .error 3 := by
  simp only [access, h]

/-- Where the level asks nothing and alignment counts. -/
theorem access_level0 {s : State} {x : Rope} {a n : Nat} {g : Region} (h : regionOf s a n = some g)
    (hw : g ≠ .window) (m : Nat) (wr : Bool) : access s x a n m wr = if x.pl.toNat < levelFor g a wr then .error 2
      else if a % m = 0 then .ok g else .error 4 := by
  rw [access_of_region h]
  by_cases e : a % m = 0 <;> simp [e, hw]

theorem regionOf_eq (s : State) (a n : Nat) : regionOf s a n =
    if a + n ≤ 0x400000 then some .scratch
    else if 0x1000000 ≤ a ∧ a + n ≤ 0x1100000 then some .imem
    else if 0x2000000 ≤ a ∧ a + n ≤ 0x2002000 then some .window
    else if 0x3000000 ≤ a ∧ a + n ≤ 0x3010000 then some .ctl
    else if 0x1000000000000000 ≤ a ∧ a + n ≤ 0x1000000000000000 + hbmSize s.sys then some .hbm
    else none := by
  simp [regionOf]

/-- Settles O3: the region decides, then the level, then the alignment. -/
theorem accessIsGrantedInsideOneRegion : Obligations.AccessIsGrantedInsideOneRegion := by
  unfold Obligations.AccessIsGrantedInsideOneRegion
  intro s x a n wr hn
  refine ⟨fun h => ?_, fun h h' => ?_, fun h h' => ?_, fun h h' => ?_, fun h h' => ?_, fun h h' => ?_⟩
  · have hg : regionOf s a n = some .scratch := by rw [regionOf_eq, if_pos h]
    rw [access_level0 hg (by decide), levelFor, if_neg (Nat.not_lt_zero _)]
  · have hg : regionOf s a n = some .imem := by
      rw [regionOf_eq, if_neg (by omega), if_pos ⟨h, h'⟩]
    rw [access_level0 hg (by decide), levelFor]
  · have hg : regionOf s a n = some .window := by
      rw [regionOf_eq, if_neg (by omega), if_neg (by omega), if_pos ⟨h, h'⟩]
    rw [access_of_region hg, levelFor, if_neg (Nat.not_lt_zero _)]
    rfl
  · have hg : regionOf s a n = some .ctl := by
      rw [regionOf_eq, if_neg (by omega), if_neg (by omega), if_neg (by omega), if_pos ⟨h, h'⟩]
    rw [access_level0 hg (by decide), levelFor]
  · have hg : regionOf s a n = some .hbm := by
      rw [regionOf_eq, if_neg (by omega), if_neg (by omega), if_neg (by omega), if_neg (by omega), if_pos ⟨h, h'⟩]
    rw [access_level0 hg (by decide), levelFor, if_neg (Nat.not_lt_zero _)]
  · have hg : regionOf s a n = none := by
      rw [regionOf_eq, if_neg (by omega), if_neg (by omega), if_neg (by omega), if_neg (by omega), if_neg (by omega)]
    exact access_of_none hg n wr

end Sys2Proof.Proofs

/-! Jumps, calls and block repeats (R159 to R163), and what the queue and the reset state give (R75, R342). -/

namespace Sys2Proof.Proofs

open Sys2Proof.Machine Sys2Proof.Claim

/-! ### The program counter (R162) -/

theorem shiftLeft_two (v : BitVec 32) : v <<< 2 = 4 * v := by bv_omega

/-- The last instruction of a repeat's body runs. -/
def AtEnd (x : Rope) : Prop := repAct x = true ∧ x.pc = repEnd x

theorem nextPc_of_not_atEnd {x : Rope} (h : ¬AtEnd x) : nextPc x = { x with pc := x.pc + 4 } := by
  have hb : (repAct x && decide (x.pc = repEnd x)) = false := by simpa [AtEnd] using h
  simp only [nextPc, hb, Bool.false_eq_true, if_false]

theorem not_atEnd_of_not_inBody {x : Rope} (h : inBody x = false) : ¬AtEnd x := by
  rintro ⟨hact, hpc⟩
  simp [inBody, hact, hpc] at h

theorem nextPc_of_not_inBody {x : Rope} (h : inBody x = false) : nextPc x = { x with pc := x.pc + 4 } :=
  nextPc_of_not_atEnd (not_atEnd_of_not_inBody h)

/-- w29 with its count replaced. -/
def withCount (v : Word) (n : BitVec 32) : Word := (v &&& 0xFFFFFFFF00000000#64) ||| n.setWidth 64

theorem getLsbD_withCount (v : Word) (n : BitVec 32) {i : Nat} (hi : i < 64) :
    (withCount v n).getLsbD i = if i < 32 then n.getLsbD i else v.getLsbD i := by
  have hmask : ∀ j : Fin 64, (0xFFFFFFFF00000000#64).getLsbD j = decide (32 ≤ j.val) := by decide
  rw [withCount, BitVec.getLsbD_or, BitVec.getLsbD_and, BitVec.getLsbD_setWidth, hmask ⟨i, hi⟩]
  by_cases h : i < 32
  · simp [h, hi, Nat.not_le.mpr h]
  · simp [h, Nat.le_of_not_lt h]

/-- w29 of a repeat that has ended: ACT is clear. -/
theorem getLsbD_withoutAct (v : Word) {i : Nat} (hi : i < 64) :
    (v &&& 0x7FFFFFFFFFFFFFFF#64).getLsbD i = (v.getLsbD i && decide (i < 63)) := by
  have hmask : ∀ j : Fin 64, (0x7FFFFFFFFFFFFFFF#64).getLsbD j = decide (j.val < 63) := by decide
  rw [BitVec.getLsbD_and, hmask ⟨i, hi⟩]

theorem nextPc_of_atEnd_last {x : Rope} (h : AtEnd x) (hc : (getW x 29).setWidth 32 - 1#32 = 0) :
    nextPc x = { setW x 29 (withCount (getW x 29) ((getW x 29).setWidth 32 - 1#32) &&& 0x7FFFFFFFFFFFFFFF#64) with
      pc := x.pc + 4 } := by
  have hb : (repAct x && decide (x.pc = repEnd x)) = true := by simpa [AtEnd] using h
  simp only [nextPc, hb, if_true, hc, withCount]

theorem nextPc_of_atEnd_again {x : Rope} (h : AtEnd x) (hc : (getW x 29).setWidth 32 - 1#32 ≠ 0) :
    nextPc x = { setW x 29 (withCount (getW x 29) ((getW x 29).setWidth 32 - 1#32)) with pc := repStart x } := by
  have hb : (repAct x && decide (x.pc = repEnd x)) = true := by simpa [AtEnd] using h
  simp only [nextPc, hb, if_true, hc, if_false, withCount]

/-- Only w and the program counter change. -/
theorem getW_with_pc (x : Rope) (pc : BitVec 32) (d : BitVec 5) : getW { x with pc := pc } d = getW x d := rfl

/-! ### Jumps, calls and returns (R159, R160) -/

theorem settleEff_jump (s : State) (r : Nat) (t : State) (pc : BitVec 32) :
    settleEff s r (.jump t pc) = .next (setRope t r { rope t r with pc := pc }) := rfl

/-- A jump goes where its condition over the flags sends it. -/
theorem jumpIf_free {s : State} {r : Issuer} (h : Issues s r) (hb : inBody (rope s r.toNat) = false) (off : BitVec 22)
    (cond : Flags → Bool) : jumpIf s r off cond = .next (jumped s r (rope s r.toNat)
      ((rope s r.toNat).pc + (if cond (rope s r.toNat).flags then 4 * off.signExtend 32 else 4))) := by
  rw [jumpIf, issue_free ⟨h, hb⟩]
  dsimp only
  split
  · next hc => rw [settleEff_jump, shiftLeft_two]; rfl
  · next hc => rw [settleEff, modRope, nextPc_of_not_inBody hb]; rfl

/-- Every jump of R159 is a `jumpIf` with its condition. -/
theorem exec_jumps {r : Issuer} {off : BitVec 22} {f : Flags} {e : Instr × Bool} (he : e ∈ jumps r off f) :
    ∃ cond : Flags → Bool, cond f = e.2 ∧ ∀ s, exec e.1 s = jumpIf s r off cond := by
  simp only [jumps, List.mem_cons, List.not_mem_nil, or_false] at he
  obtain rfl | rfl | rfl | rfl | rfl | rfl | rfl | rfl | rfl | rfl | rfl | rfl | rfl | rfl | rfl := he
  exacts [⟨fun _ => true, rfl, fun _ => rfl⟩, ⟨fun f => f.z, rfl, fun _ => rfl⟩, ⟨fun f => !f.z, rfl, fun _ => rfl⟩,
    ⟨fun f => f.c, rfl, fun _ => rfl⟩, ⟨fun f => !f.c, rfl, fun _ => rfl⟩, ⟨fun f => f.n, rfl, fun _ => rfl⟩,
    ⟨fun f => !f.n, rfl, fun _ => rfl⟩, ⟨fun f => f.v, rfl, fun _ => rfl⟩, ⟨fun f => !f.v, rfl, fun _ => rfl⟩,
    ⟨fun f => f.n != f.v, rfl, fun _ => rfl⟩, ⟨fun f => f.n == f.v, rfl, fun _ => rfl⟩,
    ⟨fun f => !f.z && f.n == f.v, rfl, fun _ => rfl⟩, ⟨fun f => f.z || f.n != f.v, rfl, fun _ => rfl⟩,
    ⟨fun f => f.c && !f.z, rfl, fun _ => rfl⟩, ⟨fun f => !f.c || f.z, rfl, fun _ => rfl⟩]

/-- Settles O8: each jump by its condition, CALL, RET and JR by the return stack. -/
theorem jumpsCallsAndReturns : Obligations.JumpsCallsAndReturns := by
  unfold Obligations.JumpsCallsAndReturns
  refine ⟨fun s r off h => fun e he => ?_, fun s r off a h => ⟨fun hb => ?_, fun hb => ?_⟩⟩
  · obtain ⟨cond, hcond, hexec⟩ := exec_jumps he
    refine ⟨fun hb => ?_, fun hb => ?_⟩
    · rw [hexec, jumpIf_free h hb, hcond]
    · rw [hexec]; exact issue_body h hb _
  · have hf : IssuesFree s r := ⟨h, hb⟩
    refine ⟨fun hroom => ?_, fun hfull htrap => ?_, fun top rest hst => ?_, fun hst => ?_, ?_⟩
    · have hno : ¬((decide (16 ≤ (rope s r.toNat).rstack.length) && (rope s r.toNat).trap) = true) := by
        rw [Bool.and_eq_true, decide_eq_true_eq]
        rintro ⟨hle, ht⟩
        exact hroom.elim (fun hlt => absurd hlt (Nat.not_lt.mpr hle)) fun hf => absurd (hf.symm.trans ht) (by decide)
      change execCall r off s = _
      rw [execCall, issue_free hf]
      dsimp only
      rw [if_neg hno, settleEff_jump, shiftLeft_two, modRope, rope_setRope_same, setRope_setRope]
      rfl
    · have hyes : (decide (16 ≤ (rope s r.toNat).rstack.length) && (rope s r.toNat).trap) = true := by
        rw [Bool.and_eq_true, decide_eq_true_eq]
        exact ⟨hfull, htrap⟩
      change execCall r off s = _
      rw [execCall, issue_free hf]
      dsimp only
      rw [if_pos hyes, settleEff]
    · have hst' : (rope s r.toNat).rstack = top :: rest := hst
      change execRet r s = _
      rw [execRet, issue_free hf, hst']
      dsimp only
      rw [settleEff_jump, modRope, rope_setRope_same, setRope_setRope]
      rfl
    · have hst' : (rope s r.toNat).rstack = [] := hst
      change execRet r s = _
      rw [execRet, issue_free hf, hst']
      rfl
    · change execJr r a s = _
      rw [execJr, issue_free hf]
      rfl
  · refine ⟨?_, ?_, ?_⟩
    · change execCall r off s = _
      rw [execCall, issue_body h hb]
    · change execRet r s = _
      rw [execRet, issue_body h hb]
    · change execJr r a s = _
      rw [execJr, issue_body h hb]

/-! ### Block repeats (R162) -/

theorem getLsbD_repWord (v : Word) (n1 : BitVec 3) (pc : BitVec 32) {i : Nat} (hi : i < 64) :
    (repWord v n1 pc).getLsbD i = if i = 63 then true else if 60 ≤ i then n1.getLsbD (i - 60)
      else if 32 ≤ i ∧ i < 56 then pc.getLsbD (i - 30) else v.getLsbD i := by
  have htop : ∀ j : Fin 64, (0x8000000000000000#64).getLsbD j = decide (j.val = 63) := by decide
  have hmask : ∀ j : Fin 64, (0x0F000000FFFFFFFF#64).getLsbD j = (decide (j.val < 32) || (decide (56 ≤ j.val) && decide (j.val < 60))) := by
    decide
  simp only [repWord, BitVec.getLsbD_or, BitVec.getLsbD_and, BitVec.getLsbD_shiftLeft, BitVec.getLsbD_setWidth,
    BitVec.getLsbD_extractLsb', htop ⟨i, hi⟩, hmask ⟨i, hi⟩]
  by_cases h63 : i = 63
  · simp [h63]
  by_cases h60 : 60 ≤ i
  · have hlt : ¬ i - 32 < 24 := by omega
    simp [h63, h60, hi, hlt, show ¬ i < 32 by omega, show ¬ i < 60 by omega, show i - 60 < 64 by omega]
  have hn1 : (!decide (i < 60)) = false := by simp; omega
  by_cases hmid : 32 ≤ i ∧ i < 56
  · simp [h63, h60, hmid, hi, hn1, show ¬ i < 32 by omega, show ¬ 56 ≤ i by omega, show i - 32 < 64 by omega,
      show i - 32 < 24 by omega, show 2 + (i - 32) = i - 30 by omega]
  · by_cases hlo : i < 32
    · simp [h63, h60, hi, hn1, hlo, hmid]
    · simp [h63, h60, hi, hlo, hmid, show 56 ≤ i by omega, show i < 60 by omega, show ¬ i - 32 < 24 by omega]

theorem extractLsb'_zero_eq_setWidth (v : Word) : v.extractLsb' 0 32 = v.setWidth 32 := by
  refine BitVec.eq_of_getLsbD_eq fun i hi => ?_
  simp [BitVec.getLsbD_extractLsb', BitVec.getLsbD_setWidth]

/-- A field of a word whose bits are known. -/
theorem extractLsb'_eq_of_bits {v : Word} {lo n : Nat} {u : BitVec n} (h : ∀ i < n, v.getLsbD (lo + i) = u.getLsbD i) :
    v.extractLsb' lo n = u :=
  BitVec.eq_of_getLsbD_eq fun i hi => by rw [BitVec.getLsbD_extractLsb', decide_eq_true hi, Bool.true_and, h i hi]

theorem extractLsb'_withCount (v : Word) (n : BitVec 32) : (withCount v n).extractLsb' 0 32 = n :=
  extractLsb'_eq_of_bits fun i hi => by rw [getLsbD_withCount v n (by omega), Nat.zero_add, if_pos hi]

/-- Settles O9: REPB by the bits of its word, the end of a body by the count. -/
theorem blockRepeatRunsItsBodyCountTimes : Obligations.BlockRepeatRunsItsBodyCountTimes := by
  unfold Obligations.BlockRepeatRunsItsBodyCountTimes
  refine ⟨fun s r n1 h => ⟨fun h0 => ?_, fun h0 => ?_⟩, fun x => ⟨fun hend => ?_, fun hend => ?_⟩⟩
  · have hpc (p : BitVec 32) : p + 8 + (n1.setWidth 32 <<< 2) = p + 4 + 4 * (n1.setWidth 32 + 1) := by
      have h8 : ((8 : Nat) : BitVec 32) = 8#32 := rfl
      rw [shiftLeft_two, h8]
      bv_omega
    have h0' : (getW (rope s r.toNat) 29).setWidth 32 = 0#32 := h0
    change execRepb r n1 s = _
    rw [execRepb, issue_free h]
    dsimp only
    rw [if_pos h0', settleEff_jump, hpc]
    rfl
  · refine ⟨repWord (getW (rope s r.toNat) 29) n1 ((rope s r.toNat).pc + 4), ?_, ?_, ?_, ?_, ?_, ?_⟩
    · have h0' : ¬(getW (rope s r.toNat) 29).setWidth 32 = 0#32 := h0
      change execRepb r n1 s = _
      rw [execRepb, issue_free h]
      dsimp only
      rw [if_neg h0', settleEff_jump, modRope, rope_setRope_same, setRope_setRope]
      rfl
    all_goals
      refine extractLsb'_eq_of_bits fun i hi => ?_
      rw [getLsbD_repWord _ _ _ (by omega)]
    · obtain rfl : i = 0 := by omega
      rfl
    · rw [if_neg (by omega), if_pos (by omega), Nat.add_sub_cancel_left]
    · rw [if_neg (by omega), if_neg (by omega), if_neg (by omega), BitVec.getLsbD_extractLsb', decide_eq_true hi,
        Bool.true_and]
    · rw [if_neg (by omega), if_neg (by omega), if_pos (by omega), BitVec.getLsbD_extractLsb', decide_eq_true hi,
        Bool.true_and, show 32 + i - 30 = 2 + i by omega]
    · rw [if_neg (by omega), if_neg (by omega), if_neg (by omega), BitVec.getLsbD_extractLsb', decide_eq_true hi,
        Bool.true_and]
  · have hAt : AtEnd x := by
      refine ⟨hend.1, hend.2.trans ?_⟩
      rw [repEnd, repStart, shiftLeft_two, shiftLeft_two]
    have hcount : (getW x 29).extractLsb' 0 32 = (getW x 29).setWidth 32 := extractLsb'_zero_eq_setWidth _
    have hone : (getW x 29).extractLsb' 0 32 = 1 ↔ (getW x 29).setWidth 32 - 1#32 = 0 := by
      rw [hcount]; generalize (getW x 29).setWidth 32 = c; bv_omega
    have hlow : ∀ v : Word, v.getLsbD 63 = true → (v &&& 0x7FFFFFFFFFFFFFFF#64).extractLsb' 0 32 = v.extractLsb' 0 32 :=
      fun v _ => extractLsb'_eq_of_bits fun i hi => by
        rw [getLsbD_withoutAct _ (by omega), BitVec.getLsbD_extractLsb', decide_eq_true hi,
          decide_eq_true (by omega : 0 + i < 63), Bool.and_true, Bool.true_and]
    have hact : (withCount (getW x 29) ((getW x 29).setWidth 32 - 1#32)).getLsbD 63 = true := by
      rw [getLsbD_withCount _ _ (by decide), if_neg (by decide)]; exact hend.1
    by_cases hc : (getW x 29).setWidth 32 - 1#32 = 0
    · have hn := nextPc_of_atEnd_last hAt hc
      have hw : getW (nextPc x) 29 = withCount (getW x 29) ((getW x 29).setWidth 32 - 1#32) &&& 0x7FFFFFFFFFFFFFFF#64 := by
        rw [hn, getW_with_pc, getW_setW_same _ _ (by decide)]
      refine ⟨fun _ => ⟨by rw [hn], ?_⟩, fun h1 => absurd (hone.mpr hc) h1, ?_⟩
      · rw [hw, getLsbD_withoutAct _ (by decide)]; simp
      · rw [hw, hlow _ hact, extractLsb'_withCount, hcount]; rfl
    · have hn := nextPc_of_atEnd_again hAt hc
      have hw : getW (nextPc x) 29 = withCount (getW x 29) ((getW x 29).setWidth 32 - 1#32) := by
        rw [hn, getW_with_pc, getW_setW_same _ _ (by decide)]
      refine ⟨fun h1 => absurd (hone.mp h1) hc, fun _ => ⟨?_, by rw [hw, hact]⟩, ?_⟩
      · rw [hn]; exact shiftLeft_two _
      · rw [hw, extractLsb'_withCount, hcount]; rfl
  · refine nextPc_of_not_atEnd fun hAt => hend ⟨hAt.1, hAt.2.trans ?_⟩
    rw [repEnd, repStart, shiftLeft_two, shiftLeft_two]

/-! ### NOP, FENCE and words that are no instruction (R140, R142, R150) -/

/-- Every rope stays but for its state, and time stays. -/
def StatesOnly (s t : State) : Prop := t.time = s.time ∧ ∀ q, ∃ st', rope t q = { rope s q with st := st' }

theorem StatesOnly.refl (s : State) : StatesOnly s s := ⟨rfl, fun _ => ⟨_, rfl⟩⟩

theorem StatesOnly.trans {s t u : State} (h : StatesOnly s t) (h' : StatesOnly t u) : StatesOnly s u := by
  refine ⟨h'.1.trans h.1, fun q => ?_⟩
  obtain ⟨a, ha⟩ := h.2 q
  obtain ⟨b, hb⟩ := h'.2 q
  exact ⟨b, by rw [hb, ha]⟩

@[simp] theorem rope_setCore (s : State) (k : Nat) (x : Machine.Core) (q : Nat) : rope (setCore s k x) q = rope s q := rfl

theorem rope_makeReady (s : State) (r q : Nat) :
    rope (makeReady s r) q = if q = r then { rope s r with st := .ready } else rope s q := by
  have hset : rope (setRope s r { rope s r with st := .ready }) q =
      if q = r then { rope s r with st := .ready } else rope s q := by
    split
    · next e => rw [e, rope_setRope_same]
    · next e => rw [rope_setRope_ne _ _ (Ne.symm e)]
  unfold makeReady
  dsimp only
  split
  · exact hset
  · exact hset

theorem makeReady_statesOnly (s : State) (r : Nat) : StatesOnly s (makeReady s r) := by
  refine ⟨?_, fun q => ?_⟩
  · obtain ⟨x, k, h⟩ := makeReady_only s r
    rw [h]
  · rw [rope_makeReady]
    split
    · next e => exact ⟨.ready, by rw [e]⟩
    · exact ⟨_, rfl⟩

theorem kWake_statesOnly (s : State) (r : Nat) (p : KPend) : StatesOnly s (kWake s r p) := by
  have hstep : ∀ (b : Bool) (u : State) (q : Nat), StatesOnly u (if b then makeReady u q else u) := by
    intro b u q
    cases b
    · exact StatesOnly.refl _
    · exact makeReady_statesOnly _ _
  have hfirst : StatesOnly s (if (rope s r).st = .waiting (.kreg p.kd) then makeReady s r else s) := by
    simpa using hstep (decide ((rope s r).st = .waiting (.kreg p.kd))) s r
  unfold kWake
  dsimp only
  split
  · refine hfirst.trans (foldl_rel StatesOnly.refl StatesOnly.trans (fun u q => ?_) _ _)
    simpa using hstep (decide ((rope u q).st = .waiting .ktxl)) u q
  · exact hfirst

/-- The program counter after an instruction depends on the registers and the program counter alone. -/
theorem nextPc_pc_congr {x y : Rope} (hw : y.w = x.w) (hpc : y.pc = x.pc) : (nextPc y).pc = (nextPc x).pc := by
  have hg : ∀ d, getW y d = getW x d := fun d => by rw [getW, getW, hw]
  have ha : repAct y = repAct x := by rw [repAct, repAct, hg]
  have hs : repStart y = repStart x := by rw [repStart, repStart, hg]
  have he : repEnd y = repEnd x := by rw [repEnd, repEnd, hg, hs]
  unfold nextPc
  rw [ha, he, hs, hg, hpc]
  dsimp only
  split
  · split <;> rfl
  · rfl

theorem nextPc_kPend (x : Rope) : (nextPc x).kPend = x.kPend := by
  have hset : ∀ (y : Rope) (d : BitVec 5) (v : Word), (setW y d v).kPend = y.kPend := fun y d v => by
    unfold setW; split <;> rfl
  unfold nextPc
  dsimp only
  split
  · split <;> exact hset _ _ _
  · rfl

theorem kHeld_eq_false {s : State} {p : KPend} (h : kHeld s p = false) : p.miss = none := by
  rw [kHeld, Bool.or_eq_false_iff] at h
  exact Option.not_isSome_iff_eq_none.mp (by simp [h.1])

/-- The only result that is pending is written: it is pending no more, and no register w changes. -/
theorem kWrite_alone {s : State} {r : Nat} {p : KPend} (hk : (rope s r).kPend = [p]) (hm : p.miss = none) :
    (kWrite s r p).time = s.time ∧ (rope (kWrite s r p) r).kPend = [] ∧ (rope (kWrite s r p) r).w = (rope s r).w ∧
      (rope (kWrite s r p) r).pc = (rope s r).pc := by
  simp only [kWrite, hm]
  generalize hu : busyCore _ _ = u
  have hrope : rope u r = setK { rope s r with kPend := [] } p.kd p.value := by
    rw [← hu, busyCore, modCore, rope_setCore, modRope, rope_setRope_same, hk]
    simp
  have htime : u.time = s.time := by rw [← hu]; rfl
  obtain ⟨ht, hq⟩ := kWake_statesOnly u r p
  obtain ⟨st', hst⟩ := hq r
  rw [hst, hrope]
  exact ⟨ht.trans htime, rfl, rfl, rfl⟩

/-- The registers of one pending result are ready once it is written, and wait for it else. -/
theorem kReady_one {s : State} {r : Nat} {p : KPend} (hk : (rope s r).kPend = [p]) : kReady s r [p.kd] =
    if s.time.now + 8 * dpU s ≤ p.due then (s, .long p.kd)
    else if kHeld s p then (s, .inPlace) else (kWrite (advanceTo s p.due) r p, .ready) := by
  have hw : byDue ((rope s r).kPend.filter (fun q => [p.kd].contains q.kd)) = [p] := by simp [hk, byDue, dueInsert]
  unfold kReady
  rw [hw]
  dsimp only [List.getLast?_singleton]
  split
  · rfl
  · by_cases hh : kHeld s p = true
    · have hd : kDue s r p.due = s := by simp [kDue, hk, hh, byDue]
      rw [hd, if_pos hh]
      simp [pendingK, hk]
    · have hd : kDue s r p.due = kWrite (advanceTo s p.due) r p := by simp [kDue, hk, hh, byDue, dueInsert]
      have hk' : (rope (advanceTo s p.due) r).kPend = [p] := hk
      obtain ⟨-, hnil, -⟩ := kWrite_alone hk' (kHeld_eq_false (by simpa using hh))
      rw [hd, if_neg hh]
      simp [pendingK, hnil]

/-- What FENCE does, by how its registers stand. -/
def fenceEff (r : Nat) : State × KWait → Eff
  | (s, .long k) => .held (stall s r (.kreg k))
  | (s, .inPlace) => .held s
  | (s, .ready) => .done s

theorem exec_fence {s : State} {r : Issuer} (h : Issues s r) : exec (.fence r) s = settleEff s r.toNat
    (fenceEff r.toNat (kReady s r.toNat (((rope s r.toNat).kPend.filter (·.src.isSome)).map (·.kd)))) := by
  change execFence r s = _
  rw [execFence, issue_ok h]
  rfl

/-- Settles O10: FENCE by what the one pending result waits for. -/
theorem nopFenceAndIllegalWords : Obligations.NopFenceAndIllegalWords := by
  unfold Obligations.NopFenceAndIllegalWords
  intro s r w h
  refine ⟨issue_ok h _, fun hsrc => ?_, fun p hk hp => ?_, fun hw => ?_⟩
  · have hnone : (rope s r.toNat).kPend.filter (fun p => p.src.isSome) = [] :=
      List.filter_eq_nil_iff.mpr fun p hp => by simp [hsrc p hp]
    rw [exec_fence h, hnone, List.map_nil, kReady_nil s r.toNat [] (by simp)]
    rfl
  · have hsome : (rope s r.toNat).kPend.filter (fun p => p.src.isSome) = [p] := by
      rw [hk]; simp [Option.isSome_iff_ne_none, hp]
    rw [exec_fence h, hsome, List.map_singleton, kReady_one hk]
    refine ⟨fun hlong => ?_, fun hheld hnear => ?_, fun hfree hnear => ?_⟩
    · rw [if_pos hlong]; rfl
    · rw [if_neg (Nat.not_le.mpr hnear), if_pos hheld]; rfl
    · rw [if_neg (Nat.not_le.mpr hnear), if_neg (by simp [hfree])]
      obtain ⟨htime, hnil, hregs, hpc⟩ :=
        kWrite_alone (s := advanceTo s p.due) (r := r.toNat) hk (kHeld_eq_false hfree)
      refine ⟨_, rfl, ?_, ?_, ?_⟩
      · rw [modRope, setRope_time, htime, advanceTo_now]
      · rw [modRope, rope_setRope_same, nextPc_kPend, hnil]
      · rw [modRope, rope_setRope_same]
        exact nextPc_pc_congr hregs hpc
  · have : exec (.illegalInstruction r w) s = issue s r false (fun _ => .trap 1 0) := if_pos hw
    rw [this, issue_ok h]
    rfl

/-! ### The queue and the reset state -/

/-- With no slew left FT moves with local time and its rate alone (R346). -/
theorem slewFor_zero {s : State} (h : s.time.slewLeft = 0) (dt : Nat) : slewFor s dt = 0 := by simp [slewFor, h]

theorem step_cons {s : State} {c : Instr} {cs : List Instr} (h : s.pending = c :: cs) :
    step s = exec c { s with pending := cs } := by
  rw [step, h]

theorem step_nil {s : State} (h : s.pending = []) : step s = .next (advance s 576) := by
  rw [step, h]; rfl

/-- A state whose queue is empty, with no slew left, whose FT runs at twice the rate of local time (R347). -/
def drifting : State := { State.reset with time := { rate := 1000000000 } }

/-- Refutes O56: with no slew left FT still moves by what its rate adds, here 576 units in a tick. -/
theorem not_stepRunsTheFrontCommand : ¬Obligations.StepRunsTheFrontCommand := by
  unfold Obligations.StepRunsTheFrontCommand
  rintro ⟨-, htick⟩
  obtain ⟨t, hstep, -, -, hkeeps⟩ := htick drifting rfl
  rw [step_nil rfl] at hstep
  obtain rfl := Host.Outcome.next.inj hstep
  obtain ⟨horigin, -⟩ := hkeeps rfl
  have hdrift : driftFor drifting 576 = 576 := by decide
  have hmoved : (advance drifting 576).time.ftOrigin = 0 + slewFor drifting 576 + driftFor drifting 576 := rfl
  rw [slewFor_zero rfl, hdrift] at hmoved
  exact absurd (hmoved.symm.trans horigin) (by decide)

/-- At reset every link is down or its port has no place in the mode (R59). -/
theorem linkState_reset (lp : Nat) : linkState State.reset lp = 4 ∨ linkState State.reset lp = 5 := by
  unfold linkState
  split
  · exact .inr rfl
  · exact .inl (if_pos rfl)

/-- Settles O60: the state after reset is written out, and its objects are at their defaults. -/
theorem resetState : Obligations.ResetState := by
  unfold Obligations.ResetState
  have hver : VersionsOk State.reset :=
    ⟨by decide, .inl rfl, .inl rfl, fun h => absurd h (by decide), fun h => absurd rfl h⟩
  exact ⟨rfl, rfl, rfl, rfl, rfl, rfl, rfl, rfl, rfl, rfl, rfl, rfl, rfl, rfl, hver, reset_memories, rfl, rfl, rfl,
    fun _ => rfl, fun _ => rfl, linkState_reset⟩

end Sys2Proof.Proofs

/-! Loads, stores and bank atomics (R137, R139, R146, R147), and the end of a load's wait (R139). -/

namespace Sys2Proof.Proofs

open Sys2Proof.Machine Sys2Proof.Claim

/-! ### What an update of ropes leaves alone -/

theorem restKept_refl (s : State) : RestKept s s :=
  ⟨rfl, rfl, rfl, rfl, rfl, rfl, rfl, rfl, rfl, rfl, rfl, rfl, rfl, rfl, rfl, rfl, rfl, rfl, rfl⟩

/-- Objects, ropes, cores, clusters and flights are not among what RestKept keeps. -/
theorem restKept_with {s : State} {o : Map Nat} {x : Map Rope} {k : Map Machine.Core} {c : Map Cluster} {f : List Flight} :
    RestKept s { s with obj := o, ropes := x, cores := k, clusters := c, flights := f } := restKept_refl s

theorem otherRopesKept_refl (s : State) (r : Nat) : OtherRopesKept s s r := fun _ _ => rfl

theorem otherRopesKept_setRope {s t : State} {r : Nat} (h : OtherRopesKept s t r) (x : Rope) :
    OtherRopesKept s (setRope t r x) r := fun q hq => by rw [rope_setRope_ne _ _ hq.symm, h q hq]

theorem otherRopesKept_modRope {s t : State} {r : Nat} (h : OtherRopesKept s t r) (f : Rope → Rope) :
    OtherRopesKept s (modRope t r f) r := otherRopesKept_setRope h _

@[simp] theorem rope_modRope_same (s : State) (r : Nat) (f : Rope → Rope) : rope (modRope s r f) r = f (rope s r) :=
  rope_setRope_same _ _ _

theorem rope_modRope_ne (s : State) {r q : Nat} (f : Rope → Rope) (h : r ≠ q) : rope (modRope s r f) q = rope s q :=
  rope_setRope_ne _ _ h

@[simp] theorem modRope_modRope (s : State) (r : Nat) (f g : Rope → Rope) :
    modRope (modRope s r f) r g = modRope s r (g ∘ f) := by
  simp [modRope]

theorem otherRopesKept_makeReady {s t : State} {r : Nat} (h : OtherRopesKept s t r) : OtherRopesKept s (makeReady t r) r :=
  fun q hq => by rw [rope_makeReady, if_neg hq, h q hq]

@[simp] theorem rope_makeReady_same (s : State) (r : Nat) : rope (makeReady s r) r = { rope s r with st := .ready } := by
  rw [rope_makeReady, if_pos rfl]

theorem core_makeReady_ne (s : State) {r k : Nat} (h : k ≠ ropeCore r) : Machine.core (makeReady s r) k = Machine.core s k := by
  unfold makeReady
  dsimp only
  split
  · exact core_setCore_ne _ _ h.symm
  · rfl

@[simp] theorem rope_wakeDone_same (s : State) (r : Nat) (f : Rope → Rope) :
    rope (wakeDone s r f) r = { nextPc (f (rope s r)) with st := .ready } := by
  rw [wakeDone, rope_makeReady_same, rope_modRope_same]

theorem wakeDone_otherRopes (s : State) (r : Nat) (f : Rope → Rope) : OtherRopesKept s (wakeDone s r f) r :=
  otherRopesKept_makeReady (otherRopesKept_modRope (otherRopesKept_refl s r) _)

theorem core_wakeDone_ne (s : State) {r k : Nat} (f : Rope → Rope) (h : k ≠ ropeCore r) :
    Machine.core (wakeDone s r f) k = Machine.core s k := core_makeReady_ne _ h

theorem wakeDone_restKept (s : State) (r : Nat) (f : Rope → Rope) :
    RestKept s (wakeDone s r f) ∧ (wakeDone s r f).clusters = s.clusters := by
  obtain ⟨x, k, h⟩ := wakeDone_only s r f
  rw [h]
  exact ⟨restKept_with, rfl⟩

theorem makeReady_restKept (s : State) (r : Nat) :
    RestKept s (makeReady s r) ∧ (makeReady s r).clusters = s.clusters := by
  obtain ⟨x, k, h⟩ := makeReady_only s r
  rw [h]
  exact ⟨restKept_with, rfl⟩

/-! ### Loads (R146) -/

theorem exec_loadOf {s : State} {r : Issuer} (d a : BitVec 5) (imm : BitVec 16) (parity : Bool) {n : Nat}
    (hn : n = 1 ∨ n = 2 ∨ n = 4 ∨ n = 8) :
    exec (loadOf n r d a imm parity) s = issue s r false (fun s => loadEff s r.toNat n d a imm parity) := by
  obtain rfl | rfl | rfl | rfl := hn <;> rfl

theorem exec_storeOf {s : State} {r : Issuer} (d a : BitVec 5) (imm : BitVec 16) {n : Nat}
    (hn : n = 1 ∨ n = 2 ∨ n = 4 ∨ n = 8) :
    exec (storeOf n r d a imm) s = issue s r false (fun s => storeEff s r.toNat n d a imm) := by
  obtain rfl | rfl | rfl | rfl := hn <;> rfl

/-- An instruction whose words or registers fail their parity (R171). -/
theorem issue_parity {s : State} {r : Issuer} (h : Issues s r) (b : Bool) (f : State → Eff) :
    issue s ⟨r.rope, true⟩ b f = .next (faultRope s r.toNat 0x0A 0) := by
  obtain ⟨hi, hf, -⟩ := h
  have hi' : issuing s (⟨r.rope, true⟩ : Issuer).toNat = true := hi
  have hf' : fetchOk (rope s (⟨r.rope, true⟩ : Issuer).toNat).pc = true := hf
  simp only [issue, hi', hf', Bool.not_true, Bool.false_eq_true, if_false, if_true]

/-- Settles O4: a load by the region that its access is granted. -/
theorem loadsReadTheirBytesOrWait : Obligations.LoadsReadTheirBytesOrWait := by
  unfold Obligations.LoadsReadTheirBytesOrWait
  intro s r d a imm parity n hn h
  have hexec : exec (loadOf n r d a imm parity) s = settleEff s r.toNat (loadEff s r.toNat n d a imm parity) := by
    rw [exec_loadOf d a imm parity hn, issue_ok h]
  refine ⟨fun g hg => ⟨fun hp hr => ?_, fun hp => ?_, fun hp hr => ?_⟩, fun c hc => ?_, ?_⟩
  · have hreg : ¬(g = .ctl ∨ g = .hbm) := by rintro (rfl | rfl) <;> simp at hr
    rw [hexec, loadEff, effAddr]
    simp only [hg, hp, Bool.false_eq_true, if_false, Bool.or_eq_true, decide_eq_true_eq, hreg, settleEff, modRope_modRope]
    rfl
  · rw [hexec, loadEff, effAddr]
    simp only [hg, hp, if_true, settleEff]
  · rw [hexec, loadEff, effAddr]
    simp only [hg, hp, Bool.false_eq_true, if_false, Bool.or_eq_true, decide_eq_true_eq, hr, if_true, settleEff]
  · rw [hexec, loadEff, effAddr]
    simp only [hc, settleEff]
  · rw [exec_loadOf d a imm parity hn, issue_parity h]

/-! ### The end of a wait (R139, R166, R206) -/

theorem live_on {s : State} (h : on s = true) (x : Res) : live s x = x := if_pos h

/-- Settles O5: LOAD_RETURN by what the rope waits for. -/
theorem loadReturnWritesTheRegisterAndReadies : Obligations.LoadReturnWritesTheRegisterAndReadies := by
  unfold Obligations.LoadReturnWritesTheRegisterAndReadies
  intro s r n hon
  have hlive : exec (.loadReturn r) s = execLoadReturn r s := rfl
  rw [hlive, execLoadReturn, live_on hon]
  refine ⟨fun d ea k g hst hg => ?_, fun l hst hl => ?_, fun kd ea hst => ?_, fun hst => ?_⟩
  · simp only [show (rope s r.toNat).st = .waiting (.load d ea k) from hst,
      show access s (rope s r.toNat) ea.toNat k k false = .ok g from hg]
    refine ⟨fun hw => ?_, fun hw ht hm => ?_, fun hw ht hm => ?_⟩
    · exact if_pos (by simpa using hw)
    all_goals
      have hno : ¬(((g = .ctl : Bool) && ownWriteWaits s r.toNat ea.toNat k) || memThrottled s g ea.toNat) = true := by
        simpa [ht] using hw
      simp only [hno, if_false, Bool.false_eq_true]
    · exact if_pos hm
    · refine ⟨_, if_neg (by simp [hm]), rope_wakeDone_same _ _ _, wakeDone_otherRopes _ _ _,
        (wakeDone_restKept _ _ _).1, (wakeDone_restKept _ _ _).2, fun k hk => core_wakeDone_ne _ _ hk⟩
  · have hthr : l.any (fun i => throttled s .core (64 * i)) = false :=
      List.any_eq_false.mpr fun i hi => by simp [(hl i hi).2]
    have hmed : l.find? (fun i => s.hbm.media.contains i) = none :=
      List.find?_eq_none.mpr fun i hi => by simpa using (hl i hi).1
    simp only [show (rope s r.toNat).st = .waiting (.lines l) from hst, hthr, hmed, Bool.false_eq_true, if_false]
    refine ⟨_, rfl, ?_, otherRopesKept_makeReady (otherRopesKept_modRope (otherRopesKept_refl s _) _), (makeReady_restKept _ _).1,
      (makeReady_restKept _ _).2⟩
    rw [rope_makeReady_same, rope_modRope_same]
  · simp only [show (rope s r.toNat).st = .waiting (.kload kd ea) from hst]
    refine ⟨fun hw => if_pos hw, fun hw => ⟨_, if_neg (by simp [show ownWriteWaits s r.toNat ea.toNat 64 = false from hw]),
      rope_wakeDone_same _ _ _, wakeDone_otherRopes _ _ _, wakeDone_restKept _ _ _⟩⟩
  · simp only [show (rope s r.toNat).st = .waiting .kstate from hst]
    exact ⟨_, rfl, rope_makeReady_same _ _, otherRopesKept_makeReady (otherRopesKept_refl s _), makeReady_restKept _ _⟩

/-! ### Stores (R146) -/

/-- What a store to the scratchpad of its cluster changes. -/
theorem memWrite_scratch (s : State) (r a : Nat) (bs : List Byte) :
    (∀ e, e ≠ ropeCluster r → cluster (memWrite s r .scratch a bs) e = cluster s e) ∧
    cluster (memWrite s r .scratch a bs) (ropeCluster r) = { cluster s (ropeCluster r) with
      scratch := (cluster (memWrite s r .scratch a bs) (ropeCluster r)).scratch
      portA := (cluster (memWrite s r .scratch a bs) (ropeCluster r)).portA } ∧
    ∀ b, scratchByte (memWrite s r .scratch a bs) (ropeCluster r) b = stored a bs b (scratchByte s (ropeCluster r) b) := by
  refine ⟨fun e he => cluster_setCluster_ne _ _ he.symm, ?_, fun b => ?_⟩
  · simp [memWrite, modCluster]
  · simp [scratchByte, memWrite, modCluster, rd8_wrN]

theorem memWrite_imem (s : State) (r a : Nat) (bs : List Byte) :
    (∀ e, e ≠ ropeCluster r → cluster (memWrite s r .imem a bs) e = cluster s e) ∧
    cluster (memWrite s r .imem a bs) (ropeCluster r) = { cluster s (ropeCluster r) with
      imem := (cluster (memWrite s r .imem a bs) (ropeCluster r)).imem } ∧
    ∀ b, imemByte (memWrite s r .imem a bs) (ropeCluster r) b =
      stored (a - 0x1000000) bs b (imemByte s (ropeCluster r) b) := by
  refine ⟨fun e he => cluster_setCluster_ne _ _ he.symm, ?_, fun b => ?_⟩
  · simp [memWrite, modCluster]
  · simp [imemByte, memWrite, modCluster, rd8_wrN]

/-- A store to the HBM changes the HBM and its counters. -/
theorem memWrite_hbm (s : State) (r a : Nat) (bs : List Byte) :
    (∃ obj' hbm', memWrite s r .hbm a bs = { s with obj := obj', hbm := hbm' }) ∧
    ∀ b, hbmByte (memWrite s r .hbm a bs) b = stored (a - 0x1000000000000000) bs b (hbmByte s b) :=
  ⟨hbmWrite_only _ _ _ _, hbmByte_hbmWrite _ _ _ _⟩

/-- HBM bytes do not depend on the ropes. -/
theorem hbmByte_setRope (s : State) (r : Nat) (x : Rope) (b : Nat) : hbmByte (setRope s r x) b = hbmByte s b := rfl

/-- Settles O6: a store by the region that its access is granted. -/
theorem storesWriteTheirBytesAndNoOthers : Obligations.StoresWriteTheirBytesAndNoOthers := by
  unfold Obligations.StoresWriteTheirBytesAndNoOthers
  intro s r d a imm n hn h
  have hexec : exec (storeOf n r d a imm) s = settleEff s r.toNat (storeEff s r.toNat n d a imm) := by
    rw [exec_storeOf d a imm hn, issue_ok h]
  have hdone : ∀ g, g ≠ .ctl → access s (rope s r.toNat) (getW (rope s r.toNat) a + imm.signExtend 64).toNat n n true = .ok g →
      exec (storeOf n r d a imm) s = .next (modRope (memWrite s r.toNat g
        (getW (rope s r.toNat) a + imm.signExtend 64).toNat (toLE n (getW (rope s r.toNat) d).toNat)) r.toNat nextPc) := by
    intro g hctl hg
    rw [hexec, storeEff, effAddr]
    simp only [hg, hctl, decide_false, Bool.false_and, Bool.false_eq_true, if_false, settleEff]
  refine ⟨fun hg => ?_, fun hg => ?_, fun hg => ?_, fun hg => ?_, fun hg => ?_, fun k hk => ?_⟩
  · exact ⟨_, hdone .scratch (by decide) hg, rope_modRope_same _ _ _, otherRopesKept_modRope (otherRopesKept_refl s _) _,
      restKept_with, memWrite_scratch _ _ _ _⟩
  · exact ⟨_, hdone .imem (by decide) hg, rope_modRope_same _ _ _, otherRopesKept_modRope (otherRopesKept_refl s _) _,
      restKept_with, memWrite_imem _ _ _ _⟩
  · obtain ⟨⟨o, m, hw⟩, hbyte⟩ := memWrite_hbm s r.toNat (getW (rope s r.toNat) a + imm.signExtend 64).toNat
      (toLE n (getW (rope s r.toNat) d).toNat)
    refine ⟨_, hdone .hbm (by decide) hg, ?_, ?_, ?_, ?_, hbyte⟩
    · rw [rope_modRope_same, hw]; rfl
    · rw [hw]; exact otherRopesKept_modRope (fun _ _ => rfl) _
    · rw [hw]; exact restKept_refl _
    · rw [hw]; rfl
  · rw [hdone .window (by decide) hg]
    simp [memWrite, after, modRope]
  · rw [hexec, storeEff, effAddr]
    simp only [hg, decide_true, Bool.true_and, memWrite]
    split <;> rfl
  · rw [hexec, storeEff, effAddr]
    simp only [hk, settleEff]

/-! ### Bank atomics (R147) -/

theorem toLE_congr {n u v : Nat} (h : u % 256 ^ n = v % 256 ^ n) : toLE n u = toLE n v := by
  induction n generalizing u v with
  | zero => rfl
  | succ n ih =>
    have hlow : u % 256 = v % 256 := by
      have := congrArg (· % 256) h
      simpa [Nat.pow_succ', Nat.mod_mul_right_mod] using this
    have hhigh : u / 256 % 256 ^ n = v / 256 % 256 ^ n := by
      rw [Nat.pow_succ', Nat.mod_mul, Nat.mod_mul, hlow] at h
      exact Nat.eq_of_mul_eq_mul_left (by decide) (Nat.add_left_cancel h)
    rw [toLE, toLE, ih hhigh]
    congr 1
    exact BitVec.eq_of_toNat_eq (by simpa using hlow)

theorem pow_bytes_eq (w32 : Bool) : 256 ^ (width w32 / 8) = 2 ^ width w32 := by cases w32 <;> rfl

/-- What becomes of a bank atomic (R137, R147, R171). -/
theorem bankEff_cases {s : State} {r : Nat} {w32 : Bool} {d : BitVec 5} {a : BitVec 5} {b : BitVec 5} (f : Word → Word → Word) {v : Nat}
    (hv : (f (BitVec.ofNat 64 (ofLE (memRead s r .scratch (getW (rope s r) a).toNat (width w32 / 8)))) (getW (rope s r) b)).toNat %
      2 ^ width w32 = v % 2 ^ width w32) :
    let x := rope s r
    let ea := (getW x a).toNat
    let n := width w32 / 8
    (ea < 0x400000 → ea % n = 0 → settleEff s r (bankEff s r w32 d ⟨a, false⟩ b f) = .next (modRope
      (memWrite s r .scratch ea (toLE n v)) r (fun x => nextPc (setW x d (BitVec.ofNat 64 (ofLE (memRead s r .scratch ea n))))))) ∧
    (ea < 0x400000 → ea % n = 0 → settleEff s r (bankEff s r w32 d ⟨a, true⟩ b f) = .next (faultRope s r 0x0A (getW x a))) ∧
    (∀ q, 0x400000 ≤ ea → settleEff s r (bankEff s r w32 d ⟨a, q⟩ b f) = .next (faultRope s r 3 (getW x a))) ∧
    (∀ q, ea < 0x400000 → ea % n ≠ 0 → settleEff s r (bankEff s r w32 d ⟨a, q⟩ b f) = .next (faultRope s r 4 (getW x a))) := by
  have hn : (if w32 then 4 else 8) = width w32 / 8 := by cases w32 <;> rfl
  rw [← pow_bytes_eq] at hv
  have hbytes := toLE_congr hv
  refine ⟨fun hlt hal => ?_, fun hlt hal => ?_, fun q hge => ?_, fun q hlt hal => ?_⟩
  · simp only [bankEff, hn, Nat.not_le.mpr hlt, if_false, hal, bne_self_eq_false, Bool.false_eq_true, settleEff, hbytes,
      modRope_modRope]
    rfl
  · simp only [bankEff, hn, Nat.not_le.mpr hlt, if_false, hal, bne_self_eq_false, Bool.false_eq_true, settleEff, if_true]
  · simp only [bankEff, hge, if_true, settleEff]
  · simp only [bankEff, hn, Nat.not_le.mpr hlt, if_false, bne_iff_ne, ne_eq, hal, not_false_eq_true, settleEff, if_true]

/-- Settles O7: ADDM and SWPM through what a bank atomic does. -/
theorem bankAtomicsReplaceOneWord : Obligations.BankAtomicsReplaceOneWord := by
  unfold Obligations.BankAtomicsReplaceOneWord
  intro s r w32 d a b h x c ea n old does
  have hdoes : ∀ (i : Bool → Instr) (f : Word → Word → Word) (v : Nat),
      (∀ q, exec (i q) s = settleEff s r.toNat (bankEff s r.toNat w32 d ⟨a, q⟩ b f)) →
      (f (BitVec.ofNat 64 old) (getW x b)).toNat % 2 ^ width w32 = v % 2 ^ width w32 → does i v := by
    intro i f v hi hv
    obtain ⟨hok, hpar, haddr, halign⟩ := bankEff_cases (d := d) f hv
    refine ⟨fun hlt hal => ⟨_, (hi false).trans (hok hlt hal), rope_modRope_same _ _ _,
      otherRopesKept_modRope (fun _ _ => rfl) _, restKept_with, memWrite_scratch _ _ _ _⟩, fun hlt hal => (hi true).trans (hpar hlt hal),
      fun q hge => (hi q).trans (haddr q hge), fun q hlt hal => (hi q).trans (halign q hlt hal)⟩
  have haddm : ∀ q, exec (.addm r w32 d ⟨a, q⟩ b) s =
      settleEff s r.toNat (bankEff s r.toNat w32 d ⟨a, q⟩ b (fun old v => old + v)) := fun q => by
    change execAddm r w32 d ⟨a, q⟩ b s = _
    rw [execAddm, issue_ok h]
  have hswpm : ∀ q, exec (.swpm r w32 d ⟨a, q⟩ b) s =
      settleEff s r.toNat (bankEff s r.toNat w32 d ⟨a, q⟩ b (fun _ v => v)) := fun q => by
    change execSwpm r w32 d ⟨a, q⟩ b s = _
    rw [execSwpm, issue_ok h]
  refine ⟨hdoes _ (fun old v => old + v) _ haddm ?_, hdoes _ (fun _ v => v) _ hswpm rfl⟩
  rw [BitVec.toNat_add, BitVec.toNat_ofNat, Nat.mod_add_mod, Nat.mod_mod, Nat.mod_mod_of_dvd _ (Nat.pow_dvd_pow 2 (width_le w32))]

end Sys2Proof.Proofs

/-! String instructions (R164 to R166). `StepsOnce` says that one step covers the whole count in the scratchpad; the outcome of
the instruction then is the outcome of that step. -/

namespace Sys2Proof.Proofs

open Sys2Proof.Machine Sys2Proof.Claim

/-! ### The operands of a step (R164, R166) -/

theorem regionOf_scratch (s : State) {a n : Nat} (h : a + n ≤ 0x400000) : regionOf s a n = some .scratch := by
  rw [regionOf_eq, if_pos h]

theorem access_scratch_bytes (s : State) (x : Rope) {a n : Nat} (wr : Bool) (h : a + n ≤ 0x400000) :
    access s x a n 1 wr = .ok .scratch := by
  rw [access_level0 (regionOf_scratch s h) (by decide), levelFor, if_neg (Nat.not_lt_zero _), if_pos (Nat.mod_one a)]

/-- Every pointer stands `n` bytes or more before the end of the scratchpad. -/
def InScratch (x : Rope) (n : Nat) (ps : List (BitVec 5 × Bool)) : Prop := ∀ e ∈ ps, (getW x e.1).toNat + n ≤ 0x400000

theorem stepFault_scratch (s : State) {x : Rope} {n : Nat} {ps : List (BitVec 5 × Bool)} (h : InScratch x n ps) :
    stepFault s x n ps = none := by
  induction ps with
  | nil => rfl
  | cons e ps ih =>
    have he := h e (by simp)
    have hno : ¬regionOf s (getW x e.1).toNat n = some .ctl := by rw [regionOf_scratch s he]; decide
    simp only [stepFault, hno, if_false, access_scratch_bytes s x e.2 he]
    exact ih fun f hf => h f (by simp [hf])

theorem stepLines_scratch (s : State) {x : Rope} {n : Nat} {o : StrOps} (h : InScratch x n o.ptrs) : stepLines s x n o = [] := by
  rw [stepLines, List.filterMap_eq_nil_iff]
  intro e he
  have hno : (some Region.scratch == some Region.hbm) = false := by decide
  simp only [regionOf_scratch s (h e he), hno, Bool.and_false, Bool.false_eq_true, if_false]

/-- No boundary lies before the count: the step covers it. -/
theorem stepLen_eq {x : Rope} {n : Nat} {o : StrOps} (hn : (getW x 28).toNat = n)
    (h : ∀ e ∈ o.ptrs, n ≤ 32 - (getW x e.1).toNat % 32) : stepLen x o = n := by
  have hfold : ∀ (ps : List (BitVec 5 × Bool)), (∀ e ∈ ps, n ≤ 32 - (getW x e.1).toNat % 32) →
      ps.foldl (fun n p => min n (32 - (getW x p.1).toNat % 32)) n = n := by
    intro ps
    induction ps with
    | nil => intro _; rfl
    | cons e ps ih =>
      intro hps
      rw [List.foldl_cons, Nat.min_eq_left (hps e (by simp))]
      exact ih fun f hf => hps f (by simp [hf])
  rw [stepLen, hn]
  exact hfold _ h

/-! ### Instructions of one step -/

/-- One step covers the count. -/
structure StepsOnce (s : State) (x : Rope) (o : StrOps) (n : Nat) : Prop where
  count : getW x 28 = BitVec.ofNat 64 n
  pos : 0 < n
  le : n ≤ 32
  len : stepLen x o = n
  fault : stepFault s x n o.ptrs = none
  lines : stepLines s x n o = []
  others : ∀ e ∈ o.ptrs, e.1 ≠ 28

theorem StepsOnce.count_ne {s : State} {x : Rope} {o : StrOps} {n : Nat} (h : StepsOnce s x o n) : getW x 28 ≠ 0 := by
  have hpos := h.pos
  have hle := h.le
  intro h0
  have hval := congrArg BitVec.toNat (h.count.symm.trans h0)
  rw [BitVec.toNat_ofNat, Nat.mod_eq_of_lt (by omega)] at hval
  exact absurd hval (by simpa using Nat.ne_of_gt hpos)

theorem toNat_ofNat_64 {n : Nat} (h : n < 2 ^ 64) : (BitVec.ofNat 64 n).toNat = n := by
  rw [BitVec.toNat_ofNat, Nat.mod_eq_of_lt h]

/-- Pointers in the scratchpad with no boundary before the count. -/
theorem stepsOnce_of_scratch (s : State) {x : Rope} {o : StrOps} {n : Nat} (hpos : 0 < n)
    (hcount : getW x 28 = BitVec.ofNat 64 n) (hne : o.ptrs ≠ [])
    (h : ∀ e ∈ o.ptrs, e.1 ≠ 28 ∧ n ≤ 32 - (getW x e.1).toNat % 32 ∧ (getW x e.1).toNat + n ≤ 0x400000) : StepsOnce s x o n := by
  have hle : n ≤ 32 := by
    obtain ⟨e, he⟩ := List.exists_mem_of_ne_nil _ hne
    exact (h e he).2.1.trans (Nat.sub_le _ _)
  have hin : InScratch x n o.ptrs := fun e he => (h e he).2.2
  exact ⟨hcount, hpos, hle, stepLen_eq (by rw [hcount, toNat_ofNat_64 (by omega)]) fun e he => (h e he).2.1,
    stepFault_scratch s hin, stepLines_scratch s hin, fun e he => (h e he).1⟩

theorem strRun_zero {o : StrOps} {step : StrStep} {fin : Flags → Flags} {s : State} {r : Nat} (h : getW (rope s r) 28 = 0)
    (steps : Nat) : strRun o step fin s r steps = strEnd s r fin := by
  unfold strRun
  exact if_pos h

/-- The step stops early: the instruction ends there. -/
theorem strRun_stop {o : StrOps} {step : StrStep} {s t : State} {r n i : Nat} {f : Flags → Flags}
    (h : StepsOnce s (rope s r) o n) (hstep : step s r n = (t, some (i, f))) (fin : Flags → Flags) (k : Nat) :
    strRun o step fin s r (k + 1) = strEnd (modRope t r (strMove o i)) r f := by
  unfold strRun
  simp only [h.count_ne, if_false, h.len, h.fault, h.lines, List.all_nil, if_true, hstep]

theorem getW_strMove_count (x : Rope) {o : StrOps} (k : Nat) (h : ∀ e ∈ o.ptrs, e.1 ≠ 28) :
    getW (strMove o k x) 28 = getW x 28 - BitVec.ofNat 64 k := by
  have hfold : ∀ (ps : List (BitVec 5 × Bool)) (y : Rope), (∀ e ∈ ps, e.1 ≠ 28) →
      getW (ps.foldl (fun x p => setW x p.1 (getW x p.1 + BitVec.ofNat 64 k)) y) 28 = getW y 28 := by
    intro ps
    induction ps with
    | nil => intro y _; rfl
    | cons e ps ih =>
      intro y hps
      rw [List.foldl_cons, ih _ fun f hf => hps f (by simp [hf]), getW_setW_ne _ _ (hps e (by simp))]
  rw [strMove, getW_setW_same _ _ (by decide), hfold _ _ h]

/-- The step goes to the end of the count. -/
theorem strRun_end {o : StrOps} {step : StrStep} {s t : State} {r n : Nat} (h : StepsOnce s (rope s r) o n)
    (hstep : step s r n = (t, none)) (hrope : rope t r = rope s r) (fin : Flags → Flags) (k : Nat) :
    strRun o step fin s r (k + 1) = strEnd (modRope t r (strMove o n)) r fin := by
  have hzero : getW (rope (modRope t r (strMove o n)) r) 28 = 0 := by
    rw [rope_modRope_same, hrope, getW_strMove_count _ _ h.others, h.count, BitVec.sub_self]
    rfl
  rw [strRun.eq_def]
  simp only [h.count_ne, if_false, h.len, h.fault, h.lines, List.all_nil, if_true, hstep]
  exact strRun_zero hzero k

/-- An uncorrectable error in what the step reads (R171). -/
theorem strParity_error {o : StrOps} {s : State} {r n : Nat} (h : StepsOnce s (rope s r) o n) (steps : Nat)
    (run : State → Nat → Nat → Eff) : strParity ⟨steps, true⟩ o run s r = .trap 0x0A (getW (rope s r) 26) := by
  have hb : (getW (rope s r) 28 != 0) = true := bne_iff_ne.mpr h.count_ne
  simp only [strParity, hb, h.len, h.fault, Option.isNone_none, Bool.and_self, if_true]

theorem strParity_ok (o : StrOps) (s : State) (r steps : Nat) (run : State → Nat → Nat → Eff) :
    strParity ⟨steps, false⟩ o run s r = run s r steps := by
  simp [strParity]

theorem strParity_zero (o : StrOps) {s : State} {r : Nat} (h : getW (rope s r) 28 = 0) (steps : Checked Nat)
    (run : State → Nat → Nat → Eff) : strParity steps o run s r = run s r steps.val := by
  have hb : (getW (rope s r) 28 != 0) = false := by rw [h]; rfl
  simp only [strParity, hb, Bool.and_false, Bool.false_and, Bool.false_eq_true, if_false]

theorem settleEff_strEnd (s : State) (r : Nat) (f : Flags → Flags) : settleEff s r (strEnd s r f) =
    .next (modRope s r (fun x => nextPc { x with lines := [], flags := f x.flags })) := by
  rw [strEnd, settleEff, modRope_modRope]
  rfl

/-! ### The bytes of a step (R165) -/

theorem strBytes_scratch {s : State} {r n a : Nat} {p : BitVec 5} (ha : (getW (rope s r) p).toNat = a) (h : a + n ≤ 0x400000) :
    strBytes s r p n = rdN (cluster s (ropeCluster r)).scratch a n := by
  simp only [strBytes, ha, regionOf_scratch s h]
  rfl

theorem strPut_scratch {s : State} {r a : Nat} {p : BitVec 5} {bs : List Byte} (ha : (getW (rope s r) p).toNat = a)
    (h : a + bs.length ≤ 0x400000) : strPut s r p bs = memWrite s r .scratch a bs := by
  simp only [strPut, ha, regionOf_scratch s h]

/-- Bytes that do not overlap are copied as they stand. -/
theorem copyBytes_disjoint {bs : List Byte} {k : Nat} (h : k = 0 ∨ bs.length ≤ k) : copyBytes bs k = bs := by
  unfold copyBytes
  split
  · rfl
  · next hk =>
    have hle := h.resolve_left hk
    refine List.ext_getElem (by simp) fun i h1 h2 => ?_
    simp [lget, Nat.mod_eq_of_lt (h2.trans_le hle), List.getElem?_eq_getElem h2]

theorem firstDiff_self (bs : List Byte) (i : Nat) : firstDiff bs bs i = none := by
  induction bs generalizing i with
  | nil => rfl
  | cons b bs ih => rw [firstDiff, if_pos rfl]; exact ih _

theorem firstDiff_lt {as bs : List Byte} {k i : Nat} {u v : Byte} (h : firstDiff as bs k = some (i, u, v)) :
    i < k + as.length := by
  induction as generalizing bs k with
  | nil => simp [firstDiff] at h
  | cons a as ih =>
    cases bs with
    | nil => simp [firstDiff] at h
    | cons b bs =>
      rw [firstDiff] at h
      split at h
      · have := ih h
        rw [List.length_cons]
        omega
      · obtain ⟨rfl, -, -⟩ := by simpa using h
        simp

/-- CMP of two bytes. -/
theorem cmpFlags_bytes (u v : Byte) (f : Flags) : cmpFlags (u.setWidth 64) (v.setWidth 64) f =
    nzcv false ((u.toNat + 2 ^ 64 - v.toNat) % 2 ^ 64) (decide (v ≤ u)) false := by
  have hu := u.isLt
  have hv := v.isLt
  have hfit : ∀ w : Byte, Fits false (w.setWidth 64) w.toNat := fun w => by
    have := w.isLt
    exact ⟨by rw [BitVec.toNat_setWidth, Nat.mod_eq_of_lt (by omega)], by rw [width_false]; omega⟩
  have hsmall : ∀ w : Byte, sgn false w.toNat = w.toNat := fun w => by
    have := w.isLt
    rw [sgn, if_pos (by rw [width_false]; omega)]
  have hno : overflows false (sgn false u.toNat - sgn false v.toNat) = false := by
    rw [← Bool.not_eq_true, overflows_iff, hsmall, hsmall, width_false]
    simp only [not_not]
    omega
  rw [cmpFlags, (sub_gives f (hfit u) (hfit v)).flagsOf_eq, hno, width_false]
  rfl

/-- The count falls by what a step has done of it. -/
theorem ofNat_sub_ofNat {n k : Nat} (hk : k ≤ n) : BitVec.ofNat 64 n - BitVec.ofNat 64 k = BitVec.ofNat 64 (n - k) := by
  have h : BitVec.ofNat 64 n = BitVec.ofNat 64 (n - k) + BitVec.ofNat 64 k := by
    rw [← BitVec.ofNat_add, Nat.sub_add_cancel hk]
  rw [h, BitVec.add_sub_cancel]

/-- The pointers of the list go on by `k`, and w28 is what is left of `n`. -/
def movedRope (x : Rope) (n : Nat) (ps : List (BitVec 5)) (k : Nat) : Rope :=
  setW (ps.foldl (fun y w => setW y w (getW y w + BitVec.ofNat 64 k)) { x with lines := [] }) 28 (BitVec.ofNat 64 (n - k))

/-- What strMove leaves, with the lines forgotten. -/
theorem strMove_eq_movedRope {s : State} {x : Rope} {o : StrOps} {n k : Nat} (h : StepsOnce s x o n) (hk : k ≤ n) (f : Flags) :
    { strMove o k x with lines := [], flags := f } = { movedRope x n (o.ptrs.map (·.1)) k with flags := f } := by
  have hset : ∀ (y : Rope) (d : BitVec 5) (v : Word), setW { y with lines := [] } d v = { setW y d v with lines := [] } :=
    fun y d v => by unfold setW; split <;> rfl
  have hfold : ∀ (ps : List (BitVec 5 × Bool)) (y : Rope),
      (ps.map (·.1)).foldl (fun y w => setW y w (getW y w + BitVec.ofNat 64 k)) { y with lines := [] } =
        { ps.foldl (fun x p => setW x p.1 (getW x p.1 + BitVec.ofNat 64 k)) y with lines := [] } := by
    intro ps
    induction ps with
    | nil => intro y; rfl
    | cons e ps ih =>
      intro y
      have hget : getW { y with lines := [] } e.1 = getW y e.1 := rfl
      rw [List.map_cons, List.foldl_cons, List.foldl_cons, hget, hset, ih]
  have hcount : getW (o.ptrs.foldl (fun x p => setW x p.1 (getW x p.1 + BitVec.ofNat 64 k)) x) 28 - BitVec.ofNat 64 k =
      BitVec.ofNat 64 (n - k) := by
    have := getW_strMove_count x k h.others
    rw [strMove, getW_setW_same _ _ (by decide), h.count, ofNat_sub_ofNat hk] at this
    exact this
  rw [movedRope, hfold, hset, strMove, hcount]

theorem strMove_flags (o : StrOps) (k : Nat) (x : Rope) : (strMove o k x).flags = x.flags := by
  have hfold : ∀ (ps : List (BitVec 5 × Bool)) (y : Rope),
      (ps.foldl (fun x p => setW x p.1 (getW x p.1 + BitVec.ofNat 64 k)) y).flags = y.flags :=
    fun ps y => foldl_keeps (fun y : Rope => y.flags) _ (fun y e => setW_flags y _ _) ps y
  rw [strMove, setW_flags, hfold]

/-- A step that stops early, as an instruction. -/
theorem settleEff_stop {o : StrOps} {step : StrStep} {s : State} {r n i : Nat} {f : Flags → Flags}
    (h : StepsOnce s (rope s r) o n) (hi : i ≤ n) (hstep : step s r n = (s, some (i, f))) (fin : Flags → Flags) (k : Nat) :
    settleEff s r (strRun o step fin s r (k + 1)) = .next (setRope s r (nextPc { movedRope (rope s r) n (o.ptrs.map (·.1)) i with
      flags := f (rope s r).flags })) := by
  have hflags := strMove_flags o i (rope s r)
  rw [strRun_stop h hstep, strEnd, settleEff, modRope_modRope, modRope_modRope, modRope, ← strMove_eq_movedRope h hi, ← hflags]
  rfl

/-- A step that goes to the end, as an instruction that leaves the other registers. -/
theorem settleEff_end {o : StrOps} {step : StrStep} {s t : State} {r n : Nat} (h : StepsOnce s (rope s r) o n)
    (hstep : step s r n = (t, none)) (hrope : rope t r = rope s r) (fin : Flags → Flags) (k : Nat) :
    settleEff s r (strRun o step fin s r (k + 1)) = .next (setRope t r (nextPc { movedRope (rope s r) n (o.ptrs.map (·.1)) n with
      flags := fin (rope s r).flags })) := by
  have hflags := strMove_flags o n (rope s r)
  rw [strRun_end h hstep hrope, strEnd, settleEff, modRope_modRope, modRope_modRope, modRope, hrope,
    ← strMove_eq_movedRope h (Nat.le_refl n), ← hflags]
  rfl

/-- What an instruction over the scratchpad does with its destination bytes. -/
theorem memWrite_scratch_after (s : State) (r a : Nat) (bs : List Byte) (x : Rope) :
    rope (setRope (memWrite s r .scratch a bs) r x) r = x ∧
    OtherRopesKept s (setRope (memWrite s r .scratch a bs) r x) r ∧ RestKept s (setRope (memWrite s r .scratch a bs) r x) ∧
    ∀ b, scratchByte (setRope (memWrite s r .scratch a bs) r x) (ropeCluster r) b =
      stored a bs b (scratchByte s (ropeCluster r) b) :=
  ⟨rope_setRope_same _ _ _, otherRopesKept_setRope (fun _ _ => rfl) _, restKept_with, (memWrite_scratch s r a bs).2.2⟩

/-- The bytes that SFILL stores from `q` on, each by its address modulo 8. -/
def fillBytes (q n : Nat) (v : Word) : List Byte := (List.range n).map (fun i => lget (toLE 8 v.toNat) ((q + i) % 8) 0)

theorem fillStep_eq (b : BitVec 5) (s : State) (r n : Nat) : fillStep b s r n =
    (strPut s r 27 (fillBytes (getW (rope s r) 27).toNat n (getW (rope s r) b)), none) := rfl

theorem stored_fillBytes (q n : Nat) (v : Word) (a : Nat) (old : Byte) : stored q (fillBytes q n v) a old =
    if q ≤ a ∧ a < q + n then (toLE 8 v.toNat).getD (a % 8) 0 else old := by
  have hlen : (fillBytes q n v).length = n := by simp [fillBytes]
  rw [stored, hlen]
  split
  · next h => 
    rw [fillBytes, List.getD_eq_getElem?_getD, List.getElem?_map, List.getElem?_range (by omega), Option.map_some, Option.getD_some,
      Nat.add_sub_cancel' h.1, lget, List.getD_eq_getElem?_getD]
  · rfl

/-- Settles O12: with a count of 0 nothing moves; else the one step decides. -/
theorem stringsStepThroughMemory : Obligations.StringsStepThroughMemory := by
  unfold Obligations.StringsStepThroughMemory
  refine ⟨fun s r b steps e h h0 => ?_, fun s r b n p q h hb26 hb27 hb28 => ?_⟩
  · refine ⟨?_, ?_, ?_, ?_⟩
    · change execScopy r ⟨steps, e⟩ s = _
      rw [execScopy, issue_ok h, strParity_zero _ h0, strRun_zero h0, settleEff_strEnd]
      rfl
    · change execSfill r b steps s = _
      rw [execSfill, issue_ok h, strRun_zero h0, settleEff_strEnd]
      rfl
    · change execScmp r ⟨steps, e⟩ s = _
      rw [execScmp, issue_ok h, strParity_zero _ h0, strRun_zero h0, settleEff_strEnd]
      rfl
    · change execSscan r b ⟨steps, e⟩ s = _
      rw [execSscan, issue_ok h, strParity_zero _ h0, strRun_zero h0, settleEff_strEnd]
      rfl
  · intro x c hpos hn hp hq hnp hnq hpe hqe src dst moved
    have hp' : (getW (rope s r.toNat) 26).toNat = p := (congrArg BitVec.toNat hp).trans (toNat_ofNat_64 (by omega))
    have hq' : (getW (rope s r.toNat) 27).toNat = q := (congrArg BitVec.toNat hq).trans (toNat_ofNat_64 (by omega))
    have h26 : ∀ wr : Bool, ∀ e ∈ [((26 : BitVec 5), wr)],
        e.1 ≠ 28 ∧ n ≤ 32 - (getW x e.1).toNat % 32 ∧ (getW x e.1).toNat + n ≤ 0x400000 := by
      intro wr e he
      obtain rfl := List.mem_singleton.mp he
      exact ⟨(by decide : (26 : BitVec 5) ≠ 28), by rw [hp']; exact hnp, by rw [hp']; exact hpe⟩
    have h27 : ∀ wr : Bool, ∀ e ∈ [((27 : BitVec 5), wr)],
        e.1 ≠ 28 ∧ n ≤ 32 - (getW x e.1).toNat % 32 ∧ (getW x e.1).toNat + n ≤ 0x400000 := by
      intro wr e he
      obtain rfl := List.mem_singleton.mp he
      exact ⟨(by decide : (27 : BitVec 5) ≠ 28), by rw [hq']; exact hnq, by rw [hq']; exact hqe⟩
    have hboth : ∀ wr, StepsOnce s x ⟨[(26, false), (27, wr)]⟩ n := fun wr =>
      stepsOnce_of_scratch s hpos hn (by simp) (List.forall_mem_append.mpr ⟨h26 false, h27 wr⟩)
    have hone : StepsOnce s x ⟨[(26, false)]⟩ n := stepsOnce_of_scratch s hpos hn (by simp) (h26 false)
    have hfill : StepsOnce s x ⟨[(27, true)]⟩ n := stepsOnce_of_scratch s hpos hn (by simp) (h27 true)
    have hsrc : strBytes s r.toNat 26 n = src := strBytes_scratch hp' hpe
    have hdst : strBytes s r.toNat 27 n = dst := strBytes_scratch hq' hqe
    have hlen : src.length = n := length_rdN _ _ _
    refine ⟨fun steps hdis => ?_, fun steps => ?_, fun steps i u v hd => ?_, fun steps heq => ?_, fun steps i hfind => ?_,
      fun steps hnone => ?_, fun steps => ⟨?_, ?_, ?_⟩⟩
    · have hstep : copyStep s r.toNat n = (memWrite s r.toNat .scratch q src, none) := by
        have hcopy : copyBytes src (q - p) = src := copyBytes_disjoint (by omega)
        simp only [copyStep, hsrc, hp', hq', hcopy, strPut_scratch hq' (by omega : q + src.length ≤ 0x400000)]
      refine ⟨_, ?_, memWrite_scratch_after s r.toNat q src _⟩
      change execScopy r ⟨steps + 1, false⟩ s = _
      rw [execScopy, issue_ok h, strParity_ok, settleEff_end (hboth true) hstep rfl]
      rfl
    · have hlen' : (fillBytes q n (getW x b)).length = n := by simp [fillBytes]
      have hstep : fillStep b s r.toNat n = (memWrite s r.toNat .scratch q (fillBytes q n (getW x b)), none) := by
        rw [fillStep_eq, hq', strPut_scratch hq' (by rw [hlen']; exact hqe)]
      obtain ⟨hrope, hothers, hrest, hbytes⟩ := memWrite_scratch_after s r.toNat q (fillBytes q n (getW x b))
        (nextPc (movedRope x n [27] n))
      refine ⟨_, ?_, hrope, hothers, hrest, fun a => (hbytes a).trans (stored_fillBytes _ _ _ _ _)⟩
      change execSfill r b (steps + 1) s = _
      rw [execSfill, issue_ok h, settleEff_end hfill hstep rfl]
      rfl
    · have hi := firstDiff_lt hd
      have hstep : cmpStep s r.toNat n = (s, some (i, cmpFlags (u.setWidth 64) (v.setWidth 64))) := by
        simp only [cmpStep, hsrc, hdst, hd]
      change execScmp r ⟨steps + 1, false⟩ s = _
      rw [execScmp, issue_ok h, strParity_ok, settleEff_stop (hboth false) (by omega) hstep, cmpFlags_bytes]
      rfl
    · have hstep : cmpStep s r.toNat n = (s, none) := by
        simp only [cmpStep, hsrc, hdst, ← heq, firstDiff_self]
      change execScmp r ⟨steps + 1, false⟩ s = _
      rw [execScmp, issue_ok h, strParity_ok, settleEff_end (hboth false) hstep rfl]
      rfl
    · have hi : i < n := by
        rw [← hlen]
        exact (List.findIdx?_eq_some_iff_getElem.mp hfind).1
      have hstep : scanStep b s r.toNat n = (s, some (i, fun f => { f with z := true })) := by
        simp only [scanStep, hsrc, show src.findIdx? (fun w => w == (getW (rope s r.toNat) b).setWidth 8) = some i from hfind]
      change execSscan r b ⟨steps + 1, false⟩ s = _
      rw [execSscan, issue_ok h, strParity_ok, settleEff_stop hone (by omega) hstep]
      rfl
    · have hfind : src.findIdx? (fun w => w == (getW x b).setWidth 8) = none :=
        List.findIdx?_eq_none_iff.mpr fun w hw => by simpa using hnone w hw
      have hstep : scanStep b s r.toNat n = (s, none) := by
        simp only [scanStep, hsrc, show src.findIdx? (fun w => w == (getW (rope s r.toNat) b).setWidth 8) = none from hfind]
      change execSscan r b ⟨steps + 1, false⟩ s = _
      rw [execSscan, issue_ok h, strParity_ok, settleEff_end hone hstep rfl]
      rfl
    · change execScopy r ⟨steps, true⟩ s = _
      rw [execScopy, issue_ok h, strParity_error (hboth true)]
      rfl
    · change execScmp r ⟨steps, true⟩ s = _
      rw [execScmp, issue_ok h, strParity_error (hboth false)]
      rfl
    · change execSscan r b ⟨steps, true⟩ s = _
      rw [execSscan, issue_ok h, strParity_error hone]
      rfl

end Sys2Proof.Proofs

/-! Crampon's waits (R199, R205, R208) and the system registers (R129, R131, R149, R207). -/

namespace Sys2Proof.Proofs

open Sys2Proof.Machine Sys2Proof.Claim

/-! ### What keeps a Crampon instruction back -/

/-- A Crampon instruction, by how its registers stand. -/
def kEff (r : Nat) (f : State → Eff) : State × KWait → Eff
  | (s, .long k) => .held (stall (bump s (0x4040 + ropeCluster r) 0x13) r (.kreg k))
  | (s, .inPlace) => .held s
  | (s, .ready) => if !cramponOn s r then .trap 8 0 else f (cpenSpent s r)

theorem issueK_eq {s : State} {r : Issuer} (h : Issues s r) (ks : List (BitVec 4)) (f : State → Eff) :
    issueK s r ks f = settleEff s r.toNat (kEff r.toNat f (kReady s r.toNat ks)) := by
  rw [issueK, issue_ok h]
  rfl

theorem issueK_disabled {s : State} {r : Issuer} (h : Issues s r) (hk : (rope s r.toNat).kPend = [])
    (hoff : cramponOn s r.toNat = false) (ks : List (BitVec 4)) (f : State → Eff) :
    issueK s r ks f = .next (faultRope s r.toNat 8 0) := by
  have hnone : ∀ k ∈ ks, pendingK (rope s r.toNat) k = none := fun k _ => by simp [pendingK, hk]
  rw [issueK_eq h, kReady_nil s r.toNat ks hnone, kEff, hoff]
  rfl

/-- The one result that is due for a register, before every other of the rope. -/
structure DueFirst (x : Rope) (ka : BitVec 4) (p : KPend) : Prop where
  only : x.kPend.filter (fun q => q.kd == ka) = [p]
  first : ∀ q ∈ x.kPend, q.kd ≠ ka → p.due < q.due

theorem DueFirst.mem {x : Rope} {ka : BitVec 4} {p : KPend} (h : DueFirst x ka p) : p ∈ x.kPend ∧ p.kd = ka := by
  have : p ∈ x.kPend.filter (fun q => q.kd == ka) := by rw [h.only]; simp
  simpa using this

/-- Of the results that are due by then only this one may be written. -/
theorem DueFirst.filter_due {s : State} {x : Rope} {ka : BitVec 4} {p : KPend} (h : DueFirst x ka p) :
    x.kPend.filter (fun q => decide (q.due ≤ p.due) && !kHeld s q) = if kHeld s p then [] else [p] := by
  have hsame : x.kPend.filter (fun q => decide (q.due ≤ p.due) && !kHeld s q) =
      (x.kPend.filter (fun q => q.kd == ka)).filter (fun q => decide (q.due ≤ p.due) && !kHeld s q) := by
    rw [List.filter_filter]
    refine List.filter_congr fun q hq => ?_
    by_cases hk : q.kd = ka
    · simp [hk]
    · simp [Nat.not_le.mpr (h.first q hq hk)]
  rw [hsame, h.only]
  cases hh : kHeld s p <;> simp [hh]

theorem kDue_of_dueFirst {s : State} {r : Nat} {ka : BitVec 4} {p : KPend} (h : DueFirst (rope s r) ka p) :
    kDue s r p.due = if kHeld s p then s else kWrite (advanceTo s p.due) r p := by
  rw [kDue, h.filter_due]
  cases kHeld s p <;> rfl

/-- Nothing but the register and its pending bit changes where no rope waits for the result. -/
theorem kWrite_quiet {s : State} {r : Nat} {p : KPend} (hm : p.miss = none) (hx : p.isTxl = false) (hr : (rope s r).st = .ready) :
    kWrite s r p = busyCore (modRope s r (fun x => setK { x with kPend := x.kPend.filter (fun q => q.kd != p.kd) } p.kd p.value))
      (ropeCore r) := by
  simp only [kWrite, hm]
  generalize hu : busyCore _ _ = u
  have hst : (rope u r).st = .ready := by
    rw [← hu, busyCore, modCore, rope_setCore, rope_modRope_same]
    exact hr
  have hno : ¬(rope u r).st = .waiting (.kreg p.kd) := by rw [hst]; exact nofun
  simp only [kWake, hno, if_false, hx, Bool.false_eq_true]

theorem kReady_ka {s : State} {r : Nat} {ka : BitVec 4} {p : KPend} (h : (rope s r).kPend.filter (fun q => q.kd == ka) = [p]) :
    kReady s r [ka] = if s.time.now + 8 * dpU s ≤ p.due then (s, .long p.kd)
      else (kDue s r p.due, if (pendingK (rope (kDue s r p.due) r) ka).isSome then .inPlace else .ready) := by
  have hw : (rope s r).kPend.filter (fun q => [ka].contains q.kd) = [p] := by
    rw [← h]
    refine List.filter_congr fun q _ => ?_
    simp [Bool.beq_eq_decide_eq]
  unfold kReady
  rw [hw]
  simp [byDue, dueInsert]

theorem core_busyCore (s : State) (k j : Nat) : Machine.core (busyCore s k) j =
    if j = k then { Machine.core s k with busyAt := s.time.now } else Machine.core s j := by
  split
  · next e => rw [e, busyCore, modCore, core_setCore_same]
  · next e => rw [busyCore, modCore, core_setCore_ne _ _ (Ne.symm e)]

@[simp] theorem rope_busyCore (s : State) (k q : Nat) : rope (busyCore s k) q = rope s q := rfl

theorem cpenPast_busyCore (s : State) (k j : Nat) :
    (Machine.core (busyCore s k) j).cpenPast = (Machine.core s j).cpenPast := by
  rw [core_busyCore]
  split
  · next e => rw [e]
  · rfl

/-- Whether Crampon is on depends on the objects, the rope's place and level, the time and the value replaced. -/
theorem cramponOn_congr {s t : State} {r : Nat} (ho : t.obj = s.obj) (hs : t.sys = s.sys) (ht : t.time = s.time)
    (hc : (Machine.core t (ropeCore r)).cpenPast = (Machine.core s (ropeCore r)).cpenPast)
    (hpc : (rope t r).pc = (rope s r).pc) (hpl : (rope t r).pl = (rope s r).pl) : cramponOn t r = cramponOn s r := by
  unfold cramponOn cpenFor
  rw [hc, hpc, hpl, ht, obj_congr ho hs]

theorem st_ready_of_issues {s : State} {r : Issuer} (h : Issues s r) : (rope s r.toNat).st = .ready := by
  have h1 := h.1
  simp only [issuing, Bool.and_eq_true, beq_iff_eq] at h1
  exact h1.2

theorem exec_kmvKw (r : Issuer) (w : BitVec 5) (ka : BitVec 4) (lane : BitVec 3) (s : State) :
    exec (.kmvKw r w ka lane) s = execKmvKw r w ka lane s := rfl
theorem exec_kmvKk (r : Issuer) (kd ka : BitVec 4) (s : State) : exec (.kmvKk r kd ka) s = execKmvKk r kd ka s := rfl
theorem exec_ktxl (r : Issuer) (kd ka : BitVec 4) (s : State) : exec (.ktxl r kd ka) s = execKtxl r kd ka s := rfl
theorem exec_ksave (r : Issuer) (w : BitVec 5) (s : State) : exec (.ksave r w) s = execKsave r w s := rfl
theorem exec_kload (r : Issuer) (w : Checked (BitVec 5)) (s : State) : exec (.kload r w) s = execKload r w s := rfl

/-- Settles O16: the wait for a result, the result written, and the enable. -/
theorem cramponWaitsForItsRegistersAndEnable : Obligations.CramponWaitsForItsRegistersAndEnable := by
  unfold Obligations.CramponWaitsForItsRegistersAndEnable
  intro s r kd ka w lane x n u
  refine ⟨fun h hk hoff => ?_, fun p h hp => ?_, fun h hfull => ?_⟩
  · have hoff' := issueK_disabled h hk hoff
    exact ⟨(exec_kmvKw r w ka lane s).trans (hoff' _ _), (exec_kmvKk r kd ka s).trans (hoff' _ _),
      (exec_ktxl r kd ka s).trans (hoff' _ _), (exec_ksave r w s).trans (hoff' _ _),
      fun q => (exec_kload r ⟨w, q⟩ s).trans (hoff' _ _)⟩
  · have hexec : exec (.kmvKw r w ka lane) s = settleEff s n (kEff n
        (fun s => .done (modRope s n (fun x => setW x w (laneAt (getK x ka) lane.toNat)))) (kReady s n [ka])) := by
      rw [exec_kmvKw, execKmvKw, issueK_eq h]
    have hkd : p.kd = ka := by
      have : p ∈ x.kPend.filter (fun q => q.kd == ka) := by rw [hp]; simp
      simpa using (List.mem_filter.mp this).2
    rw [hexec, kReady_ka hp]
    refine ⟨fun hlong => ?_, fun hnear hheld hfirst => ?_, fun hnear hm hsrc htxl hfirst hon => ?_⟩
    · rw [if_pos hlong, kEff, hkd]
      rfl
    · have hd : kDue s n p.due = s := by rw [kDue_of_dueFirst ⟨hp, hfirst⟩, if_pos hheld]
      have hpend : (pendingK (rope s n) ka).isSome = true := by
        rw [pendingK, List.find?_isSome]
        exact ⟨p, (DueFirst.mem ⟨hp, hfirst⟩).1, by simp [hkd]⟩
      rw [if_neg (Nat.not_le.mpr hnear), hd, if_pos hpend]
      rfl
    · have hfree : kHeld s p = false := by simp [kHeld, hm, hsrc]
      have hready : (rope (advanceTo s p.due) n).st = .ready :=
        show (rope s r.toNat).st = .ready from st_ready_of_issues h
      have hd : kDue s n p.due = busyCore (modRope (advanceTo s p.due) n
          (fun x => setK { x with kPend := x.kPend.filter (fun q => q.kd != p.kd) } p.kd p.value)) (ropeCore n) := by
        rw [kDue_of_dueFirst ⟨hp, hfirst⟩, hfree, if_neg (by decide), kWrite_quiet hm htxl hready]
      have hrope : rope (kDue s n p.due) n = setK { x with kPend := x.kPend.filter (fun q => q.kd != ka) } ka p.value := by
        rw [hd, rope_busyCore, rope_modRope_same, hkd]
        rfl
      have hnone : pendingK (rope (kDue s n p.due) n) ka = none := by
        rw [hrope, pendingK, setK, List.find?_eq_none]
        intro q hq
        simpa using (List.mem_filter.mp hq).2
      have hon' : cramponOn (kDue s n p.due) n = true := by
        rw [← hon]
        refine cramponOn_congr (by rw [hd]; rfl) (by rw [hd]; rfl) (by rw [hd]; rfl) ?_ ?_ ?_
        · rw [hd, cpenPast_busyCore]; rfl
        · rw [hrope]; rfl
        · rw [hrope]; rfl
      rw [if_neg (Nat.not_le.mpr hnear), hnone, if_neg (by decide), kEff, hon']
      refine ⟨_, rfl, ?_, ?_⟩
      · rw [modRope, setRope_time, modRope, setRope_time, cpenSpent_now, hd]
        exact advanceTo_now s p.due
      · rw [rope_modRope_same, rope_modRope_same, rope_cpenSpent, hrope, getK_setK_same]
  · have hsame : txlOut u (ropeCore n) = txlOut s (ropeCore n) := by
      have hr : ∀ q, rope u q = rope s q := rope_cpenSpent s n
      simp only [txlOut, hr, show u.time.now = s.time.now from cpenSpent_now s n]
    have hsub : ∀ k ∈ [ka, kd], k ∈ [ka, kd] := fun _ hk => hk
    rw [exec_ktxl, execKtxl, issueK_ok h hsub]
    dsimp only
    rw [if_pos (show 16 ≤ txlOut u (ropeCore n) from hsame ▸ hfull)]
    rfl

/-! ### A fault of a Crampon instruction keeps a replaced CPEN value (R170, R208) -/

/-- Rope 5 issues with Crampon enabled, and a replaced CPEN value of its core waits for the next instruction of rope 1. -/
def replacedCpen : State := { State.reset with
  sys := { phase := .run, faultN := true }
  obj := [(key 0x4040 1, 7)]
  ropes := [(5, { st := .ready })]
  cores := [(0, { issuing := some 5, cpenPast := some { rope := 1, pc := 0, value := 0, until_ := 0 } })] }

theorem replacedCpen_issues : CramponIssues replacedCpen ⟨5, false⟩ allK := ⟨⟨rfl, rfl, rfl⟩, rfl, by decide⟩

/-- A fault undoes what the instruction has spent: the fault of the state as it was keeps the replaced value. -/
theorem faultRope_replacedCpen_ne :
    faultRope replacedCpen 5 0x0A 0 ≠ faultRope (cpenSpent replacedCpen 5) 5 0x0A 0 := by
  have hkept : (Machine.core (faultRope replacedCpen 5 0x0A 0) 0).cpenPast.isSome = true := by decide +kernel
  have hspent : (Machine.core (faultRope (cpenSpent replacedCpen 5) 5 0x0A 0) 0).cpenPast.isSome = false := by
    decide +kernel
  intro h
  rw [h, hspent] at hkept
  exact absurd hkept (by decide)

/-- Refutes O14: a KMV.LD with an uncorrectable error leaves the replaced CPEN value of its core unspent. -/
theorem not_cramponMovesTakeTheirLanesAndBytes : ¬Obligations.CramponMovesTakeTheirLanesAndBytes := by
  unfold Obligations.CramponMovesTakeTheirLanesAndBytes
  intro h
  obtain ⟨hissues, hon, hfree⟩ := replacedCpen_issues
  obtain ⟨-, -, -, hload, -⟩ := h replacedCpen ⟨5, false⟩ 0 0 0 0 ⟨hissues, hon, fun k _ => hfree k (by revert k; decide)⟩
  obtain ⟨-, -, -, hparity⟩ := hload .scratch rfl
  have hexec : exec (.kmvLd ⟨5, false⟩ 0 ⟨0, true⟩) replacedCpen = .next (faultRope replacedCpen 5 0x0A 0) := rfl
  exact faultRope_replacedCpen_ne (Host.Outcome.next.inj (hexec.symm.trans hparity))

/-- Refutes O18: a KLOAD with an uncorrectable error leaves the replaced CPEN value of its core unspent. -/
theorem not_cramponResultsAndSavedRegisters : ¬Obligations.CramponResultsAndSavedRegisters := by
  unfold Obligations.CramponResultsAndSavedRegisters
  rintro ⟨-, h⟩
  obtain ⟨harea, -⟩ := h replacedCpen ⟨5, false⟩ 0 replacedCpen_issues
  obtain ⟨-, hparity, -⟩ := harea (by decide) (by decide)
  have hexec : exec (.kload ⟨5, false⟩ ⟨0, true⟩) replacedCpen = .next (faultRope replacedCpen 5 0x0A 0) := rfl
  exact faultRope_replacedCpen_ne (Host.Outcome.next.inj (hexec.symm.trans hparity))

end Sys2Proof.Proofs

/-! The system registers (R129, R131, R149, R207) and the waits for events and time (R167 to R169). -/

namespace Sys2Proof.Proofs

open Sys2Proof.Machine Sys2Proof.Claim

/-! ### Reads and writes of system registers -/

theorem exec_mfs_ok {s : State} {r : Issuer} (h : Issues s r) (d : BitVec 5) (k : BitVec 12) :
    exec (.mfs r d k) s = .next (after s r (setW (rope s r.toNat) d (BitVec.ofNat 64 (sysRead s r.toNat k.toNat)))) := by
  change execMfs r d k s = _
  rw [execMfs, issue_ok h, settleEff, modRope_modRope]
  rfl

/-- What MTS makes of a value for a number of R129. -/
def mtsEff (s : State) (k v n : Nat) : Eff :=
  match n with
  | 1 => .done (modRope s k (fun x => { x with pl := if v % 4 < x.pl.toNat then BitVec.ofNat 2 v else x.pl }))
  | 2 => .done (modRope s k (fun x => { x with flags := flagsFrom v }))
  | 3 => if (rope s k).pl.toNat < 1 then .trap 2 0 else .done (modRope s k (fun x => { x with trap := bit v 0 }))
  | 4 => if (rope s k).pl.toNat < 2 then .trap 2 0 else .done (cpenWrite s k v)
  | 6 => .done (modRope s k (fun x => { x with localDisp := BitVec.ofNat 64 v }))
  | _ => .done s

theorem exec_mts_ok {s : State} {r : Issuer} (h : Issues s r) (a : BitVec 5) (k : BitVec 12) :
    exec (.mts r a k) s = settleEff s r.toNat (mtsEff s r.toNat (getW (rope s r.toNat) a).toNat k.toNat) := by
  change execMts r a k s = _
  rw [execMts, issue_ok h]
  rfl

theorem bit_toNat (v : Word) (i : Nat) : bit v.toNat i = v.getLsbD i := by
  rw [bit, ← BitVec.testBit_toNat, Nat.testBit_eq_decide_div_mod_eq]

theorem flagsFrom_toNat (v : Word) : flagsFrom v.toNat =
    { n := v.getLsbD 3, z := v.getLsbD 2, c := v.getLsbD 1, v := v.getLsbD 0 } := by
  simp only [flagsFrom, bit_toNat]

theorem extractLsb'_zero_two (v : Word) : v.extractLsb' 0 2 = BitVec.ofNat 2 v.toNat := by
  apply BitVec.eq_of_toNat_eq
  simp [BitVec.extractLsb'_toNat]

theorem lowered_pl (v : Word) (pl : BitVec 2) :
    (if v.toNat % 4 < pl.toNat then BitVec.ofNat 2 v.toNat else pl) = if v.extractLsb' 0 2 < pl then v.extractLsb' 0 2 else pl := by
  have hlt : v.extractLsb' 0 2 < pl ↔ v.toNat % 4 < pl.toNat := by
    rw [extractLsb'_zero_two, BitVec.lt_def, BitVec.toNat_ofNat]
  rw [extractLsb'_zero_two] at hlt ⊢
  exact (if_congr hlt rfl rfl).symm

/-! ### A write of CPEN (R207, R208) -/

/-- A core whose replaced CPEN value judges what rope `q` issues at `pc`. -/
def keptCore (s : State) (k q : Nat) (pc : BitVec 32) : Machine.Core := { Machine.core s k with cpenPast := some {
  rope := q, pc := pc, value := obj s (0x4040 + k / 16) (1 + k % 16), until_ := s.time.now + 2 * dpU s } }

theorem cpenKeep_eq (s : State) (k q : Nat) (pc : BitVec 32) : cpenKeep s k q pc = setCore s k (keptCore s k q pc) := rfl

/-- One core of the cluster takes the value of a write for all: what its rope issues next is judged by the value before. -/
def cpenStep (c own v : Nat) (s : State) (i : Nat) : State :=
  let k := c * 16 + i
  let s := if k = own then s else match (Machine.core s k).issuing with
    | some q => cpenKeep s k (k * 8 + q) (rope s (k * 8 + q)).pc
    | none => s
  putObj s (0x4040 + c) (1 + i) (v % 8)

/-- The core that a write for all leaves for core `k`. -/
def cpenAfter (s : State) (own k : Nat) : Machine.Core :=
  if k = own then Machine.core s k else match (Machine.core s k).issuing with
    | some q => keptCore s k (k * 8 + q) (rope s (k * 8 + q)).pc
    | none => Machine.core s k

/-- What the first `m` cores' turns leave. -/
structure CpenTurns (c own v : Nat) (s : State) (m : Nat) (t : State) : Prop where
  frame : ∃ obj' cores', t = { s with obj := obj', cores := cores' }
  core : ∀ k, Machine.core t k = if k / 16 = c ∧ k % 16 < m then cpenAfter s own k else Machine.core s k
  getO : ∀ k, getO t k = if 0x404001 + 256 * c ≤ k ∧ k < 0x404001 + 256 * c + m then v % 8 else getO s k

theorem core_putObj (s : State) (idx sub v k : Nat) : Machine.core (putObj s idx sub v) k = Machine.core s k := rfl

/-- A turn sets the core's own register and, but for the writer's, keeps the value before. -/
theorem cpenStep_spec (c own v : Nat) (t : State) (i : Nat) :
    (∃ obj' cores', cpenStep c own v t i = { t with obj := obj', cores := cores' }) ∧
    (∀ k, Machine.core (cpenStep c own v t i) k = if k = c * 16 + i then cpenAfter t own k else Machine.core t k) ∧
    ∀ k, getO (cpenStep c own v t i) k = if k = key (0x4040 + c) (1 + i) then v % 8 else getO t k := by
  have hput : ∀ (u : State) (k : Nat), getO (putObj u (0x4040 + c) (1 + i) (v % 8)) k =
      if k = key (0x4040 + c) (1 + i) then v % 8 else getO u k := fun u k => by
    split
    · next e => rw [e]; exact getO_setO_same _ _ _
    · next e => exact getO_setO_ne _ _ (Ne.symm e)
  unfold cpenStep cpenAfter
  dsimp only
  split
  · next hown =>
    refine ⟨⟨_, _, rfl⟩, fun k => ?_, fun k => hput _ _⟩
    rw [core_putObj]
    split
    · next e => rw [if_pos (e.trans hown)]
    · rfl
  · next hown =>
    split
    · next q hq =>
      refine ⟨⟨_, _, rfl⟩, fun k => ?_, fun k => hput _ _⟩
      rw [core_putObj, cpenKeep_eq]
      split
      · next e => rw [e, core_setCore_same, if_neg hown, hq]
      · next e => rw [core_setCore_ne _ _ (Ne.symm e)]
    · next hq =>
      refine ⟨⟨_, _, rfl⟩, fun k => ?_, fun k => hput _ _⟩
      rw [core_putObj]
      split
      · next e => rw [e, if_neg hown, hq]
      · rfl

theorem cpenAfter_congr {s t : State} {own k : Nat} (hframe : ∃ obj' cores', t = { s with obj := obj', cores := cores' })
    (hcore : Machine.core t k = Machine.core s k)
    (hobj : getO t (key (0x4040 + k / 16) (1 + k % 16)) = getO s (key (0x4040 + k / 16) (1 + k % 16))) :
    cpenAfter t own k = cpenAfter s own k := by
  obtain ⟨o, x, rfl⟩ := hframe
  unfold cpenAfter keptCore obj
  rw [hcore, hobj]
  rfl

theorem cpenTurns_range (c own v : Nat) (s : State) (m : Nat) (hm : m ≤ 16) :
    CpenTurns c own v s m ((List.range m).foldl (cpenStep c own v) s) := by
  induction m with
  | zero => exact ⟨⟨_, _, rfl⟩, fun k => by simp, fun k => by rw [if_neg (by omega)]; rfl⟩
  | succ m ih =>
    obtain ⟨hframe, hcore, hgetO⟩ := ih (by omega)
    rw [List.range_succ, List.foldl_append, List.foldl_cons, List.foldl_nil]
    generalize (List.range m).foldl (cpenStep c own v) s = t at hframe hcore hgetO
    obtain ⟨hframe', hcore', hgetO'⟩ := cpenStep_spec c own v t m
    refine ⟨?_, fun k => ?_, fun k => ?_⟩
    · obtain ⟨o, x, rfl⟩ := hframe
      obtain ⟨o', x', h'⟩ := hframe'
      exact ⟨o', x', h'⟩
    · rw [hcore']
      by_cases hk : k = c * 16 + m
      · have hdiv : k / 16 = c := by omega
        have hmod : k % 16 = m := by omega
        have hsame : Machine.core t k = Machine.core s k := by rw [hcore, if_neg (by omega)]
        have hown : getO t (key (0x4040 + k / 16) (1 + k % 16)) = getO s (key (0x4040 + k / 16) (1 + k % 16)) := by
          rw [hgetO, if_neg (by rw [hdiv, hmod, key]; omega)]
        rw [if_pos hk, if_pos ⟨hdiv, by omega⟩, cpenAfter_congr hframe hsame hown]
      · rw [if_neg hk, hcore]
        exact if_congr (by omega) rfl rfl
    · have hkey : key (0x4040 + c) (1 + m) = 0x404001 + 256 * c + m := by rw [key]; omega
      rw [hgetO', hkey, hgetO]
      by_cases hk : k = 0x404001 + 256 * c + m
      · rw [if_pos hk, if_pos (by omega)]
      · rw [if_neg hk]
        exact if_congr (by omega) rfl rfl

theorem cpenWrite_one {s : State} {r : Nat} {v : Nat} (h : bit v 63 = false) : cpenWrite s r v =
    putObj (cpenKeep s (ropeCore r) r (nextPc (rope s r)).pc) (0x4040 + ropeCluster r) (1 + ropeCore r % 16) (v % 8) := by
  simp only [cpenWrite, h, Bool.false_eq_true, if_false]

theorem cpenWrite_all {s : State} {r : Nat} {v : Nat} (h : bit v 63 = true) : cpenWrite s r v =
    (List.range 16).foldl (cpenStep (ropeCluster r) (ropeCore r) v) (cpenKeep s (ropeCore r) r (nextPc (rope s r)).pc) := by
  simp only [cpenWrite, h, if_true]
  rfl

theorem ropeCore_div (r : Nat) : ropeCore r / 16 = ropeCluster r := by
  rw [ropeCore, ropeCluster, Nat.div_div_eq_div_mul]

/-- Settles O19: MFS by the register's value, MTS by its number, the write for all cores by their turns. -/
theorem systemRegistersReadAndWrite : Obligations.SystemRegistersReadAndWrite := by
  unfold Obligations.SystemRegistersReadAndWrite
  intro s r d a h n x v c cpen kept past
  have hkept : ∀ q pc, kept (ropeCore n) q pc = keptCore s (ropeCore n) q pc := fun q pc => by
    simp only [kept, keptCore, obj, ropeCore_div]
    rfl
  have hmfs : ∀ (k : BitVec 12) (w : Nat), sysRead s n k.toNat = w →
      exec (.mfs r d k) s = .next (after s r (setW x d (BitVec.ofNat 64 w))) := fun k w hw => by
    rw [exec_mfs_ok h, show sysRead s r.toNat k.toNat = w from hw]
  have hmts : ∀ (k : BitVec 12) (e : Eff), mtsEff s n v.toNat k.toNat = e → exec (.mts r a k) s = settleEff s n e :=
    fun k e he => by rw [exec_mts_ok h, show mtsEff s r.toNat (getW (rope s r.toNat) a).toNat k.toNat = e from he]
  have hdone : ∀ f, settleEff s n (.done (modRope s n f)) = .next (after s r (f x)) := fun f => by
    rw [settleEff, modRope_modRope]
    rfl
  refine ⟨fun e he => ?_, fun k hk => ?_, fun k hk => ?_, ?_, ?_, ?_, fun hpl => ?_, fun hpl hall => ?_,
    fun hpl hall => ?_, ?_⟩
  · simp only [List.mem_cons, List.not_mem_nil, or_false] at he
    obtain rfl | rfl | rfl | rfl | rfl | rfl | rfl | rfl | rfl | rfl := he
    case inr.inr.inl => exact hmfs 2 _ (by change flagsWord x.flags = _; rw [flagsWord]; ring)
    all_goals exact hmfs _ _ rfl
  · obtain ⟨m, hm⟩ := Nat.exists_eq_add_of_le' hk
    refine ⟨hmfs k 0 ?_, (hmts k (.done s) ?_).trans rfl⟩
    · rw [hm]; rfl
    · rw [hm]; rfl
  · simp only [List.mem_cons, List.not_mem_nil, or_false] at hk
    obtain rfl | rfl | rfl | rfl | rfl := hk
    all_goals exact (hmts _ (.done s) rfl).trans rfl
  · refine (hmts 1 _ rfl).trans ((hdone _).trans ?_)
    rw [lowered_pl]
  · refine (hmts 2 _ rfl).trans ((hdone _).trans ?_)
    rw [flagsFrom_toNat]
  · by_cases hpl : x.pl = 0
    · have hlt : (rope s n).pl.toNat < 1 := by rw [show (rope s n).pl = 0 from hpl]; decide
      rw [if_pos hpl]
      exact hmts 3 (.trap 2 0) (if_pos hlt)
    · have hge : ¬(rope s n).pl.toNat < 1 := fun hlt =>
        hpl (BitVec.eq_of_toNat_eq (Nat.lt_one_iff.mp hlt))
      rw [if_neg hpl]
      refine (hmts 3 _ (if_neg hge)).trans ((hdone _).trans ?_)
      rw [bit_toNat]
  · exact hmts 4 (.trap 2 0) (if_pos hpl)
  · have hall' : bit v.toNat 63 = false := (bit_toNat v 63).trans hall
    refine (hmts 4 _ (if_neg (Nat.not_lt.mpr hpl))).trans ?_
    rw [cpenWrite_one hall', settleEff, cpenKeep_eq, ← hkept]
    rfl
  · have hall' : bit v.toNat 63 = true := (bit_toNat v 63).trans hall
    obtain ⟨⟨o, y, hframe⟩, hcore, hgetO⟩ := cpenTurns_range c (ropeCore n) v.toNat
      (cpenKeep s (ropeCore n) n (nextPc x).pc) 16 (Nat.le_refl _)
    have hexec := (hmts 4 _ (if_neg (Nat.not_lt.mpr hpl))).trans (by rw [cpenWrite_all hall', settleEff])
    generalize ht : (List.range 16).foldl (cpenStep c (ropeCore n) v.toNat) (cpenKeep s (ropeCore n) n (nextPc x).pc) = t at *
    have hrope : ∀ q, rope t q = rope s q := fun q => by rw [hframe]; rfl
    refine ⟨modRope t n nextPc, hexec.trans (by rw [← ht]), ?_, ?_, fun k hk hne => ?_, fun k hk => ?_, ?_, ?_, ?_, fun k => ?_⟩
    · rw [rope_modRope_same, hrope]
    · change Machine.core t _ = _
      rw [hcore, if_pos ⟨ropeCore_div n, Nat.mod_lt _ (by decide)⟩, cpenAfter, if_pos rfl, cpenKeep_eq, core_setCore_same, hkept]
    · change Machine.core t _ = _
      have hcs : Machine.core (cpenKeep s (ropeCore n) n (nextPc x).pc) k = Machine.core s k := by
        rw [cpenKeep_eq, core_setCore_ne _ _ hne.symm]
      rw [hcore, if_pos ⟨hk, Nat.mod_lt _ (by decide)⟩, cpenAfter, if_neg hne, hcs]
      unfold keptCore
      rw [hcs, hk]
      rfl
    · change Machine.core t _ = _
      rw [hcore, if_neg (fun hand => hk hand.1), cpenKeep_eq, core_setCore_ne]
      rintro rfl
      exact hk (ropeCore_div n)
    · exact otherRopesKept_modRope (fun q _ => hrope q) _
    · rw [hframe]; exact restKept_refl _
    · rw [hframe]; rfl
    · change getO t k = _
      rw [hgetO]
      exact if_congr (by omega) rfl rfl
  · refine (hmts 6 _ rfl).trans ((hdone _).trans ?_)
    rw [BitVec.ofNat_toNat, BitVec.setWidth_eq]

end Sys2Proof.Proofs

/-! Events and time waits (R167 to R169). -/

namespace Sys2Proof.Proofs

open Sys2Proof.Machine Sys2Proof.Claim

/-! ### EVW and EVS -/

/-- A flight reaches rope `r` by now or in this dp-cycle. -/
def landsAt (s : State) (r : Nat) (f : Flight) : Bool :=
  f.rope == r && (decide (f.due ≤ s.time.now) || sameCycle s f.due)

theorem rope_landDue (s : State) (r : Nat) : rope (landDue s r) r = { rope s r with
    pending := (rope s r).pending ||| (s.flights.filter (landsAt s r)).foldl (fun b f => b ||| f.bits) 0 } := by
  rw [landDue, rope_modRope_same]
  rfl

theorem getLsbD_foldl_or (l : List Flight) (b : BitVec 64) (i : Nat) :
    (l.foldl (fun b f => b ||| f.bits) b).getLsbD i = (b.getLsbD i || l.any (fun f => f.bits.getLsbD i)) := by
  induction l generalizing b with
  | nil => simp
  | cons f l ih => rw [List.foldl_cons, ih, BitVec.getLsbD_or, List.any_cons, Bool.or_assoc]

theorem getLsbD_pending_landDue (s : State) (r i : Nat) : (rope (landDue s r) r).pending.getLsbD i =
    ((rope s r).pending.getLsbD i || s.flights.any (fun f => landsAt s r f && f.bits.getLsbD i)) := by
  rw [rope_landDue]
  dsimp only
  rw [BitVec.getLsbD_or, getLsbD_foldl_or, show (0 : BitVec 64).getLsbD i = false from BitVec.getLsbD_zero, Bool.false_or, List.any_filter]

theorem exec_evw_ok {s : State} {r : Issuer} (h : Issues s r) (d a b : BitVec 5) :
    let e := landDue s r.toNat
    let x := rope e r.toNat
    let m := getW x a
    exec (.evw r d a b) s = settleEff s r.toNat (if x.pending &&& m != 0 then .done (modRope e r.toNat (fun x => evwTake x d m false))
      else .held (stall e r.toNat (.event d m (if (getW x b).toNat = 0 then none else some (e.time.now + nsU (getW x b).toNat))))) := by
  change execEvw r d a b s = _
  rw [execEvw, issue_ok h]

theorem exec_evs_ok {s : State} {r : Issuer} (h : Issues s r) (a b : BitVec 5) :
    let x := rope s r.toNat
    let q := (getW x a).toNat % 2048
    exec (.evs r a b) s = settleEff s r.toNat (if clusters s ≤ ropeCluster q then .trap 3 0
      else if ropeCluster q != ropeCluster r.toNat && x.pl = 0 then .trap 2 0
      else .done (sendEvent s q (getW x b &&& 0xFFFFFFFF#64) (if ropeCluster q = ropeCluster r.toNat then 4 else 24))) := by
  change execEvs r a b s = _
  rw [execEvs, issue_ok h]

/-! ### Delivery and timeouts -/

theorem rope_rouse (s : State) (k r : Nat) : rope (rouse s k) r = rope s r := by
  rw [rouse, modCore, rope_setCore]

/-- Events that join the pending word of a rope that does not wait for them. -/
theorem setEvent_joins {s : State} {r : Nat} {b : BitVec 64}
    (h : ∀ d m u, (rope s r).st = .waiting (.event d m u) → ((rope s r).pending ||| b) &&& m = 0) :
    setEvent s r b = rouse (modRope s r (fun x => { x with pending := x.pending ||| b })) (ropeCore r) := by
  unfold setEvent
  dsimp only
  have hrope : rope (rouse (modRope s r (fun x => { x with pending := x.pending ||| b })) (ropeCore r)) r =
      { rope s r with pending := (rope s r).pending ||| b } := by
    rw [rope_rouse, rope_modRope_same]
  rw [hrope]
  split
  · next d m u hst =>
    have hzero : ((rope s r).pending ||| b) &&& m = 0 := h d m u hst
    exact if_neg (fun hne => bne_iff_ne.mp hne hzero)
  · rfl

/-- An EVW that waits for one of the events ends. -/
theorem setEvent_ends {s : State} {r : Nat} {b : BitVec 64} {d : BitVec 5} {m : BitVec 64} {u : Option Nat}
    (hst : (rope s r).st = .waiting (.event d m u)) (h : ((rope s r).pending ||| b) &&& m ≠ 0) :
    setEvent s r b = wakeDone (rouse (modRope s r (fun x => { x with pending := x.pending ||| b })) (ropeCore r)) r
      (fun x => evwTake x d m false) := by
  unfold setEvent
  dsimp only
  have hrope : rope (rouse (modRope s r (fun x => { x with pending := x.pending ||| b })) (ropeCore r)) r =
      { rope s r with pending := (rope s r).pending ||| b } := by
    rw [rope_rouse, rope_modRope_same]
  rw [hrope]
  simp only [hst]
  exact if_pos (bne_iff_ne.mpr h)

theorem setW_with_pending (x : Rope) (p : BitVec 64) (d : BitVec 5) (v : Word) :
    setW { x with pending := p } d v = { setW x d v with pending := p } := by
  unfold setW; split <;> rfl

theorem rope_setEvent_joins {s : State} {r : Nat} {b : BitVec 64}
    (h : ∀ d m u, (rope s r).st = .waiting (.event d m u) → ((rope s r).pending ||| b) &&& m = 0) :
    rope (setEvent s r b) r = { rope s r with pending := (rope s r).pending ||| b } := by
  rw [setEvent_joins h, rope_rouse, rope_modRope_same]

theorem rope_setEvent_ends {s : State} {r : Nat} {b : BitVec 64} {d : BitVec 5} {m : BitVec 64} {u : Option Nat}
    (hst : (rope s r).st = .waiting (.event d m u)) (h : ((rope s r).pending ||| b) &&& m ≠ 0) :
    rope (setEvent s r b) r =
      { nextPc (evwTake { rope s r with pending := (rope s r).pending ||| b } d m false) with st := .ready } := by
  have hrope : rope (rouse (modRope s r (fun x => { x with pending := x.pending ||| b })) (ropeCore r)) r =
      { rope s r with pending := (rope s r).pending ||| b } := by
    rw [rope_rouse, rope_modRope_same]
  rw [setEvent_ends hst h, rope_wakeDone_same, hrope]

theorem setEvent_otherRopes (s : State) (r : Nat) (b : BitVec 64) : OtherRopesKept s (setEvent s r b) r := by
  have hjoin : OtherRopesKept s (rouse (modRope s r (fun x => { x with pending := x.pending ||| b })) (ropeCore r)) r :=
    fun q hq => (rope_rouse _ _ q).trans (otherRopesKept_modRope (otherRopesKept_refl s r) _ q hq)
  unfold setEvent
  dsimp only
  split
  · split
    · exact fun q hq => (wakeDone_otherRopes _ _ _ q hq).trans (hjoin q hq)
    · exact hjoin
  · exact hjoin

/-- The state in which a flight reaches its rope. -/
def landed (s : State) (f : Flight) : State := { advanceTo s f.due with flights := s.flights.erase f }

theorem slewFor_now (s : State) : slewFor s 0 = 0 := by
  unfold slewFor
  dsimp only
  rw [Nat.add_zero, Int.sub_self, Int.neg_zero]
  split
  · rfl
  · split <;> omega

theorem advance_zero (s : State) : advance s 0 = s := by
  have hdrift : driftFor s 0 = 0 := by
    unfold driftFor
    dsimp only
    rw [Nat.add_zero, Int.sub_self]
  rw [advance, slewFor_now, hdrift, Nat.add_zero, Int.add_zero, Int.add_zero, Int.sub_zero]

/-- An instant that has come moves no time. -/
theorem advanceTo_past {s : State} {t : Nat} (h : t ≤ s.time.now) : advanceTo s t = s := by
  rw [advanceTo, Nat.sub_eq_zero_of_le h, advance_zero]

theorem advanceToFt_past {s : State} {t : Nat} (h : t ≤ ft s) : advanceToFt s t = s := if_neg (Nat.not_lt.mpr h)

theorem le_leastFrom (p : Nat → Bool) (b a : Nat) : a ≤ leastFrom p b a := by
  induction b generalizing a with
  | zero => exact Nat.le_refl a
  | succ b ih =>
    rw [leastFrom]
    split
    · exact ih a
    · exact (Nat.le_add_right _ _).trans (ih _)

/-- FT that has still to come takes local time past the tick that runs. -/
theorem now_lt_advanceToFt {s : State} {t : Nat} (h : ft s < t) : s.time.now < (advanceToFt s t).time.now := by
  rw [advanceToFt, if_pos h, advanceTo_now]
  have hle := le_leastFrom (fun n => decide (t ≤ ft (advanceTo s (576 * n)))) 62 (s.time.now / 576 + 1)
  generalize leastFrom _ _ _ = n at hle ⊢
  omega

theorem cdiv_900 (n : Nat) : n ≤ cdiv n 900 * 900 ∧ cdiv n 900 * 900 < n + 900 := by
  unfold cdiv
  omega

theorem exec_twait_ok {s : State} {r : Issuer} (h : Issues s r) (d a b : BitVec 5) :
    let x := rope s r.toNat
    let w := getW x a
    let t := (getW x b).toNat
    exec (.twait r d a b) s = settleEff s r.toNat (if w.toNat ≤ ft s then .done (modRope s r.toNat (fun x => twaitTake x d (ft s) false))
      else .held (stall s r.toNat (.time d w (if t = 0 then none else some (cdiv (s.time.now + nsU t) 900 * 900))))) := by
  change execTwait r d a b s = _
  rw [execTwait, issue_ok h]

/-- The state at which a TWAIT wakes. -/
def twaitAt (s : State) (w : Nat) : Option Nat → State
  | some t => if t < (advanceToFt s w).time.now then advanceTo s t else advanceToFt s w
  | none => advanceToFt s w

theorem exec_twaitWake_ok {s : State} {r : RopeId} {d : BitVec 5} {w : BitVec 64} {due : Option Nat} (hon : on s = true)
    (hst : (rope s r.toNat).st = .waiting (.time d w due)) :
    exec (.twaitWake r) s = .next (wakeDone (twaitAt s w.toNat due) r.toNat
      (fun x => twaitTake x d (ft (twaitAt s w.toNat due)) (decide (ft (twaitAt s w.toNat due) < w.toNat)))) := by
  change execTwaitWake r s = _
  rw [execTwaitWake, live_on hon]
  simp only [hst]
  rfl

theorem twaitAt_reached {s : State} {w : Nat} (h : w ≤ ft s) (due : Option Nat) : twaitAt s w due = s := by
  cases due with
  | none => exact advanceToFt_past h
  | some t =>
    rw [twaitAt, advanceToFt_past h]
    split
    · next hlt => exact advanceTo_past hlt.le
    · rfl

theorem twaitAt_elapsed {s : State} {w t : Nat} (h : ft s < w) (ht : t ≤ s.time.now) : twaitAt s w (some t) = s := by
  rw [twaitAt, if_pos (ht.trans_lt (now_lt_advanceToFt h)), advanceTo_past ht]

/-- Settles O13: each instruction and each command by its cases. -/
theorem eventsAndTimeEndWaits : Obligations.EventsAndTimeEndWaits := by
  unfold Obligations.EventsAndTimeEndWaits
  refine ⟨fun s r d a b h => ?_, ⟨fun s f hon hf => ?_, fun s r d m u => ?_⟩, fun s r d a b => ?_⟩
  · intro n e x m q
    refine ⟨getLsbD_pending_landDue s n, fun hne => ?_, fun hzero => ?_, fun hq hok => ?_, fun hq => ?_, fun hq hother hpl => ?_⟩
    · rw [exec_evw_ok h, if_pos (bne_iff_ne.mpr hne), settleEff, modRope_modRope]
      rfl
    · have hwait : (if (getW x b).toNat = 0 then none else some (e.time.now + nsU (getW x b).toNat)) =
          if getW x b = 0 then none else some (s.time.now + 90 * (getW x b).toNat) := by
        rw [nsU, Nat.mul_comm]
        exact if_congr ⟨fun hz => BitVec.eq_of_toNat_eq hz, fun hz => by rw [hz]; rfl⟩ rfl rfl
      rw [exec_evw_ok h, if_neg (fun hne => bne_iff_ne.mp hne hzero), hwait]
      rfl
    · rw [exec_evs_ok h]
      have hno : ¬(ropeCluster q != ropeCluster n && decide ((rope s n).pl = 0)) = true := by
        simpa using fun hne => hok.resolve_left hne
      rw [if_neg (Nat.not_le.mpr hq), if_neg hno]
      rfl
    · rw [exec_evs_ok h, if_pos hq]
      rfl
    · rw [exec_evs_ok h]
      have hyes : (ropeCluster q != ropeCluster n && decide ((rope s n).pl = 0)) = true := by
        simp [hother, hpl]
      rw [if_neg (Nat.not_le.mpr hq), if_pos hyes]
      rfl
  · intro x w
    have hexec : exec .eventDelivery s = .next (setEvent (landed s f) f.rope f.bits) := by
      change execEventDelivery s = _
      rw [execEventDelivery, live_on hon]
      simp only [hf]
      rfl
    obtain ⟨ropes', cores', hframe⟩ := setEvent_only (landed s f) f.rope f.bits
    refine ⟨_, hexec, by rw [hframe]; rfl, by rw [hframe]; exact advanceTo_now s f.due, setEvent_otherRopes (landed s f) _ _,
      by rw [hframe]; rfl, by rw [hframe]; rfl, fun hno => ?_, fun d m u hst hzero => ?_, fun d m u hst hne => ?_⟩
    · exact rope_setEvent_joins (s := landed s f) fun d m u hst => absurd hst (hno d m u)
    · refine rope_setEvent_joins (s := landed s f) fun d' m' u' hst' => ?_
      have hsame : RopeSt.waiting (.event d m u) = .waiting (.event d' m' u') := hst.symm.trans hst'
      simp only [RopeSt.waiting.injEq, Wait.event.injEq] at hsame
      rw [← hsame.2.1]
      exact hzero
    · rw [rope_setEvent_ends (s := landed s f) hst hne, evwTake, setW_with_pending]
      rfl
  · intro x hon hst
    have hexec : exec (.evwTimeout r) s = .next (wakeDone (advanceTo s u) r.toNat (fun x => evwTake x d m true)) := by
      change execEvwTimeout r s = _
      rw [execEvwTimeout, live_on hon]
      simp only [show (rope s r.toNat).st = _ from hst]
    obtain ⟨ropes', cores', hframe⟩ := wakeDone_only (advanceTo s u) r.toNat (fun x => evwTake x d m true)
    refine ⟨_, hexec, ?_, wakeDone_otherRopes (advanceTo s u) _ _, by rw [hframe]; rfl, by rw [hframe]; rfl,
      rope_wakeDone_same _ _ _⟩
    rw [hframe]; exact advanceTo_now s u
  · intro x
    refine ⟨fun h hle => ?_, fun h hlt => ?_, fun w due hon hst hle => ?_, fun w u hon hst hlt hu => ?_⟩
    · rw [exec_twait_ok h, if_pos hle, settleEff, modRope_modRope]
      rfl
    · refine ⟨if (getW x b).toNat = 0 then none else some (cdiv (s.time.now + nsU (getW x b).toNat) 900 * 900), ?_, fun h0 => ?_,
        fun h0 => ⟨_, if_neg (fun hz => h0 (BitVec.eq_of_toNat_eq hz)), ?_⟩⟩
      · rw [exec_twait_ok h, if_neg (Nat.not_le.mpr hlt), settleEff]
      · rw [h0]; rfl
      · have hcd := cdiv_900 (s.time.now + nsU (getW x b).toNat)
        rw [show nsU (getW x b).toNat = 90 * (getW x b).toNat from Nat.mul_comm _ _] at hcd ⊢
        exact ⟨hcd.1, hcd.2, Nat.mul_mod_left _ _⟩
    · refine ⟨_, exec_twaitWake_ok hon hst, ?_⟩
      rw [twaitAt_reached hle]
      refine ⟨wakeDone_otherRopes _ _ _, (wakeDone_restKept _ _ _).1, (wakeDone_restKept _ _ _).2, ?_⟩
      rw [decide_eq_false (Nat.not_lt.mpr hle)]
      exact rope_wakeDone_same _ _ _
    · refine ⟨_, exec_twaitWake_ok hon hst, ?_⟩
      rw [twaitAt_elapsed hlt hu, decide_eq_true hlt]
      obtain ⟨ropes', cores', hframe⟩ := wakeDone_only s r.toNat (fun x => twaitTake x d (ft s) true)
      exact ⟨wakeDone_otherRopes _ _ _, by rw [hframe], by rw [hframe], rope_wakeDone_same _ _ _⟩

end Sys2Proof.Proofs

/-! What every step keeps (R75 to R84, R132, R323): the versions stay consistent and the memories canonical. One lemma per
function of the model says that it keeps both, from any state `s₀` on. -/

namespace Sys2Proof.Proofs

open Sys2Proof.Machine Sys2Proof.Claim

/-! ### Keeping the invariants -/

/-- What holds of the versions and the memories of one state holds of those of another. -/
structure Keeps (s₀ s : State) : Prop where
  versions : VersionsOk s₀ → VersionsOk s
  memories : MemoriesOk s₀ → MemoriesOk s

/-- As `Keeps`, of a state that comes with something else. -/
def PairKeeps {α : Type} (s₀ : State) (p : State × α) : Prop := Keeps s₀ p.1

/-- As `Keeps`, of a state that there may be. -/
def OptKeeps (s₀ : State) (o : Option State) : Prop := ∀ s, o = some s → Keeps s₀ s

/-- As `OptKeeps`, of a state that comes with something else. -/
def OptPairKeeps {α : Type} (s₀ : State) (o : Option (State × α)) : Prop := ∀ p, o = some p → Keeps s₀ p.1

/-- An instruction that is not unsupported use has an outcome that keeps the invariants. -/
def EffKeeps (s₀ : State) : Eff → Prop
  | .done s => Keeps s₀ s
  | .jump s _ => Keeps s₀ s
  | .held s => Keeps s₀ s
  | .trap _ _ => True
  | .unsupported _ => False

/-- A command goes on, and keeps the invariants. -/
def ResKeeps (s₀ : State) (r : Res) : Prop := ∃ s, r = .next s ∧ Keeps s₀ s

section

variable {α β : Type} {s₀ s t : State}

theorem Keeps.refl (s : State) : Keeps s s := ⟨id, id⟩

theorem Keeps.trans {r : State} (h : Keeps r s) (h' : Keeps s t) : Keeps r t :=
  ⟨fun ok => h'.versions (h.versions ok), fun ok => h'.memories (h.memories ok)⟩

/-- Versions, HBM, clusters and ropes stay as they are. -/
theorem Keeps.same (h : Keeps s₀ s) (hver : t.col.ver = s.col.ver) (hmem : t.hbm.mem = s.hbm.mem) (hcl : t.clusters = s.clusters)
    (hropes : t.ropes = s.ropes) : Keeps s₀ t := by
  refine ⟨fun ok => ?_, fun ok => ?_⟩
  · have h := h.versions ok
    unfold VersionsOk at h ⊢
    rwa [hver]
  · have h := h.memories ok
    unfold MemoriesOk cluster rope at h ⊢
    rwa [hmem, hcl, hropes]

/-- An update that leaves versions, HBM memory, clusters and ropes as they are. -/
theorem Keeps.update {pending : List Instr} {free : Nat} {out : List Out} {answer : Answer} {sys : SysSt} {time : TimeSt}
    {obj latched stored : Map Nat} {dict : DictSt} {ports : Map Port} {xport : Xport} {frames : Map Frame} {nextFrame nextOut : Nat}
    {col : ColSt} {tbl : TableSt} {pit : PitchSt} {cores : Map Machine.Core} {flights : List Flight} {xlat : XlatSt}
    {scree : ScreeSt} {trav : TravSt} {tm : TmSt} {hbm : HbmSt} {plan : PlanSt} {pwr : PwrSt} {rcv : RecSt} {cairn : CairnSt}
    {dbg : DebugSt} (h : Keeps s₀ s) (hver : col.ver = s.col.ver) (hmem : hbm.mem = s.hbm.mem) :
    Keeps s₀ ⟨pending, free, out, answer, sys, time, obj, latched, stored, dict, ports, xport, frames, nextFrame, nextOut, col, tbl,
      pit, s.ropes, cores, s.clusters, flights, xlat, scree, trav, tm, hbm, plan, pwr, rcv, cairn, dbg⟩ :=
  h.same hver hmem rfl rfl

theorem PairKeeps.mk {x : α} (h : Keeps s₀ s) : PairKeeps s₀ (s, x) := h
theorem PairKeeps.fst {p : State × α} (h : PairKeeps s₀ p) : Keeps s₀ p.1 := h
theorem PairKeeps.of_eq {p : State × α} {x : α} (h : PairKeeps s₀ p) (e : p = (s, x)) : Keeps s₀ s := by
  rw [e] at h; exact h

theorem PairKeeps.ite {c : Prop} [Decidable c] {p q : State × α} (hp : PairKeeps s₀ p) (hq : PairKeeps s₀ q) :
    PairKeeps s₀ (if c then p else q) := by
  split
  · exact hp
  · exact hq

theorem OptKeeps.none : OptKeeps s₀ none := fun _ h => nomatch h
theorem OptKeeps.some (h : Keeps s₀ s) : OptKeeps s₀ (some s) := fun _ e => Option.some.inj e ▸ h
theorem OptKeeps.of_eq {o : Option State} (h : OptKeeps s₀ o) (e : o = Option.some s) : Keeps s₀ s := h s e
theorem OptKeeps.getD {o : Option State} (h : OptKeeps s₀ o) (h' : Keeps s₀ s) : Keeps s₀ (o.getD s) := by
  cases o with
  | none => exact h'
  | some t => exact h t rfl

theorem OptPairKeeps.none : OptPairKeeps s₀ (none : Option (State × α)) := fun _ h => nomatch h
theorem OptPairKeeps.some {p : State × α} (h : PairKeeps s₀ p) : OptPairKeeps s₀ (some p) := fun _ e => Option.some.inj e ▸ h
theorem OptPairKeeps.of_eq {o : Option (State × α)} {x : α} (h : OptPairKeeps s₀ o) (e : o = Option.some (s, x)) : Keeps s₀ s :=
  h (s, x) e

theorem EffKeeps.done (h : Keeps s₀ s) : EffKeeps s₀ (.done s) := h
theorem EffKeeps.jump {pc : BitVec 32} (h : Keeps s₀ s) : EffKeeps s₀ (.jump s pc) := h
theorem EffKeeps.held (h : Keeps s₀ s) : EffKeeps s₀ (.held s) := h
theorem EffKeeps.trap {c : Nat} {x : BitVec 64} : EffKeeps s₀ (.trap c x) := trivial

theorem ResKeeps.next (h : Keeps s₀ s) : ResKeeps s₀ (.next s) := ⟨s, rfl, h⟩

theorem Keeps.foldl {f : State → β → State} {l : List β} (hf : ∀ s x, Keeps s₀ s → Keeps s₀ (f s x)) (h : Keeps s₀ s) :
    Keeps s₀ (l.foldl f s) := by
  induction l generalizing s with
  | nil => exact h
  | cons x l ih => exact ih (hf s x h)

theorem PairKeeps.foldl {f : State × α → β → State × α} {l : List β} {p : State × α}
    (hf : ∀ p x, PairKeeps s₀ p → PairKeeps s₀ (f p x)) (h : PairKeeps s₀ p) : PairKeeps s₀ (l.foldl f p) := by
  induction l generalizing p with
  | nil => exact h
  | cons x l ih => exact ih (hf p x h)

/-! ### Frame windows that stay -/

@[simp] theorem window_setW (x : Rope) (d : BitVec 5) (v : Word) : (setW x d v).window = x.window := by
  unfold setW
  split <;> rfl

@[simp] theorem window_setK (x : Rope) (d : BitVec 4) (v : KWord) : (setK x d v).window = x.window := rfl

@[simp] theorem window_nextPc (x : Rope) : (nextPc x).window = x.window := by
  unfold nextPc
  split
  · dsimp only
    split <;> exact window_setW _ _ _
  · rfl

@[simp] theorem window_evwTake (x : Rope) (d : BitVec 5) (m : BitVec 64) (b : Bool) : (evwTake x d m b).window = x.window :=
  window_setW _ _ _

@[simp] theorem window_twaitTake (x : Rope) (d : BitVec 5) (t : Nat) (b : Bool) : (twaitTake x d t b).window = x.window :=
  window_setW _ _ _

@[simp] theorem window_aluRope (op : AluFn) (kf w32 : Bool) (d : Option (BitVec 5)) (a b : BitVec 5) (x : Rope) :
    (aluRope op kf w32 d a b x).window = x.window := by
  cases d with
  | none => rfl
  | some d => exact window_setW _ _ _

@[simp] theorem window_immRope (op : AluFn) (d : Option (BitVec 5)) (a : BitVec 5) (imm : Word) (x : Rope) :
    (immRope op d a imm x).window = x.window := by
  cases d with
  | none => rfl
  | some d => exact window_setW _ _ _

/-! ### Ropes, clusters and versions -/

/-- A rope whose new window is in canonical form. -/
theorem setRope_keepsWf {r : Nat} {x : Rope} (h : Keeps s₀ s) (hx : MemoriesOk s → cellsWf x.window = true) :
    Keeps s₀ (setRope s r x) := by
  refine ⟨h.versions, fun ok => ?_⟩
  have ok := h.memories ok
  obtain ⟨hm, hc, hw⟩ := id ok
  refine ⟨hm, hc, fun q => ?_⟩
  by_cases e : r = q
  · rw [← e, rope_setRope_same]; exact hx ok
  · rw [rope_setRope_ne s x e]; exact hw q

theorem setRope_keeps {r : Nat} {x : Rope} (h : Keeps s₀ s) (hx : x.window = (rope s r).window) : Keeps s₀ (setRope s r x) :=
  setRope_keepsWf h fun ok => by rw [hx]; exact ok.2.2 r

theorem modRope_keepsWf {r : Nat} {f : Rope → Rope} (h : Keeps s₀ s)
    (hf : MemoriesOk s → cellsWf (f (rope s r)).window = true) : Keeps s₀ (modRope s r f) := setRope_keepsWf h hf

theorem modRope_keeps {r : Nat} {f : Rope → Rope} (h : Keeps s₀ s) (hf : ∀ x, (f x).window = x.window) :
    Keeps s₀ (modRope s r f) := setRope_keeps h (hf _)

theorem setCluster_keepsWf {c : Nat} {x : Cluster} (h : Keeps s₀ s)
    (hx : MemoriesOk s → cellsWf x.scratch = true ∧ cellsWf x.imem = true) : Keeps s₀ (setCluster s c x) := by
  refine ⟨h.versions, fun ok => ?_⟩
  have ok := h.memories ok
  obtain ⟨hm, hc, hw⟩ := id ok
  refine ⟨hm, fun d => ?_, hw⟩
  by_cases e : c = d
  · rw [← e, cluster_setCluster_same]; exact hx ok
  · rw [cluster_setCluster_ne s x e]; exact hc d

theorem setCluster_keeps {c : Nat} {x : Cluster} (h : Keeps s₀ s) (hs : x.scratch = (cluster s c).scratch)
    (hi : x.imem = (cluster s c).imem) : Keeps s₀ (setCluster s c x) :=
  setCluster_keepsWf h fun ok => by rw [hs, hi]; exact ok.2.1 c

theorem modCluster_keeps {c : Nat} {f : Cluster → Cluster} (h : Keeps s₀ s) (hs : ∀ x, (f x).scratch = x.scratch)
    (hi : ∀ x, (f x).imem = x.imem) : Keeps s₀ (modCluster s c f) := setCluster_keeps h (hs _) (hi _)

theorem modCluster_keepsWf {c : Nat} {f : Cluster → Cluster} (h : Keeps s₀ s)
    (hf : MemoriesOk s → cellsWf (f (cluster s c)).scratch = true ∧ cellsWf (f (cluster s c)).imem = true) :
    Keeps s₀ (modCluster s c f) := setCluster_keepsWf h hf

/-- A new HBM memory in canonical form. -/
theorem Keeps.ofHbm {hbm : HbmSt} (h : Keeps s₀ s) (hm : MemoriesOk s → cellsWf hbm.mem = true) : Keeps s₀ { s with hbm := hbm } :=
  ⟨h.versions, fun ok =>
    have ok := h.memories ok
    ⟨hm ok, ok.2⟩⟩

/-- New versions that are consistent. -/
theorem setVer_keepsOk {f : VerSt → VerSt} (h : Keeps s₀ s) (hf : VersionsOk s → VersionsOk (setVer s f)) : Keeps s₀ (setVer s f) :=
  ⟨fun ok => hf (h.versions ok), h.memories⟩

end

/-! ### Machine.Ops -/

theorem setO_keeps {s₀ s : State} {k v : Nat} (h : Keeps s₀ s) : Keeps s₀ (setO s k v) := by
  unfold setO
  exact Keeps.update h rfl rfl

theorem putObj_keeps {s₀ s : State} {idx sub v : Nat} (h : Keeps s₀ s) : Keeps s₀ (putObj s idx sub v) := by
  unfold putObj
  exact setO_keeps h

theorem bumpBy_keeps {s₀ s : State} {idx sub n : Nat} (h : Keeps s₀ s) : Keeps s₀ (bumpBy s idx sub n) := by
  unfold bumpBy
  exact putObj_keeps h

theorem bump_keeps {s₀ s : State} {idx sub : Nat} (h : Keeps s₀ s) : Keeps s₀ (bump s idx sub) := by
  unfold bump
  exact bumpBy_keeps h

theorem bump32_keeps {s₀ s : State} {idx sub : Nat} (h : Keeps s₀ s) : Keeps s₀ (bump32 s idx sub) := by
  unfold bump32
  exact putObj_keeps h

theorem storeLater_keeps {s₀ s : State} {idx sub v : Nat} (h : Keeps s₀ s) : Keeps s₀ (storeLater s idx sub v) := by
  unfold storeLater
  extract_lets k1 src1
  exact Keeps.update h rfl rfl

theorem bumpLp_keeps {s₀ s : State} {lp sub : Nat} (h : Keeps s₀ s) : Keeps s₀ (bumpLp s lp sub) := by
  unfold bumpLp
  exact bump_keeps h

theorem bumpTen_keeps {s₀ s : State} {tid sub : Nat} (h : Keeps s₀ s) : Keeps s₀ (bumpTen s tid sub) := by
  unfold bumpTen
  exact bump_keeps h

theorem draw_keeps {s₀ s : State} (h : Keeps s₀ s) : Keeps s₀ (draw s) := by
  unfold draw
  exact Keeps.update h rfl rfl

theorem emit_keeps {s₀ s : State} {o : Out} (h : Keeps s₀ s) : Keeps s₀ (emit s o) := by
  unfold emit
  exact Keeps.update h rfl rfl

theorem advance_keeps {s₀ s : State} {dt : Nat} (h : Keeps s₀ s) : Keeps s₀ (advance s dt) := by
  unfold advance
  exact Keeps.update h rfl rfl

theorem advanceTo_keeps {s₀ s : State} {t : Nat} (h : Keeps s₀ s) : Keeps s₀ (advanceTo s t) := by
  unfold advanceTo
  exact advance_keeps h

theorem advanceToFt_keeps {s₀ s : State} {t : Nat} (h : Keeps s₀ s) : Keeps s₀ (advanceToFt s t) := by
  unfold advanceToFt
  split
  · exact advanceTo_keeps h
  · exact h

theorem setPort_keeps {s₀ s : State} {lp : Nat} {p : Port} (h : Keeps s₀ s) : Keeps s₀ (setPort s lp p) := by
  unfold setPort
  exact Keeps.update h rfl rfl

theorem setCore_keeps {s₀ s : State} {k : Nat} {x : Core} (h : Keeps s₀ s) : Keeps s₀ (setCore s k x) := by
  unfold setCore
  exact Keeps.update h rfl rfl

theorem setShed_keeps {s₀ s : State} {c : Nat} {x : Shed} (h : Keeps s₀ s) : Keeps s₀ (setShed s c x) := by
  unfold setShed
  exact Keeps.update h rfl rfl

theorem setPitch_keeps {s₀ s : State} {p : Nat} {x : Pitch} (h : Keeps s₀ s) : Keeps s₀ (setPitch s p x) := by
  unfold setPitch
  exact Keeps.update h rfl rfl

theorem dropPitch_keeps {s₀ s : State} {p : Nat} (h : Keeps s₀ s) : Keeps s₀ (dropPitch s p) := by
  unfold dropPitch
  exact Keeps.update h rfl rfl

theorem setFrame_keeps {s₀ s : State} {f : Nat} {x : Frame} (h : Keeps s₀ s) : Keeps s₀ (setFrame s f x) := by
  unfold setFrame
  exact Keeps.update h rfl rfl

theorem setStack_keeps {s₀ s : State} {k : Nat} {x : Stack} (h : Keeps s₀ s) : Keeps s₀ (setStack s k x) := by
  unfold setStack
  exact Keeps.update h rfl rfl

theorem setPch_keeps {s₀ s : State} {k : Nat} {x : PChan} (h : Keeps s₀ s) : Keeps s₀ (setPch s k x) := by
  unfold setPch
  exact Keeps.update h rfl rfl

theorem openRowOf_keeps {s₀ s : State} {pc bank row : Nat} (h : Keeps s₀ s) : Keeps s₀ (openRowOf s pc bank row) := by
  unfold openRowOf
  extract_lets p1
  exact setPch_keeps h

theorem countChannel_keeps {s₀ s : State} {pc k row : Nat} (h : Keeps s₀ s) : Keeps s₀ (countChannel s pc k row) := by
  unfold countChannel
  extract_lets ch1 k1 l1 above1 l2 src1 s1
  have h1 : Keeps s₀ s1 := Keeps.update h rfl rfl
  split
  · exact bumpBy_keeps h1
  · exact h1

theorem activate_keeps {s₀ s : State} {pc bank row : Nat} {cls : ReqClass} {addr : Nat} {read : Option HbmOutcome}
    (h : Keeps s₀ s) :
    PairKeeps s₀ (activate s pc bank row cls addr read) := by
  unfold activate
  extract_lets p1 k1
  split
  · exact PairKeeps.mk h
  · split
    · exact PairKeeps.mk (openRowOf_keeps (countChannel_keeps h))
    · split
      · exact PairKeeps.mk (setPch_keeps (bump_keeps h))
      · exact PairKeeps.mk (openRowOf_keeps (setPch_keeps h))

theorem countWrite_keeps {s₀ s : State} {cls : ReqClass} {a n : Nat} (h : Keeps s₀ s) : Keeps s₀ (countWrite s cls a n) := by
  unfold countWrite
  refine Keeps.foldl ?_ h
  intro s1 x1 h1
  extract_lets l1 lo1 hi1
  split
  · split
    · exact PairKeeps.fst (activate_keeps (bumpBy_keeps h1))
  · exact h1

theorem clearMedia_keeps {s₀ s : State} {a n : Nat} (h : Keeps s₀ s) : Keeps s₀ (clearMedia s a n) := by
  unfold clearMedia
  extract_lets full1 cov1 src1
  exact Keeps.update h rfl rfl

theorem hbmWrite_keeps {s₀ s : State} {cls : ReqClass} {a : Nat} {bs : List Byte} (h : Keeps s₀ s) :
    Keeps s₀ (hbmWrite s cls a bs) := by
  have hcount : Keeps s₀ (clearMedia (countWrite s cls a bs.length) a bs.length) := clearMedia_keeps (countWrite_keeps h)
  exact ⟨hcount.versions, fun ok =>
    have ⟨_, hcl, hwin⟩ := hcount.memories ok
    ⟨hbmWrite_wf cls a bs (h.memories ok).1, hcl, hwin⟩⟩

theorem writeCopies_keeps {s₀ s : State} {baseA baseB off : Nat} {bs : List Byte} (h : Keeps s₀ s) :
    Keeps s₀ (writeCopies s baseA baseB off bs) := by
  unfold writeCopies
  extract_lets s1
  have h1 : Keeps s₀ s1 := by
    unfold s1
    split
    · exact h
    · exact hbmWrite_keeps h
  split
  · exact h1
  · exact hbmWrite_keeps h1

theorem cairnDrop_keeps {s₀ s : State} {level : Nat} (h : Keeps s₀ s) : Keeps s₀ (cairnDrop s level) := by
  unfold cairnDrop
  exact bump_keeps (Keeps.update h rfl rfl)

theorem cairn_keeps {s₀ s : State} {src code sev : Nat} {data : List Byte} (h : Keeps s₀ s) :
    Keeps s₀ (cairn s src code sev data) := by
  unfold cairn
  split
  · exact h
  · split
    · exact cairnDrop_keeps h
    · split
      · exact Keeps.update h rfl rfl
      · exact cairnDrop_keeps h

theorem paramAppend_keeps {s₀ s : State} {k : Nat} (h : Keeps s₀ s) : Keeps s₀ (paramAppend s k) := by
  unfold paramAppend
  exact Keeps.update h rfl rfl

theorem live_keeps {s₀ s : State} {r : Res} (h : Keeps s₀ s) (hr : ResKeeps s₀ r) : ResKeeps s₀ (live s r) := by
  unfold live
  split
  · exact hr
  · exact ResKeeps.next h

theorem running_keeps {s₀ s : State} {r : Res} (h : Keeps s₀ s) (hr : ResKeeps s₀ r) : ResKeeps s₀ (running s r) := by
  unfold running
  split
  · exact hr
  · exact ResKeeps.next h

theorem stir_keeps {s₀ s : State} (h : Keeps s₀ s) : Keeps s₀ (stir s) := by
  unfold stir
  exact Keeps.update h rfl rfl

theorem latchFenced_keeps {s₀ s : State} (h : Keeps s₀ s) : Keeps s₀ (latchFenced s) := by
  unfold latchFenced
  split
  · exact Keeps.update h rfl rfl
  · exact h

theorem setFaultN_keeps {s₀ s : State} (h : Keeps s₀ s) : Keeps s₀ (setFaultN s) := by
  unfold setFaultN
  extract_lets s1 src1 src2
  have h1 : Keeps s₀ s1 := latchFenced_keeps h
  split
  · exact Keeps.update h1 rfl rfl
  · exact Keeps.update h1 rfl rfl

theorem modPort_keeps {s₀ s : State} {lp : Nat} {f : Port → Port} (h : Keeps s₀ s) : Keeps s₀ (modPort s lp f) := by
  unfold modPort
  exact setPort_keeps h

theorem modCore_keeps {s₀ s : State} {k : Nat} {f : Core → Core} (h : Keeps s₀ s) : Keeps s₀ (modCore s k f) := by
  unfold modCore
  exact setCore_keeps h

/-! ### Machine.Wire -/

theorem sendRaw_keeps {s₀ s : State} {lp : Nat} {bs : List Byte} (h : Keeps s₀ s) : Keeps s₀ (sendRaw s lp bs) := by
  unfold sendRaw
  exact emit_keeps (bumpBy_keeps (bumpLp_keeps h))

theorem putOnWire_keeps {s₀ s : State} {o : Output} {h : Sxt} (hs : Keeps s₀ s) : Keeps s₀ (putOnWire s o h) := by
  unfold putOnWire
  extract_lets bs1 s1 k1 src1 s2
  have h1 : Keeps s₀ s1 := bumpBy_keeps (bumpLp_keeps hs)
  have h2 : Keeps s₀ s2 := by
    unfold s2
    split
    · exact h1
    · exact Keeps.update h1 rfl rfl
  exact emit_keeps h2

/-! ### Machine.Traverse -/

theorem useHead_keeps {s₀ s : State} {h : Nat} (hs : Keeps s₀ s) : Keeps s₀ (useHead s h) := by
  unfold useHead
  exact Keeps.update hs rfl rfl

theorem freeHead_keeps {s₀ s : State} {h : Nat} (hs : Keeps s₀ s) : Keeps s₀ (freeHead s h) := by
  unfold freeHead
  extract_lets c1 src1
  split
  · exact Keeps.update hs rfl rfl
  · exact hs

theorem useCell_keeps {s₀ s : State} {c : Nat} (h : Keeps s₀ s) : Keeps s₀ (useCell s c) := by
  unfold useCell
  exact Keeps.update h rfl rfl

theorem freeCellList_keeps {s₀ s : State} {cs : List Nat} (h : Keeps s₀ s) : Keeps s₀ (freeCellList s cs) := by
  unfold freeCellList
  split
  · exact h
  · extract_lets c1 src1
    exact stir_keeps (Keeps.update h rfl rfl)

theorem takeCells_keeps {s₀ s : State} {n : Nat} (h : Keeps s₀ s) : OptPairKeeps s₀ (takeCells s n) := by
  induction n generalizing s with
  | zero => exact OptPairKeeps.some (PairKeeps.mk h)
  | succ n ih =>
    unfold takeCells
    split
    · exact OptPairKeeps.none
    · next c _ =>
      have hrest : OptPairKeeps s₀ (takeCells (useCell s c) n) := ih (useCell_keeps h)
      split
      · exact OptPairKeeps.none
      · next s' cs e => exact OptPairKeeps.some (PairKeeps.mk (hrest.of_eq e))

theorem setInFlight_keeps {s₀ s : State} {v : BitVec 16} {n : Nat} (h : Keeps s₀ s) : Keeps s₀ (setInFlight s v n) :=
  ⟨fun ok => h.versions ok, fun ok => h.memories ok⟩

theorem versionUp_keeps {s₀ s : State} {v : BitVec 16} (h : Keeps s₀ s) : Keeps s₀ (versionUp s v) := by
  unfold versionUp
  exact setInFlight_keeps h

theorem retire_keeps {s₀ s : State} {v : BitVec 16} (h : Keeps s₀ s) : Keeps s₀ (retire s v) := by
  unfold retire
  exact setInFlight_keeps h

theorem sendPfc_keeps {s₀ s : State} {lp cls time : Nat} (h : Keeps s₀ s) : Keeps s₀ (sendPfc s lp cls time) := by
  unfold sendPfc
  exact sendRaw_keeps (bumpLp_keeps h)

theorem ingressDown_keeps {s₀ s : State} {lp cls n : Nat} (h : Keeps s₀ s) : Keeps s₀ (ingressDown s lp cls n) := by
  unfold ingressDown
  extract_lets s1 p1 s2
  have h1 : Keeps s₀ s1 := modPort_keeps h
  have h2 : Keeps s₀ s2 := setPort_keeps h1
  split
  · split
    · exact sendPfc_keeps h2
    · exact h2
  · exact h1

theorem dropStage_keeps {s₀ s : State} {f : Nat} (h : Keeps s₀ s) : Keeps s₀ (dropStage s f) := by
  unfold dropStage
  exact Keeps.update h rfl rfl

theorem freeFrame_keeps {s₀ s : State} {f : Nat} (h : Keeps s₀ s) : Keeps s₀ (freeFrame s f) := by
  unfold freeFrame
  extract_lets x1 s1
  have h1 : Keeps s₀ s1 := dropStage_keeps (freeCellList_keeps (freeHead_keeps h))
  exact Keeps.update h1 rfl rfl

theorem stopScan_keeps {s₀ s : State} {k code detail : Nat} (h : Keeps s₀ s) : Keeps s₀ (stopScan s k code detail) := by
  unfold stopScan
  split
  · exact h
  · extract_lets c1 src1
    exact Keeps.update h rfl rfl

theorem scanRdBack_keeps {s₀ s : State} {k bytes : Nat} (h : Keeps s₀ s) : Keeps s₀ (scanRdBack s k bytes) := by
  unfold scanRdBack
  split
  · exact h
  · extract_lets t1 src1
    exact Keeps.update h rfl rfl

theorem scanLost_keeps {s₀ s : State} {p : Pair} {addr : BitVec 64} {len : Nat} (h : Keeps s₀ s) :
    Keeps s₀ (scanLost s p addr len) := by
  unfold scanLost
  split
  · exact h
  · extract_lets s1
    have h1 : Keeps s₀ s1 := stopScan_keeps h
    split
    · exact scanRdBack_keeps h1
    · exact h1

theorem retireFrame_keeps {s₀ s : State} {f : Nat} (h : Keeps s₀ s) : Keeps s₀ (retireFrame s f) := by
  unfold retireFrame
  extract_lets x1 x2 s1
  have h1 : Keeps s₀ s1 := by
    unfold s1
    split
    · exact scanLost_keeps h
    · exact h
  exact freeFrame_keeps (retire_keeps h1)

theorem copiesSettle_keeps {s₀ s : State} {f : Nat} (h : Keeps s₀ s) : Keeps s₀ (copiesSettle s f) := by
  unfold copiesSettle
  extract_lets c1 s1 src1
  have h1 : Keeps s₀ s1 := dropStage_keeps (freeCellList_keeps (freeHead_keeps h))
  split
  · exact Keeps.update h1 rfl rfl
  · exact h

theorem freeStores_keeps {s₀ s : State} {o : Output} (h : Keeps s₀ s) : Keeps s₀ (freeStores s o) := by
  unfold freeStores
  split
  · exact freeCellList_keeps (freeHead_keeps h)
  · extract_lets c1 s1 src1
    have h1 : Keeps s₀ s1 := by
      unfold s1
      split
      · exact h
      · exact freeHead_keeps h
    split
    · exact copiesSettle_keeps (Keeps.update h1 rfl rfl)
    · exact copiesSettle_keeps (Keeps.update h1 rfl rfl)

theorem fillBuffer_keeps {s₀ s : State} {b : Nat × Nat} {n : Nat} (h : Keeps s₀ s) : Keeps s₀ (fillBuffer s b n) := by
  unfold fillBuffer
  extract_lets a1
  exact clearMedia_keeps (countWrite_keeps h)

theorem pitonAlloc_keeps {s₀ s : State} {n : Nat} (h : Keeps s₀ s) : PairKeeps s₀ (pitonAlloc s n) := by
  unfold pitonAlloc
  extract_lets fits1
  split
  · exact PairKeeps.mk (bump_keeps h)
  · extract_lets s1 src1
    have h1 : Keeps s₀ s1 := by
      unfold s1
      split
      · exact h
      · exact bump_keeps h
    exact PairKeeps.mk (Keeps.update h1 rfl rfl)

theorem pitonRelease_keeps {s₀ s : State} {owner : Bool} {pool idx : Nat} (h : Keeps s₀ s) :
    Keeps s₀ (pitonRelease s owner pool idx) := by
  unfold pitonRelease
  split
  · extract_lets c1 src1
    exact Keeps.update h rfl rfl
  · exact bump_keeps h

theorem endOutput_keeps {s₀ s : State} {o : Output} (h : Keeps s₀ s) : Keeps s₀ (endOutput s o) := by
  unfold endOutput
  extract_lets s1
  have h1 : Keeps s₀ s1 := by
    unfold s1
    refine freeStores_keeps ?_
    split
    · exact retire_keeps h
    · exact h
  split
  · exact pitonRelease_keeps h1
  · exact h1

/-! ### Machine.Transport -/

theorem setQueue_keeps {s₀ s : State} {q : Queue} (h : Keeps s₀ s) : Keeps s₀ (setQueue s q) := by
  unfold setQueue
  extract_lets rest1 src1
  exact Keeps.update h rfl rfl

theorem setCredit_keeps {s₀ s : State} {lp tid : Nat} {c : ℤ} (h : Keeps s₀ s) : Keeps s₀ (setCredit s lp tid c) := by
  unfold setCredit
  extract_lets x1 src1
  exact Keeps.update h rfl rfl

theorem shaperStart_keeps {s₀ s : State} {lp tid : Nat} (h : Keeps s₀ s) : Keeps s₀ (shaperStart s lp tid) := by
  unfold shaperStart
  split
  · exact h
  · exact setCredit_keeps h

theorem queueStart_keeps {s₀ s : State} {lp tid qn : Nat} (h : Keeps s₀ s) : Keeps s₀ (queueStart s lp tid qn) := by
  unfold queueStart
  split
  · split
    · extract_lets held1 x5 src1
      exact Keeps.update h rfl rfl
    · exact shaperStart_keeps h
  · exact shaperStart_keeps h

theorem enqueue_keeps {s₀ s : State} {o : Output} (h : Keeps s₀ s) : Keeps s₀ (enqueue s o) := by
  unfold enqueue
  extract_lets tid1 sp1 s1 o1 s2 src1
  have h1 : Keeps s₀ s1 := by
    unfold s1
    split
    · exact h
    · exact queueStart_keeps h
  have h2 : Keeps s₀ s2 := Keeps.update h1 rfl rfl
  split
  · exact Keeps.update h2 rfl rfl
  · exact Keeps.update h2 rfl rfl

theorem countCells_keeps {s₀ s : State} {o : Output} (h : Keeps s₀ s) : Keeps s₀ (countCells s o) := by
  unfold countCells
  extract_lets c1
  split
  · exact h
  · exact modPort_keeps h

theorem yieldTurn_keeps {s₀ s : State} {lp cls : Nat} (h : Keeps s₀ s) : Keeps s₀ (yieldTurn s lp cls) := by
  unfold yieldTurn
  extract_lets x1 x2 x3 src1
  exact Keeps.update h rfl rfl

theorem trySpill_keeps {s₀ s : State} {o : Output} {sp : Nat} (h : Keeps s₀ s) : PairKeeps s₀ (trySpill s o sp) := by
  unfold trySpill
  extract_lets tid1 n1 cls1 qn1
  split
  · exact PairKeeps.mk h
  · have h1 : PairKeeps s₀ (pitonAlloc s n1) := pitonAlloc_keeps h
    split
    · next s1 s2 e2 =>
        have h2 := PairKeeps.of_eq h1 e2
        exact PairKeeps.mk h2
    · next s1 s2 x1 x2 e2 =>
        have h2 := PairKeeps.of_eq h1 e2
        extract_lets s3 q1 s4 o1 e3 src1 s5 src2
        have h3 : Keeps s₀ s3 := fillBuffer_keeps (freeStores_keeps (bump_keeps h2))
        have h4 : Keeps s₀ s4 := by
          unfold s4
          split
          · exact h3
          · exact queueStart_keeps h3
        have h5 : Keeps s₀ s5 := Keeps.update h4 rfl rfl
        exact PairKeeps.mk (setQueue_keeps h5)

theorem joinCtl_keeps {s₀ s : State} {o : Output} (h : Keeps s₀ s) : Keeps s₀ (joinCtl s o) := by
  unfold joinCtl
  split
  · have h1 : PairKeeps s₀ (trySpill s o (spreadFor s o)) := trySpill_keeps h
    split
    · next s1 s2 e2 =>
        have h2 := PairKeeps.of_eq h1 e2
        exact h2
    · next s1 s2 e2 =>
        have h2 := PairKeeps.of_eq h1 e2
        exact endOutput_keeps (bump_keeps h2)
  · exact enqueue_keeps h

theorem sendCtl_keeps {s₀ s : State} {lp : Nat} {h : Sxt} {payload : List Byte} (hs : Keeps s₀ s) :
    Keeps s₀ (sendCtl s lp h payload) := by
  unfold sendCtl
  split
  · exact hs
  · exact joinCtl_keeps (useHead_keeps hs)

theorem sendNak_keeps {s₀ s : State} {lp : Nat} {h : Sxt} {code detail : Nat} (hs : Keeps s₀ s) :
    Keeps s₀ (sendNak s lp h code detail) := by
  unfold sendNak
  exact sendCtl_keeps hs

theorem sendGap_keeps {s₀ s : State} {lp : Nat} {h : Sxt} {psn : BitVec 32} (hs : Keeps s₀ s) :
    Keeps s₀ (sendGap s lp h psn) := by
  unfold sendGap
  exact sendNak_keeps hs

theorem setRx_keeps {s₀ s : State} {ep : BitVec 24} {c : RxCtx} (h : Keeps s₀ s) : Keeps s₀ (setRx s ep c) := by
  unfold setRx
  exact Keeps.update h rfl rfl

theorem sendAck_keeps {s₀ s : State} {ep : BitVec 24} {c : RxCtx} (h : Keeps s₀ s) : Keeps s₀ (sendAck s ep c) := by
  unfold sendAck
  extract_lets s1
  have h1 : Keeps s₀ s1 := stir_keeps (setRx_keeps h)
  exact sendCtl_keeps h1

theorem ackCheck_keeps {s₀ s : State} {ep : BitVec 24} (h : Keeps s₀ s) : Keeps s₀ (ackCheck s ep) := by
  unfold ackCheck
  split
  · exact h
  · extract_lets moved1
    split
    · exact h
    · split
      · exact sendAck_keeps h
      · split
        · exact h
        · exact setRx_keeps h

theorem settle_keeps {s₀ s : State} {ep : BitVec 24} {psn : BitVec 32} (h : Keeps s₀ s) : Keeps s₀ (settle s ep psn) := by
  unfold settle
  split
  · exact h
  · exact ackCheck_keeps (setRx_keeps h)

theorem withdraw_keeps {s₀ s : State} {ep : BitVec 24} {psn : BitVec 32} (h : Keeps s₀ s) : Keeps s₀ (withdraw s ep psn) := by
  unfold withdraw
  split
  · exact h
  · next x1 x2 e1 =>
      extract_lets c1 above1
      split
      · exact ackCheck_keeps (setRx_keeps h)
      · exact ackCheck_keeps (setRx_keeps h)

theorem accept_keeps {s₀ s : State} {lp : Nat} {h : Sxt} (hs : Keeps s₀ s) : PairKeeps s₀ (accept s lp h) := by
  unfold accept
  extract_lets openNew1
  split
  · exact PairKeeps.mk (sendNak_keeps hs)
  · extract_lets d1 gaps1 closes1 c1 s1
    have h1 : Keeps s₀ s1 := setRx_keeps hs
    split
    · exact PairKeeps.mk (sendAck_keeps hs)
    · split
      · exact PairKeeps.mk (bump_keeps (setRx_keeps hs))
      · exact PairKeeps.mk (ackCheck_keeps (Keeps.foldl (fun s2 x3 h2 => sendGap_keeps h2) h1))

theorem finalNak_keeps {s₀ s : State} {lp : Nat} {h : Sxt} {code detail : Nat} (hs : Keeps s₀ s) :
    Keeps s₀ (finalNak s lp h code detail) := by
  unfold finalNak
  exact settle_keeps (sendNak_keeps hs)

theorem nakAny_keeps {s₀ s : State} {lp : Nat} {h : Sxt} {code detail : Nat} (hs : Keeps s₀ s) :
    Keeps s₀ (nakAny s lp h code detail) := by
  unfold nakAny
  split
  · exact finalNak_keeps hs
  · exact sendNak_keeps hs

theorem nakFrame_keeps {s₀ s : State} {lp : Nat} {h : Sxt} {code detail : Nat} (hs : Keeps s₀ s) :
    Keeps s₀ (nakFrame s lp h code detail) := by
  unfold nakFrame
  split
  · exact nakAny_keeps hs
  · exact hs

theorem nakRetry_keeps {s₀ s : State} {lp : Nat} {h : Sxt} {code detail : Nat} (hs : Keeps s₀ s) :
    Keeps s₀ (nakRetry s lp h code detail) := by
  unfold nakRetry
  split
  · exact hs
  · extract_lets s1
    have h1 : Keeps s₀ s1 := sendNak_keeps hs
    split
    · exact withdraw_keeps h1
    · exact h1

theorem nakPair_keeps {s₀ s : State} {p : Pair} {code detail : Nat} (h : Keeps s₀ s) : Keeps s₀ (nakPair s p code detail) := by
  unfold nakPair
  exact sendCtl_keeps h

theorem dropPair_keeps {s₀ s : State} {p : Pair} (h : Keeps s₀ s) : Keeps s₀ (dropPair s p) := by
  unfold dropPair
  exact Keeps.update h rfl rfl

theorem legDone_keeps {s₀ s : State} {o : Output} (h : Keeps s₀ s) : Keeps s₀ (legDone s o) := by
  unfold legDone
  split
  · exact h
  · extract_lets rest1 src1 s1
    have h1 : Keeps s₀ s1 := Keeps.update h rfl rfl
    split
    · split
      · exact settle_keeps h1
      · exact h1
    · exact Keeps.update h rfl rfl

theorem legNak_keeps {s₀ s : State} {o : Output} {code detail : Nat} (h : Keeps s₀ s) : Keeps s₀ (legNak s o code detail) := by
  unfold legNak
  split
  · exact h
  · extract_lets src1 s1
    have h1 : Keeps s₀ s1 := Keeps.update h rfl rfl
    split
    · exact finalNak_keeps h1
    · exact sendNak_keeps h1

theorem failPair_keeps {s₀ s : State} {p : Pair} {code detail : Nat} (h : Keeps s₀ s) :
    Keeps s₀ (failPair s p code detail) := by
  unfold failPair
  extract_lets s1
  have h1 : Keeps s₀ s1 := dropPair_keeps h
  split
  · exact scanRdBack_keeps (stopScan_keeps h1)
  · split
    · exact h1
    · exact nakPair_keeps h1

theorem setTxAt_keeps {s₀ s : State} {k : Nat} {c : TxCtx} (h : Keeps s₀ s) : Keeps s₀ (setTxAt s k c) := by
  unfold setTxAt
  exact Keeps.update h rfl rfl

theorem dropTxAt_keeps {s₀ s : State} {k : Nat} (h : Keeps s₀ s) : Keeps s₀ (dropTxAt s k) := by
  unfold dropTxAt
  exact Keeps.update h rfl rfl

theorem freeSent_keeps {s₀ s : State} {x : Sent} (h : Keeps s₀ s) : Keeps s₀ (freeSent s x) := by
  unfold freeSent
  split
  · exact pitonRelease_keeps h
  · exact freeStores_keeps h

theorem sentDone_keeps {s₀ s : State} {x : Sent} (h : Keeps s₀ s) : Keeps s₀ (sentDone s x) := by
  unfold sentDone
  extract_lets s1 s2 s3
  have h1 : Keeps s₀ s1 := freeSent_keeps h
  have h2 : Keeps s₀ s2 := by
    unfold s2
    split
    · exact bump_keeps h1
    · exact h1
  have h3 : Keeps s₀ s3 := by
    unfold s3
    split
    · split
      · exact dropPair_keeps h2
      · exact h2
    · exact h2
  split
  · exact legDone_keeps h3
  · exact h3

theorem sentNak_keeps {s₀ s : State} {x : Sent} {code detail : Nat} (h : Keeps s₀ s) : Keeps s₀ (sentNak s x code detail) := by
  unfold sentNak
  extract_lets s1 s2
  have h1 : Keeps s₀ s1 := freeSent_keeps h
  have h2 : Keeps s₀ s2 := by
    unfold s2
    split
    · exact failPair_keeps h1
    · exact h1
  split
  · exact legNak_keeps h2
  · exact h2

theorem failCtx_keeps {s₀ s : State} {k : Nat} (h : Keeps s₀ s) : Keeps s₀ (failCtx s k) := by
  unfold failCtx
  split
  · exact h
  · extract_lets p01 s1 s2
    have h1 : Keeps s₀ s1 := cairn_keeps (bump_keeps (stir_keeps (dropTxAt_keeps h)))
    have h2 : Keeps s₀ s2 := Keeps.foldl (fun s3 x3 h2 => sentNak_keeps h2) h1
    exact Keeps.foldl (fun s3 x3 h3 => failPair_keeps h3) h2

theorem loseCtxs_keeps {s₀ s : State} {l : Map TxCtx} (h : Keeps s₀ s) : Keeps s₀ (loseCtxs s l) := by
  unfold loseCtxs
  exact Keeps.update h rfl rfl

theorem originate_keeps {s₀ s : State} {o : Output} (h : Keeps s₀ s) : PairKeeps s₀ (originate s o) := by
  unfold originate
  split
  · exact PairKeeps.mk h
  · next e1 =>
      extract_lets src1 dst1 k1 c1 no1 src2 x1 id1 o1 s1 src3 s2 due1
      have h1 : Keeps s₀ s1 := Keeps.update h rfl rfl
      have h2 : Keeps s₀ s2 := by
        unfold s2
        split
        · extract_lets q1
          exact Keeps.update h1 rfl rfl
        · exact h1
      exact PairKeeps.mk (setTxAt_keeps h2)

theorem park_keeps {s₀ s : State} {o : Output} (h : Keeps s₀ s) : Keeps s₀ (park s o) := by
  unfold park
  extract_lets x1 src1
  exact Keeps.update h rfl rfl

/-! ### Machine.Vault -/

theorem countRefused_keeps {s₀ s : State} {tid : Nat} (h : Keeps s₀ s) : Keeps s₀ (countRefused s tid) := by
  unfold countRefused
  exact bumpTen_keeps h

theorem vaultRequest_keeps {s₀ s : State} {o : Output} {q : Pair} (h : Keeps s₀ s) : OptPairKeeps s₀ (vaultRequest s o q) := by
  unfold vaultRequest
  extract_lets t1 x1 lo1 n1 cut1 src1
  split
  · split
    · exact OptPairKeeps.some (PairKeeps.mk h)
    · exact OptPairKeeps.none
  · split
    · exact OptPairKeeps.none
    · split
      · split
        · exact OptPairKeeps.none
        · exact OptPairKeeps.some (PairKeeps.mk (bumpBy_keeps h))
      · exact OptPairKeeps.some (PairKeeps.mk h)

theorem vaultRefuse_keeps {s₀ s : State} {o : Output} {q : Pair} (h : Keeps s₀ s) : Keeps s₀ (vaultRefuse s o q) := by
  unfold vaultRefuse
  extract_lets s1
  have h1 : Keeps s₀ s1 := endOutput_keeps (countRefused_keeps h)
  split
  · exact legNak_keeps h1
  · exact nakPair_keeps h1

theorem vaultReply_keeps {s₀ s : State} {o : Output} {p : Pair} (h : Keeps s₀ s) : PairKeeps s₀ (vaultReply s o p) := by
  unfold vaultReply
  extract_lets x1 src1
  have h1 : PairKeeps s₀
    (match p.enc, keysOf s p.tid.toNat with
    | true, some (k1, k2) => if (decide (p.kind = 0) && decide (x1 % 16 = 0) && decide (o.payload.length % 16 = 0)) = true then (bumpBy s 24704 9 o.payload.length, xts (aesDecrypt k1) k2 x1 o.payload) else (s, o.payload)
    | x, x_1 => (s, o.payload)) := by
    split
    · split
      · exact PairKeeps.mk (bumpBy_keeps h)
      · exact PairKeeps.mk h
    · exact PairKeeps.mk h
  split
  · next s1 s2 x2 e1 =>
      have h2 := PairKeeps.of_eq h1 e1
      extract_lets body1
      exact PairKeeps.mk h2

theorem stage7_keeps {s₀ s : State} {o : Output} (h : Keeps s₀ s) : PairKeeps s₀ (stage7 s o) := by
  unfold stage7
  split
  · next x1 x2 x3 e1 =>
      split
      · exact PairKeeps.mk h
      · have h1 : PairKeeps s₀ (vaultReply s o x3) := vaultReply_keeps h
        split
        · next s1 s2 x4 e3 =>
            have h2 := PairKeeps.of_eq h1 e3
            exact PairKeeps.mk h2
  · next x1 x2 x3 e1 e2 =>
      split
      · have h1 : OptPairKeeps s₀ (vaultRequest s o x3) := vaultRequest_keeps h
        split
        · next s1 s2 x4 e4 =>
            have h2 := OptPairKeeps.of_eq h1 e4
            exact PairKeeps.mk h2
        · exact PairKeeps.mk (vaultRefuse_keeps h)
      · exact PairKeeps.mk h
  · exact PairKeeps.mk h

/-! ### Machine.Egress -/

theorem dropOutput_keeps {s₀ s : State} {o : Output} (h : Keeps s₀ s) : Keeps s₀ (dropOutput s o) := by
  unfold dropOutput
  split
  · extract_lets s1 o1
    have h1 : Keeps s₀ s1 := by
      unfold s1
      split
      · exact retire_keeps h
      · exact h
    split
    · split
      · exact park_keeps h1
      · have h2 : PairKeeps s₀ (stage7 s1 o1) := stage7_keeps h1
        split
        · next s2 s3 x3 e4 =>
            have h3 := PairKeeps.of_eq h2 e4
            exact PairKeeps.fst (originate_keeps h3)
        · next s2 s3 e4 =>
            have h3 := PairKeeps.of_eq h2 e4
            exact h3
    · split
      · exact park_keeps h1
      · have h2 : PairKeeps s₀ (stage7 s1 o1) := stage7_keeps h1
        split
        · next s2 s3 x2 e4 =>
            have h3 := PairKeeps.of_eq h2 e4
            exact PairKeeps.fst (originate_keeps h3)
        · next s2 s3 e4 =>
            have h3 := PairKeeps.of_eq h2 e4
            exact h3
  · exact endOutput_keeps h

theorem answerLost_keeps {s₀ s : State} {o : Output} (h : Keeps s₀ s) : Keeps s₀ (answerLost s o) := by
  unfold answerLost
  split
  · split
    · exact scanRdBack_keeps (stopScan_keeps h)
    · split
      · exact legNak_keeps h
      · exact nakPair_keeps h
  · split
    · exact scanLost_keeps h
    · exact h
  · exact h

theorem loseOutput_keeps {s₀ s : State} {o : Output} (h : Keeps s₀ s) : Keeps s₀ (loseOutput s o) := by
  unfold loseOutput
  exact answerLost_keeps (endOutput_keeps (bumpBy_keeps h))

theorem spillOutput_keeps {s₀ s : State} {o : Output} {sp : Nat} (h : Keeps s₀ s) : Keeps s₀ (spillOutput s o sp) := by
  unfold spillOutput
  have h1 : PairKeeps s₀ (trySpill s o sp) := trySpill_keeps h
  split
  · next s1 s2 e1 =>
      have h2 := PairKeeps.of_eq h1 e1
      exact h2
  · next s1 s2 e1 =>
      have h2 := PairKeeps.of_eq h1 e1
      exact dropOutput_keeps (bump_keeps h2)

theorem lodge_keeps {s₀ s : State} {o : Output} (h : Keeps s₀ s) : Keeps s₀ (lodge s o) := by
  unfold lodge
  extract_lets o1 tid1 sp1 cls1 qu1 q1 inSpill1 under1 qn1 ci1 avg1 col1 src1 s1 sel1 mark1 s2 o2
  have h1 : Keeps s₀ s1 := draw_keeps (Keeps.update h rfl rfl)
  have h2 : Keeps s₀ s2 := by
    unfold s2
    split
    · exact bump_keeps h1
    · exact h1
  split
  · exact joinCtl_keeps h
  · split
    · exact loseOutput_keeps h
    · split
      · exact dropOutput_keeps (bumpTen_keeps h)
      · split
        · exact spillOutput_keeps h
        · split
          · exact dropOutput_keeps (bump_keeps h2)
          · split
            · exact spillOutput_keeps h2
            · exact enqueue_keeps h2

theorem takeStores_keeps {s₀ s : State} {o : Output} (h : Keeps s₀ s) : OptPairKeeps s₀ (takeStores s o) := by
  unfold takeStores
  split
  · exact OptPairKeeps.none
  · next hd _ =>
    have hcells : OptPairKeeps s₀ (takeCells (useHead s hd) (cellsFor (outLen o))) := takeCells_keeps (useHead_keeps h)
    split
    · exact OptPairKeeps.some (PairKeeps.mk (useHead_keeps h))
    · intro p e
      obtain ⟨q, hq, rfl⟩ := Option.map_eq_some_iff.mp e
      exact hcells q hq

theorem admitNew_keeps {s₀ s : State} {o : Output} (h : Keeps s₀ s) : Keeps s₀ (admitNew s o) := by
  unfold admitNew
  extract_lets o1 o2
  split
  · exact park_keeps h
  · have h1 : OptPairKeeps s₀ (takeStores s o1) := takeStores_keeps h
    split
    · next s1 s2 x1 e2 =>
        have h2 := OptPairKeeps.of_eq h1 e2
        exact lodge_keeps h2
    · split
      · exact park_keeps h
      · exact endOutput_keeps (bump_keeps h)

theorem retryParked_keeps {s₀ s : State} {x : Parked} (h : Keeps s₀ s) : Keeps s₀ (retryParked s x) := by
  unfold retryParked
  extract_lets src1 s1
  have h1 : Keeps s₀ s1 := Keeps.update h rfl rfl
  split
  · exact h1
  · split
    · split
      · exact admitNew_keeps h
      · exact lodge_keeps h
    · split
      · extract_lets s2
        have h2 : Keeps s₀ s2 := pitonRelease_keeps h
        exact answerLost_keeps (endOutput_keeps h2)
      · have h2 : OptPairKeeps s₀ (takeStores s x.out) := takeStores_keeps h
        split
        · next s2 s3 x4 e4 =>
            have h3 := OptPairKeeps.of_eq h2 e4
            exact lodge_keeps (pitonRelease_keeps h3)
        · exact h1

theorem unpark_keeps {s₀ s : State} {lp : Nat} (h : Keeps s₀ s) : Keeps s₀ (unpark s lp) := by
  unfold unpark
  extract_lets ready1
  exact Keeps.foldl (fun s1 x1 h1 => retryParked_keeps (Keeps.update h1 rfl rfl)) h

theorem dropSpilled_keeps {s₀ s : State} {e : Spill} (h : Keeps s₀ s) : Keeps s₀ (dropSpilled s e) := by
  unfold dropSpilled
  extract_lets left1 src1 s1 s2
  have h1 : Keeps s₀ s1 := pitonRelease_keeps (Keeps.update h rfl rfl)
  have h2 : Keeps s₀ s2 := by
    unfold s2
    split
    · exact h1
    · split
      · exact setQueue_keeps h1
      · exact h1
  exact answerLost_keeps (endOutput_keeps h2)

theorem readBack_keeps {s₀ s : State} {qn n : Nat} (h : Keeps s₀ s) : Keeps s₀ (readBack s qn n) := by
  induction n generalizing s with
  | zero => exact h
  | succ n ih =>
    unfold readBack
    split
    · exact h
    · next x1 x2 e1 =>
        extract_lets o1 tid1 cls1
        split
        · exact h
        · split
          · exact h
          · split
            · exact ih (dropSpilled_keeps h)
            · split
              · have h1 : OptPairKeeps s₀ (takeStores s o1) := takeStores_keeps h
                split
                · exact h
                · next s1 s2 x5 e6 =>
                    have h2 := OptPairKeeps.of_eq h1 e6
                    extract_lets left1 src1 s3 more1 s4
                    have h3 : Keeps s₀ s3 := pitonRelease_keeps (Keeps.update h2 rfl rfl)
                    have h4 : Keeps s₀ s4 := setQueue_keeps h3
                    exact ih h4
              · exact h

/-! ### Machine.Resend -/

theorem sendAgain_keeps {s₀ s : State} {o : Output} {b : Option (Nat × Nat)} {h : Sxt} (hs : Keeps s₀ s) :
    Keeps s₀ (sendAgain s o b h) := by
  unfold sendAgain
  exact lodge_keeps hs

theorem retransmit_keeps {s₀ s : State} {c : TxCtx} {x : Sent} (h : Keeps s₀ s) : Keeps s₀ (retransmit s c x) := by
  unfold retransmit
  split
  · exact sendAgain_keeps h
  · exact h

theorem resendPsn_keeps {s₀ s : State} {k : Nat} {psn : BitVec 32} (h : Keeps s₀ s) : Keeps s₀ (resendPsn s k psn) := by
  unfold resendPsn
  split
  · exact h
  · split
    · exact h
    · split
      · split
        · exact h
        · exact failCtx_keeps h
      · extract_lets again1
        exact retransmit_keeps (setTxAt_keeps h)

theorem reopenCtx_keeps {s₀ s : State} {k : Nat} (h : Keeps s₀ s) : Keeps s₀ (reopenCtx s k) := by
  unfold reopenCtx
  split
  · exact h
  · extract_lets sent1 c'1 s1
    have h1 : Keeps s₀ s1 := setTxAt_keeps h
    refine Keeps.foldl ?_ h1
    intro s2 x3 h2
    split
    · exact sendAgain_keeps h2
    · exact h2

theorem ackReceived_keeps {s₀ s : State} {h : Sxt} (hs : Keeps s₀ s) : Keeps s₀ (ackReceived s h) := by
  unfold ackReceived
  extract_lets k1
  split
  · exact hs
  · next x1 x2 e1 =>
      split
      · exact setTxAt_keeps hs
      · extract_lets done1 rest1 c1
        exact Keeps.foldl (fun s1 x3 h1 => sentDone_keeps h1) (setTxAt_keeps hs)

theorem nakReceived_keeps {s₀ s : State} {h : Sxt} (hs : Keeps s₀ s) : Keeps s₀ (nakReceived s h) := by
  unfold nakReceived
  extract_lets code1 detail1 k1
  split
  · exact reopenCtx_keeps hs
  · split
    · exact resendPsn_keeps hs
    · split
      · exact hs
      · split
        · exact hs
        · extract_lets rest1
          exact sentNak_keeps (setTxAt_keeps hs)

/-! ### Machine.ScanEnd -/

theorem setScan_keeps {s₀ s : State} {k : Nat} {c : Scan} (h : Keeps s₀ s) : Keeps s₀ (setScan s k c) := by
  unfold setScan
  exact Keeps.update h rfl rfl

theorem screeSend_keeps {s₀ s : State} {c : Scan} {h : Sxt} {payload : List Byte} {counted : Bool} (hs : Keeps s₀ s) :
    Keeps s₀ (screeSend s c h payload counted) := by
  unfold screeSend
  extract_lets x1
  exact admitNew_keeps hs

theorem sendRows_keeps {s₀ s : State} {f : RowFrame} (h : Keeps s₀ s) : Keeps s₀ (sendRows s f) := by
  unfold sendRows
  split
  · exact h
  · extract_lets first1
    exact screeSend_keeps h

theorem dropRowFrame_keeps {s₀ s : State} {e k : Nat} (h : Keeps s₀ s) : Keeps s₀ (dropRowFrame s e k) := by
  unfold dropRowFrame
  exact Keeps.update h rfl rfl

theorem endScan_keeps {s₀ s : State} {k : Nat} {c : Scan} (h : Keeps s₀ s) : Keeps s₀ (endScan s k c) := by
  unfold endScan
  extract_lets s1 src1 s2 s3 s4 src2
  have h1 : Keeps s₀ s1 := Keeps.foldl (fun s5 x1 h1 => sendRows_keeps h1) h
  have h2 : Keeps s₀ s2 := Keeps.update h1 rfl rfl
  have h3 : Keeps s₀ s3 := screeSend_keeps h2
  have h4 : Keeps s₀ s4 := bump_keeps h3
  exact stir_keeps (Keeps.update h4 rfl rfl)

theorem finishScans_keeps {s₀ s : State} (h : Keeps s₀ s) : Keeps s₀ (finishScans s) := by
  unfold finishScans
  refine Keeps.foldl ?_ h
  intro s1 x1 h1
  split
  · exact endScan_keeps h1
  · exact h1

/-! ### Machine.Sched -/

theorem busyCore_keeps {s₀ s : State} {k : Nat} (h : Keeps s₀ s) : Keeps s₀ (busyCore s k) := by
  unfold busyCore
  exact modCore_keeps h

theorem rouse_keeps {s₀ s : State} {k : Nat} (h : Keeps s₀ s) : Keeps s₀ (rouse s k) := by
  unfold rouse
  exact modCore_keeps h

theorem giveUp_keeps {s₀ s : State} {r : Nat} (h : Keeps s₀ s) : Keeps s₀ (giveUp s r) := by
  unfold giveUp
  extract_lets k1 s1
  have h1 : Keeps s₀ s1 := busyCore_keeps h
  split
  · exact bump_keeps (modCore_keeps h1)
  · exact h1

theorem makeReady_keeps {s₀ s : State} {r : Nat} (h : Keeps s₀ s) : Keeps s₀ (makeReady s r) := by
  unfold makeReady
  extract_lets k1 s1
  have h1 : Keeps s₀ s1 := modRope_keeps h (fun x1 => rfl)
  split
  · exact modCore_keeps h1
  · exact h1

theorem stall_keeps {s₀ s : State} {r : Nat} {w : Wait} (h : Keeps s₀ s) : Keeps s₀ (stall s r w) := by
  unfold stall
  exact giveUp_keeps (modRope_keeps h (fun x1 => rfl))

theorem wakeDone_keeps {s₀ s : State} {r : Nat} {f : Rope → Rope} (h : Keeps s₀ s) (hf : ∀ x, (f x).window = x.window) :
    Keeps s₀ (wakeDone s r f) :=
  makeReady_keeps (modRope_keeps h fun x => by rw [window_nextPc, hf])

theorem setEvent_keeps {s₀ s : State} {r : Nat} {b : BitVec 64} (h : Keeps s₀ s) : Keeps s₀ (setEvent s r b) := by
  unfold setEvent
  extract_lets s1
  have h1 : Keeps s₀ s1 := rouse_keeps (modRope_keeps h (fun x1 => rfl))
  split
  · split
    · exact wakeDone_keeps h1 (fun x5 => by simp)
    · exact h1
  · exact h1

theorem leadEvent_keeps {s₀ s : State} {c : Nat} {b : BitVec 64} (h : Keeps s₀ s) : Keeps s₀ (leadEvent s c b) := by
  unfold leadEvent
  split
  · exact setEvent_keeps h
  · exact h

theorem sendEvent_keeps {s₀ s : State} {r : Nat} {b : BitVec 64} {cycles : Nat} (h : Keeps s₀ s) :
    Keeps s₀ (sendEvent s r b cycles) := by
  unfold sendEvent
  exact Keeps.update h rfl rfl

/-! ### Machine.Switchback -/

theorem mgmtTake_keeps {s₀ s : State} {h : Sxt} {payload : List Byte} {lp : Nat} (hs : Keeps s₀ s) :
    Keeps s₀ (mgmtTake s h payload lp) := by
  unfold mgmtTake
  extract_lets settled1 s1 src1 s2
  have h1 : Keeps s₀ s1 := bump_keeps hs
  have h2 : Keeps s₀ s2 := Keeps.update hs rfl rfl
  split
  · dsimp only [settled1]
    split
    · exact settle_keeps (bump_keeps hs)
    · exact bump_keeps hs
  · split
    · split
      · exact withdraw_keeps h1
      · exact h1
    · dsimp only [settled1]
      split
      · exact settle_keeps h2
      · exact h2

theorem scanTake_keeps {s₀ s : State} {h : Sxt} {payload : List Byte} {lp hostLp : Nat} {ecn : BitVec 2} (hs : Keeps s₀ s) :
    Keeps s₀ (scanTake s h payload lp hostLp ecn) := by
  unfold scanTake
  split
  · exact nakFrame_keeps hs
  · extract_lets src1 s1
    have h1 : Keeps s₀ s1 := Keeps.update hs rfl rfl
    split
    · exact settle_keeps h1
    · exact h1

theorem admitCopy_keeps {s₀ s : State} {l : Leaving} {c : Copy} {ix : Nat} (h : Keeps s₀ s) :
    Keeps s₀ (admitCopy s l c ix) := by
  unfold admitCopy
  extract_lets x1 req1 first1 o1
  split
  · exact lodge_keeps h
  · exact admitNew_keeps h

theorem settleLeaving_keeps {s₀ s : State} {p : Pitch} {i : Nat} {l : Leaving} (h : Keeps s₀ s) :
    Keeps s₀ (settleLeaving s p i l) := by
  unfold settleLeaving
  extract_lets x1 x2 mine1 has1 s1 taken1 refused1 legs1 src1 s2 s3 s4 cp1 src2
  have h1 : Keeps s₀ s1 := by
    unfold s1
    split
    · exact bumpTen_keeps h
    · exact h
  have h2 : Keeps s₀ s2 := by
    unfold s2
    split
    · exact h1
    · split
      · exact settle_keeps h1
      · exact Keeps.update h1 rfl rfl
  have h3 : Keeps s₀ s3 := by
    unfold s3
    split
    · split
      · exact h2
      · exact scanLost_keeps h2
    · exact h2
  have h4 : Keeps s₀ s4 := setInFlight_keeps h3
  split
  · exact retireFrame_keeps h2
  · exact Keeps.update h4 rfl rfl

theorem releaseDerived_keeps {s₀ s : State} {p : Pitch} {first : Option Frame} {slot : List Byte} {flood : Bool} {lp : Nat}
    (h : Keeps s₀ s) :
    Keeps s₀ (releaseDerived s p first slot flood lp) := by
  unfold releaseDerived
  extract_lets psn1 ecn1 src1 x1 payload1 t1 named1 s1 asks1 ports1 legs1 no1 src2 s2
  have h1 : Keeps s₀ s1 := by
    unfold s1
    split
    · exact bumpTen_keeps h
    · exact h
  have h2 : Keeps s₀ s2 := by
    unfold s2
    split
    · exact h1
    · exact Keeps.update h1 rfl rfl
  split
  · exact scanTake_keeps h
  · refine Keeps.foldl ?_ h2
    intro s3 x2 h3
    extract_lets o1 o2
    exact admitNew_keeps (versionUp_keeps h3)

theorem releaseEmit_keeps {s₀ s0 : State} {p : Pitch} {ls : List Leaving} {acc : State × Map Nat} {e : Emit}
    (h : PairKeeps s₀ acc) : PairKeeps s₀ (releaseEmit s0 p ls acc e) := by
  unfold releaseEmit
  obtain ⟨s, seen⟩ := acc
  have hs : Keeps s₀ s := h
  dsimp only
  split
  · exact PairKeeps.mk (releaseDerived_keeps hs)
  · split
    · exact h
    · have hcopies (l : Leaving) (cs : List Copy) (n : Nat) (m : Map Nat) :
          PairKeeps s₀ ((cs.zipIdx).foldl (fun s c => admitCopy s l c.1 (n + c.2)) s, m) :=
        PairKeeps.mk (Keeps.foldl (fun _ _ ht => admitCopy_keeps ht) hs)
      split
      · exact PairKeeps.mk (nakAny_keeps hs)
      · exact PairKeeps.mk (nakFrame_keeps hs)
      · split
        · exact PairKeeps.mk (mgmtTake_keeps hs)
        split
        · exact PairKeeps.mk (scanTake_keeps hs)
        · exact hcopies _ _ _ _
      · exact hcopies _ _ _ _

theorem releasePitch_keeps {s₀ s : State} {p : Pitch} (h : Keeps s₀ s) : Keeps s₀ (releasePitch s p) := by
  unfold releasePitch
  extract_lets ls1 s1
  have h1 : Keeps s₀ s1 := Keeps.foldl (fun s2 x1 h1 => settleLeaving_keeps h1) h
  exact finishScans_keeps (PairKeeps.fst (PairKeeps.foldl (fun s2 x1 h2 => releaseEmit_keeps h2) (PairKeeps.mk h1)))

theorem setLane_keeps {s₀ s : State} {l : Nat} {x : Lane} (h : Keeps s₀ s) : Keeps s₀ (setLane s l x) := by
  unfold setLane
  exact Keeps.update h rfl rfl

theorem releaseLane_keeps {s₀ s : State} {l n : Nat} (h : Keeps s₀ s) : Keeps s₀ (releaseLane s l n) := by
  induction n generalizing s with
  | zero => exact h
  | succ n ih =>
    unfold releaseLane
    extract_lets la1 s1
    have h1 : Keeps s₀ s1 := setLane_keeps h
    split
    · exact h
    · split
      · refine ih ?_
        split
        · exact dropPitch_keeps h1
        · exact h1
      · split
        · exact ih (releasePitch_keeps (dropPitch_keeps h1))
        · exact h

theorem wakeHeld_keeps {s₀ s : State} (h : Keeps s₀ s) : Keeps s₀ (wakeHeld s) := by
  unfold wakeHeld
  split
  · exact h
  · refine Keeps.foldl ?_ h
    intro s1 x1 h1
    split
    · exact makeReady_keeps h1
    · exact h1

theorem completePitch_keeps {s₀ s : State} {k : Nat} (h : Keeps s₀ s) : Keeps s₀ (completePitch s k) := by
  unfold completePitch
  split
  · exact h
  · refine wakeHeld_keeps ?_
    split
    · extract_lets s1
      have h1 : Keeps s₀ s1 := bump_keeps h
      split
      · exact dropPitch_keeps h1
      · exact setPitch_keeps h1
    · extract_lets s1
      have h1 : Keeps s₀ s1 := setPitch_keeps h
      exact releaseLane_keeps h1

theorem failPitch_keeps {s₀ s : State} {k code detail : Nat} (h : Keeps s₀ s) : Keeps s₀ (failPitch s k code detail) := by
  unfold failPitch
  split
  · exact h
  · extract_lets s1
    have h1 : Keeps s₀ s1 := by
      unfold s1
      split
      · exact h
      · refine Keeps.foldl ?_ h
        intro s2 x3 h1
        extract_lets x4 x5
        refine retireFrame_keeps ?_
        split
        · exact nakRetry_keeps h1
        · exact nakFrame_keeps h1
    exact finishScans_keeps (completePitch_keeps (setPitch_keeps h1))

/-! ### Machine.Pitches -/

theorem dropAtCol_keeps {s₀ s : State} {f : Nat} (h : Keeps s₀ s) : Keeps s₀ (dropAtCol s f) := by
  unfold dropAtCol
  extract_lets x1
  exact retireFrame_keeps (ingressDown_keeps h)

theorem discardPitch_keeps {s₀ s : State} {k : Nat} (h : Keeps s₀ s) : Keeps s₀ (discardPitch s k) := by
  unfold discardPitch
  split
  · exact h
  · split
    · extract_lets s1
      have h1 : Keeps s₀ s1 := by
        unfold s1
        split
        · exact h
        · exact Keeps.foldl (fun s2 x3 h1 => retireFrame_keeps (bumpLp_keeps h1)) h
      exact completePitch_keeps (setPitch_keeps h1)
    · exact dropPitch_keeps (Keeps.foldl (fun s1 x3 h1 => dropAtCol_keeps (bumpLp_keeps h1)) h)

theorem closePitch_keeps {s₀ s : State} {k ctr : Nat} (h : Keeps s₀ s) : Keeps s₀ (closePitch s k ctr) := by
  unfold closePitch
  split
  · exact h
  · next x1 x2 e1 =>
      extract_lets s1 s2 lane1 t1
      have h1 : Keeps s₀ s1 := modPort_keeps h
      have h2 : Keeps s₀ s2 := bumpBy_keeps (bump_keeps (bump_keeps h1))
      split
      · exact discardPitch_keeps h2
      · extract_lets s3 sh1
        have h3 : Keeps s₀ s3 := setPitch_keeps h2
        exact setShed_keeps h3

theorem openNew_keeps {s₀ s : State} {f : Nat} (h : Keeps s₀ s) : PairKeeps s₀ (openNew s f) := by
  unfold openNew
  extract_lets x1 x2 k1 p1 src1 s1
  have h1 : Keeps s₀ s1 := setPitch_keeps (Keeps.update h rfl rfl)
  exact PairKeeps.mk (modPort_keeps h1)

theorem formPitch_keeps {s₀ s : State} {f : Nat} (h : Keeps s₀ s) : Keeps s₀ (formPitch s f) := by
  unfold formPitch
  extract_lets x1 x2 alone1 s1 cur1 fresh1
  have h1 : Keeps s₀ s1 := by
    unfold s1
    split
    · exact h
    · split
      · exact h
      · split
        · exact closePitch_keeps h
        · exact h
  clear_value cur1
  split
  · dsimp only [fresh1]
    split
    · exact closePitch_keeps (PairKeeps.fst (openNew_keeps h1))
    · split
      · exact closePitch_keeps (PairKeeps.fst (openNew_keeps h1))
      · exact PairKeeps.fst (openNew_keeps h1)
  · split
    · dsimp only [fresh1]
      split
      · exact closePitch_keeps (PairKeeps.fst (openNew_keeps h1))
      · split
        · exact closePitch_keeps (PairKeeps.fst (openNew_keeps h1))
        · exact PairKeeps.fst (openNew_keeps h1)
    · split
      · extract_lets s2
        have h2 : Keeps s₀ s2 := setPitch_keeps h1
        split
        · exact closePitch_keeps h2
        · exact h2
      · dsimp only [fresh1]
        split
        · exact closePitch_keeps (PairKeeps.fst (openNew_keeps (closePitch_keeps h1)))
        · split
          · exact closePitch_keeps (PairKeeps.fst (openNew_keeps (closePitch_keeps h1)))
          · exact PairKeeps.fst (openNew_keeps (closePitch_keeps h1))

theorem execCoalesceWindowExpiry_keeps {s₀ s : State} {lp : Nat} {cls : BitVec 3} (h : Keeps s₀ s) :
    ResKeeps s₀ (execCoalesceWindowExpiry lp cls s) := by
  unfold execCoalesceWindowExpiry
  refine live_keeps h ?_
  split
  · exact ResKeeps.next h
  · split
    · exact ResKeeps.next h
    · exact ResKeeps.next (closePitch_keeps (advanceTo_keeps h))

/-! ### Machine.Links -/

theorem dropOver_keeps {s₀ s : State} (h : Keeps s₀ s) : Keeps s₀ (dropOver s) := by
  unfold dropOver
  split
  · exact bump_keeps (Keeps.update h rfl rfl)
  · exact h

theorem latchFence_keeps {s₀ s : State} {b : Bool} (h : Keeps s₀ s) : Keeps s₀ (latchFence s b) := by
  unfold latchFence
  split
  · exact h
  · exact storeLater_keeps (Keeps.update h rfl rfl)

theorem readOnlyNow_keeps {s₀ s : State} (h : Keeps s₀ s) : Keeps s₀ (readOnlyNow s) := by
  unfold readOnlyNow
  extract_lets ro1 src1 s1 s2
  have h1 : Keeps s₀ s1 := latchFence_keeps (Keeps.update h rfl rfl)
  have h2 : Keeps s₀ s2 := by
    unfold s2
    split
    · exact bump_keeps h1
    · exact h1
  split
  · exact cairn_keeps h2
  · exact Keeps.update h rfl rfl

theorem recheckReadOnly_keeps {s₀ s : State} (h : Keeps s₀ s) : Keeps s₀ (recheckReadOnly s) := by
  unfold recheckReadOnly
  exact readOnlyNow_keeps (dropOver_keeps h)

theorem recheckService_keeps {s₀ s : State} (h : Keeps s₀ s) : Keeps s₀ (recheckService s) := by
  unfold recheckService
  exact recheckReadOnly_keeps (setFaultN_keeps (dropOver_keeps h))

theorem settleLease_keeps {s₀ s : State} (h : Keeps s₀ s) : Keeps s₀ (settleLease s) := by
  unfold settleLease
  split
  · exact recheckReadOnly_keeps h
  · exact h

theorem enterPort_keeps {s₀ s : State} {lp : Nat} (h : Keeps s₀ s) : Keeps s₀ (enterPort s lp) := by
  unfold enterPort
  split
  · exact modPort_keeps h
  · exact h

theorem enterPorts_keeps {s₀ s : State} (h : Keeps s₀ s) : Keeps s₀ (enterPorts s) := by
  unfold enterPorts
  exact Keeps.foldl (fun s1 x1 h1 => enterPort_keeps h1) h

theorem trainPort_keeps {s₀ s : State} {lp : Nat} (h : Keeps s₀ s) : Keeps s₀ (trainPort s lp) := by
  unfold trainPort
  split
  · exact modPort_keeps h
  · exact modPort_keeps h

theorem loseLink_keeps {s₀ s : State} {lp : Nat} (h : Keeps s₀ s) : Keeps s₀ (loseLink s lp) := by
  unfold loseLink
  exact trainPort_keeps (bumpLp_keeps h)

theorem emptySched_keeps {s₀ s : State} {lp : Nat} (h : Keeps s₀ s) : Keeps s₀ (emptySched s lp) := by
  unfold emptySched
  extract_lets s1 src1 src2
  have h1 : Keeps s₀ s1 := Keeps.foldl (fun s2 x1 h1 => yieldTurn_keeps h1) h
  exact Keeps.update h1 rfl rfl

theorem takeQueued_keeps {s₀ s : State} {lp : Nat} (h : Keeps s₀ s) : PairKeeps s₀ (takeQueued s lp) := by
  unfold takeQueued
  extract_lets outs1 sp1 waits1 bufs1 src1 src2 src3 s1
  have h1 : Keeps s₀ s1 := Keeps.update h rfl rfl
  exact PairKeeps.mk (emptySched_keeps (Keeps.foldl (fun s2 x1 h2 => pitonRelease_keeps h2) h1))

theorem dropPort_keeps {s₀ s : State} {lp ctr : Nat} (h : Keeps s₀ s) : Keeps s₀ (dropPort s lp ctr) := by
  unfold dropPort
  have h1 : PairKeeps s₀ (takeQueued s lp) := takeQueued_keeps h
  split
  · next s1 s2 x1 x2 e1 =>
      have h2 := PairKeeps.of_eq h1 e1
      extract_lets s3
      have h3 : Keeps s₀ s3 := bumpBy_keeps h2
      exact Keeps.foldl (fun s4 x3 h4 => answerLost_keeps (endOutput_keeps h4)) h3

theorem flushQueued_keeps {s₀ s : State} {lp : Nat} (h : Keeps s₀ s) : Keeps s₀ (flushQueued s lp) := by
  unfold flushQueued
  exact dropPort_keeps h

theorem retrainPhys_keeps {s₀ s : State} {lp : Nat} (h : Keeps s₀ s) : Keeps s₀ (retrainPhys s lp) := by
  unfold retrainPhys
  exact finishScans_keeps (Keeps.foldl (fun s1 x1 h1 => trainPort_keeps (flushQueued_keeps h1)) h)

theorem execTrainingComplete_keeps {s₀ s : State} {lp : Nat} (h : Keeps s₀ s) : ResKeeps s₀ (execTrainingComplete lp s) := by
  unfold execTrainingComplete
  split
  · exact ResKeeps.next (enterPort_keeps (modPort_keeps h))
  · exact ResKeeps.next h

theorem execTrainingTimeout_keeps {s₀ s : State} {lp : Nat} (h : Keeps s₀ s) : ResKeeps s₀ (execTrainingTimeout lp s) := by
  unfold execTrainingTimeout
  split
  · extract_lets s1
    have h1 : Keeps s₀ s1 := advanceTo_keeps h
    exact ResKeeps.next (trainPort_keeps (bumpLp_keeps h1))
  · exact ResKeeps.next h

theorem execTrainingRestart_keeps {s₀ s : State} {lp : Nat} (h : Keeps s₀ s) : ResKeeps s₀ (execTrainingRestart lp s) := by
  unfold execTrainingRestart
  split
  · exact ResKeeps.next (trainPort_keeps h)
  · exact ResKeeps.next h

theorem execFecErrorBurst_keeps {s₀ s : State} {lp corrected uncorrectable : Nat} (h : Keeps s₀ s) :
    ResKeeps s₀ (execFecErrorBurst lp corrected uncorrectable s) := by
  unfold execFecErrorBurst
  split
  · extract_lets s1
    have h1 : Keeps s₀ s1 := bumpBy_keeps (bumpBy_keeps h)
    refine ResKeeps.next ?_
    split
    · exact loseLink_keeps h1
    · exact h1
  · exact ResKeeps.next h

theorem execLinkDown_keeps {s₀ s : State} {lp : Nat} (h : Keeps s₀ s) : ResKeeps s₀ (execLinkDown lp s) := by
  unfold execLinkDown
  split
  · exact ResKeeps.next (loseLink_keeps h)
  · exact ResKeeps.next h

theorem execLpiReceivedOutside_keeps {s₀ s : State} {lp : Nat} (h : Keeps s₀ s) :
    ResKeeps s₀ (execLpiReceivedOutside lp s) := by
  unfold execLpiReceivedOutside
  split
  · exact ResKeeps.next (bumpLp_keeps h)
  · exact ResKeeps.next h

theorem portAwake_keeps {s₀ s : State} {lp : Nat} (h : Keeps s₀ s) : Keeps s₀ (portAwake s lp) := by
  unfold portAwake
  split
  · exact modPort_keeps h
  · exact trainPort_keeps h

theorem entryAborts_keeps {s₀ s : State} (h : Keeps s₀ s) : Keeps s₀ (entryAborts s) := by
  unfold entryAborts
  extract_lets s1 src1 s2
  have h1 : Keeps s₀ s1 := Keeps.foldl (fun s3 x1 h1 => setStack_keeps h1) h
  have h2 : Keeps s₀ s2 := Keeps.update h1 rfl rfl
  exact enterPorts_keeps (Keeps.foldl (fun s3 x1 h3 => portAwake_keeps h3) h2)

theorem wokenBy_keeps {s₀ s : State} {lp : Nat} (h : Keeps s₀ s) : Keeps s₀ (wokenBy s lp) := by
  unfold wokenBy
  split
  · exact entryAborts_keeps h
  · exact h

theorem execPulseSend_keeps {s₀ s : State} {lp : Nat} (h : Keeps s₀ s) : ResKeeps s₀ (execPulseSend lp s) := by
  unfold execPulseSend
  split
  · extract_lets s1 s2
    have h1 : Keeps s₀ s1 := settleLease_keeps (advanceTo_keeps h)
    have h2 : Keeps s₀ s2 := putOnWire_keeps h1
    exact ResKeeps.next (modPort_keeps h2)
  · exact ResKeeps.next h

theorem execPulseMissed_keeps {s₀ s : State} {lp : Nat} (h : Keeps s₀ s) : ResKeeps s₀ (execPulseMissed lp s) := by
  unfold execPulseMissed
  split
  · exact ResKeeps.next h
  · split
    · exact ResKeeps.next h
    · extract_lets s1
      have h1 : Keeps s₀ s1 := advanceTo_keeps h
      exact ResKeeps.next (modPort_keeps (bumpLp_keeps h1))

theorem pulseReceived_keeps {s₀ s : State} {lp : Nat} {h : Sxt} (hs : Keeps s₀ s) : Keeps s₀ (pulseReceived s lp h) := by
  unfold pulseReceived
  extract_lets src1 s1
  have h1 : Keeps s₀ s1 := by
    unfold s1
    split
    · exact Keeps.update hs rfl rfl
    · exact hs
  exact recheckReadOnly_keeps (modPort_keeps h1)

theorem partnerLost_keeps {s₀ s : State} {lp : Nat} (h : Keeps s₀ s) : Keeps s₀ (partnerLost s lp) := by
  unfold partnerLost
  extract_lets s1 n1 s2 mine1 s3 s4
  have h1 : Keeps s₀ s1 := modPort_keeps h
  have h2 : Keeps s₀ s2 := dropPort_keeps h1
  have h3 : Keeps s₀ s3 := by
    unfold s3
    refine Keeps.foldl ?_ h2
    intro s5 x1 h3
    split
    · exact dropTxAt_keeps h3
    · exact failCtx_keeps h3
  have h4 : Keeps s₀ s4 := cairn_keeps h3
  exact recheckReadOnly_keeps h4

theorem execPulseLossTimeout_keeps {s₀ s : State} {lp : Nat} (h : Keeps s₀ s) : ResKeeps s₀ (execPulseLossTimeout lp s) := by
  unfold execPulseLossTimeout
  split
  · exact ResKeeps.next h
  · split
    · exact ResKeeps.next h
    · exact ResKeeps.next (finishScans_keeps (partnerLost_keeps (advanceTo_keeps h)))

theorem execAckDelayExpiry_keeps {s₀ s : State} {ep : BitVec 24} (h : Keeps s₀ s) : ResKeeps s₀ (execAckDelayExpiry ep s) := by
  unfold execAckDelayExpiry
  refine live_keeps h ?_
  split
  · exact ResKeeps.next h
  · split
    · exact ResKeeps.next h
    · exact ResKeeps.next (sendAck_keeps (advanceTo_keeps h))

theorem execRetransmitTimeout_keeps {s₀ s : State} {ep : BitVec 24} (h : Keeps s₀ s) :
    ResKeeps s₀ (execRetransmitTimeout ep s) := by
  unfold execRetransmitTimeout
  refine live_keeps h ?_
  split
  · exact ResKeeps.next h
  · next x1 x2 x3 x4 e1 =>
      extract_lets s1 due1
      have h1 : Keeps s₀ s1 := advanceTo_keeps h
      split
      · exact ResKeeps.next h1
      · split
        · split
          · exact ResKeeps.next (setTxAt_keeps h1)
          · exact ResKeeps.next (finishScans_keeps (failCtx_keeps h1))
        · extract_lets again1 c1
          exact ResKeeps.next (finishScans_keeps (retransmit_keeps (setTxAt_keeps h1)))

theorem execContextIdleExpiry_keeps {s₀ s : State} {receiver : Bool} {ep : BitVec 24} (h : Keeps s₀ s) :
    ResKeeps s₀ (execContextIdleExpiry receiver ep s) := by
  unfold execContextIdleExpiry
  split
  · split
    · exact ResKeeps.next h
    · split
      · extract_lets s1 src1
        have h1 : Keeps s₀ s1 := advanceTo_keeps h
        exact ResKeeps.next (Keeps.update h1 rfl rfl)
      · exact ResKeeps.next h
  · split
    · exact ResKeeps.next h
    · exact ResKeeps.next (dropTxAt_keeps (advanceTo_keeps h))

theorem execCredSend_keeps {s₀ s : State} {lp : Nat} (h : Keeps s₀ s) : ResKeeps s₀ (execCredSend lp s) := by
  unfold execCredSend
  extract_lets mask1 p1 lim1 early1 s1 body1 s2
  have h1 : Keeps s₀ s1 := by
    unfold s1
    split
    · exact h
    · exact advanceTo_keeps h
  have h2 : Keeps s₀ s2 := modPort_keeps (Keeps.update h1 rfl rfl)
  split
  · exact ResKeeps.next (sendCtl_keeps h2)
  · exact ResKeeps.next h

theorem execPfcXoffSend_keeps {s₀ s : State} {lp : Nat} {cls : BitVec 3} (h : Keeps s₀ s) :
    ResKeeps s₀ (execPfcXoffSend lp cls s) := by
  unfold execPfcXoffSend
  extract_lets c1 s1 s2
  have h1 : Keeps s₀ s1 := by
    unfold s1
    split
    · exact advanceTo_keeps h
    · exact h
  have h2 : Keeps s₀ s2 := sendPfc_keeps h1
  split
  · exact ResKeeps.next (modPort_keeps h2)
  · exact ResKeeps.next h

theorem execPauseTimeExpiry_keeps {s₀ s : State} {lp : Nat} {cls : BitVec 3} (h : Keeps s₀ s) :
    ResKeeps s₀ (execPauseTimeExpiry lp cls s) := by
  unfold execPauseTimeExpiry
  refine live_keeps h ?_
  split
  · exact ResKeeps.next h
  · exact ResKeeps.next (modPort_keeps (advanceTo_keeps h))

/-! ### Machine.Tables -/

theorem setEpWord_keeps {s₀ s : State} {b : Nat} {w : BitVec 256} (h : Keeps s₀ s) : Keeps s₀ (setEpWord s b w) := by
  unfold setEpWord
  exact Keeps.update h rfl rfl

theorem touchBucket_keeps {s₀ s : State} {b : Nat} (h : Keeps s₀ s) : Keeps s₀ (touchBucket s b) := by
  unfold touchBucket
  split
  · exact Keeps.update h rfl rfl
  · exact h

theorem setEpSlot_keeps {s₀ s : State} {p : Nat × Nat} {e : BitVec 64} (h : Keeps s₀ s) : Keeps s₀ (setEpSlot s p e) := by
  unfold setEpSlot
  exact setEpWord_keeps (touchBucket_keeps h)

theorem epLookup_keeps {s₀ s : State} {k : Nat} (h : Keeps s₀ s) : PairKeeps s₀ (epLookup s k) := by
  unfold epLookup
  split
  · exact PairKeeps.mk h
  · exact PairKeeps.mk (setEpWord_keeps h)

theorem epPlace_keeps {s₀ s : State} {e : BitVec 64} {ps : List (Nat × Nat)} (h : Keeps s₀ s) : Keeps s₀ (epPlace s e ps) := by
  induction ps generalizing s e with
  | nil => exact h
  | cons p ps ih => exact ih (setEpSlot_keeps h)

theorem epInsert_keeps {s₀ s : State} {e : BitVec 64} (h : Keeps s₀ s) : OptKeeps s₀ (epInsert s e) := by
  unfold epInsert
  extract_lets free1 next1
  split
  · exact OptKeeps.none
  · extract_lets s1
    have h1 : Keeps s₀ s1 := epPlace_keeps h
    exact OptKeeps.some (putObj_keeps h1)

theorem healBucket_keeps {s₀ s : State} {c : Nat × Option Nat} {b : Nat} (h : Keeps s₀ s) :
    PairKeeps s₀ (healBucket s c b) := by
  unfold healBucket
  split
  · exact PairKeeps.mk h
  · extract_lets failed1
    split
    · split
      · exact PairKeeps.mk h
      · exact PairKeeps.mk (hbmWrite_keeps h)
    · exact PairKeeps.mk h

theorem ruleMedia_keeps {s₀ s : State} {b slot : Nat} {key : BitVec 64} (h : Keeps s₀ s) :
    Keeps s₀ (ruleMedia s b slot key) := by
  unfold ruleMedia
  exact cairn_keeps (bump_keeps h)

theorem readBuckets_keeps {s₀ s : State} {c : Nat × Option Nat} {key : BitVec 64} {bs : List Nat} (h : Keeps s₀ s) :
    Keeps s₀ (readBuckets s c key bs) := by
  unfold readBuckets
  refine Keeps.foldl ?_ h
  intro s1 x1 h1
  have h2 : PairKeeps s₀ (healBucket s1 c x1) := healBucket_keeps h1
  split
  · next s2 s3 x2 e1 =>
      have h3 := PairKeeps.of_eq h2 e1
      exact ruleMedia_keeps h3
  · next s2 s3 e1 =>
      have h3 := PairKeeps.of_eq h2 e1
      exact h3

theorem setRule_keeps {s₀ s : State} {p : Nat × Nat} {e : RuleEntry} (h : Keeps s₀ s) : Keeps s₀ (setRule s p e) := by
  unfold setRule
  exact writeCopies_keeps h

theorem readKey_keeps {s₀ s : State} {k : BitVec 64} (h : Keeps s₀ s) : Keeps s₀ (readKey s k) := by
  unfold readKey
  extract_lets x1
  exact readBuckets_keeps h

theorem cacheDrop_keeps {s₀ s : State} {k : BitVec 64} (h : Keeps s₀ s) : Keeps s₀ (cacheDrop s k) := by
  unfold cacheDrop
  exact Keeps.update h rfl rfl

theorem rulePlace_keeps {s₀ s : State} {e : RuleEntry} {ps : List (Nat × Nat)}
    (h : Keeps s₀ s) : Keeps s₀ (rulePlace s e ps) := by
  induction ps generalizing s e with
  | nil => exact h
  | cons p ps ih => exact ih (setRule_keeps h)

theorem ruleInsert_keeps {s₀ s : State} {e : RuleEntry} (h : Keeps s₀ s) : OptKeeps s₀ (ruleInsert s e) := by
  unfold ruleInsert
  extract_lets free1 next1
  split
  · exact OptKeeps.none
  · extract_lets s1 s2
    have h1 : Keeps s₀ s1 := readBuckets_keeps h
    have h2 : Keeps s₀ s2 := cacheDrop_keeps (rulePlace_keeps h1)
    exact OptKeeps.some (putObj_keeps h2)

theorem cacheTouch_keeps {s₀ s : State} {l : RuleLine} (h : Keeps s₀ s) : Keeps s₀ (cacheTouch s l) := by
  unfold cacheTouch
  exact Keeps.update h rfl rfl

theorem cacheInstall_keeps {s₀ s : State} {l : RuleLine} (h : Keeps s₀ s) : Keeps s₀ (cacheInstall s l) := by
  unfold cacheInstall
  exact Keeps.update h rfl rfl

theorem readBucket_keeps {s₀ s : State} {b : Nat} (h : Keeps s₀ s) : PairKeeps s₀ (readBucket s b) := by
  unfold readBucket
  extract_lets c1
  have h1 : PairKeeps s₀ (healBucket s c1 b) := healBucket_keeps h
  split
  · next s1 s2 x1 e1 =>
      have h2 := PairKeeps.of_eq h1 e1
      exact PairKeeps.mk h2
  · next s1 s2 e1 =>
      have h2 := PairKeeps.of_eq h1 e1
      exact PairKeeps.mk h2

theorem probeHbm_keeps {s₀ s : State} {k : BitVec 64} (h : Keeps s₀ s) : PairKeeps s₀ (probeHbm s k) := by
  unfold probeHbm
  extract_lets x1
  have h1 : PairKeeps s₀ (readBucket s x1.1) := readBucket_keeps h
  split
  · next s1 s2 x2 e1 =>
      have h2 := PairKeeps.of_eq h1 e1
      have h3 : PairKeeps s₀ (readBucket s2 x1.2) := readBucket_keeps h2
      split
      · next s3 s4 x3 e2 =>
          have h4 := PairKeeps.of_eq h3 e2
          extract_lets fails1
          split
          · have h5 := PairKeeps.of_eq h1 e1
            have h6 := PairKeeps.of_eq h3 e2
            extract_lets es1
            exact PairKeeps.mk (cacheInstall_keeps h4)
          · have h5 := PairKeeps.of_eq h1 e1
            dsimp only [fails1]
            exact PairKeeps.mk (ruleMedia_keeps h4)
          · have h5 := PairKeeps.of_eq h3 e2
            dsimp only [fails1]
            exact PairKeeps.mk (ruleMedia_keeps h4)

/-! ### Machine.Versions -/

theorem ackOk_keeps {s₀ s : State} (h : Keeps s₀ s) : PairKeeps s₀ (ackOk s) := by
  unfold ackOk
  exact PairKeeps.mk h

theorem answered_keeps {s₀ : State} {a : Ack} (h : PairKeeps s₀ a) : Keeps s₀ (answered a) := by
  unfold answered
  split
  · exact Keeps.update h.fst rfl rfl
  · exact Keeps.update (bump_keeps h.fst) rfl rfl

theorem maintRefuse_keeps {s₀ s : State} {c code : Nat} (h : Keeps s₀ s) : Keeps s₀ (maintRefuse s c code) := by
  unfold maintRefuse
  extract_lets s1
  have h1 : Keeps s₀ s1 := putObj_keeps (putObj_keeps (putObj_keeps h))
  exact cairn_keeps (bump_keeps h1)

theorem maintStart_keeps {s₀ s : State} {c ctl : Nat} (h : Keeps s₀ s) : PairKeeps s₀ (maintStart s c ctl) := by
  unfold maintStart
  split
  · exact PairKeeps.mk (maintRefuse_keeps h)
  · exact PairKeeps.mk (bump_keeps h)

theorem verNext_ne_zero (v : BitVec 16) : verNext v ≠ 0 := by
  unfold verNext
  split
  · decide
  · next h =>
    intro h0
    apply h
    bv_omega

theorem startWalk_keeps {s₀ s : State} {discard : Bool} (h : Keeps s₀ s) : Keeps s₀ (startWalk s discard) := by
  refine setVer_keepsOk h fun ok => ?_
  unfold VersionsOk setVer
  dsimp only
  split <;> exact ok

theorem stageOpen_keeps {s₀ s : State} (h : Keeps s₀ s) : PairKeeps s₀ (stageOpen s) := by
  unfold stageOpen
  extract_lets v
  split
  · exact PairKeeps.mk h
  · next hfree =>
    have hdis : v.discarding = 0 := by simp_all
    refine ackOk_keeps (setVer_keepsOk h fun ok => ?_)
    obtain ⟨hcur, _, hdrain, hwait, _⟩ := ok
    exact ⟨hcur, .inr rfl, hdrain, fun hw => ⟨verNext_ne_zero _, (hwait hw).2⟩, fun hne => absurd hdis hne⟩

theorem doCommit_keeps {s₀ s : State} {at_ : Nat} (h : Keeps s₀ s) (hs : VersionsOk s → s.col.ver.staging ≠ 0) :
    Keeps s₀ (doCommit s at_) := by
  unfold doCommit
  extract_lets s1
  have h1 : Keeps s₀ s1 := setVer_keepsOk h fun ok => by
    have hne := hs ok
    obtain ⟨_, hstage, _, _, _⟩ := ok
    have hnext := hstage.resolve_left hne
    exact ⟨hne, .inl rfl, .inr hnext.symm, (nomatch ·), fun _ => rfl⟩
  exact putObj_keeps (bump_keeps h1)

theorem retireDraining_keeps {s₀ s : State} (h : Keeps s₀ s) : Keeps s₀ (retireDraining s) := by
  unfold retireDraining
  extract_lets v s1 s2
  have hcommit (hw : v.waiting.isSome = true) (at_ : Nat) : Keeps s₀ (doCommit s1 at_) :=
    ⟨fun ok₀ => by
      obtain ⟨_, hstage, _, hwait, _⟩ := h.versions ok₀
      have hne := (hwait hw).1
      exact ⟨hne, .inl rfl, .inr (hstage.resolve_left hne).symm, (nomatch ·), fun _ => rfl⟩, h.memories⟩
  split
  · refine startWalk_keeps ?_
    unfold s2
    split
    · next hnone =>
      have hidle : ¬s.col.ver.waiting.isSome = true := by rw [show s.col.ver.waiting = none from hnone]; simp
      refine setVer_keepsOk h fun ok => ?_
      obtain ⟨hcur, hstage, _, _, hdis⟩ := ok
      exact ⟨hcur, hstage, .inl rfl, fun hw => absurd hw hidle, hdis⟩
    · next t hsome => exact cairn_keeps (putObj_keeps (bump_keeps (hcommit (by rw [hsome]; rfl) _)))
  · exact h

theorem maintStart_ver (s : State) (c ctl : Nat) : (maintStart s c ctl).1.col.ver = s.col.ver := by
  obtain ⟨o, r, h⟩ := maintStart_only s c ctl
  rw [h]

theorem commitEvent_keeps {s₀ s : State} {at_ : Nat} (h : Keeps s₀ s) : Keeps s₀ (commitEvent s at_) := by
  unfold commitEvent
  extract_lets v
  split
  · exact cairn_keeps (bump_keeps h)
  · next hne =>
    have hstart : PairKeeps s₀ (maintStart s 7 (obj s 0x4820 1)) := maintStart_keeps h
    have hver := maintStart_ver s 7 (obj s 0x4820 1)
    split
    · next s1 code e => exact cairn_keeps (bump_keeps (hstart.of_eq e))
    · next s1 e =>
      rw [e] at hver
      have h1 : Keeps s₀ s1 := hstart.of_eq e
      have hne1 : s1.col.ver.staging ≠ 0 := by rw [show s1.col.ver = s.col.ver from hver]; exact hne
      split
      · exact cairn_keeps (bump_keeps h1)
      · split
        · exact doCommit_keeps h1 fun _ => hne1
        · next hdrain =>
          have hdrain1 : s1.col.ver.draining ≠ 0 := by rw [show s1.col.ver = s.col.ver from hver]; exact hdrain
          refine setVer_keepsOk h1 fun ok => ?_
          obtain ⟨hcur, hstage, hd, _, hdis⟩ := ok
          exact ⟨hcur, hstage, hd, fun _ => ⟨hne1, hdrain1⟩, hdis⟩

theorem stageDiscard_keeps {s₀ s : State} (h : Keeps s₀ s) : PairKeeps s₀ (stageDiscard s) := by
  unfold stageDiscard
  extract_lets v
  split
  · exact PairKeeps.mk h
  · have hstart : PairKeeps s₀ (maintStart s 7 (obj s 0x4820 1)) := maintStart_keeps h
    split
    · next s1 code e => exact PairKeeps.mk (hstart.of_eq e)
    · next s1 e =>
      have h1 : Keeps s₀ s1 := hstart.of_eq e
      extract_lets s2
      have h2 : Keeps s₀ s2 := by
        unfold s2
        split
        · exact cairn_keeps (bump_keeps h1)
        · exact h1
      refine ackOk_keeps (startWalk_keeps (setVer_keepsOk h2 fun ok => ?_))
      obtain ⟨hcur, _, hd, _, _⟩ := ok
      exact ⟨hcur, .inl rfl, hd, (nomatch ·), fun _ => rfl⟩

theorem execVersionRetired_keeps {s₀ s : State} (h : Keeps s₀ s) : ResKeeps s₀ (execVersionRetired s) := by
  unfold execVersionRetired
  exact live_keeps h (ResKeeps.next (retireDraining_keeps h))

theorem reclaim_keeps {s₀ s : State} (h : Keeps s₀ s) : Keeps s₀ (reclaim s) := by
  unfold reclaim
  extract_lets s1 oldest1
  have h1 : Keeps s₀ s1 := readBuckets_keeps h
  refine Keeps.foldl ?_ h1
  intro s2 x1 h2
  split
  · exact cacheDrop_keeps (setRule_keeps h2)
  · exact h2

theorem discardWalk_keeps {s₀ s : State} {d : BitVec 16} (h : Keeps s₀ s) : Keeps s₀ (discardWalk s d) := by
  unfold discardWalk
  extract_lets s1
  have h1 : Keeps s₀ s1 := readBuckets_keeps h
  refine Keeps.foldl ?_ h1
  intro s2 x1 h2
  split
  · exact cacheDrop_keeps (setRule_keeps h2)
  · split
    · exact cacheDrop_keeps (setRule_keeps h2)
    · exact h2

theorem execReclaimWalkDone_keeps {s₀ s : State} (h : Keeps s₀ s) : ResKeeps s₀ (execReclaimWalkDone s) := by
  unfold execReclaimWalkDone
  refine live_keeps h ?_
  split
  · exact ResKeeps.next h
  · next disc _ =>
    extract_lets s1
    have h1 : Keeps s₀ s1 := by
      unfold s1
      split
      · exact discardWalk_keeps h
      · exact reclaim_keeps h
    refine ResKeeps.next (setVer_keepsOk (stir_keeps h1) fun ok => ?_)
    obtain ⟨hcur, hstage, hd, hwait, hdis⟩ := ok
    refine ⟨hcur, hstage, hd, hwait, fun hne => hdis fun h0 => hne ?_⟩
    unfold setVer
    dsimp only
    split
    · rfl
    · exact h0

/-! ### Machine.TableCmd -/

theorem setBlock_keeps {s₀ s : State} {n : Nat} {b : TblBlock} (h : Keeps s₀ s) : Keeps s₀ (setBlock s n b) := by
  unfold setBlock
  exact Keeps.update h rfl rfl

theorem tableEvent_keeps {s₀ s : State} {n : Nat} (h : Keeps s₀ s) : Keeps s₀ (tableEvent s n) := by
  unfold tableEvent
  split
  · exact setEvent_keeps (setBlock_keeps h)
  · exact h

theorem blockDone_keeps {s₀ s : State} {n : Nat} {b : TblBlock} {st : Nat} (h : Keeps s₀ s) :
    Keeps s₀ (blockDone s n b st) := by
  unfold blockDone
  exact stir_keeps (tableEvent_keeps (setBlock_keeps h))

theorem tableGo_keeps {s₀ s : State} {n : Nat} (h : Keeps s₀ s) : PairKeeps s₀ (tableGo s n) := by
  unfold tableGo
  extract_lets b1 b2
  split
  · exact PairKeeps.mk h
  · split
    · exact ackOk_keeps (blockDone_keeps h)
    · have h1 : PairKeeps s₀ (if (decide (b2.op = 5) && decide (b2.table = 0)) = true then maintStart s 1 (obj s 18464 1) else (s, none)) :=
        by
        split
        · exact maintStart_keeps h
        · exact PairKeeps.mk h
      split
      · next s1 s2 x1 e3 =>
          have h2 := PairKeeps.of_eq h1 e3
          exact PairKeeps.mk (tableEvent_keeps (setBlock_keeps h2))
      · next s1 s2 e3 =>
          have h2 := PairKeeps.of_eq h1 e3
          extract_lets s3 src1
          have h3 : Keeps s₀ s3 := setBlock_keeps h2
          exact ackOk_keeps (Keeps.update h3 rfl rfl)

theorem endCmd_keeps {s₀ s : State} {n : Nat} {b : TblBlock} {st : Nat} (h : Keeps s₀ s) : Keeps s₀ (endCmd s n b st) := by
  unfold endCmd
  exact blockDone_keeps (Keeps.update h rfl rfl)

theorem closeOlder_keeps {s₀ s : State} {key : BitVec 64} {v : BitVec 16} (h : Keeps s₀ s) : Keeps s₀ (closeOlder s key v) := by
  unfold closeOlder
  split
  · exact cacheDrop_keeps (setRule_keeps h)
  · exact h

/-- An INSERT keeps the invariants, where it is not use that R106 calls unsupported. -/
theorem execInsert_keeps {s₀ s : State} (h : Keeps s₀ s) (hok : ¬Unsupported s .insert 106) : ResKeeps s₀ (execInsert s) := by
  unfold execInsert live
  split
  case isFalse => exact ResKeeps.next h
  next hon =>
  split
  · exact ResKeeps.next h
  · next n b hcmd =>
    split
    · next htab =>
      extract_lets k lp e
      split
      · next hno =>
        refine absurd (.inl ⟨rfl, rfl, hon, n, b, hcmd, htab, ?_⟩) hok
        rw [BitVec.extractLsb'_toNat, Nat.shiftRight_eq_div_pow]
        have hnone : lpDefined s lp = false := by simpa using hno
        exact hnone
      · split
        · exact ResKeeps.next (endCmd_keeps (setEpSlot_keeps h))
        · have h1 : OptKeeps s₀ (epInsert s e) := epInsert_keeps h
          split
          · next s1 s2 e3 =>
              have h2 := OptKeeps.of_eq h1 e3
              exact ResKeeps.next (endCmd_keeps h2)
          · exact ResKeeps.next (endCmd_keeps h)
    · split
      · exact ResKeeps.next (endCmd_keeps h)
      · extract_lets s1 es1
        have h1 : Keeps s₀ s1 := readKey_keeps h
        split
        · exact ResKeeps.next (endCmd_keeps h1)
        · split
          · exact ResKeeps.next (endCmd_keeps h1)
          · have h2 : OptKeeps s₀ (ruleInsert s1 { key := b.key, first := b.target, valid := true, result := b.result }) :=
              ruleInsert_keeps h1
            split
            · next s2 s3 e5 =>
                have h3 := OptKeeps.of_eq h2 e5
                exact ResKeeps.next (endCmd_keeps (closeOlder_keeps h3))
            · exact ResKeeps.next (endCmd_keeps (bump_keeps h1))

theorem execDeleteEntry_keeps {s₀ s : State} (h : Keeps s₀ s) : ResKeeps s₀ (execDeleteEntry s) := by
  unfold execDeleteEntry
  refine live_keeps h ?_
  split
  · exact ResKeeps.next h
  · split
    · split
      · exact ResKeeps.next (endCmd_keeps (setEpSlot_keeps h))
      · exact ResKeeps.next (endCmd_keeps h)
    · split
      · exact ResKeeps.next (endCmd_keeps h)
      · extract_lets s1
        have h1 : Keeps s₀ s1 := readKey_keeps h
        split
        · exact ResKeeps.next (endCmd_keeps h1)
        · extract_lets e'1
          exact ResKeeps.next (endCmd_keeps (cacheDrop_keeps (setRule_keeps h1)))

theorem execSearch_keeps {s₀ s : State} (h : Keeps s₀ s) : ResKeeps s₀ (execSearch s) := by
  unfold execSearch
  refine live_keeps h ?_
  split
  · exact ResKeeps.next h
  · split
    · split
      · exact ResKeeps.next (endCmd_keeps h)
      · exact ResKeeps.next (endCmd_keeps h)
    · extract_lets s1
      have h1 : Keeps s₀ s1 := readKey_keeps h
      split
      · exact ResKeeps.next (endCmd_keeps h1)
      · exact ResKeeps.next (endCmd_keeps h1)

theorem execNextSlot_keeps {s₀ s : State} (h : Keeps s₀ s) : ResKeeps s₀ (execNextSlot s) := by
  unfold execNextSlot
  refine live_keeps h ?_
  split
  · exact ResKeeps.next h
  · split
    · split
      · exact ResKeeps.next (endCmd_keeps h)
      · exact ResKeeps.next (endCmd_keeps h)
    · extract_lets waits1 passed1
      split
      · split
        · exact ResKeeps.next h
        · refine ResKeeps.next ?_
          refine endCmd_keeps ?_
          dsimp only [passed1]
          exact readBuckets_keeps h
      · split
        · exact ResKeeps.next h
        · refine ResKeeps.next ?_
          refine endCmd_keeps ?_
          dsimp only [passed1]
          exact readBuckets_keeps h

theorem execFlushPort_keeps {s₀ s : State} {raced : List Nat} (h : Keeps s₀ s) : ResKeeps s₀ (execFlushPort raced s) := by
  unfold execFlushPort
  refine live_keeps h ?_
  split
  · exact ResKeeps.next h
  · split
    · exact ResKeeps.next (endCmd_keeps h)
    · extract_lets hit1 left1 freed1 failed1 s1
      have h1 : Keeps s₀ s1 := Keeps.foldl (fun s2 x4 h1 => setEpSlot_keeps h1) h
      exact ResKeeps.next (endCmd_keeps (bumpBy_keeps h1))

theorem execAgeSweep_keeps {s₀ s : State} (h : Keeps s₀ s) : ResKeeps s₀ (execAgeSweep s) := by
  unfold execAgeSweep
  refine live_keeps h ?_
  split
  · exact ResKeeps.next h
  · split
    · exact ResKeeps.next (endCmd_keeps h)
    · split
      · exact ResKeeps.next (endCmd_keeps h)
      · exact ResKeeps.next (endCmd_keeps (Keeps.update h rfl rfl))

theorem execLearnRequest_keeps {s₀ s : State} (h : Keeps s₀ s) : ResKeeps s₀ (execLearnRequest s) := by
  unfold execLearnRequest
  refine live_keeps h ?_
  split
  · exact ResKeeps.next h
  · next x1 x2 x3 e1 =>
      extract_lets src1 s1 k1
      have h1 : Keeps s₀ s1 := Keeps.update h rfl rfl
      split
      · extract_lets e3 e'1
        split
        · exact ResKeeps.next h1
        · exact ResKeeps.next (bump_keeps (setEpSlot_keeps h1))
      · have h2 : OptKeeps s₀ (epInsert s1 (epEntry true false k1 x2.lp)) := epInsert_keeps h1
        split
        · next s2 s3 e3 =>
            have h3 := OptKeeps.of_eq h2 e3
            exact ResKeeps.next h3
        · exact ResKeeps.next (bump_keeps (bumpTen_keeps h1))

theorem execAgeSweepTimer_keeps {s₀ s : State} (h : Keeps s₀ s) : ResKeeps s₀ (execAgeSweepTimer s) := by
  unfold execAgeSweepTimer
  refine live_keeps h ?_
  split
  · exact ResKeeps.next h
  · extract_lets s1 next1 src1
    have h1 : Keeps s₀ s1 := advanceTo_keeps h
    exact ResKeeps.next (Keeps.update h1 rfl rfl)

theorem sweepWrite_keeps {s₀ s : State} {b : Nat} {w : BitVec 256} (h : Keeps s₀ s) : Keeps s₀ (sweepWrite s b w) := by
  unfold sweepWrite
  extract_lets s1 src1
  have h1 : Keeps s₀ s1 := by
    unfold s1
    split
    · exact bumpBy_keeps (setEpWord_keeps h)
    · exact bump_keeps h
  exact Keeps.update h1 rfl rfl

theorem execAgeSweepBucket_keeps {s₀ s : State} {split : Bool} (h : Keeps s₀ s) : ResKeeps s₀ (execAgeSweepBucket split s) := by
  unfold execAgeSweepBucket
  refine live_keeps h ?_
  split
  · exact ResKeeps.next h
  · split
    · exact ResKeeps.next (sweepWrite_keeps h)
    · split
      · exact ResKeeps.next (Keeps.update h rfl rfl)
      · exact ResKeeps.next (sweepWrite_keeps h)

theorem writeShadowCtl_keeps {s₀ s : State} {v : Nat} (h : Keeps s₀ s) : PairKeeps s₀ (writeShadowCtl s v) := by
  unfold writeShadowCtl
  split
  · exact ackOk_keeps (stir_keeps (putObj_keeps (Keeps.update h rfl rfl)))
  · have h1 : PairKeeps s₀ (maintStart s 0 v) := maintStart_keeps h
    split
    · next s1 s2 x1 e2 =>
        have h2 := PairKeeps.of_eq h1 e2
        exact PairKeeps.mk h2
    · next s1 s2 e2 =>
        have h2 := PairKeeps.of_eq h1 e2
        extract_lets src1 src2 s3
        have h3 : Keeps s₀ s3 := by
          unfold s3
          split
          · exact Keeps.update h2 rfl rfl
          · exact h2
        exact ackOk_keeps (putObj_keeps h3)

theorem readShadowed_keeps {s₀ s : State} {rule : Bool} {b : Nat} (h : Keeps s₀ s) : Keeps s₀ (readShadowed s rule b) := by
  unfold readShadowed
  split
  · exact readBuckets_keeps h
  · exact h

theorem execShadowBucket_keeps {s₀ s : State} (h : Keeps s₀ s) : ResKeeps s₀ (execShadowBucket s) := by
  unfold execShadowBucket
  refine live_keeps h ?_
  split
  · exact ResKeeps.next h
  · next e1 =>
      extract_lets s1 rule1 sh1 b1 skip1 s2 diff1 last1 both1 sh'1 s3 src1
      have h1 : Keeps s₀ s1 := advanceTo_keeps h
      have h2 : Keeps s₀ s2 := by
        unfold s2
        split
        · exact h1
        · exact readShadowed_keeps h1
      have h3 : Keeps s₀ s3 := by
        unfold s3
        split
        · exact putObj_keeps h2
        · exact h2
      split
      · exact ResKeeps.next h1
      · exact ResKeeps.next (Keeps.update h3 rfl rfl)

theorem repair_keeps {s₀ s : State} {rule : Bool} {b : Nat} (h : Keeps s₀ s) : Keeps s₀ (repair s rule b) := by
  unfold repair
  split
  · extract_lets keys1 s1 keys2
    have h1 : Keeps s₀ s1 := writeCopies_keeps h
    exact Keeps.foldl (fun s2 x1 h2 => cacheDrop_keeps h2) h1
  · exact setEpWord_keeps h

theorem execShadowRecheck_keeps {s₀ s : State} {raced : Bool} (h : Keeps s₀ s) : ResKeeps s₀ (execShadowRecheck raced s) := by
  unfold execShadowRecheck
  refine live_keeps h ?_
  split
  · exact ResKeeps.next h
  · extract_lets s1 src1 src2 s2 s3 m1 s4
    have h1 : Keeps s₀ s1 := advanceTo_keeps h
    have h2 : Keeps s₀ s2 := Keeps.update h1 rfl rfl
    have h3 : Keeps s₀ s3 := by
      unfold s3
      split
      · exact h2
      · exact readShadowed_keeps h2
    have h4 : Keeps s₀ s4 := cairn_keeps (bump_keeps h3)
    split
    · exact ResKeeps.next h1
    · split
      · exact ResKeeps.next h3
      · split
        · exact ResKeeps.next h4
        · split
          · exact ResKeeps.next (bump_keeps h4)
          · exact ResKeeps.next (bump_keeps (repair_keeps h4))

/-! ### Machine.Xlat -/

theorem mapRead_keeps {s₀ s : State} {g : Nat} (h : Keeps s₀ s) : PairKeeps s₀ (mapRead s g) := by
  unfold mapRead
  split
  · extract_lets at1 fail1
    split
    · exact PairKeeps.mk h
    · split
      · dsimp only [fail1]
        exact PairKeeps.mk (cairn_keeps (bump_keeps h))
      · split
        · exact PairKeeps.mk (bump_keeps (hbmWrite_keeps h))
        · dsimp only [fail1]
          exact PairKeeps.mk (cairn_keeps (bump_keeps h))

theorem txlInstall_keeps {s₀ s : State} {g : Nat} {e : BitVec 128} (h : Keeps s₀ s) : Keeps s₀ (txlInstall s g e) := by
  unfold txlInstall
  extract_lets rest1 src1
  exact Keeps.update h rfl rfl

theorem readBefore_keeps {s₀ s : State} {g : Nat} {m : Nat × BitVec 4} (h : Keeps s₀ s) : Keeps s₀ (readBefore g s m) := by
  unfold readBefore
  have h1 : PairKeeps s₀ (mapRead s g) := mapRead_keeps h
  split
  · next s1 s2 x1 e1 =>
      have h2 := PairKeeps.of_eq h1 e1
      extract_lets fix1
      exact modRope_keeps h2 (fun x2 => rfl)

theorem cacheChange_keeps {s₀ s : State} {g : Nat} {new : BitVec 128} (h : Keeps s₀ s) : Keeps s₀ (cacheChange s g new) := by
  unfold cacheChange
  extract_lets l1 src1
  split
  · exact Keeps.update h rfl rfl
  · exact h

theorem mapPut_keeps {s₀ s : State} {g : Nat} {e : BitVec 128} (h : Keeps s₀ s) : Keeps s₀ (mapPut s g e) := by
  unfold mapPut
  extract_lets s1
  have h1 : Keeps s₀ s1 := Keeps.foldl (fun s2 x1 h1 => readBefore_keeps h1) h
  exact cacheChange_keeps (writeCopies_keeps h1)

theorem txlFault_keeps {s₀ s : State} {tid : BitVec 12} {code win cached enc : Nat} (h : Keeps s₀ s) :
    PairKeeps s₀ (txlFault s tid code win cached enc) := by
  unfold txlFault
  exact PairKeeps.mk (bumpTen_keeps h)

theorem txlEntry_keeps {s₀ s : State} {m : TxlMiss} {e : BitVec 128} {cached : Nat} (h : Keeps s₀ s) :
    PairKeeps s₀ (txlEntry s m e cached) := by
  unfold txlEntry
  extract_lets v1 enc1
  split
  · exact txlFault_keeps h
  · split
    · exact txlFault_keeps h
    · split
      · exact txlFault_keeps h
      · split
        · exact txlFault_keeps h
        · exact PairKeeps.mk h

theorem txlIssue_keeps {s₀ s : State} {a : BitVec 64} {tid : BitVec 12} {wr : Bool} (h : Keeps s₀ s) :
    PairKeeps s₀ (txlIssue s a tid wr) := by
  unfold txlIssue
  extract_lets wrap1 lp1
  split
  · split
    · dsimp only [wrap1]
      exact PairKeeps.mk (PairKeeps.fst (txlFault_keeps h))
    · exact PairKeeps.mk h
  · split
    · dsimp only [wrap1]
      exact PairKeeps.mk (PairKeeps.fst (txlFault_keeps h))
    · split
      · dsimp only [wrap1]
        exact PairKeeps.mk (PairKeeps.fst (txlFault_keeps h))
      · split
        · dsimp only [wrap1]
          exact PairKeeps.mk (PairKeeps.fst (txlFault_keeps h))
        · split
          · dsimp only [wrap1]
            exact PairKeeps.mk (PairKeeps.fst (txlFault_keeps h))
          · extract_lets m1 g1
            split
            · dsimp only [wrap1]
              exact PairKeeps.mk (PairKeeps.fst (txlEntry_keeps (txlInstall_keeps h)))
            · exact PairKeeps.mk h

theorem txlMissDone_keeps {s₀ s : State} {m : TxlMiss} (h : Keeps s₀ s) : PairKeeps s₀ (txlMissDone s m) := by
  unfold txlMissDone
  split
  · exact txlEntry_keeps h
  · exact PairKeeps.mk h
  · have h1 : PairKeeps s₀ (mapRead s (m.off / 2 ^ 21)) := mapRead_keeps h
    split
    · next s1 s2 e2 =>
        have h2 := PairKeeps.of_eq h1 e2
        exact PairKeeps.mk h2
    · next s1 s2 x2 e2 =>
        have h2 := PairKeeps.of_eq h1 e2
        exact txlEntry_keeps (txlInstall_keeps h2)

theorem mapGo_keeps {s₀ s : State} (h : Keeps s₀ s) : PairKeeps s₀ (mapGo s) := by
  unfold mapGo
  split
  · exact PairKeeps.mk h
  · refine ackOk_keeps ?_
    extract_lets s1 src1
    have h1 : Keeps s₀ s1 := putObj_keeps h
    exact Keeps.update h1 rfl rfl

theorem mapEnd_keeps {s₀ s : State} {status : Nat} (h : Keeps s₀ s) : Keeps s₀ (mapEnd s status) := by
  unfold mapEnd
  extract_lets s1 src1
  have h1 : Keeps s₀ s1 := putObj_keeps (stir_keeps h)
  exact Keeps.update h1 rfl rfl

theorem execMapWrite_keeps {s₀ s : State} (h : Keeps s₀ s) : ResKeeps s₀ (execMapWrite s) := by
  unfold execMapWrite
  refine live_keeps h ?_
  split
  · extract_lets g1
    split
    · exact ResKeeps.next (mapEnd_keeps h)
    · exact ResKeeps.next (mapEnd_keeps (mapPut_keeps h))
  · exact ResKeeps.next h

theorem execMapRead_keeps {s₀ s : State} (h : Keeps s₀ s) : ResKeeps s₀ (execMapRead s) := by
  unfold execMapRead
  refine live_keeps h ?_
  split
  · extract_lets g1 a1
    split
    · exact ResKeeps.next (mapEnd_keeps h)
    · split
      · exact ResKeeps.next h
      · split
        · exact ResKeeps.next (mapEnd_keeps h)
        · exact ResKeeps.next (mapEnd_keeps (putObj_keeps (putObj_keeps h)))
  · exact ResKeeps.next h

theorem scratchWrite_keeps {s₀ s : State} {c a : Nat} {bs : List Byte} (h : Keeps s₀ s) : Keeps s₀ (scratchWrite s c a bs) :=
  modCluster_keepsWf h fun ok => ⟨cellsWf_wrN _ _ (ok.2.1 c).1, (ok.2.1 c).2⟩

theorem sysDone_keeps {s₀ s : State} {c : Nat} {w : SysWrite} (h : Keeps s₀ s) : Keeps s₀ (sysDone s c w) := by
  unfold sysDone
  extract_lets s1
  have h1 : Keeps s₀ s1 := scratchWrite_keeps h
  split
  · exact setEvent_keeps h1
  · exact h1

theorem collided_keeps {s₀ s : State} {c : Nat} (h : Keeps s₀ s) : Keeps s₀ (collided s c) := by
  unfold collided
  exact modCluster_keeps (bump_keeps h) (fun x1 => rfl) (fun x1 => rfl)

theorem sysWrite_keeps {s₀ s : State} {c : Nat} {w : SysWrite} (h : Keeps s₀ s) : Keeps s₀ (sysWrite s c w) := by
  unfold sysWrite
  extract_lets queue1
  split
  · next e1 =>
      dsimp only [queue1]
      exact modCluster_keeps h (fun x1 => rfl) (fun x1 => rfl)
  · next e1 =>
      split
      · dsimp only [queue1]
        exact modCluster_keeps (collided_keeps h) (fun x1 => rfl) (fun x1 => rfl)
      · exact sysDone_keeps h

theorem execSystemPortRetry_keeps {s₀ s : State} {c : BitVec 4} (h : Keeps s₀ s) : ResKeeps s₀ (execSystemPortRetry c s) := by
  unfold execSystemPortRetry
  refine live_keeps h ?_
  extract_lets c1 s1
  have h1 : Keeps s₀ s1 := busyCore_keeps (advanceTo_keeps h)
  split
  · exact ResKeeps.next h
  · split
    · exact ResKeeps.next h
    · split
      · exact ResKeeps.next (collided_keeps h1)
      · exact ResKeeps.next (sysDone_keeps (modCluster_keeps h1 (fun x4 => rfl) (fun x4 => rfl)))

theorem homeCells_range {s : State} {e : Host.Cell} (he : e ∈ homeCells s) : 0x20000 ≤ e.1 ∧ e.1 < 0x28000 := by
  obtain ⟨t, ht, he⟩ := List.mem_flatMap.mp (List.mem_filter.mp he).1
  obtain ⟨x, hx, rfl⟩ := List.mem_map.mp he
  have hx := List.snd_lt_of_mem_zipIdx hx
  rw [length_toLE] at hx
  have ht := List.mem_range.mp ht
  dsimp only
  omega

theorem homeWrite_wf {s : State} {m : List Host.Cell} (h : cellsWf m = true) :
    cellsWf (m.filter (fun e => decide (e.1 < 0x20000)) ++ homeCells s ++ m.filter (fun e => decide (0x28000 ≤ e.1))) = true := by
  have hwf := homeCells_wf s
  have hbelow := cellsWf_filter (fun e => decide (e.1 < 0x20000)) h
  have habove := cellsWf_filter (fun e => decide (0x28000 ≤ e.1)) h
  unfold cellsWf at hwf hbelow habove ⊢
  rw [Bool.and_eq_true] at hwf hbelow habove ⊢
  refine ⟨keysRise_append (keysRise_append hbelow.1 hwf.1 ?_) habove.1 ?_, ?_⟩
  · intro e he f hf
    have hlt : e.1 < 0x20000 := by simpa using (List.mem_filter.mp he).2
    exact hlt.trans_le (homeCells_range hf).1
  · intro e he f hf
    have hle : 0x28000 ≤ f.1 := by simpa using (List.mem_filter.mp hf).2
    rcases List.mem_append.mp he with he | he
    · have hlt : e.1 < 0x20000 := by simpa using (List.mem_filter.mp he).2
      omega
    · exact (homeCells_range he).2.trans_le hle
  · rw [List.all_append, List.all_append, hbelow.2, hwf.2, habove.2]
    rfl

theorem homeWrite_keeps {s₀ s : State} {c : Nat} (h : Keeps s₀ s) : Keeps s₀ (homeWrite s c) :=
  modCluster_keepsWf h fun ok => ⟨homeWrite_wf (ok.2.1 c).1, (ok.2.1 c).2⟩

theorem setPitchEntry_keeps {s₀ s : State} {c v : Nat} (h : Keeps s₀ s) : Keeps s₀ (setPitchEntry s c v) := by
  unfold setPitchEntry
  extract_lets was1 s1
  have h1 : Keeps s₀ s1 := storeLater_keeps (putObj_keeps h)
  split
  · exact homeWrite_keeps h1
  · exact h1

theorem homeDirty_keeps {s₀ s : State} {tid : Nat} (h : Keeps s₀ s) : Keeps s₀ (homeDirty s tid) := by
  unfold homeDirty
  extract_lets cs1 src1
  exact Keeps.update h rfl rfl

theorem execHomeTableUpdate_keeps {s₀ s : State} {c : BitVec 4} {tid : BitVec 12} (h : Keeps s₀ s) :
    ResKeeps s₀ (execHomeTableUpdate c tid s) := by
  unfold execHomeTableUpdate
  refine live_keeps h ?_
  extract_lets c1 t1 src1 s1
  have h1 : Keeps s₀ s1 := stir_keeps (Keeps.update h rfl rfl)
  split
  · refine ResKeeps.next ?_
    split
    · exact sysWrite_keeps h1
    · exact h1
  · exact ResKeeps.next h

theorem setImage_keeps {s₀ s : State} {k : Nat} {x : Image} (h : Keeps s₀ s) : Keeps s₀ (setImage s k x) := by
  unfold setImage
  exact Keeps.update h rfl rfl

theorem keyLoad_keeps {s₀ s : State} (h : Keeps s₀ s) : PairKeeps s₀ (keyLoad s) := by
  unfold keyLoad
  split
  · exact PairKeeps.mk h
  · extract_lets m1 s1 src1
    have h1 : Keeps s₀ s1 := setImage_keeps h
    split
    · exact ackOk_keeps (putObj_keeps h1)
    · exact ackOk_keeps (putObj_keeps (Keeps.update h1 rfl rfl))

theorem keyErase_keeps {s₀ s : State} (h : Keeps s₀ s) : Keeps s₀ (keyErase s) := by
  unfold keyErase
  exact Keeps.update h rfl rfl

/-! ### Machine.Slots -/

theorem setSlot_keeps {s₀ s : State} {c n : Nat} {x : Slot} (h : Keeps s₀ s) : Keeps s₀ (setSlot s c n x) := by
  unfold setSlot
  exact modCluster_keeps h (fun x1 => rfl) (fun x1 => rfl)

theorem traceDrain_keeps {s₀ s : State} {c n : Nat} (h : Keeps s₀ s) : Keeps s₀ (traceDrain s c n) := by
  induction n generalizing s with
  | zero => exact h
  | succ n ih =>
    unfold traceDrain
    extract_lets i1 a1
    split
    · exact h
    · split
      · extract_lets s1
        have h1 : Keeps s₀ s1 := putObj_keeps (hbmWrite_keeps h)
        exact ih (modCluster_keeps h1 (fun x4 => rfl) (fun x4 => rfl))
      · exact h

theorem trace_keeps {s₀ s : State} {c kind n : Nat} {x : Slot} {rp reason : Nat} (h : Keeps s₀ s) :
    Keeps s₀ (trace s c kind n x rp reason) := by
  unfold trace
  split
  · exact h
  · extract_lets s1 cl1 b1 s2
    have h1 : Keeps s₀ s1 := traceDrain_keeps h
    have h2 : Keeps s₀ s2 := modCluster_keeps h1 (fun x1 => rfl) (fun x1 => rfl)
    split
    · exact bump_keeps (modCluster_keeps h1 (fun x1 => rfl) (fun x1 => rfl))
    · exact traceDrain_keeps h2

theorem readySlot_keeps {s₀ s : State} {c n reason : Nat} (h : Keeps s₀ s) : Keeps s₀ (readySlot s c n reason) := by
  unfold readySlot
  extract_lets src1 x1 s1 s2
  have h1 : Keeps s₀ s1 := setSlot_keeps h
  have h2 : Keeps s₀ s2 := modCluster_keeps h1 (fun x2 => rfl) (fun x2 => rfl)
  exact trace_keeps h2

theorem unready_keeps {s₀ s : State} {c n : Nat} (h : Keeps s₀ s) : Keeps s₀ (unready s c n) := by
  unfold unready
  exact modCluster_keeps h (fun x1 => rfl) (fun x1 => rfl)

theorem priReport_keeps {s₀ s : State} {r v : Nat} (h : Keeps s₀ s) : Keeps s₀ (priReport s r v) := by
  unfold priReport
  extract_lets c1 e1
  split
  · exact h
  · extract_lets x3 x4 s1 s2 s3
    have h1 : Keeps s₀ s1 := setSlot_keeps h
    have h2 : Keeps s₀ s2 := unready_keeps h1
    have h3 : Keeps s₀ s3 := by
      unfold s3
      split
      · exact modCluster_keeps h2 (fun x5 => rfl) (fun x5 => rfl)
      · exact h1
    split
    · exact h
    · exact trace_keeps h3

theorem signalSlot_keeps {s₀ s : State} {c n k : Nat} (h : Keeps s₀ s) : Keeps s₀ (signalSlot s c n k) := by
  unfold signalSlot
  extract_lets x1 s1 x2 s2
  have h1 : Keeps s₀ s1 := by
    unfold s1
    split
    · exact bump_keeps h
    · exact h
  have h2 : Keeps s₀ s2 := setSlot_keeps h1
  split
  · exact readySlot_keeps h2
  · split
    · exact bumpBy_keeps (setSlot_keeps h2)
    · exact h2

theorem reportDone_keeps {s₀ s : State} {c n : Nat} {x : Slot} {kind result : Nat} (h : Keeps s₀ s) :
    Keeps s₀ (reportDone s c n x kind result) := by
  unfold reportDone
  extract_lets s1
  have h1 : Keeps s₀ s1 := by
    unfold s1
    split
    · split
      · exact bump_keeps h
      · exact signalSlot_keeps h
    · exact h
  split
  · exact h1
  · exact sysWrite_keeps h1

theorem setLock_keeps {s₀ s : State} {c n : Nat} {x : Lock} (h : Keeps s₀ s) : Keeps s₀ (setLock s c n x) := by
  unfold setLock
  exact modCluster_keeps h (fun x1 => rfl) (fun x1 => rfl)

theorem recompute_keeps {s₀ s : State} {r : Nat} {raise : Bool} (h : Keeps s₀ s) : Keeps s₀ (recompute s r raise) := by
  unfold recompute
  extract_lets c1 old1 w1 s1 new1 s2 s3
  have h1 : Keeps s₀ s1 := modCluster_keeps h (fun x1 => rfl) (fun x1 => rfl)
  have h2 : Keeps s₀ s2 := by
    unfold s2
    split
    · exact bump_keeps h1
    · exact h1
  have h3 : Keeps s₀ s3 := priReport_keeps h2
  split
  · exact h1
  · split
    · split
      · exact modCluster_keeps h3 (fun x6 => rfl) (fun x6 => rfl)
      · exact h3
    · exact h3

theorem leaveLock_keeps {s₀ s : State} {c n : Nat} {w : BitVec 11} (h : Keeps s₀ s) : Keeps s₀ (leaveLock s c n w) := by
  unfold leaveLock
  extract_lets l1 s1
  have h1 : Keeps s₀ s1 := setLock_keeps h
  split
  · exact recompute_keeps h1
  · exact h1

theorem rankMoved_keeps {s₀ s : State} {r : Nat} (h : Keeps s₀ s) : Keeps s₀ (rankMoved s r) := by
  unfold rankMoved
  split
  · split
    · exact recompute_keeps h
    · exact h
  · exact h

theorem endSlot_keeps {s₀ s : State} {c n kind result : Nat} (h : Keeps s₀ s) : Keeps s₀ (endSlot s c n kind result) := by
  unfold endSlot
  extract_lets x1 s1 s2 s3
  have h1 : Keeps s₀ s1 := setSlot_keeps (unready_keeps h)
  have h2 : Keeps s₀ s2 := by
    unfold s2
    split
    · exact modRope_keeps h1 (fun x4 => rfl)
    · exact h1
  have h3 : Keeps s₀ s3 := by
    unfold s3
    split
    · exact trace_keeps (bump_keeps h2)
    · exact h2
  exact reportDone_keeps h3

/-! ### Machine.Parking -/

theorem kWake_keeps {s₀ s : State} {r : Nat} {p : KPend} (h : Keeps s₀ s) : Keeps s₀ (kWake s r p) := by
  unfold kWake
  extract_lets s1
  have h1 : Keeps s₀ s1 := by
    unfold s1
    split
    · exact makeReady_keeps h
    · exact h
  split
  · refine Keeps.foldl ?_ h1
    intro s2 x1 h2
    split
    · exact makeReady_keeps h2
    · exact h2
  · exact h1

theorem kWrite_keeps {s₀ s : State} {r : Nat} {p : KPend} (h : Keeps s₀ s) : Keeps s₀ (kWrite s r p) := by
  unfold kWrite
  have h1 : PairKeeps s₀
    (match p.miss with
    | some m => txlMissDone s m
    | none => (s, p.value)) := by
    split
    · exact txlMissDone_keeps h
    · exact PairKeeps.mk h
  split
  · next s1 s2 x1 e1 =>
      have h2 := PairKeeps.of_eq h1 e1
      exact kWake_keeps (busyCore_keeps (modRope_keeps h2 (fun x2 => rfl)))

theorem kSettle_keeps {s₀ s : State} {r : Nat} (h : Keeps s₀ s) : Keeps s₀ (kSettle s r) := by
  unfold kSettle
  exact Keeps.foldl (fun s1 x1 h1 => kWrite_keeps h1) h

theorem serviceChange_keeps {s₀ s : State} (h : Keeps s₀ s) : Keeps s₀ (serviceChange s) := by
  unfold serviceChange
  extract_lets was1 s1
  have h1 : Keeps s₀ s1 := recheckService_keeps h
  split
  · exact enterPorts_keeps h1
  · exact h1

theorem discardQueued_keeps {s₀ s : State} (h : Keeps s₀ s) : Keeps s₀ (discardQueued s) := by
  unfold discardQueued
  extract_lets ks1 src1 s1
  have h1 : Keeps s₀ s1 := Keeps.update h rfl rfl
  exact Keeps.foldl (fun s2 x1 h2 => discardPitch_keeps h2) (Keeps.foldl (fun s2 x1 h2 => busyCore_keeps h2) h1)

theorem fenceValue_keeps {s₀ s : State} {c v : Nat} (h : Keeps s₀ s) : Keeps s₀ (fenceValue s c v) := by
  unfold fenceValue
  extract_lets s1
  have h1 : Keeps s₀ s1 := serviceChange_keeps (putObj_keeps h)
  split
  · exact discardQueued_keeps h1
  · exact h1

theorem fenceOne_keeps {s₀ s : State} {k : Nat} (h : Keeps s₀ s) : Keeps s₀ (fenceOne s k) := by
  unfold fenceOne
  extract_lets c1 v1
  split
  · exact h
  · exact fenceValue_keeps h

theorem lastingFault_keeps {s₀ s : State} {k : Nat} {p : Pitch} {c : Nat} {first : Nat × FaultRec} {rec2 : FaultRec}
    (h : Keeps s₀ s) :
    Keeps s₀ (lastingFault s k p c first rec2) := by
  unfold lastingFault
  extract_lets s1 fc1 s2
  have h1 : Keeps s₀ s1 := cairn_keeps h
  have h2 : Keeps s₀ s2 := failPitch_keeps (setPitch_keeps h1)
  split
  · exact fenceOne_keeps (bump_keeps h2)
  · split
    · exact h2
    · exact bump_keeps h2

theorem moveTo_keeps {s₀ s : State} {k d : Nat} (h : Keeps s₀ s) : Keeps s₀ (moveTo s k d) := by
  unfold moveTo
  exact setShed_keeps h

theorem passMoved_keeps {s₀ s : State} {n : Nat} (h : Keeps s₀ s) : Keeps s₀ (passMoved s n) := by
  induction n generalizing s with
  | zero => exact h
  | succ n ih =>
    unfold passMoved
    split
    · exact h
    · extract_lets src1 s1
      have h1 : Keeps s₀ s1 := setShed_keeps h
      split
      · exact ih (moveTo_keeps (setPitch_keeps h1))
      · exact ih (lastingFault_keeps h1)

theorem passAll_keeps {s₀ s : State} (h : Keeps s₀ s) : Keeps s₀ (passAll s) := by
  unfold passAll
  exact passMoved_keeps h

theorem setFence_keeps {s₀ s : State} {c v : Nat} (h : Keeps s₀ s) : Keeps s₀ (setFence s c v) := by
  unfold setFence
  exact passAll_keeps (fenceValue_keeps h)

theorem pitchFault_keeps {s₀ s : State} {k r : Nat} {f : FaultRec} (h : Keeps s₀ s) : Keeps s₀ (pitchFault s k r f) := by
  unfold pitchFault
  split
  · exact h
  · extract_lets c1
    split
    · exact failPitch_keeps (bump_keeps h)
    · split
      · extract_lets s1
        have h1 : Keeps s₀ s1 := setPitch_keeps h
        exact moveTo_keeps h1
      · exact passAll_keeps (lastingFault_keeps h)

theorem parkAs_keeps {s₀ s : State} {r code : Nat} {addr : BitVec 64} (h : Keeps s₀ s) :
    PairKeeps s₀ (parkAs s r code addr) := by
  unfold parkAs
  extract_lets s1 x1 p1 f1 s2 s3 s4 s5
  have h1 : Keeps s₀ s1 := kSettle_keeps (modRope_keeps h (fun x2 => rfl))
  have h2 : Keeps s₀ s2 := giveUp_keeps (setRope_keeps h1 rfl)
  have h3 : Keeps s₀ s3 := by
    unfold s3
    split
    · exact setSlot_keeps h2
    · exact h2
  have h4 : Keeps s₀ s4 := by
    unfold s4
    split
    · exact modCore_keeps h3
    · exact h3
  have h5 : Keeps s₀ s5 := cairn_keeps h4
  refine PairKeeps.mk ?_
  split
  · exact pitchFault_keeps h5
  · exact h5

theorem startLead_keeps {s₀ s : State} {c n : Nat} {pending : BitVec 64} (h : Keeps s₀ s) :
    Keeps s₀ (startLead s c n pending) := by
  unfold startLead
  extract_lets r1 x1 s1
  have h1 : Keeps s₀ s1 := setRope_keeps h rfl
  exact makeReady_keeps (modCluster_keeps h1 (fun x2 => rfl) (fun x2 => rfl))

theorem vacate_keeps {s₀ s : State} {r : Nat} (h : Keeps s₀ s) : Keeps s₀ (vacate s r) := by
  unfold vacate
  extract_lets x1 c1 s1
  have h1 : Keeps s₀ s1 := giveUp_keeps (modRope_keeps h (fun x2 => rfl))
  split
  · exact PairKeeps.fst (parkAs_keeps h)
  · split
    · exact readySlot_keeps h1
    · exact h

theorem electLead_keeps {s₀ s : State} {c : Nat} (h : Keeps s₀ s) : Keeps s₀ (electLead s c) := by
  unfold electLead
  extract_lets cl1 old1 word1 s1
  have h1 : Keeps s₀ s1 := modCluster_keeps h (fun x1 => rfl) (fun x1 => rfl)
  split
  · extract_lets s2 s3 s4
    have h2 : Keeps s₀ s2 := vacate_keeps h
    have h3 : Keeps s₀ s3 := bump32_keeps (modCluster_keeps h2 (fun x3 => rfl) (fun x3 => rfl))
    have h4 : Keeps s₀ s4 := rankMoved_keeps (rankMoved_keeps (startLead_keeps h3))
    exact cairn_keeps h4
  · exact cairn_keeps (setFence_keeps h1)

theorem leadFailed_keeps {s₀ s : State} {c : Nat} (h : Keeps s₀ s) : Keeps s₀ (leadFailed s c) := by
  unfold leadFailed
  split
  · exact h
  · exact electLead_keeps h

theorem faultRope_keeps {s₀ s : State} {r code : Nat} {addr : BitVec 64} (h : Keeps s₀ s) :
    Keeps s₀ (faultRope s r code addr) := by
  unfold faultRope
  extract_lets lead1 s1 s2
  have h1 : Keeps s₀ s1 := by
    unfold s1
    split
    · exact bump_keeps h
    · exact h
  have h2 : Keeps s₀ s2 := PairKeeps.fst (parkAs_keeps h1)
  split
  · exact leadFailed_keeps h2
  · exact leadEvent_keeps h2

theorem parkRope_keeps {s₀ s : State} {r : Nat} (h : Keeps s₀ s) : Keeps s₀ (parkRope s r) := by
  unfold parkRope
  split
  · exact h
  · split
    · exact h
    · exact modRope_keeps h (fun x2 => rfl)
    · exact faultRope_keeps h

theorem resumeRope_keeps {s₀ s : State} {r : Nat} (h : Keeps s₀ s) : Keeps s₀ (resumeRope s r) := by
  unfold resumeRope
  split
  · extract_lets s1
    have h1 : Keeps s₀ s1 := by
      unfold s1
      split
      · exact setSlot_keeps h
      · exact h
    exact makeReady_keeps h1
  · exact h

theorem freeParked_keeps {s₀ s : State} {r : Nat} (h : Keeps s₀ s) : Keeps s₀ (freeParked s r) := by
  unfold freeParked
  split
  · extract_lets c1 t1 s1 s2
    have h1 : Keeps s₀ s1 := modRope_keeps h (fun x1 => rfl)
    have h2 : Keeps s₀ s2 := by
      unfold s2
      split
      · exact leaveLock_keeps h1
      · exact h1
    clear_value t1
    split
    · exact endSlot_keeps h2
    · exact h2
  · exact h

theorem parkCtl_keeps {s₀ s : State} {c : Nat} {v : BitVec 64} (h : Keeps s₀ s) : Keeps s₀ (parkCtl s c v) := by
  unfold parkCtl
  extract_lets r1
  split
  · exact parkRope_keeps h
  · exact resumeRope_keeps h
  · exact freeParked_keeps h
  · exact h

theorem execPark_keeps {s₀ s : State} {c : BitVec 4} {rope : BitVec 7} (h : Keeps s₀ s) : ResKeeps s₀ (execPark c rope s) := by
  unfold execPark
  exact live_keeps h (ResKeeps.next (parkRope_keeps h))

theorem execResume_keeps {s₀ s : State} {c : BitVec 4} {rope : BitVec 7} (h : Keeps s₀ s) :
    ResKeeps s₀ (execResume c rope s) := by
  unfold execResume
  exact live_keeps h (ResKeeps.next (resumeRope_keeps h))

theorem execFreeRope_keeps {s₀ s : State} {c : BitVec 4} {rope : BitVec 7} (h : Keeps s₀ s) :
    ResKeeps s₀ (execFreeRope c rope s) := by
  unfold execFreeRope
  exact live_keeps h (ResKeeps.next (freeParked_keeps h))

theorem execParkHoldExpiry_keeps {s₀ s : State} {r : RopeId} (h : Keeps s₀ s) : ResKeeps s₀ (execParkHoldExpiry r s) := by
  unfold execParkHoldExpiry
  refine live_keeps h ?_
  extract_lets n1 hold1 x1
  split
  · exact ResKeeps.next (freeParked_keeps (rouse_keeps (advanceTo_keeps h)))
  · exact ResKeeps.next h

theorem execLeadBeat_keeps {s₀ s : State} {c : BitVec 4} (h : Keeps s₀ s) : ResKeeps s₀ (execLeadBeat c s) := by
  unfold execLeadBeat
  exact live_keeps h (ResKeeps.next (modCluster_keeps h (fun x1 => rfl) (fun x1 => rfl)))

theorem execLeadBeatTimeout_keeps {s₀ s : State} {c : BitVec 4} (h : Keeps s₀ s) : ResKeeps s₀ (execLeadBeatTimeout c s) := by
  unfold execLeadBeatTimeout
  extract_lets c1 lim1 s1
  have h1 : Keeps s₀ s1 := advanceTo_keeps h
  split
  · exact ResKeeps.next h
  · split
    · extract_lets s2
      have h2 : Keeps s₀ s2 := by
        unfold s2
        split
        · exact h1
        · exact PairKeeps.fst (parkAs_keeps h1)
      exact ResKeeps.next (leadFailed_keeps h2)
    · exact ResKeeps.next h

/-! ### Machine.Belay -/

theorem passLock_keeps {s₀ s : State} {c n : Nat} (h : Keeps s₀ s) : Keeps s₀ (passLock s c n) := by
  unfold passLock
  extract_lets l1 s1
  have h1 : Keeps s₀ s1 := by
    unfold s1
    split
    · exact setLock_keeps h
    · extract_lets s2
      have h1 : Keeps s₀ s2 := setLock_keeps h
      exact recompute_keeps (sendEvent_keeps h1)
  split
  · exact recompute_keeps h1
  · exact h1

theorem lockAcquire_keeps {s₀ s : State} {c n : Nat} {id : BitVec 11} (h : Keeps s₀ s) : Keeps s₀ (lockAcquire s c n id) := by
  unfold lockAcquire
  extract_lets l1 s1 s2
  have h1 : Keeps s₀ s1 := by
    unfold s1
    split
    · exact leaveLock_keeps h
    · exact h
  have h2 : Keeps s₀ s2 := bump_keeps (setLock_keeps h1)
  split
  · exact setLock_keeps h
  · split
    · exact h
    · split
      · exact recompute_keeps h2
      · exact h2

theorem lockRelease_keeps {s₀ s : State} {c n : Nat} {id : BitVec 11} (h : Keeps s₀ s) : Keeps s₀ (lockRelease s c n id) := by
  unfold lockRelease
  split
  · exact passLock_keeps h
  · exact bump_keeps h

theorem lockForce_keeps {s₀ s : State} {c n : Nat} {w : LockWrite} (h : Keeps s₀ s) : Keeps s₀ (lockForce s c n w) := by
  unfold lockForce
  split
  · exact bump_keeps h
  · split
    · exact h
    · extract_lets s1
      have h1 : Keeps s₀ s1 := cairn_keeps (bump_keeps h)
      exact passLock_keeps h1

theorem lockWithdraw_keeps {s₀ s : State} {c n : Nat} {id : BitVec 11} (h : Keeps s₀ s) : Keeps s₀ (lockWithdraw s c n id) := by
  unfold lockWithdraw
  split
  · exact leaveLock_keeps h
  · exact h

theorem belayNext_keeps {s₀ s : State} {c n : Nat} {op : BitVec 2} {f : State → LockWrite → State} (h : Keeps s₀ s)
    (hf : ∀ s w, Keeps s₀ s → Keeps s₀ (f s w)) : Keeps s₀ (belayNext s c n op f) := by
  unfold belayNext
  split
  · exact h
  · split
    · exact hf _ _ (busyCore_keeps (advanceTo_keeps (modCluster_keeps h (fun _ => rfl) (fun _ => rfl))))
    · exact h

theorem execAcquire_keeps {s₀ s : State} {c : BitVec 4} {lock : BitVec 12} (h : Keeps s₀ s) :
    ResKeeps s₀ (execAcquire c lock s) := by
  unfold execAcquire
  exact live_keeps h (ResKeeps.next (belayNext_keeps h (fun s1 x1 h1 => lockAcquire_keeps h1)))

theorem execRelease_keeps {s₀ s : State} {c : BitVec 4} {lock : BitVec 12} (h : Keeps s₀ s) :
    ResKeeps s₀ (execRelease c lock s) := by
  unfold execRelease
  exact live_keeps h (ResKeeps.next (belayNext_keeps h (fun s1 x1 h1 => lockRelease_keeps h1)))

theorem execForce_keeps {s₀ s : State} {c : BitVec 4} {lock : BitVec 12} (h : Keeps s₀ s) :
    ResKeeps s₀ (execForce c lock s) := by
  unfold execForce
  exact live_keeps h (ResKeeps.next (belayNext_keeps h (fun s1 x1 h1 => lockForce_keeps h1)))

theorem execWithdraw_keeps {s₀ s : State} {c : BitVec 4} {lock : BitVec 12} (h : Keeps s₀ s) :
    ResKeeps s₀ (execWithdraw c lock s) := by
  unfold execWithdraw
  exact live_keeps h (ResKeeps.next (belayNext_keeps h (fun s1 x1 h1 => lockWithdraw_keeps h1)))

theorem execPriorityRaisePropagate_keeps {s₀ s : State} {c : BitVec 4} (h : Keeps s₀ s) :
    ResKeeps s₀ (execPriorityRaisePropagate c s) := by
  unfold execPriorityRaisePropagate
  refine live_keeps h ?_
  extract_lets c1
  split
  · exact ResKeeps.next h
  · exact ResKeeps.next (recompute_keeps (advanceTo_keeps (modCluster_keeps h (fun x5 => rfl) (fun x5 => rfl))))

/-! ### Machine.Operands -/

theorem blockWrite_keeps {s₀ s : State} {r k v : Nat} (h : Keeps s₀ s) : Keeps s₀ (blockWrite s r k v) := by
  unfold blockWrite
  extract_lets c1 b1
  split
  · split
    · exact setBlock_keeps h
    · exact h
  · split
    · exact setBlock_keeps h
    · exact h
  · exact setBlock_keeps h
  · exact setBlock_keeps h
  · exact setBlock_keeps h
  · exact setBlock_keeps h
  · split
    · exact PairKeeps.fst (tableGo_keeps (setBlock_keeps h))
    · exact h
  · exact h

theorem taskCmdWrite_keeps {s₀ s : State} {r v : Nat} (h : Keeps s₀ s) : Keeps s₀ (taskCmdWrite s r v) := by
  unfold taskCmdWrite
  extract_lets op1 s1
  have h1 : Keeps s₀ s1 := modRope_keeps h (fun x1 => rfl)
  split
  · exact h
  · exact modCluster_keeps h1 (fun x1 => rfl) (fun x1 => rfl)

theorem setStg_keeps {s₀ s : State} {r : Nat} {f : Staging → Staging} (h : Keeps s₀ s) : Keeps s₀ (setStg s r f) := by
  unfold setStg
  exact modRope_keeps h (fun x1 => rfl)

theorem taskWrite_keeps {s₀ s : State} {r o v : Nat} (h : Keeps s₀ s) : Keeps s₀ (taskWrite s r o v) := by
  unfold taskWrite
  extract_lets w1
  split
  · exact taskCmdWrite_keeps h
  · exact setStg_keeps h
  · exact setStg_keeps h
  · exact setStg_keeps h
  · exact setStg_keeps h
  · exact setStg_keeps h
  · exact setStg_keeps h
  · exact setStg_keeps h
  · split
    · exact modCluster_keeps h (fun x2 => rfl) (fun x2 => rfl)
    · exact h
  · exact h

theorem lockWrite_keeps {s₀ s : State} {r n v : Nat} (h : Keeps s₀ s) : Keeps s₀ (lockWrite s r n v) := by
  unfold lockWrite
  exact modCluster_keeps h (fun x1 => rfl) (fun x1 => rfl)

theorem modRope_setW_keeps {s₀ s : State} {r : Nat} {d : BitVec 5} {v : Word} (h : Keeps s₀ s) :
    Keeps s₀ (modRope s r (fun x => setW x d v)) := modRope_keeps h fun x => window_setW x d v

theorem leadWrite_keeps {s₀ s : State} {c o v : Nat} (h : Keeps s₀ s) : Keeps s₀ (leadWrite s c o v) := by
  unfold leadWrite
  split
  · exact setPitchEntry_keeps h
  split
  · exact setFence_keeps h
  split
  · exact parkCtl_keeps h
  split
  · exact modCluster_keeps h (fun _ => rfl) (fun _ => rfl)
  split
  · exact modCluster_keeps h (fun _ => rfl) (fun _ => rfl)
  split
  · exact modCluster_keeps h (fun _ => rfl) (fun _ => rfl)
  split
  · exact storeLater_keeps (putObj_keeps h)
  split
  · exact h
  split
  · exact modRope_keeps h fun _ => rfl
  split
  · exact modRope_keeps h fun _ => rfl
  split
  · exact modRope_setW_keeps h
  · exact h

theorem ctlWrite_keeps {s₀ s : State} {r o v lo hi : Nat} (h : Keeps s₀ s) : Keeps s₀ (ctlWrite s r o v lo hi) := by
  unfold ctlWrite
  extract_lets c1 src1 n1 s1
  have h1 : Keeps s₀ s1 := by
    unfold s1
    split
    · exact lockWrite_keeps h
    · exact h
  split
  · exact blockWrite_keeps h
  · split
    · exact setBlock_keeps h
    · split
      · exact taskWrite_keeps h
      · split
        · split
          · exact lockWrite_keeps h1
          · exact h1
        · split
          · exact leadWrite_keeps h
          · exact h

theorem ctlStore_keeps {s₀ s : State} {r o : Nat} {bs : List Byte} (h : Keeps s₀ s) : Keeps s₀ (ctlStore s r o bs) := by
  unfold ctlStore
  refine Keeps.foldl ?_ h
  intro s1 x1 h1
  extract_lets w1 lo1 hi1 old1
  exact ctlWrite_keeps h1

theorem memWrite_keeps {s₀ s : State} {r : Nat} {g : Region} {a : Nat} {bs : List Byte} (h : Keeps s₀ s) :
    Keeps s₀ (memWrite s r g a bs) := by
  unfold memWrite
  split
  · exact modCluster_keepsWf h fun ok => ⟨cellsWf_wrN _ _ (ok.2.1 _).1, (ok.2.1 _).2⟩
  · exact modCluster_keepsWf h fun ok => ⟨(ok.2.1 _).1, cellsWf_wrN _ _ (ok.2.1 _).2⟩
  · exact modRope_keepsWf h fun ok => winWrite_wf _ _ (ok.2.2 r)
  · exact ctlStore_keeps h
  · exact hbmWrite_keeps h

/-! ### Machine.Issue -/

theorem settleEff_keeps {s₀ s : State} {r : Nat} {e : Eff} (h : Keeps s₀ s)
    (he : EffKeeps s₀ e) : ResKeeps s₀ (settleEff s r e) := by
  cases e with
  | done t => exact ResKeeps.next (modRope_keeps he window_nextPc)
  | jump t pc => exact ResKeeps.next (modRope_keeps he fun _ => rfl)
  | held t => exact ResKeeps.next he
  | trap c a => exact ResKeeps.next (faultRope_keeps h)
  | unsupported n => exact he.elim

/-- Where the rope issues, what the instruction does decides. -/
theorem issue_keepsIf {s₀ s : State} {r : Issuer} {branch : Bool} {f : State → Eff} (h : Keeps s₀ s)
    (hf : Issues s r → EffKeeps s₀ (f s)) : ResKeeps s₀ (issue s r branch f) := by
  unfold issue
  split
  · exact ResKeeps.next h
  next hissue =>
  split
  · exact ResKeeps.next (faultRope_keeps h)
  next hfetch =>
  split
  · exact ResKeeps.next (faultRope_keeps h)
  next hparity =>
  split
  · exact ResKeeps.next (faultRope_keeps h)
  · exact settleEff_keeps h (hf ⟨by simpa using hissue, by simpa using hfetch, by simpa using hparity⟩)

theorem issue_keeps {s₀ s : State} {r : Issuer} {branch : Bool} {f : State → Eff} (h : Keeps s₀ s) (hf : EffKeeps s₀ (f s)) :
    ResKeeps s₀ (issue s r branch f) := issue_keepsIf h fun _ => hf

theorem issueRope_keeps {s₀ s : State} {r : Issuer} {f : Rope → Rope} (h : Keeps s₀ s) (hf : ∀ x, (f x).window = x.window) :
    ResKeeps s₀ (issueRope s r f) := issue_keeps h (EffKeeps.done (modRope_keeps h hf))

theorem kDue_keeps {s₀ s : State} {r t : Nat} (h : Keeps s₀ s) : Keeps s₀ (kDue s r t) := by
  unfold kDue
  exact Keeps.foldl (fun s1 x1 h1 => kWrite_keeps (advanceTo_keeps h1)) h

theorem kReady_keeps {s₀ s : State} {r : Nat} {ks : List (BitVec 4)} (h : Keeps s₀ s) : PairKeeps s₀ (kReady s r ks) := by
  unfold kReady
  extract_lets waits1
  split
  · exact PairKeeps.mk h
  · split
    · exact PairKeeps.mk h
    · extract_lets s1
      have h1 : Keeps s₀ s1 := kDue_keeps h
      exact PairKeeps.mk h1

theorem cpenSpent_keeps {s₀ s : State} {r : Nat} (h : Keeps s₀ s) : Keeps s₀ (cpenSpent s r) := by
  unfold cpenSpent
  split
  · exact modCore_keeps h
  · exact h

theorem issueK_keeps {s₀ s : State} {r : Issuer} {ks : List (BitVec 4)} {f : State → Eff} (h : Keeps s₀ s)
    (hf : ∀ s, Keeps s₀ s → EffKeeps s₀ (f s)) : ResKeeps s₀ (issueK s r ks f) := by
  unfold issueK
  refine issue_keeps h ?_
  have h1 : PairKeeps s₀ (kReady s r.toNat ks) := kReady_keeps h
  split
  · next s1 s2 x1 e1 =>
      have h2 := PairKeeps.of_eq h1 e1
      exact EffKeeps.held (stall_keeps (bump_keeps h2))
  · next s1 s2 e1 =>
      have h2 := PairKeeps.of_eq h1 e1
      exact EffKeeps.held h2
  · next s1 s2 e1 =>
      have h2 := PairKeeps.of_eq h1 e1
      split
      · exact EffKeeps.trap
      · exact hf _ (cpenSpent_keeps h2)

theorem kPost_keeps {s₀ s : State} {r : Nat} {kd : BitVec 4} {v : KWord} {cycles : Nat} (h : Keeps s₀ s) :
    Keeps s₀ (kPost s r kd v cycles) := by
  unfold kPost
  exact modRope_keeps h (fun x1 => rfl)

/-! ### Machine.Alu -/

theorem execAdd_keeps {s₀ s : State} {r : Issuer} {kf w32 : Bool} {d a b : BitVec 5} (h : Keeps s₀ s) :
    ResKeeps s₀ (execAdd r kf w32 d a b s) := by
  unfold execAdd
  exact issueRope_keeps h (fun x1 => by simp)

theorem execSub_keeps {s₀ s : State} {r : Issuer} {kf w32 : Bool} {d a b : BitVec 5} (h : Keeps s₀ s) :
    ResKeeps s₀ (execSub r kf w32 d a b s) := by
  unfold execSub
  exact issueRope_keeps h (fun x1 => by simp)

theorem execAdc_keeps {s₀ s : State} {r : Issuer} {kf w32 : Bool} {d a b : BitVec 5} (h : Keeps s₀ s) :
    ResKeeps s₀ (execAdc r kf w32 d a b s) := by
  unfold execAdc
  exact issueRope_keeps h (fun x1 => by simp)

theorem execSbc_keeps {s₀ s : State} {r : Issuer} {kf w32 : Bool} {d a b : BitVec 5} (h : Keeps s₀ s) :
    ResKeeps s₀ (execSbc r kf w32 d a b s) := by
  unfold execSbc
  exact issueRope_keeps h (fun x1 => by simp)

theorem execAndOp_keeps {s₀ s : State} {r : Issuer} {kf w32 : Bool} {d a b : BitVec 5} (h : Keeps s₀ s) :
    ResKeeps s₀ (execAndOp r kf w32 d a b s) := by
  unfold execAndOp
  exact issueRope_keeps h (fun x1 => by simp)

theorem execOrOp_keeps {s₀ s : State} {r : Issuer} {kf w32 : Bool} {d a b : BitVec 5} (h : Keeps s₀ s) :
    ResKeeps s₀ (execOrOp r kf w32 d a b s) := by
  unfold execOrOp
  exact issueRope_keeps h (fun x1 => by simp)

theorem execXorOp_keeps {s₀ s : State} {r : Issuer} {kf w32 : Bool} {d a b : BitVec 5} (h : Keeps s₀ s) :
    ResKeeps s₀ (execXorOp r kf w32 d a b s) := by
  unfold execXorOp
  exact issueRope_keeps h (fun x1 => by simp)

theorem execAndn_keeps {s₀ s : State} {r : Issuer} {kf w32 : Bool} {d a b : BitVec 5} (h : Keeps s₀ s) :
    ResKeeps s₀ (execAndn r kf w32 d a b s) := by
  unfold execAndn
  exact issueRope_keeps h (fun x1 => by simp)

theorem execShl_keeps {s₀ s : State} {r : Issuer} {kf w32 : Bool} {d a b : BitVec 5} (h : Keeps s₀ s) :
    ResKeeps s₀ (execShl r kf w32 d a b s) := by
  unfold execShl
  exact issueRope_keeps h (fun x1 => by simp)

theorem execShr_keeps {s₀ s : State} {r : Issuer} {kf w32 : Bool} {d a b : BitVec 5} (h : Keeps s₀ s) :
    ResKeeps s₀ (execShr r kf w32 d a b s) := by
  unfold execShr
  exact issueRope_keeps h (fun x1 => by simp)

theorem execSar_keeps {s₀ s : State} {r : Issuer} {kf w32 : Bool} {d a b : BitVec 5} (h : Keeps s₀ s) :
    ResKeeps s₀ (execSar r kf w32 d a b s) := by
  unfold execSar
  exact issueRope_keeps h (fun x1 => by simp)

theorem execRor_keeps {s₀ s : State} {r : Issuer} {kf w32 : Bool} {d a b : BitVec 5} (h : Keeps s₀ s) :
    ResKeeps s₀ (execRor r kf w32 d a b s) := by
  unfold execRor
  exact issueRope_keeps h (fun x1 => by simp)

theorem execMul_keeps {s₀ s : State} {r : Issuer} {kf w32 : Bool} {d a b : BitVec 5} (h : Keeps s₀ s) :
    ResKeeps s₀ (execMul r kf w32 d a b s) := by
  unfold execMul
  exact issueRope_keeps h (fun x1 => by simp)

theorem execMulhu_keeps {s₀ s : State} {r : Issuer} {kf w32 : Bool} {d a b : BitVec 5} (h : Keeps s₀ s) :
    ResKeeps s₀ (execMulhu r kf w32 d a b s) := by
  unfold execMulhu
  exact issueRope_keeps h (fun x1 => by simp)

theorem execMinu_keeps {s₀ s : State} {r : Issuer} {kf w32 : Bool} {d a b : BitVec 5} (h : Keeps s₀ s) :
    ResKeeps s₀ (execMinu r kf w32 d a b s) := by
  unfold execMinu
  exact issueRope_keeps h (fun x1 => by simp)

theorem execMaxu_keeps {s₀ s : State} {r : Issuer} {kf w32 : Bool} {d a b : BitVec 5} (h : Keeps s₀ s) :
    ResKeeps s₀ (execMaxu r kf w32 d a b s) := by
  unfold execMaxu
  exact issueRope_keeps h (fun x1 => by simp)

theorem execClz_keeps {s₀ s : State} {r : Issuer} {kf w32 : Bool} {d a : BitVec 5} (h : Keeps s₀ s) :
    ResKeeps s₀ (execClz r kf w32 d a s) := by
  unfold execClz
  exact issueRope_keeps h (fun x1 => by simp)

theorem execCtz_keeps {s₀ s : State} {r : Issuer} {kf w32 : Bool} {d a : BitVec 5} (h : Keeps s₀ s) :
    ResKeeps s₀ (execCtz r kf w32 d a s) := by
  unfold execCtz
  exact issueRope_keeps h (fun x1 => by simp)

theorem execPopc_keeps {s₀ s : State} {r : Issuer} {kf w32 : Bool} {d a : BitVec 5} (h : Keeps s₀ s) :
    ResKeeps s₀ (execPopc r kf w32 d a s) := by
  unfold execPopc
  exact issueRope_keeps h (fun x1 => by simp)

theorem execBswap_keeps {s₀ s : State} {r : Issuer} {kf w32 : Bool} {d a : BitVec 5} (h : Keeps s₀ s) :
    ResKeeps s₀ (execBswap r kf w32 d a s) := by
  unfold execBswap
  exact issueRope_keeps h (fun x1 => by simp)

theorem execCmp_keeps {s₀ s : State} {r : Issuer} {kf w32 : Bool} {a b : BitVec 5} (h : Keeps s₀ s) :
    ResKeeps s₀ (execCmp r kf w32 a b s) := by
  unfold execCmp
  exact issueRope_keeps h (fun x1 => rfl)

theorem execTst_keeps {s₀ s : State} {r : Issuer} {kf w32 : Bool} {a b : BitVec 5} (h : Keeps s₀ s) :
    ResKeeps s₀ (execTst r kf w32 a b s) := by
  unfold execTst
  exact issueRope_keeps h (fun x1 => rfl)

theorem execAddi_keeps {s₀ s : State} {r : Issuer} {d a : BitVec 5} {imm : BitVec 16} (h : Keeps s₀ s) :
    ResKeeps s₀ (execAddi r d a imm s) := by
  unfold execAddi
  exact issueRope_keeps h (fun x1 => by simp)

theorem execCmpi_keeps {s₀ s : State} {r : Issuer} {a : BitVec 5} {imm : BitVec 16} (h : Keeps s₀ s) :
    ResKeeps s₀ (execCmpi r a imm s) := by
  unfold execCmpi
  exact issueRope_keeps h (fun x1 => rfl)

theorem execAndi_keeps {s₀ s : State} {r : Issuer} {d a : BitVec 5} {imm : BitVec 16} (h : Keeps s₀ s) :
    ResKeeps s₀ (execAndi r d a imm s) := by
  unfold execAndi
  exact issueRope_keeps h (fun x1 => by simp)

theorem execOri_keeps {s₀ s : State} {r : Issuer} {d a : BitVec 5} {imm : BitVec 16} (h : Keeps s₀ s) :
    ResKeeps s₀ (execOri r d a imm s) := by
  unfold execOri
  exact issueRope_keeps h (fun x1 => by simp)

theorem execXori_keeps {s₀ s : State} {r : Issuer} {d a : BitVec 5} {imm : BitVec 16} (h : Keeps s₀ s) :
    ResKeeps s₀ (execXori r d a imm s) := by
  unfold execXori
  exact issueRope_keeps h (fun x1 => by simp)

theorem execShi_keeps {s₀ s : State} {r : Issuer} {d a : BitVec 5} {kind : BitVec 2} {n : BitVec 6} (h : Keeps s₀ s) :
    ResKeeps s₀ (execShi r d a kind n s) := by
  unfold execShi
  exact issueRope_keeps h (fun x1 => by simp)

theorem execBfx_keeps {s₀ s : State} {r : Issuer} {d a : BitVec 5} {lsb width1 : BitVec 6} (h : Keeps s₀ s) :
    ResKeeps s₀ (execBfx r d a lsb width1 s) := by
  unfold execBfx
  exact issueRope_keeps h (fun x1 => by simp)

theorem execBfi_keeps {s₀ s : State} {r : Issuer} {d a : BitVec 5} {lsb width1 : BitVec 6} (h : Keeps s₀ s) :
    ResKeeps s₀ (execBfi r d a lsb width1 s) := by
  unfold execBfi
  exact issueRope_keeps h (fun x1 => by simp)

theorem execIpl_keeps {s₀ s : State} {r : Issuer} {d : BitVec 5} {q : BitVec 2} {imm : BitVec 16} (h : Keeps s₀ s) :
    ResKeeps s₀ (execIpl r d q imm s) := by
  unfold execIpl
  exact issueRope_keeps h (fun x1 => by simp)

theorem execIps_keeps {s₀ s : State} {r : Issuer} {d : BitVec 5} {q : BitVec 2} {imm : BitVec 16} (h : Keeps s₀ s) :
    ResKeeps s₀ (execIps r d q imm s) := by
  unfold execIps
  exact issueRope_keeps h (fun x1 => by simp)

theorem execImg_keeps {s₀ s : State} {r : Issuer} {d : BitVec 5} {q : BitVec 2} {imm : BitVec 16} (h : Keeps s₀ s) :
    ResKeeps s₀ (execImg r d q imm s) := by
  unfold execImg
  exact issueRope_keeps h (fun x1 => by simp)

/-! ### Machine.Ptp -/

theorem setPtp_keeps {s₀ s : State} {f : PtpSt → PtpSt} (h : Keeps s₀ s) : Keeps s₀ (setPtp s f) := by
  unfold setPtp
  exact Keeps.update h rfl rfl

theorem ptpAnnounce_keeps {s₀ s : State} {q : PtpFrame} (h : Keeps s₀ s) : Keeps s₀ (ptpAnnounce s q) := by
  unfold ptpAnnounce
  split
  · exact h
  · exact setPtp_keeps h

theorem ptpSynced_keeps {s₀ s : State} {m t2 : Nat} {t1 : ℤ} (h : Keeps s₀ s) : Keeps s₀ (ptpSynced s m t2 t1) := by
  unfold ptpSynced
  extract_lets lp1 seq1
  split
  · exact h
  · exact setPtp_keeps (sendRaw_keeps h)

theorem ptpSyncIn_keeps {s₀ s : State} {m : Nat} {q : PtpFrame} (h : Keeps s₀ s) : Keeps s₀ (ptpSyncIn s m q) := by
  unfold ptpSyncIn
  extract_lets s1
  have h1 : Keeps s₀ s1 := setPtp_keeps h
  split
  · exact setPtp_keeps h1
  · exact ptpSynced_keeps h1

theorem ptpFollowUp_keeps {s₀ s : State} {m : Nat} {q : PtpFrame} (h : Keeps s₀ s) : Keeps s₀ (ptpFollowUp s m q) := by
  unfold ptpFollowUp
  split
  · split
    · exact ptpSynced_keeps (setPtp_keeps h)
    · exact h
  · exact h

theorem ptpTake_keeps {s₀ s : State} {m : Nat} {q : PtpFrame} (h : Keeps s₀ s) : PairKeeps s₀ (ptpTake s m q) := by
  unfold ptpTake
  split
  · exact PairKeeps.mk h
  · split
    · exact PairKeeps.mk (ptpAnnounce_keeps h)
    · split
      · exact PairKeeps.mk h
      · split
        · exact PairKeeps.mk (ptpSyncIn_keeps h)
        · exact PairKeeps.mk (ptpFollowUp_keeps h)
        · split
          · exact PairKeeps.mk (setPtp_keeps h)
          · exact PairKeeps.mk h
        · exact PairKeeps.mk h

/-! ### Machine.Traffic -/

theorem setSched_keeps {s₀ s : State} {lp : Nat} {x : Sched} (h : Keeps s₀ s) : Keeps s₀ (setSched s lp x) := by
  unfold setSched
  exact Keeps.update h rfl rfl

theorem passTurns_keeps {s₀ s : State} {lp : Nat} (h : Keeps s₀ s) : Keeps s₀ (passTurns s lp) := by
  unfold passTurns
  extract_lets x1 here1 x2 pass1 x3 x4
  exact setSched_keeps h

theorem countStalls_keeps {s₀ s : State} {lp : Nat} (h : Keeps s₀ s) : Keeps s₀ (countStalls s lp) := by
  unfold countStalls
  extract_lets waits1 held1
  exact Keeps.foldl (fun s1 x1 h1 => bumpTen_keeps h1) h

theorem countPairWaits_keeps {s₀ s : State} {lp : Nat} (h : Keeps s₀ s) : Keeps s₀ (countPairWaits s lp) := by
  unfold countPairWaits
  split
  · exact h
  · extract_lets waits1 n1 mark1 src1 s1
    have h1 : Keeps s₀ s1 := Keeps.update h rfl rfl
    split
    · exact h1
    · exact bumpBy_keeps h1

theorem sendOut_keeps {s₀ s : State} {o : Output} (h : Keeps s₀ s) : Keeps s₀ (sendOut s o) := by
  unfold sendOut
  extract_lets src1 x1 o1
  have h1 : PairKeeps s₀ (originate s o1) := originate_keeps h
  split
  · next s1 s2 x2 e1 =>
      have h2 := PairKeeps.of_eq h1 e1
      extract_lets s3
      have h3 : Keeps s₀ s3 := putOnWire_keeps (countCells_keeps h2)
      split
      · split
        · exact retire_keeps h3
        · exact h3
      · exact endOutput_keeps h3

theorem screeTake_keeps {s₀ s : State} {o : Output} {p : Pair} {k : Nat} (h : Keeps s₀ s) : Keeps s₀ (screeTake s o p k) := by
  unfold screeTake
  extract_lets ahead1 row1 x1 src1
  exact endOutput_keeps (Keeps.update h rfl rfl)

theorem depart_keeps {s₀ s : State} {o : Output} (h : Keeps s₀ s) : Keeps s₀ (depart s o) := by
  unfold depart
  have h1 : PairKeeps s₀ (stage7 s o) := stage7_keeps h
  split
  · next s1 s2 e1 =>
      have h2 := PairKeeps.of_eq h1 e1
      exact h2
  · next s1 s2 x1 e1 =>
      have h2 := PairKeeps.of_eq h1 e1
      split
      · exact screeTake_keeps h2
      · exact sendOut_keeps h2

theorem keepUndo_keeps {s₀ s : State} {lp qn tid : Nat} {credit : ℤ} {emptied : Bool} (h : Keeps s₀ s) :
    Keeps s₀ (keepUndo s lp qn tid credit emptied) := by
  unfold keepUndo
  extract_lets x1 was1 src1
  exact Keeps.update h rfl rfl

theorem sendFrom_keeps {s₀ s : State} {lp : Nat} {x : Sched} {q : Queue} {o : Output} {rest : List Output} (h : Keeps s₀ s) :
    Keeps s₀ (sendFrom s lp x q o rest) := by
  unfold sendFrom
  extract_lets before1 s1 qs1 src1 s2 c1 qn1 s3 s4 s5 src2
  have h1 : Keeps s₀ s1 := setSched_keeps h
  have h2 : Keeps s₀ s2 := Keeps.update h1 rfl rfl
  have h3 : Keeps s₀ s3 := keepUndo_keeps h2
  have h4 : Keeps s₀ s4 := setCredit_keeps h3
  have h5 : Keeps s₀ s5 := depart_keeps h4
  exact passTurns_keeps (Keeps.update h5 rfl rfl)

theorem execOutputTransmit_keeps {s₀ s : State} {lp : Nat} (h : Keeps s₀ s) : ResKeeps s₀ (execOutputTransmit lp s) := by
  unfold execOutputTransmit
  split
  · exact ResKeeps.next h
  · split
    · exact execPulseSend_keeps h
    · extract_lets s1 s2
      have h1 : Keeps s₀ s1 := finishScans_keeps (unpark_keeps h)
      have h2 : Keeps s₀ s2 := countPairWaits_keeps (countStalls_keeps h1)
      split
      · exact ResKeeps.next h2
      · split
        · exact ResKeeps.next h2
        · exact ResKeeps.next (finishScans_keeps (sendFrom_keeps h2))

theorem giveCell_keeps {s₀ s : State} {f c : Nat} (h : Keeps s₀ s) : Keeps s₀ (giveCell s f c) := by
  unfold giveCell
  split
  · exact setFrame_keeps (useCell_keeps h)
  · extract_lets s1 src1
    have h1 : Keeps s₀ s1 := useCell_keeps h
    exact Keeps.update h1 rfl rfl
  · exact h

theorem execCellWriteStage_keeps {s₀ s : State} {port : Nat} (h : Keeps s₀ s) : ResKeeps s₀ (execCellWriteStage port s) := by
  unfold execCellWriteStage
  refine live_keeps h ?_
  split
  · extract_lets st1 src1
    exact ResKeeps.next (giveCell_keeps (Keeps.update h rfl rfl))
  · exact ResKeeps.next h

theorem execSpillReadback_keeps {s₀ s : State} {queue : Nat} (h : Keeps s₀ s) : ResKeeps s₀ (execSpillReadback queue s) := by
  unfold execSpillReadback
  exact live_keeps h (ResKeeps.next (passTurns_keeps (readBack_keeps h)))

theorem markMoved_keeps {s₀ s : State} {o : Output} {b : Nat × Nat} (h : Keeps s₀ s) : Keeps s₀ (markMoved s o b) := by
  unfold markMoved
  extract_lets sent1 waits1 src1
  exact Keeps.update h rfl rfl

theorem execRetainMove_keeps {s₀ s : State} (h : Keeps s₀ s) : ResKeeps s₀ (execRetainMove s) := by
  unfold execRetainMove
  split
  · exact ResKeeps.next h
  · split
    · exact ResKeeps.next h
    · next x1 x2 e2 =>
        have h1 : PairKeeps s₀ (pitonAlloc s (outLen x2)) := pitonAlloc_keeps h
        split
        · next s1 s2 e3 =>
            have h2 := PairKeeps.of_eq h1 e3
            exact ResKeeps.next h2
        · next s1 s2 x3 e3 =>
            have h2 := PairKeeps.of_eq h1 e3
            exact ResKeeps.next (markMoved_keeps (fillBuffer_keeps (freeStores_keeps (bump_keeps h2))))

theorem settleShape_keeps {s₀ s : State} {tid : Nat} (h : Keeps s₀ s) : Keeps s₀ (settleShape s tid) := by
  unfold settleShape
  extract_lets go1 src1
  exact Keeps.update h rfl rfl

theorem reshape_keeps {s₀ s : State} {tid : Nat} {change : State → State} (h : Keeps s₀ s)
    (hc : ∀ s, Keeps s₀ s → Keeps s₀ (change s)) : Keeps s₀ (reshape s tid change) :=
  Keeps.update (hc _ (settleShape_keeps h)) rfl rfl

theorem setShape_keeps {s₀ s : State} {e : CalEntry} (h : Keeps s₀ s) : Keeps s₀ (setShape s e) := by
  unfold setShape
  extract_lets rate1 burst1
  exact reshape_keeps h (fun s1 h1 => putObj_keeps (putObj_keeps h1))

theorem calFire_keeps {s₀ s : State} {at_ : Nat} {e : CalEntry} (h : Keeps s₀ s) : Keeps s₀ (calFire s at_ e) := by
  unfold calFire
  extract_lets nxt1 s1 src1
  have h1 : Keeps s₀ s1 := bump_keeps (setShape_keeps h)
  exact Keeps.update h1 rfl rfl

theorem calSync_keeps {s₀ s : State} (h : Keeps s₀ s) : Keeps s₀ (calSync s) := by
  unfold calSync
  extract_lets t1 n1 src1
  exact Keeps.update h rfl rfl

theorem calPassed_keeps {s₀ s : State} {n : Nat} (h : Keeps s₀ s) : Keeps s₀ (calPassed s n) := by
  induction n generalizing s with
  | zero => exact h
  | succ n ih =>
    unfold calPassed
    split
    · exact h
    · split
      · exact h
      · split
        · exact ih (calFire_keeps h)
        · exact h

theorem calStepped_keeps {s₀ s : State} {old : Nat} (h : Keeps s₀ s) : Keeps s₀ (calStepped s old) := by
  unfold calStepped
  split
  · exact calSync_keeps h
  · exact calPassed_keeps h

theorem execCalendarEntry_keeps {s₀ s : State} (h : Keeps s₀ s) : ResKeeps s₀ (execCalendarEntry s) := by
  unfold execCalendarEntry
  split
  · exact ResKeeps.next h
  · split
    · exact ResKeeps.next h
    · exact ResKeeps.next (calFire_keeps (advanceToFt_keeps h))

/-! ### Machine.Time -/

theorem modTime_keeps {s₀ s : State} {f : TimeSt → TimeSt} (h : Keeps s₀ s) : Keeps s₀ (modTime s f) := by
  unfold modTime
  exact Keeps.update h rfl rfl

theorem tickFrom_keeps {s₀ s : State} {us : Nat} (h : Keeps s₀ s) : Keeps s₀ (tickFrom s us) := by
  unfold tickFrom
  exact Keeps.foldl (fun s1 x1 h1 => modCluster_keeps h1 (fun x2 => rfl) (fun x2 => rfl)) h

theorem stepFt_keeps {s₀ s : State} {d : ℤ} (h : Keeps s₀ s) : Keeps s₀ (stepFt s d) := by
  unfold stepFt
  extract_lets old1 s1 s2 s3
  have h1 : Keeps s₀ s1 := modTime_keeps h
  have h2 : Keeps s₀ s2 := tickFrom_keeps h1
  have h3 : Keeps s₀ s3 := putObj_keeps (bump_keeps h2)
  exact calStepped_keeps (cairn_keeps h3)

theorem measure_keeps {s₀ s : State} {offset : Int} (h : Keeps s₀ s) : Keeps s₀ (Machine.measure s offset) := by
  unfold Machine.measure
  extract_lets s1 s2 run1
  have h1 : Keeps s₀ s1 := putObj_keeps h
  have h2 : Keeps s₀ s2 := by
    unfold s2
    split
    · exact stepFt_keeps h1
    · exact modTime_keeps (Keeps.update h1 rfl rfl)
  exact modTime_keeps h2

theorem loseTime_keeps {s₀ s : State} (h : Keeps s₀ s) : Keeps s₀ (loseTime s) := by
  unfold loseTime
  exact modTime_keeps h

theorem timeSourceSet_keeps {s₀ s : State} {v : Nat} (h : Keeps s₀ s) : Keeps s₀ (timeSourceSet s v) := by
  unfold timeSourceSet
  extract_lets s1
  have h1 : Keeps s₀ s1 := modTime_keeps (loseTime_keeps h)
  split
  · exact modTime_keeps h1
  · exact h1

theorem todUnused_keeps {s₀ s : State} (h : Keeps s₀ s) : Keeps s₀ (todUnused s) := by
  unfold todUnused
  split
  · exact bump_keeps h
  · exact h

theorem execTodSentence_keeps {s₀ s : State} {bytes : List Byte} (h : Keeps s₀ s) : ResKeeps s₀ (execTodSentence bytes s) := by
  unfold execTodSentence
  split
  · exact ResKeeps.next h
  · extract_lets s1
    have h1 : Keeps s₀ s1 := todUnused_keeps h
    split
    · exact ResKeeps.next (modTime_keeps h1)
    · exact ResKeeps.next (modTime_keeps (bump_keeps h1))

theorem sourceLost_keeps {s₀ s : State} {at_ : Nat} (h : Keeps s₀ s) : Keeps s₀ (sourceLost s at_) := by
  unfold sourceLost
  split
  · extract_lets s1
    have h1 : Keeps s₀ s1 := modTime_keeps (draw_keeps h)
    exact cairn_keeps (bump_keeps h1)
  · split
    · exact loseTime_keeps h
    · exact h

theorem loseOverdue_keeps {s₀ s : State} (h : Keeps s₀ s) : Keeps s₀ (loseOverdue s) := by
  unfold loseOverdue
  split
  · split
    · exact sourceLost_keeps h
    · exact h
  · exact h

theorem limitHoldover_keeps {s₀ s : State} (h : Keeps s₀ s) : Keeps s₀ (limitHoldover s) := by
  unfold limitHoldover
  split
  · split
    · exact loseTime_keeps h
    · exact h
  · exact h

theorem settleTime_keeps {s₀ s : State} (h : Keeps s₀ s) : Keeps s₀ (settleTime s) := by
  unfold settleTime
  split
  · exact h
  · exact limitHoldover_keeps (loseOverdue_keeps h)

theorem execTimeSourceLost_keeps {s₀ s : State} (h : Keeps s₀ s) : ResKeeps s₀ (execTimeSourceLost s) := by
  unfold execTimeSourceLost
  split
  · exact ResKeeps.next h
  · split
    · exact ResKeeps.next (sourceLost_keeps (advanceTo_keeps h))
    · exact ResKeeps.next (sourceLost_keeps h)

theorem execHoldoverExpiry_keeps {s₀ s : State} (h : Keeps s₀ s) : ResKeeps s₀ (execHoldoverExpiry s) := by
  unfold execHoldoverExpiry
  refine running_keeps h ?_
  split
  · exact ResKeeps.next h
  · exact ResKeeps.next (loseTime_keeps (advanceTo_keeps h))

/-! ### Machine.Plan -/

theorem putStored_keeps {s₀ s : State} {idx sub v : Nat} (h : Keeps s₀ s) : Keeps s₀ (putStored s idx sub v) := by
  unfold putStored
  exact Keeps.update h rfl rfl

theorem storeLayout_keeps {s₀ s : State} {x : Image} {a : Nat} (h : Keeps s₀ s) : Keeps s₀ (storeLayout s x a) := by
  unfold storeLayout
  extract_lets v1 s1
  have h1 : Keeps s₀ s1 := Keeps.foldl (fun s2 x1 h1 => putStored_keeps h1) h
  exact putStored_keeps h1

theorem storeSection_keeps {s₀ s : State} {x : Image} {c : Sect} (h : Keeps s₀ s) : Keeps s₀ (storeSection s x c) := by
  unfold storeSection
  exact paramAppend_keeps (Keeps.update h rfl rfl)

theorem applyWred_keeps {s₀ s : State} {x : Image} {a cls : Nat} (h : Keeps s₀ s) : Keeps s₀ (applyWred s x a cls) := by
  unfold applyWred
  extract_lets i1 s1
  have h1 : Keeps s₀ s1 := putObj_keeps (putObj_keeps h)
  refine Keeps.foldl ?_ h1
  intro s2 x1 h2
  extract_lets p1
  exact putObj_keeps (putObj_keeps (putObj_keeps h2))

theorem loadCalendar_keeps {s₀ s : State} {l : List CalEntry} (h : Keeps s₀ s) : Keeps s₀ (loadCalendar s l) := by
  unfold loadCalendar
  extract_lets src1 s1
  have h1 : Keeps s₀ s1 := calSync_keeps (Keeps.update h rfl rfl)
  split
  · exact h1
  · refine Keeps.foldl ?_ h1
    intro s2 x1 h2
    split
    · exact setShape_keeps h2
    · exact h2

theorem loadItinerary_keeps {s₀ s : State} {l : List ItinEvent} (h : Keeps s₀ s) : Keeps s₀ (loadItinerary s l) := by
  unfold loadItinerary
  extract_lets live1
  exact bumpBy_keeps (Keeps.update h rfl rfl)

theorem applySection_keeps {s₀ s : State} {x : Image} {c : Sect} (h : Keeps s₀ s) : Keeps s₀ (applySection s x c) := by
  unfold applySection
  extract_lets a1 lanes1 src1 s1
  have h1 : Keeps s₀ s1 := putObj_keeps h
  split
  · exact storeSection_keeps h
  · exact storeLayout_keeps (storeSection_keeps h)
  · exact Keeps.update h rfl rfl
  · exact putObj_keeps h
  · exact Keeps.foldl (fun s2 x2 h2 => applyWred_keeps h2) h
  · exact loadCalendar_keeps h1
  · exact loadItinerary_keeps h

theorem planGo_keeps {s₀ s : State} (h : Keeps s₀ s) : PairKeeps s₀ (planGo s) := by
  unfold planGo
  split
  · exact PairKeeps.mk h
  · split
    · exact PairKeeps.mk h
    · split
      · exact ackOk_keeps (putObj_keeps (putObj_keeps h))
      · extract_lets s1
        have h1 : Keeps s₀ s1 := Keeps.foldl (fun s2 x5 h1 => applySection_keeps h1) h
        exact ackOk_keeps (putObj_keeps (putObj_keeps (putObj_keeps h1)))

/-! ### Machine.Hbm -/

theorem retireRow_keeps {s₀ s : State} {pc bank row : Nat} (h : Keeps s₀ s) : Keeps s₀ (retireRow s pc bank row) := by
  unfold retireRow
  extract_lets x1
  split
  · exact paramAppend_keeps (setStack_keeps h)
  · exact h

theorem markRow_keeps {s₀ s : State} {pc bank row : Nat} (h : Keeps s₀ s) : Keeps s₀ (markRow s pc bank row) := by
  unfold markRow
  exact Keeps.update h rfl rfl

theorem readOutcome_keeps {s₀ s : State} {cls : ReqClass} {pc bank row addr : Nat} {o : HbmOutcome} (h : Keeps s₀ s) :
    Keeps s₀ (readOutcome s cls pc bank row addr o) := by
  unfold readOutcome
  extract_lets l1 s1 s2 src1
  have h1 : Keeps s₀ s1 := bumpBy_keeps h
  have h2 : Keeps s₀ s2 := retireRow_keeps (bump_keeps h1)
  split
  · exact h1
  · exact hbmWrite_keeps (bump_keeps h1)
  · exact bump_keeps h1
  · exact cairn_keeps (Keeps.update h2 rfl rfl)

theorem execHbmReadDone_keeps {s₀ s : State} {addr : Nat} {cls : ReqClass} {o : HbmOutcome} (h : Keeps s₀ s) :
    ResKeeps s₀ (execHbmReadDone addr cls o s) := by
  unfold execHbmReadDone
  split
  · next x1 x2 x3 x4 e1 =>
      split
      · exact ResKeeps.next h
      · have h1 : PairKeeps s₀ (activate (advanceTo s (bankFrom s x2 x3)) x2 x3 x4 cls addr (some o)) :=
          activate_keeps (advanceTo_keeps h)
        split
        · next s1 s2 e3 =>
            have h2 := PairKeeps.of_eq h1 e3
            exact ResKeeps.next h2
        · next s1 s2 e3 =>
            have h2 := PairKeeps.of_eq h1 e3
            exact ResKeeps.next (readOutcome_keeps h2)

theorem refreshBank_keeps {s₀ s : State} {pc bank : Nat} {extra : Bool} (h : Keeps s₀ s) :
    Keeps s₀ (refreshBank s pc bank extra) := by
  unfold refreshBank
  extract_lets p1 more1
  exact setPch_keeps h

theorem setWindow_keeps {s₀ s : State} {stk : Nat} (h : Keeps s₀ s) : Keeps s₀ (setWindow s stk) := by
  unfold setWindow
  extract_lets x1
  exact setStack_keeps h

theorem execHbmRefresh_keeps {s₀ s : State} {pch bank : Nat} (h : Keeps s₀ s) : ResKeeps s₀ (execHbmRefresh pch bank s) := by
  unfold execHbmRefresh
  extract_lets extra1
  split
  · exact ResKeeps.next h
  · split
    · exact ResKeeps.next h
    · exact ResKeeps.next (setWindow_keeps (refreshBank_keeps (advanceTo_keeps h)))

theorem resumeDeferred_keeps {s₀ s : State} {pc : Nat} {e : Deferred} (h : Keeps s₀ s) : Keeps s₀ (resumeDeferred s pc e) := by
  unfold resumeDeferred
  extract_lets bank1 row1
  have h1 : PairKeeps s₀ (activate s pc bank1 row1 (clsOf e.cls) e.addr e.read) := activate_keeps h
  split
  · next s1 x1 s2 x2 e1 e2 =>
      have h2 := PairKeeps.of_eq h1 e1
      exact readOutcome_keeps h2
  · next s1 x1 s2 x2 e1 e2 =>
      have h2 := PairKeeps.of_eq h1 e1
      exact h2

theorem windowPch_keeps {s₀ s : State} {pc : Nat} (h : Keeps s₀ s) : Keeps s₀ (windowPch s pc) := by
  unfold windowPch
  extract_lets p1 open1 s1
  have h1 : Keeps s₀ s1 := by
    unfold s1
    split
    · exact h
    · exact setPch_keeps h
  exact Keeps.foldl (fun s2 x1 h2 => resumeDeferred_keeps h2) h1

theorem newWindow_keeps {s₀ s : State} {stack : Nat} (h : Keeps s₀ s) : Keeps s₀ (newWindow s stack) := by
  unfold newWindow
  extract_lets x1 s1 src1 s2 s3 src2
  have h1 : Keeps s₀ s1 := advanceTo_keeps h
  have h2 : Keeps s₀ s2 := Keeps.update h1 rfl rfl
  have h3 : Keeps s₀ s3 := Keeps.foldl (fun s4 x2 h3 => windowPch_keeps h3) h2
  exact setStack_keeps h3

theorem execRefreshWindowStart_keeps {s₀ s : State} {stack : Nat} (h : Keeps s₀ s) :
    ResKeeps s₀ (execRefreshWindowStart stack s) := by
  unfold execRefreshWindowStart
  split
  · exact ResKeeps.next h
  · exact ResKeeps.next (newWindow_keeps h)

theorem drainWaits_keeps {s₀ s : State} {stack n : Nat} (h : Keeps s₀ s) : Keeps s₀ (drainWaits s stack n) := by
  induction n generalizing s with
  | zero => exact h
  | succ n ih =>
    unfold drainWaits
    split
    · exact ih (newWindow_keeps h)
    · exact h

theorem traceFlush_keeps {s₀ s : State} (h : Keeps s₀ s) : Keeps s₀ (traceFlush s) := by
  unfold traceFlush
  exact Keeps.foldl (fun s1 x1 h1 => traceDrain_keeps h1) h

theorem nrsEnd_keeps {s₀ s : State} (h : Keeps s₀ s) : Keeps s₀ (nrsEnd s) := by
  unfold nrsEnd
  extract_lets s1 src1
  have h1 : Keeps s₀ s1 := bump32_keeps (putObj_keeps (stir_keeps h))
  exact Keeps.update h1 rfl rfl

theorem nrsGo_keeps {s₀ s : State} (h : Keeps s₀ s) : PairKeeps s₀ (nrsGo s) := by
  unfold nrsGo
  extract_lets s1
  have h1 : Keeps s₀ s1 := by
    unfold s1
    split
    · exact nrsEnd_keeps h
    · exact h
  split
  · exact PairKeeps.mk h1
  · have h2 : PairKeeps s₀ (maintStart s1 3 (obj s1 18464 1)) := maintStart_keeps h1
    split
    · next s2 s3 x1 e2 =>
        have h3 := PairKeeps.of_eq h2 e2
        exact PairKeeps.mk (putObj_keeps h3)
    · next s2 s3 e2 =>
        have h3 := PairKeeps.of_eq h2 e2
        refine ackOk_keeps ?_
        extract_lets s4 src1
        have h4 : Keeps s₀ s4 := putObj_keeps h3
        exact Keeps.update h4 rfl rfl

theorem execNrsSweepEnd_keeps {s₀ s : State} (h : Keeps s₀ s) : ResKeeps s₀ (execNrsSweepEnd s) := by
  unfold execNrsSweepEnd
  refine live_keeps h ?_
  split
  · exact ResKeeps.next h
  · exact ResKeeps.next (nrsEnd_keeps (advanceTo_keeps h))

theorem closeStack_keeps {s₀ s : State} {stk : Nat} (h : Keeps s₀ s) : Keeps s₀ (closeStack s stk) := by
  unfold closeStack
  extract_lets x1 s1 src1
  have h1 : Keeps s₀ s1 := setStack_keeps h
  exact Keeps.update h1 rfl rfl

theorem hbmTestGo_keeps {s₀ s : State} (h : Keeps s₀ s) : PairKeeps s₀ (hbmTestGo s) := by
  unfold hbmTestGo
  extract_lets k1 mate1
  split
  · have h1 : PairKeeps s₀ (maintStart s 2 (obj s 18464 1)) := maintStart_keeps h
    split
    · next s1 s2 x1 e2 =>
        have h2 := PairKeeps.of_eq h1 e2
        exact PairKeeps.mk (putObj_keeps h2)
  · split
    · exact PairKeeps.mk (putObj_keeps h)
    · have h1 : PairKeeps s₀ (maintStart s 2 (obj s 18464 1)) := maintStart_keeps h
      split
      · next s1 s2 x1 e3 =>
          have h2 := PairKeeps.of_eq h1 e3
          exact PairKeeps.mk (putObj_keeps h2)
      · next s1 s2 e3 =>
          have h2 := PairKeeps.of_eq h1 e3
          extract_lets src1 s3 src2
          have h3 : Keeps s₀ s3 := setStack_keeps (putObj_keeps h2)
          exact ackOk_keeps (Keeps.update h3 rfl rfl)

theorem testedRow_keeps {s₀ s : State} {stk : Nat} {t : RowTest} (h : Keeps s₀ s) : Keeps s₀ (testedRow s stk t) := by
  unfold testedRow
  extract_lets pc1 s1
  have h1 : Keeps s₀ s1 := by
    unfold s1
    split
    · exact h
    · split
      · exact bump32_keeps (putObj_keeps (retireRow_keeps h))
      · exact bump32_keeps (markRow_keeps h)
  split
  · exact cairn_keeps h1
  · exact bump_keeps h

theorem execHbmTestDone_keeps {s₀ s : State} {rows : List RowTest} (h : Keeps s₀ s) : ResKeeps s₀ (execHbmTestDone rows s) := by
  unfold execHbmTestDone
  refine live_keeps h ?_
  split
  · exact ResKeeps.next h
  · extract_lets s1 s2 src1 s3 src2
    have h1 : Keeps s₀ s1 := putObj_keeps (advanceTo_keeps h)
    have h2 : Keeps s₀ s2 := Keeps.foldl (fun s4 x3 h2 => testedRow_keeps h2) h1
    have h3 : Keeps s₀ s3 := setStack_keeps h2
    exact ResKeeps.next (Keeps.update h3 rfl rfl)

theorem copyHbm_keeps {s₀ s : State} {src dst len : Nat} (h : Keeps s₀ s) : Keeps s₀ (copyHbm s src dst len) :=
  Keeps.ofHbm h fun ok => copyHbm_wf src dst len ok.1

theorem execRebuildDone_keeps {s₀ s : State} (h : Keeps s₀ s) : ResKeeps s₀ (execRebuildDone s) := by
  unfold execRebuildDone
  refine live_keeps h ?_
  split
  · exact ResKeeps.next h
  · extract_lets x3 s1 half1 s2 s3 src1
    have h1 : Keeps s₀ s1 := by
      unfold s1
      split
      · exact copyHbm_keeps (copyHbm_keeps h)
      · exact copyHbm_keeps (copyHbm_keeps h)
    have h2 : Keeps s₀ s2 := Keeps.foldl (fun s4 x4 h2 => bumpBy_keeps (bumpBy_keeps h2)) h1
    have h3 : Keeps s₀ s3 := by
      unfold s3
      refine Keeps.foldl ?_ h2
      intro s4 x4 h3
      split
      · exact setStack_keeps h3
      · exact h3
    exact ResKeeps.next (traceFlush_keeps (stir_keeps (Keeps.update h3 rfl rfl)))

theorem zeroStack_keeps {s₀ s : State} {stk : Nat} (h : Keeps s₀ s) : Keeps s₀ (zeroStack s stk) :=
  Keeps.ofHbm h fun ok => cellsWf_filter _ ok.1

theorem clearRetired_keeps {s₀ s : State} {stk : Nat} (h : Keeps s₀ s) : Keeps s₀ (clearRetired s stk) := by
  unfold clearRetired
  extract_lets x1
  split
  · exact h
  · exact paramAppend_keeps (setStack_keeps h)

theorem execHbmTrainingDone_keeps {s₀ s : State} {stack : Nat} {ok : Bool} (h : Keeps s₀ s) :
    ResKeeps s₀ (execHbmTrainingDone stack ok s) := by
  unfold execHbmTrainingDone
  extract_lets x1 s1 src1 s2
  have h1 : Keeps s₀ s1 := clearRetired_keeps (zeroStack_keeps h)
  have h2 : Keeps s₀ s2 := bump32_keeps h
  split
  · exact ResKeeps.next h
  · split
    · exact ResKeeps.next (traceFlush_keeps (setStack_keeps h1))
    · split
      · exact ResKeeps.next (cairn_keeps (setStack_keeps h2))
      · exact ResKeeps.next (setStack_keeps h2)

/-! ### Machine.Power -/

theorem modPwr_keeps {s₀ s : State} {f : PwrSt → PwrSt} (h : Keeps s₀ s) : Keeps s₀ (modPwr s f) := by
  unfold modPwr
  exact Keeps.update h rfl rfl

theorem settleRail_keeps {s₀ s : State} (h : Keeps s₀ s) : Keeps s₀ (settleRail s) := by
  unfold settleRail
  exact modPwr_keeps h

theorem opDone_keeps {s₀ s : State} (h : Keeps s₀ s) : Keeps s₀ (opDone s) := by
  unfold opDone
  exact modPwr_keeps h

theorem setStage_keeps {s₀ s : State} {c : OpCmd} {g : OpStage} (h : Keeps s₀ s) : Keeps s₀ (setStage s c g) := by
  unfold setStage
  exact modPwr_keeps h

theorem railThere_keeps {s₀ s : State} {c : OpCmd} (h : Keeps s₀ s) : Keeps s₀ (railThere s c) := by
  unfold railThere
  split
  · exact setStage_keeps h
  · exact opDone_keeps h

theorem opBegin_keeps {s₀ s : State} {c : OpCmd} (h : Keeps s₀ s) : Keeps s₀ (opBegin s c) := by
  unfold opBegin
  split
  · exact setStage_keeps h
  · extract_lets s1
    have h1 : Keeps s₀ s1 := setStage_keeps h
    split
    · exact railThere_keeps h1
    · exact h1

theorem opSupersede_keeps {s₀ s : State} (h : Keeps s₀ s) : Keeps s₀ (opSupersede s) := by
  unfold opSupersede
  split
  · exact bump_keeps (putObj_keeps h)
  · exact h

theorem opStart_keeps {s₀ s : State} {old : Option OpCmd} {c : OpCmd} (h : Keeps s₀ s) : Keeps s₀ (opStart s old c) := by
  unfold opStart
  split
  · exact setStage_keeps h
  · exact setStage_keeps h
  · exact opBegin_keeps h

theorem mget_map {α : Type} (m : Map α) (f : α → α) (k : Nat) (d : α) (hd : f d = d) :
    mget (m.map (fun e => (e.1, f e.2))) k d = f (mget m k d) := by
  induction m with
  | nil => exact hd.symm
  | cons e m ih =>
    unfold mget at ih ⊢
    rw [List.map_cons, mfind, mfind]
    split
    · rfl
    · exact ih

theorem reclock_keeps {s₀ was s : State} (h : Keeps s₀ s) : Keeps s₀ (reclock was s) := by
  unfold reclock
  extract_lets a b now at_ due n
  split
  · exact h
  · refine ⟨h.versions, fun ok => ?_⟩
    obtain ⟨hm, hc, hw⟩ := h.memories ok
    refine ⟨hm, fun c => ?_, fun r => ?_⟩
    · have hmap := mget_map s.clusters (fun x => { x with raises := x.raises.map (fun r => (r.1, at_ r.2)) }) c {} rfl
      unfold cluster
      dsimp only
      rw [hmap]
      exact hc c
    · have hmap := mget_map s.ropes (fun x => { x with kPend := x.kPend.map due }) r {} rfl
      unfold rope
      dsimp only
      rw [hmap]
      exact hw r

theorem opAccept_keeps {s₀ s : State} {seq f v : Nat} (h : Keeps s₀ s) : Keeps s₀ (opAccept s seq f v) := by
  unfold opAccept
  extract_lets s1
  have h1 : Keeps s₀ s1 := modPwr_keeps (opSupersede_keeps (settleRail_keeps h))
  exact reclock_keeps (opStart_keeps h1)

theorem managerCmd_keeps {s₀ s : State} {f : Nat} (h : Keeps s₀ s) : Keeps s₀ (managerCmd s f) := by
  unfold managerCmd
  exact opAccept_keeps h

theorem opWrite_keeps {s₀ s : State} {v : Nat} (h : Keeps s₀ s) : PairKeeps s₀ (opWrite s v) := by
  unfold opWrite
  split
  · exact PairKeeps.mk h
  · next e1 =>
      extract_lets seq1 f1 code1 t1
      split
      · exact ackOk_keeps (modPwr_keeps (bump_keeps h))
      · exact ackOk_keeps (opAccept_keeps h)

theorem execFrequencyChangeDone_keeps {s₀ s : State} (h : Keeps s₀ s) : ResKeeps s₀ (execFrequencyChangeDone s) := by
  unfold execFrequencyChangeDone
  refine running_keeps h ?_
  split
  · exact ResKeeps.next h
  · split
    · exact ResKeeps.next (reclock_keeps (opBegin_keeps (settleRail_keeps (modPwr_keeps (advanceTo_keeps h)))))
    · exact ResKeeps.next (reclock_keeps (opDone_keeps (modPwr_keeps (advanceTo_keeps h))))
    · exact ResKeeps.next h

theorem execRailTargetReached_keeps {s₀ s : State} (h : Keeps s₀ s) : ResKeeps s₀ (execRailTargetReached s) := by
  unfold execRailTargetReached
  refine running_keeps h ?_
  split
  · exact ResKeeps.next h
  · split
    · extract_lets goal1 d1 s1
      have h1 : Keeps s₀ s1 := advanceTo_keeps h
      exact ResKeeps.next (railThere_keeps (modPwr_keeps h1))
    · exact ResKeeps.next h

theorem execRailHoldExpiry_keeps {s₀ s : State} (h : Keeps s₀ s) : ResKeeps s₀ (execRailHoldExpiry s) := by
  unfold execRailHoldExpiry
  refine running_keeps h ?_
  split
  · exact ResKeeps.next h
  · split
    · extract_lets s1
      have h1 : Keeps s₀ s1 := advanceTo_keeps h
      exact ResKeeps.next (setStage_keeps h1)
    · exact ResKeeps.next h

theorem followVin_keeps {s₀ s : State} {mv : Nat} (h : Keeps s₀ s) : Keeps s₀ (followVin s mv) := by
  unfold followVin
  extract_lets now1 above1 held1 p1 q1
  exact modPwr_keeps h

theorem profileCmd_keeps {s₀ s : State} {was : Nat} (h : Keeps s₀ s) : Keeps s₀ (profileCmd s was) := by
  unfold profileCmd
  extract_lets top1
  split
  · exact managerCmd_keeps h
  · split
    · exact managerCmd_keeps h
    · exact h

theorem capStep_keeps {s₀ s : State} (h : Keeps s₀ s) : Keeps s₀ (capStep s) := by
  unfold capStep
  extract_lets cap1 f1 now1 s1 t1 top1 s2
  have h1 : Keeps s₀ s1 := modPwr_keeps h
  have h2 : Keeps s₀ s2 := modPwr_keeps h
  split
  · split
    · exact h1
    · exact managerCmd_keeps (bump_keeps h1)
  · split
    · split
      · exact managerCmd_keeps h2
      · exact modPwr_keeps h
    · exact modPwr_keeps h

theorem autoRail_keeps {s₀ s : State} (h : Keeps s₀ s) : Keeps s₀ (autoRail s) := by
  unfold autoRail
  split
  · exact managerCmd_keeps h
  · exact h

theorem execPowerMeasurement_keeps {s₀ s : State} {vinMv watts : Nat} (h : Keeps s₀ s) :
    ResKeeps s₀ (execPowerMeasurement vinMv watts s) := by
  unfold execPowerMeasurement
  split
  · exact ResKeeps.next h
  · extract_lets s1 s2 was1
    have h1 : Keeps s₀ s1 := advanceTo_keeps h
    have h2 : Keeps s₀ s2 := modPwr_keeps h1
    exact ResKeeps.next (autoRail_keeps (capStep_keeps (profileCmd_keeps (followVin_keeps h2))))

theorem execCurrentLimitHeld_keeps {s₀ s : State} (h : Keeps s₀ s) : ResKeeps s₀ (execCurrentLimitHeld s) := by
  unfold execCurrentLimitHeld
  split
  · exact ResKeeps.next h
  · extract_lets s1
    have h1 : Keeps s₀ s1 := managerCmd_keeps (modPwr_keeps h)
    exact ResKeeps.next (cairn_keeps h1)

theorem execDozeEntry_keeps {s₀ s : State} {c : BitVec 4} (h : Keeps s₀ s) : ResKeeps s₀ (execDozeEntry c s) := by
  unfold execDozeEntry
  extract_lets c1 s1 s2
  have h1 : Keeps s₀ s1 := advanceTo_keeps h
  have h2 : Keeps s₀ s2 := Keeps.foldl (fun s3 x1 h2 => modCore_keeps h2) h1
  split
  · exact ResKeeps.next h
  · exact ResKeeps.next (stir_keeps (bump_keeps (modCluster_keeps h2 (fun x1 => rfl) (fun x1 => rfl))))

theorem execDozeExit_keeps {s₀ s : State} {c : BitVec 4} (h : Keeps s₀ s) : ResKeeps s₀ (execDozeExit c s) := by
  unfold execDozeExit
  extract_lets c1 s1
  have h1 : Keeps s₀ s1 := advance_keeps h
  split
  · exact ResKeeps.next h
  · exact ResKeeps.next (stir_keeps (busyCore_keeps (modCluster_keeps h1 (fun x1 => rfl) (fun x1 => rfl))))

theorem portAsleep_keeps {s₀ s : State} {lp : Nat} (h : Keeps s₀ s) : Keeps s₀ (portAsleep s lp) := by
  unfold portAsleep
  exact modPort_keeps h

theorem bivouacTrace_keeps {s₀ s : State} {kind reason : Nat} (h : Keeps s₀ s) : Keeps s₀ (bivouacTrace s kind reason) := by
  unfold bivouacTrace
  exact Keeps.foldl (fun s1 x1 h1 => traceDrain_keeps (trace_keeps h1)) h

theorem loseUnsaved_keeps {s₀ s : State} (h : Keeps s₀ s) : Keeps s₀ (loseUnsaved s) := by
  unfold loseUnsaved
  extract_lets s1 src1 src2 s2 src3 src4 s3 src5
  have h1 : Keeps s₀ s1 := loseCtxs_keeps h
  have h2 : Keeps s₀ s2 := Keeps.update h1 rfl rfl
  have h3 : Keeps s₀ s3 := Keeps.update h2 rfl rfl
  exact Keeps.update h3 rfl rfl

theorem saveState_keeps {s₀ s : State} (h : Keeps s₀ s) : Keeps s₀ (saveState s) :=
  Keeps.ofHbm (draw_keeps h) fun ok => cellsWf_filter _ ok.1

theorem execBivouacEntry_keeps {s₀ s : State} (h : Keeps s₀ s) : ResKeeps s₀ (execBivouacEntry s) := by
  unfold execBivouacEntry
  extract_lets t1 s1 s2 s3
  have h1 : Keeps s₀ s1 := advanceTo_keeps h
  have h2 : Keeps s₀ s2 := Keeps.foldl (fun s4 x1 h2 => portAsleep_keeps h2) h1
  have h3 : Keeps s₀ s3 := Keeps.foldl (fun s4 x1 h3 => setStack_keeps h3) h2
  split
  · exact ResKeeps.next h
  · exact ResKeeps.next (modPwr_keeps h3)

theorem powerOff_keeps {s₀ s : State} (h : Keeps s₀ s) : Keeps s₀ (powerOff s) := by
  unfold powerOff
  extract_lets s1 src1
  have h1 : Keeps s₀ s1 := loseUnsaved_keeps (saveState_keeps (bivouacTrace_keeps h))
  exact modPwr_keeps (Keeps.update h1 rfl rfl)

theorem wakeStart_keeps {s₀ s : State} {src : Nat} (h : Keeps s₀ s) : Keeps s₀ (wakeStart s src) := by
  unfold wakeStart
  extract_lets s1 src1
  have h1 : Keeps s₀ s1 := modPwr_keeps h
  exact putObj_keeps (Keeps.update h1 rfl rfl)

theorem entryDone_keeps {s₀ s : State} (h : Keeps s₀ s) : Keeps s₀ (entryDone s) := by
  unfold entryDone
  extract_lets s1 src1 s2
  have h1 : Keeps s₀ s1 := cairn_keeps (bump_keeps h)
  have h2 : Keeps s₀ s2 := modPwr_keeps h1
  clear_value src1
  split
  · exact wakeStart_keeps h2
  · exact h2

theorem execSelfRefreshEntry_keeps {s₀ s : State} {stack : Nat} {arriving : Bool} (h : Keeps s₀ s) :
    ResKeeps s₀ (execSelfRefreshEntry stack arriving s) := by
  unfold execSelfRefreshEntry
  split
  · exact ResKeeps.next h
  · split
    · split
      · exact ResKeeps.next h
      · exact ResKeeps.next (entryAborts_keeps (bump_keeps h))
    · extract_lets s1 n1 s2 s3
      have h1 : Keeps s₀ s1 := by
        unfold s1
        split
        · exact h
        · exact powerOff_keeps h
      have h2 : Keeps s₀ s2 := drainWaits_keeps h1
      have h3 : Keeps s₀ s3 := closeStack_keeps h2
      split
      · exact ResKeeps.next h2
      · refine ResKeeps.next ?_
        split
        · exact h3
        · exact entryDone_keeps h3

theorem wakeFrom_keeps {s₀ s : State} {src : Nat} (h : Keeps s₀ s) : Keeps s₀ (wakeFrom s src) := by
  unfold wakeFrom
  split
  · exact wakeStart_keeps h
  · split
    · exact modPwr_keeps h
    · exact h

theorem wakeGo_keeps {s₀ s : State} (h : Keeps s₀ s) : PairKeeps s₀ (wakeGo s) := by
  unfold wakeGo
  split
  · exact ackOk_keeps (modPwr_keeps h)
  · exact ackOk_keeps (wakeFrom_keeps h)

theorem wakeUp_keeps {s₀ s : State} (h : Keeps s₀ s) : Keeps s₀ (wakeUp s) := by
  unfold wakeUp
  extract_lets s1
  have h1 : Keeps s₀ s1 := modPwr_keeps h
  exact Keeps.foldl (fun s2 x1 h2 => portAwake_keeps h2) h1

theorem wakeEnd_keeps {s₀ s : State} (h : Keeps s₀ s) : Keeps s₀ (wakeEnd s) := by
  unfold wakeEnd
  extract_lets src1 s1
  have h1 : Keeps s₀ s1 := Keeps.foldl (fun s2 x1 h1 => modCluster_keeps h1 (fun x2 => rfl) (fun x2 => rfl)) h
  exact cairn_keeps (enterPorts_keeps (bivouacTrace_keeps h1))

theorem execBasecampEntry_keeps {s₀ s : State} (h : Keeps s₀ s) : ResKeeps s₀ (execBasecampEntry s) := by
  unfold execBasecampEntry
  split
  · exact ResKeeps.next h
  split
  · exact ResKeeps.next h
  · refine ResKeeps.next (setFaultN_keeps (Keeps.foldl (fun _ _ hs => modPort_keeps hs) ?_))
    exact Keeps.ofHbm (Keeps.update (cairn_keeps (advanceTo_keeps h)) rfl rfl) fun _ => rfl

/-! ### Machine.Can -/

theorem canSend_keeps {s₀ s : State} {o : Out} (h : Keeps s₀ s) : Keeps s₀ (canSend s o) := by
  unfold canSend
  exact bump_keeps (emit_keeps h)

theorem execCanBusOff_keeps {s₀ s : State} (h : Keeps s₀ s) : ResKeeps s₀ (execCanBusOff s) := by
  unfold execCanBusOff
  split
  · exact ResKeeps.next (bump_keeps h)
  · exact ResKeeps.next h

/-! ### Machine.Recovery -/

theorem modRcv_keeps {s₀ s : State} {f : RecSt → RecSt} (h : Keeps s₀ s) : Keeps s₀ (modRcv s f) := by
  unfold modRcv
  exact Keeps.update h rfl rfl

theorem leaseState_keeps {s₀ s : State} {q : CanReq} (h : Keeps s₀ s) : Keeps s₀ (leaseState s q) := by
  unfold leaseState
  extract_lets r1 flags1
  exact canSend_keeps h

theorem canCount_keeps {s₀ s : State} {q : CanReq} (h : Keeps s₀ s) : Keeps s₀ (canCount s q) := by
  unfold canCount
  split
  · exact bump_keeps h
  · exact h

theorem grantLease_keeps {s₀ s : State} {e : BitVec 32} (h : Keeps s₀ s) : Keeps s₀ (grantLease s e) := by
  unfold grantLease
  extract_lets s1
  have h1 : Keeps s₀ s1 := by
    unfold s1
    split
    · exact latchFence_keeps h
    · exact h
  exact recheckReadOnly_keeps (modRcv_keeps h1)

theorem execLeaseGrant_keeps {s₀ s : State} {q : CanReq} (h : Keeps s₀ s) : ResKeeps s₀ (execLeaseGrant q s) := by
  unfold execLeaseGrant
  extract_lets s1 s2 e1
  have h1 : Keeps s₀ s1 := canCount_keeps h
  have h2 : Keeps s₀ s2 := settleLease_keeps h1
  split
  · exact ResKeeps.next h1
  · split
    · exact ResKeeps.next (leaseState_keeps (bump_keeps h2))
    · exact ResKeeps.next (leaseState_keeps (grantLease_keeps h2))

theorem execLeaseRevoke_keeps {s₀ s : State} {q : CanReq} (h : Keeps s₀ s) : ResKeeps s₀ (execLeaseRevoke q s) := by
  unfold execLeaseRevoke
  extract_lets s1
  have h1 : Keeps s₀ s1 := canCount_keeps h
  split
  · exact ResKeeps.next h1
  · exact ResKeeps.next (leaseState_keeps (recheckReadOnly_keeps (modRcv_keeps (settleLease_keeps h1))))

theorem execLeaseQuery_keeps {s₀ s : State} {q : CanReq} (h : Keeps s₀ s) : ResKeeps s₀ (execLeaseQuery q s) := by
  unfold execLeaseQuery
  extract_lets s1
  have h1 : Keeps s₀ s1 := canCount_keeps h
  split
  · exact ResKeeps.next h1
  · exact ResKeeps.next (leaseState_keeps (settleLease_keeps h1))

theorem execLeaseExpiry_keeps {s₀ s : State} (h : Keeps s₀ s) : ResKeeps s₀ (execLeaseExpiry s) := by
  unfold execLeaseExpiry
  refine running_keeps h ?_
  split
  · exact ResKeeps.next h
  · exact ResKeeps.next (recheckReadOnly_keeps (advanceTo_keeps h))

theorem fenceClear_keeps {s₀ s : State} (h : Keeps s₀ s) : PairKeeps s₀ (fenceClear s) := by
  unfold fenceClear
  exact ackOk_keeps (recheckReadOnly_keeps (latchFence_keeps (settleLease_keeps h)))

theorem serviceCmd_keeps {s₀ s : State} {v : Nat} (h : Keeps s₀ s) : PairKeeps s₀ (serviceCmd s v) := by
  unfold serviceCmd
  split
  · exact ackOk_keeps (serviceChange_keeps (Keeps.update h rfl rfl))
  · extract_lets src1 s1
    have h1 : Keeps s₀ s1 := Keeps.update h rfl rfl
    split
    · exact PairKeeps.mk h
    · exact ackOk_keeps (serviceChange_keeps h1)

theorem basecampFails_keeps {s₀ s : State} {cause : Nat} (h : Keeps s₀ s) : Keeps s₀ (basecampFails s cause) := by
  unfold basecampFails
  split
  · exact h
  · exact recheckService_keeps (Keeps.update h rfl rfl)

theorem execBasecampWdExpiry_keeps {s₀ s : State} (h : Keeps s₀ s) : ResKeeps s₀ (execBasecampWdExpiry s) := by
  unfold execBasecampWdExpiry
  split
  · exact ResKeeps.next h
  · exact ResKeeps.next (basecampFails_keeps (Keeps.update h rfl rfl))

theorem execBasecampEccError_keeps {s₀ s : State} (h : Keeps s₀ s) : ResKeeps s₀ (execBasecampEccError s) := by
  unfold execBasecampEccError
  exact ResKeeps.next (basecampFails_keeps h)

/-! ### Machine.Reset -/

theorem storeNow_keeps {s₀ s : State} {e : Nat × Nat} (h : Keeps s₀ s) : Keeps s₀ (storeNow s e) := by
  unfold storeNow
  exact paramAppend_keeps (Keeps.update h rfl rfl)

/-- A state whose versions and memories are those of reset. -/
theorem keeps_of_reset {s₀ s : State} (hver : s.col.ver = State.reset.col.ver) (hmem : s.hbm.mem = State.reset.hbm.mem)
    (hcl : s.clusters = State.reset.clusters) (hropes : s.ropes = State.reset.ropes) : Keeps s₀ s := by
  have hreset : Keeps s₀ State.reset := ⟨fun _ => by unfold VersionsOk; decide, fun _ => reset_memories⟩
  exact hreset.same hver hmem hcl hropes

theorem resetDomains_keeps {s₀ s : State} : Keeps s₀ (resetDomains s) := keeps_of_reset rfl rfl rfl rfl

theorem beginReset_keeps {s₀ s : State} {cause : Nat} (h : Keeps s₀ s) : Keeps s₀ (beginReset s cause) := by
  unfold beginReset
  extract_lets src1 s1 failed1 s2 src2 s3
  have h1 : Keeps s₀ s1 := by
    unfold s1
    split
    · exact Keeps.update h rfl rfl
    · exact h
  have h2 : Keeps s₀ s2 := resetDomains_keeps
  have h3 : Keeps s₀ s3 := Keeps.update h2 rfl rfl
  split
  · exact cairn_keeps h3
  · exact h3

theorem execReset_keeps {s₀ s : State} (h : Keeps s₀ s) : ResKeeps s₀ (execReset s) := by
  unfold execReset
  split
  · exact ResKeeps.next h
  · extract_lets s1 src1
    have h1 : Keeps s₀ s1 := beginReset_keeps h
    exact ResKeeps.next (Keeps.update h1 rfl rfl)

theorem recoveryReset_keeps {s₀ s : State} (h : Keeps s₀ s) : PairKeeps s₀ (recoveryReset s) := by
  unfold recoveryReset
  exact ackOk_keeps (beginReset_keeps h)

theorem execFreeze_keeps {s₀ s : State} (h : Keeps s₀ s) : ResKeeps s₀ (execFreeze s) := by
  unfold execFreeze
  extract_lets pin1 s1 s2 src1 src2 s3
  have h1 : Keeps s₀ s1 := Keeps.foldl (fun s4 x1 h1 => closeStack_keeps h1) (settleRail_keeps h)
  have h2 : Keeps s₀ s2 := by
    unfold s2
    dsimp only [pin1]
    exact Keeps.update h1 rfl rfl
  have h3 : Keeps s₀ s3 := Keeps.update h2 rfl rfl
  split
  · exact ResKeeps.next h
  · split
    · refine ResKeeps.next ?_
      dsimp only [pin1]
      exact Keeps.update h rfl rfl
    · exact ResKeeps.next (setFaultN_keeps (draw_keeps h3))

theorem cutStores_keeps {s₀ s : State} (h : Keeps s₀ s) : Keeps s₀ (cutStores s) := by
  unfold cutStores
  extract_lets s1 src1
  have h1 : Keeps s₀ s1 := by
    unfold s1
    refine Keeps.foldl ?_ h
    intro s2 x1 h1
    extract_lets s3
    have h2 : Keeps s₀ s3 := by
      unfold s3
      split
      · exact storeNow_keeps h1
      · exact h1
    exact draw_keeps h2
  exact Keeps.update h1 rfl rfl

theorem execVinUndervoltage_keeps {s₀ s : State} {torn : Bool} (h : Keeps s₀ s) : ResKeeps s₀ (execVinUndervoltage torn s) := by
  unfold execVinUndervoltage
  split
  · exact ResKeeps.next h
  · extract_lets src1 s1 src2 s2 src3 src4 src5 s3 src6
    have h1 : Keeps s₀ s1 := by
      unfold s1
      split
      · extract_lets bytes1 slot1
        exact Keeps.update h rfl rfl
      · exact h
    have h2 : Keeps s₀ s2 := cutStores_keeps (Keeps.update h1 rfl rfl)
    have h3 : Keeps s₀ s3 := Keeps.update h2 rfl rfl
    exact ResKeeps.next (setFaultN_keeps (Keeps.update h3 rfl rfl))

theorem execVinValid_keeps {s₀ s : State} (h : Keeps s₀ s) : ResKeeps s₀ (execVinValid s) := by
  unfold execVinValid
  split
  · exact ResKeeps.next h
  · extract_lets s1 src1 sys1 src2
    have h1 : Keeps s₀ s1 := resetDomains_keeps
    exact ResKeeps.next (Keeps.update h1 rfl rfl)

theorem useSeeds_keeps {s₀ s : State} (h : Keeps s₀ s) : Keeps s₀ (useSeeds s) := by
  unfold useSeeds
  split
  · exact h
  · extract_lets v1 src1
    exact Keeps.update h rfl rfl

theorem useLayout_keeps {s₀ s : State} (h : Keeps s₀ s) : Keeps s₀ (useLayout s) := by
  unfold useLayout
  extract_lets o1 src1 x1
  split
  · exact Keeps.update h rfl rfl
  · extract_lets v1
    exact Keeps.update h rfl rfl

theorem useStored_keeps {s₀ s : State} (h : Keeps s₀ s) : Keeps s₀ (useStored s) := by
  unfold useStored
  exact Keeps.update h rfl rfl

theorem startTime_keeps {s₀ s : State} (h : Keeps s₀ s) : Keeps s₀ (startTime s) := by
  unfold startTime
  extract_lets carried1 src1 s1 src2
  have h1 : Keeps s₀ s1 := by
    unfold s1
    split
    · exact Keeps.update h rfl rfl
    · exact Keeps.update h rfl rfl
  exact Keeps.update h1 rfl rfl

theorem startRail_keeps {s₀ s : State} (h : Keeps s₀ s) : Keeps s₀ (startRail s) := by
  unfold startRail
  extract_lets f1 v1 src1
  exact reclock_keeps (Keeps.update h rfl rfl)

theorem startCluster_keeps {s₀ s : State} {c : Nat} (h : Keeps s₀ s) : Keeps s₀ (startCluster s c) := by
  unfold startCluster
  extract_lets at_ s1
  have h1 : Keeps s₀ s1 := by
    unfold s1
    split
    · refine modCluster_keepsWf h fun ok => ⟨?_, (ok.2.1 c).2⟩
      dsimp only
      exact homeCells_wf s
    · exact h
  exact modCluster_keeps (startLead_keeps (draw_keeps h1)) (fun _ => rfl) (fun _ => rfl)

theorem startPorts_keeps {s₀ s : State} (h : Keeps s₀ s) : Keeps s₀ (startPorts s) := by
  unfold startPorts
  exact Keeps.foldl (fun s1 x1 h1 => modPort_keeps (trainPort_keeps h1)) h

theorem execStartT0_keeps {s₀ s : State} (h : Keeps s₀ s) : ResKeeps s₀ (execStartT0 s) := by
  unfold execStartT0
  split
  · exact ResKeeps.next h
  · extract_lets s1 s2 v1 s3 s4 s5 src1 s6 s7
    have h1 : Keeps s₀ s1 := resetDomains_keeps
    have h2 : Keeps s₀ s2 := by
      unfold s2
      split
      · exact Keeps.update h1 rfl rfl
      · exact h
    have h3 : Keeps s₀ s3 := Keeps.update h2 rfl rfl
    have h4 : Keeps s₀ s4 := useStored_keeps h3
    have h5 : Keeps s₀ s5 := by
      unfold s5
      split
      · exact cairn_keeps (putObj_keeps h4)
      · exact h4
    have h6 : Keeps s₀ s6 := Keeps.update h5 rfl rfl
    have h7 : Keeps s₀ s7 := startRail_keeps (startTime_keeps (useLayout_keeps (useSeeds_keeps h6)))
    exact ResKeeps.next (recheckReadOnly_keeps (Keeps.foldl (fun s8 x1 h8 => startCluster_keeps h8) (startPorts_keeps h7)))

theorem startupEnd_keeps {s₀ s : State} {held : State → State} (hheld : ∀ s, Keeps s₀ s → Keeps s₀ (held s)) (h : Keeps s₀ s) :
    Keeps s₀ (startupEnd held s) := by
  unfold startupEnd
  extract_lets s1 s2 age first s3
  have h2 : Keeps s₀ s2 := putObj_keeps (advanceTo_keeps h)
  exact serviceChange_keeps (hheld _ (Keeps.update (Keeps.update h2 rfl rfl) rfl rfl))

theorem senseStacks_keeps {s₀ s : State} {l : List ℤ} (h : Keeps s₀ s) : Keeps s₀ (senseStacks s l) := by
  unfold senseStacks
  exact Keeps.foldl (fun s1 x1 h1 => setStack_keeps h1) h

theorem thermalShutdown_keeps {s₀ s : State} (h : Keeps s₀ s) : Keeps s₀ (thermalShutdown s) := by
  unfold thermalShutdown
  extract_lets s1 v1
  have h1 : Keeps s₀ s1 := Keeps.foldl (fun s2 x1 h1 => closeStack_keeps h1) h
  exact recheckService_keeps (Keeps.update h1 rfl rfl)

theorem thermalHot_keeps {s₀ s : State} (h : Keeps s₀ s) : Keeps s₀ (thermalHot s) := by
  unfold thermalHot
  extract_lets fell1 src1 s1 s2
  have h1 : Keeps s₀ s1 := by
    unfold s1
    split
    · exact bump_keeps (Keeps.update h rfl rfl)
    · exact h
  have h2 : Keeps s₀ s2 := modPwr_keeps h1
  split
  · exact managerCmd_keeps h2
  · exact h2

theorem thermalPin_keeps {s₀ s : State} {die hbm hot : ℤ} (h : Keeps s₀ s) : Keeps s₀ (thermalPin s die hbm hot) := by
  unfold thermalPin
  split
  · exact Keeps.update h rfl rfl
  · exact h

theorem thermalCool_keeps {s₀ s : State} {die hbm hot : ℤ} (h : Keeps s₀ s) : Keeps s₀ (thermalCool s die hbm hot) := by
  unfold thermalCool
  extract_lets s1 t1
  have h1 : Keeps s₀ s1 := thermalPin_keeps h
  split
  · exact modPwr_keeps h1
  · exact modPwr_keeps h1

theorem execThermalSample_keeps {s₀ s : State} {die hbm : List ℤ} (h : Keeps s₀ s) :
    ResKeeps s₀ (execThermalSample die hbm s) := by
  unfold execThermalSample
  split
  · exact ResKeeps.next h
  · extract_lets d1 src1 s1 s2 src2 s3 x1 warn1 hot1 src3 s4
    have h1 : Keeps s₀ s1 := Keeps.update h rfl rfl
    have h2 : Keeps s₀ s2 := advanceTo_keeps h1
    have h3 : Keeps s₀ s3 := senseStacks_keeps (Keeps.update h2 rfl rfl)
    have h4 : Keeps s₀ s4 := Keeps.update h3 rfl rfl
    split
    · exact ResKeeps.next h1
    · split
      · exact ResKeeps.next (thermalPin_keeps h4)
      · split
        · refine ResKeeps.next ?_
          refine thermalShutdown_keeps ?_
          split
          · exact thermalHot_keeps h4
          · exact h4
        · split
          · exact ResKeeps.next (thermalHot_keeps h4)
          · exact ResKeeps.next (thermalCool_keeps h4)

/-! ### Machine.Cairn -/

theorem modCairn_keeps {s₀ s : State} {f : CairnSt → CairnSt} (h : Keeps s₀ s) : Keeps s₀ (modCairn s f) := by
  unfold modCairn
  exact Keeps.update h rfl rfl

theorem execCairnRecordWrite_keeps {s₀ s : State} (h : Keeps s₀ s) : ResKeeps s₀ (execCairnRecordWrite s) := by
  unfold execCairnRecordWrite
  split
  · exact ResKeeps.next h
  · split
    · exact ResKeeps.next h
    · extract_lets r1 sev1 s1
      have h1 : Keeps s₀ s1 := bump_keeps h
      exact ResKeeps.next (modCairn_keeps h1)

theorem execCairnScanDone_keeps {s₀ s : State} (h : Keeps s₀ s) : ResKeeps s₀ (execCairnScanDone s) := by
  unfold execCairnScanDone
  split
  · exact ResKeeps.next h
  · extract_lets good1 bad1 next1 src1 s1 s2
    have h1 : Keeps s₀ s1 := advanceTo_keeps (Keeps.update h rfl rfl)
    have h2 : Keeps s₀ s2 := putObj_keeps (modCairn_keeps h1)
    exact ResKeeps.next (cairn_keeps h2)

theorem recordTake_keeps {s₀ s : State} (h : Keeps s₀ s) : PairKeeps s₀ (recordTake s) := by
  unfold recordTake
  extract_lets cur1 n1
  split
  · exact PairKeeps.mk h
  · exact PairKeeps.mk (putObj_keeps h)

theorem windowTake_keeps {s₀ s : State} (h : Keeps s₀ s) : PairKeeps s₀ (windowTake s) := by
  unfold windowTake
  extract_lets cur1 n1 k1
  split
  · exact PairKeeps.mk h
  · exact PairKeeps.mk (putObj_keeps h)

theorem execRecordRead_keeps {s₀ s : State} (h : Keeps s₀ s) : ResKeeps s₀ (execRecordRead s) := by
  unfold execRecordRead
  split
  · exact ResKeeps.next h
  · have h1 : PairKeeps s₀ (recordTake s) := recordTake_keeps h
    split
    · next s1 s2 x1 e2 =>
        have h2 := PairKeeps.of_eq h1 e2
        exact ResKeeps.next (Keeps.update h2 rfl rfl)

theorem execWindowRead_keeps {s₀ s : State} (h : Keeps s₀ s) : ResKeeps s₀ (execWindowRead s) := by
  unfold execWindowRead
  split
  · exact ResKeeps.next h
  · have h1 : PairKeeps s₀ (windowTake s) := windowTake_keeps h
    split
    · next s1 s2 x1 e2 =>
        have h2 := PairKeeps.of_eq h1 e2
        exact ResKeeps.next (Keeps.update h2 rfl rfl)

theorem snapTake_keeps {s₀ s : State} (h : Keeps s₀ s) : PairKeeps s₀ (snapTake s) := by
  unfold snapTake
  split
  · exact PairKeeps.mk h
  · extract_lets n1 first1 s1
    have h1 : Keeps s₀ s1 := putObj_keeps (putObj_keeps (putObj_keeps h))
    exact ackOk_keeps (modCairn_keeps (putObj_keeps h1))

theorem execSnapDone_keeps {s₀ s : State} (h : Keeps s₀ s) : ResKeeps s₀ (execSnapDone s) := by
  unfold execSnapDone
  refine live_keeps h ?_
  split
  · exact ResKeeps.next h
  · next x1 x2 e1 =>
      extract_lets s1 first1 n1 base1 s2
      have h1 : Keeps s₀ s1 := advanceTo_keeps h
      have h2 : Keeps s₀ s2 := Keeps.foldl (fun s3 x3 h2 => hbmWrite_keeps h2) h1
      exact ResKeeps.next (modCairn_keeps (putObj_keeps (stir_keeps h2)))

theorem compactStart_keeps {s₀ s : State} {auto : Bool} (h : Keeps s₀ s) : PairKeeps s₀ (compactStart s auto) := by
  unfold compactStart
  have h1 : PairKeeps s₀ (maintStart s 6 (obj s 18464 1)) := maintStart_keeps h
  split
  · next s1 s2 x1 e1 =>
      have h2 := PairKeeps.of_eq h1 e1
      extract_lets s3
      have h3 : Keeps s₀ s3 := cairn_keeps (putObj_keeps h2)
      exact PairKeeps.mk (modCairn_keeps h3)
  · next s1 s2 e1 =>
      have h2 := PairKeeps.of_eq h1 e1
      exact ackOk_keeps (modCairn_keeps (putObj_keeps h2))

theorem compactGo_keeps {s₀ s : State} (h : Keeps s₀ s) : PairKeeps s₀ (compactGo s) := by
  unfold compactGo
  split
  · exact PairKeeps.mk h
  · exact compactStart_keeps h

theorem compactAuto_keeps {s₀ s : State} (h : Keeps s₀ s) : Keeps s₀ (compactAuto s) := by
  unfold compactAuto
  split
  · exact h
  · exact PairKeeps.fst (compactStart_keeps h)

theorem execCompactionRetry_keeps {s₀ s : State} (h : Keeps s₀ s) : ResKeeps s₀ (execCompactionRetry s) := by
  unfold execCompactionRetry
  refine running_keeps h ?_
  split
  · exact ResKeeps.next h
  · extract_lets s1
    have h1 : Keeps s₀ s1 := modCairn_keeps (advanceTo_keeps h)
    exact ResKeeps.next (compactAuto_keeps h1)

theorem execCompactionDone_keeps {s₀ s : State} (h : Keeps s₀ s) : ResKeeps s₀ (execCompactionDone s) := by
  unfold execCompactionDone
  refine running_keeps h ?_
  split
  · exact ResKeeps.next h
  · extract_lets stks1 held1 used1 s1
    have h1 : Keeps s₀ s1 := bump32_keeps (putObj_keeps (stir_keeps h))
    exact ResKeeps.next (modCairn_keeps h1)

theorem unqueue_keeps {s₀ s : State} {k : Nat} (h : Keeps s₀ s) : Keeps s₀ (unqueue s k) := by
  unfold unqueue
  exact Keeps.update h rfl rfl

theorem execParamStore_keeps {s₀ s : State} {idx : BitVec 16} {sub : BitVec 8} {fails : Nat} (h : Keeps s₀ s) :
    ResKeeps s₀ (execParamStore idx sub fails s) := by
  unfold execParamStore
  extract_lets k1 s1 s2 src1 d1 s3
  have h1 : Keeps s₀ s1 := by
    unfold s1
    split
    · exact advanceTo_keeps h
    · exact h
  have h2 : Keeps s₀ s2 := unqueue_keeps h1
  have h3 : Keeps s₀ s3 := Keeps.update h2 rfl rfl
  split
  · exact ResKeeps.next h
  · split
    · exact ResKeeps.next h
    · split
      · exact ResKeeps.next (cairn_keeps (bump_keeps h3))
      · extract_lets s4
        have h4 : Keeps s₀ s4 := storeNow_keeps h3
        refine ResKeeps.next ?_
        split
        · exact compactAuto_keeps h4
        · exact h4

theorem storeClear_keeps {s₀ s : State} (h : Keeps s₀ s) : PairKeeps s₀ (storeClear s) := by
  unfold storeClear
  exact ackOk_keeps (modCairn_keeps (Keeps.update h rfl rfl))

theorem modDbg_keeps {s₀ s : State} {f : DebugSt → DebugSt} (h : Keeps s₀ s) : Keeps s₀ (modDbg s f) := by
  unfold modDbg
  exact Keeps.update h rfl rfl

theorem execSxdumpSel_keeps {s₀ s : State} {upd : BitVec 32} (h : Keeps s₀ s) : ResKeeps s₀ (execSxdumpSel upd s) := by
  unfold execSxdumpSel
  split
  · exact ResKeeps.next h
  · extract_lets cap1
    exact ResKeeps.next (modDbg_keeps (emit_keeps h))

theorem execSxdumpChain_keeps {s₀ s : State} {n : Nat} (h : Keeps s₀ s) : ResKeeps s₀ (execSxdumpChain n s) := by
  unfold execSxdumpChain
  split
  · exact ResKeeps.next h
  · next e1 =>
      extract_lets t1 len1 live1 data1 s1
      have h1 : Keeps s₀ s1 := emit_keeps h
      exact ResKeeps.next (modDbg_keeps h1)

theorem execSxdumpMem_keeps {s₀ s : State} {upd : BitVec 128} (h : Keeps s₀ s) : ResKeeps s₀ (execSxdumpMem upd s) := by
  unfold execSxdumpMem
  split
  · exact ResKeeps.next h
  · extract_lets t1 a1 n1 w1 s1 next1
    have h1 : Keeps s₀ s1 := emit_keeps h
    exact ResKeeps.next (modDbg_keeps h1)

/-! ### Machine.Col -/

theorem pfcReceived_keeps {s₀ s : State} {lp : Nat} {bs : List Byte} (h : Keeps s₀ s) : Keeps s₀ (pfcReceived s lp bs) := by
  unfold pfcReceived
  split
  · exact h
  · extract_lets mask1 s1
    have h1 : Keeps s₀ s1 := bumpLp_keeps h
    refine Keeps.foldl ?_ h1
    intro s2 x1 h2
    split
    · extract_lets q1 till1 s3
      have h3 : Keeps s₀ s3 := modPort_keeps h2
      split
      · exact h3
      · exact yieldTurn_keeps h3
    · exact h2

theorem ptpHand_keeps {s₀ s : State} {lp : Nat} {bs : List Byte} (h : Keeps s₀ s) : Keeps s₀ (ptpHand s lp bs) := by
  unfold ptpHand
  exact Keeps.update h rfl rfl

theorem police_keeps {s₀ s : State} {tid pre len : Nat} (h : Keeps s₀ s) : PairKeeps s₀ (police s tid pre len) := by
  unfold police
  extract_lets mode1 src1
  split
  · extract_lets s1 s2 drop1
    have h1 : Keeps s₀ s1 := Keeps.update h rfl rfl
    have h2 : Keeps s₀ s2 := bumpTen_keeps h1
    refine PairKeeps.mk ?_
    split
    · exact bumpTen_keeps h2
    · exact h2

theorem sourceLookup_keeps {s₀ s : State} {lp : Nat} {h : Sxt} (hs : Keeps s₀ s) : PairKeeps s₀ (sourceLookup s lp h) := by
  unfold sourceLookup
  have h1 : PairKeeps s₀ (epLookup s (epKey h.tid h.src)) := epLookup_keeps hs
  split
  · next s1 s2 x1 e1 =>
      have h2 := PairKeeps.of_eq h1 e1
      extract_lets wants1 src1 s3
      have h3 : Keeps s₀ s3 := by
        unfold s3
        split
        · split
          · exact Keeps.update h2 rfl rfl
          · exact bump_keeps h2
        · exact h2
      exact PairKeeps.mk h3

theorem ruleDecided_keeps {s₀ s : State} {w : RuleWait} (h : Keeps s₀ s) : Keeps s₀ (ruleDecided s w) := by
  unfold ruleDecided
  extract_lets x1 x2
  split
  · exact dropAtCol_keeps (nakFrame_keeps h)
  · exact formPitch_keeps (setFrame_keeps h)

theorem releaseWaiting_keeps {s₀ s : State} {blocked : List (BitVec 12 × BitVec 24 × BitVec 16)} {ws : List RuleWait}
    (h : Keeps s₀ s) : Keeps s₀ (releaseWaiting s blocked ws) := by
  induction ws generalizing s blocked with
  | nil => exact h
  | cons w ws ih =>
    unfold releaseWaiting
    extract_lets d1 src1 s1
    have h1 : Keeps s₀ s1 := Keeps.update h rfl rfl
    split
    · exact ih (ruleDecided_keeps h1)
    · exact ih h

theorem ruleProbe_keeps {s₀ s : State} {f : Nat} (h : Keeps s₀ s) : Keeps s₀ (ruleProbe s f) := by
  unfold ruleProbe
  extract_lets keys1
  have h1 : PairKeeps s₀
    (List.foldl
      (fun acc k =>
        match cacheFind acc.1 k with
        | some l => (cacheTouch (bump acc.1 18433 6) l, acc.2)
        | none => (bump acc.1 4128 6, acc.2 ++ [k]))
      (s, []) keys1) := by
    refine PairKeeps.foldl ?_ (PairKeeps.mk h)
    intro s1 x1 h1
    split
    · exact PairKeeps.mk (cacheTouch_keeps (bump_keeps (PairKeeps.fst h1)))
    · exact PairKeeps.mk (bump_keeps (PairKeeps.fst h1))
  split
  · next s1 s2 x1 e1 =>
      have h2 := PairKeeps.of_eq h1 e1
      extract_lets src1 s3
      have h3 : Keeps s₀ s3 := Keeps.update h2 rfl rfl
      exact releaseWaiting_keeps h3

theorem execRuleReadDone_keeps {s₀ s : State} {frame : Nat} (h : Keeps s₀ s) : ResKeeps s₀ (execRuleReadDone frame s) := by
  unfold execRuleReadDone
  refine live_keeps h ?_
  split
  · exact ResKeeps.next h
  · next x1 x2 e1 =>
      split
      · exact ResKeeps.next h
      · have h1 : PairKeeps s₀
              (List.foldl
                (fun acc k =>
                  match probeHbm acc.1 k with
                  | (s, true) => (s, acc.2)
                  | (s, false) => (s, acc.2 ++ [k]))
                (s, []) x2.misses) := by
          refine PairKeeps.foldl ?_ (PairKeeps.mk h)
          intro s1 x3 h1
          have h2 : PairKeeps s₀ (probeHbm s1.1 x3) := probeHbm_keeps (PairKeeps.fst h1)
          split
          · next s2 s3 e3 =>
              have h3 := PairKeeps.of_eq h2 e3
              exact PairKeeps.mk h3
          · next s2 s3 e3 =>
              have h3 := PairKeeps.of_eq h2 e3
              exact PairKeeps.mk h3
        split
        · next s1 s2 x3 e3 =>
            have h2 := PairKeeps.of_eq h1 e3
            extract_lets src1 s3
            have h3 : Keeps s₀ s3 := Keeps.update h2 rfl rfl
            exact ResKeeps.next (finishScans_keeps (releaseWaiting_keeps h3))

theorem storeFrame_keeps {s₀ s : State} {lp : Nat} {bs : List Byte} {noBank : Nat} (h : Keeps s₀ s) :
    PairKeeps s₀ (storeFrame s lp bs noBank) := by
  unfold storeFrame
  extract_lets n1 wait1 st1 full1 wait2 st2
  split
  · exact PairKeeps.mk (bump_keeps h)
  · next x1 x2 e1 =>
      split
      · exact PairKeeps.mk (bump_keeps h)
      · split
        · exact PairKeeps.mk (bump_keeps h)
        · have h1 : OptPairKeeps s₀ (takeCells (useHead s x2) (n1 - wait2)) := takeCells_keeps (useHead_keeps h)
          split
          · exact PairKeeps.mk (bump_keeps h)
          · next s1 s2 x3 e4 =>
              have h2 := OptPairKeeps.of_eq h1 e4
              exact PairKeeps.mk (Keeps.update h2 rfl rfl)

theorem lookupStage_keeps {s₀ s : State} {lp : Nat} {bs : List Byte} {off : Nat} {ecn : BitVec 2} {h : Sxt} {colour : Nat} {store : Nat × List Nat} {pr : Option Pair} (hs : Keeps s₀ s) :
    Keeps s₀ (lookupStage s lp bs off ecn h colour store pr) := by
  unfold lookupStage
  extract_lets s1 here1 x1 f1 s2 s3 ecn1 x2
  have h1 : Keeps s₀ s1 := settleLease_keeps hs
  have h2 : Keeps s₀ s2 := versionUp_keeps (Keeps.update h1 rfl rfl)
  have h3 : Keeps s₀ s3 := modPort_keeps h2
  have h4 : PairKeeps s₀ (sourceLookup s3 lp x1) := sourceLookup_keeps h3
  split
  · next s4 s5 x3 e1 =>
      have h5 := PairKeeps.of_eq h4 e1
      extract_lets s6
      have h6 : Keeps s₀ s6 := setFrame_keeps h5
      split
      · exact dropAtCol_keeps (nakFrame_keeps (bumpLp_keeps h6))
      · split
        · exact dropAtCol_keeps (nakFrame_keeps (bump_keeps h6))
        · split
          · exact dropAtCol_keeps (nakFrame_keeps h6)
          · have h7 : PairKeeps s₀
                  (match pr with
                  | some p => (s6, 0, p.hostLp)
                  | none =>
                    if here1 = true then (s6, 2, 0)
                    else
                      match epLookup s6 (epKey x1.tid x1.dst) with
                      | (s, some e) => (s, 0, eLp e)
                      | (s, none) => (s, 1, 0)) := by
              split
              · exact PairKeeps.mk h6
              · split
                · exact PairKeeps.mk h6
                · have h7 : PairKeeps s₀ (epLookup s6 (epKey x1.tid x1.dst)) := epLookup_keeps h6
                  split
                  · next s7 s8 x5 e6 =>
                      have h8 := PairKeeps.of_eq h7 e6
                      exact PairKeeps.mk h8
                  · next s7 s8 e6 =>
                      have h8 := PairKeeps.of_eq h7 e6
                      exact PairKeeps.mk h8
            split
            · next s7 s8 x4 x5 e5 =>
                have h8 := PairKeeps.of_eq h7 e5
                exact ruleProbe_keeps (setFrame_keeps h8)

theorem unstore_keeps {s₀ s : State} {store : Nat × List Nat} (h : Keeps s₀ s) : Keeps s₀ (unstore s store) := by
  unfold unstore
  exact dropStage_keeps (freeCellList_keeps (freeHead_keeps h))

theorem countGranted_keeps {s₀ s : State} {lp : Nat} {bs : List Byte} {h : Sxt} (hs : Keeps s₀ s) :
    Keeps s₀ (countGranted s lp bs h) := by
  unfold countGranted
  split
  · exact hs
  · exact modPort_keeps hs

theorem admitFrame_keeps {s₀ s : State} {lp : Nat} {bs : List Byte} {off : Nat} {ecn : BitVec 2} {h : Sxt} {store : Nat × List Nat} (hs : Keeps s₀ s) :
    Keeps s₀ (admitFrame s lp bs off ecn h store) := by
  unfold admitFrame
  extract_lets here1
  split
  · exact unstore_keeps (bumpLp_keeps hs)
  · split
    · have h1 : PairKeeps s₀ (accept s lp h) := accept_keeps hs
      split
      · next s1 s2 x1 e3 =>
          have h2 := PairKeeps.of_eq h1 e3
          split
          · refine unstore_keeps ?_
            extract_lets s3
            have h3 : Keeps s₀ s3 := bump_keeps h2
            split
            · exact settle_keeps h3
            · exact h3
          · split
            · exact unstore_keeps h2
            · have h3 : PairKeeps s₀ (police s h.tid.toNat h.colour.toNat bs.length) := police_keeps hs
              split
              · next s3 s4 x4 e6 =>
                  have h4 := PairKeeps.of_eq h3 e6
                  exact unstore_keeps h4
              · next s3 s4 x4 e6 =>
                  have h4 := PairKeeps.of_eq h3 e6
                  extract_lets s5 s6 s7
                  have h5 : Keeps s₀ s5 := PairKeeps.fst (police_keeps h2)
                  have h6 : Keeps s₀ s6 := settle_keeps h5
                  have h7 : Keeps s₀ s7 := by
                    unfold s7
                    split
                    · exact dropPair_keeps h6
                    · exact h6
                  split
                  · exact lookupStage_keeps h7
    · have h1 : PairKeeps s₀ (police s h.tid.toNat h.colour.toNat bs.length) := police_keeps hs
      split
      · next s1 s2 x1 e3 =>
          have h2 := PairKeeps.of_eq h1 e3
          exact unstore_keeps h2
      · next s1 s2 x1 e3 =>
          have h2 := PairKeeps.of_eq h1 e3
          split
          · have h3 : PairKeeps s₀ (accept s2 lp h) := accept_keeps h2
            split
            · next s3 s4 e5 =>
                have h4 := PairKeeps.of_eq h3 e5
                exact lookupStage_keeps h4
            · next s3 s4 x2 e5 e6 =>
                have h4 := PairKeeps.of_eq h3 e6
                exact unstore_keeps h4
          · exact lookupStage_keeps h2

theorem sxtNode_keeps {s₀ s : State} {lp : Nat} {bs : List Byte} {off : Nat} {ip6 : Option (BitVec 128)} {ecn : BitVec 2} {store : Nat × List Nat} (h : Keeps s₀ s) :
    Keeps s₀ (sxtNode s lp bs off ip6 ecn store) := by
  unfold sxtNode
  extract_lets x1 here1 s1 s2 stray1 s3 lim1
  have h1 : Keeps s₀ s1 := unstore_keeps (bumpLp_keeps h)
  have h2 : Keeps s₀ s2 := countGranted_keeps h
  have h3 : Keeps s₀ s3 := by
    unfold s3
    split
    · exact h2
    · exact modPort_keeps h2
  split
  · split
    · have h4 : PairKeeps s₀ (accept s1 lp x1) := accept_keeps h1
      split
      · next s4 s5 e3 =>
          have h5 := PairKeeps.of_eq h4 e3
          exact finalNak_keeps h5
      · next s4 s5 x2 e3 e4 =>
          have h5 := PairKeeps.of_eq h4 e4
          exact h5
    · exact h1
  · split
    · exact unstore_keeps (bump_keeps h)
    · split
      · exact unstore_keeps (pulseReceived_keeps h3)
      · split
        · exact unstore_keeps (modPort_keeps h3)
        · split
          · exact unstore_keeps h3
          · split
            · exact unstore_keeps (ackReceived_keeps h3)
            · split
              · exact unstore_keeps (nakReceived_keeps h3)
              · exact admitFrame_keeps h3

theorem execFrameReceived_keeps {s₀ s : State} {lp : Nat} {bytes : List Byte} {noBank : Nat} (h : Keeps s₀ s) :
    ResKeeps s₀ (execFrameReceived lp bytes noBank s) := by
  unfold execFrameReceived
  extract_lets s1 s2 s3 s4
  have h1 : Keeps s₀ s1 := wokenBy_keeps h
  have h2 : Keeps s₀ s2 := by
    unfold s2
    split
    · exact h1
    · exact stir_keeps h1
  have h3 : Keeps s₀ s3 := bumpBy_keeps (bumpLp_keeps h2)
  have h4 : Keeps s₀ s4 := bumpLp_keeps h3
  split
  · exact ResKeeps.next h1
  · split
    · exact ResKeeps.next (bumpLp_keeps h2)
    · exact ResKeeps.next (bumpLp_keeps h2)
    · exact ResKeeps.next (bumpLp_keeps h2)
    · split
      · split
        · refine ResKeeps.next ?_
          split
          · exact pulseReceived_keeps h4
          · exact h4
        · exact ResKeeps.next h4
      · split
        · exact ResKeeps.next (pfcReceived_keeps h3)
        · have h5 : PairKeeps s₀ (storeFrame s3 lp bytes noBank) := storeFrame_keeps h3
          split
          · next s5 s6 e5 =>
              have h6 := PairKeeps.of_eq h5 e5
              exact ResKeeps.next h6
          · next s5 s6 x2 e5 =>
              have h6 := PairKeeps.of_eq h5 e5
              split
              · exact ResKeeps.next (unstore_keeps (bump_keeps h6))
              · exact ResKeeps.next (unstore_keeps (ptpHand_keeps (bump_keeps h6)))
              · exact ResKeeps.next (finishScans_keeps (sxtNode_keeps h6))

/-! ### Machine.Crampon -/

theorem execKmvWk_keeps {s₀ s : State} {r : Issuer} {kd : BitVec 4} {w : BitVec 5} {lane : BitVec 3} (h : Keeps s₀ s) :
    ResKeeps s₀ (execKmvWk r kd w lane s) := by
  unfold execKmvWk
  refine issueK_keeps h ?_
  intro s1 h1
  extract_lets x1
  exact EffKeeps.done (kPost_keeps h1)

theorem execKmvKw_keeps {s₀ s : State} {r : Issuer} {w : BitVec 5} {ka : BitVec 4} {lane : BitVec 3} (h : Keeps s₀ s) :
    ResKeeps s₀ (execKmvKw r w ka lane s) := by
  unfold execKmvKw
  exact issueK_keeps h (fun s1 h1 => EffKeeps.done (modRope_keeps h1 (fun x1 => by simp)))

theorem execKmvLd_keeps {s₀ s : State} {r : Issuer} {kd : BitVec 4} {w : Checked (BitVec 5)} (h : Keeps s₀ s) :
    ResKeeps s₀ (execKmvLd r kd w s) := by
  unfold execKmvLd
  refine issueK_keeps h ?_
  intro s1 h1
  extract_lets n1 a1
  split
  · exact EffKeeps.trap
  · split
    · exact EffKeeps.trap
    · split
      · exact EffKeeps.trap
      · split
        · exact EffKeeps.held (stall_keeps h1)
        · extract_lets p1
          exact EffKeeps.done (modRope_keeps h1 (fun x3 => rfl))

theorem execKmvSt_keeps {s₀ s : State} {r : Issuer} {ka : BitVec 4} {w : BitVec 5} (h : Keeps s₀ s) :
    ResKeeps s₀ (execKmvSt r ka w s) := by
  unfold execKmvSt
  refine issueK_keeps h ?_
  intro s1 h1
  extract_lets n1 a1 bs1
  split
  · exact EffKeeps.trap
  · extract_lets s2
    have h2 : Keeps s₀ s2 := memWrite_keeps h1
    split
    · exact EffKeeps.held (stall_keeps (modRope_keeps h2 (fun x3 => by simp)))
    · exact EffKeeps.done h2

theorem execKmvKk_keeps {s₀ s : State} {r : Issuer} {kd ka : BitVec 4} (h : Keeps s₀ s) :
    ResKeeps s₀ (execKmvKk r kd ka s) := by
  unfold execKmvKk
  exact issueK_keeps h (fun s1 h1 => EffKeeps.done (kPost_keeps h1))

theorem execKcrc32c_keeps {s₀ s : State} {r : Issuer} {kd ka : BitVec 4} {w : BitVec 5} (h : Keeps s₀ s) :
    ResKeeps s₀ (execKcrc32c r kd ka w s) := by
  unfold execKcrc32c
  refine issueK_keeps h ?_
  intro s1 h1
  extract_lets x1 v1
  exact EffKeeps.done (kPost_keeps h1)

theorem execKcrc32_keeps {s₀ s : State} {r : Issuer} {kd ka : BitVec 4} {w : BitVec 5} (h : Keeps s₀ s) :
    ResKeeps s₀ (execKcrc32 r kd ka w s) := by
  unfold execKcrc32
  refine issueK_keeps h ?_
  intro s1 h1
  extract_lets x1 v1
  exact EffKeeps.done (kPost_keeps h1)

theorem execKh2_keeps {s₀ s : State} {r : Issuer} {kd ka kb : BitVec 4} {w : BitVec 5} (h : Keeps s₀ s) :
    ResKeeps s₀ (execKh2 r kd ka kb w s) := by
  unfold execKh2
  refine issueK_keeps h ?_
  intro s1 h1
  extract_lets x1
  exact EffKeeps.done (kPost_keeps h1)

theorem execKcmpm_keeps {s₀ s : State} {r : Issuer} {kd ka kb : BitVec 4} (h : Keeps s₀ s) :
    ResKeeps s₀ (execKcmpm r kd ka kb s) := by
  unfold execKcmpm
  refine issueK_keeps h ?_
  intro s1 h1
  extract_lets x1
  exact EffKeeps.done (kPost_keeps h1)

theorem execKsplice_keeps {s₀ s : State} {r : Issuer} {kd ka kb : BitVec 4} {w : BitVec 5} (h : Keeps s₀ s) :
    ResKeeps s₀ (execKsplice r kd ka kb w s) := by
  unfold execKsplice
  refine issueK_keeps h ?_
  intro s1 h1
  extract_lets x1
  exact EffKeeps.done (kPost_keeps h1)

theorem execKtxl_keeps {s₀ s : State} {r : Issuer} {kd ka : BitVec 4} (h : Keeps s₀ s) : ResKeeps s₀ (execKtxl r kd ka s) := by
  unfold execKtxl
  refine issueK_keeps h ?_
  intro s1 h1
  extract_lets n1 k1 l11 s2 post1
  have h2 : Keeps s₀ s2 := bump_keeps h1
  split
  · exact EffKeeps.held (stall_keeps h1)
  · have h3 : PairKeeps s₀ (txlIssue s2 (laneAt k1 0) (BitVec.setWidth 12 l11) (BitVec.getLsbD l11 16)) := txlIssue_keeps h2
    split
    · next s3 s4 x1 e2 =>
        have h4 := PairKeeps.of_eq h3 e2
        refine EffKeeps.done ?_
        dsimp only [post1]
        exact modRope_keeps h4 (fun x2 => rfl)
    · next s3 s4 x1 e2 =>
        have h4 := PairKeeps.of_eq h3 e2
        refine EffKeeps.done ?_
        dsimp only [post1]
        exact modRope_keeps (bump_keeps h4) (fun x2 => rfl)

theorem execKResultWritten_keeps {s₀ s : State} {r : RopeId} {kd : BitVec 4} (h : Keeps s₀ s) :
    ResKeeps s₀ (execKResultWritten r kd s) := by
  unfold execKResultWritten
  refine live_keeps h ?_
  split
  · exact ResKeeps.next h
  · split
    · exact ResKeeps.next h
    · exact ResKeeps.next (kDue_keeps h)

theorem execMapReadDone_keeps {s₀ s : State} {r : RopeId} {kd : BitVec 4} (h : Keeps s₀ s) :
    ResKeeps s₀ (execMapReadDone r kd s) := by
  unfold execMapReadDone
  refine live_keeps h ?_
  split
  · exact ResKeeps.next h
  · split
    · exact ResKeeps.next h
    · next x3 x4 e2 =>
        split
        · exact ResKeeps.next h
        · have h1 : PairKeeps s₀ (txlMissDone s x4) := txlMissDone_keeps h
          split
          · next s1 s2 x5 e4 =>
              have h2 := PairKeeps.of_eq h1 e4
              exact ResKeeps.next (modRope_keeps h2 (fun x6 => rfl))

theorem execKsave_keeps {s₀ s : State} {r : Issuer} {w : BitVec 5} (h : Keeps s₀ s) : ResKeeps s₀ (execKsave r w s) := by
  unfold execKsave
  refine issueK_keeps h ?_
  intro s1 h1
  extract_lets n1
  split
  · exact EffKeeps.trap
  · extract_lets s2
    have h2 : Keeps s₀ s2 := memWrite_keeps h1
    exact EffKeeps.held (stall_keeps (modRope_keeps h2 (fun x3 => by simp)))

theorem window_foldl_setK (l : List (BitVec 4)) (f : BitVec 4 → KWord) (x : Rope) :
    (l.foldl (fun x k => setK x k (f k)) x).window = x.window := foldl_keeps Rope.window _ (fun x k => window_setK x _ _) l x

theorem execKload_keeps {s₀ s : State} {r : Issuer} {w : Checked (BitVec 5)}
    (h : Keeps s₀ s) : ResKeeps s₀ (execKload r w s) := by
  unfold execKload
  refine issueK_keeps h fun s hs => ?_
  extract_lets n bs t
  split
  · exact EffKeeps.trap
  split
  · exact EffKeeps.trap
  · exact EffKeeps.held (stall_keeps (modRope_keeps (modRope_keeps hs fun x => window_foldl_setK allK _ x) window_nextPc))

/-! ### Machine.Scree -/

theorem countWaits_keeps {s₀ s : State} (h : Keeps s₀ s) : Keeps s₀ (countWaits s) := by
  unfold countWaits
  extract_lets fresh1 src1 s1
  have h1 : Keeps s₀ s1 := Keeps.update h rfl rfl
  exact bumpBy_keeps h1

theorem acceptSegment_keeps {s₀ s : State} {g : Segment} (h : Keeps s₀ s) : Keeps s₀ (acceptSegment s g) := by
  unfold acceptSegment
  split
  · exact setScan_keeps h
  · extract_lets p1 k1 c1 src1
    exact finishScans_keeps (versionUp_keeps (setScan_keeps (Keeps.update h rfl rfl)))

theorem refuseSegment_keeps {s₀ s : State} {g : Segment} {code detail : Nat} (h : Keeps s₀ s) :
    Keeps s₀ (refuseSegment s g code detail) := by
  unfold refuseSegment
  extract_lets s1 nak1 src1
  have h1 : Keeps s₀ s1 := bump_keeps h
  split
  · dsimp only [nak1]
    exact sendNak_keeps h1
  · split
    · exact finishScans_keeps (stopScan_keeps h1)
    · dsimp only [nak1]
      exact sendNak_keeps (retire_keeps (Keeps.update h1 rfl rfl))

theorem execScanSegmentAccept_keeps {s₀ s : State} (h : Keeps s₀ s) : ResKeeps s₀ (execScanSegmentAccept s) := by
  unfold execScanSegmentAccept
  refine live_keeps h ?_
  split
  · exact ResKeeps.next h
  · extract_lets s1 src1
    have h1 : Keeps s₀ s1 := countWaits_keeps h
    split
    · exact ResKeeps.next h1
    · extract_lets s2
      have h2 : Keeps s₀ s2 := Keeps.update h1 rfl rfl
      split
      · exact ResKeeps.next (refuseSegment_keeps h2)
      · exact ResKeeps.next (acceptSegment_keeps h2)

theorem execSegmentWaitExpiry_keeps {s₀ s : State} {scan : Nat} (h : Keeps s₀ s) :
    ResKeeps s₀ (execSegmentWaitExpiry scan s) := by
  unfold execSegmentWaitExpiry
  refine live_keeps h ?_
  split
  · exact ResKeeps.next h
  · split
    · exact ResKeeps.next (finishScans_keeps (stopScan_keeps (advanceTo_keeps h)))
    · exact ResKeeps.next h

theorem granuleCheck_keeps {s₀ s : State} {tid : BitVec 12} {g : SegRun} (h : Keeps s₀ s) :
    PairKeeps s₀ (granuleCheck s tid g) := by
  unfold granuleCheck
  extract_lets n1 check1
  split
  · dsimp only [check1]
    split
    · exact PairKeeps.mk (bumpTen_keeps (txlInstall_keeps h))
    · split
      · exact PairKeeps.mk (bumpTen_keeps (txlInstall_keeps h))
      · split
        · exact PairKeeps.mk (bumpTen_keeps (txlInstall_keeps h))
        · split
          · exact PairKeeps.mk (bumpTen_keeps (txlInstall_keeps h))
          · exact PairKeeps.mk (txlInstall_keeps h)
  · have h1 : PairKeeps s₀ (mapRead s n1) := mapRead_keeps h
    split
    · next s1 s2 e2 =>
        have h2 := PairKeeps.of_eq h1 e2
        exact PairKeeps.mk h2
    · next s1 s2 x2 e2 =>
        have h2 := PairKeeps.of_eq h1 e2
        dsimp only [check1]
        split
        · exact PairKeeps.mk (bumpTen_keeps (txlInstall_keeps h2))
        · split
          · exact PairKeeps.mk (bumpTen_keeps (txlInstall_keeps h2))
          · split
            · exact PairKeeps.mk (bumpTen_keeps (txlInstall_keeps h2))
            · split
              · exact PairKeeps.mk (bumpTen_keeps (txlInstall_keeps h2))
              · exact PairKeeps.mk (txlInstall_keeps h2)

theorem sendScanRd_keeps {s₀ s : State} {k : Nat} {c : Scan} {g : SegRun} {n : Nat} (h : Keeps s₀ s) :
    Keeps s₀ (sendScanRd s k c g n) := by
  unfold sendScanRd
  extract_lets x1 q1
  exact admitNew_keeps (versionUp_keeps h)

theorem scanRd_keeps {s₀ s : State} {k : Nat} {c : Scan} (h : Keeps s₀ s) : Keeps s₀ (scanRd s k c) := by
  unfold scanRd
  split
  · exact h
  · next x1 x2 e1 =>
      extract_lets t1 n1 m1
      have h1 : PairKeeps s₀ (if ten s t1.toNat 80 = 0 then (s, Except.ok false) else if x2.granule = some n1 then (s, Except.ok x2.enc) else granuleCheck s t1 x2) :=
          by
        split
        · exact PairKeeps.mk h
        · split
          · exact PairKeeps.mk h
          · exact granuleCheck_keeps h
      split
      · next s1 s2 x3 e2 =>
          have h2 := PairKeeps.of_eq h1 e2
          split
          · have h3 := PairKeeps.of_eq h1 e2
            exact finishScans_keeps (stopScan_keeps h2)
          · have h3 := PairKeeps.of_eq h1 e2
            extract_lets g1 s3 src1 s4
            have h4 : Keeps s₀ s3 := setScan_keeps h2
            have h5 : Keeps s₀ s4 := Keeps.update h4 rfl rfl
            exact finishScans_keeps (sendScanRd_keeps h5)

theorem stallTenant_keeps {s₀ s : State} {t : Nat} (h : Keeps s₀ s) : Keeps s₀ (stallTenant s t) := by
  unfold stallTenant
  split
  · exact h
  · exact bumpTen_keeps (Keeps.update h rfl rfl)

theorem execScanRdIssue_keeps {s₀ s : State} {tid : BitVec 12} (h : Keeps s₀ s) : ResKeeps s₀ (execScanRdIssue tid s) := by
  unfold execScanRdIssue
  refine live_keeps h ?_
  extract_lets t1 live1 last1 src1
  split
  · exact ResKeeps.next h
  · split
    · exact ResKeeps.next h
    · split
      · exact ResKeeps.next (stallTenant_keeps h)
      · exact ResKeeps.next (scanRd_keeps (Keeps.update h rfl rfl))

theorem packRow_keeps {s₀ s : State} {e k : Nat} {c : Scan} {row : Nat} {bs : List Byte} (h : Keeps s₀ s) :
    Keeps s₀ (packRow s e k c row bs) := by
  unfold packRow
  split
  · exact h
  · extract_lets f1 f2 s1 src1
    have h1 : Keeps s₀ s1 := dropRowFrame_keeps h
    split
    · exact sendRows_keeps h1
    · exact Keeps.update h1 rfl rfl

theorem evalRow_keeps {s₀ s : State} {e k row : Nat} {bs : List Byte} (h : Keeps s₀ s) : Keeps s₀ (evalRow s e k row bs) := by
  unfold evalRow
  split
  · exact h
  · extract_lets s1 hit1 c1 aggs1 c2
    have h1 : Keeps s₀ s1 := bump_keeps h
    split
    · exact packRow_keeps (setScan_keeps (bump_keeps h1))
    · exact setScan_keeps h1

theorem evalRows_keeps {s₀ s : State} {e k rb : Nat} {bs : List Byte} {row : Nat} (h : Keeps s₀ s) :
    Keeps s₀ (evalRows s e k rb bs row) := by
  unfold evalRows
  exact Keeps.foldl (fun s1 x1 h1 => evalRow_keeps h1) h

theorem execScreeRspEvaluate_keeps {s₀ s : State} {engine parity : Nat} (h : Keeps s₀ s) :
    ResKeeps s₀ (execScreeRspEvaluate engine parity s) := by
  unfold execScreeRspEvaluate
  split
  · exact ResKeeps.next h
  · next e1 =>
      extract_lets s1 src1
      have h1 : Keeps s₀ s1 := advanceTo_keeps h
      split
      · exact ResKeeps.next h1
      · extract_lets s2 mate1 bad1 s3 src2 s4 s5 e3 s6 s7 src3
        have h2 : Keeps s₀ s2 := Keeps.update h1 rfl rfl
        have h3 : Keeps s₀ s3 := by
          unfold s3
          split
          · exact h2
          · exact scanRdBack_keeps h2
        have h4 : Keeps s₀ s4 := bump_keeps (Keeps.update h3 rfl rfl)
        have h5 : Keeps s₀ s5 := cairn_keeps h4
        have h6 : Keeps s₀ s6 := by
          unfold s6
          split
          · exact h3
          · exact bump_keeps (advanceTo_keeps h3)
        have h7 : Keeps s₀ s7 := bumpBy_keeps h6
        split
        · exact ResKeeps.next h2
        · split
          · exact ResKeeps.next (finishScans_keeps (stopScan_keeps h5))
          · extract_lets s8
            have h8 : Keeps s₀ s8 := Keeps.update h7 rfl rfl
            exact ResKeeps.next (finishScans_keeps (evalRows_keeps h8))

theorem execRowFlushExpiry_keeps {s₀ s : State} {engine scan : Nat} (h : Keeps s₀ s) :
    ResKeeps s₀ (execRowFlushExpiry engine scan s) := by
  unfold execRowFlushExpiry
  refine live_keeps h ?_
  split
  · exact ResKeeps.next h
  · exact ResKeeps.next (sendRows_keeps (dropRowFrame_keeps (advanceTo_keeps h)))

theorem screeTestGo_keeps {s₀ s : State} (h : Keeps s₀ s) : PairKeeps s₀ (screeTestGo s) := by
  unfold screeTestGo
  extract_lets e1
  split
  · exact PairKeeps.mk h
  · split
    · exact PairKeeps.mk (putObj_keeps h)
    · have h1 : PairKeeps s₀ (maintStart s 5 (obj s 18464 1)) := maintStart_keeps h
      split
      · next s1 s2 x1 e4 =>
          have h2 := PairKeeps.of_eq h1 e4
          exact PairKeeps.mk h2
      · next s1 s2 e4 =>
          have h2 := PairKeeps.of_eq h1 e4
          exact ackOk_keeps (putObj_keeps (Keeps.update h2 rfl rfl))

theorem execScreeTestDone_keeps {s₀ s : State} {pass : Bool} (h : Keeps s₀ s) : ResKeeps s₀ (execScreeTestDone pass s) := by
  unfold execScreeTestDone
  refine live_keeps h ?_
  split
  · exact ResKeeps.next h
  · extract_lets src1 s1
    have h1 : Keeps s₀ s1 := Keeps.update h rfl rfl
    refine ResKeeps.next ?_
    split
    · exact putObj_keeps (stir_keeps h1)
    · exact cairn_keeps (putObj_keeps (stir_keeps h1))

theorem progStart_keeps {s₀ s : State} {img : Option (List Byte)} (h : Keeps s₀ s) : PairKeeps s₀ (progStart s img) := by
  unfold progStart
  split
  · exact PairKeeps.mk h
  · have h1 : PairKeeps s₀ (maintStart s 4 (obj s 18464 1)) := maintStart_keeps h
    split
    · next s1 s2 x1 e2 =>
        have h2 := PairKeeps.of_eq h1 e2
        exact PairKeeps.mk (putObj_keeps h2)
    · next s1 s2 e2 =>
        have h2 := PairKeeps.of_eq h1 e2
        exact ackOk_keeps (putObj_keeps (Keeps.update h2 rfl rfl))

theorem progLoad_keeps {s₀ s : State} (h : Keeps s₀ s) : PairKeeps s₀ (progLoad s) := by
  unfold progLoad
  split
  · exact PairKeeps.mk h
  · split
    · exact PairKeeps.mk h
    · extract_lets img1
      split
      · exact ackOk_keeps (putObj_keeps (putObj_keeps h))
      · exact progStart_keeps h

theorem progUnload_keeps {s₀ s : State} (h : Keeps s₀ s) : PairKeeps s₀ (progUnload s) := by
  unfold progUnload
  exact progStart_keeps h

theorem execProgTakesEffect_keeps {s₀ s : State} (h : Keeps s₀ s) : ResKeeps s₀ (execProgTakesEffect s) := by
  unfold execProgTakesEffect
  refine live_keeps h ?_
  split
  · exact ResKeeps.next h
  · split
    · exact ResKeeps.next h
    · extract_lets src1 s1 s2 src2
      have h1 : Keeps s₀ s1 := Keeps.update h rfl rfl
      have h2 : Keeps s₀ s2 := stir_keeps (putObj_keeps h1)
      split
      · extract_lets s3
        have h3 : Keeps s₀ s3 := Keeps.update h2 rfl rfl
        exact ResKeeps.next (hbmWrite_keeps h3)
      · exact ResKeeps.next (Keeps.update h2 rfl rfl)

/-! ### Machine.Watershed -/

theorem setTokens_keeps {s₀ s : State} {c tid l : Nat} (h : Keeps s₀ s) : Keeps s₀ (setTokens s c tid l) := by
  unfold setTokens
  exact setShed_keeps h

theorem tokensNow_keeps {s₀ s : State} {tid : Nat} (h : Keeps s₀ s) : Keeps s₀ (tokensNow s tid) := by
  unfold tokensNow
  exact Keeps.foldl (fun s1 x1 h1 => setTokens_keeps h1) h

theorem takeToken_keeps {s₀ s : State} {c tid : Nat} (h : Keeps s₀ s) : Keeps s₀ (takeToken s c tid) := by
  unfold takeToken
  split
  · exact h
  · exact setTokens_keeps h

theorem firstDispatch_keeps {s₀ s : State} {p : Pitch} (h : Keeps s₀ s) : PairKeeps s₀ (firstDispatch s p) := by
  unfold firstDispatch
  extract_lets s1 l1 la1 s2
  have h1 : Keeps s₀ s1 := by
    unfold s1
    refine Keeps.foldl ?_ h
    intro s3 x1 h1
    extract_lets x2
    exact ingressDown_keeps h1
  have h2 : Keeps s₀ s2 := bumpTen_keeps (setLane_keeps h1)
  exact PairKeeps.mk h2

theorem startPitch_keeps {s₀ s : State} {k : Nat} {p : Pitch} {r : Nat} (h : Keeps s₀ s) : Keeps s₀ (startPitch s k p r) := by
  unfold startPitch
  have hpair : PairKeeps s₀ (if p.ticketed then (s, p) else firstDispatch s p) := by
    split
    · exact PairKeeps.mk h
    · exact firstDispatch_keeps h
  split
  next s1 p1 e =>
  extract_lets s2 s3 x s4 s5 s6
  have h1 : Keeps s₀ s1 := hpair.of_eq e
  have h4 : Keeps s₀ s4 := setRope_keepsWf (kSettle_keeps (setPitch_keeps h1)) fun _ => windowCells_wf _ _
  exact makeReady_keeps (setShed_keeps (modCore_keeps h4))

theorem execPitchDispatch_keeps {s₀ s : State} {c : BitVec 4} (h : Keeps s₀ s) : ResKeeps s₀ (execPitchDispatch c s) := by
  unfold execPitchDispatch
  extract_lets c1 full1 src1
  split
  · exact ResKeeps.next h
  · split
    · split
      · exact ResKeeps.next (setShed_keeps h)
      · split
        · exact ResKeeps.next h
        · split
          · exact ResKeeps.next (bump_keeps h)
          · split
            · exact ResKeeps.next h
            · exact ResKeeps.next (startPitch_keeps (setShed_keeps h))
    · split
      · split
        · exact ResKeeps.next (bump_keeps h)
        · split
          · extract_lets q1 s1 src2 s2
            have h1 : Keeps s₀ s1 := takeToken_keeps h
            have h2 : Keeps s₀ s2 := setShed_keeps h1
            exact ResKeeps.next (startPitch_keeps h2)
          · exact ResKeeps.next h
      · exact ResKeeps.next h

theorem execStragglerBudgetExpiry_keeps {s₀ s : State} {pitch : Nat} (h : Keeps s₀ s) :
    ResKeeps s₀ (execStragglerBudgetExpiry pitch s) := by
  unfold execStragglerBudgetExpiry
  refine live_keeps h ?_
  split
  · exact ResKeeps.next h
  · split
    · extract_lets s1 s2
      have h1 : Keeps s₀ s1 := advanceTo_keeps h
      have h2 : Keeps s₀ s2 := bump_keeps (setPitch_keeps h1)
      exact ResKeeps.next (leadEvent_keeps h2)
    · exact ResKeeps.next h

theorem execLateReleaseExpiry_keeps {s₀ s : State} {pitch : Nat} (h : Keeps s₀ s) :
    ResKeeps s₀ (execLateReleaseExpiry pitch s) := by
  unfold execLateReleaseExpiry
  refine live_keeps h ?_
  split
  · exact ResKeeps.next h
  · split
    · extract_lets s1 s2 kept1 s3 s4 s5
      have h1 : Keeps s₀ s1 := advanceTo_keeps h
      have h2 : Keeps s₀ s2 := rouse_keeps (advanceTo_keeps h1)
      have h3 : Keeps s₀ s3 := bumpBy_keeps (bump_keeps h2)
      have h4 : Keeps s₀ s4 := by
        unfold s4
        refine Keeps.foldl ?_ h3
        intro s6 x3 h4
        extract_lets x4
        exact retireFrame_keeps (nakRetry_keeps h4)
      have h5 : Keeps s₀ s5 := setPitch_keeps h4
      exact ResKeeps.next (finishScans_keeps (wakeHeld_keeps (releaseLane_keeps h5)))
    · exact ResKeeps.next h

/-! ### Machine.Dictionary -/

theorem mediaRead_keeps {s₀ s : State} {a n : Nat} (h : Keeps s₀ s) : PairKeeps s₀ (mediaRead s a n) := by
  unfold mediaRead
  split
  · exact PairKeeps.mk (Keeps.update h rfl rfl)
  · exact PairKeeps.mk h

theorem bulkRead_keeps {s₀ s : State} {idx sub m off n : Nat} (h : Keeps s₀ s) : PairKeeps s₀ (bulkRead s idx sub m off n) := by
  unfold bulkRead
  split
  · exact PairKeeps.mk h
  · split
    · split
      · exact PairKeeps.mk h
      · have h1 : PairKeeps s₀ (mediaRead s (mapBase s + off) n) := mediaRead_keeps h
        split
        · next s1 s2 x2 e3 =>
            have h2 := PairKeeps.of_eq h1 e3
            exact PairKeeps.mk h2
    · exact PairKeeps.mk h
    · have h1 : PairKeeps s₀ (mediaRead s off n) := mediaRead_keeps h
      split
      · next s1 s2 x2 e4 =>
          have h2 := PairKeeps.of_eq h1 e4
          exact PairKeeps.mk h2

theorem imageRead_keeps {s₀ s : State} {idx sub : Nat} (h : Keeps s₀ s) : PairKeeps s₀ (imageRead s idx sub) := by
  unfold imageRead
  split
  · exact PairKeeps.mk h
  · exact recordTake_keeps h
  · exact windowTake_keeps h
  · exact PairKeeps.mk h

theorem domainGet_keeps {s₀ s : State} {idx sub m : Nat} {r : Row} {off : Nat} {n : Option Nat} (h : Keeps s₀ s) :
    PairKeeps s₀ (domainGet s idx sub m r off n) := by
  unfold domainGet
  split
  · exact PairKeeps.mk h
  · split
    · split
      · exact bulkRead_keeps h
      · exact PairKeeps.mk h
    · have h1 : PairKeeps s₀ (imageRead s idx sub) := imageRead_keeps h
      split
      · next s1 s2 x1 e3 =>
          have h2 := PairKeeps.of_eq h1 e3
          exact PairKeeps.mk h2

theorem readObj_keeps {s₀ s : State} {p : Path} {idx sub : Nat} (h : Keeps s₀ s) : PairKeeps s₀ (readObj s p idx sub) := by
  unfold readObj
  split
  · exact PairKeeps.mk h
  · split
    · exact domainGet_keeps h
    · exact PairKeeps.mk h
    · exact PairKeeps.mk h

theorem bulkWrite_keeps {s₀ s : State} {idx sub off : Nat} {bs : List Byte} (h : Keeps s₀ s) :
    PairKeeps s₀ (bulkWrite s idx sub off bs) := by
  unfold bulkWrite
  split
  · split
    · exact PairKeeps.mk h
    · exact ackOk_keeps (Keeps.foldl (fun _ _ hs => mapPut_keeps hs) h)
  · exact ackOk_keeps (modCluster_keepsWf h fun ok => ⟨(ok.2.1 _).1, cellsWf_wrN _ _ (ok.2.1 _).2⟩)
  · exact ackOk_keeps (hbmWrite_keeps h)

theorem imageWrite_keeps {s₀ s : State} {idx sub off : Nat} {bs : List Byte} {fin : Bool} (h : Keeps s₀ s) :
    PairKeeps s₀ (imageWrite s idx sub off bs fin) := by
  unfold imageWrite
  extract_lets k1 old1 x1 x2 s1 src1
  have h1 : Keeps s₀ s1 := by
    unfold s1
    refine setImage_keeps ?_
    split
    · exact stir_keeps h
    · exact h
  split
  · exact PairKeeps.mk h
  · refine ackOk_keeps ?_
    split
    · exact setBlock_keeps h1
    · exact h1

theorem domainPut_keeps {s₀ s : State} {idx sub m : Nat} {r : Row} {off : Nat} {bs : List Byte} {fin : Bool} (h : Keeps s₀ s) :
    PairKeeps s₀ (domainPut s idx sub m r off bs fin) := by
  unfold domainPut
  split
  · exact PairKeeps.mk h
  · split
    · exact PairKeeps.mk h
    · extract_lets s1
      have h1 : PairKeeps s₀ s1 := by
        unfold s1
        split
        · exact bulkWrite_keeps h
        · exact imageWrite_keeps h
      split
      · exact PairKeeps.mk (bumpBy_keeps (PairKeeps.fst h1))
      · exact h1

theorem keepValue_keeps {s₀ s : State} {idx sub v : Nat} {r : Row} (h : Keeps s₀ s) : Keeps s₀ (keepValue s idx sub v r) := by
  unfold keepValue
  split
  · exact storeLater_keeps (putObj_keeps h)
  · exact putObj_keeps h

theorem portWrite_keeps {s₀ s : State} {lp sub v : Nat} {r : Row} (h : Keeps s₀ s) : PairKeeps s₀ (portWrite s lp sub v r) := by
  unfold portWrite
  extract_lets s1
  have h1 : Keeps s₀ s1 := keepValue_keeps h
  split
  · split
    · exact ackOk_keeps (retrainPhys_keeps h1)
    · exact PairKeeps.mk h
  · split
    · exact ackOk_keeps h1
    · exact ackOk_keeps (trainPort_keeps h1)
  · exact ackOk_keeps (recheckReadOnly_keeps h1)
  · split
    · exact ackOk_keeps (retrainPhys_keeps h1)
    · exact ackOk_keeps h
  · split
    · exact ackOk_keeps (retrainPhys_keeps h1)
    · exact ackOk_keeps h
  · exact ackOk_keeps h1

theorem tenantWrite_keeps {s₀ s : State} {t sub v : Nat} {r : Row} (h : Keeps s₀ s) : PairKeeps s₀ (tenantWrite s t sub v r) := by
  have hkeep : ∀ s, Keeps s₀ s → Keeps s₀ (keepValue s (0x3000 + t) sub v r) := fun _ hs => keepValue_keeps hs
  have hver : (keepValue s (0x3000 + t) sub v r).col = s.col := by
    obtain ⟨o, d, e⟩ := keepValue_only s (0x3000 + t) sub v r
    rw [e]
  unfold tenantWrite
  split
  · exact ackOk_keeps (Keeps.update (hkeep s h) (by rw [hver]) rfl)
  split
  · exact ackOk_keeps (Keeps.update (reshape_keeps h hkeep) rfl rfl)
  split
  · exact ackOk_keeps (hkeep _ (tokensNow_keeps h))
  split
  · exact ackOk_keeps (homeDirty_keeps (hkeep s h))
  · exact ackOk_keeps (hkeep s h)

theorem tableBlockGo_keeps {s₀ s : State} (h : Keeps s₀ s) : PairKeeps s₀ (tableBlockGo s) := by
  unfold tableBlockGo
  extract_lets b1
  split
  · exact PairKeeps.mk h
  · exact tableGo_keeps h

theorem tableBlockWrite_keeps {s₀ s : State} {sub v : Nat} (h : Keeps s₀ s) : PairKeeps s₀ (tableBlockWrite s sub v) := by
  unfold tableBlockWrite
  extract_lets b1
  split
  · exact ackOk_keeps (setBlock_keeps h)
  · exact ackOk_keeps (setBlock_keeps h)
  · exact ackOk_keeps (setBlock_keeps h)
  · exact ackOk_keeps (setBlock_keeps h)
  · exact ackOk_keeps (setBlock_keeps h)
  · exact ackOk_keeps (setBlock_keeps h)
  · split
    · exact ackOk_keeps h
    · exact tableBlockGo_keeps h

theorem ageWrite_keeps {s₀ s : State} {v : Nat} {r : Row} (h : Keeps s₀ s) : PairKeeps s₀ (ageWrite s v r) := by
  unfold ageWrite
  extract_lets s1 src1
  have h1 : Keeps s₀ s1 := keepValue_keeps h
  exact ackOk_keeps (Keeps.update h1 rfl rfl)

theorem goWrite_keeps {s₀ s : State} {idx sub v : Nat} (h : Keeps s₀ s) : PairKeeps s₀ (goWrite s idx sub v) := by
  unfold goWrite
  split
  · exact opWrite_keeps h
  · split
    · exact wakeGo_keeps h
    · split
      · exact ackOk_keeps h
      · split
        · exact storeClear_keeps h
        · exact stageOpen_keeps h
        · exact stageDiscard_keeps h
        · exact ackOk_keeps (modCairn_keeps h)
        · exact mapGo_keeps h
        · exact hbmTestGo_keeps h
        · exact nrsGo_keeps h
        · exact screeTestGo_keeps h
        · exact progLoad_keeps h
        · exact progUnload_keeps h
        · exact keyLoad_keeps h
        · exact ackOk_keeps (keyErase_keeps h)
        · exact planGo_keeps h
        · exact wakeGo_keeps h
        · exact snapTake_keeps h
        · exact compactGo_keeps h
        · exact serviceCmd_keeps h
        · exact recoveryReset_keeps h
        · exact fenceClear_keeps h
        · exact ackOk_keeps h

theorem valueWrite_keeps {s₀ s : State} {idx sub w : Nat} {r : Row} (h : Keeps s₀ s) :
    PairKeeps s₀ (valueWrite s idx sub w r) := by
  unfold valueWrite
  extract_lets v s1
  have h1 : Keeps s₀ s1 := keepValue_keeps h
  refine PairKeeps.ite (portWrite_keeps h) (PairKeeps.ite (tenantWrite_keeps h) (PairKeeps.ite (tableBlockWrite_keeps h)
    (PairKeeps.ite (goWrite_keeps h) ?_)))
  refine PairKeeps.ite (ackOk_keeps (setFence_keeps h)) (PairKeeps.ite (ackOk_keeps (setPitchEntry_keeps h))
    (PairKeeps.ite (ageWrite_keeps h) (PairKeeps.ite (writeShadowCtl_keeps h) ?_)))
  exact PairKeeps.ite (ackOk_keeps (calSync_keeps h1)) (PairKeeps.ite (ackOk_keeps (timeSourceSet_keeps h1))
    (PairKeeps.ite (ackOk_keeps (setPtp_keeps h1)) (PairKeeps.ite (ackOk_keeps (recheckReadOnly_keeps h1)) (ackOk_keeps h1))))

theorem writeObj_keeps {s₀ s : State} {p : Path} {idx sub : Nat} {bs : List Byte} (h : Keeps s₀ s) :
    PairKeeps s₀ (writeObj s p idx sub bs) := by
  unfold writeObj
  split
  · exact PairKeeps.mk h
  · split
    · exact PairKeeps.mk h
    · split
      · exact PairKeeps.mk h
      · split
        · exact domainPut_keeps h
        · split
          · exact PairKeeps.mk h
          · split
            · exact PairKeeps.mk h
            · exact valueWrite_keeps h

theorem put_keeps {s₀ s : State} {idx sub : Nat} {bs : List Byte} (h : Keeps s₀ s) : ResKeeps s₀ (put s idx sub bs) := by
  unfold put
  split
  · exact ResKeeps.next (answered_keeps (writeObj_keeps h))
  · exact ResKeeps.next h

theorem execModeWrite_keeps {s₀ s : State} {lp : Nat} {v : BitVec 8} (h : Keeps s₀ s) : ResKeeps s₀ (execModeWrite lp v s) := by
  unfold execModeWrite
  exact put_keeps h

theorem execLaneMapWrite_keeps {s₀ s : State} {lp : Nat} {polarity : Bool} {v : BitVec 16} (h : Keeps s₀ s) :
    ResKeeps s₀ (execLaneMapWrite lp polarity v s) := by
  unfold execLaneMapWrite
  split
  · exact put_keeps h
  · exact put_keeps h

theorem execStageOpen_keeps {s₀ s : State} (h : Keeps s₀ s) : ResKeeps s₀ (execStageOpen s) := by
  unfold execStageOpen
  exact put_keeps h

theorem execStageDiscard_keeps {s₀ s : State} (h : Keeps s₀ s) : ResKeeps s₀ (execStageDiscard s) := by
  unfold execStageDiscard
  exact put_keeps h

theorem execAgeIntervalWrite_keeps {s₀ s : State} {v : BitVec 32} (h : Keeps s₀ s) :
    ResKeeps s₀ (execAgeIntervalWrite v s) := by
  unfold execAgeIntervalWrite
  exact put_keeps h

theorem execShadowCtlWrite_keeps {s₀ s : State} {v : BitVec 8} (h : Keeps s₀ s) : ResKeeps s₀ (execShadowCtlWrite v s) := by
  unfold execShadowCtlWrite
  exact put_keeps h

theorem execCoreFenceWrite_keeps {s₀ s : State} {c : BitVec 4} {v : BitVec 16} (h : Keeps s₀ s) :
    ResKeeps s₀ (execCoreFenceWrite c v s) := by
  unfold execCoreFenceWrite
  exact put_keeps h

theorem execKeyLoad_keeps {s₀ s : State} (h : Keeps s₀ s) : ResKeeps s₀ (execKeyLoad s) := by
  unfold execKeyLoad
  exact put_keeps h

theorem execKeyErase_keeps {s₀ s : State} (h : Keeps s₀ s) : ResKeeps s₀ (execKeyErase s) := by
  unfold execKeyErase
  exact put_keeps h

theorem execScreeTestGo_keeps {s₀ s : State} (h : Keeps s₀ s) : ResKeeps s₀ (execScreeTestGo s) := by
  unfold execScreeTestGo
  exact put_keeps h

theorem execProgLoad_keeps {s₀ s : State} (h : Keeps s₀ s) : ResKeeps s₀ (execProgLoad s) := by
  unfold execProgLoad
  exact put_keeps h

theorem execProgUnload_keeps {s₀ s : State} (h : Keeps s₀ s) : ResKeeps s₀ (execProgUnload s) := by
  unfold execProgUnload
  exact put_keeps h

theorem execNrsGo_keeps {s₀ s : State} (h : Keeps s₀ s) : ResKeeps s₀ (execNrsGo s) := by
  unfold execNrsGo
  exact put_keeps h

theorem execHbmTestGo_keeps {s₀ s : State} (h : Keeps s₀ s) : ResKeeps s₀ (execHbmTestGo s) := by
  unfold execHbmTestGo
  exact put_keeps h

theorem execTimeSourceWrite_keeps {s₀ s : State} {v : BitVec 8} (h : Keeps s₀ s) : ResKeeps s₀ (execTimeSourceWrite v s) := by
  unfold execTimeSourceWrite
  exact put_keeps h

theorem execPlanApply_keeps {s₀ s : State} (h : Keeps s₀ s) : ResKeeps s₀ (execPlanApply s) := by
  unfold execPlanApply
  exact put_keeps h

theorem execStoreClear_keeps {s₀ s : State} (h : Keeps s₀ s) : ResKeeps s₀ (execStoreClear s) := by
  unfold execStoreClear
  exact put_keeps h

theorem execOpCommand_keeps {s₀ s : State} {v : BitVec 32} (h : Keeps s₀ s) : ResKeeps s₀ (execOpCommand v s) := by
  unfold execOpCommand
  exact put_keeps h

theorem execServiceCmdOut_keeps {s₀ s : State} (h : Keeps s₀ s) : ResKeeps s₀ (execServiceCmdOut s) := by
  unfold execServiceCmdOut
  exact put_keeps h

theorem execServiceCmdReturn_keeps {s₀ s : State} (h : Keeps s₀ s) : ResKeeps s₀ (execServiceCmdReturn s) := by
  unfold execServiceCmdReturn
  exact put_keeps h

theorem execRecoveryReset_keeps {s₀ s : State} (h : Keeps s₀ s) : ResKeeps s₀ (execRecoveryReset s) := by
  unfold execRecoveryReset
  exact put_keeps h

theorem execWriteFenceClear_keeps {s₀ s : State} (h : Keeps s₀ s) : ResKeeps s₀ (execWriteFenceClear s) := by
  unfold execWriteFenceClear
  exact put_keeps h

theorem execSnapTake_keeps {s₀ s : State} (h : Keeps s₀ s) : ResKeeps s₀ (execSnapTake s) := by
  unfold execSnapTake
  exact put_keeps h

theorem execAlertClear_keeps {s₀ s : State} (h : Keeps s₀ s) : ResKeeps s₀ (execAlertClear s) := by
  unfold execAlertClear
  exact put_keeps h

theorem execCompactGo_keeps {s₀ s : State} {auto : Bool} (h : Keeps s₀ s) : ResKeeps s₀ (execCompactGo auto s) := by
  unfold execCompactGo
  split
  · split
    · exact ResKeeps.next (compactAuto_keeps h)
    · exact ResKeeps.next h
  · exact put_keeps h

/-! ### Machine.Events -/

theorem landDue_keeps {s₀ s : State} {r : Nat} (h : Keeps s₀ s) : Keeps s₀ (landDue s r) := by
  unfold landDue
  extract_lets due1 b1 s1
  have h1 : Keeps s₀ s1 := Keeps.update h rfl rfl
  exact modRope_keeps h1 (fun x1 => rfl)

theorem execEvw_keeps {s₀ s : State} {r : Issuer} {d a b : BitVec 5} (h : Keeps s₀ s) : ResKeeps s₀ (execEvw r d a b s) := by
  unfold execEvw
  refine issue_keeps h ?_
  extract_lets n1 s1 x1 m1 t1
  have h1 : Keeps s₀ s1 := landDue_keeps h
  split
  · exact EffKeeps.done (modRope_keeps h1 (fun x2 => by simp))
  · exact EffKeeps.held (stall_keeps h1)

theorem execEvs_keeps {s₀ s : State} {r : Issuer} {a b : BitVec 5} (h : Keeps s₀ s) : ResKeeps s₀ (execEvs r a b s) := by
  unfold execEvs
  refine issue_keeps h ?_
  extract_lets n1 x1 q1
  split
  · exact EffKeeps.trap
  · split
    · exact EffKeeps.trap
    · exact EffKeeps.done (sendEvent_keeps h)

theorem execEventDelivery_keeps {s₀ s : State} (h : Keeps s₀ s) : ResKeeps s₀ (execEventDelivery s) := by
  unfold execEventDelivery
  refine live_keeps h ?_
  split
  · exact ResKeeps.next h
  · extract_lets s1
    have h1 : Keeps s₀ s1 := advanceTo_keeps h
    exact ResKeeps.next (setEvent_keeps (Keeps.update h1 rfl rfl))

theorem execEvwTimeout_keeps {s₀ s : State} {r : RopeId} (h : Keeps s₀ s) : ResKeeps s₀ (execEvwTimeout r s) := by
  unfold execEvwTimeout
  refine live_keeps h ?_
  split
  · exact ResKeeps.next (wakeDone_keeps (advanceTo_keeps h) (fun x5 => by simp))
  · exact ResKeeps.next h

theorem execTwait_keeps {s₀ s : State} {r : Issuer} {d a b : BitVec 5} (h : Keeps s₀ s) :
    ResKeeps s₀ (execTwait r d a b s) := by
  unfold execTwait
  refine issue_keeps h ?_
  extract_lets n1 x1 w1 t1
  split
  · exact EffKeeps.done (modRope_keeps h (fun x2 => by simp))
  · exact EffKeeps.held (stall_keeps h)

theorem execTwaitWake_keeps {s₀ s : State} {r : RopeId} (h : Keeps s₀ s) : ResKeeps s₀ (execTwaitWake r s) := by
  unfold execTwaitWake
  refine live_keeps h ?_
  extract_lets n1
  split
  · extract_lets s1
    have h1 : Keeps s₀ s1 := by
      unfold s1
      split
      · split
        · exact advanceTo_keeps h
        · exact advanceToFt_keeps h
      · exact advanceToFt_keeps h
    exact ResKeeps.next (wakeDone_keeps h1 (fun x5 => by simp))
  · exact ResKeeps.next h

/-! ### Machine.Flow -/

theorem jumpIf_keeps {s₀ s : State} {r : Issuer} {off : BitVec 22} {cond : Flags → Bool} (h : Keeps s₀ s) :
    ResKeeps s₀ (jumpIf s r off cond) := by
  unfold jumpIf
  refine issue_keeps h ?_
  extract_lets x1
  split
  · exact EffKeeps.jump h
  · exact EffKeeps.done h

theorem execJmp_keeps {s₀ s : State} {r : Issuer} {off : BitVec 22} (h : Keeps s₀ s) : ResKeeps s₀ (execJmp r off s) := by
  unfold execJmp
  exact jumpIf_keeps h

theorem execJz_keeps {s₀ s : State} {r : Issuer} {off : BitVec 22} (h : Keeps s₀ s) : ResKeeps s₀ (execJz r off s) := by
  unfold execJz
  exact jumpIf_keeps h

theorem execJnz_keeps {s₀ s : State} {r : Issuer} {off : BitVec 22} (h : Keeps s₀ s) : ResKeeps s₀ (execJnz r off s) := by
  unfold execJnz
  exact jumpIf_keeps h

theorem execJc_keeps {s₀ s : State} {r : Issuer} {off : BitVec 22} (h : Keeps s₀ s) : ResKeeps s₀ (execJc r off s) := by
  unfold execJc
  exact jumpIf_keeps h

theorem execJnc_keeps {s₀ s : State} {r : Issuer} {off : BitVec 22} (h : Keeps s₀ s) : ResKeeps s₀ (execJnc r off s) := by
  unfold execJnc
  exact jumpIf_keeps h

theorem execJn_keeps {s₀ s : State} {r : Issuer} {off : BitVec 22} (h : Keeps s₀ s) : ResKeeps s₀ (execJn r off s) := by
  unfold execJn
  exact jumpIf_keeps h

theorem execJnn_keeps {s₀ s : State} {r : Issuer} {off : BitVec 22} (h : Keeps s₀ s) : ResKeeps s₀ (execJnn r off s) := by
  unfold execJnn
  exact jumpIf_keeps h

theorem execJv_keeps {s₀ s : State} {r : Issuer} {off : BitVec 22} (h : Keeps s₀ s) : ResKeeps s₀ (execJv r off s) := by
  unfold execJv
  exact jumpIf_keeps h

theorem execJnv_keeps {s₀ s : State} {r : Issuer} {off : BitVec 22} (h : Keeps s₀ s) : ResKeeps s₀ (execJnv r off s) := by
  unfold execJnv
  exact jumpIf_keeps h

theorem execJlt_keeps {s₀ s : State} {r : Issuer} {off : BitVec 22} (h : Keeps s₀ s) : ResKeeps s₀ (execJlt r off s) := by
  unfold execJlt
  exact jumpIf_keeps h

theorem execJge_keeps {s₀ s : State} {r : Issuer} {off : BitVec 22} (h : Keeps s₀ s) : ResKeeps s₀ (execJge r off s) := by
  unfold execJge
  exact jumpIf_keeps h

theorem execJgt_keeps {s₀ s : State} {r : Issuer} {off : BitVec 22} (h : Keeps s₀ s) : ResKeeps s₀ (execJgt r off s) := by
  unfold execJgt
  exact jumpIf_keeps h

theorem execJle_keeps {s₀ s : State} {r : Issuer} {off : BitVec 22} (h : Keeps s₀ s) : ResKeeps s₀ (execJle r off s) := by
  unfold execJle
  exact jumpIf_keeps h

theorem execJhi_keeps {s₀ s : State} {r : Issuer} {off : BitVec 22} (h : Keeps s₀ s) : ResKeeps s₀ (execJhi r off s) := by
  unfold execJhi
  exact jumpIf_keeps h

theorem execJls_keeps {s₀ s : State} {r : Issuer} {off : BitVec 22} (h : Keeps s₀ s) : ResKeeps s₀ (execJls r off s) := by
  unfold execJls
  exact jumpIf_keeps h

theorem execCall_keeps {s₀ s : State} {r : Issuer} {off : BitVec 26} (h : Keeps s₀ s) : ResKeeps s₀ (execCall r off s) := by
  unfold execCall
  refine issue_keeps h ?_
  extract_lets x1
  split
  · exact EffKeeps.trap
  · exact EffKeeps.jump (modRope_keeps h (fun x2 => rfl))

theorem execRet_keeps {s₀ s : State} {r : Issuer} (h : Keeps s₀ s) : ResKeeps s₀ (execRet r s) := by
  unfold execRet
  refine issue_keeps h ?_
  split
  · exact EffKeeps.trap
  · exact EffKeeps.jump (modRope_keeps h (fun x4 => rfl))

theorem execJr_keeps {s₀ s : State} {r : Issuer} {a : BitVec 5} (h : Keeps s₀ s) : ResKeeps s₀ (execJr r a s) := by
  unfold execJr
  exact issue_keeps h (EffKeeps.jump h)

theorem execRepb_keeps {s₀ s : State} {r : Issuer} {n1 : BitVec 3} (h : Keeps s₀ s) : ResKeeps s₀ (execRepb r n1 s) := by
  unfold execRepb
  refine issue_keeps h ?_
  extract_lets x1 v1
  split
  · exact EffKeeps.jump h
  · exact EffKeeps.jump (modRope_keeps h (fun x2 => rfl))

/-! ### Machine.FrameOps -/

theorem dispose_keeps {s₀ s : State} {r k i : Nat} {d : Disp} (h : Keeps s₀ s) : Keeps s₀ (dispose s r k i d) := by
  unfold dispose
  split
  · exact h
  · extract_lets s1
    have h1 : Keeps s₀ s1 := setPitch_keeps h
    split
    · exact bump_keeps h1
    · exact bump_keeps h1
    · exact bump_keeps h1
    · exact h1

theorem noPort_of_not_dispOk {s : State} {x : Rope} {i : Nat} {d : Disp} : NoPort s x i d ↔ dispOk s x i d = false := by
  unfold NoPort dispOk portOk
  cases d <;> simp

/-- A FEMIT keeps the invariants, where it is not use that R158 calls unsupported. -/
theorem execFemit_keeps {s₀ s : State} {r : Issuer} {a b : BitVec 5} (h : Keeps s₀ s)
    (hok : ¬Unsupported s (.femit r a b) 158) : ResKeeps s₀ (execFemit r a b s) := by
  unfold execFemit
  refine issue_keepsIf h fun hissues => ?_
  extract_lets x i d
  split
  · exact EffKeeps.trap
  next k hk =>
  split
  · exact EffKeeps.trap
  next hi =>
  split
  · next hbad =>
    refine absurd (.inr ⟨rfl, r, hissues, ?_, .inl ⟨a, b, rfl, Nat.not_le.mp hi, noPort_of_not_dispOk.mpr ?_⟩⟩) hok
    · exact fun hnone => Option.some_ne_none k (hk.symm.trans hnone)
    · simpa using hbad
  split
  · exact EffKeeps.trap
  · exact EffKeeps.done (dispose_keeps h)

theorem setClass_wf {x : Rope} {i : Nat} (h : cellsWf x.window = true) : cellsWf (setClass x i).window = true := by
  unfold setClass
  dsimp only
  split
  · exact winWrite_wf _ _ h
  · exact h

/-- A FEMIT.R keeps the invariants, where it is not use that R158 calls unsupported. -/
theorem execFemitR_keeps {s₀ s : State} {r : Issuer} {a : BitVec 5} (h : Keeps s₀ s)
    (hok : ¬Unsupported s (.femitR r a) 158) : ResKeeps s₀ (execFemitR r a s) := by
  unfold execFemitR
  refine issue_keepsIf h fun hissues => ?_
  extract_lets n x p i y ds deny left viaLocal
  split
  · exact EffKeeps.trap
  next k hk =>
  split
  · exact EffKeeps.trap
  next hin =>
  split
  · next hbad =>
    rw [Bool.or_eq_true, not_or] at hin
    rw [Bool.and_eq_true] at hbad
    refine absurd (.inr ⟨rfl, r, hissues, ?_, .inr (.inl ⟨a, rfl, ?_⟩)⟩) hok
    · exact fun hnone => Option.some_ne_none k (hk.symm.trans hnone)
    · have hlocal : viaLocal = true := hbad.1
      simp only [viaLocal, deny, Bool.and_eq_true, decide_eq_true_eq, Bool.not_eq_true', bne_iff_ne, ne_eq, beq_eq_false_iff_ne] at hlocal
      obtain ⟨⟨⟨hkind, hbit⟩, hact⟩, hact2⟩ := hlocal
      exact ⟨by simpa using hin.1, by simpa using hin.2, hkind, hact, hact2, hbit,
        noPort_of_not_dispOk.mpr (by simpa using hbad.2)⟩
  split
  · exact EffKeeps.trap
  extract_lets s1 s2
  have h1 : Keeps s₀ s1 :=
    Keeps.foldl (fun _ _ hs => dispose_keeps hs) (setRope_keepsWf h fun ok => setClass_wf (ok.2.2 _))
  have h2 : Keeps s₀ s2 := by
    unfold s2
    split
    · exact bumpTen_keeps h1
    · exact h1
  exact EffKeeps.done (modRope_keeps h2 fun z => window_setW z _ _)

/-- An FNEW keeps the invariants, where it is not use that R158 calls unsupported. -/
theorem execFnew_keeps {s₀ s : State} {r : Issuer} {a b : BitVec 5} (h : Keeps s₀ s)
    (hok : ¬Unsupported s (.fnew r a b) 158) : ResKeeps s₀ (execFnew r a b s) := by
  unfold execFnew
  refine issue_keepsIf h fun hissues => ?_
  extract_lets n x j w slot lp
  split
  · exact EffKeeps.trap
  next k hk =>
  split
  · next hbad =>
    refine absurd (.inr ⟨rfl, r, hissues, ?_, .inr (.inr ⟨a, b, rfl, ?_⟩)⟩) hok
    · exact fun hnone => Option.some_ne_none k (hk.symm.trans hnone)
    · rw [Bool.or_eq_true, decide_eq_true_eq, decide_eq_true_eq] at hbad
      refine hbad.imp_left fun hkind => ?_
      rw [BitVec.extractLsb'_toNat, Nat.shiftRight_eq_div_pow]
      exact hkind
  split
  · exact EffKeeps.trap
  split
  · exact EffKeeps.trap
  · exact EffKeeps.done (bump_keeps (setPitch_keeps h))

theorem execPdone_keeps {s₀ s : State} {r : Issuer} (h : Keeps s₀ s) : ResKeeps s₀ (execPdone r s) := by
  unfold execPdone
  refine issue_keeps h ?_
  extract_lets n x
  split
  · exact EffKeeps.trap
  next k _ =>
  split
  · exact EffKeeps.held (stall_keeps h)
  extract_lets s1 s2 s3
  have h1 : Keeps s₀ s1 := by
    unfold s1
    split
    · exact h
    · extract_lets t
      have ht : Keeps s₀ t := bumpBy_keeps h
      split
      · exact bump_keeps ht
      · exact ht
  exact EffKeeps.held (completePitch_keeps (modCore_keeps (giveUp_keeps (setRope_keepsWf h1 fun _ => rfl))))

theorem execMfs_keeps {s₀ s : State} {r : Issuer} {d : BitVec 5} {n : BitVec 12} (h : Keeps s₀ s) :
    ResKeeps s₀ (execMfs r d n s) := by
  unfold execMfs
  exact issue_keeps h (EffKeeps.done (modRope_keeps h (fun x1 => by simp)))

theorem cpenKeep_keeps {s₀ s : State} {k r : Nat} {pc : BitVec 32} (h : Keeps s₀ s) : Keeps s₀ (cpenKeep s k r pc) := by
  unfold cpenKeep
  extract_lets past1
  exact modCore_keeps h

theorem cpenWrite_keeps {s₀ s : State} {r v : Nat} (h : Keeps s₀ s) : Keeps s₀ (cpenWrite s r v) := by
  unfold cpenWrite
  extract_lets c1 s1
  have h1 : Keeps s₀ s1 := cpenKeep_keeps h
  split
  · refine Keeps.foldl ?_ h1
    intro s2 x1 h2
    extract_lets k1 s3
    have h3 : Keeps s₀ s3 := by
      unfold s3
      split
      · exact h2
      · split
        · exact cpenKeep_keeps h2
        · exact h2
    exact putObj_keeps h3
  · exact putObj_keeps h1

theorem execMts_keeps {s₀ s : State} {r : Issuer} {a : BitVec 5} {n : BitVec 12} (h : Keeps s₀ s) :
    ResKeeps s₀ (execMts r a n s) := by
  unfold execMts
  refine issue_keeps h ?_
  extract_lets k1 x1 v1
  split
  · exact EffKeeps.done (modRope_keeps h (fun x3 => rfl))
  · exact EffKeeps.done (modRope_keeps h (fun x3 => rfl))
  · split
    · exact EffKeeps.trap
    · exact EffKeeps.done (modRope_keeps h (fun x3 => rfl))
  · split
    · exact EffKeeps.trap
    · exact EffKeeps.done (cpenWrite_keeps h)
  · exact EffKeeps.done (modRope_keeps h (fun x3 => rfl))
  · exact EffKeeps.done h

theorem execNop_keeps {s₀ s : State} {r : Issuer} (h : Keeps s₀ s) : ResKeeps s₀ (execNop r s) := by
  unfold execNop
  exact issue_keeps h (EffKeeps.done h)

theorem execFence_keeps {s₀ s : State} {r : Issuer} (h : Keeps s₀ s) : ResKeeps s₀ (execFence r s) := by
  unfold execFence
  refine issue_keeps h ?_
  extract_lets n1
  have h1 : PairKeeps s₀ (kReady s n1 (List.map (fun x => x.kd) (List.filter (fun x => x.src.isSome) (rope s n1).kPend))) :=
      kReady_keeps h
  split
  · next s1 s2 x1 e1 =>
      have h2 := PairKeeps.of_eq h1 e1
      exact EffKeeps.held (stall_keeps h2)
  · next s1 s2 e1 =>
      have h2 := PairKeeps.of_eq h1 e1
      exact EffKeeps.held h2
  · next s1 s2 e1 =>
      have h2 := PairKeeps.of_eq h1 e1
      exact EffKeeps.done h2

theorem execIllegalInstruction_keeps {s₀ s : State} {r : Issuer} {word : BitVec 32} (h : Keeps s₀ s) :
    ResKeeps s₀ (execIllegalInstruction r word s) := by
  unfold execIllegalInstruction
  split
  · exact issue_keeps h EffKeeps.trap
  · exact ResKeeps.next h

/-! ### Machine.Tasks -/

theorem taskStatus_keeps {s₀ s : State} {r st n : Nat} (h : Keeps s₀ s) : Keeps s₀ (taskStatus s r st n) := by
  unfold taskStatus
  extract_lets later1
  split
  · exact h
  · exact modRope_keeps h (fun x1 => rfl)

theorem taskRefused_keeps {s₀ s : State} {t : TaskCmd} {kind st n : Nat} {x : Slot} (h : Keeps s₀ s) :
    Keeps s₀ (taskRefused s t kind st n x) := by
  unfold taskRefused
  extract_lets r1 s1
  have h1 : Keeps s₀ s1 := trace_keeps (taskStatus_keeps h)
  split
  · exact makeReady_keeps h1
  · exact h1

theorem taskNext_keeps {s₀ s : State} {c op : Nat} {f : State → TaskCmd → State} (h : Keeps s₀ s)
    (hf : ∀ s w, Keeps s₀ s → Keeps s₀ (f s w)) : Keeps s₀ (taskNext s c op f) := by
  unfold taskNext
  split
  · exact h
  · split
    · exact hf _ _ (busyCore_keeps (advanceTo_keeps (modCluster_keeps h (fun _ => rfl) (fun _ => rfl))))
    · exact h

theorem taskSpawn_keeps {s₀ s : State} {c : Nat} {t : TaskCmd} (h : Keeps s₀ s) : Keeps s₀ (taskSpawn s c t) := by
  unfold taskSpawn
  extract_lets g1 n1 x1 s1 s2 s3
  have h1 : Keeps s₀ s1 := by
    unfold s1
    split
    · split
      · exact h
      · exact setSlot_keeps h
    · exact h
  have h2 : Keeps s₀ s2 := bump_keeps (setSlot_keeps h1)
  have h3 : Keeps s₀ s3 := by
    unfold s3
    split
    · exact readySlot_keeps h2
    · exact h2
  split
  · exact taskStatus_keeps h
  · split
    · exact taskStatus_keeps h
    · exact taskStatus_keeps h3

theorem taskSignal_keeps {s₀ s : State} {c : Nat} {t : TaskCmd} (h : Keeps s₀ s) : Keeps s₀ (taskSignal s c t) := by
  unfold taskSignal
  extract_lets n1
  split
  · exact taskStatus_keeps (bump_keeps h)
  · exact taskStatus_keeps (signalSlot_keeps h)

theorem taskCancel_keeps {s₀ s : State} {c : Nat} {t : TaskCmd} (h : Keeps s₀ s) : Keeps s₀ (taskCancel s c t) := by
  unfold taskCancel
  extract_lets n1 x1
  split
  · exact taskRefused_keeps h
  · exact taskRefused_keeps h
  · exact taskRefused_keeps h
  · exact taskStatus_keeps (endSlot_keeps h)

theorem taskLeave_keeps {s₀ s : State} {r n : Nat} {pin : Bool} (h : Keeps s₀ s) : Keeps s₀ (taskLeave s r n pin) := by
  unfold taskLeave
  exact rankMoved_keeps (modRope_keeps h (fun x1 => rfl))

theorem taskNone_keeps {s₀ s : State} {t : TaskCmd} {kind : Nat} (h : Keeps s₀ s) : Keeps s₀ (taskNone s t kind) := by
  unfold taskNone
  exact taskRefused_keeps h

theorem taskEnd_keeps {s₀ s : State} {c : Nat} {t : TaskCmd} (h : Keeps s₀ s) : Keeps s₀ (taskEnd s c t) := by
  unfold taskEnd
  split
  · exact taskNone_keeps h
  · split
    · exact taskRefused_keeps h
    · extract_lets res1 s1
      have h1 : Keeps s₀ s1 := taskStatus_keeps h
      exact endSlot_keeps (taskLeave_keeps h1)

theorem suspend_keeps {s₀ s : State} {c : Nat} {t : TaskCmd} {n : Nat} {f : Slot → Slot} (h : Keeps s₀ s) :
    Keeps s₀ (suspend s c t n f) := by
  unfold suspend
  extract_lets g1 src1 x1 pin1 s1 s2
  have h1 : Keeps s₀ s1 := taskStatus_keeps h
  have h2 : Keeps s₀ s2 := taskLeave_keeps (setSlot_keeps h1)
  exact trace_keeps h2

theorem taskWait_keeps {s₀ s : State} {c : Nat} {t : TaskCmd} (h : Keeps s₀ s) : Keeps s₀ (taskWait s c t) := by
  unfold taskWait
  split
  · exact taskNone_keeps h
  · extract_lets us1 s1
    have h1 : Keeps s₀ s1 := suspend_keeps h
    split
    · exact readySlot_keeps h1
    · exact h1

theorem taskSleep_keeps {s₀ s : State} {c : Nat} {t : TaskCmd} (h : Keeps s₀ s) : Keeps s₀ (taskSleep s c t) := by
  unfold taskSleep
  split
  · split
    · exact taskRefused_keeps h
    · exact taskNone_keeps h
  · split
    · exact taskRefused_keeps h
    · extract_lets ft1
      exact suspend_keeps h

theorem taskYield_keeps {s₀ s : State} {c : Nat} {t : TaskCmd} (h : Keeps s₀ s) : Keeps s₀ (taskYield s c t) := by
  unfold taskYield
  split
  · exact taskNone_keeps h
  · exact readySlot_keeps (suspend_keeps h)

theorem execSpawn_keeps {s₀ s : State} {c : BitVec 4} (h : Keeps s₀ s) : ResKeeps s₀ (execSpawn c s) := by
  unfold execSpawn
  exact live_keeps h (ResKeeps.next (taskNext_keeps h (fun s1 x1 h1 => taskSpawn_keeps h1)))

theorem execSignal_keeps {s₀ s : State} {c : BitVec 4} (h : Keeps s₀ s) : ResKeeps s₀ (execSignal c s) := by
  unfold execSignal
  exact live_keeps h (ResKeeps.next (taskNext_keeps h (fun s1 x1 h1 => taskSignal_keeps h1)))

theorem execCancel_keeps {s₀ s : State} {c : BitVec 4} (h : Keeps s₀ s) : ResKeeps s₀ (execCancel c s) := by
  unfold execCancel
  exact live_keeps h (ResKeeps.next (taskNext_keeps h (fun s1 x1 h1 => taskCancel_keeps h1)))

theorem execEndTask_keeps {s₀ s : State} {c : BitVec 4} (h : Keeps s₀ s) : ResKeeps s₀ (execEndTask c s) := by
  unfold execEndTask
  exact live_keeps h (ResKeeps.next (taskNext_keeps h (fun s1 x1 h1 => taskEnd_keeps h1)))

theorem execWaitTask_keeps {s₀ s : State} {c : BitVec 4} (h : Keeps s₀ s) : ResKeeps s₀ (execWaitTask c s) := by
  unfold execWaitTask
  exact live_keeps h (ResKeeps.next (taskNext_keeps h (fun s1 x1 h1 => taskWait_keeps h1)))

theorem execSleep_keeps {s₀ s : State} {c : BitVec 4} (h : Keeps s₀ s) : ResKeeps s₀ (execSleep c s) := by
  unfold execSleep
  exact live_keeps h (ResKeeps.next (taskNext_keeps h (fun s1 x1 h1 => taskSleep_keeps h1)))

theorem execYield_keeps {s₀ s : State} {c : BitVec 4} (h : Keeps s₀ s) : ResKeeps s₀ (execYield c s) := by
  unfold execYield
  exact live_keeps h (ResKeeps.next (taskNext_keeps h (fun s1 x1 h1 => taskYield_keeps h1)))

theorem startTask_keeps {s₀ s : State} {c n r : Nat} (h : Keeps s₀ s) : Keeps s₀ (startTask s c n r) := by
  unfold startTask
  extract_lets y1 s1 s2 s3 s4 s5 x1
  have h1 : Keeps s₀ s1 := unready_keeps h
  have h2 : Keeps s₀ s2 := setSlot_keeps h1
  have h3 : Keeps s₀ s3 := modCluster_keeps h2 (fun x2 => rfl) (fun x2 => rfl)
  have h4 : Keeps s₀ s4 := trace_keeps h3
  have h5 : Keeps s₀ s5 := kSettle_keeps h4
  exact rankMoved_keeps (makeReady_keeps (setRope_keeps h5 rfl))

theorem execTaskDispatch_keeps {s₀ s : State} {c : BitVec 4} (h : Keeps s₀ s) : ResKeeps s₀ (execTaskDispatch c s) := by
  unfold execTaskDispatch
  extract_lets c1
  split
  · exact ResKeeps.next h
  · split
    · exact ResKeeps.next h
    · split
      · exact ResKeeps.next h
      · split
        · exact ResKeeps.next h
        · exact ResKeeps.next (startTask_keeps h)

theorem timeoutSlot_keeps {s₀ s : State} {c n : Nat} (h : Keeps s₀ s) : Keeps s₀ (timeoutSlot s c n) := by
  unfold timeoutSlot
  extract_lets s1 src1
  have h1 : Keeps s₀ s1 := readySlot_keeps (bump_keeps h)
  exact setSlot_keeps h1

theorem sweepWaits_keeps {s₀ s : State} {c at_ : Nat} (h : Keeps s₀ s) : Keeps s₀ (sweepWaits s c at_) := by
  unfold sweepWaits
  extract_lets due1
  exact Keeps.foldl (fun s1 x1 h1 => timeoutSlot_keeps h1) h

theorem execDelayTick_keeps {s₀ s : State} {c : BitVec 4} (h : Keeps s₀ s) : ResKeeps s₀ (execDelayTick c s) := by
  unfold execDelayTick
  extract_lets c1 s1 s2 tick1 due1
  have h1 : Keeps s₀ s1 := by
    unfold s1
    split
    · exact advanceToFt_keeps h
    · exact h
  have h2 : Keeps s₀ s2 := modCluster_keeps h1 (fun x1 => rfl) (fun x1 => rfl)
  split
  · exact ResKeeps.next h
  · exact ResKeeps.next (sweepWaits_keeps (Keeps.foldl (fun s3 x1 h3 => readySlot_keeps h3) h2))

theorem execWaitTimeoutSweep_keeps {s₀ s : State} {c : BitVec 4} (h : Keeps s₀ s) : ResKeeps s₀ (execWaitTimeoutSweep c s) := by
  unfold execWaitTimeoutSweep
  extract_lets c1 t1 s1 s2
  have h1 : Keeps s₀ s1 := advanceTo_keeps h
  have h2 : Keeps s₀ s2 := modCluster_keeps h1 (fun x1 => rfl) (fun x1 => rfl)
  split
  · exact ResKeeps.next h
  · exact ResKeeps.next (sweepWaits_keeps h2)

/-! ### Machine.Itinerary -/

theorem itinRecord_keeps {s₀ s : State} {n : Nat} {e : ItinEvent} (h : Keeps s₀ s) : Keeps s₀ (itinRecord s n e) := by
  unfold itinRecord
  exact cairn_keeps h

theorem actCommit_keeps {s₀ s : State} {n : Nat} {e : ItinEvent} {at_ : Nat} (h : Keeps s₀ s) :
    Keeps s₀ (actCommit s n e at_) := by
  unfold actCommit
  extract_lets s1 want1 v1
  have h1 : Keeps s₀ s1 := retireDraining_keeps h
  split
  · exact itinRecord_keeps (bump_keeps h1)
  · exact commitEvent_keeps h1

theorem actDictWrite_keeps {s₀ s : State} {n : Nat} {e : ItinEvent} (h : Keeps s₀ s) : Keeps s₀ (actDictWrite s n e) := by
  unfold actDictWrite
  extract_lets idx1 sub1 refuse1
  split
  · next x1 x2 e1 =>
      dsimp only [refuse1]
      exact itinRecord_keeps (bump_keeps h)
  · next x1 x2 e1 =>
      split
      · extract_lets s1
        have h1 : PairKeeps s₀ s1 := writeObj_keeps h
        split
        · exact PairKeeps.fst h1
        · dsimp only [refuse1]
          exact itinRecord_keeps (bump_keeps (PairKeeps.fst h1))
      · dsimp only [refuse1]
        exact itinRecord_keeps (bump_keeps h)

theorem actSignal_keeps {s₀ s : State} {n : Nat} {e : ItinEvent} (h : Keeps s₀ s) : Keeps s₀ (actSignal s n e) := by
  unfold actSignal
  extract_lets c1 k1
  split
  · exact itinRecord_keeps (bump_keeps h)
  · split
    · exact bump_keeps h
    · exact signalSlot_keeps h

theorem actMark_keeps {s₀ s : State} {x : Nat} {e : ItinEvent} (h : Keeps s₀ s) : Keeps s₀ (actMark s x e) := by
  unfold actMark
  exact cairn_keeps h

theorem act_keeps {s₀ s : State} {n : Nat} {e : ItinEvent} {at_ : Nat} (h : Keeps s₀ s) : Keeps s₀ (act s n e at_) := by
  unfold act
  split
  · exact actCommit_keeps h
  · exact actDictWrite_keeps h
  · exact actSignal_keeps h
  · exact actMark_keeps h
  · exact h

theorem fire_keeps {s₀ s : State} {e : ItinEvent} {late : Bool} (h : Keeps s₀ s) : Keeps s₀ (fire s e late) := by
  unfold fire
  extract_lets n1 src1 s1
  have h1 : Keeps s₀ s1 := settleTime_keeps (Keeps.update h rfl rfl)
  split
  · exact itinRecord_keeps (bump_keeps h1)
  · refine act_keeps ?_
    refine bump_keeps ?_
    split
    · exact bump_keeps h1
    · exact h1

theorem fireEvent_keeps {s₀ s : State} {typ : Nat} (h : Keeps s₀ s) : ResKeeps s₀ (fireEvent s typ) := by
  unfold fireEvent
  split
  · exact ResKeeps.next h
  · exact ResKeeps.next (fire_keeps (advanceToFt_keeps h))

theorem execVersionCommit_keeps {s₀ s : State} (h : Keeps s₀ s) : ResKeeps s₀ (execVersionCommit s) := by
  unfold execVersionCommit
  exact fireEvent_keeps h

theorem execDictWrite_keeps {s₀ s : State} (h : Keeps s₀ s) : ResKeeps s₀ (execDictWrite s) := by
  unfold execDictWrite
  exact fireEvent_keeps h

theorem execTaskSignal_keeps {s₀ s : State} (h : Keeps s₀ s) : ResKeeps s₀ (execTaskSignal s) := by
  unfold execTaskSignal
  exact fireEvent_keeps h

theorem execMarkEvent_keeps {s₀ s : State} (h : Keeps s₀ s) : ResKeeps s₀ (execMarkEvent s) := by
  unfold execMarkEvent
  exact fireEvent_keeps h

theorem firePassed_keeps {s₀ s : State} {was n : Nat} (h : Keeps s₀ s) : Keeps s₀ (firePassed was s n) := by
  induction n generalizing s with
  | zero => exact h
  | succ n ih =>
    unfold firePassed
    split
    · split
      · exact ih (fire_keeps h)
      · exact h
    · exact h

theorem measured_keeps {s₀ s : State} {offset : ℤ} (h : Keeps s₀ s) : ResKeeps s₀ (measured s offset) := by
  unfold measured
  extract_lets s1
  have h1 : Keeps s₀ s1 := measure_keeps (settleTime_keeps h)
  exact ResKeeps.next (firePassed_keeps h1)

theorem execPpsEdge_keeps {s₀ s : State} {err : ℤ} (h : Keeps s₀ s) : ResKeeps s₀ (execPpsEdge err s) := by
  unfold execPpsEdge
  split
  · exact ResKeeps.next h
  · split
    · exact ResKeeps.next h
    · extract_lets gap1 s1
      have h1 : Keeps s₀ s1 := modTime_keeps h
      split
      · exact ResKeeps.next (bump_keeps h1)
      · exact measured_keeps h1

theorem execPtpMessage_keeps {s₀ s : State} {m : Nat} (h : Keeps s₀ s) : ResKeeps s₀ (execPtpMessage m s) := by
  unfold execPtpMessage
  refine live_keeps h ?_
  split
  · exact ResKeeps.next h
  · next x1 x2 x3 e1 =>
      extract_lets s1
      have h1 : Keeps s₀ s1 := modTime_keeps h
      split
      · exact ResKeeps.next h1
      · have h2 : PairKeeps s₀ (ptpTake s1 m x2) := ptpTake_keeps h1
        split
        · next s2 s3 e3 =>
            have h3 := PairKeeps.of_eq h2 e3
            exact ResKeeps.next h3
        · next s2 s3 x4 e3 =>
            have h3 := PairKeeps.of_eq h2 e3
            exact measured_keeps h3

theorem fireHeld_keeps {s₀ s : State} (h : Keeps s₀ s) : Keeps s₀ (fireHeld s) := by
  unfold fireHeld
  exact firePassed_keeps h

theorem dropPlan_keeps {s₀ s : State} (h : Keeps s₀ s) : Keeps s₀ (dropPlan s) := by
  unfold dropPlan
  extract_lets s1
  have h1 : Keeps s₀ s1 := fireHeld_keeps h
  exact Keeps.update h1 rfl rfl

theorem execStartupComplete_keeps {s₀ s : State} (h : Keeps s₀ s) : ResKeeps s₀ (execStartupComplete s) := by
  unfold execStartupComplete
  split
  · exact ResKeeps.next h
  · refine ResKeeps.next (startupEnd_keeps ?_ h)
    split
    · exact fun _ => dropPlan_keeps
    · exact fun _ => id

theorem execSelfRefreshExit_keeps {s₀ s : State} {stack : Nat} (h : Keeps s₀ s) :
    ResKeeps s₀ (execSelfRefreshExit stack s) := by
  unfold execSelfRefreshExit
  extract_lets x1 s1
  have h1 : Keeps s₀ s1 := setStack_keeps (advance_keeps h)
  split
  · exact ResKeeps.next h
  · split
    · exact ResKeeps.next h1
    · exact ResKeeps.next (wakeEnd_keeps (fireHeld_keeps (wakeUp_keeps h1)))

theorem execWake_keeps {s₀ s : State} (h : Keeps s₀ s) : ResKeeps s₀ (execWake s) := by
  unfold execWake
  exact put_keeps h

theorem execObjectWrite_keeps {s₀ s : State} {idx : BitVec 16} {sub : BitVec 8} {data : List Byte} (h : Keeps s₀ s) :
    ResKeeps s₀ (execObjectWrite idx sub data s) := by
  unfold execObjectWrite
  exact put_keeps h

theorem execSidebandAddressMatch_keeps {s₀ s : State} {addr : BitVec 7} {rd : Bool} (h : Keeps s₀ s) :
    ResKeeps s₀ (execSidebandAddressMatch addr rd s) := by
  unfold execSidebandAddressMatch
  split
  · exact ResKeeps.next h
  · extract_lets s1 src1
    have h1 : Keeps s₀ s1 := emit_keeps h
    split
    · split
      · exact ResKeeps.next h1
      · exact ResKeeps.next (Keeps.update h1 rfl rfl)
    · split
      · exact ResKeeps.next (wakeFrom_keeps h1)
      · exact ResKeeps.next h1

/-! ### Machine.Memory -/

theorem loadEff_keeps {s₀ s : State} {r n : Nat} {d a : BitVec 5} {imm : BitVec 16} {parity : Bool} (h : Keeps s₀ s) :
    EffKeeps s₀ (loadEff s r n d a imm parity) := by
  unfold loadEff
  extract_lets x1 ea1
  split
  · exact EffKeeps.trap
  · split
    · exact EffKeeps.trap
    · split
      · exact EffKeeps.held (stall_keeps h)
      · exact EffKeeps.done (modRope_keeps h (fun x4 => by simp))

theorem storeEff_keeps {s₀ s : State} {r n : Nat} {d a : BitVec 5} {imm : BitVec 16} (h : Keeps s₀ s) :
    EffKeeps s₀ (storeEff s r n d a imm) := by
  unfold storeEff
  extract_lets x1 ea1 bs1
  split
  · exact EffKeeps.trap
  · extract_lets s1
    have h1 : Keeps s₀ s1 := memWrite_keeps h
    split
    · exact EffKeeps.held (stall_keeps (modRope_keeps h1 (fun x4 => by simp)))
    · exact EffKeeps.done h1

theorem execLb_keeps {s₀ s : State} {r : Issuer} {d a : BitVec 5} {imm : BitVec 16} {parity : Bool} (h : Keeps s₀ s) :
    ResKeeps s₀ (execLb r d a imm parity s) := by
  unfold execLb
  exact issue_keeps h (loadEff_keeps h)

theorem execLh_keeps {s₀ s : State} {r : Issuer} {d a : BitVec 5} {imm : BitVec 16} {parity : Bool} (h : Keeps s₀ s) :
    ResKeeps s₀ (execLh r d a imm parity s) := by
  unfold execLh
  exact issue_keeps h (loadEff_keeps h)

theorem execLw_keeps {s₀ s : State} {r : Issuer} {d a : BitVec 5} {imm : BitVec 16} {parity : Bool} (h : Keeps s₀ s) :
    ResKeeps s₀ (execLw r d a imm parity s) := by
  unfold execLw
  exact issue_keeps h (loadEff_keeps h)

theorem execLd_keeps {s₀ s : State} {r : Issuer} {d a : BitVec 5} {imm : BitVec 16} {parity : Bool} (h : Keeps s₀ s) :
    ResKeeps s₀ (execLd r d a imm parity s) := by
  unfold execLd
  exact issue_keeps h (loadEff_keeps h)

theorem execSb_keeps {s₀ s : State} {r : Issuer} {d a : BitVec 5} {imm : BitVec 16} (h : Keeps s₀ s) :
    ResKeeps s₀ (execSb r d a imm s) := by
  unfold execSb
  exact issue_keeps h (storeEff_keeps h)

theorem execSh_keeps {s₀ s : State} {r : Issuer} {d a : BitVec 5} {imm : BitVec 16} (h : Keeps s₀ s) :
    ResKeeps s₀ (execSh r d a imm s) := by
  unfold execSh
  exact issue_keeps h (storeEff_keeps h)

theorem execSw_keeps {s₀ s : State} {r : Issuer} {d a : BitVec 5} {imm : BitVec 16} (h : Keeps s₀ s) :
    ResKeeps s₀ (execSw r d a imm s) := by
  unfold execSw
  exact issue_keeps h (storeEff_keeps h)

theorem execSd_keeps {s₀ s : State} {r : Issuer} {d a : BitVec 5} {imm : BitVec 16} (h : Keeps s₀ s) :
    ResKeeps s₀ (execSd r d a imm s) := by
  unfold execSd
  exact issue_keeps h (storeEff_keeps h)

theorem bankEff_keeps {s₀ s : State} {r : Nat} {w32 : Bool} {d : BitVec 5} {a : Checked (BitVec 5)} {b : BitVec 5} {f : Word → Word → Word} (h : Keeps s₀ s) :
    EffKeeps s₀ (bankEff s r w32 d a b f) := by
  unfold bankEff
  extract_lets x1 ea1 n1 old1 s1
  have h1 : Keeps s₀ s1 := memWrite_keeps h
  split
  · exact EffKeeps.trap
  · split
    · exact EffKeeps.trap
    · split
      · exact EffKeeps.trap
      · exact EffKeeps.done (modRope_keeps h1 (fun x2 => by simp))

theorem execAddm_keeps {s₀ s : State} {r : Issuer} {w32 : Bool} {d : BitVec 5} {a : Checked (BitVec 5)} {b : BitVec 5}
    (h : Keeps s₀ s) :
    ResKeeps s₀ (execAddm r w32 d a b s) := by
  unfold execAddm
  exact issue_keeps h (bankEff_keeps h)

theorem execSwpm_keeps {s₀ s : State} {r : Issuer} {w32 : Bool} {d : BitVec 5} {a : Checked (BitVec 5)} {b : BitVec 5}
    (h : Keeps s₀ s) :
    ResKeeps s₀ (execSwpm r w32 d a b s) := by
  unfold execSwpm
  exact issue_keeps h (bankEff_keeps h)

theorem execLoadReturn_keeps {s₀ s : State} {r : RopeId} (h : Keeps s₀ s) : ResKeeps s₀ (execLoadReturn r s) := by
  unfold execLoadReturn
  refine live_keeps h ?_
  dsimp only
  cases (rope s r.toNat).st with
  | waiting w =>
    cases w with
    | load d ea k =>
      dsimp only
      split
      · exact ResKeeps.next (faultRope_keeps h)
      split
      · exact ResKeeps.next h
      split
      · exact ResKeeps.next (faultRope_keeps h)
      · exact ResKeeps.next (wakeDone_keeps h fun _ => window_setW _ _ _)
    | lines l =>
      dsimp only
      split
      · exact ResKeeps.next h
      split
      · exact ResKeeps.next (faultRope_keeps h)
      · exact ResKeeps.next (makeReady_keeps (modRope_keeps h fun _ => rfl))
    | kload kd ea =>
      dsimp only
      split
      · exact ResKeeps.next h
      · exact ResKeeps.next (wakeDone_keeps h fun _ => rfl)
    | kstate => exact ResKeeps.next (makeReady_keeps h)
    | _ => exact ResKeeps.next h
  | _ => exact ResKeeps.next h

/-! ### Machine.Mgmt -/

theorem respond_keeps {s₀ s : State} {m : MgmtReq} {code detail : Nat} {data : List Byte} (h : Keeps s₀ s) :
    Keeps s₀ (respond s m code detail data) := by
  unfold respond
  extract_lets s1 s2 s3 data1 x1 no1
  have h1 : Keeps s₀ s1 := bump_keeps h
  have h2 : Keeps s₀ s2 := bump_keeps h1
  have h3 : Keeps s₀ s3 := by
    unfold s3
    split
    · exact Keeps.update h1 rfl rfl
    · exact Keeps.update h2 rfl rfl
  exact admitNew_keeps (Keeps.update h3 rfl rfl)

theorem dropMgmt_keeps {s₀ s : State} (h : Keeps s₀ s) : Keeps s₀ (dropMgmt s) := by
  unfold dropMgmt
  exact stir_keeps (Keeps.update h rfl rfl)

theorem respondRead_keeps {s₀ : State} {m : MgmtReq} {a : State × Except (Nat × Nat) (List Byte)} (h : PairKeeps s₀ a) :
    Keeps s₀ (respondRead m a) := by
  unfold respondRead
  split <;> exact respond_keeps h

theorem serveMgmt_keeps {s₀ s : State} {sub : Nat} {f : State → MgmtReq → State} (h : Keeps s₀ s)
    (hf : ∀ s m, Keeps s₀ s → Keeps s₀ (f s m)) : ResKeeps s₀ (serveMgmt s sub f) := by
  unfold serveMgmt
  split
  · exact ResKeeps.next h
  · split
    · exact ResKeeps.next (hf _ _ (dropMgmt_keeps h))
    · exact ResKeeps.next (respond_keeps (dropMgmt_keeps h))

theorem execMgmtRead_keeps {s₀ s : State} (h : Keeps s₀ s) : ResKeeps s₀ (execMgmtRead s) := by
  unfold execMgmtRead
  exact serveMgmt_keeps h (fun s1 x1 h1 => respondRead_keeps (readObj_keeps h1))

theorem execMgmtWrite_keeps {s₀ s : State} (h : Keeps s₀ s) : ResKeeps s₀ (execMgmtWrite s) := by
  unfold execMgmtWrite
  refine serveMgmt_keeps h ?_
  intro s1 x1 h1
  extract_lets s2
  have h2 : PairKeeps s₀ s2 := writeObj_keeps h1
  exact respond_keeps (PairKeeps.fst h2)

theorem execDomainRead_keeps {s₀ s : State} (h : Keeps s₀ s) : ResKeeps s₀ (execDomainRead s) := by
  unfold execDomainRead
  split
  · exact ResKeeps.next h
  · refine serveMgmt_keeps h ?_
    intro s1 x1 h1
    split
    · exact respond_keeps h1
    · split
      · exact respondRead_keeps (domainGet_keeps h1)
      · exact respond_keeps h1

theorem execDomainWrite_keeps {s₀ s : State} (h : Keeps s₀ s) : ResKeeps s₀ (execDomainWrite s) := by
  unfold execDomainWrite
  refine serveMgmt_keeps h ?_
  intro s1 x1 h1
  split
  · exact respond_keeps h1
  · split
    · extract_lets s2
      have h2 : PairKeeps s₀ s2 := domainPut_keeps h1
      exact respond_keeps (PairKeeps.fst h2)
    · exact respond_keeps h1

/-! ### Machine.Sdp -/

theorem sdpAbort_keeps {s₀ s : State} {q : CanReq} {k code detail : Nat} (h : Keeps s₀ s) :
    Keeps s₀ (sdpAbort s q k code detail) := by
  unfold sdpAbort
  extract_lets s1 s2
  have h1 : Keeps s₀ s1 := bump_keeps h
  have h2 : Keeps s₀ s2 := Keeps.update h1 rfl rfl
  exact canSend_keeps h2

theorem sdpReply_keeps {s₀ s : State} {q : CanReq} {func : Nat} {data : List Byte} (h : Keeps s₀ s) :
    Keeps s₀ (sdpReply s q func data) := by
  unfold sdpReply
  exact canSend_keeps h

theorem sdpWritten_keeps {s₀ : State} {q : CanReq} {func k : Nat} {data : List Byte} {a : Ack} (h : PairKeeps s₀ a) :
    Keeps s₀ (sdpWritten q func k data a) := by
  unfold sdpWritten
  split
  · exact sdpReply_keeps (Keeps.update h.fst rfl rfl)
  · exact sdpAbort_keeps h.fst

theorem repeatAnswer_keeps {s₀ s : State} {l : List Out} (h : Keeps s₀ s) : Keeps s₀ (repeatAnswer s l) := by
  unfold repeatAnswer
  refine Keeps.foldl ?_ h
  intro s1 x1 h1
  refine canSend_keeps ?_
  split
  · exact bump_keeps h1
  · exact h1

theorem lastAnswer_keeps {s₀ s : State} {n : Nat} {e : LastReq} (h : Keeps s₀ s) : Keeps s₀ (lastAnswer s n e) := by
  unfold lastAnswer
  exact Keeps.update h rfl rfl

theorem sdpRequest_keeps {s₀ s : State} {q : CanReq} {func : Nat} {serve : State → State} (h : Keeps s₀ s)
    (hf : ∀ s, Keeps s₀ s → Keeps s₀ (serve s)) : ResKeeps s₀ (sdpRequest s q func serve) := by
  unfold sdpRequest
  split
  · exact ResKeeps.next h
  · extract_lets s1 n1 last1 old1 s2
    have h1 : Keeps s₀ s1 := bump_keeps h
    have h2 : Keeps s₀ s2 := hf _ h1
    clear_value old1
    split
    · exact ResKeeps.next (lastAnswer_keeps (repeatAnswer_keeps h1))
    · exact ResKeeps.next (lastAnswer_keeps h2)

theorem serveRead_keeps {s₀ s : State} {q : CanReq} (h : Keeps s₀ s) : Keeps s₀ (serveRead q s) := by
  unfold serveRead
  extract_lets k1
  split
  · exact sdpAbort_keeps h
  · have h1 : PairKeeps s₀ (readObj s Path.can (k1 / 256) (k1 % 256)) := readObj_keeps h
    split
    · next s1 s2 x1 e2 =>
        have h2 := PairKeeps.of_eq h1 e2
        exact sdpAbort_keeps h2
    · next s1 s2 x1 e2 =>
        have h2 := PairKeeps.of_eq h1 e2
        split
        · exact sdpAbort_keeps h2
        · exact sdpReply_keeps (Keeps.update h2 rfl rfl)

theorem serveWrite_keeps {s₀ s : State} {q : CanReq} (h : Keeps s₀ s) : Keeps s₀ (serveWrite q s) := by
  unfold serveWrite
  extract_lets k1
  exact sdpWritten_keeps (writeObj_keeps h)

theorem execSdpRead_keeps {s₀ s : State} {q : CanReq} (h : Keeps s₀ s) : ResKeeps s₀ (execSdpRead q s) := by
  unfold execSdpRead
  exact sdpRequest_keeps h (fun s1 h1 => serveRead_keeps h1)

theorem execSdpWrite_keeps {s₀ s : State} {q : CanReq} (h : Keeps s₀ s) : ResKeeps s₀ (execSdpWrite q s) := by
  unfold execSdpWrite
  exact sdpRequest_keeps h (fun s1 h1 => serveWrite_keeps h1)

theorem dropXfer_keeps {s₀ s : State} {node : Nat} (h : Keeps s₀ s) : Keeps s₀ (dropXfer s node) := by
  unfold dropXfer
  extract_lets l1 src1
  split
  · exact h
  · exact stir_keeps (Keeps.update h rfl rfl)

theorem setXfer_keeps {s₀ s : State} {x : Xfer} (h : Keeps s₀ s) : Keeps s₀ (setXfer s x) := by
  unfold setXfer
  extract_lets s1 src1
  have h1 : Keeps s₀ s1 := dropXfer_keeps h
  exact Keeps.update h1 rfl rfl

theorem timeOut_keeps {s₀ s : State} {x : Xfer} (h : Keeps s₀ s) : Keeps s₀ (timeOut s x) := by
  unfold timeOut
  exact sdpAbort_keeps (dropXfer_keeps h)

theorem settleXfers_keeps {s₀ s : State} {q : CanReq} (h : Keeps s₀ s) : Keeps s₀ (settleXfers s q) := by
  unfold settleXfers
  split
  · exact h
  · exact Keeps.foldl (fun s1 x1 h1 => timeOut_keeps h1) h

theorem sendBlock_keeps {s₀ s : State} {q : CanReq} {x : Xfer} (h : Keeps s₀ s) : Keeps s₀ (sendBlock s q x) := by
  unfold sendBlock
  extract_lets n1 k1 top1 s1
  have h1 : Keeps s₀ s1 := by
    unfold s1
    refine Keeps.foldl ?_ h
    intro s2 x1 h1
    extract_lets i1
    exact sdpReply_keeps h1
  exact setXfer_keeps h1

theorem ackSeg_keeps {s₀ s : State} {q : CanReq} {x : Xfer} (h : Keeps s₀ s) : Keeps s₀ (ackSeg s q x) := by
  unfold ackSeg
  exact sdpReply_keeps h

theorem openXfer_keeps {s₀ s : State} {q : CanReq} {f : State → State} (h : Keeps s₀ s)
    (hf : ∀ s, Keeps s₀ s → Keeps s₀ (f s)) : Keeps s₀ (openXfer s q f) := by
  unfold openXfer
  extract_lets k1 s1
  have h1 : Keeps s₀ s1 := dropXfer_keeps h
  split
  · exact sdpAbort_keeps h
  · split
    · exact sdpAbort_keeps h1
    · exact hf _ h1

theorem serveSegWrite_keeps {s₀ s : State} {q : CanReq} (h : Keeps s₀ s) : Keeps s₀ (serveSegWrite q s) := by
  unfold serveSegWrite
  refine openXfer_keeps h ?_
  intro s1 h1
  extract_lets src1 x1
  exact ackSeg_keeps (setXfer_keeps h1)

theorem serveSegRead_keeps {s₀ s : State} {q : CanReq} (h : Keeps s₀ s) : Keeps s₀ (serveSegRead q s) := by
  unfold serveSegRead
  refine openXfer_keeps h ?_
  intro s1 h1
  extract_lets k1
  have h2 : PairKeeps s₀ (readObj s1 Path.can (k1 / 256) (k1 % 256)) := readObj_keeps h1
  split
  · next s2 s3 x1 e1 =>
      have h3 := PairKeeps.of_eq h2 e1
      exact sdpAbort_keeps h3
  · next s2 s3 x1 e1 =>
      have h3 := PairKeeps.of_eq h2 e1
      extract_lets s4 src1
      have h4 : Keeps s₀ s4 := sdpReply_keeps h3
      exact sendBlock_keeps (Keeps.update h4 rfl rfl)

theorem execSegWrite_keeps {s₀ s : State} {q : CanReq} (h : Keeps s₀ s) : ResKeeps s₀ (execSegWrite q s) := by
  unfold execSegWrite
  exact sdpRequest_keeps (settleXfers_keeps h) (fun s1 h1 => serveSegWrite_keeps h1)

theorem execSegRead_keeps {s₀ s : State} {q : CanReq} (h : Keeps s₀ s) : ResKeeps s₀ (execSegRead q s) := by
  unfold execSegRead
  exact sdpRequest_keeps (settleXfers_keeps h) (fun s1 h1 => serveSegRead_keeps h1)

theorem segFinish_keeps {s₀ s : State} {q : CanReq} {x : Xfer} (h : Keeps s₀ s) : Keeps s₀ (segFinish s q x) := by
  unfold segFinish
  extract_lets s1 v1 s2
  have h1 : Keeps s₀ s1 := dropXfer_keeps h
  have h2 : PairKeeps s₀ s2 := writeObj_keeps h1
  split
  · exact sdpAbort_keeps h1
  · split
    · exact sdpAbort_keeps h1
    · exact sdpWritten_keeps h2

theorem segTake_keeps {s₀ s : State} {q : CanReq} {x : Xfer} (h : Keeps s₀ s) : Keeps s₀ (segTake s q x) := by
  unfold segTake
  split
  · exact sdpAbort_keeps (dropXfer_keeps h)
  · extract_lets x1 s1
    have h1 : Keeps s₀ s1 := setXfer_keeps h
    split
    · exact segFinish_keeps h
    · split
      · exact ackSeg_keeps h1
      · exact h1

theorem execSegData_keeps {s₀ s : State} {q : CanReq} (h : Keeps s₀ s) : ResKeeps s₀ (execSegData q s) := by
  unfold execSegData
  split
  · exact ResKeeps.next h
  · extract_lets s1
    have h1 : Keeps s₀ s1 := bump_keeps (settleXfers_keeps h)
    split
    · exact ResKeeps.next (sdpAbort_keeps h1)
    · refine ResKeeps.next ?_
      split
      · exact segTake_keeps h1
      · exact sdpAbort_keeps h1

theorem execSegAck_keeps {s₀ s : State} {q : CanReq} (h : Keeps s₀ s) : ResKeeps s₀ (execSegAck q s) := by
  unfold execSegAck
  split
  · exact ResKeeps.next h
  · extract_lets s1
    have h1 : Keeps s₀ s1 := bump_keeps (settleXfers_keeps h)
    split
    · exact ResKeeps.next h1
    · split
      · exact ResKeeps.next h1
      · split
        · exact ResKeeps.next (sdpAbort_keeps (dropXfer_keeps h1))
        · split
          · exact ResKeeps.next (dropXfer_keeps h1)
          · exact ResKeeps.next (sendBlock_keeps h1)

theorem execAbortXfer_keeps {s₀ s : State} {func : BitVec 6} {q : CanReq} (h : Keeps s₀ s) :
    ResKeeps s₀ (execAbortXfer func q s) := by
  unfold execAbortXfer
  split
  · exact ResKeeps.next h
  · split
    · exact ResKeeps.next (dropXfer_keeps (bump_keeps (settleXfers_keeps h)))
    · split
      · exact ResKeeps.next (bump_keeps h)
      · split
        · exact ResKeeps.next h
        · exact sdpRequest_keeps h (fun s1 h1 => sdpAbort_keeps h1)

theorem execSdpTimeout_keeps {s₀ s : State} {node : BitVec 7} (h : Keeps s₀ s) : ResKeeps s₀ (execSdpTimeout node s) := by
  unfold execSdpTimeout
  split
  · exact ResKeeps.next h
  · split
    · exact ResKeeps.next (timeOut_keeps (advanceTo_keeps h))
    · exact ResKeeps.next h

/-! ### Machine.Strings -/

theorem strPut_keeps {s₀ s : State} {r : Nat} {p : BitVec 5} {bs : List Byte} (h : Keeps s₀ s) :
    Keeps s₀ (strPut s r p bs) := by
  unfold strPut
  extract_lets a1
  split
  · exact memWrite_keeps h
  · exact h

theorem strParity_keeps {s₀ s : State} {steps : Checked Nat} {o : StrOps} {run : State → Nat → Nat → Eff} {r : Nat}
    (hrun : ∀ n, EffKeeps s₀ (run s r n)) : EffKeeps s₀ (strParity steps o run s r) := by
  unfold strParity
  extract_lets x
  split
  · exact EffKeeps.trap
  · exact hrun _

theorem strEnd_keeps {s₀ s : State} {r : Nat} {f : Flags → Flags} (h : Keeps s₀ s) : EffKeeps s₀ (strEnd s r f) :=
  EffKeeps.done (modRope_keeps h fun _ => rfl)

@[simp] theorem window_strMove (o : StrOps) (n : Nat) (x : Rope) : (strMove o n x).window = x.window := by
  unfold strMove
  rw [window_setW]
  exact foldl_keeps Rope.window _ (fun x p => window_setW x _ _) _ _

theorem strRun_keeps {s₀ s : State} {o : StrOps} {step : StrStep} {fin : Flags → Flags} {r n : Nat} (h : Keeps s₀ s)
    (hstep : ∀ s n, Keeps s₀ s → PairKeeps s₀ (step s r n)) : EffKeeps s₀ (strRun o step fin s r n) := by
  induction n generalizing s with
  | zero =>
    rw [strRun]
    split
    · exact strEnd_keeps h
    · exact EffKeeps.held h
  | succ n ih =>
    rw [strRun]
    split
    · exact strEnd_keeps h
    · dsimp only
      split
      · exact EffKeeps.held (faultRope_keeps h)
      · split
        · have hpair := hstep s (stepLen (rope s r) o) h
          split
          · next e => exact strEnd_keeps (modRope_keeps (hpair.of_eq e) (window_strMove _ _))
          · next e => exact ih (modRope_keeps (hpair.of_eq e) (window_strMove _ _))
        · exact EffKeeps.held (stall_keeps h)

theorem copyStep_keeps {s₀ s : State} {r n : Nat} (h : Keeps s₀ s) : PairKeeps s₀ (copyStep s r n) := by
  unfold copyStep
  extract_lets x1
  exact PairKeeps.mk (strPut_keeps h)

theorem fillStep_keeps {s₀ s : State} {b : BitVec 5} {r n : Nat} (h : Keeps s₀ s) : PairKeeps s₀ (fillStep b s r n) := by
  unfold fillStep
  extract_lets x1 a1 v1
  exact PairKeeps.mk (strPut_keeps h)

theorem cmpStep_keeps {s₀ s : State} {r n : Nat} (h : Keeps s₀ s) : PairKeeps s₀ (cmpStep s r n) := by
  unfold cmpStep
  split
  · exact PairKeeps.mk h
  · exact PairKeeps.mk h

theorem scanStep_keeps {s₀ s : State} {b : BitVec 5} {r n : Nat} (h : Keeps s₀ s) : PairKeeps s₀ (scanStep b s r n) := by
  unfold scanStep
  extract_lets v1
  split
  · exact PairKeeps.mk h
  · exact PairKeeps.mk h

theorem execScopy_keeps {s₀ s : State} {r : Issuer} {steps : Checked Nat} (h : Keeps s₀ s) :
    ResKeeps s₀ (execScopy r steps s) := by
  unfold execScopy
  extract_lets o1
  exact issue_keeps h (strParity_keeps (fun x1 => strRun_keeps h (fun s1 x2 h1 => copyStep_keeps h1)))

theorem execSfill_keeps {s₀ s : State} {r : Issuer} {b : BitVec 5} {steps : Nat} (h : Keeps s₀ s) :
    ResKeeps s₀ (execSfill r b steps s) := by
  unfold execSfill
  exact issue_keeps h (strRun_keeps h (fun s1 x1 h1 => fillStep_keeps h1))

theorem execScmp_keeps {s₀ s : State} {r : Issuer} {steps : Checked Nat} (h : Keeps s₀ s) :
    ResKeeps s₀ (execScmp r steps s) := by
  unfold execScmp
  extract_lets o1
  exact issue_keeps h (strParity_keeps (fun x1 => strRun_keeps h (fun s1 x2 h1 => cmpStep_keeps h1)))

theorem execSscan_keeps {s₀ s : State} {r : Issuer} {b : BitVec 5} {steps : Checked Nat} (h : Keeps s₀ s) :
    ResKeeps s₀ (execSscan r b steps s) := by
  unfold execSscan
  refine issue_keeps h (strParity_keeps fun n => strRun_keeps (step := scanStep b) h fun s n hs => ?_)
  exact scanStep_keeps hs

/-! ### Unsupported use -/

theorem execInsert_unsupported {s : State} {n : Nat} {b : TblBlock} (hon : on s = true) (hcmd : nextCmd s 1 = some (n, b))
    (htab : b.goTable = 0) (hlp : lpDefined s (b.arg.extractLsb' 0 9).toNat = false) :
    execInsert s = .fault (.unsupported 106) := by
  rw [BitVec.extractLsb'_toNat, Nat.shiftRight_eq_div_pow] at hlp
  have hno : (!lpDefined s (bits b.arg.toNat 8 0)) = true := by rw [Bool.not_eq_true']; exact hlp
  rw [execInsert, live_on hon]
  simp only [hcmd]
  rw [if_pos htab, if_pos hno]

theorem execFemit_unsupported {s : State} {r : Issuer} {a b : BitVec 5} {k : Nat} (h : Issues s r)
    (hk : (rope s r.toNat).pitch = some k) (hi : (getW (rope s r.toNat) a).toNat % 16 < (rope s r.toNat).heads.length)
    (hport : NoPort s (rope s r.toNat) ((getW (rope s r.toNat) a).toNat % 16) (dispOf (getW (rope s r.toNat) b).toNat)) :
    execFemit r a b s = .fault (.unsupported 158) := by
  rw [execFemit, issue_ok h]
  simp only [hk]
  rw [if_neg (Nat.not_le.mpr hi), if_pos (by rw [noPort_of_not_dispOk.mp hport]; rfl)]
  rfl

theorem execFemitR_unsupported {s : State} {r : Issuer} {a : BitVec 5} {k : Nat} (h : Issues s r)
    (hk : (rope s r.toNat).pitch = some k) :
    let x := rope s r.toNat
    let i := ((getW x a).toNat - 0x2000040) / 64
    let b := recordOf (setClass x i) i
    0x2000040 ≤ (getW x a).toNat → i < countNow x → 2 ≤ (lget b 9 0).toNat → (lget b 32 0).toNat ≠ 1 → (lget b 32 0).toNat ≠ 2 →
    x.localDisp.getLsbD 31 = true → NoPort s (setClass x i) i (dispOf x.localDisp.toNat) →
    execFemitR r a s = .fault (.unsupported 158) := by
  intro x i b hat hi hkind hact hact2 hbit hport
  have hin : ¬(decide ((getW x a).toNat < 0x2000040) || decide (countNow x ≤ i)) = true := by
    rw [Bool.or_eq_true, decide_eq_true_eq, decide_eq_true_eq]
    omega
  rw [execFemitR, issue_ok h]
  simp only [hk]
  rw [if_neg hin, if_pos]
  · rfl
  · rw [Bool.and_eq_true]
    refine ⟨?_, by rw [noPort_of_not_dispOk.mp hport]; rfl⟩
    simp only [Bool.and_eq_true, decide_eq_true_eq, Bool.not_eq_true', bne_iff_ne, ne_eq, beq_eq_false_iff_ne]
    exact ⟨⟨⟨hkind, hbit⟩, hact⟩, hact2⟩

theorem execFnew_unsupported {s : State} {r : Issuer} {a b : BitVec 5} {k : Nat} (h : Issues s r)
    (hk : (rope s r.toNat).pitch = some k)
    (hbad : 2 ≤ ((getW (rope s r.toNat) b).extractLsb' 16 2).toNat ∨
      96 < (parseSxt (winRead (rope s r.toNat) (0x1000 + 128 * ((getW (rope s r.toNat) a).toNat % 16)) 128)).len.toNat) :
    execFnew r a b s = .fault (.unsupported 158) := by
  rw [BitVec.extractLsb'_toNat, Nat.shiftRight_eq_div_pow] at hbad
  rw [execFnew, issue_ok h]
  simp only [hk]
  rw [if_pos (by rw [Bool.or_eq_true, decide_eq_true_eq, decide_eq_true_eq]; exact hbad)]
  rfl

/-! ### Steps -/

/-- A command that is not unsupported use goes on and keeps the invariants. -/
theorem exec_keeps {s₀ s : State} (h : Keeps s₀ s) (c : Instr) (hok : ∀ rule, ¬Unsupported s c rule) : ResKeeps s₀ (exec c s) := by
  cases c with
  | frameReceived _ _ _ => exact execFrameReceived_keeps h
  | ptpMessage _ => exact execPtpMessage_keeps h
  | pulseSend _ => exact execPulseSend_keeps h
  | pulseLossTimeout _ => exact execPulseLossTimeout_keeps h
  | pulseMissed _ => exact execPulseMissed_keeps h
  | ackDelayExpiry _ => exact execAckDelayExpiry_keeps h
  | retransmitTimeout _ => exact execRetransmitTimeout_keeps h
  | contextIdleExpiry _ _ => exact execContextIdleExpiry_keeps h
  | credSend _ => exact execCredSend_keeps h
  | modeWrite _ _ => exact execModeWrite_keeps h
  | laneMapWrite _ _ _ => exact execLaneMapWrite_keeps h
  | trainingComplete _ => exact execTrainingComplete_keeps h
  | trainingTimeout _ => exact execTrainingTimeout_keeps h
  | trainingRestart _ => exact execTrainingRestart_keeps h
  | fecErrorBurst _ _ _ => exact execFecErrorBurst_keeps h
  | linkDown _ => exact execLinkDown_keeps h
  | lpiReceivedOutside _ => exact execLpiReceivedOutside_keeps h
  | pfcXoffSend _ _ => exact execPfcXoffSend_keeps h
  | pauseTimeExpiry _ _ => exact execPauseTimeExpiry_keeps h
  | ruleReadDone _ => exact execRuleReadDone_keeps h
  | learnRequest => exact execLearnRequest_keeps h
  | stageOpen => exact execStageOpen_keeps h
  | stageDiscard => exact execStageDiscard_keeps h
  | versionRetired => exact execVersionRetired_keeps h
  | reclaimWalkDone => exact execReclaimWalkDone_keeps h
  | insert => exact execInsert_keeps h (hok _)
  | deleteEntry => exact execDeleteEntry_keeps h
  | search => exact execSearch_keeps h
  | nextSlot => exact execNextSlot_keeps h
  | flushPort _ => exact execFlushPort_keeps h
  | ageSweep => exact execAgeSweep_keeps h
  | ageSweepTimer => exact execAgeSweepTimer_keeps h
  | ageSweepBucket _ => exact execAgeSweepBucket_keeps h
  | ageIntervalWrite _ => exact execAgeIntervalWrite_keeps h
  | shadowCtlWrite _ => exact execShadowCtlWrite_keeps h
  | shadowBucket => exact execShadowBucket_keeps h
  | shadowRecheck _ => exact execShadowRecheck_keeps h
  | coalesceWindowExpiry _ _ => exact execCoalesceWindowExpiry_keeps h
  | pitchDispatch _ => exact execPitchDispatch_keeps h
  | stragglerBudgetExpiry _ => exact execStragglerBudgetExpiry_keeps h
  | lateReleaseExpiry _ => exact execLateReleaseExpiry_keeps h
  | add _ _ _ _ _ _ => exact execAdd_keeps h
  | sub _ _ _ _ _ _ => exact execSub_keeps h
  | adc _ _ _ _ _ _ => exact execAdc_keeps h
  | sbc _ _ _ _ _ _ => exact execSbc_keeps h
  | andOp _ _ _ _ _ _ => exact execAndOp_keeps h
  | orOp _ _ _ _ _ _ => exact execOrOp_keeps h
  | xorOp _ _ _ _ _ _ => exact execXorOp_keeps h
  | andn _ _ _ _ _ _ => exact execAndn_keeps h
  | shl _ _ _ _ _ _ => exact execShl_keeps h
  | shr _ _ _ _ _ _ => exact execShr_keeps h
  | sar _ _ _ _ _ _ => exact execSar_keeps h
  | ror _ _ _ _ _ _ => exact execRor_keeps h
  | mul _ _ _ _ _ _ => exact execMul_keeps h
  | mulhu _ _ _ _ _ _ => exact execMulhu_keeps h
  | minu _ _ _ _ _ _ => exact execMinu_keeps h
  | maxu _ _ _ _ _ _ => exact execMaxu_keeps h
  | clz _ _ _ _ _ => exact execClz_keeps h
  | ctz _ _ _ _ _ => exact execCtz_keeps h
  | popc _ _ _ _ _ => exact execPopc_keeps h
  | bswap _ _ _ _ _ => exact execBswap_keeps h
  | cmp _ _ _ _ _ => exact execCmp_keeps h
  | tst _ _ _ _ _ => exact execTst_keeps h
  | addi _ _ _ _ => exact execAddi_keeps h
  | cmpi _ _ _ => exact execCmpi_keeps h
  | andi _ _ _ _ => exact execAndi_keeps h
  | ori _ _ _ _ => exact execOri_keeps h
  | xori _ _ _ _ => exact execXori_keeps h
  | shi _ _ _ _ _ => exact execShi_keeps h
  | bfx _ _ _ _ _ => exact execBfx_keeps h
  | bfi _ _ _ _ _ => exact execBfi_keeps h
  | ipl _ _ _ _ => exact execIpl_keeps h
  | ips _ _ _ _ => exact execIps_keeps h
  | img _ _ _ _ => exact execImg_keeps h
  | lb _ _ _ _ _ => exact execLb_keeps h
  | lh _ _ _ _ _ => exact execLh_keeps h
  | lw _ _ _ _ _ => exact execLw_keeps h
  | ld _ _ _ _ _ => exact execLd_keeps h
  | sb _ _ _ _ => exact execSb_keeps h
  | sh _ _ _ _ => exact execSh_keeps h
  | sw _ _ _ _ => exact execSw_keeps h
  | sd _ _ _ _ => exact execSd_keeps h
  | loadReturn _ => exact execLoadReturn_keeps h
  | addm _ _ _ _ _ => exact execAddm_keeps h
  | swpm _ _ _ _ _ => exact execSwpm_keeps h
  | jmp _ _ => exact execJmp_keeps h
  | jz _ _ => exact execJz_keeps h
  | jnz _ _ => exact execJnz_keeps h
  | jc _ _ => exact execJc_keeps h
  | jnc _ _ => exact execJnc_keeps h
  | jn _ _ => exact execJn_keeps h
  | jnn _ _ => exact execJnn_keeps h
  | jv _ _ => exact execJv_keeps h
  | jnv _ _ => exact execJnv_keeps h
  | jlt _ _ => exact execJlt_keeps h
  | jge _ _ => exact execJge_keeps h
  | jgt _ _ => exact execJgt_keeps h
  | jle _ _ => exact execJle_keeps h
  | jhi _ _ => exact execJhi_keeps h
  | jls _ _ => exact execJls_keeps h
  | call _ _ => exact execCall_keeps h
  | ret _ => exact execRet_keeps h
  | jr _ _ => exact execJr_keeps h
  | repb _ _ => exact execRepb_keeps h
  | scopy _ _ => exact execScopy_keeps h
  | sfill _ _ _ => exact execSfill_keeps h
  | scmp _ _ => exact execScmp_keeps h
  | sscan _ _ _ => exact execSscan_keeps h
  | evw _ _ _ _ => exact execEvw_keeps h
  | evs _ _ _ => exact execEvs_keeps h
  | eventDelivery => exact execEventDelivery_keeps h
  | evwTimeout _ => exact execEvwTimeout_keeps h
  | twait _ _ _ _ => exact execTwait_keeps h
  | twaitWake _ => exact execTwaitWake_keeps h
  | kmvWk _ _ _ _ => exact execKmvWk_keeps h
  | kmvKw _ _ _ _ => exact execKmvKw_keeps h
  | kmvLd _ _ _ => exact execKmvLd_keeps h
  | kmvSt _ _ _ => exact execKmvSt_keeps h
  | kmvKk _ _ _ => exact execKmvKk_keeps h
  | kcrc32c _ _ _ _ => exact execKcrc32c_keeps h
  | kcrc32 _ _ _ _ => exact execKcrc32_keeps h
  | kh2 _ _ _ _ _ => exact execKh2_keeps h
  | kcmpm _ _ _ _ => exact execKcmpm_keeps h
  | ksplice _ _ _ _ _ => exact execKsplice_keeps h
  | ktxl _ _ _ => exact execKtxl_keeps h
  | kResultWritten _ _ => exact execKResultWritten_keeps h
  | mapReadDone _ _ => exact execMapReadDone_keeps h
  | ksave _ _ => exact execKsave_keeps h
  | kload _ _ => exact execKload_keeps h
  | mfs _ _ _ => exact execMfs_keeps h
  | mts _ _ _ => exact execMts_keeps h
  | femit _ _ _ => exact execFemit_keeps h (hok _)
  | femitR _ _ => exact execFemitR_keeps h (hok _)
  | fnew _ _ _ => exact execFnew_keeps h (hok _)
  | nop _ => exact execNop_keeps h
  | illegalInstruction _ _ => exact execIllegalInstruction_keeps h
  | fence _ => exact execFence_keeps h
  | pdone _ => exact execPdone_keeps h
  | park _ _ => exact execPark_keeps h
  | resume _ _ => exact execResume_keeps h
  | freeRope _ _ => exact execFreeRope_keeps h
  | parkHoldExpiry _ => exact execParkHoldExpiry_keeps h
  | coreFenceWrite _ _ => exact execCoreFenceWrite_keeps h
  | leadBeat _ => exact execLeadBeat_keeps h
  | leadBeatTimeout _ => exact execLeadBeatTimeout_keeps h
  | acquire _ _ => exact execAcquire_keeps h
  | release _ _ => exact execRelease_keeps h
  | force _ _ => exact execForce_keeps h
  | withdraw _ _ => exact execWithdraw_keeps h
  | priorityRaisePropagate _ => exact execPriorityRaisePropagate_keeps h
  | systemPortRetry _ => exact execSystemPortRetry_keeps h
  | spawn _ => exact execSpawn_keeps h
  | signal _ => exact execSignal_keeps h
  | cancel _ => exact execCancel_keeps h
  | endTask _ => exact execEndTask_keeps h
  | waitTask _ => exact execWaitTask_keeps h
  | sleep _ => exact execSleep_keeps h
  | yield _ => exact execYield_keeps h
  | taskDispatch _ => exact execTaskDispatch_keeps h
  | delayTick _ => exact execDelayTick_keeps h
  | waitTimeoutSweep _ => exact execWaitTimeoutSweep_keeps h
  | mapWrite => exact execMapWrite_keeps h
  | mapRead => exact execMapRead_keeps h
  | homeTableUpdate _ _ => exact execHomeTableUpdate_keeps h
  | keyLoad => exact execKeyLoad_keeps h
  | keyErase => exact execKeyErase_keeps h
  | scanSegmentAccept => exact execScanSegmentAccept_keeps h
  | segmentWaitExpiry _ => exact execSegmentWaitExpiry_keeps h
  | scanRdIssue _ => exact execScanRdIssue_keeps h
  | screeRspEvaluate _ _ => exact execScreeRspEvaluate_keeps h
  | rowFlushExpiry _ _ => exact execRowFlushExpiry_keeps h
  | screeTestGo => exact execScreeTestGo_keeps h
  | screeTestDone _ => exact execScreeTestDone_keeps h
  | progLoad => exact execProgLoad_keeps h
  | progUnload => exact execProgUnload_keeps h
  | progTakesEffect => exact execProgTakesEffect_keeps h
  | cellWriteStage _ => exact execCellWriteStage_keeps h
  | spillReadback _ => exact execSpillReadback_keeps h
  | retainMove => exact execRetainMove_keeps h
  | outputTransmit _ => exact execOutputTransmit_keeps h
  | calendarEntry => exact execCalendarEntry_keeps h
  | hbmReadDone _ _ _ => exact execHbmReadDone_keeps h
  | hbmRefresh _ _ => exact execHbmRefresh_keeps h
  | refreshWindowStart _ => exact execRefreshWindowStart_keeps h
  | nrsGo => exact execNrsGo_keeps h
  | nrsSweepEnd => exact execNrsSweepEnd_keeps h
  | selfRefreshEntry _ _ => exact execSelfRefreshEntry_keeps h
  | selfRefreshExit _ => exact execSelfRefreshExit_keeps h
  | hbmTestGo => exact execHbmTestGo_keeps h
  | hbmTestDone _ => exact execHbmTestDone_keeps h
  | rebuildDone => exact execRebuildDone_keeps h
  | hbmTrainingDone _ _ => exact execHbmTrainingDone_keeps h
  | ppsEdge _ => exact execPpsEdge_keeps h
  | todSentence _ => exact execTodSentence_keeps h
  | timeSourceLost => exact execTimeSourceLost_keeps h
  | holdoverExpiry => exact execHoldoverExpiry_keeps h
  | timeSourceWrite _ => exact execTimeSourceWrite_keeps h
  | versionCommit => exact execVersionCommit_keeps h
  | dictWrite => exact execDictWrite_keeps h
  | taskSignal => exact execTaskSignal_keeps h
  | markEvent => exact execMarkEvent_keeps h
  | planApply => exact execPlanApply_keeps h
  | sdpRead _ => exact execSdpRead_keeps h
  | sdpWrite _ => exact execSdpWrite_keeps h
  | segWrite _ => exact execSegWrite_keeps h
  | segRead _ => exact execSegRead_keeps h
  | segData _ => exact execSegData_keeps h
  | segAck _ => exact execSegAck_keeps h
  | abortXfer _ _ => exact execAbortXfer_keeps h
  | sdpTimeout _ => exact execSdpTimeout_keeps h
  | mgmtRead => exact execMgmtRead_keeps h
  | mgmtWrite => exact execMgmtWrite_keeps h
  | domainRead => exact execDomainRead_keeps h
  | domainWrite => exact execDomainWrite_keeps h
  | objectWrite _ _ _ => exact execObjectWrite_keeps h
  | paramStore _ _ _ => exact execParamStore_keeps h
  | storeClear => exact execStoreClear_keeps h
  | powerMeasurement _ _ => exact execPowerMeasurement_keeps h
  | currentLimitHeld => exact execCurrentLimitHeld_keeps h
  | opCommand _ => exact execOpCommand_keeps h
  | frequencyChangeDone => exact execFrequencyChangeDone_keeps h
  | railTargetReached => exact execRailTargetReached_keeps h
  | railHoldExpiry => exact execRailHoldExpiry_keeps h
  | vinUndervoltage _ => exact execVinUndervoltage_keeps h
  | vinValid => exact execVinValid_keeps h
  | dozeEntry _ => exact execDozeEntry_keeps h
  | dozeExit _ => exact execDozeExit_keeps h
  | bivouacEntry => exact execBivouacEntry_keeps h
  | wake => exact execWake_keeps h
  | basecampEntry => exact execBasecampEntry_keeps h
  | sidebandAddressMatch _ _ => exact execSidebandAddressMatch_keeps h
  | serviceCmdOut => exact execServiceCmdOut_keeps h
  | serviceCmdReturn => exact execServiceCmdReturn_keeps h
  | recoveryReset => exact execRecoveryReset_keeps h
  | basecampWdExpiry => exact execBasecampWdExpiry_keeps h
  | basecampEccError => exact execBasecampEccError_keeps h
  | thermalSample _ _ => exact execThermalSample_keeps h
  | sxdumpSel _ => exact execSxdumpSel_keeps h
  | sxdumpChain _ => exact execSxdumpChain_keeps h
  | sxdumpMem _ => exact execSxdumpMem_keeps h
  | compactGo _ => exact execCompactGo_keeps h
  | leaseGrant _ => exact execLeaseGrant_keeps h
  | leaseRevoke _ => exact execLeaseRevoke_keeps h
  | leaseQuery _ => exact execLeaseQuery_keeps h
  | leaseExpiry => exact execLeaseExpiry_keeps h
  | writeFenceClear => exact execWriteFenceClear_keeps h
  | cairnRecordWrite => exact execCairnRecordWrite_keeps h
  | cairnScanDone => exact execCairnScanDone_keeps h
  | recordRead => exact execRecordRead_keeps h
  | windowRead => exact execWindowRead_keeps h
  | snapTake => exact execSnapTake_keeps h
  | snapDone => exact execSnapDone_keeps h
  | compactionDone => exact execCompactionDone_keeps h
  | compactionRetry => exact execCompactionRetry_keeps h
  | freeze => exact execFreeze_keeps h
  | reset => exact execReset_keeps h
  | startT0 => exact execStartT0_keeps h
  | startupComplete => exact execStartupComplete_keeps h
  | alertClear => exact execAlertClear_keeps h
  | canBusOff => exact execCanBusOff_keeps h

/-- Use that the spec calls unsupported stops with its rule's number. -/
theorem exec_unsupported {s : State} {c : Instr} {rule : Nat} (h : Unsupported s c rule) :
    exec c s = .fault (.unsupported rule) := by
  rcases h with ⟨rfl, rfl, hon, n, b, hcmd, htab, hlp⟩ | ⟨rfl, r, hissues, hpitch, h⟩
  · exact execInsert_unsupported hon hcmd htab hlp
  · obtain ⟨k, hk⟩ := Option.ne_none_iff_exists'.mp hpitch
    rcases h with ⟨a, b, rfl, hi, hport⟩ | ⟨a, rfl, hat, hi, hkind, hact, hact2, hbit, hport⟩ | ⟨a, b, rfl, hbad⟩
    · exact execFemit_unsupported hissues hk hi hport
    · exact execFemitR_unsupported hissues hk hat hi hkind hact hact2 hbit hport
    · exact execFnew_unsupported hissues hk hbad

theorem step_cons_eq {s : State} {c : Instr} {cs : List Instr} (h : s.pending = c :: cs) :
    step s = exec c { s with pending := cs } := by
  rw [step, h]

/-- A step that stops on no unsupported use keeps the invariants. -/
theorem step_keeps {s : State} (h : ∀ c cs rule, s.pending = c :: cs → ¬Unsupported { s with pending := cs } c rule) :
    ResKeeps s (step s) := by
  cases hp : s.pending with
  | nil =>
    rw [step, hp]
    exact ResKeeps.next (advance_keeps (Keeps.refl s))
  | cons c cs =>
    rw [step_cons_eq hp]
    exact exec_keeps (Keeps.update (Keeps.refl s) rfl rfl) c fun rule => h c cs rule hp

/-- Where a step goes on, it keeps the invariants. -/
theorem keeps_of_step {s t : State} (h : step s = .next t) : Keeps s t := by
  have hsup : ∀ c cs rule, s.pending = c :: cs → ¬Unsupported { s with pending := cs } c rule := by
    intro c cs rule hp hun
    rw [step_cons_eq hp, exec_unsupported hun] at h
    cases h
  obtain ⟨u, hu, hkeeps⟩ := step_keeps hsup
  rw [h] at hu
  cases hu
  exact hkeeps

/-- Settles O58: every function of the model keeps the versions consistent, and so does a step. -/
theorem versionsStayConsistent : Obligations.VersionsStayConsistent := fun _ _ ok h => (keeps_of_step h).versions ok

/-- Settles O59: every function of the model keeps the memories canonical, and so does a step. -/
theorem memoriesStayCanonical : Obligations.MemoriesStayCanonical := fun _ _ ok h => (keeps_of_step h).memories ok

/-- Settles O57: what is not unsupported use goes on, by the same lemmas. -/
theorem stepStopsOnlyOnUnsupportedUse : Obligations.StepStopsOnlyOnUnsupportedUse := by
  intro s
  refine ⟨fun c cs rule hp hun => (step_cons_eq hp).trans (exec_unsupported hun), fun h => ?_⟩
  obtain ⟨t, ht, _⟩ := step_keeps h
  exact ⟨t, ht⟩

end Sys2Proof.Proofs

/-! The frame instructions and the end of a pitch (R151 to R156, R174). -/

namespace Sys2Proof.Proofs

open Sys2Proof.Machine Sys2Proof.Claim

/-! ### Release leaves ropes and clusters alone -/

/-- What the release of a pitch's outputs reads only: ropes, cores, clusters, ports, events in flight, time and identity. -/
structure Stays (s₀ s : State) : Prop where
  sys : s.sys = s₀.sys
  time : s.time = s₀.time
  ports : s.ports = s₀.ports
  ropes : s.ropes = s₀.ropes
  cores : s.cores = s₀.cores
  clusters : s.clusters = s₀.clusters
  flights : s.flights = s₀.flights

/-- As `Stays`, of a state that comes with something else. -/
def PairStays {α : Type} (s₀ : State) (p : State × α) : Prop := Stays s₀ p.1

/-- As `Stays`, of a state that there may be. -/
def OptStays (s₀ : State) (o : Option State) : Prop := ∀ s, o = some s → Stays s₀ s

/-- As `OptStays`, of a state that comes with something else. -/
def OptPairStays {α : Type} (s₀ : State) (o : Option (State × α)) : Prop := ∀ p, o = some p → Stays s₀ p.1

section

variable {α β : Type} {s₀ s : State}

theorem Stays.refl (s : State) : Stays s s := ⟨rfl, rfl, rfl, rfl, rfl, rfl, rfl⟩

theorem Stays.trans {r t : State} (h : Stays r s) (h' : Stays s t) : Stays r t :=
  ⟨h'.sys.trans h.sys, h'.time.trans h.time, h'.ports.trans h.ports, h'.ropes.trans h.ropes, h'.cores.trans h.cores,
    h'.clusters.trans h.clusters, h'.flights.trans h.flights⟩

/-- An update of other parts of the state. -/
theorem Stays.update {pending : List Instr} {free : Nat} {out : List Out} {answer : Answer} {obj latched stored : Map Nat}
    {dict : DictSt} {xport : Xport} {frames : Map Frame} {nextFrame nextOut : Nat} {col : ColSt} {tbl : TableSt} {pit : PitchSt}
    {xlat : XlatSt} {scree : ScreeSt} {trav : TravSt} {tm : TmSt} {hbm : HbmSt} {plan : PlanSt} {pwr : PwrSt} {rcv : RecSt}
    {cairn : CairnSt} {dbg : DebugSt} (h : Stays s₀ s) :
    Stays s₀ ⟨pending, free, out, answer, s.sys, s.time, obj, latched, stored, dict, s.ports, xport, frames, nextFrame, nextOut, col,
      tbl, pit, s.ropes, s.cores, s.clusters, s.flights, xlat, scree, trav, tm, hbm, plan, pwr, rcv, cairn, dbg⟩ :=
  ⟨h.sys, h.time, h.ports, h.ropes, h.cores, h.clusters, h.flights⟩

theorem PairStays.mk {x : α} (h : Stays s₀ s) : PairStays s₀ (s, x) := h
theorem PairStays.fst {p : State × α} (h : PairStays s₀ p) : Stays s₀ p.1 := h
theorem PairStays.of_eq {p : State × α} {x : α} (h : PairStays s₀ p) (e : p = (s, x)) : Stays s₀ s := by
  rw [e] at h; exact h

theorem OptPairStays.none : OptPairStays s₀ (none : Option (State × α)) := fun _ h => nomatch h
theorem OptPairStays.some {p : State × α} (h : PairStays s₀ p) : OptPairStays s₀ (some p) := fun _ e => Option.some.inj e ▸ h
theorem OptPairStays.of_eq {o : Option (State × α)} {x : α} (h : OptPairStays s₀ o) (e : o = Option.some (s, x)) : Stays s₀ s :=
  h (s, x) e

theorem Stays.foldl {f : State → β → State} {l : List β} (hf : ∀ s x, Stays s₀ s → Stays s₀ (f s x)) (h : Stays s₀ s) :
    Stays s₀ (l.foldl f s) := by
  induction l generalizing s with
  | nil => exact h
  | cons x l ih => exact ih (hf s x h)

theorem PairStays.foldl {f : State × α → β → State × α} {l : List β} {p : State × α}
    (hf : ∀ p x, PairStays s₀ p → PairStays s₀ (f p x)) (h : PairStays s₀ p) : PairStays s₀ (l.foldl f p) := by
  induction l generalizing p with
  | nil => exact h
  | cons x l ih => exact ih (hf p x h)

end

theorem setO_stays {s₀ s : State} {k v : Nat} (h : Stays s₀ s) : Stays s₀ (setO s k v) := by
  unfold setO
  exact Stays.update h

theorem putObj_stays {s₀ s : State} {idx sub v : Nat} (h : Stays s₀ s) : Stays s₀ (putObj s idx sub v) := by
  unfold putObj
  exact setO_stays h

theorem bumpBy_stays {s₀ s : State} {idx sub n : Nat} (h : Stays s₀ s) : Stays s₀ (bumpBy s idx sub n) := by
  unfold bumpBy
  exact putObj_stays h

theorem bump_stays {s₀ s : State} {idx sub : Nat} (h : Stays s₀ s) : Stays s₀ (bump s idx sub) := by
  unfold bump
  exact bumpBy_stays h

theorem bump32_stays {s₀ s : State} {idx sub : Nat} (h : Stays s₀ s) : Stays s₀ (bump32 s idx sub) := by
  unfold bump32
  exact putObj_stays h

theorem bumpTen_stays {s₀ s : State} {tid sub : Nat} (h : Stays s₀ s) : Stays s₀ (bumpTen s tid sub) := by
  unfold bumpTen
  exact bump_stays h

theorem draw_stays {s₀ s : State} (h : Stays s₀ s) : Stays s₀ (draw s) := by
  unfold draw
  exact Stays.update h

theorem dropPitch_stays {s₀ s : State} {p : Nat} (h : Stays s₀ s) : Stays s₀ (dropPitch s p) := by
  unfold dropPitch
  exact Stays.update h

theorem setFrame_stays {s₀ s : State} {f : Nat} {x : Frame} (h : Stays s₀ s) : Stays s₀ (setFrame s f x) := by
  unfold setFrame
  exact Stays.update h

theorem setStack_stays {s₀ s : State} {k : Nat} {x : Stack} (h : Stays s₀ s) : Stays s₀ (setStack s k x) := by
  unfold setStack
  exact Stays.update h

theorem setPch_stays {s₀ s : State} {k : Nat} {x : PChan} (h : Stays s₀ s) : Stays s₀ (setPch s k x) := by
  unfold setPch
  exact Stays.update h

theorem openRowOf_stays {s₀ s : State} {pc bank row : Nat} (h : Stays s₀ s) : Stays s₀ (openRowOf s pc bank row) := by
  unfold openRowOf
  extract_lets p1
  exact setPch_stays h

theorem countChannel_stays {s₀ s : State} {pc k row : Nat} (h : Stays s₀ s) : Stays s₀ (countChannel s pc k row) := by
  unfold countChannel
  extract_lets ch1 k1 l1 above1 l2 src1 s1
  have h1 : Stays s₀ s1 := Stays.update h
  split
  · exact bumpBy_stays h1
  · exact h1

theorem activate_stays {s₀ s : State} {pc bank row : Nat} {cls : ReqClass} {addr : Nat} {read : Option HbmOutcome}
    (h : Stays s₀ s) :
    PairStays s₀ (activate s pc bank row cls addr read) := by
  unfold activate
  extract_lets p1 k1
  split
  · exact PairStays.mk h
  · split
    · exact PairStays.mk (openRowOf_stays (countChannel_stays h))
    · split
      · exact PairStays.mk (setPch_stays (bump_stays h))
      · exact PairStays.mk (openRowOf_stays (setPch_stays h))

theorem countWrite_stays {s₀ s : State} {cls : ReqClass} {a n : Nat} (h : Stays s₀ s) : Stays s₀ (countWrite s cls a n) := by
  unfold countWrite
  refine Stays.foldl ?_ h
  intro s1 x1 h1
  extract_lets l1 lo1 hi1
  split
  · split
    · exact PairStays.fst (activate_stays (bumpBy_stays h1))
  · exact h1

theorem clearMedia_stays {s₀ s : State} {a n : Nat} (h : Stays s₀ s) : Stays s₀ (clearMedia s a n) := by
  unfold clearMedia
  extract_lets full1 cov1 src1
  exact Stays.update h

theorem cairnDrop_stays {s₀ s : State} {level : Nat} (h : Stays s₀ s) : Stays s₀ (cairnDrop s level) := by
  unfold cairnDrop
  exact bump_stays (Stays.update h)

theorem cairn_stays {s₀ s : State} {src code sev : Nat} {data : List Byte} (h : Stays s₀ s) :
    Stays s₀ (cairn s src code sev data) := by
  unfold cairn
  split
  · exact h
  · split
    · exact cairnDrop_stays h
    · split
      · exact Stays.update h
      · exact cairnDrop_stays h

theorem stir_stays {s₀ s : State} (h : Stays s₀ s) : Stays s₀ (stir s) := by
  unfold stir
  exact Stays.update h

theorem useHead_stays {s₀ s : State} {h : Nat} (hs : Stays s₀ s) : Stays s₀ (useHead s h) := by
  unfold useHead
  exact Stays.update hs

theorem freeHead_stays {s₀ s : State} {h : Nat} (hs : Stays s₀ s) : Stays s₀ (freeHead s h) := by
  unfold freeHead
  extract_lets c1 src1
  split
  · exact Stays.update hs
  · exact hs

theorem useCell_stays {s₀ s : State} {c : Nat} (h : Stays s₀ s) : Stays s₀ (useCell s c) := by
  unfold useCell
  exact Stays.update h

theorem freeCellList_stays {s₀ s : State} {cs : List Nat} (h : Stays s₀ s) : Stays s₀ (freeCellList s cs) := by
  unfold freeCellList
  split
  · exact h
  · extract_lets c1 src1
    exact stir_stays (Stays.update h)

theorem takeCells_stays {s₀ s : State} {n : Nat} (h : Stays s₀ s) : OptPairStays s₀ (takeCells s n) := by
  induction n generalizing s with
  | zero => exact OptPairStays.some (PairStays.mk h)
  | succ n ih =>
    unfold takeCells
    split
    · exact OptPairStays.none
    · next c _ =>
      have hrest : OptPairStays s₀ (takeCells (useCell s c) n) := ih (useCell_stays h)
      split
      · exact OptPairStays.none
      · next s' cs e => exact OptPairStays.some (PairStays.mk (hrest.of_eq e))

theorem setInFlight_stays {s₀ s : State} {v : BitVec 16} {n : Nat} (h : Stays s₀ s) : Stays s₀ (setInFlight s v n) := by
  unfold setInFlight
  exact Stays.update h

theorem versionUp_stays {s₀ s : State} {v : BitVec 16} (h : Stays s₀ s) : Stays s₀ (versionUp s v) := by
  unfold versionUp
  exact setInFlight_stays h

theorem retire_stays {s₀ s : State} {v : BitVec 16} (h : Stays s₀ s) : Stays s₀ (retire s v) := by
  unfold retire
  exact setInFlight_stays h

theorem dropStage_stays {s₀ s : State} {f : Nat} (h : Stays s₀ s) : Stays s₀ (dropStage s f) := by
  unfold dropStage
  exact Stays.update h

theorem freeFrame_stays {s₀ s : State} {f : Nat} (h : Stays s₀ s) : Stays s₀ (freeFrame s f) := by
  unfold freeFrame
  extract_lets x1 s1
  have h1 : Stays s₀ s1 := dropStage_stays (freeCellList_stays (freeHead_stays h))
  exact Stays.update h1

theorem stopScan_stays {s₀ s : State} {k code detail : Nat} (h : Stays s₀ s) : Stays s₀ (stopScan s k code detail) := by
  unfold stopScan
  split
  · exact h
  · extract_lets c1 src1
    exact Stays.update h

theorem scanRdBack_stays {s₀ s : State} {k bytes : Nat} (h : Stays s₀ s) : Stays s₀ (scanRdBack s k bytes) := by
  unfold scanRdBack
  split
  · exact h
  · extract_lets t1 src1
    exact Stays.update h

theorem scanLost_stays {s₀ s : State} {p : Pair} {addr : BitVec 64} {len : Nat} (h : Stays s₀ s) :
    Stays s₀ (scanLost s p addr len) := by
  unfold scanLost
  split
  · exact h
  · extract_lets s1
    have h1 : Stays s₀ s1 := stopScan_stays h
    split
    · exact scanRdBack_stays h1
    · exact h1

theorem retireFrame_stays {s₀ s : State} {f : Nat} (h : Stays s₀ s) : Stays s₀ (retireFrame s f) := by
  unfold retireFrame
  extract_lets x1 x2 s1
  have h1 : Stays s₀ s1 := by
    unfold s1
    split
    · exact scanLost_stays h
    · exact h
  exact freeFrame_stays (retire_stays h1)

theorem copiesSettle_stays {s₀ s : State} {f : Nat} (h : Stays s₀ s) : Stays s₀ (copiesSettle s f) := by
  unfold copiesSettle
  extract_lets c1 s1 src1
  have h1 : Stays s₀ s1 := dropStage_stays (freeCellList_stays (freeHead_stays h))
  split
  · exact Stays.update h1
  · exact h

theorem freeStores_stays {s₀ s : State} {o : Output} (h : Stays s₀ s) : Stays s₀ (freeStores s o) := by
  unfold freeStores
  split
  · exact freeCellList_stays (freeHead_stays h)
  · extract_lets c1 s1 src1
    have h1 : Stays s₀ s1 := by
      unfold s1
      split
      · exact h
      · exact freeHead_stays h
    split
    · exact copiesSettle_stays (Stays.update h1)
    · exact copiesSettle_stays (Stays.update h1)

theorem fillBuffer_stays {s₀ s : State} {b : Nat × Nat} {n : Nat} (h : Stays s₀ s) : Stays s₀ (fillBuffer s b n) := by
  unfold fillBuffer
  extract_lets a1
  exact clearMedia_stays (countWrite_stays h)

theorem pitonAlloc_stays {s₀ s : State} {n : Nat} (h : Stays s₀ s) : PairStays s₀ (pitonAlloc s n) := by
  unfold pitonAlloc
  extract_lets fits1
  split
  · exact PairStays.mk (bump_stays h)
  · extract_lets s1 src1
    have h1 : Stays s₀ s1 := by
      unfold s1
      split
      · exact h
      · exact bump_stays h
    exact PairStays.mk (Stays.update h1)

theorem pitonRelease_stays {s₀ s : State} {owner : Bool} {pool idx : Nat} (h : Stays s₀ s) :
    Stays s₀ (pitonRelease s owner pool idx) := by
  unfold pitonRelease
  split
  · extract_lets c1 src1
    exact Stays.update h
  · exact bump_stays h

theorem endOutput_stays {s₀ s : State} {o : Output} (h : Stays s₀ s) : Stays s₀ (endOutput s o) := by
  unfold endOutput
  extract_lets s1
  have h1 : Stays s₀ s1 := by
    unfold s1
    refine freeStores_stays ?_
    split
    · exact retire_stays h
    · exact h
  split
  · exact pitonRelease_stays h1
  · exact h1

theorem setQueue_stays {s₀ s : State} {q : Queue} (h : Stays s₀ s) : Stays s₀ (setQueue s q) := by
  unfold setQueue
  extract_lets rest1 src1
  exact Stays.update h

theorem setCredit_stays {s₀ s : State} {lp tid : Nat} {c : ℤ} (h : Stays s₀ s) : Stays s₀ (setCredit s lp tid c) := by
  unfold setCredit
  extract_lets x1 src1
  exact Stays.update h

theorem shaperStart_stays {s₀ s : State} {lp tid : Nat} (h : Stays s₀ s) : Stays s₀ (shaperStart s lp tid) := by
  unfold shaperStart
  split
  · exact h
  · exact setCredit_stays h

theorem queueStart_stays {s₀ s : State} {lp tid qn : Nat} (h : Stays s₀ s) : Stays s₀ (queueStart s lp tid qn) := by
  unfold queueStart
  split
  · split
    · extract_lets held1 x5 src1
      exact Stays.update h
    · exact shaperStart_stays h
  · exact shaperStart_stays h

theorem enqueue_stays {s₀ s : State} {o : Output} (h : Stays s₀ s) : Stays s₀ (enqueue s o) := by
  unfold enqueue
  extract_lets tid1 sp1 s1 o1 s2 src1
  have h1 : Stays s₀ s1 := by
    unfold s1
    split
    · exact h
    · exact queueStart_stays h
  have h2 : Stays s₀ s2 := Stays.update h1
  split
  · exact Stays.update h2
  · exact Stays.update h2

theorem trySpill_stays {s₀ s : State} {o : Output} {sp : Nat} (h : Stays s₀ s) : PairStays s₀ (trySpill s o sp) := by
  unfold trySpill
  extract_lets tid1 n1 cls1 qn1
  split
  · exact PairStays.mk h
  · have h1 : PairStays s₀ (pitonAlloc s n1) := pitonAlloc_stays h
    split
    · next s1 s2 e2 =>
        have h2 := PairStays.of_eq h1 e2
        exact PairStays.mk h2
    · next s1 s2 x1 x2 e2 =>
        have h2 := PairStays.of_eq h1 e2
        extract_lets s3 q1 s4 o1 e3 src1 s5 src2
        have h3 : Stays s₀ s3 := fillBuffer_stays (freeStores_stays (bump_stays h2))
        have h4 : Stays s₀ s4 := by
          unfold s4
          split
          · exact h3
          · exact queueStart_stays h3
        have h5 : Stays s₀ s5 := Stays.update h4
        exact PairStays.mk (setQueue_stays h5)

theorem joinCtl_stays {s₀ s : State} {o : Output} (h : Stays s₀ s) : Stays s₀ (joinCtl s o) := by
  unfold joinCtl
  split
  · have h1 : PairStays s₀ (trySpill s o (spreadFor s o)) := trySpill_stays h
    split
    · next s1 s2 e2 =>
        have h2 := PairStays.of_eq h1 e2
        exact h2
    · next s1 s2 e2 =>
        have h2 := PairStays.of_eq h1 e2
        exact endOutput_stays (bump_stays h2)
  · exact enqueue_stays h

theorem sendCtl_stays {s₀ s : State} {lp : Nat} {h : Sxt} {payload : List Byte} (hs : Stays s₀ s) :
    Stays s₀ (sendCtl s lp h payload) := by
  unfold sendCtl
  split
  · exact hs
  · exact joinCtl_stays (useHead_stays hs)

theorem sendNak_stays {s₀ s : State} {lp : Nat} {h : Sxt} {code detail : Nat} (hs : Stays s₀ s) :
    Stays s₀ (sendNak s lp h code detail) := by
  unfold sendNak
  exact sendCtl_stays hs

theorem setRx_stays {s₀ s : State} {ep : BitVec 24} {c : RxCtx} (h : Stays s₀ s) : Stays s₀ (setRx s ep c) := by
  unfold setRx
  exact Stays.update h

theorem sendAck_stays {s₀ s : State} {ep : BitVec 24} {c : RxCtx} (h : Stays s₀ s) : Stays s₀ (sendAck s ep c) := by
  unfold sendAck
  extract_lets s1
  have h1 : Stays s₀ s1 := stir_stays (setRx_stays h)
  exact sendCtl_stays h1

theorem ackCheck_stays {s₀ s : State} {ep : BitVec 24} (h : Stays s₀ s) : Stays s₀ (ackCheck s ep) := by
  unfold ackCheck
  split
  · exact h
  · extract_lets moved1
    split
    · exact h
    · split
      · exact sendAck_stays h
      · split
        · exact h
        · exact setRx_stays h

theorem settle_stays {s₀ s : State} {ep : BitVec 24} {psn : BitVec 32} (h : Stays s₀ s) : Stays s₀ (settle s ep psn) := by
  unfold settle
  split
  · exact h
  · exact ackCheck_stays (setRx_stays h)

theorem withdraw_stays {s₀ s : State} {ep : BitVec 24} {psn : BitVec 32} (h : Stays s₀ s) : Stays s₀ (withdraw s ep psn) := by
  unfold withdraw
  split
  · exact h
  · next x1 x2 e1 =>
      extract_lets c1 above1
      split
      · exact ackCheck_stays (setRx_stays h)
      · exact ackCheck_stays (setRx_stays h)

theorem finalNak_stays {s₀ s : State} {lp : Nat} {h : Sxt} {code detail : Nat} (hs : Stays s₀ s) :
    Stays s₀ (finalNak s lp h code detail) := by
  unfold finalNak
  exact settle_stays (sendNak_stays hs)

theorem nakAny_stays {s₀ s : State} {lp : Nat} {h : Sxt} {code detail : Nat} (hs : Stays s₀ s) :
    Stays s₀ (nakAny s lp h code detail) := by
  unfold nakAny
  split
  · exact finalNak_stays hs
  · exact sendNak_stays hs

theorem nakFrame_stays {s₀ s : State} {lp : Nat} {h : Sxt} {code detail : Nat} (hs : Stays s₀ s) :
    Stays s₀ (nakFrame s lp h code detail) := by
  unfold nakFrame
  split
  · exact nakAny_stays hs
  · exact hs

theorem nakPair_stays {s₀ s : State} {p : Pair} {code detail : Nat} (h : Stays s₀ s) : Stays s₀ (nakPair s p code detail) := by
  unfold nakPair
  exact sendCtl_stays h

theorem legNak_stays {s₀ s : State} {o : Output} {code detail : Nat} (h : Stays s₀ s) : Stays s₀ (legNak s o code detail) := by
  unfold legNak
  split
  · exact h
  · extract_lets src1 s1
    have h1 : Stays s₀ s1 := Stays.update h
    split
    · exact finalNak_stays h1
    · exact sendNak_stays h1

theorem setTxAt_stays {s₀ s : State} {k : Nat} {c : TxCtx} (h : Stays s₀ s) : Stays s₀ (setTxAt s k c) := by
  unfold setTxAt
  exact Stays.update h

theorem dropTxAt_stays {s₀ s : State} {k : Nat} (h : Stays s₀ s) : Stays s₀ (dropTxAt s k) := by
  unfold dropTxAt
  exact Stays.update h

theorem originate_stays {s₀ s : State} {o : Output} (h : Stays s₀ s) : PairStays s₀ (originate s o) := by
  unfold originate
  split
  · exact PairStays.mk h
  · next e1 =>
      extract_lets src1 dst1 k1 c1 no1 src2 x1 id1 o1 s1 src3 s2 due1
      have h1 : Stays s₀ s1 := Stays.update h
      have h2 : Stays s₀ s2 := by
        unfold s2
        split
        · extract_lets q1
          exact Stays.update h1
        · exact h1
      exact PairStays.mk (setTxAt_stays h2)

theorem park_stays {s₀ s : State} {o : Output} (h : Stays s₀ s) : Stays s₀ (park s o) := by
  unfold park
  extract_lets x1 src1
  exact Stays.update h

theorem countRefused_stays {s₀ s : State} {tid : Nat} (h : Stays s₀ s) : Stays s₀ (countRefused s tid) := by
  unfold countRefused
  exact bumpTen_stays h

theorem vaultRequest_stays {s₀ s : State} {o : Output} {q : Pair} (h : Stays s₀ s) : OptPairStays s₀ (vaultRequest s o q) := by
  unfold vaultRequest
  extract_lets t1 x1 lo1 n1 cut1 src1
  split
  · split
    · exact OptPairStays.some (PairStays.mk h)
    · exact OptPairStays.none
  · split
    · exact OptPairStays.none
    · split
      · split
        · exact OptPairStays.none
        · exact OptPairStays.some (PairStays.mk (bumpBy_stays h))
      · exact OptPairStays.some (PairStays.mk h)

theorem vaultRefuse_stays {s₀ s : State} {o : Output} {q : Pair} (h : Stays s₀ s) : Stays s₀ (vaultRefuse s o q) := by
  unfold vaultRefuse
  extract_lets s1
  have h1 : Stays s₀ s1 := endOutput_stays (countRefused_stays h)
  split
  · exact legNak_stays h1
  · exact nakPair_stays h1

theorem vaultReply_stays {s₀ s : State} {o : Output} {p : Pair} (h : Stays s₀ s) : PairStays s₀ (vaultReply s o p) := by
  unfold vaultReply
  extract_lets x1 src1
  have h1 : PairStays s₀
        (match p.enc, keysOf s p.tid.toNat with
        | true, some (k1, k2) => if (decide (p.kind = 0) && decide (x1 % 16 = 0) && decide (o.payload.length % 16 = 0)) = true then (bumpBy s 24704 9 o.payload.length, xts (aesDecrypt k1) k2 x1 o.payload) else (s, o.payload)
        | x, x_1 => (s, o.payload)) := by
    split
    · split
      · exact PairStays.mk (bumpBy_stays h)
      · exact PairStays.mk h
    · exact PairStays.mk h
  split
  · next s1 s2 x2 e1 =>
      have h2 := PairStays.of_eq h1 e1
      extract_lets body1
      exact PairStays.mk h2

theorem stage7_stays {s₀ s : State} {o : Output} (h : Stays s₀ s) : PairStays s₀ (stage7 s o) := by
  unfold stage7
  split
  · next x1 x2 x3 e1 =>
      split
      · exact PairStays.mk h
      · have h1 : PairStays s₀ (vaultReply s o x3) := vaultReply_stays h
        split
        · next s1 s2 x4 e3 =>
            have h2 := PairStays.of_eq h1 e3
            exact PairStays.mk h2
  · next x1 x2 x3 e1 e2 =>
      split
      · have h1 : OptPairStays s₀ (vaultRequest s o x3) := vaultRequest_stays h
        split
        · next s1 s2 x4 e4 =>
            have h2 := OptPairStays.of_eq h1 e4
            exact PairStays.mk h2
        · exact PairStays.mk (vaultRefuse_stays h)
      · exact PairStays.mk h
  · exact PairStays.mk h

theorem dropOutput_stays {s₀ s : State} {o : Output} (h : Stays s₀ s) : Stays s₀ (dropOutput s o) := by
  unfold dropOutput
  split
  · extract_lets s1 o1
    have h1 : Stays s₀ s1 := by
      unfold s1
      split
      · exact retire_stays h
      · exact h
    split
    · split
      · exact park_stays h1
      · have h2 : PairStays s₀ (stage7 s1 o1) := stage7_stays h1
        split
        · next s2 s3 x3 e4 =>
            have h3 := PairStays.of_eq h2 e4
            exact PairStays.fst (originate_stays h3)
        · next s2 s3 e4 =>
            have h3 := PairStays.of_eq h2 e4
            exact h3
    · split
      · exact park_stays h1
      · have h2 : PairStays s₀ (stage7 s1 o1) := stage7_stays h1
        split
        · next s2 s3 x2 e4 =>
            have h3 := PairStays.of_eq h2 e4
            exact PairStays.fst (originate_stays h3)
        · next s2 s3 e4 =>
            have h3 := PairStays.of_eq h2 e4
            exact h3
  · exact endOutput_stays h

theorem answerLost_stays {s₀ s : State} {o : Output} (h : Stays s₀ s) : Stays s₀ (answerLost s o) := by
  unfold answerLost
  split
  · split
    · exact scanRdBack_stays (stopScan_stays h)
    · split
      · exact legNak_stays h
      · exact nakPair_stays h
  · split
    · exact scanLost_stays h
    · exact h
  · exact h

theorem loseOutput_stays {s₀ s : State} {o : Output} (h : Stays s₀ s) : Stays s₀ (loseOutput s o) := by
  unfold loseOutput
  exact answerLost_stays (endOutput_stays (bumpBy_stays h))

theorem spillOutput_stays {s₀ s : State} {o : Output} {sp : Nat} (h : Stays s₀ s) : Stays s₀ (spillOutput s o sp) := by
  unfold spillOutput
  have h1 : PairStays s₀ (trySpill s o sp) := trySpill_stays h
  split
  · next s1 s2 e1 =>
      have h2 := PairStays.of_eq h1 e1
      exact h2
  · next s1 s2 e1 =>
      have h2 := PairStays.of_eq h1 e1
      exact dropOutput_stays (bump_stays h2)

theorem lodge_stays {s₀ s : State} {o : Output} (h : Stays s₀ s) : Stays s₀ (lodge s o) := by
  unfold lodge
  extract_lets o1 tid1 sp1 cls1 qu1 q1 inSpill1 under1 qn1 ci1 avg1 col1 src1 s1 sel1 mark1 s2 o2
  have h1 : Stays s₀ s1 := draw_stays (Stays.update h)
  have h2 : Stays s₀ s2 := by
    unfold s2
    split
    · exact bump_stays h1
    · exact h1
  split
  · exact joinCtl_stays h
  · split
    · exact loseOutput_stays h
    · split
      · exact dropOutput_stays (bumpTen_stays h)
      · split
        · exact spillOutput_stays h
        · split
          · exact dropOutput_stays (bump_stays h2)
          · split
            · exact spillOutput_stays h2
            · exact enqueue_stays h2

theorem takeStores_stays {s₀ s : State} {o : Output} (h : Stays s₀ s) : OptPairStays s₀ (takeStores s o) := by
  unfold takeStores
  split
  · exact OptPairStays.none
  · next hd _ =>
    have hcells : OptPairStays s₀ (takeCells (useHead s hd) (cellsFor (outLen o))) := takeCells_stays (useHead_stays h)
    split
    · exact OptPairStays.some (PairStays.mk (useHead_stays h))
    · intro p e
      obtain ⟨q, hq, rfl⟩ := Option.map_eq_some_iff.mp e
      exact hcells q hq

theorem admitNew_stays {s₀ s : State} {o : Output} (h : Stays s₀ s) : Stays s₀ (admitNew s o) := by
  unfold admitNew
  extract_lets o1 o2
  split
  · exact park_stays h
  · have h1 : OptPairStays s₀ (takeStores s o1) := takeStores_stays h
    split
    · next s1 s2 x1 e2 =>
        have h2 := OptPairStays.of_eq h1 e2
        exact lodge_stays h2
    · split
      · exact park_stays h
      · exact endOutput_stays (bump_stays h)

theorem screeSend_stays {s₀ s : State} {c : Scan} {h : Sxt} {payload : List Byte} {counted : Bool} (hs : Stays s₀ s) :
    Stays s₀ (screeSend s c h payload counted) := by
  unfold screeSend
  extract_lets x1
  exact admitNew_stays hs

theorem sendRows_stays {s₀ s : State} {f : RowFrame} (h : Stays s₀ s) : Stays s₀ (sendRows s f) := by
  unfold sendRows
  split
  · exact h
  · extract_lets first1
    exact screeSend_stays h

theorem endScan_stays {s₀ s : State} {k : Nat} {c : Scan} (h : Stays s₀ s) : Stays s₀ (endScan s k c) := by
  unfold endScan
  extract_lets s1 src1 s2 s3 s4 src2
  have h1 : Stays s₀ s1 := Stays.foldl (fun s5 x1 h1 => sendRows_stays h1) h
  have h2 : Stays s₀ s2 := Stays.update h1
  have h3 : Stays s₀ s3 := screeSend_stays h2
  have h4 : Stays s₀ s4 := bump_stays h3
  exact stir_stays (Stays.update h4)

theorem finishScans_stays {s₀ s : State} (h : Stays s₀ s) : Stays s₀ (finishScans s) := by
  unfold finishScans
  refine Stays.foldl ?_ h
  intro s1 x1 h1
  split
  · exact endScan_stays h1
  · exact h1

theorem mgmtTake_stays {s₀ s : State} {h : Sxt} {payload : List Byte} {lp : Nat} (hs : Stays s₀ s) :
    Stays s₀ (mgmtTake s h payload lp) := by
  unfold mgmtTake
  extract_lets settled1 s1 src1 s2
  have h1 : Stays s₀ s1 := bump_stays hs
  have h2 : Stays s₀ s2 := Stays.update hs
  split
  · dsimp only [settled1]
    split
    · exact settle_stays (bump_stays hs)
    · exact bump_stays hs
  · split
    · split
      · exact withdraw_stays h1
      · exact h1
    · dsimp only [settled1]
      split
      · exact settle_stays h2
      · exact h2

theorem scanTake_stays {s₀ s : State} {h : Sxt} {payload : List Byte} {lp hostLp : Nat} {ecn : BitVec 2} (hs : Stays s₀ s) :
    Stays s₀ (scanTake s h payload lp hostLp ecn) := by
  unfold scanTake
  split
  · exact nakFrame_stays hs
  · extract_lets src1 s1
    have h1 : Stays s₀ s1 := Stays.update hs
    split
    · exact settle_stays h1
    · exact h1

theorem admitCopy_stays {s₀ s : State} {l : Leaving} {c : Copy} {ix : Nat} (h : Stays s₀ s) :
    Stays s₀ (admitCopy s l c ix) := by
  unfold admitCopy
  extract_lets x1 req1 first1 o1
  split
  · exact lodge_stays h
  · exact admitNew_stays h

theorem settleLeaving_stays {s₀ s : State} {p : Pitch} {i : Nat} {l : Leaving} (h : Stays s₀ s) :
    Stays s₀ (settleLeaving s p i l) := by
  unfold settleLeaving
  extract_lets x1 x2 mine1 has1 s1 taken1 refused1 legs1 src1 s2 s3 s4 cp1 src2
  have h1 : Stays s₀ s1 := by
    unfold s1
    split
    · exact bumpTen_stays h
    · exact h
  have h2 : Stays s₀ s2 := by
    unfold s2
    split
    · exact h1
    · split
      · exact settle_stays h1
      · exact Stays.update h1
  have h3 : Stays s₀ s3 := by
    unfold s3
    split
    · split
      · exact h2
      · exact scanLost_stays h2
    · exact h2
  have h4 : Stays s₀ s4 := setInFlight_stays h3
  split
  · exact retireFrame_stays h2
  · exact Stays.update h4

theorem releaseDerived_stays {s₀ s : State} {p : Pitch} {first : Option Frame} {slot : List Byte} {flood : Bool} {lp : Nat}
    (h : Stays s₀ s) :
    Stays s₀ (releaseDerived s p first slot flood lp) := by
  unfold releaseDerived
  extract_lets psn1 ecn1 src1 x1 payload1 t1 named1 s1 asks1 ports1 legs1 no1 src2 s2
  have h1 : Stays s₀ s1 := by
    unfold s1
    split
    · exact bumpTen_stays h
    · exact h
  have h2 : Stays s₀ s2 := by
    unfold s2
    split
    · exact h1
    · exact Stays.update h1
  split
  · exact scanTake_stays h
  · refine Stays.foldl ?_ h2
    intro s3 x2 h3
    extract_lets o1 o2
    exact admitNew_stays (versionUp_stays h3)

theorem releaseEmit_stays {s₀ s0 : State} {p : Pitch} {ls : List Leaving} {acc : State × Map Nat} {e : Emit}
    (h : PairStays s₀ acc) : PairStays s₀ (releaseEmit s0 p ls acc e) := by
  unfold releaseEmit
  obtain ⟨s, seen⟩ := acc
  have hs : Stays s₀ s := h
  dsimp only
  split
  · exact PairStays.mk (releaseDerived_stays hs)
  · split
    · exact h
    · have hcopies (l : Leaving) (cs : List Copy) (n : Nat) (m : Map Nat) :
          PairStays s₀ ((cs.zipIdx).foldl (fun s c => admitCopy s l c.1 (n + c.2)) s, m) :=
        PairStays.mk (Stays.foldl (fun _ _ ht => admitCopy_stays ht) hs)
      split
      · exact PairStays.mk (nakAny_stays hs)
      · exact PairStays.mk (nakFrame_stays hs)
      · split
        · exact PairStays.mk (mgmtTake_stays hs)
        split
        · exact PairStays.mk (scanTake_stays hs)
        · exact hcopies _ _ _ _
      · exact hcopies _ _ _ _

theorem releasePitch_stays {s₀ s : State} {p : Pitch} (h : Stays s₀ s) : Stays s₀ (releasePitch s p) := by
  unfold releasePitch
  extract_lets ls1 s1
  have h1 : Stays s₀ s1 := Stays.foldl (fun s2 x1 h1 => settleLeaving_stays h1) h
  exact finishScans_stays (PairStays.fst (PairStays.foldl (fun s2 x1 h2 => releaseEmit_stays h2) (PairStays.mk h1)))

theorem setLane_stays {s₀ s : State} {l : Nat} {x : Lane} (h : Stays s₀ s) : Stays s₀ (setLane s l x) := by
  unfold setLane
  exact Stays.update h

theorem releaseLane_stays {s₀ s : State} {l n : Nat} (h : Stays s₀ s) : Stays s₀ (releaseLane s l n) := by
  induction n generalizing s with
  | zero => exact h
  | succ n ih =>
    unfold releaseLane
    extract_lets la1 s1
    have h1 : Stays s₀ s1 := setLane_stays h
    split
    · exact h
    · split
      · refine ih ?_
        split
        · exact dropPitch_stays h1
        · exact h1
      · split
        · exact ih (releasePitch_stays (dropPitch_stays h1))
        · exact h
end Sys2Proof.Proofs

namespace Sys2Proof.Proofs
open Sys2Proof.Machine Sys2Proof.Claim

/-! ### Dispositions -/

theorem bits_toNat {n : Nat} (w : BitVec n) (hi lo : Nat) : bits w.toNat hi lo = (w.extractLsb' lo (hi + 1 - lo)).toNat := by
  rw [BitVec.extractLsb'_toNat, Nat.shiftRight_eq_div_pow, bits]

theorem toNat_mod_16 (w : Word) : w.toNat % 16 = (w.extractLsb' 0 4).toNat := by
  rw [BitVec.extractLsb'_toNat, Nat.shiftRight_zero]

theorem dispOf_port {w : Word} (h : w.extractLsb' 16 2 = 0) : dispOf w.toNat = .port (w.extractLsb' 0 9).toNat := by
  unfold dispOf
  rw [bits_toNat w 17 16, bits_toNat w 8 0, show w.extractLsb' 16 (17 + 1 - 16) = 0 from h]
  rfl

theorem dispOf_flood {w : Word} (h : w.extractLsb' 16 2 = 1) : dispOf w.toNat = .flood := by
  unfold dispOf
  rw [bits_toNat w 17 16, show w.extractLsb' 16 (17 + 1 - 16) = 1 from h]
  rfl

theorem dispOf_drop {w : Word} (h : w.extractLsb' 16 2 = 2) : dispOf w.toNat = .drop := by
  unfold dispOf
  rw [bits_toNat w 17 16, show w.extractLsb' 16 (17 + 1 - 16) = 2 from h]
  rfl

theorem dispOf_nak {w : Word} (h : w.extractLsb' 16 2 = 3) :
    dispOf w.toNat = .nak (w.extractLsb' 0 8).toNat (w.extractLsb' 8 8).toNat := by
  unfold dispOf
  rw [bits_toNat w 17 16, bits_toNat w 7 0, bits_toNat w 15 8, show w.extractLsb' 16 (17 + 1 - 16) = 3 from h]
  rfl

theorem outputsOf_some {s : State} {k : Nat} {p : Pitch} (h : pitch s k = some p) : outputsOf s k = p.emits.length := by
  rw [outputsOf, h]

/-- FEMIT in a pitch, of a frame that there is. -/
theorem exec_femit_ok {s : State} {r : Issuer} (h : Issues s r) {a b : BitVec 5} {k : Nat} (hk : (rope s r.toNat).pitch = some k) :
    let x := rope s r.toNat
    let i := ((getW x a).extractLsb' 0 4).toNat
    let d := dispOf (getW x b).toNat
    exec (.femit r a b) s = if x.heads.length ≤ i then .next (faultRope s r.toNat 3 0)
      else if dispOk s x i d = false then .fault (.unsupported 158)
      else if 64 < outputsOf s k + (emitOf x i d).length then .next (faultRope s r.toNat 7 0)
      else .next (modRope (dispose s r.toNat k i d) r.toNat nextPc) := by
  intro x i d
  change execFemit r a b s = _
  rw [execFemit, issue_ok h]
  simp only [hk, toNat_mod_16]
  split
  · rfl
  · cases hd : dispOk s x i d with
    | false => rfl
    | true =>
      rw [if_neg (show ¬(!true) = true by decide), if_neg (show ¬true = false by decide)]
      split <;> rfl

theorem exec_femit_dispose {s : State} {r : Issuer} (h : Issues s r) {a b : BitVec 5} {k : Nat} {p : Pitch}
    (hk : (rope s r.toNat).pitch = some k) (hp : pitch s k = some p) :
    let x := rope s r.toNat
    let i := ((getW x a).extractLsb' 0 4).toNat
    let d := dispOf (getW x b).toNat
    i < x.heads.length → dispOk s x i d = true → p.emits.length + (emitOf x i d).length ≤ 64 →
    exec (.femit r a b) s = .next (modRope (dispose s r.toNat k i d) r.toNat nextPc) := by
  intro x i d hi hd hroom
  rw [exec_femit_ok h hk, if_neg (Nat.not_le.mpr hi), if_neg (by rw [hd]; decide), if_neg]
  rw [outputsOf_some hp]
  exact Nat.not_lt.mpr hroom

theorem kind_cases (k : BitVec 2) : k = 0 ∨ k = 1 ∨ k = 2 ∨ k = 3 := by
  revert k
  decide

/-- A disposition that names no port can always be taken. -/
theorem dispOk_of_kind {s : State} {x : Rope} {i : Nat} {w : Word}
    (h : w.extractLsb' 16 2 = 0 → portOk s x i (w.extractLsb' 0 9).toNat = true) : dispOk s x i (dispOf w.toNat) = true := by
  rcases kind_cases (w.extractLsb' 16 2) with h0 | h1 | h2 | h3
  · rw [dispOf_port h0]; exact h h0
  · rw [dispOf_flood h1]; rfl
  · rw [dispOf_drop h2]; rfl
  · rw [dispOf_nak h3]; rfl

/-- A disposition that is no discard gives one output. -/
theorem length_emitOf {x : Rope} {i : Nat} {w : Word} (h : w.extractLsb' 16 2 ≠ 2) : (emitOf x i (dispOf w.toNat)).length = 1 := by
  rcases kind_cases (w.extractLsb' 16 2) with h0 | h1 | h2 | h3
  · rw [dispOf_port h0]; rfl
  · rw [dispOf_flood h1]; rfl
  · exact absurd h2 h
  · rw [dispOf_nak h3]; rfl

/-- Settles O20, by the kinds of a disposition. -/
theorem femitDisposesOfAFrame : Obligations.FemitDisposesOfAFrame := by
  unfold Obligations.FemitDisposesOfAFrame
  intro s r a b h n x i w lp kind
  refine ⟨fun hnone => ?_, fun k p hk hp => ⟨fun hi => ?_, fun hi => ?_⟩⟩
  · change execFemit r a b s = _
    rw [execFemit, issue_ok h]
    simp only [show (rope s r.toNat).pitch = none from hnone]
    rfl
  · rw [exec_femit_ok h hk, if_pos hi]
  intro gives
  refine ⟨fun h2 hfull hkind => ?_, fun h0 hbad => ?_, fun hroom => ⟨fun h0 hgood => ?_, fun h1 => ?_, fun h3 => ?_⟩, fun hroom h2 => ?_⟩
  · rw [exec_femit_ok h hk, if_neg (Nat.not_le.mpr hi), if_neg (by rw [dispOk_of_kind hkind]; decide), if_pos]
    rw [outputsOf_some hp, length_emitOf h2]
    exact Nat.lt_succ_of_le hfull
  · rw [exec_femit_ok h hk, if_neg (Nat.not_le.mpr hi), if_pos]
    rw [dispOf_port h0]; exact hbad
  · rw [exec_femit_dispose h hk hp hi (dispOk_of_kind fun _ => hgood) (by rw [dispOf_port h0]; exact hroom),
      dispOf_port h0, dispose, hp]
    rfl
  · rw [exec_femit_dispose h hk hp hi (by rw [dispOf_flood h1]; rfl) (by rw [dispOf_flood h1]; exact hroom), dispOf_flood h1, dispose, hp]
    rfl
  · rw [exec_femit_dispose h hk hp hi (by rw [dispOf_nak h3]; rfl) (by rw [dispOf_nak h3]; exact hroom), dispOf_nak h3, dispose, hp]
    simp only [emitOf, BitVec.ofNat_toNat, BitVec.setWidth_eq]
    rfl
  · rw [exec_femit_dispose h hk hp hi (by rw [dispOf_drop h2]; rfl) (by rw [dispOf_drop h2]; exact hroom), dispOf_drop h2, dispose, hp]
    rfl
end Sys2Proof.Proofs

namespace Sys2Proof.Proofs
open Sys2Proof.Machine Sys2Proof.Claim

/-! ### FEMIT.R -/

theorem insertNat_insertNat (i : Nat) (l : List Nat) : insertNat i (insertNat i l) = insertNat i l := by
  induction l with
  | nil => simp [insertNat]
  | cons x l ih =>
    by_cases hlt : i < x
    · simp [insertNat, hlt]
    · by_cases heq : i = x
      · simp [insertNat, heq]
      · simp [insertNat, hlt, heq, ih]

/-- Setting the class of a head changes the window alone. -/
theorem setClass_eq (x : Rope) (i : Nat) : ∃ w, setClass x i = { x with window := w } := by
  unfold setClass
  dsimp only
  split
  · exact ⟨_, rfl⟩
  · exact ⟨_, rfl⟩

theorem getW_setClass (x : Rope) (i : Nat) (a : BitVec 5) : getW (setClass x i) a = getW x a := by
  obtain ⟨w, h⟩ := setClass_eq x i
  rw [h]
  rfl

theorem localDisp_setClass (x : Rope) (i : Nat) : (setClass x i).localDisp = x.localDisp := by
  obtain ⟨w, h⟩ := setClass_eq x i
  rw [h]

/-- Pitch `k`, which was `p`, has taken outputs and, where `disp`, a disposition of frame `i`, counted in the cluster of rope `n`. -/
structure Disposing (s t : State) (n k i : Nat) (p : Pitch) (es : List Emit) (disp : Bool) : Prop where
  pitch : Machine.pitch t k = some { p with
    emits := p.emits ++ es, disposed := if disp then insertNat i p.disposed else p.disposed }
  ropes : t.ropes = s.ropes
  hbm : t.hbm = s.hbm
  clusters : t.clusters = s.clusters
  obj : ∀ idx sub, sub < 256 → idx ≠ 0x4010 + ropeCluster n → Machine.obj t idx sub = Machine.obj s idx sub

section
variable {s t : State} {n k i : Nat} {p : Pitch} {es : List Emit} {disp : Bool}

theorem Disposing.refl (h : Machine.pitch s k = some p) : Disposing s s n k i p [] false :=
  ⟨by rw [h, List.append_nil]; rfl, rfl, rfl, rfl, fun _ _ _ _ => rfl⟩

theorem Disposing.bump (h : Disposing s t n k i p es disp) {sub : Nat} (hsub : sub < 256) :
    Disposing s (bump t (0x4010 + ropeCluster n) sub) n k i p es disp :=
  ⟨h.pitch, h.ropes, h.hbm, h.clusters, fun idx b hb hne =>
    (obj_bump_ne t hsub hb (.inl hne.symm)).trans (h.obj idx b hb hne)⟩

theorem Disposing.dispose (h : Disposing s t n k i p es disp) (d : Disp) :
    Disposing s (dispose t n k i d) n k i p (es ++ emitOf (rope s n) i d) true := by
  have hset : Disposing s (setPitch t k { p with
      emits := p.emits ++ (es ++ emitOf (rope s n) i d), disposed := insertNat i p.disposed }) n k i p
      (es ++ emitOf (rope s n) i d) true :=
    ⟨mfind_mset_same _ _ _, h.ropes, h.hbm, h.clusters, h.obj⟩
  have hdis : insertNat i (if disp then insertNat i p.disposed else p.disposed) = insertNat i p.disposed := by
    split
    · exact insertNat_insertNat _ _
    · rfl
  have hrope : rope t n = rope s n := by rw [rope, h.ropes, rope]
  rw [Machine.dispose, h.pitch]
  dsimp only
  rw [hdis, hrope, List.append_assoc]
  cases d with
  | port lp => exact hset
  | flood => exact hset
  | drop => exact hset.bump (by decide)
  | nak a b => exact hset.bump (by decide)
  | deny => exact hset.bump (by decide)

theorem Disposing.foldl (ds : List Disp) (h : Disposing s t n k i p es disp) :
    Disposing s (ds.foldl (fun s d => Machine.dispose s n k i d) t) n k i p (es ++ ds.flatMap (emitOf (rope s n) i))
      (disp || !ds.isEmpty) := by
  induction ds generalizing t es disp with
  | nil => simpa using h
  | cons d ds ih =>
    have hrest := ih (h.dispose d)
    rw [List.foldl_cons, List.flatMap_cons, ← List.append_assoc]
    simpa using hrest

end

/-- The state after FEMIT.R has taken the dispositions of a rule. -/
def ruleDisposed (s : State) (n k i : Nat) (y : Rope) : State :=
  let t := (femitRDisp y i).foldl (fun s d => dispose s n k i d) (setRope s n y)
  match (lget (recordOf y i) 32 0).toNat == 1, pitch t k with
  | true, some q => bumpTen t q.tid.toNat 0x3A
  | _, _ => t

/-- FEMIT.R leaves the frame to the program. -/
def leftLocal (y : Rope) (i : Nat) : Bool :=
  (femitRDisp y i).isEmpty || ((femitRDisp y i).length = 1 && (lget (recordOf y i) 32 0).toNat = 3
    && (lget (recordOf y i) 9 0).toNat ≥ 2 && !y.localDisp.getLsbD 31)

/-- The rope after FEMIT.R of frame `i`. -/
def femitRMoved (y : Rope) (a : BitVec 5) (i : Nat) (left : Bool) : Rope :=
  { setW y a (getW y a + 64) with localMask := if left then y.localMask ||| (1#16 <<< i) else y.localMask }

theorem exec_femitR_past {s : State} {r : Issuer} (h : Issues s r) {a : BitVec 5} {k i : Nat} (hk : (rope s r.toNat).pitch = some k)
    (ha : getW (rope s r.toNat) a = BitVec.ofNat 64 (0x2000040 + 64 * i)) (hi : i < 2 ^ 32)
    (hc : countNow (rope s r.toNat) ≤ i) :
    exec (.femitR r a) s = .next (faultRope s r.toNat 3 (getW (rope s r.toNat) a)) := by
  have hp : (getW (rope s r.toNat) a).toNat = 0x2000040 + 64 * i := by
    rw [ha, BitVec.toNat_ofNat]
    omega
  change execFemitR r a s = _
  rw [execFemitR, issue_ok h]
  simp only [hk, hp]
  rw [if_pos]
  · rfl
  · simp only [Bool.or_eq_true, decide_eq_true_eq]
    omega

theorem exec_femitR_ok {s : State} {r : Issuer} (h : Issues s r) {a : BitVec 5} {k i : Nat} {p : Pitch}
    (hk : (rope s r.toNat).pitch = some k) (hpitch : pitch s k = some p)
    (ha : getW (rope s r.toNat) a = BitVec.ofNat 64 (0x2000040 + 64 * i)) (hi : i < 16) (hc : i < countNow (rope s r.toNat)) :
    let y := setClass (rope s r.toNat) i
    dispOk s y i (dispOf (rope s r.toNat).localDisp.toNat) = true →
    p.emits.length + ((femitRDisp y i).flatMap (emitOf y i)).length ≤ 64 →
    exec (.femitR r a) s = .next (modRope (modRope (ruleDisposed s r.toNat k i y) r.toNat
      (fun x => femitRMoved x a i (leftLocal y i))) r.toNat nextPc) := by
  intro y hd hroom
  have hp : (getW (rope s r.toNat) a).toNat = 0x2000040 + 64 * i := by
    rw [ha, BitVec.toNat_ofNat]
    omega
  have hix : (0x2000040 + 64 * i - 0x2000040) / 64 = i := by omega
  have hin : ¬(decide (0x2000040 + 64 * i < 0x2000040) || decide (countNow (rope s r.toNat) ≤ i)) = true := by
    simp only [Bool.or_eq_true, decide_eq_true_eq]
    omega
  change execFemitR r a s = _
  rw [execFemitR, issue_ok h]
  simp only [hk, hp, hix]
  rw [if_neg hin, if_neg, if_neg]
  · rw [settleEff, ruleDisposed, leftLocal, localDisp_setClass]
    rfl
  · rw [outputsOf_some hpitch]
    exact Nat.not_lt.mpr hroom
  · rw [show dispOk s (setClass (rope s r.toNat) i) i (dispOf (rope s r.toNat).localDisp.toNat) = true from hd]
    simp

theorem disposed_rule {s : State} {n k i : Nat} {y : Rope} {p : Pitch} (hpitch : pitch s k = some p) :
    Disposing (setRope s n y) ((femitRDisp y i).foldl (fun s d => dispose s n k i d) (setRope s n y)) n k i p
      ((femitRDisp y i).flatMap (emitOf y i)) (!(femitRDisp y i).isEmpty) := by
  have h := (Disposing.refl (s := setRope s n y) (n := n) (i := i) hpitch).foldl (femitRDisp y i)
  rwa [rope_setRope_same, List.nil_append, Bool.false_or] at h

/-- What FEMIT.R leaves: the rope has moved on, and its pitch has the outputs. -/
theorem femitR_gives {s : State} {r : Issuer} (h : Issues s r) {a : BitVec 5} {k i : Nat} {p : Pitch}
    (hk : (rope s r.toNat).pitch = some k) (hpitch : pitch s k = some p)
    (ha : getW (rope s r.toNat) a = BitVec.ofNat 64 (0x2000040 + 64 * i)) (hi : i < 16) (hc : i < countNow (rope s r.toNat))
    (hd : dispOk s (setClass (rope s r.toNat) i) i (dispOf (rope s r.toNat).localDisp.toNat) = true) :
    let y := setClass (rope s r.toNat) i
    let es := (femitRDisp y i).flatMap (emitOf y i)
    p.emits.length + es.length ≤ 64 → ∃ t, exec (.femitR r a) s = .next t ∧
      rope t r.toNat = nextPc (femitRMoved y a i (leftLocal y i)) ∧ OtherRopesKept s t r.toNat ∧ t.hbm = s.hbm ∧
      t.clusters = s.clusters ∧
      pitch t k = some { p with
        emits := p.emits ++ es, disposed := if !(femitRDisp y i).isEmpty then insertNat i p.disposed else p.disposed } ∧
      ten t p.tid.toNat 0x3A = (if (lget (recordOf y i) 32 0).toNat = 1 then (ten s p.tid.toNat 0x3A + 1) % 2 ^ 64
        else ten s p.tid.toNat 0x3A) := by
  intro y es hroom
  refine ⟨_, exec_femitR_ok h hk hpitch ha hi hc hd hroom, ?_⟩
  have hset := disposed_rule (s := s) (n := r.toNat) (i := i) (y := y) hpitch
  generalize ht : (femitRDisp y i).foldl (fun s d => dispose s r.toNat k i d) (setRope s r.toNat y) = t at hset
  have htid : 0x3000 + p.tid.toNat ≠ 0x4010 + ropeCluster r.toNat := by have := p.tid.isLt; omega
  have hten : ten t p.tid.toNat 0x3A = ten s p.tid.toNat 0x3A := hset.obj _ _ (by decide) htid
  have hrule : ruleDisposed s r.toNat k i y = if (lget (recordOf y i) 32 0).toNat = 1 then bumpTen t p.tid.toNat 0x3A else t := by
    rw [ruleDisposed, ht, hset.pitch]
    by_cases hact : (lget (recordOf y i) 32 0).toNat = 1
    · rw [if_pos hact, show ((lget (recordOf y i) 32 0).toNat == 1) = true from beq_iff_eq.mpr hact]
    · rw [if_neg hact, show ((lget (recordOf y i) 32 0).toNat == 1) = false from beq_eq_false_iff_ne.mpr hact]
  have hrope (q : Nat) : rope t q = rope (setRope s r.toNat y) q := by rw [rope, hset.ropes]; rfl
  rw [hrule]
  have hu : ∀ u : State, u.ropes = t.ropes → u.hbm = t.hbm → u.clusters = t.clusters → pitch u k = pitch t k →
      let v := modRope (modRope u r.toNat (fun x => femitRMoved x a i (leftLocal y i))) r.toNat nextPc
      rope v r.toNat = nextPc (femitRMoved y a i (leftLocal y i)) ∧ OtherRopesKept s v r.toNat ∧ v.hbm = s.hbm ∧
      v.clusters = s.clusters ∧ pitch v k = some { p with
        emits := p.emits ++ es, disposed := if !(femitRDisp y i).isEmpty then insertNat i p.disposed else p.disposed } := by
    intro u hropes hhbm hcl hpit v
    have hropeu (q : Nat) : rope u q = rope (setRope s r.toNat y) q := by rw [← hrope, rope, hropes]; rfl
    refine ⟨?_, fun q hq => ?_, hhbm.trans hset.hbm, hcl.trans hset.clusters, hpit.trans hset.pitch⟩
    · rw [rope_modRope_same, rope_modRope_same, hropeu, rope_setRope_same]
    · rw [rope_modRope_ne _ _ hq.symm, rope_modRope_ne _ _ hq.symm, hropeu, rope_setRope_ne _ _ (Ne.symm hq)]
  split
  · obtain ⟨h1, h2, h3, h4, h5⟩ := hu (bumpTen t p.tid.toNat 0x3A) rfl rfl rfl rfl
    refine ⟨h1, h2, h3, h4, h5, ?_⟩
    rw [← hten]
    exact obj_bump_same t _ _
  · obtain ⟨h1, h2, h3, h4, h5⟩ := hu t rfl rfl rfl rfl
    exact ⟨h1, h2, h3, h4, h5, hten⟩

theorem length_flatMap_emitOf_le (y : Rope) (i : Nat) (ds : List Disp) : (ds.flatMap (emitOf y i)).length ≤ ds.length := by
  induction ds with
  | nil => exact Nat.le_refl _
  | cons d ds ih =>
    have hone : (emitOf y i d).length ≤ 1 := by cases d <;> simp [emitOf]
    rw [List.flatMap_cons, List.length_append, List.length_cons]
    omega

theorem length_femitRDisp_le (y : Rope) (i : Nat) : (femitRDisp y i).length ≤ 2 := by
  unfold femitRDisp
  dsimp only
  split
  · simp
  · rw [List.length_append]
    have hfirst : ∀ (c : Prop) [Decidable c] (d : Disp), (if c then [d] else []).length ≤ 1 := by
      intro c _ d; split <;> simp
    refine Nat.add_le_add (b := 1) (d := 1) (hfirst _ _) ?_
    split
    · simp
    split
    · simp
    split
    · simp
    · exact hfirst _ _

theorem obj_modRope (s : State) (r : Nat) (f : Rope → Rope) (i j : Nat) : obj (modRope s r f) i j = obj s i j := rfl

/-- DENY refuses the frame, and the cluster counts it as a NAK. -/
theorem obj_ruleDisposed_deny {s : State} {n k i : Nat} {y : Rope} {p : Pitch} (hpitch : pitch s k = some p)
    (hact : (lget (recordOf y i) 32 0).toNat = 1) :
    obj (ruleDisposed s n k i y) (0x4010 + ropeCluster n) 3 = (obj s (0x4010 + ropeCluster n) 3 + 1) % 2 ^ 64 := by
  have hds : femitRDisp y i = [.deny] := by rw [femitRDisp]; exact if_pos hact
  have hset : pitch (setRope s n y) k = some p := hpitch
  have hdispose : dispose (setRope s n y) n k i .deny = bump (setPitch (setRope s n y) k { p with
      emits := p.emits ++ emitOf (rope (setRope s n y) n) i .deny, disposed := insertNat i p.disposed }) (0x4010 + ropeCluster n) 3 := by
    rw [dispose, hset]
  have htid : 0x3000 + p.tid.toNat ≠ 0x4010 + ropeCluster n := by have := p.tid.isLt; omega
  rw [ruleDisposed, hds, List.foldl_cons, List.foldl_nil, hdispose, show ((lget (recordOf y i) 32 0).toNat == 1) = true from
    beq_iff_eq.mpr hact]
  generalize hq : setPitch (setRope s n y) k _ = q
  have hpq : pitch (bump q (0x4010 + ropeCluster n) 3) k = pitch q k := rfl
  rw [hpq, ← hq, show pitch (setPitch _ k _) k = some _ from mfind_mset_same _ _ _, hq]
  dsimp only
  rw [bumpTen, obj_bump_ne _ (by decide) (by decide) (.inl htid), obj_bump_same, ← hq]
  rfl

/-- Where the frame goes by DEST_LP, by DKIND. -/
def permitDisp (y : Rope) (i : Nat) : List Disp :=
  let b := recordOf y i
  if (lget b 9 0).toNat = 0 then [.port (ofLE (slice b 10 2) % 512)]
  else if (lget b 9 0).toNat = 1 then [.flood]
  else if y.localDisp.getLsbD 31 then [dispOf y.localDisp.toNat]
  else []

theorem femitRDisp_permit {y : Rope} {i : Nat} (h : (lget (recordOf y i) 32 0).toNat = 0 ∨ 3 < (lget (recordOf y i) 32 0).toNat) :
    femitRDisp y i = permitDisp y i := by
  have h1 : (lget (recordOf y i) 32 0).toNat ≠ 1 := by omega
  have h2 : (lget (recordOf y i) 32 0).toNat ≠ 2 := by omega
  have h3 : (lget (recordOf y i) 32 0).toNat ≠ 3 := by omega
  rw [femitRDisp]
  rw [if_neg h1, if_neg h3, if_neg h2]
  rfl

theorem femitRDisp_redirect {y : Rope} {i : Nat} (h : (lget (recordOf y i) 32 0).toNat = 2) :
    femitRDisp y i = [.port (ofLE (slice (recordOf y i) 34 2) % 512)] := by
  rw [femitRDisp]
  rw [if_neg (by omega), if_neg (by omega), if_pos h]
  rfl

theorem femitRDisp_mirror {y : Rope} {i : Nat} (h : (lget (recordOf y i) 32 0).toNat = 3) :
    femitRDisp y i = .port (ofLE (slice (recordOf y i) 34 2) % 512) :: permitDisp y i := by
  rw [femitRDisp]
  rw [if_neg (by omega), if_pos h, if_neg (by omega)]
  rfl

theorem permitDisp_port {y : Rope} {i : Nat} (h : (lget (recordOf y i) 9 0).toNat = 0) :
    permitDisp y i = [.port (ofLE (slice (recordOf y i) 10 2) % 512)] := if_pos h

theorem permitDisp_flood {y : Rope} {i : Nat} (h : (lget (recordOf y i) 9 0).toNat = 1) : permitDisp y i = [.flood] := by
  rw [permitDisp]
  rw [if_neg (by omega), if_pos h]

theorem permitDisp_local {y : Rope} {i : Nat} (h : 2 ≤ (lget (recordOf y i) 9 0).toNat) (hbit : y.localDisp.getLsbD 31 = true) :
    permitDisp y i = [dispOf y.localDisp.toNat] := by
  rw [permitDisp]
  rw [if_neg (by omega), if_neg (by omega), if_pos hbit]

theorem permitDisp_left {y : Rope} {i : Nat} (h : 2 ≤ (lget (recordOf y i) 9 0).toNat) (hbit : y.localDisp.getLsbD 31 = false) :
    permitDisp y i = [] := by
  rw [permitDisp]
  rw [if_neg (by omega), if_neg (by omega), if_neg (by rw [hbit]; decide)]

theorem leftLocal_of_nil {y : Rope} {i : Nat} (h : femitRDisp y i = []) : leftLocal y i = true := by
  rw [leftLocal, h]
  rfl

theorem leftLocal_of_act {y : Rope} {i : Nat} {d : Disp} {ds : List Disp} (h : femitRDisp y i = d :: ds)
    (hact : (lget (recordOf y i) 32 0).toNat ≠ 3) : leftLocal y i = false := by
  rw [leftLocal, h, decide_eq_false hact, Bool.and_false]
  rfl

theorem leftLocal_of_pair {y : Rope} {i : Nat} {d e : Disp} (h : femitRDisp y i = [d, e]) : leftLocal y i = false := by
  rw [leftLocal, h]
  rfl

theorem leftLocal_of_mirror {y : Rope} {i : Nat} {d : Disp} (h : femitRDisp y i = [d])
    (hact : (lget (recordOf y i) 32 0).toNat = 3) (hkind : 2 ≤ (lget (recordOf y i) 9 0).toNat)
    (hbit : y.localDisp.getLsbD 31 = false) : leftLocal y i = true := by
  rw [leftLocal, h, hbit, decide_eq_true hact, decide_eq_true hkind]
  rfl

/-- Settles O21, by the rule's ACT and the frame's DKIND. -/
theorem femitRFollowsTheRule : Obligations.FemitRFollowsTheRule := by
  unfold Obligations.FemitRFollowsTheRule
  intro s r a k p i h n x y b act dkind named dest port count moved gives ha0 ha hk hp
  refine ⟨fun hc hi => exec_femitR_past h hk ha hi hc, fun hc hi hd => ?_⟩
  have hlocal : y.localDisp = x.localDisp := localDisp_setClass x i
  have hgives (ds : List Disp) (es : List Emit) (disp left : Bool) (hds : femitRDisp y i = ds) (hes : ds.flatMap (emitOf y i) = es)
      (hdisp : (!ds.isEmpty) = disp) (hleft : leftLocal y i = left) : gives es disp left := by
    intro hroom
    obtain ⟨t, hexec, hrope, hothers, hhbm, hcl, hpit, _⟩ := femitR_gives h hk hp ha hi hc hd (by rw [hds, hes]; exact hroom)
    refine ⟨t, hexec, ?_, hothers, hhbm, hcl, ?_⟩
    · rw [hrope, show leftLocal (setClass (rope s r.toNat) i) i = left from hleft]
      rfl
    · rw [hpit, hds, hes, hdisp]
  have hno3 (h0 : act = 0 ∨ 3 < act) : act ≠ 3 := by omega
  have hlocal31 : y.localDisp.getLsbD 31 = x.localDisp.getLsbD 31 := by rw [hlocal]
  refine ⟨fun h1 => ⟨?_, fun hroom => ?_⟩, fun h1 hroom => ?_, fun h2 => ?_, fun h0 hk0 => ?_, fun h0 hk1 => ?_, fun h0 hk2 hbit => ?_,
    fun h0 hk2 hbit => ?_, fun h3 hk0 => ?_, fun h3 hk1 => ?_, fun h3 hk2 hbit => ?_, fun h3 hk2 hbit => ?_⟩
  · have hds : femitRDisp y i = [.deny] := if_pos h1
    exact hgives _ _ _ _ hds rfl rfl (leftLocal_of_act hds (fun h3 => absurd (h1.symm.trans h3) (by decide)))
  · have hds : femitRDisp y i = [.deny] := if_pos h1
    have hlen : p.emits.length + ((femitRDisp y i).flatMap (emitOf y i)).length ≤ 64 := by rw [hds]; exact hroom
    obtain ⟨t, hexec, _, _, _, _, _, hten⟩ := femitR_gives h hk hp ha hi hc hd hlen
    refine ⟨t, hexec, hten.trans (if_pos h1), ?_⟩
    rw [← Host.Outcome.next.inj ((exec_femitR_ok h hk hp ha hi hc hd hlen).symm.trans hexec)]
    rw [obj_modRope, obj_modRope]
    exact obj_ruleDisposed_deny hp h1
  · have hlen : p.emits.length + ((femitRDisp y i).flatMap (emitOf y i)).length ≤ 64 := by
      have hle := length_flatMap_emitOf_le y i (femitRDisp y i)
      have htwo := length_femitRDisp_le y i
      omega
    obtain ⟨t, hexec, _, _, _, _, _, hten⟩ := femitR_gives h hk hp ha hi hc hd hlen
    exact ⟨t, hexec, hten.trans (if_neg h1)⟩
  · have hds := femitRDisp_redirect (y := y) h2
    exact hgives _ _ _ _ hds rfl rfl (leftLocal_of_act hds (fun h3 => absurd (h2.symm.trans h3) (by decide)))
  · have hds := (femitRDisp_permit (y := y) h0).trans (permitDisp_port hk0)
    exact hgives _ _ _ _ hds rfl rfl (leftLocal_of_act hds (hno3 h0))
  · have hds := (femitRDisp_permit (y := y) h0).trans (permitDisp_flood hk1)
    exact hgives _ _ _ _ hds rfl rfl (leftLocal_of_act hds (hno3 h0))
  · have hds := (femitRDisp_permit (y := y) h0).trans (permitDisp_left hk2 (hlocal31.trans hbit))
    exact hgives _ _ _ _ hds rfl rfl (leftLocal_of_nil hds)
  · have hds := (femitRDisp_permit (y := y) h0).trans (permitDisp_local hk2 (hlocal31.trans hbit))
    exact hgives _ _ _ _ hds (by rw [hlocal]; exact List.append_nil _) rfl (leftLocal_of_act hds (hno3 h0))
  · have hds := (femitRDisp_mirror (y := y) h3).trans (congrArg _ (permitDisp_port hk0))
    exact hgives _ _ _ _ hds rfl rfl (leftLocal_of_pair hds)
  · have hds := (femitRDisp_mirror (y := y) h3).trans (congrArg _ (permitDisp_flood hk1))
    exact hgives _ _ _ _ hds rfl rfl (leftLocal_of_pair hds)
  · have hds := (femitRDisp_mirror (y := y) h3).trans (congrArg _ (permitDisp_left hk2 (hlocal31.trans hbit)))
    exact hgives _ _ _ _ hds rfl rfl (leftLocal_of_mirror hds h3 hk2 (hlocal31.trans hbit))
  · have hds := (femitRDisp_mirror (y := y) h3).trans (congrArg _ (permitDisp_local hk2 (hlocal31.trans hbit)))
    exact hgives _ _ _ _ hds (by rw [hlocal]; exact congrArg _ (List.append_nil _)) rfl (leftLocal_of_pair hds)

end Sys2Proof.Proofs

namespace Sys2Proof.Proofs
open Sys2Proof.Machine Sys2Proof.Claim

/-! ### FNEW -/

theorem exec_fnew_ok {s : State} {r : Issuer} (h : Issues s r) {a b : BitVec 5} {k : Nat} (hk : (rope s r.toNat).pitch = some k) :
    let x := rope s r.toNat
    let w := getW x b
    let slot := winRead x (0x1000 + 128 * ((getW x a).extractLsb' 0 4).toNat) 128
    let kind := w.extractLsb' 16 2
    exec (.fnew r a b) s = if 2 ≤ kind.toNat ∨ 96 < (parseSxt slot).len.toNat then .fault (.unsupported 158)
      else if 64 < outputsOf s k + 1 then .next (faultRope s r.toNat 7 0)
      else match pitch s k with
        | none => .next (faultRope s r.toNat 6 0)
        | some p => .next (modRope (bump (setPitch s k { p with
            emits := p.emits ++ [.derived slot (kind == 1) (w.extractLsb' 0 9).toNat] }) (0x4010 + ropeCluster r.toNat) 5) r.toNat nextPc) := by
  intro x w slot kind
  have hkind : bits w.toNat 17 16 = kind.toNat := bits_toNat w 17 16
  have hlp : bits w.toNat 8 0 = (w.extractLsb' 0 9).toNat := bits_toNat w 8 0
  have hone : (kind.toNat == 1) = (kind == 1) := by
    rcases kind_cases kind with h | h | h | h <;> rw [h] <;> rfl
  change execFnew r a b s = _
  rw [execFnew, issue_ok h]
  simp only [hk, toNat_mod_16]
  rw [show bits (getW (rope s r.toNat) b).toNat 17 16 = kind.toNat from hkind,
    show bits (getW (rope s r.toNat) b).toNat 8 0 = (w.extractLsb' 0 9).toNat from hlp, hone]
  by_cases hbad : 2 ≤ kind.toNat ∨ 96 < (parseSxt slot).len.toNat
  · rw [if_pos hbad, if_pos (by rw [Bool.or_eq_true, decide_eq_true_eq, decide_eq_true_eq]; exact hbad)]
    rfl
  · rw [if_neg hbad, if_neg (by rw [Bool.or_eq_true, decide_eq_true_eq, decide_eq_true_eq]; exact hbad)]
    split
    · rfl
    · cases pitch s k <;> rfl

/-! ### The turn of a lane -/

/-- Of a map whose keys rise, a new value that a test sees as the old one moves no find. -/
theorem find?_mset {α : Type} {m : Map α} {k : Nat} {x y : α} {f : Nat × α → Bool} (hr : keysRise m = true)
    (hx : mfind m k = some x) (hf : f (k, y) = f (k, x)) :
    (mset m k y).find? f = (m.find? f).map (fun e => if e.1 = k then (k, y) else e) := by
  induction m with
  | nil => cases hx
  | cons e m ih =>
    obtain ⟨a, v⟩ := e
    have hlt := keysRise_lt hr
    by_cases hak : a = k
    · rw [mfind, if_pos hak] at hx
      cases hx
      subst hak
      rw [mset, if_pos rfl, List.find?_cons, List.find?_cons, hf]
      cases hfx : f (a, x) with
      | true => simp
      | false =>
        dsimp only
        cases hrest : m.find? f with
        | none => rfl
        | some g =>
          have hg := hlt g (List.mem_of_find?_eq_some hrest)
          rw [Option.map_some, if_neg (by omega)]
    · rw [mfind, if_neg hak] at hx
      have hka : ¬k < a := by
        intro hka
        have hnone : ∀ (l : Map α), (∀ e ∈ l, k < e.1) → mfind l k = none := by
          intro l
          induction l with
          | nil => intro _; rfl
          | cons e l ihl =>
            intro hl
            rw [mfind, if_neg (Nat.ne_of_gt (hl e List.mem_cons_self))]
            exact ihl fun e he => hl e (List.mem_cons_of_mem _ he)
        rw [hnone m fun e he => hka.trans (hlt e he)] at hx
        cases hx
      rw [mset, if_neg hak, if_neg hka, List.find?_cons, List.find?_cons]
      cases hfa : f (a, v) with
      | true => rw [Option.map_some, if_neg hak]
      | false => exact ih (keysRise_tail hr) hx

/-- A pitch that keeps its lane and its ticket. -/
theorem pitchAt_setPitch {s : State} {k : Nat} {p q : Pitch} {l : Nat} {u : BitVec 32} (hr : keysRise s.pit.pitches = true)
    (hp : pitch s k = some p) (hticketed : q.ticketed = p.ticketed) (hlane : q.lane = p.lane) (hticket : q.ticket = p.ticket) :
    pitchAt (setPitch s k q) l u = (pitchAt s l u).map (fun e => if e.1 = k then (k, q) else e) :=
  find?_mset hr hp (by simp [hticketed, hlane, hticket])

theorem heldBack_congr {s t : State} {l k : Nat} (h : t.pit = s.pit) (hb : HeldBack s l k) : HeldBack t l k := by
  unfold HeldBack pitchAt laneOf at hb ⊢
  rwa [h]

/-- Nothing is released where neither the pitch nor one that could go stands at the turn. -/
theorem releaseLane_heldBack {s : State} {k n : Nat} {p q : Pitch} {l : Nat} (hb : HeldBack s l k) (hp : pitch s k = some p)
    (hticketed : q.ticketed = p.ticketed) (hlane : q.lane = p.lane) (hticket : q.ticket = p.ticket) :
    releaseLane (setPitch s k q) l n = setPitch s k q := by
  cases n with
  | zero => rfl
  | succ n =>
    obtain ⟨hr, hturn⟩ := hb
    have hat := pitchAt_setPitch (l := l) (u := (laneOf s l).release) hr hp hticketed hlane hticket
    rw [releaseLane]
    dsimp only
    rw [show laneOf (setPitch s k q) l = laneOf s l from rfl, hat]
    cases hfound : pitchAt s l (laneOf s l).release with
    | none => rfl
    | some e =>
      obtain ⟨hne, hlate, hplace⟩ := hturn e hfound
      simp [hne, hlate, hplace]

theorem foldl_eq_self {α β : Type} {f : α → β → α} {s : α} (l : List β) (h : ∀ x ∈ l, f s x = s) : l.foldl f s = s := by
  induction l with
  | nil => rfl
  | cons x l ih => rw [List.foldl_cons, h x List.mem_cons_self]; exact ih fun y hy => h y (List.mem_cons_of_mem _ hy)

/-- With no rope that waits for Switchback none is woken. -/
theorem wakeHeld_none {s : State} (h : ∀ q, (rope s q).st ≠ .waiting .hold) : wakeHeld s = s := by
  unfold wakeHeld
  split
  · rfl
  · exact foldl_eq_self _ fun q _ => if_neg (h q)

/-- A pitch whose turn has not come is held with its outputs. -/
theorem completePitch_heldBack {s : State} {k : Nat} {p : Pitch} (hp : pitch s k = some p) (hlate : p.late = false)
    (hb : HeldBack s p.lane.toNat k) (hw : ∀ q, (rope s q).st ≠ .waiting .hold) :
    completePitch s k = setPitch s k { p with place := .done, rope := none } := by
  rw [completePitch, hp]
  dsimp only
  rw [if_neg (by rw [hlate]; decide), releaseLane_heldBack (q := { p with place := .done, rope := none }) hb hp rfl rfl rfl]
  exact wakeHeld_none hw

/-- Waking the ropes that wait for Switchback leaves a rope that does not wait, and every cluster. -/
theorem wakeHeld_keeps_rope {s : State} {n : Nat} (h : (rope s n).st ≠ .waiting .hold) :
    rope (wakeHeld s) n = rope s n ∧ (wakeHeld s).clusters = s.clusters := by
  unfold wakeHeld
  split
  · exact ⟨rfl, rfl⟩
  · next hfull =>
    clear hfull
    generalize s.ropes.map (·.1) = l
    induction l generalizing s with
    | nil => exact ⟨rfl, rfl⟩
    | cons r l ih =>
      rw [List.foldl_cons]
      split
      · next hr =>
        have hne : n ≠ r := fun e => h (e ▸ hr)
        have hrope : rope (makeReady s r) n = rope s n := otherRopesKept_makeReady (otherRopesKept_refl s r) n hne
        obtain ⟨hl, hc⟩ := ih (s := makeReady s r) (by rw [hrope]; exact h)
        obtain ⟨x, k, he⟩ := makeReady_only s r
        exact ⟨hl.trans hrope, hc.trans (by rw [he])⟩
      · exact ih h

theorem setPitch_stays {a s : State} (h : Stays a s) (k : Nat) (p : Pitch) : Stays a (setPitch s k p) := Stays.update h

/-- What a pitch's end leaves of a rope that does not wait for Switchback. -/
theorem completePitch_keeps_rope {s : State} {k n : Nat} (h : (rope s n).st ≠ .waiting .hold) :
    rope (completePitch s k) n = rope s n ∧ (completePitch s k).clusters = s.clusters := by
  have hwake {t : State} (ht : Stays s t) : rope (wakeHeld t) n = rope s n ∧ (wakeHeld t).clusters = s.clusters := by
    have hrope : rope t n = rope s n := congrArg (fun m => mget m n ({} : Rope)) ht.ropes
    obtain ⟨hr, hc⟩ := wakeHeld_keeps_rope (s := t) (n := n) (by rw [hrope]; exact h)
    exact ⟨hr.trans hrope, hc.trans ht.clusters⟩
  rw [completePitch]
  split
  · exact ⟨rfl, rfl⟩
  · apply hwake
    split
    · dsimp only
      split
      · exact dropPitch_stays (bump_stays (Stays.refl s))
      · exact setPitch_stays (bump_stays (Stays.refl s)) _ _
    · exact releaseLane_stays (setPitch_stays (Stays.refl s) _ _)

/-! ### PDONE -/

theorem core_giveUp_inFlight (s : State) (r k : Nat) : (Machine.core (giveUp s r) k).inFlight = (Machine.core s k).inFlight := by
  have hbusy : (Machine.core (busyCore s (ropeCore r)) k).inFlight = (Machine.core s k).inFlight := by
    rw [core_busyCore]
    split
    · next e => rw [e]
    · rfl
  unfold giveUp
  dsimp only
  split
  · refine Eq.trans ?_ hbusy
    by_cases hk : k = ropeCore r
    · subst hk
      exact (congrArg Machine.Core.inFlight (core_setCore_same (busyCore s (ropeCore r)) (ropeCore r) _)).trans rfl
    · exact congrArg Machine.Core.inFlight (core_setCore_ne _ _ (Ne.symm hk))
  · exact hbusy

theorem rope_giveUp (s : State) (r q : Nat) : rope (giveUp s r) q = rope s q := by
  obtain ⟨o, k, h⟩ := giveUp_only s r
  rw [h]
  rfl

theorem obj_giveUp (s : State) (r : Nat) {i a : Nat} (ha : a < 256) (h : a ≠ 0x0A) : obj (giveUp s r) i a = obj s i a := by
  unfold giveUp
  dsimp only
  split
  · exact obj_bump_ne _ (by decide) ha (.inr h.symm)
  · rfl

/-- What PDONE counts for a pitch: its frames without a disposition, and a retry of a faulted core. -/
def countDone (s : State) (n : Nat) (x : Rope) (p : Pitch) : State :=
  let s := bumpBy s (0x4010 + ropeCluster n) 4 (x.heads.length - p.disposed.length)
  match p.firstFault with
  | some f => bump s (0x4020 + ropeCluster f.1) 3
  | none => s

/-- The rope that PDONE leaves. -/
def doneRope (x : Rope) : Rope := { x with st := .free, pitch := none, window := [], heads := [] }

/-- A rope and its core leave their pitch at PDONE. -/
def leavePitch (s : State) (n : Nat) (x : Rope) : State :=
  modCore (giveUp (setRope s n (doneRope x)) n) (ropeCore n) (fun y => { y with inFlight := y.inFlight - 1 })

theorem exec_pdone_ok {s : State} {r : Issuer} (h : IssuesFree s r) {k : Nat} {p : Pitch} (hk : (rope s r.toNat).pitch = some k)
    (hp : pitch s k = some p) : exec (.pdone r) s = if holdFull s k then .next (stall s r.toNat .hold)
      else .next (completePitch (leavePitch (countDone s r.toNat (rope s r.toNat) p) r.toNat (rope s r.toNat)) k) := by
  change execPdone r s = _
  rw [execPdone, issue_free h]
  simp only [hk, hp]
  split <;> rfl

theorem countDone_only (s : State) (n : Nat) (x : Rope) (p : Pitch) : ∃ o, countDone s n x p = { s with obj := o } := by
  unfold countDone
  dsimp only
  split <;> exact ⟨_, rfl⟩

theorem obj_countDone (s : State) (n : Nat) (x : Rope) (p : Pitch) : obj (countDone s n x p) (0x4010 + ropeCluster n) 4 =
    (obj s (0x4010 + ropeCluster n) 4 + (x.heads.length - p.disposed.length)) % 2 ^ 64 := by
  unfold countDone
  dsimp only
  split
  · rw [obj_bump_ne _ (by decide) (by decide) (.inr (by decide)), obj_bumpBy_same]
  · rw [obj_bumpBy_same]

theorem leavePitch_only (s : State) (n : Nat) (x : Rope) :
    ∃ ropes obj cores, leavePitch s n x = { s with ropes := ropes, obj := obj, cores := cores } := by
  obtain ⟨o, k, h⟩ := giveUp_only (setRope s n (doneRope x)) n
  exact ⟨_, o, _, by rw [leavePitch, h]; rfl⟩

theorem rope_leavePitch (s : State) (n : Nat) (x : Rope) (q : Nat) :
    rope (leavePitch s n x) q = if q = n then doneRope x else rope s q := by
  have h : rope (leavePitch s n x) q = rope (setRope s n (doneRope x)) q := rope_giveUp _ _ _
  rw [h]
  split
  · next e => rw [e, rope_setRope_same]
  · next e => rw [rope_setRope_ne _ _ (Ne.symm e)]

theorem core_leavePitch (s : State) (n : Nat) (x : Rope) :
    (Machine.core (leavePitch s n x) (ropeCore n)).inFlight = (Machine.core s (ropeCore n)).inFlight - 1 := by
  have h : Machine.core (leavePitch s n x) (ropeCore n) = _ := core_setCore_same _ _ _
  rw [h]
  exact congrArg (· - 1) (core_giveUp_inFlight (setRope s n (doneRope x)) n (ropeCore n))

theorem obj_leavePitch (s : State) (n : Nat) (x : Rope) (i : Nat) : obj (leavePitch s n x) i 4 = obj s i 4 :=
  obj_giveUp (setRope s n (doneRope x)) n (by decide) (by decide)

/-- Settles O22: FNEW by its cases, PDONE by what leaves the rope and then by the turn of the pitch's lane. -/
theorem derivedFramesAndTheEndOfAPitch : Obligations.DerivedFramesAndTheEndOfAPitch := by
  refine ⟨?_, ?_, ?_⟩
  · intro s r a b k p h n x w slot lp kind
    refine ⟨fun s' h' hnone => ?_, fun hk hbad => ?_, fun hk hp hkind hlen => ⟨fun hfew => ?_, fun hmany => ?_⟩⟩
    · change execFnew r a b s' = _
      rw [execFnew, issue_ok h']
      simp only [n] at hnone ⊢
      simp only [hnone]
      rfl
    · exact (exec_fnew_ok h hk).trans (if_pos hbad)
    all_goals
      have hout : outputsOf s k = p.emits.length := outputsOf_some hp
      have hgood : ¬(2 ≤ kind.toNat ∨ 96 < (parseSxt slot).len.toNat) := by omega
      refine ((exec_fnew_ok h hk).trans (if_neg hgood)).trans ?_
    · rw [if_neg (by omega), hp]
      rfl
    · rw [if_pos (by omega)]
  · exact fun s r n1 h hb => ⟨(issue_body h hb _ : execPdone r s = _), (issue_body h hb _ : execRepb r n1 s = _)⟩
  · intro s r h n x
    refine ⟨fun hnone => ?_, fun k p hk hp hlate => ?_⟩
    · change execPdone r s = _
      rw [execPdone, issue_free h]
      simp only [n, x] at hnone ⊢
      simp only [hnone]
      rfl
    obtain ⟨o₁, h₁⟩ := countDone_only s n x p
    obtain ⟨ropes, o₂, cores, h₂⟩ := leavePitch_only (countDone s n x p) n x
    have hrope (q : Nat) : rope (leavePitch (countDone s n x p) n x) q = if q = n then doneRope x else rope s q := by
      rw [rope_leavePitch, h₁]
      rfl
    have hfree : (rope (leavePitch (countDone s n x p) n x) n).st ≠ .waiting .hold := by
      rw [hrope, if_pos rfl]
      exact nofun
    have hexec (hfull : holdFull s k = false) : exec (.pdone r) s =
        .next (completePitch (leavePitch (countDone s n x p) n x) k) :=
      (exec_pdone_ok h hk hp).trans (if_neg (by rw [hfull]; decide))
    refine ⟨fun hfull => (exec_pdone_ok h hk hp).trans (if_pos hfull), fun hfull => ⟨_, hexec hfull, ?_⟩,
      fun hfull hb hw => ⟨_, hexec hfull, ?_⟩⟩
    · obtain ⟨hr, hc⟩ := completePitch_keeps_rope (k := k) hfree
      rw [hr, hc, hrope, if_pos rfl, h₂, h₁]
      exact ⟨rfl, rfl, rfl⟩
    · have hpit : (leavePitch (countDone s n x p) n x).pit = s.pit := by rw [h₂, h₁]
      have hwait (q : Nat) : (rope (leavePitch (countDone s n x p) n x) q).st ≠ .waiting .hold := by
        rw [hrope]
        split
        · exact nofun
        · exact hw q
      have hp' : pitch (leavePitch (countDone s n x p) n x) k = some p := by
        rw [pitch, hpit]
        exact hp
      rw [completePitch_heldBack hp' hlate (heldBack_congr hpit hb) hwait]
      refine ⟨(hrope n).trans (if_pos rfl), ?_, fun q hq => (hrope q).trans (if_neg hq), ?_, ?_, ?_, ?_, ?_, ?_⟩
      · exact (obj_leavePitch _ _ _ _).trans (obj_countDone s n x p)
      · rw [h₂, h₁]; rfl
      · rw [h₂, h₁]; rfl
      · rw [h₂, h₁]; rfl
      · rw [h₂, h₁]; rfl
      · refine (core_leavePitch _ _ _).trans ?_
        rw [h₁]
        rfl
      · exact pitch_setPitch_same _ _ _

end Sys2Proof.Proofs

namespace Sys2Proof.Proofs
open Sys2Proof.Machine Sys2Proof.Claim

/-! ### A fault of a rope number whose cluster's counter is that of dropped records (R174, R416) -/

/-- A rope whose number is no rope of a cluster runs a pitch, and Cairn has no token: object 0x4020 + c, that of its cluster, is
0x7800. -/
def farRope : Nat := (0x7800 - 0x4020) * 128 + 1

/-- The pitch that it runs. -/
def farPitch : Pitch := { frames := [], lp := 0, cls := 0, tid := 0, src := 0, ostream := 0, rsver := 0, place := .running }

/-- The state in which it runs. -/
def farState : State := setRope { State.reset with
  sys := { phase := .run, faultN := true }
  pit := { State.reset.pit with pitches := [(0, farPitch)] }
  cairn := { State.reset.cairn with tokens := 0 } } farRope { st := .ready, pitch := some 0 }

/-- The record that its fault drops counts in the object that counts the fault. -/
theorem obj_faultRope_farState : obj (faultRope farState farRope 9 0) (0x4020 + ropeCluster farRope) 6 = 2 := by decide +kernel

/-- Refutes O11: the rope is any number, and where 0x4020 + c is Cairn's object a dropped record counts there too. -/
theorem not_faultParksTheRopeWithItsRecord : ¬Obligations.FaultParksTheRopeWithItsRecord := by
  unfold Obligations.FaultParksTheRopeWithItsRecord
  intro h
  obtain ⟨-, -, hpitch⟩ := h farState farRope 9 0 (by decide) (by decide)
  obtain ⟨-, hlast⟩ := hpitch 0 farPitch (by decide) (by decide) (by decide)
  have hback : HeldBack farState farPitch.lane.toNat 0 := ⟨by decide, nofun⟩
  have hwait (q : Nat) : (rope farState q).st ≠ .waiting .hold := by
    by_cases hq : farRope = q
    · rw [← hq, farState, rope_setRope_same]
      exact nofun
    · rw [farState, rope_setRope_ne _ _ hq]
      exact nofun
  obtain ⟨htime, -⟩ := hlast (by decide) hback hwait nofun
  obtain ⟨-, -, hcount⟩ := htime rfl rfl
  rw [obj_faultRope_farState] at hcount
  exact absurd hcount (by decide)

end Sys2Proof.Proofs

/-! The address translation of Crampon (R229 to R238). -/

namespace Sys2Proof.Proofs
open Sys2Proof.Machine Sys2Proof.Claim

/-! ### What KTXL counts leaves what it reads -/

theorem ten_bump_core (s : State) {c t i : Nat} (hc : c < 16) (ht : t < 4096) (hi : i < 256) {a : Nat} (ha : a < 256) :
    ten (bump s (0x4040 + c) a) t i = ten s t i := obj_bump_ne s ha hi (.inl (by omega))

theorem windowWord_bump_core (s : State) {c t w : Nat} (hc : c < 16) (ht : t < 4096) (hw : w < 64) {a : Nat} (ha : a < 256) :
    windowWord (bump s (0x4040 + c) a) t w = windowWord s t w := by
  rw [windowWord, ten_bump_core s hc ht (by omega) ha, ten_bump_core s hc ht (by omega) ha]
  rfl

theorem cpenSpent_only (s : State) (r : Nat) : ∃ cores, cpenSpent s r = { s with cores := cores } := by
  unfold cpenSpent
  split <;> exact ⟨_, rfl⟩

/-! ### The window of an address -/

theorem windowFor_eq_none {s : State} {t a : Nat} (h : ∀ i, i < 64 → inWindow a (windowWord s t i) = false) :
    windowFor s t a = none := by
  rw [windowFor]
  split
  · rfl
  · rw [List.find?_eq_none]
    intro e he
    obtain ⟨i, hi, rfl⟩ := List.mem_map.mp he
    rw [h i (List.mem_range.mp hi)]
    decide

theorem windowFor_eq_some {s : State} {t a i : Nat} (ha : a < 2 ^ 48) (hi : i < 64) (hin : inWindow a (windowWord s t i) = true)
    (hfirst : ∀ j, j < i → inWindow a (windowWord s t j) = false) : windowFor s t a = some (i, windowWord s t i) := by
  have hfind : (List.range 64).find? (fun j => inWindow a (windowWord s t j)) = some i :=
    List.find?_range_eq_some.mpr ⟨hin, List.mem_range.mpr hi, fun j hj => by rw [hfirst j hj, Bool.not_false]⟩
  have hmap (l : List Nat) : (l.map (fun j => (j, windowWord s t j))).find? (fun e => inWindow a e.2) =
      (l.find? (fun j => inWindow a (windowWord s t j))).map (fun j => (j, windowWord s t j)) := List.find?_map
  rw [windowFor, if_neg (Nat.not_le.mpr ha), hmap, hfind, Option.map_some]

theorem bits_top (a : BitVec 64) : (bits a.toNat 63 48 != 0) = decide (2 ^ 48 ≤ a.toNat) := by
  have h := a.isLt
  rw [bits, Bool.eq_iff_iff, bne_iff_ne, decide_eq_true_eq]
  omega

/-! ### What KTXL finds, check by check (R235) -/

section

variable {s : State} {a : BitVec 64} {tid : BitVec 12} {wr : Bool}

theorem txlIssue_passThrough_noPort (hmode : ten s tid.toNat 0x50 = 0) (hlp : 384 ≤ ten s tid.toNat 0x51) :
    txlIssue s a tid wr = (bumpTen s tid.toNat 0x53, .inl (txlWord 0 1 9 0 1 0 0)) := by
  rw [txlIssue]
  dsimp only
  rw [if_pos hmode, if_pos hlp]
  rfl

theorem txlIssue_passThrough (hmode : ten s tid.toNat 0x50 = 0) (hlp : ten s tid.toNat 0x51 < 384) : txlIssue s a tid wr =
    (s, .inl (txlWord (s.sys.deviceId.toNat * 2 ^ 48 + a.toNat % 2 ^ 48) 0 0 0 1 0 (ten s tid.toNat 0x51))) := by
  have hlow : bits a.toNat 47 0 = a.toNat % 2 ^ 48 := by rw [bits, Nat.pow_zero, Nat.div_one]
  rw [txlIssue]
  dsimp only
  rw [if_pos hmode, if_neg (Nat.not_le.mpr hlp), hlow]

theorem txlIssue_tooHigh (hmode : ten s tid.toNat 0x50 ≠ 0) (ha : 2 ^ 48 ≤ a.toNat) :
    txlIssue s a tid wr = (bumpTen s tid.toNat 0x53, .inl (txlWord 0 1 8 0 1 0 0)) := by
  rw [txlIssue]
  dsimp only
  rw [if_neg hmode, bits_top, if_pos (decide_eq_true ha)]
  rfl

theorem txlIssue_noWindow (hmode : ten s tid.toNat 0x50 ≠ 0) (ha : a.toNat < 2 ^ 48)
    (hw : ∀ i, i < 64 → inWindow a.toNat (windowWord s tid.toNat i) = false) :
    txlIssue s a tid wr = (bumpTen s tid.toNat 0x53, .inl (txlWord 0 1 1 0 1 0 0)) := by
  rw [txlIssue]
  dsimp only
  rw [if_neg hmode, bits_top, if_neg (by rw [decide_eq_true_eq]; omega), windowFor_eq_none hw]
  rfl

variable {i : Nat}

theorem txlIssue_window (hmode : ten s tid.toNat 0x50 ≠ 0) (ha : a.toNat < 2 ^ 48) (hi : i < 64)
    (hin : inWindow a.toNat (windowWord s tid.toNat i) = true)
    (hfirst : ∀ j, j < i → inWindow a.toNat (windowWord s tid.toNat j) = false) :
    let w := windowWord s tid.toNat i
    let m : TxlMiss := { tid := tid, off := windowOff a.toNat w, wr := wr, win := i }
    txlIssue s a tid wr =
      if wr && !w.testBit 125 then (bumpTen s tid.toNat 0x53, .inl (txlWord 0 1 3 i 1 0 0))
      else if !wr && !w.testBit 126 then (bumpTen s tid.toNat 0x53, .inl (txlWord 0 1 2 i 1 0 0))
      else match txlCached s (m.off / 2 ^ 21) with
        | some e => ((txlEntry (txlInstall s (m.off / 2 ^ 21) e) m e 1).1, .inl (txlEntry (txlInstall s (m.off / 2 ^ 21) e) m e 1).2)
        | none => (s, .inr m) := by
  intro w m
  have hbit (n : Nat) : w.testBit n = bit w n := by rw [Nat.testBit_eq_decide_div_mod_eq, bit]
  rw [txlIssue]
  dsimp only
  rw [if_neg hmode, bits_top, if_neg (by rw [decide_eq_true_eq]; omega), windowFor_eq_some ha hi hin hfirst, hbit, hbit]
  rfl

end

/-! ### The entry of a granule (R235) -/

theorem bit_getLsbD {n : Nat} (v : BitVec n) (i : Nat) : bit v.toNat i = v.getLsbD i := by
  rw [bit, ← BitVec.testBit_toNat, Nat.testBit_eq_decide_div_mod_eq]

theorem txlEntry_eq (s : State) (m : TxlMiss) (e : BitVec 128) (cached : Nat) :
    let enc := b2n (e.getLsbD 124)
    let fails (code : Nat) : State × KWord := (bumpTen s m.tid.toNat 0x53, txlWord 0 1 code m.win cached enc 0)
    txlEntry s m e cached =
      if e.getLsbD 127 = false then fails 5
      else if e.extractLsb' 112 12 ≠ m.tid ∧ m.tid ≠ 0 then fails 4
      else if e.getLsbD 125 = true then fails 7
      else if e.getLsbD 126 = true ∧ m.wr = true then fails 6
      else (s, txlWord (s.sys.deviceId.toNat * 2 ^ 48 + m.off) 0 0 m.win cached enc (e.extractLsb' 96 9).toNat) := by
  have htid : (bits e.toNat 123 112 != m.tid.toNat && m.tid != 0) = decide (e.extractLsb' 112 12 ≠ m.tid ∧ m.tid ≠ 0) := by
    rw [bits_toNat, Bool.eq_iff_iff, Bool.and_eq_true, bne_iff_ne, bne_iff_ne, decide_eq_true_eq, ne_eq, BitVec.toNat_inj]
  rw [txlEntry]
  dsimp only
  rw [htid, bits_toNat e 104 96]
  simp only [bit_getLsbD, Bool.not_eq_true', decide_eq_true_eq, Bool.and_eq_true]
  rfl

/-! ### KTXL by the outcome of its checks -/

section

variable {s : State} {r : Issuer} {kd ka : BitVec 4}

/-- The state in which a KTXL is judged: a CPEN value spent, the translation counted. -/
def txlState (s : State) (r : Issuer) : State := bump (cpenSpent s r.toNat) (0x4040 + ropeCluster r.toNat) 0x11

/-- What a KTXL of a rope finds. -/
def txlFound (s : State) (r : Issuer) (ka : BitVec 4) : State × (KWord ⊕ TxlMiss) :=
  txlIssue (txlState s r) (laneAt (getK (rope s r.toNat) ka) 0) ((laneAt (getK (rope s r.toNat) ka) 1).extractLsb' 0 12)
    ((laneAt (getK (rope s r.toNat) ka) 1).getLsbD 16)

theorem txlState_only (s : State) (r : Issuer) : ∃ cores obj, txlState s r = { s with cores := cores, obj := obj } := by
  obtain ⟨cores, h⟩ := cpenSpent_only s r.toNat
  exact ⟨cores, _, by rw [txlState, h]; rfl⟩

theorem exec_ktxl_ok (h : CramponIssues s r [ka, kd]) (hout : txlOut s (ropeCore r.toNat) < 16) : exec (.ktxl r kd ka) s =
    settleEff s r.toNat (match txlFound s r ka with
      | (v, .inl k) => .done (modRope v r.toNat (fun x => { x with kPend := x.kPend ++
          [{ kd := kd, value := k, due := v.time.now + 24 * dpU v, isTxl := true }] }))
      | (v, .inr m) => .done (modRope (bump v (0x4040 + ropeCluster r.toNat) 0x12) r.toNat (fun x => { x with kPend := x.kPend ++
          [{ kd := kd, value := 0, due := v.time.now + 24 * dpU v + nsU 600, isTxl := true, miss := some m }] }))) := by
  have hsub : ∀ k ∈ [ka, kd], k ∈ [ka, kd] := fun _ hk => hk
  have hr : ∀ q, rope (cpenSpent s r.toNat) q = rope s q := rope_cpenSpent s r.toNat
  have hsame : txlOut (cpenSpent s r.toNat) (ropeCore r.toNat) = txlOut s (ropeCore r.toNat) := by
    simp only [txlOut, hr, show (cpenSpent s r.toNat).time.now = s.time.now from cpenSpent_now s r.toNat]
  have hwidth (v : Word) : v.setWidth 12 = v.extractLsb' 0 12 := by
    refine BitVec.eq_of_getLsbD_eq fun i hi => ?_
    simp [BitVec.getLsbD_extractLsb', BitVec.getLsbD_setWidth]
  rw [exec_ktxl, execKtxl, issueK_ok h hsub]
  dsimp only
  rw [hsame, if_neg (Nat.not_le.mpr hout), hr, hwidth]
  rfl

theorem exec_ktxl_known (h : CramponIssues s r [ka, kd]) (hout : txlOut s (ropeCore r.toNat) < 16) {v : State} {k : KWord}
    (hv : txlFound s r ka = (v, .inl k)) (hropes : v.ropes = s.ropes) (htime : v.time = s.time) (hpwr : v.pwr = s.pwr) :
    exec (.ktxl r kd ka) s = .next (after v r { rope s r.toNat with kPend := (rope s r.toNat).kPend ++
      [{ kd := kd, value := k, due := s.time.now + 24 * dpU s, isTxl := true }] }) := by
  have hrope : rope v r.toNat = rope s r.toNat := by rw [rope, hropes]; rfl
  have hdp : dpU v = dpU s := by rw [dpU, fstepNow, hpwr]; rfl
  rw [exec_ktxl_ok h hout, hv]
  simp only [settleEff, modRope, rope_setRope_same, setRope_setRope, after, hrope, htime, hdp]

theorem exec_ktxl_miss (h : CramponIssues s r [ka, kd]) (hout : txlOut s (ropeCore r.toNat) < 16) {m : TxlMiss}
    (hv : txlFound s r ka = (txlState s r, .inr m)) :
    exec (.ktxl r kd ka) s = .next (after (bump (txlState s r) (0x4040 + ropeCluster r.toNat) 0x12) r { rope s r.toNat with
      kPend := (rope s r.toNat).kPend ++
        [{ kd := kd, value := 0, due := s.time.now + 24 * dpU s + 90 * 600, isTxl := true, miss := some m }] }) := by
  obtain ⟨cores, o, hu⟩ := txlState_only s r
  have hrope : rope (bump (txlState s r) (0x4040 + ropeCluster r.toNat) 0x12) r.toNat = rope s r.toNat := by rw [hu]; rfl
  have hdp : dpU (txlState s r) = dpU s := by rw [hu]; rfl
  have hnow : (txlState s r).time.now = s.time.now := by rw [hu]
  rw [exec_ktxl_ok h hout, hv]
  simp only [settleEff, modRope, rope_setRope_same, setRope_setRope, after, hrope, hdp, hnow]
  rfl

end

/-- A window that permits the access fails neither of its checks. -/
theorem permitted_write {w : Nat} {wr : Bool} (h : w.testBit (if wr then 125 else 126) = true) : ¬(wr && !w.testBit 125) = true := by
  cases wr with
  | false => exact Bool.false_ne_true
  | true => rw [show w.testBit 125 = true from h]; decide

theorem permitted_read {w : Nat} {wr : Bool} (h : w.testBit (if wr then 125 else 126) = true) : ¬(!wr && !w.testBit 126) = true := by
  cases wr with
  | false => rw [show w.testBit 126 = true from h]; decide
  | true => exact Bool.false_ne_true

/-- Settles O17: the checks of KTXL in their order, on the state with the translation counted. -/
theorem translationOfAnAddress : Obligations.TranslationOfAnAddress := by
  intro s r kd ka x c a tid t wr u due hit fails h hout
  obtain ⟨cores, o, hu⟩ := txlState_only s r
  have hc : c < 16 := by
    have := r.rope.isLt
    change r.rope.toNat / 128 < 16
    omega
  have ht : t < 4096 := tid.isLt
  obtain ⟨cores', hspent⟩ := cpenSpent_only s r.toNat
  have hten {i : Nat} (hi : i < 256) : ten (txlState s r) t i = ten s t i :=
    (ten_bump_core _ hc ht hi (by decide)).trans (by rw [hspent]; rfl)
  have hwin {i : Nat} (hi : i < 64) : windowWord (txlState s r) t i = windowWord s t i :=
    (windowWord_bump_core _ hc ht hi (by decide)).trans (by rw [hspent]; rfl)
  have hknown {v : State} {k : KWord} (hv : txlFound s r ka = (v, .inl k)) (hropes : v.ropes = s.ropes) (htime : v.time = s.time)
      (hpwr : v.pwr = s.pwr) : hit v k := exec_ktxl_known h hout hv hropes htime hpwr
  have hfails {code win cached enc : Nat} {v : State}
      (hv : txlFound s r ka = (bumpTen v t 0x53, .inl (txlWord 0 1 code win cached enc 0))) (hropes : v.ropes = s.ropes)
      (htime : v.time = s.time) (hpwr : v.pwr = s.pwr) : fails code win cached v enc := hknown hv hropes htime hpwr
  have h₀ : (txlState s r).ropes = s.ropes ∧ (txlState s r).time = s.time ∧ (txlState s r).pwr = s.pwr := by
    rw [hu]; exact ⟨rfl, rfl, rfl⟩
  obtain ⟨hropes, htime, hpwr⟩ := h₀
  refine ⟨fun hmode hlp => ?_, fun hmode hlp => ?_, fun hmode ha => ?_, fun hmode ha hno => ?_,
    fun i hmode ha hi hin hfirst => ?_⟩
  · rw [← hten (by decide)] at hmode hlp
    exact hfails (txlIssue_passThrough_noPort hmode hlp) hropes htime hpwr
  · rw [← hten (by decide)] at hmode
    have hv : txlFound s r ka = _ := txlIssue_passThrough hmode ((hten (by decide)).trans_lt hlp)
    rw [show ten (txlState s r) _ 0x51 = ten s t 0x51 from hten (by decide), show (txlState s r).sys = s.sys by rw [hu]] at hv
    exact hknown hv hropes htime hpwr
  · rw [← hten (by decide)] at hmode
    exact hfails (txlIssue_tooHigh hmode ha) hropes htime hpwr
  · rw [← hten (by decide)] at hmode
    exact hfails (txlIssue_noWindow hmode ha fun i hi => (congrArg _ (hwin hi)).trans (hno i hi)) hropes htime hpwr
  · rw [← hten (by decide)] at hmode
    intro w off
    have hv : txlFound s r ka = _ := txlIssue_window hmode ha hi ((congrArg _ (hwin hi)).trans hin)
      fun j hj => (congrArg _ (hwin (hj.trans hi))).trans (hfirst j hj)
    rw [show windowWord (txlState s r) _ i = w from hwin hi] at hv
    have hcached : txlCached (txlState s r) (off / 2 ^ 21) = txlCached s (off / 2 ^ 21) := by rw [hu]; rfl
    refine ⟨fun hwr hbit => ?_, fun hwr hbit => ?_, fun hbit => ?_⟩
    · exact hfails (hv.trans (if_pos (by rw [show BitVec.getLsbD _ 16 = true from hwr, hbit]; rfl))) hropes htime hpwr
    · refine hfails (hv.trans ((if_neg ?_).trans (if_pos ?_))) hropes htime hpwr
      · rw [show BitVec.getLsbD _ 16 = false from hwr]; exact Bool.false_ne_true
      · rw [show BitVec.getLsbD _ 16 = false from hwr, hbit]; rfl
    · have hv := hv.trans ((if_neg (permitted_write hbit)).trans (if_neg (permitted_read hbit)))
      refine ⟨fun hnone => ?_, fun e hsome => ?_⟩
      · rw [show txlCached (txlState s r) _ = none from hcached.trans hnone] at hv
        exact exec_ktxl_miss h hout hv
      · intro y enc
        rw [show txlCached (txlState s r) _ = some e from hcached.trans hsome] at hv
        dsimp only at hv
        rw [txlEntry_eq] at hv
        have hy : y.ropes = s.ropes ∧ y.time = s.time ∧ y.pwr = s.pwr := ⟨hropes, htime, hpwr⟩
        obtain ⟨hyr, hyt, hyp⟩ := hy
        refine ⟨fun hvalid => ?_, fun hvalid howner ht0 => ?_, fun hvalid howner => ?_⟩
        · rw [if_pos hvalid] at hv
          exact hfails hv hyr hyt hyp
        · rw [if_neg (by rw [hvalid]; decide), if_pos ⟨howner, ht0⟩] at hv
          exact hfails hv hyr hyt hyp
        · have hmine : ¬(e.extractLsb' 112 12 ≠ tid ∧ tid ≠ 0) := by tauto
          rw [if_neg (by rw [hvalid]; decide), if_neg hmine] at hv
          refine ⟨fun hpoison => ?_, fun hpoison hro hwr => ?_, fun hpoison hfree => ?_⟩
          · rw [if_pos hpoison] at hv
            exact hfails hv hyr hyt hyp
          · rw [if_neg (by rw [hpoison]; decide), if_pos ⟨hro, hwr⟩] at hv
            exact hfails hv hyr hyt hyp
          · have hmay : ¬(e.getLsbD 126 = true ∧ wr = true) := by
              rintro ⟨h₁, h₂⟩
              rcases hfree with h | h
              · rw [h₁] at h; cases h
              · rw [h₂] at h; cases h
            rw [if_neg (by rw [hpoison]; decide), if_neg hmay, show (txlInstall (txlState s r) _ e).sys = s.sys by rw [hu]; rfl] at hv
            exact hknown hv hyr hyt hyp

end Sys2Proof.Proofs

/-! Stragglers and late pitches (R120, R121). -/

namespace Sys2Proof.Proofs

open Sys2Proof.Machine Sys2Proof.Claim

/-! ### Answers and retirements leave the pitches and only take frames away -/

/-- A subindex in which the answers to frames and their retirement count nothing. -/
def uncounted (a : Nat) : Bool := a == 0x0E || a == 0x0F

/-- What the answers to frames and their retirement leave: the identity and the pitches; the frames held only lessen; the
counters of late pitches stay. -/
structure Recedes (s₀ s : State) : Prop where
  sys : s.sys = s₀.sys
  pit : s.pit = s₀.pit
  frames : ∀ f, mfind s₀.frames f = none → mfind s.frames f = none
  obj : ∀ i a, uncounted a = true → obj s i a = obj s₀ i a

/-- As `Recedes`, of a state that comes with something else. -/
def PairRecedes {α : Type} (s₀ : State) (p : State × α) : Prop := Recedes s₀ p.1

/-- As `Recedes`, of a state that there may be. -/
def OptRecedes (s₀ : State) (o : Option State) : Prop := ∀ s, o = some s → Recedes s₀ s

/-- As `OptRecedes`, of a state that comes with something else. -/
def OptPairRecedes {α : Type} (s₀ : State) (o : Option (State × α)) : Prop := ∀ p, o = some p → Recedes s₀ p.1

section

variable {α β : Type} {s₀ s : State}

theorem Recedes.refl (s : State) : Recedes s s := ⟨rfl, rfl, fun _ h => h, fun _ _ _ => rfl⟩

theorem Recedes.trans {r t : State} (h : Recedes r s) (h' : Recedes s t) : Recedes r t :=
  ⟨h'.sys.trans h.sys, h'.pit.trans h.pit, fun f hf => h'.frames f (h.frames f hf),
    fun i a ha => (h'.obj i a ha).trans (h.obj i a ha)⟩

/-- An update of other parts of the state. -/
theorem Recedes.update {pending : List Instr} {free : Nat} {out : List Out} {answer : Answer} {time : TimeSt}
    {latched stored : Map Nat} {dict : DictSt} {ports : Map Port} {xport : Xport} {nextFrame nextOut : Nat} {col : ColSt}
    {tbl : TableSt} {ropes : Map Rope} {cores : Map Machine.Core} {clusters : Map Cluster} {flights : List Flight}
    {xlat : XlatSt} {scree : ScreeSt} {trav : TravSt} {tm : TmSt} {hbm : HbmSt} {plan : PlanSt} {pwr : PwrSt} {rcv : RecSt}
    {cairn : CairnSt} {dbg : DebugSt} (h : Recedes s₀ s) :
    Recedes s₀ ⟨pending, free, out, answer, s.sys, time, s.obj, latched, stored, dict, ports, xport, s.frames, nextFrame, nextOut,
      col, tbl, s.pit, ropes, cores, clusters, flights, xlat, scree, trav, tm, hbm, plan, pwr, rcv, cairn, dbg⟩ :=
  ⟨h.sys, h.pit, h.frames, h.obj⟩

theorem PairRecedes.mk {x : α} (h : Recedes s₀ s) : PairRecedes s₀ (s, x) := h
theorem PairRecedes.fst {p : State × α} (h : PairRecedes s₀ p) : Recedes s₀ p.1 := h
theorem PairRecedes.of_eq {p : State × α} {x : α} (h : PairRecedes s₀ p) (e : p = (s, x)) : Recedes s₀ s := by
  rw [e] at h; exact h

theorem OptPairRecedes.none : OptPairRecedes s₀ (none : Option (State × α)) := fun _ h => nomatch h
theorem OptPairRecedes.some {p : State × α} (h : PairRecedes s₀ p) : OptPairRecedes s₀ (some p) :=
  fun _ e => Option.some.inj e ▸ h
theorem OptPairRecedes.of_eq {o : Option (State × α)} {x : α} (h : OptPairRecedes s₀ o) (e : o = Option.some (s, x)) :
    Recedes s₀ s := h (s, x) e

theorem Recedes.foldl {f : State → β → State} {l : List β} (hf : ∀ s x, Recedes s₀ s → Recedes s₀ (f s x)) (h : Recedes s₀ s) :
    Recedes s₀ (l.foldl f s) := by
  induction l generalizing s with
  | nil => exact h
  | cons x l ih => exact ih (hf s x h)

theorem PairRecedes.foldl {f : State × α → β → State × α} {l : List β} {p : State × α}
    (hf : ∀ p x, PairRecedes s₀ p → PairRecedes s₀ (f p x)) (h : PairRecedes s₀ p) : PairRecedes s₀ (l.foldl f p) := by
  induction l generalizing p with
  | nil => exact h
  | cons x l ih => exact ih (hf p x h)

theorem bumpBy_recedes {i a n : Nat} (h : Recedes s₀ s) (ha : a < 256) (hq : uncounted a = false) :
    Recedes s₀ (bumpBy s i a n) := by
  refine ⟨h.sys, h.pit, h.frames, fun j b hb => (obj_bumpBy_ne s n ha ?_ (.inr ?_)).trans (h.obj j b hb)⟩
  · simp only [uncounted, Bool.or_eq_true, beq_iff_eq] at hb
    omega
  · rintro rfl
    rw [hq] at hb
    cases hb

theorem bump_recedes {i a : Nat} (h : Recedes s₀ s) (ha : a < 256) (hq : uncounted a = false) : Recedes s₀ (bump s i a) :=
  bumpBy_recedes h ha hq

theorem bumpTen_recedes {i a : Nat} (h : Recedes s₀ s) (ha : a < 256) (hq : uncounted a = false) : Recedes s₀ (bumpTen s i a) :=
  bumpBy_recedes h ha hq

end

/-! #### The operations, one by one -/

theorem draw_recedes {s₀ s : State} (h : Recedes s₀ s) : Recedes s₀ (draw s) := by
  unfold draw
  exact Recedes.update h

theorem setPch_recedes {s₀ s : State} {k : Nat} {x : PChan} (h : Recedes s₀ s) : Recedes s₀ (setPch s k x) := by
  unfold setPch
  exact Recedes.update h

theorem openRowOf_recedes {s₀ s : State} {pc bank row : Nat} (h : Recedes s₀ s) : Recedes s₀ (openRowOf s pc bank row) := by
  unfold openRowOf
  extract_lets p1
  exact setPch_recedes h

theorem countChannel_recedes {s₀ s : State} {pc k row : Nat} (h : Recedes s₀ s) : Recedes s₀ (countChannel s pc k row) := by
  unfold countChannel
  extract_lets ch1 k1 l1 above1 l2 src1 s1
  have h1 : Recedes s₀ s1 := Recedes.update h
  split
  · exact bumpBy_recedes h1 (by decide) rfl
  · exact h1

theorem activate_recedes {s₀ s : State} {pc bank row : Nat} {cls : ReqClass} {addr : Nat} {read : Option HbmOutcome}
    (h : Recedes s₀ s) :
    PairRecedes s₀ (activate s pc bank row cls addr read) := by
  unfold activate
  extract_lets p1 k1
  split
  · exact PairRecedes.mk h
  · split
    · exact PairRecedes.mk (openRowOf_recedes (countChannel_recedes h))
    · split
      · exact PairRecedes.mk (setPch_recedes (bump_recedes h (by decide) rfl))
      · exact PairRecedes.mk (openRowOf_recedes (setPch_recedes h))

theorem countWrite_recedes {s₀ s : State} {cls : ReqClass} {a n : Nat} (h : Recedes s₀ s) :
    Recedes s₀ (countWrite s cls a n) := by
  unfold countWrite
  refine Recedes.foldl ?_ h
  intro s1 x1 h1
  extract_lets l1 lo1 hi1
  split
  · split
    · exact PairRecedes.fst (activate_recedes (bumpBy_recedes h1 (by decide) rfl))
  · exact h1

theorem clearMedia_recedes {s₀ s : State} {a n : Nat} (h : Recedes s₀ s) : Recedes s₀ (clearMedia s a n) := by
  unfold clearMedia
  extract_lets full1 cov1 src1
  exact Recedes.update h

theorem cairnDrop_recedes {s₀ s : State} {level : Nat} (h : Recedes s₀ s) : Recedes s₀ (cairnDrop s level) := by
  unfold cairnDrop
  exact bump_recedes (Recedes.update h) (by decide) rfl

theorem cairn_recedes {s₀ s : State} {src code sev : Nat} {data : List Byte} (h : Recedes s₀ s) :
    Recedes s₀ (cairn s src code sev data) := by
  unfold cairn
  split
  · exact h
  · split
    · exact cairnDrop_recedes h
    · split
      · exact Recedes.update h
      · exact cairnDrop_recedes h

theorem stir_recedes {s₀ s : State} (h : Recedes s₀ s) : Recedes s₀ (stir s) := by
  unfold stir
  exact Recedes.update h

theorem useHead_recedes {s₀ s : State} {h : Nat} (hs : Recedes s₀ s) : Recedes s₀ (useHead s h) := by
  unfold useHead
  exact Recedes.update hs

theorem freeHead_recedes {s₀ s : State} {h : Nat} (hs : Recedes s₀ s) : Recedes s₀ (freeHead s h) := by
  unfold freeHead
  extract_lets c1 src1
  split
  · exact Recedes.update hs
  · exact hs

theorem useCell_recedes {s₀ s : State} {c : Nat} (h : Recedes s₀ s) : Recedes s₀ (useCell s c) := by
  unfold useCell
  exact Recedes.update h

theorem freeCellList_recedes {s₀ s : State} {cs : List Nat} (h : Recedes s₀ s) : Recedes s₀ (freeCellList s cs) := by
  unfold freeCellList
  split
  · exact h
  · extract_lets c1 src1
    exact stir_recedes (Recedes.update h)

theorem takeCells_recedes {s₀ s : State} {n : Nat} (h : Recedes s₀ s) : OptPairRecedes s₀ (takeCells s n) := by
  induction n generalizing s with
  | zero => exact OptPairRecedes.some (PairRecedes.mk h)
  | succ n ih =>
    unfold takeCells
    split
    · exact OptPairRecedes.none
    · next c _ =>
      have hrest : OptPairRecedes s₀ (takeCells (useCell s c) n) := ih (useCell_recedes h)
      split
      · exact OptPairRecedes.none
      · next s' cs e => exact OptPairRecedes.some (PairRecedes.mk (hrest.of_eq e))

theorem setInFlight_recedes {s₀ s : State} {v : BitVec 16} {n : Nat} (h : Recedes s₀ s) : Recedes s₀ (setInFlight s v n) := by
  unfold setInFlight
  exact Recedes.update h

theorem retire_recedes {s₀ s : State} {v : BitVec 16} (h : Recedes s₀ s) : Recedes s₀ (retire s v) := by
  unfold retire
  exact setInFlight_recedes h

theorem dropStage_recedes {s₀ s : State} {f : Nat} (h : Recedes s₀ s) : Recedes s₀ (dropStage s f) := by
  unfold dropStage
  exact Recedes.update h

theorem freeFrame_recedes {s₀ s : State} {f : Nat} (h : Recedes s₀ s) : Recedes s₀ (freeFrame s f) := by
  have hd : Recedes s₀ (dropStage (freeCellList (freeHead s (frameOf s f).head) (frameOf s f).cells) f) :=
    dropStage_recedes (freeCellList_recedes (freeHead_recedes h))
  refine ⟨hd.sys, hd.pit, fun g hg => ?_, hd.obj⟩
  have hgone := hd.frames g hg
  by_cases hfg : f = g
  · subst hfg
    exact mfind_merase_same _ _
  · exact (mfind_merase_ne _ hfg).trans hgone

theorem stopScan_recedes {s₀ s : State} {k code detail : Nat} (h : Recedes s₀ s) : Recedes s₀ (stopScan s k code detail) := by
  unfold stopScan
  split
  · exact h
  · extract_lets c1 src1
    exact Recedes.update h

theorem scanRdBack_recedes {s₀ s : State} {k bytes : Nat} (h : Recedes s₀ s) : Recedes s₀ (scanRdBack s k bytes) := by
  unfold scanRdBack
  split
  · exact h
  · extract_lets t1 src1
    exact Recedes.update h

theorem scanLost_recedes {s₀ s : State} {p : Pair} {addr : BitVec 64} {len : Nat} (h : Recedes s₀ s) :
    Recedes s₀ (scanLost s p addr len) := by
  unfold scanLost
  split
  · exact h
  · extract_lets s1
    have h1 : Recedes s₀ s1 := stopScan_recedes h
    split
    · exact scanRdBack_recedes h1
    · exact h1

theorem retireFrame_recedes {s₀ s : State} {f : Nat} (h : Recedes s₀ s) : Recedes s₀ (retireFrame s f) := by
  unfold retireFrame
  extract_lets x1 x2 s1
  have h1 : Recedes s₀ s1 := by
    unfold s1
    split
    · exact scanLost_recedes h
    · exact h
  exact freeFrame_recedes (retire_recedes h1)

theorem copiesSettle_recedes {s₀ s : State} {f : Nat} (h : Recedes s₀ s) : Recedes s₀ (copiesSettle s f) := by
  unfold copiesSettle
  extract_lets c1 s1 src1
  have h1 : Recedes s₀ s1 := dropStage_recedes (freeCellList_recedes (freeHead_recedes h))
  split
  · exact Recedes.update h1
  · exact h

theorem freeStores_recedes {s₀ s : State} {o : Output} (h : Recedes s₀ s) : Recedes s₀ (freeStores s o) := by
  unfold freeStores
  split
  · exact freeCellList_recedes (freeHead_recedes h)
  · extract_lets c1 s1 src1
    have h1 : Recedes s₀ s1 := by
      unfold s1
      split
      · exact h
      · exact freeHead_recedes h
    split
    · exact copiesSettle_recedes (Recedes.update h1)
    · exact copiesSettle_recedes (Recedes.update h1)

theorem fillBuffer_recedes {s₀ s : State} {b : Nat × Nat} {n : Nat} (h : Recedes s₀ s) : Recedes s₀ (fillBuffer s b n) := by
  unfold fillBuffer
  extract_lets a1
  exact clearMedia_recedes (countWrite_recedes h)

theorem pitonAlloc_recedes {s₀ s : State} {n : Nat} (h : Recedes s₀ s) : PairRecedes s₀ (pitonAlloc s n) := by
  unfold pitonAlloc
  extract_lets fits1
  split
  · exact PairRecedes.mk (bump_recedes h (by decide) rfl)
  · extract_lets s1 src1
    have h1 : Recedes s₀ s1 := by
      unfold s1
      split
      · exact h
      · exact bump_recedes h (by decide) rfl
    exact PairRecedes.mk (Recedes.update h1)

theorem pitonRelease_recedes {s₀ s : State} {owner : Bool} {pool idx : Nat} (h : Recedes s₀ s) :
    Recedes s₀ (pitonRelease s owner pool idx) := by
  unfold pitonRelease
  split
  · extract_lets c1 src1
    exact Recedes.update h
  · exact bump_recedes h (by decide) rfl

theorem endOutput_recedes {s₀ s : State} {o : Output} (h : Recedes s₀ s) : Recedes s₀ (endOutput s o) := by
  unfold endOutput
  extract_lets s1
  have h1 : Recedes s₀ s1 := by
    unfold s1
    refine freeStores_recedes ?_
    split
    · exact retire_recedes h
    · exact h
  split
  · exact pitonRelease_recedes h1
  · exact h1

theorem setQueue_recedes {s₀ s : State} {q : Queue} (h : Recedes s₀ s) : Recedes s₀ (setQueue s q) := by
  unfold setQueue
  extract_lets rest1 src1
  exact Recedes.update h

theorem setCredit_recedes {s₀ s : State} {lp tid : Nat} {c : ℤ} (h : Recedes s₀ s) : Recedes s₀ (setCredit s lp tid c) := by
  unfold setCredit
  extract_lets x1 src1
  exact Recedes.update h

theorem shaperStart_recedes {s₀ s : State} {lp tid : Nat} (h : Recedes s₀ s) : Recedes s₀ (shaperStart s lp tid) := by
  unfold shaperStart
  split
  · exact h
  · exact setCredit_recedes h

theorem queueStart_recedes {s₀ s : State} {lp tid qn : Nat} (h : Recedes s₀ s) : Recedes s₀ (queueStart s lp tid qn) := by
  unfold queueStart
  split
  · split
    · extract_lets held1 x5 src1
      exact Recedes.update h
    · exact shaperStart_recedes h
  · exact shaperStart_recedes h

theorem enqueue_recedes {s₀ s : State} {o : Output} (h : Recedes s₀ s) : Recedes s₀ (enqueue s o) := by
  unfold enqueue
  extract_lets tid1 sp1 s1 o1 s2 src1
  have h1 : Recedes s₀ s1 := by
    unfold s1
    split
    · exact h
    · exact queueStart_recedes h
  have h2 : Recedes s₀ s2 := Recedes.update h1
  split
  · exact Recedes.update h2
  · exact Recedes.update h2

theorem trySpill_recedes {s₀ s : State} {o : Output} {sp : Nat} (h : Recedes s₀ s) : PairRecedes s₀ (trySpill s o sp) := by
  unfold trySpill
  extract_lets tid1 n1 cls1 qn1
  split
  · exact PairRecedes.mk h
  · have h1 : PairRecedes s₀ (pitonAlloc s n1) := pitonAlloc_recedes h
    split
    · next s1 s2 e2 =>
        have h2 := PairRecedes.of_eq h1 e2
        exact PairRecedes.mk h2
    · next s1 s2 x1 x2 e2 =>
        have h2 := PairRecedes.of_eq h1 e2
        extract_lets s3 q1 s4 o1 e3 src1 s5 src2
        have h3 : Recedes s₀ s3 := fillBuffer_recedes (freeStores_recedes (bump_recedes h2 (by decide) rfl))
        have h4 : Recedes s₀ s4 := by
          unfold s4
          split
          · exact h3
          · exact queueStart_recedes h3
        have h5 : Recedes s₀ s5 := Recedes.update h4
        exact PairRecedes.mk (setQueue_recedes h5)

theorem joinCtl_recedes {s₀ s : State} {o : Output} (h : Recedes s₀ s) : Recedes s₀ (joinCtl s o) := by
  unfold joinCtl
  split
  · have h1 : PairRecedes s₀ (trySpill s o (spreadFor s o)) := trySpill_recedes h
    split
    · next s1 s2 e2 =>
        have h2 := PairRecedes.of_eq h1 e2
        exact h2
    · next s1 s2 e2 =>
        have h2 := PairRecedes.of_eq h1 e2
        exact endOutput_recedes (bump_recedes h2 (by decide) rfl)
  · exact enqueue_recedes h

theorem sendCtl_recedes {s₀ s : State} {lp : Nat} {h : Sxt} {payload : List Byte} (hs : Recedes s₀ s) :
    Recedes s₀ (sendCtl s lp h payload) := by
  unfold sendCtl
  split
  · exact hs
  · exact joinCtl_recedes (useHead_recedes hs)

theorem sendNak_recedes {s₀ s : State} {lp : Nat} {h : Sxt} {code detail : Nat} (hs : Recedes s₀ s) :
    Recedes s₀ (sendNak s lp h code detail) := by
  unfold sendNak
  exact sendCtl_recedes hs

theorem setRx_recedes {s₀ s : State} {ep : BitVec 24} {c : RxCtx} (h : Recedes s₀ s) : Recedes s₀ (setRx s ep c) := by
  unfold setRx
  exact Recedes.update h

theorem sendAck_recedes {s₀ s : State} {ep : BitVec 24} {c : RxCtx} (h : Recedes s₀ s) : Recedes s₀ (sendAck s ep c) := by
  unfold sendAck
  extract_lets s1
  have h1 : Recedes s₀ s1 := stir_recedes (setRx_recedes h)
  exact sendCtl_recedes h1

theorem ackCheck_recedes {s₀ s : State} {ep : BitVec 24} (h : Recedes s₀ s) : Recedes s₀ (ackCheck s ep) := by
  unfold ackCheck
  split
  · exact h
  · extract_lets moved1
    split
    · exact h
    · split
      · exact sendAck_recedes h
      · split
        · exact h
        · exact setRx_recedes h

theorem settle_recedes {s₀ s : State} {ep : BitVec 24} {psn : BitVec 32} (h : Recedes s₀ s) : Recedes s₀ (settle s ep psn) := by
  unfold settle
  split
  · exact h
  · exact ackCheck_recedes (setRx_recedes h)

theorem withdraw_recedes {s₀ s : State} {ep : BitVec 24} {psn : BitVec 32} (h : Recedes s₀ s) :
    Recedes s₀ (withdraw s ep psn) := by
  unfold withdraw
  split
  · exact h
  · next x1 x2 e1 =>
      extract_lets c1 above1
      split
      · exact ackCheck_recedes (setRx_recedes h)
      · exact ackCheck_recedes (setRx_recedes h)

theorem finalNak_recedes {s₀ s : State} {lp : Nat} {h : Sxt} {code detail : Nat} (hs : Recedes s₀ s) :
    Recedes s₀ (finalNak s lp h code detail) := by
  unfold finalNak
  exact settle_recedes (sendNak_recedes hs)

theorem nakRetry_recedes {s₀ s : State} {lp : Nat} {h : Sxt} {code detail : Nat} (hs : Recedes s₀ s) :
    Recedes s₀ (nakRetry s lp h code detail) := by
  unfold nakRetry
  split
  · exact hs
  · extract_lets s1
    have h1 : Recedes s₀ s1 := sendNak_recedes hs
    split
    · exact withdraw_recedes h1
    · exact h1

theorem nakPair_recedes {s₀ s : State} {p : Pair} {code detail : Nat} (h : Recedes s₀ s) :
    Recedes s₀ (nakPair s p code detail) := by
  unfold nakPair
  exact sendCtl_recedes h

theorem legNak_recedes {s₀ s : State} {o : Output} {code detail : Nat} (h : Recedes s₀ s) :
    Recedes s₀ (legNak s o code detail) := by
  unfold legNak
  split
  · exact h
  · extract_lets src1 s1
    have h1 : Recedes s₀ s1 := Recedes.update h
    split
    · exact finalNak_recedes h1
    · exact sendNak_recedes h1

theorem setTxAt_recedes {s₀ s : State} {k : Nat} {c : TxCtx} (h : Recedes s₀ s) : Recedes s₀ (setTxAt s k c) := by
  unfold setTxAt
  exact Recedes.update h

theorem dropTxAt_recedes {s₀ s : State} {k : Nat} (h : Recedes s₀ s) : Recedes s₀ (dropTxAt s k) := by
  unfold dropTxAt
  exact Recedes.update h

theorem originate_recedes {s₀ s : State} {o : Output} (h : Recedes s₀ s) : PairRecedes s₀ (originate s o) := by
  unfold originate
  split
  · exact PairRecedes.mk h
  · next e1 =>
      extract_lets src1 dst1 k1 c1 no1 src2 x1 id1 o1 s1 src3 s2 due1
      have h1 : Recedes s₀ s1 := Recedes.update h
      have h2 : Recedes s₀ s2 := by
        unfold s2
        split
        · extract_lets q1
          exact Recedes.update h1
        · exact h1
      exact PairRecedes.mk (setTxAt_recedes h2)

theorem park_recedes {s₀ s : State} {o : Output} (h : Recedes s₀ s) : Recedes s₀ (park s o) := by
  unfold park
  extract_lets x1 src1
  exact Recedes.update h

theorem countRefused_recedes {s₀ s : State} {tid : Nat} (h : Recedes s₀ s) : Recedes s₀ (countRefused s tid) := by
  unfold countRefused
  exact bumpTen_recedes h (by decide) rfl

theorem vaultRequest_recedes {s₀ s : State} {o : Output} {q : Pair} (h : Recedes s₀ s) :
    OptPairRecedes s₀ (vaultRequest s o q) := by
  unfold vaultRequest
  extract_lets t1 x1 lo1 n1 cut1 src1
  split
  · split
    · exact OptPairRecedes.some (PairRecedes.mk h)
    · exact OptPairRecedes.none
  · split
    · exact OptPairRecedes.none
    · split
      · split
        · exact OptPairRecedes.none
        · exact OptPairRecedes.some (PairRecedes.mk (bumpBy_recedes h (by decide) rfl))
      · exact OptPairRecedes.some (PairRecedes.mk h)

theorem vaultRefuse_recedes {s₀ s : State} {o : Output} {q : Pair} (h : Recedes s₀ s) : Recedes s₀ (vaultRefuse s o q) := by
  unfold vaultRefuse
  extract_lets s1
  have h1 : Recedes s₀ s1 := endOutput_recedes (countRefused_recedes h)
  split
  · exact legNak_recedes h1
  · exact nakPair_recedes h1

theorem vaultReply_recedes {s₀ s : State} {o : Output} {p : Pair} (h : Recedes s₀ s) : PairRecedes s₀ (vaultReply s o p) := by
  unfold vaultReply
  extract_lets x1 src1
  have h1 : PairRecedes s₀
        (match p.enc, keysOf s p.tid.toNat with
        | true, some (k1, k2) => if (decide (p.kind = 0) && decide (x1 % 16 = 0) && decide (o.payload.length % 16 = 0)) = true then (bumpBy s 24704 9 o.payload.length, xts (aesDecrypt k1) k2 x1 o.payload) else (s, o.payload)
        | x, x_1 => (s, o.payload)) := by
    split
    · split
      · exact PairRecedes.mk (bumpBy_recedes h (by decide) rfl)
      · exact PairRecedes.mk h
    · exact PairRecedes.mk h
  split
  · next s1 s2 x2 e1 =>
      have h2 := PairRecedes.of_eq h1 e1
      extract_lets body1
      exact PairRecedes.mk h2

theorem stage7_recedes {s₀ s : State} {o : Output} (h : Recedes s₀ s) : PairRecedes s₀ (stage7 s o) := by
  unfold stage7
  split
  · next x1 x2 x3 e1 =>
      split
      · exact PairRecedes.mk h
      · have h1 : PairRecedes s₀ (vaultReply s o x3) := vaultReply_recedes h
        split
        · next s1 s2 x4 e3 =>
            have h2 := PairRecedes.of_eq h1 e3
            exact PairRecedes.mk h2
  · next x1 x2 x3 e1 e2 =>
      split
      · have h1 : OptPairRecedes s₀ (vaultRequest s o x3) := vaultRequest_recedes h
        split
        · next s1 s2 x4 e4 =>
            have h2 := OptPairRecedes.of_eq h1 e4
            exact PairRecedes.mk h2
        · exact PairRecedes.mk (vaultRefuse_recedes h)
      · exact PairRecedes.mk h
  · exact PairRecedes.mk h

theorem dropOutput_recedes {s₀ s : State} {o : Output} (h : Recedes s₀ s) : Recedes s₀ (dropOutput s o) := by
  unfold dropOutput
  split
  · extract_lets s1 o1
    have h1 : Recedes s₀ s1 := by
      unfold s1
      split
      · exact retire_recedes h
      · exact h
    split
    · split
      · exact park_recedes h1
      · have h2 : PairRecedes s₀ (stage7 s1 o1) := stage7_recedes h1
        split
        · next s2 s3 x3 e4 =>
            have h3 := PairRecedes.of_eq h2 e4
            exact PairRecedes.fst (originate_recedes h3)
        · next s2 s3 e4 =>
            have h3 := PairRecedes.of_eq h2 e4
            exact h3
    · split
      · exact park_recedes h1
      · have h2 : PairRecedes s₀ (stage7 s1 o1) := stage7_recedes h1
        split
        · next s2 s3 x2 e4 =>
            have h3 := PairRecedes.of_eq h2 e4
            exact PairRecedes.fst (originate_recedes h3)
        · next s2 s3 e4 =>
            have h3 := PairRecedes.of_eq h2 e4
            exact h3
  · exact endOutput_recedes h

theorem answerLost_recedes {s₀ s : State} {o : Output} (h : Recedes s₀ s) : Recedes s₀ (answerLost s o) := by
  unfold answerLost
  split
  · split
    · exact scanRdBack_recedes (stopScan_recedes h)
    · split
      · exact legNak_recedes h
      · exact nakPair_recedes h
  · split
    · exact scanLost_recedes h
    · exact h
  · exact h

theorem loseOutput_recedes {s₀ s : State} {o : Output} (h : Recedes s₀ s) : Recedes s₀ (loseOutput s o) := by
  unfold loseOutput
  exact answerLost_recedes (endOutput_recedes (bumpBy_recedes h (by decide) rfl))

theorem spillOutput_recedes {s₀ s : State} {o : Output} {sp : Nat} (h : Recedes s₀ s) : Recedes s₀ (spillOutput s o sp) := by
  unfold spillOutput
  have h1 : PairRecedes s₀ (trySpill s o sp) := trySpill_recedes h
  split
  · next s1 s2 e1 =>
      have h2 := PairRecedes.of_eq h1 e1
      exact h2
  · next s1 s2 e1 =>
      have h2 := PairRecedes.of_eq h1 e1
      exact dropOutput_recedes (bump_recedes h2 (by decide) rfl)

theorem lodge_recedes {s₀ s : State} {o : Output} (h : Recedes s₀ s) : Recedes s₀ (lodge s o) := by
  unfold lodge
  extract_lets o1 tid1 sp1 cls1 qu1 q1 inSpill1 under1 qn1 ci1 avg1 col1 src1 s1 sel1 mark1 s2 o2
  have h1 : Recedes s₀ s1 := draw_recedes (Recedes.update h)
  have h2 : Recedes s₀ s2 := by
    unfold s2
    split
    · exact bump_recedes h1 (by decide) rfl
    · exact h1
  split
  · exact joinCtl_recedes h
  · split
    · exact loseOutput_recedes h
    · split
      · exact dropOutput_recedes (bumpTen_recedes h (by decide) rfl)
      · split
        · exact spillOutput_recedes h
        · split
          · exact dropOutput_recedes (bump_recedes h2 (by decide) rfl)
          · split
            · exact spillOutput_recedes h2
            · exact enqueue_recedes h2

theorem takeStores_recedes {s₀ s : State} {o : Output} (h : Recedes s₀ s) : OptPairRecedes s₀ (takeStores s o) := by
  unfold takeStores
  split
  · exact OptPairRecedes.none
  · next hd _ =>
    have hcells : OptPairRecedes s₀ (takeCells (useHead s hd) (cellsFor (outLen o))) := takeCells_recedes (useHead_recedes h)
    split
    · exact OptPairRecedes.some (PairRecedes.mk (useHead_recedes h))
    · intro p e
      obtain ⟨q, hq, rfl⟩ := Option.map_eq_some_iff.mp e
      exact hcells q hq

theorem admitNew_recedes {s₀ s : State} {o : Output} (h : Recedes s₀ s) : Recedes s₀ (admitNew s o) := by
  unfold admitNew
  extract_lets o1 o2
  split
  · exact park_recedes h
  · have h1 : OptPairRecedes s₀ (takeStores s o1) := takeStores_recedes h
    split
    · next s1 s2 x1 e2 =>
        have h2 := OptPairRecedes.of_eq h1 e2
        exact lodge_recedes h2
    · split
      · exact park_recedes h
      · exact endOutput_recedes (bump_recedes h (by decide) rfl)

theorem screeSend_recedes {s₀ s : State} {c : Scan} {h : Sxt} {payload : List Byte} {counted : Bool} (hs : Recedes s₀ s) :
    Recedes s₀ (screeSend s c h payload counted) := by
  unfold screeSend
  extract_lets x1
  exact admitNew_recedes hs

theorem sendRows_recedes {s₀ s : State} {f : RowFrame} (h : Recedes s₀ s) : Recedes s₀ (sendRows s f) := by
  unfold sendRows
  split
  · exact h
  · extract_lets first1
    exact screeSend_recedes h

theorem endScan_recedes {s₀ s : State} {k : Nat} {c : Scan} (h : Recedes s₀ s) : Recedes s₀ (endScan s k c) := by
  have hquiet : ∀ n : Nat, uncounted (if n = 0 then 8 else 9) = false ∧ (if n = 0 then 8 else 9) < 256 := by
    intro n
    split <;> decide
  obtain ⟨hq, hlt⟩ := hquiet (c.stopped.getD (0, 0)).1
  unfold endScan
  extract_lets s1 src1 s2 s3 s4 src2
  have h1 : Recedes s₀ s1 := Recedes.foldl (fun _ _ ht => sendRows_recedes ht) h
  have h2 : Recedes s₀ s2 := Recedes.update h1
  have h3 : Recedes s₀ s3 := screeSend_recedes h2
  have h4 : Recedes s₀ s4 := bump_recedes h3 hlt hq
  exact stir_recedes (Recedes.update h4)

theorem finishScans_recedes {s₀ s : State} (h : Recedes s₀ s) : Recedes s₀ (finishScans s) := by
  unfold finishScans
  refine Recedes.foldl ?_ h
  intro s1 x1 h1
  split
  · exact endScan_recedes h1
  · exact h1

end Sys2Proof.Proofs

namespace Sys2Proof.Proofs

open Sys2Proof.Machine Sys2Proof.Claim

theorem nakRetry_stays {s₀ s : State} {lp : Nat} {h : Sxt} {c d : Nat} (hs : Stays s₀ s) : Stays s₀ (nakRetry s lp h c d) := by
  unfold nakRetry
  split
  · exact hs
  · dsimp only
    split
    · exact withdraw_stays (sendNak_stays hs)
    · exact sendNak_stays hs

/-! ### The frames of a late pitch -/

/-- A frame of a late pitch is answered and retires. -/
def answerFrame (p : Pitch) (s : State) (f : Nat) : State :=
  retireFrame (nakRetry s (frameOf s f).lp (hdrOf (frameOf s f)) 2 p.cluster) f

theorem answerFrame_recedes {p : Pitch} {s₀ s : State} (f : Nat) (h : Recedes s₀ s) : Recedes s₀ (answerFrame p s f) :=
  retireFrame_recedes (nakRetry_recedes h)

theorem answerFrame_stays {p : Pitch} {s₀ s : State} (f : Nat) (h : Stays s₀ s) : Stays s₀ (answerFrame p s f) :=
  retireFrame_stays (nakRetry_stays h)

theorem retireFrame_gone (s : State) (f : Nat) : mfind (retireFrame s f).frames f = none := mfind_merase_same _ _

/-- Frames that are answered one by one are all gone. -/
theorem foldl_answerFrame_gone {p : Pitch} (l : List Nat) (s : State) : ∀ f ∈ l, mfind (l.foldl (answerFrame p) s).frames f = none := by
  induction l generalizing s with
  | nil => exact nofun
  | cons g l ih =>
    intro f hf
    rcases List.mem_cons.mp hf with rfl | hf
    · exact (Recedes.foldl (fun _ x h => answerFrame_recedes x h) (Recedes.refl (answerFrame p s f))).frames f (retireFrame_gone _ f)
    · exact ih _ f hf

/-- The end of the dp-cycle in which the budget of a pitch and LateRelease have passed. -/
def lateInstant (s : State) (p : Pitch) : State :=
  let s := advanceTo s (p.dispatchAt + nsU (obj s 0x4000 4) + nsU (obj s 0x4000 5))
  rouse (advanceTo s (cycStart s (cyc s + 1))) (16 * p.cluster)

/-- The frames of a late pitch answered, the pitch and its frames counted. -/
def answeredLate (s : State) (p : Pitch) : State :=
  p.frames.foldl (answerFrame p) (bumpBy (bump s 0x4000 0x0E) 0x4000 0x0F p.frames.length)

/-- A pitch marked late at an instant. -/
def markedLate (s : State) (k : Nat) (p : Pitch) : State :=
  setPitch (answeredLate s p) k { p with late := true, kept := framesOf s p }

theorem answeredLate_recedes (s : State) (p : Pitch) :
    Recedes (bumpBy (bump s 0x4000 0x0E) 0x4000 0x0F p.frames.length) (answeredLate s p) :=
  Recedes.foldl (fun _ f h => answerFrame_recedes f h) (Recedes.refl _)

theorem markedLate_stays (s : State) (k : Nat) (p : Pitch) : Stays s (markedLate s k p) :=
  setPitch_stays (Stays.foldl (fun _ f h => answerFrame_stays f h) (bumpBy_stays (bump_stays (Stays.refl s)))) _ _

theorem exec_lateReleaseExpiry_ok {s : State} {k : Nat} {p : Pitch} (hon : on s = true) (hp : pitch s k = some p)
    (hstr : p.straggler = true) (hlate : p.late = false) (hplace : p.place ≠ .done) : exec (.lateReleaseExpiry k) s =
    let t := markedLate (lateInstant s p) k p
    .next (finishScans (wakeHeld (releaseLane t p.lane.toNat (t.pit.pitches.length + 1)))) := by
  change execLateReleaseExpiry k s = _
  rw [execLateReleaseExpiry, live_on hon, hp]
  dsimp only
  rw [if_pos (by rw [hstr, hlate, Bool.true_and, Bool.not_false, Bool.true_and, bne_iff_ne]; exact hplace)]
  rfl

/-- The same behind a turn that has not come. -/
theorem exec_lateReleaseExpiry_heldBack {s : State} {k : Nat} {p : Pitch} (hon : on s = true) (hp : pitch s k = some p)
    (hstr : p.straggler = true) (hlate : p.late = false) (hplace : p.place ≠ .done) (hb : HeldBack s p.lane.toNat k)
    (hw : ∀ q, (rope s q).st ≠ .waiting .hold) :
    exec (.lateReleaseExpiry k) s = .next (finishScans (markedLate (lateInstant s p) k p)) := by
  have hpit : (answeredLate (lateInstant s p) p).pit = s.pit := (answeredLate_recedes _ p).pit
  have hropes : (markedLate (lateInstant s p) k p).ropes = s.ropes := (markedLate_stays _ k p).ropes
  have hp' : pitch (answeredLate (lateInstant s p) p) k = some p := by
    rw [pitch, hpit]
    exact hp
  refine (exec_lateReleaseExpiry_ok hon hp hstr hlate hplace).trans ?_
  dsimp only
  rw [markedLate, releaseLane_heldBack (q := { p with late := true, kept := framesOf (lateInstant s p) p })
    (heldBack_congr hpit hb) hp' rfl rfl rfl, ← markedLate, wakeHeld_none fun q => by rw [rope, hropes]; exact hw q]

theorem exec_stragglerBudgetExpiry_ok {s : State} {k : Nat} {p : Pitch} (hon : on s = true) (hp : pitch s k = some p)
    (ht : p.ticketed = true) (hstr : p.straggler = false) (hplace : p.place ≠ .done) : exec (.stragglerBudgetExpiry k) s =
    .next (leadEvent (bump (setPitch (advanceTo s (p.dispatchAt + nsU (obj s 0x4000 4))) k { p with straggler := true }) 0x4000 0x0D)
      p.cluster evStraggler) := by
  change execStragglerBudgetExpiry k s = _
  rw [execStragglerBudgetExpiry, live_on hon, hp]
  dsimp only
  rw [if_pos (by rw [ht, hstr, Bool.true_and, Bool.not_false, Bool.true_and, bne_iff_ne]; exact hplace)]

/-- The event of a lead rope that does not wait for events joins its pending word. -/
theorem rope_leadEvent {s : State} {c q : Nat} {b : BitVec 64} (hq : leadOf s c = some q)
    (h : ∀ d m u, (rope s q).st ≠ .waiting (.event d m u)) :
    rope (leadEvent s c b) q = { rope s q with pending := (rope s q).pending ||| b } := by
  rw [leadEvent, hq]
  exact rope_setEvent_joins fun d m u hst => absurd hst (h d m u)

theorem dpU_pos (s : State) : 0 < dpU s := by
  unfold dpU
  split <;> decide

/-- The next dp-cycle starts after now, within the length of one. -/
theorem cycStart_next {s : State} (h : s.time.cycAt ≤ s.time.now) :
    s.time.now < cycStart s (cyc s + 1) ∧ cycStart s (cyc s + 1) ≤ s.time.now + dpU s := by
  have hpos := dpU_pos s
  have hdiv := Nat.div_add_mod (s.time.now - s.time.cycAt) (dpU s)
  have hmod := Nat.mod_lt (s.time.now - s.time.cycAt) hpos
  have hat : s.time.cycAt + (s.time.now - s.time.cycAt) = s.time.now := Nat.add_sub_of_le h
  rw [cycStart, cyc, Nat.add_assoc, Nat.add_sub_cancel_left, Nat.add_one_mul, Nat.mul_comm _ (dpU s)]
  generalize dpU s * ((s.time.now - s.time.cycAt) / dpU s) = whole at hdiv ⊢
  generalize (s.time.now - s.time.cycAt) % dpU s = part at hdiv hmod
  generalize s.time.now - s.time.cycAt = past at hdiv hat
  omega

/-- The late mark falls after the deadline, within a dp-cycle. -/
theorem lateInstant_now {s : State} {p : Pitch} (h : s.time.cycAt ≤ s.time.now) :
    let m := max s.time.now (p.dispatchAt + 90 * obj s 0x4000 4 + 90 * obj s 0x4000 5)
    m < (lateInstant s p).time.now ∧ (lateInstant s p).time.now ≤ m + dpU s := by
  intro m
  let u := advanceTo s (p.dispatchAt + nsU (obj s 0x4000 4) + nsU (obj s 0x4000 5))
  have hu : u.time.now = m := by
    rw [advanceTo_now, nsU, nsU, Nat.mul_comm _ 90, Nat.mul_comm _ 90]
  have hat : u.time.cycAt ≤ u.time.now := by
    rw [hu]
    exact h.trans (Nat.le_max_left _ _)
  have hdp : dpU u = dpU s := rfl
  obtain ⟨hlo, hhi⟩ := cycStart_next hat
  have hnow : (lateInstant s p).time.now = max u.time.now (cycStart u (cyc u + 1)) := advanceTo_now _ _
  rw [hnow, ← hu, ← hdp]
  omega

/-- Settles O24: the straggler event, then the late mark behind a turn that has not come. -/
theorem stragglersAreToldAndThenLate : Obligations.StragglersAreToldAndThenLate := by
  intro s k p hon hp ht hplace budget
  refine ⟨fun hstr => ⟨_, exec_stragglerBudgetExpiry_ok hon hp ht hstr hplace, ?_⟩,
    fun hstr hlate hb hw hcyc => ⟨_, exec_lateReleaseExpiry_heldBack hon hp hstr hlate hplace hb hw, ?_⟩⟩
  · obtain ⟨ropes, cores, ho⟩ := leadEvent_only (bump (setPitch (advanceTo s (p.dispatchAt + nsU (obj s 0x4000 4))) k
      { p with straggler := true }) 0x4000 0x0D) p.cluster evStraggler
    refine ⟨?_, ?_, ?_, ?_, fun q hq hwait => ?_⟩
    · rw [ho]
      exact (advanceTo_now s _).trans (by rw [nsU, Nat.mul_comm])
    · rw [ho]
      exact pitch_setPitch_same _ _ _
    · rw [ho]
      exact obj_bump_same _ _ _
    · rw [ho]
      rfl
    · exact rope_leadEvent hq hwait
  · have ha := answeredLate_recedes (lateInstant s p) p
    have hend : Recedes (markedLate (lateInstant s p) k p) (finishScans (markedLate (lateInstant s p) k p)) :=
      finishScans_recedes (Recedes.refl _)
    have hstays : Stays (lateInstant s p) (finishScans (markedLate (lateInstant s p) k p)) :=
      finishScans_stays (markedLate_stays _ _ _)
    refine ⟨?_, hstays.ropes, ?_, fun f hf => hend.frames f (foldl_answerFrame_gone _ _ f hf), ?_, ?_⟩
    · have hnow := lateInstant_now (p := p) hcyc
      rw [hstays.time]
      exact hnow
    · have hkept : framesOf (lateInstant s p) p = p.frames.map (frameOf s) := by
        rw [framesOf, hlate]
        rfl
      rw [pitch, hend.pit]
      refine (pitch_setPitch_same _ k _).trans ?_
      rw [hkept, hstr]
    · rw [hend.obj _ _ rfl]
      exact (ha.obj _ _ rfl).trans ((obj_bumpBy_ne _ _ (by decide) (by decide) (.inr (by decide))).trans (obj_bump_same _ _ _))
    · rw [hend.obj _ _ rfl]
      refine (ha.obj _ _ rfl).trans ((obj_bumpBy_same _ _ _ _).trans ?_)
      rw [obj_bump_ne _ (by decide) (by decide) (.inr (by decide))]
      rfl

end Sys2Proof.Proofs

/-! Pitches close and start on ropes (R107 to R118). -/

namespace Sys2Proof.Proofs

open Sys2Proof.Machine Sys2Proof.Claim

/-! ### The choice of a pitch (R113) -/

theorem chooseClass_mem {last : Nat} {cs : List Nat} {k : Nat} (h : chooseClass last cs = some k) : k ∈ cs := by
  unfold chooseClass at h
  split at h
  · next h7 => exact Option.some.inj h ▸ List.contains_iff_mem.mp h7
  · split at h
    · next h6 => exact Option.some.inj h ▸ List.contains_iff_mem.mp h6
    · exact List.contains_iff_mem.mp (List.find?_some h)

theorem chooseClass_seven {last : Nat} {cs : List Nat} (h : 7 ∈ cs) : chooseClass last cs = some 7 :=
  if_pos (List.contains_iff_mem.mpr h)

theorem chooseClass_six {last : Nat} {cs : List Nat} (h7 : 7 ∉ cs) (h : 6 ∈ cs) : chooseClass last cs = some 6 := by
  rw [chooseClass, if_neg (by rwa [List.contains_iff_mem]), if_pos (List.contains_iff_mem.mpr h)]

theorem choosePitch_some {s : State} {c k t cls left : Nat} (h : choosePitch s c = some (k, t, cls, left)) :
    chooseClass (shed s c).lastClass ((eligible s c).map (·.2.2)) = some cls ∧ ∃ e ∈ eligible s c, e.1 = t ∧ e.2.1 = k := by
  unfold choosePitch at h
  dsimp only at h
  split at h
  · cases h
  · next k' hclass =>
    split at h
    · cases h
    · next t' had _ =>
      obtain ⟨e, he, heq⟩ := Option.map_eq_some_iff.mp h
      simp only [Prod.mk.injEq] at heq
      obtain ⟨rfl, rfl, rfl, rfl⟩ := heq
      exact ⟨hclass, e, List.mem_of_find?_eq_some he, by simpa using List.find?_some he, rfl⟩

/-! ### A pitch closes (R108, R109, R112) -/

theorem clusterFor_congr {s t : State} (ho : ∀ i, obj t i 1 = obj s i 1) (hs : t.sys = s.sys)
    (hm : t.pit.clusterMap = s.pit.clusterMap) (lane : Nat) : clusterFor t lane = clusterFor s lane := by
  have hc : Machine.clusters t = Machine.clusters s := by rw [Machine.clusters, hs]; rfl
  have hopen : openCores t = openCores s := by
    funext c
    simp only [openCores, fenced, ho]
  rw [clusterFor, mapEntry, hm, hc, hopen]
  rfl

theorem ingressDown_ropes (s : State) (lp cls n : Nat) : (ingressDown s lp cls n).ropes = s.ropes := by
  unfold ingressDown
  dsimp only
  split
  · split <;> rfl
  · rfl

theorem dropAtCol_ropes (s : State) (f : Nat) : (dropAtCol s f).ropes = s.ropes :=
  (retireFrame_stays (Stays.refl _)).ropes.trans (ingressDown_ropes _ _ _ _)

theorem lget_lset_same {α : Type} (l : List α) (i : Nat) (d : α) : lget (lset l i d) i d = d := by
  rw [lget, lset, List.getElem?_set]
  split <;> rename_i h
  · split <;> rfl
  · exact absurd rfl h

@[simp] theorem shed_setShed_same (s : State) (c : Nat) (x : Shed) : shed (setShed s c x) c = x := by simp [shed, setShed]

/-- A port without its open pitch of a class, where that is `k`. -/
def unopened (k : Nat) (cls : BitVec 3) (q : Port) : Port := { q with
  openPitch := if lget q.openPitch cls.toNat none = some k then lset q.openPitch cls.toNat none else q.openPitch }

/-- The port of a pitch has no open pitch of its class, and the pitch and its frames are counted. -/
def countClosed (s : State) (k ctr : Nat) (p : Pitch) : State :=
  bumpBy (bump (bump (modPort s p.lp (unopened k p.cls)) 0x4000 ctr) 0x4000 8) 0x4000 9 p.frames.length

theorem obj_countClosed (s : State) (k : Nat) (p : Pitch) {i a : Nat} (ha : a < 8) : obj (countClosed s k 0x0A p) i a = obj s i a := by
  rw [countClosed, obj_bumpBy_ne _ _ (by decide) (by omega) (.inr (by omega)),
    obj_bump_ne _ (by decide) (by omega) (.inr (by omega)), obj_bump_ne _ (by decide) (by omega) (.inr (by omega))]
  rfl

/-- A closed pitch joins its tenant's queue in a cluster. -/
def queuePitch (s : State) (k : Nat) (p : Pitch) (lane c : Nat) : State :=
  let s := setPitch s k { p with place := .queued, lane := BitVec.ofNat 16 lane, cluster := c }
  setShed s c { shed s c with queues := mset (shed s c).queues p.tid.toNat (mget (shed s c).queues p.tid.toNat [] ++ [k]) }

theorem obj_queuePitch (s : State) (k : Nat) (p : Pitch) (lane c i a : Nat) : obj (queuePitch s k p lane c) i a = obj s i a :=
  obj_congr rfl rfl i a

theorem queues_queuePitch (s : State) (k : Nat) (p : Pitch) (lane c : Nat) :
    mget (shed (queuePitch s k p lane c) c).queues p.tid.toNat [] = mget (shed s c).queues p.tid.toNat [] ++ [k] := by
  rw [queuePitch, shed_setShed_same]
  exact mget_mset_same _ _ _ _

theorem pitch_queuePitch (s : State) (k : Nat) (p : Pitch) (lane c : Nat) :
    pitch (queuePitch s k p lane c) k = some { p with place := .queued, lane := BitVec.ofNat 16 lane, cluster := c } :=
  pitch_setPitch_same s k _

theorem port_queuePitch_countClosed (s : State) (k : Nat) (p : Pitch) (lane c : Nat) :
    port (queuePitch (countClosed s k 0x0A p) k p lane c) p.lp = unopened k p.cls (port s p.lp) :=
  mget_mset_same s.ports p.lp (unopened k p.cls (port s p.lp)) {}

theorem queuePitch_countClosed_keeps (s : State) (k : Nat) (p : Pitch) (lane c : Nat) : let t := queuePitch (countClosed s k 0x0A p) k p lane c
    t.time = s.time ∧ t.ropes = s.ropes ∧ t.hbm = s.hbm := by
  simp [queuePitch, countClosed, setPitch, setShed, bump, bumpBy, putObj, setO, modPort]

theorem unopened_open {k : Nat} {cls : BitVec 3} {q : Port} (h : lget q.openPitch cls.toNat none = some k) :
    lget (unopened k cls q).openPitch cls.toNat none = none := by
  rw [unopened, if_pos h]
  exact lget_lset_same _ _ _

/-- What the closing counts. -/
theorem obj_countClosed_counts (s : State) (k : Nat) (p : Pitch) : let t := countClosed s k 0x0A p
    obj t 0x4000 0x0A = (obj s 0x4000 0x0A + 1) % 2 ^ 64 ∧ obj t 0x4000 8 = (obj s 0x4000 8 + 1) % 2 ^ 64 ∧
      obj t 0x4000 9 = (obj s 0x4000 9 + p.frames.length) % 2 ^ 64 := by
  have hport (i a : Nat) : obj (modPort s p.lp (unopened k p.cls)) i a = obj s i a := obj_congr rfl rfl i a
  intro t
  refine ⟨?_, ?_, ?_⟩
  · rw [show t = countClosed s k 0x0A p from rfl, countClosed, obj_bumpBy_ne _ _ (by decide) (by decide) (.inr (by decide)),
      obj_bump_ne _ (by decide) (by decide) (.inr (by decide)), obj_bump_same, hport]
  · rw [show t = countClosed s k 0x0A p from rfl, countClosed, obj_bumpBy_ne _ _ (by decide) (by decide) (.inr (by decide)),
      obj_bump_same, obj_bump_ne _ (by decide) (by decide) (.inr (by decide)), hport]
  · rw [show t = countClosed s k 0x0A p from rfl, countClosed, obj_bumpBy_same,
      obj_bump_ne _ (by decide) (by decide) (.inr (by decide)), obj_bump_ne _ (by decide) (by decide) (.inr (by decide)), hport]

theorem closePitch_eq {s : State} {k : Nat} {p : Pitch} (hp : pitch s k = some p) :
    closePitch s k 0x0A = match clusterFor s (laneNo s p.tid p.src p.ostream) with
      | none => discardPitch (countClosed s k 0x0A p) k
      | some c => queuePitch (countClosed s k 0x0A p) k p (laneNo s p.tid p.src p.ostream) c := by
  have hcluster : clusterFor (countClosed s k 0x0A p) = clusterFor s :=
    funext fun lane => clusterFor_congr (fun i => obj_countClosed s k p (by decide)) rfl rfl lane
  rw [closePitch, hp, ← hcluster]
  rfl

theorem exec_coalesceWindowExpiry_ok {s : State} {lp k : Nat} {cls : BitVec 3} {p : Pitch} (hon : on s = true)
    (hopen : lget (port s lp).openPitch cls.toNat none = some k) (hp : pitch s k = some p) :
    exec (.coalesceWindowExpiry lp cls) s =
      .next (closePitch (advanceTo s (cycStart s (p.openedAt + p.window))) k 0x0A) := by
  change execCoalesceWindowExpiry lp cls s = _
  rw [execCoalesceWindowExpiry, live_on hon, hopen]
  dsimp only
  rw [hp]

theorem discardPitch_gone {s : State} {k : Nat} {p : Pitch} (hp : pitch s k = some p) (ht : p.ticketed = false) :
    pitch (discardPitch s k) k = none ∧ (discardPitch s k).ropes = s.ropes := by
  rw [discardPitch, hp]
  dsimp only
  rw [if_neg (by rw [ht]; decide)]
  exact ⟨mfind_merase_same _ _, foldl_keeps State.ropes _ (fun s f => dropAtCol_ropes (bumpLp s (frameOf s f).lp 0x1E) f) p.frames s⟩

/-! ### A pitch starts on a rope (R114 to R118) -/

/-- What the ingress queues' return of cells may change: ports, what leaves, and counters. -/
def IngressOnly (s t : State) : Prop :=
  (∃ ports obj out, t = { s with ports := ports, obj := obj, out := out }) ∧ ∀ i, obj t i 1 = obj s i 1

theorem IngressOnly.refl (s : State) : IngressOnly s s := ⟨⟨_, _, _, rfl⟩, fun _ => rfl⟩

theorem IngressOnly.trans {s t u : State} (h : IngressOnly s t) (h' : IngressOnly t u) : IngressOnly s u := by
  obtain ⟨⟨_, _, _, rfl⟩, hobj⟩ := h
  obtain ⟨⟨_, _, _, rfl⟩, hobj'⟩ := h'
  exact ⟨⟨_, _, _, rfl⟩, fun i => (hobj' i).trans (hobj i)⟩

theorem sendRaw_ingressOnly (s : State) (lp : Nat) (bs : List Byte) : IngressOnly s (sendRaw s lp bs) := by
  refine ⟨⟨_, _, _, rfl⟩, fun i => ?_⟩
  have h : obj (bumpBy (bumpLp s lp 0x13) (0x2000 + lp) 0x15 bs.length) i 1 = obj s i 1 := by
    rw [obj_bumpBy_ne _ _ (by decide) (by decide) (.inr (by decide)), bumpLp,
      obj_bump_ne _ (by decide) (by decide) (.inr (by decide))]
  exact h

theorem sendPfc_ingressOnly (s : State) (lp cls n : Nat) : IngressOnly s (sendPfc s lp cls n) := by
  have h : IngressOnly s (bumpLp s lp 0x1F) :=
    ⟨⟨_, _, _, rfl⟩, fun i => obj_bump_ne s (by decide) (by decide) (.inr (by decide))⟩
  exact h.trans (sendRaw_ingressOnly _ _ _)

theorem setPort_ingressOnly (s : State) (lp : Nat) (q : Port) : IngressOnly s (setPort s lp q) := ⟨⟨_, _, _, rfl⟩, fun _ => rfl⟩

theorem ingressDown_ingressOnly (s : State) (lp cls n : Nat) : IngressOnly s (ingressDown s lp cls n) := by
  unfold ingressDown
  extract_lets u p v
  have hu : IngressOnly s u := setPort_ingressOnly s lp _
  have hv : IngressOnly s v := hu.trans (setPort_ingressOnly u lp _)
  split
  · split
    · exact hv.trans (sendPfc_ingressOnly _ _ _ _)
    · exact hv
  · exact hu

/-- The pitch that a dispatch gives its ticket. -/
def ticketed (s : State) (p : Pitch) : Pitch :=
  { p with ticketed := true, dispatchFt := ft s, dispatchAt := s.time.now, ticket := (laneOf s p.lane.toNat).next }

theorem firstDispatch_eq (s : State) (p : Pitch) : ∃ u, IngressOnly s u ∧ firstDispatch s p =
    (bumpTen (setLane u p.lane.toNat { laneOf s p.lane.toNat with next := (laneOf s p.lane.toNat).next + 1 }) p.tid.toNat 0x43,
      ticketed s p) := by
  have hfold := foldl_rel (R := IngressOnly) IngressOnly.refl IngressOnly.trans
    (f := fun s f => ingressDown s (frameOf s f).lp (hdrOf (frameOf s f)).cls.toNat (frameCells (frameOf s f)))
    (fun s f => ingressDown_ingressOnly s _ _ _) p.frames s
  refine ⟨_, hfold, ?_⟩
  obtain ⟨⟨ports, o, out, h⟩, -⟩ := hfold
  rw [firstDispatch]
  dsimp only
  rw [h]
  rfl

/-- The rope on which a pitch starts. -/
def startedRope (s : State) (k : Nat) (p : Pitch) (r : Nat) : Rope :=
  { startRope s (rope s r) (BitVec.ofNat 32 (obj s (0x4010 + ropeCluster r) 1)) 0
      [(1, 0x2000000#64), (26, 0x2000040#64), (29, BitVec.ofNat 64 p.frames.length)] with
    k := [], pitch := some k, task := none, window := windowCells s p, heads := (framesOf s p).map (·.bytes.length) }

/-- A rope and its core with the pitch that starts there. -/
def startedOn (u : State) (k r : Nat) (q : Pitch) : State :=
  modCore (setRope (setPitch u k { q with place := .running, rope := some r }) r
    (startedRope u k { q with place := .running, rope := some r } r)) (ropeCore r) (fun y => { y with inFlight := y.inFlight + 1 })

/-- The same, with the rope ready and the cluster's turn moved on. -/
def startedReady (u : State) (k r : Nat) (q : Pitch) : State :=
  makeReady (setShed (startedOn u k r q) (ropeCluster r)
    { shed (startedOn u k r q) (ropeCluster r) with lastCore := ropeCore r % 16 }) r

theorem startPitch_eq {s u : State} {k r : Nat} {p q : Pitch} (hq : (if p.ticketed then (s, p) else firstDispatch s p) = (u, q))
    (hk : (rope u r).kPend = []) : startPitch s k p r =
      startedReady u k r q := by
  have hsettle (x : Pitch) : kSettle (setPitch u k x) r = setPitch u k x := by
    rw [kSettle, show (rope (setPitch u k x) r).kPend = [] from hk]
    rfl
  rw [startPitch, hq]
  dsimp only
  rw [hsettle]
  rfl

/-- What a pitch's start reads and keeps of the state in which it has its ticket. -/
structure Ready (s u : State) : Prop where
  ropes : u.ropes = s.ropes
  cores : u.cores = s.cores
  clusters : u.clusters = s.clusters
  frames : u.frames = s.frames
  hbm : u.hbm = s.hbm
  obj : ∀ i, Machine.obj u i 1 = Machine.obj s i 1

theorem firstDispatch_ready (s : State) (p : Pitch) : ∃ u, firstDispatch s p = (u, ticketed s p) ∧ Ready s u ∧
    (laneOf u p.lane.toNat).next = (laneOf s p.lane.toNat).next + 1 := by
  obtain ⟨v, ⟨⟨ports, o, out, hv⟩, hobj⟩, heq⟩ := firstDispatch_eq s p
  refine ⟨_, heq, ⟨by rw [hv]; rfl, by rw [hv]; rfl, by rw [hv]; rfl, by rw [hv]; rfl, by rw [hv]; rfl, fun i => ?_⟩, ?_⟩
  · exact (obj_bump_ne _ (by decide) (by decide) (.inr (by decide))).trans (hobj i)
  · exact congrArg Lane.next (mget_mset_same v.pit.lanes p.lane.toNat _ {})

theorem core_makeReady_inFlight (s : State) (r k : Nat) :
    (Machine.core (makeReady s r) k).inFlight = (Machine.core s k).inFlight := by
  unfold makeReady
  dsimp only
  split
  · by_cases hk : k = ropeCore r
    · subst hk
      exact (congrArg Machine.Core.inFlight (core_setCore_same (modRope s r fun x => { x with st := .ready }) (ropeCore r) _)).trans rfl
    · exact congrArg Machine.Core.inFlight (core_setCore_ne (modRope s r fun x => { x with st := .ready }) _ (Ne.symm hk))
  · rfl

theorem startedReady_facts (u : State) (k r l : Nat) (q : Pitch) : let t := startedReady u k r q
    OtherRopesKept u t r ∧ t.hbm = u.hbm ∧ t.clusters = u.clusters ∧ t.frames = u.frames ∧
      pitch t k = some { q with place := .running, rope := some r } ∧ laneOf t l = laneOf u l ∧
      (Machine.core t (ropeCore r)).inFlight = (Machine.core u (ropeCore r)).inFlight + 1 ∧
      rope t r = { startedRope u k { q with place := .running, rope := some r } r with st := .ready } := by
  intro t
  obtain ⟨v, hv⟩ : ∃ v, v = setShed (startedOn u k r q) (ropeCluster r)
    { shed (startedOn u k r q) (ropeCluster r) with lastCore := ropeCore r % 16 } := ⟨_, rfl⟩
  have ht : t = makeReady v r := by rw [hv]; rfl
  obtain ⟨ropes, cores, hready⟩ := makeReady_only v r
  have hropes : v.ropes = mset u.ropes r (startedRope u k { q with place := .running, rope := some r } r) := by
    rw [hv]
    simp [startedOn, modCore, setRope]
  have hcores : v.cores = mset u.cores (ropeCore r) { Machine.core u (ropeCore r) with
      inFlight := (Machine.core u (ropeCore r)).inFlight + 1 } := by
    rw [hv]
    simp [startedOn, modCore, setCore, Machine.core]
  have hpitches : v.pit.pitches = mset u.pit.pitches k { q with place := .running, rope := some r } := by
    rw [hv]
    simp [startedOn, modCore, setShed, setPitch]
  have hlanes : v.pit.lanes = u.pit.lanes := by
    rw [hv]
    simp [startedOn, modCore, setShed, setPitch]
  have hrest : v.hbm = u.hbm ∧ v.clusters = u.clusters ∧ v.frames = u.frames := by
    rw [hv]
    simp [startedOn, modCore]
  obtain ⟨hhbm, hclusters, hframes⟩ := hrest
  clear_value t
  subst ht
  refine ⟨otherRopesKept_makeReady fun j hj => ?_, by rw [hready]; exact hhbm, by rw [hready]; exact hclusters,
    by rw [hready]; exact hframes, ?_, ?_, ?_, ?_⟩
  · rw [rope, hropes, mget_mset_ne _ _ _ hj.symm]
    rfl
  · rw [hready, pitch]
    exact hpitches ▸ mfind_mset_same _ _ _
  · rw [hready, laneOf]
    exact hlanes ▸ rfl
  · rw [core_makeReady_inFlight, Machine.core, hcores, mget_mset_same]
  · rw [rope_makeReady_same, rope, hropes, mget_mset_same]

/-- Every part of a pitch's start (R115 to R118, R130). -/
theorem startPitch_starts {s : State} {k r : Nat} {p : Pitch} (hk : (rope s r).kPend = []) :
    let t := startPitch s k p r
    let d : Pitch := if p.ticketed then p else ticketed s p
    OtherRopesKept s t r ∧ t.hbm = s.hbm ∧ t.clusters = s.clusters ∧ t.frames = s.frames ∧
      pitch t k = some { d with place := .running, rope := some r } ∧
      (laneOf t p.lane.toNat).next = (laneOf s p.lane.toNat).next + (if p.ticketed then 0 else 1) ∧
      (Machine.core t (ropeCore r)).inFlight = (Machine.core s (ropeCore r)).inFlight + 1 ∧
      ∃ u, Ready s u ∧ rope t r = { startedRope u k { d with place := .running, rope := some r } r with st := .ready } := by
  intro t d
  obtain ⟨u, hq, hu, hnext⟩ : ∃ u, (if p.ticketed then (s, p) else firstDispatch s p) = (u, d) ∧ Ready s u ∧
      (laneOf u p.lane.toNat).next = (laneOf s p.lane.toNat).next + (if p.ticketed then 0 else 1) := by
    by_cases ht : p.ticketed = true
    · exact ⟨s, by simp only [d, if_pos ht], ⟨rfl, rfl, rfl, rfl, rfl, fun _ => rfl⟩, by rw [if_pos ht]; exact (BitVec.add_zero _).symm⟩
    · obtain ⟨u, h, hr, hn⟩ := firstDispatch_ready s p
      exact ⟨u, by simp only [d, if_neg ht, h], hr, by rw [if_neg ht]; exact hn⟩
  have hrope (q : Nat) : rope u q = rope s q := by rw [rope, hu.ropes]; rfl
  have hstart : t = _ := startPitch_eq (k := k) hq (by rw [hrope]; exact hk)
  obtain ⟨hothers, hhbm, hclusters, hframes, hpitch, hlane, hcore, hr⟩ := startedReady_facts u k r p.lane.toNat d
  have hcoreAt : Machine.core u (ropeCore r) = Machine.core s (ropeCore r) := by rw [Machine.core, hu.cores]; rfl
  rw [hstart]
  exact ⟨fun j hj => (hothers j hj).trans (hrope j), hhbm.trans hu.hbm, hclusters.trans hu.clusters, hframes.trans hu.frames, hpitch,
    (congrArg Lane.next hlane).trans hnext, hcore.trans (by rw [hcoreAt]), u, hu, hr⟩

theorem takeToken_only (s : State) (c t : Nat) : ∃ sh, takeToken s c t = { s with pit := { s.pit with shed := sh } } := by
  unfold takeToken
  split
  · exact ⟨_, rfl⟩
  · exact ⟨_, rfl⟩

/-- A dispatch starts the pitch in a state whose queues alone have changed. -/
theorem exec_pitchDispatch_starts {s : State} {c : BitVec 4} {k j r : Nat} {p : Pitch} (hon : on s = true)
    (hdoze : (cluster s c.toNat).doze = false) (hheld : heldPitches s < 4096) (hp : pitch s k = some p)
    (hr : pitchRope s j = some r)
    (hchoice : ((shed s c.toNat).moved = [] ∧ (∃ t cls left, choosePitch s c.toNat = some (k, t, cls, left)) ∧
        chooseCore s c.toNat none = some j) ∨
      ∃ ks, (shed s c.toNat).moved = k :: ks ∧ chooseCore s c.toNat (p.firstFault.map (fun f => ropeCore f.1)) = some j) :
    ∃ sh, exec (.pitchDispatch c) s = .next (startPitch { s with pit := { s.pit with shed := sh } } k p r) := by
  change ∃ sh, execPitchDispatch c s = _
  have hgo : ¬(!on s || (cluster s c.toNat).doze) = true := by rw [hon, hdoze]; decide
  have hroom : ¬decide (4096 ≤ heldPitches s) = true := by rw [decide_eq_true_eq]; omega
  rw [execPitchDispatch]
  dsimp only
  rw [if_neg hgo]
  rcases hchoice with ⟨hmoved, ⟨t, cls, left, hpitch⟩, hcore⟩ | ⟨ks, hmoved, hcore⟩
  · obtain ⟨sh, htoken⟩ := takeToken_only s c.toNat t
    rw [hmoved]
    dsimp only
    rw [hpitch, hcore]
    dsimp only
    rw [if_neg hroom, hp, hr]
    dsimp only
    rw [htoken]
    exact ⟨_, rfl⟩
  · rw [hmoved]
    dsimp only
    rw [hp]
    dsimp only
    rw [hcore]
    dsimp only
    rw [if_neg hroom, hr]
    exact ⟨_, rfl⟩

/-- The registers with which a pitch starts. -/
theorem getW_startedRope (s : State) (k : Nat) (p : Pitch) (r : Nat) (d : BitVec 5) : getW (startedRope s k p r) d =
    if d = 1 then 0x2000000 else if d = 26 then 0x2000040 else if d = 29 then BitVec.ofNat 64 p.frames.length else 0 := by
  have hd (a : BitVec 5) : a.toNat = d.toNat ↔ d = a := by rw [BitVec.toNat_inj, eq_comm]
  have h1 := hd 1
  have h26 := hd 26
  have h29 := hd 29
  by_cases h0 : d = 0
  · subst h0
    rfl
  · rw [getW, if_neg h0, show (startedRope s k p r).w = [(1, 0x2000000#64), (26, 0x2000040#64), (29, BitVec.ofNat 64 p.frames.length)] from rfl]
    simp only [mget, mfind, show (1 : Nat) = (1 : BitVec 5).toNat from rfl, show (26 : Nat) = (26 : BitVec 5).toNat from rfl,
      show (29 : Nat) = (29 : BitVec 5).toNat from rfl, hd]
    split
    · rfl
    · split
      · rfl
      · split <;> rfl

/-- Settles O23: the open pitch closes or is discarded; the dispatch by the rope that starts; the choice by its classes. -/
theorem pitchesCloseAndStartOnRopes : Obligations.PitchesCloseAndStartOnRopes := by
  refine ⟨?_, ?_, ?_⟩
  · intro s lp cls k p hon hopen hp hlp hcls lane
    subst hlp hcls
    obtain ⟨u, hu⟩ : ∃ u, u = advanceTo s (cycStart s (p.openedAt + p.window)) := ⟨_, rfl⟩
    have hexec := exec_coalesceWindowExpiry_ok hon hopen hp
    rw [← hu] at hexec
    have hp' : pitch u k = some p := by rw [hu]; exact hp
    have hlane : clusterFor u (laneNo u p.tid p.src p.ostream) = clusterFor s lane := by rw [hu]; rfl
    have hlane' : laneNo u p.tid p.src p.ostream = lane := by rw [hu]; rfl
    have hopen' : lget (port u p.lp).openPitch p.cls.toNat none = some k := by rw [hu]; exact hopen
    have hnow : u.time.now = max s.time.now (cycStart s (p.openedAt + p.window)) := by rw [hu]; exact advanceTo_now _ _
    have hropes : u.ropes = s.ropes := by rw [hu]; rfl
    have hhbm : u.hbm = s.hbm := by rw [hu]; rfl
    have hobj (i a : Nat) : obj u i a = obj s i a := by rw [hu]; rfl
    have hshed : shed u = shed s := by rw [hu]; rfl
    rw [closePitch_eq hp', hlane, hlane'] at hexec
    refine ⟨fun c hc => ⟨_, by rw [hexec, hc], ?_⟩, fun hc ht => ⟨_, by rw [hexec, hc], ?_⟩⟩
    · obtain ⟨htime, hr, hh⟩ := queuePitch_countClosed_keeps u k p lane c
      obtain ⟨hwindow, hpitches, hframes⟩ := obj_countClosed_counts u k p
      rw [hobj] at hwindow hpitches hframes
      refine ⟨by rw [htime, hnow], hr.trans hropes, hh.trans hhbm, pitch_queuePitch _ _ _ _ _, ?_, ?_,
        (obj_queuePitch _ _ _ _ _ _ _).trans hwindow, (obj_queuePitch _ _ _ _ _ _ _).trans hpitches,
        (obj_queuePitch _ _ _ _ _ _ _).trans hframes⟩
      · rw [queues_queuePitch, ← hshed]
        rfl
      · rw [port_queuePitch_countClosed]
        exact unopened_open hopen'
    · obtain ⟨hgone, hr⟩ := discardPitch_gone (s := countClosed u k 0x0A p) hp' ht
      exact ⟨hgone, hr.trans hropes⟩
  · intro s c k j r p n d hon hdoze hheld hp hr hcluster hk hlate hchoice
    obtain ⟨sh, hexec⟩ := exec_pitchDispatch_starts hon hdoze hheld hp hr hchoice
    obtain ⟨hothers, hhbm, hclusters, hframes, hpitch, hlane, hcore, u, hu, hrope⟩ :=
      startPitch_starts (s := { s with pit := { s.pit with shed := sh } }) (k := k) (p := p) hk
    refine ⟨_, hexec, hothers, hhbm, hclusters, hframes, hpitch, hlane, hcore, ?_⟩
    obtain ⟨q, hq, hframesq, hlateq⟩ : ∃ q : Pitch, (rope (startPitch { s with pit := { s.pit with shed := sh } } k p r) r =
        { startedRope u k q r with st := .ready }) ∧ q.frames = p.frames ∧ q.late = false := by
      refine ⟨_, hrope, ?_, ?_⟩
      · dsimp only
        split <;> rfl
      · dsimp only
        split <;> exact hlate
    rw [hq]
    refine ⟨rfl, rfl, rfl, ?_, rfl, rfl, rfl, rfl, rfl, rfl, rfl, ?_, fun d => ?_⟩
    · exact congrArg (BitVec.ofNat 32) ((hu.obj _).trans (by rw [hcluster]; rfl))
    · have hframe : frameOf u = frameOf s := by
        funext f
        rw [frameOf, hu.frames]
        rfl
      change (framesOf u q).map (·.bytes.length) = _
      rw [framesOf, hlateq, hframesq, hframe]
      exact List.map_map
    · exact (getW_startedRope u k q r d).trans (by rw [hframesq])
  · intro s c k t cls left h
    obtain ⟨hclass, hmem⟩ := choosePitch_some h
    refine ⟨hmem, ?_, ?_, ?_⟩
    · obtain ⟨e, he, hcls⟩ := List.mem_map.mp (chooseClass_mem hclass)
      exact ⟨e, he, hcls⟩
    · rintro ⟨e, he, h7⟩
      rw [chooseClass_seven (List.mem_map.mpr ⟨e, he, h7⟩)] at hclass
      exact (Option.some.inj hclass).symm
    · rintro hno ⟨e, he, h6⟩
      have hno7 : 7 ∉ (eligible s c).map (·.2.2) := by
        intro hmem
        obtain ⟨e, he, h7⟩ := List.mem_map.mp hmem
        exact hno e he h7
      rw [chooseClass_six hno7 (List.mem_map.mpr ⟨e, he, h6⟩)] at hclass
      exact (Option.some.inj hclass).symm

end Sys2Proof.Proofs

/-! A parked rope that is freed and the ring of the trace (R177, R189, R225). -/

namespace Sys2Proof.Proofs

open Sys2Proof.Machine Sys2Proof.Claim

/-- Rope 6 is parked and waits on a lock that rope 5 holds for task 1, whose effective priority comes from it; the trace of the
cluster is on, and the HBM takes its records. -/
def tracedWaiter : State := { State.reset with
  sys := { phase := .run, faultN := true }
  obj := [(key 0x4050 2, 1)]
  ropes := [(5, { st := .ready, task := some 1 }), (6, { st := .parked })]
  clusters := [(0, { locks := [(0, { owner := some 5, waiters := [6] })], boost := [(5, 3)]
                     slots := [(1, { state := .run, eff := 3, rope := some 5 })] })]
  hbm := { State.reset.hbm with stk := [(0, { state := 2 }), (1, { state := 2 }), (2, { state := 2 }), (3, { state := 2 })] } }

/-- Freed, rope 6 leaves the lock, the priority of task 1 falls, and the record of that is written to the ring. -/
theorem hbm_freeParked_tracedWaiter : (freeParked tracedWaiter 6).hbm.mem ≠ tracedWaiter.hbm.mem := by decide +kernel

/-- Refutes O25: freeing a parked rope that waits on a lock may write a trace record to the HBM. -/
theorem not_ropesParkResumeAndAreFreed : ¬Obligations.RopesParkResumeAndAreFreed := by
  unfold Obligations.RopesParkResumeAndAreFreed
  rintro ⟨h, -⟩
  obtain ⟨-, -, -, -, hparked⟩ := h tracedWaiter 0 6 (by decide)
  obtain ⟨-, -, hfree⟩ := hparked rfl
  obtain ⟨t, hexec, -, hrest, -⟩ := hfree rfl
  obtain ⟨-, -, -, -, -, -, -, -, -, -, -, -, hhbm, -⟩ := hrest
  have hstep : exec (.freeRope 0 6) tracedWaiter = .next (freeParked tracedWaiter 6) := rfl
  obtain rfl := Host.Outcome.next.inj (hstep.symm.trans hexec)
  exact hbm_freeParked_tracedWaiter (congrArg HbmSt.mem hhbm)

end Sys2Proof.Proofs

/-! A change of priority and a slot that is free (R189, R211). -/

namespace Sys2Proof.Proofs

open Sys2Proof.Machine Sys2Proof.Claim

/-- Rope 5 runs task 1, whose slot is free and still lists a base priority; a change of rope 5's priority is on its way. -/
def emptyTask : State := { State.reset with
  sys := { phase := .run, faultN := true }
  ropes := [(5, { st := .ready, task := some 1 })]
  clusters := [(0, { boost := [(5, 7)], raises := [(5, 0)], slots := [(1, { state := .free, base := 5 })] })] }

/-- The report of the new priority stores the free slot, which takes its base priority with it. -/
theorem rank_after_raise_emptyTask : (match exec (.priorityRaisePropagate 0) emptyTask with
    | .next t => rankOf t 5 != max (basePri emptyTask 5) (waiterRank emptyTask 5)
    | _ => false) = true := by decide +kernel

/-- Refutes O27: the slot of the rope's task may be free, and then the base priority goes with its report. -/
theorem not_locksPassToTheBestWaiter : ¬Obligations.LocksPassToTheBestWaiter := by
  unfold Obligations.LocksPassToTheBestWaiter
  rintro ⟨-, -, h⟩
  obtain ⟨t, hexec, -, hrank, -⟩ := h emptyTask 0 5 0 [] (by decide) rfl rfl
  have hne := rank_after_raise_emptyTask
  rw [hexec] at hne
  exact bne_iff_ne.mp hne hrank

end Sys2Proof.Proofs

/-! The scheduler: its trace, its reports of priority, its commands and its ticks (R211 to R225). -/

namespace Sys2Proof.Proofs

open Sys2Proof.Machine Sys2Proof.Claim

/-! ### What the trace may change (R225) -/

/-- A cluster apart from its trace. -/
def untraced (y : Cluster) : Cluster := { y with traceBuf := [], traceSeq := 0, traceLost := 0 }

/-- What a record of the trace leaves: identity, time, ropes, every cluster apart from its trace, and the objects of subindex 2. -/
structure Traced (s₀ s : State) : Prop where
  sys : s.sys = s₀.sys
  time : s.time = s₀.time
  ropes : s.ropes = s₀.ropes
  cluster : ∀ c, untraced (Machine.cluster s c) = untraced (Machine.cluster s₀ c)
  obj : ∀ i, Machine.obj s i 2 = Machine.obj s₀ i 2

/-- As `Traced`, of a state that comes with something else. -/
def PairTraced {α : Type} (s₀ : State) (p : State × α) : Prop := Traced s₀ p.1

section

variable {α β : Type} {s₀ s : State}

theorem Traced.refl (s : State) : Traced s s := ⟨rfl, rfl, rfl, fun _ => rfl, fun _ => rfl⟩

theorem Traced.trans {r t : State} (h : Traced r s) (h' : Traced s t) : Traced r t :=
  ⟨h'.sys.trans h.sys, h'.time.trans h.time, h'.ropes.trans h.ropes, fun c => (h'.cluster c).trans (h.cluster c),
    fun i => (h'.obj i).trans (h.obj i)⟩

/-- An update of other parts of the state. -/
theorem Traced.update {pending : List Instr} {free : Nat} {out : List Out} {answer : Answer} {latched stored : Map Nat}
    {dict : DictSt} {ports : Map Port} {xport : Xport} {frames : Map Frame} {nextFrame nextOut : Nat} {col : ColSt} {tbl : TableSt}
    {pit : PitchSt} {cores : Map Machine.Core} {flights : List Flight} {xlat : XlatSt} {scree : ScreeSt} {trav : TravSt} {tm : TmSt}
    {hbm : HbmSt} {plan : PlanSt} {pwr : PwrSt} {rcv : RecSt} {cairn : CairnSt} {dbg : DebugSt} (h : Traced s₀ s) :
    Traced s₀ ⟨pending, free, out, answer, s.sys, s.time, s.obj, latched, stored, dict, ports, xport, frames, nextFrame, nextOut,
      col, tbl, pit, s.ropes, cores, s.clusters, flights, xlat, scree, trav, tm, hbm, plan, pwr, rcv, cairn, dbg⟩ :=
  ⟨h.sys, h.time, h.ropes, h.cluster, h.obj⟩

theorem PairTraced.mk {x : α} (h : Traced s₀ s) : PairTraced s₀ (s, x) := h
theorem PairTraced.fst {p : State × α} (h : PairTraced s₀ p) : Traced s₀ p.1 := h
theorem PairTraced.of_eq {p : State × α} {x : α} (h : PairTraced s₀ p) (e : p = (s, x)) : Traced s₀ s := by
  rw [e] at h; exact h

theorem Traced.foldl {f : State → β → State} {l : List β} (hf : ∀ s x, Traced s₀ s → Traced s₀ (f s x)) (h : Traced s₀ s) :
    Traced s₀ (l.foldl f s) := by
  induction l generalizing s with
  | nil => exact h
  | cons x l ih => exact ih (hf s x h)

theorem putObj_traced {i a v : Nat} (h : Traced s₀ s) (ha : a < 256) (h2 : a ≠ 2) : Traced s₀ (putObj s i a v) :=
  ⟨h.sys, h.time, h.ropes, h.cluster, fun j => (obj_putObj_ne s v ha (by decide) (.inr h2)).trans (h.obj j)⟩

theorem bumpBy_traced {i a n : Nat} (h : Traced s₀ s) (ha : a < 256) (h2 : a ≠ 2) : Traced s₀ (bumpBy s i a n) := putObj_traced h ha h2

theorem bump_traced {i a : Nat} (h : Traced s₀ s) (ha : a < 256) (h2 : a ≠ 2) : Traced s₀ (bump s i a) := putObj_traced h ha h2

/-- What is true of a cluster's old state and of its update is true of every cluster. -/
theorem cluster_modCluster (s : State) (c : Nat) (f : Cluster → Cluster) (d : Nat) :
    Machine.cluster (modCluster s c f) d = if d = c then f (Machine.cluster s c) else Machine.cluster s d := by
  split
  · next e => rw [e, modCluster, cluster_setCluster_same]
  · next e => rw [modCluster, cluster_setCluster_ne _ _ (Ne.symm e)]

theorem modCluster_traced {c : Nat} {f : Cluster → Cluster} (h : Traced s₀ s) (hf : ∀ y, untraced (f y) = untraced y) :
    Traced s₀ (modCluster s c f) := by
  refine ⟨h.sys, h.time, h.ropes, fun d => ?_, h.obj⟩
  rw [cluster_modCluster]
  split
  · next e => rw [hf, e, h.cluster]
  · exact h.cluster d

end

/-! #### The operations, one by one -/

theorem setPch_traced {s₀ s : State} {k : Nat} {x : PChan} (h : Traced s₀ s) : Traced s₀ (setPch s k x) := by
  unfold setPch
  exact Traced.update h

theorem openRowOf_traced {s₀ s : State} {pc bank row : Nat} (h : Traced s₀ s) : Traced s₀ (openRowOf s pc bank row) := by
  unfold openRowOf
  extract_lets p1
  exact setPch_traced h

theorem countChannel_traced {s₀ s : State} {pc k row : Nat} (h : Traced s₀ s) : Traced s₀ (countChannel s pc k row) := by
  unfold countChannel
  extract_lets ch1 k1 l1 above1 l2 src1 s1
  have h1 : Traced s₀ s1 := Traced.update h
  split
  · exact bumpBy_traced h1 (by decide) (by decide)
  · exact h1

theorem activate_traced {s₀ s : State} {pc bank row : Nat} {cls : ReqClass} {addr : Nat} {read : Option HbmOutcome}
    (h : Traced s₀ s) :
    PairTraced s₀ (activate s pc bank row cls addr read) := by
  unfold activate
  extract_lets p1 k1
  split
  · exact PairTraced.mk h
  · split
    · exact PairTraced.mk (openRowOf_traced (countChannel_traced h))
    · split
      · exact PairTraced.mk (setPch_traced (bump_traced h (by decide) (by decide)))
      · exact PairTraced.mk (openRowOf_traced (setPch_traced h))

theorem countWrite_traced {s₀ s : State} {cls : ReqClass} {a n : Nat} (h : Traced s₀ s) : Traced s₀ (countWrite s cls a n) := by
  unfold countWrite
  refine Traced.foldl ?_ h
  intro s1 x1 h1
  extract_lets l1 lo1 hi1
  split
  · split
    · exact PairTraced.fst (activate_traced (bumpBy_traced h1 (by decide) (by decide)))
  · exact h1

theorem clearMedia_traced {s₀ s : State} {a n : Nat} (h : Traced s₀ s) : Traced s₀ (clearMedia s a n) := by
  unfold clearMedia
  extract_lets full1 cov1 src1
  exact Traced.update h

theorem hbmWrite_traced {s₀ s : State} {cls : ReqClass} {a : Nat} {bs : List Byte} (h : Traced s₀ s) :
    Traced s₀ (hbmWrite s cls a bs) := by
  unfold hbmWrite
  extract_lets s1 src1
  have h1 : Traced s₀ s1 := clearMedia_traced (countWrite_traced h)
  exact Traced.update h1

theorem cairnDrop_traced {s₀ s : State} {level : Nat} (h : Traced s₀ s) : Traced s₀ (cairnDrop s level) := by
  unfold cairnDrop
  exact bump_traced (Traced.update h) (by decide) (by decide)

theorem cairn_traced {s₀ s : State} {src code sev : Nat} {data : List Byte} (h : Traced s₀ s) :
    Traced s₀ (cairn s src code sev data) := by
  unfold cairn
  split
  · exact h
  · split
    · exact cairnDrop_traced h
    · split
      · exact Traced.update h
      · exact cairnDrop_traced h

theorem traceDrain_traced {s₀ s : State} {c n : Nat} (h : Traced s₀ s) : Traced s₀ (traceDrain s c n) := by
  induction n generalizing s with
  | zero => exact h
  | succ n ih =>
    unfold traceDrain
    dsimp only
    split
    · exact h
    · split
      · exact ih (modCluster_traced (putObj_traced (hbmWrite_traced h) (by decide) (by decide)) fun _ => rfl)
      · exact h

theorem trace_traced {s₀ s : State} {c kind n : Nat} {x : Slot} {rp reason : Nat} (h : Traced s₀ s) :
    Traced s₀ (trace s c kind n x rp reason) := by
  unfold trace
  split
  · exact h
  · extract_lets s1 cl1 b1 s2
    have h1 : Traced s₀ s1 := traceDrain_traced h
    have h2 : Traced s₀ s2 := modCluster_traced h1 (fun x1 => rfl)
    split
    · exact bump_traced (modCluster_traced h1 (fun x1 => rfl)) (by decide) (by decide)
    · exact traceDrain_traced h2

/-! ### What a change of priority may change (R189, R221) -/

/-- A cluster apart from its trace, its slots and what Belay holds of priorities. -/
def unranked (y : Cluster) : Cluster := { untraced y with boost := [], raises := [], slots := [], ready := [] }

/-- What a change of priority and its report leave. -/
structure Ranked (s₀ s : State) : Prop where
  sys : s.sys = s₀.sys
  time : s.time = s₀.time
  ropes : s.ropes = s₀.ropes
  cluster : ∀ c, unranked (Machine.cluster s c) = unranked (Machine.cluster s₀ c)
  obj : ∀ i, Machine.obj s i 2 = Machine.obj s₀ i 2

section

variable {s₀ s : State}

theorem Ranked.refl (s : State) : Ranked s s := ⟨rfl, rfl, rfl, fun _ => rfl, fun _ => rfl⟩

theorem Ranked.trans {r t : State} (h : Ranked r s) (h' : Ranked s t) : Ranked r t :=
  ⟨h'.sys.trans h.sys, h'.time.trans h.time, h'.ropes.trans h.ropes, fun c => (h'.cluster c).trans (h.cluster c),
    fun i => (h'.obj i).trans (h.obj i)⟩

/-- A cluster apart from its trace decides the cluster apart from more. -/
theorem unranked_untraced (y : Cluster) : unranked (untraced y) = unranked y := rfl

theorem Traced.ranked (h : Traced s₀ s) : Ranked s₀ s :=
  ⟨h.sys, h.time, h.ropes, fun c => by rw [← unranked_untraced, h.cluster, unranked_untraced], h.obj⟩

theorem bump_ranked {i a : Nat} (h : Ranked s₀ s) (ha : a < 256) (h2 : a ≠ 2) : Ranked s₀ (bump s i a) :=
  h.trans (bump_traced (Traced.refl s) ha h2).ranked

theorem modCluster_ranked {c : Nat} {f : Cluster → Cluster} (h : Ranked s₀ s) (hf : ∀ y, unranked (f y) = unranked y) :
    Ranked s₀ (modCluster s c f) := by
  refine ⟨h.sys, h.time, h.ropes, fun d => ?_, h.obj⟩
  rw [cluster_modCluster]
  split
  · next e => rw [hf, e, h.cluster]
  · exact h.cluster d

theorem trace_ranked {c kind n : Nat} {x : Slot} {rp reason : Nat} (h : Ranked s₀ s) :
    Ranked s₀ (trace s c kind n x rp reason) := h.trans (trace_traced (Traced.refl s)).ranked

end

theorem setSlot_ranked {s₀ s : State} {c n : Nat} {x : Slot} (h : Ranked s₀ s) : Ranked s₀ (setSlot s c n x) := by
  unfold setSlot
  exact modCluster_ranked h (fun x1 => rfl)

theorem readySlot_ranked {s₀ s : State} {c n reason : Nat} (h : Ranked s₀ s) : Ranked s₀ (readySlot s c n reason) := by
  unfold readySlot
  extract_lets src1 x1 s1 s2
  have h1 : Ranked s₀ s1 := setSlot_ranked h
  have h2 : Ranked s₀ s2 := modCluster_ranked h1 (fun x2 => rfl)
  exact trace_ranked h2

theorem unready_ranked {s₀ s : State} {c n : Nat} (h : Ranked s₀ s) : Ranked s₀ (unready s c n) := by
  unfold unready
  exact modCluster_ranked h (fun x1 => rfl)

theorem priReport_ranked {s₀ s : State} {r v : Nat} (h : Ranked s₀ s) : Ranked s₀ (priReport s r v) := by
  unfold priReport
  extract_lets c1 e1
  split
  · exact h
  · extract_lets x3 x4 s1 s2 s3
    have h1 : Ranked s₀ s1 := setSlot_ranked h
    have h2 : Ranked s₀ s2 := unready_ranked h1
    have h3 : Ranked s₀ s3 := by
      unfold s3
      split
      · exact modCluster_ranked h2 (fun x5 => rfl)
      · exact h1
    split
    · exact h
    · exact trace_ranked h3

theorem recompute_ranked {s₀ s : State} {r : Nat} {raise : Bool} (h : Ranked s₀ s) : Ranked s₀ (recompute s r raise) := by
  unfold recompute
  extract_lets c1 old1 w1 s1 new1 s2 s3
  have h1 : Ranked s₀ s1 := modCluster_ranked h (fun x1 => rfl)
  have h2 : Ranked s₀ s2 := by
    unfold s2
    split
    · exact bump_ranked h1 (by decide) (by decide)
    · exact h1
  have h3 : Ranked s₀ s3 := priReport_ranked h2
  split
  · exact h1
  · split
    · split
      · exact modCluster_ranked h3 (fun x6 => rfl)
      · exact h3
    · exact h3

theorem rankMoved_ranked {s₀ s : State} {r : Nat} (h : Ranked s₀ s) : Ranked s₀ (rankMoved s r) := by
  unfold rankMoved
  split
  · split
    · exact recompute_ranked h
    · exact h
  · exact h

end Sys2Proof.Proofs

/-! The commands of the task scheduler (R214 to R218, R223). -/

namespace Sys2Proof.Proofs

open Sys2Proof.Machine Sys2Proof.Claim

/-! ### Slots -/

theorem slots_congr {s t : State} (h : ∀ c, untraced (cluster t c) = untraced (cluster s c)) (c n : Nat) : slot t c n = slot s c n := by
  change mget (untraced (cluster t c)).slots n {} = mget (untraced (cluster s c)).slots n {}
  rw [h]

theorem slot_trace (s : State) (c kind m : Nat) (x : Slot) (rp reason d n : Nat) :
    slot (trace s c kind m x rp reason) d n = slot s d n := slots_congr (trace_traced (Traced.refl s)).cluster d n

theorem slot_setSlot_same (s : State) (c n : Nat) {x : Slot} (h : x.state ≠ .free) : slot (setSlot s c n x) c n = x := by
  rw [slot, setSlot, cluster_modCluster, if_pos rfl]
  dsimp only
  rw [if_neg h, mget_mset_same]

theorem slot_setSlot_free (s : State) (c n : Nat) {x : Slot} (h : x.state = .free) : slot (setSlot s c n x) c n = {} := by
  rw [slot, setSlot, cluster_modCluster, if_pos rfl]
  dsimp only
  rw [if_pos h, mget, mfind_merase_same]
  rfl

theorem slot_setSlot_ne (s : State) (c : Nat) {n m : Nat} (x : Slot) (h : n ≠ m) : slot (setSlot s c n x) c m = slot s c m := by
  rw [slot, setSlot, cluster_modCluster, if_pos rfl]
  dsimp only
  split
  · rw [mget, mfind_merase_ne _ h]
    rfl
  · exact mget_mset_ne _ _ _ h

/-- A change of a cluster's other parts. -/
theorem slot_modCluster (s : State) (c : Nat) {f : Cluster → Cluster} (hf : ∀ y, (f y).slots = y.slots) (d n : Nat) :
    slot (modCluster s c f) d n = slot s d n := by
  rw [slot, cluster_modCluster]
  split
  · next e => rw [hf, e]; rfl
  · rfl

/-- A slot made ready with a reason. -/
def readied (x : Slot) (reason : Nat) : Slot :=
  { x with state := .ready, reason := reason, rope := none, due := none, timedOut := none }

theorem slot_readySlot_same (s : State) (c n reason : Nat) : slot (readySlot s c n reason) c n = readied (slot s c n) reason := by
  refine (slot_trace _ _ _ _ _ _ _ _ _).trans ((slot_modCluster _ _ (by intro; rfl) _ _).trans ?_)
  exact slot_setSlot_same _ _ _ nofun

theorem slot_readySlot_ne (s : State) (c reason : Nat) {n m : Nat} (h : n ≠ m) : slot (readySlot s c n reason) c m = slot s c m := by
  refine (slot_trace _ _ _ _ _ _ _ _ _).trans ((slot_modCluster _ _ (by intro; rfl) _ _).trans ?_)
  exact slot_setSlot_ne _ _ _ h

theorem slot_unready (s : State) (c m d n : Nat) : slot (unready s c m) d n = slot s d n :=
  slot_modCluster _ _ (by intro; rfl) d n

theorem slot_bump (s : State) (i a d n : Nat) : slot (bump s i a) d n = slot s d n := rfl

theorem signalSlot_ranked {s₀ s : State} {c n k : Nat} (h : Ranked s₀ s) : Ranked s₀ (signalSlot s c n k) := by
  unfold signalSlot
  extract_lets x s1 y s2
  have h1 : Ranked s₀ s1 := by
    unfold s1
    split
    · exact bump_ranked h (by decide) (by decide)
    · exact h
  have h2 : Ranked s₀ s2 := setSlot_ranked h1
  split
  · exact readySlot_ranked h2
  · split
    · exact (setSlot_ranked h2).trans (bumpBy_traced (Traced.refl _) (by decide) (by decide)).ranked
    · exact h2

/-! ### The end of a task's slot -/

/-- What the report of a completion leaves: time, the commands that wait, and of each rope its staging registers and its task; a
rope that is free stays free, and one that is kept for no task is kept for none. -/
structure Reported (s₀ s : State) : Prop where
  time : s.time = s₀.time
  taskQ : ∀ c, (Machine.cluster s c).taskQ = (Machine.cluster s₀ c).taskQ
  stg : ∀ r, (rope s r).stg = (rope s₀ r).stg
  task : ∀ r, (rope s r).task = (rope s₀ r).task
  free : ∀ r, (rope s₀ r).st = .free → (rope s r).st = .free
  pinned : ∀ r, (rope s₀ r).pinned = none → (rope s r).pinned = none

theorem Reported.refl (s : State) : Reported s s := ⟨rfl, fun _ => rfl, fun _ => rfl, fun _ => rfl, fun _ h => h, fun _ h => h⟩

theorem Reported.trans {r s t : State} (h : Reported r s) (h' : Reported s t) : Reported r t :=
  ⟨h'.time.trans h.time, fun c => (h'.taskQ c).trans (h.taskQ c), fun r => (h'.stg r).trans (h.stg r),
    fun r => (h'.task r).trans (h.task r), fun r hr => h'.free r (h.free r hr), fun r hr => h'.pinned r (h.pinned r hr)⟩

theorem Ranked.rope {s t : State} (h : Ranked s t) (r : Nat) : rope t r = rope s r := by rw [Machine.rope, h.ropes]; rfl

theorem Ranked.taskQ {s t : State} (h : Ranked s t) (c : Nat) : (Machine.cluster t c).taskQ = (Machine.cluster s c).taskQ := by
  change (unranked (Machine.cluster t c)).taskQ = (unranked (Machine.cluster s c)).taskQ
  rw [h.cluster]

theorem Ranked.locks {s t : State} (h : Ranked s t) (c : Nat) : (Machine.cluster t c).locks = (Machine.cluster s c).locks := by
  change (unranked (Machine.cluster t c)).locks = (unranked (Machine.cluster s c)).locks
  rw [h.cluster]

theorem Ranked.reported {s t : State} (h : Ranked s t) : Reported s t :=
  ⟨h.time, h.taskQ, fun r => by rw [h.rope], fun r => by rw [h.rope],
    fun r hr => by rw [h.rope, hr], fun r hr => by rw [h.rope, hr]⟩

/-- A change of one rope that keeps its staging registers and its task, and leaves it free and unkept where it was. -/
theorem modRope_reported (s : State) (r : Nat) {f : Rope → Rope} (hstg : (f (rope s r)).stg = (rope s r).stg)
    (htask : (f (rope s r)).task = (rope s r).task) (hfree : (rope s r).st = .free → (f (rope s r)).st = .free)
    (hpin : (rope s r).pinned = none → (f (rope s r)).pinned = none) : Reported s (modRope s r f) := by
  have hself : rope (modRope s r f) r = f (rope s r) := rope_modRope_same s r f
  have hother {q : Nat} (h : q ≠ r) : rope (modRope s r f) q = rope s q := rope_modRope_ne s f (Ne.symm h)
  refine ⟨rfl, fun _ => rfl, fun q => ?_, fun q => ?_, fun q hq => ?_, fun q hq => ?_⟩ <;> by_cases h : q = r
  · rw [h, hself, hstg]
  · rw [hother h]
  · rw [h, hself, htask]
  · rw [hother h]
  · rw [h, hself]
    exact hfree (h ▸ hq)
  · rw [hother h, hq]
  · rw [h, hself]
    exact hpin (h ▸ hq)
  · rw [hother h, hq]

/-- A change of a cluster that keeps the commands that wait. -/
theorem modCluster_reported (s : State) (c : Nat) {f : Cluster → Cluster} (hf : ∀ y, (f y).taskQ = y.taskQ) :
    Reported s (modCluster s c f) := by
  refine ⟨rfl, fun d => ?_, fun _ => rfl, fun _ => rfl, fun _ h => h, fun _ h => h⟩
  rw [cluster_modCluster]
  split
  · next e => rw [hf, e]
  · rfl

theorem makeReady_stg (s : State) (r q : Nat) : (rope (makeReady s r) q).stg = (rope s q).stg := by
  rw [rope_makeReady]
  split
  · next e => rw [e]
  · rfl

/-- The parts of a rope that an instruction's end leaves. -/
theorem nextPc_keeps (x : Rope) : (nextPc x).stg = x.stg ∧ (nextPc x).task = x.task ∧ (nextPc x).st = x.st ∧
    (nextPc x).pinned = x.pinned := by
  have hset (v : Word) : setW x 29 v = { x with w := mset x.w (29 : BitVec 5).toNat v } := rfl
  unfold nextPc
  simp only [hset]
  split
  · split <;> exact ⟨rfl, rfl, rfl, rfl⟩
  · exact ⟨rfl, rfl, rfl, rfl⟩

theorem evwTake_keeps (x : Rope) (d : BitVec 5) (m : BitVec 64) (z : Bool) : (evwTake x d m z).stg = x.stg ∧
    (evwTake x d m z).task = x.task ∧ (evwTake x d m z).st = x.st ∧ (evwTake x d m z).pinned = x.pinned := by
  unfold evwTake setW
  dsimp only
  split <;> exact ⟨rfl, rfl, rfl, rfl⟩

theorem makeReady_reported {s : State} {r : Nat} (h : (rope s r).st ≠ .free) : Reported s (makeReady s r) := by
  have hr := rope_makeReady s r
  obtain ⟨ropes, cores, hready⟩ := makeReady_only s r
  refine ⟨by rw [hready], fun _ => by rw [hready]; rfl, fun q => ?_, fun q => ?_, fun q hq => ?_, fun q hq => ?_⟩ <;>
    rw [hr] <;> split
  · next e => rw [e]
  · rfl
  · next e => rw [e]
  · rfl
  · next e => exact absurd (e ▸ hq) h
  · exact hq
  · next e => exact e ▸ hq
  · exact hq

theorem rouse_reported {s u : State} {k : Nat} (h : Reported s u) : Reported s (rouse u k) :=
  ⟨h.time, h.taskQ, h.stg, h.task, h.free, h.pinned⟩

theorem setEvent_reported (s : State) (r : Nat) (b : BitVec 64) : Reported s (setEvent s r b) := by
  have hjoin : Reported s (rouse (modRope s r (fun x => { x with pending := x.pending ||| b })) (ropeCore r)) :=
    rouse_reported (modRope_reported s r (f := fun x => { x with pending := x.pending ||| b }) rfl rfl (fun h => h) (fun h => h))
  unfold setEvent
  dsimp only
  split
  · next d m u hst =>
    split
    · have htook := fun x : Rope => evwTake_keeps x d m false
      have hnext := fun x : Rope => nextPc_keeps (evwTake x d m false)
      have hwait : Reported _ _ := modRope_reported (rouse (modRope s r (fun x => { x with pending := x.pending ||| b })) (ropeCore r)) r
        (f := fun x => nextPc (evwTake x d m false)) ((hnext _).1.trans (htook _).1) ((hnext _).2.1.trans (htook _).2.1)
        (fun h => ((hnext _).2.2.1.trans (htook _).2.2.1).trans h) (fun h => ((hnext _).2.2.2.trans (htook _).2.2.2).trans h)
      refine (hjoin.trans hwait).trans (makeReady_reported ?_)
      rw [rope_modRope_same, (hnext _).2.2.1, (htook _).2.2.1, hst]
      exact nofun
    · exact hjoin
  · exact hjoin

theorem setEvent_slot (s : State) (r : Nat) (b : BitVec 64) (c n : Nat) : slot (setEvent s r b) c n = slot s c n := by
  obtain ⟨ropes, cores, h⟩ := setEvent_only s r b
  rw [h]
  rfl

/-- A write of the system port, performed or waiting. -/
theorem sysWrite_reported (s : State) (c : Nat) (w : SysWrite) :
    Reported s (sysWrite s c w) ∧ ∀ d n, slot (sysWrite s c w) d n = slot s d n := by
  have hqueue (u : State) (f : Cluster → Cluster) (hf : ∀ y, (f y).taskQ = y.taskQ) (hs : ∀ y, (f y).slots = y.slots) :
      Reported u (modCluster u c f) ∧ ∀ d n, slot (modCluster u c f) d n = slot u d n :=
    ⟨modCluster_reported u c hf, slot_modCluster u c hs⟩
  unfold sysWrite
  dsimp only
  split
  · exact hqueue _ _ (by intro; rfl) (by intro; rfl)
  · split
    · obtain ⟨h₁, h₂⟩ := hqueue (bump s (0x4030 + c) 9) (fun x => { x with portA := none, collideCyc := cyc (bump s (0x4030 + c) 9) })
        (fun _ => rfl) (fun _ => rfl)
      have hb : Reported s (bump s (0x4030 + c) 9) := (bump_ranked (Ranked.refl s) (by decide) (by decide)).reported
      obtain ⟨h₃, h₄⟩ := hqueue (collided s c) (fun x => { x with sysQ := x.sysQ ++ [w] }) (fun _ => rfl) (fun _ => rfl)
      exact ⟨(hb.trans h₁).trans h₃, fun d n => (h₄ d n).trans (h₂ d n)⟩
    · obtain ⟨h₁, h₂⟩ := hqueue s (fun x => { x with scratch := wrN x.scratch w.addr w.data }) (fun _ => rfl) (fun _ => rfl)
      unfold sysDone
      dsimp only
      split
      · exact ⟨Reported.trans h₁ (setEvent_reported _ _ _), fun d n => (setEvent_slot _ _ _ _ _).trans (h₂ d n)⟩
      · exact ⟨h₁, h₂⟩

theorem slot_signalSlot_ne (s : State) (c k : Nat) {n m : Nat} (h : n ≠ m) : slot (signalSlot s c n k) c m = slot s c m := by
  unfold signalSlot
  extract_lets x s1 y s2
  have h1 : slot s1 c m = slot s c m := by
    unfold s1
    split <;> rfl
  have h2 : slot s2 c m = slot s c m := (slot_setSlot_ne _ _ _ h).trans h1
  split
  · exact (slot_readySlot_ne _ _ _ h).trans h2
  · split
    · exact (slot_setSlot_ne _ _ _ h).trans h2
    · exact h2

/-- A completed slot is free and stays so while its completion is reported. -/
theorem reportDone_reported {s : State} {c n : Nat} (x : Slot) (kind result : Nat) (hfree : slot s c n = {}) :
    Reported s (reportDone s c n x kind result) ∧ slot (reportDone s c n x kind result) c n = {} := by
  unfold reportDone
  extract_lets s1
  have h1 : Reported s s1 ∧ slot s1 c n = {} := by
    unfold s1
    split
    · next p _ =>
      split
      · exact ⟨(bump_ranked (Ranked.refl s) (by decide) (by decide)).reported, hfree⟩
      · next hp =>
        have hne : p ≠ n := fun e => hp (by rw [e, hfree])
        exact ⟨(signalSlot_ranked (Ranked.refl s)).reported, (slot_signalSlot_ne _ _ _ hne).trans hfree⟩
    · exact ⟨Reported.refl s, hfree⟩
  split
  · exact h1
  · obtain ⟨h2, h3⟩ := sysWrite_reported s1 c { addr := 0x1F800 + 16 * ‹Nat›, data := toLE 2 n ++ toLE 1 kind ++ toLE 1 0 ++ toLE 4 result ++ toLE 8 (ft s1), notify := some (c * 128 + ‹Nat›) }
    exact ⟨h1.1.trans h2, (h3 c n).trans h1.2⟩

theorem endSlot_reported (s : State) (c n kind result : Nat) :
    Reported s (endSlot s c n kind result) ∧ (slot (endSlot s c n kind result) c n).state = .free := by
  unfold endSlot
  extract_lets x s1 s2 s3
  have h1 : Reported s s1 ∧ slot s1 c n = {} :=
    ⟨(setSlot_ranked (unready_ranked (Ranked.refl s))).reported, slot_setSlot_free _ _ _ rfl⟩
  have h2 : Reported s s2 ∧ slot s2 c n = {} := by
    unfold s2
    split
    · exact ⟨h1.1.trans (modRope_reported _ _ rfl rfl (fun h => h) (fun _ => rfl)), h1.2⟩
    · exact h1
  have h3 : Reported s s3 ∧ slot s3 c n = {} := by
    unfold s3
    split
    · exact ⟨h2.1.trans (trace_ranked (bump_ranked (Ranked.refl s2) (by decide) (by decide))).reported,
        (slot_trace _ _ _ _ _ _ _ _ _).trans h2.2⟩
    · exact h2
  obtain ⟨h4, h5⟩ := reportDone_reported x kind result h3.2
  exact ⟨h3.1.trans h4, by rw [h5]⟩

end Sys2Proof.Proofs

/-! The commands of the task scheduler, one by one (R214 to R218, R223). -/

namespace Sys2Proof.Proofs

open Sys2Proof.Machine Sys2Proof.Claim

/-! ### A command begins -/

/-- The state in which the scheduler takes a command: 4 dp-cycles after its store, the command no longer waiting. -/
def begun (s : State) (k : Nat) (q : TaskCmd) : State :=
  busyCore (advanceTo (modCluster s k (fun y => { y with taskQ := y.taskQ.erase q })) (q.at_ + 4 * dpU s)) (16 * k)

/-- What every command leaves: time and the commands that wait. -/
def Clocked (u t : State) : Prop := t.time = u.time ∧ ∀ c, (cluster t c).taskQ = (cluster u c).taskQ

/-- The status that a command shows, where no later command of its rope waits. -/
def Shown (u t : State) (r status n : Nat) : Prop := (∀ w ∈ (cluster u (ropeCluster r)).taskQ, w.rope ≠ r) →
  (rope t r).stg.cmdStatus = BitVec.ofNat 8 status ∧ (rope t r).stg.cmdSlot = BitVec.ofNat 12 n

theorem Clocked.trans {s t u : State} (h : Clocked s t) (h' : Clocked t u) : Clocked s u :=
  ⟨h'.1.trans h.1, fun c => (h'.2 c).trans (h.2 c)⟩

theorem Reported.clocked {s t : State} (h : Reported s t) : Clocked s t := ⟨h.time, h.taskQ⟩

theorem Ranked.clocked {s t : State} (h : Ranked s t) : Clocked s t := h.reported.clocked

theorem modRope_clocked (s : State) (r : Nat) (f : Rope → Rope) : Clocked s (modRope s r f) := ⟨rfl, fun _ => rfl⟩

/-- What keeps the staging registers keeps the status they show. -/
theorem Shown.of_stg {u t v : State} {r status n : Nat} (h : Shown u t r status n) (hs : (rope v r).stg = (rope t r).stg) :
    Shown u v r status n := fun hw => by rw [hs]; exact h hw

theorem begun_facts (s : State) (k : Nat) (q : TaskCmd) : let u := begun s k q
    u.time.now = max s.time.now (q.at_ + 4 * dpU s) ∧ (cluster u k).taskQ = (cluster s k).taskQ.erase q ∧
      (∀ r, rope u r = rope s r) ∧ (∀ c, (cluster u c).slots = (cluster s c).slots) ∧
      (∀ c, (cluster u c).locks = (cluster s c).locks) ∧ absent u = absent s := by
  have hcluster (c : Nat) : cluster (begun s k q) c = cluster (modCluster s k (fun y => { y with taskQ := y.taskQ.erase q })) c := rfl
  refine ⟨advanceTo_now _ _, ?_, fun _ => rfl, fun c => ?_, fun c => ?_, rfl⟩ <;> rw [hcluster, cluster_modCluster]
  · rw [if_pos rfl]
  · split
    · next e => rw [e]
    · rfl
  · split
    · next e => rw [e]
    · rfl

theorem taskNext_begun {s : State} {k op : Nat} {q : TaskCmd} (hq : nextTaskCmd (cluster s k).taskQ = some q)
    (hop : q.word.toNat / 2 ^ 60 = op) (f : State → TaskCmd → State) : taskNext s k op f = f (begun s k q) q := by
  rw [taskNext, hq]
  dsimp only
  rw [if_pos hop]
  rfl

/-! ### Status and refusal -/

/-- The staging registers with a status. -/
def withStatus (g : Staging) (status n : Nat) : Staging := { g with cmdStatus := BitVec.ofNat 8 status, cmdSlot := BitVec.ofNat 12 n }

theorem taskStatus_cases (s : State) (r status n : Nat) : taskStatus s r status n = s ∧
      (∃ w ∈ (cluster s (ropeCluster r)).taskQ, w.rope = r) ∨
    taskStatus s r status n = modRope s r (fun x => { x with stg := withStatus x.stg status n }) := by
  unfold taskStatus
  dsimp only
  split
  · next h =>
    obtain ⟨w, hw, hr⟩ := List.any_eq_true.mp h
    exact .inl ⟨rfl, w, hw, by simpa using hr⟩
  · exact .inr rfl

/-- The rope of a command, with or without the status. -/
theorem rope_taskStatus (s : State) (r status n : Nat) : ∃ g, rope (taskStatus s r status n) r = { rope s r with stg := g } ∧
    ((∀ w ∈ (cluster s (ropeCluster r)).taskQ, w.rope ≠ r) → g = withStatus (rope s r).stg status n) := by
  rcases taskStatus_cases s r status n with ⟨h, w, hw, hr⟩ | h
  · exact ⟨(rope s r).stg, by rw [h], fun hno => absurd hr (hno w hw)⟩
  · exact ⟨_, by rw [h, rope_modRope_same], fun _ => rfl⟩

theorem taskStatus_leaves (s : State) (r status n : Nat) :
    Clocked s (taskStatus s r status n) ∧ (taskStatus s r status n).clusters = s.clusters := by
  rcases taskStatus_cases s r status n with ⟨h, -⟩ | h <;> rw [h]
  · exact ⟨⟨rfl, fun _ => rfl⟩, rfl⟩
  · exact ⟨modRope_clocked _ _ _, rfl⟩

theorem taskStatus_shown {u s : State} (r status n : Nat) (h : (cluster s (ropeCluster r)).taskQ = (cluster u (ropeCluster r)).taskQ) :
    Shown u (taskStatus s r status n) r status n := by
  intro hno
  obtain ⟨g, hg, hw⟩ := rope_taskStatus s r status n
  rw [hg, hw (h ▸ hno)]
  exact ⟨rfl, rfl⟩

/-- A refused command shows its status and changes no slot. -/
theorem taskRefused_facts (u : State) (q : TaskCmd) (kind status n : Nat) (x : Slot) : let t := taskRefused u q kind status n x
    Clocked u t ∧ (∀ c, (cluster t c).slots = (cluster u c).slots) ∧ Shown u t q.rope status n := by
  obtain ⟨hclock, hclusters⟩ := taskStatus_leaves u q.rope status n
  let v := trace (taskStatus u q.rope status n) (ropeCluster q.rope) kind n x (if kind = 5 then traceRope x else ropeLocal q.rope) status
  have hv : Traced (taskStatus u q.rope status n) v := trace_traced (Traced.refl _)
  have hslots (c : Nat) : (cluster v c).slots = (cluster u c).slots := by
    change (untraced (cluster v c)).slots = _
    rw [hv.cluster, cluster, hclusters]
    rfl
  have hshown : Shown u v q.rope status n :=
    (taskStatus_shown q.rope status n rfl).of_stg (by rw [hv.ranked.rope])
  have hvc : Clocked u v := hclock.trans hv.ranked.clocked
  intro t
  by_cases hw : (kind != 5 && (rope v q.rope).st = .waiting .task) = true
  · have ht : t = makeReady v q.rope := if_pos hw
    obtain ⟨ropes, cores, hready⟩ := makeReady_only v q.rope
    rw [ht]
    refine ⟨⟨?_, fun c => ?_⟩, fun c => ?_, hshown.of_stg (makeReady_stg _ _ _)⟩
    · rw [hready]; exact hvc.1
    · rw [hready]; exact hvc.2 c
    · rw [hready]; exact hslots c
  · have ht : t = v := if_neg hw
    rw [ht]
    exact ⟨hvc, hslots, hshown⟩

/-! ### The caller leaves its task -/

/-- The rope that a command's end leaves: with no task, kept for it or not, free where it waited for the scheduler. -/
def leftRope (x : Rope) (n : Nat) (pin : Bool) : Rope := { x with
  task := none, pinned := if pin then some n else none
  st := match x.st with | .waiting .task => .free | st => st }

theorem rope_taskLeave (s : State) (r n : Nat) (pin : Bool) : rope (taskLeave s r n pin) r = leftRope (rope s r) n pin := by
  have h : rope (taskLeave s r n pin) r = rope (modRope s r (fun x => leftRope x n pin)) r :=
    (rankMoved_ranked (Ranked.refl _)).rope r
  rw [h, rope_modRope_same]

theorem taskLeave_clocked (s : State) (r n : Nat) (pin : Bool) : Clocked s (taskLeave s r n pin) :=
  (modRope_clocked s r _).trans (rankMoved_ranked (Ranked.refl _)).clocked

theorem rankMoved_calm {s : State} {r : Nat} (h : waitsOn s r = none) : rankMoved s r = s := by rw [rankMoved, h]

/-- A rope that waits on no lock leaves the slots alone. -/
theorem taskLeave_calm {s : State} {r n : Nat} {pin : Bool} (h : waitsOn s r = none) :
    taskLeave s r n pin = modRope s r (fun x => leftRope x n pin) := by
  exact rankMoved_calm (s := modRope s r (fun x => leftRope x n pin)) h

theorem leftRope_st {x : Rope} {n : Nat} {pin : Bool} (h : x.st = .waiting .task) : (leftRope x n pin).st = .free := by
  rw [leftRope, h]

/-- What the caller's rope has left: the task, and what keeps it for the task. -/
def Left (u t : State) (r n : Nat) : Prop :=
  (rope t r).task = none ∧ ((rope u r).st = .waiting .task → (rope t r).st = .free) ∧
    (rope t r).pinned = if (heldBy u r).isEmpty then none else some n

theorem suspend_facts (u : State) {c n : Nat} {q : TaskCmd} {f : Slot → Slot} : let t := suspend u c q n f
    Clocked u t ∧ Shown u t q.rope 0 n ∧ Left u t q.rope n ∧
      (waitsOn u q.rope = none →
        let x := f { slot u c n with entry := (rope u q.rope).stg.entry.setWidth 32, sp := (rope u q.rope).stg.sp, rope := none }
        x.state ≠ .free → slot t c n = x) := by
  intro t
  let x := f { slot u c n with entry := (rope u q.rope).stg.entry.setWidth 32, sp := (rope u q.rope).stg.sp, rope := none }
  let v := setSlot (taskStatus u q.rope tsOk n) c n x
  let w := taskLeave v q.rope n (!(heldBy u q.rope).isEmpty)
  obtain ⟨g, hg, hshow⟩ := rope_taskStatus u q.rope tsOk n
  obtain ⟨hclock, hclusters⟩ := taskStatus_leaves u q.rope tsOk n
  have hset : Ranked (taskStatus u q.rope tsOk n) v := setSlot_ranked (Ranked.refl _)
  have htrace : Ranked w t := trace_ranked (Ranked.refl w)
  have hrope : rope t q.rope = leftRope { rope u q.rope with stg := g } n (!(heldBy u q.rope).isEmpty) := by
    rw [htrace.rope, rope_taskLeave, hset.rope, hg]
  refine ⟨((hclock.trans hset.clocked).trans (taskLeave_clocked _ _ _ _)).trans htrace.clocked, fun hno => ?_, ⟨?_, ?_, ?_⟩, ?_⟩
  · rw [hrope, leftRope, hshow hno]
    exact ⟨rfl, rfl⟩
  · rw [hrope]; rfl
  · intro hwait
    rw [hrope]
    exact leftRope_st hwait
  · rw [hrope, leftRope]
    dsimp only
    cases (heldBy u q.rope).isEmpty <;> rfl
  · intro hcalm y hstate
    have hv : waitsOn v q.rope = none := by
      rw [waitsOn, hset.locks, cluster, hclusters]
      exact hcalm
    have hslot : slot t c n = slot w c n := slot_trace _ _ _ _ _ _ _ _ _
    rw [hslot, show w = _ from taskLeave_calm hv]
    exact slot_setSlot_same _ _ _ hstate

/-! ### The commands -/

/-- The slot that a SPAWN fills is ready as it stands where its counter is 0. -/
theorem readied_spawnSlot {g : Staging} (h : (spawnSlot g).state = .ready) : readied (spawnSlot g) 0 = spawnSlot g := by
  rw [readied, ← h]
  rfl

theorem spawnSlot_state (g : Staging) : (spawnSlot g).state ≠ .free := by
  change (if g.wakeFt != 0 then TaskState.delay else if bits g.ctl.toNat 31 16 = 0 then .ready else .wait) ≠ .free
  split
  · exact nofun
  · split <;> exact nofun

theorem taskSpawn_fills {u : State} {c : Nat} {q : TaskCmd} (hgo : ¬(absent u && (rope u q.rope).stg.wakeFt != 0) = true)
    (hroom : ¬4096 ≤ lowestFree 0 ((cluster u c).slots.map (·.1))) : Clocked u (taskSpawn u c q) ∧
    slot (taskSpawn u c q) c (lowestFree 0 ((cluster u c).slots.map (·.1))) = spawnSlot (rope u q.rope).stg ∧
      Shown u (taskSpawn u c q) q.rope 0 (lowestFree 0 ((cluster u c).slots.map (·.1))) := by
  unfold taskSpawn
  extract_lets g n x s1 s2 s3
  rw [if_neg hgo, if_neg hroom]
  have h1 : Ranked u s1 := by
    unfold s1
    split
    · split
      · exact Ranked.refl u
      · exact setSlot_ranked (Ranked.refl u)
    · exact Ranked.refl u
  have h2 : Ranked u s2 := bump_ranked (setSlot_ranked h1) (by decide) (by decide)
  have hs2 : slot s2 c n = x := slot_setSlot_same s1 c n (spawnSlot_state g)
  have h3 : Ranked u s3 ∧ slot s3 c n = x := by
    unfold s3
    split
    · next hready => exact ⟨readySlot_ranked h2, by rw [slot_readySlot_same, hs2]; exact readied_spawnSlot hready⟩
    · exact ⟨h2, hs2⟩
  obtain ⟨hclock, hclusters⟩ := taskStatus_leaves s3 q.rope tsOk n
  refine ⟨h3.1.clocked.trans hclock, ?_, taskStatus_shown _ _ _ (h3.1.taskQ _)⟩
  rw [slot, cluster, hclusters]
  exact h3.2

theorem taskSpawn_facts (u : State) (c : Nat) (q : TaskCmd) : let t := taskSpawn u c q
    let g := (rope u q.rope).stg
    let freed := lowestFree 0 ((cluster u c).slots.map (·.1))
    Clocked u t ∧ (freed < 4096 → (absent u = false ∨ g.wakeFt = 0) → slot u c freed = {} →
        slot t c freed = spawnSlot g ∧ Shown u t q.rope 0 freed) ∧
      (absent u = true → g.wakeFt ≠ 0 → (cluster t c).slots = (cluster u c).slots ∧ Shown u t q.rope 5 0) ∧
      (4096 ≤ freed → (absent u = false ∨ g.wakeFt = 0) → (cluster t c).slots = (cluster u c).slots ∧ Shown u t q.rope 1 0) := by
  intro t g freed
  have hrefused (status : Nat) : Clocked u (taskStatus u q.rope status 0) ∧
      (cluster (taskStatus u q.rope status 0) c).slots = (cluster u c).slots ∧ Shown u (taskStatus u q.rope status 0) q.rope status 0 := by
    obtain ⟨hclock, hclusters⟩ := taskStatus_leaves u q.rope status 0
    exact ⟨hclock, by rw [cluster, hclusters]; rfl, taskStatus_shown _ _ _ rfl⟩
  by_cases habsent : absent u = true ∧ g.wakeFt ≠ 0
  · obtain ⟨ha, hwake⟩ := habsent
    have ht : t = taskStatus u q.rope tsUnitAbsent 0 := if_pos (by rw [ha, Bool.true_and, bne_iff_ne]; exact hwake)
    have hno : ¬(absent u = false ∨ g.wakeFt = 0) := by
      rintro (h | h)
      · rw [ha] at h; cases h
      · exact hwake h
    obtain ⟨hclock, hslots, hshown⟩ := hrefused tsUnitAbsent
    rw [ht]
    exact ⟨hclock, fun _ h => absurd h hno, fun _ _ => ⟨hslots, hshown⟩, fun _ h => absurd h hno⟩
  · have hgo : ¬(absent u && g.wakeFt != 0) = true := by
      rw [Bool.and_eq_true, bne_iff_ne]
      exact habsent
    have hmay : absent u = true → g.wakeFt ≠ 0 → False := fun h h' => habsent ⟨h, h'⟩
    by_cases hfull : 4096 ≤ freed
    · have ht : t = taskStatus u q.rope tsNoSlot 0 := (if_neg hgo).trans (if_pos hfull)
      obtain ⟨hclock, hslots, hshown⟩ := hrefused tsNoSlot
      rw [ht]
      exact ⟨hclock, fun h => absurd hfull (Nat.not_le.mpr h), fun h h' => (hmay h h').elim, fun _ _ => ⟨hslots, hshown⟩⟩
    · have hroom : freed < 4096 := Nat.lt_of_not_le hfull
      obtain ⟨hclock, hfills⟩ := taskSpawn_fills hgo hfull
      exact ⟨hclock, fun _ _ _ => hfills, fun h h' => (hmay h h').elim, fun h => absurd h hfull⟩

/-- The slot of a SIGNAL: its counter falls, and at 0 a slot that waits is ready, as is one whose timeout fell in this tick. -/
theorem slot_signalSlot_same {s : State} {c n k : Nat} (h : (slot s c n).state ≠ .free) :
    let x := slot s c n
    let left := x.counter - k
    (x.state = .wait → left = 0 → slot (signalSlot s c n k) c n = readied { x with counter := 0 } 0) ∧
    (x.state = .ready → left = 0 → x.timedOut = some (ft s / 1000) →
      slot (signalSlot s c n k) c n = { x with counter := 0, reason := 0, timedOut := none }) ∧
    ((x.state = .wait → left ≠ 0) → (x.state = .ready → left = 0 → x.timedOut ≠ some (ft s / 1000)) →
      slot (signalSlot s c n k) c n = { x with counter := left }) := by
  intro x left
  unfold signalSlot
  extract_lets s1 y s2
  have hft : ft s2 = ft s := by
    change ft s1 = ft s
    unfold s1
    split <;> rfl
  have h2 : slot s2 c n = { x with counter := left } := slot_setSlot_same s1 c n h
  rw [hft]
  refine ⟨fun hwait hzero => ?_, fun hready hzero hin => ?_, fun hwait hready => ?_⟩
  · rw [if_pos (by rw [Bool.and_eq_true, decide_eq_true_eq, decide_eq_true_eq]; exact ⟨hwait, hzero⟩), slot_readySlot_same, h2, hzero]
  · rw [if_neg (by rw [Bool.and_eq_true, decide_eq_true_eq]; exact fun h => nomatch hready.symm.trans h.1),
      if_pos (by rw [Bool.and_eq_true, Bool.and_eq_true, decide_eq_true_eq, decide_eq_true_eq, beq_iff_eq]; exact ⟨⟨hready, hzero⟩, hin⟩)]
    refine (slot_setSlot_same s2 c n (x := { y with reason := 0, timedOut := none }) h).trans ?_
    rw [show y = { x with counter := left } from rfl, hzero]
  · rw [if_neg (by rw [Bool.and_eq_true, decide_eq_true_eq, decide_eq_true_eq]; exact fun h => hwait h.1 h.2),
      if_neg (by rw [Bool.and_eq_true, Bool.and_eq_true, decide_eq_true_eq, decide_eq_true_eq, beq_iff_eq]
                 exact fun h => hready h.1.1 h.1.2 h.2)]
    exact h2

theorem taskSignal_facts (u : State) (c : Nat) (q : TaskCmd) : let t := taskSignal u c q
    let n := q.word.toNat % 4096
    let y := slot u c n
    let left := y.counter - (q.word.extractLsb' 44 16).toNat
    Clocked u t ∧
      (y.state = .free → (cluster t c).slots = (cluster u c).slots ∧ Shown u t q.rope 2 n) ∧
      (y.state ≠ .free → (y.state = .wait → left ≠ 0) → y.timedOut = none → slot t c n = { y with counter := left } ∧
        Shown u t q.rope 0 n) ∧
      (y.state = .ready → left = 0 → y.timedOut = some (ft u / 1000) →
        slot t c n = { y with counter := 0, reason := 0, timedOut := none } ∧ Shown u t q.rope 0 n) ∧
      (y.state = .wait → left = 0 → Shown u t q.rope 0 n ∧ slot t c n =
        { y with counter := 0, state := .ready, reason := 0, rope := none, due := none, timedOut := none }) := by
  intro t n y left
  have hamount : bits q.word.toNat 59 44 = (q.word.extractLsb' 44 16).toNat := bits_toNat q.word 59 44
  by_cases hstate : y.state = .free
  · have ht : t = taskStatus (bump u (0x4050 + c) 0x0D) q.rope tsNotFound n := if_pos hstate
    obtain ⟨hclock, hclusters⟩ := taskStatus_leaves (bump u (0x4050 + c) 0x0D) q.rope tsNotFound n
    rw [ht]
    exact ⟨hclock, fun _ => ⟨by rw [cluster, hclusters]; rfl, taskStatus_shown _ _ _ rfl⟩, fun h => absurd hstate h,
      by simp [hstate], by simp [hstate]⟩
  · have ht : t = taskStatus (signalSlot u c n (q.word.extractLsb' 44 16).toNat) q.rope tsOk n := by
      rw [← hamount]
      exact if_neg hstate
    obtain ⟨hclock, hclusters⟩ := taskStatus_leaves (signalSlot u c n (q.word.extractLsb' 44 16).toNat) q.rope tsOk n
    have hsignal : Ranked u (signalSlot u c n (q.word.extractLsb' 44 16).toNat) := signalSlot_ranked (Ranked.refl u)
    have hslot : slot t c n = slot (signalSlot u c n (q.word.extractLsb' 44 16).toNat) c n := by
      rw [ht, slot, cluster, hclusters]
      rfl
    have hshown : Shown u t q.rope 0 n := by
      rw [ht]
      exact taskStatus_shown _ _ _ (hsignal.taskQ _)
    obtain ⟨hsWait, hsReady, hsRest⟩ := slot_signalSlot_same (k := (q.word.extractLsb' 44 16).toNat) hstate
    refine ⟨by rw [ht]; exact hsignal.clocked.trans hclock, fun h => absurd h hstate, fun _ hwait hin => ⟨?_, hshown⟩,
      fun hready hzero hin => ⟨?_, hshown⟩, fun hwait hzero => ⟨hshown, ?_⟩⟩
    · exact hslot.trans (hsRest hwait fun _ _ h => nomatch hin.symm.trans h)
    · exact hslot.trans (hsReady hready hzero hin)
    · exact hslot.trans (hsWait hwait hzero)

theorem taskCancel_facts (u : State) (c : Nat) (q : TaskCmd) : let t := taskCancel u c q
    let n := q.word.toNat % 4096
    Clocked u t ∧
      ((slot u c n).state = .free → (cluster t c).slots = (cluster u c).slots ∧ Shown u t q.rope 2 n) ∧
      ((slot u c n).state = .run ∨ (slot u c n).state = .parked → (cluster t c).slots = (cluster u c).slots ∧ Shown u t q.rope 3 n) ∧
      ((slot u c n).state = .wait ∨ (slot u c n).state = .delay ∨ (slot u c n).state = .ready →
        (slot t c n).state = .free ∧ Shown u t q.rope 0 n) := by
  intro t n
  have hends : Clocked u (taskStatus (endSlot u c n 1 0xFFFFFFFF) q.rope tsOk n) ∧
      (slot (taskStatus (endSlot u c n 1 0xFFFFFFFF) q.rope tsOk n) c n).state = .free ∧
      Shown u (taskStatus (endSlot u c n 1 0xFFFFFFFF) q.rope tsOk n) q.rope 0 n := by
    obtain ⟨hend, hfree⟩ := endSlot_reported u c n 1 0xFFFFFFFF
    obtain ⟨hclock, hclusters⟩ := taskStatus_leaves (endSlot u c n 1 0xFFFFFFFF) q.rope tsOk n
    refine ⟨hend.clocked.trans hclock, ?_, taskStatus_shown _ _ _ (hend.taskQ _)⟩
    rw [slot, cluster, hclusters]
    exact hfree
  obtain ⟨hclock, hfree, hshown⟩ := hends
  have hrefused (status : Nat) := taskRefused_facts u q 5 status n (slot u c n)
  have ht : t = match (slot u c n).state with
      | .free => taskRefused u q 5 tsNotFound n (slot u c n)
      | .run => taskRefused u q 5 tsBusy n (slot u c n)
      | .parked => taskRefused u q 5 tsBusy n (slot u c n)
      | _ => taskStatus (endSlot u c n 1 0xFFFFFFFF) q.rope tsOk n := rfl
  rw [ht]
  cases (slot u c n).state
  case free => exact ⟨(hrefused _).1, fun _ => ⟨(hrefused _).2.1 c, (hrefused _).2.2⟩, by simp, by simp⟩
  case run => exact ⟨(hrefused _).1, by simp, fun _ => ⟨(hrefused _).2.1 c, (hrefused _).2.2⟩, by simp⟩
  case parked => exact ⟨(hrefused _).1, by simp, fun _ => ⟨(hrefused _).2.1 c, (hrefused _).2.2⟩, by simp⟩
  all_goals exact ⟨hclock, by simp, by simp, fun _ => ⟨hfree, hshown⟩⟩

/-- A command of a rope with no task, or one refused, changes no slot. -/
theorem refused_facts {u t : State} {q : TaskCmd} {kind status n : Nat} {x : Slot} (c : Nat) (h : t = taskRefused u q kind status n x) :
    Clocked u t ∧ (cluster t c).slots = (cluster u c).slots ∧ Shown u t q.rope status n := by
  obtain ⟨hclock, hslots, hshown⟩ := taskRefused_facts u q kind status n x
  rw [h]
  exact ⟨hclock, hslots c, hshown⟩

theorem taskEnd_facts (u : State) (c : Nat) (q : TaskCmd) : let t := taskEnd u c q
    Clocked u t ∧
      ((rope u q.rope).task = none → (cluster t c).slots = (cluster u c).slots ∧ Shown u t q.rope 6 0) ∧
      (∀ m, (rope u q.rope).task = some m → heldBy u q.rope ≠ [] → (cluster t c).slots = (cluster u c).slots ∧ Shown u t q.rope 4 m) ∧
      (∀ m, (rope u q.rope).task = some m → heldBy u q.rope = [] → (slot t c m).state = .free ∧ Left u t q.rope m ∧
        Shown u t q.rope 0 m) := by
  intro t
  cases htask : (rope u q.rope).task with
  | none =>
    have ht : t = taskRefused u q 4 tsNoTask 0 {} := by
      change taskEnd u c q = _
      rw [taskEnd, htask]
      rfl
    obtain ⟨hclock, hslots, hshown⟩ := refused_facts c ht
    exact ⟨hclock, fun _ => ⟨hslots, hshown⟩, nofun, nofun⟩
  | some n =>
    by_cases hheld : heldBy u q.rope = []
    · let v := taskLeave (taskStatus u q.rope tsOk n) q.rope n false
      have ht : t = endSlot v c n 0 ((rope u q.rope).stg.result.toNat % 2 ^ 32) := by
        change taskEnd u c q = _
        rw [taskEnd, htask]
        dsimp only
        rw [if_neg (by rw [hheld]; decide)]
      obtain ⟨hclock, -⟩ := taskStatus_leaves u q.rope tsOk n
      obtain ⟨g, hg, hshow⟩ := rope_taskStatus u q.rope tsOk n
      have hv : rope v q.rope = leftRope { rope u q.rope with stg := g } n false := by rw [rope_taskLeave, hg]
      obtain ⟨hend, hfree⟩ := endSlot_reported v c n 0 ((rope u q.rope).stg.result.toNat % 2 ^ 32)
      rw [← ht] at hend hfree
      refine ⟨(hclock.trans (taskLeave_clocked _ _ _ _)).trans hend.clocked, nofun, fun m hm hne => absurd hheld hne, fun m hm _ => ?_⟩
      obtain rfl := Option.some.inj hm
      refine ⟨hfree, ⟨?_, fun hwait => hend.free _ ?_, ?_⟩, fun hno => ?_⟩
      · rw [hend.task, hv]; rfl
      · rw [hv]
        exact leftRope_st hwait
      · rw [hheld]
        exact hend.pinned _ (by rw [hv]; rfl)
      · rw [hend.stg, hv, leftRope, hshow hno]
        exact ⟨rfl, rfl⟩
    · have ht : t = taskRefused u q 4 tsLocksHeld n (slot u c n) := by
        change taskEnd u c q = _
        rw [taskEnd, htask]
        dsimp only
        rw [if_pos (by rw [Bool.not_eq_true', List.isEmpty_eq_false_iff]; exact hheld)]
      obtain ⟨hclock, hslots, hshown⟩ := refused_facts c ht
      refine ⟨hclock, nofun, fun m hm _ => ⟨hslots, ?_⟩, fun m hm h => absurd h hheld⟩
      rw [← Option.some.inj hm]
      exact hshown

/-- The caller's slot with its staged addresses. -/
def callerSlot (u : State) (c : Nat) (q : TaskCmd) (m : Nat) : Slot :=
  { slot u c m with entry := (rope u q.rope).stg.entry.setWidth 32, sp := (rope u q.rope).stg.sp, rope := none }

/-- What a rope and its commands keep where a slot is made ready. -/
theorem readySlot_leaves {u v : State} {r m status : Nat} (c n reason : Nat) (h : Clocked u v ∧ Shown u v r status m ∧ Left u v r m) :
    Clocked u (readySlot v c n reason) ∧ Shown u (readySlot v c n reason) r status m ∧ Left u (readySlot v c n reason) r m := by
  have hready : Ranked v (readySlot v c n reason) := readySlot_ranked (Ranked.refl v)
  obtain ⟨hclock, hshown, hleft⟩ := h
  refine ⟨hclock.trans hready.clocked, hshown.of_stg (by rw [hready.rope]), ?_⟩
  rw [Left, hready.rope]
  exact hleft

/-- A slot that waits from an instant on for a number of µs, or with no timeout for 0. -/
def toWait (now us : Nat) (x : Slot) : Slot := { x with state := .wait, due := if us = 0 then none else some (now + usU us) }

/-- The slot of a WAIT. -/
def waitingSlot (u : State) (c : Nat) (q : TaskCmd) (m : Nat) : Slot := { callerSlot u c q m with
  state := .wait, due := if (rope u q.rope).stg.timeout = 0 then none else some (u.time.now + 90000 * (rope u q.rope).stg.timeout.toNat) }

theorem taskWait_facts (u : State) (c : Nat) (q : TaskCmd) : let t := taskWait u c q
    Clocked u t ∧
      ((rope u q.rope).task = none → (cluster t c).slots = (cluster u c).slots ∧ Shown u t q.rope 6 0) ∧
      (∀ m, (rope u q.rope).task = some m → Left u t q.rope m ∧ Shown u t q.rope 0 m ∧
        (waitsOn u q.rope = none → (slot u c m).counter ≠ 0 → slot t c m = waitingSlot u c q m) ∧
        (waitsOn u q.rope = none → (slot u c m).counter = 0 → slot t c m =
          { callerSlot u c q m with state := .ready, reason := 0, due := none, timedOut := none })) := by
  intro t
  cases htask : (rope u q.rope).task with
  | none =>
    have ht : t = taskRefused u q 3 tsNoTask 0 {} := by
      change taskWait u c q = _
      rw [taskWait, htask]
      rfl
    obtain ⟨hclock, hslots, hshown⟩ := refused_facts c ht
    exact ⟨hclock, fun _ => ⟨hslots, hshown⟩, nofun⟩
  | some n =>
    let f : Slot → Slot := toWait u.time.now (rope u q.rope).stg.timeout.toNat
    obtain ⟨hclock, hshown, hleft, hslot⟩ := suspend_facts u (c := c) (n := n) (q := q) (f := f)
    have ht : t = if (slot (suspend u c q n f) c n).counter = 0 then readySlot (suspend u c q n f) c n 0 else suspend u c q n f := by
      change taskWait u c q = _
      rw [taskWait, htask]
      rfl
    have hwaiting : f (callerSlot u c q n) = waitingSlot u c q n := by
      have hzero : ((rope u q.rope).stg.timeout.toNat = 0) = ((rope u q.rope).stg.timeout = 0) :=
        propext (BitVec.toNat_eq (y := 0)).symm
      simp only [f, toWait, waitingSlot, hzero, usU, Nat.mul_comm]
    have hcalm (h : waitsOn u q.rope = none) : slot (suspend u c q n f) c n = waitingSlot u c q n := (hslot h nofun).trans hwaiting
    obtain ⟨hclock', hshown', hleft'⟩ := readySlot_leaves c n 0 ⟨hclock, hshown, hleft⟩
    refine ⟨?_, nofun, fun m hm => ?_⟩
    · rw [ht]
      split
      · exact hclock'
      · exact hclock
    · obtain rfl := Option.some.inj hm
      refine ⟨?_, ?_, fun h hne => ?_, fun h hzero => ?_⟩
      · rw [ht]
        split
        · exact hleft'
        · exact hleft
      · rw [ht]
        split
        · exact hshown'
        · exact hshown
      · rw [ht, if_neg (by rw [hcalm h]; exact hne), hcalm h]
      · rw [ht, if_pos (by rw [hcalm h]; exact hzero), slot_readySlot_same, hcalm h]
        rfl

theorem taskSleep_facts (u : State) (c : Nat) (q : TaskCmd) : let t := taskSleep u c q
    Clocked u t ∧
      ((rope u q.rope).task = none → (cluster t c).slots = (cluster u c).slots ∧ Shown u t q.rope (if absent u then 5 else 6) 0) ∧
      (∀ m, (rope u q.rope).task = some m → absent u = true → (cluster t c).slots = (cluster u c).slots ∧ Shown u t q.rope 5 m) ∧
      (∀ m, (rope u q.rope).task = some m → absent u = false → Left u t q.rope m ∧ Shown u t q.rope 0 m ∧
        (waitsOn u q.rope = none → slot t c m =
          { callerSlot u c q m with state := .delay, wake := (rope u q.rope).stg.wakeFt.toNat })) := by
  intro t
  cases htask : (rope u q.rope).task with
  | none =>
    have ht : t = taskRefused u q 3 (if absent u then tsUnitAbsent else tsNoTask) 0 {} := by
      change taskSleep u c q = _
      rw [taskSleep, htask]
      dsimp only
      split <;> rfl
    obtain ⟨hclock, hslots, hshown⟩ := refused_facts c ht
    exact ⟨hclock, fun _ => ⟨hslots, hshown⟩, nofun, nofun⟩
  | some n =>
    cases habsent : absent u with
    | true =>
      have ht : t = taskRefused u q 3 tsUnitAbsent n (slot u c n) := by
        change taskSleep u c q = _
        rw [taskSleep, htask]
        dsimp only
        rw [if_pos habsent]
      obtain ⟨hclock, hslots, hshown⟩ := refused_facts c ht
      refine ⟨hclock, nofun, fun m hm _ => ?_, nofun⟩
      rw [← Option.some.inj hm]
      exact ⟨hslots, hshown⟩
    | false =>
      have ht : t = suspend u c q n (fun x => { x with state := .delay, wake := (rope u q.rope).stg.wakeFt.toNat }) := by
        change taskSleep u c q = _
        rw [taskSleep, htask]
        dsimp only
        rw [if_neg (by rw [habsent]; decide)]
      obtain ⟨hclock, hshown, hleft, hslot⟩ := suspend_facts u (c := c) (n := n) (q := q)
        (f := fun x => { x with state := .delay, wake := (rope u q.rope).stg.wakeFt.toNat })
      rw [← ht] at hclock hshown hleft hslot
      refine ⟨hclock, nofun, nofun, fun m hm _ => ?_⟩
      obtain rfl := Option.some.inj hm
      exact ⟨hleft, hshown, fun h => hslot h nofun⟩

theorem taskYield_facts (u : State) (c : Nat) (q : TaskCmd) : let t := taskYield u c q
    Clocked u t ∧
      ((rope u q.rope).task = none → (cluster t c).slots = (cluster u c).slots ∧ Shown u t q.rope 6 0) ∧
      (∀ m, (rope u q.rope).task = some m → Left u t q.rope m ∧ Shown u t q.rope 0 m ∧
        (waitsOn u q.rope = none → slot t c m =
          { callerSlot u c q m with state := .ready, reason := 3, due := none, timedOut := none })) := by
  intro t
  cases htask : (rope u q.rope).task with
  | none =>
    have ht : t = taskRefused u q 3 tsNoTask 0 {} := by
      change taskYield u c q = _
      rw [taskYield, htask]
      rfl
    obtain ⟨hclock, hslots, hshown⟩ := refused_facts c ht
    exact ⟨hclock, fun _ => ⟨hslots, hshown⟩, nofun⟩
  | some n =>
    have ht : t = readySlot (suspend u c q n (fun x => { x with state := .ready })) c n 3 := by
      change taskYield u c q = _
      rw [taskYield, htask]
    obtain ⟨hclock, hshown, hleft, hslot⟩ := suspend_facts u (c := c) (n := n) (q := q) (f := fun x => { x with state := .ready })
    obtain ⟨hclock', hshown', hleft'⟩ := readySlot_leaves c n 3 ⟨hclock, hshown, hleft⟩
    rw [← ht] at hclock' hshown' hleft'
    refine ⟨hclock', nofun, fun m hm => ?_⟩
    obtain rfl := Option.some.inj hm
    refine ⟨hleft', hshown', fun h => ?_⟩
    rw [ht, slot_readySlot_same, hslot h nofun]
    rfl

/-- Settles O28: each command from the state in which it begins. -/
theorem taskCommandsMoveSlots : Obligations.TaskCommandsMoveSlots := by
  intro s c q k x g n now runs shows leaves freed calm caller hon hq hcluster
  obtain ⟨hnow, htaskQ, hrope, hslots, hlocks, habsent⟩ := begun_facts s k q
  obtain ⟨u, hu⟩ : ∃ u, u = begun s k q := ⟨_, rfl⟩
  rw [← hu] at hnow htaskQ hrope hslots hlocks habsent
  have hx : rope u q.rope = x := hrope q.rope
  have hslot (m : Nat) : slot u k m = slot s k m := by rw [slot, hslots]; rfl
  have hheld : heldBy u q.rope = heldBy s q.rope := by rw [heldBy, hlocks]; rfl
  have hcalm : waitsOn u q.rope = waitsOn s q.rope := by rw [waitsOn, hlocks]; rfl
  have hfreed : lowestFree 0 ((cluster u k).slots.map (·.1)) = freed := by rw [hslots]
  have hcaller (m : Nat) : callerSlot u k q m = caller m := by rw [callerSlot, hslot, hx]
  have hshows {t : State} {status m : Nat} (h : Shown u t q.rope status m) : shows t status m := by
    rw [Shown, hcluster, htaskQ] at h
    exact h
  have hleaves {t : State} {m : Nat} (h : Left u t q.rope m) : leaves t m := by
    rw [Left, hx, hheld] at h
    exact h
  have hruns {i : Instr} {op : Nat} {f : State → TaskCmd → State} {P : State → Prop}
      (hi : exec i s = .next (taskNext s k op f)) (hclock : Clocked u (f u q)) (hP : P (f u q)) : runs i op P := by
    intro hop
    rw [taskNext_begun hq hop, ← hu] at hi
    exact ⟨_, hi, by rw [hclock.1, hnow], by rw [hclock.2, htaskQ], hP⟩
  refine ⟨?_, ?_, ?_, ?_, ?_, ?_, ?_⟩
  · have h := taskSpawn_facts u k q
    simp only [hx, hslots, hslot, habsent] at h
    obtain ⟨hclock, hfills, habs, hfull⟩ := h
    refine hruns (live_on hon _ : execSpawn c s = _) hclock ⟨fun hroom hmay hempty => ?_, fun ha hwake => ?_, fun hno hmay => ?_⟩
    · exact ⟨(hfills hroom hmay hempty).1, hshows (hfills hroom hmay hempty).2⟩
    · exact ⟨(habs ha hwake).1, hshows (habs ha hwake).2⟩
    · exact ⟨(hfull hno hmay).1, hshows (hfull hno hmay).2⟩
  · have h := taskSignal_facts u k q
    simp only [hslots, hslot] at h
    obtain ⟨hclock, hfree, hrest, hready, hwait⟩ := h
    have hft : ft u = ft (taskSignal u k q) := by rw [ft, ft, ftAt, ftAt, hclock.1]
    rw [hft] at hready
    refine hruns (live_on hon _ : execSignal c s = _) hclock ⟨fun h => ?_, fun h h' h'' => ?_, fun h h' h'' => ?_, fun h h' => ?_⟩
    · exact ⟨(hfree h).1, hshows (hfree h).2⟩
    · exact ⟨(hrest h h' h'').1, hshows (hrest h h' h'').2⟩
    · exact ⟨(hready h h' h'').1, hshows (hready h h' h'').2⟩
    · exact ⟨hshows (hwait h h').1, (hwait h h').2⟩
  · have h := taskCancel_facts u k q
    simp only [hslots, hslot] at h
    obtain ⟨hclock, hfree, hbusy, hgone⟩ := h
    refine hruns (live_on hon _ : execCancel c s = _) hclock ⟨fun h => ?_, fun h => ?_, fun h => ?_⟩
    · exact ⟨(hfree h).1, hshows (hfree h).2⟩
    · exact ⟨(hbusy h).1, hshows (hbusy h).2⟩
    · exact ⟨(hgone h).1, hshows (hgone h).2⟩
  · have h := taskEnd_facts u k q
    simp only [hx, hslots, hheld] at h
    obtain ⟨hclock, hnone, hlocked, hends⟩ := h
    refine hruns (live_on hon _ : execEndTask c s = _) hclock ⟨fun h => ?_, fun m h h' => ?_, fun m h h' => ?_⟩
    · exact ⟨(hnone h).1, hshows (hnone h).2⟩
    · exact ⟨(hlocked m h h').1, hshows (hlocked m h h').2⟩
    · exact ⟨(hends m h h').1, hleaves (hends m h h').2.1, hshows (hends m h h').2.2⟩
  · have h := taskWait_facts u k q
    simp only [hx, hslots, hslot, hcalm, waitingSlot, hcaller, hnow] at h
    obtain ⟨hclock, hnone, hsome⟩ := h
    refine hruns (live_on hon _ : execWaitTask c s = _) hclock ⟨fun h => ?_, fun m h => ?_⟩
    · exact ⟨(hnone h).1, hshows (hnone h).2⟩
    · obtain ⟨hleft, hshown, hwaits, hready⟩ := hsome m h
      exact ⟨hleaves hleft, hshows hshown, hwaits, hready⟩
  · have h := taskSleep_facts u k q
    simp only [hx, hslots, hcalm, hcaller, habsent] at h
    obtain ⟨hclock, hnone, habs, hsome⟩ := h
    refine hruns (live_on hon _ : execSleep c s = _) hclock ⟨fun h => ?_, fun m h h' => ?_, fun m h h' => ?_⟩
    · exact ⟨(hnone h).1, hshows (hnone h).2⟩
    · exact ⟨(habs m h h').1, hshows (habs m h h').2⟩
    · obtain ⟨hleft, hshown, hslept⟩ := hsome m h h'
      exact ⟨hleaves hleft, hshows hshown, hslept⟩
  · have h := taskYield_facts u k q
    simp only [hx, hslots, hcalm, hcaller] at h
    obtain ⟨hclock, hnone, hsome⟩ := h
    refine hruns (live_on hon _ : execYield c s = _) hclock ⟨fun h => ?_, fun m h => ?_⟩
    · exact ⟨(hnone h).1, hshows (hnone h).2⟩
    · obtain ⟨hleft, hshown, hyields⟩ := hsome m h
      exact ⟨hleaves hleft, hshows hshown, hyields⟩

end Sys2Proof.Proofs

/-! Tasks start and wake in time (R219, R220, R222, R223). -/

namespace Sys2Proof.Proofs

open Sys2Proof.Machine Sys2Proof.Claim

/-! ### A task starts -/

/-- The rope on which a task starts. -/
def taskStarted (s : State) (x : Rope) (n : Nat) (y : Slot) : Rope :=
  { startRope s x y.entry 1 [(1, BitVec.ofNat 64 n), (2, y.arg), (3, BitVec.ofNat 64 y.reason), (30, y.sp)] with
    task := some n, pinned := none, pitch := none }

theorem getW_taskStarted (s : State) (x : Rope) (n : Nat) (y : Slot) (d : BitVec 5) : getW (taskStarted s x n y) d =
    if d = 1 then BitVec.ofNat 64 n else if d = 2 then y.arg else if d = 3 then BitVec.ofNat 64 y.reason
      else if d = 30 then y.sp else 0 := by
  have hd (a : BitVec 5) : a.toNat = d.toNat ↔ d = a := by rw [BitVec.toNat_inj, eq_comm]
  by_cases h0 : d = 0
  · subst h0
    rfl
  · rw [getW, if_neg h0, show (taskStarted s x n y).w = [(1, BitVec.ofNat 64 n), (2, y.arg), (3, BitVec.ofNat 64 y.reason), (30, y.sp)] from rfl]
    simp only [mget, mfind, show (1 : Nat) = (1 : BitVec 5).toNat from rfl, show (2 : Nat) = (2 : BitVec 5).toNat from rfl,
      show (3 : Nat) = (3 : BitVec 5).toNat from rfl, show (30 : Nat) = (30 : BitVec 5).toNat from rfl, hd]
    split
    · rfl
    · split
      · rfl
      · split
        · rfl
        · split <;> rfl

theorem exec_taskDispatch_cases {s : State} {c : BitVec 4} {n r : Nat} {rest : List Nat} (hon : on s = true)
    (hdoze : (cluster s c.toNat).doze = false) (hready : (cluster s c.toNat).ready = n :: rest)
    (hrope : taskRope s c.toNat n = some r) : exec (.taskDispatch c) s =
      if watershedClaims s c.toNat r then .next s else .next (startTask s c.toNat n r) := by
  change execTaskDispatch c s = _
  rw [execTaskDispatch, if_neg (by rw [hon, hdoze]; decide), hready]
  dsimp only
  rw [hrope]

/-- The slot and the ready list of a task that starts. -/
def slotStarted (s : State) (c n r : Nat) : State :=
  modCluster (setSlot (unready s c n) c n { slot s c n with state := .run, rope := some r }) c
    (fun z => { z with lastTaskCore := ropeCore r % 16 })

/-- The state in which the task's rope takes its registers, a record made. -/
def slotTraced (s : State) (c n r : Nat) : State :=
  trace (slotStarted s c n r) c 1 n { slot s c n with rope := some r } (ropeLocal r) (slot s c n).reason

theorem slotTraced_traced (s : State) (c n r : Nat) : Traced (slotStarted s c n r) (slotTraced s c n r) := trace_traced (Traced.refl _)

theorem rope_slotTraced (s : State) (c n r q : Nat) : rope (slotTraced s c n r) q = rope s q := by
  rw [rope, (slotTraced_traced s c n r).ropes]
  rfl

/-- A rope that has no result pending and waits on no lock starts a task. -/
theorem startTask_eq {s : State} {c n r : Nat} (hk : (rope s r).kPend = []) (hw : waitsOn s r = none) : startTask s c n r =
    makeReady (setRope (slotTraced s c n r) r (taskStarted (slotTraced s c n r) (rope s r) n (slot s c n))) r := by
  have hsettle : kSettle (slotTraced s c n r) r = slotTraced s c n r := by
    rw [kSettle, rope_slotTraced, hk]
    rfl
  have hlocks (d : Nat) : (cluster (slotStarted s c n r) d).locks = (cluster s d).locks := by
    have hkeep (u : State) (f : Cluster → Cluster) (hf : ∀ y, (f y).locks = y.locks) : (cluster (modCluster u c f) d).locks = (cluster u d).locks := by
      rw [cluster_modCluster]
      split
      · next e => rw [hf, e]
      · rfl
    exact (hkeep _ _ (by intro; rfl)).trans ((hkeep _ _ (by intro; rfl)).trans (hkeep _ _ (by intro; rfl)))
  obtain ⟨v, hv⟩ : ∃ v, v = makeReady (setRope (slotTraced s c n r) r (taskStarted (slotTraced s c n r) (rope s r) n (slot s c n))) r :=
    ⟨_, rfl⟩
  have hcalm : waitsOn v r = none := by
    obtain ⟨ropes, cores, hready⟩ := makeReady_only (setRope (slotTraced s c n r) r (taskStarted (slotTraced s c n r) (rope s r) n (slot s c n))) r
    have hcluster : (cluster v (ropeCluster r)).locks = (cluster s (ropeCluster r)).locks := by
      rw [hv, hready]
      exact ((slotTraced_traced s c n r).ranked.locks _).trans (hlocks _)
    rw [waitsOn, hcluster]
    exact hw
  have hstart : startTask s c n r = rankMoved (makeReady (setRope (kSettle (slotTraced s c n r) r) r
      (taskStarted (kSettle (slotTraced s c n r) r) (rope (kSettle (slotTraced s c n r) r) r) n (slot s c n))) r) r := rfl
  rw [hstart, hsettle, rope_slotTraced, ← hv]
  exact rankMoved_calm hcalm

theorem startTask_facts {s : State} {c n r : Nat} (hk : (rope s r).kPend = []) (hw : waitsOn s r = none) : let t := startTask s c n r
    OtherRopesKept s t r ∧ t.time = s.time ∧ slot t c n = { slot s c n with state := .run, rope := some r } ∧
      (cluster t c).ready = (cluster s c).ready.filter (· != n) ∧ (cluster t c).lastTaskCore = ropeCore r % 16 ∧
      ∃ u, rope t r = { taskStarted u (rope s r) n (slot s c n) with st := .ready } := by
  intro t
  let b := slotTraced s c n r
  let v := setRope b r (taskStarted b (rope s r) n (slot s c n))
  have ht : t = makeReady v r := startTask_eq hk hw
  have hb := slotTraced_traced s c n r
  obtain ⟨ropes, cores, hready⟩ := makeReady_only v r
  have hslotOf : slot t c n = slot b c n := by rw [ht, hready]; rfl
  have hclusterOf : cluster t c = cluster b c := by rw [ht, hready]; rfl
  have hready' : (cluster b c).ready = (cluster (slotStarted s c n r) c).ready := by
    change (untraced (cluster b c)).ready = _
    rw [hb.cluster]
    rfl
  have hlast' : (cluster b c).lastTaskCore = (cluster (slotStarted s c n r) c).lastTaskCore := by
    change (untraced (cluster b c)).lastTaskCore = _
    rw [hb.cluster]
    rfl
  refine ⟨?_, ?_, ?_, ?_, ?_, b, ?_⟩
  · rw [ht]
    exact otherRopesKept_makeReady fun q hq => (rope_setRope_ne b _ hq.symm).trans (rope_slotTraced s c n r q)
  · rw [ht, hready]
    exact hb.time
  · rw [hslotOf, slots_congr hb.cluster]
    exact (slot_modCluster _ _ (by intro; rfl) _ _).trans (slot_setSlot_same _ _ _ nofun)
  · rw [hclusterOf, hready', slotStarted, cluster_modCluster, if_pos rfl, setSlot, cluster_modCluster, if_pos rfl, unready,
      cluster_modCluster, if_pos rfl]
  · rw [hclusterOf, hlast', slotStarted, cluster_modCluster, if_pos rfl]
  · rw [ht, rope_makeReady_same]
    exact congrArg (fun x : Rope => { x with st := RopeSt.ready }) (rope_setRope_same b r _)

/-! ### Slots wake -/

/-- Slots made ready one by one with a reason: each that is named, and no other. -/
theorem foldl_readySlot (c reason : Nat) (l : List Nat) (s : State) : let t := l.foldl (fun s n => readySlot s c n reason) s
    Ranked s t ∧ (∀ n, n ∉ l → slot t c n = slot s c n) ∧ ∀ n, n ∈ l → slot t c n = readied (slot s c n) reason := by
  induction l generalizing s with
  | nil => exact ⟨Ranked.refl s, fun _ _ => rfl, nofun⟩
  | cons m l ih =>
    obtain ⟨hranked, hout, hin⟩ := ih (readySlot s c m reason)
    refine ⟨(readySlot_ranked (Ranked.refl s)).trans hranked, fun n hn => ?_, fun n hn => ?_⟩
    · rw [List.mem_cons, not_or] at hn
      exact (hout n hn.2).trans (slot_readySlot_ne _ _ _ (Ne.symm hn.1))
    · by_cases hl : n ∈ l
      · refine (hin n hl).trans ?_
        by_cases hnm : m = n
        · rw [hnm, slot_readySlot_same]
          rfl
        · rw [slot_readySlot_ne _ _ _ hnm]
      · obtain rfl : n = m := (List.mem_cons.mp hn).resolve_right hl
        exact (hout n hl).trans (slot_readySlot_same _ _ _ _)

/-- A map whose keys rise lists what it finds, once. -/
theorem mem_iff_mfind {α : Type} {m : Map α} (h : keysRise m = true) {k : Nat} {x : α} : (k, x) ∈ m ↔ mfind m k = some x := by
  induction m with
  | nil => exact ⟨nofun, nofun⟩
  | cons e m ih =>
    obtain ⟨a, v⟩ := e
    have hlt := keysRise_lt h
    have ih := ih (keysRise_tail h)
    by_cases hak : a = k
    · subst hak
      rw [mfind, if_pos rfl, List.mem_cons, Option.some_inj]
      refine ⟨fun hmem => hmem.elim (fun e => (Prod.mk.inj e).2.symm) fun hm => absurd (hlt _ hm) (Nat.lt_irrefl _),
        fun e => .inl (by rw [e])⟩
    · rw [mfind, if_neg hak, List.mem_cons, ← ih]
      exact ⟨fun hmem => hmem.resolve_left fun e => hak (Prod.mk.inj e).1.symm, .inr⟩

theorem mfind_slots {s : State} {c n : Nat} (h : (slot s c n).state ≠ .free) : mfind (cluster s c).slots n = some (slot s c n) := by
  rw [slot, mget] at h ⊢
  cases hfind : mfind (cluster s c).slots n with
  | none => rw [hfind] at h; exact absurd rfl h
  | some x => rfl

theorem slots_readySlot (s : State) (c n reason : Nat) :
    (cluster (readySlot s c n reason) c).slots = mset (cluster s c).slots n (readied (slot s c n) reason) := by
  have htrace (u : State) (kind : Nat) (x : Slot) (rp q : Nat) : (cluster (trace u c kind n x rp q) c).slots = (cluster u c).slots := by
    change (untraced (cluster (trace u c kind n x rp q) c)).slots = _
    rw [(trace_traced (Traced.refl u)).cluster]
    rfl
  refine (htrace _ _ _ _ _).trans ?_
  rw [cluster_modCluster, if_pos rfl, setSlot, cluster_modCluster, if_pos rfl]
  rfl

theorem keysRise_foldl_readySlot {c reason : Nat} (l : List Nat) {s : State} (h : keysRise (cluster s c).slots = true) :
    keysRise (cluster (l.foldl (fun s n => readySlot s c n reason) s) c).slots = true := by
  induction l generalizing s with
  | nil => exact h
  | cons n l ih => exact ih (by rw [slots_readySlot]; exact keysRise_mset _ _ h)

/-- A slot whose timeout fires. -/
def timedSlot (x : Slot) (us : Nat) : Slot := { readied x 1 with timedOut := some us }

theorem timeoutSlot_ranked {s₀ s : State} {c n : Nat} (h : Ranked s₀ s) : Ranked s₀ (timeoutSlot s c n) :=
  setSlot_ranked (readySlot_ranked (bump_ranked h (by decide) (by decide)))

theorem slot_timeoutSlot_same (s : State) (c n : Nat) : slot (timeoutSlot s c n) c n = timedSlot (slot s c n) (ft s / 1000) := by
  have hready : Ranked s (readySlot (bump s (0x4050 + c) 0x0B) c n 1) :=
    readySlot_ranked (bump_ranked (Ranked.refl s) (by decide) (by decide))
  have hslot : slot (readySlot (bump s (0x4050 + c) 0x0B) c n 1) c n = readied (slot s c n) 1 := slot_readySlot_same _ _ _ _
  have hft : ft (readySlot (bump s (0x4050 + c) 0x0B) c n 1) = ft s := by rw [ft, ft, ftAt, ftAt, hready.time]
  unfold timeoutSlot
  dsimp only
  rw [hslot, hft]
  exact slot_setSlot_same _ _ _ nofun

theorem slot_timeoutSlot_ne (s : State) (c : Nat) {n m : Nat} (h : n ≠ m) : slot (timeoutSlot s c n) c m = slot s c m :=
  (slot_setSlot_ne _ _ _ h).trans (slot_readySlot_ne _ _ _ h)

theorem foldl_timeoutSlot (c : Nat) (l : List Nat) (s : State) : let t := l.foldl (fun s n => timeoutSlot s c n) s
    Ranked s t ∧ (∀ n, n ∉ l → slot t c n = slot s c n) ∧ ∀ n, n ∈ l → slot t c n = timedSlot (slot s c n) (ft s / 1000) := by
  induction l generalizing s with
  | nil => exact ⟨Ranked.refl s, fun _ _ => rfl, nofun⟩
  | cons m l ih =>
    have hone : Ranked s (timeoutSlot s c m) := timeoutSlot_ranked (Ranked.refl s)
    have hft : ft (timeoutSlot s c m) = ft s := by rw [ft, ft, ftAt, ftAt, hone.time]
    obtain ⟨hranked, hout, hin⟩ := ih (timeoutSlot s c m)
    rw [hft] at hin
    refine ⟨hone.trans hranked, fun n hn => ?_, fun n hn => ?_⟩
    · rw [List.mem_cons, not_or] at hn
      exact (hout n hn.2).trans (slot_timeoutSlot_ne _ _ (Ne.symm hn.1))
    · by_cases hl : n ∈ l
      · refine (hin n hl).trans ?_
        by_cases hnm : m = n
        · rw [hnm, slot_timeoutSlot_same]
          rfl
        · rw [slot_timeoutSlot_ne _ _ hnm]
      · obtain rfl : n = m := (List.mem_cons.mp hn).resolve_right hl
        exact (hout n hl).trans (slot_timeoutSlot_same _ _ _)

/-- What a sweep does to a cluster whose slots are listed once. -/
theorem sweepWaits_facts {s : State} {c : Nat} (at_ : Nat) (h : keysRise (cluster s c).slots = true) : let t := sweepWaits s c at_
    Ranked s t ∧ (∀ n, (slot s c n).state ≠ .wait → slot t c n = slot s c n) ∧
      ∀ n u, (slot s c n).state = .wait → (slot s c n).due = some u → u ≤ at_ → slot t c n = timedSlot (slot s c n) (ft s / 1000) := by
  intro t
  obtain ⟨hranked, hout, hin⟩ := foldl_timeoutSlot c (((cluster s c).slots.filter (fun e => e.2.state == .wait &&
    (match e.2.due with | some t => decide (t ≤ at_) | none => false))).map (·.1)) s
  refine ⟨hranked, fun n hn => hout n fun hmem => ?_, fun n u hwait hdue hu => hin n ?_⟩
  · obtain ⟨⟨m, x⟩, he, rfl⟩ := List.mem_map.mp hmem
    obtain ⟨hx, hcond⟩ := List.mem_filter.mp he
    have hslot : slot s c m = x := by rw [slot, mget, (mem_iff_mfind h).mp hx]; rfl
    rw [Bool.and_eq_true, beq_iff_eq] at hcond
    exact hn (by rw [hslot]; exact hcond.1)
  · refine List.mem_map.mpr ⟨(n, slot s c n), List.mem_filter.mpr ⟨(mem_iff_mfind h).mpr (mfind_slots ?_), ?_⟩, rfl⟩
    · rw [hwait]
      exact nofun
    · dsimp only
      rw [hwait, hdue]
      simpa using hu

theorem mem_wakeInsert {e x : Nat × Nat} {l : List (Nat × Nat)} : x ∈ wakeInsert e l ↔ x = e ∨ x ∈ l := by
  induction l with
  | nil => simp [wakeInsert]
  | cons u us ih =>
    unfold wakeInsert
    split
    · exact List.mem_cons
    · rw [List.mem_cons, ih, List.mem_cons]
      tauto

theorem mem_foldl_wakeInsert {x : Nat × Nat} (m : List (Nat × Slot)) (l : List (Nat × Nat)) :
    x ∈ m.foldl (fun l e => wakeInsert (e.2.wake, e.1) l) l ↔ x ∈ l ∨ ∃ e ∈ m, x = (e.2.wake, e.1) := by
  induction m generalizing l with
  | nil => simp
  | cons e m ih =>
    rw [List.foldl_cons, ih, mem_wakeInsert]
    simp only [List.mem_cons, exists_eq_or_imp]
    tauto

/-- The slots in delay whose instant has come, by the instant. -/
def dueSlots (s : State) (c tick : Nat) : List (Nat × Nat) :=
  ((cluster s c).slots.filter (fun e => e.2.state == .delay && decide (e.2.wake ≤ tick))).foldl
    (fun l e => wakeInsert (e.2.wake, e.1) l) []

theorem mem_dueSlots {s : State} {c tick n : Nat} (h : keysRise (cluster s c).slots = true) :
    n ∈ (dueSlots s c tick).map (·.2) ↔ (slot s c n).state = .delay ∧ (slot s c n).wake ≤ tick := by
  rw [dueSlots, List.mem_map]
  constructor
  · rintro ⟨⟨w, m⟩, hmem, rfl⟩
    obtain ⟨⟨m', x⟩, he, heq⟩ := ((mem_foldl_wakeInsert _ _).mp hmem).resolve_left nofun
    obtain ⟨rfl, rfl⟩ := Prod.mk.inj heq
    obtain ⟨hx, hcond⟩ := List.mem_filter.mp he
    have hslot : slot s c m = x := by rw [slot, mget, (mem_iff_mfind h).mp hx]; rfl
    rw [hslot]
    simpa using hcond
  · rintro ⟨hdelay, hwake⟩
    refine ⟨((slot s c n).wake, n), (mem_foldl_wakeInsert _ _).mpr (.inr ⟨(n, slot s c n), List.mem_filter.mpr ⟨?_, ?_⟩, rfl⟩), rfl⟩
    · refine (mem_iff_mfind h).mpr (mfind_slots ?_)
      rw [hdelay]
      exact nofun
    · simpa [hdelay] using hwake

/-- The tick of a cluster at the instant of a state. -/
def ticked (s : State) (c : Nat) : State :=
  let tick := ft s / 1000 * 1000
  sweepWaits ((dueSlots s c tick).foldl (fun s e => readySlot s c e.2 2) s) c (s.time.now - nsU (ft s - tick))

theorem ticked_facts {s : State} {c : Nat} (h : keysRise (cluster s c).slots = true) : let t := ticked s c
    Ranked s t ∧ (∀ n, (slot s c n).state = .delay → (slot s c n).wake ≤ ft s / 1000 * 1000 → slot t c n = readied (slot s c n) 2) ∧
      ∀ n u, (slot s c n).state = .wait → (slot s c n).due = some u → u ≤ s.time.now - 90 * (ft s % 1000) →
        slot t c n = timedSlot (slot s c n) (ft s / 1000) := by
  intro t
  obtain ⟨v, hv⟩ : ∃ v, v = (dueSlots s c (ft s / 1000 * 1000)).foldl (fun s e => readySlot s c e.2 2) s := ⟨_, rfl⟩
  have hv' : v = ((dueSlots s c (ft s / 1000 * 1000)).map (·.2)).foldl (fun s n => readySlot s c n 2) s := by
    rw [hv, List.foldl_map]
  have hfold := foldl_readySlot c 2 ((dueSlots s c (ft s / 1000 * 1000)).map (·.2)) s
  rw [← hv'] at hfold
  obtain ⟨hranked, hout, hin⟩ := hfold
  have hkeys : keysRise (cluster v c).slots = true := by
    rw [hv']
    exact keysRise_foldl_readySlot _ h
  have hat : s.time.now - nsU (ft s - ft s / 1000 * 1000) = s.time.now - 90 * (ft s % 1000) := by
    have : ft s - ft s / 1000 * 1000 = ft s % 1000 := by omega
    rw [this, nsU, Nat.mul_comm]
  have ht : t = sweepWaits v c (s.time.now - 90 * (ft s % 1000)) := by
    rw [← hat, hv]
    rfl
  have hft : ft v = ft s := by rw [ft, ft, ftAt, ftAt, hranked.time]
  obtain ⟨hsweep, hkeep, htimed⟩ := sweepWaits_facts (s.time.now - 90 * (ft s % 1000)) hkeys
  rw [← ht] at hsweep hkeep htimed
  refine ⟨hranked.trans hsweep, fun n hdelay hwake => ?_, fun n u hwait hdue hu => ?_⟩
  · have hslot := hin n ((mem_dueSlots h).mpr ⟨hdelay, hwake⟩)
    rw [hkeep n (by rw [hslot]; exact nofun), hslot]
  · have hslot := hout n fun hmem => nomatch hwait.symm.trans ((mem_dueSlots h).mp hmem).1
    rw [← hslot, ← hft]
    exact htimed n u (by rw [hslot]; exact hwait) (by rw [hslot]; exact hdue) hu

/-- The state whose tick a DELAY_TICK runs: the next where the cluster has had the last. -/
def tickState (s : State) (c : Nat) : State :=
  let s := if (cluster s c).lastTick = ft s / 1000 then advanceToFt s ((ft s / 1000 + 1) * 1000) else s
  modCluster s c (fun y => { y with lastTick := ft s / 1000 })

theorem exec_delayTick_ok {s : State} {c : BitVec 4} (hon : on s = true) (habsent : absent s = false) :
    exec (.delayTick c) s = .next (ticked (tickState s c.toNat) c.toNat) := by
  change execDelayTick c s = _
  rw [execDelayTick, if_neg (by rw [hon, habsent]; decide)]
  rfl

theorem tickState_facts (s : State) (c : Nat) : let t := tickState s c
    t.ropes = s.ropes ∧ ((cluster s c).lastTick = ft s / 1000 → s.time.now < t.time.now) ∧
      ((cluster s c).lastTick ≠ ft s / 1000 → t.time = s.time) ∧ (cluster t c).lastTick = ft t / 1000 ∧
      (cluster t c).slots = (cluster s c).slots := by
  intro t
  obtain ⟨v, hv⟩ : ∃ v, v = if (cluster s c).lastTick = ft s / 1000 then advanceToFt s ((ft s / 1000 + 1) * 1000) else s := ⟨_, rfl⟩
  have ht : t = modCluster v c (fun y => { y with lastTick := ft v / 1000 }) := by rw [hv]; rfl
  have hcluster : cluster t c = { cluster v c with lastTick := ft v / 1000 } := by rw [ht, cluster_modCluster, if_pos rfl]
  have hkeeps : v.ropes = s.ropes ∧ v.clusters = s.clusters := by
    rw [hv]
    split
    · obtain ⟨time, h⟩ := advanceToFt_only s ((ft s / 1000 + 1) * 1000)
      rw [h]
      exact ⟨rfl, rfl⟩
    · exact ⟨rfl, rfl⟩
  obtain ⟨hropes, hclusters⟩ := hkeeps
  refine ⟨by rw [ht]; exact hropes, fun hlast => ?_, fun hlast => ?_, ?_, ?_⟩
  · rw [ht, hv, if_pos hlast]
    exact now_lt_advanceToFt (by omega)
  · rw [ht, hv, if_neg hlast]
    rfl
  · rw [hcluster, ht]
    rfl
  · rw [hcluster]
    exact congrArg (fun m => (mget m c ({} : Cluster)).slots) hclusters

/-- The state of a sweep, with its instant. -/
def sweepState (s : State) (c : Nat) : State :=
  let t := (cluster s c).sweptAt + usU 64
  let s := advanceTo s t
  modCluster s c (fun y => { y with sweptAt := t + (s.time.now - t) / usU 64 * usU 64 })

theorem exec_waitTimeoutSweep_ok {s : State} {c : BitVec 4} (hon : on s = true) (habsent : absent s = true) :
    exec (.waitTimeoutSweep c) s =
      .next (sweepWaits (sweepState s c.toNat) c.toNat (cluster (sweepState s c.toNat) c.toNat).sweptAt) := by
  change execWaitTimeoutSweep c s = _
  rw [execWaitTimeoutSweep, if_neg (by rw [hon, habsent]; decide)]
  rfl

theorem sweepState_facts (s : State) (c : Nat) : let t := sweepState s c
    t.ropes = s.ropes ∧ t.time.now = max s.time.now ((cluster s c).sweptAt + 5760000) ∧
      (cluster t c).sweptAt ≤ t.time.now ∧ t.time.now < (cluster t c).sweptAt + 5760000 ∧
      (cluster t c).slots = (cluster s c).slots := by
  intro t
  have hus : usU 64 = 5760000 := by decide
  obtain ⟨from_, hfrom⟩ : ∃ f, (cluster s c).sweptAt + usU 64 = f := ⟨_, rfl⟩
  obtain ⟨v, hv⟩ : ∃ v, v = advanceTo s from_ := ⟨_, rfl⟩
  have ht : t = modCluster v c (fun y => { y with sweptAt := from_ + (v.time.now - from_) / usU 64 * usU 64 }) := by
    rw [hv, ← hfrom]
    rfl
  have hropes : v.ropes = s.ropes := by rw [hv]; rfl
  have hslots : (cluster v c).slots = (cluster s c).slots := by rw [hv]; rfl
  have hvnow : v.time.now = max s.time.now from_ := by
    rw [hv]
    exact advanceTo_now _ _
  have hnow : t.time.now = v.time.now := by rw [ht]; rfl
  have hcluster : cluster t c = { cluster v c with sweptAt := from_ + (v.time.now - from_) / usU 64 * usU 64 } := by
    rw [ht, cluster_modCluster, if_pos rfl]
  have hpart := Nat.div_add_mod (v.time.now - from_) 5760000
  have hless := Nat.mod_lt (v.time.now - from_) (show 5760000 > 0 by decide)
  rw [hus] at hcluster hfrom
  refine ⟨by rw [ht]; exact hropes, by rw [hnow, hvnow, hfrom], ?_, ?_, by rw [hcluster]; exact hslots⟩
  · rw [hcluster, hnow]
    dsimp only
    omega
  · rw [hcluster, hnow]
    dsimp only
    omega

theorem Ranked.lastTick {s t : State} (h : Ranked s t) (c : Nat) : (Machine.cluster t c).lastTick = (Machine.cluster s c).lastTick := by
  change (unranked (Machine.cluster t c)).lastTick = (unranked (Machine.cluster s c)).lastTick
  rw [h.cluster]

theorem Ranked.sweptAt {s t : State} (h : Ranked s t) (c : Nat) : (Machine.cluster t c).sweptAt = (Machine.cluster s c).sweptAt := by
  change (unranked (Machine.cluster t c)).sweptAt = (unranked (Machine.cluster s c)).sweptAt
  rw [h.cluster]

/-- Settles O29: a task's start, and the ticks and sweeps that ready the slots whose time has come. -/
theorem tasksStartAndWakeInTime : Obligations.TasksStartAndWakeInTime := by
  refine ⟨?_, ?_, ?_⟩
  · intro s c n r rest k y hon hdoze hready hrope hcluster hk hw
    have hexec := exec_taskDispatch_cases hon hdoze hready hrope
    refine ⟨fun hclaims => hexec.trans (if_pos hclaims), fun hclaims => ⟨_, hexec.trans (if_neg (by rw [hclaims]; decide)), ?_⟩⟩
    obtain ⟨hothers, htime, hslot, hlist, hlast, u, hu⟩ := startTask_facts (c := k) (n := n) hk hw
    refine ⟨hothers, htime, hslot, ?_, hlast, ?_⟩
    · rw [hlist, hready, List.filter_cons, if_neg (by simp)]
    · rw [hu]
      exact ⟨rfl, rfl, rfl, rfl, rfl, rfl, rfl, rfl, rfl, fun d => getW_taskStarted u (rope s r) n y d⟩
  · intro s c k habsent hon hkeys
    obtain ⟨hropes, hmoves, hstays, hlast, hslots⟩ := tickState_facts s k
    obtain ⟨u, hu⟩ : ∃ u, u = tickState s k := ⟨_, rfl⟩
    have hexec : exec (.delayTick c) s = .next (ticked (tickState s k) k) := exec_delayTick_ok hon habsent
    rw [← hu] at hropes hmoves hstays hlast hslots hexec
    obtain ⟨hranked, hdelay, hwait⟩ := ticked_facts (s := u) (c := k) (by rw [hslots]; exact hkeys)
    have hslot (m : Nat) : slot u k m = slot s k m := by rw [slot, hslots]; rfl
    have hft : ft (ticked u k) = ft u := by rw [ft, ft, ftAt, ftAt, hranked.time]
    have htick : (cluster (ticked u k) k).lastTick = (cluster u k).lastTick := hranked.lastTick k
    simp only [hslot] at hdelay hwait
    refine ⟨_, hexec, hranked.ropes.trans hropes, fun h => ?_, fun h => hranked.time.trans (hstays h), ?_, fun n h h' => ?_,
      fun n v h h' h'' => ?_⟩
    · rw [hranked.time]
      exact hmoves h
    · rw [htick, hlast, hft]
    · rw [hft] at h'
      exact hdelay n h h'
    · rw [hft, hranked.time] at h''
      rw [hft]
      exact hwait n v h h' h''
  · intro s c k habsent hon hkeys
    obtain ⟨hropes, hnow, hle, hlt, hslots⟩ := sweepState_facts s k
    obtain ⟨u, hu⟩ : ∃ u, u = sweepState s k := ⟨_, rfl⟩
    have hexec : exec (.waitTimeoutSweep c) s = .next (sweepWaits (sweepState s k) k (cluster (sweepState s k) k).sweptAt) :=
      exec_waitTimeoutSweep_ok hon habsent
    rw [← hu] at hropes hnow hle hlt hslots hexec
    obtain ⟨hranked, -, htimed⟩ := sweepWaits_facts (s := u) (c := k) (cluster u k).sweptAt (by rw [hslots]; exact hkeys)
    have hslot (m : Nat) : slot u k m = slot s k m := by rw [slot, hslots]; rfl
    have hft : ft (sweepWaits u k (cluster u k).sweptAt) = ft u := by rw [ft, ft, ftAt, ftAt, hranked.time]
    have hswept : (cluster (sweepWaits u k (cluster u k).sweptAt) k).sweptAt = (cluster u k).sweptAt := hranked.sweptAt k
    simp only [hslot] at htimed
    refine ⟨_, hexec, hranked.ropes.trans hropes, ?_, ?_, ?_, fun n v h h' h'' => ?_⟩
    · rw [hranked.time, hnow]
    · rw [hswept, hranked.time]
      exact hle
    · rw [hswept, hranked.time]
      exact hlt
    · rw [hswept] at h''
      rw [hft]
      exact htimed n v h h' h''

end Sys2Proof.Proofs

/-! The lead rope (R191 to R193, R387). -/

namespace Sys2Proof.Proofs

open Sys2Proof.Machine Sys2Proof.Claim

/-! ### An election -/

/-- The state in which a rope has been elected, before its registers: the old lead rope noted, the election counted. -/
def electionNoted (s : State) (c old : Nat) : State := bump32 (modCluster s c (fun y => { y with prevLead := old })) (0x4030 + c) 2

/-- The rope that starts as lead rope. -/
def leadStarted (s : State) (x : Rope) (entry : BitVec 32) (pending : BitVec 64) : Rope :=
  { startRope s x entry 2 [] with pending := pending, pitch := none, task := none, pinned := none }

theorem startLead_facts (s : State) (c n : Nat) (p : BitVec 64) : let t := startLead s c n p
    (∀ q, q ≠ c * 128 + n → rope t q = rope s q) ∧
      rope t (c * 128 + n) = { leadStarted s (rope s (c * 128 + n)) (cluster s c).leadEntry p with st := .ready } ∧
      t.time = s.time ∧ cluster t c = { cluster s c with leadRope := n, beatAt := s.time.now } ∧ ∀ i a, obj t i a = obj s i a := by
  intro t
  let v := modCluster (setRope s (c * 128 + n) (leadStarted s (rope s (c * 128 + n)) (cluster s c).leadEntry p)) c
    (fun y => { y with leadRope := n, beatAt := s.time.now })
  have ht : t = makeReady v (c * 128 + n) := rfl
  obtain ⟨ropes, cores, hready⟩ := makeReady_only v (c * 128 + n)
  have hrope (q : Nat) : rope v q = rope (setRope s (c * 128 + n) (leadStarted s (rope s (c * 128 + n)) (cluster s c).leadEntry p)) q := rfl
  refine ⟨fun q hq => ?_, ?_, ?_, ?_, fun i a => ?_⟩
  · rw [ht, rope_makeReady, if_neg hq, hrope]
    exact rope_setRope_ne s _ hq.symm
  · rw [ht, rope_makeReady_same, hrope, rope_setRope_same]
  · rw [ht, hready]
    rfl
  · have hcluster : cluster t c = cluster v c := by rw [ht, hready]; rfl
    rw [hcluster, cluster_modCluster, if_pos rfl]
    rfl
  · rw [ht, hready]
    rfl

theorem vacate_idle {s : State} {r : Nat} (hp : (rope s r).pitch = none) (ht : (rope s r).task = none) : vacate s r = s := by
  rw [vacate]
  dsimp only
  rw [hp, ht]
  rfl

/-- What an election leaves and makes, by the place of the elected rope's core after the old one's. -/
theorem electLead_facts {s : State} {c i : Nat} (hi : i < 15) :
    let old := (cluster s c).leadRope
    let m (j : Nat) := (old / 8 + 1 + j) % 16
    let new := c * 128 + (m i * 8 + 7)
    let t := electLead s c
    fenced s (c * 16 + m i) = false → (rope s new).st ≠ .parked → (rope s new).pitch = none → (rope s new).task = none →
    (∀ j, j < i → fenced s (c * 16 + m j) = true ∨ (rope s (c * 128 + (m j * 8 + 7))).st = .parked) →
    (∀ q, q ≠ new → rope t q = rope s q) ∧
      (∃ u, rope t new = { leadStarted u (rope s new) (cluster s c).leadEntry ((rope s (c * 128 + old)).pending ||| evBasecamp) with st := .ready }) ∧
      t.time = s.time ∧ (cluster t c).leadRope = m i * 8 + 7 ∧ (cluster t c).prevLead = old ∧ (cluster t c).beatAt = s.time.now ∧
      obj t (0x4030 + c) 2 = (obj s (0x4030 + c) 2 + 1) % 2 ^ 32 := by
  intro old m new t hopen hst hpitch htask hbefore
  have hfind : ((List.range 15).map (fun j => (old / 8 + 1 + j) % 16)).find? (fun n =>
      !fenced s (c * 16 + n) && (rope s (c * 128 + n * 8 + 7)).st != .parked) = some (m i) := by
    have h : (List.range 15).find? (fun j => !fenced s (c * 16 + m j) && (rope s (c * 128 + m j * 8 + 7)).st != .parked) = some i := by
      refine List.find?_range_eq_some.mpr ⟨?_, List.mem_range.mpr hi, fun j hj => ?_⟩
      · rw [hopen, Bool.not_false, Bool.true_and, bne_iff_ne]
        exact hst
      · rcases hbefore j hj with hf | hp
        · rw [hf]
          rfl
        · rw [show c * 128 + m j * 8 + 7 = c * 128 + (m j * 8 + 7) from Nat.add_assoc _ _ _, hp, bne_self_eq_false, Bool.and_false]
          rfl
    have hmap (l : List Nat) : (l.map m).find? (fun n => !fenced s (c * 16 + n) && (rope s (c * 128 + n * 8 + 7)).st != .parked) =
      (l.find? (fun j => !fenced s (c * 16 + m j) && (rope s (c * 128 + m j * 8 + 7)).st != .parked)).map m := List.find?_map
    exact (hmap _).trans (by rw [h]; rfl)
  let a := electionNoted s c old
  let b := startLead a c (m i * 8 + 7) ((rope s (c * 128 + old)).pending ||| evBasecamp)
  let d := rankMoved (rankMoved b (c * 128 + old)) new
  have hvacate : vacate s (c * 128 + m i * 8 + 7) = s := vacate_idle hpitch htask
  have ht : t = cairn d 5 4 2 (toLE 1 c ++ toLE 1 (m i * 8 + 7) ++ toLE 1 old) := by
    change electLead s c = _
    rw [electLead]
    dsimp only
    rw [hfind]
    dsimp only
    rw [hvacate]
    rfl
  obtain ⟨hothers, hnew, htime, hcluster, hobj⟩ := startLead_facts a c (m i * 8 + 7) ((rope s (c * 128 + old)).pending ||| evBasecamp)
  have hrank : Ranked b t := by
    rw [ht]
    exact (rankMoved_ranked (rankMoved_ranked (Ranked.refl b))).trans (cairn_traced (Traced.refl d)).ranked
  have hclusterA : cluster a c = { cluster s c with prevLead := old } := by
    have : cluster a c = cluster (modCluster s c (fun y => { y with prevLead := old })) c := rfl
    rw [this, cluster_modCluster, if_pos rfl]
  have hclusterB : cluster b c = { cluster s c with prevLead := old, leadRope := m i * 8 + 7, beatAt := s.time.now } := by
    rw [hcluster, hclusterA]
    rfl
  have hkept : unranked (cluster t c) = unranked { cluster s c with prevLead := old, leadRope := m i * 8 + 7, beatAt := s.time.now } := by
    rw [hrank.cluster, hclusterB]
  refine ⟨fun q hq => (hrank.rope q).trans (hothers q hq), ⟨a, ?_⟩, hrank.time.trans htime, ?_, ?_, ?_, ?_⟩
  · rw [hrank.rope, hnew, hclusterA]
    rfl
  · exact (congrArg Cluster.leadRope hkept : (unranked (cluster t c)).leadRope = _)
  · exact (congrArg Cluster.prevLead hkept : (unranked (cluster t c)).prevLead = _)
  · exact (congrArg Cluster.beatAt hkept : (unranked (cluster t c)).beatAt = _)
  · rw [hrank.obj, hobj, show a = electionNoted s c old from rfl, electionNoted, bump32, obj_putObj_same]
    rfl

/-! ### A lead rope parks -/

theorem obj_cairnDrop (s : State) (level : Nat) {i a : Nat} (ha : a < 6) : obj (cairnDrop s level) i a = obj s i a :=
  obj_bump_ne { s with cairn := { s.cairn with tokens := level, tokensAt := s.time.now, dropped := s.cairn.dropped + 1 } }
    (by decide) (by omega) (.inr (by omega))

theorem obj_cairn (s : State) (src code sev : Nat) (data : List Byte) {i a : Nat} (ha : a < 6) :
    obj (cairn s src code sev data) i a = obj s i a := by
  unfold cairn
  split
  · rfl
  · split
    · exact obj_cairnDrop _ _ ha
    · split
      · rfl
      · exact obj_cairnDrop _ _ ha

/-- The rope that a fault leaves, where it runs no pitch. -/
def parkedRope (x : Rope) (now code : Nat) (addr : BitVec 64) : Rope :=
  { x with st := .parked, parkedAt := now, frec := { pc := x.pc, code := code, valid := true, addr := addr }, pitch := none }

theorem parkedRope_eq {x : Rope} (h : x.pitch = none) (now code : Nat) (addr : BitVec 64) : parkedRope x now code addr =
    { x with st := .parked, parkedAt := now, frec := { pc := x.pc, code := code, valid := true, addr := addr } } := by
  rw [parkedRope, ← h]

/-- A rope with no pitch, no task and no result pending parks. -/
theorem parkAs_plain {s : State} {r : Nat} (code : Nat) (addr : BitVec 64) (hk : (rope s r).kPend = []) (hp : (rope s r).pitch = none)
    (ht : (rope s r).task = none) : let t := (parkAs s r code addr).1
    (∀ q, q ≠ r → rope t q = rope s q) ∧ rope t r = parkedRope (rope s r) s.time.now code addr ∧ t.sys = s.sys ∧ t.time = s.time ∧
      t.clusters = s.clusters ∧ ∀ i a, a < 6 → obj t i a = obj s i a := by
  intro t
  let v := modRope s r (fun x => { x with st := .parked })
  have hv : rope v r = { rope s r with st := .parked } := rope_modRope_same _ _ _
  have hsettle : kSettle v r = v := by
    rw [kSettle, hv]
    dsimp only
    rw [hk]
    rfl
  let f : FaultRec := { pc := (rope s r).pc, code := code, valid := true, addr := addr }
  let w := giveUp (setRope v r (parkedRope (rope s r) s.time.now code addr)) r
  have ht' : t = cairn w 5 1 2 (toLE 1 (ropeCluster r) ++ frecBytes f) := by
    change (parkAs s r code addr).1 = _
    rw [parkAs, show w = giveUp (setRope v r (parkedRope (rope s r) s.time.now code addr)) r from rfl, parkedRope]
    dsimp only
    rw [hsettle, hv]
    dsimp only
    rw [hp, ht]
    rfl
  obtain ⟨o, k, hw⟩ := giveUp_only (setRope v r (parkedRope (rope s r) s.time.now code addr)) r
  obtain ⟨o', ca, hc⟩ := cairn_only w 5 1 2 (toLE 1 (ropeCluster r) ++ frecBytes f)
  have hrope (q : Nat) : rope t q = rope (setRope v r (parkedRope (rope s r) s.time.now code addr)) q := by
    rw [ht', hc, show w = _ from hw]
    rfl
  refine ⟨fun q hq => ?_, ?_, ?_, ?_, ?_, fun i a ha => ?_⟩
  · rw [hrope, rope_setRope_ne _ _ hq.symm]
    exact rope_modRope_ne _ _ hq.symm
  · rw [hrope, rope_setRope_same]
  · rw [ht', hc, show w = _ from hw]; rfl
  · rw [ht', hc, show w = _ from hw]; rfl
  · rw [ht', hc, show w = _ from hw]; rfl
  · rw [ht', obj_cairn _ _ _ _ _ ha]
    exact obj_giveUp (setRope v r (parkedRope (rope s r) s.time.now code addr)) r (by omega) (by omega)

/-- An election from a state that differs from an earlier one in its old lead rope alone. -/
theorem electLead_after {s v : State} {c i : Nat} {y : Rope} (hi : i < 15) (hlead : (cluster s c).leadRope < 128)
    (hropes : ∀ q, q ≠ c * 128 + (cluster s c).leadRope → rope v q = rope s q) (hold : rope v (c * 128 + (cluster s c).leadRope) = y)
    (hpending : y.pending = (rope s (c * 128 + (cluster s c).leadRope)).pending)
    (hclusters : v.clusters = s.clusters) (hobj : ∀ i a, a < 6 → obj v i a = obj s i a) :
    let cl := cluster s c
    let core (i : Nat) : Nat := c * 16 + (cl.leadRope / 8 + 1 + i) % 16
    let new := core i * 8 + 7
    let t := electLead v c
    fenced s (core i) = false → (rope s new).st ≠ .parked → (rope s new).pitch = none → (rope s new).task = none →
    (∀ j, j < i → fenced s (core j) = true ∨ (rope s (core j * 8 + 7)).st = .parked) →
    (∀ q, q ≠ new → q ≠ c * 128 + cl.leadRope → rope t q = rope s q) ∧ rope t (c * 128 + cl.leadRope) = y ∧
      (cluster t c).leadRope = new % 128 ∧ (cluster t c).prevLead = cl.leadRope ∧ (cluster t c).beatAt = v.time.now ∧ t.time = v.time ∧
      obj t (0x4030 + c) 2 = (obj s (0x4030 + c) 2 + 1) % 2 ^ 32 ∧
      ∃ u x, rope t new = { leadStarted u x cl.leadEntry ((rope s (c * 128 + cl.leadRope)).pending ||| evBasecamp) with st := .ready } := by
  intro cl core new t hopen hst hpitch htask hbefore
  have hcl : cluster v c = cl := by rw [cluster, hclusters]; rfl
  have hcore (j : Nat) : core j * 8 + 7 = c * 128 + ((cl.leadRope / 8 + 1 + j) % 16 * 8 + 7) := by
    change (c * 16 + (cl.leadRope / 8 + 1 + j) % 16) * 8 + 7 = _
    omega
  have hapart (j : Nat) (hj : j < 15) : core j * 8 + 7 ≠ c * 128 + cl.leadRope := by
    rw [hcore]
    have : cl.leadRope < 128 := hlead
    omega
  have hfenced (k : Nat) : fenced v k = fenced s k := by rw [fenced, fenced, hobj _ _ (by decide)]
  have hropeAt (j : Nat) (hj : j < 15) : rope v (core j * 8 + 7) = rope s (core j * 8 + 7) := hropes _ (hapart j hj)
  have helect := electLead_facts (s := v) (c := c) hi
  simp only [hcl, hfenced, ← hcore] at helect
  obtain ⟨hothers, ⟨u, hnew⟩, htime, hleadRope, hprev, hbeat, hcount⟩ := helect hopen
    (by rw [hropeAt i hi]; exact hst) (by rw [hropeAt i hi]; exact hpitch) (by rw [hropeAt i hi]; exact htask)
    (fun j hj => by rw [hropeAt j (hj.trans hi)]; exact hbefore j hj)
  have hne : c * 128 + cl.leadRope ≠ core i * 8 + 7 := (hapart i hi).symm
  refine ⟨fun q hq hq' => (hothers q hq).trans (hropes q hq'), (hothers _ hne).trans hold, ?_, hprev, hbeat, htime, ?_, u, rope v (core i * 8 + 7), ?_⟩
  · rw [hleadRope]
    change _ = (core i * 8 + 7) % 128
    rw [hcore]
    omega
  · rw [hcount, hobj _ _ (by decide)]
  · rw [hnew, hold, hpending]

/-- What a fault counts before its rope parks: one for want of time, in an object of the cluster. -/
theorem faultCounted (s : State) (r code : Nat) : ∃ z, z = (if code = 8 then bump s (0x4040 + ropeCluster r) 0x14 else s) ∧
    z = { s with obj := z.obj } ∧ ∀ i a, a < 6 → obj z i a = obj s i a := by
  refine ⟨_, rfl, ?_, fun i a ha => ?_⟩
  · split <;> rfl
  · split
    · exact obj_bump_ne s (by decide) (by omega) (.inr (by omega))
    · rfl

/-- Settles O26: the beat, and the election after the old lead rope has parked, if it had to. -/
theorem leadRopesBeatAndAreElected : Obligations.LeadRopesBeatAndAreElected := by
  refine ⟨fun s c hon => live_on hon _, ?_⟩
  intro s c i cl old core new y elects hbasecamp hlead hlt hpitch htask hk hi hopen hst hnewPitch hnewTask hbefore
  have hgoal {v : State} {z : Rope} {code : Nat} {addr : BitVec 64} (hropes : ∀ q, q ≠ old → rope v q = rope s q)
      (hold : rope v old = z) (hpending : z.pending = y.pending) (hclusters : v.clusters = s.clusters)
      (hobj : ∀ i a, a < 6 → obj v i a = obj s i a)
      (hz : z = if y.st = .parked then y else { y with
        st := .parked, parkedAt := v.time.now, frec := { pc := y.pc, code := code, valid := true, addr := addr } }) :
      elects (electLead v c.toNat) code addr ∧ (electLead v c.toNat).time = v.time := by
    obtain ⟨hothers, holdRope, hleadRope, hprev, hbeat, htime, hcount, u, x, hnew⟩ :=
      electLead_after hi hlt hropes hold hpending hclusters hobj hopen hst hnewPitch hnewTask hbefore
    refine ⟨⟨hothers, ?_, hleadRope, hprev, ?_, hcount, ?_⟩, htime⟩
    · rw [htime, ← hz]
      exact holdRope
    · rw [htime]
      exact hbeat
    · change let x := rope (electLead v c.toNat) (core i * 8 + 7); _
      rw [hnew]
      refine ⟨rfl, rfl, rfl, fun d => ?_, rfl, rfl, rfl⟩
      change (if d = 0 then (0 : Word) else mget [] d.toNat 0) = 0
      split <;> rfl
  have hcluster : ropeCluster old = c.toNat := by
    change (c.toNat * 128 + cl.leadRope) / 128 = c.toNat
    have : cl.leadRope < 128 := hlt
    omega
  have hleadOf : leadOf s c.toNat = some old := by
    rw [leadOf, if_neg (by rw [hlead]; decide)]
  refine ⟨fun hon hlim hdoze hfree => ?_, fun hdoze => ?_, fun code addr hnot => ?_⟩
  · let z := advanceTo s (cl.beatAt + 90 * obj s (0x4030 + c.toNat) 3)
    have hz : exec (.leadBeatTimeout c) s = .next (electLead (if y.st = .parked then z else (parkAs z old 0x0B 0).1) c.toNat) := by
      change execLeadBeatTimeout c s = _
      rw [execLeadBeatTimeout]
      dsimp only
      rw [hleadOf]
      dsimp only
      rw [if_pos (by simp [hon, hlim, hbasecamp, show ¬(rope s old).st = .free from hfree, show (cluster s c.toNat).doze = false from hdoze]), nsU, Nat.mul_comm _ 90, leadFailed]
      by_cases hparked : y.st = .parked
      · rw [if_pos hparked, if_pos (show (rope z old).st = .parked from hparked), if_neg (by rw [show z.sys.basecampFailed = false from hbasecamp]; decide)]
      · rw [if_neg hparked, if_neg (show ¬(rope z old).st = .parked from hparked), if_neg ?_]
        rw [(parkAs_plain (s := z) (r := old) 0x0B 0 hk hpitch htask).2.2.1, show z.sys.basecampFailed = false from hbasecamp]
        decide
    refine ⟨_, hz, ?_⟩
    have hnow : z.time.now = max s.time.now (cl.beatAt + 90 * obj s (0x4030 + c.toNat) 3) := advanceTo_now _ _
    by_cases hparked : y.st = .parked
    · rw [if_pos hparked]
      obtain ⟨helect, htime⟩ := hgoal (v := z) (code := 0x0B) (addr := 0) (fun q _ => rfl) rfl rfl rfl (fun _ _ _ => rfl) (if_pos hparked).symm
      exact ⟨helect, by rw [htime, hnow]⟩
    · rw [if_neg hparked]
      obtain ⟨hothers, hself, _, htime, hclusters, hobj⟩ := parkAs_plain (s := z) (r := old) 0x0B 0 hk hpitch htask
      obtain ⟨helect, helectTime⟩ := hgoal (code := 0x0B) (addr := 0) hothers hself rfl hclusters hobj
        (by rw [if_neg hparked, htime]; exact parkedRope_eq hpitch _ _ _)
      exact ⟨helect, by rw [helectTime, htime, hnow]⟩
  · change execLeadBeatTimeout c s = _
    rw [execLeadBeatTimeout]
    dsimp only
    rw [hleadOf]
    dsimp only
    rw [if_neg (by rw [show (cluster s c.toNat).doze = true from hdoze]; simp)]
  · obtain ⟨z, hz, hkept⟩ := faultCounted s old code
    obtain ⟨hsame, hobjZ⟩ := hkept
    have hropeZ (q : Nat) : rope z q = rope s q := by rw [rope, rope, hsame]
    obtain ⟨hothers, hself, hsys, htime, hclusters, hobj⟩ := parkAs_plain (s := z) (r := old) code addr
      (by rw [hropeZ]; exact hk) (by rw [hropeZ]; exact hpitch) (by rw [hropeZ]; exact htask)
    have hfault : faultRope s old code addr = electLead (parkAs z old code addr).1 c.toNat := by
      rw [faultRope, ← hz, hcluster, if_pos (by rw [isLead, hcluster, hleadOf]; exact beq_self_eq_true _), leadFailed, hsys, hsame,
        if_neg (by rw [show s.sys.basecampFailed = false from hbasecamp]; decide)]
    rw [hfault]
    refine (hgoal (code := code) (addr := addr) (fun q hq => (hothers q hq).trans (hropeZ q)) hself ?_ (hclusters.trans (by rw [hsame]))
      (fun i a ha => (hobj i a ha).trans (hobjZ i a ha)) ?_).1
    · rw [hropeZ]
      rfl
    · rw [if_neg hnot, hropeZ, htime]
      exact parkedRope_eq hpitch _ _ _

end Sys2Proof.Proofs

/-! The scan dump (R425, R434). -/

namespace Sys2Proof.Proofs

open Sys2Proof.Machine Sys2Proof.Claim

theorem clusters_le (s : State) : clusters s ≤ 16 := by
  rw [clusters, nClusters]
  split <;> decide

theorem nStacks_le (s : State) : nStacks s.sys ≤ 4 := by
  rw [nStacks]
  split <;> decide

theorem nPhys_le (s : State) : nPhys s.sys ≤ 96 := by
  rw [nPhys]
  split <;> decide

theorem length_hbmRead (s : State) (a n : Nat) : (hbmRead s a n).length = n := by
  rw [hbmRead]
  split
  · exact length_rdN _ _ _
  · rw [List.length_map, List.length_zipIdx, length_rdN]

/-! ### The words of a memory target -/

theorem dumpWords_scratch {s : State} {c : Nat} (hc : c < clusters s) : dumpWords s (0x100 + c) = some 524288 :=
  if_pos (by simpa using hc)

theorem dumpWords_imem {s : State} {c : Nat} (hc : c < clusters s) : dumpWords s (0x110 + c) = some 131072 := by
  have := clusters_le s
  rw [dumpWords, if_neg (by simp; omega)]
  exact if_pos (by simpa using hc)

theorem dumpWords_endpoints (s : State) : dumpWords s 0x122 = some 524288 := by
  have := clusters_le s
  rw [dumpWords, if_neg (by simp; omega), if_neg (by simp; omega)]
  rfl

theorem dumpWords_stack {s : State} {k : Nat} (hk : k < nStacks s.sys) : dumpWords s (0x130 + k) = some 4831838208 := by
  have := clusters_le s
  rw [dumpWords, if_neg (by simp; omega), if_neg (by simp; omega), if_neg (by omega), if_neg (by omega), if_neg (by omega),
    if_neg (by simp; omega)]
  exact if_pos (by simpa using hk)

theorem dumpLength_absent (s : State) : dumpLength s 0x160 = 0 := by
  have hc := clusters_le s
  have hk := nStacks_le s
  have hp := nPhys_le s
  have hwords : dumpWords s 0x160 = none := by
    rw [dumpWords, if_neg (by simp; omega), if_neg (by simp; omega), if_neg (by omega), if_neg (by omega), if_neg (by omega),
      if_neg (by simp), if_neg (by simp; omega)]
  have hchain : chainHere s 0x160 = false := by simp [chainHere]; omega
  rw [dumpLength, hwords, hchain]
  rfl

theorem dumpLength_words {s : State} {t n : Nat} (h : dumpWords s t = some n) : dumpLength s t = n := by rw [dumpLength, h]

theorem dumpWord_scratch {s : State} {c a : Nat} (hc : c < clusters s) :
    dumpWord s (0x100 + c) a = ofLE (rdN (cluster s c).scratch (8 * a) 8) := by
  have := clusters_le s
  rw [dumpWord, if_pos (by simp; omega), Nat.add_sub_cancel_left]

theorem dumpWord_imem {s : State} {c a : Nat} (hc : c < clusters s) :
    dumpWord s (0x110 + c) a = ofLE (rdN (cluster s c).imem (8 * a) 8) := by
  have := clusters_le s
  rw [dumpWord, if_neg (by simp), if_pos (by simp; omega), Nat.add_sub_cancel_left]

theorem dumpWord_stack (s : State) (k a : Nat) : dumpWord s (0x130 + k) a = ofLE (hbmRead s (stackByte s k (8 * a)) 8) := by
  rw [dumpWord, if_neg (by simp; omega), if_neg (by simp; omega), if_neg (by omega), if_pos (by omega), Nat.add_sub_cancel_left]

theorem ofLE_eight {bs : List Byte} (h : bs.length = 8) : ofLE bs % 2 ^ 64 = ofLE bs := by
  refine Nat.mod_eq_of_lt ?_
  have := ofLE_lt bs
  rw [h] at this
  exact this

/-! ### The three instructions -/

theorem sxdumpSel_on {s : State} (h : tapOn s = true) (upd : BitVec 32) : exec (.sxdumpSel upd) s = .next (modDbg
    (emit s (.tdo (BitVec.ofNat 128 (b2n s.sys.frozen * 2 ^ 31 + dumpLength s s.dbg.sel.toNat % 2 ^ 31))))
    (fun d => { d with ir := 0xA0#8, sel := upd.setWidth 16, rot := 0 })) := by
  change execSxdumpSel upd s = _
  rw [execSxdumpSel, h]
  rfl

/-- The word that SXDUMP_MEM captures. -/
def dumped (s : State) : Nat :=
  if s.sys.frozen && decide (s.dbg.addr.toNat < (dumpWords s s.dbg.sel.toNat).getD 0) then dumpWord s s.dbg.sel.toNat s.dbg.addr.toNat else 0

theorem sxdumpMem_on {s : State} (h : tapOn s = true) (upd : BitVec 128) : exec (.sxdumpMem upd) s = .next (modDbg
    (emit s (.tdo (BitVec.ofNat 128 (s.dbg.addr.toNat * 2 ^ 64 + dumped s % 2 ^ 64))))
    (fun d => { d with ir := 0xA2#8, addr := if upd.msb then upd.setWidth 64 else s.dbg.addr + 1 })) := by
  change execSxdumpMem upd s = _
  rw [execSxdumpMem, h]
  rfl

theorem dumped_word {s : State} {t n : Nat} (hf : s.sys.frozen = true) (ht : s.dbg.sel.toNat = t) (hw : dumpWords s t = some n)
    (ha : s.dbg.addr.toNat < n) : dumped s = dumpWord s t s.dbg.addr.toNat := by
  rw [dumped, hf, ht, hw]
  exact if_pos (by simpa using ha)

/-- The bits of the selected chain, 0 where there is none. -/
def selectedLength (s : State) : Nat := if chainHere s s.dbg.sel.toNat then chainLength s.dbg.sel.toNat else 0

/-- The selected chain shifts. -/
def shifts (s : State) : Bool := s.sys.frozen && s.dbg.sel.toNat != 0x6B && selectedLength s != 0

theorem sxdumpChain_on {s : State} (h : tapOn s = true) (n : Nat) : exec (.sxdumpChain n) s = .next (modDbg
    (emit s (.tdo (BitVec.ofNat 128 (if shifts s then chainShift s s.dbg.sel.toNat (selectedLength s) s.dbg.rot (min n 128) else 0))))
    (fun d => { d with ir := 0xA1#8, rot := if shifts s then (d.rot + n) % selectedLength s else d.rot })) := by
  change execSxdumpChain n s = _
  rw [execSxdumpChain, h]
  rfl

theorem shifts_not {s : State} (h : s.sys.frozen = false ∨ s.dbg.sel.toNat = 0x6B) : shifts s = false := by
  rcases h with hf | hk
  · rw [shifts, hf]
    rfl
  · rw [shifts, hk, bne_self_eq_false, Bool.and_false]
    rfl

theorem selectedLength_port {s : State} (h : s.dbg.sel.toNat < nPhys s.sys) : selectedLength s = chainLength s.dbg.sel.toNat :=
  if_pos (by simp [chainHere, h])

theorem shifts_port {s : State} (hf : s.sys.frozen = true) (h : s.dbg.sel.toNat < nPhys s.sys) : shifts s = true := by
  have hne : s.dbg.sel.toNat ≠ 0x6B := by
    have := nPhys_le s
    omega
  rw [shifts, hf, selectedLength_port h, chainLength]
  simp [hne]

/-- Settles O55: each instruction's next state, and the length and the word of each kind of target. -/
theorem scanDumpShowsAFrozenDevice : Obligations.ScanDumpShowsAFrozenDevice := by
  intro s hpow
  have htap : tapOn s = s.sys.trstN := by rw [tapOn, bne_iff_ne.mpr hpow, Bool.true_and]
  refine ⟨fun hlow => ?_, fun hhigh => ?_⟩
  · rw [hlow] at htap
    refine ⟨fun upd => ?_, fun n => ?_, fun upd => ?_⟩
    · change execSxdumpSel upd s = _
      rw [execSxdumpSel, htap]
      rfl
    · change execSxdumpChain n s = _
      rw [execSxdumpChain, htap]
      rfl
    · change execSxdumpMem upd s = _
      rw [execSxdumpMem, htap]
      rfl
  rw [hhigh] at htap
  intro sel addr frozen
  refine ⟨fun upd => ?_, fun n => ?_, fun upd => ?_⟩
  · have hlen {n : Nat} (h : dumpLength s sel = n) (hn : n < 2 ^ 31) :
        BitVec.ofNat 128 (frozen * 2 ^ 31 + dumpLength s sel % 2 ^ 31) = BitVec.ofNat 128 (frozen * 2 ^ 31 + n) := by
      rw [h, Nat.mod_eq_of_lt hn]
    refine ⟨_, _, sxdumpSel_on htap upd, rfl, rfl, rfl, rfl, fun h => ?_, fun c hc h => ?_, fun c hc h => ?_, fun h => ?_⟩
    · exact hlen ((congrArg (dumpLength s) h).trans (dumpLength_words (dumpWords_endpoints s))) (by decide)
    · exact hlen ((congrArg (dumpLength s) h).trans (dumpLength_words (dumpWords_scratch hc))) (by decide)
    · exact hlen ((congrArg (dumpLength s) h).trans (dumpLength_words (dumpWords_imem hc))) (by decide)
    · exact (hlen ((congrArg (dumpLength s) h).trans (dumpLength_absent s)) (by decide)).trans (by rw [Nat.add_zero])
  · refine ⟨_, _, sxdumpChain_on htap n, rfl, rfl, rfl, fun h => ?_, fun hf hp => ?_⟩
    · have hnot := shifts_not h
      exact ⟨by rw [hnot]; rfl, by simp only [modDbg, hnot]; rfl⟩
    · simp only [modDbg, emit, shifts_port hf hp, selectedLength_port hp]
      rfl
  · have hword {w : Nat} (h : dumped s = w) (hw : w % 2 ^ 64 = w) :
        BitVec.ofNat 128 (addr * 2 ^ 64 + dumped s % 2 ^ 64) = BitVec.ofNat 128 (addr * 2 ^ 64 + w) := by rw [h, hw]
    refine ⟨_, _, sxdumpMem_on htap upd, rfl, rfl, fun hf => ?_, fun c hf hc h ha => ?_, fun c hf hc h ha => ?_, fun hf h ha => ?_,
      fun k hf hk h ha => ?_⟩
    · exact (hword (by rw [dumped, hf]; rfl) (Nat.zero_mod _)).trans (by rw [Nat.add_zero])
    · refine hword ?_ (ofLE_eight (length_rdN _ _ _))
      rw [dumped_word hf h (dumpWords_scratch hc) ha, dumpWord_scratch hc]
    · refine hword ?_ (ofLE_eight (length_rdN _ _ _))
      rw [dumped_word hf h (dumpWords_imem hc) ha, dumpWord_imem hc]
    · rw [dumped_word hf h (dumpWords_endpoints s) ha]
      rfl
    · refine hword ?_ (ofLE_eight (length_hbmRead _ _ _))
      rw [dumped_word hf h (dumpWords_stack hk) ha, dumpWord_stack]

end Sys2Proof.Proofs

/-! The dictionary's path to a command: a write that finds its object, and is of its length and range (R357, R358, R362). -/

namespace Sys2Proof.Proofs

open Sys2Proof.Machine Sys2Proof.Claim

theorem rowOf_page {v : SysSt} {idx sub n : Nat} {rows : List Row} {r : Row} (hpage : page v idx = some (n, rows)) (hsub : sub ≠ 0)
    (hidx : idx / 4096 ≠ 3) (hrow : rows.find? (fun r => r.sub ≤ sub && sub < r.sub + r.cnt) = some r) : rowOf v idx sub = .ok r := by
  rw [rowOf, hpage]
  dsimp only
  rw [if_neg hsub, if_neg (fun h => hidx h.2.1), hrow]

theorem objectFor_served {s : State} {idx sub : Nat} {r : Row} (hs : Served s idx) (hrow : rowOf s.sys idx sub = .ok r)
    (hband : inBandOnly idx r = false) : objectFor s .can idx sub = .ok r := by
  obtain ⟨_, hheld⟩ := hs
  rw [objectFor, if_neg (by decide), hheld]
  dsimp only
  rw [hrow]
  dsimp only
  rw [if_neg (by rw [hband]; decide)]

/-- A written object that is no DOMAIN, with the bytes of its length. -/
theorem writeObj_value {s : State} {idx sub : Nat} {bs : List Byte} {r : Row} (hs : Served s idx) (hrow : rowOf s.sys idx sub = .ok r)
    (hband : idx / 256 ≠ 0x90) (hacc : r.acc ≠ .ro ∧ r.acc ≠ .const) (hidx : idx / 4096 ≠ 2) (hty : ∀ m, r.ty ≠ .domain m)
    (hlen : bs.length = r.ty.width) : writeObj s .can idx sub bs =
      if allowed r (ofLE bs) then valueWrite s idx sub (ofLE bs) r else (s, abRange, 0) := by
  have hin : inBandOnly idx r = false := by
    rw [inBandOnly]
    cases hr : r.ty with
    | domain m => exact absurd hr (hty m)
    | _ => simp [hband]
  rw [writeObj, objectFor_served hs hrow hin]
  dsimp only
  rw [if_neg (by simp [hacc.1, hacc.2]), if_neg (fun h => hidx h.1)]
  cases hr : r.ty with
  | domain m => exact absurd hr (hty m)
  | _ =>
    dsimp only
    rw [← hr, hlen, bne_self_eq_false]
    cases allowed r (ofLE bs) <;> rfl

theorem put_served {s : State} {idx sub : Nat} {bs : List Byte} (hs : Served s idx) : put s idx sub bs = .next (answered (writeObj s .can idx sub bs)) :=
  if_pos hs.1

theorem valueWrite_go {s : State} {idx sub w : Nat} {r : Row} (hidx : idx < 0x2000 ∨ 0x4000 ≤ idx) (htable : idx ≠ 0x4810) (hacc : r.acc = .wo) :
    valueWrite s idx sub w r = goWrite s idx sub (fieldsOf idx sub w) := by
  rw [valueWrite]
  dsimp only
  rw [if_neg (by omega), if_neg (by omega), if_neg htable, if_pos hacc]

/-- The index of a command object: none of a port or a tenant, no table block, no bulk object. -/
def commandIndex (idx : Nat) : Bool :=
  (decide (idx < 0x2000) || decide (0x4000 ≤ idx)) && idx != 0x4810 && idx / 256 != 0x90

theorem commandIndex_iff {idx : Nat} (h : commandIndex idx = true) : (idx < 0x2000 ∨ 0x4000 ≤ idx) ∧ idx ≠ 0x4810 ∧ idx / 256 ≠ 0x90 := by
  simpa [commandIndex, and_assoc] using h

/-- A write of 1 to a command's BOOL (R358). -/
theorem put_command {s : State} {idx sub n : Nat} {rows : List Row} (hs : Served s idx) (hpage : page s.sys idx = some (n, rows))
    (hrow : rows.find? (fun r => r.sub ≤ sub && sub < r.sub + r.cnt) = some (wo sub .bool)) (hidx : commandIndex idx = true) (hsub : sub ≠ 0) :
    put s idx sub [1] = .next (answered (goWrite s idx sub (fieldsOf idx sub 1))) := by
  obtain ⟨hlow, htable, hband⟩ := commandIndex_iff hidx
  have hwrite := writeObj_value (bs := [1]) hs (rowOf_page hpage hsub (by omega) hrow) hband ⟨nofun, nofun⟩ (by omega) nofun rfl
  rw [put_served hs, hwrite, if_pos (show allowed (wo sub .bool) (ofLE [1]) = true from rfl), valueWrite_go hlow htable rfl]
  rfl

theorem answered_abort (s : State) {c d : Nat} (h : c ≠ 0) : answered (s, c, d) = { bump s 0x0200 7 with answer := .abort c d } :=
  if_neg h

theorem answered_ok (s : State) : answered (ackOk s) = { s with answer := .ok [] } := rfl

end Sys2Proof.Proofs

/-! Records, the start of maintenance (R398 to R401, R416), and compaction (R419 to R421). -/

namespace Sys2Proof.Proofs

open Sys2Proof.Machine Sys2Proof.Claim

/-! ### A record -/

/-- Only the record buffer, its tokens and the count of dropped records have changed. -/
structure Logged (s t : State) : Prop where
  rest : t = { s with obj := t.obj, cairn := t.cairn }
  cairn : t.cairn = { s.cairn with
    tokens := t.cairn.tokens, tokensAt := t.cairn.tokensAt, buffer := t.cairn.buffer, dropped := t.cairn.dropped }
  obj : ∀ {i a}, a < 256 → i ≠ 0x7800 ∨ a ≠ 6 → obj t i a = obj s i a

theorem Logged.refl (s : State) : Logged s s := ⟨rfl, rfl, fun _ _ => rfl⟩

theorem cairnDrop_logged (s : State) (level : Nat) : Logged s (cairnDrop s level) :=
  ⟨rfl, rfl, fun ha h => obj_bump_ne { s with cairn := { s.cairn with tokens := level, tokensAt := s.time.now, dropped := s.cairn.dropped + 1 } }
    (by decide) ha (h.imp Ne.symm Ne.symm)⟩

theorem cairn_logged (s : State) (src code sev : Nat) (data : List Byte) : Logged s (cairn s src code sev data) := by
  unfold Machine.cairn
  split
  · exact .refl s
  · split
    · exact cairnDrop_logged s _
    · split
      · exact ⟨rfl, rfl, fun _ _ => rfl⟩
      · exact cairnDrop_logged s _

theorem Logged.compacting {s t : State} (h : Logged s t) : t.cairn.compacting = s.cairn.compacting := by rw [h.cairn]
theorem Logged.retryAt {s t : State} (h : Logged s t) : t.cairn.retryAt = s.cairn.retryAt := by rw [h.cairn]

/-! ### A start of maintenance -/

theorem maintStart_refused {s : State} {c ctl k : Nat} (h : maintTest s c ctl = some k) : maintStart s c ctl = (maintRefuse s c k, some k) := by
  rw [maintStart, h]

theorem maintStart_accepted {s : State} {c ctl : Nat} (h : maintTest s c ctl = none) : maintStart s c ctl = (bump s 0x8000 5, none) := by
  rw [maintStart, h]

/-- What a refusal counts and records. -/
theorem maintRefuse_logged (s : State) (c code : Nat) : ∃ u, Logged u (maintRefuse s c code) ∧ u = { s with obj := u.obj } ∧
    ∀ {i a}, a < 256 → i ≠ 0x8000 → obj u i a = obj s i a := by
  refine ⟨_, cairn_logged (bump (putObj (putObj (putObj s 0x8000 2 c) 0x8000 3 code) 0x8000 6 (ft s)) 0x8000 4) _ _ _ _, rfl, fun ha h => ?_⟩
  rw [obj_bump_ne _ (by decide) ha (.inl h.symm), obj_putObj_ne _ _ (by decide) ha (.inl h.symm),
    obj_putObj_ne _ _ (by decide) ha (.inl h.symm), obj_putObj_ne _ _ (by decide) ha (.inl h.symm)]

/-- Compaction clashes with the test of a stack pair alone (R399). -/
theorem maintTest_compaction (s : State) (ctl : Nat) : maintTest s 6 ctl =
    if serviceState s != 1 then some 2 else if maintRuns s 2 then some 0x12 else none := by
  rw [maintTest, if_neg (by simp), show List.range 8 = [0, 1, 2, 3, 4, 5, 6, 7] from rfl]
  cases h : maintRuns s 2 <;> simp [maintConflict, List.find?_cons, h]

/-! ### Compaction -/

theorem compactStart_refused {s : State} {k : Nat} (auto : Bool) (h : maintTest s 6 (obj s 0x4820 1) = some k) :
    ∃ t, compactStart s auto = (t, abMaint, k) ∧ obj t 0x7802 2 = 2 ∧ t.cairn.compacting = s.cairn.compacting ∧
      t.cairn.retryAt = if auto then some (s.time.now + 9000000000) else s.cairn.retryAt := by
  obtain ⟨u, hlogged, hrest, hobj⟩ := maintRefuse_logged s 6 k
  have hlog := cairn_logged (putObj (maintRefuse s 6 k) 0x7802 2 2) 0x0D 2 3 (toLE 1 k)
  have hstart : compactStart s auto = (modCairn (cairn (putObj (maintRefuse s 6 k) 0x7802 2 2) 0x0D 2 3 (toLE 1 k)) (fun c => { c with
      retryAt := if auto then some ((cairn (putObj (maintRefuse s 6 k) 0x7802 2 2) 0x0D 2 3 (toLE 1 k)).time.now + msU 100)
        else c.retryAt }), abMaint, k) := by
    rw [compactStart, maintStart_refused h]
  have hnow : (cairn (putObj (maintRefuse s 6 k) 0x7802 2 2) 0x0D 2 3 (toLE 1 k)).time = s.time := by
    rw [hlog.rest]
    change (maintRefuse s 6 k).time = _
    rw [hlogged.rest, hrest]
  have hcairn : u.cairn = s.cairn := by rw [hrest]
  refine ⟨_, hstart, (hlog.obj (by decide) (.inl (by decide))).trans (obj_putObj_same _ _ _ _), ?_, ?_⟩
  · change (cairn (putObj (maintRefuse s 6 k) 0x7802 2 2) 0x0D 2 3 (toLE 1 k)).cairn.compacting = _
    rw [hlog.compacting, ← hcairn]
    exact hlogged.compacting
  · change (if auto then some (_ + msU 100) else _) = _
    rw [hnow, hlog.retryAt, ← hcairn]
    exact congrArg (fun x => if auto then some (s.time.now + msU 100) else x) hlogged.retryAt

theorem compactStart_accepted {s : State} (auto : Bool) (h : maintTest s 6 (obj s 0x4820 1) = none) :
    compactStart s auto = ackOk (modCairn (putObj (bump s 0x8000 5) 0x7802 2 1)
      (fun c => { c with compacting := some (s.time.now + 4500000000), retryAt := none })) := by
  rw [compactStart, maintStart_accepted h]
  rfl

theorem compactAuto_not {s : State} (h : paramFill s < 75 ∨ s.cairn.compacting ≠ none ∨ s.cairn.retryAt ≠ none) : compactAuto s = s := by
  rw [compactAuto, if_pos]
  simpa [Option.isSome_iff_ne_none, or_assoc] using h

theorem compactAuto_starts {s : State} (hfill : 75 ≤ paramFill s) (hc : s.cairn.compacting = none) (hr : s.cairn.retryAt = none) :
    compactAuto s = (compactStart s true).1 := by
  rw [compactAuto, if_neg]
  simp [hc, hr, hfill]

theorem running_on {s : State} (h : started s = true) (r : Res) : running s r = r := if_pos h

/-- Settles O54: the start by command, the start by itself, the end, and the retry. -/
theorem compactionStartsAndEnds : Obligations.CompactionStartsAndEnds := by
  intro s run
  have hrun (u : State) (hobj : obj u 0x7802 2 = 1) (hcairn : u.cairn = { s.cairn with
      compacting := some (s.time.now + 4500000000), retryAt := none }) (hstored : u.stored = s.stored) : run u := ⟨hcairn, hobj, hstored⟩
  refine ⟨fun hserved => ?_, fun hup => ⟨fun h => ?_, fun hfill hc hr => ⟨fun htest => ?_, fun k htest => ?_⟩⟩, fun hon hc => ?_, fun u hon hr => ?_⟩
  · have hput : exec (.compactGo false) s = .next (answered (compactGo s)) :=
      put_command (idx := 0x7802) (sub := 1) hserved rfl rfl rfl (by decide)
    refine ⟨fun hc hstate => ?_, fun hc htest => ?_, fun k hc htest => ?_⟩
    · rw [hput, compactGo, if_pos (by rw [hstate, Option.isSome_iff_ne_none.mpr hc]; rfl)]
      rfl
    · refine ⟨_, hput, ?_⟩
      rw [compactGo, if_neg (by rw [hc]; simp), compactStart_accepted false htest, answered_ok]
      exact ⟨rfl, hrun _ (obj_putObj_same _ _ _ _) rfl rfl⟩
    · obtain ⟨t, hstart, hobj, hcomp, hretry⟩ := compactStart_refused false htest
      refine ⟨_, hput, ?_⟩
      rw [compactGo, if_neg (by rcases hc with hc | hc <;> simp [hc]), hstart, answered_abort _ (by decide)]
      exact ⟨rfl, (obj_bump_ne t (by decide) (by decide) (.inl (by decide))).trans hobj, hcomp, hretry⟩
  · change execCompactGo true s = _
    rw [execCompactGo, if_pos rfl, if_pos hup, compactAuto_not h]
  · refine ⟨_, (if_pos hup : execCompactGo true s = _), ?_⟩
    rw [compactAuto_starts hfill hc hr, compactStart_accepted true htest]
    exact hrun _ (obj_putObj_same _ _ _ _) rfl rfl
  · obtain ⟨t, hstart, hobj, hcomp, hretry⟩ := compactStart_refused true htest
    refine ⟨_, (if_pos hup : execCompactGo true s = _), ?_⟩
    rw [compactAuto_starts hfill hc hr, hstart]
    exact ⟨hobj, hcomp.trans hc, hretry⟩
  · obtain ⟨d, hd⟩ := Option.ne_none_iff_exists'.mp hc
    have hexec : exec .compactionDone s = _ := running_on hon _
    rw [hd] at hexec
    refine ⟨_, hexec, rfl, rfl, fun hplan hret => ?_, rfl, ?_, ?_⟩
    · have hstks : (List.range (nStacks s.sys)).filter (fun k => !(stackOf s k).retired.isEmpty) = [] := by
        refine List.filter_eq_nil_iff.mpr fun k hk => ?_
        rw [hret k (List.mem_range.mp hk)]
        decide
      change ((s.stored.map (·.1) ++ s.dict.storedPlan.map (fun e => planEntry e.1) ++ _).map _).sum = _
      rw [hplan, hstks, List.map_nil, List.map_nil, List.append_nil, List.append_nil, List.map_map]
      rfl
    · exact (obj_putObj_ne _ _ (by decide) (by decide) (.inr (by decide))).trans (obj_putObj_same _ _ _ _)
    · refine (obj_putObj_same _ _ _ _).trans ?_
      rw [obj_putObj_ne _ _ (by decide) (by decide) (.inr (by decide))]
      rfl
  · have hexec : exec .compactionRetry s = _ := running_on hon _
    rw [hr] at hexec
    let v := modCairn (advanceTo s u) (fun c => { c with retryAt := none })
    have hnow : v.time.now = max s.time.now u := advanceTo_now s u
    refine ⟨fun hfill => ⟨v, ?_, hnow, rfl⟩, fun hfill hc htest => ⟨_, hexec, ?_⟩⟩
    · rw [hexec]
      exact congrArg _ (compactAuto_not (s := v) (.inl hfill))
    · have htest' : maintTest v 6 (obj v 0x4820 1) = none := by
        rw [maintTest_compaction] at htest ⊢
        exact htest
      change (compactAuto v).time.now = _ ∧ (compactAuto v).cairn.compacting = some ((compactAuto v).time.now + 4500000000) ∧ _
      rw [compactAuto_starts (s := v) hfill hc rfl, compactStart_accepted true htest']
      exact ⟨hnow, rfl, rfl⟩

end Sys2Proof.Proofs

/-! The lease and who may write (R402 to R406). -/

namespace Sys2Proof.Proofs

open Sys2Proof.Machine Sys2Proof.Claim

/-! ### What the lease's operations may change -/

/-- Only the lease, the stores that wait, records and the lease's own counters have changed. -/
structure Leased (s t : State) : Prop where
  rest : t = { s with obj := t.obj, rcv := t.rcv, dict := t.dict, cairn := t.cairn }
  objs : ∀ {i a}, a < 256 → i ≠ 0x0200 → i ≠ 0x7800 → i ≠ 0x8002 ∨ a < 0x0A → obj t i a = obj s i a

theorem Leased.refl (s : State) : Leased s s := ⟨rfl, fun _ _ _ _ => rfl⟩

theorem Leased.trans {s t u : State} (h : Leased s t) (h' : Leased t u) : Leased s u where
  rest := by
    have hu := h'.rest
    rw [h.rest] at hu
    exact hu
  objs ha h0 h7 h8 := (h'.objs ha h0 h7 h8).trans (h.objs ha h0 h7 h8)

theorem Leased.sys {s t : State} (h : Leased s t) : t.sys = s.sys := by rw [h.rest]
theorem Leased.time {s t : State} (h : Leased s t) : t.time = s.time := by rw [h.rest]
theorem Leased.ropes {s t : State} (h : Leased s t) : t.ropes = s.ropes := by rw [h.rest]
theorem Leased.ports {s t : State} (h : Leased s t) : t.ports = s.ports := by rw [h.rest]
theorem Leased.out {s t : State} (h : Leased s t) : t.out = s.out := by rw [h.rest]

theorem isPeerPresent_congr {s t : State} (hsys : t.sys = s.sys) (hport : ∀ lp, (port t lp).partner = (port s lp).partner)
    (hrole : ∀ lp, lp < 384 → obj t (0x2000 + lp) 3 = obj s (0x2000 + lp) 3) : isPeerPresent t = isPeerPresent s := by
  have hlps : lps t = lps s := by rw [lps, lps, hsys]
  have hle : lps s ≤ 384 := by
    rw [lps, nLp]
    split <;> decide
  rw [isPeerPresent, isPeerPresent, hlps]
  rw [Bool.eq_iff_iff, List.any_eq_true, List.any_eq_true]
  refine exists_congr fun lp => and_congr_right fun hlp => ?_
  rw [role, role, lpo, lpo, hrole lp ((List.mem_range.mp hlp).trans_le hle), hport]

theorem Leased.peer {s t : State} (h : Leased s t) : isPeerPresent t = isPeerPresent s :=
  isPeerPresent_congr h.sys (fun lp => by rw [port, port, h.ports]) (fun lp hlp => h.objs (by decide) (by omega) (by omega) (.inl (by omega)))

theorem Leased.pair {s t : State} (h : Leased s t) : obj t 0x8002 1 = obj s 0x8002 1 :=
  h.objs (by decide) (by decide) (by decide) (.inr (by decide))

theorem Leased.of_rcv (s : State) (r : RecSt) : Leased s { s with rcv := r } := ⟨rfl, fun _ _ _ _ => rfl⟩

theorem bump_leased (s : State) {i a : Nat} (ha : a < 256) (h : i = 0x0200 ∨ i = 0x8002 ∧ 0x0A ≤ a) : Leased s (bump s i a) :=
  ⟨rfl, fun hb h0 _ h8 => obj_bump_ne s ha hb (by omega)⟩

theorem Logged.leased {s t : State} (h : Logged s t) : Leased s t := by
  obtain ⟨hrest, -, hobj⟩ := h
  refine ⟨?_, fun ha _ h7 _ => hobj ha (.inl h7)⟩
  rw [hrest]

/-! ### WriteFence -/

theorem latchFence_leased (s : State) (b : Bool) : Leased s (Machine.latchFence s b) := by
  unfold Machine.latchFence
  split
  · exact .refl s
  · exact ⟨rfl, fun _ _ _ _ => rfl⟩

theorem latchFence_rcv (s : State) (b : Bool) : (Machine.latchFence s b).rcv = { s.rcv with writeFence := b } := by
  unfold Machine.latchFence
  split
  · next h => rw [← h]
  · rfl

theorem latchFence_obj (s : State) (b : Bool) (i a : Nat) : obj (Machine.latchFence s b) i a = obj s i a := by
  unfold Machine.latchFence
  split <;> rfl

theorem latchFence_stores {s : State} {b : Bool} (h : s.rcv.writeFence ≠ b) :
    (key 0x8002 7, b2n b) ∈ (Machine.latchFence s b).dict.storeQ := by
  rw [Machine.latchFence, if_neg h]
  exact List.mem_append_right _ (List.mem_singleton.mpr rfl)

/-! ### Read-only by the lease held (R405, R406) -/

/-- What the look at who may write leaves. -/
structure LookedAt (s t : State) : Prop where
  leased : Leased s t
  rcv : t.rcv = { s.rcv with readOnly := mustNotWrite s, writeFence := s.rcv.writeFence || (mustNotWrite s && !s.rcv.readOnly) }
  counts : ∀ a, a < 256 → a ≠ 0x0B → obj t 0x8002 a = obj s 0x8002 a
  stores : mustNotWrite s = true → s.rcv.readOnly = false → s.rcv.writeFence = false → (key 0x8002 7, 1) ∈ t.dict.storeQ
  calm : (mustNotWrite s && !s.rcv.readOnly) = false → t = { s with rcv := { s.rcv with readOnly := mustNotWrite s } }

theorem readOnlyNow_lookedAt (s : State) : LookedAt s (readOnlyNow s) := by
  have hmust : (obj s 0x8002 1 == 1 && ((peerLost s && s.rcv.leaseUntil.isNone) || s.rcv.writeFence)) = mustNotWrite s := rfl
  rw [readOnlyNow]
  dsimp only
  rw [hmust]
  by_cases hnew : (mustNotWrite s && !s.rcv.readOnly) = true
  · rw [if_pos hnew]
    let x : State := { s with rcv := { s.rcv with readOnly := true } }
    let v := Machine.latchFence x true
    have hbump (w : State) (hw : w = if peerLost v then bump v 0x8002 0x0B else v) : Leased v w ∧ w.rcv = v.rcv ∧ w.dict = v.dict ∧
        ∀ a, a < 256 → a ≠ 0x0B → obj w 0x8002 a = obj v 0x8002 a := by
      subst hw
      split
      · exact ⟨bump_leased v (by decide) (.inr ⟨rfl, by decide⟩), rfl, rfl, fun a ha h => obj_bump_ne v (by decide) ha (.inr h.symm)⟩
      · exact ⟨.refl v, rfl, rfl, fun _ _ _ => rfl⟩
    obtain ⟨hleased, hrcv, hdict, hcounts⟩ := hbump _ rfl
    have hlog := cairn_logged (if peerLost v then bump v 0x8002 0x0B else v) 0x0C 2 2 (toLE 1 1 ++ toLE 4
      (if peerLost v then bump v 0x8002 0x0B else v).rcv.epoch.toNat)
    obtain ⟨hro, hwas⟩ := (Bool.and_eq_true _ _).mp hnew
    refine ⟨(Leased.of_rcv s _).trans ((latchFence_leased x true).trans (hleased.trans hlog.leased)), ?_, fun a ha h => ?_, fun _ _ hf => ?_, fun h => ?_⟩
    · rw [hlog.rest]
      change State.rcv (if peerLost v then bump v 0x8002 0x0B else v) = _
      rw [hrcv, show v.rcv = _ from latchFence_rcv x true, hnew, hro, Bool.or_true]
    · exact (hlog.obj ha (.inl (by decide))).trans ((hcounts a ha h).trans (latchFence_obj x true _ _))
    · rw [hlog.rest]
      change _ ∈ (State.dict (if peerLost v then bump v 0x8002 0x0B else v)).storeQ
      rw [hdict]
      exact latchFence_stores (s := x) (b := true) (by rw [show x.rcv.writeFence = false from hf]; decide)
    · rw [hnew] at h
      cases h
  · rw [if_neg hnew]
    refine ⟨.of_rcv s _, ?_, fun _ _ _ => rfl, fun hro hwas _ => absurd (by rw [hro, hwas]; rfl) hnew, fun _ => rfl⟩
    rw [Bool.not_eq_true] at hnew
    rw [hnew, Bool.or_false]

/-- The look finds what it left. -/
theorem LookedAt.readOnly {s t : State} (h : LookedAt s t) : t.rcv.readOnly = mustNotWrite t := by
  have hmust : mustNotWrite t = (obj s 0x8002 1 == 1 && ((!isPeerPresent s && s.rcv.leaseUntil.isNone) ||
      (s.rcv.writeFence || (mustNotWrite s && !s.rcv.readOnly)))) := by
    rw [mustNotWrite, h.leased.pair, h.leased.peer, h.rcv]
  rw [hmust, h.rcv]
  change mustNotWrite s = _
  rw [mustNotWrite]
  cases obj s 0x8002 1 == 1 <;> cases !isPeerPresent s && s.rcv.leaseUntil.isNone <;> cases s.rcv.writeFence <;> rfl

/-! ### The end of a lease's time (R404) -/

theorem leaseOver_later {s : State} {u : Nat} (h : s.rcv.leaseUntil = some u) (hu : s.time.now < u) : leaseOver s = false := by
  rw [leaseOver, h]
  exact decide_eq_false (Nat.not_le.mpr hu)

theorem dropOver_over {s : State} (h : leaseOver s = true) : dropOver s = bump { s with rcv := { s.rcv with leaseUntil := none } } 0x8002 0x0A :=
  if_pos h

/-- What a lease whose time has passed leaves. -/
structure Dropped (s t : State) : Prop where
  leased : Leased s t
  rcv : t.rcv = { s.rcv with leaseUntil := none }
  rest : t.dict = s.dict
  count : obj t 0x8002 0x0A = (obj s 0x8002 0x0A + 1) % 2 ^ 64

theorem dropOver_dropped {s : State} (h : leaseOver s = true) : Dropped s (dropOver s) := by
  rw [dropOver_over h]
  exact ⟨(Leased.of_rcv s _).trans (bump_leased _ (by decide) (.inr ⟨rfl, by decide⟩)), rfl, rfl, obj_bump_same _ _ _⟩

/-- A request of the lease as it is heard: the count, and a lease whose time has passed. -/
def heard (s : State) : State := settleLease (bump s 0x0200 4)

theorem heard_calm {s : State} (h : leaseOver s = false) : heard s = bump s 0x0200 4 := if_neg (by rw [show leaseOver (bump s 0x0200 4) = _ from h]; decide)

theorem heard_over {s : State} (h : leaseOver s = true) : ∃ d, Dropped (bump s 0x0200 4) d ∧ LookedAt d (heard s) := by
  refine ⟨_, dropOver_dropped (s := bump s 0x0200 4) h, ?_⟩
  rw [heard, settleLease, if_pos (show leaseOver (bump s 0x0200 4) = true from h)]
  exact readOnlyNow_lookedAt _

theorem heard_leased (s : State) : Leased s (heard s) := by
  have hcount := bump_leased s (i := 0x0200) (a := 4) (by decide) (.inl rfl)
  cases h : leaseOver s
  · rw [heard_calm h]
    exact hcount
  · obtain ⟨d, hd, hlook⟩ := heard_over h
    exact hcount.trans (hd.leased.trans hlook.leased)

/-- What a request finds: the count of a lease that has ended, and its EPOCHs as they were. -/
theorem heard_facts {s : State} (h : leaseOver s = true) : (heard s).rcv.leaseUntil = none ∧ (heard s).rcv.epoch = s.rcv.epoch ∧
    (heard s).rcv.ownEpoch = s.rcv.ownEpoch ∧ (heard s).rcv.readOnly = mustNotWrite (heard s) ∧
    (s.rcv.writeFence = true → (heard s).rcv.writeFence = true) ∧ obj (heard s) 0x8002 0x0A = (obj s 0x8002 0x0A + 1) % 2 ^ 64 := by
  obtain ⟨d, hd, hlook⟩ := heard_over h
  have hrcv := hlook.rcv
  rw [hd.rcv] at hrcv
  refine ⟨by rw [hrcv], by rw [hrcv]; rfl, by rw [hrcv]; rfl, hlook.readOnly, fun hf => ?_, ?_⟩
  · rw [hrcv]
    change (s.rcv.writeFence || _) = true
    rw [hf, Bool.true_or]
  · rw [hlook.counts _ (by decide) (by decide), hd.count]
    rw [obj_bump_ne s (by decide) (by decide) (.inl (by decide))]

theorem heard_epochs (s : State) : (heard s).rcv.epoch = s.rcv.epoch ∧ (heard s).rcv.ownEpoch = s.rcv.ownEpoch ∧
    (s.rcv.writeFence = true → (heard s).rcv.writeFence = true) := by
  cases h : leaseOver s
  · rw [heard_calm h]
    exact ⟨rfl, rfl, id⟩
  · obtain ⟨-, hepoch, hown, -, hfence, -⟩ := heard_facts h
    exact ⟨hepoch, hown, hfence⟩

/-! ### The answer (R403) -/

/-- The state of the lease is told; nothing else of it changes. -/
theorem leaseState_facts (s : State) (q : CanReq) : let t := leaseState s q
    t.rcv = s.rcv ∧ t.dict = s.dict ∧ t.ropes = s.ropes ∧ t.time = s.time ∧ (∀ a, a < 256 → obj t 0x8002 a = obj s 0x8002 a) ∧
    mustNotWrite t = mustNotWrite s ∧ t.out = canReply s q 0x11 (toLE 4 t.rcv.epoch.toNat ++
      toLE 1 (b2n t.rcv.leaseUntil.isSome + 2 * b2n t.rcv.readOnly + 4 * b2n (!isPeerPresent t) + 8 * b2n t.rcv.writeFence) ++ [0, 0, 0]) :: s.out := by
  intro t
  have hobj {i a : Nat} (ha : a < 256) (hi : i ≠ 0x0200) : obj t i a = obj s i a := obj_bump_ne (emit s _) (by decide) ha (.inl hi.symm)
  have hpeer : isPeerPresent t = isPeerPresent s := isPeerPresent_congr rfl (fun _ => rfl) (fun lp hlp => hobj (by decide) (by omega))
  refine ⟨rfl, rfl, rfl, rfl, fun a ha => hobj ha (by decide), ?_, ?_⟩
  · rw [mustNotWrite, mustNotWrite, hpeer, hobj (by decide) (by decide)]
    rfl
  · rw [hpeer]
    rfl

theorem canReply_congr {s t : State} (h : t.sys = s.sys) (q : CanReq) (f : Nat) (bs : List Byte) : canReply t q f bs = canReply s q f bs := by
  rw [canReply, canReply, h]

/-! ### A grant -/

/-- The lease before who may write is looked at. -/
def grantNoted (s : State) (e : BitVec 32) : State :=
  let s := if s.rcv.ownEpoch = some e then Machine.latchFence s false else s
  modRcv s (fun r => { r with leaseUntil := some (s.time.now + msU 300), epoch := e, ownEpoch := some e })

theorem grantNoted_leased (s : State) (e : BitVec 32) : Leased s (grantNoted s e) := by
  unfold grantNoted
  dsimp only
  split
  · exact (latchFence_leased s false).trans (.of_rcv _ _)
  · exact .of_rcv _ _

theorem grantNoted_rcv (s : State) (e : BitVec 32) : (grantNoted s e).rcv = { s.rcv with
    leaseUntil := some (s.time.now + 27000000000), epoch := e, ownEpoch := some e
    writeFence := s.rcv.writeFence && s.rcv.ownEpoch != some e } := by
  unfold grantNoted
  dsimp only
  split
  · next h =>
    rw [modRcv, latchFence_rcv, (latchFence_leased s false).time, h, bne_self_eq_false, Bool.and_false]
    rfl
  · next h =>
    rw [modRcv, bne_iff_ne.mpr h, Bool.and_true]
    rfl

theorem grantLease_eq (s : State) (e : BitVec 32) : grantLease s e = readOnlyNow (grantNoted s e) := by
  have hlater : s.time.now < s.time.now + 27000000000 := by omega
  have hrcv : (grantNoted s e).rcv.leaseUntil = some (s.time.now + 27000000000) := by rw [grantNoted_rcv]
  exact recheckReadOnly_of_held (grantNoted s e) (leaseOver_later hrcv (by rw [(grantNoted_leased s e).time]; exact hlater))

/-- What a granted lease leaves (R404, R406). -/
theorem grantLease_lookedAt (s : State) (e : BitVec 32) : LookedAt (grantNoted s e) (grantLease s e) := by
  rw [grantLease_eq]
  exact readOnlyNow_lookedAt _

theorem mustNotWrite_held {s : State} (hpair : obj s 0x8002 1 = 1) (h : s.rcv.leaseUntil.isSome = true) : mustNotWrite s = s.rcv.writeFence := by
  rw [mustNotWrite, hpair, Option.isNone_eq_false_iff.mpr h, Bool.and_false, Bool.false_or]
  rfl

/-- The lease and the fence after a grant. -/
theorem grantLease_facts {s : State} {e : BitVec 32} (hpair : obj s 0x8002 1 = 1) : let t := grantLease s e
    Leased s t ∧ t.rcv.leaseUntil = some (s.time.now + 27000000000) ∧ t.rcv.epoch = e ∧ t.rcv.ownEpoch = some e ∧
      t.rcv.readOnly = t.rcv.writeFence ∧ t.rcv.writeFence = (s.rcv.writeFence && s.rcv.ownEpoch != some e) ∧
      (s.rcv.ownEpoch = some e → s.rcv.writeFence = true → (key 0x8002 7, 0) ∈ t.dict.storeQ) ∧
      ∀ a, a < 256 → a ≠ 0x0B → obj t 0x8002 a = obj s 0x8002 a := by
  intro t
  let v := grantNoted s e
  have hlook : LookedAt v t := grantLease_lookedAt s e
  have hv := grantNoted_rcv s e
  have hmust : mustNotWrite v = v.rcv.writeFence :=
    mustNotWrite_held ((grantNoted_leased s e).pair.trans hpair) (by rw [show v.rcv = _ from hv]; rfl)
  have hsame : (v.rcv.writeFence || (v.rcv.writeFence && !v.rcv.readOnly)) = v.rcv.writeFence := by
    cases v.rcv.writeFence <;> rfl
  have hrcv := hlook.rcv
  rw [hmust, hsame] at hrcv
  have hfence : v.rcv.writeFence = (s.rcv.writeFence && s.rcv.ownEpoch != some e) := by rw [show v.rcv = _ from hv]
  refine ⟨(grantNoted_leased s e).trans hlook.leased, ?_, ?_, ?_, ?_, ?_, fun hown hset => ?_, fun a ha h => ?_⟩
  · rw [hrcv]
    change v.rcv.leaseUntil = _
    rw [show v.rcv = _ from hv]
  · rw [hrcv]
    change v.rcv.epoch = _
    rw [show v.rcv = _ from hv]
  · rw [hrcv]
    change v.rcv.ownEpoch = _
    rw [show v.rcv = _ from hv]
  · rw [hrcv]
  · rw [hrcv]
    exact hfence
  · have hoff : v.rcv.writeFence = false := by rw [hfence, hown, bne_self_eq_false, Bool.and_false]
    have hcalm := hlook.calm (by rw [hmust, hoff]; rfl)
    rw [hcalm]
    change _ ∈ (grantNoted s e).dict.storeQ
    rw [grantNoted, if_pos hown]
    exact latchFence_stores (s := s) (b := false) (by rw [hset]; decide)
  · rw [hlook.counts a ha h]
    change obj (grantNoted s e) _ _ = _
    unfold grantNoted
    dsimp only
    split
    · exact latchFence_obj s false _ _
    · rfl

/-- What is told after the lease's own work. -/
theorem leaseState_told {s u : State} (h : Leased s u) (q : CanReq) : let t := leaseState u q
    t.out = canReply s q 0x11 (toLE 4 t.rcv.epoch.toNat ++
      toLE 1 (b2n t.rcv.leaseUntil.isSome + 2 * b2n t.rcv.readOnly + 4 * b2n (!isPeerPresent t) + 8 * b2n t.rcv.writeFence)
        ++ [0, 0, 0]) :: s.out ∧ t.ropes = s.ropes ∧ t.time = s.time := by
  intro t
  obtain ⟨-, -, hropes, htime, -, -, hout⟩ := leaseState_facts u q
  exact ⟨hout.trans (by rw [canReply_congr h.sys, h.out]), hropes.trans h.ropes, htime.trans h.time⟩

/-- What a revocation leaves. -/
theorem revoked_facts (u : State) :
    let v := recheckReadOnly (modRcv u (fun r => { r with leaseUntil := none }))
    Leased u v ∧ v.rcv.leaseUntil = none ∧ v.rcv.epoch = u.rcv.epoch ∧ v.rcv.readOnly = mustNotWrite v ∧
      ∀ a, a < 256 → a ≠ 0x0B → obj v 0x8002 a = obj u 0x8002 a := by
  intro v
  let w := modRcv u (fun r => { r with leaseUntil := none })
  have hlook : LookedAt w v := by
    have : v = readOnlyNow w := recheckReadOnly_of_held w rfl
    rw [this]
    exact readOnlyNow_lookedAt w
  exact ⟨(Leased.of_rcv u _).trans hlook.leased, by rw [hlook.rcv]; rfl, by rw [hlook.rcv]; rfl, hlook.readOnly, hlook.counts⟩

theorem canCount_heard {s : State} {q : CanReq} (h : leaseHears s q = true) : canCount s q = bump s 0x0200 4 ∧
    leaseHears (bump s 0x0200 4) q = true ∧ obj s 0x8002 1 = 1 := by
  have hpair := (Bool.and_eq_true _ _).mp h
  obtain ⟨hhears, hbase⟩ := (Bool.and_eq_true _ _).mp hpair.1
  refine ⟨if_pos hhears, ?_, by simpa using hpair.2⟩
  rw [leaseHears, obj_bump_ne s (by decide) (by decide) (.inl (by decide))]
  exact h

theorem canCount_deaf {s : State} {q : CanReq} (h : leaseHears s q = false) : leaseHears (canCount s q) q = false := by
  rw [canCount]
  split
  · rw [leaseHears, obj_bump_ne s (by decide) (by decide) (.inl (by decide))]
    exact h
  · exact h

/-- A request for a lease that is not stale. -/
theorem exec_leaseGrant {s : State} {q : CanReq} (h : leaseHears s q = true)
    (hfresh : ¬((heard s).rcv.ownEpoch.isSome = true ∧ epochBelow (BitVec.ofNat 32 (qByte q 0 4)) (heard s).rcv.epoch = true)) :
    exec (.leaseGrant q) s = .next (leaseState (grantLease (heard s) (BitVec.ofNat 32 (qByte q 0 4))) q) := by
  obtain ⟨hcount, hhears, -⟩ := canCount_heard h
  change execLeaseGrant q s = _
  rw [execLeaseGrant, hcount, hhears]
  exact if_neg (mt (Bool.and_eq_true _ _).mp hfresh)

theorem exec_leaseGrant_stale {s : State} {q : CanReq} (h : leaseHears s q = true)
    (hstale : (heard s).rcv.ownEpoch.isSome = true ∧ epochBelow (BitVec.ofNat 32 (qByte q 0 4)) (heard s).rcv.epoch = true) :
    exec (.leaseGrant q) s = .next (leaseState (bump (heard s) 0x8002 0x0C) q) := by
  obtain ⟨hcount, hhears, -⟩ := canCount_heard h
  change execLeaseGrant q s = _
  rw [execLeaseGrant, hcount, hhears]
  exact if_pos ((Bool.and_eq_true _ _).mpr hstale)

theorem exec_leaseRevoke {s : State} {q : CanReq} (h : leaseHears s q = true) : exec (.leaseRevoke q) s =
    .next (leaseState (recheckReadOnly (modRcv (heard s) (fun r => { r with leaseUntil := none }))) q) := by
  obtain ⟨hcount, hhears, -⟩ := canCount_heard h
  change execLeaseRevoke q s = _
  rw [execLeaseRevoke, hcount, hhears]
  rfl

theorem exec_leaseQuery {s : State} {q : CanReq} (h : leaseHears s q = true) : exec (.leaseQuery q) s = .next (leaseState (heard s) q) := by
  obtain ⟨hcount, hhears, -⟩ := canCount_heard h
  change execLeaseQuery q s = _
  rw [execLeaseQuery, hcount, hhears]
  rfl

/-- The lease after a look at who may write, where its time has passed. -/
theorem recheck_over {s : State} (h : leaseOver s = true) : ∃ d, Dropped s d ∧ LookedAt d (recheckReadOnly s) :=
  ⟨_, dropOver_dropped h, readOnlyNow_lookedAt _⟩

theorem settleLease_calm {s : State} (h : leaseOver s = false) : settleLease s = s := if_neg (by rw [h]; decide)

theorem settleLease_over {s : State} (h : leaseOver s = true) : settleLease s = recheckReadOnly s := if_pos h

/-- The clearing of WriteFence, where the device was read-only, or has its peer or a lease (R405, R406). -/
theorem fenceClear_facts (s : State) : let t := (fenceClear s).1
    t.rcv.readOnly = mustNotWrite t ∧ (s.rcv.readOnly = true ∨ isPeerPresent s = true ∨ s.rcv.leaseUntil ≠ none →
      t.rcv.writeFence = false ∧ (s.rcv.writeFence = true → (key 0x8002 7, 0) ∈ t.dict.storeQ)) := by
  intro t
  let u := settleLease s
  let w := Machine.latchFence u false
  have hw := latchFence_rcv u false
  have hleasedW : Leased u w := latchFence_leased u false
  have hover : leaseOver u = false := by
    cases h : leaseOver s
    · rw [show u = s from settleLease_calm h, h]
    · obtain ⟨d, hd, hlook⟩ := recheck_over h
      rw [show u = recheckReadOnly s from settleLease_over h, leaseOver, hlook.rcv, hd.rcv]
      rfl
  have hoverW : leaseOver w = false := by
    rw [leaseOver, hw, hleasedW.time]
    exact hover
  have hlook : LookedAt w t := by
    have : t = readOnlyNow w := recheckReadOnly_of_held w hoverW
    rw [this]
    exact readOnlyNow_lookedAt w
  refine ⟨hlook.readOnly, fun hcase => ?_⟩
  have hmustW : mustNotWrite w = (obj u 0x8002 1 == 1 && (!isPeerPresent u && u.rcv.leaseUntil.isNone)) := by
    rw [mustNotWrite, hleasedW.pair, hleasedW.peer, hw]
    exact congrArg _ (Bool.or_false _)
  have hreadOnly : w.rcv.readOnly = u.rcv.readOnly := by rw [hw]
  have hcalm : (mustNotWrite w && !w.rcv.readOnly) = false := by
    rw [hreadOnly]
    cases h : leaseOver s
    · rw [hmustW, show u = s from settleLease_calm h]
      rcases hcase with hro | hpeer | hlease
      · rw [hro, Bool.not_true, Bool.and_false]
      · rw [hpeer, Bool.not_true, Bool.false_and, Bool.and_false, Bool.false_and]
      · rw [Option.isNone_eq_false_iff.mpr (Option.isSome_iff_ne_none.mpr hlease), Bool.and_false, Bool.and_false, Bool.false_and]
    · obtain ⟨d, hd, hlooked⟩ := recheck_over h
      have hro : u.rcv.readOnly = mustNotWrite u := by
        rw [show u = recheckReadOnly s from settleLease_over h]
        exact hlooked.readOnly
      rw [hmustW, hro, mustNotWrite]
      cases obj u 0x8002 1 == 1 <;> cases !isPeerPresent u && u.rcv.leaseUntil.isNone <;> rfl
  have hkept (hset : s.rcv.writeFence = true) : u.rcv.writeFence = true := by
    cases h : leaseOver s
    · rw [show u = s from settleLease_calm h, hset]
    · obtain ⟨d, hd, hlooked⟩ := recheck_over h
      rw [show u = recheckReadOnly s from settleLease_over h, hlooked.rcv, hd.rcv]
      exact (congrArg (· || _) hset).trans (Bool.true_or _)
  have ht := hlook.calm hcalm
  refine ⟨?_, fun hset => ?_⟩
  · rw [ht]
    change w.rcv.writeFence = false
    rw [hw]
  · rw [ht]
    exact latchFence_stores (s := u) (b := false) (by rw [hkept hset]; decide)

/-- A grant that is not stale, answered. -/
theorem exec_leaseGrant_granted {s : State} {q : CanReq} (h : leaseHears s q = true)
    (hfresh : ¬(s.rcv.ownEpoch.isSome = true ∧ epochBelow (BitVec.ofNat 32 (qByte q 0 4)) s.rcv.epoch = true)) :
    let e := BitVec.ofNat 32 (qByte q 0 4)
    ∃ t, exec (.leaseGrant q) s = .next t ∧ (t.out = canReply s q 0x11 (toLE 4 t.rcv.epoch.toNat ++
      toLE 1 (b2n t.rcv.leaseUntil.isSome + 2 * b2n t.rcv.readOnly + 4 * b2n (!isPeerPresent t) + 8 * b2n t.rcv.writeFence)
        ++ [0, 0, 0]) :: s.out ∧ t.ropes = s.ropes ∧ t.time = s.time) ∧
      (t.rcv.leaseUntil = some (s.time.now + 27000000000) ∧ t.rcv.epoch = e ∧ t.rcv.ownEpoch = some e ∧ t.rcv.readOnly = t.rcv.writeFence ∧
        (s.rcv.ownEpoch = some e → t.rcv.writeFence = false ∧ (s.rcv.writeFence = true → (key 0x8002 7, 0) ∈ t.dict.storeQ))) ∧
      t.rcv.writeFence = ((heard s).rcv.writeFence && s.rcv.ownEpoch != some e) ∧ obj t 0x8002 0x0A = obj (heard s) 0x8002 0x0A := by
  intro e
  obtain ⟨hepoch, hown, hfence⟩ := heard_epochs s
  obtain ⟨-, -, hpair⟩ := canCount_heard h
  obtain ⟨hleased, huntil, hep, how, hro, hwf, hstore, hobj⟩ := grantLease_facts (e := e) ((heard_leased s).pair.trans hpair)
  obtain ⟨hrcv, hdict, -, -, hobj', -, -⟩ := leaseState_facts (grantLease (heard s) e) q
  rw [hown] at hwf hstore
  refine ⟨_, exec_leaseGrant h (by rw [hown, hepoch]; exact hfresh), leaseState_told ((heard_leased s).trans hleased) q, ?_, ?_, ?_⟩
  · rw [hrcv, hdict]
    refine ⟨by rw [huntil, (heard_leased s).time], hep, how, hro, fun hsame => ⟨?_, fun hset => hstore hsame (hfence hset)⟩⟩
    rw [hwf, hsame, bne_self_eq_false, Bool.and_false]
  · rw [hrcv]
    exact hwf
  · rw [hobj' _ (by decide)]
    exact hobj _ (by decide) (by decide)

/-- Settles O50: each request hears, counts and answers; the end of the lease; the clearing of WriteFence. -/
theorem leaseDecidesWhoWrites : Obligations.LeaseDecidesWhoWrites := by
  refine ⟨?_, fun s u hon hu => ?_, fun s hserved => ?_⟩
  · intro s q e told stale granted
    refine ⟨fun hdeaf c hc => ?_, fun hhears hover => ?_, fun hhears hover => ?_⟩
    · have hcount := canCount_deaf hdeaf
      simp only [List.mem_cons, List.not_mem_nil, or_false] at hc
      rcases hc with rfl | rfl | rfl
      · change execLeaseGrant q s = _
        rw [execLeaseGrant, hcount]
        rfl
      · change execLeaseRevoke q s = _
        rw [execLeaseRevoke, hcount]
        rfl
      · change execLeaseQuery q s = _
        rw [execLeaseQuery, hcount]
        rfl
    · obtain ⟨hnone, hepoch, hown, hro, hfence, hcount⟩ := heard_facts hover
      refine ⟨fun c hc => ?_, fun hfresh => ?_⟩
      · simp only [List.mem_cons, List.not_mem_nil, or_false] at hc
        rcases hc with rfl | rfl
        · obtain ⟨hleased, hgone, -, hlooked, hkept⟩ := revoked_facts (heard s)
          obtain ⟨hrcv, -, -, -, hobj, hmust, -⟩ := leaseState_facts (recheckReadOnly (modRcv (heard s) (fun r => { r with leaseUntil := none }))) q
          exact ⟨_, exec_leaseRevoke hhears, leaseState_told ((heard_leased s).trans hleased) q, hrcv ▸ hgone,
            by rw [hrcv, hmust]; exact hlooked, by rw [hobj _ (by decide), hkept _ (by decide) (by decide)]; exact hcount⟩
        · obtain ⟨hrcv, -, -, -, hobj, hmust, -⟩ := leaseState_facts (heard s) q
          exact ⟨_, exec_leaseQuery hhears, leaseState_told (heard_leased s) q, hrcv ▸ hnone, by rw [hrcv, hmust]; exact hro,
            by rw [hobj _ (by decide)]; exact hcount⟩
      · obtain ⟨t, hexec, htold, hgranted, -, hobj⟩ := exec_leaseGrant_granted hhears hfresh
        exact ⟨t, hexec, htold, hgranted, hobj.trans hcount⟩
    · have hcalm := heard_calm hover
      have hleased := heard_leased s
      refine ⟨fun hstale => ?_, fun hfresh => ?_, ?_, ?_⟩
      · obtain ⟨hrcv, -, -, -, hobj, -, -⟩ := leaseState_facts (bump (heard s) 0x8002 0x0C) q
        refine ⟨_, exec_leaseGrant_stale hhears (by rw [hcalm]; exact hstale), leaseState_told (hleased.trans
          (bump_leased _ (by decide) (.inr ⟨rfl, by decide⟩))) q, hrcv.trans (by rw [hcalm]; rfl), ?_⟩
        rw [hobj _ (by decide), obj_bump_same, hcalm, obj_bump_ne s (by decide) (by decide) (.inl (by decide))]
      · obtain ⟨t, hexec, htold, hgranted, hwf, -⟩ := exec_leaseGrant_granted hhears hfresh
        exact ⟨t, hexec, htold, hgranted, hwf.trans (by rw [hcalm]; rfl)⟩
      · obtain ⟨hgone, hnone, hepoch, hlooked, -⟩ := revoked_facts (heard s)
        obtain ⟨hrcv, -, -, -, -, hmust, -⟩ := leaseState_facts (recheckReadOnly (modRcv (heard s) (fun r => { r with leaseUntil := none }))) q
        exact ⟨_, exec_leaseRevoke hhears, leaseState_told (hleased.trans hgone) q, hrcv ▸ hnone,
          by rw [hrcv, hepoch, hcalm]; rfl, by rw [hrcv, hmust]; exact hlooked⟩
      · obtain ⟨hrcv, -, -, -, -, -, -⟩ := leaseState_facts (heard s) q
        exact ⟨_, exec_leaseQuery hhears, leaseState_told hleased q, hrcv.trans (by rw [hcalm]; rfl)⟩
  · let v := advanceTo s u
    have hnow : v.time.now = max s.time.now u := advanceTo_now s u
    have hover : leaseOver v = true := by
      rw [leaseOver, show v.rcv = s.rcv from rfl, hu]
      exact decide_eq_true (by rw [hnow]; exact le_max_right _ _)
    obtain ⟨d, hd, hlook⟩ := recheck_over hover
    have hexec : exec .leaseExpiry s = _ := running_on hon _
    rw [hu] at hexec
    have hrcv := hlook.rcv
    rw [hd.rcv] at hrcv
    refine ⟨_, hexec, ?_, ?_, ?_, hlook.readOnly, fun hro hwas => ⟨?_, fun hf => ?_⟩⟩
    · rw [(hd.leased.trans hlook.leased).time]
      exact hnow
    · rw [hrcv]
    · rw [hlook.counts _ (by decide) (by decide)]
      exact hd.count
    · rw [hrcv] at hro ⊢
      change (s.rcv.writeFence || (mustNotWrite d && !s.rcv.readOnly)) = true
      rw [show mustNotWrite d = true from hro, hwas]
      exact Bool.or_true _
    · rw [hrcv] at hro
      exact hlook.stores hro (by rw [hd.rcv]; exact hwas) (by rw [hd.rcv]; exact hf)
  · refine ⟨_, put_command (idx := 0x8002) (sub := 8) hserved rfl rfl rfl (by decide), rfl, ?_⟩
    exact fenceClear_facts s

end Sys2Proof.Proofs

/-! Rail and frequency: commands, their steps and the measurements (R381 to R386). -/

namespace Sys2Proof.Proofs

open Sys2Proof.Machine Sys2Proof.Claim

/-! ### A command's steps -/

/-- Of the power state a step of a command changes only its command and the result. -/
structure Stepped (s t : State) : Prop where
  rest : t = { s with pwr := t.pwr }
  pwr : t.pwr = { s.pwr with cmd := t.pwr.cmd, opResult := t.pwr.opResult }

/-- The command of a state, as it is aimed. -/
def aims (p : PwrSt) (f : Nat) : Prop := (match p.cmd with | some c => c.fstep | none => p.fstep) = f

theorem setStage_stepped (s : State) (c : OpCmd) (g : OpStage) : Stepped s (setStage s c g) := ⟨rfl, rfl⟩

theorem opDone_stepped (s : State) : Stepped s (opDone s) := ⟨rfl, rfl⟩

theorem railThere_rise {s : State} {c : OpCmd} (h : s.pwr.fstep < c.fstep) : railThere s c = setStage s c (.holding (s.time.now + 900000)) :=
  if_pos h

theorem railThere_done {s : State} {c : OpCmd} (h : c.fstep ≤ s.pwr.fstep) : railThere s c = opDone s := if_neg (Nat.not_lt.mpr h)

theorem railThere_stepped (s : State) (c : OpCmd) : Stepped s (railThere s c) := by
  unfold railThere
  split
  · exact setStage_stepped s c _
  · exact opDone_stepped s

theorem opBegin_fall {s : State} {c : OpCmd} (h : c.fstep < s.pwr.fstep) : opBegin s c = setStage s c (.falling c.fstep (s.time.now + 45000)) :=
  if_pos h

theorem opBegin_slew {s : State} {c : OpCmd} (h : s.pwr.fstep ≤ c.fstep) (hr : s.pwr.railUv ≠ c.target * 1000) : opBegin s c = setStage s c .slewing := by
  rw [opBegin, if_neg (Nat.not_lt.mpr h)]
  exact if_neg hr

theorem opBegin_there {s : State} {c : OpCmd} (h : s.pwr.fstep ≤ c.fstep) (hr : s.pwr.railUv = c.target * 1000) :
    opBegin s c = railThere (setStage s c .slewing) c := by
  rw [opBegin, if_neg (Nat.not_lt.mpr h)]
  exact if_pos hr

theorem opBegin_stepped (s : State) (c : OpCmd) : Stepped s (opBegin s c) := by
  rcases Nat.lt_or_ge c.fstep s.pwr.fstep with h | h
  · rw [opBegin_fall h]
    exact setStage_stepped s c _
  · by_cases hr : s.pwr.railUv = c.target * 1000
    · rw [opBegin_there h hr]
      obtain ⟨hrest, hpwr⟩ := railThere_stepped (setStage s c .slewing) c
      exact ⟨hrest, hpwr⟩
    · rw [opBegin_slew h hr]
      exact setStage_stepped s c _

/-- A command that begins aims at its step. -/
theorem opBegin_aims (s : State) (c : OpCmd) : aims (opBegin s c).pwr c.fstep := by
  rcases Nat.lt_or_ge c.fstep s.pwr.fstep with h | h
  · rw [opBegin_fall h]
    rfl
  · by_cases hr : s.pwr.railUv = c.target * 1000
    · rw [opBegin_there h hr]
      rcases Nat.lt_or_ge s.pwr.fstep c.fstep with h' | h'
      · rw [railThere_rise (s := setStage s c .slewing) h']
        rfl
      · rw [railThere_done (s := setStage s c .slewing) h']
        exact Nat.le_antisymm h h'
    · rw [opBegin_slew h hr]
      rfl

theorem opStart_falling (s : State) {o c : OpCmd} {g due : Nat} (h : o.stage = .falling g due) :
    opStart s (some o) c = setStage s c (.falling g due) := by
  obtain ⟨seq, f, target, stage⟩ := o
  subst h
  rfl

theorem opStart_rising (s : State) {o c : OpCmd} {due : Nat} (h : o.stage = .rising due) :
    opStart s (some o) c = setStage s c (.falling o.fstep due) := by
  obtain ⟨seq, f, target, stage⟩ := o
  subst h
  rfl

theorem opStart_cases (s : State) (old : Option OpCmd) (c : OpCmd) :
    (∃ g due, opStart s old c = setStage s c (.falling g due)) ∨ opStart s old c = opBegin s c := by
  unfold opStart
  split
  · exact .inl ⟨_, _, rfl⟩
  · exact .inl ⟨_, _, rfl⟩
  · exact .inr rfl

theorem opStart_stepped (s : State) (old : Option OpCmd) (c : OpCmd) : Stepped s (opStart s old c) := by
  rcases opStart_cases s old c with ⟨g, due, h⟩ | h
  · rw [h]
    exact setStage_stepped s c _
  · rw [h]
    exact opBegin_stepped s c

theorem opStart_aims (s : State) (old : Option OpCmd) (c : OpCmd) : aims (opStart s old c).pwr c.fstep := by
  rcases opStart_cases s old c with ⟨g, due, h⟩ | h
  · rw [h]
    rfl
  · rw [h]
    exact opBegin_aims s c

theorem stepAimed_of_aims {s : State} {f : Nat} (h : aims s.pwr f) : stepAimed s = f := h

/-! ### The dp-cycle clock -/

theorem reclock_pwr (was s : State) : (reclock was s).pwr = s.pwr := by
  obtain ⟨_, _, _, _, h⟩ := reclock_only was s
  rw [h]

theorem reclock_objs (was s : State) (i a : Nat) : obj (reclock was s) i a = obj s i a := by
  obtain ⟨_, _, _, _, h⟩ := reclock_only was s
  rw [h]
  rfl

theorem reclock_now (was s : State) : (reclock was s).time.now = s.time.now := by
  unfold reclock
  dsimp only
  split <;> rfl

/-- The cycles counted go on from the instant at which the clock changes. -/
theorem reclock_cyc {was s : State} (h : s.time = was.time) : cyc (reclock was s) = cyc was := by
  by_cases hd : dpU was = dpU s
  · have : reclock was s = s := if_pos hd
    rw [this, cyc, cyc, h, hd]
  · have hrate : dpU (reclock was s) = dpU s := by rw [dpU, dpU, fstepNow, fstepNow, reclock_pwr]
    have htime : (reclock was s).time = { s.time with
        cycBase := s.time.cycBase + (s.time.now - s.time.cycAt) / dpU was, cycAt := s.time.now } := by
      rw [reclock]
      exact congrArg State.time (if_neg hd)
    rw [cyc, htime]
    dsimp only
    rw [Nat.sub_self, Nat.zero_div, Nat.add_zero, h]
    rfl

/-! ### A command accepted (R385) -/

/-- The state in which a command starts. -/
def opAimed (s : State) (seq v : Nat) : State :=
  modPwr (opSupersede (settleRail s)) (fun p => { p with target := v, opResult := 1, opSeq := seq })

theorem opAimed_pwr (s : State) (seq v : Nat) : (opAimed s seq v).pwr = { s.pwr with
    railUv := railNow s, railAt := s.time.now, target := v, opResult := 1, opSeq := seq } := by
  unfold opAimed opSupersede
  split <;> rfl

theorem opAimed_time (s : State) (seq v : Nat) : (opAimed s seq v).time = s.time := by
  unfold opAimed opSupersede
  split <;> rfl

theorem opAimed_objs (s : State) (seq v : Nat) {i a : Nat} (ha : a < 256) (h : i ≠ 0x7001 ∨ a ≠ 7 ∧ a ≠ 8) : obj (opAimed s seq v) i a = obj s i a := by
  have hput (o : OpCmd) : obj (bump (putObj (settleRail s) 0x7001 7 o.seq) 0x7001 8) i a = obj s i a := by
    rw [obj_bump_ne _ (by decide) ha (by omega), obj_putObj_ne _ _ (by decide) ha (by omega)]
    rfl
  unfold opAimed opSupersede
  split
  · exact hput _
  · rfl

theorem opAimed_superseded {s : State} {o : OpCmd} (h : s.pwr.cmd = some o) (seq v : Nat) :
    obj (opAimed s seq v) 0x7001 7 = o.seq ∧ obj (opAimed s seq v) 0x7001 8 = (obj s 0x7001 8 + 1) % 2 ^ 64 := by
  have : opAimed s seq v = modPwr (bump (putObj (settleRail s) 0x7001 7 o.seq) 0x7001 8) (fun p => { p with target := v, opResult := 1, opSeq := seq }) := by
    rw [opAimed, opSupersede, show (settleRail s).pwr.cmd = some o from h]
  rw [this]
  have h7 : obj (bump (putObj (settleRail s) 0x7001 7 o.seq) 0x7001 8) 0x7001 7 = o.seq := by
    rw [obj_bump_ne _ (by decide) (by decide) (.inr (by decide)), obj_putObj_same]
  have h8 : obj (bump (putObj (settleRail s) 0x7001 7 o.seq) 0x7001 8) 0x7001 8 = (obj s 0x7001 8 + 1) % 2 ^ 64 := by
    rw [obj_bump_same, obj_putObj_ne _ _ (by decide) (by decide) (.inr (by decide))]
    rfl
  exact ⟨h7, h8⟩

/-- The command as it starts. -/
def opNew (seq f v : Nat) : OpCmd := { seq := seq, fstep := f, target := v, stage := .slewing }

theorem opAccept_eq (s : State) (seq f v : Nat) : opAccept s seq f v = reclock s (opStart (opAimed s seq v) s.pwr.cmd (opNew seq f v)) := rfl

/-- What an accepted command leaves and makes. -/
structure Accepted (s t : State) (seq f v : Nat) : Prop where
  pwr : t.pwr = { s.pwr with
    cmd := t.pwr.cmd, opResult := t.pwr.opResult, railUv := railNow s, railAt := s.time.now, target := v, opSeq := seq }
  aimed : stepAimed t = f
  now : t.time.now = s.time.now
  cycles : cyc t = cyc s
  objs : ∀ {i a}, a < 256 → i ≠ 0x7001 ∨ a ≠ 7 ∧ a ≠ 8 → obj t i a = obj s i a

theorem opAccept_accepted (s : State) (seq f v : Nat) : Accepted s (opAccept s seq f v) seq f v := by
  obtain ⟨hrest, hpwr⟩ := opStart_stepped (opAimed s seq v) s.pwr.cmd (opNew seq f v)
  rw [opAccept_eq]
  have htime : (opStart (opAimed s seq v) s.pwr.cmd (opNew seq f v)).time = s.time := by
    rw [hrest]
    exact opAimed_time s seq v
  refine ⟨?_, ?_, ?_, ?_, fun ha h => ?_⟩
  · rw [reclock_pwr]
    refine hpwr.trans ?_
    rw [opAimed_pwr]
  · refine stepAimed_of_aims ?_
    rw [reclock_pwr]
    exact opStart_aims _ _ (opNew seq f v)
  · rw [reclock_now, htime]
  · exact reclock_cyc htime
  · rw [reclock_objs, hrest]
    exact opAimed_objs s seq v ha h

theorem opAccept_cmd (s : State) (seq f v : Nat) : (opAccept s seq f v).pwr = (opStart (opAimed s seq v) s.pwr.cmd (opNew seq f v)).pwr := by
  rw [opAccept_eq, reclock_pwr]

theorem railNow_idle {s : State} (h : s.pwr.cmd = none) : railNow s = s.pwr.railUv := by
  rw [railNow]
  split
  · rfl
  · dsimp only
    rw [h]

/-- The first step of a command where none is in progress. -/
theorem opAccept_first {s : State} {seq f v : Nat} (h : s.pwr.cmd = none) : let c := opNew seq f v
    let t := opAccept s seq f v
    t.pwr.cmd = (if f < s.pwr.fstep then some { c with stage := .falling f (s.time.now + 45000) }
      else if s.pwr.railUv ≠ v * 1000 then some c
      else if s.pwr.fstep < f then some { c with stage := .holding (s.time.now + 900000) } else none) ∧
    t.pwr.opResult = if f = s.pwr.fstep ∧ s.pwr.railUv = v * 1000 then 0 else 1 := by
  intro c t
  let u := opAimed s seq v
  have hu : u.pwr = _ := opAimed_pwr s seq v
  have hfstep : u.pwr.fstep = s.pwr.fstep := by rw [hu]
  have hrail : u.pwr.railUv = s.pwr.railUv := by rw [hu, railNow_idle h]
  have hresult : u.pwr.opResult = 1 := by rw [hu]
  have htime : u.time = s.time := opAimed_time s seq v
  have ht : t.pwr = (opBegin u c).pwr := by
    rw [show t.pwr = _ from opAccept_cmd s seq f v, h]
    rfl
  rw [ht]
  rcases Nat.lt_or_ge f s.pwr.fstep with hlt | hge
  · rw [opBegin_fall (s := u) (c := c) (hfstep ▸ hlt), if_pos hlt, if_neg (fun hh => Nat.ne_of_lt hlt hh.1), htime]
    exact ⟨rfl, hresult⟩
  · rw [if_neg (Nat.not_lt.mpr hge)]
    by_cases hr : s.pwr.railUv = v * 1000
    · rw [opBegin_there (s := u) (c := c) (hfstep ▸ hge) (hrail.trans hr), if_neg (fun hh => hh hr)]
      rcases Nat.lt_or_ge s.pwr.fstep f with hlt | hle
      · rw [railThere_rise (s := setStage u c .slewing) (c := c) (by rw [show (setStage u c .slewing).pwr.fstep = u.pwr.fstep from rfl, hfstep]; exact hlt),
          if_pos hlt, if_neg (fun hh => Nat.ne_of_gt hlt hh.1), show (setStage u c .slewing).time = u.time from rfl, htime]
        exact ⟨rfl, hresult⟩
      · rw [railThere_done (s := setStage u c .slewing) (c := c) (by rw [show (setStage u c .slewing).pwr.fstep = u.pwr.fstep from rfl, hfstep]; exact hle),
          if_neg (Nat.not_lt.mpr hle), if_pos ⟨Nat.le_antisymm hle hge, hr⟩]
        refine ⟨rfl, ?_⟩
        change (if u.pwr.opResult = 1 then 0 else u.pwr.opResult) = 0
        rw [if_pos hresult]
    · rw [opBegin_slew (s := u) (c := c) (hfstep ▸ hge) (by rw [hrail]; exact hr), if_pos hr, if_neg (fun hh => hr hh.2)]
      exact ⟨rfl, hresult⟩

end Sys2Proof.Proofs

/-! The power manager: measurements, the cap, and the current limit (R381, R382, R384). -/

namespace Sys2Proof.Proofs

open Sys2Proof.Machine Sys2Proof.Claim

/-! ### Units of time -/

theorem usU_100 : usU 100 = 9000000 := rfl
theorem msU_10 : msU 10 = 900000000 := rfl
theorem msU_100 : msU 100 = 9000000000 := rfl

/-! ### What the manager's steps keep -/

/-- The time, the measured values and the profile stand, and the objects that the manager reads. -/
structure Followed (s t : State) : Prop where
  now : t.time.now = s.time.now
  vin : t.pwr.vinMv = s.pwr.vinMv
  watts : t.pwr.watts = s.pwr.watts
  meas : t.pwr.measAt = s.pwr.measAt
  profile : t.pwr.profile = s.pwr.profile
  fstep : t.pwr.fstep = s.pwr.fstep
  above : t.pwr.above = s.pwr.above
  mode : obj t 0x7001 1 = obj s 0x7001 1
  margin : obj t 0x7001 9 = obj s 0x7001 9

theorem Followed.refl (s : State) : Followed s s := ⟨rfl, rfl, rfl, rfl, rfl, rfl, rfl, rfl, rfl⟩

theorem Followed.trans {s t u : State} (h : Followed s t) (h' : Followed t u) : Followed s u :=
  ⟨h'.now.trans h.now, h'.vin.trans h.vin, h'.watts.trans h.watts, h'.meas.trans h.meas, h'.profile.trans h.profile, h'.fstep.trans h.fstep,
    h'.above.trans h.above, h'.mode.trans h.mode, h'.margin.trans h.margin⟩

theorem managerCmd_accepted (s : State) (f : Nat) : Accepted s (managerCmd s f) 0 f (vmin f + obj s 0x7001 9) := opAccept_accepted s 0 f _

theorem Accepted.followed {s t : State} {seq f v : Nat} (h : Accepted s t seq f v) : Followed s t := by
  have hpwr := h.pwr
  exact ⟨h.now, by rw [hpwr], by rw [hpwr], by rw [hpwr], by rw [hpwr], by rw [hpwr], by rw [hpwr],
    h.objs (by decide) (.inr (by decide)), h.objs (by decide) (.inr (by decide))⟩

/-- A command keeps what holds the frequency down. -/
theorem Accepted.holds {s t : State} {seq f v : Nat} (h : Accepted s t seq f v) : t.pwr.capHold = s.pwr.capHold ∧
    t.pwr.belowSince = s.pwr.belowSince ∧ t.pwr.thermHold = s.pwr.thermHold ∧ t.pwr.coolSince = s.pwr.coolSince ∧ t.pwr.target = v := by
  have hpwr := h.pwr
  exact ⟨by rw [hpwr], by rw [hpwr], by rw [hpwr], by rw [hpwr], by rw [hpwr]⟩

/-! ### AUTO (R384) -/

/-- The rail does not stand at the voltage of its step, and no command is in progress. -/
def astray (s : State) : Prop := obj s 0x7001 1 = 0 ∧ s.pwr.cmd = none ∧ s.pwr.target ≠ vmin s.pwr.fstep + obj s 0x7001 9

theorem autoRail_astray {s : State} (h : astray s) : autoRail s = managerCmd s s.pwr.fstep := if_pos h

theorem autoRail_not {s : State} (h : ¬astray s) : autoRail s = s := if_neg h

theorem autoRail_followed (s : State) : Followed s (autoRail s) := by
  by_cases h : astray s
  · rw [autoRail_astray h]
    exact (managerCmd_accepted s _).followed
  · rw [autoRail_not h]
    exact .refl s

theorem autoRail_aimed (s : State) : stepAimed (autoRail s) = stepAimed s := by
  by_cases h : astray s
  · rw [autoRail_astray h, (managerCmd_accepted s _).aimed, stepAimed, h.2.1]
  · rw [autoRail_not h]

theorem autoRail_holds (s : State) : (autoRail s).pwr.capHold = s.pwr.capHold ∧ (autoRail s).pwr.belowSince = s.pwr.belowSince := by
  by_cases h : astray s
  · rw [autoRail_astray h]
    obtain ⟨hcap, hbelow, -⟩ := (managerCmd_accepted s s.pwr.fstep).holds
    exact ⟨hcap, hbelow⟩
  · rw [autoRail_not h]
    exact ⟨rfl, rfl⟩

/-- In AUTO the rail is brought to its voltage, and else stands. -/
theorem autoRail_stands {s y : State} (hcmd : y.pwr.cmd = s.pwr.cmd) (htarget : y.pwr.target = s.pwr.target)
    (hfstep : y.pwr.fstep = s.pwr.fstep) (hobj : ∀ i a, obj y i a = obj s i a) :
    if obj s 0x7001 1 = 0 ∧ s.pwr.cmd = none ∧ s.pwr.target ≠ vmin s.pwr.fstep + obj s 0x7001 9 then
      (autoRail y).pwr.target = vmin s.pwr.fstep + obj s 0x7001 9 ∧ stepAimed (autoRail y) = s.pwr.fstep
    else (autoRail y).pwr.cmd = s.pwr.cmd ∧ (autoRail y).pwr.target = s.pwr.target := by
  have hastray : astray y ↔ obj s 0x7001 1 = 0 ∧ s.pwr.cmd = none ∧ s.pwr.target ≠ vmin s.pwr.fstep + obj s 0x7001 9 := by
    rw [astray, hobj, hobj, hcmd, htarget, hfstep]
  split
  · next h =>
    rw [autoRail_astray (hastray.mpr h)]
    have haccept := managerCmd_accepted y y.pwr.fstep
    rw [← hfstep, ← hobj]
    exact ⟨haccept.holds.2.2.2.2, haccept.aimed⟩
  · next h =>
    rw [autoRail_not (mt hastray.mp h)]
    exact ⟨hcmd, htarget⟩

/-! ### The cap (R382) -/

theorem capStep_over {s : State} (h : powerCap s < s.pwr.watts) : capStep s =
    let u := modPwr s (fun p => { p with belowSince := none, capHold := true })
    if stepAimed s = 0 then u else managerCmd (bump u 0x7000 0x0F) (stepAimed s - 1) := if_pos h

theorem capStep_near {s : State} (h : s.pwr.watts ≤ powerCap s) (h' : powerCap s * 9 ≤ s.pwr.watts * 10) :
    capStep s = modPwr s (fun p => { p with belowSince := none }) := by
  rw [capStep]
  dsimp only
  rw [if_neg (Nat.not_lt.mpr h), if_neg (Nat.not_lt.mpr h')]

theorem capStep_below {s : State} (h : s.pwr.watts * 10 < powerCap s * 9) : capStep s =
    let t := s.pwr.belowSince.getD s.time.now
    let top := maxStep s.pwr.profile
    if t + msU 10 ≤ s.time.now && obj s 0x7001 1 = 0 && stepAimed s < top && !s.pwr.thermHold then
      managerCmd (modPwr s (fun p => { p with belowSince := some s.time.now, capHold := decide (stepAimed s + 1 < top) })) (stepAimed s + 1)
    else modPwr s (fun p => { p with belowSince := some t, capHold := p.capHold && decide (stepAimed s < top) }) := by
  rw [capStep]
  dsimp only
  rw [if_neg (by omega), if_pos h]

theorem modPwr_followed {s : State} {f : PwrSt → PwrSt} (h : ∃ b c, f s.pwr = { s.pwr with belowSince := b, capHold := c }) : Followed s (modPwr s f) := by
  obtain ⟨b, c, h⟩ := h
  have hpwr : (modPwr s f).pwr = { s.pwr with belowSince := b, capHold := c } := h
  exact ⟨rfl, by rw [hpwr], by rw [hpwr], by rw [hpwr], by rw [hpwr], by rw [hpwr], by rw [hpwr], rfl, rfl⟩

theorem bump_followed (s : State) (sub : Nat) (hsub : sub < 256) : Followed s (bump s 0x7000 sub) :=
  ⟨rfl, rfl, rfl, rfl, rfl, rfl, rfl, obj_bump_ne s hsub (by decide) (.inl (by decide)), obj_bump_ne s hsub (by decide) (.inl (by decide))⟩

theorem capStep_followed (s : State) : Followed s (capStep s) := by
  rcases Nat.lt_or_ge (powerCap s) s.pwr.watts with h | h
  · have hmod : Followed s (modPwr s (fun p => { p with belowSince := none, capHold := true })) := modPwr_followed ⟨_, _, rfl⟩
    rw [capStep_over h]
    dsimp only
    split
    · exact hmod
    · exact hmod.trans ((bump_followed _ _ (by decide)).trans (managerCmd_accepted _ _).followed)
  · rcases Nat.lt_or_ge (s.pwr.watts * 10) (powerCap s * 9) with h' | h'
    · rw [capStep_below h']
      dsimp only
      split
      · exact (modPwr_followed ⟨_, _, rfl⟩).trans (managerCmd_accepted _ _).followed
      · exact modPwr_followed ⟨_, _, rfl⟩
    · rw [capStep_near h h']
      exact modPwr_followed ⟨_, _, rfl⟩

/-- The cap never aims above the profile's highest step. -/
theorem capStep_aimed_le {s : State} (h : stepAimed s ≤ maxStep s.pwr.profile) : stepAimed (capStep s) ≤ maxStep s.pwr.profile := by
  rcases Nat.lt_or_ge (powerCap s) s.pwr.watts with ho | ho
  · rw [capStep_over ho]
    dsimp only
    split
    · exact h
    · rw [(managerCmd_accepted _ _).aimed]
      omega
  · rcases Nat.lt_or_ge (s.pwr.watts * 10) (powerCap s * 9) with hb | hb
    · rw [capStep_below hb]
      dsimp only
      split
      · next hup =>
        rw [(managerCmd_accepted _ _).aimed]
        simp only [Bool.and_eq_true, decide_eq_true_eq] at hup
        exact hup.1.2
      · exact h
    · rw [capStep_near ho hb]
      exact h

/-! ### The profile (R381) -/

theorem profileCmd_followed (s : State) (was : Nat) : Followed s (profileCmd s was) := by
  unfold profileCmd
  dsimp only
  split
  · exact (managerCmd_accepted _ _).followed
  · split
    · exact (managerCmd_accepted _ _).followed
    · exact .refl s

theorem profileCmd_aimed_le (s : State) (was : Nat) : stepAimed (profileCmd s was) ≤ maxStep s.pwr.profile := by
  unfold profileCmd
  dsimp only
  split
  · exact (managerCmd_accepted _ _).aimed.le
  · next h =>
    split
    · exact (managerCmd_accepted _ _).aimed.le
    · exact Nat.not_lt.mp h

theorem profileCmd_stands {s : State} (h : stepAimed s ≤ maxStep s.pwr.profile) : profileCmd s s.pwr.profile = s := by
  rw [profileCmd, if_neg (Nat.not_lt.mpr h), if_neg (by simp)]

/-- Since when VIN has stood above a band. -/
def vinAbove (s : State) (v q : Nat) : Option Nat :=
  if bandLow q + 500 ≤ v then some ((lget s.pwr.above q none).getD s.time.now) else none

/-- VIN has stood above a band for 100 ms. -/
def vinHeld (s : State) (v q : Nat) : Bool :=
  (lget ((List.range 3).map (vinAbove s v)) q none).any (fun t => decide (t + msU 100 ≤ s.time.now))

/-- The profile that a measurement leads to. -/
def vinProfile (s : State) (v : Nat) : Nat :=
  if s.pwr.profile < profileOf v then profileOf v else ((List.range s.pwr.profile).find? (vinHeld s v)).getD s.pwr.profile

theorem followVin_eq (s : State) (v : Nat) : followVin s v =
    modPwr s (fun x => { x with profile := vinProfile s v, above := [vinAbove s v 0, vinAbove s v 1, vinAbove s v 2] }) := rfl

theorem bands_any_iff (f : Nat → Option Nat) (p : Nat → Bool) (q : Nat) :
    (lget ((List.range 3).map f) q none).any p = true ↔ q < 3 ∧ ∃ u, f q = some u ∧ p u = true := by
  by_cases h : q < 3
  · rw [lget_map_range _ h]
    cases f q <;> simp [h]
  · have hnone : lget ((List.range 3).map f) q none = none := by
      rw [lget, List.getElem?_eq_none (by simpa using h)]
      rfl
    rw [hnone]
    simp [h]

theorem vinHeld_iff (s : State) (v q : Nat) : vinHeld s v q = true ↔ q < 3 ∧ ∃ u, vinAbove s v q = some u ∧ u + 9000000000 ≤ s.time.now := by
  rw [vinHeld, msU_100, bands_any_iff]
  simp only [decide_eq_true_eq]

/-! ### A measurement -/

theorem advanceTo_pwr (s : State) (t : Nat) : (advanceTo s t).pwr = s.pwr := rfl

theorem advanceTo_objs (s : State) (t i a : Nat) : obj (advanceTo s t) i a = obj s i a := rfl

theorem modPwr_pwr (s : State) (f : PwrSt → PwrSt) : (modPwr s f).pwr = f s.pwr := rfl

theorem modPwr_time (s : State) (f : PwrSt → PwrSt) : (modPwr s f).time = s.time := rfl

theorem modPwr_objs (s : State) (f : PwrSt → PwrSt) (i a : Nat) : obj (modPwr s f) i a = obj s i a := rfl

/-- The measured state `m`, and what follows from it. -/
theorem exec_powerMeasurement {s : State} (h : started s = true) (v w : Nat) : ∃ m : State,
    exec (.powerMeasurement v w) s = .next (autoRail (capStep (profileCmd (followVin m v) m.pwr.profile))) ∧
    m.time.now = max s.time.now (s.pwr.measAt + 9000000) ∧
    m.pwr = { s.pwr with vinMv := v, watts := w, measAt := m.time.now } ∧ ∀ i a, obj m i a = obj s i a := by
  refine ⟨modPwr (advanceTo s (s.pwr.measAt + usU 100)) (fun p => { p with
    vinMv := v, watts := w, measAt := (advanceTo s (s.pwr.measAt + usU 100)).time.now }), if_neg (by rw [h]; decide), ?_, ?_, fun i a => ?_⟩
  · rw [modPwr_time, advanceTo_now, usU_100]
  · rw [modPwr_pwr, advanceTo_pwr, modPwr_time]
  · rw [modPwr_objs, advanceTo_objs]

/-- What every measurement leaves. -/
theorem measurement_followed (u : State) (was : Nat) : Followed u (autoRail (capStep (profileCmd u was))) :=
  (profileCmd_followed _ _).trans ((capStep_followed _).trans (autoRail_followed _))

theorem find?_range_first {p : Nat → Bool} {n q : Nat} (hq : q < n) (h : p q = true) (hfirst : ∀ r, r < q → p r = false) :
    (List.range n).find? p = some q :=
  List.find?_range_eq_some.mpr ⟨h, List.mem_range.mpr hq, fun r hr => by rw [hfirst r hr]; rfl⟩

theorem find?_range_none {p : Nat → Bool} {n : Nat} (h : ∀ r, r < n → p r = false) : (List.range n).find? p = none :=
  List.find?_eq_none.mpr fun r hr => by
    rw [h r (List.mem_range.mp hr)]
    decide

theorem ofLE_toLE (n v : Nat) : ofLE (toLE n v) = v % 256 ^ n := by
  induction n generalizing v with
  | zero => simp [toLE, ofLE, Nat.mod_one]
  | succ n ih => rw [toLE, ofLE, ih, BitVec.toNat_ofNat, Nat.pow_succ' (n := n), Nat.mod_mul (x := v) (a := 256)]


theorem railNow_stands {s : State} {c : OpCmd} (h : s.pwr.cmd = some c) (hc : c.stage ≠ .slewing) : railNow s = s.pwr.railUv := by
  obtain ⟨seq, f, target, stage⟩ := c
  rw [railNow]
  dsimp only
  rw [h]
  split
  · rfl
  · cases stage with
    | slewing => exact absurd rfl hc
    | _ => rfl

/-- A write of OpCommand (R384). -/
theorem put_opCommand {s : State} (hs : Served s 0x7001) (v : BitVec 32) :
    put s 0x7001 2 (toLE 4 v.toNat) = .next (answered (opWrite s v.toNat)) := by
  have hwrite := writeObj_value (bs := toLE 4 v.toNat) hs (rowOf_page (sub := 2) (r := wo 2 .u32) rfl (by decide) (by decide) rfl) (by decide)
    ⟨nofun, nofun⟩ (by decide) nofun (length_toLE _ _)
  have hall : allowed (wo 2 .u32) (ofLE (toLE 4 v.toNat)) = true := rfl
  rw [put_served hs, hwrite, if_pos hall, valueWrite_go (by decide) (by decide) rfl, ofLE_toLE, Nat.mod_eq_of_lt (b := 256 ^ 4) v.isLt]
  rfl

/-- Settles O48: each command, each of its steps, each measurement, and the current limit. -/
theorem powerFollowsItsCommands : Obligations.PowerFollowsItsCommands := by
  refine ⟨fun s v hserved => ?_, fun s c hon hc => ?_, fun s v w hon => ?_, fun s hon => ?_⟩
  · intro seq f mv bad
    have hput : exec (.opCommand v) s = .next (answered (opWrite s v.toNat)) := put_opCommand hserved v
    have hcode : bits v.toNat 6 0 = (v.extractLsb' 0 7).toNat := bits_toNat v 6 0
    have hstep : bits v.toNat 17 16 = f := bits_toNat v 17 16
    have hseq : bits v.toNat 31 24 = seq := bits_toNat v 31 24
    have hbad : ((decide (120 < (v.extractLsb' 0 7).toNat) || decide (620 + 2 * (v.extractLsb' 0 7).toNat < vmin f) ||
        decide (maxStep s.pwr.profile < f)) = true) ↔ bad := by
      rw [Bool.or_eq_true, Bool.or_eq_true, decide_eq_true_iff, decide_eq_true_iff, decide_eq_true_iff, or_assoc]
      exact or_congr_left (by omega)
    have hopWrite (hmode : obj s 0x7001 1 ≠ 0) : opWrite s v.toNat = if bad then
        ackOk (modPwr (bump s 0x7001 0x0A) (fun p => { p with opSeq := seq, opResult := 2 })) else ackOk (opAccept s seq f mv) := by
      rw [opWrite, if_neg hmode, hcode, hstep, hseq]
      dsimp only
      by_cases hb : bad
      · rw [if_pos (hbad.mpr hb), if_pos hb]
      · rw [if_neg (mt hbad.mp hb), if_neg hb]
    refine ⟨fun hmode => ?_, fun hmode hb => ?_, fun hmode hb => ?_⟩
    · refine ⟨_, hput, ?_⟩
      rw [opWrite, if_pos hmode, answered_abort _ (by decide)]
      exact ⟨rfl, rfl⟩
    · refine ⟨_, hput, ?_⟩
      rw [hopWrite hmode, if_pos hb, answered_ok]
      exact ⟨rfl, rfl, obj_bump_same s _ _⟩
    · intro c
      let t := opAccept s seq f mv
      have haccept : Accepted s t seq f mv := opAccept_accepted s seq f mv
      refine ⟨_, by rw [hput, hopWrite hmode, if_neg hb, answered_ok], rfl, ?_⟩
      change t.pwr.target = mv ∧ t.pwr.opSeq = seq ∧ t.pwr.fstep = s.pwr.fstep ∧ stepAimed t = f ∧ t.pwr.railUv = railNow s ∧
        t.time.now = s.time.now ∧ cyc t = cyc s ∧ (_ → t.pwr.cmd = _ ∧ t.pwr.opResult = _) ∧
        ∀ o, s.pwr.cmd = some o → obj t 0x7001 7 = o.seq ∧ obj t 0x7001 8 = _ ∧ (∀ g due, _ → t.pwr.cmd = _) ∧ ∀ due, _ → t.pwr.cmd = _
      have hpwr := haccept.pwr
      refine ⟨by rw [hpwr], by rw [hpwr], by rw [hpwr], haccept.aimed, by rw [hpwr], haccept.now, haccept.cycles, opAccept_first, fun o ho => ?_⟩
      have hcmd : t.pwr = (opStart (opAimed s seq mv) (some o) (opNew seq f mv)).pwr := by
        rw [show t.pwr = _ from opAccept_cmd s seq f mv, ho]
      have hobj (i a : Nat) : obj t i a = obj (opAimed s seq mv) i a := by
        rw [show t = _ from opAccept_eq s seq f mv, reclock_objs, (opStart_stepped _ _ _).rest]
        rfl
      obtain ⟨h7, h8⟩ := opAimed_superseded ho seq mv
      refine ⟨(hobj _ _).trans h7, (hobj _ _).trans h8, fun g due hstage => ?_, fun due hstage => ?_⟩
      · rw [hcmd, opStart_falling _ hstage]
        rfl
      · rw [hcmd, opStart_rising _ hstage]
        rfl
  · intro done
    refine ⟨fun g due hg => ?_, fun due hg => ?_, fun due hg => ?_, fun hg => ?_⟩
    · let w := settleRail (modPwr (advanceTo s due) (fun p => { p with fstep := g }))
      have hexec : exec .frequencyChangeDone s = .next (reclock s (opBegin w c)) := by
        refine (running_on hon _).trans ?_
        rw [hc]
        dsimp only
        rw [hg]
      obtain ⟨hrest, hpwr⟩ := opBegin_stepped w c
      refine ⟨_, hexec, ?_, ?_, ?_, ?_⟩
      · rw [reclock_now, hrest]
        exact advanceTo_now s due
      · rw [reclock_pwr, hpwr]
        rfl
      · exact stepAimed_of_aims (by rw [reclock_pwr]; exact opBegin_aims w c)
      · rw [reclock_pwr, hpwr]
        change railNow (modPwr (advanceTo s due) (fun p => { p with fstep := g })) = _
        exact railNow_stands (c := c) (by rw [modPwr_pwr]; exact hc) (by rw [hg]; nofun)
    · let w := modPwr (advanceTo s due) (fun p => { p with fstep := c.fstep })
      have hexec : exec .frequencyChangeDone s = .next (reclock s (opDone w)) := by
        refine (running_on hon _).trans ?_
        rw [hc]
        dsimp only
        rw [hg]
      refine ⟨_, hexec, ?_, ?_, ?_, ?_⟩
      · rw [reclock_now]
        exact advanceTo_now s due
      · rw [reclock_pwr]
        rfl
      · rw [reclock_pwr]
        rfl
      · rw [reclock_pwr]
        rfl
    · have hexec : exec .railHoldExpiry s = .next (setStage (advanceTo s due) c (.rising ((advanceTo s due).time.now + nsU 500))) := by
        refine (running_on hon _).trans ?_
        rw [hc]
        dsimp only
        rw [hg]
      exact ⟨_, hexec, advanceTo_now s due, rfl, rfl⟩
    · let goal := c.target * 1000
      let d := if s.pwr.railUv ≤ goal then goal - s.pwr.railUv else s.pwr.railUv - goal
      have hd : d = max s.pwr.railUv goal - min s.pwr.railUv goal := by
        change (if _ then _ else _) = _
        split
        · next h => rw [Nat.max_eq_right h, Nat.min_eq_left h]
        · next h => rw [Nat.max_eq_left (Nat.le_of_not_le h), Nat.min_eq_right (Nat.le_of_not_le h)]
      let a := advanceTo s (s.pwr.railAt + 18 * d)
      let w := modPwr a (fun p => { p with railUv := goal, railAt := a.time.now })
      have hexec : exec .railTargetReached s = .next (railThere w c) := by
        refine (running_on hon _).trans ?_
        rw [hc]
        dsimp only
        rw [hg]
      obtain ⟨hrest, hpwr⟩ := railThere_stepped w c
      have htime : (railThere w c).time = a.time := by
        rw [hrest]
        rfl
      refine ⟨_, hexec, ?_, ?_, ?_, fun hlt => ?_, fun hle => ?_⟩
      · rw [hpwr]
        rfl
      · rw [hpwr]
        rfl
      · rw [htime, show a = advanceTo s (s.pwr.railAt + 18 * d) from rfl, advanceTo_now, hd]
      · rw [htime]
        rw [railThere_rise (s := w) hlt]
        rfl
      · rw [railThere_done (s := w) hle]
        exact ⟨rfl, rfl⟩
  · intro now p above held went
    obtain ⟨m, hexec, hnow, hpwr, hobj⟩ := exec_powerMeasurement hon v w
    change m.time.now = now at hnow
    have hprofile : m.pwr.profile = p := by rw [hpwr]
    let u := followVin m v
    have habove (q : Nat) : vinAbove m v q = above q := by rw [vinAbove, hnow, hpwr]
    have hheld (q : Nat) : vinHeld m v q = true ↔ held q := by rw [vinHeld_iff, habove, hnow]
    have hwent {q : Nat} (hq : vinProfile m v = q) : went (autoRail (capStep (profileCmd u m.pwr.profile))) q := by
      have hkept := measurement_followed u m.pwr.profile
      refine ⟨hexec, hkept.now.trans hnow, hkept.vin.trans ?_, hkept.watts.trans ?_, hkept.meas.trans ?_, hkept.profile.trans hq,
        hkept.fstep.trans ?_, hkept.above.trans ?_⟩
      · exact congrArg PwrSt.vinMv hpwr
      · exact congrArg PwrSt.watts hpwr
      · exact (congrArg PwrSt.measAt hpwr).trans hnow
      · exact (congrArg PwrSt.fstep hpwr : m.pwr.fstep = _)
      · rw [← habove, ← habove, ← habove]
        rfl
    refine ⟨fun hup => ?_, fun q hle hqp hq hfirst => ?_, fun hle hnone haim => ?_⟩
    · have hq : vinProfile m v = profileOf v := if_pos (by rw [hprofile]; exact hup)
      refine ⟨_, hwent hq, ?_⟩
      rw [autoRail_aimed]
      have hcmd := profileCmd_aimed_le u m.pwr.profile
      have hprof := (profileCmd_followed u m.pwr.profile).profile
      have hcap := capStep_aimed_le (hprof.symm ▸ hcmd)
      rw [hprof, show u.pwr.profile = profileOf v from hq] at hcap
      exact hcap
    · refine ⟨_, hwent ?_⟩
      have hfind : (List.range p).find? (vinHeld m v) = some q :=
        find?_range_first hqp ((hheld q).mpr hq) (fun r hr => Bool.eq_false_iff.mpr (mt (hheld r).mp (hfirst r hr)))
      rw [vinProfile, hprofile, if_neg (Nat.not_lt.mpr hle)]
      exact congrArg (Option.getD · _) hfind
    · have hq : vinProfile m v = p := by
        have hfind : (List.range p).find? (vinHeld m v) = none :=
          find?_range_none fun r hr => Bool.eq_false_iff.mpr (mt (hheld r).mp (hnone r hr))
        rw [vinProfile, hprofile, if_neg (Nat.not_lt.mpr hle)]
        exact congrArg (Option.getD · _) hfind
      have hprof : u.pwr.profile = p := hq
      have haimed : stepAimed u = stepAimed s := by
        rw [stepAimed, stepAimed, show u.pwr.cmd = m.pwr.cmd from rfl, show u.pwr.fstep = m.pwr.fstep from rfl, hpwr]
      have hstands : profileCmd u m.pwr.profile = u := by
        rw [hprofile, ← hprof]
        exact profileCmd_stands (by rw [hprof, haimed]; exact haim)
      have hw := hwent hq
      rw [hstands] at hw
      have hcap : powerCap u = powerCap s := by rw [powerCap, powerCap, hprof]
      have hwatts : u.pwr.watts = w := (congrArg PwrSt.watts hpwr : m.pwr.watts = w)
      have hbelow : u.pwr.belowSince = s.pwr.belowSince := (congrArg PwrSt.belowSince hpwr : m.pwr.belowSince = _)
      have htherm : u.pwr.thermHold = s.pwr.thermHold := (congrArg PwrSt.thermHold hpwr : m.pwr.thermHold = _)
      have hcmd : u.pwr.cmd = s.pwr.cmd := (congrArg PwrSt.cmd hpwr : m.pwr.cmd = _)
      have htarget : u.pwr.target = s.pwr.target := (congrArg PwrSt.target hpwr : m.pwr.target = _)
      have hfstep : u.pwr.fstep = s.pwr.fstep := (congrArg PwrSt.fstep hpwr : m.pwr.fstep = _)
      have hnowU : u.time.now = now := hnow
      have hobjU (i a : Nat) : obj u i a = obj s i a := hobj i a
      intro cap
      refine ⟨fun hover => ?_, ?_⟩
      · have hstep := capStep_over (s := u) (by rw [hcap, hwatts]; exact hover)
        refine ⟨_, hw, ?_, ?_⟩
        · rw [(autoRail_holds _).1, hstep]
          dsimp only
          split
          · rfl
          · exact (managerCmd_accepted _ _).holds.1
        · rw [autoRail_aimed, hstep]
          dsimp only
          rw [haimed]
          split
          · next hz =>
            rw [hz]
            exact haimed.trans hz
          · exact (managerCmd_accepted _ _).aimed
      · intro stands
        refine ⟨fun hle hnear => ?_, fun hlow hauto htop hcool => ⟨fun t0 hsince hlong => ?_, fun hsince => ?_⟩⟩
        · have hstep := capStep_near (s := u) (by rw [hcap, hwatts]; exact hle) (by rw [hcap, hwatts]; exact hnear)
          refine ⟨_, hw, ?_, ?_⟩
          · rw [hstep]
            exact autoRail_stands hcmd htarget hfstep hobjU
          · rw [(autoRail_holds _).2, hstep]
            rfl
        · have hstep := capStep_below (s := u) (by rw [hcap, hwatts]; exact hlow)
          dsimp only at hstep
          rw [hbelow, hsince, hnowU, haimed, hprof, hobjU, htherm, hauto, hcool, msU_10, if_pos (by simp [hlong, htop])] at hstep
          refine ⟨_, hw, ?_⟩
          rw [autoRail_aimed, hstep]
          exact (managerCmd_accepted _ _).aimed
        · have hstep := capStep_below (s := u) (by rw [hcap, hwatts]; exact hlow)
          dsimp only at hstep
          rw [hbelow, hsince, hnowU, msU_10, if_neg (by simp)] at hstep
          refine ⟨_, hw, ?_, ?_⟩
          · rw [hstep]
            exact autoRail_stands hcmd htarget hfstep hobjU
          · rw [(autoRail_holds _).2, hstep]
            rfl
  · let x := modPwr s (fun p => { p with capHold := true, belowSince := none })
    let y := managerCmd x 0
    have haccept := managerCmd_accepted x 0
    have hlog := cairn_logged y 0x0A 1 2 (toLE 4 y.pwr.vinMv ++ toLE 4 y.pwr.watts)
    have hexec : exec .currentLimitHeld s = .next (cairn y 0x0A 1 2 (toLE 4 y.pwr.vinMv ++ toLE 4 y.pwr.watts)) := by
      change execCurrentLimitHeld s = _
      rw [execCurrentLimitHeld, hon]
      rfl
    have hpwr : (cairn y 0x0A 1 2 (toLE 4 y.pwr.vinMv ++ toLE 4 y.pwr.watts)).pwr = y.pwr := by rw [hlog.rest]
    have htime : (cairn y 0x0A 1 2 (toLE 4 y.pwr.vinMv ++ toLE 4 y.pwr.watts)).time = y.time := by rw [hlog.rest]
    refine ⟨_, hexec, ?_, ?_, ?_, ?_, ?_⟩
    · rw [stepAimed, hpwr]
      exact haccept.aimed
    · rw [hpwr]
      exact haccept.holds.1
    · rw [hpwr]
      exact haccept.holds.2.1
    · rw [htime]
      exact haccept.now
    · rw [hpwr]
      exact haccept.followed.fstep

end Sys2Proof.Proofs

/-! Service (R404, R408, R409), and the thermal limits (R438, R439). -/

namespace Sys2Proof.Proofs

open Sys2Proof.Machine Sys2Proof.Claim

/-! ### Ports enter service -/

/-- Only ports have changed, and neither their links nor their partners. -/
structure Entered (s t : State) : Prop where
  rest : t = { s with ports := t.ports }
  link : ∀ lp, (port t lp).link = (port s lp).link
  partner : ∀ lp, (port t lp).partner = (port s lp).partner

theorem Entered.refl (s : State) : Entered s s := ⟨rfl, fun _ => rfl, fun _ => rfl⟩

theorem Entered.trans {s t u : State} (h : Entered s t) (h' : Entered t u) : Entered s u := by
  refine ⟨?_, fun lp => (h'.link lp).trans (h.link lp), fun lp => (h'.partner lp).trans (h.partner lp)⟩
  have hu := h'.rest
  rw [h.rest] at hu
  exact hu

theorem Entered.active {s t : State} (h : Entered s t) (lp : Nat) : Machine.active t lp = Machine.active s lp := by
  have hlink := h.link lp
  have hup : linkState t lp = linkState s lp := by
    rw [linkState, linkState, hlink, h.rest]
    rfl
  rw [Machine.active, Machine.active, linkUp, linkUp, hup, h.rest]
  rfl

theorem Entered.peer {s t : State} (h : Entered s t) : isPeerPresent t = isPeerPresent s :=
  isPeerPresent_congr (by rw [h.rest]) h.partner (fun lp _ => by rw [h.rest]; rfl)

theorem enterPort_active {s : State} {lp : Nat} (h : active s lp = true) : enterPort s lp = modPort s lp (fun p => { p with
    nextPulse := some s.time.now, partnerEp := none
    lossFrom := if p.partner = 2 then none else some (p.lossFrom.getD s.time.now)
    missedFrom := some (p.missedFrom.getD s.time.now) }) := if_pos h

theorem enterPort_not {s : State} {lp : Nat} (h : active s lp ≠ true) : enterPort s lp = s := if_neg h

theorem port_modPort_same (s : State) (lp : Nat) (f : Port → Port) : port (modPort s lp f) lp = f (port s lp) := port_setPort_same s lp _

theorem port_modPort_ne (s : State) {lp k : Nat} (f : Port → Port) (h : k ≠ lp) : port (modPort s lp f) k = port s k :=
  port_setPort_ne s _ h.symm

theorem port_enterPort_ne (s : State) {lp k : Nat} (h : k ≠ lp) : port (enterPort s lp) k = port s k := by
  by_cases ha : active s lp = true
  · rw [enterPort_active ha, port_modPort_ne _ _ h]
  · rw [enterPort_not ha]

theorem enterPort_entered (s : State) (lp : Nat) : Entered s (enterPort s lp) := by
  by_cases ha : active s lp = true
  · have hrest : enterPort s lp = { s with ports := (enterPort s lp).ports } := by
      rw [enterPort_active ha]
      rfl
    have hkept (k : Nat) : (port (enterPort s lp) k).link = (port s k).link ∧ (port (enterPort s lp) k).partner = (port s k).partner := by
      by_cases hk : k = lp
      · rw [hk, enterPort_active ha, port_modPort_same]
        exact ⟨rfl, rfl⟩
      · rw [port_enterPort_ne s hk]
        exact ⟨rfl, rfl⟩
    exact ⟨hrest, fun k => (hkept k).1, fun k => (hkept k).2⟩
  · rw [enterPort_not ha]
    exact .refl s

/-- The ports below a number enter service: those that are active pulse at once (R47). -/
theorem enterPorts_below (s : State) (n : Nat) : let t := (List.range n).foldl enterPort s
    Entered s t ∧ ∀ lp, lp < n → active s lp = true → (port t lp).nextPulse = some s.time.now := by
  induction n with
  | zero => exact ⟨.refl s, fun lp h => absurd h (Nat.not_lt_zero lp)⟩
  | succ n ih =>
    obtain ⟨hentered, hpulse⟩ := ih
    dsimp only at hentered hpulse ⊢
    rw [List.range_succ, List.foldl_append]
    refine ⟨hentered.trans (enterPort_entered _ n), fun lp hlp ha => ?_⟩
    change (port (enterPort _ n) lp).nextPulse = _
    by_cases h : lp = n
    · subst h
      rw [enterPort_active ((hentered.active lp).trans ha), port_modPort_same]
      change some (State.time _).now = _
      rw [hentered.rest]
    · rw [port_enterPort_ne _ h]
      exact hpulse lp (by omega) ha

/-! ### FAULT_N (R404, R408) -/

theorem allFenced_congr {s t : State} (hsys : t.sys = s.sys) (hobj : ∀ c, c < 16 → obj t (0x4020 + c) 1 = obj s (0x4020 + c) 1) :
    allFenced t = allFenced s := by
  have hclusters : clusters t = clusters s := by rw [clusters, clusters, hsys]
  rw [allFenced, allFenced, hclusters, Bool.eq_iff_iff, List.all_eq_true, List.all_eq_true]
  refine forall_congr' fun c => imp_congr_right fun hc => ?_
  rw [hobj c ((List.mem_range.mp hc).trans_le (clusters_le s))]

theorem outCause_congr {s t : State} (hsys : t.sys = s.sys) (hobj : ∀ c, c < 16 → obj t (0x4020 + c) 1 = obj s (0x4020 + c) 1) :
    outCause t = outCause s := by
  rw [outCause, outCause, allFenced_congr hsys hobj, hsys]

theorem Leased.outCause {s t : State} (h : Leased s t) : Machine.outCause t = Machine.outCause s :=
  outCause_congr h.sys (fun c hc => h.objs (by decide) (by omega) (by omega) (.inl (by omega)))

/-- A condition of Basecamp, the thermal shutdown or ServiceCmd keeps the device out of service. -/
theorem outCause_ne_zero {s : State} (h : s.sys.basecampFailed = true ∨ s.sys.thermalShut = true ∨ s.sys.svcOut = true) : outCause s ≠ 0 := by
  unfold outCause
  repeat' split
  all_goals simp_all

theorem latchFenced_only (s : State) : ∃ b, latchFenced s = { s with sys := { s.sys with fencedOut := b } } := by
  unfold latchFenced
  split
  · exact ⟨_, rfl⟩
  · exact ⟨s.sys.fencedOut, rfl⟩

theorem dropOver_leased (s : State) : Leased s (dropOver s) ∧ (s.rcv.leaseUntil = none → (dropOver s).rcv.leaseUntil = none) := by
  cases h : leaseOver s
  · rw [dropOver_of_held s h]
    exact ⟨.refl s, id⟩
  · obtain ⟨hleased, hrcv, -, -⟩ := dropOver_dropped h
    exact ⟨hleased, fun _ => by rw [hrcv]⟩

theorem recheckReadOnly_looked (s : State) : ∃ d, d = dropOver s ∧ LookedAt d (recheckReadOnly s) := ⟨_, rfl, readOnlyNow_lookedAt _⟩

theorem recheckReadOnly_leased (s : State) : Leased s (recheckReadOnly s) := by
  obtain ⟨d, rfl, hlook⟩ := recheckReadOnly_looked s
  exact (dropOver_leased s).1.trans hlook.leased

theorem recheckReadOnly_none {s : State} (h : s.rcv.leaseUntil = none) : (recheckReadOnly s).rcv.leaseUntil = none := by
  obtain ⟨d, rfl, hlook⟩ := recheckReadOnly_looked s
  rw [hlook.rcv]
  exact (dropOver_leased s).2 h

theorem recheckReadOnly_readOnly (s : State) : (recheckReadOnly s).rcv.readOnly = mustNotWrite (recheckReadOnly s) := by
  obtain ⟨d, rfl, hlook⟩ := recheckReadOnly_looked s
  exact hlook.readOnly

/-- Out of service: FAULT_N is low, and the lease drops with its fall. -/
structure ServiceLost (s t : State) : Prop where
  sys : t.sys = { s.sys with faultN := false, fencedOut := t.sys.fencedOut }
  lease : s.sys.faultN = true → t.rcv.leaseUntil = none
  readOnly : t.rcv.readOnly = mustNotWrite t
  rest : t = { s with sys := t.sys, obj := t.obj, rcv := t.rcv, dict := t.dict, cairn := t.cairn }
  objs : ∀ {i a}, a < 256 → i ≠ 0x0200 → i ≠ 0x7800 → i ≠ 0x8002 ∨ a < 0x0A → obj t i a = obj s i a

/-- FAULT_N falls where a condition keeps the device out of service. -/
theorem setFaultN_lost {s : State} (h : s.sys.basecampFailed = true ∨ s.sys.thermalShut = true ∨ s.sys.svcOut = true) :
    ∃ b, setFaultN s = { s with
      sys := { s.sys with faultN := false, fencedOut := b }
      rcv := { s.rcv with leaseUntil := if s.sys.faultN then none else s.rcv.leaseUntil } } := by
  obtain ⟨b, hb⟩ := latchFenced_only s
  refine ⟨b, ?_⟩
  rw [setFaultN, hb]
  exact if_neg (by simpa [inService] using outCause_ne_zero (s := { s with sys := { s.sys with fencedOut := b } }) h)

theorem recheckService_lost {s : State} (h : s.sys.basecampFailed = true ∨ s.sys.thermalShut = true ∨ s.sys.svcOut = true) :
    ServiceLost s (recheckService s) := by
  obtain ⟨hd, -⟩ := dropOver_leased s
  obtain ⟨b, hb⟩ := setFaultN_lost (s := dropOver s) (by rw [hd.sys]; exact h)
  obtain ⟨o, r, hdrop⟩ := dropOver_only s
  rw [hdrop] at hb hd
  rw [recheckService, hdrop, hb]
  have hleased := recheckReadOnly_leased { s with
    sys := { s.sys with faultN := false, fencedOut := b }, obj := o
    rcv := { r with leaseUntil := if s.sys.faultN then none else r.leaseUntil } }
  refine ⟨?_, fun hwas => recheckReadOnly_none (if_pos hwas), recheckReadOnly_readOnly _, ?_, fun ha h0 h7 h8 => ?_⟩
  · rw [hleased.sys]
  · rw [hleased.rest]
  · exact (hleased.objs ha h0 h7 h8).trans (hd.objs ha h0 h7 h8)

/-- FAULT_N rises where no condition keeps the device out of service. -/
theorem setFaultN_back {s : State} (h : inService s = true) : setFaultN s = { s with sys := { s.sys with faultN := true, everInService := true } } := by
  have hfence : allFenced s = false := by
    rw [inService, beq_iff_eq] at h
    revert h
    unfold outCause
    repeat' split
    all_goals simp_all
  have hlatch : latchFenced s = s := if_neg (by rw [hfence]; decide)
  rw [setFaultN, hlatch]
  exact if_pos h

/-- In service again: FAULT_N is high. -/
theorem recheckService_back {s : State} (h : inService s = true) : let t := recheckService s
    t.sys = { s.sys with faultN := true, everInService := true } ∧ t.ropes = s.ropes ∧ t.time = s.time := by
  intro t
  obtain ⟨hd, -⟩ := dropOver_leased s
  have hback := setFaultN_back (s := dropOver s) (by rw [inService, hd.outCause]; exact h)
  have hleased := recheckReadOnly_leased (setFaultN (dropOver s))
  have ht : t = recheckReadOnly (setFaultN (dropOver s)) := rfl
  rw [ht]
  refine ⟨?_, ?_, ?_⟩
  · rw [hleased.sys, hback, hd.sys]
  · rw [hleased.ropes, hback]
    exact hd.ropes
  · rw [hleased.time, hback]
    exact hd.time

/-! ### Basecamp fails (R409) -/

/-- What every failure of Basecamp leaves. -/
theorem basecampFails_lost {s : State} (cause : Nat) (hp : s.sys.phase ≠ .unpowered) (hf : s.sys.frozen = false)
    (hb : s.sys.basecampFailed = false) : basecampFails s cause = recheckService { s with sys := { s.sys with
      basecampFailed := true, failCause := cause } } := by
  refine if_neg ?_
  rw [hf, hb, beq_eq_false_iff_ne.mpr hp]
  decide

theorem serviceChange_lost {s : State} (h : ServiceLost s (recheckService s)) : serviceChange s = recheckService s := by
  rw [serviceChange]
  refine if_neg ?_
  rw [h.sys, Bool.and_false]
  decide

end Sys2Proof.Proofs

/-! Leaving and entering service, and the thermal limits (R408, R409, R438, R439). -/

namespace Sys2Proof.Proofs

open Sys2Proof.Machine Sys2Proof.Claim

/-! ### The stacks' sensors -/

/-- One sensor is read. -/
def senseStack (s : State) (e : Int × Nat) : State := setStack s e.2 { stackOf s e.2 with temp := e.1 }

theorem senseStack_foldl (l : List Int) (j : Nat) (s : State) : let t := (l.zipIdx j).foldl senseStack s
    (∃ stk, t = { s with hbm := { s.hbm with stk := stk } }) ∧
      ∀ k, stackOf t k = if j ≤ k ∧ k < j + l.length then { stackOf s k with temp := l.getD (k - j) 0 } else stackOf s k := by
  induction l generalizing j s with
  | nil => exact ⟨⟨_, rfl⟩, fun k => (if_neg (by simp)).symm⟩
  | cons x l ih =>
    intro t
    obtain ⟨⟨stk, hrest⟩, hstack⟩ := ih (j + 1) (senseStack s (x, j))
    refine ⟨⟨stk, hrest⟩, fun k => (hstack k).trans ?_⟩
    by_cases hk : k = j
    · subst hk
      rw [if_neg (by omega), if_pos (by simp), Nat.sub_self, senseStack, stackOf_setStack_same]
      rfl
    · have hsame : stackOf (senseStack s (x, j)) k = stackOf s k := stackOf_setStack_ne s _ (Ne.symm hk)
      rw [hsame]
      by_cases hin : j + 1 ≤ k ∧ k < j + 1 + l.length
      · rw [if_pos hin, if_pos (by rw [List.length_cons]; omega), show k - j = (k - (j + 1)) + 1 by omega, List.getD_cons_succ]
      · rw [if_neg hin, if_neg (by rw [List.length_cons]; omega)]

theorem senseStacks_facts {s : State} {l : List Int} (hl : l.length = nStacks s.sys) : let t := senseStacks s l
    (∃ stk, t = { s with hbm := { s.hbm with stk := stk } }) ∧ ∀ k, k < nStacks s.sys → stackOf t k = { stackOf s k with temp := l.getD k 0 } := by
  intro t
  have ht : t = (l.zipIdx 0).foldl senseStack s := by
    change ((l.take (nStacks s.sys)).zipIdx).foldl senseStack s = _
    rw [List.take_of_length_le (Nat.le_of_eq hl)]
  obtain ⟨hrest, hstack⟩ := senseStack_foldl l 0 s
  rw [ht]
  exact ⟨hrest, fun k hk => (hstack k).trans (by rw [if_pos (by omega), Nat.sub_zero])⟩

theorem map_range_temps {s : State} {l : List Int} {n : Nat} (hl : l.length = n) (h : ∀ k, k < n → (stackOf s k).temp = l.getD k 0) :
    (List.range n).map (fun k => (stackOf s k).temp) = l := by
  refine List.ext_getElem (by simp [hl]) fun i hi hi' => ?_
  rw [List.getElem_map, List.getElem_range, h i (hl ▸ hi'), List.getD_eq_getElem _ _ hi']

/-! ### Defaults -/

/-- The default of an object follows the variant, the node and the device number alone. -/
theorem dfltOf_congr {v w : SysSt} (hskx : w.skx9624 = v.skx9624) (hnode : w.node = v.node) (hid : w.deviceId = v.deviceId) (k : Nat) :
    dfltOf w k = dfltOf v k := by
  obtain ⟨⟩ := v
  obtain ⟨⟩ := w
  cases hskx
  cases hnode
  cases hid
  rfl

theorem obj_congr_dflt {s t : State} (ho : t.obj = s.obj) (hskx : t.sys.skx9624 = s.sys.skx9624) (hnode : t.sys.node = s.sys.node)
    (hid : t.sys.deviceId = s.sys.deviceId) (i a : Nat) : obj t i a = obj s i a := by
  simp only [obj, getO, ho, dfltOf_congr hskx hnode hid]

/-! ### A sample -/

/-- What a sample has read, before the limits act. -/
structure Sensed (s m : State) (d h : Int) (hbm : List Int) : Prop where
  sys : m.sys = { s.sys with dieTemp := d, thermAt := m.time.now, thermWarn := decide ((obj s 0x1030 2 : Int) ≤ d) || decide (85 ≤ h) }
  now : m.time.now = max s.time.now (s.sys.thermAt + 9000000)
  pwr : m.pwr = s.pwr
  obj : m.obj = s.obj
  stack : ∀ k, k < nStacks s.sys → stackOf m k = { stackOf s k with temp := hbm.getD k 0 }

/-- The sensors are read at their instant. -/
def sensed (s : State) (d : Int) (hbm : List Int) : State :=
  let a := advanceTo { s with sys := { s.sys with dieTemp := d } } (s.sys.thermAt + usU 100)
  senseStacks { a with sys := { a.sys with thermAt := a.time.now } } hbm

theorem sensed_facts {s : State} {d : Int} {hbm : List Int} (hl : hbm.length = nStacks s.sys) : let t := sensed s d hbm
    t.sys = { s.sys with dieTemp := d, thermAt := t.time.now } ∧ t.time.now = max s.time.now (s.sys.thermAt + 9000000) ∧
      t.pwr = s.pwr ∧ t.obj = s.obj ∧ ∀ k, k < nStacks s.sys → stackOf t k = { stackOf s k with temp := hbm.getD k 0 } := by
  intro t
  have hnow : (advanceTo { s with sys := { s.sys with dieTemp := d } } (s.sys.thermAt + usU 100)).time.now =
      max s.time.now (s.sys.thermAt + 9000000) := by rw [advanceTo_now, usU_100]
  obtain ⟨time', ha⟩ := advanceTo_only { s with sys := { s.sys with dieTemp := d } } (s.sys.thermAt + usU 100)
  have ht : t = senseStacks { s with sys := { s.sys with dieTemp := d, thermAt := time'.now }, time := time' } hbm := by
    change sensed s d hbm = _
    rw [sensed, ha]
  obtain ⟨⟨stk, hrest⟩, hstack⟩ := senseStacks_facts
    (s := { s with sys := { s.sys with dieTemp := d, thermAt := time'.now }, time := time' }) (l := hbm) hl
  rw [ha] at hnow
  rw [← ht] at hrest hstack
  refine ⟨?_, ?_, ?_, ?_, hstack⟩
  · rw [hrest]
  · rw [hrest]
    exact hnow
  · rw [hrest]
  · rw [hrest]

/-- The limits that act on a sample, the highest first. -/
def limited (m : State) (d h hot : Int) : State :=
  if m.sys.thermalShut then thermalPin m d h hot
  else if 115 ≤ d || 105 ≤ h then thermalShutdown (if hot ≤ d || 95 ≤ h then thermalHot m else m)
  else if hot ≤ d || 95 ≤ h then thermalHot m
  else thermalCool m d h hot

theorem limited_next (m : State) (d h hot : Int) : (.next (limited m d h hot) : Res) =
    if m.sys.thermalShut then .next (thermalPin m d h hot)
    else if 115 ≤ d || 105 ≤ h then .next (thermalShutdown (if hot ≤ d || 95 ≤ h then thermalHot m else m))
    else if hot ≤ d || 95 ≤ h then .next (thermalHot m)
    else .next (thermalCool m d h hot) := by
  rw [limited, apply_ite Host.Outcome.next, apply_ite Host.Outcome.next, apply_ite Host.Outcome.next]

/-- What follows from the sensors' values. -/
def sampleOf (d : Int) (u : State) : Res :=
  let h := hottest ((List.range (nStacks u.sys)).map (fun k => (stackOf u k).temp)) 0
  let m : State := { u with sys := { u.sys with thermWarn := decide ((obj u 0x1030 2 : Int) ≤ d) || decide (85 ≤ h) } }
  let hot : Int := obj u 0x1030 3
  if m.sys.thermalShut then .next (thermalPin m d h hot)
  else if 115 ≤ d || 105 ≤ h then .next (thermalShutdown (if hot ≤ d || 95 ≤ h then thermalHot m else m))
  else if hot ≤ d || 95 ≤ h then .next (thermalHot m)
  else .next (thermalCool m d h hot)

theorem execThermalSample_eq {s : State} {die hbm : List Int} (hp : ∀ p, p = .unpowered ∨ p = .held → (s.sys.phase == p) = false)
    (hf : s.sys.frozen = false) (hb : s.sys.inBasecamp = false) :
    execThermalSample die hbm s = sampleOf ((die.max?).getD s.sys.dieTemp) (sensed s ((die.max?).getD s.sys.dieTemp) hbm) := by
  rw [execThermalSample, if_neg (by rw [hp _ (.inl rfl), hf]; decide)]
  exact if_neg (by rw [show (s.sys.phase == Phase.held) = false from hp _ (.inr rfl), hb]; decide)

theorem exec_thermalSample {s : State} {die hbm : List Int} (hp : s.sys.phase = .run ∨ s.sys.phase = .starting) (hf : s.sys.frozen = false)
    (hb : s.sys.inBasecamp = false) (hl : hbm.length = nStacks s.sys) :
    let d := (die.max?).getD s.sys.dieTemp
    let h := (hbm.max?).getD 0
    ∃ m, Sensed s m d h hbm ∧ exec (.thermalSample die hbm) s = .next (limited m d h (obj s 0x1030 3)) := by
  intro d h
  obtain ⟨hsys, hnow, hpwr, hobj, hstack⟩ := sensed_facts (s := s) (d := d) hl
  have hphase : ∀ p, p = .unpowered ∨ p = .held → (s.sys.phase == p) = false := by
    rintro p (rfl | rfl) <;> rcases hp with hp | hp <;> rw [hp] <;> rfl
  obtain ⟨u, hu⟩ : ∃ u, u = sensed s d hbm := ⟨_, rfl⟩
  rw [← hu] at hsys hnow hpwr hobj hstack
  have hobjs (i a : Nat) : obj u i a = obj s i a := 
    obj_congr_dflt hobj (by rw [hsys]) (by rw [hsys]) (by rw [hsys]) i a
  have hstacks : nStacks u.sys = nStacks s.sys := by rw [hsys]; rfl
  have htemps : hottest ((List.range (nStacks u.sys)).map (fun k => (stackOf u k).temp)) 0 = h := by
    rw [hstacks, map_range_temps hl (fun k hk => by rw [hstack k hk]), hottest]
  let m : State := { u with sys := { u.sys with thermWarn := decide ((obj u 0x1030 2 : Int) ≤ d) || decide (85 ≤ h) } }
  refine ⟨m, ⟨?_, hnow, hpwr, hobj, hstack⟩, ?_⟩
  · have hm : m.sys = { u.sys with thermWarn := decide ((obj u 0x1030 2 : Int) ≤ d) || decide (85 ≤ h) } := rfl
    rw [hm, hsys, hobjs]
  · change execThermalSample die hbm s = _
    rw [execThermalSample_eq hphase hf hb, ← hu, sampleOf]
    dsimp only
    rw [htemps, hobjs 0x1030 3]
    exact (limited_next m d h _).symm

/-! ### Heat (R439) -/

/-- What THERM_N low leaves and commands. -/
structure Heated (u t : State) : Prop where
  sys : t.sys = { u.sys with thermN := false }
  now : t.time.now = u.time.now
  hbm : t.hbm = u.hbm
  aimed : stepAimed t = 0
  hold : t.pwr.thermHold = true
  count : obj t 0x1030 6 = if u.sys.thermN then (obj u 0x1030 6 + 1) % 2 ^ 64 else obj u 0x1030 6
  quiet : u.sys.thermN = false → stepAimed u = 0 → t.pwr = { u.pwr with thermHold := true, coolSince := none }

/-- The command to the lowest step, where the pin is low already. -/
theorem managerCmd_heated {u x : State} (hx : x.sys = { u.sys with thermN := false }) (hnow : x.time = u.time) (hhbm : x.hbm = u.hbm)
    (hhold : x.pwr.thermHold = true)
    (hcount : obj x 0x1030 6 = if u.sys.thermN then (obj u 0x1030 6 + 1) % 2 ^ 64 else obj u 0x1030 6)
    (hnot : u.sys.thermN = true ∨ stepAimed u ≠ 0) : Heated u (managerCmd x 0) := by
  have haccept := managerCmd_accepted x 0
  obtain ⟨_, _, _, _, _, _, honly⟩ := managerCmd_only x 0
  refine ⟨?_, haccept.now.trans (by rw [hnow]), ?_, haccept.aimed, haccept.holds.2.2.1.trans hhold, ?_, fun hn hz => ?_⟩
  · rw [honly]
    exact hx
  · rw [honly]
    exact hhbm
  · rw [haccept.objs (by decide) (.inl (by decide))]
    exact hcount
  · rcases hnot with h | h
    · rw [hn] at h
      cases h
    · exact absurd hz h

theorem thermalHot_heated (u : State) : Heated u (thermalHot u) := by
  unfold thermalHot
  cases hfell : u.sys.thermN
  · have hsys : u.sys = { u.sys with thermN := false } := by
      rw [← hfell]
    by_cases hz : stepAimed u = 0
    · have haim : stepAimed (modPwr u (fun p => { p with thermHold := true, coolSince := none })) = 0 := hz
      simp only [Bool.false_eq_true, if_false, haim, bne_self_eq_false, Bool.or_self]
      exact ⟨hsys, rfl, rfl, hz, rfl, by rw [hfell]; rfl, fun _ _ => rfl⟩
    · have haim : (stepAimed (modPwr u (fun p => { p with thermHold := true, coolSince := none })) != 0) = true := bne_iff_ne.mpr hz
      simp only [Bool.false_eq_true, if_false, haim, Bool.false_or, if_true]
      exact managerCmd_heated hsys rfl rfl rfl (by rw [hfell]; rfl) (.inr hz)
  · simp only [if_true, Bool.true_or]
    exact managerCmd_heated rfl rfl rfl rfl (by rw [hfell]; exact obj_bump_same _ _ _) (.inl hfell)

/-- The stacks below a number are in self-refresh, and their sensors keep their values. -/
theorem closeStacks_below (s : State) (n : Nat) : let t := (List.range n).foldl closeStack s
    (∃ h, t = { s with hbm := h }) ∧ (∀ k, (stackOf t k).temp = (stackOf s k).temp) ∧ ∀ k, k < n → (stackOf t k).state = 4 := by
  induction n with
  | zero => exact ⟨⟨_, rfl⟩, fun _ => rfl, fun k h => absurd h (Nat.not_lt_zero k)⟩
  | succ n ih =>
    obtain ⟨⟨h, hrest⟩, htemp, hstate⟩ := ih
    dsimp only at hrest htemp hstate ⊢
    rw [List.range_succ, List.foldl_append]
    obtain ⟨u, hu⟩ : ∃ u, u = (List.range n).foldl closeStack s := ⟨_, rfl⟩
    rw [← hu] at hrest htemp hstate ⊢
    have hclose (k : Nat) : stackOf (closeStack u n) k = stackOf (setStack u n { stackOf u n with
        state := 4, pendingSr := false, allBank := (stackOf u n).allBank + 1 }) k := rfl
    obtain ⟨h', honly⟩ := closeStack_only u n
    refine ⟨⟨h', ?_⟩, fun k => ?_, fun k hk => ?_⟩
    · change closeStack u n = _
      rw [honly, hrest]
    · change (stackOf (closeStack u n) k).temp = _
      rw [hclose]
      by_cases hkn : k = n
      · rw [hkn, stackOf_setStack_same]
        exact htemp n
      · rw [stackOf_setStack_ne _ _ (Ne.symm hkn)]
        exact htemp k
    · change (stackOf (closeStack u n) k).state = _
      rw [hclose]
      by_cases hkn : k = n
      · rw [hkn, stackOf_setStack_same]
      · rw [stackOf_setStack_ne _ _ (Ne.symm hkn)]
        exact hstate k (by omega)

/-- What the thermal shutdown leaves. -/
theorem thermalShutdown_facts (u : State) : let t := thermalShutdown u
    t.sys = { u.sys with
      thermalShut := true, thermShutdowns := (u.sys.thermShutdowns + 1) % 2 ^ 32, wakeOut := false, faultN := false
      fencedOut := t.sys.fencedOut } ∧
    t.time = u.time ∧ (∀ k, (stackOf t k).temp = (stackOf u k).temp) ∧ ∀ k, k < nStacks u.sys → (stackOf t k).state = 4 := by
  intro t
  obtain ⟨⟨h, hrest⟩, htemp, hstate⟩ := closeStacks_below u (nStacks u.sys)
  have ht : t = recheckService { u with
      hbm := h
      sys := { u.sys with thermalShut := true, thermShutdowns := (u.sys.thermShutdowns + 1) % 2 ^ 32, wakeOut := false } } := by
    change thermalShutdown u = _
    rw [thermalShutdown, hrest]
  have hlost := recheckService_lost (s := { u with
      hbm := h
      sys := { u.sys with thermalShut := true, thermShutdowns := (u.sys.thermShutdowns + 1) % 2 ^ 32, wakeOut := false } }) (.inr (.inl rfl))
  rw [← ht] at hlost
  rw [hrest] at htemp hstate
  have hstack (k : Nat) : stackOf t k = mget h.stk k {} := by
    rw [hlost.rest]
    rfl
  refine ⟨hlost.sys, ?_, fun k => ?_, fun k hk => ?_⟩
  · rw [hlost.rest]
  · rw [hstack]
    exact htemp k
  · rw [hstack]
    exact hstate k hk

/-- THERM_N rises below every threshold. -/
theorem thermalPin_facts (m : State) (d h hot : Int) : let t := thermalPin m d h hot
    t = { m with sys := { m.sys with thermN := t.sys.thermN } } ∧
      t.sys.thermN = (m.sys.thermN || (decide (d ≤ hot - 5) && decide (h ≤ 90))) := by
  unfold thermalPin
  dsimp only
  split
  · next hc =>
    exact ⟨rfl, by rw [hc, Bool.or_true]⟩
  · next hc =>
    exact ⟨rfl, by rw [Bool.eq_false_iff.mpr hc, Bool.or_false]⟩

theorem thermalCool_kept (m : State) (d h hot : Int) : let t := thermalCool m d h hot
    t.sys = (thermalPin m d h hot).sys ∧ t.time = m.time ∧ t.hbm = m.hbm := by
  obtain ⟨hrest, -⟩ := thermalPin_facts m d h hot
  have hkept : (thermalPin m d h hot).time = m.time ∧ (thermalPin m d h hot).hbm = m.hbm := by
    rw [hrest]
    exact ⟨rfl, rfl⟩
  unfold thermalCool
  dsimp only
  split
  · exact ⟨rfl, hkept.1, hkept.2⟩
  · exact ⟨rfl, hkept.1, hkept.2⟩

/-- Since when the device is cool, and until when the frequency is held. -/
theorem thermalCool_facts (m : State) (d h hot : Int) : let t := thermalCool m d h hot
    (d < hot - 5 → t.pwr = { m.pwr with
      coolSince := some (m.pwr.coolSince.getD m.time.now)
      thermHold := m.pwr.thermHold && decide (m.time.now < m.pwr.coolSince.getD m.time.now + 900000000) }) ∧
    (hot - 5 ≤ d → t.pwr = { m.pwr with coolSince := none }) := by
  obtain ⟨hrest, -⟩ := thermalPin_facts m d h hot
  have hpwr : (thermalPin m d h hot).pwr = m.pwr := by rw [hrest]
  have htime : (thermalPin m d h hot).time = m.time := by rw [hrest]
  refine ⟨fun hlow => ?_, fun hhigh => ?_⟩
  · rw [thermalCool]
    dsimp only
    rw [if_pos hlow, modPwr_pwr, hpwr, htime, msU_10]
  · rw [thermalCool]
    dsimp only
    rw [if_neg (by omega), modPwr_pwr, hpwr]

theorem started_facts {s : State} (h : started s = true) :
    (s.sys.phase = .run ∨ s.sys.phase = .starting) ∧ s.sys.frozen = false ∧ s.sys.thermalShut = false ∧ s.sys.inBasecamp = false := by
  simp only [started, powered, Bool.and_eq_true, Bool.or_eq_true, Bool.not_eq_true', beq_iff_eq] at h
  obtain ⟨⟨⟨⟨-, hf⟩, ht⟩, hb⟩, hp⟩ := h
  exact ⟨hp.symm, hf, ht, hb⟩

/-- A write of ServiceCmd (R408). -/
theorem put_serviceCmd {s : State} (hs : Served s 0x8001) {v : Nat} (hv : v = 1 ∨ v = 2) :
    put s 0x8001 3 [BitVec.ofNat 8 v] = .next (answered (serviceCmd s v)) := by
  have hwrite := writeObj_value (bs := [BitVec.ofNat 8 v]) hs (rowOf_page (sub := 3) (r := wo 3 .u8 (.codes [1, 2])) rfl (by decide) (by decide) rfl)
    (by decide) ⟨nofun, nofun⟩ (by decide) nofun rfl
  rcases hv with rfl | rfl
  · rw [put_served hs, hwrite, if_pos (by decide), valueWrite_go (by decide) (by decide) rfl]
    rfl
  · rw [put_served hs, hwrite, if_pos (by decide), valueWrite_go (by decide) (by decide) rfl]
    rfl

/-- Settles O51: ServiceCmd out and back, Basecamp's failures, the limits on a sample, and the alert. -/
theorem serviceFollowsItsConditions : Obligations.ServiceFollowsItsConditions := by
  refine ⟨fun s hserved => ?_, fun s hp hf hb => ?_, fun s die hbm hon hl => ?_, fun s die hbm hp hf hb hshut hl => ?_, fun s hserved => ?_⟩
  · refine ⟨?_, ?_⟩
    · have hlost := recheckService_lost (s := { s with sys := { s.sys with svcOut := true } }) (.inr (.inr rfl))
      have hexec : exec .serviceCmdOut s = .next { serviceChange { s with sys := { s.sys with svcOut := true } } with answer := .ok [] } :=
        put_serviceCmd hserved (v := 1) (.inl rfl)
      rw [serviceChange_lost hlost] at hexec
      obtain ⟨u, hu⟩ : ∃ u, u = recheckService { s with sys := { s.sys with svcOut := true } } := ⟨_, rfl⟩
      rw [← hu] at hexec hlost
      refine ⟨_, hexec, rfl, ?_, ?_, fun h => hlost.lease h, hlost.readOnly, ?_⟩
      · change u.sys.svcOut = true
        rw [hlost.sys]
      · change u.sys.faultN = false
        rw [hlost.sys]
      · change u.ropes = s.ropes
        rw [hlost.rest]
    · intro back
      have hput : exec .serviceCmdReturn s = .next (answered (serviceCmd s 2)) := put_serviceCmd hserved (v := 2) (.inr rfl)
      refine ⟨fun hout => ?_, fun hin => ?_⟩
      · refine ⟨_, hput, ?_⟩
        have hcause : (outCause back != 0) = true := by rw [inService] at hout; rw [bne, hout]; rfl
        rw [serviceCmd, if_neg (by decide)]
        dsimp only
        rw [if_pos hcause, answered_abort _ (by decide)]
        exact ⟨rfl, rfl, rfl⟩
      · have hcause : (outCause back != 0) = false := by rw [inService] at hin; rw [bne, hin]; rfl
        obtain ⟨hsys, hropes, htime⟩ := recheckService_back hin
        obtain ⟨u, hu⟩ : ∃ u, u = recheckService back := ⟨_, rfl⟩
        rw [← hu] at hsys hropes htime
        obtain ⟨hentered, hpulse⟩ := enterPorts_below u (lps s)
        have hlps : lps u = lps s := by rw [lps, hsys]; rfl
        let t := if !s.sys.faultN then enterPorts u else u
        have hchange : serviceChange back = t := by
          rw [serviceChange]
          rw [← hu, hsys, Bool.and_true]
        have hexec : exec .serviceCmdReturn s = .next { t with answer := .ok [] } := by
          rw [hput, serviceCmd, if_neg (by decide)]
          dsimp only
          rw [if_neg (by rw [show (outCause { s with sys := { s.sys with svcOut := false } } != 0) = false from hcause]; decide)]
          rw [← hchange]
          rfl
        have ht : t.sys = u.sys ∧ t.ropes = u.ropes := by
          change State.sys (if _ then _ else _) = _ ∧ State.ropes (if _ then _ else _) = _
          rw [enterPorts, hlps]
          split
          · rw [hentered.rest]
            exact ⟨rfl, rfl⟩
          · exact ⟨rfl, rfl⟩
        refine ⟨_, hexec, rfl, ?_, ?_, ht.2.trans hropes, fun lp hlp hlow hactive => ?_⟩
        · change t.sys.svcOut = false
          rw [ht.1, hsys]
        · change t.sys.faultN = true
          rw [ht.1, hsys]
        · have htEnter : t = (List.range (lps s)).foldl enterPort u := by
            rw [← hlps]
            exact if_pos (by rw [hlow]; rfl)
          change active t lp = true at hactive
          change (port t lp).nextPulse = _
          rw [htEnter] at hactive ⊢
          rw [hpulse lp hlp ((hentered.active lp).symm.trans hactive), htime]
  · intro down
    have hdown (v : State) (hsys : v.sys.basecampFailed = true) (hfault : v.sys.faultN = s.sys.faultN) (hropes : v.ropes = s.ropes) :
        down (recheckService v) := by
      have hlost := recheckService_lost (s := v) (.inl hsys)
      refine ⟨by rw [hlost.sys]; exact hsys, by rw [hlost.sys], fun h => hlost.lease (hfault.trans h), ?_⟩
      rw [hlost.rest]
      exact hropes
    refine ⟨?_, ?_⟩
    · have hexec : exec .basecampWdExpiry s = .next (basecampFails { s with sys := { s.sys with
          wdExpiries := (s.sys.wdExpiries + 1) % 2 ^ 32 } } 1) :=
        if_neg (by rw [hf, hb, beq_eq_false_iff_ne.mpr hp]; decide)
      rw [basecampFails_lost 1 (by exact hp) (by exact hf) (by exact hb)] at hexec
      refine ⟨_, hexec, hdown _ rfl rfl rfl, ?_, ?_⟩
      · rw [(recheckService_lost (.inl rfl)).sys]
      · rw [(recheckService_lost (.inl rfl)).sys]
    · have hexec : exec .basecampEccError s = .next (basecampFails s 2) := rfl
      rw [basecampFails_lost 2 hp hf hb] at hexec
      refine ⟨_, hexec, hdown _ rfl rfl rfl, ?_, ?_⟩
      · rw [(recheckService_lost (.inl rfl)).sys]
      · rw [(recheckService_lost (.inl rfl)).sys]
  · intro d h hot now read
    obtain ⟨hphase, hf, hnotShut, hb⟩ := started_facts hon
    obtain ⟨m, hsensed, hexec⟩ := exec_thermalSample (die := die) hphase hf hb hl
    have hshutM : m.sys.thermalShut = false := by rw [hsensed.sys]; exact hnotShut
    have hthermM : m.sys.thermN = s.sys.thermN := by rw [hsensed.sys]
    have hstacks : nStacks m.sys = nStacks s.sys := by rw [hsensed.sys]; rfl
    have haimM : stepAimed m = stepAimed s := by rw [stepAimed, stepAimed, hsensed.pwr]
    have hobjM : obj m 0x1030 6 = obj s 0x1030 6 :=
      obj_congr_dflt hsensed.obj (by rw [hsensed.sys]) (by rw [hsensed.sys]) (by rw [hsensed.sys]) _ _
    rw [limited, if_neg (by rw [hshutM]; decide)] at hexec
    have hread {t : State} (he : exec (.thermalSample die hbm) s = .next t) (hdie : t.sys.dieTemp = m.sys.dieTemp)
        (hat : t.sys.thermAt = m.sys.thermAt) (hwarn : t.sys.thermWarn = m.sys.thermWarn) (hnow : t.time.now = m.time.now)
        (htemp : ∀ k, k < nStacks s.sys → (stackOf t k).temp = (stackOf m k).temp) : read t := by
      refine ⟨he, ?_, hnow.trans hsensed.now, ?_, fun k hk => ?_, ?_⟩
      · rw [hdie, hsensed.sys]
      · rw [hat, hsensed.sys]
        exact hsensed.now
      · rw [htemp k hk, hsensed.stack k hk]
      · rw [hwarn, hsensed.sys]
        exact (Bool.decide_or _ _).symm
    have hheat : Heated m (thermalHot m) := thermalHot_heated m
    have hstackHot (k : Nat) : stackOf (thermalHot m) k = stackOf m k := by rw [stackOf, stackOf, hheat.hbm]
    refine ⟨fun hshut => ?_, fun hd hh hwarm => ?_, fun hd hh hcold => ?_⟩
    · rw [if_pos (by simpa using hshut)] at hexec
      obtain ⟨u, hu⟩ : ∃ u, u = if decide (hot ≤ d) || decide (95 ≤ h) then thermalHot m else m := ⟨_, rfl⟩
      have hsysU : u.sys = { m.sys with thermN := u.sys.thermN } ∧ (hot ≤ d ∨ 95 ≤ h → u.sys.thermN = false) ∧ u.time.now = m.time.now ∧
          ∀ k, stackOf u k = stackOf m k := by
        rw [hu]
        split
        · exact ⟨by rw [hheat.sys], fun _ => by rw [hheat.sys], hheat.now, hstackHot⟩
        · next h => exact ⟨rfl, fun hc => absurd (by simpa using hc) h, rfl, fun _ => rfl⟩
      obtain ⟨hsys, hpin, hnow, hstack⟩ := hsysU
      change exec _ s = .next (thermalShutdown (if decide (hot ≤ d) || decide (95 ≤ h) then thermalHot m else m)) at hexec
      rw [← hu] at hexec
      obtain ⟨hsysT, htimeT, htempT, hstateT⟩ := thermalShutdown_facts u
      refine ⟨_, hread hexec ?_ ?_ ?_ ?_ fun k _ => (htempT k).trans (by rw [hstack]), ?_, fun hc => ?_, ?_, ?_, ?_, fun k hk => ?_⟩
      · rw [hsysT, hsys]
      · rw [hsysT, hsys]
      · rw [hsysT, hsys]
      · rw [htimeT, hnow]
      · rw [hsysT]
      · rw [hsysT]
        exact hpin hc
      · rw [hsysT]
      · rw [hsysT]
      · rw [hsysT, hsys, hsensed.sys]
      · exact hstateT k (by rw [hsys]; exact hstacks ▸ hk)
    · rw [if_neg (by simp; omega), if_pos (by simpa using hwarm)] at hexec
      have hr : read (thermalHot m) := hread hexec (by rw [hheat.sys]) (by rw [hheat.sys]) (by rw [hheat.sys]) hheat.now
        (fun k _ => by rw [hstackHot])
      refine ⟨fun hpin => ⟨_, hr, by rw [hheat.sys], hheat.aimed, hheat.hold, ?_⟩, fun hpin => ⟨_, hr, by rw [hheat.sys], hheat.aimed, ?_, fun hz => ?_⟩⟩
      · rw [hheat.count, hthermM, hpin, hobjM]
        rfl
      · rw [hheat.count, hthermM, hpin, hobjM]
        rfl
      · rw [hheat.quiet (hthermM.trans hpin) (haimM.trans hz), hsensed.pwr]
    · rw [if_neg (by simp; omega), if_neg (by simp; omega)] at hexec
      obtain ⟨hrest, hpin⟩ := thermalPin_facts m d h hot
      obtain ⟨hcool, hwarm⟩ := thermalCool_facts m d h hot
      obtain ⟨hsysT, htimeT, hhbmT⟩ := thermalCool_kept m d h hot
      refine ⟨_, hread hexec ?_ ?_ ?_ ?_ fun k _ => ?_, ?_, fun hlow => ?_, fun hhigh => ?_⟩
      · rw [hsysT, hrest]
      · rw [hsysT, hrest]
      · rw [hsysT, hrest]
      · rw [htimeT]
      · rw [stackOf, stackOf, hhbmT]
      · rw [hsysT, hpin, hthermM]
      · rw [hcool hlow, hsensed.pwr, hsensed.now]
        exact ⟨rfl, rfl⟩
      · rw [hwarm hhigh, hsensed.pwr]
        exact ⟨rfl, rfl⟩
  · intro d h
    obtain ⟨m, hsensed, hexec⟩ := exec_thermalSample (die := die) hp hf hb hl
    have hshutM : m.sys.thermalShut = true := by rw [hsensed.sys]; exact hshut
    have hthermM : m.sys.thermN = s.sys.thermN := by rw [hsensed.sys]
    rw [limited, if_pos hshutM] at hexec
    obtain ⟨hrest, hpin⟩ := thermalPin_facts m d h (obj s 0x1030 3)
    refine ⟨_, hexec, ?_, ?_, ?_, fun k hk => ?_, ?_⟩
    · rw [hrest]
      change m.sys.dieTemp = d
      rw [hsensed.sys]
    · rw [hrest]
      exact hsensed.pwr
    · rw [hrest]
      exact hsensed.obj
    · rw [hrest]
      exact hsensed.stack k hk
    · rw [hpin, hthermM]
  · exact put_command (idx := 0x1030) (sub := 5) hserved rfl rfl rfl (by decide)

end Sys2Proof.Proofs

/-! Cairn's records, the scan of its ring, its reading, and its snapshots (R413 to R418). -/

namespace Sys2Proof.Proofs

open Sys2Proof.Machine Sys2Proof.Claim

/-! ### Bytes in their places -/

theorem slice_middle {xs ys zs : List Byte} {i n : Nat} (hi : xs.length = i) (hn : ys.length = n) : slice (xs ++ (ys ++ zs)) i n = ys := by
  subst hi hn
  rw [slice, List.drop_left, List.take_left]
  simp

theorem slice_last {xs ys : List Byte} {i n : Nat} (hi : xs.length = i) (hn : ys.length = n) : slice (xs ++ ys) i n = ys := by
  simpa using slice_middle (zs := []) hi hn

theorem slice_first {ys zs : List Byte} {n : Nat} (hn : ys.length = n) : slice (ys ++ zs) 0 n = ys := slice_middle (xs := []) rfl hn

theorem length_slice (bs : List Byte) (i n : Nat) : (slice bs i n).length = n := by
  rw [slice]
  simp

theorem slice_self {bs : List Byte} {n : Nat} (h : bs.length = n) : slice bs 0 n = bs := by
  simpa using slice_first (zs := []) h

theorem crcByte_lt {poly c : Nat} (b : Byte) (hp : poly < 2 ^ 32) (hc : c < 2 ^ 32) : crcByte poly c b < 2 ^ 32 := by
  have hbit {x : Nat} (hx : x < 2 ^ 32) : crcBit poly x < 2 ^ 32 := by
    rw [crcBit]
    split
    · exact Nat.xor_lt_two_pow (by omega) hp
    · omega
  have hb : b.toNat < 2 ^ 32 := b.isLt.trans (by decide)
  exact hbit (hbit (hbit (hbit (hbit (hbit (hbit (hbit (Nat.xor_lt_two_pow hc hb))))))))

theorem crc32c_lt (bs : List Byte) : crc32c bs < 2 ^ 32 := by
  have hfold (c : Nat) (hc : c < 2 ^ 32) : bs.foldl (crcByte 0x82F63B78) c < 2 ^ 32 := by
    induction bs generalizing c with
    | nil => exact hc
    | cons b bs ih => exact ih _ (crcByte_lt b (by decide) hc)
  exact Nat.xor_lt_two_pow (hfold _ (by decide)) (by decide)

/-! ### A record in its slot (R413) -/

/-- The record with its fields in place, before the CRC. -/
def recordHead (s : State) (b : List Byte) : List Byte :=
  toLE 8 s.cairn.nextSeq ++ (b.take 12 ++ (toLE 2 (min s.cairn.dropped 65535) ++ ((b.drop 14).take 1 ++ (toLE 1 (b2n s.cairn.boot) ++ b.drop 16))))

theorem cairnSlot_eq {s : State} {b : List Byte} (h : b.length = 52) : cairnSlot s b = recordHead s b ++ toLE 4 (crc32c (recordHead s b)) := by
  have hfields : splice (splice b 12 (toLE 2 (min s.cairn.dropped 65535))) 15 (toLE 1 (b2n s.cairn.boot)) =
      b.take 12 ++ (toLE 2 (min s.cairn.dropped 65535) ++ ((b.drop 14).take 1 ++ (toLE 1 (b2n s.cairn.boot) ++ b.drop 16))) := by
    have htake : (b.take 12).drop 16 = [] := List.drop_eq_nil_of_le (by simp [h])
    have hdrop : (toLE 2 (min s.cairn.dropped 65535)).drop 4 = [] := rfl
    rw [splice, splice, length_toLE, length_toLE]
    simp [htake, hdrop, List.take_append, List.drop_append, length_toLE, h, List.take_of_length_le]
  rw [cairnSlot, hfields]
  rfl

theorem length_recordHead {s : State} {b : List Byte} (h : b.length = 52) : (recordHead s b).length = 60 := by
  simp [recordHead, length_toLE, h]

theorem length_cairnSlot {s : State} {b : List Byte} (h : b.length = 52) : (cairnSlot s b).length = 64 := by
  rw [cairnSlot_eq h, List.length_append, length_recordHead h, length_toLE]

theorem slotValid_cairnSlot {s : State} {b : List Byte} (h : b.length = 52) : slotValid (cairnSlot s b) = true := by
  rw [slotValid, length_cairnSlot h, cairnSlot_eq h, slice_last (length_recordHead h) (length_toLE _ _), ofLE_toLE,
    Nat.mod_eq_of_lt (b := 256 ^ 4) (crc32c_lt _), List.take_left' (length_recordHead h), beq_self_eq_true, beq_self_eq_true]
  rfl

/-- The fields of a record in its slot. -/
theorem cairnSlot_fields {s : State} {b : List Byte} (h : b.length = 52) : let r := cairnSlot s b
    slice r 0 8 = toLE 8 s.cairn.nextSeq ∧ slice r 8 12 = b.take 12 ∧ slice r 20 2 = toLE 2 (min s.cairn.dropped 65535) ∧
      slice r 23 1 = toLE 1 (b2n s.cairn.boot) ∧ slice r 24 36 = b.drop 16 := by
  intro r
  have hr : r = _ := cairnSlot_eq h
  rw [recordHead] at hr
  rw [hr]
  refine ⟨?_, ?_, ?_, ?_, ?_⟩
  · rw [List.append_assoc]
    exact slice_first (length_toLE _ _)
  · rw [List.append_assoc, List.append_assoc]
    exact slice_middle (length_toLE _ _) (by simp [h])
  · rw [show ∀ p q x y z : List Byte, p ++ (q ++ (x ++ y)) ++ z = (p ++ q) ++ (x ++ (y ++ z)) by intros; simp]
    exact slice_middle (by simp [length_toLE, h]) (length_toLE _ _)
  · rw [show ∀ p q x y u v z : List Byte, p ++ (q ++ (x ++ (y ++ (u ++ v)))) ++ z = (p ++ q ++ x ++ y) ++ (u ++ (v ++ z)) by intros; simp]
    exact slice_middle (by simp [length_toLE, h]) (length_toLE _ _)
  · rw [show ∀ p q x y u v z : List Byte, p ++ (q ++ (x ++ (y ++ (u ++ v)))) ++ z = (p ++ q ++ x ++ y ++ u) ++ (v ++ z) by intros; simp]
    exact slice_middle (by simp [length_toLE, h]) (by simp [h])

/-! ### The scan of the ring (R415) -/

theorem foldl_max_le {α : Type} (f : α → Nat) (l : List α) (n : Nat) : n ≤ l.foldl (fun n e => max n (f e)) n ∧
    ∀ e ∈ l, f e ≤ l.foldl (fun n e => max n (f e)) n := by
  induction l generalizing n with
  | nil => exact ⟨le_rfl, nofun⟩
  | cons x l ih =>
    obtain ⟨hle, hmem⟩ := ih (max n (f x))
    refine ⟨(le_max_left _ _).trans hle, fun e he => ?_⟩
    rcases List.mem_cons.mp he with rfl | he
    · exact (le_max_right _ _).trans hle
    · exact hmem e he

/-- The number after the highest of the valid slots. -/
def scannedNext (s : State) : Nat :=
  (s.cairn.ring.filter (fun e => slotValid e.2)).foldl (fun n e => max n (ofLE (slice e.2 0 8) + 1)) 0

/-- The slots that hold something that is no valid record. -/
def scannedBad (s : State) : Nat := (s.cairn.ring.filter (fun e => !slotValid e.2 && e.2.any (· != 0))).length

theorem lt_scannedNext {s : State} {e : Nat × List Byte} (he : e ∈ s.cairn.ring) (hv : slotValid e.2 = true) :
    ofLE (slice e.2 0 8) < scannedNext s :=
  (foldl_max_le (fun e : Nat × List Byte => ofLE (slice e.2 0 8) + 1) _ 0).2 e (List.mem_filter.mpr ⟨he, hv⟩)

/-- The state when the scan ends, before its record. -/
def scanned (s : State) : State :=
  putObj (modCairn (advanceTo { s with sys := { s.sys with cairnScanned := true } } (s.sys.t0 + usU 16800))
    (fun c => { c with nextSeq := scannedNext s, boot := true })) 0x7800 7 (scannedBad s)

theorem exec_cairnScanDone {s : State} (hp : s.sys.phase = .starting) (hon : started s = true) (hs : s.sys.cairnScanned = false) :
    exec .cairnScanDone s = .next (cairn (scanned s) 0x0E 1 0 (toLE 1 s.sys.resetCause ++ toLE 4 (scannedBad s))) := by
  change execCairnScanDone s = _
  rw [execCairnScanDone, if_neg (by rw [hp, hon, hs]; decide)]
  rfl

theorem usU_16800 : usU 16800 = 1512000000 := rfl

theorem scanned_facts (s : State) : let t := scanned s
    t.time.now = max s.time.now (s.sys.t0 + 1512000000) ∧ t.sys = { s.sys with cairnScanned := true } ∧
      t.cairn = { s.cairn with nextSeq := scannedNext s, boot := true } ∧ obj t 0x7800 7 = scannedBad s ∧ obj t 0x7800 9 = obj s 0x7800 9 := by
  intro t
  have hnow : (advanceTo { s with sys := { s.sys with cairnScanned := true } } (s.sys.t0 + usU 16800)).time.now =
      max s.time.now (s.sys.t0 + 1512000000) := by rw [advanceTo_now, usU_16800]
  obtain ⟨time', ha⟩ := advanceTo_only { s with sys := { s.sys with cairnScanned := true } } (s.sys.t0 + usU 16800)
  have ht : t = putObj (modCairn { s with sys := { s.sys with cairnScanned := true }, time := time' }
      (fun c => { c with nextSeq := scannedNext s, boot := true })) 0x7800 7 (scannedBad s) := by
    change scanned s = _
    rw [scanned, ha]
  rw [ha] at hnow
  rw [ht]
  exact ⟨hnow, rfl, rfl, obj_putObj_same _ _ _ _, obj_putObj_ne _ _ (by decide) (by decide) (.inr (by decide))⟩

/-- A record that the bucket lets through into an empty buffer (R416). -/
theorem cairn_recorded {s : State} {src code sev l : Nat} (data : List Byte) (hon : cairnOn s = true) (hsev : obj s 0x7800 9 ≤ sev)
    (hspend : cairnSpend s sev = some l) (hbuf : s.cairn.buffer = []) :
    (cairn s src code sev data).cairn.buffer = [cairnBody s src code sev data] := by
  rw [Machine.cairn, if_neg (by rw [hon]; simpa using hsev), hspend]
  dsimp only
  rw [if_pos (by rw [hbuf]; decide), hbuf]
  rfl

theorem length_cairnBody (s : State) (src code sev : Nat) (data : List Byte) : (cairnBody s src code sev data).length = 52 := by
  simp [cairnBody, length_toLE, length_slice]

theorem cairnBody_source (s : State) (src code sev : Nat) (data : List Byte) :
    (cairnBody s src code sev data).getD 8 0 = BitVec.ofNat 8 src := by
  have : cairnBody s src code sev data = toLE 8 (ft s) ++ (toLE 1 src ++ (toLE 1 sev ++ toLE 2 code ++ toLE 2 0 ++ toLE 1 s.time.state ++ toLE 1 0
    ++ slice data 0 36)) := by simp [cairnBody]
  rw [this, List.getD_append_right _ _ _ _ (by rw [length_toLE]), length_toLE]
  rfl

/-! ### Reading the ring (R417) -/

theorem length_ringAt (s : State) (n : Nat) : (ringAt s n).length = 64 := length_slice _ _ _

theorem slice_flatMap {f : Nat → List Byte} {w : Nat} (hf : ∀ i, (f i).length = w) {m i : Nat} (hi : i < m) :
    slice ((List.range m).flatMap f) (w * i) w = f i := by
  have hlen (k : Nat) : ((List.range k).flatMap f).length = w * k := by
    induction k with
    | zero => rfl
    | succ k ih => rw [List.range_succ, List.flatMap_append, List.length_append, ih, List.flatMap_singleton, hf, Nat.mul_succ]
  induction m with
  | zero => exact absurd hi (Nat.not_lt_zero i)
  | succ m ih =>
    rw [List.range_succ, List.flatMap_append, List.flatMap_singleton]
    by_cases h : i = m
    · rw [h]
      exact slice_last (hlen m) (hf m)
    · have hlt : i < m := by omega
      have hend : w * i + w ≤ ((List.range m).flatMap f).length := by
        rw [hlen, ← Nat.mul_succ]
        exact Nat.mul_le_mul_left w hlt
      rw [← ih hlt, slice, slice, List.drop_append_of_le_length (by omega), List.take_append_of_le_length (by rw [List.length_drop]; omega)]

/-! ### A snapshot (R418) -/

theorem nsU_eq (n : Nat) : nsU n = n * 90 := rfl

/-- The objects of a snapshot that starts. -/
def snapNoted (s : State) : State :=
  putObj (putObj (putObj (putObj s 0x7801 4 (s.cairn.nextSeq - 516096)) 0x7801 5 ((s.cairn.nextSeq + 2 ^ 64 - 1) % 2 ^ 64)) 0x7801 6 (ft s))
    0x7801 3 0xFF

theorem snapNoted_cairn (s : State) : (snapNoted s).cairn = s.cairn := rfl

theorem snapNoted_objs (s : State) : let v := snapNoted s
    obj v 0x7801 3 = 0xFF ∧ obj v 0x7801 4 = s.cairn.nextSeq - 516096 ∧ obj v 0x7801 5 = (s.cairn.nextSeq + 2 ^ 64 - 1) % 2 ^ 64 ∧
      obj v 0x7801 6 = ft s := by
  intro v
  have hne {s : State} {a b : Nat} (v : Nat) (ha : a < 256) (hb : b < 256) (h : a ≠ b) : obj (putObj s 0x7801 a v) 0x7801 b = obj s 0x7801 b :=
    obj_putObj_ne s v ha hb (.inr h)
  refine ⟨obj_putObj_same _ _ _ _, ?_, ?_, ?_⟩
  · change obj (snapNoted s) _ _ = _
    rw [snapNoted, hne _ (by decide) (by decide) (by decide), hne _ (by decide) (by decide) (by decide), hne _ (by decide) (by decide) (by decide),
      obj_putObj_same]
  · change obj (snapNoted s) _ _ = _
    rw [snapNoted, hne _ (by decide) (by decide) (by decide), hne _ (by decide) (by decide) (by decide), obj_putObj_same]
  · change obj (snapNoted s) _ _ = _
    rw [snapNoted, hne _ (by decide) (by decide) (by decide), obj_putObj_same]

theorem snapTake_accepted {s : State} (hdue : s.cairn.snapDue = none) (hstate : s.pwr.state = 0) : snapTake s =
    ackOk (modCairn (snapNoted s) (fun c => { c with snapDue := some (s.time.now + 2880 * (s.cairn.nextSeq - (s.cairn.nextSeq - 516096))) })) := by
  have hns (n : Nat) : nsU (32 * n) = 2880 * n := by
    rw [nsU]
    omega
  rw [← hns, snapTake, if_neg (by rw [hdue, hstate]; decide)]
  rfl

/-- The copy of records from one on. -/
def snapCopy (s : State) (base first : Nat) (i : Nat) : State :=
  hbmWrite s .sys (base + 64 * ((first + i) % ringSlots)) (ringAt s (first + i))

theorem snapCopies_only (s : State) (base first n : Nat) : ∃ o h, (List.range n).foldl (fun s i => snapCopy s base first i) s = { s with obj := o, hbm := h } :=
  foldl_rel (R := fun s t : State => ∃ o h, t = { s with obj := o, hbm := h }) (fun _ => ⟨_, _, rfl⟩)
    (by rintro a b c ⟨o, h, rfl⟩ ⟨o', h', rfl⟩; exact ⟨o', h', rfl⟩) (fun s i => hbmWrite_only s _ _ _) _ s

/-- Distinct slots do not overlap. -/
theorem slots_apart {a i j : Nat} (hi : i < 524288) (hj : j < 524288) (h : i ≠ j) : (a + i) % 524288 ≠ (a + j) % 524288 := by omega

/-- The bytes that the copies leave, where there are no more of them than slots. -/
theorem snapCopies_bytes (s : State) (base first n : Nat) (hn : n ≤ 524288) : let t := (List.range n).foldl (fun s i => snapCopy s base first i) s
    let at_ (i : Nat) : Nat := base + 64 * ((first + i) % 524288)
    (∀ i, i < n → ∀ j, j < 64 → hbmByte t (at_ i + j) = (ringAt s (first + i)).getD j 0) ∧
      ∀ b, (∀ i, i < n → b < at_ i ∨ at_ i + 64 ≤ b) → hbmByte t b = hbmByte s b := by
  induction n with
  | zero => exact ⟨fun i h => absurd h (Nat.not_lt_zero i), fun _ _ => rfl⟩
  | succ n ih =>
    intro t at_
    obtain ⟨hin, hout⟩ := ih (by omega)
    obtain ⟨o, h, honly⟩ := snapCopies_only s base first n
    obtain ⟨u, hu⟩ : ∃ u, u = (List.range n).foldl (fun s i => snapCopy s base first i) s := ⟨_, rfl⟩
    dsimp only at hin hout
    rw [← hu] at hin hout honly
    have ht : t = hbmWrite u .sys (at_ n) (ringAt u (first + n)) := by
      change (List.range (n + 1)).foldl (fun s i => snapCopy s base first i) s = _
      rw [List.range_succ, List.foldl_append, ← hu]
      rfl
    have hring : ringAt u (first + n) = ringAt s (first + n) := by rw [honly]; rfl
    have hbyte (b : Nat) : hbmByte t b = stored (at_ n) (ringAt s (first + n)) b (hbmByte u b) := by
      rw [ht, hring]
      exact hbmByte_hbmWrite _ _ _ _ _
    refine ⟨fun i hi j hj => ?_, fun b hb => ?_⟩
    · rw [hbyte, stored, length_ringAt]
      by_cases hin' : i = n
      · rw [hin', if_pos (by omega), Nat.add_sub_cancel_left]
      · have hne : (first + i) % 524288 ≠ (first + n) % 524288 := slots_apart (by omega) (by omega) hin'
        have hi' : at_ i = base + 64 * ((first + i) % 524288) := rfl
        have hn' : at_ n = base + 64 * ((first + n) % 524288) := rfl
        rw [if_neg (by omega)]
        exact hin i (by omega) j hj
    · rw [hbyte, stored, length_ringAt, if_neg (by have := hb n (by omega); omega)]
      exact hout b (fun i hi => hb i (by omega))

/-- Settles O53: the record written, the scan, the two reads, and the snapshot's start and end. -/
theorem cairnKeepsItsRecords : Obligations.CairnKeepsItsRecords := by
  refine ⟨fun s h => ?_, fun s b bs hon hscan hbuf hlen => ?_, fun s hp hon hs => ?_, fun s => ?_, fun s hserved => ?_, fun s u hon hdue => ?_⟩
  · change execCairnRecordWrite s = _
    rw [execCairnRecordWrite, h]
  · have hexec : exec .cairnRecordWrite s = .next (modCairn (bump s 0x7800 8) (fun c => { c with
        ring := mset c.ring (c.nextSeq % ringSlots) (cairnSlot s b), nextSeq := c.nextSeq + 1, buffer := bs, dropped := 0, boot := false
        alert := c.alert || decide (2 ≤ (lget b 9 0).toNat) })) := by
      change execCairnRecordWrite s = _
      rw [execCairnRecordWrite, hbuf]
      dsimp only
      rw [if_neg (by rw [hon, hscan]; decide)]
    obtain ⟨hseq, hevent, hdropped, hboot, hdata⟩ := cairnSlot_fields (s := s) hlen
    have hring (n : Nat) : mfind (mset s.cairn.ring (s.cairn.nextSeq % 524288) (cairnSlot s b)) n =
        if n = s.cairn.nextSeq % 524288 then some (cairnSlot s b) else mfind s.cairn.ring n := by
      split
      · next h => rw [h, mfind_mset_same]
      · next h => rw [mfind_mset_ne _ _ (Ne.symm h)]
    refine ⟨_, cairnSlot s b, hexec, rfl, rfl, rfl, rfl, obj_bump_same s _ _, (hring _).trans (if_pos rfl), length_cairnSlot hlen,
      slotValid_cairnSlot hlen, ?_, ?_, ?_, hevent, hdata, ?_, fun n hn => (hring n).trans (if_neg hn)⟩
    · rw [hseq, ofLE_toLE]
      rfl
    · rw [hdropped, ofLE_toLE]
      exact Nat.mod_eq_of_lt (by omega)
    · rw [hboot, ofLE_toLE]
      cases s.cairn.boot <;> rfl
    · change (s.cairn.alert || decide (2 ≤ (lget b 9 0).toNat)) = _
      rw [lget, List.getD_eq_getElem?_getD]
  · have hexec := exec_cairnScanDone hp hon hs
    obtain ⟨hnow, hsys, hcairn, h7, h9⟩ := scanned_facts s
    obtain ⟨v, hv⟩ : ∃ v, v = scanned s := ⟨_, rfl⟩
    rw [← hv] at hexec hnow hsys hcairn h7 h9
    have hlog := cairn_logged v 0x0E 1 0 (toLE 1 s.sys.resetCause ++ toLE 4 (scannedBad s))
    have hlogged := hlog.cairn
    rw [hcairn] at hlogged
    refine ⟨_, hexec, ?_, ?_, ?_, ?_, fun e he hvalid => ?_, fun hempty => ⟨?_, ?_⟩, fun hrec hsev hbuf htok => ?_⟩
    · rw [hlog.rest]
      exact hnow
    · rw [hlog.rest]
      change v.sys.cairnScanned = true
      rw [hsys]
    · rw [hlogged]
    · rw [hlogged]
    · rw [hlogged]
      exact lt_scannedNext he hvalid
    · rw [hlogged]
      change scannedNext s = 0
      rw [scannedNext, hempty]
      rfl
    · rw [hlog.obj (by decide) (.inr (by decide)), h7, scannedBad, hempty]
      rfl
    · have hrecV : cairnOn v = true := by rw [cairnOn, hsys]; exact hrec
      have htokV : 1025 * 900000 ≤ cairnTokens v := by
        rw [cairnTokens, hcairn, hnow]
        rw [cairnTokens] at htok
        change _ ≤ min _ (s.cairn.tokens + (_ - s.cairn.tokensAt))
        omega
      have hspend : cairnSpend v 0 = some (cairnTokens v - 900000) := if_neg (Nat.not_lt.mpr htokV)
      refine ⟨_, cairn_recorded _ hrecV (by rw [h9, hsev]) hspend (by rw [hcairn]; exact hbuf), cairnBody_source _ _ _ _ _, length_cairnBody _ _ _ _ _⟩
  · intro cur n m
    have hrecord (h : cairnServed s = true) : exec .recordRead s = .next { (recordTake s).1 with answer := .ok (recordTake s).2 } :=
      if_neg (by rw [h]; decide)
    have hwindow (h : agentUp s = true) : exec .windowRead s = .next { (windowTake s).1 with answer := .ok (windowTake s).2 } :=
      if_neg (by rw [h]; decide)
    refine ⟨fun h => if_pos (by rw [h]; rfl), fun h => if_pos (by rw [h]; rfl), fun hle => ⟨fun h => ?_, fun h => ?_⟩, fun hlt => ⟨fun h => ?_, fun h => ?_⟩⟩
    · have htake : recordTake s = (s, List.replicate 64 0) := if_pos hle
      rw [hrecord h, htake]
    · have htake : windowTake s = (s, []) := if_pos hle
      rw [hwindow h, htake]
    · have htake : recordTake s = (putObj s 0x7800 3 (n + 1), ringAt s n) := if_neg (Nat.not_le.mpr hlt)
      refine ⟨_, hrecord h, ?_⟩
      rw [htake]
      exact ⟨rfl, obj_putObj_same _ _ _ _, rfl⟩
    · have htake : windowTake s = (putObj s 0x7800 3 (n + m), (List.range m).flatMap (fun i => ringAt s (n + i))) := if_neg (Nat.not_le.mpr hlt)
      refine ⟨_, (List.range m).flatMap (fun i => ringAt s (n + i)), hwindow h, ?_⟩
      rw [htake]
      refine ⟨rfl, obj_putObj_same _ _ _ _, rfl, ?_, fun i hi => slice_flatMap (fun i => length_ringAt s (n + i)) hi⟩
      simp [List.length_flatMap, length_ringAt, Nat.mul_comm]
  · intro first
    have hput : exec .snapTake s = .next (answered (snapTake s)) := put_command (idx := 0x7801) (sub := 2) hserved rfl rfl rfl (by decide)
    refine ⟨fun h => ⟨_, hput, ?_⟩, fun hdue hstate => ⟨_, hput, ?_⟩⟩
    · rw [snapTake, if_pos (by simpa [Option.isSome_iff_ne_none] using h), answered_abort _ (by decide)]
      exact ⟨rfl, rfl⟩
    · rw [snapTake_accepted hdue hstate, answered_ok]
      obtain ⟨h3, h4, h5, h6⟩ := snapNoted_objs s
      have hcairn := snapNoted_cairn s
      obtain ⟨v, hv⟩ : ∃ v, v = snapNoted s := ⟨_, rfl⟩
      rw [← hv] at h3 h4 h5 h6 hcairn ⊢
      exact ⟨rfl, h3, h4, h5, h6, congrArg (fun c : CairnSt => { c with
        snapDue := some (s.time.now + 2880 * (s.cairn.nextSeq - (s.cairn.nextSeq - 516096))) }) hcairn⟩
  · intro a n at_ hn
    obtain ⟨v, hv⟩ : ∃ v, v = advanceTo s u := ⟨_, rfl⟩
    obtain ⟨time', ha⟩ := advanceTo_only s u
    have hrest : v = { s with time := time' } := hv.trans ha
    have hobj (i k : Nat) : obj v i k = obj s i k := by rw [hrest]; rfl
    obtain ⟨w, hw⟩ : ∃ w, w = (List.range n).foldl (fun s' i => snapCopy s' (obj s 0x7801 1) a i) v := ⟨_, rfl⟩
    have hexec : exec .snapDone s = .next (modCairn (putObj (stir w) 0x7801 3 1) (fun c => { c with snapDue := none })) := by
      refine (live_on hon _).trans ?_
      rw [hdue]
      dsimp only
      rw [← hv, hobj, hobj, hobj, hw]
      rfl
    obtain ⟨o, h, honly⟩ := snapCopies_only v (obj s 0x7801 1) a n
    obtain ⟨hin, hout⟩ := snapCopies_bytes v (obj s 0x7801 1) a n hn
    rw [← hw] at honly hin hout
    have hring (k : Nat) : ringAt v k = ringAt s k := by rw [hrest]; rfl
    have hbyte (b : Nat) : hbmByte v b = hbmByte s b := by rw [hrest]; rfl
    refine ⟨_, hexec, ?_, ?_, obj_putObj_same _ _ _ _, fun i hi j hj => ?_, fun b hb => ?_⟩
    · change w.time.now = _
      rw [honly, hv]
      exact advanceTo_now s u
    · change { w.cairn with snapDue := none } = _
      rw [honly, hrest]
    · rw [← hring]
      exact hin i hi j hj
    · rw [← hbyte]
      exact hout b hb

end Sys2Proof.Proofs

/-! The objects that a write of the HBM leaves, the self-test of the engines, and programs (R261, R273, R274). -/

namespace Sys2Proof.Proofs

open Sys2Proof.Machine Sys2Proof.Claim

/-! ### What an activation counts (R327, R328) -/

theorem countChannel_objs (s : State) (pc k row : Nat) {i a : Nat} (ha : a < 256) (h : i ≠ 0x5000 ∨ a ≠ 0x11) :
    obj (countChannel s pc k row) i a = obj s i a := by
  unfold countChannel
  dsimp only
  split
  · exact obj_bumpBy_ne { s with hbm := _ } _ (by decide) ha (h.imp Ne.symm Ne.symm)
  · rfl

theorem activate_objs (s : State) (pc bank row : Nat) (cls : ReqClass) (addr : Nat) (read : Option HbmOutcome) {i a : Nat} (ha : a < 256)
    (h : i ≠ 0x5000 ∨ a ≠ 0x10 ∧ a ≠ 0x11) : obj (activate s pc bank row cls addr read).1 i a = obj s i a := by
  unfold activate
  dsimp only
  split
  · rfl
  · split
    · exact countChannel_objs s _ _ _ ha (h.imp_right And.right)
    · split
      · exact obj_bump_ne s (by decide) ha (h.imp Ne.symm fun hh => hh.1.symm)
      · rfl

theorem countWrite_objs (s : State) (cls : ReqClass) (b n : Nat) {i a : Nat} (ha : a < 256) (h7 : a ≠ 7) (h : i ≠ 0x5000 ∨ a ≠ 0x10 ∧ a ≠ 0x11) :
    obj (countWrite s cls b n) i a = obj s i a :=
  foldl_rel (R := fun s t => obj t i a = obj s i a) (fun _ => rfl) (fun h h' => h'.trans h) (fun s x => by
    dsimp only
    split
    · exact (activate_objs _ _ _ _ _ _ _ ha h).trans (obj_bumpBy_ne s _ (by decide) ha (.inr h7.symm))
    · rfl) _ s

theorem hbmWrite_objs (s : State) (cls : ReqClass) (b : Nat) (bs : List Byte) {i a : Nat} (ha : a < 256) (h7 : a ≠ 7)
    (h : i ≠ 0x5000 ∨ a ≠ 0x10 ∧ a ≠ 0x11) : obj (hbmWrite s cls b bs) i a = obj s i a :=
  countWrite_objs s cls b bs.length ha h7 h

/-! ### Starts of maintenance, refused and accepted -/

/-- A refused start leaves all but the block's own objects and the log. -/
theorem maintRefuse_rest (s : State) (c code : Nat) : ∃ o k, maintRefuse s c code = { s with obj := o, cairn := k } := by
  obtain ⟨u, hlogged, hrest, -⟩ := maintRefuse_logged s c code
  rw [hlogged.rest, hrest]
  exact ⟨_, _, rfl⟩

theorem maintRefuse_objs (s : State) (c code : Nat) {i a : Nat} (ha : a < 256) (h8 : i ≠ 0x8000) (h7 : i ≠ 0x7800) :
    obj (maintRefuse s c code) i a = obj s i a := by
  obtain ⟨u, hlogged, -, hobj⟩ := maintRefuse_logged s c code
  exact (hlogged.obj ha (.inl h7)).trans (hobj ha h8)

/-- Out of service nothing starts, but on an absent unit. -/
theorem maintTest_out {s : State} {c ctl : Nat} (ha : absent s = false) (h : serviceState s ≠ 1) : maintTest s c ctl = some 2 := by
  rw [maintTest, if_neg (by rw [ha]; simp), if_pos (by simpa using h)]

theorem answered_objs (s : State) (c d : Nat) {i a : Nat} (ha : a < 256) (h : i ≠ 0x0200) : obj (answered (s, c, d)) i a = obj s i a := by
  unfold answered
  dsimp only
  split
  · rfl
  · exact obj_bump_ne s (by decide) ha (.inl h.symm)

/-! ### The self-test of an engine (R273) -/

theorem screeTestGo_busy {s : State} (hs : serviceState s = 1) (h : s.scree.testing ≠ none) : screeTestGo s = (s, abState, 0) :=
  if_pos (by rw [hs, Option.isSome_iff_ne_none.mpr h]; rfl)

theorem screeTestGo_alone {s : State} (hs : serviceState s = 1) (h : s.scree.testing = none)
    (hup : (enginesUp s).filter (· != obj s 0x6001 1) = []) : screeTestGo s = (putObj s 0x6001 3 2, abState, 0) := by
  rw [screeTestGo]
  dsimp only
  rw [if_neg (by rw [h]; simp), if_pos (by rw [hs, hup]; rfl)]

/-- A test that the arbiter is asked for. -/
theorem screeTestGo_asks {s : State} (h : serviceState s ≠ 1 ∨ (s.scree.testing = none ∧ (enginesUp s).filter (· != obj s 0x6001 1) ≠ [])) :
    ¬(s.scree.testing.isSome && serviceState s == 1) = true ∧
      ¬(serviceState s == 1 && ((enginesUp s).filter (· != obj s 0x6001 1)).isEmpty) = true := by
  refine ⟨?_, ?_⟩
  · rcases h with h | ⟨h, -⟩ <;> simp [h]
  · rcases h with h | ⟨-, h⟩
    · simp [h]
    · rw [List.isEmpty_eq_false_iff.mpr h, Bool.and_false]
      decide

theorem screeTestGo_refused {s : State} {k : Nat} (h : serviceState s ≠ 1 ∨ (s.scree.testing = none ∧ (enginesUp s).filter (· != obj s 0x6001 1) ≠ []))
    (ht : maintTest s 5 (obj s 0x4820 1) = some k) : screeTestGo s = (maintRefuse s 5 k, abMaint, k) := by
  obtain ⟨hbusy, halone⟩ := screeTestGo_asks h
  rw [screeTestGo]
  dsimp only
  rw [if_neg hbusy, if_neg halone, maintStart_refused ht]

theorem screeTestGo_accepted {s : State} (h : serviceState s ≠ 1 ∨ (s.scree.testing = none ∧ (enginesUp s).filter (· != obj s 0x6001 1) ≠ []))
    (ht : maintTest s 5 (obj s 0x4820 1) = none) : screeTestGo s =
      ackOk (putObj { bump s 0x8000 5 with scree := { s.scree with testing := some (obj s 0x6001 1) } } 0x6001 3 0xFF) := by
  obtain ⟨hbusy, halone⟩ := screeTestGo_asks h
  rw [screeTestGo]
  dsimp only
  rw [if_neg hbusy, if_neg halone, maintStart_accepted ht]
  dsimp only [bump, bumpBy, putObj, setO]

/-! ### Programs (R274) -/

theorem progStart_refused {s : State} {k : Nat} (img : Option (List Byte)) (hp : s.scree.pendingLoad = none)
    (h : maintTest s 4 (obj s 0x4820 1) = some k) : progStart s img = (putObj (maintRefuse s 4 k) 0x6010 6 2, abMaint, k) := by
  rw [progStart, if_neg (by rw [hp]; simp), maintStart_refused h]

theorem progStart_accepted {s : State} (img : Option (List Byte)) (hp : s.scree.pendingLoad = none)
    (h : maintTest s 4 (obj s 0x4820 1) = none) : progStart s img = ackOk (putObj { bump s 0x8000 5 with
      scree := { s.scree with pendingLoad := some (obj s 0x6010 1, obj s 0x6010 2, img) } } 0x6010 6 0xFF) := by
  rw [progStart, if_neg (by rw [hp]; simp), maintStart_accepted h]
  dsimp only
  rw [obj_bump_ne s (by decide) (by decide) (.inl (by decide)), obj_bump_ne s (by decide) (by decide) (.inl (by decide))]
  dsimp only [bump, bumpBy, putObj, setO]

/-- The engine's test is over. -/
def screeTested (s : State) (e : Nat) (pass : Bool) : State :=
  putObj (stir { s with scree := { s.scree with
    testing := none, removed := if pass then s.scree.removed.filter (· != e) else insertNat e s.scree.removed } }) 0x6001 3 (if pass then 0 else 1)

theorem exec_screeTestDone {s : State} {e : Nat} (hon : on s = true) (he : s.scree.testing = some e) (pass : Bool) : exec (.screeTestDone pass) s =
    .next (if pass then screeTested s e true else cairn (screeTested s e false) 7 2 3 (toLE 1 e)) := by
  refine (live_on hon _).trans ?_
  rw [he]
  cases pass <;> rfl

/-- Settles O41: the test's start and end, the load and the unload, and their taking effect. -/
theorem enginesAreTestedAndProgramsLoaded : Obligations.EnginesAreTestedAndProgramsLoaded := by
  intro s hpresent
  have hskx : s.sys.skx9624 = false := hpresent
  refine ⟨fun hserved => ?_, fun e hon he => ?_, fun hserved hpend => ?_, fun a n img hon hpend => ?_⟩
  · intro e
    have hpage : page s.sys 0x6001 = some (3, [rw 1 .u8 0 (.range 0 31), wo 2 .bool, ro 3 .u8]) := by
      change pageUnits s.sys 0x6001 = _
      rw [pageUnits, hskx]
      rfl
    have hput : exec .screeTestGo s = .next (answered (screeTestGo s)) := put_command (idx := 0x6001) (sub := 2) hserved hpage rfl rfl (by decide)
    have hrest (k : Nat) : (maintRefuse s 5 k).scree = s.scree := by
      obtain ⟨o, c, h⟩ := maintRefuse_rest s 5 k
      rw [h]
    refine ⟨fun hs ht => ⟨_, hput, ?_⟩, fun hs ht hup => ⟨_, hput, ?_⟩, fun hs => ⟨_, hput, ?_⟩, fun ht hup htest => ⟨_, hput, ?_⟩⟩
    · rw [screeTestGo_busy hs ht, answered_abort _ (by decide)]
      exact ⟨rfl, rfl⟩
    · have hnone : (enginesUp s).filter (· != obj s 0x6001 1) = [] := List.filter_eq_nil_iff.mpr fun d hd => by
        rw [hup d hd, bne_self_eq_false]
        decide
      rw [screeTestGo_alone hs ht hnone]
      refine ⟨by rw [answered_abort _ (by decide)]; rfl, by rw [answered_abort _ (by decide)]; rfl, ?_⟩
      rw [answered_objs _ _ _ (by decide) (by decide), obj_putObj_same]
    · rw [screeTestGo_refused (.inl hs) (maintTest_out hpresent hs), answered_abort _ (by decide)]
      exact ⟨rfl, hrest 2⟩
    · have hsome : (enginesUp s).filter (· != obj s 0x6001 1) ≠ [] := by
        obtain ⟨d, hd, hde⟩ := hup
        exact List.ne_nil_of_mem (List.mem_filter.mpr ⟨hd, by simpa using hde⟩)
      rw [screeTestGo_accepted (.inr ⟨ht, hsome⟩) htest, answered_ok]
      exact ⟨rfl, rfl, obj_putObj_same _ _ _ _⟩
  · refine ⟨⟨_, exec_screeTestDone hon he true, rfl, obj_putObj_same _ _ _ _⟩, ⟨_, exec_screeTestDone hon he false, ?_⟩⟩
    have hlog := cairn_logged (screeTested s e false) 7 2 3 (toLE 1 e)
    change (Machine.cairn (screeTested s e false) 7 2 3 (toLE 1 e)).scree = _ ∧ obj (Machine.cairn (screeTested s e false) 7 2 3 (toLE 1 e)) _ _ = _
    rw [hlog.obj (by decide) (.inl (by decide)), hlog.rest]
    exact ⟨rfl, obj_putObj_same _ _ _ _⟩
  · intro t0 n0
    have hpage : page s.sys 0x6010 = some (7, [rw 1 .u16 0 (.range 0 4095), rw 2 .u8 0 (.range 0 15), wo 3 (.domain 4096), wo 4 .bool,
        wo 5 .bool, ro 6 .u8, ro 7 .u16]) := by
      change pageUnits s.sys 0x6010 = _
      rw [pageUnits, hskx]
      rfl
    have hload : exec .progLoad s = .next (answered (progLoad s)) := put_command (idx := 0x6010) (sub := 4) hserved hpage rfl rfl (by decide)
    have hunload : exec .progUnload s = .next (answered (progStart s none)) := put_command (idx := 0x6010) (sub := 5) hserved hpage rfl rfl (by decide)
    have hgo : ¬(s.scree.pendingLoad.isSome && serviceState s == 1) = true := by rw [hpend]; simp
    refine ⟨fun hnone => ⟨_, hload, ?_⟩, fun x hx => ?_, fun k htest => ⟨_, hunload, ?_⟩, fun htest => ⟨_, hunload, ?_⟩⟩
    · rw [progLoad, if_neg hgo, hnone]
      exact ⟨rfl, rfl⟩
    · intro img
      refine ⟨fun o ho => ⟨_, hload, ?_⟩, fun ho htest => ⟨_, hload, ?_⟩⟩
      · rw [progLoad, if_neg hgo, hx]
        dsimp only
        rw [show progError (rdN x.data 0 4096) = some o from ho, answered_ok]
        exact ⟨rfl, rfl, (obj_putObj_ne _ _ (by decide) (by decide) (.inr (by decide))).trans (obj_putObj_same _ _ _ _), obj_putObj_same _ _ _ _⟩
      · rw [progLoad, if_neg hgo, hx]
        dsimp only
        rw [show progError (rdN x.data 0 4096) = none from ho]
        dsimp only
        rw [progStart_accepted _ hpend htest, answered_ok]
        exact ⟨rfl, rfl, obj_putObj_same _ _ _ _⟩
    · obtain ⟨o, c, hrest⟩ := maintRefuse_rest s 4 k
      rw [progStart_refused none hpend htest]
      refine ⟨rfl, ?_, ?_⟩
      · rw [answered_abort _ (by decide), hrest]
        rfl
      · rw [answered_objs _ _ _ (by decide) (by decide), obj_putObj_same]
    · rw [progStart_accepted _ hpend htest, answered_ok]
      exact ⟨rfl, rfl, obj_putObj_same _ _ _ _⟩
  · refine ⟨fun ⟨e, he, ht, hn⟩ => ?_, fun hfree => ?_⟩
    · refine (live_on hon _).trans ?_
      rw [hpend]
      exact if_pos (List.any_eq_true.mpr ⟨e, he, by simp [ht, hn]⟩)
    · have hnot : ¬(s.scree.scans.any (fun e => e.2.hdr.tid.toNat == a && e.2.hdr.sub.toNat == n)) = true := fun h => by
        obtain ⟨e, he, hh⟩ := List.any_eq_true.mp h
        exact hfree e he (by simpa using hh)
      obtain ⟨u, hu⟩ : ∃ u, u = stir (putObj { s with scree := { s.scree with pendingLoad := none } } 0x6010 6 0) := ⟨_, rfl⟩
      have h6 : obj u 0x6010 6 = 0 := by
        rw [hu]
        exact obj_putObj_same _ _ _ _
      have hscree : u.scree = { s.scree with pendingLoad := none } := by rw [hu]; rfl
      have hhbm : u.hbm = s.hbm := by rw [hu]; rfl
      have hbyteU (b : Nat) : hbmByte u b = hbmByte s b := by rw [hbmByte_eq, hbmByte_eq, hhbm]
      cases img with
      | none =>
        have hexec : exec .progTakesEffect s = .next { u with scree := { u.scree with progs := merase s.scree.progs (progKey a n) } } := by
          refine (live_on hon _).trans ?_
          rw [hpend]
          dsimp only
          rw [if_neg hnot, hu]
          rfl
        refine ⟨_, hexec, by rw [hscree], h6, fun k => ?_, fun b => ?_⟩
        · change mfind (merase s.scree.progs (progKey a n)) k = _
          split
          · next h => rw [h, mfind_merase_same]
          · next h => rw [mfind_merase_ne _ (Ne.symm h)]
        · rw [stored, if_neg (by simp)]
          exact hbyteU b
      | some p =>
        obtain ⟨w, hw⟩ : ∃ w, w = ({ u with scree := { u.scree with progs := mset s.scree.progs (progKey a n) p } } : State) := ⟨_, rfl⟩
        have hexec : exec .progTakesEffect s = .next (hbmWrite w .sys (s.hbm.progBase + 4096 * progKey a n) p) := by
          refine (live_on hon _).trans ?_
          rw [hpend]
          dsimp only
          rw [if_neg hnot, hw, hu]
          rfl
        obtain ⟨o, h, honly⟩ := hbmWrite_only w .sys (s.hbm.progBase + 4096 * progKey a n) p
        have hscreeT : (hbmWrite w .sys (s.hbm.progBase + 4096 * progKey a n) p).scree = { s.scree with
            pendingLoad := none, progs := mset s.scree.progs (progKey a n) p } := by
          rw [honly, hw, hscree]
        refine ⟨_, hexec, by rw [hscreeT], ?_, fun k => ?_, fun b => ?_⟩
        · rw [hbmWrite_objs _ _ _ _ (by decide) (by decide) (.inl (by decide)), hw]
          exact h6
        · rw [hscreeT]
          change mfind (mset s.scree.progs (progKey a n) p) k = _
          split
          · next h => rw [h, mfind_mset_same]
          · next h => rw [mfind_mset_ne _ _ (Ne.symm h)]
        · rw [hbmByte_hbmWrite, ← hbyteU b, hw]
          rfl

end Sys2Proof.Proofs

/-! Reads of the HBM, refreshes, the windows of a stack and the neighbour-refresh sweep (R325 to R331). -/

namespace Sys2Proof.Proofs

open Sys2Proof.Machine Sys2Proof.Claim

/-! ### What an access of a row does to its pseudo-channel (R327, R328) -/

theorem counting_advanceTo (s : State) (t k : Nat) : counting (advanceTo s t) k = counting s k := rfl
theorem pchOf_advanceTo (s : State) (t k : Nat) : pchOf (advanceTo s t) k = pchOf s k := rfl
theorem hbm_advanceTo (s : State) (t : Nat) : (advanceTo s t).hbm = s.hbm := rfl
theorem pchOf_bumpBy (s : State) (i a n k : Nat) : pchOf (bumpBy s i a n) k = pchOf s k := rfl

theorem activate_open {s : State} {pc bank row : Nat} (h : mfind (pchOf s pc).openRow bank = some row) (k : ReqClass) (a : Nat)
    (o : Option HbmOutcome) : activate s pc bank row k a o = (s, true) := if_pos h

theorem activate_counting {s : State} {pc bank row : Nat} (h : mfind (pchOf s pc).openRow bank ≠ some row) (hc : counting s (pc / 32) = true)
    (k : ReqClass) (a : Nat) (o : Option HbmOutcome) : activate s pc bank row k a o =
      (openRowOf (countChannel s pc (bank * 24576 + row) row) pc bank row, true) := by
  rw [activate, if_neg h, if_pos hc]

theorem activate_throttled {s : State} {pc bank row : Nat} {k : ReqClass} (h : mfind (pchOf s pc).openRow bank ≠ some row)
    (hc : counting s (pc / 32) = false) (hn : obj s 0x5000 0x0B ≤ actOf (pchOf s pc).tracker (bank * 24576 + row) (reqNo k)) (a : Nat)
    (o : Option HbmOutcome) : activate s pc bank row k a o = (setPch (bump s 0x5000 0x10) pc { pchOf s pc with
      deferred := (pchOf s pc).deferred ++ [⟨a, bank * 24576 + row, reqNo k, o⟩] }, false) := by
  rw [activate]
  dsimp only
  rw [if_neg h, if_neg (by rw [hc]; decide), if_pos hn]

theorem activate_counts {s : State} {pc bank row : Nat} {k : ReqClass} (h : mfind (pchOf s pc).openRow bank ≠ some row)
    (hc : counting s (pc / 32) = false) (hn : actOf (pchOf s pc).tracker (bank * 24576 + row) (reqNo k) < obj s 0x5000 0x0B) (a : Nat)
    (o : Option HbmOutcome) : activate s pc bank row k a o = (openRowOf (setPch s pc { pchOf s pc with
      tracker := countAct 256 (pchOf s pc).tracker (bank * 24576 + row) (reqNo k) }) pc bank row, true) := by
  rw [activate]
  dsimp only
  rw [if_neg h, if_neg (by rw [hc]; decide), if_neg (Nat.not_le.mpr hn)]

theorem pchOf_openRowOf (s : State) (pc bank row : Nat) : pchOf (openRowOf s pc bank row) pc =
    { pchOf s pc with openRow := mset (pchOf s pc).openRow bank row } := pchOf_setPch_same s pc _

/-- The entries of a row start again at 0. -/
def cleared (l : List ActCount) (k : Nat) : List ActCount := l.map (fun e => if e.row = k then { e with n := 0 } else e)

theorem actOf_cleared (l : List ActCount) (k c : Nat) : actOf (cleared l k) k c = 0 := by
  unfold actOf
  cases h : (cleared l k).find? (fun e => e.row == k && e.cls == c) with
  | none => rfl
  | some e =>
    obtain ⟨x, -, hx⟩ := List.mem_map.mp (List.mem_of_find?_eq_some h)
    have hrow : e.row = k := by simpa using And.left (by simpa using List.find?_some h)
    dsimp only
    split at hx
    · rw [← hx]
    · next hne => exact absurd (hx ▸ hrow) hne

/-- The channel's table with one activation more. -/
def channelCount (s : State) (pc k : Nat) : List ActCount := countAct 1024 (mget s.hbm.chan (pc / 2) []) (pc % 2 * 2 ^ 24 + k) 0

theorem countChannel_below {s : State} {pc k : Nat} (row : Nat)
    (h : actOf (channelCount s pc k) (pc % 2 * 2 ^ 24 + k) 0 ≤ obj s 0x5000 0x0C) :
    countChannel s pc k row = { s with hbm := { s.hbm with chan := mset s.hbm.chan (pc / 2) (channelCount s pc k) } } := by
  rw [channelCount] at h ⊢
  rw [countChannel]
  dsimp only
  have hnot := decide_eq_false (Nat.not_lt.mpr h)
  rw [if_neg (Bool.eq_false_iff.mp hnot), if_neg (Bool.eq_false_iff.mp hnot)]

theorem countChannel_above {s : State} {pc k : Nat} (row : Nat)
    (h : obj s 0x5000 0x0C < actOf (channelCount s pc k) (pc % 2 * 2 ^ 24 + k) 0) :
    countChannel s pc k row = bumpBy { s with hbm := { s.hbm with
      chan := mset s.hbm.chan (pc / 2) (cleared (channelCount s pc k) (pc % 2 * 2 ^ 24 + k)) } } 0x5000 0x11 (neighbours row) := by
  rw [channelCount] at h ⊢
  rw [countChannel]
  dsimp only
  rw [if_pos (decide_eq_true h), if_pos (decide_eq_true h)]
  rfl

theorem pchOf_countChannel (s : State) (pc k row j : Nat) : pchOf (countChannel s pc k row) j = pchOf s j := by
  obtain ⟨o, c, h⟩ := countChannel_only s pc k row
  rw [h]
  rfl

/-! ### How a read ends (R330) -/

/-- The instant at which the bank takes the read. -/
abbrev bankTaken (s : State) (pc bank : Nat) : State := advanceTo s (mget (pchOf s pc).busy bank 0)

section
variable {s : State} {a pc bank row : Nat} (hplace : hbmPlace s a = (pc, bank, row)) (ha : a < hbmSize s.sys)
  (hserves : stackServes s (pc / 32) = true) (hmedia : a / 64 ∉ s.hbm.media)
include hplace ha hserves hmedia

theorem exec_hbmReadDone_taken {k : ReqClass} {o : HbmOutcome} {v : State}
    (h : activate (bankTaken s pc bank) pc bank row k a (some o) = (v, true)) :
    exec (.hbmReadDone a k o) s = .next (readOutcome v k pc bank row a o) := by
  change execHbmReadDone a k o s = _
  rw [execHbmReadDone, hplace]
  dsimp only
  rw [if_neg (by simp [hserves, hmedia, ha]), bankFrom, h]

theorem exec_hbmReadDone_deferred {k : ReqClass} {o : HbmOutcome} {v : State}
    (h : activate (bankTaken s pc bank) pc bank row k a (some o) = (v, false)) :
    exec (.hbmReadDone a k o) s = .next v := by
  change execHbmReadDone a k o s = _
  rw [execHbmReadDone, hplace]
  dsimp only
  rw [if_neg (by simp [hserves, hmedia, ha]), bankFrom, h]

end

/-- Writing what is read leaves every byte. -/
theorem hbmByte_rewrite (s : State) (k : ReqClass) (a n b : Nat) : hbmByte (hbmWrite s k a (hbmRead s a n)) b = hbmByte s b := by
  rw [hbmByte_hbmWrite, stored, length_hbmRead]
  split
  · next h =>
    have hget := getElem_rdN s.hbm.mem a n (b - a) (by omega)
    rw [Nat.add_sub_cancel' h.1] at hget
    rw [hbmByte_eq, hbmRead]
    cases s.hbm.save with
    | none => simp [hget]
    | some v => simp [hget, Nat.add_sub_cancel' h.1]
  · rfl

theorem mem_insertNat_self (a : Nat) (l : List Nat) : a ∈ insertNat a l := mem_insertNat.mpr (.inl rfl)

theorem retireRow_new {s : State} {pc bank row : Nat} (h : (stackOf s (pc / 32)).retired = []) : retireRow s pc bank row =
    paramAppend (setStack s (pc / 32) { stackOf s (pc / 32) with retired := [(pc, bank, row)] }) (stackEntry (pc / 32)) := by
  rw [retireRow]
  dsimp only
  rw [if_pos (by simp [retires, h]), h]
  rfl

theorem retireRow_only (s : State) (pc bank row : Nat) : ∃ stk' c', retireRow s pc bank row =
    { s with hbm := { s.hbm with stk := stk' }, cairn := c' } := by
  rw [retireRow]
  dsimp only
  split
  · exact ⟨_, _, rfl⟩
  · exact ⟨_, _, rfl⟩

theorem mem_of_mfind {α : Type} {m : Map α} {k : Nat} {x : α} (h : mfind m k = some x) : (k, x) ∈ m := by
  induction m with
  | nil => exact absurd h nofun
  | cons e m ih =>
    obtain ⟨j, y⟩ := e
    rw [mfind] at h
    split at h
    · next hj =>
      rw [hj, Option.some.inj h]
      exact List.mem_cons_self
    · exact List.mem_cons_of_mem _ (ih h)

/-- A map without the entries of a kind holds none of them. -/
theorem mfind_filter_none {α : Type} {m : Map α} {p : Nat × α → Bool} {k : Nat} (h : ∀ x, p (k, x) = false) : mfind (m.filter p) k = none := by
  cases hf : mfind (m.filter p) k with
  | none => rfl
  | some x => exact absurd (List.mem_filter.mp (mem_of_mfind hf)).2 (by rw [h]; exact Bool.false_ne_true)

/-! ### Refreshes (R325, R327) -/

theorem usU_window (n : Nat) : msU n = 90000000 * n := by rw [msU]; omega

/-- A refresh that the window, or its sweep, still owes the bank. -/
theorem exec_hbmRefresh {s : State} {pc bank : Nat} (hs : stackServes s (pc / 32) = true) (hb : bank < 48)
    (h : rowsDone s pc bank < 24576 ∨ (s.hbm.sweepEnd ≠ none ∧ mget (pchOf s pc).extra bank 0 < 24576)) :
    exec (.hbmRefresh pc bank) s =
      .next (setWindow (refreshBank (advanceTo s (groupFrom s pc bank)) pc bank (decide (24576 ≤ rowsDone s pc bank))) (pc / 32)) := by
  change execHbmRefresh pc bank s = _
  rw [execHbmRefresh]
  rw [if_neg (by simp [hs, hb]), if_neg ?_]
  rcases h with h | ⟨h, hx⟩
  · simp [Nat.not_le.mpr h]
  · simp [h, Nat.not_le.mpr hx]

theorem refreshBank_facts (u : State) (pc bank : Nat) (extra : Bool) : let t := setWindow (refreshBank u pc bank extra) (pc / 32)
    t.time = u.time ∧ t.hbm.mem = u.hbm.mem ∧ (stackOf t (pc / 32)).window = (if (stackOf u (pc / 32)).temp ≤ 85 then 32 else 16) ∧
      mfind (pchOf t pc).openRow bank = none ∧ mget (pchOf t pc).busy bank 0 = u.time.now + 23400 ∧
      (extra = false → mget (pchOf t pc).refresh bank 0 = mget (pchOf u pc).refresh bank 0 + 8) ∧
      (extra = true → mget (pchOf t pc).extra bank 0 = mget (pchOf u pc).extra bank 0 + 8) := by
  intro t
  have hpch : pchOf t pc = pchOf (refreshBank u pc bank extra) pc := rfl
  have hstk : stackOf t (pc / 32) = { stackOf u (pc / 32) with window := if (stackOf u (pc / 32)).temp ≤ 85 then 32 else 16 } :=
    stackOf_setStack_same _ _ _
  rw [hpch, hstk, refreshBank, pchOf_setPch_same]
  refine ⟨rfl, rfl, rfl, mfind_merase_same _ _, mget_mset_same _ _ _ _, fun h => ?_, fun h => ?_⟩
  · rw [h]
    exact mget_mset_same _ _ _ _
  · rw [h]
    exact mget_mset_same _ _ _ _

/-! ### The window of a stack -/

/-- What the start of a window leaves of a pseudo-channel. -/
def windowed (s : State) (pc : Nat) : PChan := { pchOf s pc with
  tracker := [], refresh := [], openRow := (pchOf s pc).openRow.filter (fun e => decide (24576 ≤ rowsDone s pc e.1)) }

/-- A pseudo-channel at which nothing waits starts its window. -/
theorem windowPch_facts {s : State} {pc : Nat} (h : (pchOf s pc).deferred = []) : let t := windowPch s pc
    pchOf t pc = windowed s pc ∧ (∀ j, j ≠ pc → pchOf t j = pchOf s j) ∧ ∃ p, t = { s with hbm := { s.hbm with pch := p } } := by
  intro t
  obtain ⟨p, hp⟩ : ∃ p, p = pchOf s pc := ⟨_, rfl⟩
  have ht : t = if p.tracker.isEmpty && p.refresh.isEmpty && p.deferred.isEmpty && p.openRow.isEmpty then s
      else setPch s pc { windowed s pc with deferred := [] } := by
    change windowPch s pc = _
    rw [windowPch]
    dsimp only
    rw [h, hp, List.foldl_nil, h]
    rfl
  have hdef : { windowed s pc with deferred := [] } = windowed s pc := by rw [windowed, h]
  rw [hdef] at ht
  rw [ht]
  split
  · next hempty =>
    simp only [Bool.and_eq_true, List.isEmpty_iff] at hempty
    obtain ⟨⟨⟨htr, hre⟩, -⟩, hop⟩ := hempty
    refine ⟨?_, fun _ _ => rfl, s.hbm.pch, rfl⟩
    rw [windowed, ← hp, hop, List.filter_nil]
    obtain ⟨tracker, openRow, refresh, extra, busy, deferred⟩ := p
    dsimp only at htr hre hop
    rw [htr, hre, hop]
  · exact ⟨pchOf_setPch_same _ _ _, fun j hj => pchOf_setPch_ne _ _ (Ne.symm hj), _, rfl⟩

/-- The pseudo-channels of a stack start their window one after the other. -/
theorem windowPchs_below {s : State} {k n : Nat} (h : ∀ i, i < n → (pchOf s (32 * k + i)).deferred = []) :
    let t := (List.range n).foldl (fun s i => windowPch s (32 * k + i)) s
    (∀ i, i < n → pchOf t (32 * k + i) = windowed s (32 * k + i)) ∧ (∀ i, n ≤ i → pchOf t (32 * k + i) = pchOf s (32 * k + i)) ∧
      ∃ p, t = { s with hbm := { s.hbm with pch := p } } := by
  induction n with
  | zero => exact ⟨nofun, fun _ _ => rfl, s.hbm.pch, rfl⟩
  | succ n ih =>
    obtain ⟨hdone, hleft, p, hp⟩ := ih fun i hi => h i (Nat.lt_succ_of_lt hi)
    rw [List.range_succ, List.foldl_append, List.foldl_cons, List.foldl_nil]
    obtain ⟨u, hu⟩ : ∃ u, u = (List.range n).foldl (fun s i => windowPch s (32 * k + i)) s := ⟨_, rfl⟩
    rw [← hu] at hdone hleft hp ⊢
    obtain ⟨hsame, hothers, q, hq⟩ := windowPch_facts (s := u) (pc := 32 * k + n) (by rw [hleft n le_rfl]; exact h n (Nat.lt_succ_self n))
    refine ⟨fun i hi => ?_, fun i hi => ?_, q, by rw [hq, hp]⟩
    · rcases Nat.lt_succ_iff_lt_or_eq.mp hi with hlt | rfl
      · rw [hothers _ (by omega), hdone i hlt]
      · have hrows (e : Nat) : rowsDone u (32 * k + i) e = rowsDone s (32 * k + i) e := by
          rw [rowsDone, rowsDone, hleft i le_rfl, hp]
          rfl
        rw [hsame, windowed, windowed, hleft i le_rfl]
        simp only [hrows]
    · rw [hothers _ (by omega), hleft i (by omega)]

/-! ### The neighbour-refresh sweep (R329) -/

theorem exec_nrsGo {s : State} (h : Served s 0x5021) : exec .nrsGo s = .next (answered (nrsGo s)) := by
  have hpage : page s.sys 0x5021 = some (3, [wo 1 .bool, ro 2 .u8, ro 3 .u32]) := by
    have := nStacks_le s
    change pageHbm s.sys 0x5021 = _
    rw [pageHbm, if_neg (by decide), if_neg (by omega)]
  exact put_command (idx := 0x5021) (sub := 1) h hpage rfl rfl (by decide)

/-- A sweep that runs on refuses another in service. -/
theorem nrsGo_busy {s : State} (h : maintRuns s 3 = true) (hs : serviceState s = 1) : nrsGo s = (s, abState, 0) := by
  have hsome : s.hbm.sweepEnd.isSome = true := by
    cases hsw : s.hbm.sweepEnd with
    | none =>
      rw [maintRuns, hsw] at h
      exact absurd h Bool.false_ne_true
    | some u => rfl
  have hends : (if s.hbm.sweepEnd.isSome && !maintRuns s 3 then nrsEnd s else s) = s := if_neg (by simp [h])
  rw [nrsGo]
  dsimp only
  rw [hends, if_pos (by rw [hsome, hs]; rfl)]

/-- A start that the arbiter is asked for. -/
theorem nrsGo_asks {s : State} (h : s.hbm.sweepEnd = none ∨ (maintRuns s 3 = true ∧ serviceState s ≠ 1)) :
    ¬(s.hbm.sweepEnd.isSome && !maintRuns s 3) = true ∧ ¬(s.hbm.sweepEnd.isSome && serviceState s == 1) = true := by
  rcases h with h | ⟨h, hs⟩
  · simp [h]
  · simp [h, hs]

theorem nrsGo_refused {s : State} {k : Nat} (h : s.hbm.sweepEnd = none ∨ (maintRuns s 3 = true ∧ serviceState s ≠ 1))
    (ht : maintTest s 3 (obj s 0x4820 1) = some k) : nrsGo s = (putObj (maintRefuse s 3 k) 0x5021 2 2, abMaint, k) := by
  obtain ⟨hends, hbusy⟩ := nrsGo_asks h
  rw [nrsGo]
  dsimp only
  rw [if_neg hends, if_neg hbusy, maintStart_refused ht]

/-- The sweep that a start begins. -/
def sweeping (s : State) : State := { putObj (bump s 0x8000 5) 0x5021 2 1 with
  hbm := { s.hbm with sweepEnd := some (s.time.now + 2880000000) } }

theorem msU_32 : msU 32 = 2880000000 := rfl

theorem nrsGo_accepted {s : State} (h : s.hbm.sweepEnd = none) (ht : maintTest s 3 (obj s 0x4820 1) = none) :
    nrsGo s = ackOk (sweeping s) := by
  obtain ⟨hends, hbusy⟩ := nrsGo_asks (.inl h)
  rw [nrsGo]
  dsimp only
  rw [if_neg hends, if_neg hbusy, maintStart_accepted ht]
  dsimp only
  rw [msU_32]
  rfl

/-- A sweep that ends in this dp-cycle gives way to the next. -/
theorem nrsGo_next {s : State} (h : s.hbm.sweepEnd ≠ none) (hr : maintRuns s 3 = false) : nrsGo s = nrsGo (nrsEnd s) := by
  have hnone : (nrsEnd s).hbm.sweepEnd = none := rfl
  have hends : (if s.hbm.sweepEnd.isSome && !maintRuns s 3 then nrsEnd s else s) = nrsEnd s :=
    if_pos (by rw [hr, Option.isSome_iff_ne_none.mpr h]; rfl)
  have hended : (if (nrsEnd s).hbm.sweepEnd.isSome && !maintRuns (nrsEnd s) 3 then nrsEnd (nrsEnd s) else nrsEnd s) = nrsEnd s :=
    if_neg (by simp [hnone])
  rw [nrsGo, nrsGo]
  dsimp only
  rw [hends, hended]

theorem nrsEnd_objs (s : State) {i a : Nat} (ha : a < 256) (h : i ≠ 0x5021) : obj (nrsEnd s) i a = obj s i a := by
  obtain ⟨u, hu⟩ : ∃ u, u = putObj (stir s) 0x5021 2 0 := ⟨_, rfl⟩
  change obj (bump32 (putObj (stir s) 0x5021 2 0) 0x5021 3) i a = _
  rw [← hu, bump32, obj_putObj_ne _ _ (by decide) ha (.inl h.symm), hu, obj_putObj_ne _ _ (by decide) ha (.inl h.symm)]
  rfl

theorem nrsEnd_counted (s : State) : obj (nrsEnd s) 0x5021 2 = 0 ∧ obj (nrsEnd s) 0x5021 3 = (obj s 0x5021 3 + 1) % 2 ^ 32 := by
  obtain ⟨u, hu⟩ : ∃ u, u = putObj (stir s) 0x5021 2 0 := ⟨_, rfl⟩
  have hobj (i a : Nat) : obj (nrsEnd s) i a = obj (bump32 u 0x5021 3) i a := by rw [hu]; rfl
  rw [hobj, hobj, bump32, obj_putObj_ne _ _ (by decide) (by decide) (.inr (by decide)), obj_putObj_same, hu,
    obj_putObj_same, obj_putObj_ne _ _ (by decide) (by decide) (.inr (by decide))]
  exact ⟨rfl, rfl⟩

theorem maintRuns_nrsEnd (s : State) {r : Nat} (h : r ≠ 3) : maintRuns (nrsEnd s) r = maintRuns s r := by
  match r, h with
  | 0, _ => rw [maintRuns, maintRuns, nrsEnd_objs s (by decide) (by decide)]
  | 1, _ => rfl
  | 2, _ => rfl
  | 4, _ => rfl
  | 5, _ => rfl
  | 6, _ => rfl
  | 7, _ => rfl
  | n + 8, _ => rfl

/-- The end of a sweep frees no other class, and takes the device not out of service. -/
theorem maintTest_nrsEnd (s : State) : maintTest (nrsEnd s) 3 (obj (nrsEnd s) 0x4820 1) = maintTest s 3 (obj s 0x4820 1) := by
  have hservice : serviceState (nrsEnd s) = serviceState s := by
    have hout : outCause (nrsEnd s) = outCause s := outCause_congr rfl fun c hc => nrsEnd_objs s (by decide) (by omega)
    rw [serviceState, serviceState, hout]
    rfl
  have hruns (r : Nat) : (r != 3 && maintRuns (nrsEnd s) r) = (r != 3 && maintRuns s r) := by
    by_cases h3 : r = 3
    · rw [h3]
      rfl
    · rw [maintRuns_nrsEnd s h3]
  rw [maintTest, maintTest, hservice, nrsEnd_objs s (by decide) (by decide)]
  simp only [hruns]
  rfl

/-! ### The obligation -/

/-- A lasting error marks its line, retires its row and is counted. -/
theorem readOutcome_lasting (s : State) (k : ReqClass) (pc bank row a : Nat) : let t := readOutcome s k pc bank row a .lasting
    t.hbm.media = insertNat (a / 64) s.hbm.media ∧ t.hbm.mem = s.hbm.mem ∧
      ((stackOf s (pc / 32)).retired = [] → (stackOf t (pc / 32)).retired = [(pc, bank, row)]) ∧
      obj t 0x5000 0x0F = (obj s 0x5000 0x0F + 1) % 2 ^ 64 := by
  intro t
  obtain ⟨u, hu⟩ : ∃ u, u = bump (bumpBy s (0x5010 + pc / 32) 6 64) 0x5000 0x0F := ⟨_, rfl⟩
  obtain ⟨v, hv⟩ : ∃ v : State, v = { retireRow u pc bank row with hbm := { (retireRow u pc bank row).hbm with
    media := insertNat (a / 64) (retireRow u pc bank row).hbm.media } } := ⟨_, rfl⟩
  have ht : t = cairn v 8 1 3 (rowData pc bank row) := by rw [hv, hu]; rfl
  have hlog := cairn_logged v 8 1 3 (rowData pc bank row)
  rw [← ht] at hlog
  obtain ⟨stk, c, hrow⟩ := retireRow_only u pc bank row
  have huhbm : u.hbm = s.hbm := by rw [hu]; rfl
  refine ⟨?_, ?_, fun h => ?_, ?_⟩
  · rw [hlog.rest, hv, hrow, huhbm]
  · rw [hlog.rest, hv, hrow, huhbm]
  · have hstk : (stackOf v (pc / 32)).retired = [(pc, bank, row)] := by
      rw [hv, retireRow_new (by rw [stackOf, huhbm]; exact h)]
      exact congrArg Stack.retired (stackOf_setStack_same u (pc / 32) _)
    rw [hlog.rest]
    exact hstk
  · rw [hlog.obj (by decide) (.inl (by decide)), hv, hrow]
    change obj u 0x5000 0x0F = _
    rw [hu, obj_bump_same, obj_bumpBy_ne _ _ (by decide) (by decide) (.inr (by decide))]

/-- A corrected line is written back, and is counted. -/
theorem readOutcome_corrected {s : State} {k : ReqClass} {pc bank row a : Nat} : let t := readOutcome s k pc bank row a .corrected
    obj t 0x5000 0x0D = (obj s 0x5000 0x0D + 1) % 2 ^ 64 ∧
      obj t (0x5010 + pc / 32) 6 = (obj s (0x5010 + pc / 32) 6 + 64) % 2 ^ 64 ∧ ∀ b, hbmByte t b = hbmByte s b := by
  intro t
  obtain ⟨u, hu⟩ : ∃ u, u = bumpBy s (0x5010 + pc / 32) 6 64 := ⟨_, rfl⟩
  have ht : t = hbmWrite (bump u 0x5000 0x0D) k (64 * (a / 64)) (hbmRead u (64 * (a / 64)) 64) := by rw [hu]; rfl
  rw [ht]
  refine ⟨?_, ?_, fun b => ?_⟩
  · rw [hbmWrite_objs _ _ _ _ (by decide) (by decide) (.inr (by decide)), obj_bump_same, hu,
      obj_bumpBy_ne _ _ (by decide) (by decide) (.inr (by decide))]
  · rw [hbmWrite_objs _ _ _ _ (by decide) (by decide) (.inl (by omega)), obj_bump_ne _ (by decide) (by decide) (.inl (by omega)), hu,
      obj_bumpBy_same]
  · have hread : hbmRead u = hbmRead (bump u 0x5000 0x0D) := rfl
    rw [hread, hbmByte_rewrite, hu]
    rfl

theorem readOutcome_good (s : State) (k : ReqClass) (pc bank row a : Nat) :
    readOutcome s k pc bank row a .good = bumpBy s (0x5010 + pc / 32) 6 64 := rfl

/-- A window of a stack at which nothing waits. -/
theorem newWindow_facts {s : State} {k : Nat} (h : ∀ i, i < 32 → (pchOf s (32 * k + i)).deferred = []) : let t := newWindow s k
    t.time.now = max s.time.now ((stackOf s k).windowAt + 90000000 * (stackOf s k).window) ∧
      (stackOf t k).windowAt = t.time.now ∧ (stackOf t k).allBank = 0 ∧ ∀ i, i < 32 → pchOf t (32 * k + i) = windowed s (32 * k + i) ∧
        mget t.hbm.chan (16 * k + i / 2) [] = [] := by
  intro t
  obtain ⟨m, hm⟩ : ∃ m, m = advanceTo s ((stackOf s k).windowAt + msU (stackOf s k).window) := ⟨_, rfl⟩
  have hmnow : m.time.now = max s.time.now ((stackOf s k).windowAt + 90000000 * (stackOf s k).window) := by
    rw [hm, advanceTo_now, usU_window]
  obtain ⟨time, hmonly⟩ := advanceTo_only s ((stackOf s k).windowAt + msU (stackOf s k).window)
  rw [← hm] at hmonly
  have hmhbm : m.hbm = s.hbm := by rw [hmonly]
  obtain ⟨u, hu⟩ : ∃ u : State, u = { m with hbm := { m.hbm with
    chan := m.hbm.chan.filter (fun e => e.1 / 16 != k) } } := ⟨_, rfl⟩
  obtain ⟨v, hv⟩ : ∃ v, v = (List.range 32).foldl (fun s i => windowPch s (32 * k + i)) u := ⟨_, rfl⟩
  have ht : t = setStack v k { stackOf v k with windowAt := v.time.now, allBank := 0 } := by
    change newWindow s k = _
    rw [newWindow]
    dsimp only
    rw [← hm, ← hu, ← hv]
  have hpch (j : Nat) : pchOf u j = pchOf s j := by
    rw [hu, pchOf, pchOf, ← hmhbm]
  have hstk (j : Nat) : stackOf u j = stackOf s j := by
    rw [hu, stackOf, stackOf, ← hmhbm]
  obtain ⟨hall, -, p, honly⟩ := windowPchs_below (s := u) (k := k) (n := 32) fun i hi => by rw [hpch, h i hi]
  rw [← hv] at hall honly
  have hnow : v.time.now = max s.time.now ((stackOf s k).windowAt + 90000000 * (stackOf s k).window) := by
    rw [honly, hu]
    exact hmnow
  have hwindowed (j : Nat) : windowed u j = windowed s j := by
    simp only [windowed, rowsDone, hpch, hstk]
    rfl
  have htnow : t.time.now = v.time.now := by rw [ht]; rfl
  have htstk : stackOf t k = { stackOf v k with windowAt := v.time.now, allBank := 0 } := by rw [ht, stackOf_setStack_same]
  refine ⟨htnow.trans hnow, by rw [htstk, htnow], by rw [htstk], fun i hi => ⟨?_, ?_⟩⟩
  · rw [← hwindowed, ← hall i hi, ht]
    rfl
  · have hchan : t.hbm.chan = s.hbm.chan.filter (fun e => e.1 / 16 != k) := by
      rw [ht]
      change v.hbm.chan = _
      rw [honly, hu, hmhbm]
    rw [hchan, mget, mfind_filter_none fun x => by simp; omega]
    rfl

/-- Settles O43: reads, the refreshes of a bank, the windows of a stack and the sweep. -/
theorem hbmReadsAndRefreshes : Obligations.HbmReadsAndRefreshes := by
  refine ⟨fun s a pc bank row k hplace ha hserves hmedia => ?_, fun s pc bank hserves hbank => ?_, fun s k hserves hdef => ?_,
    fun s hserved => ?_, fun s u hon hsweep => ?_⟩
  · intro p counted
    have hstack : pc / 32 < 4 := by
      have := nStacks_le s
      simp only [stackServes, Bool.and_eq_true, decide_eq_true_eq] at hserves
      omega
    obtain ⟨u, hu⟩ : ∃ u, u = bankTaken s pc bank := ⟨_, rfl⟩
    have hpch : pchOf u pc = p := by rw [hu]; rfl
    have hobj (i b : Nat) : obj u i b = obj s i b := by rw [hu]; rfl
    have hcount : counting u (pc / 32) = counting s (pc / 32) := by rw [hu]; rfl
    have hhbm : u.hbm = s.hbm := by rw [hu]; rfl
    refine ⟨fun hopen => ?_, fun hopen hc => ?_, fun hopen hc => ?_⟩
    · have htaken (o : HbmOutcome) : exec (.hbmReadDone a k o) s = .next (readOutcome u k pc bank row a o) :=
        exec_hbmReadDone_taken hplace ha hserves hmedia (by rw [← hu]; exact activate_open (hpch ▸ hopen) _ _ _)
      refine ⟨?_, ?_, ⟨_, htaken .corrected, ?_⟩, ⟨_, htaken .lasting, ?_⟩⟩
      · rw [htaken, hu]
        rfl
      · rw [htaken, hu]
        rfl
      · obtain ⟨hnumber, hbytes, hbyte⟩ := readOutcome_corrected (s := u) (k := k) (pc := pc) (bank := bank) (row := row) (a := a)
        refine ⟨by rw [hnumber, hobj], by rw [hbytes, hobj], fun b => ?_⟩
        rw [hbyte, hbmByte_eq, hbmByte_eq, hhbm]
      · obtain ⟨hmark, hmem, hretired, hnumber⟩ := readOutcome_lasting u k pc bank row a
        refine ⟨by rw [hmark]; exact mem_insertNat_self _ _, by rw [hmem, hhbm], by rw [hnumber, hobj], fun h => hretired ?_⟩
        rw [stackOf, hhbm]
        exact h.2
    · intro n
      refine ⟨fun hn => ?_, fun hn => ?_⟩
      · have hact := activate_counts (s := u) (a := a) (o := some .good) (by rw [hpch]; exact hopen) (hcount.trans hc) (by rw [hpch, hobj]; exact hn)
        refine ⟨_, exec_hbmReadDone_taken hplace ha hserves hmedia (by rw [← hu]; exact hact), ?_⟩
        rw [readOutcome_good]
        refine ⟨?_, ?_, ?_⟩
        · rw [pchOf_bumpBy, pchOf_openRowOf]
          exact mfind_mset_same _ _ _
        · rw [pchOf_bumpBy, pchOf_openRowOf, pchOf_setPch_same, hpch]
        · rw [obj_bumpBy_same, ← hobj]
          rfl
      · have hact := activate_throttled (s := u) (o := some .good) (by rw [hpch]; exact hopen) (hcount.trans hc) (by rw [hpch, hobj]; exact hn) a
        refine ⟨_, exec_hbmReadDone_deferred hplace ha hserves hmedia (by rw [← hu]; exact hact), ?_, ?_, ?_, ?_⟩
        · rw [pchOf_setPch_same, hpch]
        · rw [pchOf_setPch_same, hpch]
        · rw [← hobj]
          exact obj_bump_same u _ _
        · rw [← hobj]
          exact obj_bump_ne u (by decide) (by decide) (.inr (by decide))
    · have hact := activate_counting (s := u) (by rw [hpch]; exact hopen) (hcount.trans hc) k a (some .good)
      refine ⟨_, exec_hbmReadDone_taken hplace ha hserves hmedia (by rw [← hu]; exact hact), ?_⟩
      have hl : channelCount u pc (bank * 24576 + row) =
          countAct 1024 (mget s.hbm.chan (pc / 2) []) (pc % 2 * 2 ^ 24 + bank * 24576 + row) 0 := by
        rw [channelCount, hhbm, Nat.add_assoc]
      have hj : pc % 2 * 2 ^ 24 + (bank * 24576 + row) = pc % 2 * 2 ^ 24 + bank * 24576 + row := (Nat.add_assoc _ _ _).symm
      rw [readOutcome_good, pchOf_bumpBy, pchOf_openRowOf, pchOf_countChannel, hpch]
      refine ⟨mfind_mset_same _ _ _, rfl, rfl, fun hbelow => ?_, fun habove => ?_⟩
      · rw [countChannel_below row (by rw [hl, hj, hobj]; exact hbelow)]
        refine ⟨?_, ?_⟩
        · rw [← hl]
          exact mget_mset_same _ _ _ _
        · rw [obj_bumpBy_ne _ _ (by decide) (by decide) (.inl (by omega)), ← hobj]
          rfl
      · rw [countChannel_above row (by rw [hl, hj, hobj]; exact habove)]
        refine ⟨?_, ?_⟩
        · rw [← hj]
          refine (congrArg (fun l => actOf l _ 0) (mget_mset_same _ _ _ _)).trans (actOf_cleared _ _ _)
        · rw [obj_bumpBy_ne _ _ (by decide) (by decide) (.inl (by omega)), ← hobj]
          exact obj_bumpBy_same { u with hbm := _ } _ _ _
  · intro refreshes extra
    have hfacts := refreshBank_facts (advanceTo s (groupFrom s pc bank)) pc bank (decide (24576 ≤ rowsDone s pc bank))
    have hnow := advanceTo_now s (groupFrom s pc bank)
    obtain ⟨htime, hmem, hwindow, hopen, hbusy, hmain, hextra⟩ := hfacts
    refine ⟨fun h => ⟨_, exec_hbmRefresh hserves hbank (.inl h), ?_, hopen, ?_, hwindow, hmem, ?_⟩,
      fun h hs hx => ⟨_, exec_hbmRefresh hserves hbank (.inr ⟨hs, hx⟩), ?_, hopen, ?_, hwindow, hmem, ?_⟩, fun h hx => ?_⟩
    · rw [htime, hnow]
    · rw [hbusy, htime]
    · exact hmain (decide_eq_false (Nat.not_le.mpr h))
    · rw [htime, hnow]
    · rw [hbusy, htime]
    · exact hextra (decide_eq_true h)
    · change execHbmRefresh pc bank s = _
      rw [execHbmRefresh, if_neg (by simp [hserves, hbank]), if_pos ?_]
      rcases hx with hx | hx
      · simp [h, hx]
      · simp [h, show 24576 ≤ mget (pchOf s pc).extra bank 0 from hx]
  · obtain ⟨hnow, hat, hall, hpch⟩ := newWindow_facts hdef
    have hexec : exec (.refreshWindowStart k) s = .next (newWindow s k) := if_neg (by simp [hserves])
    refine ⟨_, hexec, hnow, hat, hall, fun i hi => ?_⟩
    obtain ⟨hp, hchan⟩ := hpch i hi
    rw [hp]
    exact ⟨rfl, hchan, rfl, rfl⟩
  · refine ⟨fun hr hs => ⟨_, exec_nrsGo hserved, ?_⟩, fun hsw hr ht => ⟨_, exec_nrsGo hserved, ?_⟩,
      fun hsw ht => ⟨_, exec_nrsGo hserved, ?_⟩, fun k hasks ht => ⟨_, exec_nrsGo hserved, ?_⟩⟩
    · rw [nrsGo_busy hr hs, answered_abort _ (by decide)]
      exact ⟨rfl, rfl⟩
    · obtain ⟨e, he⟩ : ∃ e, e = nrsEnd s := ⟨_, rfl⟩
      have hthree := (nrsEnd_counted s).2
      have hnow : e.time.now = s.time.now := by rw [he]; rfl
      have htest := maintTest_nrsEnd s
      rw [ht] at htest
      have hnone : e.hbm.sweepEnd = none := by rw [he]; rfl
      rw [← he] at hthree htest
      rw [nrsGo_next hsw hr, ← he, nrsGo_accepted hnone htest, answered_ok, ← hnow, ← hthree]
      refine ⟨rfl, rfl, obj_putObj_same _ _ _ _, ?_⟩
      exact (obj_putObj_ne (bump e 0x8000 5) 1 (by decide) (by decide) (.inr (by decide))).trans
        (obj_bump_ne e (by decide) (by decide) (.inl (by decide)))
    · rw [nrsGo_accepted hsw ht, answered_ok]
      exact ⟨rfl, obj_putObj_same (bump s 0x8000 5) _ _ _, rfl⟩
    · obtain ⟨o, c, hrest⟩ := maintRefuse_rest s 3 k
      rw [nrsGo_refused hasks ht]
      refine ⟨rfl, ?_, ?_⟩
      · rw [answered_objs _ _ _ (by decide) (by decide), obj_putObj_same]
      · rw [answered_abort _ (by decide), hrest]
        rfl
  · have hexec : exec .nrsSweepEnd s = .next (nrsEnd (advanceTo s u)) := by
      refine (live_on hon _).trans ?_
      rw [hsweep]
    obtain ⟨hstatus, hpasses⟩ := nrsEnd_counted (advanceTo s u)
    exact ⟨_, hexec, advanceTo_now s u, rfl, hstatus, hpasses⟩

end Sys2Proof.Proofs

/-! What the ring of the scheduling trace leaves of a stack, the ports as the device falls asleep and wakes, and copies within
the HBM (R225, R333 to R337, R388, R390). -/

namespace Sys2Proof.Proofs

open Sys2Proof.Machine Sys2Proof.Claim

/-! ### Writes of the HBM leave the stacks -/

/-- Of the HBM only bytes, marks and counts have changed; besides, clusters and objects may have. -/
structure Written (s t : State) : Prop where
  rest : t = { s with clusters := t.clusters, obj := t.obj, hbm := t.hbm }
  stk : t.hbm.stk = s.hbm.stk

theorem Written.refl (s : State) : Written s s := ⟨rfl, rfl⟩

theorem Written.trans {s t u : State} (h : Written s t) (h' : Written t u) : Written s u := by
  refine ⟨?_, h'.stk.trans h.stk⟩
  have hu := h'.rest
  rw [h.rest] at hu
  exact hu

theorem Written.stackOf {s t : State} (h : Written s t) (k : Nat) : Machine.stackOf t k = Machine.stackOf s k := by
  rw [Machine.stackOf, h.stk]
  rfl

theorem Written.foldl {α : Type} {f : State → α → State} (hf : ∀ s x, Written s (f s x)) (l : List α) (s : State) : Written s (l.foldl f s) :=
  foldl_rel (R := Written) .refl (fun h h' => h.trans h') hf l s

theorem modCluster_written (s : State) (c : Nat) (f : Cluster → Cluster) : Written s (modCluster s c f) := ⟨rfl, rfl⟩
theorem putObj_written (s : State) (i a v : Nat) : Written s (putObj s i a v) := ⟨rfl, rfl⟩
theorem bumpBy_written (s : State) (i a n : Nat) : Written s (bumpBy s i a n) := putObj_written s i a _
theorem bump_written (s : State) (i a : Nat) : Written s (bump s i a) := putObj_written s i a _

theorem hbmWrite_written (s : State) (k : ReqClass) (a : Nat) (bs : List Byte) : Written s (hbmWrite s k a bs) := by
  obtain ⟨o, p, c, h⟩ := countWrite_only s k a bs.length
  refine ⟨?_, ?_⟩
  · obtain ⟨o', h', e⟩ := hbmWrite_only s k a bs
    rw [e]
  · simp [hbmWrite, clearMedia, h]

theorem traceDrain_written (c n : Nat) (s : State) : Written s (traceDrain s c n) := by
  induction n generalizing s with
  | zero => exact .refl s
  | succ n ih =>
    rw [traceDrain]
    dsimp only
    split
    · exact .refl s
    · next b bs _ =>
      split
      · exact ((hbmWrite_written s .sys _ b).trans ((putObj_written _ _ _ _).trans (modCluster_written _ _ _))).trans (ih _)
      · exact .refl s

theorem trace_written (s : State) (c kind n : Nat) (x : Slot) (rp reason : Nat) : Written s (trace s c kind n x rp reason) := by
  have hdrain := traceDrain_written c 64 s
  rw [trace]
  dsimp only
  split
  · exact .refl s
  · split
    · exact (hdrain.trans (modCluster_written _ _ _)).trans (bump_written _ _ _)
    · exact (hdrain.trans (modCluster_written _ _ _)).trans (traceDrain_written c 64 _)

theorem bivouacTrace_written (s : State) (kind reason : Nat) : Written s (bivouacTrace s kind reason) :=
  .foldl (fun s c => (trace_written s c kind 0 {} 0xFF reason).trans (traceDrain_written c 65 _)) _ s

theorem traceFlush_written (s : State) : Written s (traceFlush s) := .foldl (fun s c => traceDrain_written c 64 s) _ s

theorem traceDrain_empty {s : State} {c : Nat} (h : (cluster s c).traceBuf = []) (n : Nat) : traceDrain s c n = s := by
  cases n with
  | zero => rfl
  | succ n => rw [traceDrain, h]

theorem traceFlush_empty {s : State} (h : ∀ c, (cluster s c).traceBuf = []) : traceFlush s = s :=
  foldl_eq_self _ fun c _ => traceDrain_empty (h c) 64

/-- With the trace off and nothing buffered no record is kept. -/
theorem bivouacTrace_off {s : State} (h : ∀ c, obj s (0x4050 + c) 2 % 2 = 0 ∧ (cluster s c).traceBuf = []) (kind reason : Nat) :
    bivouacTrace s kind reason = s :=
  foldl_eq_self _ fun c _ => by
    rw [trace, if_pos (h c).1]
    exact traceDrain_empty (h c).2 65

/-! ### All stacks at once -/

theorem setStacks_below (s : State) (f : Stack → Stack) (n : Nat) :
    let t := (List.range n).foldl (fun s k => setStack s k (f (stackOf s k))) s
    (∃ m, t = { s with hbm := { s.hbm with stk := m } }) ∧ (∀ j, j < n → stackOf t j = f (stackOf s j)) ∧
      ∀ j, n ≤ j → stackOf t j = stackOf s j := by
  induction n with
  | zero => exact ⟨⟨s.hbm.stk, rfl⟩, nofun, fun _ _ => rfl⟩
  | succ n ih =>
    obtain ⟨⟨m, hm⟩, hdone, hleft⟩ := ih
    rw [List.range_succ, List.foldl_append, List.foldl_cons, List.foldl_nil]
    obtain ⟨u, hu⟩ : ∃ u, u = (List.range n).foldl (fun s k => setStack s k (f (stackOf s k))) s := ⟨_, rfl⟩
    rw [← hu] at hm hdone hleft ⊢
    refine ⟨⟨_, by rw [hm]; rfl⟩, fun j hj => ?_, fun j hj => ?_⟩
    · rcases Nat.lt_succ_iff_lt_or_eq.mp hj with hlt | rfl
      · rw [stackOf_setStack_ne _ _ (by omega), hdone j hlt]
      · rw [stackOf_setStack_same, hleft j le_rfl]
    · rw [stackOf_setStack_ne _ _ (by omega), hleft j (by omega)]

/-! ### The ports wake (R390) -/

theorem portAwake_facts (s : State) (lp : Nat) : let t := portAwake s lp
    (∃ p, t = { s with ports := p }) ∧ ((port s lp).link = 3 → (port t lp).link = 2) ∧ ∀ k, k ≠ lp → port t k = port s k := by
  intro t
  have ht : t = if (port s lp).link = 3 then modPort s lp (fun p => { p with link := 2 }) else trainPort s lp := rfl
  rw [ht]
  split
  · exact ⟨⟨_, rfl⟩, fun _ => by rw [port_modPort_same], fun k hk => port_modPort_ne s _ hk⟩
  · next h =>
    refine ⟨trainPort_only s lp, fun h' => absurd h' h, fun k hk => ?_⟩
    rw [trainPort]
    split
    · exact port_modPort_ne s _ hk
    · exact port_modPort_ne s _ hk

/-- The ports below a number have left LPI. -/
theorem portsAwake_below (s : State) (n : Nat) : let t := (List.range n).foldl portAwake s
    (∃ p, t = { s with ports := p }) ∧ (∀ lp, lp < n → (port s lp).link = 3 → (port t lp).link = 2) ∧ ∀ k, n ≤ k → port t k = port s k := by
  induction n with
  | zero => exact ⟨⟨s.ports, rfl⟩, nofun, fun _ _ => rfl⟩
  | succ n ih =>
    obtain ⟨⟨m, hm⟩, hdone, hleft⟩ := ih
    rw [List.range_succ, List.foldl_append, List.foldl_cons, List.foldl_nil]
    obtain ⟨u, hu⟩ : ∃ u, u = (List.range n).foldl portAwake s := ⟨_, rfl⟩
    rw [← hu] at hm hdone hleft ⊢
    obtain ⟨⟨m', hm'⟩, hwakes, hothers⟩ := portAwake_facts u n
    refine ⟨⟨m', by rw [hm', hm]⟩, fun lp hlp h => ?_, fun k hk => ?_⟩
    · rcases Nat.lt_succ_iff_lt_or_eq.mp hlp with hlt | rfl
      · rw [hothers lp (by omega), hdone lp hlt h]
      · exact hwakes (by rw [hleft lp le_rfl, h])
    · rw [hothers k (by omega), hleft k (by omega)]

/-! ### Bytes copied and cleared -/

/-- A byte memory without the cells of some addresses reads 0 at them. -/
theorem rd8_filter (m : List Host.Cell) (p : Nat → Bool) (a : Nat) :
    rd8 (m.filter (fun c => p c.1)) a = if p a then rd8 m a else 0 := by
  simp only [rd8, mget]
  split
  · next h =>
    congr 1
    induction m with
    | nil => rfl
    | cons e m ih =>
      rw [List.filter_cons]
      obtain ⟨j, y⟩ := e
      by_cases hj : j = a
      · rw [if_pos (by rw [hj]; exact h), mfind, mfind, if_pos hj, if_pos hj]
      · rw [mfind, if_neg hj, ← ih]
        split
        · rw [mfind, if_neg hj]
        · rfl
  · next h => rw [mfind_filter_none (p := fun c => p c.1) fun x => Bool.eq_false_iff.mpr h]; rfl

/-- Cells of one range laid down at another, over a memory that lists none there. -/
theorem rd8_moved {src dst : Nat} {l : List Host.Cell} (hl : keysRise l = true) (hsrc : ∀ e ∈ l, src ≤ e.1) (m : List Host.Cell) (b : Nat) :
    rd8 (l.foldl (fun m c => wr8 m (dst + (c.1 - src)) c.2) m) b =
      if dst ≤ b then (mfind l (src + (b - dst))).getD (rd8 m b) else rd8 m b := by
  induction l generalizing m with
  | nil =>
    split
    · rfl
    · rfl
  | cons e l ih =>
    obtain ⟨a, v⟩ := e
    have ha : src ≤ a := hsrc (a, v) List.mem_cons_self
    rw [List.foldl_cons, ih (keysRise_tail hl) fun e he => hsrc e (List.mem_cons_of_mem _ he)]
    split
    · next h =>
      rw [mfind]
      split
      · next hab =>
        have hnone : mfind l (src + (b - dst)) = none := by
          cases hf : mfind l (src + (b - dst)) with
          | none => rfl
          | some x => exact absurd (keysRise_lt hl _ (mem_of_mfind hf)) (by omega)
        rw [hnone, show dst + (a - src) = b by omega]
        exact rd8_wr8_same m b v
      · next hab => rw [rd8_wr8_ne _ _ (by omega)]
    · next h => rw [rd8_wr8_ne _ _ (by omega)]

theorem copyHbm_only (s : State) (src dst len : Nat) : ∃ m l, copyHbm s src dst len = { s with hbm := { s.hbm with mem := m, media := l } } :=
  ⟨_, _, rfl⟩

/-- What a copy within the HBM leaves at each address. -/
theorem rd8_copyHbm {s : State} (h : cellsWf s.hbm.mem = true) (src dst len b : Nat) : rd8 (copyHbm s src dst len).hbm.mem b =
    if dst ≤ b ∧ b < dst + len then rd8 s.hbm.mem (src + (b - dst)) else rd8 s.hbm.mem b := by
  obtain ⟨from_, hfrom⟩ : ∃ l, l = s.hbm.mem.filter (fun c => (fun a => decide (src ≤ a) && decide (a < src + len)) c.1) := ⟨_, rfl⟩
  obtain ⟨kept, hkept⟩ : ∃ l, l = s.hbm.mem.filter (fun c => (fun a => !(decide (dst ≤ a) && decide (a < dst + len))) c.1) := ⟨_, rfl⟩
  have hmem : (copyHbm s src dst len).hbm.mem = from_.foldl (fun m c => wr8 m (dst + (c.1 - src)) c.2) kept := by rw [hfrom, hkept]; rfl
  have hrise : keysRise from_ = true := by
    rw [hfrom]
    exact keysRise_filter _ (by simpa [cellsWf] using And.left (by simpa [cellsWf] using h))
  have hread (a : Nat) : (mfind from_ a).getD 0 = if src ≤ a ∧ a < src + len then rd8 s.hbm.mem a else 0 := by
    have := rd8_filter s.hbm.mem (fun a => decide (src ≤ a) && decide (a < src + len)) a
    rw [← hfrom] at this
    simpa [rd8, mget] using this
  have hstays : rd8 kept b = if dst ≤ b ∧ b < dst + len then 0 else rd8 s.hbm.mem b := by
    rw [hkept, rd8_filter s.hbm.mem (fun a => !(decide (dst ≤ a) && decide (a < dst + len))) b]
    by_cases hb : dst ≤ b ∧ b < dst + len
    · rw [if_pos hb, if_neg (by simp [hb])]
    · rw [if_neg hb, if_pos (by simp; omega)]
  rw [hmem, rd8_moved hrise (fun e he => by
    rw [hfrom] at he
    simpa using And.left (by simpa using (List.mem_filter.mp he).2)), hstays]
  by_cases hb : dst ≤ b ∧ b < dst + len
  · rw [if_pos hb.1, if_pos hb, if_pos hb, hread, if_pos (by omega)]
  · rw [if_neg hb, if_neg hb]
    split
    · next hd =>
      have hnone : mfind from_ (src + (b - dst)) = none := by
        rw [hfrom]
        exact mfind_filter_none fun x => by simp; omega
      rw [hnone]
      rfl
    · rfl

theorem hbmByte_none {s : State} (h : s.hbm.save = none) (a : Nat) : hbmByte s a = rd8 s.hbm.mem a := by rw [hbmByte_eq, h]

end Sys2Proof.Proofs

/-! Self-refresh, the in-service test of a stack, the rebuild of its pair's copies, and training (R332 to R337, R388 to R390,
R401). -/

namespace Sys2Proof.Proofs

open Sys2Proof.Machine Sys2Proof.Claim

/-! ### Into self-refresh and out of it -/

/-- A request that comes while the ports go to LPI ends the entry. -/
theorem entryAborts_facts (s : State) : let t := entryAborts s
    t.pwr.state = 0 ∧ t.pwr.idleSince = some s.time.now ∧ t.obj = s.obj ∧ t.sys = s.sys ∧
      (∀ j, j < nStacks s.sys → stackOf t j = { stackOf s j with pendingSr := false }) ∧
      ∀ lp, lp < lps s → (port s lp).link = 3 → (port t lp).link = 2 := by
  intro t
  obtain ⟨⟨m, hm⟩, hstk, -⟩ := setStacks_below s (fun x => { x with pendingSr := false }) (nStacks s.sys)
  obtain ⟨u, hu⟩ : ∃ u, u = (List.range (nStacks s.sys)).foldl (fun s k => setStack s k { stackOf s k with pendingSr := false }) s := ⟨_, rfl⟩
  rw [← hu] at hm hstk
  obtain ⟨v, hv⟩ : ∃ v : State, v = { u with pwr := { u.pwr with state := 0, wakeSrc := none, idleSince := some u.time.now } } := ⟨_, rfl⟩
  obtain ⟨w, hw⟩ : ∃ w, w = (List.range (lps v)).foldl portAwake v := ⟨_, rfl⟩
  have ht : t = enterPorts w := by rw [hw, hv, hu]; rfl
  obtain ⟨⟨p, hp⟩, hlink, -⟩ := portsAwake_below v (lps v)
  rw [← hw] at hp hlink
  have hentered := (enterPorts_below w (lps w)).1
  change Entered w (enterPorts w) at hentered
  rw [← ht] at hentered
  have htw : t = { w with ports := t.ports } := hentered.rest
  refine ⟨by rw [htw, hp, hv], by rw [htw, hp, hv, hm], by rw [htw, hp, hv, hm], by rw [htw, hp, hv, hm], fun j hj => ?_, fun lp hlp h => ?_⟩
  · have hhbm : t.hbm = u.hbm := by rw [htw, hp, hv]
    rw [stackOf, hhbm]
    exact hstk j hj
  · rw [hentered.link]
    have hports : v.ports = s.ports := by rw [hv, hm]
    refine hlink lp (by rw [lps, hv, hm]; exact hlp) ?_
    rw [port, hports]
    exact h

theorem powerOff_facts {s : State} (h : ∀ c, obj s (0x4050 + c) 2 % 2 = 0 ∧ (cluster s c).traceBuf = []) : let t := powerOff s
    t.hbm.stk = s.hbm.stk ∧ t.hbm.pch = s.hbm.pch ∧ t.sys = { s.sys with wakeOut := false } ∧ t.pwr.off = true ∧
      t.hbm.save = some { base := inForce s 0x7000 0x0A, parts := clusters s, seed := s.free } := by
  intro t
  have ht : t = modPwr { loseUnsaved (saveState s) with sys := { s.sys with wakeOut := false } } (fun p => { p with off := true }) := by
    change powerOff s = _
    rw [powerOff, bivouacTrace_off h]
    rfl
  rw [ht]
  exact ⟨rfl, rfl, rfl, rfl, rfl⟩

theorem entryDone_facts (s : State) : let t := entryDone s
    t.hbm = s.hbm ∧ t.pwr.off = s.pwr.off ∧ (t.sys = s.sys ∨ t.pwr.state = 3) := by
  intro t
  obtain ⟨u, hu⟩ : ∃ u, u = cairn (bump s 0x7000 0x0D) 0x0A 2 0 [] := ⟨_, rfl⟩
  have hrest := (cairn_logged (bump s 0x7000 0x0D) 0x0A 2 0 []).rest
  rw [← hu] at hrest
  have ht : t = entryDone s := rfl
  rw [entryDone, ← hu] at ht
  cases hw : u.pwr.wakeSrc with
  | none =>
    rw [hw] at ht
    rw [ht]
    exact ⟨by rw [hrest]; rfl, by rw [hrest]; rfl, .inl (by rw [hrest]; rfl)⟩
  | some n =>
    rw [hw] at ht
    rw [ht]
    exact ⟨by rw [hrest]; rfl, by rw [hrest]; rfl, .inr rfl⟩

theorem closeStack_facts (s : State) (k : Nat) : let t := closeStack s k
    stackOf t k = { stackOf s k with state := 4, pendingSr := false, allBank := (stackOf s k).allBank + 1 } ∧
      (∀ pc, pc / 32 = k → (pchOf t pc).openRow = []) ∧ t.hbm.mem = s.hbm.mem ∧ t.hbm.save = s.hbm.save ∧ t.pwr = s.pwr ∧ t.sys = s.sys := by
  refine ⟨stackOf_setStack_same _ _ _, fun pc hpc => ?_, rfl, rfl, rfl, rfl⟩
  change (mget (s.hbm.pch.map (fun e => if e.1 / 32 = k then (e.1, { e.2 with openRow := [] }) else e)) pc {}).openRow = []
  rw [mget]
  induction s.hbm.pch with
  | nil => rfl
  | cons e l ih =>
    obtain ⟨j, x⟩ := e
    rw [List.map_cons]
    by_cases hj : j = pc
    · rw [if_pos (by rw [hj]; exact hpc), mfind, if_pos hj]
      rfl
    · split
      · rw [mfind, if_neg hj]
        exact ih
      · rw [mfind, if_neg hj]
        exact ih

/-- No access waits for a window of the stack. -/
theorem waitsWindow_none {s : State} (h : ∀ e ∈ s.hbm.pch, e.2.deferred = []) (k : Nat) : waitsWindow s k = false := by
  rw [waitsWindow, List.any_eq_false]
  intro e he
  rw [h e he]
  simp

theorem drainWaits_none {s : State} {k : Nat} (h : waitsWindow s k = false) (n : Nat) : drainWaits s k n = s := by
  cases n with
  | zero => rfl
  | succ n => rw [drainWaits, if_neg (by rw [h]; decide)]

/-- A stack at which nothing waits enters self-refresh. -/
theorem exec_selfRefreshEntry {s : State} {k : Nat} (hs : started s = true) (hp : (stackOf s k).pendingSr = true)
    {u : State} (hu : u = if s.pwr.off then s else powerOff s) (h : ∀ e ∈ u.hbm.pch, e.2.deferred = []) :
    exec (.selfRefreshEntry k false) s = .next (if (List.range (nStacks (closeStack u k).sys)).any (fun j => (stackOf (closeStack u k) j).pendingSr)
      then closeStack u k else entryDone (closeStack u k)) := by
  change execSelfRefreshEntry k false s = _
  rw [execSelfRefreshEntry, if_neg (by rw [hs, hp]; decide), if_neg Bool.false_ne_true]
  dsimp only
  rw [← hu, drainWaits_none (waitsWindow_none h k), if_neg (by rw [waitsWindow_none h k]; decide)]

theorem nsU_1200 : nsU 1200 = 108000 := rfl

theorem wakeUp_facts (s : State) : let t := wakeUp s
    t.time = s.time ∧ t.hbm = s.hbm ∧ t.plan = s.plan ∧ t.pwr.state = 0 ∧ t.pwr.off = false ∧
      ∀ lp, lp < lps s → (port s lp).link = 3 → (port t lp).link = 2 := by
  intro t
  obtain ⟨u, hu⟩ : ∃ u, u = modPwr s (fun p => { p with state := 0, off := false, idleSince := some s.time.now }) := ⟨_, rfl⟩
  have ht : t = (List.range (lps u)).foldl portAwake u := by rw [hu]; rfl
  obtain ⟨⟨p, hp⟩, hlink, -⟩ := portsAwake_below u (lps u)
  rw [← ht] at hp hlink
  have hports : u.ports = s.ports := by rw [hu]; rfl
  refine ⟨by rw [hp, hu]; rfl, by rw [hp, hu]; rfl, by rw [hp, hu]; rfl, by rw [hp, hu]; rfl, by rw [hp, hu]; rfl, fun lp hlp h => ?_⟩
  refine hlink lp (by rw [lps, hu]; exact hlp) ?_
  rw [port, hports]
  exact h

/-- The end of the exit leaves time, power, stacks and links. -/
theorem wakeEnd_facts (s : State) : let t := wakeEnd s
    t.time = s.time ∧ t.pwr = s.pwr ∧ (∀ k, stackOf t k = stackOf s k) ∧ ∀ lp, (port t lp).link = (port s lp).link := by
  intro t
  obtain ⟨u, hu⟩ : ∃ u, u = (List.range (clusters s)).foldl (fun s c => modCluster s c (fun x => { x with beatAt := s.time.now })) s := ⟨_, rfl⟩
  have hbeats : Written s u := by
    rw [hu]
    exact .foldl (fun s c => modCluster_written s c _) _ s
  obtain ⟨v, hv⟩ : ∃ v, v = bivouacTrace u 8 (obj s 0x7000 0x0E) := ⟨_, rfl⟩
  have hwritten : Written s v := hbeats.trans (hv ▸ bivouacTrace_written u 8 _)
  obtain ⟨w, hw⟩ : ∃ w, w = enterPorts v := ⟨_, rfl⟩
  have hentered : Entered v w := hw ▸ (enterPorts_below v (lps v)).1
  have ht : t = cairn w 0x0A 3 0 (toLE 1 (obj s 0x7000 0x0E)) := by
    change wakeEnd s = _
    rw [hw, hv, hu]
    rfl
  have hlog := (cairn_logged w 0x0A 3 0 (toLE 1 (obj s 0x7000 0x0E))).rest
  rw [← ht] at hlog
  have hports : t.ports = w.ports := by rw [hlog]
  refine ⟨?_, ?_, fun k => ?_, fun lp => ?_⟩
  · rw [hlog, hentered.rest, hwritten.rest]
  · rw [hlog, hentered.rest, hwritten.rest]
  · rw [← hwritten.stackOf, stackOf, hlog, hentered.rest]
    rfl
  · have hportv : v.ports = s.ports := by rw [hwritten.rest]
    rw [port, hports, ← port, hentered.link, port, hportv, ← port]

/-- With the plan's events all fired none is held. -/
theorem fireHeld_none {s : State} (h : s.plan.events.length ≤ s.plan.next) : fireHeld s = s :=
  firePassed_of_none _ _ _ fun e he => by
    rw [headEvent, List.getElem?_eq_none h] at he
    split at he
    · exact absurd he nofun
    · exact absurd he nofun

theorem exec_selfRefreshExit {s : State} {k : Nat} (hs : started s = true) (hp : s.pwr.state = 3) (hx : (stackOf s k).state = 4)
    {u : State} (hu : u = setStack (advance s 108000) k { stackOf s k with state := 2 }) : exec (.selfRefreshExit k) s =
      .next (if (List.range (nStacks u.sys)).any (fun j => (stackOf u j).state == 4) then u else wakeEnd (fireHeld (wakeUp u))) := by
  change execSelfRefreshExit k s = _
  rw [execSelfRefreshExit]
  dsimp only
  rw [if_neg (by rw [hs, hp, hx]; decide), nsU_1200, ← hu]
  split
  · rfl
  · rfl

/-! ### The in-service test (R335 to R337) -/

theorem exec_hbmTestGo {s : State} (h : Served s 0x5020) : exec .hbmTestGo s = .next (answered (hbmTestGo s)) := by
  have hpage : page s.sys 0x5020 = some (5, [rw 1 .u8 0 (.range 0 3), wo 2 .bool, ro 3 .u8, ro 4 .u32, ro 5 .bool]) := by
    have := nStacks_le s
    change pageHbm s.sys 0x5020 = _
    rw [pageHbm, if_neg (by decide), if_neg (by omega)]
  exact put_command (idx := 0x5020) (sub := 2) h hpage rfl rfl (by decide)

/-- The other pair does not serve, or a test or a rebuild runs. -/
def testBlocked (s : State) : Bool :=
  let mate := 2 * (1 - obj s 0x5020 1 / 2)
  (stackOf s mate).state != 2 || (stackOf s (mate + 1)).state != 2 || s.hbm.test.isSome || s.hbm.rebuild.isSome

theorem hbmTestGo_blocked {s : State} (ha : absent s = false) (hs : serviceState s = 1) (h : testBlocked s = true) :
    hbmTestGo s = (putObj s 0x5020 3 2, abState, 0) := by
  rw [testBlocked] at h
  rw [hbmTestGo, if_neg (by rw [ha]; decide)]
  exact if_pos (by rw [hs]; exact h)

/-- A test that the arbiter is asked for. -/
theorem hbmTestGo_refused {s : State} {c : Nat} (ha : absent s = false) (h : serviceState s ≠ 1) (ht : maintTest s 2 (obj s 0x4820 1) = some c) :
    hbmTestGo s = (putObj (maintRefuse s 2 c) 0x5020 3 3, abMaint, c) := by
  rw [hbmTestGo, if_neg (by rw [ha]; decide), if_neg (by simp [h]), maintStart_refused ht]

/-- The stack chosen is under test. -/
def underTest (s : State) (k : Nat) : State :=
  let t := setStack (putObj s 0x5020 3 0xFF) k { stackOf s k with state := 3 }
  { t with hbm := { t.hbm with test := some k, testFrom := t.time.now } }

theorem hbmTestGo_accepted {s : State} (ha : absent s = false) (h : testBlocked s = false) (ht : maintTest s 2 (obj s 0x4820 1) = none) :
    hbmTestGo s = ackOk (underTest (bump s 0x8000 5) (obj s 0x5020 1)) := by
  have hpasses : ¬(serviceState s == 1 && testBlocked s) = true := by rw [h]; simp
  rw [testBlocked] at hpasses
  rw [hbmTestGo, if_neg (by rw [ha]; decide)]
  refine (if_neg hpasses).trans ?_
  rw [maintStart_accepted ht]
  rfl

theorem testTime : msU 1179 + usU 648 = 106168320000 := by norm_num [msU, usU]

theorem markRow_only (s : State) (pc bank row : Nat) : ∃ l, markRow s pc bank row = { s with hbm := { s.hbm with media := l } } := ⟨_, rfl⟩

/-- What a row's test leaves: the bytes, time, and the retired rows where it adds none; a row that it retires fails the test. -/
theorem testedRow_facts (s : State) (k : Nat) (r : RowTest) : let t := testedRow s k r
    t.hbm.mem = s.hbm.mem ∧ t.time = s.time ∧ t.hbm.test = s.hbm.test ∧
      (r.again = true → retires s (32 * k + r.pch % 32) r.bank r.row = true → obj t 0x5020 3 = 1) ∧
      ((r.again && retires s (32 * k + r.pch % 32) r.bank r.row) = false → obj t 0x5020 3 = obj s 0x5020 3 ∧ stackOf t k = stackOf s k) := by
  intro t
  have hk : (32 * k + r.pch % 32) / 32 = k := by omega
  cases hr : r.again with
  | false =>
    have ht : t = bump s 0x5000 0x0E := by
      change testedRow s k r = _
      rw [testedRow, if_neg (by rw [hr]; decide)]
    rw [ht]
    exact ⟨rfl, rfl, rfl, nofun, fun _ => ⟨obj_bump_ne s (by decide) (by decide) (.inl (by decide)), rfl⟩⟩
  | true =>
    obtain ⟨u, hu⟩ : ∃ u, u = if (stackOf s k).retired.contains (32 * k + r.pch % 32, r.bank, r.row) then s
      else if retires s (32 * k + r.pch % 32) r.bank r.row then bump32 (putObj (retireRow s (32 * k + r.pch % 32) r.bank r.row) 0x5020 3 1) 0x5020 4
      else bump32 (markRow s (32 * k + r.pch % 32) r.bank r.row) 0x5020 4 := ⟨_, rfl⟩
    have ht : t = cairn u 8 1 3 (rowData (32 * k + r.pch % 32) r.bank r.row) := by
      change testedRow s k r = _
      rw [testedRow]
      dsimp only
      rw [if_pos hr, ← hu]
    have hlog := cairn_logged u 8 1 3 (rowData (32 * k + r.pch % 32) r.bank r.row)
    rw [← ht] at hlog
    have hobj : obj t 0x5020 3 = obj u 0x5020 3 := hlog.obj (by decide) (.inl (by decide))
    have hhbm : t.hbm = u.hbm := by rw [hlog.rest]
    have hstk : stackOf t k = stackOf u k := by rw [stackOf, hhbm, ← stackOf]
    have htime : t.time = u.time := by rw [hlog.rest]
    rw [hobj, hstk, hhbm, htime]
    by_cases hin : (stackOf s k).retired.contains (32 * k + r.pch % 32, r.bank, r.row) = true
    · rw [if_pos hin] at hu
      rw [hu]
      have hnot : retires s (32 * k + r.pch % 32) r.bank r.row = false := by
        rw [retires, hk, hin]
        exact Bool.and_false _
      exact ⟨rfl, rfl, rfl, fun _ h => absurd h (by rw [hnot]; decide), fun _ => ⟨rfl, rfl⟩⟩
    · rw [if_neg hin] at hu
      by_cases hre : retires s (32 * k + r.pch % 32) r.bank r.row = true
      · rw [if_pos hre] at hu
        obtain ⟨stk, c, hrow⟩ := retireRow_only s (32 * k + r.pch % 32) r.bank r.row
        rw [hrow] at hu
        rw [hu]
        refine ⟨rfl, rfl, rfl, fun _ _ => ?_, fun h => absurd hre (by simpa using h)⟩
        rw [bump32, obj_putObj_ne _ _ (by decide) (by decide) (.inr (by decide)), obj_putObj_same]
      · obtain ⟨l, hmarked⟩ := markRow_only s (32 * k + r.pch % 32) r.bank r.row
        rw [if_neg hre, hmarked] at hu
        rw [hu]
        refine ⟨rfl, rfl, rfl, fun _ h => absurd h hre, fun _ => ⟨?_, rfl⟩⟩
        rw [bump32, obj_putObj_ne _ _ (by decide) (by decide) (.inr (by decide))]
        rfl

/-- A test fails where a row of it enters the list of retired ones. -/
theorem testedRows_facts (k : Nat) (rows : List RowTest) (s : State) : let t := rows.foldl (fun s r => testedRow s k r) s
    t.hbm.mem = s.hbm.mem ∧ t.time = s.time ∧ t.hbm.test = s.hbm.test ∧ obj t 0x5020 3 =
      if rows.any (fun r => r.again && retires s (32 * k + r.pch % 32) r.bank r.row) then 1 else obj s 0x5020 3 := by
  induction rows generalizing s with
  | nil => exact ⟨rfl, rfl, rfl, rfl⟩
  | cons r rows ih =>
    obtain ⟨hmem, htime, htest, hfails, hpasses⟩ := testedRow_facts s k r
    obtain ⟨hmem', htime', htest', hstatus⟩ := ih (testedRow s k r)
    refine ⟨hmem'.trans hmem, htime'.trans htime, htest'.trans htest, hstatus.trans ?_⟩
    rw [List.any_cons]
    cases hr : r.again && retires s (32 * k + r.pch % 32) r.bank r.row with
    | true =>
      rw [Bool.and_eq_true] at hr
      rw [hfails hr.1 hr.2, Bool.true_or]
      split
      · rfl
      · rfl
    | false =>
      obtain ⟨hobj, hstk⟩ := hpasses hr
      have hretires (q : RowTest) : retires (testedRow s k r) (32 * k + q.pch % 32) q.bank q.row = retires s (32 * k + q.pch % 32) q.bank q.row := by
        rw [retires, retires, show (32 * k + q.pch % 32) / 32 = k by omega, hstk]
      simp only [hretires, hobj, Bool.false_or]

/-! ### The rebuild (R337) -/

/-- The bytes of a rebuild of pair `p`'s copies are counted. -/
def rebuildCounted (p : Nat) (s : State) : State :=
  let half := (2 ^ 31 + 2 ^ 28) / 2
  [0, 1].foldl (fun s i => bumpBy (bumpBy s (0x5010 + 2 * (1 - p) + i) 6 half) (0x5010 + 2 * p + i) 7 half) s

/-- The stacks of a pair serve again. -/
def stacksBack (p : Nat) (s : State) : State :=
  [2 * p, 2 * p + 1].foldl (fun s k => if (stackOf s k).state = 6 then setStack s k { stackOf s k with state := 2 } else s) s

theorem rebuildCounted_only (p : Nat) (s : State) : ∃ o, rebuildCounted p s = { s with obj := o } := by
  rw [rebuildCounted]
  exact ⟨_, rfl⟩

theorem stackBack_facts (s : State) (k : Nat) : let t := if (stackOf s k).state = 6 then setStack s k { stackOf s k with state := 2 } else s
    (∃ m, t = { s with hbm := { s.hbm with stk := m } }) ∧ ((stackOf s k).state = 6 → (stackOf t k).state = 2) ∧
      ∀ j, j ≠ k → stackOf t j = stackOf s j := by
  dsimp only
  split
  · exact ⟨⟨_, rfl⟩, fun _ => by rw [stackOf_setStack_same], fun j hj => stackOf_setStack_ne _ _ (Ne.symm hj)⟩
  · next h => exact ⟨⟨s.hbm.stk, rfl⟩, fun h' => absurd h' h, fun _ _ => rfl⟩

theorem stacksBack_facts (p : Nat) (s : State) : let t := stacksBack p s
    (∃ m, t = { s with hbm := { s.hbm with stk := m } }) ∧ ((stackOf s (2 * p)).state = 6 → (stackOf t (2 * p)).state = 2) := by
  obtain ⟨⟨m, hm⟩, hback, -⟩ := stackBack_facts s (2 * p)
  obtain ⟨u, hu⟩ : ∃ u, u = if (stackOf s (2 * p)).state = 6 then setStack s (2 * p) { stackOf s (2 * p) with state := 2 } else s := ⟨_, rfl⟩
  rw [← hu] at hm hback
  obtain ⟨⟨m', hm'⟩, -, hothers⟩ := stackBack_facts u (2 * p + 1)
  intro t
  have ht : t = if (stackOf u (2 * p + 1)).state = 6 then setStack u (2 * p + 1) { stackOf u (2 * p + 1) with state := 2 } else u := by
    change stacksBack p s = _
    rw [stacksBack, List.foldl_cons, List.foldl_cons, List.foldl_nil, ← hu]
  rw [← ht] at hm' hothers
  exact ⟨⟨m', by rw [hm', hm]⟩, fun h => by rw [hothers _ (by omega)]; exact hback h⟩

theorem exec_rebuildDone {s : State} (hon : on s = true) (h : s.hbm.rebuild = some 0) {u v : State}
    (hu : u = copyHbm (copyHbm s s.hbm.mapBaseB s.hbm.mapBaseA (2 ^ 31)) s.hbm.ruleBaseB s.hbm.ruleBaseA (2 ^ 28))
    (hv : v = stacksBack 0 (rebuildCounted 0 u)) :
    exec .rebuildDone s = .next (traceFlush (stir { v with hbm := { v.hbm with rebuild := none } })) := by
  refine (live_on hon _).trans ?_
  rw [h]
  dsimp only
  rw [if_pos rfl, ← hu]
  rw [stacksBack, rebuildCounted] at hv
  rw [hv]

/-! ### Training (R332) -/

theorem zeroStack_only (s : State) (k : Nat) : ∃ m l, zeroStack s k = { s with hbm := { s.hbm with mem := m, media := l } } := ⟨_, _, rfl⟩

theorem clearRetired_facts (s : State) (k : Nat) : let t := clearRetired s k
    stackOf t k = { stackOf s k with retired := [] } ∧ ∃ m c, t = { s with hbm := { s.hbm with stk := m }, cairn := c } := by
  intro t
  by_cases h : (stackOf s k).retired.isEmpty = true
  · have ht : t = s := if_pos h
    rw [List.isEmpty_iff] at h
    rw [ht]
    exact ⟨by rw [← h], s.hbm.stk, s.cairn, rfl⟩
  · have ht : t = paramAppend (setStack s k { stackOf s k with retired := [] }) (stackEntry k) := if_neg h
    rw [ht]
    exact ⟨stackOf_setStack_same _ _ _, _, _, rfl⟩

theorem rd8_zeroStack (s : State) (k b : Nat) :
    rd8 (zeroStack s k).hbm.mem b = if (hbmPlace s b).1 / 32 = k then 0 else rd8 s.hbm.mem b := by
  refine (rd8_filter s.hbm.mem (fun a => (hbmPlace s a).1 / 32 != k) b).trans ?_
  by_cases h : (hbmPlace s b).1 / 32 = k
  · rw [if_pos h, if_neg (by simp [h])]
  · rw [if_neg h, if_pos (by simp [h])]

section
variable {s : State} {k : Nat} (hp : s.sys.phase = .starting) (hs : started s = true) (hk : k < nStacks s.sys)
  (hx : (stackOf s k).state = 1)
include hp hs hk hx

theorem exec_hbmTrainingDone_ok {u : State} (hu : u = clearRetired (zeroStack s k) k) : exec (.hbmTrainingDone k true) s =
    .next (traceFlush (setStack u k { stackOf u k with state := 2, windowAt := u.time.now })) := by
  change execHbmTrainingDone k true s = _
  rw [execHbmTrainingDone]
  dsimp only
  rw [if_neg (by rw [hp, hs, hx]; simp [hk]), if_pos rfl, hu]

theorem exec_hbmTrainingDone_failed : exec (.hbmTrainingDone k false) s = .next (if (stackOf s k).tried then
      cairn (setStack (bump32 s (0x5010 + k) 5) k { stackOf s k with state := 5 }) 8 2 3 (toLE 1 k)
    else setStack (bump32 s (0x5010 + k) 5) k { stackOf s k with tried := true }) := by
  change execHbmTrainingDone k false s = _
  rw [execHbmTrainingDone]
  dsimp only
  rw [if_neg (by rw [hp, hs, hx]; simp [hk]), if_neg Bool.false_ne_true]
  split
  · rfl
  · rfl

end

/-- Where the bytes of pair 0's copies come from: the map's from pair 1's map, the rule table's from pair 1's rule table. -/
theorem rebuiltByte (m : Nat → Byte) (b : Nat) :
    (if 0xC0000000 ≤ b ∧ b < 0xC0000000 + 2 ^ 28 then
      (if 0 ≤ 0x12C0000000 + (b - 0xC0000000) ∧ 0x12C0000000 + (b - 0xC0000000) < 0 + 2 ^ 31 then
        m (0x1200000000 + (0x12C0000000 + (b - 0xC0000000) - 0)) else m (0x12C0000000 + (b - 0xC0000000)))
      else if 0 ≤ b ∧ b < 0 + 2 ^ 31 then m (0x1200000000 + (b - 0)) else m b) =
    if b < 2 ^ 31 then m (0x1200000000 + b) else if 0xC0000000 ≤ b ∧ b < 0xD0000000 then m (0x1200000000 + b) else m b := by
  by_cases hrule : 0xC0000000 ≤ b ∧ b < 0xC0000000 + 2 ^ 28
  · rw [if_pos hrule, if_neg (by omega), if_neg (by omega), if_pos (by omega), show 0x12C0000000 + (b - 0xC0000000) = 0x1200000000 + b by omega]
  · rw [if_neg hrule]
    by_cases hmap : b < 2 ^ 31
    · rw [if_pos (by omega), if_pos hmap, Nat.sub_zero]
    · rw [if_neg (by omega), if_neg hmap, if_neg (by omega)]

/-! ### The obligation -/

/-- Settles O44: self-refresh, the test and the rebuild, and training. -/
theorem stacksSleepTestAndTrain : Obligations.StacksSleepTestAndTrain := by
  refine ⟨fun s k hs => ?_, fun s hserved ha => ?_, fun s k rows hon ht => ?_, fun s hon htrace hsave hre hwf hma hmb hra hrb => ?_, fun s k hp hs hk => ?_⟩
  · intro x last untraced
    refine ⟨fun hpend hk => ⟨fun hoff => ?_, fun hoff => ?_, fun hdef hquiet => ?_⟩, fun hstate hx hk => ⟨fun hlast => ?_, fun hlast hplan => ?_⟩⟩
    · change execSelfRefreshEntry k true s = _
      rw [execSelfRefreshEntry, if_neg (by rw [hs, hpend]; decide), if_pos rfl, if_pos hoff]
    · have hexec : exec (.selfRefreshEntry k true) s = .next (entryAborts (bump s 0x5000 0x12)) := by
        change execSelfRefreshEntry k true s = _
        rw [execSelfRefreshEntry, if_neg (by rw [hs, hpend]; decide), if_pos rfl, if_neg (by rw [hoff]; decide)]
      obtain ⟨hpwr, hidle, hobj, hsys, hstk, hlink⟩ := entryAborts_facts (bump s 0x5000 0x12)
      exact ⟨_, hexec, hpwr, hidle, (obj_congr hobj hsys _ _).trans (obj_bump_same s _ _), hstk, hlink⟩
    · obtain ⟨u, hu⟩ : ∃ u, u = if s.pwr.off then s else powerOff s := ⟨_, rfl⟩
      have hoff : s.pwr.off = false → u = powerOff s ∧ untraced := fun h => ⟨by rw [hu, h]; rfl, hquiet.resolve_left (by rw [h]; decide)⟩
      have hon : s.pwr.off = true → u = s := fun h => by rw [hu, h]; rfl
      have hkept : u.hbm.stk = s.hbm.stk ∧ u.hbm.pch = s.hbm.pch ∧ u.pwr.off = true := by
        cases h : s.pwr.off with
        | true =>
          rw [hon h]
          exact ⟨rfl, rfl, h⟩
        | false =>
          obtain ⟨hpow, hun⟩ := hoff h
          obtain ⟨hstk, hpch, -, hpwr, -⟩ := powerOff_facts hun
          rw [hpow]
          exact ⟨hstk, hpch, hpwr⟩
      obtain ⟨hstk, hpch, hpwr⟩ := hkept
      have hx : stackOf u k = x := by rw [stackOf, hstk]; rfl
      obtain ⟨hclosed, hrows, hmem, hsave, hcpwr, hcsys⟩ := closeStack_facts u k
      obtain ⟨t, ht⟩ : ∃ t, t = if (List.range (nStacks (closeStack u k).sys)).any (fun j => (stackOf (closeStack u k) j).pendingSr)
        then closeStack u k else entryDone (closeStack u k) := ⟨_, rfl⟩
      have hend : t.hbm = (closeStack u k).hbm ∧ t.pwr.off = (closeStack u k).pwr.off ∧ (t.sys = (closeStack u k).sys ∨ t.pwr.state = 3) := by
        rw [ht]
        split
        · exact ⟨rfl, rfl, .inl rfl⟩
        · exact entryDone_facts _
      obtain ⟨hthbm, htoff, htsys⟩ := hend
      have hexec := exec_selfRefreshEntry hs hpend hu (by rw [hpch]; exact hdef)
      rw [← ht] at hexec
      refine ⟨t, hexec, ?_, fun pc hpc => ?_, ?_, fun h => ?_, fun h => ?_, fun h => ?_⟩
      · rw [stackOf, hthbm, ← stackOf, hclosed, hx]
      · rw [pchOf, hthbm, ← pchOf]
        exact hrows pc hpc
      · rw [htoff, hcpwr, hpwr]
      · rw [hthbm, hmem, hon h]
      · obtain ⟨hpow, hun⟩ := hoff h
        obtain ⟨-, -, hsys, -, -⟩ := powerOff_facts hun
        exact htsys.imp_left fun h' => by rw [h', hcsys, hpow, hsys]
      · obtain ⟨hpow, hun⟩ := hoff h
        obtain ⟨-, -, -, -, hsaved⟩ := powerOff_facts hun
        exact ⟨s.free, by rw [hthbm, hsave, hpow, hsaved]⟩
    · obtain ⟨u, hu⟩ : ∃ u, u = setStack (advance s 108000) k { x with state := 2 } := ⟨_, rfl⟩
      have hsys : u.sys = s.sys := by rw [hu]; rfl
      obtain ⟨j, hj⟩ := not_forall.mp hlast
      obtain ⟨hjn, hj⟩ := Classical.not_imp.mp hj
      obtain ⟨hjk, hj⟩ := Classical.not_imp.mp hj
      have hjs : (stackOf u j).state = 4 := by
        rw [hu, stackOf_setStack_ne _ _ (Ne.symm hjk)]
        exact not_not.mp hj
      rw [exec_selfRefreshExit hs hstate hx hu, ← hu, if_pos (List.any_eq_true.mpr ⟨j, List.mem_range.mpr (by rw [hsys]; exact hjn), by rw [hjs]; rfl⟩)]
    · obtain ⟨u, hu⟩ : ∃ u, u = setStack (advance s 108000) k { x with state := 2 } := ⟨_, rfl⟩
      have hsys : u.sys = s.sys := by rw [hu]; rfl
      have hnow : u.time.now = s.time.now + 108000 := by rw [hu]; rfl
      have hports : u.ports = s.ports := by rw [hu]; rfl
      have hplan : u.plan.events.length ≤ u.plan.next := by rw [hu]; exact hplan
      have hself : stackOf u k = { x with state := 2 } := by rw [hu, stackOf_setStack_same]
      have hnone : ¬(List.range (nStacks u.sys)).any (fun j => (stackOf u j).state == 4) = true := fun h => by
        obtain ⟨j, hjn, hj⟩ := List.any_eq_true.mp h
        by_cases hjk : j = k
        · rw [hjk, hself] at hj
          exact absurd hj Bool.false_ne_true
        · rw [hu, stackOf_setStack_ne _ _ (Ne.symm hjk)] at hj
          exact hlast j (by rw [← hsys]; exact List.mem_range.mp hjn) hjk (beq_iff_eq.mp hj)
      obtain ⟨hwtime, hwhbm, hwplan, hwstate, hwoff, hwlink⟩ := wakeUp_facts u
      obtain ⟨hetime, hepwr, hestk, helink⟩ := wakeEnd_facts (wakeUp u)
      have hexec := exec_selfRefreshExit hs hstate hx hu
      rw [if_neg hnone, fireHeld_none (by rw [hwplan]; exact hplan)] at hexec
      refine ⟨_, hexec, by rw [hetime, hwtime, hnow], by rw [hepwr, hwstate], by rw [hepwr, hwoff], ?_, fun lp hlp h => ?_⟩
      · rw [hestk, stackOf, hwhbm, ← stackOf, hself]
      · rw [helink]
        exact hwlink lp (by rw [lps, hsys]; exact hlp) (by rw [port, hports]; exact h)
  · intro k mate
    have hexec := exec_hbmTestGo hserved
    refine ⟨fun hserv => ⟨_, hexec, ?_⟩, fun hserv hblocked => ⟨_, hexec, ?_⟩, fun hm0 hm1 htest hre hmaint => ⟨_, hexec, ?_⟩⟩
    · obtain ⟨o, c, hrest⟩ := maintRefuse_rest s 2 2
      rw [hbmTestGo_refused ha hserv (maintTest_out ha hserv)]
      refine ⟨rfl, ?_, ?_⟩
      · rw [answered_objs _ _ _ (by decide) (by decide), obj_putObj_same]
      · rw [answered_abort _ (by decide), hrest]
        rfl
    · have hb : testBlocked s = true := by
        rw [testBlocked]
        simp only [Bool.or_eq_true, bne_iff_ne, Option.isSome_iff_ne_none, or_assoc]
        exact hblocked
      rw [hbmTestGo_blocked ha hserv hb]
      refine ⟨rfl, ?_, ?_⟩
      · rw [answered_objs _ _ _ (by decide) (by decide), obj_putObj_same]
      · rw [answered_abort _ (by decide)]
        rfl
    · have hb : testBlocked s = false := by
        rw [testBlocked]
        rw [hm0, hm1, htest, hre]
        rfl
      rw [hbmTestGo_accepted ha hb hmaint, answered_ok]
      exact ⟨rfl, rfl, rfl, stackOf_setStack_same _ _ _, obj_putObj_same (bump s 0x8000 5) _ _ _, rfl⟩
  · obtain ⟨u, hu⟩ : ∃ u, u = putObj (advanceTo s (s.hbm.testFrom + msU 1179 + usU 648)) 0x5020 3 0 := ⟨_, rfl⟩
    have hunow : u.time.now = max s.time.now (s.hbm.testFrom + 106168320000) := by
      rw [hu, ← testTime, ← Nat.add_assoc]
      exact advanceTo_now s _
    have huhbm : u.hbm = s.hbm := by
      obtain ⟨time, h⟩ := advanceTo_only s (s.hbm.testFrom + msU 1179 + usU 648)
      rw [hu, h]
      rfl
    have huobj : obj u 0x5020 3 = 0 := by rw [hu, obj_putObj_same]
    obtain ⟨v, hv⟩ : ∃ v, v = rows.foldl (fun s r => testedRow s k r) u := ⟨_, rfl⟩
    obtain ⟨hmem, htime, -, hstatus⟩ := testedRows_facts k rows u
    rw [← hv] at hmem htime hstatus
    have hretires (pc b r : Nat) : retires u pc b r = retires s pc b r := by
      rw [retires, retires, stackOf, stackOf, huhbm]
    have hexec : exec (.hbmTestDone rows) s = .next { setStack v k { stackOf v k with state := 6 } with
        hbm := { (setStack v k { stackOf v k with state := 6 }).hbm with test := none, rebuild := some (k / 2) } } := by
      refine (live_on hon _).trans ?_
      rw [ht]
      dsimp only
      rw [← hu, ← hv]
    refine ⟨_, hexec, rfl, rfl, ?_, ?_, ?_, ?_⟩
    · exact congrArg Stack.state (stackOf_setStack_same v k _)
    · exact hmem.trans (by rw [huhbm])
    · exact (congrArg TimeSt.now htime).trans hunow
    · refine Eq.trans ?_ (hstatus.trans ?_)
      · exact obj_congr rfl rfl _ _
      · simp only [hretires, huobj]
  · obtain ⟨w, hw⟩ : ∃ w, w = copyHbm s s.hbm.mapBaseB s.hbm.mapBaseA (2 ^ 31) := ⟨_, rfl⟩
    obtain ⟨m, l, hwonly⟩ := copyHbm_only s s.hbm.mapBaseB s.hbm.mapBaseA (2 ^ 31)
    rw [← hw] at hwonly
    obtain ⟨u, hu⟩ : ∃ u, u = copyHbm w s.hbm.ruleBaseB s.hbm.ruleBaseA (2 ^ 28) := ⟨_, rfl⟩
    obtain ⟨m', l', huonly⟩ := copyHbm_only w s.hbm.ruleBaseB s.hbm.ruleBaseA (2 ^ 28)
    rw [← hu] at huonly
    obtain ⟨v, hv⟩ : ∃ v, v = stacksBack 0 (rebuildCounted 0 u) := ⟨_, rfl⟩
    obtain ⟨o, hcounted⟩ := rebuildCounted_only 0 u
    obtain ⟨⟨stk, hvonly⟩, hback⟩ := stacksBack_facts 0 (rebuildCounted 0 u)
    rw [← hv] at hvonly hback
    have hrest : ∃ o m l stk, v = { s with obj := o, hbm := { s.hbm with mem := m, media := l, stk := stk } } := by
      rw [hvonly, hcounted, huonly, hwonly]
      exact ⟨_, _, _, _, rfl⟩
    obtain ⟨o', m'', l'', stk', hrest⟩ := hrest
    have hexec := exec_rebuildDone hon hre (u := u) (v := v) (by rw [hu, hw]) hv
    rw [traceFlush_empty fun c => by rw [hrest]; exact htrace c] at hexec
    have hvmem : v.hbm.mem = u.hbm.mem := by rw [hvonly, hcounted]
    refine ⟨_, hexec, rfl, fun h => hback ?_, fun b => ?_⟩
    · rw [hcounted, huonly, hwonly]
      exact h
    · rw [hbmByte_none hsave, hbmByte_none hsave]
      refine (hbmByte_none (s := stir _) (show v.hbm.save = none by rw [hrest]; exact hsave) b).trans ?_
      change rd8 v.hbm.mem b = _
      rw [hvmem, hu, rd8_copyHbm (by rw [hw]; exact copyHbm_wf _ _ _ hwf), hw, rd8_copyHbm hwf, rd8_copyHbm hwf, hma, hmb, hra, hrb]
      exact rebuiltByte (rd8 s.hbm.mem) b
  · intro x hx
    refine ⟨?_, ?_⟩
    · obtain ⟨z, hz⟩ : ∃ z, z = zeroStack s k := ⟨_, rfl⟩
      obtain ⟨m, l, hzonly⟩ := zeroStack_only s k
      rw [← hz] at hzonly
      obtain ⟨u, hu⟩ : ∃ u, u = clearRetired z k := ⟨_, rfl⟩
      obtain ⟨hustk, stk, c, huonly⟩ := clearRetired_facts z k
      rw [← hu] at hustk huonly
      have hnow : u.time = s.time := by rw [huonly, hzonly]
      have hzstk : stackOf z k = x := by rw [hzonly]; rfl
      have hexec := exec_hbmTrainingDone_ok hp hs hk hx (u := u) (by rw [hu, hz])
      have hflush := traceFlush_written (setStack u k { stackOf u k with state := 2, windowAt := u.time.now })
      refine ⟨_, hexec, ?_, ?_, fun htrace hsave b => ?_⟩
      · rw [hflush.rest]
        exact hnow
      · rw [hflush.stackOf, stackOf_setStack_same, hustk, hzstk, hnow]
      · have hquiet : traceFlush (setStack u k { stackOf u k with state := 2, windowAt := u.time.now }) =
            setStack u k { stackOf u k with state := 2, windowAt := u.time.now } := traceFlush_empty fun c => by
          rw [huonly, hzonly]
          exact htrace c
        rw [hquiet, hbmByte_none (show (setStack u k _).hbm.save = none by rw [huonly, hzonly]; exact hsave), hbmByte_none hsave]
        have hmem : u.hbm.mem = z.hbm.mem := by rw [huonly]
        change rd8 u.hbm.mem b = _
        rw [hmem, hz, rd8_zeroStack]
    · refine ⟨_, exec_hbmTrainingDone_failed hp hs hk hx, ?_⟩
      have hcount : obj (bump32 s (0x5010 + k) 5) (0x5010 + k) 5 = (obj s (0x5010 + k) 5 + 1) % 2 ^ 32 := obj_putObj_same _ _ _ _
      split
      · next h =>
        obtain ⟨u, hu⟩ : ∃ u, u = setStack (bump32 s (0x5010 + k) 5) k { x with state := 5 } := ⟨_, rfl⟩
        have hlog := cairn_logged u 8 2 3 (toLE 1 k)
        rw [← hu]
        refine ⟨?_, ?_⟩
        · rw [hlog.obj (by decide) (.inr (by decide)), hu]
          exact hcount
        · have hhbm : (cairn u 8 2 3 (toLE 1 k)).hbm = u.hbm := by rw [hlog.rest]
          rw [stackOf, hhbm, ← stackOf, hu, stackOf_setStack_same]
      · exact ⟨hcount, stackOf_setStack_same _ _ _⟩

end Sys2Proof.Proofs

/-! Doze, Bivouac, the Basecamp state and the sideband target (R387 to R392, R394). -/

namespace Sys2Proof.Proofs

open Sys2Proof.Machine Sys2Proof.Claim

/-! ### Doze (R387) -/

theorem usU_eq (n : Nat) : usU n = 90000 * n := by rw [usU]; omega

/-- The cores of a cluster forget what has roused them. -/
theorem calmed_below (s : State) (c n : Nat) : let t := (List.range n).foldl (fun s i => modCore s (c * 16 + i) (fun x => { x with roused := false })) s
    (∃ m, t = { s with cores := m }) ∧ (∀ i, i < n → Machine.core t (c * 16 + i) = { Machine.core s (c * 16 + i) with roused := false }) ∧
      ∀ i, n ≤ i → Machine.core t (c * 16 + i) = Machine.core s (c * 16 + i) := by
  induction n with
  | zero => exact ⟨⟨s.cores, rfl⟩, nofun, fun _ _ => rfl⟩
  | succ n ih =>
    obtain ⟨⟨m, hm⟩, hdone, hleft⟩ := ih
    rw [List.range_succ, List.foldl_append, List.foldl_cons, List.foldl_nil]
    obtain ⟨u, hu⟩ : ∃ u, u = (List.range n).foldl (fun s i => modCore s (c * 16 + i) (fun x => { x with roused := false })) s := ⟨_, rfl⟩
    rw [← hu] at hm hdone hleft ⊢
    refine ⟨⟨_, by rw [hm]; rfl⟩, fun i hi => ?_, fun i hi => ?_⟩
    · rcases Nat.lt_succ_iff_lt_or_eq.mp hi with hlt | rfl
      · rw [modCore, core_setCore_ne _ _ (by omega), hdone i hlt]
      · rw [modCore, core_setCore_same, hleft i le_rfl]
    · rw [modCore, core_setCore_ne _ _ (by omega), hleft i (by omega)]

theorem wakeCause_iff (s : State) (c : Nat) : wakeCause s c = true ↔ clusterIdle s c = false ∨ ∃ i, i < 16 ∧ (Machine.core s (16 * c + i)).roused = true := by
  rw [wakeCause, Bool.or_eq_true, Bool.not_eq_true', List.any_eq_true, Nat.mul_comm]
  simp only [List.mem_range]

/-! ### The way into Bivouac (R388) -/

/-- A port as it is asleep. -/
def asleep (p : Port) : Port := { p with link := if p.link = 2 then 3 else 4, nextPulse := none, lossFrom := none, missedFrom := none }

theorem portsAsleep_below (s : State) (n : Nat) : let t := (List.range n).foldl portAsleep s
    (∃ m, t = { s with ports := m }) ∧ (∀ lp, lp < n → port t lp = asleep (port s lp)) ∧ ∀ lp, n ≤ lp → port t lp = port s lp := by
  induction n with
  | zero => exact ⟨⟨s.ports, rfl⟩, nofun, fun _ _ => rfl⟩
  | succ n ih =>
    obtain ⟨⟨m, hm⟩, hdone, hleft⟩ := ih
    rw [List.range_succ, List.foldl_append, List.foldl_cons, List.foldl_nil]
    obtain ⟨u, hu⟩ : ∃ u, u = (List.range n).foldl portAsleep s := ⟨_, rfl⟩
    rw [← hu] at hm hdone hleft ⊢
    refine ⟨⟨_, by rw [hm]; rfl⟩, fun lp hlp => ?_, fun lp hlp => ?_⟩
    · rcases Nat.lt_succ_iff_lt_or_eq.mp hlp with hlt | rfl
      · rw [portAsleep, port_modPort_ne _ _ (by omega), hdone lp hlt]
      · rw [portAsleep, port_modPort_same, hleft lp le_rfl]
        rfl
    · rw [portAsleep, port_modPort_ne _ _ (by omega), hleft lp (by omega)]

theorem exec_bivouacEntry {s : State} {t0 : Nat} (hon : on s = true) (hp : s.sys.phase = .run) (hb : s.sys.basecampFailed = false)
    (hs : s.pwr.state = 0) (ho : obj s 0x7000 7 ≠ 0) (hd : deviceIdle s = true) (ht : s.pwr.idleSince = some t0) {u v : State}
    (hu : u = advanceTo s (t0 + msU (obj s 0x7000 7))) (hv : v = (List.range (lps u)).foldl portAsleep u) : exec .bivouacEntry s =
      .next (modPwr ((List.range (nStacks v.sys)).foldl (fun s k => setStack s k { stackOf s k with pendingSr := true }) v)
        (fun p => { p with state := 1, wakeSrc := none })) := by
  change execBivouacEntry s = _
  rw [execBivouacEntry]
  dsimp only
  rw [if_neg (by rw [hon, hp, hb, hs, hd, ht]; simpa using ho), ht, hv, hu]
  rfl

/-- The entry is complete. -/
theorem entryDone_counted (s : State) : let t := entryDone s
    obj t 0x7000 0x0D = (obj s 0x7000 0x0D + 1) % 2 ^ 64 ∧
      (s.pwr.wakeSrc = none → t.pwr.state = 2 ∧ t.pwr.bivouacAt = some s.time.now ∧ t.sys.wakeOut = s.sys.wakeOut) ∧
      ∀ n, s.pwr.wakeSrc = some n → t.pwr.state = 3 ∧ t.pwr.wakeSrc = none ∧ t.sys.wakeOut = true ∧ obj t 0x7000 0x0E = n := by
  intro t
  obtain ⟨u, hu⟩ : ∃ u, u = cairn (bump s 0x7000 0x0D) 0x0A 2 0 [] := ⟨_, rfl⟩
  have hlog := cairn_logged (bump s 0x7000 0x0D) 0x0A 2 0 []
  rw [← hu] at hlog
  have hcount : obj u 0x7000 0x0D = (obj s 0x7000 0x0D + 1) % 2 ^ 64 := by
    rw [hlog.obj (by decide) (.inl (by decide)), obj_bump_same]
  have hpwr : u.pwr = s.pwr := by rw [hlog.rest]; rfl
  have hsys : u.sys = s.sys := by rw [hlog.rest]; rfl
  have htime : u.time = s.time := by rw [hlog.rest]; rfl
  obtain ⟨w, hw⟩ : ∃ w, w = modPwr u (fun p => { p with state := 2, bivouacAt := some u.time.now, idleSince := none }) := ⟨_, rfl⟩
  have ht : t = entryDone s := rfl
  rw [entryDone, ← hu, hpwr] at ht
  cases hsrc : s.pwr.wakeSrc with
  | none =>
    rw [hsrc] at ht
    rw [ht]
    refine ⟨hcount, fun _ => ⟨rfl, by rw [← htime]; rfl, by rw [← hsys]; rfl⟩, nofun⟩
  | some n =>
    rw [hsrc] at ht
    dsimp only at ht
    rw [← hw] at ht
    have hwobj : obj w 0x7000 0x0D = obj u 0x7000 0x0D := by rw [hw]; rfl
    rw [ht]
    refine ⟨?_, nofun, fun m hm => ⟨rfl, rfl, rfl, ?_⟩⟩
    · rw [wakeStart, obj_putObj_ne _ _ (by decide) (by decide) (.inr (by decide)), ← hcount, ← hwobj]
      rfl
    · rw [wakeStart, obj_putObj_same, Option.some.inj hm]

/-! ### The way out (R390) -/

theorem traceDrain_objs (c n : Nat) (s : State) {i a : Nat} (ha : a < 256) (hi : i ≠ 0x4050 + c) (h7 : a ≠ 7) (h : i ≠ 0x5000 ∨ a ≠ 0x10 ∧ a ≠ 0x11) :
    obj (traceDrain s c n) i a = obj s i a := by
  induction n generalizing s with
  | zero => rfl
  | succ n ih =>
    rw [traceDrain]
    dsimp only
    split
    · rfl
    · next b bs _ =>
      split
      · obtain ⟨u, hu⟩ : ∃ u, u = hbmWrite s .sys (obj s (0x4050 + c) 3 + obj s (0x4050 + c) 5) b := ⟨_, rfl⟩
        rw [ih, ← hu]
        refine (obj_congr (s := putObj u (0x4050 + c) 5 _) rfl rfl i a).trans ?_
        rw [obj_putObj_ne _ _ (by decide) ha (.inl hi.symm), hu, hbmWrite_objs s _ _ _ ha h7 h]
      · rfl

theorem trace_objs (s : State) (c kind n : Nat) (x : Slot) (rp reason : Nat) {i a : Nat} (ha : a < 256) (hi : i ≠ 0x4050 + c) (h7 : a ≠ 7)
    (h : i ≠ 0x5000 ∨ a ≠ 0x10 ∧ a ≠ 0x11) : obj (trace s c kind n x rp reason) i a = obj s i a := by
  have hdrain := traceDrain_objs c 64 s ha hi h7 h
  obtain ⟨u, hu⟩ : ∃ u, u = traceDrain s c 64 := ⟨_, rfl⟩
  rw [trace]
  split
  · rfl
  · dsimp only
    rw [← hu] at hdrain ⊢
    split
    · rw [obj_bump_ne _ (by decide) ha (.inl hi.symm)]
      exact hdrain
    · rw [traceDrain_objs c 64 _ ha hi h7 h]
      exact hdrain

theorem bivouacTrace_objs (s : State) (kind reason : Nat) {i a : Nat} (ha : a < 256) (hi : i < 0x4050 ∨ 0x4060 ≤ i) (h7 : a ≠ 7)
    (h : i ≠ 0x5000 ∨ a ≠ 0x10 ∧ a ≠ 0x11) : obj (bivouacTrace s kind reason) i a = obj s i a := by
  have hfold (l : List Nat) (hl : ∀ c ∈ l, c < 16) (u : State) :
      obj (l.foldl (fun s c => traceDrain (trace s c kind 0 {} 0xFF reason) c 65) u) i a = obj u i a := by
    induction l generalizing u with
    | nil => rfl
    | cons c l ih =>
      have hc : i ≠ 0x4050 + c := by
        have := hl c List.mem_cons_self
        omega
      rw [List.foldl_cons, ih fun d hd => hl d (List.mem_cons_of_mem _ hd), traceDrain_objs c 65 _ ha hc h7 h, trace_objs u c kind 0 {} 0xFF reason ha hc h7 h]
  exact hfold _ (fun c hc => (List.mem_range.mp hc).trans_le (clusters_le s)) s

theorem bivouacTrace_traced (s : State) (kind reason : Nat) : Traced s (bivouacTrace s kind reason) :=
  Traced.foldl (fun _ _ h => traceDrain_traced (trace_traced h)) (Traced.refl s)

theorem beats_below (s : State) (n : Nat) : let t := (List.range n).foldl (fun s c => modCluster s c (fun x => { x with beatAt := s.time.now })) s
    (∃ m, t = { s with clusters := m }) ∧ ∀ c, c < n → (cluster t c).beatAt = s.time.now := by
  induction n with
  | zero => exact ⟨⟨s.clusters, rfl⟩, nofun⟩
  | succ n ih =>
    obtain ⟨⟨m, hm⟩, hdone⟩ := ih
    rw [List.range_succ, List.foldl_append, List.foldl_cons, List.foldl_nil]
    obtain ⟨u, hu⟩ : ∃ u, u = (List.range n).foldl (fun s c => modCluster s c (fun x => { x with beatAt := s.time.now })) s := ⟨_, rfl⟩
    rw [← hu] at hm hdone ⊢
    refine ⟨⟨_, by rw [hm]; rfl⟩, fun c hc => ?_⟩
    rw [cluster_modCluster]
    split
    · rw [hm]
    · exact hdone c (by omega)

/-- The heartbeat limits start afresh at the end of the exit, and the plan and the counts of the Itinerary stay. -/
theorem wakeEnd_beats (s : State) : let t := wakeEnd s
    t.plan = s.plan ∧ obj t 0x6801 6 = obj s 0x6801 6 ∧ ∀ c, c < clusters s → (cluster t c).beatAt = s.time.now := by
  intro t
  obtain ⟨u, hu⟩ : ∃ u, u = (List.range (clusters s)).foldl (fun s c => modCluster s c (fun x => { x with beatAt := s.time.now })) s := ⟨_, rfl⟩
  obtain ⟨⟨m, hm⟩, hbeat⟩ := beats_below s (clusters s)
  rw [← hu] at hm hbeat
  obtain ⟨v, hv⟩ : ∃ v, v = bivouacTrace u 8 (obj s 0x7000 0x0E) := ⟨_, rfl⟩
  have hwritten : Written u v := hv ▸ bivouacTrace_written u 8 _
  have htraced : Traced u v := hv ▸ bivouacTrace_traced u 8 _
  obtain ⟨w, hw⟩ : ∃ w, w = enterPorts v := ⟨_, rfl⟩
  have hentered : Entered v w := hw ▸ (enterPorts_below v (lps v)).1
  have ht : t = cairn w 0x0A 3 0 (toLE 1 (obj s 0x7000 0x0E)) := by
    change wakeEnd s = _
    rw [hw, hv, hu]
    rfl
  have hlog := cairn_logged w 0x0A 3 0 (toLE 1 (obj s 0x7000 0x0E))
  rw [← ht] at hlog
  have hclusters : t.clusters = v.clusters := by rw [hlog.rest, hentered.rest]
  refine ⟨?_, ?_, fun c hc => ?_⟩
  · rw [hlog.rest, hentered.rest, hwritten.rest, hm]
  · rw [hlog.obj (by decide) (.inl (by decide)), obj_congr (s := v) (by rw [hentered.rest]) (by rw [hentered.rest]), hv,
      bivouacTrace_objs u _ _ (by decide) (.inr (by decide)) (by decide) (.inl (by decide)), hm]
    rfl
  · have hcluster := congrArg Cluster.beatAt (htraced.cluster c)
    rw [cluster, hclusters, ← cluster]
    exact hcluster.trans (hbeat c hc)

/-- What settling FtState leaves of time and of the counts. -/
theorem settleTime_facts (s : State) : let t := settleTime s
    t.time.now = s.time.now ∧ ∀ {i a}, a < 256 → i ≠ 0x6800 → i ≠ 0x7800 → obj t i a = obj s i a := by
  have hlost (u : State) (at_ : Nat) : (sourceLost u at_).time.now = u.time.now ∧
      ∀ {i a}, a < 256 → i ≠ 0x6800 → i ≠ 0x7800 → obj (sourceLost u at_) i a = obj u i a := by
    rw [sourceLost]
    split
    · obtain ⟨v, hv⟩ : ∃ v, v = modTime (draw u) (fun t => { t with
        state := ftHoldover, holdoverAt := some at_, rate := disciplined u, slewLeft := 0 }) := ⟨_, rfl⟩
      have hlog := cairn_logged (bump v 0x6800 0x0B) 9 2 1 (toLE 8 (obj v 0x6800 7))
      dsimp only
      rw [← hv]
      refine ⟨by rw [hlog.rest, hv]; rfl, fun ha h6 h7 => ?_⟩
      rw [hlog.obj ha (.inl h7), obj_bump_ne _ (by decide) ha (.inl h6.symm), hv]
      rfl
    · split
      · exact ⟨rfl, fun _ _ _ => rfl⟩
      · exact ⟨rfl, fun _ _ _ => rfl⟩
  have hoverdue (u : State) : (loseOverdue u).time.now = u.time.now ∧
      ∀ {i a}, a < 256 → i ≠ 0x6800 → i ≠ 0x7800 → obj (loseOverdue u) i a = obj u i a := by
    rw [loseOverdue]
    split
    · split
      · exact hlost u _
      · exact ⟨rfl, fun _ _ _ => rfl⟩
    · exact ⟨rfl, fun _ _ _ => rfl⟩
  have hlimit (u : State) : (limitHoldover u).time.now = u.time.now ∧ ∀ i a, obj (limitHoldover u) i a = obj u i a := by
    rw [limitHoldover]
    split
    · split
      · exact ⟨rfl, fun _ _ => rfl⟩
      · exact ⟨rfl, fun _ _ => rfl⟩
    · exact ⟨rfl, fun _ _ => rfl⟩
  dsimp only
  rw [settleTime]
  split
  · exact ⟨rfl, fun _ _ _ => rfl⟩
  · exact ⟨(hlimit _).1.trans (hoverdue s).1, fun ha h6 h7 => ((hlimit _).2 _ _).trans ((hoverdue s).2 ha h6 h7)⟩

/-- A mark that is late is counted as late, and leaves time and power. -/
theorem fire_lateMark {s : State} {m : ItinEvent} (htyp : m.typ = 4) (hgate : m.gated = false) : let t := fire s m true
    t.plan = { s.plan with next := s.plan.next + 1 } ∧ t.time.now = s.time.now ∧ t.pwr = s.pwr ∧ t.sys = s.sys ∧ t.clusters = s.clusters ∧
      obj t 0x6801 6 = (obj s 0x6801 6 + 1) % 2 ^ 64 ∧ obj t 0x6801 3 = (obj s 0x6801 3 + 1) % 2 ^ 64 := by
  intro t
  obtain ⟨u, hu⟩ : ∃ u, u = settleTime { s with plan := { s.plan with next := s.plan.next + 1 } } := ⟨_, rfl⟩
  obtain ⟨hnow, hobj⟩ := settleTime_facts { s with plan := { s.plan with next := s.plan.next + 1 } }
  obtain ⟨f, time, o, c, honly⟩ := settleTime_only { s with plan := { s.plan with next := s.plan.next + 1 } }
  rw [← hu] at hnow hobj honly
  have hskip : skipped u m = false := by
    rw [skipped, htyp, hgate]
    rfl
  have ht : t = cairn (bump (bump u 0x6801 6) 0x6801 3) 9 4 0 (toLE 8 m.arg1) := by
    change fire s m true = _
    rw [fire]
    dsimp only
    rw [← hu, if_neg (by rw [hskip]; decide), if_pos rfl, act, htyp]
    rfl
  have hlog := cairn_logged (bump (bump u 0x6801 6) 0x6801 3) 9 4 0 (toLE 8 m.arg1)
  rw [← ht] at hlog
  refine ⟨?_, ?_, ?_, ?_, ?_, ?_, ?_⟩
  · rw [hlog.rest]
    change u.plan = _
    rw [honly]
  · rw [hlog.rest]
    exact hnow
  · rw [hlog.rest]
    change u.pwr = _
    rw [honly]
  · rw [hlog.rest]
    change u.sys = _
    rw [honly]
  · rw [hlog.rest]
    change u.clusters = _
    rw [honly]
  · rw [hlog.obj (by decide) (.inl (by decide)), obj_bump_ne _ (by decide) (by decide) (.inr (by decide)), obj_bump_same,
      hobj (by decide) (by decide) (by decide)]
    rfl
  · rw [hlog.obj (by decide) (.inl (by decide)), obj_bump_same, obj_bump_ne _ (by decide) (by decide) (.inr (by decide)),
      hobj (by decide) (by decide) (by decide)]
    rfl

/-- One mark is left, and FT has passed it since it stood at `was`: it alone fires. -/
theorem firePassed_mark {s : State} {m : ItinEvent} {was : Nat} (hon : on s = true) (hp : s.sys.phase = .run)
    (hplan : s.plan.events.drop s.plan.next = [m]) (htyp : m.typ = 4) (hgate : m.gated = false) (hft : was < m.ft) (hlate : m.ft < ft s) :
    firePassed was s s.plan.events.length = fire s m true := by
  have hget (n : Nat) : s.plan.events[s.plan.next + n]? = [m][n]? := by rw [← hplan, List.getElem?_drop]
  have hhead : headEvent s = some m := by
    rw [headEvent, if_pos (by rw [hon, hp]; rfl)]
    exact hget 0
  have hlen : s.plan.events.length = (s.plan.events.length - 1) + 1 := by
    have := congrArg List.length hplan
    rw [List.length_drop, List.length_singleton] at this
    omega
  obtain ⟨hnext, -⟩ := fire_lateMark (s := s) htyp hgate
  have hnone : headEvent (fire s m true) = none := by
    rw [headEvent, hnext]
    split
    · exact hget 1
    · rfl
  rw [hlen, firePassed, hhead]
  dsimp only
  rw [if_pos hlate.le, decide_eq_true hft, decide_eq_true hlate]
  exact firePassed_of_none _ _ _ fun e he => absurd (hnone.symm.trans he) nofun

/-! ### The wake (R390) -/

/-- A write to Wake (R358). -/
theorem put_wake {s : State} (hs : Served s 0x7000) {v : Byte} (hv : v.toNat ≤ 1) :
    put s 0x7000 9 [v] = .next (answered (goWrite s 0x7000 9 v.toNat)) := by
  have hrow : rowOf s.sys 0x7000 9 = .ok (wo 9 .bool) := rowOf_page (show page s.sys 0x7000 = some (_, _) from rfl) (by decide) (by decide) rfl
  have hof : ofLE [v] = v.toNat := by simp [ofLE]
  rw [put_served hs, writeObj_value hs hrow (by decide) ⟨nofun, nofun⟩ (by decide) nofun rfl, hof,
    if_pos (by simpa [allowed, wo] using hv), valueWrite_go (.inr (by decide)) (by decide) rfl]
  rfl

theorem goWrite_wake {s : State} {v : Nat} (h : s.pwr.state = 0 ∨ v = 1) : goWrite s 0x7000 9 v = wakeGo s := by
  rw [goWrite, if_neg (by decide)]
  by_cases hs : s.pwr.state = 0
  · rw [if_pos (by rw [hs]; rfl)]
  · rw [if_neg (by simp [hs]), h.resolve_left hs, if_neg (by decide)]

theorem exec_wake {s : State} (hs : Served s 0x7000) : exec .wake s = .next (answered (wakeGo s)) := by
  rw [← goWrite_wake (.inr rfl)]
  exact put_wake hs (v := 1) (by decide)

/-! ### The Basecamp state (R391) -/

theorem portsDark_below (s : State) (n : Nat) : let t := (List.range n).foldl (fun s lp => modPort s lp (fun p => { p with link := 0 })) s
    (∃ m, t = { s with ports := m }) ∧ ∀ lp, lp < n → (port t lp).link = 0 := by
  induction n with
  | zero => exact ⟨⟨s.ports, rfl⟩, nofun⟩
  | succ n ih =>
    obtain ⟨⟨m, hm⟩, hdone⟩ := ih
    rw [List.range_succ, List.foldl_append, List.foldl_cons, List.foldl_nil]
    obtain ⟨u, hu⟩ : ∃ u, u = (List.range n).foldl (fun s lp => modPort s lp (fun p => { p with link := 0 })) s := ⟨_, rfl⟩
    rw [← hu] at hm hdone ⊢
    refine ⟨⟨_, by rw [hm]; rfl⟩, fun lp hlp => ?_⟩
    by_cases h : lp = n
    · rw [h, port_modPort_same]
    · rw [port_modPort_ne _ _ h]
      exact hdone lp (by omega)

/-- In the Basecamp state FAULT_N is low. -/
theorem setFaultN_dark {s : State} (h : s.sys.inBasecamp = true) : let t := setFaultN s
    t.sys.inBasecamp = true ∧ t.sys.faultN = false ∧ ∃ v r, t = { s with sys := v, rcv := r } := by
  obtain ⟨b, hb⟩ := latchFenced_only s
  have hout : inService { s with sys := { s.sys with fencedOut := b } } = false := by simp [inService, outCause, h]
  dsimp only
  rw [setFaultN, hb, if_neg (by rw [hout]; decide)]
  exact ⟨h, rfl, _, _, rfl⟩

theorem exec_basecampEntry {s : State} {t0 : Nat} (hs : started s = true) (hp : s.pwr.state = 2) (ht : s.pwr.bivouacAt = some t0)
    (ho : obj s 0x7000 8 ≠ 0) {u v : State} (hu : u = cairn (advanceTo s (t0 + msU (obj s 0x7000 8))) 0x0A 4 0 [])
    (hv : v = { u with
      sys := { u.sys with inBasecamp := true }, xlat := { u.xlat with keys := [] }, hbm := { u.hbm with mem := [], media := [], save := none } }) :
    exec .basecampEntry s = .next (setFaultN ((List.range (lps v)).foldl (fun s lp => modPort s lp (fun p => { p with link := 0 })) v)) := by
  change execBasecampEntry s = _
  rw [execBasecampEntry, ht]
  dsimp only
  rw [if_neg (by rw [hp, hs]; simpa using ho), ← hu, hv]

/-! ### The obligation -/

theorem msU_eq (n : Nat) : msU n = 90000000 * n := by rw [msU]; omega

/-- Settles O49: Doze, the entry and the exit of Bivouac, the Basecamp state and the sideband target. -/
theorem sleepAndWake : Obligations.SleepAndWake := by
  refine ⟨fun s c hon hc => ?_, fun s t0 hon hp hb hs ho hd ht => ?_, fun s hd => ?_, fun s k hs hoff hpend hothers hdef => ?_,
    fun s k m hs hp hstate hx hothers hplan htyp hgate hft hlate => ?_, fun s hserved => ?_, fun s t0 hs hp ht ho => ?_,
    fun s a rd hp hv hf => ?_⟩
  · intro others
    refine ⟨fun ho hd hidle => ?_, fun h => ?_, fun hd => ?_⟩
    · obtain ⟨u, hu⟩ : ∃ u, u = advanceTo s (idleFrom s c.toNat + usU (obj s 0x7000 6)) := ⟨_, rfl⟩
      obtain ⟨time, huonly⟩ := advanceTo_only s (idleFrom s c.toNat + usU (obj s 0x7000 6))
      have hunow : u.time.now = max s.time.now (idleFrom s c.toNat + 90000 * obj s 0x7000 6) := by rw [hu, advanceTo_now, usU_eq]
      rw [← hu] at huonly
      obtain ⟨v, hv⟩ : ∃ v, v = (List.range 16).foldl (fun s i => modCore s (c.toNat * 16 + i) (fun x => { x with roused := false })) u := ⟨_, rfl⟩
      obtain ⟨⟨m, hvonly⟩, hcores, -⟩ := calmed_below u c.toNat 16
      rw [← hv] at hvonly hcores
      have hexec : exec (.dozeEntry c) s = .next (stir (bump (modCluster v c.toNat (fun x => { x with doze := true })) 0x7000 0x0C)) := by
        change execDozeEntry c s = _
        rw [execDozeEntry]
        dsimp only
        rw [if_neg (by rw [hon, hd, hidle]; simp [ho, hc]), ← hu, ← hv]
      have hcluster (d : Nat) : cluster (stir (bump (modCluster v c.toNat (fun x => { x with doze := true })) 0x7000 0x0C)) d =
          if d = c.toNat then { cluster s c.toNat with doze := true } else cluster s d := by
        change cluster (modCluster v c.toNat (fun x => { x with doze := true })) d = _
        rw [cluster_modCluster, hvonly, huonly]
        rfl
      refine ⟨_, hexec, ?_, by rw [hcluster, if_pos rfl], ⟨fun d hd => by rw [hcluster, if_neg hd], ?_, ?_⟩, fun i hi => ?_, ?_⟩
      · change v.time.now = _
        rw [hvonly, hunow]
      · change v.ropes = _
        rw [hvonly, huonly]
      · change { v.pwr with idleSince := v.pwr.idleSince.map (fun _ => v.time.now) } = { s.pwr with idleSince := s.pwr.idleSince.map (fun _ => v.time.now) }
        rw [show v.pwr = s.pwr by rw [hvonly, huonly]]
      · change Machine.core v (16 * c.toNat + i) = _
        rw [Nat.mul_comm, hcores i hi, huonly]
        rfl
      · refine (obj_bump_same (modCluster v c.toNat _) 0x7000 0x0C).trans ?_
        rw [obj_congr (s := s) (by rw [hvonly, huonly]; rfl) (by rw [hvonly, huonly]; rfl)]
    · change execDozeEntry c s = _
      rw [execDozeEntry]
      dsimp only
      rw [if_pos (by rcases h with h | h <;> simp [h])]
    · intro wakes
      refine ⟨fun h => ?_, fun h => ?_⟩
      · have hcause : wakeCause s c.toNat = true := (wakeCause_iff s c.toNat).mpr h
        have hexec : exec (.dozeExit c) s = .next (stir (busyCore (modCluster (advance s (100 * dpU s)) c.toNat
            (fun x => { x with doze := false, beatAt := (advance s (100 * dpU s)).time.now })) (c.toNat * 16))) := by
          change execDozeExit c s = _
          rw [execDozeExit]
          dsimp only
          rw [if_neg (by rw [hon, hd, hcause]; decide)]
        have hcluster (d : Nat) := cluster_modCluster (advance s (100 * dpU s)) c.toNat
          (fun x => { x with doze := false, beatAt := (advance s (100 * dpU s)).time.now }) d
        refine ⟨_, hexec, rfl, ?_, fun d hd => ?_, rfl, rfl⟩
        · exact (hcluster c.toNat).trans (if_pos rfl)
        · exact (hcluster d).trans (if_neg hd)
      · have hcause : wakeCause s c.toNat = false := Bool.eq_false_iff.mpr fun hh => h ((wakeCause_iff s c.toNat).mp hh)
        change execDozeExit c s = _
        rw [execDozeExit]
        dsimp only
        rw [if_pos (by rw [hcause]; simp)]
  · obtain ⟨u, hu⟩ : ∃ u, u = advanceTo s (t0 + msU (obj s 0x7000 7)) := ⟨_, rfl⟩
    obtain ⟨time, huonly⟩ := advanceTo_only s (t0 + msU (obj s 0x7000 7))
    have hunow : u.time.now = max s.time.now (t0 + 90000000 * obj s 0x7000 7) := by rw [hu, advanceTo_now, msU_eq]
    rw [← hu] at huonly
    obtain ⟨v, hv⟩ : ∃ v, v = (List.range (lps u)).foldl portAsleep u := ⟨_, rfl⟩
    obtain ⟨⟨m, hvonly⟩, hports, -⟩ := portsAsleep_below u (lps u)
    rw [← hv] at hvonly hports
    obtain ⟨w, hw⟩ : ∃ w, w = (List.range (nStacks v.sys)).foldl (fun s k => setStack s k { stackOf s k with pendingSr := true }) v := ⟨_, rfl⟩
    obtain ⟨⟨n, hwonly⟩, hstk, -⟩ := setStacks_below v (fun x => { x with pendingSr := true }) (nStacks v.sys)
    rw [← hw] at hwonly hstk
    have hexec := exec_bivouacEntry hon hp hb hs ho hd ht hu hv
    rw [← hw] at hexec
    refine ⟨_, hexec, ?_, ?_, ?_, ?_, fun k hk => ?_, fun lp hlp => ?_⟩
    · change w.time.now = _
      rw [hwonly, hvonly, hunow]
    · change { w.pwr with state := 1, wakeSrc := none } = _
      rw [show w.pwr = s.pwr by rw [hwonly, hvonly, huonly]]
    · change w.sys = _
      rw [hwonly, hvonly, huonly]
    · change w.obj = _
      rw [hwonly, hvonly, huonly]
    · refine (hstk k (by rw [hvonly, huonly]; exact hk)).trans ?_
      rw [hvonly, huonly]
      rfl
    · change port w lp = _
      have hwports : w.ports = v.ports := by rw [hwonly]
      rw [port, hwports, ← port, hports lp (by rw [huonly]; exact hlp), huonly]
      rfl
  · change execBivouacEntry s = _
    rw [execBivouacEntry]
    dsimp only
    rw [if_pos (by rw [hd]; simp)]
  · have hexec := exec_selfRefreshEntry hs hpend (u := s) (by rw [hoff]; rfl) hdef
    obtain ⟨hself, -, -, -, hpwr, hsys⟩ := closeStack_facts s k
    have hnone : ¬(List.range (nStacks (closeStack s k).sys)).any (fun j => (stackOf (closeStack s k) j).pendingSr) = true := fun h => by
      obtain ⟨j, hj, hjp⟩ := List.any_eq_true.mp h
      by_cases hjk : j = k
      · rw [hjk, hself] at hjp
        exact Bool.false_ne_true hjp
      · have hstk : stackOf (closeStack s k) j = stackOf s j := stackOf_setStack_ne s _ (Ne.symm hjk)
        rw [hstk, hothers j (by rw [← hsys]; exact List.mem_range.mp hj) hjk] at hjp
        exact Bool.false_ne_true hjp
    rw [if_neg hnone] at hexec
    obtain ⟨hcount, hstays, hwakes⟩ := entryDone_counted (closeStack s k)
    rw [hpwr] at hstays hwakes
    exact ⟨_, hexec, hcount, hstays, hwakes⟩
  · obtain ⟨u, hu⟩ : ∃ u, u = setStack (advance s 108000) k { stackOf s k with state := 2 } := ⟨_, rfl⟩
    have hsys : u.sys = s.sys := by rw [hu]; rfl
    have huplan : u.plan = s.plan := by rw [hu]; rfl
    have huobj : obj u 0x6801 6 = obj s 0x6801 6 := by rw [hu]; rfl
    have huft : ft u = ft (advance s 108000) := by rw [hu]; rfl
    have hnone : ¬(List.range (nStacks u.sys)).any (fun j => (stackOf u j).state == 4) = true := fun h => by
      obtain ⟨j, hjn, hj⟩ := List.any_eq_true.mp h
      by_cases hjk : j = k
      · rw [hjk, hu, stackOf_setStack_same] at hj
        exact Bool.false_ne_true hj
      · rw [hu, stackOf_setStack_ne _ _ (Ne.symm hjk)] at hj
        exact hothers j (by rw [← hsys]; exact List.mem_range.mp hjn) hjk (beq_iff_eq.mp hj)
    have hexec := exec_selfRefreshExit hs hstate hx hu
    rw [if_neg hnone] at hexec
    obtain ⟨w, hw⟩ : ∃ w, w = wakeUp u := ⟨_, rfl⟩
    obtain ⟨⟨p, hports⟩, -, -⟩ := portsAwake_below (modPwr u (fun p => { p with state := 0, off := false, idleSince := some u.time.now })) (lps u)
    have hwonly : w = { u with ports := p, pwr := { u.pwr with state := 0, off := false, idleSince := some u.time.now } } := by
      rw [hw]
      exact hports
    have hwon : on w = true := by
      have hstarted : started w = started s := by rw [hwonly, started, started, powered, powered, hsys]
      rw [on, hstarted, hs, hwonly]
      rfl
    have hwft : ft w = ft u := by rw [hwonly]; rfl
    have hwplan : w.plan = s.plan := by rw [hwonly, huplan]
    have hfires : fireHeld w = _ := firePassed_mark (s := w) hwon (by rw [hwonly, hsys]; exact hp) (by rw [hwplan]; exact hplan) htyp hgate hft
      (by rw [hwft, huft]; exact hlate)
    rw [← hw, hfires] at hexec
    obtain ⟨hfplan, hfnow, hfpwr, hfsys, hfclusters, hflate, -⟩ := fire_lateMark (s := w) htyp hgate
    obtain ⟨hetime, hepwr, -, -⟩ := wakeEnd_facts (fire w m true)
    obtain ⟨heplan, helate, hbeats⟩ := wakeEnd_beats (fire w m true)
    refine ⟨_, hexec, ?_, ?_, ?_, ?_, fun c hc => ?_⟩
    · rw [hepwr, hfpwr, hwonly]
    · rw [hepwr, hfpwr, hetime, hfnow, hwonly]
    · rw [heplan, hfplan, hwplan]
    · rw [helate, hflate, ← huobj, hwonly]
      rfl
    · have hclusters : clusters (fire w m true) = clusters s := by rw [clusters, clusters, hfsys, hwonly, hsys]
      rw [hetime]
      exact hbeats c (by rw [hclusters]; exact hc)
  · intro exits
    refine ⟨fun h2 => ⟨_, exec_wake hserved, ?_⟩, fun h1 => ?_, fun h3 => ?_, fun h0 v hv => ?_⟩
    · rw [wakeGo, if_neg (by rw [h2]; decide), wakeFrom, if_pos h2, answered_ok]
      exact ⟨rfl, rfl, rfl, obj_putObj_same _ _ _ _, rfl, rfl⟩
    · rw [exec_wake hserved, wakeGo, if_neg (by rw [h1]; decide), wakeFrom, if_neg (by rw [h1]; decide), if_pos h1, answered_ok]
      rfl
    · rw [exec_wake hserved, wakeGo, if_neg (by rw [h3]; decide), wakeFrom, if_neg (by rw [h3]; decide), if_neg (by rw [h3]; decide), answered_ok]
    · refine ⟨?_, ?_⟩
      · rw [exec_wake hserved, wakeGo, if_pos h0, answered_ok]
        rfl
      · change put s 0x7000 9 [v] = _
        rw [put_wake hserved hv, goWrite_wake (.inl h0), wakeGo, if_pos h0, answered_ok]
        rfl
  · obtain ⟨u, hu⟩ : ∃ u, u = cairn (advanceTo s (t0 + msU (obj s 0x7000 8))) 0x0A 4 0 [] := ⟨_, rfl⟩
    obtain ⟨time, hadv⟩ := advanceTo_only s (t0 + msU (obj s 0x7000 8))
    have hanow := advanceTo_now s (t0 + msU (obj s 0x7000 8))
    have hlog := (cairn_logged (advanceTo s (t0 + msU (obj s 0x7000 8))) 0x0A 4 0 []).rest
    rw [← hu] at hlog
    have hunow : u.time.now = max s.time.now (t0 + 90000000 * obj s 0x7000 8) := by rw [hlog, ← msU_eq]; exact hanow
    have husys : u.sys = s.sys := by rw [hlog, hadv]
    have huplan : u.plan = s.plan := by rw [hlog, hadv]
    obtain ⟨v, hv⟩ : ∃ v : State, v = { u with
      sys := { u.sys with inBasecamp := true }, xlat := { u.xlat with keys := [] }, hbm := { u.hbm with mem := [], media := [], save := none } } := ⟨_, rfl⟩
    obtain ⟨w, hw⟩ : ∃ w, w = (List.range (lps v)).foldl (fun s lp => modPort s lp (fun p => { p with link := 0 })) v := ⟨_, rfl⟩
    obtain ⟨⟨m, hwonly⟩, hlinks⟩ := portsDark_below v (lps v)
    rw [← hw] at hwonly hlinks
    have hexec := exec_basecampEntry hs hp ht ho hu hv
    rw [← hw] at hexec
    obtain ⟨hbase, hfault, vs, r, honly⟩ := setFaultN_dark (s := w) (by rw [hwonly, hv])
    refine ⟨_, hexec, hbase, hfault, ?_, ?_, ?_, ?_, ?_, ?_, fun lp hlp => ?_⟩
    · rw [honly, hwonly, hv]
    · rw [honly, hwonly, hv]
    · rw [honly, hwonly, hv]
    · rw [honly, hwonly, hv]
    · rw [honly, hwonly, hv]
      exact huplan
    · rw [honly, hwonly, hv]
      exact hunow
    · rw [honly]
      exact hlinks lp (by rw [lps, hv]; change lp < nLp { u.sys with inBasecamp := true }; rw [husys]; exact hlp)
  · refine ⟨fun h => ?_, fun h => ?_⟩
    · change execSidebandAddressMatch a rd s = _
      rw [execSidebandAddressMatch, if_pos (by simp [h])]
    · intro acks
      have hexec : exec (.sidebandAddressMatch a rd) s =
          if s.sys.inBasecamp then
            if s.sys.basecampFailed then .next (acks (sidebandByte s))
            else .next { acks (sidebandByte s) with sys := { s.sys with inBasecamp := false, phase := .held, pendingCause := 4 } }
          else if started s then .next (wakeFrom (acks (sidebandByte s)) 1) else .next (acks (sidebandByte s)) := by
        change execSidebandAddressMatch a rd s = _
        rw [execSidebandAddressMatch, if_neg (by simp [hp, hv, hf, h])]
        rfl
      refine ⟨fun hb hfail => ?_, fun hb hfail => ?_, fun hs hrun => ?_, fun hb hheld => ?_⟩
      · rw [hexec, if_pos hb, if_pos hfail, sidebandByte, if_pos hb]
      · rw [hexec, if_pos hb, if_neg (by rw [hfail]; decide), sidebandByte, if_pos hb]
      · obtain ⟨-, -, -, hb⟩ := started_facts hs
        rw [if_neg (by rw [hb]; decide), if_pos hs, sidebandByte, if_neg (by rw [hb]; decide), if_pos (by rw [hrun]; rfl)] at hexec
        refine ⟨fun h2 => ?_, fun h1 => ?_, fun h0 => ?_, fun h3 => ?_⟩
        · rw [h2] at hexec
          rw [wakeFrom, if_pos h2] at hexec
          exact ⟨_, hexec, rfl, rfl, rfl, obj_putObj_same _ _ _ _⟩
        · rw [h1] at hexec
          rw [wakeFrom, if_neg (by change ¬s.pwr.state = 2; rw [h1]; decide), if_pos h1] at hexec
          exact hexec
        · rw [h0] at hexec
          rw [wakeFrom, if_neg (by change ¬s.pwr.state = 2; rw [h0]; decide), if_neg (by change ¬s.pwr.state = 1; rw [h0]; decide)] at hexec
          exact hexec
        · rw [h3] at hexec
          rw [wakeFrom, if_neg (by change ¬s.pwr.state = 2; rw [h3]; decide), if_neg (by change ¬s.pwr.state = 1; rw [h3]; decide)] at hexec
          exact hexec
      · have hnot : started s = false := by
          rw [started, hheld]
          exact Bool.and_false _
        rw [hexec, if_neg (by rw [hb]; decide), if_neg (by rw [hnot]; decide), sidebandByte, if_neg (by rw [hb]; decide), if_neg (by rw [hheld]; decide)]

end Sys2Proof.Proofs

/-! The versions of the rule set: staging, commits, retirements and walks (R75 to R84, R349, R397). -/

namespace Sys2Proof.Proofs

open Sys2Proof.Machine Sys2Proof.Claim

/-! ### What the versions come to -/

/-- A walk starts, or waits its turn. -/
def walked (w : VerSt) (discard : Bool) : VerSt :=
  if w.walk.isSome then { w with walkQ := w.walkQ ++ [discard] } else { w with walk := some discard }

/-- The staging version is CURRENT. -/
def committed (w : VerSt) : VerSt := { w with draining := w.current, current := w.staging, staging := 0, waiting := none }

/-- The draining version is gone. -/
def retiredVer (v : VerSt) : VerSt := walked (if v.waiting.isSome then committed { v with draining := 0 } else { v with draining := 0 }) false

/-- The draining version has no frame in flight. -/
def retires (s : State) : Prop := s.col.ver.draining ≠ 0 ∧ inFlightOf s s.col.ver.draining = 0

theorem startWalk_eq (s : State) (discard : Bool) : startWalk s discard = { s with col := { s.col with ver := walked s.col.ver discard } } := rfl

/-! ### Retirement (R79, R81, R83) -/

/-- Only objects of the versions, the versions and the log have changed. -/
structure Versioned (s t : State) : Prop where
  rest : t = { s with obj := t.obj, col := { s.col with ver := t.col.ver }, cairn := t.cairn }
  cairn : t.cairn.compacting = s.cairn.compacting
  objs : ∀ {i a}, a < 256 → i ≠ 0x7800 → i ≠ 0x1021 ∨ (a ≠ 8 ∧ a ≠ 9 ∧ a ≠ 0x0C ∧ a ≠ 0x0D) → Machine.obj t i a = Machine.obj s i a

theorem Versioned.refl (s : State) : Versioned s s := ⟨rfl, rfl, fun _ _ _ => rfl⟩

theorem Versioned.trans {s t u : State} (h : Versioned s t) (h' : Versioned t u) : Versioned s u := by
  refine ⟨?_, h'.cairn.trans h.cairn, fun ha h7 hi => (h'.objs ha h7 hi).trans (h.objs ha h7 hi)⟩
  have hu := h'.rest
  rw [h.rest] at hu
  exact hu

theorem setVer_versioned (s : State) (f : VerSt → VerSt) : Versioned s (setVer s f) := ⟨rfl, rfl, fun _ _ _ => rfl⟩

theorem putObj_versioned (s : State) {a v : Nat} (h : a = 8 ∨ a = 9 ∨ a = 0x0C ∨ a = 0x0D) : Versioned s (putObj s 0x1021 a v) :=
  ⟨rfl, rfl, fun hb _ hi => obj_putObj_ne _ _ (by omega) hb (by omega)⟩

theorem cairn_versioned (s : State) (src code sev : Nat) (data : List Byte) : Versioned s (cairn s src code sev data) := by
  have hlog := cairn_logged s src code sev data
  refine ⟨?_, hlog.compacting, fun ha h7 _ => hlog.obj ha (.inl h7)⟩
  have hcol : (cairn s src code sev data).col = s.col := by rw [hlog.rest]
  rw [hcol]
  exact hlog.rest

theorem doCommit_versioned (s : State) (at_ : Nat) : Versioned s (doCommit s at_) :=
  (setVer_versioned s _).trans ((putObj_versioned _ (.inl rfl)).trans (putObj_versioned _ (.inr (.inr (.inl rfl)))))

theorem doCommit_facts (s : State) (at_ : Nat) : let t := doCommit s at_
    t.col.ver = committed s.col.ver ∧ obj t 0x1021 0x0C = at_ ∧ obj t 0x1021 9 = obj s 0x1021 9 := by
  obtain ⟨u, hu⟩ : ∃ u, u = setVer s committed := ⟨_, rfl⟩
  have ht : doCommit s at_ = putObj (bump u 0x1021 8) 0x1021 0x0C at_ := by rw [hu]; rfl
  dsimp only
  rw [ht]
  refine ⟨by rw [hu]; rfl, obj_putObj_same _ _ _ _, ?_⟩
  rw [obj_putObj_ne _ _ (by decide) (by decide) (.inr (by decide)), obj_bump_ne _ (by decide) (by decide) (.inr (by decide)), hu]
  rfl

theorem retireDraining_not {s : State} (h : ¬retires s) : retireDraining s = s := by
  rw [retires] at h
  rw [retireDraining]
  exact if_neg (by simpa using h)

/-- A retirement that finds no commit waiting. -/
theorem retireDraining_alone {s : State} (h : retires s) (hw : s.col.ver.waiting = none) :
    retireDraining s = startWalk (setVer s (fun v => { v with draining := 0 })) false := by
  rw [retires] at h
  rw [retireDraining]
  dsimp only
  rw [if_pos (by simpa using h), hw]

/-- A retirement that lets a waiting commit take effect. -/
theorem retireDraining_commits {s : State} {u : Nat} (h : retires s) (hw : s.col.ver.waiting = some u) {c : State}
    (hc : c = putObj (bump (doCommit (setVer s (fun v => { v with draining := 0 })) (ft s)) 0x1021 9) 0x1021 0x0D ((ft s - u) % 2 ^ 32)) :
    retireDraining s = startWalk (cairn c 3 2 1 (verData c ++ toLE 4 (ft s - u))) false := by
  rw [retires] at h
  rw [retireDraining]
  dsimp only
  rw [if_pos (by simpa using h), hw, hc]
  rfl

theorem retireDraining_facts (s : State) : let t := retireDraining s
    Versioned s t ∧ (retires s → t.col.ver = retiredVer s.col.ver) ∧ (¬retires s → t = s) ∧
      (retires s → ∀ u, s.col.ver.waiting = some u → obj t 0x1021 0x0C = ft s ∧ obj t 0x1021 0x0D = (ft s - u) % 2 ^ 32 ∧
        obj t 0x1021 9 = (obj s 0x1021 9 + 1) % 2 ^ 64) := by
  intro t
  by_cases h : retires s
  · obtain ⟨b, hb⟩ : ∃ b, b = setVer s (fun v => { v with draining := 0 }) := ⟨_, rfl⟩
    have hsb : Versioned s b := hb ▸ setVer_versioned s _
    have hbver : b.col.ver = { s.col.ver with draining := 0 } := by rw [hb]; rfl
    cases hw : s.col.ver.waiting with
    | none =>
      have ht : t = startWalk b false := by
        change retireDraining s = _
        rw [retireDraining_alone h hw, hb]
      rw [ht]
      refine ⟨hsb.trans (setVer_versioned b _), fun _ => ?_, fun h' => absurd h h', fun _ => nofun⟩
      change walked b.col.ver false = _
      rw [retiredVer, hbver, if_neg (by rw [hw]; exact Bool.false_ne_true)]
    | some u =>
      obtain ⟨d, hd⟩ : ∃ d, d = doCommit b (ft s) := ⟨_, rfl⟩
      obtain ⟨c, hc⟩ : ∃ c, c = putObj (bump d 0x1021 9) 0x1021 0x0D ((ft s - u) % 2 ^ 32) := ⟨_, rfl⟩
      obtain ⟨l, hl⟩ : ∃ l, l = cairn c 3 2 1 (verData c ++ toLE 4 (ft s - u)) := ⟨_, rfl⟩
      have ht : t = startWalk l false := by
        change retireDraining s = _
        rw [retireDraining_commits h hw (c := c) (by rw [hc, hd, hb]), hl]
      have hbd : Versioned b d := hd ▸ doCommit_versioned b _
      have hdc : Versioned d c := by
        rw [hc]
        exact (putObj_versioned d (.inr (.inl rfl))).trans (putObj_versioned _ (.inr (.inr (.inr rfl))))
      have hlog := cairn_logged c 3 2 1 (verData c ++ toLE 4 (ft s - u))
      rw [← hl] at hlog
      obtain ⟨hdver, hdat, hd9⟩ := doCommit_facts b (ft s)
      rw [← hd] at hdver hdat hd9
      have hlver : l.col.ver = committed { s.col.ver with draining := 0 } := by
        rw [hlog.rest, hc, ← hbver]
        exact hdver
      rw [ht]
      refine ⟨(hsb.trans (hbd.trans (hdc.trans (hl ▸ cairn_versioned c _ _ _ _)))).trans (setVer_versioned l _), fun _ => ?_,
        fun h' => absurd h h', fun _ u' hu' => ?_⟩
      · change walked l.col.ver false = _
        rw [retiredVer, hw, hlver]
        rfl
      · cases hu'
        change obj l _ _ = _ ∧ obj l _ _ = _ ∧ obj l _ _ = _
        rw [hlog.obj (by decide) (.inl (by decide)), hlog.obj (by decide) (.inl (by decide)), hlog.obj (by decide) (.inl (by decide)), hc]
        refine ⟨?_, obj_putObj_same _ _ _ _, ?_⟩
        · rw [obj_putObj_ne _ _ (by decide) (by decide) (.inr (by decide)), obj_bump_ne _ (by decide) (by decide) (.inr (by decide)), hdat]
        · rw [obj_putObj_ne _ _ (by decide) (by decide) (.inr (by decide)), obj_bump_same, hd9, hb]
          rfl
  · have ht : t = s := retireDraining_not h
    rw [ht]
    exact ⟨.refl s, fun h' => absurd h' h, fun _ => rfl, fun h' => absurd h' h⟩

/-! ### Walks (R83, R84) -/

/-- Only objects, the HBM, the log and the cache of rules have changed. -/
def Swept (s t : State) : Prop := ∃ o h k l, t = { s with obj := o, hbm := h, cairn := k, col := { s.col with cache := l } }

theorem Swept.refl (s : State) : Swept s s := ⟨_, _, _, _, rfl⟩

theorem Swept.trans {s t u : State} (h : Swept s t) (h' : Swept t u) : Swept s u := by
  obtain ⟨o, m, k, l, rfl⟩ := h
  obtain ⟨o', m', k', l', rfl⟩ := h'
  exact ⟨_, _, _, _, rfl⟩

theorem Swept.foldl {α : Type} {f : State → α → State} (hf : ∀ s x, Swept s (f s x)) (l : List α) (s : State) : Swept s (l.foldl f s) :=
  foldl_rel (R := Swept) .refl (fun h h' => h.trans h') hf l s

theorem hbmWrite_swept (s : State) (k : ReqClass) (a : Nat) (bs : List Byte) : Swept s (hbmWrite s k a bs) := by
  obtain ⟨o, h, e⟩ := hbmWrite_only s k a bs
  exact ⟨o, h, _, _, e⟩

theorem healBucket_swept (s : State) (c : Nat × Option Nat) (b : Nat) : Swept s (healBucket s c b).1 := by
  rw [healBucket]
  dsimp only
  split
  · exact .refl s
  · split
    · split
      · exact .refl s
      · exact hbmWrite_swept s _ _ _
    · exact .refl s

theorem ruleMedia_swept (s : State) (b slot : Nat) (key : BitVec 64) : Swept s (ruleMedia s b slot key) := by
  obtain ⟨o, k, e⟩ := cairn_only (bump s 0x4801 8) 4 2 3 (toLE 4 b ++ toLE 1 slot ++ toLE 8 key.toNat)
  exact ⟨o, _, k, _, e⟩

theorem readBuckets_swept (s : State) (c : Nat × Option Nat) (key : BitVec 64) (bs : List Nat) : Swept s (readBuckets s c key bs) := by
  refine .foldl (fun s b => ?_) bs s
  have hheal := healBucket_swept s c b
  split
  · next v i h =>
    rw [h] at hheal
    exact hheal.trans (ruleMedia_swept v b i key)
  · next v h =>
    rw [h] at hheal
    exact hheal

theorem setRule_swept (s : State) (p : Nat × Nat) (e : RuleEntry) : Swept s (setRule s p e) := by
  obtain ⟨o, h, e⟩ := writeCopies_only s s.hbm.ruleBaseA s.hbm.ruleBaseB (256 * p.1 + 64 * p.2) (if e.valid then ruleBytes e else List.replicate 64 0)
  exact ⟨o, h, _, _, e⟩

theorem cacheDrop_swept (s : State) (k : BitVec 64) : Swept s (cacheDrop s k) := ⟨_, _, _, _, rfl⟩

theorem reclaim_swept (s : State) : Swept s (reclaim s) := by
  have hentry (oldest : BitVec 16) (u : State) (e : (Nat × Nat) × RuleEntry) :
      Swept u (if e.2.last != 0 && verLe e.2.last oldest then cacheDrop (setRule u e.1 emptyRule) e.2.key else u) := by
    split
    · exact (setRule_swept u _ _).trans (cacheDrop_swept _ _)
    · exact .refl u
  exact (readBuckets_swept s _ _ _).trans (.foldl (hentry _) _ _)

theorem discardWalk_swept (s : State) (d : BitVec 16) : Swept s (discardWalk s d) := by
  rw [discardWalk]
  refine (readBuckets_swept s _ _ _).trans (.foldl (fun u e => ?_) _ _)
  split
  · exact (setRule_swept u _ _).trans (cacheDrop_swept _ _)
  · split
    · exact (setRule_swept u _ _).trans (cacheDrop_swept _ _)
    · exact .refl u

/-! ### The commit event (R79, R80, R84, R397) -/

theorem cairn_plan (s : State) (p : PlanSt) (src code sev : Nat) (data : List Byte) :
    cairn { s with plan := p } src code sev data = { cairn s src code sev data with plan := p } := by
  have hon : cairnOn { s with plan := p } = cairnOn s := rfl
  have hobj : obj { s with plan := p } 0x7800 9 = obj s 0x7800 9 := rfl
  have hspend : cairnSpend { s with plan := p } sev = cairnSpend s sev := rfl
  rw [Machine.cairn, Machine.cairn, hon, hobj, hspend]
  split
  · rfl
  · split
    · rfl
    · change (if s.cairn.buffer.length < 16 then _ else _) = _
      split
      · rfl
      · rfl

/-- The settling of FtState does not look at the plan. -/
theorem settleTime_plan (s : State) (p : PlanSt) : settleTime { s with plan := p } = { settleTime s with plan := p } := by
  have hlost (u : State) (at_ : Nat) : sourceLost { u with plan := p } at_ = { sourceLost u at_ with plan := p } := by
    rw [sourceLost, sourceLost]
    change (if u.time.state = _ then _ else if u.time.state = _ then _ else _) = _
    split
    · exact cairn_plan (bump (modTime (draw u) (fun t => { t with
        state := ftHoldover, holdoverAt := some at_, rate := disciplined u, slewLeft := 0 })) 0x6800 0x0B) p 9 2 1 (toLE 8 (obj u 0x6800 7))
    · split
      · rfl
      · rfl
  have hoverdue (u : State) : loseOverdue { u with plan := p } = { loseOverdue u with plan := p } := by
    rw [loseOverdue, loseOverdue, show lossDue { u with plan := p } = lossDue u from rfl]
    split
    · change (if _ ≤ u.time.now then _ else _) = _
      split
      · exact hlost u _
      · rfl
    · rfl
  have hlimit (u : State) : limitHoldover { u with plan := p } = { limitHoldover u with plan := p } := by
    rw [limitHoldover, limitHoldover, show holdoverDue { u with plan := p } = holdoverDue u from rfl]
    split
    · change (if _ ≤ u.time.now then _ else _) = _
      split
      · rfl
      · rfl
    · rfl
  rw [settleTime, settleTime, show started { s with plan := p } = started s from rfl]
  split
  · rfl
  · rw [hoverdue, hlimit]

/-- The arbiter's answer to a start of class 7 does not look at versions, records or the plan. -/
theorem maintTest_versions {s t : State} (h : ∃ o c k p, t = { s with obj := o, col := c, cairn := k, plan := p })
    (hc : t.cairn.compacting = s.cairn.compacting) (ho : ∀ i, 0x4000 ≤ i → i < 0x5000 → obj t i 1 = obj s i 1) :
    maintTest t 7 (obj t 0x4820 1) = maintTest s 7 (obj s 0x4820 1) := by
  obtain ⟨o, c, l, p, h⟩ := h
  have hctl : obj t 0x4820 1 = obj s 0x4820 1 := ho _ (by decide) (by decide)
  have hsys : t.sys = s.sys := by rw [h]
  have hout : outCause t = outCause s := outCause_congr hsys fun c hc => ho _ (by omega) (by omega)
  have hservice : serviceState t = serviceState s := by rw [serviceState, serviceState, hout, hsys]
  have habsent : absent t = absent s := by rw [absent, absent, hsys]
  have hruns (r : Nat) : (r != 7 && maintRuns t r) = (r != 7 && maintRuns s r) := by
    match r with
    | 0 => rw [maintRuns, maintRuns, hctl]
    | 1 => rw [maintRuns, maintRuns, h]
    | 2 => rw [maintRuns, maintRuns, h]
    | 3 => rw [maintRuns, maintRuns, h]; rfl
    | 4 => rw [maintRuns, maintRuns, h]
    | 5 => rw [maintRuns, maintRuns, h]
    | 6 => rw [maintRuns, maintRuns, hc]
    | 7 => rfl
    | n + 8 => rfl
  rw [Machine.maintTest, Machine.maintTest, hctl, hservice, habsent]
  simp only [hruns]

/-- An object is counted, and the count goes to the log. -/
theorem countedRecord {w : State} {i a : Nat} (ha : a < 256) (hi : i ≠ 0x7800) (src code sev : Nat) (data : List Byte) :
    let t := cairn (bump w i a) src code sev data
    t = { w with obj := t.obj, cairn := t.cairn } ∧ obj t i a = (obj w i a + 1) % 2 ^ 64 ∧
      ∀ {j b}, b < 256 → j ≠ 0x7800 → i ≠ j ∨ a ≠ b → obj t j b = obj w j b := by
  have hlog := cairn_logged (bump w i a) src code sev data
  refine ⟨hlog.rest, (hlog.obj ha (.inl hi)).trans (obj_bump_same w i a), fun hb hj hne => ?_⟩
  exact (hlog.obj hb (.inl hj)).trans (obj_bump_ne w ha hb hne)

/-- A commit event comes to the version `r` that its retirement leaves: not staged, refused, joined, in effect or waiting. -/
theorem commitEvent_empty {r : State} (at_ : Nat) (h : r.col.ver.staging = 0) : commitEvent r at_ = cairn (bump r 0x1021 0x0A) 3 1 1 (verData r) := by
  rw [commitEvent]
  exact if_pos h

theorem commitEvent_refused {r : State} {k : Nat} (at_ : Nat) (h : r.col.ver.staging ≠ 0) (ht : maintTest r 7 (obj r 0x4820 1) = some k) :
    commitEvent r at_ = cairn (bump (maintRefuse r 7 k) 0x1021 0x0B) 3 3 1 (verData (maintRefuse r 7 k) ++ toLE 1 k) := by
  rw [commitEvent]
  refine (if_neg h).trans ?_
  rw [maintStart_refused ht]

theorem commitEvent_accepted {r : State} (at_ : Nat) (h : r.col.ver.staging ≠ 0) (ht : maintTest r 7 (obj r 0x4820 1) = none) :
    commitEvent r at_ = if r.col.ver.waiting.isSome then cairn (bump (bump r 0x8000 5) 0x1021 0x0F) 3 4 1 (verData (bump r 0x8000 5))
      else if r.col.ver.draining = 0 then doCommit (bump r 0x8000 5) at_
      else setVer (bump r 0x8000 5) (fun v => { v with waiting := some at_ }) := by
  rw [commitEvent]
  refine (if_neg h).trans ?_
  rw [maintStart_accepted ht]

/-- The state in which a commit event takes its retirement. -/
def commitDue (s : State) (e : ItinEvent) : State :=
  bump { settleTime (advanceToFt s e.ft) with plan := { s.plan with next := s.plan.next + 1 } } 0x6801 3

theorem exec_versionCommit {s : State} {e : ItinEvent} (h : nextEvent s 1 = some e) (h1 : (settleTime (advanceToFt s e.ft)).time.state ≠ 1)
    (h4 : (settleTime (advanceToFt s e.ft)).time.state ≠ 4) :
    exec .versionCommit s = .next (actCommit (commitDue s e) s.plan.next e e.ft) := by
  have htyp : e.typ = 1 := by
    have := Option.filter_eq_some_iff.mp h
    simpa using this.2
  obtain ⟨time, hadv⟩ := advanceToFt_only s e.ft
  obtain ⟨u, hu⟩ : ∃ u, u = advanceToFt s e.ft := ⟨_, rfl⟩
  have huplan : u.plan = s.plan := by rw [hu, hadv]
  have hsettled := settleTime_plan u { s.plan with next := s.plan.next + 1 }
  obtain ⟨y, hy⟩ : ∃ y : State, y = { settleTime u with plan := { s.plan with next := s.plan.next + 1 } } := ⟨_, rfl⟩
  have hskip : skipped y e = false := by
    have hstate : y.time.state = (settleTime (advanceToFt s e.ft)).time.state := by rw [hy, hu]
    rw [skipped, hstate, beq_eq_false_iff_ne.mpr h1, beq_eq_false_iff_ne.mpr h4]
    exact Bool.and_false _
  change fireEvent s 1 = _
  rw [fireEvent, h]
  dsimp only
  rw [← hu, fire]
  dsimp only
  rw [huplan, hsettled, ← hy, if_neg (by rw [hskip]; decide), act, htyp, commitDue, ← hu, ← hy]
  rfl

theorem commitDue_facts (s : State) (e : ItinEvent) : let y := settleTime (advanceToFt s e.ft)
    let z := commitDue s e
    z.time = y.time ∧ z.ropes = s.ropes ∧ z.plan.next = s.plan.next + 1 ∧ z.col = s.col ∧
      obj z 0x6801 3 = (obj s 0x6801 3 + 1) % 2 ^ 64 ∧
      (∀ {i a}, a < 256 → i ≠ 0x6800 → i ≠ 0x7800 → i ≠ 0x6801 ∨ a ≠ 3 → obj z i a = obj s i a) ∧
      maintTest z 7 (obj z 0x4820 1) = maintTest y 7 (obj s 0x4820 1) := by
  intro y z
  obtain ⟨time, hadv⟩ := advanceToFt_only s e.ft
  obtain ⟨f, time', o, k, honly⟩ := settleTime_only (advanceToFt s e.ft)
  obtain ⟨-, hyobj⟩ := settleTime_facts (advanceToFt s e.ft)
  obtain ⟨w, hw⟩ : ∃ w : State, w = { y with plan := { s.plan with next := s.plan.next + 1 } } := ⟨_, rfl⟩
  have hz : z = bump w 0x6801 3 := by rw [hw]; rfl
  have hys {i a : Nat} (ha : a < 256) (h6 : i ≠ 0x6800) (h7 : i ≠ 0x7800) : obj y i a = obj s i a := by
    refine (hyobj ha h6 h7).trans ?_
    rw [hadv]
    rfl
  have hwobj (i a : Nat) : obj w i a = obj y i a := by rw [hw]; rfl
  have hzy : z = { y with obj := z.obj, plan := z.plan } := by rw [hz, hw]; rfl
  have hyrest : y.ropes = s.ropes ∧ y.col = s.col := by
    change (settleTime (advanceToFt s e.ft)).ropes = _ ∧ (settleTime (advanceToFt s e.ft)).col = _
    rw [honly, hadv]
    exact ⟨rfl, rfl⟩
  refine ⟨by rw [hz, hw]; rfl, ?_, by rw [hz, hw]; rfl, ?_, ?_, fun ha h6 h7 hne => ?_, ?_⟩
  · rw [hzy]
    exact hyrest.1
  · rw [hzy]
    exact hyrest.2
  · rw [hz, obj_bump_same, hwobj, hys (by decide) (by decide) (by decide)]
  · rw [hz, obj_bump_ne _ (by decide) ha (hne.imp Ne.symm Ne.symm), hwobj, hys ha h6 h7]
  · rw [← hys (by decide) (by decide) (by decide)]
    refine maintTest_versions ⟨z.obj, y.col, y.cairn, z.plan, hzy⟩ ?_ fun i hlo hhi => ?_
    · rw [hz, hw]
      rfl
    · rw [hz, obj_bump_ne _ (by decide) (by decide) (.inl (by omega)), hwobj]

/-- The state of the versions once the retirement that a commit event finds has counted. -/
theorem commitRetired_facts (s : State) (e : ItinEvent) : let y := settleTime (advanceToFt s e.ft)
    let r := retireDraining (commitDue s e)
    r.time = y.time ∧ r.ropes = s.ropes ∧ r.plan.next = s.plan.next + 1 ∧
      r.col.ver = (if s.col.ver.draining ≠ 0 ∧ inFlightOf s s.col.ver.draining = 0 then retiredVer s.col.ver else s.col.ver) ∧
      obj r 0x6801 3 = (obj s 0x6801 3 + 1) % 2 ^ 64 ∧ obj r 0x6801 7 = obj s 0x6801 7 ∧ obj r 0x1021 0x0A = obj s 0x1021 0x0A ∧
      obj r 0x1021 0x0B = obj s 0x1021 0x0B ∧ obj r 0x1021 0x0F = obj s 0x1021 0x0F ∧
      maintTest r 7 (obj r 0x4820 1) = maintTest y 7 (obj s 0x4820 1) := by
  intro y r
  obtain ⟨htime, hropes, hplan, hcol, hcount, hobj, htest⟩ := commitDue_facts s e
  obtain ⟨hver, hretires, hnot, -⟩ := retireDraining_facts (commitDue s e)
  have hsame {i a : Nat} (ha : a < 256) (h7 : i ≠ 0x7800) (h : i ≠ 0x1021 ∨ (a ≠ 8 ∧ a ≠ 9 ∧ a ≠ 0x0C ∧ a ≠ 0x0D)) :
      obj r i a = obj (commitDue s e) i a := hver.objs ha h7 h
  refine ⟨?_, ?_, ?_, ?_, ?_, ?_, ?_, ?_, ?_, ?_⟩
  · change (retireDraining (commitDue s e)).time = _
    rw [hver.rest]
    exact htime
  · change (retireDraining (commitDue s e)).ropes = _
    rw [hver.rest]
    exact hropes
  · change (retireDraining (commitDue s e)).plan.next = _
    rw [hver.rest]
    exact hplan
  · have hiff : retires (commitDue s e) ↔ s.col.ver.draining ≠ 0 ∧ inFlightOf s s.col.ver.draining = 0 := by
      rw [retires, inFlightOf, inFlightOf, hcol]
    split
    · next h => rw [hretires (hiff.mpr h), hcol]
    · next h =>
      change (retireDraining (commitDue s e)).col.ver = _
      rw [hnot fun h' => h (hiff.mp h'), hcol]
  · rw [hsame (by decide) (by decide) (.inl (by decide)), hcount]
  · rw [hsame (by decide) (by decide) (.inl (by decide)), hobj (by decide) (by decide) (by decide) (.inr (by decide))]
  · rw [hsame (by decide) (by decide) (.inr (by decide)), hobj (by decide) (by decide) (by decide) (.inl (by decide))]
  · rw [hsame (by decide) (by decide) (.inr (by decide)), hobj (by decide) (by decide) (by decide) (.inl (by decide))]
  · rw [hsame (by decide) (by decide) (.inr (by decide)), hobj (by decide) (by decide) (by decide) (.inl (by decide))]
  · rw [← htest]
    exact maintTest_versions ⟨_, _, _, _, hver.rest⟩ hver.cairn fun i hlo hhi => hver.objs (by decide) (by omega) (.inl (by omega))

/-! ### The obligation -/

theorem exec_stageOpen {s : State} (h : Served s 0x1021) : exec .stageOpen s = .next (answered (stageOpen s)) :=
  put_command (idx := 0x1021) (sub := 4) h (show page s.sys 0x1021 = some (_, _) from rfl) rfl rfl (by decide)

theorem exec_stageDiscard {s : State} (h : Served s 0x1021) : exec .stageDiscard s = .next (answered (stageDiscard s)) :=
  put_command (idx := 0x1021) (sub := 5) h (show page s.sys 0x1021 = some (_, _) from rfl) rfl rfl (by decide)

theorem stageDiscard_refused {s : State} {k : Nat} (h : s.col.ver.staging ≠ 0) (ht : maintTest s 7 (obj s 0x4820 1) = some k) :
    stageDiscard s = (maintRefuse s 7 k, abMaint, k) := by
  rw [stageDiscard]
  refine (if_neg h).trans ?_
  rw [maintStart_refused ht]

theorem stageDiscard_accepted {s : State} (h : s.col.ver.staging ≠ 0) (ht : maintTest s 7 (obj s 0x4820 1) = none) : ∃ u : State,
    stageDiscard s = ackOk (startWalk (setVer u (fun v => { v with discarding := v.staging, staging := 0, waiting := none })) true) ∧
      u.col = s.col := by
  have hlog := (cairn_logged (bump (bump s 0x8000 5) 0x1021 0x0A) 3 1 1 (verData (bump s 0x8000 5))).rest
  have heq : stageDiscard s = ackOk (startWalk (setVer (if s.col.ver.waiting.isSome
      then cairn (bump (bump s 0x8000 5) 0x1021 0x0A) 3 1 1 (verData (bump s 0x8000 5)) else bump s 0x8000 5)
      (fun v => { v with discarding := v.staging, staging := 0, waiting := none })) true) := by
    rw [stageDiscard]
    refine (if_neg h).trans ?_
    rw [maintStart_accepted ht]
  refine ⟨_, heq, ?_⟩
  split
  · rw [hlog]
    rfl
  · rfl

/-- Settles O36: staging, discarding, retirement, walks and commits. -/
theorem versionsStageCommitAndRetire : Obligations.VersionsStageCommitAndRetire := by
  intro s v walks commits
  refine ⟨fun hserved => ⟨fun hs hd => ⟨_, exec_stageOpen hserved, ?_⟩, fun h => ⟨_, exec_stageOpen hserved, ?_⟩,
    fun hs => ⟨_, exec_stageDiscard hserved, ?_⟩, fun k hs ht => ⟨_, exec_stageDiscard hserved, ?_⟩, fun hs ht => ?_⟩, ?_⟩
  · have hne : ¬(s.col.ver.staging != 0 || s.col.ver.discarding != 0) = true := by
      rw [show s.col.ver.staging = 0 from hs, show s.col.ver.discarding = 0 from hd]
      decide
    rw [stageOpen, if_neg hne, answered_ok]
    exact ⟨rfl, rfl⟩
  · have hne : (s.col.ver.staging != 0 || s.col.ver.discarding != 0) = true := by
      rw [Bool.or_eq_true, bne_iff_ne, bne_iff_ne]
      exact h
    rw [stageOpen, if_pos hne, answered_abort _ (by decide)]
    exact ⟨rfl, rfl⟩
  · rw [stageDiscard]
    rw [if_pos (show s.col.ver.staging = 0 from hs), answered_abort _ (by decide)]
    exact ⟨rfl, rfl⟩
  · obtain ⟨o, c, hrest⟩ := maintRefuse_rest s 7 k
    rw [stageDiscard_refused hs ht, answered_abort _ (by decide)]
    refine ⟨rfl, ?_⟩
    rw [hrest]
    rfl
  · obtain ⟨u, hu, hcol⟩ := stageDiscard_accepted hs ht
    refine ⟨_, (exec_stageDiscard hserved).trans (by rw [hu, answered_ok]), rfl, ?_⟩
    change walked { u.col.ver with discarding := u.col.ver.staging, staging := 0, waiting := none } true = _
    rw [hcol]
    rfl
  · intro hretires retired
    obtain ⟨hver, hretired, -, hcounts⟩ := retireDraining_facts s
    refine ⟨fun hon hr => ⟨_, live_on hon _, ?_, ?_, hretired hr, hcounts hr⟩, fun hr => ?_, fun d hon hd => ?_, fun e he => ?_⟩
    · rw [hver.rest]
    · rw [hver.rest]
    · have hsame : retireDraining s = s := retireDraining_not hr
      change live s (.next (retireDraining s)) = _
      rw [hsame, live, ite_self]
    · obtain ⟨w, hw⟩ : ∃ w, w = if d then discardWalk s s.col.ver.discarding else reclaim s := ⟨_, rfl⟩
      have hswept : Swept s w := by
        rw [hw]
        split
        · exact discardWalk_swept s _
        · exact reclaim_swept s
      obtain ⟨o, m, k, l, hrest⟩ := hswept
      have hexec : exec .reclaimWalkDone s = .next (setVer (stir w) (fun v => { v with
          discarding := if d then 0 else v.discarding, walk := v.walkQ.head?, walkQ := v.walkQ.tail })) := by
        refine (live_on hon _).trans ?_
        rw [show s.col.ver.walk = some d from hd]
        dsimp only
        rw [← hw]
      refine ⟨_, hexec, ?_, ?_, ?_⟩
      · change w.ropes = _
        rw [hrest]
      · change w.tbl = _
        rw [hrest]
      · change { w.col.ver with discarding := if d then 0 else w.col.ver.discarding, walk := w.col.ver.walkQ.head?, walkQ := w.col.ver.walkQ.tail } = _
        rw [hrest]
    · intro y h1 h4 runs want v' test
      obtain ⟨htime, hropes, hplan, hrver, hcount, hr7, hrA, hrB, hrF, hrtest⟩ := commitRetired_facts s e
      obtain ⟨r, hr⟩ : ∃ r, r = retireDraining (commitDue s e) := ⟨_, rfl⟩
      rw [← hr] at htime hropes hplan hrver hcount hr7 hrA hrB hrF hrtest
      have hrver : r.col.ver = v' := hrver
      have hexec : exec .versionCommit s = .next (if v'.staging.toNat != 0 && want != 0 && v'.staging.toNat != want
          then itinRecord (bump r 0x6801 7) s.plan.next e else commitEvent r e.ft) := by
        rw [exec_versionCommit he h1 h4, actCommit, ← hr, hrver]
      have hnat : v'.staging ≠ 0 → v'.staging.toNat ≠ 0 := fun h h' => h (BitVec.eq_of_toNat_eq (by simpa using h'))
      have hpasses (h : v'.staging = 0 ∨ want = 0 ∨ want = v'.staging.toNat) :
          exec .versionCommit s = .next (commitEvent r e.ft) := by
        rw [hexec, if_neg]
        rcases h with h | h | h
        · rw [h]
          simp
        · rw [h]
          simp
        · rw [h]
          simp
      have hruns {t : State} {f : State → Prop} (hx : exec .versionCommit s = .next t) (ht : t.time = r.time) (hro : t.ropes = r.ropes)
          (hp : t.plan = r.plan) (ho : obj t 0x6801 3 = obj r 0x6801 3) (hf : f t) : runs f :=
        ⟨t, hx, ht.trans htime, hro.trans hropes, by rw [hp, hplan], ho.trans hcount, hf⟩
      refine ⟨fun hs hw hne => ?_, fun hs => ?_, fun hs hw => ⟨fun k hk => ?_, fun hk hwait => ?_, fun hk hwait hdr => ?_, fun hk hwait hdr => ?_⟩⟩
      · have hx : exec .versionCommit s = .next (cairn (bump r 0x6801 7) 9 3 1 (toLE 2 s.plan.next ++ toLE 1 e.typ)) := by
          rw [hexec, if_pos (by simp [hnat hs, hw, Ne.symm hne])]
          rfl
        obtain ⟨hrest, hself, hothers⟩ := countedRecord (w := r) (i := 0x6801) (a := 7) (by decide) (by decide) 9 3 1 (toLE 2 s.plan.next ++ toLE 1 e.typ)
        refine hruns hx (by rw [hrest]) (by rw [hrest]) (by rw [hrest]) (hothers (by decide) (by decide) (.inr (by decide))) ⟨?_, ?_⟩
        · rw [hrest]
          exact hrver
        · rw [hself, hr7]
      · have hx := (hpasses (.inl hs)).trans (by rw [commitEvent_empty e.ft (by rw [hrver]; exact hs)])
        obtain ⟨hrest, hself, hothers⟩ := countedRecord (w := r) (i := 0x1021) (a := 0x0A) (by decide) (by decide) 3 1 1 (verData r)
        refine hruns hx (by rw [hrest]) (by rw [hrest]) (by rw [hrest]) (hothers (by decide) (by decide) (.inl (by decide))) ⟨?_, ?_⟩
        · rw [hrest]
          exact hrver
        · rw [hself, hrA]
      · have hx := (hpasses (.inr hw)).trans (by rw [commitEvent_refused e.ft (by rw [hrver]; exact hs) (hrtest.trans hk)])
        obtain ⟨o, c, hrefused⟩ := maintRefuse_rest r 7 k
        obtain ⟨hrest, hself, hothers⟩ := countedRecord (w := maintRefuse r 7 k) (i := 0x1021) (a := 0x0B) (by decide) (by decide) 3 3 1
          (verData (maintRefuse r 7 k) ++ toLE 1 k)
        refine hruns hx (by rw [hrest, hrefused]) (by rw [hrest, hrefused]) (by rw [hrest, hrefused]) ?_ ⟨?_, ?_⟩
        · rw [hothers (by decide) (by decide) (.inl (by decide)), maintRefuse_objs r 7 k (by decide) (by decide) (by decide)]
        · rw [hrest, hrefused]
          exact hrver
        · rw [hself, maintRefuse_objs r 7 k (by decide) (by decide) (by decide), hrB]
      · have hx := (hpasses (.inr hw)).trans (by rw [commitEvent_accepted e.ft (by rw [hrver]; exact hs) (hrtest.trans hk), if_pos (by rw [hrver]; exact hwait)])
        obtain ⟨hrest, hself, hothers⟩ := countedRecord (w := bump r 0x8000 5) (i := 0x1021) (a := 0x0F) (by decide) (by decide) 3 4 1
          (verData (bump r 0x8000 5))
        refine hruns hx (by rw [hrest]; rfl) (by rw [hrest]; rfl) (by rw [hrest]; rfl) ?_ ⟨?_, ?_⟩
        · rw [hothers (by decide) (by decide) (.inl (by decide)), obj_bump_ne _ (by decide) (by decide) (.inl (by decide))]
        · rw [hrest]
          exact hrver
        · rw [hself, obj_bump_ne _ (by decide) (by decide) (.inl (by decide)), hrF]
      · have hx := (hpasses (.inr hw)).trans (by rw [commitEvent_accepted e.ft (by rw [hrver]; exact hs) (hrtest.trans hk),
          if_neg (by rw [hrver, hwait]; exact Bool.false_ne_true), if_pos (by rw [hrver]; exact hdr)])
        obtain ⟨hcommitted, hat, -⟩ := doCommit_facts (bump r 0x8000 5) e.ft
        have hversioned := doCommit_versioned (bump r 0x8000 5) e.ft
        refine hruns hx (by rw [hversioned.rest]; rfl) (by rw [hversioned.rest]; rfl) (by rw [hversioned.rest]; rfl) ?_ ⟨?_, hat⟩
        · rw [hversioned.objs (by decide) (by decide) (.inl (by decide)), obj_bump_ne _ (by decide) (by decide) (.inl (by decide))]
        · rw [hcommitted]
          change committed r.col.ver = _
          rw [hrver]
          rfl
      · have hx := (hpasses (.inr hw)).trans (by rw [commitEvent_accepted e.ft (by rw [hrver]; exact hs) (hrtest.trans hk),
          if_neg (by rw [hrver, hwait]; exact Bool.false_ne_true), if_neg (by rw [hrver]; exact hdr)])
        refine hruns hx rfl rfl rfl (obj_bump_ne r (by decide) (by decide) (.inl (by decide))) ?_
        change { r.col.ver with waiting := some e.ft } = _
        rw [hrver]

end Sys2Proof.Proofs

/-! Fabric time: measurements, steps and slews, the PTP slave, and the loss of a source (R342 to R347). -/

namespace Sys2Proof.Proofs

open Sys2Proof.Machine Sys2Proof.Claim

/-! ### A step of FT and the calendar (R311) -/

/-- Only the shapers, their values and the calendar's count have changed. -/
structure Shaped (s t : State) : Prop where
  rest : t = { s with obj := t.obj, tm := t.tm }
  objs : ∀ {i a}, a < 0x11 → i ≠ 0x5821 → Machine.obj t i a = Machine.obj s i a

theorem Shaped.refl (s : State) : Shaped s s := ⟨rfl, fun _ _ => rfl⟩

theorem Shaped.trans {s t u : State} (h : Shaped s t) (h' : Shaped t u) : Shaped s u := by
  refine ⟨?_, fun ha hi => (h'.objs ha hi).trans (h.objs ha hi)⟩
  have hu := h'.rest
  rw [h.rest] at hu
  exact hu

theorem setShape_shaped (s : State) (e : CalEntry) : Shaped s (setShape s e) := by
  have hput (u : State) (v w : Nat) : Shaped u (putObj (putObj u (0x3000 + e.tid) 0x11 v) (0x3000 + e.tid) 0x12 w) :=
    ⟨rfl, fun ha _ => by
      rw [obj_putObj_ne _ _ (by decide) (by omega) (.inr (by omega)), obj_putObj_ne _ _ (by decide) (by omega) (.inr (by omega))]⟩
  have hsettle : Shaped s (settleShape s e.tid) := ⟨rfl, fun _ _ => rfl⟩
  rw [setShape, reshape]
  exact (hsettle.trans (hput _ _ _)).trans ⟨rfl, fun _ _ => rfl⟩

theorem calFire_shaped (s : State) (at_ : Nat) (e : CalEntry) : Shaped s (calFire s at_ e) := by
  have hbump (u : State) : Shaped u (bump u 0x5821 4) := ⟨rfl, fun ha hi => obj_bump_ne _ (by decide) (by omega) (.inl hi.symm)⟩
  rw [calFire]
  exact ((setShape_shaped s e).trans (hbump _)).trans ⟨rfl, fun _ _ => rfl⟩

theorem calPassed_shaped (n : Nat) (s : State) : Shaped s (calPassed s n) := by
  induction n generalizing s with
  | zero => exact .refl s
  | succ n ih =>
    rw [calPassed]
    split
    · exact .refl s
    · split
      · exact .refl s
      · split
        · exact (calFire_shaped s _ _).trans (ih _)
        · exact .refl s

theorem calStepped_shaped (s : State) (old : Nat) : Shaped s (calStepped s old) := by
  rw [calStepped]
  split
  · exact ⟨rfl, fun _ _ => rfl⟩
  · exact calPassed_shaped _ s

theorem tickFrom_only (s : State) (us : Nat) : ∃ m, tickFrom s us = { s with clusters := m } :=
  foldl_rel (R := fun s t => ∃ m, t = { s with clusters := m }) (fun s => ⟨s.clusters, rfl⟩)
    (fun ⟨_, h⟩ ⟨m, h'⟩ => ⟨m, by rw [h', h]⟩) (fun _ _ => ⟨_, rfl⟩) _ s

theorem stepFt_facts (s : State) (d : Int) : let t := stepFt s d
    t.time = { s.time with ftOrigin := s.time.ftOrigin + d * 90, slewLeft := 0 } ∧
      (∃ o m f c, t = { s with obj := o, time := t.time, clusters := m, tm := f, cairn := c }) ∧
      obj t 0x6800 8 = (obj s 0x6800 8 + 1) % 2 ^ 64 ∧ obj t 0x6800 7 = obj s 0x6800 7 ∧
      ∀ {i a}, a < 0x11 → i ≠ 0x6800 → i ≠ 0x7800 → i ≠ 0x5821 → obj t i a = obj s i a := by
  intro t
  obtain ⟨u, hu⟩ : ∃ u, u = modTime s (fun t => { t with ftOrigin := t.ftOrigin + d * 90, slewLeft := 0 }) := ⟨_, rfl⟩
  obtain ⟨v, hv⟩ : ∃ v, v = tickFrom u (ft u / 1000) := ⟨_, rfl⟩
  obtain ⟨m, hvonly⟩ := tickFrom_only u (ft u / 1000)
  rw [← hv] at hvonly
  obtain ⟨w, hw⟩ : ∃ w, w = putObj (bump v 0x6800 8) 0x6800 9 (ofInt 64 d) := ⟨_, rfl⟩
  have hwonly : w = { s with
      obj := w.obj, time := { s.time with ftOrigin := s.time.ftOrigin + d * 90, slewLeft := 0 }, clusters := m } := by
    rw [hw, hvonly, hu]
    rfl
  have hlog := cairn_logged w 9 1 1 (toLE 8 (ofInt 64 d))
  obtain ⟨l, hl⟩ : ∃ l, l = cairn w 9 1 1 (toLE 8 (ofInt 64 d)) := ⟨_, rfl⟩
  have hshaped := calStepped_shaped l (ft s)
  have ht : t = calStepped l (ft s) := by rw [hl, hw, hv, hu]; rfl
  rw [← hl] at hlog
  rw [← ht] at hshaped
  have hvobj (i a : Nat) : obj v i a = obj s i a := by
    rw [hvonly, hu]
    rfl
  have hsame {i a : Nat} (ha : a < 0x11) (h5 : i ≠ 0x5821) (h7 : i ≠ 0x7800) : obj t i a = obj w i a :=
    (hshaped.objs ha h5).trans (hlog.obj (by omega) (.inl h7))
  have htime : t.time = { s.time with ftOrigin := s.time.ftOrigin + d * 90, slewLeft := 0 } := by
    rw [hshaped.rest, hlog.rest, hwonly]
  refine ⟨htime, ⟨t.obj, m, t.tm, l.cairn, ?_⟩, ?_, ?_, fun ha h6 h7 h5 => ?_⟩
  · rw [htime]
    refine hshaped.rest.trans ?_
    rw [hlog.rest, hwonly]
  · rw [hsame (by decide) (by decide) (by decide), hw, obj_putObj_ne _ _ (by decide) (by decide) (.inr (by decide)), obj_bump_same, hvobj]
  · rw [hsame (by decide) (by decide) (by decide), hw, obj_putObj_ne _ _ (by decide) (by decide) (.inr (by decide)),
      obj_bump_ne _ (by decide) (by decide) (.inr (by decide)), hvobj]
  · rw [hsame ha h5 h7, hw, obj_putObj_ne _ _ (by decide) (by omega) (.inl h6.symm), obj_bump_ne _ (by decide) (by omega) (.inl h6.symm), hvobj]

/-! ### A measurement (R343, R346) -/

/-- A measurement steps FT: by StepLimit or more, or as the first since LOST. -/
def steps (s : State) (d : Int) : Prop := (obj s 0x6800 3 : Int) ≤ d.natAbs ∨ s.time.firstSinceLost = true

/-- Good measurements in a row, this one with them. -/
def goodRun (s : State) (d : Int) : Nat := if d.natAbs ≤ 100 then s.time.goodRun + 1 else 0

theorem measure_facts (s : State) (d : Int) : let t := measure s d
    (steps s d → t.time = { s.time with
      ftOrigin := s.time.ftOrigin - 90 * d, slewLeft := 0, rate := 0, goodRun := goodRun s d
      state := if 4 ≤ goodRun s d then 2 else 1, firstSinceLost := false, lastMeas := some s.time.now, holdoverAt := none }) ∧
    (¬steps s d → t.time = { s.time with
      slewLeft := -(90 * d), rate := 0, goodRun := goodRun s d, state := if 4 ≤ goodRun s d then 2 else 1
      firstSinceLost := false, lastMeas := some s.time.now, holdoverAt := none }) ∧
    (∃ o m f c n, t = { s with obj := o, time := t.time, clusters := m, tm := f, cairn := c, free := n }) ∧
    obj t 0x6800 7 = (BitVec.ofInt 64 d).toNat ∧ (steps s d → obj t 0x6800 8 = (obj s 0x6800 8 + 1) % 2 ^ 64) ∧
    ∀ {i a}, a < 0x11 → i ≠ 0x6800 → i ≠ 0x7800 → i ≠ 0x5821 → obj t i a = obj s i a := by
  intro t
  obtain ⟨u, hu⟩ : ∃ u, u = putObj s 0x6800 7 (ofInt 64 d) := ⟨_, rfl⟩
  have hlimit : obj u 0x6800 3 = obj s 0x6800 3 := by rw [hu, obj_putObj_ne _ _ (by decide) (by decide) (.inr (by decide))]
  have hutime : u.time = s.time := by rw [hu]; rfl
  have hu7 : obj u 0x6800 7 = (BitVec.ofInt 64 d).toNat := by rw [hu, obj_putObj_same]; rfl
  have hu8 : obj u 0x6800 8 = obj s 0x6800 8 := by rw [hu, obj_putObj_ne _ _ (by decide) (by decide) (.inr (by decide))]
  have huobj {i a : Nat} (ha : a < 0x11) (h6 : i ≠ 0x6800) : obj u i a = obj s i a := by
    rw [hu, obj_putObj_ne _ _ (by decide) (by omega) (.inl h6.symm)]
  have hiff : ((obj u 0x6800 3 : Int) ≤ d.natAbs || u.time.firstSinceLost) = true ↔ steps s d := by
    rw [hlimit, hutime, Bool.or_eq_true, decide_eq_true_eq]
    rfl
  obtain ⟨v, hv⟩ : ∃ v, v = if (obj u 0x6800 3 : Int) ≤ d.natAbs || u.time.firstSinceLost then stepFt u (-d)
    else modTime { u with free := u.free + 1 } (fun t => { t with slewLeft := -d * 90 }) := ⟨_, rfl⟩
  have ht : t = modTime v (fun t => { t with
      rate := 0, goodRun := if d.natAbs ≤ 100 then v.time.goodRun + 1 else 0
      state := if 4 ≤ (if d.natAbs ≤ 100 then v.time.goodRun + 1 else 0) then ftLocked else ftAcquiring, firstSinceLost := false,
      lastMeas := some t.now, holdoverAt := none }) := by rw [hv, hu]; rfl
  by_cases h : steps s d
  · rw [if_pos (hiff.mpr h)] at hv
    obtain ⟨htime, ⟨o, m, f, c, honly⟩, h8, h7, hobj⟩ := stepFt_facts u (-d)
    rw [← hv] at htime honly h8 h7 hobj
    rw [hutime] at htime
    rw [ht]
    refine ⟨fun _ => ?_, fun h' => absurd h h', ⟨o, m, f, c, s.free, ?_⟩, h7.trans hu7, fun _ => h8.trans (by rw [hu8]), fun ha h6 h7 h5 =>
      (hobj ha h6 h7 h5).trans (huobj ha h6)⟩
    · rw [modTime, htime, show s.time.ftOrigin + -d * 90 = s.time.ftOrigin - 90 * d by ring]
      rfl
    · rw [modTime, honly, hu]
      rfl
  · rw [if_neg fun h' => h (hiff.mp h')] at hv
    rw [ht]
    refine ⟨fun h' => absurd h' h, fun _ => ?_, ⟨u.obj, s.clusters, s.tm, s.cairn, s.free + 1, ?_⟩, ?_, fun h' => absurd h' h, fun ha h6 h7 h5 => ?_⟩
    · rw [hv, modTime, modTime, hutime, show -d * 90 = -(90 * d) by ring]
      rfl
    · rw [hv, hu]
      rfl
    · rw [hv]
      exact hu7
    · rw [hv]
      exact huobj ha h6

/-! ### What a sentence or a message takes with it -/

/-- The sentence, the queue of messages and the Delay_Req that waits, set anew. -/
def taken (tod : Option (Nat × Nat)) (ptpQ : List PtpFrame) (ask : Option PtpAsk) (s : State) : State :=
  { s with time := { s.time with tod := tod, ptpQ := ptpQ, ptp := { s.time.ptp with ask := ask } } }

section
variable (a : Option (Nat × Nat)) (b : List PtpFrame) (c : Option PtpAsk)

theorem cairn_taken (s : State) (src code sev : Nat) (data : List Byte) :
    cairn (taken a b c s) src code sev data = taken a b c (cairn s src code sev data) := by
  have hon : cairnOn (taken a b c s) = cairnOn s := rfl
  have hobj : obj (taken a b c s) 0x7800 9 = obj s 0x7800 9 := rfl
  have hspend : cairnSpend (taken a b c s) sev = cairnSpend s sev := rfl
  rw [Machine.cairn, Machine.cairn, hon, hobj, hspend]
  split
  · rfl
  · split
    · rfl
    · change (if s.cairn.buffer.length < 16 then _ else _) = _
      split
      · rfl
      · rfl

/-- The settling of FtState does not look at them. -/
theorem settleTime_taken (s : State) : settleTime (taken a b c s) = taken a b c (settleTime s) := by
  have hlost (u : State) (at_ : Nat) : sourceLost (taken a b c u) at_ = taken a b c (sourceLost u at_) := by
    rw [sourceLost, sourceLost]
    change (if u.time.state = _ then _ else if u.time.state = _ then _ else _) = _
    split
    · exact cairn_taken a b c (bump (modTime (draw u) (fun t => { t with
        state := ftHoldover, holdoverAt := some at_, rate := disciplined u, slewLeft := 0 })) 0x6800 0x0B) 9 2 1 (toLE 8 (obj u 0x6800 7))
    · split
      · rfl
      · rfl
  have hoverdue (u : State) : loseOverdue (taken a b c u) = taken a b c (loseOverdue u) := by
    rw [loseOverdue, loseOverdue, show lossDue (taken a b c u) = lossDue u from rfl]
    split
    · change (if _ ≤ u.time.now then _ else _) = _
      split
      · exact hlost u _
      · rfl
    · rfl
  have hlimit (u : State) : limitHoldover (taken a b c u) = taken a b c (limitHoldover u) := by
    rw [limitHoldover, limitHoldover, show holdoverDue (taken a b c u) = holdoverDue u from rfl]
    split
    · change (if _ ≤ u.time.now then _ else _) = _
      split
      · rfl
      · rfl
    · rfl
  rw [settleTime, settleTime, show started (taken a b c s) = started s from rfl]
  split
  · rfl
  · rw [hoverdue, hlimit]

end

/-- Settling leaves FT, and what is the first measurement since LOST stays so. -/
theorem settleTime_origin (s : State) : let t := settleTime s
    t.time.ftOrigin = s.time.ftOrigin ∧ (s.time.firstSinceLost = true → t.time.firstSinceLost = true) := by
  have hlost (u : State) (at_ : Nat) : (sourceLost u at_).time.ftOrigin = u.time.ftOrigin ∧
      (u.time.firstSinceLost = true → (sourceLost u at_).time.firstSinceLost = true) := by
    rw [sourceLost]
    split
    · dsimp only
      rw [(cairn_logged _ _ _ _ _).rest]
      exact ⟨rfl, id⟩
    · split
      · exact ⟨rfl, fun _ => rfl⟩
      · exact ⟨rfl, id⟩
  have hoverdue (u : State) : (loseOverdue u).time.ftOrigin = u.time.ftOrigin ∧
      (u.time.firstSinceLost = true → (loseOverdue u).time.firstSinceLost = true) := by
    rw [loseOverdue]
    split
    · split
      · exact hlost u _
      · exact ⟨rfl, id⟩
    · exact ⟨rfl, id⟩
  have hlimit (u : State) : (limitHoldover u).time.ftOrigin = u.time.ftOrigin ∧
      (u.time.firstSinceLost = true → (limitHoldover u).time.firstSinceLost = true) := by
    rw [limitHoldover]
    split
    · split
      · exact ⟨rfl, fun _ => rfl⟩
      · exact ⟨rfl, id⟩
    · exact ⟨rfl, id⟩
  dsimp only
  rw [settleTime]
  split
  · exact ⟨rfl, id⟩
  · exact ⟨(hlimit _).1.trans (hoverdue s).1, fun h => (hlimit _).2 ((hoverdue s).2 h)⟩

theorem ft_congr {s t : State} (hnow : t.time.now = s.time.now) (hori : t.time.ftOrigin = s.time.ftOrigin) : ft t = ft s := by
  rw [ft, ft, ftAt, ftAt, hnow, hori]

/-- FT as a step by the offset leaves it. -/
def steppedBy (s : State) (d : Int) : State := { s with time := { s.time with ftOrigin := s.time.ftOrigin - 90 * d } }

/-- What the first measurements leave, in the words of R343 and R346. -/
def MeasuredBy (s t : State) (d : Int) : Prop :=
  t.time.now = s.time.now ∧ t.time.state = (if 4 ≤ goodRun s d then 2 else 1) ∧ t.time.goodRun = goodRun s d ∧
    t.time.firstSinceLost = false ∧ t.time.lastMeas = some s.time.now ∧ t.time.holdoverAt = none ∧ t.time.rate = 0 ∧
    obj t 0x6800 7 = (BitVec.ofInt 64 d).toNat ∧
    (steps s d → t.time.ftOrigin = s.time.ftOrigin - 90 * d ∧ t.time.slewLeft = 0 ∧
      obj t 0x6800 8 = (obj s 0x6800 8 + 1) % 2 ^ 64) ∧
    (¬steps s d → t.time.ftOrigin = s.time.ftOrigin ∧ t.time.slewLeft = -(90 * d))

theorem measure_measuredBy (s : State) (d : Int) : MeasuredBy s (measure s d) d := by
  obtain ⟨hstep, hslew, -, h7, h8, -⟩ := measure_facts s d
  by_cases h : steps s d
  · have ht := hstep h
    refine ⟨?_, ?_, ?_, ?_, ?_, ?_, ?_, h7, fun _ => ⟨?_, ?_, h8 h⟩, fun h' => absurd h h'⟩
    all_goals rw [ht]
  · have ht := hslew h
    refine ⟨?_, ?_, ?_, ?_, ?_, ?_, ?_, h7, fun h' => absurd h' h, fun _ => ⟨?_, ?_⟩⟩
    all_goals rw [ht]

/-- A measurement that makes no event of the Itinerary due. -/
theorem measured_clear {s : State} {d : Int} (hset : settleTime s = s)
    (hclear : ∀ e, s.plan.events[s.plan.next]? = some e → ft s < e.ft ∧ ft (steppedBy s d) < e.ft) : measured s d = .next (measure s d) := by
  obtain ⟨hstep, hslew, ⟨o, m, f, c, n, honly⟩, -⟩ := measure_facts s d
  have hplan : (measure s d).plan = s.plan := by rw [honly]
  have hft : ft (measure s d) = ft (steppedBy s d) ∨ ft (measure s d) = ft s := by
    by_cases h : steps s d
    · exact .inl (ft_congr (by rw [hstep h]; rfl) (by rw [hstep h]; rfl))
    · exact .inr (ft_congr (by rw [hslew h]) (by rw [hslew h]))
  rw [measured, hset]
  rw [firePassed_of_none]
  intro e he
  rw [headEvent, hplan] at he
  split at he
  · obtain ⟨h1, h2⟩ := hclear e he
    rcases hft with h | h
    · rw [h]
      exact h2
    · rw [h]
      exact h1
  · exact absurd he nofun

/-- A step of FT that passes one event, a mark: it fires late. -/
theorem measured_passes {s : State} {d : Int} {m : ItinEvent} (hon : on s = true) (hp : s.sys.phase = .run)
    (hfirst : s.time.firstSinceLost = true) (hplan : s.plan.events.drop s.plan.next = [m]) (htyp : m.typ = 4) (hgate : m.gated = false)
    (hbefore : ft s < m.ft) (hpast : m.ft < ft (steppedBy s d)) : ∃ t, measured s d = .next t ∧ t.plan.next = s.plan.next + 1 ∧
      obj t 0x6801 3 = (obj s 0x6801 3 + 1) % 2 ^ 64 ∧ obj t 0x6801 6 = (obj s 0x6801 6 + 1) % 2 ^ 64 := by
  obtain ⟨u, hu⟩ : ∃ u, u = settleTime s := ⟨_, rfl⟩
  obtain ⟨f', time, o', c', huonly⟩ := settleTime_only s
  obtain ⟨hunow, huobj⟩ := settleTime_facts s
  obtain ⟨huori, hufirst⟩ := settleTime_origin s
  rw [← hu] at huonly hunow huobj huori hufirst
  obtain ⟨hstep, -, ⟨o, k, f, c, n, honly⟩, -, -, hobj⟩ := measure_facts u d
  have hsteps := hstep (.inr (hufirst hfirst))
  obtain ⟨t, ht⟩ : ∃ t, t = measure u d := ⟨_, rfl⟩
  rw [← ht] at hsteps honly hobj
  have htplan : t.plan = s.plan := by rw [honly, huonly]
  have htsys : t.sys = s.sys := by rw [honly, huonly]
  have hton : on t = true := by
    have hpwr : t.pwr = s.pwr := by rw [honly, huonly]
    rw [on, started, powered, htsys, hpwr]
    exact hon
  have htft : ft t = ft (steppedBy s d) := ft_congr (by rw [hsteps]; exact hunow) (by rw [hsteps]; exact congrArg (· - 90 * d) huori)
  have hfires := firePassed_mark (s := t) hton (by rw [htsys]; exact hp) (by rw [htplan]; exact hplan) htyp hgate hbefore (by rw [htft]; exact hpast)
  obtain ⟨hnext, -, -, -, -, hlate, hcount⟩ := fire_lateMark (s := t) htyp hgate
  refine ⟨fire t m true, ?_, by rw [hnext, htplan], ?_, ?_⟩
  · rw [measured]
    rw [← hu, ← ht, hfires]
  · rw [hcount, hobj (by decide) (by decide) (by decide) (by decide), huobj (by decide) (by decide) (by decide)]
  · rw [hlate, hobj (by decide) (by decide) (by decide) (by decide), huobj (by decide) (by decide) (by decide)]

/-! ### PPS and TOD (R344) -/

theorem msU_900 : msU 900 = 81000000000 := rfl
theorem msU_1500 : msU 1500 = 135000000000 := rfl

theorem exec_ppsEdge {s : State} (hs : started s = true) (ho : obj s 0x6800 1 = 1) (err : Int) {v a : Nat} (ht : s.time.tod = some (v, a)) :
    exec (.ppsEdge err) s = if s.time.now - a < 900000000 || 81000000000 < s.time.now - a
      then .next (bump (taken none s.time.ptpQ s.time.ptp.ask s) 0x6800 0x0A)
      else measured (taken none s.time.ptpQ s.time.ptp.ask s) ((ft s : Int) + max (-2) (min 2 err) - v * 1000000000) := by
  change execPpsEdge err s = _
  rw [execPpsEdge, if_neg (by rw [hs, ho]; decide), ht]
  dsimp only
  rw [msU_10, msU_900]
  rfl

theorem exec_todSentence_good {s : State} (hs : started s = true) (ho : obj s 0x6800 1 = 1) {bs : List Byte} {v : Nat}
    (hv : todValid bs = some v) : exec (.todSentence bs) s = .next (modTime (todUnused s) (fun t => { t with tod := some (v, t.now) })) := by
  change execTodSentence bs s = _
  rw [execTodSentence, if_neg (by rw [hs, ho]; decide), hv]

theorem exec_todSentence_bad {s : State} (hs : started s = true) (ho : obj s 0x6800 1 = 1) {bs : List Byte} (hv : todValid bs = none) :
    exec (.todSentence bs) s = .next (modTime (bump (todUnused s) 0x6800 0x0A) (fun t => { t with tod := none })) := by
  change execTodSentence bs s = _
  rw [execTodSentence, if_neg (by rw [hs, ho]; decide), hv]

/-- A sentence that no edge has followed in time counts, and any other leaves the state. -/
theorem todUnused_facts (s : State) : let n := if s.time.tod.any (fun e => decide (e.2 + 81000000000 < s.time.now)) then 1 else 0
    (n = 0 → todUnused s = s) ∧ (n = 1 → todUnused s = bump s 0x6800 0x0A) ∧ (todUnused s).time = s.time := by
  have heq : todUnused s = if s.time.tod.any (fun e => decide (e.2 + 81000000000 < s.time.now)) then bump s 0x6800 0x0A else s := by
    rw [todUnused, msU_900]
  dsimp only
  rw [heq]
  split
  · exact ⟨nofun, fun _ => rfl, rfl⟩
  · exact ⟨fun _ => rfl, nofun, rfl⟩

/-! ### PTP (R345) -/

theorem exec_ptpMessage {s : State} (hon : on s = true) {q : PtpFrame} {rest : List PtpFrame} (hq : s.time.ptpQ = q :: rest) (k : Nat) {u : State}
    (hu : u = taken s.time.tod rest s.time.ptp.ask s) : (obj s 0x6800 1 ≠ 2 → exec (.ptpMessage k) s = .next u) ∧
      (obj s 0x6800 1 = 2 → ∀ v, (ptpTake u k q = (v, none) → exec (.ptpMessage k) s = .next v) ∧
        ∀ d, ptpTake u k q = (v, some d) → exec (.ptpMessage k) s = measured v d) := by
  have hobj : obj u 0x6800 1 = obj s 0x6800 1 := by rw [hu]; rfl
  have hexec : exec (.ptpMessage k) s = live s (if obj u 0x6800 1 != 2 then .next u else match ptpTake u k q with
      | (s, none) => .next s
      | (s, some d) => measured s d) := by
    change execPtpMessage k s = _
    rw [execPtpMessage, hq, hu]
    rfl
  rw [hexec, live_on hon, hobj]
  refine ⟨fun h => if_pos (by simpa using h), fun h v => ⟨fun hv => ?_, fun d hv => ?_⟩⟩
  · rw [if_neg (by rw [h]; decide), hv]
  · rw [if_neg (by rw [h]; decide), hv]

theorem ptpTake_deaf {s : State} {q : PtpFrame} (h : ptpHears s q = false) (k : Nat) : ptpTake s k q = (s, none) :=
  if_pos (by rw [h]; rfl)

theorem ptpTake_announce {s : State} {q : PtpFrame} (h : ptpHears s q = true) (ht : ptpType q = 11) (k : Nat) :
    ptpTake s k q = (ptpAnnounce s q, none) := by
  rw [ptpTake, if_neg (by rw [h]; decide), if_pos ht]

theorem ptpTake_stranger {s : State} {q : PtpFrame} (h : ptpHears s q = true) (ht : ptpType q ≠ 11) (hp : fromParent s q = false) (k : Nat) :
    ptpTake s k q = (s, none) := by
  rw [ptpTake, if_neg (by rw [h]; decide), if_neg ht, if_pos (by rw [hp]; rfl)]

theorem ptpTake_sync {s : State} {q : PtpFrame} (h : ptpHears s q = true) (ht : ptpType q = 0) (hp : fromParent s q = true) (k : Nat) :
    ptpTake s k q = (ptpSyncIn s k q, none) := by
  rw [ptpTake, if_neg (by rw [h]; decide), if_neg (by rw [ht]; decide), if_neg (by rw [hp]; decide), ht]
  rfl

theorem ptpTake_answer {s : State} {q : PtpFrame} {a : PtpAsk} (h : ptpHears s q = true) (ht : ptpType q = 9) (hp : fromParent s q = true)
    (ha : s.time.ptp.ask = some a) (hans : ptpAnswers s a q = true) (k : Nat) :
    ptpTake s k q = (setPtp s (fun p => { p with ask := none }), some (ptpOffset a q)) := by
  rw [ptpTake, if_neg (by rw [h]; decide), if_neg (by rw [ht]; decide), if_neg (by rw [hp]; decide), ht, ha]
  exact if_pos hans

theorem delayFrame_congr {s t : State} (h : ∀ i a, obj t i a = obj s i a) (lp seq : Nat) : delayFrame t lp seq = delayFrame s lp seq := by
  simp only [delayFrame, delayReq, ptpSelf, lpo, h]
  rfl

/-- A one-step Sync of the parent is answered with a Delay_Req. -/
theorem ptpSyncIn_facts {s : State} {q : PtpFrame} (h : beAt q.bytes 6 1 % 4 < 2) (ha : active s (obj s 0x6800 5) = true) (k : Nat) :
    let t := ptpSyncIn s k q
    t.ropes = s.ropes ∧ t.out = .frame (obj s 0x6800 5) (delayFrame s (obj s 0x6800 5) s.time.ptp.nextSeq) :: s.out ∧
      t.time.ptp.ask = some { seq := s.time.ptp.nextSeq, t3 := ft s + k, way := (q.ft : Int) * 65536 - (ptpStamp q 34 + ptpCorr q) } := by
  intro t
  obtain ⟨u, hu⟩ : ∃ u, u = setPtp s (fun p => { p with sync := none, syncEvery := some (ptpEvery q) }) := ⟨_, rfl⟩
  have hobj (i b : Nat) : obj u i b = obj s i b := by rw [hu]; rfl
  have hactive : active u (obj s 0x6800 5) = true := by rw [hu]; exact ha
  have hseq : u.time.ptp.nextSeq = s.time.ptp.nextSeq := by rw [hu]; rfl
  have hframe := delayFrame_congr hobj (obj s 0x6800 5) s.time.ptp.nextSeq
  have hbit : bit (beAt q.bytes 6 1) 1 = false := by
    rw [bit]
    exact decide_eq_false (by omega)
  have ht : t = setPtp (sendRaw u (obj s 0x6800 5) (delayFrame s (obj s 0x6800 5) s.time.ptp.nextSeq)) (fun p => { p with
      ask := some { seq := s.time.ptp.nextSeq, t3 := ft u + k, way := (q.ft : Int) * 65536 - (ptpStamp q 34 + ptpCorr q) }
      nextSeq := (s.time.ptp.nextSeq + 1) % 65536 }) := by
    change ptpSyncIn s k q = _
    rw [ptpSyncIn]
    rw [← hu, if_neg (by rw [hbit]; decide), ptpSynced, hobj, if_neg (by rw [hactive]; decide), hseq]
    dsimp only
    rw [hframe]
  have hft : ft u = ft s := ft_congr (by rw [hu]; rfl) (by rw [hu]; rfl)
  rw [ht, hft]
  refine ⟨?_, ?_, rfl⟩
  · rw [hu]
    rfl
  · rw [hu]
    rfl

/-! ### The source lost, and chosen (R343, R347) -/

/-- A locked clock enters HOLDOVER at an instant. -/
theorem sourceLost_locked {s : State} (h : s.time.state = 2) (at_ : Nat) : let t := sourceLost s at_
    t.time.now = s.time.now ∧ t.time.state = 3 ∧ t.time.holdoverAt = some at_ := by
  intro t
  obtain ⟨u, hu⟩ : ∃ u, u = modTime (draw s) (fun t => { t with state := ftHoldover, holdoverAt := some at_, rate := disciplined s, slewLeft := 0 }) := ⟨_, rfl⟩
  have ht : t = cairn (bump u 0x6800 0x0B) 9 2 1 (toLE 8 (obj u 0x6800 7)) := by
    change sourceLost s at_ = _
    rw [sourceLost, if_pos (show s.time.state = ftLocked from h), hu]
  rw [ht, (cairn_logged _ _ _ _ _).rest, hu]
  exact ⟨rfl, rfl, rfl⟩

theorem timeSourceLost_locked {s : State} {u : Nat} (hs : started s = true) (ho : obj s 0x6800 1 = 1) (hst : s.time.state = 2)
    (hm : s.time.lastMeas = some u) : ∃ t, exec .timeSourceLost s = .next t ∧
      t.time.now = max s.time.now (u + 135000000000) ∧ t.time.state = 3 ∧ t.time.holdoverAt = some t.time.now := by
  obtain ⟨d, hd⟩ : ∃ d, d = u + 135000000000 := ⟨_, rfl⟩
  have hdue : lossDue s = some d := by
    rw [lossDue, ho, hd]
    change s.time.lastMeas.map (· + msU 1500) = _
    rw [hm, Option.map_some, msU_1500]
  have hexec : exec .timeSourceLost s = .next (sourceLost (advanceTo s d) (max s.time.now d)) := by
    change execTimeSourceLost s = _
    rw [execTimeSourceLost, if_neg (by rw [hs, ho]; decide), hdue]
  obtain ⟨hnow, hstate, hheld⟩ := sourceLost_locked (s := advanceTo s d) hst (max s.time.now d)
  rw [advanceTo_now] at hnow
  rw [← hd]
  exact ⟨_, hexec, hnow, hstate, by rw [hheld, hnow]⟩

/-- A write of TimeSource. -/
theorem put_timeSource {s : State} (hs : Served s 0x6800) (v : BitVec 8) : exec (.timeSourceWrite v) s =
    if v.toNat ≤ 2 then .next (answered (ackOk (timeSourceSet (keepValue s 0x6800 1 v.toNat (rws 1 .u8 0 (.codes [0, 1, 2]))) v.toNat)))
    else .next (answered (s, abRange, 0)) := by
  have hpage : page s.sys 0x6800 = some (0xB, [rws 1 .u8 0 (.codes [0, 1, 2]), ro 2 .u8, rws 3 .u32 1000 (.range 100 1000000),
      rws 4 .u32 10000 (.range 0 3600000), rws 5 .u16 0, rws 6 .u8 0, ro 7 .i64, ctr 8, ro 9 .i64, ctr 10 2]) := by
    change pageUnits s.sys 0x6800 = _
    rw [pageUnits, if_neg (by simp)]
  have hrow : rowOf s.sys 0x6800 1 = .ok (rws 1 .u8 0 (.codes [0, 1, 2])) := rowOf_page hpage (by decide) (by decide) rfl
  have hwrite := writeObj_value (bs := toLE 1 v.toNat) hs hrow (by decide) ⟨nofun, nofun⟩ (by decide) nofun (length_toLE _ _)
  have hof : ofLE (toLE 1 v.toNat) = v.toNat := by rw [ofLE_toLE, Nat.mod_eq_of_lt (b := 256 ^ 1) v.isLt]
  have hall : allowed (rws 1 .u8 0 (.codes [0, 1, 2])) v.toNat = decide (v.toNat ≤ 2) := by
    rw [Bool.eq_iff_iff, decide_eq_true_iff]
    simp only [allowed, rws, Bool.and_eq_true, Bool.or_eq_true, List.contains_iff_mem, List.mem_cons, List.not_mem_nil, or_false]
    exact ⟨fun h => by omega, fun h => ⟨.inl rfl, by omega⟩⟩
  change put s 0x6800 1 (toLE 1 v.toNat) = _
  rw [put_served hs, hwrite, hof, hall]
  by_cases h : v.toNat ≤ 2
  · rw [decide_eq_true h, if_pos rfl, if_pos h]
    rfl
  · rw [decide_eq_false h, if_neg Bool.false_ne_true, if_neg h]

/-- HOLDOVER ends HoldoverLimit after it began. -/
theorem exec_holdoverExpiry {s : State} {u : Nat} (hs : started s = true) (hst : s.time.state = 3) (hh : s.time.holdoverAt = some u) :
    ∃ t, exec .holdoverExpiry s = .next t ∧ t.time.now = max s.time.now (u + msU (obj s 0x6800 4)) ∧ t.time.state = 4 ∧
      t.time.firstSinceLost = true ∧ t.time.holdoverAt = none := by
  obtain ⟨d, hd⟩ : ∃ d, d = u + msU (obj s 0x6800 4) := ⟨_, rfl⟩
  have hdue : holdoverDue s = some d := by
    rw [holdoverDue, if_pos (show s.time.state = ftHoldover from hst), hh, Option.map_some, hd]
  have hexec : exec .holdoverExpiry s = .next (loseTime (advanceTo s d)) := by
    refine (running_on hs _).trans ?_
    rw [hdue]
  refine ⟨_, hexec, ?_, rfl, rfl, rfl⟩
  rw [← hd]
  exact advanceTo_now s d

/-- The time source that is written starts the time unit afresh, and no object. -/
theorem timeSourceSet_facts (s : State) (v : Nat) :
    timeSourceSet s v = { s with time := { s.time with state := if v = 0 then 0 else 4, goodRun := 0, firstSinceLost := true
                                                       holdoverAt := none, tod := none, lastMeas := none, ptp := {} } } := by
  by_cases h : v = 0
  · exact (if_pos h).trans (by rw [if_pos h]; rfl)
  · exact (if_neg h).trans (by rw [if_neg h]; rfl)

/-- The time source and the time unit as a write of the source leaves them. -/
theorem sourceKept_facts (s : State) (v : BitVec 8) :
    let t := answered (ackOk (timeSourceSet (keepValue s 0x6800 1 v.toNat (rws 1 .u8 0 (.codes [0, 1, 2]))) v.toNat))
    obj t 0x6800 1 = v.toNat ∧
      t.time = { s.time with state := if v = 0 then 0 else 4, goodRun := 0, firstSinceLost := true, holdoverAt := none
                             tod := none, lastMeas := none, ptp := {} } := by
  intro t
  obtain ⟨u, hu⟩ : ∃ u, u = keepValue s 0x6800 1 v.toNat (rws 1 .u8 0 (.codes [0, 1, 2])) := ⟨_, rfl⟩
  have hobj : obj u 0x6800 1 = v.toNat := by
    rw [hu, keepValue, if_pos (show (rws 1 .u8 0 (.codes [0, 1, 2])).acc = .rws from rfl)]
    exact (obj_congr rfl rfl 0x6800 1).trans (obj_putObj_same _ _ _ _)
  have htime : u.time = s.time := by
    obtain ⟨o, dict, hkept⟩ := keepValue_only s 0x6800 1 v.toNat (rws 1 .u8 0 (.codes [0, 1, 2]))
    rw [hu, hkept]
  have hv : (v = 0) = (v.toNat = 0) := by rw [BitVec.toNat_eq]; rfl
  have ht : t = answered (ackOk (timeSourceSet u v.toNat)) := by rw [hu]
  rw [ht, answered_ok, timeSourceSet_facts]
  simp only [hv, ← htime]
  exact ⟨(obj_congr rfl rfl 0x6800 1).trans hobj, trivial⟩

/-! ### The obligation -/

/-- Settles O37: the sources' measurements, the loss of a source, HOLDOVER's end and the choice of a source. -/
theorem fabricTimeFollowsItsSource : Obligations.FabricTimeFollowsItsSource := by
  intro s tm stepped clear measured
  have hsettled (a b c) (h : settleTime s = s) : settleTime (taken a b c s) = taken a b c s := by rw [settleTime_taken, h]
  refine ⟨fun hs ho => ⟨fun e v a htod => ⟨fun hlo hhi he1 he2 => ?_, fun hout => ?_⟩, fun bs late hl => ⟨fun v hv => ?_, fun hv => ?_⟩, fun u hst hm => ?_⟩,
    fun hs ho hst hdue => ?_, fun q rest k hon hq => ?_, fun u hs hst hh => ?_, fun v hserved => ⟨fun hv => ?_, fun hv => ?_⟩⟩
  · intro d
    obtain ⟨w, hw⟩ : ∃ w, w = taken none s.time.ptpQ s.time.ptp.ask s := ⟨_, rfl⟩
    have hexec : exec (.ppsEdge e) s = Machine.measured w d := by
      have hgap : ¬(decide (s.time.now - a < 900000000) || decide (81000000000 < s.time.now - a)) = true := by
        rw [Bool.or_eq_true, decide_eq_true_eq, decide_eq_true_eq]
        exact fun h => h.elim (Nat.not_lt.mpr hlo) (Nat.not_lt.mpr hhi)
      rw [exec_ppsEdge hs ho e htod, if_neg hgap, min_eq_right he2, max_eq_right he1, ← hw]
    refine ⟨fun hclear => ?_, fun m hon hp hfirst hplan htyp hgate hbefore hpast => ?_⟩
    · obtain ⟨hset, hevents⟩ := hclear
      have hruns : Machine.measured w d = .next (measure w d) := by
        rw [hw]
        exact measured_clear (hsettled _ _ _ hset) hevents
      obtain ⟨o, m, f, c, n, honly⟩ := (measure_facts w d).2.2.1
      have htime : (measure w d).time.tod = none := by
        by_cases hsteps : steps w d
        · rw [(measure_facts w d).1 hsteps, hw]
          rfl
        · rw [(measure_facts w d).2.1 hsteps, hw]
          rfl
      refine ⟨measure w d, hexec.trans hruns, ?_, htime, ?_⟩
      · rw [honly, hw]
        rfl
      · rw [hw]
        exact measure_measuredBy _ d
    · obtain ⟨t, ht, hnext, hcount, hlate⟩ := measured_passes (s := w) (d := d) (m := m) (by rw [hw]; exact hon) (by rw [hw]; exact hp)
        (by rw [hw]; exact hfirst) (by rw [hw]; exact hplan) htyp hgate (by rw [hw]; exact hbefore) (by rw [hw]; exact hpast)
      rw [hw] at hnext hcount hlate
      exact ⟨t, hexec.trans ht, hnext, hcount, hlate⟩
  · have hgap : (decide (s.time.now - a < 900000000) || decide (81000000000 < s.time.now - a)) = true := by
      rw [Bool.or_eq_true, decide_eq_true_eq, decide_eq_true_eq]
      exact hout
    refine ⟨_, (exec_ppsEdge hs ho e htod).trans (if_pos hgap), rfl, ?_⟩
    rw [obj_bump_same]
    rfl
  · obtain ⟨hnone, hone, htime⟩ := todUnused_facts s
    have hexec := exec_todSentence_good hs ho hv
    refine ⟨_, hexec, ?_, fun h => ?_, fun h => ?_⟩
    · rw [modTime, htime]
    · change (todUnused s).obj = _
      rw [hnone (hl.symm.trans h)]
    · change obj (todUnused s) 0x6800 0x0A = _
      rw [hone (hl.symm.trans h), obj_bump_same]
  · obtain ⟨hnone, -, htime⟩ := todUnused_facts s
    have hexec := exec_todSentence_bad hs ho hv
    refine ⟨_, hexec, ?_, fun h => ?_⟩
    · change { (todUnused s).time with tod := none } = _
      rw [htime]
    · change obj (bump (todUnused s) 0x6800 0x0A) 0x6800 0x0A = _
      rw [hnone (hl.symm.trans h), obj_bump_same]
  · exact timeSourceLost_locked hs ho hst hm
  · have hexec : exec .timeSourceLost s = .next (loseTime s) := by
      have hlost (x : Nat) : sourceLost s x = loseTime s := by
        rw [sourceLost, if_neg (by rw [show s.time.state = 1 from hst]; decide), if_pos (show s.time.state = ftAcquiring from hst)]
      change execTimeSourceLost s = _
      rw [execTimeSourceLost, if_neg (by rw [hs, ho]; decide)]
      cases hu : lossDue s with
      | none =>
        dsimp only
        rw [hlost]
      | some u =>
        dsimp only
        rw [advanceTo_past (hdue u hu), hlost]
    exact ⟨_, hexec, rfl⟩
  · intro took sent
    obtain ⟨hother, hptp⟩ := exec_ptpMessage (s := s) hon hq k (u := took) rfl
    have hhears : ptpHears took q = ptpHears s q := rfl
    have hparent : fromParent took q = fromParent s q := rfl
    refine ⟨fun h => ?_, fun ho hhear => ⟨fun ht hsteps => ?_, fun ht hp => ?_, fun hp ht h2 hact => ?_, fun a hp ht ha hans => ?_⟩⟩
    · by_cases ho : obj s 0x6800 1 = 2
      · exact (hptp ho took).1 (ptpTake_deaf (hhears.trans (h.resolve_left fun h => h ho)) k)
      · exact hother ho
    · have hexec := (hptp ho _).1 (ptpTake_announce (hhears.trans hhear) ht k)
      rw [ptpAnnounce, if_neg (Nat.not_le.mpr hsteps)] at hexec
      exact ⟨_, _, hexec, rfl, rfl, rfl, rfl, rfl⟩
    · exact (hptp ho took).1 (ptpTake_stranger (hhears.trans hhear) ht (hparent.trans hp) k)
    · have hexec := (hptp ho _).1 (ptpTake_sync (hhears.trans hhear) ht (hparent.trans hp) k)
      obtain ⟨hropes, hout, hask⟩ := ptpSyncIn_facts (s := took) h2 hact k
      rw [delayFrame_congr (s := s) (t := took) fun _ _ => rfl] at hout
      exact ⟨_, hexec, hropes, hout, hask⟩
    · intro d hclear
      obtain ⟨hset, hevents⟩ := hclear
      obtain ⟨w, hw⟩ : ∃ w, w = taken s.time.tod rest none s := ⟨_, rfl⟩
      have hexec : exec (.ptpMessage k) s = Machine.measured w d := by
        rw [hw]
        exact (hptp ho _).2 _ (ptpTake_answer (hhears.trans hhear) ht (hparent.trans hp) ha hans k)
      have hruns : Machine.measured w d = .next (measure w d) := by
        rw [hw]
        exact measured_clear (hsettled _ _ _ hset) hevents
      obtain ⟨o, m, f, c, n, honly⟩ := (measure_facts w d).2.2.1
      have htime : (measure w d).time.ptpQ = rest ∧ (measure w d).time.ptp.ask = none := by
        by_cases hsteps : steps w d
        · rw [(measure_facts w d).1 hsteps, hw]
          exact ⟨rfl, rfl⟩
        · rw [(measure_facts w d).2.1 hsteps, hw]
          exact ⟨rfl, rfl⟩
      refine ⟨measure w d, hexec.trans hruns, htime.1, htime.2, ?_, ?_⟩
      · rw [honly, hw]
        rfl
      · rw [hw]
        exact measure_measuredBy _ d
  · obtain ⟨t, hexec, hnow, hstate, hfirst, hat⟩ := exec_holdoverExpiry hs hst hh
    exact ⟨t, hexec, hnow.trans (by rw [msU_eq]), hstate, hfirst, hat⟩
  · have hexec := put_timeSource hserved v
    rw [if_pos hv, answered_ok] at hexec
    obtain ⟨hobj, htime⟩ := sourceKept_facts s v
    exact ⟨_, hexec, rfl, hobj, htime⟩
  · have hexec := put_timeSource hserved v
    rw [if_neg (Nat.not_le.mpr hv), answered_abort _ (by decide)] at hexec
    exact ⟨_, hexec, rfl, rfl⟩

end Sys2Proof.Proofs

/-! Segmented transfers of the dictionary: how one opens, goes on and ends (R363 to R368). -/

namespace Sys2Proof.Proofs

open Sys2Proof.Machine Sys2Proof.Claim

/-! ### Answers and transfers -/

/-- The transfers have become `xs` and the frames `os` have been sent, the newest first; of everything else only counters, the
answer and the idle timer have changed. -/
def Moved (s t : State) (xs : List Xfer) (os : List Out) : Prop :=
  ∃ o a p, p.off = s.pwr.off ∧
    t = { s with obj := o, answer := a, out := os ++ s.out, pwr := p, dict := { s.dict with xfers := xs } }

theorem Moved.trans {s t u : State} {xs ys : List Xfer} {os ps : List Out} (h : Moved s t xs os) (h' : Moved t u ys ps) :
    Moved s u ys (ps ++ os) := by
  obtain ⟨o, a, p, hp, rfl⟩ := h
  obtain ⟨o', a', p', hp', rfl⟩ := h'
  exact ⟨o', a', p', hp'.trans hp, by rw [List.append_assoc]⟩

theorem Moved.xfers {s t : State} {xs : List Xfer} {os : List Out} (h : Moved s t xs os) : t.dict.xfers = xs := by
  obtain ⟨o, a, p, hp, rfl⟩ := h
  rfl

theorem Moved.dict {s t : State} {xs : List Xfer} {os : List Out} (h : Moved s t xs os) : t.dict = { s.dict with xfers := xs } := by
  obtain ⟨o, a, p, hp, rfl⟩ := h
  rfl

theorem Moved.out {s t : State} {xs : List Xfer} {os : List Out} (h : Moved s t xs os) : t.out = os ++ s.out := by
  obtain ⟨o, a, p, hp, rfl⟩ := h
  rfl

theorem Moved.sys {s t : State} {xs : List Xfer} {os : List Out} (h : Moved s t xs os) : t.sys = s.sys := by
  obtain ⟨o, a, p, hp, rfl⟩ := h
  rfl

theorem Moved.time {s t : State} {xs : List Xfer} {os : List Out} (h : Moved s t xs os) : t.time = s.time := by
  obtain ⟨o, a, p, hp, rfl⟩ := h
  rfl

/-- The object of an access is found by the device's variant and by what is withheld. -/
theorem objectFor_congr {s t : State} (hsys : t.sys = s.sys) (hoff : t.pwr.off = s.pwr.off) (p : Path) (idx sub : Nat) :
    objectFor t p idx sub = objectFor s p idx sub := by
  have hheld : withheld t idx = withheld s idx := by rw [withheld, hsys, hoff, ← withheld]
  rw [objectFor, hheld, hsys, ← objectFor]

theorem Moved.objectFor {s t : State} {xs : List Xfer} {os : List Out} (h : Moved s t xs os) (p : Path) (idx sub : Nat) :
    Machine.objectFor t p idx sub = Machine.objectFor s p idx sub := by
  obtain ⟨o, a, w, hw, rfl⟩ := h
  exact objectFor_congr (s := s) (t := { s with obj := o, answer := a, out := os ++ s.out, pwr := w, dict := { s.dict with xfers := xs } }) rfl hw p idx sub

theorem Moved.canReply {s t : State} {xs : List Xfer} {os : List Out} (h : Moved s t xs os) (q : CanReq) (func : Nat) (data : List Byte) :
    Machine.canReply t q func data = Machine.canReply s q func data := by
  rw [Machine.canReply, h.sys, ← Machine.canReply]

theorem bump_moved (s : State) (idx sub : Nat) : Moved s (bump s idx sub) s.dict.xfers [] := ⟨_, _, s.pwr, rfl, rfl⟩

theorem sdpReply_moved (s : State) (q : CanReq) (func : Nat) (data : List Byte) :
    Moved s (sdpReply s q func data) s.dict.xfers [canReply s q func data] := ⟨_, _, s.pwr, rfl, rfl⟩

theorem sdpAbort_moved (s : State) (q : CanReq) (k code detail : Nat) :
    Moved s (sdpAbort s q k code detail) s.dict.xfers
      [canReply s q 9 ((objBytes k).take 3 ++ toLE 1 code ++ toLE 1 detail)] := ⟨_, _, s.pwr, rfl, rfl⟩

theorem answer_moved {s t : State} {xs : List Xfer} {os : List Out} (h : Moved s t xs os) (a : Answer) :
    Moved s { t with answer := a } xs os := by
  obtain ⟨o, b, w, hw, rfl⟩ := h
  exact ⟨o, a, w, hw, rfl⟩

/-- A transfer that is dropped leaves those of the other nodes. -/
theorem dropXfer_moved (s : State) (n : Nat) : Moved s (dropXfer s n) (s.dict.xfers.filter (fun x => x.node != n)) [] := by
  rw [dropXfer]
  dsimp only
  split
  case isTrue h =>
    rw [List.filter_sublist.eq_of_length h]
    exact ⟨s.obj, s.answer, s.pwr, rfl, rfl⟩
  case isFalse h => exact ⟨s.obj, s.answer, (stir s).pwr, rfl, rfl⟩

theorem dropXfer_obj (s : State) (n i a : Nat) : obj (dropXfer s n) i a = obj s i a := by
  rw [dropXfer]
  dsimp only
  split <;> rfl

theorem setXfer_moved (s : State) (x : Xfer) : Moved s (setXfer s x) (s.dict.xfers.filter (fun y => y.node != x.node) ++ [x]) [] := by
  obtain ⟨o, a, p, hp, hdrop⟩ := dropXfer_moved s x.node
  refine ⟨o, a, p, hp, ?_⟩
  rw [setXfer]
  dsimp only
  rw [hdrop]

/-- An ABORT counts in SdpAborts. -/
theorem sdpAbort_counts (s : State) (q : CanReq) (k code detail : Nat) :
    obj (sdpAbort s q k code detail) 0x0200 7 = (obj s 0x0200 7 + 1) % 2 ^ 64 := by
  rw [sdpAbort, canSend, obj_bump_ne _ (by decide) (by decide) (by decide)]
  exact obj_bump_same s 0x0200 7

/-- An ABORT is one by its function code. -/
theorem isAbort_canReply (s : State) (q : CanReq) (data : List Byte) : isAbort (canReply s q 9 data) = true := by
  have hfunc : (canIdent q.pri.toNat 9 q.src.toNat s.sys.node.toNat q.seq.toNat).extractLsb' 20 6 = 9#6 := by
    apply BitVec.eq_of_toNat_eq
    have hp := q.pri.isLt
    rw [canIdent, BitVec.extractLsb'_toNat, BitVec.toNat_ofNat, Nat.shiftRight_eq_div_pow, BitVec.toNat_ofNat]
    omega
  simp only [canReply, isAbort, hfunc, beq_self_eq_true]

/-- A transfer that is dropped by an ABORT. -/
theorem dropAbort_moved (s : State) (n : Nat) (q : CanReq) (k code detail : Nat) :
    Moved s (sdpAbort (dropXfer s n) q k code detail) (s.dict.xfers.filter (fun x => x.node != n))
      [canReply s q 9 ((objBytes k).take 3 ++ toLE 1 code ++ toLE 1 detail)] := by
  have hdrop := dropXfer_moved s n
  have h := hdrop.trans (sdpAbort_moved (dropXfer s n) q k code detail)
  rw [hdrop.xfers, hdrop.canReply] at h
  exact h

/-! ### Requests -/

theorem sdpHears_of {s : State} {q : CanReq} (h : canHears s q = true) {func : Nat} (h1 : func ≠ 1) (h3 : func ≠ 3) :
    sdpHears s q func = true := by
  simp [sdpHears, h, h1, h3]

/-- A request that is no repeat is served. -/
theorem sdpRequest_served {s : State} {q : CanReq} {func : Nat} (h : sdpHears s q func = true)
    (hlast : s.dict.lastReq = []) (serve : State → State) :
    sdpRequest s q func serve = .next (lastAnswer (serve (bump s 0x0200 4)) q.src.toNat
      { func := func, seq := q.seq.toNat, at_ := s.time.now, reply := sentSince (serve (bump s 0x0200 4)) s.out.length }) := by
  rw [sdpRequest, if_neg (by rw [h]; decide)]
  have hfind : ((bump s 0x0200 4).dict.lastReq.find? fun e => e.1 == q.src.toNat) = none := by
    rw [show (bump s 0x0200 4).dict = s.dict from rfl, hlast]
    rfl
  simp only [hfind, Option.map_none]
  rfl

theorem exec_segWrite {s : State} {q : CanReq} (hc : canHears s q = true) (hlast : s.dict.lastReq = [])
    (hnone : ∀ x ∈ s.dict.xfers, s.time.now < xferDue s x) : exec (.segWrite q) s =
      .next (lastAnswer (serveSegWrite q (bump s 0x0200 4)) q.src.toNat
        { func := 5, seq := q.seq.toNat, at_ := s.time.now, reply := sentSince (serveSegWrite q (bump s 0x0200 4)) s.out.length }) := by
  change sdpRequest (settleXfers s q) q 5 (serveSegWrite q) = _
  rw [settleXfers_of_none s q hnone, sdpRequest_served (sdpHears_of hc (by decide) (by decide)) hlast]

theorem exec_segRead {s : State} {q : CanReq} (hc : canHears s q = true) (hlast : s.dict.lastReq = [])
    (hnone : ∀ x ∈ s.dict.xfers, s.time.now < xferDue s x) : exec (.segRead q) s =
      .next (lastAnswer (serveSegRead q (bump s 0x0200 4)) q.src.toNat
        { func := 6, seq := q.seq.toNat, at_ := s.time.now, reply := sentSince (serveSegRead q (bump s 0x0200 4)) s.out.length }) := by
  change sdpRequest (settleXfers s q) q 6 (serveSegRead q) = _
  rw [settleXfers_of_none s q hnone, sdpRequest_served (sdpHears_of hc (by decide) (by decide)) hlast]

/-- A transfer opens on an object that is found, where fewer than 4 other nodes have one. -/
theorem openXfer_found {s : State} {q : CanReq} {r : Row} (hobj : objectFor s .can (qKey q / 256) (qKey q % 256) = .ok r)
    (f : State → State) :
    openXfer s q f = if 4 ≤ (s.dict.xfers.filter (fun x => x.node != q.src.toNat)).length
      then sdpAbort (dropXfer s q.src.toNat) q (qKey q) abBusy 0 else f (dropXfer s q.src.toNat) := by
  rw [openXfer]
  dsimp only
  rw [hobj]
  dsimp only
  rw [(dropXfer_moved s q.src.toNat).xfers]

/-- A fifth transfer ends with BUSY. -/
theorem openXfer_busy {s : State} {q : CanReq} {r : Row} (hobj : objectFor s .can (qKey q / 256) (qKey q % 256) = .ok r)
    (hfull : 4 ≤ (s.dict.xfers.filter (fun x => x.node != q.src.toNat)).length) (f : State → State) :
    (openXfer s q f).answer = .abort 0x0A 0 ∧ (openXfer s q f).dict.xfers = s.dict.xfers.filter (fun x => x.node != q.src.toNat) := by
  rw [openXfer_found hobj, if_pos hfull]
  exact ⟨rfl, (dropAbort_moved s _ q _ _ _).xfers⟩

theorem filter_node_twice (l : List Xfer) (n : Nat) :
    (l.filter (fun x => x.node != n)).filter (fun x => x.node != n) = l.filter (fun x => x.node != n) := by
  rw [List.filter_filter]
  simp only [Bool.and_self]

/-- SEG_WRITE opens a transfer and is acknowledged. -/
theorem serveSegWrite_moved {s : State} {q : CanReq} {r : Row} (hobj : objectFor s .can (qKey q / 256) (qKey q % 256) = .ok r)
    (hroom : (s.dict.xfers.filter (fun x => x.node != q.src.toNat)).length < 4) :
    Moved s (serveSegWrite q s) (s.dict.xfers.filter (fun x => x.node != q.src.toNat) ++
        [{ node := q.src.toNat, pri := q.pri, seq := q.seq, wr := true, key := qKey q, total := qByte q 4 4, crc := qByte q 8 4
           data := [], nextSeg := 0, lastAt := s.time.now }])
      [canReply s q 8 (objBytes (qKey q) ++ [0, 0, 0, 0])] := by
  have hdrop := dropXfer_moved s q.src.toNat
  have hnew : ({ newXfer (dropXfer s q.src.toNat) q true with total := qByte q 4 4, crc := qByte q 8 4 } : Xfer) =
      { node := q.src.toNat, pri := q.pri, seq := q.seq, wr := true, key := qKey q, total := qByte q 4 4, crc := qByte q 8 4
        data := [], nextSeg := 0, lastAt := s.time.now } := by
    rw [newXfer, hdrop.time]
  rw [serveSegWrite, openXfer_found hobj, if_neg (Nat.not_le.mpr hroom)]
  dsimp only
  rw [hnew]
  have hset := hdrop.trans (setXfer_moved (dropXfer s q.src.toNat)
    { node := q.src.toNat, pri := q.pri, seq := q.seq, wr := true, key := qKey q, total := qByte q 4 4, crc := qByte q 8 4
      data := [], nextSeg := 0, lastAt := s.time.now })
  have h := hset.trans (sdpReply_moved _ q 8 (objBytes (qKey q) ++ [0, 0, 0, 0]))
  rw [hset.xfers, hset.canReply, hdrop.xfers, filter_node_twice] at h
  have hack : objBytes (qKey q) ++ toLE 2 0 ++ [0, 0] = objBytes (qKey q) ++ [0, 0, 0, 0] := List.append_assoc _ _ _
  rw [ackSeg, hack]
  exact h

/-! ### The segments of a read -/

/-- One segment of a read. -/
def segment (x : Xfer) (i : Nat) : List Byte :=
  toLE 2 i ++ toLE 1 (b2n (i + 1 == segCount x)) ++ [0] ++ (x.data.drop (60 * i)).take 60

theorem segments_moved (s : State) (q : CanReq) (f : Nat → List Byte) (l : List Nat) :
    Moved s (l.foldl (fun t j => sdpReply t q 7 (f j)) s) s.dict.xfers (l.reverse.map fun j => canReply s q 7 (f j)) := by
  induction l generalizing s with
  | nil => exact ⟨s.obj, s.answer, s.pwr, rfl, rfl⟩
  | cons j l ih =>
    have hfirst := sdpReply_moved s q 7 (f j)
    have h := hfirst.trans (ih (sdpReply s q 7 (f j)))
    rw [hfirst.xfers] at h
    simp only [hfirst.canReply] at h
    rw [List.reverse_cons, List.map_append]
    exact h

/-- The frames of a block, the newest first. -/
def blockFrames (s : State) (q : CanReq) (x : Xfer) : List Out :=
  (List.range (min (x.nextSeg + 16) (segCount x) - x.nextSeg)).reverse.map fun j => canReply s q 7 (segment x (x.nextSeg + j))

theorem length_blockFrames (s : State) (q : CanReq) (x : Xfer) : (blockFrames s q x).length = min 16 (segCount x - x.nextSeg) := by
  rw [blockFrames, List.length_map, List.length_reverse, List.length_range]
  omega

/-- The segments of a block go out, and the transfer waits for their SEG_ACK. -/
theorem sendBlock_moved (s : State) (q : CanReq) (x : Xfer) :
    Moved s (sendBlock s q x) (s.dict.xfers.filter (fun y => y.node != x.node) ++
      [{ x with nextSeg := min (x.nextSeg + 16) (segCount x), lastAt := s.time.now }]) (blockFrames s q x) := by
  have hsent := segments_moved s q (fun j => segment x (x.nextSeg + j)) (List.range (min (x.nextSeg + 16) (segCount x) - x.nextSeg))
  have h := hsent.trans (setXfer_moved _
    { x with nextSeg := min (x.nextSeg + 16) (segCount x)
             lastAt := ((List.range (min (x.nextSeg + 16) (segCount x) - x.nextSeg)).foldl
               (fun t j => sdpReply t q 7 (segment x (x.nextSeg + j))) s).time.now })
  rw [hsent.xfers, hsent.time] at h
  change Moved s (setXfer _ { x with nextSeg := min (x.nextSeg + 16) (segCount x)
                                     lastAt := ((List.range (min (x.nextSeg + 16) (segCount x) - x.nextSeg)).foldl
                                       (fun t j => sdpReply t q 7 (segment x (x.nextSeg + j))) s).time.now }) _ _
  rw [hsent.time]
  exact h

theorem sendBlock_answer (s : State) (q : CanReq) (x : Xfer) : (sendBlock s q x).answer = s.answer := by
  have hdrop (t : State) (n : Nat) : (dropXfer t n).answer = t.answer := by
    rw [dropXfer]
    dsimp only
    split <;> rfl
  refine (hdrop _ _).trans ?_
  exact foldl_keeps State.answer (fun t j => sdpReply t q 7 (segment x (x.nextSeg + j))) (fun _ _ => rfl) _ _

/-- A value of up to 60 bytes is one segment. -/
theorem segCount_short {x : Xfer} (h : x.data.length ≤ 60) : segCount x = 1 := by
  rw [segCount, cdiv]
  omega

/-- SEG_READ of a number is answered, and its one segment follows. -/
theorem serveSegRead_moved {s : State} {q : CanReq} {r : Row} (hobj : objectFor s .can (qKey q / 256) (qKey q % 256) = .ok r)
    (hroom : (s.dict.xfers.filter (fun x => x.node != q.src.toNat)).length < 4) (hdomain : ∀ m, r.ty ≠ .domain m) (hstr : r.ty ≠ .vstr)
    {b : List Byte} (hb : b = toLE r.ty.width (valueOf (dropXfer s q.src.toNat) (qKey q / 256) (qKey q % 256) r)) :
    (serveSegRead q s).answer = .ok b ∧
    Moved s (serveSegRead q s) (s.dict.xfers.filter (fun x => x.node != q.src.toNat) ++
        [{ node := q.src.toNat, pri := q.pri, seq := q.seq, wr := false, key := qKey q, total := 0, crc := 0
           data := b, nextSeg := 1, lastAt := s.time.now }])
      [canReply s q 7 ([0, 0, 1, 0] ++ b), canReply s q 8 (objBytes (qKey q) ++ [0, 0, 0, 0] ++ toLE 4 b.length ++ toLE 4 (crc32c b))] := by
  have hdrop := dropXfer_moved s q.src.toNat
  obtain ⟨u, hu⟩ : ∃ u, u = dropXfer s q.src.toNat := ⟨_, rfl⟩
  have hread : readObj u .can (qKey q / 256) (qKey q % 256) = (u, .ok b) := by
    have hfound := (hdrop.objectFor .can (qKey q / 256) (qKey q % 256)).trans hobj
    rw [← hu] at hfound
    rw [readObj, hfound, hb, ← hu]
    dsimp only
    cases hr : r.ty with
    | domain m => exact absurd hr (hdomain m)
    | vstr => exact absurd hr hstr
    | _ => rfl
  have hshort : b.length ≤ 60 := by
    rw [hb, length_toLE]
    cases hr : r.ty with
    | domain m => exact absurd hr (hdomain m)
    | vstr => exact absurd hr hstr
    | _ => decide
  rw [serveSegRead, openXfer_found hobj, if_neg (Nat.not_le.mpr hroom), ← hu]
  dsimp only
  rw [hread]
  dsimp only
  rw [← hu] at hdrop
  obtain ⟨v, hv⟩ : ∃ v, v = { sdpReply u q 8 (objBytes (qKey q) ++ [0, 0, 0, 0] ++ toLE 4 b.length ++ toLE 4 (crc32c b)) with answer := .ok b } := ⟨_, rfl⟩
  have hreply : Moved s v (s.dict.xfers.filter (fun x => x.node != q.src.toNat))
      [canReply s q 8 (objBytes (qKey q) ++ [0, 0, 0, 0] ++ toLE 4 b.length ++ toLE 4 (crc32c b))] := by
    have h := hdrop.trans (sdpReply_moved u q 8 (objBytes (qKey q) ++ [0, 0, 0, 0] ++ toLE 4 b.length ++ toLE 4 (crc32c b)))
    rw [hdrop.xfers, hdrop.canReply] at h
    rw [hv]
    exact answer_moved h _
  have hnew : ({ newXfer (sdpReply u q 8 (objBytes (qKey q) ++ [0, 0, 0, 0] ++ toLE 4 b.length ++ toLE 4 (crc32c b))) q false with data := b } : Xfer) =
      { node := q.src.toNat, pri := q.pri, seq := q.seq, wr := false, key := qKey q, total := 0, crc := 0
        data := b, nextSeg := 0, lastAt := s.time.now } := by
    rw [newXfer, show (sdpReply u q 8 _).time = s.time from hdrop.time]
  rw [hnew, ← hv]
  obtain ⟨x, hx⟩ : ∃ x : Xfer, x = { node := q.src.toNat, pri := q.pri, seq := q.seq, wr := false, key := qKey q, total := 0, crc := 0
                                     data := b, nextSeg := 0, lastAt := s.time.now } := ⟨_, rfl⟩
  have hone : segCount x = 1 := segCount_short (by rw [hx]; exact hshort)
  have hframes : blockFrames v q x = [canReply s q 7 ([0, 0, 1, 0] ++ b)] := by
    rw [blockFrames, hone, show x.nextSeg = 0 by rw [hx]]
    change [canReply v q 7 (segment x 0)] = _
    rw [hreply.canReply, segment, hone, show x.data = b by rw [hx], Nat.mul_zero, List.drop_zero, List.take_of_length_le hshort]
    rfl
  have h := hreply.trans (sendBlock_moved v q x)
  have hothers : (s.dict.xfers.filter (fun y => y.node != q.src.toNat)).filter (fun y => y.node != x.node) =
      s.dict.xfers.filter (fun y => y.node != q.src.toNat) := by
    rw [hx]
    exact filter_node_twice _ _
  rw [hreply.xfers, hreply.time, hframes, hone, hothers, hx] at h
  exact ⟨(sendBlock_answer v q _).trans (by rw [hv]), h⟩

/-! ### SEG_DATA and SEG_ACK -/

/-- A segment of a write that comes out of turn ends it. -/
theorem segTake_outOfTurn {s : State} {q : CanReq} {x : Xfer} (hseq : qByte q 0 2 ≠ x.nextSeg) :
    segTake s q x = sdpAbort (dropXfer s x.node) q x.key abSequence 0 := by
  rw [segTake, if_pos (bne_iff_ne.mpr hseq)]

/-- A segment that is not the last is kept, and every 16th is acknowledged. -/
theorem segTake_kept {s : State} {q : CanReq} {x : Xfer} (hseq : qByte q 0 2 = x.nextSeg) (hend : qByte q 2 1 % 2 = 0) :
    Moved s (segTake s q x) (s.dict.xfers.filter (fun y => y.node != x.node) ++
        [{ x with data := x.data ++ q.data.drop 4, nextSeg := x.nextSeg + 1, lastAt := s.time.now }])
      (if (x.nextSeg + 1) % 16 = 0 then [canReply s q 8 (objBytes x.key ++ toLE 2 (x.nextSeg + 1) ++ [0, 0])] else []) := by
  have hbit : ¬bit (qByte q 2 1) 0 = true := by
    rw [bit, Nat.pow_zero, Nat.div_one, hend]
    decide
  have hset := setXfer_moved s { x with data := x.data ++ q.data.drop 4, nextSeg := x.nextSeg + 1, lastAt := s.time.now }
  rw [segTake, if_neg (by rw [hseq, bne_self_eq_false]; decide)]
  dsimp only
  rw [if_neg hbit]
  by_cases h16 : (x.nextSeg + 1) % 16 = 0
  · rw [if_pos h16, if_pos h16]
    have h := hset.trans (sdpReply_moved _ q 8 (objBytes x.key ++ toLE 2 (x.nextSeg + 1) ++ [0, 0]))
    rw [hset.xfers, hset.canReply] at h
    exact h
  · rw [if_neg h16, if_neg h16]
    exact hset

/-- The last segment closes the transfer. -/
theorem segTake_last {s : State} {q : CanReq} {x : Xfer} (hseq : qByte q 0 2 = x.nextSeg) (hend : qByte q 2 1 % 2 = 1) :
    segTake s q x = segFinish s q { x with data := x.data ++ q.data.drop 4, nextSeg := x.nextSeg + 1, lastAt := s.time.now } := by
  have hbit : bit (qByte q 2 1) 0 = true := by
    rw [bit, Nat.pow_zero, Nat.div_one, hend]
    decide
  rw [segTake, if_neg (by rw [hseq, bne_self_eq_false]; decide)]
  dsimp only
  rw [if_pos hbit]

/-- A value that is too short ends with LENGTH. -/
theorem segFinish_short {s : State} {q : CanReq} {x : Xfer} (h : x.data.length < x.total) :
    segFinish s q x = sdpAbort (dropXfer s x.node) q x.key abLength 0 := by
  rw [segFinish]
  dsimp only
  rw [if_pos (by simp [h])]

/-- A value of the right length is written where its CRC is right. -/
theorem segFinish_whole {s : State} {q : CanReq} {x : Xfer} (h : x.data.length = x.total) :
    segFinish s q x = if crc32c x.data != x.crc then sdpAbort (dropXfer s x.node) q x.key abCrc 0
      else sdpWritten q 8 x.key (objBytes x.key ++ toLE 2 x.nextSeg ++ [0, 0])
        (writeObj (dropXfer s x.node) .can (x.key / 256) (x.key % 256) x.data) := by
  rw [segFinish, ← h]
  dsimp only
  rw [if_neg (by simp), List.take_length]

/-- A write of a value that only takes its place. -/
theorem writeObj_plain {s : State} {idx sub : Nat} {bs : List Byte} {r : Row} (hobj : objectFor s .can idx sub = .ok r) (hw : Writable r)
    (hp : Plain idx) (hlen : bs.length = r.ty.width) (hall : allowed r (ofLE bs) = true) :
    writeObj s .can idx sub bs = ackOk (keepValue s idx sub (fieldsOf idx sub (ofLE bs)) r) := by
  obtain ⟨hacc, hty⟩ := hw
  obtain ⟨hidx, h401, h402, hlist⟩ := hp
  simp only [List.mem_cons, List.not_mem_nil, or_false, not_or] at hlist
  obtain ⟨-, h4800, h4810, h4820, h5821, h6800, h8002⟩ := hlist
  have hnot : ¬(r.acc = .ro ∨ r.acc = .const) ∧ r.acc ≠ .wo := by
    rcases hacc with h | h <;> rw [h] <;> decide
  have hvalue : valueWrite s idx sub (ofLE bs) r = ackOk (keepValue s idx sub (fieldsOf idx sub (ofLE bs)) r) := by
    rw [valueWrite]
    dsimp only
    rw [if_neg (by omega), if_neg (by omega), if_neg h4810, if_neg hnot.2, if_neg (fun h => h402 h.1), if_neg h401, if_neg h4800,
      if_neg (fun h => h4820 h.1), if_neg h5821, if_neg (fun h => h6800 h.1), if_neg (fun h => h6800 h.1), if_neg h8002]
  rw [writeObj, hobj]
  dsimp only
  rw [if_neg hnot.1, if_neg (fun h => by omega)]
  cases hr : r.ty with
  | domain m => exact absurd hr (hty m)
  | _ =>
    dsimp only
    rw [← hr, hlen, bne_self_eq_false, hall, hvalue]
    rfl

/-- A value that is kept, with its acknowledgement. -/
theorem sdpWritten_kept {s : State} {v : Nat} (q : CanReq) (k : Nat) (r : Row) (hp : Plain (k / 256)) (data : List Byte) :
    let t := sdpWritten q 8 k data (ackOk (keepValue s (k / 256) (k % 256) v r))
    t.answer = .ok [] ∧ obj t (k / 256) (k % 256) = v ∧ t.dict.xfers = s.dict.xfers ∧ t.out = canReply s q 8 data :: s.out := by
  intro t
  obtain ⟨-, -, -, hlist⟩ := hp
  have hnot : k / 256 ≠ 0x0200 := fun h => hlist (by rw [h]; decide)
  have hobj : obj (keepValue s (k / 256) (k % 256) v r) (k / 256) (k % 256) = v := by
    rw [keepValue]
    split
    · exact (obj_congr rfl rfl _ _).trans (obj_putObj_same _ _ _ _)
    · exact obj_putObj_same _ _ _ _
  have hkept : (keepValue s (k / 256) (k % 256) v r).dict.xfers = s.dict.xfers ∧ (keepValue s (k / 256) (k % 256) v r).out = s.out ∧
      (keepValue s (k / 256) (k % 256) v r).sys = s.sys := by
    rw [keepValue]
    split <;> exact ⟨rfl, rfl, rfl⟩
  obtain ⟨u, hu⟩ : ∃ u, u = keepValue s (k / 256) (k % 256) v r := ⟨_, rfl⟩
  have ht : t = bump (emit { u with answer := .ok [] } (canReply u q 8 data)) 0x0200 5 := by
    rw [hu]
    exact if_pos rfl
  rw [← hu] at hobj hkept
  obtain ⟨hxfers, hout, hsys⟩ := hkept
  rw [ht]
  refine ⟨rfl, ?_, hxfers, ?_⟩
  · rw [obj_bump_ne _ (by decide) (Nat.mod_lt _ (by decide)) (.inl (Ne.symm hnot))]
    exact (obj_congr rfl rfl _ _).trans hobj
  · change canReply u q 8 data :: u.out = _
    rw [canReply, hsys, hout, ← canReply]

/-- SEG_DATA of a node's write. -/
theorem exec_segData {s : State} {q : CanReq} {x : Xfer} (hc : canHears s q = true) (hx : s.dict.xfers = [x]) (hnode : x.node = q.src.toNat)
    (hdue : s.time.now < xferDue s x) (hwr : x.wr = true) : exec (.segData q) s = .next (segTake (bump s 0x0200 4) q x) := by
  have hnone : ∀ y ∈ s.dict.xfers, s.time.now < xferDue s y := by
    rw [hx]
    intro y hy
    rw [List.mem_singleton.mp hy]
    exact hdue
  have hfind : xferOf (bump s 0x0200 4) q.src.toNat = some x := by
    rw [xferOf, (bump_moved s 0x0200 4).xfers, hx, List.find?_cons_of_pos (by rw [hnode, beq_self_eq_true])]
  change execSegData q s = _
  rw [execSegData, if_neg (by rw [sdpHears_of hc (by decide) (by decide)]; decide), settleXfers_of_none s q hnone]
  dsimp only
  rw [hfind]
  dsimp only
  rw [if_pos hwr]

/-- SEG_ACK of a node's read. -/
theorem exec_segAck {s : State} {q : CanReq} {x : Xfer} (hc : canHears s q = true) (hx : s.dict.xfers = [x]) (hnode : x.node = q.src.toNat)
    (hdue : s.time.now < xferDue s x) (hwr : x.wr = false) : exec (.segAck q) s = .next
      (if qByte q 4 2 != x.nextSeg then sdpAbort (dropXfer (bump s 0x0200 4) x.node) q x.key abSequence 0
      else if segCount x ≤ x.nextSeg then dropXfer (bump s 0x0200 4) x.node else sendBlock (bump s 0x0200 4) q x) := by
  have hnone : ∀ y ∈ s.dict.xfers, s.time.now < xferDue s y := by
    rw [hx]
    intro y hy
    rw [List.mem_singleton.mp hy]
    exact hdue
  have hfind : xferOf (bump s 0x0200 4) q.src.toNat = some x := by
    rw [xferOf, (bump_moved s 0x0200 4).xfers, hx, List.find?_cons_of_pos (by rw [hnode, beq_self_eq_true])]
  change execSegAck q s = _
  rw [execSegAck, if_neg (by rw [sdpHears_of hc (by decide) (by decide)]; decide), settleXfers_of_none s q hnone]
  dsimp only
  rw [hfind]
  dsimp only
  rw [if_neg (by rw [hwr]; decide)]
  split
  · rfl
  · split <;> rfl

/-- A segment that comes late finds its transfer ended: TIMEOUT, and then SEQUENCE for a transfer that is none. -/
theorem exec_segData_late {s : State} {q : CanReq} {x : Xfer} (hc : canHears s q = true) (hx : s.dict.xfers = [x])
    (hdue : xferDue s x ≤ s.time.now) : ∃ t, exec (.segData q) s = .next t ∧ t.dict.xfers = [] ∧ t.answer = .abort 8 0 ∧
      (∃ o p, t.out = o :: p :: s.out ∧ isAbort o = true ∧ isAbort p = true) ∧ obj t 0x0200 7 = (obj s 0x0200 7 + 2) % 2 ^ 64 := by
  have hlate : s.dict.xfers.filter (fun y => decide (xferDue s y ≤ s.time.now)) = [x] := by
    rw [hx, List.filter_cons_of_pos (by simp [hdue]), List.filter_nil]
  have htimeout := dropAbort_moved s x.node
    { pri := x.pri, dst := s.sys.node, src := BitVec.ofNat 7 x.node, seq := x.seq, data := [] } x.key abTimeout 0
  rw [hx, List.filter_cons_of_neg (by simp), List.filter_nil] at htimeout
  have hcount : obj (timeOut s x) 0x0200 7 = (obj s 0x0200 7 + 1) % 2 ^ 64 := by
    rw [timeOut, sdpAbort_counts, dropXfer_obj]
  obtain ⟨u, hu⟩ : ∃ u, u = timeOut s x := ⟨_, rfl⟩
  change Moved s (timeOut s x) [] _ at htimeout
  rw [← hu] at htimeout hcount
  have hexec : exec (.segData q) s = .next (sdpAbort (bump u 0x0200 4) q 0 abSequence 0) := by
    change execSegData q s = _
    rw [execSegData, if_neg (by rw [sdpHears_of hc (by decide) (by decide)]; decide), settleXfers, if_neg (by rw [hc]; decide), hlate,
      List.foldl_cons, List.foldl_nil, ← hu]
    dsimp only
    rw [xferOf, (bump_moved u 0x0200 4).xfers, htimeout.xfers]
    rfl
  have h := (htimeout.trans (bump_moved u 0x0200 4)).trans (sdpAbort_moved (bump u 0x0200 4) q 0 abSequence 0)
  refine ⟨_, hexec, h.xfers.trans htimeout.xfers, rfl, ⟨_, _, h.out, isAbort_canReply _ _ _, isAbort_canReply _ _ _⟩, ?_⟩
  rw [sdpAbort_counts, obj_bump_ne _ (by decide) (by decide) (by decide), hcount]
  omega

/-- A function code that no rule lists gets BAD_COMMAND, as the last request of its node. -/
theorem exec_unlisted {s : State} {q : CanReq} {f : BitVec 6} (hc : canHears s q = true) (hlist : listedFunc f.toNat = false)
    (hlast : s.dict.lastReq = []) :
    let o := canReply s q 9 [0, 0, 0, 0x0E, 0]
    ∃ t, exec (.abortXfer f q) s = .next t ∧ t.answer = .abort 0x0E 0 ∧ t.out = o :: s.out ∧
      t.dict = { s.dict with lastReq := [(q.src.toNat, { func := f.toNat, seq := q.seq.toNat, at_ := s.time.now, reply := [o] })] } := by
  intro o
  have hnot (n : Nat) (h : listedFunc n = true) : f.toNat ≠ n := fun hn => by
    rw [hn, h] at hlist
    exact Bool.noConfusion hlist
  have hanswer : answerFunc f.toNat = false := by
    simp [answerFunc, hnot 2 (by decide), hnot 4 (by decide), hnot 0x11 (by decide)]
  have hserved := sdpRequest_served (sdpHears_of hc (hnot 1 (by decide)) (hnot 3 (by decide))) hlast (fun s => sdpAbort s q 0 abBadCommand 0)
  have hexec : exec (.abortXfer f q) s = sdpRequest s q f.toNat (fun s => sdpAbort s q 0 abBadCommand 0) := by
    change execAbortXfer f q s = _
    rw [execAbortXfer, if_neg (by rw [hc]; decide), if_neg (fun h => hnot 9 (by decide) (by rw [h]; rfl)),
      if_neg (by rw [hanswer]; decide), if_neg (by rw [hlist]; decide)]
  have h := (bump_moved s 0x0200 4).trans (sdpAbort_moved (bump s 0x0200 4) q 0 abBadCommand 0)
  have hout : (sdpAbort (bump s 0x0200 4) q 0 abBadCommand 0).out = o :: s.out := h.out
  have hsent : sentSince (sdpAbort (bump s 0x0200 4) q 0 abBadCommand 0) s.out.length = [o] := by
    rw [sentSince, hout, List.length_cons, Nat.add_sub_cancel_left]
    rfl
  refine ⟨_, hexec.trans hserved, rfl, hout, ?_⟩
  dsimp only
  rw [hsent]
  change ({ s.dict with lastReq := _ :: s.dict.lastReq.filter _ } : DictSt) = _
  rw [hlast]
  rfl

/-! ### The obligation -/

/-- Settles O46: how a segmented transfer opens, goes on, times out and ends. -/
theorem transfersRunInSegments : Obligations.TransfersRunInSegments := by
  refine ⟨?_, ?_, ?_, ?_, ?_, ?_⟩
  · intro s q r hc hlast hnone hobj others
    have hbump := bump_moved s 0x0200 4
    have hfound := (hbump.objectFor .can (qKey q / 256) (qKey q % 256)).trans hobj
    have hwrite := exec_segWrite hc hlast hnone
    have hread := exec_segRead hc hlast hnone
    refine ⟨fun hfull => ⟨?_, ?_⟩, fun hroom => ⟨?_, fun hdomain hstr => ?_⟩⟩
    · obtain ⟨hans, hxs⟩ := openXfer_busy hfound hfull _
      exact ⟨_, hwrite, hans, hxs⟩
    · obtain ⟨hans, hxs⟩ := openXfer_busy hfound hfull _
      exact ⟨_, hread, hans, hxs⟩
    · have h := serveSegWrite_moved hfound hroom
      refine ⟨_, hwrite, ?_, h.xfers⟩
      refine h.out.trans ?_
      rw [hbump.canReply]
      rfl
    · intro b
      obtain ⟨hans, h⟩ := serveSegRead_moved hfound hroom hdomain hstr (b := b) rfl
      refine ⟨_, hread, hans, ?_, h.xfers⟩
      refine h.out.trans ?_
      rw [hbump.canReply, hbump.canReply]
      rfl
  · intro s q x hc hx _ hdue
    exact exec_segData_late hc hx hdue
  · intro s q x hc hx hnode hdue data
    have hbump := bump_moved s 0x0200 4
    have hdropped : (bump s 0x0200 4).dict.xfers.filter (fun y => y.node != x.node) = [] := by
      rw [hbump.xfers, hx, List.filter_cons_of_neg (by simp), List.filter_nil]
    have hgone (k c d : Nat) : (sdpAbort (dropXfer (bump s 0x0200 4) x.node) q k c d).dict.xfers = [] :=
      (dropAbort_moved _ _ _ _ _ _).xfers.trans hdropped
    refine ⟨fun hwr hseq => ?_, fun hwr hseq hend => ?_, fun hwr hseq hend => ?_, fun hwr hseq => ?_, fun hwr hseq hall => ?_,
      fun hwr hseq hmore => ?_⟩
    · refine ⟨_, exec_segData hc hx hnode hdue hwr, ?_⟩
      rw [segTake_outOfTurn hseq]
      exact ⟨rfl, hgone _ _ _⟩
    · have h := segTake_kept (s := bump s 0x0200 4) hseq hend
      refine ⟨_, exec_segData hc hx hnode hdue hwr, h.xfers.trans ?_, h.out.trans ?_⟩
      · rw [hdropped]
        rfl
      · rw [hbump.canReply]
        split <;> rfl
    · have hlast := segTake_last (s := bump s 0x0200 4) hseq hend
      refine ⟨fun hlen => ?_, fun hlen hcrc => ?_, fun r hlen hcrc hobj hw hp hwid hall => ?_⟩
      · refine ⟨_, exec_segData hc hx hnode hdue hwr, ?_⟩
        rw [hlast, segFinish_short hlen]
        exact ⟨rfl, hgone _ _ _⟩
      · refine ⟨_, exec_segData hc hx hnode hdue hwr, ?_⟩
        rw [hlast, segFinish_whole hlen, if_pos (bne_iff_ne.mpr hcrc)]
        exact ⟨rfl, hgone _ _ _⟩
      · have hdrop := dropXfer_moved (bump s 0x0200 4) x.node
        have hfound := (hdrop.objectFor .can (x.key / 256) (x.key % 256)).trans ((hbump.objectFor _ _ _).trans hobj)
        refine ⟨_, exec_segData hc hx hnode hdue hwr, ?_⟩
        rw [hlast, segFinish_whole hlen, if_neg (by rw [show crc32c (x.data ++ q.data.drop 4) = x.crc from hcrc, bne_self_eq_false]; decide)]
        obtain ⟨u, hu⟩ : ∃ u, u = dropXfer (bump s 0x0200 4) x.node := ⟨_, rfl⟩
        rw [← hu] at hdrop hfound ⊢
        dsimp only
        rw [writeObj_plain hfound hw hp hwid hall]
        obtain ⟨hans, hobj, hmoved⟩ := sdpWritten_kept (s := u) (v := fieldsOf (x.key / 256) (x.key % 256) (ofLE (x.data ++ q.data.drop 4))) q
          x.key r hp (objBytes x.key ++ toLE 2 (x.nextSeg + 1) ++ [0, 0])
        refine ⟨hans, ?_, hobj, ?_⟩
        · rw [hmoved.1, hdrop.xfers, hdropped]
        · rw [hmoved.2, hdrop.out, hdrop.canReply, hbump.canReply]
          rfl
    · refine ⟨_, exec_segAck hc hx hnode hdue hwr, ?_⟩
      rw [if_pos (bne_iff_ne.mpr hseq)]
      exact ⟨rfl, hgone _ _ _⟩
    · have hdrop := dropXfer_moved (bump s 0x0200 4) x.node
      refine ⟨_, exec_segAck hc hx hnode hdue hwr, ?_⟩
      rw [if_neg (by rw [hseq, bne_self_eq_false]; decide), if_pos hall]
      exact ⟨hdrop.xfers.trans hdropped, hdrop.out⟩
    · have hblock := sendBlock_moved (bump s 0x0200 4) q x
      refine ⟨_, exec_segAck hc hx hnode hdue hwr, ?_⟩
      rw [if_neg (by rw [hseq, bne_self_eq_false]; decide), if_neg (Nat.not_le.mpr hmore)]
      refine ⟨hblock.xfers.trans (by rw [hdropped]; rfl), ?_⟩
      rw [hblock.out, List.length_append, length_blockFrames, Nat.add_comm]
      rfl
  · intro s q hc hnone
    have hbump := bump_moved s 0x0200 4
    have hdrop := dropXfer_moved (bump s 0x0200 4) q.src.toNat
    have hexec : exec (.abortXfer 9 q) s = .next (dropXfer (bump s 0x0200 4) q.src.toNat) := by
      change execAbortXfer 9 q s = _
      rw [execAbortXfer, if_neg (by rw [hc]; decide), if_pos rfl, settleXfers_of_none s q hnone]
    exact ⟨_, hexec, hdrop.out, hdrop.dict⟩
  · intro s q f hc
    refine ⟨fun hf => ?_, fun hlist hlast => exec_unlisted hc hlist hlast⟩
    change execAbortXfer f q s = _
    rw [execAbortXfer, if_neg (by rw [hc]; decide), if_neg (by rcases hf with rfl | rfl | rfl <;> decide),
      if_pos (by rcases hf with rfl | rfl | rfl <;> decide)]
  · intro s node x hup hx
    obtain ⟨d, hd⟩ : ∃ d, d = xferDue s x := ⟨_, rfl⟩
    have hnode : x.node = node.toNat := by
      have h := List.find?_some hx
      simpa using h
    have hexec : exec (.sdpTimeout node) s = .next (timeOut (advanceTo s d) x) := by
      change execSdpTimeout node s = _
      rw [execSdpTimeout, hx]
      dsimp only
      rw [if_pos hup, hd]
    have hmoved := dropAbort_moved (advanceTo s d) x.node
      { pri := x.pri, dst := (advanceTo s d).sys.node, src := BitVec.ofNat 7 x.node, seq := x.seq, data := [] } x.key abTimeout 0
    change Moved _ (timeOut (advanceTo s d) x) _ _ at hmoved
    have hxfers : (timeOut (advanceTo s d) x).dict.xfers = s.dict.xfers.filter (fun y => y.node != node.toNat) := by
      rw [← hnode]
      exact hmoved.xfers
    refine ⟨_, hexec, ?_, rfl, ?_, fun n hn => ?_⟩
    · rw [hmoved.time, advanceTo_now, hd, xferDue, msU_eq]
    · rw [xferOf, hxfers, List.find?_eq_none]
      exact fun y hy => by simpa using (List.mem_filter.mp hy).2
    · rw [xferOf, hxfers, List.find?_filter]
      exact List.find?_congr fun y _ => by
        by_cases h : y.node = n
        · simp [h, hn]
        · simp [h]

end Sys2Proof.Proofs

/-! The dictionary's server: objects written, requests answered, values stored (R357 to R377). -/

namespace Sys2Proof.Proofs

open Sys2Proof.Machine Sys2Proof.Claim

/-! ### The home-disposition table (R244) -/

theorem mfind_append {α : Type} (l m : Map α) (k : Nat) : mfind (l ++ m) k = (mfind l k).or (mfind m k) := by
  induction l with
  | nil => rfl
  | cons e l ih =>
    obtain ⟨a, v⟩ := e
    rw [List.cons_append, mfind, mfind, ih]
    split <;> rfl

theorem homeWord_lt (s : State) (n : Nat) : homeWord s n < 2 ^ 32 := by
  rw [homeWord]
  split
  case isTrue h =>
    rw [Bool.and_eq_true, decide_eq_true_eq, decide_eq_true_eq] at h
    omega
  case isFalse h => decide

/-- The cell of a byte of a tenant's word. -/
theorem mem_homeCells {s : State} {n i : Nat} {x : Byte} (hn : n < 4096) (hi : i < 4) :
    (0x20000 + 8 * n + i, x) ∈ homeCells s ↔ (toLE 4 (homeWord s n))[i]? = some x ∧ x ≠ 0 := by
  rw [homeCells, List.mem_filter, List.mem_flatMap, bne_iff_ne]
  refine and_congr_left fun _ => ⟨fun ⟨t, ht, h⟩ => ?_, fun h => ⟨n, List.mem_range.mpr hn, ?_⟩⟩
  · obtain ⟨e, he, heq⟩ := List.mem_map.mp h
    obtain ⟨haddr, rfl⟩ := Prod.mk.inj heq
    have hlt := List.snd_lt_of_mem_zipIdx he
    rw [length_toLE] at hlt
    obtain rfl : t = n := by omega
    obtain rfl : e.2 = i := by omega
    exact List.mk_mem_zipIdx_iff_getElem?.mp he
  · exact List.mem_map.mpr ⟨(x, i), List.mk_mem_zipIdx_iff_getElem?.mpr h, rfl⟩

theorem rd8_homeCells {s : State} {n i : Nat} (hn : n < 4096) (hi : i < 4) :
    some (rd8 (homeCells s) (0x20000 + 8 * n + i)) = (toLE 4 (homeWord s n))[i]? := by
  have hrise : keysRise (homeCells s) = true := (Bool.and_eq_true_iff.mp (homeCells_wf s)).1
  have hcell (x : Byte) := (mem_homeCells (s := s) (x := x) hn hi).symm.trans (mem_iff_mfind hrise)
  have hlen : i < (toLE 4 (homeWord s n)).length := by rw [length_toLE]; exact hi
  rw [List.getElem?_eq_getElem hlen] at hcell ⊢
  generalize homeCells s = l at hcell ⊢
  generalize 0x20000 + 8 * n + i = a at hcell ⊢
  rw [rd8, mget]
  refine congrArg some ?_
  generalize (toLE 4 (homeWord s n))[i] = b at hcell ⊢
  cases h : mfind l a with
  | some x =>
    obtain ⟨hx, -⟩ := (hcell x).mpr h
    exact (Option.some.inj hx).symm
  | none =>
    by_contra hne
    have hfound := (hcell _).mp ⟨rfl, fun h0 => hne h0.symm⟩
    rw [h] at hfound
    cases hfound

/-- The whole table is written: each tenant's word stands in its place. -/
theorem rdN_homeWrite (s : State) (c : Nat) {n : Nat} (hn : n < 4096) :
    ofLE (rdN (cluster (homeWrite s c) c).scratch (0x20000 + 8 * n) 4) = homeWord s n := by
  have hbytes : rdN (cluster (homeWrite s c) c).scratch (0x20000 + 8 * n) 4 = toLE 4 (homeWord s n) := by
    refine List.ext_getElem? fun i => ?_
    by_cases hi : i < 4
    · rw [getElem_rdN _ _ _ _ hi, ← rd8_homeCells hn hi, homeWrite, cluster_modCluster, if_pos rfl, rd8, rd8, mget, mget, mfind_append, mfind_append,
        mfind_filter_none (k := 0x20000 + 8 * n + i) (p := fun e => decide (e.1 < 0x20000)) (fun _ => decide_eq_false (by dsimp only; omega)),
        mfind_filter_none (k := 0x20000 + 8 * n + i) (p := fun e => decide (0x28000 ≤ e.1)) (fun _ => decide_eq_false (by dsimp only; omega)),
        Option.none_or, Option.or_none]
    · rw [List.getElem?_eq_none (by rw [length_rdN]; omega), List.getElem?_eq_none (by rw [length_toLE]; omega)]
  rw [hbytes, ofLE_toLE]
  exact Nat.mod_eq_of_lt (homeWord_lt s n)

/-- PitchEntry takes a value that will be stored; with the Pass program back, the table is whole again. -/
theorem setPitchEntry_facts (s : State) (c v : Nat) : let t := setPitchEntry s c v
    obj t (0x4010 + c) 1 = v ∧ t.ropes = s.ropes ∧ t.hbm = s.hbm ∧
      t.dict.storeQ = s.dict.storeQ.filter (fun e => e.1 != key (0x4010 + c) 1) ++ [(key (0x4010 + c) 1, v)] ∧
      (v = 0x100000 → obj s (0x4010 + c) 1 ≠ 0x100000 → ∀ n, n < 4096 →
        ofLE (rdN (cluster t c).scratch (0x20000 + 8 * n) 4) = homeWord s n) := by
  intro t
  obtain ⟨u, hu⟩ : ∃ u, u = storeLater (putObj s (0x4010 + c) 1 v) (0x4010 + c) 1 v := ⟨_, rfl⟩
  have hobj : obj u (0x4010 + c) 1 = v := by
    rw [hu]
    exact (obj_congr rfl rfl _ _).trans (obj_putObj_same _ _ _ _)
  have hwords {n : Nat} (hn : n < 4096) : homeWord u n = homeWord s n := by
    have hten {a : Nat} (ha : a < 256) : ten u n a = ten s n a := by
      rw [hu]
      exact (obj_congr rfl rfl _ _).trans (obj_putObj_ne _ _ (by decide) ha (.inl (by omega)))
    rw [homeWord, hten (by decide), hten (by decide), ← homeWord]
  have ht : t = if runsPass u c && !runsPass s c then homeWrite u c else u := by rw [hu]; rfl
  have hkept : t.obj = u.obj ∧ t.sys = u.sys ∧ t.ropes = u.ropes ∧ t.hbm = u.hbm ∧ t.dict = u.dict := by
    rw [ht]
    split <;> exact ⟨rfl, rfl, rfl, rfl, rfl⟩
  obtain ⟨ho, hsys, hropes, hhbm, hdict⟩ := hkept
  refine ⟨(obj_congr ho hsys _ _).trans hobj, hropes.trans (by rw [hu]; rfl), hhbm.trans (by rw [hu]; rfl), ?_, fun hv hwas n hn => ?_⟩
  · rw [hdict, hu]
    rfl
  · have hruns : (runsPass u c && !runsPass s c) = true := by
      rw [runsPass, runsPass, hobj, hv, beq_self_eq_true, Bool.true_and, Bool.not_eq_true', beq_eq_false_iff_ne]
      exact hwas
    rw [ht, if_pos hruns, rdN_homeWrite u c hn, hwords hn]

/-! ### A write of one object -/

theorem rowOf_error {v : SysSt} {idx sub c : Nat} (h : rowOf v idx sub = .error c) : c ≠ 0 := by
  rw [rowOf] at h
  split at h
  case h_1 =>
    rw [← Except.error.inj h]
    decide
  case h_2 =>
    split at h
    case isTrue => cases h
    case isFalse =>
      split at h
      case isTrue =>
        rw [← Except.error.inj h]
        decide
      case isFalse =>
        split at h
        case h_1 => cases h
        case h_2 =>
          rw [← Except.error.inj h]
          decide

/-- An access that is refused is refused with a code. -/
theorem objectFor_error {s : State} {p : Path} {idx sub : Nat} {e : Nat × Nat} (h : objectFor s p idx sub = .error e) : e.1 ≠ 0 := by
  rw [objectFor] at h
  split at h
  case h_1 d _ =>
    rw [← Except.error.inj h]
    exact (by decide : abUnavailable ≠ 0)
  case h_2 =>
    split at h
    case h_1 c hc =>
      rw [← Except.error.inj h]
      exact rowOf_error hc
    case h_2 r _ =>
      split at h
      case isTrue =>
        rw [← Except.error.inj h]
        exact (by decide : abInBand ≠ 0)
      case isFalse => cases h

theorem rowOf_of_objectFor {s : State} {p : Path} {idx sub : Nat} {r : Row} (h : objectFor s p idx sub = .ok r) : rowOf s.sys idx sub = .ok r := by
  rw [objectFor] at h
  split at h
  case h_1 => cases h
  case h_2 =>
    split at h
    case h_1 => cases h
    case h_2 r' hrow =>
      split at h
      · cases h
      · rw [hrow, Except.ok.inj h]

theorem writeObj_error {s : State} {idx sub : Nat} {e : Nat × Nat} (h : objectFor s .can idx sub = .error e) (bs : List Byte) :
    writeObj s .can idx sub bs = (s, e.1, e.2) := by
  rw [writeObj, h]

theorem writeObj_readOnly {s : State} {idx sub : Nat} {r : Row} (h : objectFor s .can idx sub = .ok r) (hacc : r.acc = .ro ∨ r.acc = .const)
    (bs : List Byte) : writeObj s .can idx sub bs = (s, 3, 0) := by
  rw [writeObj, h]
  dsimp only
  rw [if_pos hacc]
  rfl

/-- A number's length and range are checked before it takes its place. -/
theorem writeObj_number {s : State} {idx sub : Nat} {r : Row} (hobj : objectFor s .can idx sub = .ok r) (hw : Writable r) (hp : Plain idx)
    (bs : List Byte) : writeObj s .can idx sub bs = if bs.length != r.ty.width then (s, 4, 0)
      else if !allowed r (ofLE bs) then (s, 5, 0) else valueWrite s idx sub (ofLE bs) r := by
  obtain ⟨hacc, hty⟩ := hw
  obtain ⟨hidx, -⟩ := hp
  have hnot : ¬(r.acc = .ro ∨ r.acc = .const) := by
    rcases hacc with h | h <;> rw [h] <;> decide
  rw [writeObj, hobj]
  dsimp only
  rw [if_neg hnot, if_neg (fun h => by omega)]
  cases hr : r.ty with
  | domain m => exact absurd hr (hty m)
  | _ => rfl

theorem getO_keepValue_ne (s : State) (idx sub v : Nat) (r : Row) {k : Nat} (h : k ≠ key idx sub) : getO (keepValue s idx sub v r) k = getO s k := by
  rw [keepValue]
  split <;> exact getO_setO_ne s v h.symm

theorem obj_keepValue (s : State) (idx sub v : Nat) (r : Row) : obj (keepValue s idx sub v r) idx sub = v := by
  rw [keepValue]
  split
  · exact (obj_congr rfl rfl _ _).trans (obj_putObj_same _ _ _ _)
  · exact obj_putObj_same _ _ _ _

theorem keepValue_dict (s : State) (idx sub v : Nat) (r : Row) : (r.acc = .rw → (keepValue s idx sub v r).dict = s.dict) ∧
    (r.acc = .rws → (keepValue s idx sub v r).dict.storeQ = s.dict.storeQ.filter (fun e => e.1 != key idx sub) ++ [(key idx sub, v)]) := by
  refine ⟨fun h => ?_, fun h => ?_⟩
  · rw [keepValue, if_neg (by rw [h]; decide)]
    rfl
  · rw [keepValue, if_pos h]
    rfl

/-! ### READ and WRITE (R363 to R367) -/

/-- The request and its answer are counted; ropes, memories and time stay. -/
structure Counted (s t : State) : Prop where
  ropes : t.ropes = s.ropes
  hbm : t.hbm = s.hbm
  sys : t.sys = s.sys
  time : t.time = s.time
  requests : obj t 0x0200 4 = (obj s 0x0200 4 + 1) % 2 ^ 64
  answers : obj t 0x0200 5 = (obj s 0x0200 5 + 1) % 2 ^ 64

theorem sdpReply_counted {s u : State} (q : CanReq) (func : Nat) (data : List Byte) (a : Answer) (hropes : u.ropes = s.ropes)
    (hhbm : u.hbm = s.hbm) (hsys : u.sys = s.sys) (htime : u.time = s.time) (hreq : obj u 0x0200 4 = (obj s 0x0200 4 + 1) % 2 ^ 64)
    (hans : obj u 0x0200 5 = obj s 0x0200 5) (n : Nat) (e : LastReq) :
    Counted s (lastAnswer (sdpReply { u with answer := a } q func data) n e) :=
  ⟨hropes, hhbm, hsys, htime, (obj_bump_ne _ (by decide) (by decide) (by decide)).trans hreq,
    (obj_bump_same _ _ _).trans (by rw [← hans]; rfl)⟩

theorem sdpAbort_counted (s : State) (q : CanReq) (k c d n : Nat) (e : LastReq) :
    Counted s (lastAnswer (sdpAbort (bump s 0x0200 4) q k c d) n e) :=
  sdpReply_counted (s := s) (u := bump (bump s 0x0200 4) 0x0200 7) q 9 _ (.abort c d) rfl rfl rfl rfl
    ((obj_bump_ne (i := 0x0200) (a := 7) (b := 4) _ (by decide) (by decide) (by decide)).trans (obj_bump_same _ _ _))
    ((obj_bump_ne (i := 0x0200) (a := 7) (b := 5) _ (by decide) (by decide) (by decide)).trans
      (obj_bump_ne (i := 0x0200) (a := 4) (b := 5) _ (by decide) (by decide) (by decide))) n e

/-- A value kept and acknowledged. -/
theorem keptReply_counted (s : State) (q : CanReq) {idx sub : Nat} (r : Row) (hp : Plain idx) (hsub : sub < 256) (v : Nat) (data : List Byte)
    (n : Nat) (e : LastReq) :
    let t := lastAnswer (sdpReply { keepValue (bump s 0x0200 4) idx sub v r with answer := .ok [] } q 4 data) n e
    t.answer = .ok [] ∧ t.out = canReply s q 4 data :: s.out ∧ Counted s t ∧ obj t idx sub = v := by
  intro t
  have hother : 0x0200 ≠ idx := fun h => hp.2.2.2 (by rw [← h]; decide)
  have hnot {a : Nat} (ha : a < 256) : obj (keepValue (bump s 0x0200 4) idx sub v r) 0x0200 a = obj (bump s 0x0200 4) 0x0200 a :=
    getO_keepValue_ne _ _ _ _ _ fun h => hother ((key_eq ha hsub).mp h).1
  have hvalue := obj_keepValue (bump s 0x0200 4) idx sub v r
  obtain ⟨u, hu⟩ : ∃ u, u = keepValue (bump s 0x0200 4) idx sub v r := ⟨_, rfl⟩
  have hkept : u.ropes = s.ropes ∧ u.hbm = s.hbm ∧ u.sys = s.sys ∧ u.time = s.time ∧ u.out = s.out := by
    obtain ⟨o, d, hkept⟩ := keepValue_only (bump s 0x0200 4) idx sub v r
    rw [hu, hkept]
    exact ⟨rfl, rfl, rfl, rfl, rfl⟩
  obtain ⟨hropes, hhbm, hsys, htime, hout⟩ := hkept
  have ht : t = lastAnswer (sdpReply { u with answer := .ok [] } q 4 data) n e := by rw [hu]
  rw [← hu] at hnot hvalue
  rw [ht]
  refine ⟨rfl, ?_, sdpReply_counted q 4 data _ hropes hhbm hsys htime ?_ ?_ n e, ?_⟩
  · change canReply u q 4 data :: u.out = _
    rw [canReply, hsys, hout, ← canReply]
  · rw [hnot (by decide), obj_bump_same]
  · rw [hnot (by decide), obj_bump_ne _ (by decide) (by decide) (by decide)]
  · exact (obj_bump_ne { u with answer := .ok [], out := _ } (i := 0x0200) (a := 5) (by decide) hsub (.inl hother)).trans hvalue

theorem tooLong_number {s : State} {k : Nat} {r : Row} (h : objectFor s .can (k / 256) (k % 256) = .ok r) (hty : ∀ m, r.ty ≠ .domain m) :
    tooLong s k = false := by
  rw [tooLong, h]
  obtain ⟨sub, ty, acc, dflt, chk, cnt⟩ := r
  cases ty with
  | domain m => exact absurd rfl (hty m)
  | _ => rfl

theorem serveRead_error {s : State} {q : CanReq} {e : Nat × Nat} (h : objectFor s .can (qKey q / 256) (qKey q % 256) = .error e) :
    serveRead q s = sdpAbort s q (qKey q) e.1 e.2 := by
  have hlong : tooLong s (qKey q) = false := by rw [tooLong, h]
  rw [serveRead]
  rw [if_neg (by rw [hlong]; decide), readObj, h]

theorem width_le_8 {r : Row} (hdomain : ∀ m, r.ty ≠ .domain m) (hstr : r.ty ≠ .vstr) : r.ty.width ≤ 8 := by
  cases hr : r.ty with
  | domain m => exact absurd hr (hdomain m)
  | vstr => exact absurd hr hstr
  | _ => decide

theorem readObj_number {s : State} {p : Path} {idx sub : Nat} {r : Row} (h : objectFor s p idx sub = .ok r) (hdomain : ∀ m, r.ty ≠ .domain m)
    (hstr : r.ty ≠ .vstr) : readObj s p idx sub = (s, .ok (toLE r.ty.width (valueOf s idx sub r))) := by
  rw [readObj, h]
  dsimp only
  cases hr : r.ty with
  | domain m => exact absurd hr (hdomain m)
  | vstr => exact absurd hr hstr
  | _ => rfl

theorem serveRead_number {s : State} {q : CanReq} {r : Row} (h : objectFor s .can (qKey q / 256) (qKey q % 256) = .ok r)
    (hdomain : ∀ m, r.ty ≠ .domain m) (hstr : r.ty ≠ .vstr) :
    let b := toLE r.ty.width (valueOf s (qKey q / 256) (qKey q % 256) r)
    serveRead q s = sdpReply { s with answer := .ok b } q 2 (slice q.data 0 4 ++ b) := by
  intro b
  have hshort : ¬60 < b.length := by
    rw [length_toLE]
    have := width_le_8 hdomain hstr
    omega
  rw [serveRead]
  rw [if_neg (by rw [tooLong_number h hdomain]; decide), readObj_number h hdomain hstr]
  dsimp only
  rw [if_neg hshort]

theorem serveWrite_error {s : State} {q : CanReq} {e : Nat × Nat} (h : objectFor s .can (qKey q / 256) (qKey q % 256) = .error e) :
    serveWrite q s = sdpAbort s q (qKey q) e.1 e.2 := by
  rw [serveWrite]
  rw [writeObj_error h, sdpWritten, if_neg (objectFor_error h)]

/-- A WRITE of a number's length, with a value the object allows. -/
theorem serveWrite_number {s : State} {q : CanReq} {r : Row} (h : objectFor s .can (qKey q / 256) (qKey q % 256) = .ok r)
    (hw : Writable r) (hp : Plain (qKey q / 256)) (hlen : q.data.length = 4 + r.ty.width) (hall : allowed r (ofLE (q.data.drop 4)) = true) :
    serveWrite q s = sdpReply { keepValue s (qKey q / 256) (qKey q % 256) (fieldsOf (qKey q / 256) (qKey q % 256) (ofLE (q.data.drop 4))) r with
      answer := .ok [] } q 4 (slice q.data 0 4) := by
  have hdrop : (q.data.drop 4).length = r.ty.width := by rw [List.length_drop]; omega
  have hvalue : writeValue s (qKey q) q = q.data.drop 4 := by
    rw [writeValue]
    dsimp only
    rw [h]
    dsimp only
    rw [if_neg (by simp [hdrop])]
  rw [serveWrite]
  rw [hvalue, writeObj_plain h hw hp hdrop hall, sdpWritten]
  exact if_pos rfl

/-- A repeat of the last request of its node is answered as before. -/
theorem sdpRequest_repeat {s : State} {q : CanReq} {func : Nat} {l : LastReq} {o : Out} (h : sdpHears s q func = true)
    (hlast : s.dict.lastReq = [(q.src.toNat, l)]) (hseq : l.seq = q.seq.toNat) (hat : s.time.now ≤ l.at_ + 90000000000) (ho : l.reply = [o])
    (habort : isAbort o = false) (hfunc : l.func = func) (serve : State → State) :
    let again : State := canSend (bump s 0x0200 4) o
    sdpRequest s q func serve =
      .next { again with dict := { again.dict with lastReq := [(q.src.toNat, { l with at_ := s.time.now })] } } := by
  intro again
  have hfind : ((bump s 0x0200 4).dict.lastReq.find? fun e => e.1 == q.src.toNat) = some (q.src.toNat, l) := by
    rw [show (bump s 0x0200 4).dict = s.dict from rfl, hlast, List.find?_cons_of_pos (by exact beq_self_eq_true _)]
  have hlist : again.dict.lastReq = [(q.src.toNat, l)] := hlast
  rw [sdpRequest, if_neg (by rw [h]; decide)]
  dsimp only
  rw [hfind, Option.map_some]
  dsimp only
  rw [if_pos (by rw [hfunc, hseq, decide_eq_true rfl, decide_eq_true rfl, Bool.true_and, Bool.true_and]; exact decide_eq_true hat), ho]
  dsimp only
  rw [repeatAnswer, List.foldl_cons, List.foldl_nil, habort, if_neg Bool.false_ne_true, lastAnswer]
  change Host.Outcome.next { again with dict := { again.dict with lastReq := _ :: again.dict.lastReq.filter _ } } = _
  rw [hlist, List.filter_cons_of_neg (by simp), List.filter_nil, ← hfunc, ← hseq, ← ho]
  rfl

/-! ### Stores (R375) -/

theorem compactAuto_only (s : State) : ∃ o c, compactAuto s = { s with obj := o, cairn := c } := by
  rw [compactAuto]
  split
  · exact ⟨_, _, rfl⟩
  · obtain ⟨o, c, h⟩ := maintStart_only s 6 (obj s 0x4820 1)
    rw [compactStart]
    split
    next t code hstart =>
      rw [hstart] at h
      obtain rfl : t = _ := h
      obtain ⟨o', c', hlog⟩ := cairn_only (putObj { s with obj := o, cairn := c } 0x7802 2 2) 0x0D 2 3 (toLE 1 code)
      dsimp only
      rw [hlog]
      exact ⟨_, _, rfl⟩
    next t hstart =>
      rw [hstart] at h
      obtain rfl : t = _ := h
      exact ⟨_, _, rfl⟩

/-- The state in which a store of an object takes place: 1 s after the last one, but for WriteFence. -/
def storeAt (s : State) (k : Nat) : State :=
  ((if k = key 0x8002 7 then none else s.dict.lastStore.find? (fun e => e.1 == k)).map (fun e => advanceTo s (e.2 + msU 1000))).getD s

/-- A store that is due, `f` of whose attempts fail. -/
def storeDue (w : State) (k v f : Nat) (data : List Byte) : Res :=
  let s := unqueue w k
  let d := { s.dict with lastStore := (k, s.time.now) :: s.dict.lastStore.filter (fun e => e.1 != k) }
  let s := { s with dict := d }
  if 2 ≤ f then .next (cairn (bump s 0x0200 0x0C) 0x0D 1 3 data)
  else
    let s := storeNow s (k, v)
    .next (if started s then compactAuto s else s)

/-- A store that is the only one waiting takes place. -/
theorem exec_paramStore {s : State} {idx : BitVec 16} {sub : BitVec 8} {v k : Nat} (hon : alwaysOn s = true) (hk : key idx.toNat sub.toNat = k)
    (hq : s.dict.storeQ = [(k, v)]) (hroom : s.cairn.paramUsed + (Config.storeBytes k).toNat ≤ 524288) (f : Nat) :
    exec (.paramStore idx sub f) s = storeDue (storeAt s k) k v f (toLE 2 idx.toNat ++ toLE 1 sub.toNat) := by
  have hfind : s.dict.storeQ.find? (fun e => e.1 == k) = some (k, v) := by
    rw [hq, List.find?_cons_of_pos (by exact beq_self_eq_true _)]
  have hgo : ¬(!alwaysOn s || decide (halfBytes < s.cairn.paramUsed + (Config.storeBytes k).toNat)) = true := by
    rw [hon, Bool.not_true, Bool.false_or, decide_eq_true_eq]
    exact Nat.not_lt.mpr hroom
  change execParamStore idx sub f s = _
  rw [execParamStore, hk]
  dsimp only
  rw [hfind]
  dsimp only
  rw [if_neg hgo, storeAt]
  cases (if k = key 0x8002 7 then none else s.dict.lastStore.find? (fun e => e.1 == k)) with
  | none => rfl
  | some e => rfl

theorem msU_1000 : msU 1000 = 90000000000 := rfl

/-- When a store takes place. -/
theorem storeAt_facts (s : State) (k : Nat) : (∃ tm, storeAt s k = { s with time := tm }) ∧
    (∀ e, k ≠ key 0x8002 7 → s.dict.lastStore.find? (fun e => e.1 == k) = some e →
      (storeAt s k).time.now = max s.time.now (e.2 + 90000000000)) ∧
    (s.dict.lastStore = [] ∨ k = key 0x8002 7 → storeAt s k = s) := by
  refine ⟨?_, fun e hne he => ?_, fun h => ?_⟩
  · rw [storeAt]
    cases (if k = key 0x8002 7 then none else s.dict.lastStore.find? (fun e => e.1 == k)) with
    | none => exact ⟨_, rfl⟩
    | some e => exact advanceTo_only s (e.2 + msU 1000)
  · rw [storeAt, if_neg hne, he, Option.map_some, Option.getD_some, advanceTo_now, msU_1000]
  · rw [storeAt]
    rcases h with h | h
    · rw [h, List.find?_nil, ite_self]
      rfl
    · rw [if_pos h]
      rfl

/-- A store that verifies: the value stands in MRAM, and nothing else is stored or waits. -/
theorem storeDue_verified {w : State} {k v f : Nat} (hf : f < 2) (hq : w.dict.storeQ = [(k, v)]) (data : List Byte) :
    ∃ t, storeDue w k v f data = .next t ∧ t.dict.storeQ = [] ∧ t.stored = mset w.stored k v ∧ t.ropes = w.ropes ∧ t.time = w.time := by
  obtain ⟨u, hu⟩ : ∃ u : State, u = storeNow { unqueue w k with dict := { (unqueue w k).dict with
    lastStore := (k, w.time.now) :: w.dict.lastStore.filter (fun e => e.1 != k) } } (k, v) := ⟨_, rfl⟩
  have hqueue : u.dict.storeQ = [] := by
    rw [hu]
    change w.dict.storeQ.filter _ = []
    rw [hq, List.filter_cons_of_neg (by simp), List.filter_nil]
  have ht : storeDue w k v f data = .next (if started u then compactAuto u else u) := by
    rw [hu]
    exact if_neg (Nat.not_le.mpr hf)
  refine ⟨_, ht, ?_⟩
  obtain ⟨o, c, hauto⟩ := compactAuto_only u
  split
  · rw [hauto]
    exact ⟨hqueue, by rw [hu]; rfl, by rw [hu]; rfl, by rw [hu]; rfl⟩
  · exact ⟨hqueue, by rw [hu]; rfl, by rw [hu]; rfl, by rw [hu]; rfl⟩

/-- A store that fails its verification twice is counted. -/
theorem storeDue_failed {w : State} {k v f : Nat} (hf : 2 ≤ f) (hq : w.dict.storeQ = [(k, v)]) (data : List Byte) :
    ∃ t, storeDue w k v f data = .next t ∧ t.dict.storeQ = [] ∧ t.stored = w.stored ∧
      obj t 0x0200 0x0C = (obj w 0x0200 0x0C + 1) % 2 ^ 64 := by
  obtain ⟨u, hu⟩ : ∃ u : State, u = { unqueue w k with dict := { (unqueue w k).dict with
    lastStore := (k, w.time.now) :: w.dict.lastStore.filter (fun e => e.1 != k) } } := ⟨_, rfl⟩
  have hqueue : u.dict.storeQ = [] := by
    rw [hu]
    change w.dict.storeQ.filter _ = []
    rw [hq, List.filter_cons_of_neg (by simp), List.filter_nil]
  have ht : storeDue w k v f data = .next (cairn (bump u 0x0200 0x0C) 0x0D 1 3 data) := by
    rw [hu]
    exact if_pos hf
  have hlog := cairn_logged (bump u 0x0200 0x0C) 0x0D 1 3 data
  refine ⟨_, ht, ?_, ?_, ?_⟩
  · rw [hlog.rest]
    exact hqueue
  · rw [hlog.rest]
    change u.stored = _
    rw [hu]
    rfl
  · rw [hlog.obj (by decide) (by decide), obj_bump_same, hu]
    rfl

/-! ### PitchEntry -/

/-- A write of PitchEntry, which takes any value of its 4 bytes. -/
theorem writeObj_pitchEntry {s : State} {idx : Nat} {r : Row} (hobj : objectFor s .can idx 1 = .ok r) (hidx : idx / 16 = 0x401) {bs : List Byte}
    (hlen : bs.length = 4) : writeObj s .can idx 1 bs = ackOk (setPitchEntry s (idx % 16) (ofLE bs)) := by
  have hrow := rowOf_of_objectFor hobj
  have hpage : page s.sys idx = none ∨ page s.sys idx = some (5, [rws 1 .u32 0x100000, ctr 2 4]) := by
    rw [page, if_neg (by omega), if_neg (by omega), if_neg (by omega), if_neg (by omega), if_pos (by omega)]
    split
    · exact .inl rfl
    · rw [pageCore, if_neg (by omega), hidx]
      exact .inr rfl
  have hr : r = rws 1 .u32 0x100000 := by
    rcases hpage with h | h
    · rw [rowOf, h] at hrow
      cases hrow
    · rw [rowOf_page h (by decide) (by omega) rfl] at hrow
      exact (Except.ok.inj hrow).symm
  rw [writeObj, hobj, hr]
  dsimp only
  rw [if_neg (by decide), if_neg (by omega)]
  change (if bs.length != 4 then _ else if !allowed (rws 1 .u32 0x100000) (ofLE bs) then _ else valueWrite s idx 1 (ofLE bs) (rws 1 .u32 0x100000)) = _
  rw [if_neg (by rw [hlen]; decide), if_neg (by rw [show allowed (rws 1 .u32 0x100000) (ofLE bs) = true from rfl]; decide), valueWrite]
  dsimp only
  rw [if_neg (by omega), if_neg (by omega), if_neg (by omega), if_neg (by decide), if_neg (by omega), if_pos hidx, fieldsOf, if_neg (by omega),
    if_neg (by omega), if_neg (by omega), if_neg (by omega), if_neg (by omega)]

/-! ### The obligation -/

/-- Settles O45: the server's answers, a store, the store cleared, and bus-off. -/
theorem dictionaryServesObjects : Obligations.DictionaryServesObjects := by
  refine ⟨fun s idx sub data => ?_, fun s q hq => ?_, fun s q l o hc hdst hlast hseq hat hreply habort => ?_, fun s q hc hdst hlast => ?_,
    fun s idx sub v k hphase hfrozen hk hq hroom => ?_, fun s => ⟨fun hserved => ?_, fun hup => ?_⟩⟩
  · intro run aborts
    have hput (hup : canUp s = true) : run = .next (answered (writeObj s .can idx.toNat sub.toNat data)) := if_pos hup
    refine ⟨fun hdown => if_neg (by rw [hdown]; decide), fun e hup he => ?_, fun r hup hr => ⟨fun hacc => ?_, fun hw hp => ⟨fun hlen => ?_, fun hlen hall => ?_, fun hlen hall => ?_⟩,
      fun hidx hsub hlen => ?_⟩⟩
    · rw [hput hup, writeObj_error he, answered_abort s (objectFor_error he)]
    · rw [hput hup, writeObj_readOnly hr hacc, answered_abort s (by decide)]
    · rw [hput hup, writeObj_number hr hw hp, if_pos (bne_iff_ne.mpr hlen), answered_abort s (by decide)]
    · rw [hput hup, writeObj_number hr hw hp, if_neg (by rw [hlen, bne_self_eq_false]; decide), if_pos (by rw [hall]; rfl), answered_abort s (by decide)]
    · have hwrite := hput hup
      rw [writeObj_plain hr hw hp hlen hall, answered_ok] at hwrite
      obtain ⟨o, d, hkept⟩ := keepValue_only s idx.toNat sub.toNat (fieldsOf idx.toNat sub.toNat (ofLE data)) r
      have hdict := keepValue_dict s idx.toNat sub.toNat (fieldsOf idx.toNat sub.toNat (ofLE data)) r
      refine ⟨_, hwrite, ?_, obj_keepValue _ _ _ _ _, fun k hk => getO_keepValue_ne _ _ _ _ _ hk, hdict⟩
      rw [hkept]
    · rw [hsub] at hr
      have hwrite := hput hup
      rw [hsub, writeObj_pitchEntry hr hidx hlen, answered_ok] at hwrite
      obtain ⟨hobj, hropes, hhbm, hqueue, hwords⟩ := setPitchEntry_facts s (idx.toNat % 16) (ofLE data)
      rw [show 0x4010 + idx.toNat % 16 = idx.toNat by omega] at hobj hqueue hwords
      exact ⟨_, hwrite, rfl, hobj, hropes, hhbm, hqueue, hwords⟩
  · have hhears (n : Nat) (hn : n = 1 ∨ n = 3) : sdpHears s q n = false := by
      rcases hn with rfl | rfl <;> simp [sdpHears, hq]
    exact ⟨if_pos (by rw [hhears 1 (.inl rfl)]; rfl), if_pos (by rw [hhears 3 (.inr rfl)]; rfl)⟩
  · have hhears (n : Nat) : sdpHears s q n = true := by simp [sdpHears, hc, hdst]
    exact ⟨fun hfunc => sdpRequest_repeat (hhears 1) hlast hseq hat hreply habort hfunc _,
      fun hfunc => sdpRequest_repeat (hhears 3) hlast hseq hat hreply habort hfunc _⟩
  · intro idx sub counted
    have hhears (n : Nat) : sdpHears s q n = true := by simp [sdpHears, hc, hdst]
    have hread := sdpRequest_served (hhears 1) hlast (serveRead q)
    have hwrite := sdpRequest_served (hhears 3) hlast (serveWrite q)
    have hbump := bump_moved s 0x0200 4
    have hcounted {t : State} (h : Counted s t) : counted t := ⟨h.ropes, h.hbm, h.sys, h.time, h.requests, h.answers⟩
    refine ⟨fun e he => ?_, fun r hr hdomain hstr => ⟨?_, fun hw hp hlen hall => ?_⟩⟩
    · intro o
      have hfound := (hbump.objectFor .can idx sub).trans he
      rw [serveRead_error hfound] at hread
      rw [serveWrite_error hfound] at hwrite
      have hsent {n : Nat} {l : LastReq} := hcounted (sdpAbort_counted s q (qKey q) e.1 e.2 n l)
      have habort : obj (sdpAbort (bump s 0x0200 4) q (qKey q) e.1 e.2) 0x0200 7 = (obj s 0x0200 7 + 1) % 2 ^ 64 := by
        rw [sdpAbort_counts, obj_bump_ne _ (by decide) (by decide) (by decide)]
      exact ⟨⟨_, hread, rfl, rfl, hsent, habort⟩, _, hwrite, rfl, rfl, hsent, habort⟩
    · intro b
      have hfound := (hbump.objectFor .can idx sub).trans hr
      rw [serveRead_number hfound hdomain hstr] at hread
      exact ⟨_, hread, rfl, rfl, hcounted (sdpReply_counted (s := s) (u := bump s 0x0200 4) q 2 _ _ rfl rfl rfl rfl (obj_bump_same _ _ _)
        (obj_bump_ne _ (by decide) (by decide) (by decide)) _ _)⟩
    · have hfound := (hbump.objectFor .can idx sub).trans hr
      rw [serveWrite_number hfound hw hp hlen hall] at hwrite
      obtain ⟨hans, hout, hmoved, hobj⟩ := keptReply_counted s q r hp (Nat.mod_lt _ (by decide))
        (fieldsOf idx sub (ofLE (q.data.drop 4))) (slice q.data 0 4) q.src.toNat _
      exact ⟨_, hwrite, hans, hout, hcounted hmoved, hobj⟩
  · have hon : alwaysOn s = true := by simp [alwaysOn, hphase, hfrozen]
    obtain ⟨⟨tm, htm⟩, hlate, hnow⟩ := storeAt_facts s k
    have hqueued : (storeAt s k).dict.storeQ = [(k, v)] := by rw [htm]; exact hq
    refine ⟨fun f hf => ?_, fun f hf => ?_⟩
    · obtain ⟨t, ht, hqueue, hstored, hropes, htime⟩ := storeDue_verified hf hqueued (toLE 2 idx.toNat ++ toLE 1 sub.toNat)
      have hold : (storeAt s k).stored = s.stored := by rw [htm]
      refine ⟨t, (exec_paramStore hon hk hq hroom f).trans ht, hqueue, ?_, fun j hj => ?_, ?_, fun e hne he => ?_, fun h => ?_⟩
      · rw [hstored, mfind_mset_same]
      · rw [hstored, mfind_mset_ne _ _ hj.symm, hold]
      · rw [hropes, htm]
      · rw [htime]
        exact hlate e hne he
      · rw [htime, hnow h]
    · obtain ⟨t, ht, hqueue, hstored, hcount⟩ := storeDue_failed hf hqueued (toLE 2 idx.toNat ++ toLE 1 sub.toNat)
      refine ⟨t, (exec_paramStore hon hk hq hroom f).trans ht, hqueue, ?_, ?_⟩
      · rw [hstored, htm]
      · rw [hcount, htm]
        rfl
  · have hexec := put_command (sub := 1) hserved (show page s.sys 0x1000 = some (_, _) from rfl) rfl (by decide) (by decide)
    exact ⟨_, hexec, rfl, rfl, rfl, rfl, rfl, rfl⟩
  · exact if_pos hup

end Sys2Proof.Proofs

/-! The granule map, the home-disposition table and the keys (R183, R184, R234 to R246). -/

namespace Sys2Proof.Proofs

open Sys2Proof.Machine Sys2Proof.Claim

/-! ### The map (R234, R238) -/

/-- Where the HBM's tables and fences stand is left by a write. -/
theorem hbmWrite_fixed (s : State) (k : ReqClass) (a : Nat) (bs : List Byte) :
    (hbmWrite s k a bs).hbm.mapBaseA = s.hbm.mapBaseA ∧ (hbmWrite s k a bs).hbm.mapBaseB = s.hbm.mapBaseB ∧
      (hbmWrite s k a bs).hbm.test = s.hbm.test ∧ (hbmWrite s k a bs).hbm.rebuild = s.hbm.rebuild := by
  obtain ⟨o, p, c, h⟩ := countWrite_only s k a bs.length
  rw [hbmWrite, h]
  exact ⟨rfl, rfl, rfl, rfl⟩

/-- Byte `b` stands in neither copy of a granule's entry. -/
def Outside (s : State) (g b : Nat) : Prop :=
  ¬(s.hbm.mapBaseA + 16 * g ≤ b ∧ b < s.hbm.mapBaseA + 16 * g + 16) ∧ ¬(s.hbm.mapBaseB + 16 * g ≤ b ∧ b < s.hbm.mapBaseB + 16 * g + 16)

/-- Of the clusters, the translation and the HBM only the bytes of a granule's entry have changed. -/
structure Reread (g : Nat) (s t : State) : Prop where
  sys : t.sys = s.sys
  clusters : t.clusters = s.clusters
  xlat : t.xlat = s.xlat
  baseA : t.hbm.mapBaseA = s.hbm.mapBaseA
  baseB : t.hbm.mapBaseB = s.hbm.mapBaseB
  test : t.hbm.test = s.hbm.test
  rebuild : t.hbm.rebuild = s.hbm.rebuild
  bytes : ∀ b, Outside s g b → hbmByte t b = hbmByte s b

theorem Reread.refl (g : Nat) (s : State) : Reread g s s := ⟨rfl, rfl, rfl, rfl, rfl, rfl, rfl, fun _ _ => rfl⟩

theorem Reread.trans {g : Nat} {s t u : State} (h : Reread g s t) (h' : Reread g t u) : Reread g s u :=
  ⟨h'.sys.trans h.sys, h'.clusters.trans h.clusters, h'.xlat.trans h.xlat, h'.baseA.trans h.baseA, h'.baseB.trans h.baseB,
    h'.test.trans h.test, h'.rebuild.trans h.rebuild,
    fun b hb => (h'.bytes b (by rw [Outside, h.baseA, h.baseB]; exact hb)).trans (h.bytes b hb)⟩

theorem hbmByte_congr {s t : State} (h : t.hbm = s.hbm) (b : Nat) : hbmByte t b = hbmByte s b := by
  rw [hbmByte_eq, hbmByte_eq, h]

theorem reread_of_hbm {g : Nat} {s t : State} (hsys : t.sys = s.sys) (hclusters : t.clusters = s.clusters) (hxlat : t.xlat = s.xlat)
    (hhbm : t.hbm = s.hbm) : Reread g s t :=
  ⟨hsys, hclusters, hxlat, by rw [hhbm], by rw [hhbm], by rw [hhbm], by rw [hhbm], fun b _ => hbmByte_congr hhbm b⟩

theorem hbmWrite_reread {g : Nat} {s : State} {a : Nat} (ha : a = s.hbm.mapBaseA ∨ a = s.hbm.mapBaseB) {bs : List Byte} (hlen : bs.length = 16) :
    Reread g s (hbmWrite s .table (a + 16 * g) bs) := by
  obtain ⟨hA, hB, htest, hrebuild⟩ := hbmWrite_fixed s .table (a + 16 * g) bs
  obtain ⟨o, m, h⟩ := hbmWrite_only s .table (a + 16 * g) bs
  refine ⟨by rw [h], by rw [h], by rw [h], hA, hB, htest, hrebuild, fun b hb => ?_⟩
  obtain ⟨houtA, houtB⟩ := hb
  rw [hbmByte_hbmWrite, stored, hlen, if_neg]
  rcases ha with rfl | rfl
  · exact houtA
  · exact houtB

/-- A read of the map uses one of the two copies. -/
theorem copyFor_first (s : State) (a b n : Nat) : (copyFor s a b n).1 = a ∨ (copyFor s a b n).1 = b := by
  rw [copyFor]
  split
  · exact .inl rfl
  · split
    · exact .inr rfl
    · split
      · exact .inl rfl
      · split
        · exact .inl rfl
        · exact .inr rfl

theorem bump_reread (g : Nat) (s : State) (i a : Nat) : Reread g s (bump s i a) := reread_of_hbm rfl rfl rfl rfl

/-- A map read may mend the entry of its granule, and no other byte. -/
theorem mapRead_reread (s : State) (g : Nat) : Reread g s (mapRead s g).1 := by
  have hfirst := copyFor_first s s.hbm.mapBaseA s.hbm.mapBaseB g
  have hfail : Reread g s (cairn (bump s 0x4831 2) 6 1 3 (toLE 4 g)) := by
    obtain ⟨o, c, h⟩ := cairn_only (bump s 0x4831 2) 6 1 3 (toLE 4 g)
    rw [h]
    exact reread_of_hbm rfl rfl rfl rfl
  rw [mapRead]
  generalize copyFor s s.hbm.mapBaseA s.hbm.mapBaseB g = c at hfirst ⊢
  obtain ⟨b, o⟩ := c
  dsimp only at hfirst ⊢
  split
  · exact .refl g s
  · cases o with
    | none => exact hfail
    | some o =>
      dsimp only
      split
      · exact (hbmWrite_reread hfirst (length_hbmRead _ _ _)).trans (bump_reread g _ _ _)
      · exact hfail

theorem readBefore_reread (g : Nat) (s : State) (m : Nat × BitVec 4) : Reread g s (readBefore g s m) := by
  have h := mapRead_reread s g
  rw [readBefore]
  generalize mapRead s g = c at h ⊢
  obtain ⟨u, e⟩ := c
  exact h.trans (reread_of_hbm rfl rfl rfl rfl)

theorem find?_replaced (l : List (Nat × BitVec 128)) (g : Nat) (e : BitVec 128) :
    (l.map (fun x => if x.1 = g then (g, e) else x)).find? (fun x => x.1 == g) = (l.find? (fun x => x.1 == g)).map (fun _ => (g, e)) := by
  induction l with
  | nil => rfl
  | cons y l ih =>
    rw [List.map_cons]
    by_cases hy : y.1 = g
    · rw [if_pos hy, List.find?_cons_of_pos (by exact beq_self_eq_true _), List.find?_cons_of_pos (by simpa using hy), Option.map_some]
    · rw [if_neg hy, List.find?_cons_of_neg (by simpa using hy), List.find?_cons_of_neg (by simpa using hy), ih]

/-- A change of a granule replaces its cached entry, where one is cached. -/
theorem cacheChange_facts (s : State) (g : Nat) (e : BitVec 128) : txlCached (cacheChange s g e) g = (txlCached s g).map (fun _ => e) ∧
    cacheChange s g e = { s with xlat := (cacheChange s g e).xlat } := by
  rw [cacheChange]
  dsimp only
  cases h : txlCached s g with
  | none => exact ⟨h, rfl⟩
  | some x =>
    refine ⟨?_, rfl⟩
    rw [Option.isSome_some, if_pos rfl, Option.map_some, txlCached, txlSet]
    dsimp only
    rw [mget, mfind_mset_same, Option.getD_some]
    rw [find?_replaced, Option.map_map]
    rw [txlCached, Option.map_eq_some_iff] at h
    obtain ⟨y, hy, -⟩ := h
    rw [hy]
    rfl

/-- A granule's entry put into both copies and the cache. -/
theorem mapPut_facts {s : State} (hhere : absent s = false) (htest : s.hbm.test = none) (hrebuild : s.hbm.rebuild = none) (g : Nat) (e : BitVec 128) :
    let t := mapPut s g e
    t.clusters = s.clusters ∧ txlCached t g = (txlCached s g).map (fun _ => e) ∧
      ∀ b, hbmByte t b = stored (s.hbm.mapBaseB + 16 * g) (toLE 16 e.toNat) b
        (stored (s.hbm.mapBaseA + 16 * g) (toLE 16 e.toNat) b (hbmByte s b)) := by
  intro t
  have hread : Reread g s ((openMisses s g).foldl (readBefore g) s) :=
    foldl_rel (R := Reread g) (.refl g) (fun h h' => h.trans h') (fun s m => readBefore_reread g s m) _ s
  obtain ⟨u, hu⟩ : ∃ u, u = (openMisses s g).foldl (readBefore g) s := ⟨_, rfl⟩
  have ht : t = cacheChange (writeCopies u u.hbm.mapBaseA u.hbm.mapBaseB (16 * g) (toLE 16 e.toNat)) g e := by rw [hu]; rfl
  rw [← hu] at hread
  have hboth : writeCopies u u.hbm.mapBaseA u.hbm.mapBaseB (16 * g) (toLE 16 e.toNat) =
      hbmWrite (hbmWrite u .table (s.hbm.mapBaseA + 16 * g) (toLE 16 e.toNat)) .table (s.hbm.mapBaseB + 16 * g) (toLE 16 e.toNat) := by
    have hout (p : Nat) (v : State) (h1 : v.hbm.test = none) (h2 : v.hbm.rebuild = none) : pairOut v p = false := by
      rw [pairOut, h1, h2]
      rfl
    obtain ⟨-, -, h1, h2⟩ := hbmWrite_fixed u .table (s.hbm.mapBaseA + 16 * g) (toLE 16 e.toNat)
    have habsent : absent (hbmWrite u .table (s.hbm.mapBaseA + 16 * g) (toLE 16 e.toNat)) = false := by
      obtain ⟨o, m, h⟩ := hbmWrite_only u .table (s.hbm.mapBaseA + 16 * g) (toLE 16 e.toNat)
      rw [h]
      exact (congrArg SysSt.skx9624 hread.sys).trans hhere
    rw [writeCopies, hread.baseA, hread.baseB, hout 0 u (hread.test.trans htest) (hread.rebuild.trans hrebuild), Bool.false_and, if_neg Bool.false_ne_true]
    rw [if_neg (by rw [habsent, hout 1 _ (h1.trans (hread.test.trans htest)) (h2.trans (hread.rebuild.trans hrebuild)), Bool.false_and]; decide)]
  obtain ⟨w, hw⟩ : ∃ w, w = writeCopies u u.hbm.mapBaseA u.hbm.mapBaseB (16 * g) (toLE 16 e.toNat) := ⟨_, rfl⟩
  have hwkept : w.clusters = s.clusters ∧ w.xlat = s.xlat := by
    rw [hw, hboth]
    obtain ⟨o, m, h⟩ := hbmWrite_only u .table (s.hbm.mapBaseA + 16 * g) (toLE 16 e.toNat)
    obtain ⟨o', m', h'⟩ := hbmWrite_only (hbmWrite u .table (s.hbm.mapBaseA + 16 * g) (toLE 16 e.toNat)) .table (s.hbm.mapBaseB + 16 * g)
      (toLE 16 e.toNat)
    rw [h', h]
    exact ⟨hread.clusters, hread.xlat⟩
  obtain ⟨hclusters, hxlat⟩ := hwkept
  have hbytes (b : Nat) : hbmByte w b = stored (s.hbm.mapBaseB + 16 * g) (toLE 16 e.toNat) b
      (stored (s.hbm.mapBaseA + 16 * g) (toLE 16 e.toNat) b (hbmByte s b)) := by
    rw [hw, hboth, hbmByte_hbmWrite, hbmByte_hbmWrite]
    by_cases hb : Outside s g b
    · rw [hread.bytes b hb]
    · have hover {a : Nat} (h : a ≤ b ∧ b < a + 16) (x y : Byte) : stored a (toLE 16 e.toNat) b x = stored a (toLE 16 e.toNat) b y := by
        rw [stored, stored, length_toLE, if_pos h, if_pos h]
      by_cases hB : s.hbm.mapBaseB + 16 * g ≤ b ∧ b < s.hbm.mapBaseB + 16 * g + 16
      · exact hover hB _ _
      · have hA : s.hbm.mapBaseA + 16 * g ≤ b ∧ b < s.hbm.mapBaseA + 16 * g + 16 := by
          by_contra hA
          exact hb ⟨hA, hB⟩
        exact congrArg _ (hover hA _ _)
  rw [← hw] at ht
  obtain ⟨hcache, hkept⟩ := cacheChange_facts w g e
  refine ⟨?_, ?_, fun b => ?_⟩
  · rw [ht, hkept]
    exact hclusters
  · rw [ht, hcache]
    rw [txlCached, txlSet, hxlat, ← txlSet, ← txlCached]
  · rw [ht, hbmByte_congr (s := w) (by rw [hkept])]
    exact hbytes b

/-! ### The map command block (R251) -/

theorem exec_mapWrite {s : State} (hon : on s = true) (hp : s.xlat.mapPending = true) (hop : obj s 0x4830 1 = 0) : exec .mapWrite s =
    if 2 ^ 27 ≤ obj s 0x4830 2 then .next (mapEnd s 1)
    else .next (mapEnd (mapPut s (obj s 0x4830 2) (BitVec.ofNat 128 (obj s 0x4830 3 + obj s 0x4830 4 * 2 ^ 64))) 0) := by
  exact (live_on hon _).trans (if_pos (by rw [hp, hop]; rfl))

theorem exec_mapRead {s : State} (hon : on s = true) (hp : s.xlat.mapPending = true) (hop : obj s 0x4830 1 = 1)
    (hopen : throttledIn s .table (mapBase s + 16 * obj s 0x4830 2) 16 = false) : exec .mapRead s =
    if 2 ^ 27 ≤ obj s 0x4830 2 then .next (mapEnd s 1)
    else if mediaIn s (mapBase s + 16 * obj s 0x4830 2) 16 then .next (mapEnd s 2)
    else .next (mapEnd (putObj (putObj s 0x4830 3 (ofLE (hbmRead s (mapBase s + 16 * obj s 0x4830 2) 8))) 0x4830 4
      (ofLE (hbmRead s (mapBase s + 16 * obj s 0x4830 2 + 8) 8))) 0) := by
  refine (live_on hon _).trans ((if_pos (by rw [hp, hop]; rfl)).trans ?_)
  dsimp only
  rw [hopen, if_neg (c := false = true) Bool.false_ne_true]

theorem mapEnd_status (s : State) (st : Nat) : (mapEnd s st).xlat.mapPending = false ∧ obj (mapEnd s st) 0x4830 6 = st ∧
    (mapEnd s st).clusters = s.clusters :=
  ⟨rfl, (obj_congr rfl rfl _ _).trans (obj_putObj_same _ _ _ _), rfl⟩

theorem mapEnd_kept (s : State) (st g : Nat) : (mapEnd s st).hbm = s.hbm ∧ txlCached (mapEnd s st) g = txlCached s g := by
  refine ⟨rfl, ?_⟩
  rw [txlCached, txlSet, show (mapEnd s st).xlat.cache = s.xlat.cache from rfl, ← txlSet, ← txlCached]

theorem mapEnd_obj (s : State) (st : Nat) {a : Nat} (ha : a < 256) (h : a ≠ 6) : obj (mapEnd s st) 0x4830 a = obj s 0x4830 a :=
  (obj_congr rfl rfl _ _).trans ((obj_putObj_ne (stir s) st (by decide) ha (.inr h.symm)).trans (obj_congr rfl rfl _ _))

/-! ### The system port (R183, R184) -/

/-- A write of the system port changes its bytes and tells the rope that waits for it. -/
theorem sysDone_facts (s : State) (c : Nat) (w : SysWrite) : let t := sysDone s c w
    (∃ ropes cores, t = { scratchWrite s c w.addr w.data with ropes := ropes, cores := cores }) ∧
      (w.notify = none → t.ropes = s.ropes) ∧
      ∀ r, w.notify = some r → (∀ d m u, (rope s r).st ≠ .waiting (.event d m u)) →
        rope t r = { rope s r with pending := (rope s r).pending ||| 1#64 <<< 59 } := by
  intro t
  obtain ⟨u, hu⟩ : ∃ u, u = scratchWrite s c w.addr w.data := ⟨_, rfl⟩
  have hropes : u.ropes = s.ropes := by rw [hu]; rfl
  rw [← hu]
  cases hn : w.notify with
  | none =>
    have ht : t = u := by
      change sysDone s c w = u
      rw [sysDone, hn, hu]
    exact ⟨⟨u.ropes, u.cores, ht⟩, fun _ => by rw [ht, hropes], nofun⟩
  | some r =>
    have ht : t = setEvent u r evTask := by
      change sysDone s c w = _
      rw [sysDone, hn, hu]
    refine ⟨ht ▸ setEvent_only u r evTask, nofun, fun r' hr hst => ?_⟩
    obtain rfl := Option.some.inj hr
    have hrope (q : Nat) : rope u q = rope s q := by rw [rope, hropes, ← rope]
    rw [ht, rope_setEvent_joins fun d m v h => absurd h (by rw [hrope]; exact hst d m v), hrope]
    rfl

theorem scratchByte_scratchWrite (s : State) (c a : Nat) (bs : List Byte) (b : Nat) :
    scratchByte (scratchWrite s c a bs) c b = stored a bs b (scratchByte s c b) := by
  rw [scratchByte, scratchWrite, cluster_modCluster, if_pos rfl]
  exact rd8_wrN _ _ _ _

/-- Bytes that nothing writes twice: a word of the home table goes through an idle system port at once. -/
theorem sysWrite_idle {s : State} {c : Nat} {w : SysWrite} (hq : (cluster s c).sysQ = []) (hd : (cluster s c).doze = false)
    (ha : (cluster s c).portA = none) : sysWrite s c w = sysDone s c w := by
  have hcollides : collides s c w = false := by rw [collides, ha]
  rw [sysWrite]
  dsimp only
  rw [if_neg (by rw [hq, hd]; decide), if_neg (by rw [hcollides]; decide)]

/-! ### Keys (R245, R246) -/

theorem rdN_add (m : List Host.Cell) (a k n : Nat) : rdN m a (k + n) = rdN m a k ++ rdN m (a + k) n := by
  induction k generalizing a with
  | zero => rw [Nat.zero_add]; rfl
  | succ k ih =>
    rw [show k + 1 + n = (k + n) + 1 by omega, rdN, rdN, ih, List.cons_append, show a + 1 + k = a + (k + 1) by omega]

theorem closedImage_congr {s t : State} (h : t.dict = s.dict) (k : Nat) : closedImage t k = closedImage s k := by
  rw [closedImage, imageOf, h, ← imageOf, ← closedImage]

theorem closedImage_setImage (s : State) (k : Nat) {x : Image} (h : x.closed = true) : closedImage (setImage s k x) k = some x := by
  rw [closedImage, imageOf, setImage]
  dsimp only
  rw [List.find?_cons_of_pos (by exact beq_self_eq_true _), Option.map_some]
  dsimp only
  rw [if_pos h]

/-- KeyLoad of a closed image: two different keys fill the selected slot, and the image is cleared either way. -/
theorem keyLoad_facts {s : State} {x : Image} (h : closedImage s (key 0x6080 2) = some x) :
    let k1 := rdN x.data 0 32
    let k2 := rdN x.data 32 32
    ∃ t, keyLoad s = ackOk t ∧ obj t 0x6080 5 = (if k1 = k2 then 1 else 0) ∧
      closedImage t (key 0x6080 2) = some { closed := true, len := 64 } ∧
      ∀ k, mfind t.xlat.keys k = if k = obj s 0x6080 1 ∧ k1 ≠ k2 then some (k1, k2) else mfind s.xlat.keys k := by
  intro k1 k2
  have hbytes : rdN x.data 0 64 = k1 ++ k2 := rdN_add x.data 0 32 32
  have htake : (rdN x.data 0 64).take 32 = k1 := by rw [hbytes, List.take_left' (length_rdN _ _ _)]
  have hdrop : (rdN x.data 0 64).drop 32 = k2 := by rw [hbytes, List.drop_left' (length_rdN _ _ _)]
  rw [keyLoad, h]
  dsimp only
  rw [htake, hdrop]
  by_cases hk : k1 = k2
  · refine ⟨_, if_pos hk, ?_, (closedImage_congr (s := setImage s (key 0x6080 2) { closed := true, len := 64 }) rfl _).trans
      (closedImage_setImage s _ rfl), fun k => ?_⟩
    · rw [if_pos hk, obj_putObj_same]
    · rw [if_neg (fun h => h.2 hk)]
      rfl
  · refine ⟨_, if_neg hk, ?_, (closedImage_congr (s := setImage s (key 0x6080 2) { closed := true, len := 64 }) rfl _).trans
      (closedImage_setImage s _ rfl), fun k => ?_⟩
    · rw [if_neg hk, obj_putObj_same]
    · change mfind (mset s.xlat.keys (obj s 0x6080 1) (k1, k2)) k = _
      by_cases hslot : k = obj s 0x6080 1
      · rw [if_pos ⟨hslot, hk⟩, hslot, mfind_mset_same]
      · rw [if_neg (fun h => hslot h.1), mfind_mset_ne _ _ (Ne.symm hslot)]

/-! ### The obligation -/

/-- Settles O39: the map's commands, the home table's words, the system port's retry, and the key slots. -/
theorem mapHomeTableAndKeys : Obligations.MapHomeTableAndKeys := by
  refine ⟨fun s hon hp hopen => ?_, fun s c tid u hmem hon hpass hq ha hd => ?_, fun s c w ws hon hq => ?_, fun s hserved hhere => ?_⟩
  · intro g a b ends
    refine ⟨fun hop hg => ?_, fun hop hg hhere htest hrebuild => ?_, fun hop hg => ?_, fun hop hg hmedia => ?_, fun hop hg hmedia => ?_, ?_⟩
    · exact ⟨_, (exec_mapWrite hon hp hop).trans (if_pos hg), mapEnd_status s 1, rfl⟩
    · intro e
      obtain ⟨hclusters, hcache, hbytes⟩ := mapPut_facts hhere htest hrebuild g e
      obtain ⟨hpending, hstatus, hkept⟩ := mapEnd_status (mapPut s g e) 0
      obtain ⟨hhbm, hcached⟩ := mapEnd_kept (mapPut s g e) 0 g
      exact ⟨_, (exec_mapWrite hon hp hop).trans (if_neg (Nat.not_le.mpr hg)), ⟨hpending, hstatus, hkept.trans hclusters⟩,
        fun b => (hbmByte_congr hhbm b).trans (hbytes b), hcached.trans hcache⟩
    · exact ⟨_, (exec_mapRead hon hp hop hopen).trans (if_pos hg), mapEnd_status s 1, rfl⟩
    · exact ⟨_, (exec_mapRead hon hp hop hopen).trans ((if_neg (Nat.not_le.mpr hg)).trans (if_pos hmedia)), mapEnd_status s 2, rfl⟩
    · obtain ⟨hpending, hstatus, hkept⟩ := mapEnd_status (putObj (putObj s 0x4830 3 (ofLE (hbmRead s b 8))) 0x4830 4 (ofLE (hbmRead s (b + 8) 8))) 0
      refine ⟨_, (exec_mapRead hon hp hop hopen).trans ((if_neg (Nat.not_le.mpr hg)).trans (if_neg (by rw [hmedia]; decide))),
        ⟨hpending, hstatus, hkept⟩, rfl, ?_, ?_⟩
      · rw [mapEnd_obj _ _ (by decide) (by decide), obj_putObj_ne _ _ (by decide) (by decide) (by decide), obj_putObj_same]
      · rw [mapEnd_obj _ _ (by decide) (by decide), obj_putObj_same]
    · change mapBase s + 16 * g = _
      rw [mapBase]
      cases absent s <;> cases pairOut s 0 <;> rfl
  · have hany : s.xlat.homeUpd.any (fun e => e.1 == c.toNat && e.2.1 == tid.toNat) = true :=
      List.any_eq_true.mpr ⟨_, hmem, by simp⟩
    obtain ⟨v, hv⟩ : ∃ v, v = stir { s with xlat := { s.xlat with
      homeUpd := s.xlat.homeUpd.filter (fun e => !(e.1 == c.toNat && e.2.1 == tid.toNat)) } } := ⟨_, rfl⟩
    obtain ⟨w, hw⟩ : ∃ w : SysWrite, w = { addr := 0x20000 + 8 * tid.toNat, data := toLE 8 (homeWord s tid.toNat) } := ⟨_, rfl⟩
    have hcluster (d : Nat) : cluster v d = cluster s d := by rw [hv]; rfl
    have hexec : exec (.homeTableUpdate c tid) s = .next (sysDone v c.toNat w) := by
      have hruns : runsPass v c.toNat = true := by rw [hv]; exact hpass
      have hword : homeWord v tid.toNat = homeWord s tid.toNat := by rw [hv]; rfl
      refine (live_on hon _).trans ((if_pos hany).trans ?_)
      dsimp only
      rw [← hv, hruns, if_pos rfl, hword, ← hw, sysWrite_idle (by rw [hcluster, hq]) (by rw [hcluster, hd]) (by rw [hcluster, ha])]
    obtain ⟨⟨ropes, cores, ht⟩, hropes, -⟩ := sysDone_facts v c.toNat w
    refine ⟨_, hexec, ?_, ?_, ?_, fun d hne => ?_, fun b => ?_⟩
    · rw [hropes (by rw [hw]), hv]
      rfl
    · rw [ht, hv]
      rfl
    · rw [ht]
      intro e he
      have hkept : e ∈ s.xlat.homeUpd.filter (fun e => !(e.1 == c.toNat && e.2.1 == tid.toNat)) := by
        rw [hv] at he
        exact he
      simpa [imp_iff_not_or] using (List.mem_filter.mp hkept).2
    · rw [ht]
      change cluster (scratchWrite v c.toNat w.addr w.data) d = _
      rw [scratchWrite, cluster_modCluster, if_neg hne, hcluster]
    · rw [ht]
      change scratchByte (scratchWrite v c.toNat w.addr w.data) c.toNat b = _
      rw [scratchByte_scratchWrite, hw, scratchByte, hcluster]
      rfl
  · intro u
    obtain ⟨v, hv⟩ : ∃ v, v = busyCore u (16 * c.toNat) := ⟨_, rfl⟩
    have htime : v.time = u.time := by rw [hv]; rfl
    have hclusters : v.clusters = s.clusters := by rw [hv]; rfl
    have hropes : v.ropes = s.ropes := by rw [hv]; rfl
    have hcluster (d : Nat) : cluster v d = cluster s d := by rw [cluster, hclusters, ← cluster]
    have hobj (i a : Nat) : obj v i a = obj s i a := by rw [hv]; rfl
    have hcollides : collides v c.toNat w = collides u c.toNat w := by rw [hv]; rfl
    refine ⟨fun hd => ?_, fun hd => ?_⟩
    · refine (live_on hon _).trans ?_
      dsimp only
      rw [hq]
      exact if_pos hd
    have hexec : exec (.systemPortRetry c) s = if collides u c.toNat w then .next (collided v c.toNat)
        else .next (sysDone (modCluster v c.toNat (fun x => { x with sysQ := ws })) c.toNat w) := by
      refine (live_on hon _).trans ?_
      dsimp only
      rw [hq]
      dsimp only
      rw [if_neg (by rw [hd]; decide), ← hcollides, hv]
    refine ⟨fun hc => ⟨_, hexec.trans (if_pos hc), htime, ?_, hropes, ?_⟩, fun hc => ?_⟩
    · rw [collided, cluster_modCluster, if_pos rfl, ← hcluster, show cyc v = cyc u by rw [hv]; rfl]
      rfl
    · change obj (bump v (0x4030 + c.toNat) 9) (0x4030 + c.toNat) 9 = _
      rw [obj_bump_same, hobj]
    · obtain ⟨x, hx⟩ : ∃ x, x = modCluster v c.toNat (fun x => { x with sysQ := ws }) := ⟨_, rfl⟩
      have hxcluster : cluster x c.toNat = { cluster s c.toNat with sysQ := ws } := by
        rw [hx, cluster_modCluster, if_pos rfl, hcluster]
      have hxropes : x.ropes = s.ropes := by rw [hx]; exact hropes
      have hxrope (r : Nat) : rope x r = rope s r := by rw [rope, hxropes, ← rope]
      obtain ⟨⟨ropes, cores, ht⟩, hquiet, htold⟩ := sysDone_facts x c.toNat w
      refine ⟨_, hexec.trans (if_neg (by rw [hc]; decide)), ?_, ?_, fun b => ?_, fun hn => ?_, fun r hn hst => ?_⟩
      all_goals rw [← hx]
      · rw [ht]
        change x.time = _
        rw [hx]
        exact htime
      · rw [ht]
        change (cluster (scratchWrite x c.toNat w.addr w.data) c.toNat).sysQ = _
        rw [scratchWrite, cluster_modCluster, if_pos rfl, hxcluster]
      · rw [ht]
        change scratchByte (scratchWrite x c.toNat w.addr w.data) c.toNat b = _
        rw [scratchByte_scratchWrite, scratchByte, hxcluster]
        rfl
      · rw [hquiet hn, hxropes]
      · rw [htold r hn (fun d m v => by rw [hxrope]; exact hst d m v), hxrope]
  · intro slot
    have hpage : page s.sys 0x6080 = some (9, [rw 1 .u16 0 (.range 0 4095), wo 2 (.domain 64), wo 3 .bool, wo 4 .bool, ro 5 .u8, ro 6 .u32,
      ro 7 .u16, ctr 8 2]) := by
      change pageUnits s.sys 0x6080 = _
      rw [pageUnits, if_neg (by rw [show s.sys.skx9624 = false from hhere]; decide)]
    have hload : exec .keyLoad s = .next (answered (keyLoad s)) := put_command (idx := 0x6080) (sub := 3) hserved hpage rfl rfl (by decide)
    have herase : exec .keyErase s = .next (answered (ackOk (keyErase s))) := put_command (idx := 0x6080) (sub := 4) hserved hpage rfl rfl (by decide)
    refine ⟨⟨_, herase, rfl, mfind_merase_same _ _, fun k hk => mfind_merase_ne _ (Ne.symm hk)⟩, fun hnone => ?_, fun x hx => ?_⟩
    · rw [keyLoad, hnone, answered_abort _ (by decide)] at hload
      exact ⟨_, hload, rfl, rfl⟩
    · intro k1 k2
      obtain ⟨t, ht, hobj, himage, hkeys⟩ := keyLoad_facts hx
      rw [ht, answered_ok] at hload
      exact ⟨_, hload, rfl, hobj, himage, hkeys⟩

end Sys2Proof.Proofs

/-! Aging sweeps and the comparison with the shadow (R95 to R97, R103, R104). -/

namespace Sys2Proof.Proofs

open Sys2Proof.Machine Sys2Proof.Claim

/-! ### The slots of a word (R90) -/

theorem getLsbD_slotOf (w : BitVec 256) (i k : Nat) : (slotOf w i).getLsbD k = (decide (k < 64) && w.getLsbD (64 * i + k)) := by
  rw [slotOf, BitVec.getLsbD_setWidth, BitVec.getLsbD_ushiftRight]

theorem slotMask_eq : 0xFFFFFFFFFFFFFFFF#256 = (BitVec.allOnes 64).setWidth 256 := by decide

/-- A slot put into a word is there, and the other slots stay. -/
theorem slotOf_withSlot (w : BitVec 256) {i j : Nat} (hi : i < 4) (hj : j < 4) (e : BitVec 64) :
    slotOf (withSlot w i e) j = if j = i then e else slotOf w j := by
  refine BitVec.eq_of_getLsbD_eq fun k hk => ?_
  rw [getLsbD_slotOf, withSlot, slotMask_eq]
  simp only [BitVec.getLsbD_or, BitVec.getLsbD_and, BitVec.getLsbD_not, BitVec.getLsbD_shiftLeft, BitVec.getLsbD_setWidth, BitVec.getLsbD_allOnes]
  by_cases hji : j = i
  · rw [if_pos hji, hji]
    have h1 : 64 * i + k < 256 := by omega
    have h2 : ¬64 * i + k < 64 * i := by omega
    have h3 : 64 * i + k - 64 * i = k := by omega
    have h4 : k < 256 := by omega
    simp [hk, h1, h2, h3, h4]
  · rw [if_neg hji, getLsbD_slotOf]
    have h1 : 64 * j + k < 256 := by omega
    rcases Nat.lt_or_gt_of_ne hji with hlt | hgt
    · have h2 : 64 * j + k < 64 * i := by omega
      simp [hk, h1, h2]
    · have h3 : 64 ≤ 64 * j + k - 64 * i := by omega
      simp [hk, h1, Nat.not_lt.mpr h3]
      exact fun _ _ he => absurd he (by rw [BitVec.getLsbD_of_ge _ _ h3]; exact Bool.false_ne_true)

/-- A sweep ages each slot of its word. -/
theorem slotOf_agedWord (w : BitVec 256) {i : Nat} (hi : i < 4) : slotOf (agedWord w) i = agedSlot (slotOf w i) := by
  have hfold (n : Nat) (hn : n ≤ 4) : ∀ j, j < 4 → slotOf ((List.range n).foldl (fun w i => withSlot w i (agedSlot (slotOf w i))) w) j =
      if j < n then agedSlot (slotOf w j) else slotOf w j := by
    induction n with
    | zero => exact fun j _ => (if_neg (Nat.not_lt_zero j)).symm
    | succ n ih =>
      intro j hj
      rw [List.range_succ, List.foldl_append, List.foldl_cons, List.foldl_nil, slotOf_withSlot _ (by omega) hj, ih (by omega) n (by omega),
        ih (by omega) j hj, if_neg (Nat.lt_irrefl n)]
      by_cases hjn : j = n
      · rw [if_pos hjn, if_pos (by omega), hjn]
      · rw [if_neg hjn]
        split
        · rw [if_pos (by omega)]
        · rw [if_neg (by omega)]
  rw [agedWord, hfold 4 le_rfl i hi, if_pos hi]

theorem agedSlot_eq (e : BitVec 64) : agedSlot e = if (eValid e && !eStatic e && !eHit e) = true then (0 : BitVec 64)
    else if eValid e then e &&& ~~~(1#64 <<< 62) else e := by
  rw [agedSlot]
  cases eValid e <;> cases eStatic e <;> cases eHit e <;> rfl

theorem epWord_setEpWord (s : State) (b : Nat) (w : BitVec 256) (c : Nat) : epWord (setEpWord s b w) c = if c = b then w else epWord s c := by
  rw [epWord, setEpWord]
  dsimp only
  by_cases hc : c = b
  · rw [if_pos hc, hc]
    split
    · next hw => rw [mget, mfind_merase_same, hw]; rfl
    · rw [mget, mfind_mset_same]; rfl
  · rw [if_neg hc]
    split
    · rw [mget, mfind_merase_ne _ (Ne.symm hc)]; rfl
    · rw [mget, mfind_mset_ne _ _ (Ne.symm hc)]; rfl

/-! ### The sweep (R95 to R97) -/

/-- The write that ends a bucket's visit, where nothing has come between. -/
theorem sweepWrite_aged {s : State} {b : Nat} {w : BitVec 256} (hw : epWord s b = w) (ht : s.tbl.sweepTouched = false) :
    let t := sweepWrite s b w
    t.tbl.sweep = (if b + 1 < 131072 then some (b + 1) else none) ∧ t.tbl.sweepCas = none ∧ t.tbl.sweepTouched = false ∧ t.ropes = s.ropes ∧
      (∀ c, epWord t c = if c = b then agedWord w else epWord s c) ∧ obj t 0x4800 6 = (obj s 0x4800 6 + agedOut w) % 2 ^ 64 := by
  intro t
  have hpos : (decide (epWord s b = w) && !s.tbl.sweepTouched) = true := by rw [ht, decide_eq_true hw]; rfl
  have htbl : t = { bumpBy (setEpWord s b (agedWord w)) 0x4800 6 (agedOut w) with tbl := { (setEpWord s b (agedWord w)).tbl with
      sweepCas := none, sweepTouched := false, sweep := if b + 1 < 131072 then some (b + 1) else none } } := by
    change sweepWrite s b w = _
    rw [sweepWrite, if_pos hpos]
    rfl
  rw [htbl]
  exact ⟨rfl, rfl, rfl, rfl, fun c => epWord_setEpWord s b (agedWord w) c, obj_bumpBy_same (setEpWord s b (agedWord w)) 0x4800 6 (agedOut w)⟩

/-- The write that ends a bucket's visit fails where the word has changed or another access has come between. -/
theorem sweepWrite_fails {s : State} {b : Nat} {w : BitVec 256} (h : epWord s b ≠ w ∨ s.tbl.sweepTouched = true) :
    let t := sweepWrite s b w
    t.tbl.ep = s.tbl.ep ∧ t.tbl.sweep = (if b + 1 < 131072 then some (b + 1) else none) ∧ t.ropes = s.ropes ∧
      obj t 0x4800 7 = (obj s 0x4800 7 + 1) % 2 ^ 64 := by
  intro t
  have hneg : ¬(decide (epWord s b = w) && !s.tbl.sweepTouched) = true := by
    rcases h with h | h
    · rw [decide_eq_false h, Bool.false_and]
      decide
    · rw [h, Bool.not_true, Bool.and_false]
      decide
  have htbl : t = { bump s 0x4800 7 with tbl := { s.tbl with
      sweepCas := none, sweepTouched := false, sweep := if b + 1 < 131072 then some (b + 1) else none } } := by
    change sweepWrite s b w = _
    rw [sweepWrite, if_neg hneg]
    rfl
  rw [htbl]
  exact ⟨rfl, rfl, rfl, obj_bump_same s 0x4800 7⟩

/-! ### The shadow (R103, R104) -/

/-- With no line marked MEDIA the comparator's reads leave the state. -/
theorem readShadowed_good {s : State} (h : s.hbm.media = []) (rule : Bool) (b : Nat) : readShadowed s rule b = s := by
  rw [readShadowed]
  split
  · have hgood (base : Nat) : bucketMedia s base b = false := by
      rw [bucketMedia, mediaIn, h]
      rfl
    rw [readBuckets, List.foldl_cons, List.foldl_nil, healBucket, hgood]
    rfl
  · rfl

/-- With no read deferred the comparator does not wait. -/
theorem shadowWaits_none {s : State} (h : ∀ e ∈ s.hbm.pch, e.2.deferred = []) (rule : Bool) (b : Nat) : shadowWaits s rule b = false := by
  have hopen (a n : Nat) : throttledIn s .table a n = false := by
    rw [throttledIn, List.any_eq_false]
    intro e he
    rw [h e he, List.any_nil]
    decide
  rw [shadowWaits, bucketWaits, bucketWaits, hopen, hopen, hopen]
  cases rule <;> rfl

theorem shadowDiff_congr {s t : State} (hhbm : t.hbm = s.hbm) (hobj : ∀ i a, obj t i a = obj s i a) (hep : t.tbl.ep = s.tbl.ep) (ctl : Nat)
    (rule : Bool) (b : Nat) : shadowDiff t ctl rule b = shadowDiff s ctl rule b := by
  simp only [shadowDiff, slotMedia, mediaIn, hbmRead, epWord, hhbm, hobj, hep]

/-- The comparator's visit of a bucket, where its reads neither wait nor fail. -/
theorem exec_shadowBucket {s : State} (hon : on s = true) (hctl : obj s 0x4820 1 % 4 ≠ 0) (hd : ∀ e ∈ s.hbm.pch, e.2.deferred = [])
    (hm : s.hbm.media = []) : ∃ t, exec .shadowBucket s = .next t ∧ t.time.now = max s.time.now s.tbl.shadow.nextAt ∧
      t.tbl.shadow.nextAt = t.time.now + 90 * obj s 0x4820 4 ∧ t.tbl.ep = s.tbl.ep ∧ t.hbm = s.hbm ∧
      ∀ d ∈ s.tbl.shadow.diffs, d ∈ t.tbl.shadow.diffs := by
  obtain ⟨u, hu⟩ : ∃ u, u = advanceTo s s.tbl.shadow.nextAt := ⟨_, rfl⟩
  have hnow : u.time.now = max s.time.now s.tbl.shadow.nextAt := by rw [hu, advanceTo_now]
  have htbl : u.tbl = s.tbl := by rw [hu]; rfl
  have hhbm : u.hbm = s.hbm := by rw [hu]; rfl
  have hobj (i a : Nat) : obj u i a = obj s i a := by rw [hu]; rfl
  have hexec : exec .shadowBucket s = _ := (live_on hon _).trans (if_neg hctl)
  rw [hexec]
  dsimp only
  rw [← hu]
  generalize shadowTable u = rule
  generalize (if rule == u.tbl.shadow.rule then u.tbl.shadow.bucket else 0) = b
  rw [shadowWaits_none (by rw [hhbm]; exact hd), readShadowed_good (by rw [hhbm]; exact hm), Bool.and_false, if_neg Bool.false_ne_true, ite_self]
  generalize (b + 1 == if rule then 1048576 else 131072) = last
  generalize hv : (if (last && (rule || !(shadowCtl u % 4 == 3))) = true then putObj u 0x4820 9 ((obj u 0x4820 9 + 1) % 2 ^ 32) else u) = v
  have hkept : v.time = u.time ∧ v.tbl = u.tbl ∧ v.hbm = u.hbm := by
    rw [← hv]
    split <;> exact ⟨rfl, rfl, rfl⟩
  obtain ⟨hvtime, hvtbl, hvhbm⟩ := hkept
  refine ⟨_, rfl, ?_, ?_, ?_, hvhbm.trans hhbm, fun d hmem => ?_⟩
  · exact (congrArg TimeSt.now hvtime).trans hnow
  · change u.time.now + nsU (obj u 0x4820 4) = v.time.now + _
    rw [hvtime, hobj, nsU, Nat.mul_comm]
  · change v.tbl.ep = _
    rw [hvtbl, htbl]
  · rw [← htbl] at hmem
    dsimp only
    split
    · exact List.mem_append_left _ hmem
    · exact hmem

/-- A write of the HBM leaves the objects below the stacks' pages. -/
theorem hbmWrite_low (s : State) (cls : ReqClass) (b : Nat) (bs : List Byte) {i a : Nat} (ha : a < 256) (hi : i < 0x5000) :
    obj (hbmWrite s cls b bs) i a = obj s i a :=
  (foldl_rel (R := fun s t => obj t i a = obj s i a) (fun _ => rfl) (fun h h' => h'.trans h) (fun s x => by
    dsimp only
    split
    · exact (activate_objs _ _ _ _ _ _ _ ha (.inl (by omega))).trans (obj_bumpBy_ne s _ (by decide) ha (.inl (by omega)))
    · rfl) _ s : obj (countWrite s cls b bs.length) i a = obj s i a)

theorem writeCopies_low (s : State) (x y off : Nat) (bs : List Byte) {i a : Nat} (ha : a < 256) (hi : i < 0x5000) :
    obj (writeCopies s x y off bs) i a = obj s i a := by
  rw [writeCopies]
  generalize hw : (if (pairOut s 0 && s.hbm.test.isSome) = true then s else hbmWrite s .table (x + off) bs) = w
  have hfirst : obj w i a = obj s i a := by
    rw [← hw]
    split
    · rfl
    · exact hbmWrite_low s _ _ _ ha hi
  split
  · exact hfirst
  · exact (hbmWrite_low _ _ _ _ ha hi).trans hfirst

/-- A bucket repaired from the shadow. -/
theorem repair_facts (s : State) (rule : Bool) (b : Nat) : let t := repair s rule b
    t.time = s.time ∧ t.tbl.shadow = s.tbl.shadow ∧ (∀ a, a < 256 → obj t 0x4820 a = obj s 0x4820 a) ∧
      (rule = false → epWord t b = BitVec.ofNat 256 (ofLE (hbmRead s (obj s 0x4820 2 + 32 * b) 32))) := by
  intro t
  cases rule with
  | false => exact ⟨rfl, rfl, fun _ _ => rfl, fun _ => (epWord_setEpWord s b _ b).trans (if_pos rfl)⟩
  | true =>
    obtain ⟨w, hw⟩ : ∃ w, w = writeCopies s s.hbm.ruleBaseA s.hbm.ruleBaseB (256 * b) (hbmRead s (obj s 0x4820 3 + 256 * b) 256) := ⟨_, rfl⟩
    obtain ⟨keys, ht⟩ : ∃ keys : List (BitVec 64), t = keys.foldl cacheDrop w := by
      rw [hw]
      exact ⟨_, rfl⟩
    have hdrop (g : State → Prop) (hg : ∀ u k, g u → g (cacheDrop u k)) (h : g w) : g t := by
      rw [ht]
      exact List.foldlRecOn keys cacheDrop h fun u hu k _ => hg u k hu
    obtain ⟨o, m, honly⟩ := writeCopies_only s s.hbm.ruleBaseA s.hbm.ruleBaseB (256 * b) (hbmRead s (obj s 0x4820 3 + 256 * b) 256)
    rw [← hw] at honly
    refine ⟨hdrop (fun u => u.time = s.time) (fun _ _ h => h) (by rw [honly]), hdrop (fun u => u.tbl.shadow = s.tbl.shadow) (fun _ _ h => h) (by rw [honly]),
      fun a ha => hdrop (fun u => obj u 0x4820 a = obj s 0x4820 a) (fun _ _ h => h) ?_, nofun⟩
    rw [hw]
    exact writeCopies_low s _ _ _ _ ha (by decide)

/-- What a difference that has been read again comes to. -/
def compared (raced : Bool) (d : ShadowDiff) (s : State) : Res :=
  let m := if d.rule && s.col.ver.walk.isSome then 0 else shadowDiff s d.ctl d.rule d.bucket
  if m = 0 then .next s
  else
    let s := cairn (bump s 0x4820 6) 4 1 2 (toLE 1 (b2n d.rule) ++ toLE 4 d.bucket ++ toLE 1 m)
    if !bit d.ctl 3 then .next s
    else if raced then .next (bump s 0x4820 8)
    else .next (bump (repair s d.rule d.bucket) 0x4820 7)

/-- The second reading of a difference, where its reads neither wait nor fail. -/
theorem exec_shadowRecheck {s : State} {d : ShadowDiff} {rest : List ShadowDiff} (raced : Bool) (hon : on s = true)
    (hl : s.tbl.shadow.diffs = d :: rest) (hd : ∀ e ∈ s.hbm.pch, e.2.deferred = []) (hm : s.hbm.media = []) :
    exec (.shadowRecheck raced) s =
      compared raced d { advanceTo s d.due with tbl := { s.tbl with shadow := { s.tbl.shadow with diffs := rest } } } := by
  have hwaits : shadowWaits (advanceTo s d.due) d.rule d.bucket = false := shadowWaits_none hd _ _
  have hread (u : State) (hu : u.hbm = s.hbm) : (if d.rule && u.col.ver.walk.isSome then u else readShadowed u d.rule d.bucket) = u := by
    rw [readShadowed_good (by rw [hu]; exact hm), ite_self]
  refine (live_on hon _).trans ?_
  rw [hl]
  dsimp only
  rw [hwaits, Bool.and_false, if_neg Bool.false_ne_true]
  exact congrArg (compared raced d)
    (hread { advanceTo s d.due with tbl := { s.tbl with shadow := { s.tbl.shadow with diffs := rest } } } rfl)

/-- A difference that persists is counted, and repaired as ShadowCtl says. -/
theorem compared_differs {raced : Bool} {d : ShadowDiff} {s : State} {m : Nat}
    (hm : m = if d.rule && s.col.ver.walk.isSome then 0 else shadowDiff s d.ctl d.rule d.bucket) (hne : m ≠ 0) :
    ∃ t, compared raced d s = .next t ∧ t.time = s.time ∧ t.tbl.shadow = s.tbl.shadow ∧ obj t 0x4820 6 = (obj s 0x4820 6 + 1) % 2 ^ 64 ∧
      (d.ctl / 8 % 2 = 0 ∨ raced = true → t.tbl.ep = s.tbl.ep) ∧
      (d.ctl / 8 % 2 = 1 → raced = false → obj t 0x4820 7 = (obj s 0x4820 7 + 1) % 2 ^ 64 ∧
        (d.rule = false → epWord t d.bucket = BitVec.ofNat 256 (ofLE (hbmRead s (obj s 0x4820 2 + 32 * d.bucket) 32)))) := by
  have hlog := cairn_logged (bump s 0x4820 6) 4 1 2 (toLE 1 (b2n d.rule) ++ toLE 4 d.bucket ++ toLE 1 m)
  obtain ⟨v, hv⟩ : ∃ v, v = cairn (bump s 0x4820 6) 4 1 2 (toLE 1 (b2n d.rule) ++ toLE 4 d.bucket ++ toLE 1 m) := ⟨_, rfl⟩
  rw [← hv] at hlog
  have htime : v.time = s.time := by rw [hlog.rest]; rfl
  have htbl : v.tbl = s.tbl := by rw [hlog.rest]; rfl
  have hhbm : v.hbm = s.hbm := by rw [hlog.rest]; rfl
  have hcount : obj v 0x4820 6 = (obj s 0x4820 6 + 1) % 2 ^ 64 := (hlog.obj (by decide) (by decide)).trans (obj_bump_same _ _ _)
  have hother {a : Nat} (ha : a < 256) (h : 6 ≠ a) : obj v 0x4820 a = obj s 0x4820 a :=
    (hlog.obj ha (.inl (by decide))).trans (obj_bump_ne _ (by decide) ha (.inr h))
  have hexec : compared raced d s = if !bit d.ctl 3 then .next v
      else if raced then .next (bump v 0x4820 8) else .next (bump (repair v d.rule d.bucket) 0x4820 7) := by
    rw [compared, ← hm]
    dsimp only
    rw [if_neg hne, ← hv]
  have hbit : bit d.ctl 3 = decide (d.ctl / 8 % 2 = 1) := rfl
  by_cases hrepair : d.ctl / 8 % 2 = 1
  · rw [hbit, decide_eq_true hrepair, Bool.not_true, if_neg Bool.false_ne_true] at hexec
    cases raced with
    | true =>
      exact ⟨_, hexec, htime, by rw [← htbl]; rfl, (obj_bump_ne _ (by decide) (by decide) (by decide)).trans hcount, fun _ => by rw [← htbl]; rfl, nofun⟩
    | false =>
      obtain ⟨hrtime, hrshadow, hrobj, hrword⟩ := repair_facts v d.rule d.bucket
      refine ⟨_, hexec, hrtime.trans htime, hrshadow.trans (by rw [htbl]), ?_, fun h => ?_, fun _ _ => ⟨?_, fun hrule => ?_⟩⟩
      · rw [obj_bump_ne _ (by decide) (by decide) (by decide), hrobj 6 (by decide), hcount]
      · rcases h with h | h
        · omega
        · cases h
      · rw [obj_bump_same, hrobj 7 (by decide), hother (by decide) (by decide)]
      · change epWord (repair v d.rule d.bucket) d.bucket = _
        rw [hrword hrule, hother (by decide) (by decide), hbmRead, hhbm, ← hbmRead]
  · rw [hbit, decide_eq_false hrepair, Bool.not_false, if_pos rfl] at hexec
    exact ⟨v, hexec, htime, by rw [htbl], hcount, fun _ => by rw [htbl], fun h => absurd h hrepair⟩

/-! ### The objects of the sweep and of the comparison -/

/-- A write of AgeInterval restarts the schedule of the sweeps. -/
theorem exec_ageIntervalWrite {s : State} (hs : Served s 0x4800) (v : BitVec 32) :
    exec (.ageIntervalWrite v) s = .next (answered (ageWrite s v.toNat (rws 5 .u32 60000))) := by
  have hpage : page s.sys 0x4800 = some (0xD, [ro 1 .u32 0 4, rws 5 .u32 60000, ctr 6 5, ro 11 .u32, ro 12 .bool, ctr 13]) := rfl
  have hrow : rowOf s.sys 0x4800 5 = .ok (rws 5 .u32 60000) := rowOf_page hpage (by decide) (by decide) rfl
  have hwrite := writeObj_value (bs := toLE 4 v.toNat) hs hrow (by decide) ⟨nofun, nofun⟩ (by decide) nofun (length_toLE _ _)
  have hof : ofLE (toLE 4 v.toNat) = v.toNat := by rw [ofLE_toLE, Nat.mod_eq_of_lt (b := 256 ^ 4) v.isLt]
  change put s 0x4800 5 (toLE 4 v.toNat) = _
  rw [put_served hs, hwrite, hof, if_pos (show allowed (rws 5 .u32 60000) v.toNat = true from rfl)]
  rfl

/-- A write of ShadowCtl takes its low 4 bits. -/
theorem exec_shadowCtlWrite {s : State} (hs : Served s 0x4820) (v : BitVec 8) :
    exec (.shadowCtlWrite v) s = .next (answered (writeShadowCtl s (v.toNat % 16))) := by
  have hpage : page s.sys 0x4820 = some (9, [rw 1 .u8, rw 2 .u64, rw 3 .u64, rw 4 .u32 1000 (.range 100 1000000), rw 5 .u32 100000,
      ctr 6 3, ro 9 .u32]) := rfl
  have hrow : rowOf s.sys 0x4820 1 = .ok (rw 1 .u8) := rowOf_page hpage (by decide) (by decide) rfl
  have hwrite := writeObj_value (bs := toLE 1 v.toNat) hs hrow (by decide) ⟨nofun, nofun⟩ (by decide) nofun (length_toLE _ _)
  have hof : ofLE (toLE 1 v.toNat) = v.toNat := by rw [ofLE_toLE, Nat.mod_eq_of_lt (b := 256 ^ 1) v.isLt]
  change put s 0x4820 1 (toLE 1 v.toNat) = _
  rw [put_served hs, hwrite, hof, if_pos (show allowed (rw 1 .u8) v.toNat = true from rfl)]
  rfl

/-- A refused start of maintenance is counted. -/
theorem maintRefuse_counts (s : State) (c code : Nat) : obj (maintRefuse s c code) 0x8000 4 = (obj s 0x8000 4 + 1) % 2 ^ 64 := by
  obtain ⟨u, hu⟩ : ∃ u, u = putObj (putObj (putObj s 0x8000 2 c) 0x8000 3 code) 0x8000 6 (ft s) := ⟨_, rfl⟩
  have hobj : obj u 0x8000 4 = obj s 0x8000 4 := by
    rw [hu, obj_putObj_ne _ _ (by decide) (by decide) (by decide), obj_putObj_ne _ _ (by decide) (by decide) (by decide),
      obj_putObj_ne _ _ (by decide) (by decide) (by decide)]
  have hrefuse : maintRefuse s c code = cairn (bump u 0x8000 4) 0x0B 1 1 (toLE 1 c ++ toLE 1 code) := by rw [hu]; rfl
  rw [hrefuse, (cairn_logged _ _ _ _ _).obj (by decide) (by decide), obj_bump_same, hobj]

/-- An accepted start of the comparison keeps the differences that wait. -/
theorem writeShadowCtl_accepted {s : State} {v : Nat} (hv : ¬v % 4 = 0) (ht : maintTest s 0 v = none) :
    ∃ u, (∀ i a, obj u i a = obj (bump s 0x8000 5) i a) ∧ writeShadowCtl s v = ackOk (putObj u 0x4820 1 v) ∧
      u.tbl.shadow.diffs = s.tbl.shadow.diffs := by
  rw [writeShadowCtl, if_neg hv, maintStart_accepted ht]
  dsimp only
  refine ⟨_, ?_, rfl, ?_⟩
  · intro i a
    split <;> rfl
  · split <;> rfl

/-! ### The obligation -/

/-- Settles O35: the sweep's schedule and its visits, and the comparison with the shadow. -/
theorem sweepsAgeAndShadowsCompare : Obligations.SweepsAgeAndShadowsCompare := by
  refine ⟨fun s u hon hu => ?_, fun s b hon hb => ?_, fun s v hserved => ?_, fun s v hserved => ?_, fun s hon hctl hd hm => exec_shadowBucket hon hctl hd hm,
    fun s d rest raced hon hl hd hm => ?_⟩
  · obtain ⟨w, hw⟩ : ∃ w, w = advanceTo s u := ⟨_, rfl⟩
    have hexec : exec .ageSweepTimer s = .next { w with tbl := { w.tbl with
        sweep := if w.tbl.sweep.isSome then w.tbl.sweep else some 0, sweepNext := some (u + msU (obj w 0x4800 5)) } } := by
      refine (live_on hon _).trans ?_
      rw [hu, hw]
    have htbl : w.tbl = s.tbl := by rw [hw]; rfl
    refine ⟨_, hexec, ?_, ?_, ?_, ?_⟩
    · rw [← advanceTo_now s u, ← hw]
    · rw [msU_eq, show obj w 0x4800 5 = obj s 0x4800 5 by rw [hw]; rfl]
    · dsimp only
      rw [htbl]
      cases s.tbl.sweep <;> rfl
    · dsimp only
      rw [htbl]
  · intro next free swept
    have haged {w : BitVec 256} (hw : epWord s b = w) (ht : s.tbl.sweepTouched = false) : swept (sweepWrite s b w) w := by
      obtain ⟨hsweep, hcas, htouched, -, hwords, hcount⟩ := sweepWrite_aged hw ht
      refine ⟨hsweep, hcas, htouched, fun c hc => ?_, fun i hi => ?_, hcount⟩
      · rw [hwords, if_neg hc]
      · rw [hwords, if_pos rfl, slotOf_agedWord w hi]
        exact agedSlot_eq (slotOf w i)
    refine ⟨fun hcas => ⟨?_, fun htouched => ?_⟩, fun w split hcas => ?_⟩
    · refine (live_on hon _).trans ?_
      rw [hb, hcas]
      exact if_pos rfl
    · refine ⟨_, ?_, (sweepWrite_aged rfl htouched).2.2.2.1, haged rfl htouched⟩
      refine (live_on hon _).trans ?_
      rw [hb, hcas]
      exact if_neg Bool.false_ne_true
    · have hexec : exec (.ageSweepBucket split) s = .next (sweepWrite s b w) := by
        refine (live_on hon _).trans ?_
        rw [hb, hcas]
      refine ⟨_, hexec, ?_, fun hw ht => haged hw ht, fun h => ?_⟩
      · by_cases h : epWord s b = w ∧ s.tbl.sweepTouched = false
        · obtain ⟨-, -, -, hropes, -⟩ := sweepWrite_aged h.1 h.2
          exact hropes
        · obtain ⟨-, -, hropes, -⟩ := sweepWrite_fails (s := s) (b := b) (w := w) (by
            rw [not_and_or, Bool.not_eq_false] at h
            exact h)
          exact hropes
      · obtain ⟨hep, hsweep, -, hcount⟩ := sweepWrite_fails h
        exact ⟨hep, hsweep, hcount⟩
  · refine ⟨_, exec_ageIntervalWrite hserved v, rfl, ?_, ?_⟩
    · exact (obj_congr rfl rfl _ _).trans (obj_keepValue s 0x4800 5 v.toNat _)
    · change (ageWrite s v.toNat (rws 5 .u32 60000)).1.tbl.sweepNext = _
      obtain ⟨o, d, hkept⟩ := keepValue_only s 0x4800 5 v.toNat (rws 5 .u32 60000)
      have hv : (v = 0) = (v.toNat = 0) := by rw [BitVec.toNat_eq]; rfl
      rw [ageWrite, hkept]
      simp only [hv, ← msU_eq]
      rfl
  · have hlow : v.extractLsb' 0 2 = 0 ↔ v.toNat % 16 % 4 = 0 := by
      rw [BitVec.toNat_eq, BitVec.extractLsb'_toNat, Nat.shiftRight_zero, show (0 : BitVec 2).toNat = 0 from rfl]
      omega
    have hexec := exec_shadowCtlWrite hserved v
    refine ⟨fun h => ?_, fun h ht => ?_, fun k h ht => ?_⟩
    · refine ⟨_, hexec, ?_⟩
      rw [writeShadowCtl, if_pos (hlow.mp h), answered_ok]
      exact ⟨rfl, (obj_congr rfl rfl _ _).trans (obj_putObj_same _ _ _ _), rfl⟩
    · obtain ⟨u, hu, hwrite, hdiffs⟩ := writeShadowCtl_accepted (fun h0 => h (hlow.mpr h0)) ht
      refine ⟨_, hexec, ?_⟩
      rw [hwrite, answered_ok]
      refine ⟨rfl, (obj_congr rfl rfl _ _).trans (obj_putObj_same _ _ _ _), hdiffs, ?_⟩
      exact (obj_congr rfl rfl _ _).trans ((obj_putObj_ne _ _ (by decide) (by decide) (by decide)).trans ((hu _ _).trans (obj_bump_same _ _ _)))
    · have hwrite : writeShadowCtl s (v.toNat % 16) = (maintRefuse s 0 k, abMaint, k) := by
        rw [writeShadowCtl, if_neg (fun h0 => h (hlow.mpr h0)), maintStart_refused ht]
      refine ⟨_, hexec, ?_⟩
      rw [hwrite, answered_abort _ (by decide)]
      refine ⟨rfl, ?_, ?_⟩
      · exact (obj_congr rfl rfl _ _).trans ((obj_bump_ne (i := 0x0200) (a := 7) _ (by decide) (by decide) (by decide)).trans
          (maintRefuse_objs s 0 k (by decide) (by decide) (by decide)))
      · exact (obj_congr rfl rfl _ _).trans ((obj_bump_ne (i := 0x0200) (a := 7) _ (by decide) (by decide) (by decide)).trans
          (maintRefuse_counts s 0 k))
  · obtain ⟨u, hu⟩ : ∃ u : State, u = { advanceTo s d.due with tbl := { s.tbl with shadow := { s.tbl.shadow with diffs := rest } } } := ⟨_, rfl⟩
    have hexec := exec_shadowRecheck raced hon hl hd hm
    rw [← hu] at hexec
    have hnow : u.time.now = max s.time.now d.due := by rw [hu]; exact advanceTo_now s d.due
    have hdiffs : u.tbl.shadow.diffs = rest := by rw [hu]
    have hep : u.tbl.ep = s.tbl.ep := by rw [hu]
    have hhbm : u.hbm = s.hbm := by rw [hu]; rfl
    have hobj : u.obj = s.obj := by rw [hu]; rfl
    have hread (i a : Nat) : obj u i a = obj s i a := obj_congr hobj (by rw [hu]; rfl) i a
    obtain ⟨m, hmdef⟩ : ∃ m, m = if d.rule && u.col.ver.walk.isSome then 0 else shadowDiff u d.ctl d.rule d.bucket := ⟨_, rfl⟩
    have hmeq : m = if d.rule = true ∧ s.col.ver.walk.isSome = true then 0 else shadowDiff s d.ctl d.rule d.bucket := by
      rw [hmdef, shadowDiff_congr hhbm hread hep, show u.col = s.col by rw [hu]; rfl]
      simp only [Bool.and_eq_true]
    by_cases h0 : m = 0
    · have hsame : compared raced d u = .next u := by
        rw [compared, ← hmdef]
        exact if_pos h0
      refine ⟨u, hexec.trans hsame, hnow, hdiffs, ?_⟩
      dsimp only
      rw [← hmeq]
      exact ⟨fun _ => ⟨hep, hobj⟩, fun h => absurd h0 h⟩
    · obtain ⟨t, ht, htime, hshadow, hcount, hkept, hrepaired⟩ := compared_differs (raced := raced) hmdef h0
      refine ⟨t, hexec.trans ht, by rw [htime, hnow], by rw [hshadow, hdiffs], ?_⟩
      dsimp only
      rw [← hmeq]
      refine ⟨fun h => absurd h h0, fun _ => ⟨by rw [hcount, hread], fun h => (hkept h).trans hep, fun hr hraced => ?_⟩⟩
      obtain ⟨hrepairs, hword⟩ := hrepaired hr hraced
      exact ⟨by rw [hrepairs, hread], fun hrule => by rw [hword hrule, hread, hbmRead, hhbm, ← hbmRead]⟩

end Sys2Proof.Proofs

/-! Resets, the freeze, and the loss and return of VIN (R375, R380, R415, R423, R429). -/

namespace Sys2Proof.Proofs

open Sys2Proof.Machine Sys2Proof.Claim

/-! ### Stores that wait (R375) -/

/-- The stores that wait are performed: each object takes a value that waits for it, and no other changes. -/
theorem storeAll_facts (l : List (Nat × Nat)) (s : State) : let t := l.foldl storeNow s
    (∃ n, t = { s with stored := t.stored, cairn := { s.cairn with paramUsed := n } }) ∧
      ∀ k, (∀ e ∈ l, e.1 ≠ k) → mfind t.stored k = mfind s.stored k := by
  induction l generalizing s with
  | nil => exact ⟨⟨_, rfl⟩, fun _ _ => rfl⟩
  | cons e l ih =>
    obtain ⟨⟨n, hrest⟩, hstored⟩ := ih (storeNow s e)
    refine ⟨⟨n, hrest⟩, fun k hk => ?_⟩
    rw [List.foldl_cons, hstored k fun e he => hk e (List.mem_cons_of_mem _ he)]
    exact mfind_mset_ne _ _ (hk e List.mem_cons_self)

theorem flushStores_facts (s : State) : let t := flushStores s
    (∃ n, t = { s with stored := t.stored, cairn := { s.cairn with paramUsed := n }, dict := { s.dict with storeQ := [] } }) ∧
      (∀ k, (∀ e ∈ s.dict.storeQ, e.1 ≠ k) → mfind t.stored k = mfind s.stored k) ∧
      ∀ k v, s.dict.storeQ = [(k, v)] → mfind t.stored k = some v := by
  intro t
  obtain ⟨⟨n, hrest⟩, hstored⟩ := storeAll_facts s.dict.storeQ s
  refine ⟨⟨n, ?_⟩, hstored, fun k v hq => ?_⟩
  · change ({ s.dict.storeQ.foldl storeNow s with dict := _ } : State) = _
    rw [hrest]
    rfl
  · change mfind (s.dict.storeQ.foldl storeNow s).stored k = _
    rw [hq]
    exact mfind_mset_same _ _ _

/-! ### A reset (R429) -/

/-- Every domain but the always-on one is as after reset; MRAM, Cairn's ring and time stay. -/
structure Renewed (s t : State) : Prop where
  phase : t.sys.phase = .held
  now : t.time.now = s.time.now
  latched : t.latched = []
  ropes : t.ropes = []
  clusters : t.clusters = []
  ports : t.ports = []
  frames : t.frames = []
  col : t.col = {}
  mem : t.hbm.mem = []
  keys : t.xlat.keys = []
  plan : t.plan = {}
  ring : t.cairn.ring = s.cairn.ring
  storeQ : t.dict.storeQ = []
  rcv : t.rcv = {}
  kept : ∀ k, (∀ e ∈ s.dict.storeQ, e.1 ≠ k) → mfind t.stored k = mfind s.stored k
  stores : ∀ k v, s.dict.storeQ = [(k, v)] → mfind t.stored k = some v
  objs : s.sys.basecampFailed = false → t.obj = []

theorem resetDomains_renewed (s : State) : Renewed s (resetDomains (flushStores s)) := by
  obtain ⟨⟨n, hrest⟩, hkept, hstores⟩ := flushStores_facts s
  refine ⟨rfl, ?_, rfl, rfl, rfl, rfl, rfl, rfl, rfl, rfl, rfl, ?_, rfl, rfl, hkept, hstores, fun _ => rfl⟩
  · change (flushStores s).time.now = _
    rw [hrest]
  · change (flushStores s).cairn.ring = _
    rw [hrest]

theorem beginReset_renewed (s : State) (cause : Nat) : Renewed s (beginReset s cause) ∧ (beginReset s cause).sys.pendingCause = cause := by
  obtain ⟨u, hu, hring, hnow, hstored, hdict, hfailed⟩ : ∃ u : State,
      u = (if s.sys.frozen then { s with cairn := { s.cairn with buffer := [] } } else s) ∧ u.cairn.ring = s.cairn.ring ∧
        u.time = s.time ∧ u.stored = s.stored ∧ u.dict = s.dict ∧ u.sys = s.sys := by
    refine ⟨_, rfl, ?_⟩
    split <;> exact ⟨rfl, rfl, rfl, rfl, rfl⟩
  have h := resetDomains_renewed u
  obtain ⟨v, hv⟩ : ∃ v : State, v = { resetDomains (flushStores u) with
    sys := { (resetDomains (flushStores u)).sys with pendingCause := cause } } := ⟨_, rfl⟩
  have hbegin : beginReset s cause = if s.sys.basecampFailed then cairn v 0x0C 1 3 (toLE 1 v.sys.failCause) else v := by
    rw [← hfailed, hv, hu]
    rfl
  have hrenewed : Renewed s v := by
    rw [hv]
    exact ⟨h.phase, h.now.trans (by rw [hnow]), h.latched, h.ropes, h.clusters, h.ports, h.frames, h.col, h.mem, h.keys, h.plan,
      h.ring.trans hring, h.storeQ, h.rcv, by rw [← hdict, ← hstored]; exact h.kept, by rw [← hdict]; exact h.stores, by rw [← hfailed]; exact h.objs⟩
  have hcause : v.sys.pendingCause = cause := by rw [hv]
  rw [hbegin]
  split
  · next hf =>
    have hlog := cairn_logged v 0x0C 1 3 (toLE 1 v.sys.failCause)
    obtain ⟨hphase, hn, hlatched, hropes, hclusters, hports, hframes, hcol, hmem, hkeys, hplan, hr, hq, hrcv, hk, hs, -⟩ := hrenewed
    have hcairn := hlog.cairn
    rw [hlog.rest]
    refine ⟨⟨hphase, hn, hlatched, hropes, hclusters, hports, hframes, hcol, hmem, hkeys, hplan, ?_, hq, hrcv, hk, hs, fun h => ?_⟩, hcause⟩
    · rw [hcairn]
      exact hr
    · rw [h] at hf
      cases hf
  · exact ⟨hrenewed, hcause⟩

/-! ### FAULT_N without clocks or VIN (R408, R423) -/

/-- A frozen device, and one without VIN, is out of service. -/
theorem outCause_dead {s : State} (h : s.sys.frozen = true ∧ s.sys.phase ≠ .unpowered ∨ s.sys.phase = .unpowered) : outCause s ≠ 0 := by
  unfold outCause
  repeat' split
  all_goals simp_all

theorem setFaultN_dead {s : State} (h : s.sys.frozen = true ∧ s.sys.phase ≠ .unpowered ∨ s.sys.phase = .unpowered) :
    ∃ b r, setFaultN s = { s with sys := { s.sys with faultN := false, fencedOut := b }, rcv := { s.rcv with leaseUntil := r } } := by
  obtain ⟨b, hb⟩ := latchFenced_only s
  refine ⟨b, if s.sys.faultN then none else s.rcv.leaseUntil, ?_⟩
  rw [setFaultN, hb]
  exact if_neg (by simpa [inService] using outCause_dead (s := { s with sys := { s.sys with fencedOut := b } }) h)

/-! ### The freeze (R423) -/

theorem closeStacks_mem (s : State) (l : List Nat) : (l.foldl closeStack s).hbm.mem = s.hbm.mem :=
  foldl_keeps (fun t => t.hbm.mem) closeStack (fun t k => (closeStack_facts t k).2.2.1) l s

/-- A freeze after T0 keeps the memories, closes the stacks and holds the rail. -/
theorem exec_freeze_clocked {s : State} (h : s.sys.phase = .starting ∨ s.sys.phase = .run) : ∃ t, exec .freeze s = .next t ∧
    t.sys.frozen = true ∧ t.sys.freezeN = false ∧ t.sys.faultN = false ∧ t.hbm.mem = s.hbm.mem ∧ t.clusters = s.clusters ∧
    t.ropes = s.ropes ∧ t.pwr.railUv = railNow s ∧ ∀ k, k < nStacks s.sys → (stackOf t k).state = 4 := by
  have hup : s.sys.phase ≠ .unpowered ∧ s.sys.phase ≠ .held := by rcases h with h | h <;> rw [h] <;> exact ⟨nofun, nofun⟩
  obtain ⟨⟨m, honly⟩, -, hclosed⟩ := closeStacks_below (settleRail s) (nStacks s.sys)
  have hmem := closeStacks_mem (settleRail s) (List.range (nStacks s.sys))
  obtain ⟨u, hu⟩ : ∃ u, u = (List.range (nStacks s.sys)).foldl closeStack (settleRail s) := ⟨_, rfl⟩
  rw [← hu] at honly hmem hclosed
  have hsys : u.sys = s.sys := by rw [honly]; rfl
  obtain ⟨w, hw⟩ : ∃ w : State, w = draw { u with sys := { u.sys with freezeN := false, frozen := true }, dbg := { u.dbg with seed := u.free } } :=
    ⟨_, rfl⟩
  have hexec : exec .freeze s = .next (setFaultN w) := by
    change execFreeze s = _
    rw [execFreeze, if_neg (by simpa using hup.1), if_neg (by simpa using hup.2), hw, hu]
  obtain ⟨b, r, hfault⟩ := setFaultN_dead (s := w) (.inl (by rw [hw]; exact ⟨rfl, by rw [← hsys] at hup; exact hup.1⟩))
  rw [hfault] at hexec
  refine ⟨_, hexec, ?_, ?_, rfl, ?_, ?_, ?_, ?_, fun k hk => ?_⟩
  · rw [hw]
    rfl
  · rw [hw]
    rfl
  · rw [hw]
    exact hmem
  · rw [hw]
    change u.clusters = _
    rw [honly]
    rfl
  · rw [hw]
    change u.ropes = _
    rw [honly]
    rfl
  · rw [hw]
    change u.pwr.railUv = _
    rw [honly]
    rfl
  · rw [hw]
    exact hclosed k hk

/-! ### VIN (R375, R380, R415, R430) -/

/-- A cut store keeps its object's old value or leaves the new one. -/
theorem cutStores_facts (s : State) : let t := cutStores s
    (∃ f n, t = { s with free := f, stored := t.stored, cairn := { s.cairn with paramUsed := n }, dict := { s.dict with storeQ := [] } }) ∧
      ∀ k, mfind t.stored k = mfind s.stored k ∨ ∃ v, (k, v) ∈ s.dict.storeQ ∧ mfind t.stored k = some v := by
  have hcut (l : List (Nat × Nat)) (u : State) :
      let t := l.foldl (fun s e => draw (if Config.freeNat s.free % 2 = 1 then storeNow s e else s)) u
      (∃ f n, t = { u with free := f, stored := t.stored, cairn := { u.cairn with paramUsed := n } }) ∧
        ∀ k, mfind t.stored k = mfind u.stored k ∨ ∃ v, (k, v) ∈ l ∧ mfind t.stored k = some v := by
    induction l generalizing u with
    | nil => exact ⟨⟨_, _, rfl⟩, fun k => .inl rfl⟩
    | cons e l ih =>
      obtain ⟨v, hv⟩ : ∃ v, v = draw (if Config.freeNat u.free % 2 = 1 then storeNow u e else u) := ⟨_, rfl⟩
      have hone : (∃ n, v = { u with free := u.free + 1, stored := v.stored, cairn := { u.cairn with paramUsed := n } }) ∧
          ∀ k, mfind v.stored k = mfind u.stored k ∨ k = e.1 ∧ mfind v.stored k = some e.2 := by
        rw [hv]
        split
        · refine ⟨⟨_, rfl⟩, fun k => ?_⟩
          by_cases hk : k = e.1
          · exact .inr ⟨hk, by rw [hk]; exact mfind_mset_same _ _ _⟩
          · exact .inl (mfind_mset_ne _ _ (Ne.symm hk))
        · exact ⟨⟨_, rfl⟩, fun k => .inl rfl⟩
      obtain ⟨⟨n, hvrest⟩, hvstored⟩ := hone
      obtain ⟨⟨f, m, hrest⟩, hstored⟩ := ih v
      rw [List.foldl_cons, ← hv]
      refine ⟨⟨f, m, ?_⟩, fun k => ?_⟩
      · rw [hvrest] at hrest
        rw [hvrest]
        exact hrest
      · rcases hstored k with h | ⟨x, hx, h⟩
        · rcases hvstored k with h' | ⟨hk, h'⟩
          · exact .inl (h.trans h')
          · exact .inr ⟨e.2, by rw [hk]; exact List.mem_cons_self, h.trans h'⟩
        · exact .inr ⟨x, List.mem_cons_of_mem _ hx, h⟩
  obtain ⟨⟨f, n, hrest⟩, hstored⟩ := hcut s.dict.storeQ s
  refine ⟨⟨f, n, ?_⟩, hstored⟩
  exact congrArg (fun u : State => { u with dict := { u.dict with storeQ := [] } }) hrest

/-- What VIN leaves when it falls: no data path, no pin driven low (R434). -/
def unpowered (s : State) : State :=
  let s := { s with rcv := { s.rcv with readOnly := false }, pwr := { s.pwr with thermHold := false, capHold := false }
                    cairn := { s.cairn with alert := false } }
  { s with sys := { s.sys with phase := .unpowered, vinLow := true, wakeOut := false, thermN := true, thermWarn := false } }

theorem alertStatus_unpowered (s : State) : alertStatus (unpowered s) = 0 := rfl

/-- A record being written when VIN falls may be torn (R415). -/
def tornRecord (torn : Bool) (s : State) : State :=
  match torn, s.cairn.buffer with
  | true, b :: _ =>
    let bytes := toLE 8 s.cairn.nextSeq ++ b
    let slot := bytes ++ toLE 4 (crc32c bytes ^^^ 0xFFFFFFFF)
    { s with cairn := { s.cairn with ring := mset s.cairn.ring (s.cairn.nextSeq % 524288) slot } }
  | _, _ => s

/-- A torn record changes its own slot of the ring only. -/
theorem tornRecord_facts (torn : Bool) (s : State) : ∃ ring, tornRecord torn s = { s with cairn := { s.cairn with ring := ring } } ∧
    (torn = false → ring = s.cairn.ring) ∧ ∀ n, n ≠ s.cairn.nextSeq % 524288 → mfind ring n = mfind s.cairn.ring n := by
  unfold tornRecord
  split
  · exact ⟨_, rfl, nofun, fun n hn => mfind_mset_ne _ _ (Ne.symm hn)⟩
  · exact ⟨_, rfl, fun _ => rfl, fun _ _ => rfl⟩

theorem exec_vinUndervoltage {s : State} (torn : Bool) (h : s.sys.phase ≠ .unpowered) : exec (.vinUndervoltage torn) s =
    .next (setFaultN (unpowered (cutStores { tornRecord torn s with cairn := { (tornRecord torn s).cairn with buffer := [] } }))) := by
  change execVinUndervoltage torn s = _
  exact if_neg (by simpa using h)

/-- RecoveryReset (R409, R429). -/
theorem exec_recoveryReset {s : State} (hs : Served s 0x8001) :
    exec .recoveryReset s = .next { beginReset s 5 with answer := .ok [] } :=
  put_command (sub := 4) hs (show page s.sys 0x8001 = some (_, _) from rfl) (by decide) (by decide) (by decide)

/-- The pins and the answer are no part of what a reset renews. -/
theorem Renewed.pinned {s t : State} (h : Renewed s t) {v : SysSt} (hv : v.phase = t.sys.phase) (a : Answer) :
    Renewed s { t with sys := v, answer := a } :=
  ⟨hv.trans h.phase, h.now, h.latched, h.ropes, h.clusters, h.ports, h.frames, h.col, h.mem, h.keys, h.plan, h.ring, h.storeQ,
    h.rcv, h.kept, h.stores, h.objs⟩

theorem exec_vinUndervoltage_facts (s : State) (torn : Bool) (h : s.sys.phase ≠ .unpowered) : ∃ t, exec (.vinUndervoltage torn) s = .next t ∧
    t.sys.phase = .unpowered ∧ t.sys.vinLow = true ∧ t.sys.faultN = false ∧ t.sys.wakeOut = false ∧ t.sys.thermN = true ∧
    alertStatus t = 0 ∧ t.cairn.buffer = [] ∧ t.dict.storeQ = [] ∧ (torn = false → t.cairn.ring = s.cairn.ring) ∧
    (∀ n, n ≠ s.cairn.nextSeq % 524288 → mfind t.cairn.ring n = mfind s.cairn.ring n) ∧
    ∀ k, mfind t.stored k = mfind s.stored k ∨ ∃ v, (k, v) ∈ s.dict.storeQ ∧ mfind t.stored k = some v := by
  have hexec := exec_vinUndervoltage torn h
  obtain ⟨ring, htorn, hwhole, hother⟩ := tornRecord_facts torn s
  rw [htorn] at hexec
  obtain ⟨⟨f, n, hrest⟩, hstored⟩ := cutStores_facts { s with cairn := { s.cairn with ring := ring, buffer := [] } }
  obtain ⟨u, hu⟩ : ∃ u, u = cutStores { s with cairn := { s.cairn with ring := ring, buffer := [] } } := ⟨_, rfl⟩
  rw [← hu] at hexec hrest hstored
  obtain ⟨b, r, hfault⟩ := setFaultN_dead (s := unpowered u) (.inr rfl)
  rw [hfault] at hexec
  refine ⟨_, hexec, rfl, rfl, rfl, rfl, rfl, rfl, ?_, ?_, fun ht => ?_, fun k hk => ?_, hstored⟩
  · change u.cairn.buffer = _
    rw [hrest]
  · change u.dict.storeQ = _
    rw [hrest]
  · change u.cairn.ring = _
    rw [hrest]
    exact hwhole ht
  · change mfind u.cairn.ring k = _
    rw [hrest]
    exact hother k hk

end Sys2Proof.Proofs

/-! Start-up and its end (R428), and resets (R429). -/

namespace Sys2Proof.Proofs

open Sys2Proof.Machine Sys2Proof.Claim

/-! ### What the straps and the stored values decide (R359, R375, R428) -/

/-- Only an object of the ports has a default that DeviceId decides. -/
theorem obj_deviceId (s : State) (d : BitVec 4) {i : Nat} (hi : i < 0x1010 ∨ 0x3000 ≤ i) {a : Nat} (ha : a < 256) :
    obj { s with sys := { s.sys with deviceId := d } } i a = obj s i a := by
  have hpage : page { s.sys with deviceId := d } i = page s.sys i := by
    unfold page
    rcases hi with h | h
    · rw [if_pos h, if_pos h]
      rfl
    · have h0 : ¬ i < 0x1010 := by omega
      have h1 : ¬ i < 0x2000 := by omega
      have h2 : ¬ i < 0x3000 := by omega
      rw [if_neg h0, if_neg h1, if_neg h2, if_neg h0, if_neg h1, if_neg h2]
      rfl
  have hrow : rowOf { s.sys with deviceId := d } i a = rowOf s.sys i a := by
    rw [rowOf, rowOf, hpage]
  have hkey : key i a / 256 = i ∧ key i a % 256 = a := by
    rw [key]
    omega
  have hdflt : dfltOf { s.sys with deviceId := d } (key i a) = dfltOf s.sys (key i a) := by
    rw [dfltOf, dfltOf, hkey.1, hkey.2, hrow]
  simp only [obj, getO, hdflt]

/-- The state at T0: straps sampled, stored values in force (R428, steps 4 to 6). -/
def atT0 (s : State) : State :=
  useStored { s with sys := { s.sys with phase := .starting, node := s.sys.nodePins, sbaddr := s.sys.sbPins, resetCause := s.sys.pendingCause,
                                         resetN := true, freezeN := true, wakeOut := true, thermalShut := false, t0 := s.time.now } }

/-- Seeds and layout, FT, rail, ports and lead ropes (R428, steps 6 to 8). -/
def ignite (s : State) : State :=
  let s := startRail (startTime (useLayout (useSeeds s)))
  (List.range (clusters s)).foldl startCluster (startPorts s)

/-- T0, once what the Basecamp state leaves is settled. -/
def bootFrom (s : State) : State :=
  let v := s.sys
  let s := atT0 s
  let s := if v.pendingCause = 4 then cairn (putObj s 0x7000 0x0E 1) 0x0A 3 0 (toLE 1 1) else s
  recheckReadOnly (ignite { s with sys := { s.sys with deviceId := BitVec.ofNat 4 (obj s 0x1000 2) } })

theorem exec_startT0_shut {s : State} (hshut : s.sys.thermalShut = true) (hhot : 95 < s.sys.dieTemp) : exec .startT0 s = .next s := by
  change execStartT0 s = _
  exact if_pos (by rw [hshut, decide_eq_true hhot, Bool.and_self, Bool.or_true])

/-- T0 comes once the device is held and not in the thermal shutdown. -/
theorem startT0_comes {s : State} (hp : s.sys.phase = .held) (hcool : s.sys.thermalShut = false ∨ s.sys.dieTemp ≤ 95) :
    ¬ (s.sys.phase != .held || (s.sys.thermalShut && decide (95 < s.sys.dieTemp))) = true := by
  rw [hp]
  rcases hcool with h | h
  · rw [h, Bool.false_and]
    decide
  · rw [decide_eq_false (by omega), Bool.and_false]
    decide

/-- What the Basecamp state leaves of the device (R350, R391). -/
def carried (s : State) : State := { resetDomains (flushStores s) with plan := heldEvents s }

theorem exec_startT0 {s : State} (hp : s.sys.phase = .held) (hcool : s.sys.thermalShut = false ∨ s.sys.dieTemp ≤ 95) :
    exec .startT0 s = .next (bootFrom (if s.sys.pendingCause = 4 then carried s else s)) :=
  if_neg (startT0_comes hp hcool)

theorem bootFrom_fresh {s : State} (h : s.sys.pendingCause ≠ 4) : bootFrom s =
    recheckReadOnly (ignite { atT0 s with sys := { (atT0 s).sys with deviceId := BitVec.ofNat 4 (obj (atT0 s) 0x1000 2) } }) := by
  unfold bootFrom
  dsimp only
  rw [if_neg h]

theorem bootFrom_carried {s : State} (h : s.sys.pendingCause = 4) {u : State} (hu : u = cairn (putObj (atT0 s) 0x7000 0x0E 1) 0x0A 3 0 (toLE 1 1)) :
    bootFrom s = recheckReadOnly (ignite { u with sys := { u.sys with deviceId := BitVec.ofNat 4 (obj u 0x1000 2) } }) := by
  unfold bootFrom
  dsimp only
  rw [if_pos h, ← hu]

/-! ### Rail, FT and layout -/

/-- What rail, FT and layout leave and set. -/
structure Lit (s t : State) : Prop where
  rest : t = { s with tbl := t.tbl, hbm := t.hbm, time := t.time, pwr := t.pwr, flights := t.flights, ropes := t.ropes, clusters := t.clusters }
  now : t.time.now = s.time.now
  ft : s.sys.resetCause ≠ 4 → t.time.ftOrigin = -((s.time.now / 576 * 576 : Nat) : Int)
  state : t.time.state = if obj s 0x6800 1 = 0 then 0 else 4
  mem : t.hbm.mem = s.hbm.mem
  fstep : t.pwr.fstep = maxStep s.pwr.profile
  target : t.pwr.target = vmin (maxStep s.pwr.profile) + obj s 0x7001 9
  rail : t.pwr.railUv = t.pwr.target * 1000
  entry : ∀ c, (cluster t c).leadEntry = (cluster s c).leadEntry

theorem useSeeds_only (s : State) : ∃ b, useSeeds s = { s with tbl := b } := by
  unfold useSeeds
  split
  · exact ⟨_, rfl⟩
  · exact ⟨_, rfl⟩

theorem useLayout_facts (s : State) : ∃ h, useLayout s = { s with hbm := h } ∧ h.mem = s.hbm.mem := by
  unfold useLayout
  dsimp only
  split
  · exact ⟨_, rfl, rfl⟩
  · exact ⟨_, rfl, rfl⟩

theorem startTime_facts (s : State) : ∃ m, startTime s = { s with time := m } ∧ m.now = s.time.now ∧
    (s.sys.resetCause ≠ 4 → m.ftOrigin = -((s.time.now / 576 * 576 : Nat) : Int)) ∧ m.state = if obj s 0x6800 1 = 0 then 0 else 4 := by
  unfold startTime
  dsimp only
  split
  · next h => exact ⟨_, rfl, rfl, fun hn => absurd h hn, rfl⟩
  · exact ⟨_, rfl, rfl, fun _ => rfl, rfl⟩

/-- A map over clusters that changes no entry point. -/
theorem leadEntry_map (m : Map Cluster) {g : Nat × Cluster → Nat × Cluster} (hg : ∀ e, (g e).1 = e.1 ∧ (g e).2.leadEntry = e.2.leadEntry)
    (c : Nat) : (mget (m.map g) c {}).leadEntry = (mget m c {}).leadEntry := by
  rw [mget, mget]
  induction m with
  | nil => rfl
  | cons e m ih =>
    obtain ⟨hkey, hentry⟩ := hg e
    rw [List.map_cons, ← Prod.mk.eta (p := g e), ← Prod.mk.eta (p := e), mfind, mfind, hkey]
    split
    · exact hentry
    · exact ih

/-- A new clock moves instants, and no cluster's entry. -/
theorem reclock_lit (was s : State) : let t := reclock was s
    t = { s with time := t.time, flights := t.flights, ropes := t.ropes, clusters := t.clusters } ∧ t.time.now = s.time.now ∧
      t.time.ftOrigin = s.time.ftOrigin ∧ t.time.state = s.time.state ∧ ∀ c, (cluster t c).leadEntry = (cluster s c).leadEntry := by
  unfold reclock
  dsimp only
  split
  · exact ⟨rfl, rfl, rfl, rfl, fun _ => rfl⟩
  · exact ⟨rfl, rfl, rfl, rfl, fun c => leadEntry_map s.clusters (by exact fun _ => ⟨rfl, rfl⟩) c⟩

theorem startRail_lit (s : State) : Lit s (startRail (startTime (useLayout (useSeeds s)))) := by
  obtain ⟨b, hb⟩ := useSeeds_only s
  obtain ⟨h, hh, hmem⟩ := useLayout_facts (useSeeds s)
  obtain ⟨m, hm, hnow, hft, hstate⟩ := startTime_facts (useLayout (useSeeds s))
  obtain ⟨u, hu⟩ : ∃ u, u = startTime (useLayout (useSeeds s)) := ⟨_, rfl⟩
  rw [← hu] at hm ⊢
  rw [hh, hb] at hm hnow hft hstate
  rw [hb] at hmem
  obtain ⟨v, hv⟩ : ∃ v : State, v = { u with pwr := { u.pwr with
    fstep := maxStep u.pwr.profile, target := vmin (maxStep u.pwr.profile) + obj u 0x7001 9
    railUv := (vmin (maxStep u.pwr.profile) + obj u 0x7001 9) * 1000, railAt := u.time.now } } := ⟨_, rfl⟩
  have hrail : startRail u = reclock u v := by rw [hv]; rfl
  obtain ⟨hrest, hrnow, hrft, hrstate, hrentry⟩ := reclock_lit u v
  rw [hrail]
  obtain ⟨t, ht⟩ : ∃ t, t = reclock u v := ⟨_, rfl⟩
  rw [← ht] at hrest hrnow hrft hrstate hrentry ⊢
  have hobj : ∀ i a, obj u i a = obj s i a := obj_congr (by rw [hm]) (by rw [hm])
  have hvtime : v.time = m := by rw [hv, hm]
  have hpwr : t.pwr = v.pwr := by rw [hrest]
  have hhbm : t.hbm = h := by rw [hrest, hv, hm]
  have hprof : u.pwr.profile = s.pwr.profile := by rw [hm]
  refine ⟨?_, ?_, fun hc => ?_, ?_, ?_, ?_, ?_, ?_, fun c => ?_⟩
  · rw [hrest, hv, hm]
  · rw [hrnow, hvtime, hnow]
  · rw [hrft, hvtime, hft hc]
  · rw [hrstate, hvtime, hstate]
    rfl
  · rw [hhbm, hmem]
  · rw [hpwr, hv, ← hprof]
  · rw [hpwr, hv, ← hprof, ← hobj]
  · rw [hpwr, hv]
  · rw [hrentry, hv, hm]
    rfl

/-! ### Ports and lead ropes (R191, R428) -/

/-- The ports that the modes in force give start training 2 ms after T0. -/
theorem startPorts_below (s : State) (n : Nat) :
    let t := (List.range n).foldl (fun s lp => modPort (trainPort s lp) lp (fun p => { p with trainAt := s.time.now + msU 2 })) s
    (∃ m, t = { s with ports := m }) ∧ ∀ lp, lp < n → lpDefined s lp = true → lpo s lp 2 = 1 →
      (port t lp).link = 1 ∧ (port t lp).trainAt = s.time.now + msU 2 := by
  induction n with
  | zero => exact ⟨⟨s.ports, rfl⟩, nofun⟩
  | succ n ih =>
    obtain ⟨⟨m, hm⟩, hdone⟩ := ih
    rw [List.range_succ, List.foldl_append, List.foldl_cons, List.foldl_nil]
    obtain ⟨u, hu⟩ : ∃ u, u = (List.range n).foldl (fun s lp => modPort (trainPort s lp) lp (fun p => { p with trainAt := s.time.now + msU 2 })) s :=
      ⟨_, rfl⟩
    rw [← hu] at hm hdone ⊢
    obtain ⟨m', hm'⟩ := trainPort_only u n
    refine ⟨⟨_, by rw [hm', hm]; rfl⟩, fun lp hlp hdef hon => ?_⟩
    have hother (h : lp ≠ n) : port (trainPort u n) lp = port u lp := by
      rw [trainPort]
      split
      · exact port_modPort_ne _ _ h
      · exact port_modPort_ne _ _ h
    by_cases h : lp = n
    · have hdef' : lpDefined u n = true := by rw [hm, ← h]; exact hdef
      have hon' : lpo u n 2 = 1 := by rw [hm, ← h]; exact hon
      have hnow : u.time.now = s.time.now := by rw [hm]
      rw [h, port_modPort_same, trainPort, if_pos (by rw [hdef', hon']; rfl), port_modPort_same, hnow]
      exact ⟨rfl, rfl⟩
    · rw [port_modPort_ne _ _ h, hother h]
      exact hdone lp (by omega) hdef hon

/-- The lead rope of a cluster that has started. -/
def LeadUp (s t : State) (c : Nat) : Prop :=
  (cluster t c).leadRope = 7 ∧ (rope t (c * 128 + 7)).st = .ready ∧ (rope t (c * 128 + 7)).pl = 2 ∧
    (rope t (c * 128 + 7)).pc = (cluster s c).leadEntry ∧ (cluster t c).beatAt = (cluster t c).startsAt ∧
    s.sys.t0 + 180000000 ≤ (cluster t c).startsAt ∧ (cluster t c).startsAt ≤ s.sys.t0 + 900000000

theorem startLead_kept (s : State) (c n : Nat) (p : BitVec 64) : let t := startLead s c n p
    t = { s with ropes := t.ropes, cores := t.cores, clusters := t.clusters } ∧ ∀ d, d ≠ c → Machine.cluster t d = Machine.cluster s d := by
  intro t
  obtain ⟨v, hv⟩ : ∃ v, v = modCluster (setRope s (c * 128 + n) (leadStarted s (rope s (c * 128 + n)) (Machine.cluster s c).leadEntry p)) c
    (fun y => { y with leadRope := n, beatAt := s.time.now }) := ⟨_, rfl⟩
  have ht : t = makeReady v (c * 128 + n) := by rw [hv]; rfl
  obtain ⟨r, k, hready⟩ := makeReady_only v (c * 128 + n)
  rw [← ht] at hready
  rw [hready]
  refine ⟨by rw [hv]; rfl, fun d hd => ?_⟩
  change Machine.cluster v d = _
  rw [hv, cluster_modCluster, if_neg hd]
  rfl

theorem startCluster_up (s : State) (c : Nat) : let t := startCluster s c
    (∃ f, t = { s with free := f, ropes := t.ropes, cores := t.cores, clusters := t.clusters }) ∧ LeadUp s t c ∧
      ∀ d, d ≠ c → Machine.cluster t d = Machine.cluster s d ∧ ∀ n, n < 128 → rope t (d * 128 + n) = rope s (d * 128 + n) := by
  intro t
  obtain ⟨u, m, hu, hentry, hrest⟩ : ∃ (u : State) (m : Map Cluster), u = (if runsPass s c then modCluster s c (fun x => { x with scratch := homeCells s }) else s) ∧
      (∀ d, (Machine.cluster u d).leadEntry = (Machine.cluster s d).leadEntry ∧ (d ≠ c → Machine.cluster u d = Machine.cluster s d)) ∧
      u = { s with clusters := m } := by
    split
    · refine ⟨_, _, rfl, fun d => ?_, rfl⟩
      rw [cluster_modCluster]
      split
      · next h => exact ⟨by rw [h], fun hn => absurd h hn⟩
      · exact ⟨rfl, fun _ => rfl⟩
    · exact ⟨_, s.clusters, rfl, fun d => ⟨rfl, fun _ => rfl⟩, rfl⟩
  obtain ⟨at_, hat⟩ : ∃ n, n = s.sys.t0 + msU 2 + Config.freeNat s.free % (msU 8 + 1) := ⟨_, rfl⟩
  have ht : t = modCluster (startLead (draw u) c 7 0) c (fun x => { x with startsAt := at_, beatAt := at_ }) := by
    rw [hat, hu]
    rfl
  obtain ⟨hothers, hlead, -, hcluster, -⟩ := startLead_facts (draw u) c 7 0
  obtain ⟨hstart, hapart⟩ := startLead_kept (draw u) c 7 0
  obtain ⟨w, hw⟩ : ∃ w, w = startLead (draw u) c 7 0 := ⟨_, rfl⟩
  rw [← hw] at ht hothers hlead hcluster hstart hapart
  have hrope (q : Nat) : rope t q = rope w q := by rw [ht]; rfl
  have hinstant : s.sys.t0 + 180000000 ≤ at_ ∧ at_ ≤ s.sys.t0 + 900000000 := by
    have h2 : msU 2 = 180000000 := rfl
    have h8 : msU 8 = 720000000 := rfl
    have := Nat.mod_lt (Config.freeNat s.free) (show 0 < msU 8 + 1 by omega)
    omega
  have hown : Machine.cluster t c = { Machine.cluster w c with startsAt := at_, beatAt := at_ } := by
    rw [ht, cluster_modCluster, if_pos rfl]
  refine ⟨⟨u.free + 1, ?_⟩, ⟨?_, ?_, ?_, ?_, ?_, ?_⟩, fun d hd => ⟨?_, fun n hn => ?_⟩⟩
  · rw [ht, hstart, hrest]
    rfl
  · rw [hown, hcluster]
  · rw [hrope, hlead]
  · rw [hrope, hlead]
    rfl
  · rw [hrope, hlead]
    exact (hentry c).1
  · rw [hown]
  · rw [hown]
    exact hinstant
  · rw [ht, cluster_modCluster, if_neg hd, hapart d hd]
    exact (hentry d).2 hd
  · rw [hrope, hothers _ (by omega), hrest]
    rfl

/-- Every lead rope starts, at its cluster's entry. -/
theorem startClusters_up (s : State) (n : Nat) : let t := (List.range n).foldl startCluster s
    (∃ f, t = { s with free := f, ropes := t.ropes, cores := t.cores, clusters := t.clusters }) ∧ (∀ c, c < n → LeadUp s t c) ∧
      ∀ d, n ≤ d → Machine.cluster t d = Machine.cluster s d := by
  induction n with
  | zero => exact ⟨⟨s.free, rfl⟩, nofun, fun _ _ => rfl⟩
  | succ n ih =>
    obtain ⟨⟨f, hrest⟩, hup, hlater⟩ := ih
    rw [List.range_succ, List.foldl_append, List.foldl_cons, List.foldl_nil]
    obtain ⟨u, hu⟩ : ∃ u, u = (List.range n).foldl startCluster s := ⟨_, rfl⟩
    rw [← hu] at hrest hup hlater ⊢
    obtain ⟨⟨f', hrest'⟩, hnew, hkept⟩ := startCluster_up u n
    obtain ⟨t, ht⟩ : ∃ t, t = startCluster u n := ⟨_, rfl⟩
    rw [← ht] at hrest' hnew hkept ⊢
    have hsys : u.sys = s.sys := by rw [hrest]
    refine ⟨⟨f', ?_⟩, fun c hc => ?_, fun d hd => ?_⟩
    · rw [hrest] at hrest'
      exact hrest'
    · by_cases h : c = n
      · rw [LeadUp, hsys, hlater n (Nat.le_refl n)] at hnew
        rw [h]
        exact hnew
      · obtain ⟨hcl, hro⟩ := hkept c h
        have hold := hup c (by omega)
        rw [LeadUp] at hold ⊢
        rw [hcl, hro 7 (by decide)]
        exact hold
    · exact (hkept d (by omega)).1.trans (hlater d (by omega))

/-! ### Start-up from T0 on (R428) -/

/-- What start-up does with the state at T0. -/
structure Booted (s t : State) : Prop where
  rest : t = { s with
    free := t.free, ports := t.ports, tbl := t.tbl, hbm := t.hbm, time := t.time, pwr := t.pwr, flights := t.flights, ropes := t.ropes
    cores := t.cores, clusters := t.clusters, obj := t.obj, rcv := t.rcv, dict := t.dict, cairn := t.cairn }
  ft : s.sys.resetCause ≠ 4 → Machine.ft t = 0
  state : t.time.state = if obj s 0x6800 1 = 0 then 0 else 4
  mem : t.hbm.mem = s.hbm.mem
  fstep : t.pwr.fstep = maxStep s.pwr.profile
  target : t.pwr.target = vmin (maxStep s.pwr.profile) + obj s 0x7001 9
  rail : t.pwr.railUv = t.pwr.target * 1000
  ports : ∀ lp, lp < lps s → lpDefined s lp = true → lpo s lp 2 = 1 → (port t lp).link = 1 ∧ (port t lp).trainAt = s.time.now + msU 2
  leads : ∀ c, c < clusters s → LeadUp s t c
  readOnly : t.rcv.readOnly = mustNotWrite t
  objs : ∀ {i a}, a < 256 → i ≠ 0x0200 → i ≠ 0x7800 → i ≠ 0x8002 ∨ a < 0x0A → obj t i a = obj s i a
  looked : ∃ y, t = recheckReadOnly y ∧ y.obj = s.obj ∧ y.rcv = s.rcv ∧ y.sys = s.sys

theorem ft_origin {s : State} {n : Nat} (hnow : s.time.now = n) (horigin : s.time.ftOrigin = -((n / 576 * 576 : Nat) : Int)) : ft s = 0 := by
  rw [ft, ftAt, hnow, horigin, Int.add_right_neg]
  rfl

theorem ignite_booted (s : State) : Booted s (recheckReadOnly (ignite s)) := by
  obtain ⟨x, hx⟩ : ∃ x, x = startRail (startTime (useLayout (useSeeds s))) := ⟨_, rfl⟩
  have hlit := startRail_lit s
  rw [← hx] at hlit
  obtain ⟨⟨p, hp⟩, hports⟩ := startPorts_below x (lps x)
  obtain ⟨w, hw⟩ : ∃ w, w = startPorts x := ⟨_, rfl⟩
  have hwp : w = { x with ports := p } := hw.trans hp
  obtain ⟨⟨f, hrest⟩, hleads, -⟩ := startClusters_up w (clusters x)
  obtain ⟨y, hy⟩ : ∃ y, y = (List.range (clusters x)).foldl startCluster w := ⟨_, rfl⟩
  rw [← hy] at hrest hleads
  have hignite : ignite s = y := by
    rw [hy, hw, hx]
    rfl
  have hleased := recheckReadOnly_leased y
  have hro := recheckReadOnly_readOnly y
  rw [hignite]
  have hys : y = { s with free := y.free, ports := y.ports, tbl := y.tbl, hbm := y.hbm, time := y.time, pwr := y.pwr, flights := y.flights
                          ropes := y.ropes, cores := y.cores, clusters := y.clusters } := by
    rw [hrest, hwp, hlit.rest]
  have hxsys : x.sys = s.sys := by rw [hlit.rest]
  have hxobj : ∀ i a, obj x i a = obj s i a := obj_congr (by rw [hlit.rest]) hxsys
  have hytime : y.time = x.time := by rw [hrest, hwp]
  have hypwr : y.pwr = x.pwr := by rw [hrest, hwp]
  have hyports : y.ports = w.ports := by rw [hrest]
  obtain ⟨t, ht⟩ : ∃ t, t = recheckReadOnly y := ⟨_, rfl⟩
  rw [← ht] at hleased hro ⊢
  have htime := hleased.time.trans hytime
  have hpwr : t.pwr = x.pwr := by rw [hleased.rest, hypwr]
  refine ⟨?_, fun hc => ?_, ?_, ?_, ?_, ?_, ?_, fun lp hlp hdef hone => ?_, fun c hc => ?_, hro, fun ha h1 h2 h3 => ?_, y, ht, ?_, ?_, ?_⟩
  · rw [hleased.rest, hys]
  · exact ft_origin (n := s.time.now) (by rw [htime]; exact hlit.now) (by rw [htime]; exact hlit.ft hc)
  · rw [htime]
    exact hlit.state
  · rw [hleased.rest]
    change y.hbm.mem = _
    rw [hrest, hwp]
    exact hlit.mem
  · rw [hpwr]
    exact hlit.fstep
  · rw [hpwr]
    exact hlit.target
  · rw [hpwr]
    exact hlit.rail
  · have hport : port t lp = port w lp := by
      rw [port, port, hleased.ports, hyports]
    have hdone := hports lp (by rw [lps, hxsys]; exact hlp) (by rw [← hdef, lpDefined, lpDefined, lps, lps, lpo, lpo, hxobj, hxsys]) (by rw [lpo, hxobj]; exact hone)
    rw [hport, hw, ← hlit.now]
    exact hdone
  · have hup := hleads c (by rw [clusters, hxsys]; exact hc)
    have hcluster (d : Nat) : Machine.cluster t d = Machine.cluster y d := by rw [Machine.cluster, Machine.cluster, hleased.rest]
    have hrope (q : Nat) : Machine.rope t q = Machine.rope y q := by rw [Machine.rope, Machine.rope, hleased.ropes]
    have hentry : (Machine.cluster w c).leadEntry = (Machine.cluster s c).leadEntry := by
      rw [← hlit.entry, hwp]
      rfl
    have hwsys : w.sys = s.sys := by rw [hwp]; exact hxsys
    rw [LeadUp, hentry, hwsys] at hup
    rw [LeadUp, hcluster, hrope]
    exact hup
  · rw [hleased.objs ha h1 h2 h3, hys]
    rfl
  · rw [hys]
  · rw [hys]
  · rw [hys]

theorem bootFrom_fresh_facts {s : State} (hcause : s.sys.pendingCause ≠ 4) : ∃ t, bootFrom s = t ∧
      t.sys.phase = .starting ∧ t.sys.node = s.sys.nodePins ∧ t.sys.sbaddr = s.sys.sbPins ∧ t.sys.resetCause = s.sys.pendingCause ∧
      t.sys.wakeOut = true ∧ t.sys.thermalShut = false ∧ t.sys.t0 = s.time.now ∧ t.latched = s.stored ∧
      (mfind s.stored (key 0x8002 1) ≠ some 1 → s.rcv.leaseUntil = none → t.obj = s.stored ∧ t.rcv.readOnly = false ∧
        (t.rcv.writeFence = true ↔ mfind s.stored (key 0x8002 7) = some 1)) ∧ t.rcv.readOnly = mustNotWrite t ∧
      t.sys.deviceId = BitVec.ofNat 4 (obj t 0x1000 2) ∧ ft t = 0 ∧ t.time.state = (if obj t 0x6800 1 = 0 then 0 else 4) ∧
      t.pwr.fstep = maxStep s.pwr.profile ∧ t.pwr.target = vmin (maxStep s.pwr.profile) + obj t 0x7001 9 ∧
      t.pwr.railUv = t.pwr.target * 1000 ∧
      (∀ lp, lp < lps s → lpDefined t lp = true → lpo t lp 2 = 1 → (port t lp).link = 1 ∧ (port t lp).trainAt = s.time.now + 180000000) ∧
      ∀ c, c < clusters s → (cluster t c).leadRope = 7 ∧ (rope t (c * 128 + 7)).st = .ready ∧
        (rope t (c * 128 + 7)).pl = 2 ∧ (rope t (c * 128 + 7)).pc = (cluster s c).leadEntry ∧
        (cluster t c).beatAt = (cluster t c).startsAt ∧ s.time.now + 180000000 ≤ (cluster t c).startsAt ∧
        (cluster t c).startsAt ≤ s.time.now + 900000000 := by
  obtain ⟨u, hu⟩ : ∃ u : State, u = { atT0 s with sys := { (atT0 s).sys with deviceId := BitVec.ofNat 4 (obj (atT0 s) 0x1000 2) } } := ⟨_, rfl⟩
  have hboot := ignite_booted u
  refine ⟨_, bootFrom_fresh hcause, ?_⟩
  rw [← hu]
  obtain ⟨t, ht⟩ : ∃ t, t = recheckReadOnly (ignite u) := ⟨_, rfl⟩
  rw [← ht] at hboot ⊢
  obtain ⟨hrest, hft, hstate, -, hfstep, htarget, hrail, hports, hleads, hro, hobjs, y, hty, hyobj, hyrcv, hysys⟩ := hboot
  have hsys : t.sys = u.sys := by rw [hrest]
  have hid : u.sys.deviceId = BitVec.ofNat 4 (obj u 0x1000 2) := by
    rw [hu]
    exact congrArg (BitVec.ofNat 4) (obj_deviceId (atT0 s) _ (by decide) (by decide)).symm
  have hlps : lps u = lps s := by rw [hu]; rfl
  have hclusters : clusters u = clusters s := by rw [hu]; rfl
  have hdef (lp : Nat) (hlp : lp < lps s) : lpDefined u lp = lpDefined t lp ∧ lpo u lp 2 = lpo t lp 2 := by
    have hlow : lps s ≤ 0x800 := by
      rw [lps, nLp]
      split <;> omega
    have ho (k a : Nat) (hk : k ≤ lp) (ha : a < 256) : obj t (0x2000 + k) a = obj u (0x2000 + k) a :=
      hobjs ha (by omega) (by omega) (.inl (by omega))
    refine ⟨?_, (ho lp 2 (Nat.le_refl lp) (by decide)).symm⟩
    rw [lpDefined, lpDefined, lps, lps, hsys, lpo, lpo, ho _ 1 (by omega) (by decide)]
  refine ⟨?_, ?_, ?_, ?_, ?_, ?_, ?_, ?_, fun hpair hlease => ?_, hro, ?_, hft (by rw [hu]; exact hcause), ?_, ?_, ?_, hrail, fun lp hlp hl hone => ?_, fun c hc => ?_⟩
  · rw [hsys, hu]
    rfl
  · rw [hsys, hu]
    rfl
  · rw [hsys, hu]
    rfl
  · rw [hsys, hu]
    rfl
  · rw [hsys, hu]
    rfl
  · rw [hsys, hu]
    rfl
  · rw [hsys, hu]
    rfl
  · rw [hrest, hu]
    rfl
  · have hyobj' : y.obj = s.stored := by rw [hyobj, hu]; rfl
    have hyrcv' : y.rcv = { s.rcv with writeFence := mget s.stored (key 0x8002 7) 0 == 1 } := by rw [hyrcv, hu]; rfl
    have hdrop : dropOver y = y := dropOver_of_held y (by rw [leaseOver, hyrcv', hlease]; rfl)
    obtain ⟨d, hd, hlook⟩ := recheckReadOnly_looked y
    rw [hdrop] at hd
    rw [hd] at hlook
    have hpairs : obj y 0x8002 1 ≠ 1 := by
      rw [obj, getO, hyobj']
      cases hv : mfind s.stored (key 0x8002 1) with
      | none =>
        have hrow : rowOf y.sys (key 0x8002 1 / 256) (key 0x8002 1 % 256) = .ok (rws 1 .bool 0) :=
          rowOf_page (show page y.sys 0x8002 = some (_, _) from rfl) (by decide) (by decide) rfl
        change dfltOf y.sys (key 0x8002 1) ≠ 1
        rw [dfltOf, hrow]
        exact Nat.zero_ne_one
      | some v => exact fun h => hpair (by rw [hv]; exact congrArg some h)
    have hmust : mustNotWrite y = false := by
      rw [mustNotWrite, beq_false_of_ne hpairs, Bool.false_and]
    have hcalm := hlook.calm (by rw [hmust, Bool.false_and])
    rw [← hty, hmust] at hcalm
    rw [hcalm]
    refine ⟨hyobj', rfl, ?_⟩
    change y.rcv.writeFence = true ↔ _
    rw [hyrcv']
    change (mget s.stored (key 0x8002 7) 0 == 1) = true ↔ _
    rw [mget, beq_iff_eq]
    cases mfind s.stored (key 0x8002 7) with
    | none => exact ⟨nofun, nofun⟩
    | some v => exact ⟨fun h => congrArg some h, fun h => Option.some.inj h⟩
  · rw [hsys, hid, hobjs (by decide) (by decide) (by decide) (.inl (by decide))]
  · rw [hstate, hobjs (by decide) (by decide) (by decide) (.inl (by decide))]
  · rw [hfstep, hu]
    rfl
  · rw [htarget, hobjs (by decide) (by decide) (by decide) (.inl (by decide)), hu]
    rfl
  · obtain ⟨hl', hone'⟩ := hdef lp hlp
    have hport := hports lp (by rw [hlps]; exact hlp) (hl'.trans hl) (hone'.trans hone)
    have hnow : u.time.now = s.time.now := by rw [hu]; rfl
    rw [hnow, msU_eq] at hport
    exact hport
  · have hup := hleads c (by rw [hclusters]; exact hc)
    have ht0 : u.sys.t0 = s.time.now := by rw [hu]; rfl
    have hentry : cluster u c = cluster s c := by rw [hu]; rfl
    rw [LeadUp, ht0, hentry] at hup
    exact hup

theorem bootFrom_carried_facts {s : State} (hcause : s.sys.pendingCause = 4) : ∃ t, bootFrom (carried s) = t ∧
      t.sys.phase = .starting ∧ t.sys.resetCause = 4 ∧ t.sys.wakeOut = true ∧ obj t 0x7000 0x0E = 1 ∧ t.hbm.mem = [] ∧
      t.frames = [] ∧ t.plan = { events := s.plan.events.drop s.plan.next } ∧
      ∀ k v, s.dict.storeQ = [(k, v)] → mfind t.stored k = some v := by
  obtain ⟨⟨n, hflush⟩, -, hstores⟩ := flushStores_facts s
  obtain ⟨c, hc⟩ : ∃ c, c = carried s := ⟨_, rfl⟩
  have hcsys : c.sys.pendingCause = 4 := by
    rw [hc]
    change (flushStores s).sys.pendingCause = 4
    rw [hflush]
    exact hcause
  have hcplan : c.plan = { events := s.plan.events.drop s.plan.next } := by rw [hc]; rfl
  have hcmem : c.hbm.mem = [] := by rw [hc]; rfl
  have hcframes : c.frames = [] := by rw [hc]; rfl
  have hcstored : c.stored = (flushStores s).stored := by rw [hc]; rfl
  rw [← hc]
  obtain ⟨v, hv⟩ : ∃ v, v = putObj (atT0 c) 0x7000 0x0E 1 := ⟨_, rfl⟩
  obtain ⟨u, hu⟩ : ∃ u, u = cairn v 0x0A 3 0 (toLE 1 1) := ⟨_, rfl⟩
  have hlog := cairn_logged v 0x0A 3 0 (toLE 1 1)
  rw [← hu] at hlog
  have hboot := ignite_booted { u with sys := { u.sys with deviceId := BitVec.ofNat 4 (obj u 0x1000 2) } }
  refine ⟨_, bootFrom_carried hcsys (hu.trans (by rw [hv])), ?_⟩
  obtain ⟨t, ht⟩ : ∃ t, t = recheckReadOnly (ignite { u with sys := { u.sys with deviceId := BitVec.ofNat 4 (obj u 0x1000 2) } }) := ⟨_, rfl⟩
  rw [← ht] at hboot ⊢
  obtain ⟨hrest, -, -, hmem, -, -, -, -, -, -, hobjs, -⟩ := hboot
  have husys : u.sys = v.sys := by rw [hlog.rest]
  refine ⟨?_, ?_, ?_, ?_, ?_, ?_, ?_, fun k x hk => ?_⟩
  · rw [hrest]
    change u.sys.phase = _
    rw [husys, hv]
    rfl
  · rw [hrest]
    change u.sys.resetCause = _
    rw [husys, hv]
    exact hcsys
  · rw [hrest]
    change u.sys.wakeOut = _
    rw [husys, hv]
    rfl
  · rw [hobjs (by decide) (by decide) (by decide) (.inl (by decide)), obj_deviceId _ _ (by decide) (by decide), hlog.obj (by decide) (.inl (by decide)), hv]
    exact obj_putObj_same _ _ _ _
  · rw [hmem, ← hcmem]
    change u.hbm.mem = _
    rw [hlog.rest, hv]
    rfl
  · rw [hrest, ← hcframes]
    change u.frames = _
    rw [hlog.rest, hv]
    rfl
  · rw [hrest, ← hcplan]
    change u.plan = _
    rw [hlog.rest, hv]
    rfl
  · rw [hrest, ← hstores k x hk, ← hcstored]
    change mfind u.stored k = _
    rw [hlog.rest, hv]
    rfl

/-! ### The end of start-up (R428) -/

/-- FAULT_N and what it latches are all of the system's state that the conditions of service change. -/
theorem setFaultN_sys (s : State) : ∃ b d e r, setFaultN s = { s with
    sys := { s.sys with faultN := b, everInService := d, fencedOut := e }, rcv := { s.rcv with leaseUntil := r } } := by
  obtain ⟨e, he⟩ := latchFenced_only s
  rw [setFaultN, he]
  dsimp only
  split
  · exact ⟨_, _, _, _, rfl⟩
  · exact ⟨_, _, _, _, rfl⟩

/-- What a look at the conditions of service leaves. -/
structure ServiceSeen (s t : State) : Prop where
  rest : t = { s with sys := t.sys, obj := t.obj, dict := t.dict, cairn := t.cairn, rcv := t.rcv, ports := t.ports }
  phase : t.sys.phase = s.sys.phase
  objs : ∀ {i a}, a < 256 → i ≠ 0x0200 → i ≠ 0x7800 → i ≠ 0x8002 → obj t i a = obj s i a
  back : inService s = true → t.sys.faultN = true

theorem serviceChange_seen (s : State) : ServiceSeen s (serviceChange s) := by
  obtain ⟨d, hd⟩ : ∃ d, d = dropOver s := ⟨_, rfl⟩
  obtain ⟨b, e, x, r, hfault⟩ := setFaultN_sys d
  have hdrop := (dropOver_leased s).1
  have hleased := recheckReadOnly_leased (setFaultN d)
  have hu : recheckService s = recheckReadOnly (setFaultN d) := by rw [hd]; rfl
  obtain ⟨u, hut⟩ : ∃ u, u = recheckReadOnly (setFaultN d) := ⟨_, rfl⟩
  rw [← hd] at hdrop
  rw [← hut] at hleased hu
  have hseen : ServiceSeen s u := by
    refine ⟨?_, ?_, fun ha h0 h7 h8 => ?_, fun h => ?_⟩
    · rw [hleased.rest, hfault, hdrop.rest]
    · rw [hleased.sys, hfault, ← hdrop.sys]
    · rw [hleased.objs ha h0 h7 (.inl h8), hfault, ← hdrop.objs ha h0 h7 (.inl h8)]
      exact obj_congr_dflt rfl rfl rfl rfl _ _
    · rw [← hu, (recheckService_back h).1]
  obtain ⟨p, hports⟩ := enterPorts_only u
  have hchange : serviceChange s = if (!s.sys.faultN && u.sys.faultN) = true then enterPorts u else u := by rw [← hu]; rfl
  rw [hchange]
  split
  · rw [hports]
    refine ⟨?_, hseen.phase, hseen.objs, hseen.back⟩
    rw [hseen.rest]
  · exact hseen

/-- The instant at which start-up ends, no earlier than its clock says. -/
theorem startupTime_eq (s : State) : startupTime s =
    if ∃ k, k < nStacks s.sys ∧ (stackOf s k).tried = true then 10620000000 else 5400000000 := by
  have hany : ((List.range (nStacks s.sys)).any (fun k => (stackOf s k).tried)) = true ↔ ∃ k, k < nStacks s.sys ∧ (stackOf s k).tried = true := by
    rw [List.any_eq_true]
    exact exists_congr fun k => and_congr_left' List.mem_range
  rw [startupTime, msU_eq, msU_eq]
  by_cases h : ∃ k, k < nStacks s.sys ∧ (stackOf s k).tried = true
  · rw [if_pos h, if_pos (hany.mpr h)]
  · rw [if_neg h, if_neg (fun ha => h (hany.mp ha))]

theorem startupReady_iff {s : State} (hp : s.sys.phase = .starting) (hs : started s = true) :
    startupReady s = true ↔ s.sys.cairnScanned = true ∧ ∀ k, k < nStacks s.sys → (stackOf s k).state = 2 := by
  rw [startupReady, hp, hs]
  simp only [beq_self_eq_true, Bool.true_and, Bool.and_eq_true, List.all_eq_true, List.mem_range, beq_iff_eq]

/-- The state in which start-up ends, before what the Basecamp state held comes. -/
def ranFrom (s : State) (now : Nat) : State :=
  let s' := putObj (advanceTo s now) 0x1030 9 ((max s.time.now now - s.sys.t0) / 90000 % 2 ^ 32)
  { s' with
    sys := { s.sys with phase := .run }
    tbl := { s.tbl with sweepNext := if obj s 0x4800 5 = 0 then none else some (s.tbl.sweepNext.getD (max s.time.now now + 90000000 * obj s 0x4800 5)) }
    xlat := { s.xlat with cache := [] }, col := { s.col with cache := [] }
    pwr := { s.pwr with idleSince := some (max s.time.now now) } }

theorem startupEnd_eq (held : State → State) (s : State) :
    startupEnd held s = serviceChange (held (ranFrom s (s.sys.t0 + startupTime s))) := by
  obtain ⟨n, hn⟩ : ∃ n, n = s.sys.t0 + startupTime s := ⟨_, rfl⟩
  have hnow := advanceTo_now s n
  rw [startupEnd, ← hn]
  obtain ⟨v, hv⟩ : ∃ v, v = advanceTo s n := ⟨_, rfl⟩
  rw [← hv] at hnow
  have hrest : v = { s with time := v.time } := by rw [hv]; rfl
  have hage : obj (putObj v 0x1030 9 ((max s.time.now n - s.sys.t0) / 90000 % 2 ^ 32)) 0x4800 5 = obj s 0x4800 5 := by
    rw [obj_putObj_ne _ _ (by decide) (by decide) (.inl (by decide)), hrest]
    rfl
  have ht0 : v.sys.t0 = s.sys.t0 := by rw [hrest]
  rw [ranFrom, ← hv]
  dsimp only
  have htime (x : Nat) : (putObj v 0x1030 9 x).time.now = max s.time.now n := hnow
  rw [hnow, ht0, hage, htime, msU_eq, hrest]
  rfl

/-- What the end of start-up has set, before FAULT_N is looked at. -/
theorem ranFrom_facts (s : State) (now : Nat) : let t := ranFrom s now
    t = { s with sys := { s.sys with phase := .run }, time := (advanceTo s now).time, obj := t.obj, tbl := t.tbl, xlat := t.xlat, col := t.col, pwr := t.pwr } ∧
    t.time.now = max s.time.now now ∧ obj t 0x1030 9 = (max s.time.now now - s.sys.t0) / 90000 % 2 ^ 32 ∧
      ∀ i a, a < 256 → i ≠ 0x1030 → obj t i a = obj s i a := by
  intro t
  refine ⟨rfl, advanceTo_now s now, ?_, fun i a ha hi => ?_⟩
  · exact (obj_congr_dflt (s := putObj (advanceTo s now) 0x1030 9 _) (t := t) rfl rfl rfl rfl _ _).trans (obj_putObj_same _ _ _ _)
  · refine (obj_congr_dflt (s := putObj (advanceTo s now) 0x1030 9 _) (t := t) rfl rfl rfl rfl _ _).trans ?_
    rw [obj_putObj_ne _ _ (by decide) ha (.inl (Ne.symm hi))]
    rfl

/-- A late mark leaves the tables. -/
theorem fire_lateMark_tbl {s : State} {m : ItinEvent} (htyp : m.typ = 4) (hgate : m.gated = false) : (fire s m true).tbl = s.tbl := by
  obtain ⟨u, hu⟩ : ∃ u, u = settleTime { s with plan := { s.plan with next := s.plan.next + 1 } } := ⟨_, rfl⟩
  obtain ⟨f, time, o, c, honly⟩ := settleTime_only { s with plan := { s.plan with next := s.plan.next + 1 } }
  rw [← hu] at honly
  have hskip : skipped u m = false := by
    rw [skipped, htyp, hgate]
    rfl
  rw [fire]
  dsimp only
  rw [← hu, if_neg (by rw [hskip]; decide), if_pos rfl, act, htyp]
  change (cairn (bump (bump u 0x6801 6) 0x6801 3) 9 4 0 (toLE 8 m.arg1)).tbl = _
  rw [(cairn_logged (bump (bump u 0x6801 6) 0x6801 3) 9 4 0 (toLE 8 m.arg1)).rest]
  change u.tbl = _
  rw [honly]

theorem exec_startupComplete {s : State} (hready : startupReady s = true) {held : State → State}
    (hheld : held = if s.sys.resetCause = 4 then dropPlan else id) :
    exec .startupComplete s = .next (serviceChange (held (ranFrom s (s.sys.t0 + startupTime s)))) := by
  rw [← startupEnd_eq, hheld]
  exact if_neg (by rw [hready]; decide)

/-- Settles O52: resets, the freeze, the loss and return of VIN, T0 and the end of start-up. -/
theorem resetAndStartUp : Obligations.ResetAndStartUp := by
  refine ⟨fun s => ?_, fun s => ⟨fun h => ?_, exec_freeze_clocked⟩, exec_vinUndervoltage_facts, fun s h => ?_, fun s h => ?_, fun s hp hs => ?_⟩
  · intro anew
    have hanew {t : State} (h : Renewed s t) : anew t :=
      ⟨h.phase, h.now, h.latched, h.ropes, h.clusters, h.ports, h.frames, h.col, h.mem, h.keys, h.plan, h.ring, h.storeQ, h.rcv,
        h.kept, h.stores, h.objs⟩
    refine ⟨fun h => ?_, fun h => ?_⟩
    · obtain ⟨hnew, hcause⟩ := beginReset_renewed s (if s.sys.frozen then 3 else 2)
      obtain ⟨t, ht⟩ : ∃ t, t = beginReset s (if s.sys.frozen then 3 else 2) := ⟨_, rfl⟩
      have hexec : exec .reset s = .next { t with sys := { t.sys with resetN := false } } := by
        rw [ht]
        exact if_neg (by simpa using h)
      rw [← ht] at hnew hcause
      exact ⟨_, hexec, hanew (hnew.pinned (v := { t.sys with resetN := false }) rfl t.answer), rfl, hcause⟩
    · obtain ⟨hnew, hcause⟩ := beginReset_renewed s 5
      exact ⟨_, exec_recoveryReset h, hanew (hnew.pinned (v := (beginReset s 5).sys) rfl (.ok [])), rfl, hcause⟩
  · change execFreeze s = _
    refine (if_neg (by rw [h]; decide)).trans (if_pos (by rw [h]; rfl))
  · refine ⟨_, if_neg (by rw [h]; decide), rfl, rfl, rfl, rfl, rfl, rfl, rfl, rfl, rfl, rfl, ?_⟩
    rw [cairnTokens]
    change min (4096 * 900000) (4096 * 900000 + (s.time.now - s.time.now)) = _
    rw [Nat.sub_self]
    rfl
  · refine ⟨exec_startT0_shut, fun hcool hcause => ?_, fun hcool hcause => ?_⟩
    · obtain ⟨t, ht, hfacts⟩ := bootFrom_fresh_facts hcause
      exact ⟨t, by rw [exec_startT0 h hcool, if_neg hcause, ht], hfacts⟩
    · obtain ⟨t, ht, hfacts⟩ := bootFrom_carried_facts hcause
      exact ⟨t, by rw [exec_startT0 h hcool, if_pos hcause, ht], hfacts⟩
  · refine ⟨fun hwait => ?_, fun hscan hstk => ?_⟩
    · have hnot : startupReady s = false := by
        rw [Bool.eq_false_iff, ne_eq, startupReady_iff hp hs]
        rintro ⟨hscan, hstk⟩
        rcases hwait with h | ⟨k, hk, h⟩
        · rw [h] at hscan
          cases hscan
        · exact h (hstk k hk)
      exact if_pos (by rw [hnot]; rfl)
    · have hready := (startupReady_iff hp hs).mpr ⟨hscan, hstk⟩
      rw [← startupTime_eq]
      obtain ⟨n, hn⟩ : ∃ n, n = s.sys.t0 + startupTime s := ⟨_, rfl⟩
      rw [← hn]
      intro now ran
      obtain ⟨hfrozen, hshut, hbase⟩ := (started_facts hs).2
      obtain ⟨hrest, hnow, hcount, hobjs⟩ := ranFrom_facts s n
      have htbl : (ranFrom s n).tbl.sweepNext = if obj s 0x4800 5 = 0 then none else some (s.tbl.sweepNext.getD (now + 90000000 * obj s 0x4800 5)) := rfl
      have hpwr : (ranFrom s n).pwr = { s.pwr with idleSince := some now } := rfl
      obtain ⟨w, hw⟩ : ∃ w, w = ranFrom s n := ⟨_, rfl⟩
      rw [← hw] at hrest hnow hcount hobjs htbl hpwr
      have hwsys : w.sys = { s.sys with phase := .run } := by rw [hrest]
      refine ⟨fun hcause => ?_, fun m hcause hoff hnext hevents htyp hgate hpos hlate => ?_⟩
      · have hexec := exec_startupComplete hready (held := id) (if_neg hcause).symm
        rw [← hn, id, ← hw] at hexec
        have hseen := serviceChange_seen w
        refine ⟨_, hexec, ⟨?_, ?_, ?_, ?_⟩, ?_, ?_, ?_, fun hvin hfail hfence hlatch hsvc => ?_⟩
        · rw [hseen.phase, hwsys]
        · rw [hseen.rest]
          exact hnow
        · rw [hseen.rest]
          change w.pwr.idleSince = _
          rw [hpwr]
        · rw [hseen.rest]
          exact htbl
        · rw [hseen.rest, hrest]
        · rw [hseen.rest, hrest]
        · rw [hseen.objs (by decide) (by decide) (by decide) (by decide), hcount]
        · refine hseen.back ?_
          have hall : allFenced w = false := by
            rw [← hfence, allFenced, allFenced, clusters, clusters, hwsys]
            refine congrArg (fun f => List.all _ f) (funext fun c => ?_)
            rw [hobjs _ _ (by decide) (by omega)]
          rw [inService, outCause, hwsys, hall]
          simp [hvin, hbase, hfrozen, hfail, hlatch, hshut, hsvc]
      · have hexec := exec_startupComplete hready (held := dropPlan) (if_pos hcause).symm
        rw [← hn, ← hw] at hexec
        have hwplan : w.plan = s.plan := by rw [hrest]
        have hwon : on w = true := by
          rw [on, started, powered, hwsys, hpwr]
          simp [hfrozen, hshut, hbase, hoff]
        have hwft : ft w = ft (advanceTo s now) := by
          have hsame : advanceTo s now = advanceTo s n := by
            rw [advanceTo, advanceTo, show now - s.time.now = n - s.time.now by omega]
          rw [hsame]
          have hwtime : w.time = (advanceTo s n).time := by rw [hrest]
          exact ft_congr (congrArg TimeSt.now hwtime) (congrArg TimeSt.ftOrigin hwtime)
        have hfires : fireHeld w = fire w m true :=
          firePassed_mark hwon (by rw [hwsys]) (by rw [hwplan, hnext, hevents]; rfl) htyp hgate hpos (by rw [hwft]; exact hlate)
        obtain ⟨-, hfnow, hfpwr, hfsys, -, hfcount, -⟩ := fire_lateMark (s := w) htyp hgate
        have hftbl := fire_lateMark_tbl (s := w) htyp hgate
        rw [dropPlan, hfires] at hexec
        obtain ⟨x, hx⟩ : ∃ x, x = fire w m true := ⟨_, rfl⟩
        rw [← hx] at hexec hfnow hfpwr hfsys hfcount hftbl
        have hseen := serviceChange_seen { x with plan := {} }
        refine ⟨_, hexec, ⟨?_, ?_, ?_, ?_⟩, ?_, ?_⟩
        · rw [hseen.phase]
          change x.sys.phase = _
          rw [hfsys, hwsys]
        · rw [hseen.rest]
          exact hfnow.trans hnow
        · rw [hseen.rest]
          change x.pwr.idleSince = _
          rw [hfpwr, hpwr]
        · rw [hseen.rest]
          change x.tbl.sweepNext = _
          rw [hftbl]
          exact htbl
        · rw [hseen.rest]
        · rw [hseen.objs (by decide) (by decide) (by decide) (by decide)]
          change obj x 0x6801 6 = _
          rw [hfcount, hobjs _ _ (by decide) (by decide)]

end Sys2Proof.Proofs

/-! The events of the Itinerary, and PLAN_APPLY (R349 to R353). -/

namespace Sys2Proof.Proofs

open Sys2Proof.Machine Sys2Proof.Claim

/-! ### An event at its FT (R350) -/

/-- The state in which an event is looked at. -/
def eventDue (s : State) (e : ItinEvent) : State :=
  { settleTime (advanceToFt s e.ft) with plan := { s.plan with next := s.plan.next + 1 } }

/-- What the wait for an event leaves. -/
structure Waited (s u y : State) : Prop where
  rest : ∃ f c, y = { s with free := f, time := u.time, obj := y.obj, cairn := c, plan := { s.plan with next := s.plan.next + 1 } }
  objs : ∀ {i a}, a < 256 → i ≠ 0x6800 → i ≠ 0x7800 → obj y i a = obj s i a

theorem eventDue_waited (s : State) (e : ItinEvent) : Waited s (settleTime (advanceToFt s e.ft)) (eventDue s e) := by
  obtain ⟨time, hadv⟩ := advanceToFt_only s e.ft
  obtain ⟨f, time', o, k, honly⟩ := settleTime_only (advanceToFt s e.ft)
  obtain ⟨-, hobj⟩ := settleTime_facts (advanceToFt s e.ft)
  obtain ⟨v, hv⟩ : ∃ v, v = advanceToFt s e.ft := ⟨_, rfl⟩
  obtain ⟨u, hu⟩ : ∃ u, u = settleTime v := ⟨_, rfl⟩
  rw [← hv] at hadv honly hobj
  rw [← hu] at honly hobj
  have hdue : eventDue s e = { u with plan := { s.plan with next := s.plan.next + 1 } } := by rw [hu, hv]; rfl
  rw [hdue, ← hv, ← hu]
  refine ⟨⟨f, k, ?_⟩, fun ha h6 h7 => ?_⟩
  · rw [honly, hadv]
  · refine (hobj ha h6 h7).trans ?_
    rw [hadv]
    rfl

theorem nextEvent_typ {s : State} {n : Nat} {e : ItinEvent} (h : nextEvent s n = some e) : e.typ = n := by
  simpa using (Option.filter_eq_some_iff.mp h).2

/-- FT reaches an event: it is skipped and counted, or it fires and counts. -/
theorem fireEvent_due {s : State} {n : Nat} {e : ItinEvent} (h : nextEvent s n = some e) : fireEvent s n =
    .next (if skipped (settleTime (advanceToFt s e.ft)) e then itinRecord (bump (eventDue s e) 0x6801 4) s.plan.next e
      else act (bump (eventDue s e) 0x6801 3) s.plan.next e e.ft) := by
  obtain ⟨time, hadv⟩ := advanceToFt_only s e.ft
  have hsettled := settleTime_plan (advanceToFt s e.ft) { s.plan with next := s.plan.next + 1 }
  have hplan : (advanceToFt s e.ft).plan = s.plan := by rw [hadv]
  obtain ⟨y, hy⟩ : ∃ y, y = eventDue s e := ⟨_, rfl⟩
  have hskip : skipped (settleTime (advanceToFt s e.ft)) e = skipped y e := by rw [hy]; rfl
  rw [fireEvent, h]
  dsimp only
  rw [fire]
  dsimp only
  rw [hplan, hsettled, ← eventDue, ← hy, hskip]
  rfl

/-! ### DICT_WRITE to the objects of class 0x4000 (R349) -/

theorem writeObj_itinerary {s : State} {sub : Nat} {r : Row} (hrow : rowOf s.sys 0x4000 sub = .ok r) (hty : scalar r.ty = true) (hacc : r.acc = .rws)
    (v : Nat) : writeObj s .itinerary 0x4000 sub (toLE r.ty.width v) =
      if allowed r (v % 256 ^ r.ty.width) then ackOk (keepValue s 0x4000 sub (v % 256 ^ r.ty.width) r) else (s, abRange, 0) := by
  have hobj : objectFor s .itinerary 0x4000 sub = .ok r := by
    rw [objectFor, hrow]
    rfl
  have hvalue : valueWrite s 0x4000 sub (v % 256 ^ r.ty.width) r = ackOk (keepValue s 0x4000 sub (v % 256 ^ r.ty.width) r) := by
    have hfields (w : Nat) : fieldsOf 0x4000 sub w = w := by simp [fieldsOf]
    rw [valueWrite, hfields]
    simp [hacc]
  rw [writeObj, hobj]
  dsimp only
  rw [if_neg (by rw [hacc]; decide), if_neg (fun h => absurd h.1 (by decide))]
  have hnumber : (if (toLE r.ty.width v).length != r.ty.width then (s, abLength, 0)
      else if !allowed r (ofLE (toLE r.ty.width v)) then (s, abRange, 0) else valueWrite s 0x4000 sub (ofLE (toLE r.ty.width v)) r) =
        if allowed r (v % 256 ^ r.ty.width) then ackOk (keepValue s 0x4000 sub (v % 256 ^ r.ty.width) r) else (s, abRange, 0) := by
    rw [length_toLE, ofLE_toLE, hvalue, if_neg (by simp)]
    cases allowed r (v % 256 ^ r.ty.width) <;> rfl
  rw [← hnumber]
  cases hr : r.ty with
  | domain m => rw [hr] at hty; cases hty
  | _ => rfl

theorem actDictWrite_taken {s : State} {n sub : Nat} {e : ItinEvent} {r : Row} (hidx : e.arg0 / 256 % 65536 = 0x4000) (hsub : e.arg0 % 256 = sub)
    (hrow : rowOf s.sys 0x4000 sub = .ok r) (hty : scalar r.ty = true) (hacc : r.acc = .rws) : actDictWrite s n e =
      if allowed r (e.arg1 % 256 ^ r.ty.width) then keepValue s 0x4000 sub (e.arg1 % 256 ^ r.ty.width) r else itinRecord (bump s 0x6801 5) n e := by
  have hbits : bits e.arg0 23 8 = 0x4000 ∧ bits e.arg0 7 0 = sub := by
    rw [bits, bits]
    omega
  have hobj : objectFor s .itinerary 0x4000 sub = .ok r := by
    rw [objectFor, hrow]
    rfl
  rw [actDictWrite]
  dsimp only
  rw [hbits.1, hbits.2, hobj]
  dsimp only
  rw [if_pos hty, writeObj_itinerary hrow hty hacc]
  cases allowed r (e.arg1 % 256 ^ r.ty.width)
  · rfl
  · rfl

/-! ### TASK_SIGNAL (R216, R349) -/

/-- What a signal to a slot keeps. -/
structure Signalled (s t : State) : Prop where
  plan : t.plan = s.plan
  ropes : t.ropes = s.ropes
  time : t.time = s.time
  objs : ∀ {a}, a < 7 → obj t 0x6801 a = obj s 0x6801 a

theorem Signalled.trans {s t u : State} (h : Signalled s t) (h' : Signalled t u) : Signalled s u :=
  ⟨h'.plan.trans h.plan, h'.ropes.trans h.ropes, h'.time.trans h.time, fun ha => (h'.objs ha).trans (h.objs ha)⟩

theorem bumpBy_signalled (s : State) {c a : Nat} (n : Nat) (hc : c < 16) (ha : a < 256) : Signalled s (bumpBy s (0x4050 + c) a n) :=
  ⟨rfl, rfl, rfl, fun hb => obj_putObj_ne s _ ha (by omega) (.inl (by omega))⟩

theorem readySlot_signalled (s : State) {c : Nat} (hc : c < 16) (n reason : Nat) : Signalled s (readySlot s c n reason) := by
  obtain ⟨x, hx⟩ : ∃ x : Slot, x = { slot s c n with state := .ready, reason := reason, rope := none, due := none, timedOut := none } := ⟨_, rfl⟩
  obtain ⟨v, hv⟩ : ∃ v, v = modCluster (setSlot s c n x) c (fun y => { y with ready := readyInsert (setSlot s c n x) c n (y.ready.filter (· != n)) }) := ⟨_, rfl⟩
  have hready : readySlot s c n reason = trace v c 2 n x 0xFF reason := by rw [hv, hx]; rfl
  have hstart : Signalled s v := by
    rw [hv]
    exact ⟨rfl, rfl, rfl, fun _ => rfl⟩
  have hwritten := trace_written v c 2 n x 0xFF reason
  rw [hready]
  refine hstart.trans ⟨?_, ?_, ?_, fun ha => ?_⟩
  · rw [hwritten.rest]
  · rw [hwritten.rest]
  · rw [hwritten.rest]
  · exact trace_objs v c 2 n x 0xFF reason (by omega) (by omega) (by omega) (.inl (by decide))

theorem signalSlot_signalled (s : State) {c : Nat} (hc : c < 16) (n k : Nat) : Signalled s (signalSlot s c n k) := by
  have hstart : Signalled s (if (slot s c n).counter < k then bump s (0x4050 + c) 0x0C else s) := by
    split
    · exact bumpBy_signalled s 1 hc (by decide)
    · exact ⟨rfl, rfl, rfl, fun _ => rfl⟩
  have hset (u : State) (x : Slot) : Signalled u (setSlot u c n x) := ⟨rfl, rfl, rfl, fun _ => rfl⟩
  unfold signalSlot
  extract_lets x v y w
  have hw : Signalled s w := hstart.trans (hset v y)
  split
  · exact hw.trans (readySlot_signalled w hc n 0)
  · split
    · exact (hw.trans (hset w _)).trans (bumpBy_signalled _ _ hc (by decide))
    · exact hw

/-! ### PLAN_APPLY (R353) -/

/-- What a section of a plan leaves. -/
structure Planned (s t : State) : Prop where
  time : t.time = s.time
  ropes : t.ropes = s.ropes
  hbm : t.hbm = s.hbm

theorem Planned.refl (s : State) : Planned s s := ⟨rfl, rfl, rfl⟩

theorem Planned.trans {s t u : State} (h : Planned s t) (h' : Planned t u) : Planned s u :=
  ⟨h'.time.trans h.time, h'.ropes.trans h.ropes, h'.hbm.trans h.hbm⟩

theorem foldl_planned {α : Type} {f : State → α → State} (hf : ∀ s x, Planned s (f s x)) (l : List α) (s : State) : Planned s (l.foldl f s) := by
  induction l generalizing s with
  | nil => exact .refl s
  | cons x l ih => exact (hf s x).trans (ih (f s x))

theorem applyWred_planned (s : State) (x : Image) (a c : Nat) : Planned s (applyWred s x a c) := by
  obtain ⟨v, hv⟩ : ∃ v, v = putObj (putObj s (0x5810 + c) 1 (fieldsOf (0x5810 + c) 1 (imAt x a 1))) (0x5810 + c) 2 (imAt x (a + 1) 1) := ⟨_, rfl⟩
  have hstart : Planned s v := by
    rw [hv]
    exact ⟨rfl, rfl, rfl⟩
  rw [applyWred]
  dsimp only
  rw [← hv]
  refine hstart.trans (foldl_planned (fun u j => ?_) _ v)
  exact ⟨rfl, rfl, rfl⟩

theorem loadCalendar_planned (s : State) (l : List CalEntry) : Planned s (loadCalendar s l) := by
  obtain ⟨v, hv⟩ : ∃ v, v = calSync { s with tm := { s.tm with calendar := l } } := ⟨_, rfl⟩
  have hstart : Planned s v := by
    rw [hv]
    exact ⟨rfl, rfl, rfl⟩
  rw [loadCalendar]
  dsimp only
  rw [← hv]
  split
  · exact hstart
  · refine hstart.trans (foldl_planned (fun u n => ?_) _ v)
    split
    · exact ⟨rfl, rfl, rfl⟩
    · exact .refl u

theorem storeSection_planned (s : State) (x : Image) (c : Sect) : Planned s (storeSection s x c) := ⟨rfl, rfl, rfl⟩

theorem storeLayout_planned (s : State) (x : Image) (a : Nat) : Planned s (storeLayout s x a) := by
  have hfold := foldl_planned (f := fun s i => putStored s 0x5000 (i + 1) (imAt x (a + 8 * i) 8)) (fun _ _ => ⟨rfl, rfl, rfl⟩) (List.range 8) s
  rw [storeLayout]
  exact hfold.trans ⟨rfl, rfl, rfl⟩

theorem applySection_planned (s : State) (x : Image) (c : Sect) : Planned s (applySection s x c) := by
  rw [applySection]
  dsimp only
  split
  · exact storeSection_planned s x c
  · exact (storeSection_planned s x c).trans (storeLayout_planned _ x _)
  · exact ⟨rfl, rfl, rfl⟩
  · exact ⟨rfl, rfl, rfl⟩
  · exact foldl_planned (fun u i => applyWred_planned u x _ i) _ s
  · have hput : Planned s (putObj s 0x5821 1 (imAt x c.at_ 8)) := ⟨rfl, rfl, rfl⟩
    exact hput.trans (loadCalendar_planned _ _)
  · exact ⟨rfl, rfl, rfl⟩

theorem exec_planApply {s : State} (hs : Served s 0x6810) : exec .planApply s = .next (answered (planGo s)) :=
  have hpage : page s.sys 0x6810 = some (6, [wo 1 (.domain 4194304), wo 2 .bool, ro 3 .u8, ro 4 .u32, ro 5 .u32, ro 6 .u64]) := by
    change pageUnits s.sys 0x6810 = _
    rw [pageUnits, if_neg (by simp)]
  put_command (sub := 2) hs hpage (by decide) (by decide) (by decide)

/-- A plan that holds is applied section by section, in order. -/
theorem planGo_valid {s : State} {x : Image} {l : List Sect} (hst : obj s 0x6810 3 ≠ 0xFF) (hx : closedImage s (key 0x6810 1) = some x)
    (hl : validPlan x = .ok l) {u : State} (hu : u = l.foldl (fun s c => applySection s x c) s) :
    planGo s = ackOk (putObj (putObj (putObj u 0x6810 3 0) 0x6810 5 (imAt x 16 4)) 0x6810 6 (ft u)) := by
  rw [planGo, if_neg hst, hx]
  dsimp only
  rw [hl, hu]

theorem planGo_invalid {s : State} {x : Image} {a : Nat} (hst : obj s 0x6810 3 ≠ 0xFF) (hx : closedImage s (key 0x6810 1) = some x)
    (ha : validPlan x = .error a) : planGo s = ackOk (putObj (putObj s 0x6810 3 1) 0x6810 4 a) := by
  rw [planGo, if_neg hst, hx]
  dsimp only
  rw [ha]

theorem planGo_none {s : State} (hx : closedImage s (key 0x6810 1) = none) : planGo s = (s, abState, 0) := by
  rw [planGo, hx]
  split <;> rfl

/-- Settles O38: an event that is skipped, written, signalled or marked, and PLAN_APPLY. -/
theorem itineraryEventsFire : Obligations.ItineraryEventsFire := by
  refine ⟨fun s e i n hi hnext => ?_, fun s e => ?_, fun s hup => ⟨fun k hk => ?_, fun hk hx => ?_, fun x hk hx hst => ⟨fun a ha => ?_, fun l hl => ?_⟩⟩⟩
  · intro u hskip
    have hexec : exec i s = fireEvent s n := by
      simp only [List.mem_cons, List.not_mem_nil, or_false, Prod.mk.injEq] at hi
      rcases hi with ⟨rfl, rfl⟩ | ⟨rfl, rfl⟩ | ⟨rfl, rfl⟩
      · rfl
      · rfl
      · rfl
    obtain ⟨⟨f, c, hrest⟩, hobjs⟩ := eventDue_waited s e
    obtain ⟨y, hy⟩ : ∃ y, y = eventDue s e := ⟨_, rfl⟩
    rw [fireEvent_due hnext, if_pos hskip, ← hy] at hexec
    rw [← hy] at hrest hobjs
    obtain ⟨hrec, hcount, -⟩ := countedRecord (w := y) (i := 0x6801) (a := 4) (by decide) (by decide) 9 3 1 (toLE 2 s.plan.next ++ toLE 1 e.typ)
    refine ⟨_, hexec, ?_, ?_, ?_, ?_, ?_, ?_⟩
    · rw [itinRecord, hrec, hrest]
    · rw [itinRecord, hrec, hrest]
    · rw [itinRecord, hrec, hrest]
    · rw [itinRecord, hrec, hrest]
    · rw [itinRecord, hrec, hrest]
    · rw [itinRecord, hcount, hobjs (by decide) (by decide) (by decide)]
  · intro u hskip
    obtain ⟨⟨f, c', hrest⟩, hobjs⟩ := eventDue_waited s e
    obtain ⟨y, hy⟩ : ∃ y, y = eventDue s e := ⟨_, rfl⟩
    rw [← hy] at hrest hobjs
    obtain ⟨z, hz⟩ : ∃ z, z = bump y 0x6801 3 := ⟨_, rfl⟩
    have hzrest : z = { s with free := f, time := u.time, obj := z.obj, cairn := c', plan := { s.plan with next := s.plan.next + 1 } } := by
      rw [hz, hrest]
      rfl
    have hz3 : obj z 0x6801 3 = (obj s 0x6801 3 + 1) % 2 ^ 64 := by
      rw [hz, obj_bump_same, hobjs (by decide) (by decide) (by decide)]
    have hzobj {i a : Nat} (ha : a < 256) (h6 : i ≠ 0x6800) (h7 : i ≠ 0x7800) (h : 0x6801 ≠ i ∨ 3 ≠ a) : obj z i a = obj s i a := by
      rw [hz, obj_bump_ne _ (by decide) ha h, hobjs ha h6 h7]
    have hfire {n : Nat} (hnext : nextEvent s n = some e) : fireEvent s n = .next (act z s.plan.next e e.ft) := by
      rw [fireEvent_due hnext, if_neg (by rw [hskip]; decide), hz, hy]
    refine ⟨fun sub r hnext hidx hsub hrow hty hacc => ?_, fun hnext => ?_, fun hnext => ?_⟩
    · intro v
      have hzrow : rowOf z.sys 0x4000 sub = .ok r := by rw [hzrest]; exact hrow
      have hlow : sub < 256 := by omega
      have hexec : exec .dictWrite s = .next (actDictWrite z s.plan.next e) := by
        change fireEvent s 2 = _
        rw [hfire hnext, act, nextEvent_typ hnext]
        rfl
      rw [actDictWrite_taken hidx hsub hzrow hty hacc] at hexec
      refine ⟨fun hall => ?_, fun hall => ?_⟩
      · rw [if_pos hall] at hexec
        have hkept : keepValue z 0x4000 sub v r = storeLater (putObj z 0x4000 sub v) 0x4000 sub v := if_pos hacc
        refine ⟨_, hexec, ?_, obj_keepValue _ _ _ _ _, ?_, ?_⟩
        · change (keepValue z 0x4000 sub v r).plan.next = _
          rw [hkept, hzrest]
          rfl
        · change (keepValue z 0x4000 sub v r).time = _
          rw [hkept, hzrest]
          rfl
        · rw [← hz3]
          exact getO_keepValue_ne z _ _ _ r (by rw [ne_eq, key_eq (by decide) hlow]; omega)
      · rw [if_neg (by rw [hall]; decide)] at hexec
        obtain ⟨hrec, hcount, hother⟩ := countedRecord (w := z) (i := 0x6801) (a := 5) (by decide) (by decide) 9 3 1 (toLE 2 s.plan.next ++ toLE 1 e.typ)
        refine ⟨_, hexec, ?_, ?_, ?_⟩
        · rw [itinRecord, hrec, hzrest]
        · rw [itinRecord, hother hlow (by decide) (.inl (by decide)), hzobj hlow (by decide) (by decide) (.inl (by decide))]
        · rw [itinRecord, hcount, hzobj (by decide) (by decide) (by decide) (.inr (by decide))]
    · intro c k y' low
      have hbits : bits e.arg0 19 16 = c ∧ bits e.arg0 11 0 = k := by
        rw [bits, bits]
        exact ⟨by omega, by omega⟩
      have hc : c < 16 := Nat.mod_lt _ (by decide)
      have hexec : exec .taskSignal s = .next (actSignal z s.plan.next e) := by
        change fireEvent s 3 = _
        rw [hfire hnext, act, nextEvent_typ hnext]
        rfl
      have hclusters : clusters z = clusters s := by rw [hzrest]; rfl
      have hslot : slot z c k = y' := by rw [hzrest]; rfl
      rw [actSignal] at hexec
      rw [hbits.1, hbits.2, hclusters, hslot] at hexec
      obtain ⟨hzplan, hzropes, hztime, hzclusters, hzft⟩ : z.plan.next = s.plan.next + 1 ∧ z.ropes = s.ropes ∧ z.time = u.time ∧
          z.clusters = s.clusters ∧ ft z = ft u := by
        rw [hzrest]
        exact ⟨rfl, rfl, rfl, rfl, rfl⟩
      by_cases hhere : clusters s ≤ c
      · rw [if_pos hhere] at hexec
        obtain ⟨hrec, hcount, hother⟩ := countedRecord (w := z) (i := 0x6801) (a := 5) (by decide) (by decide) 9 3 1 (toLE 2 s.plan.next ++ toLE 1 e.typ)
        refine ⟨_, hexec, ?_, ?_, ?_, ?_, fun _ => ⟨?_, ?_⟩, fun h => absurd h (Nat.not_lt.mpr hhere), fun h => absurd h (Nat.not_lt.mpr hhere)⟩
        · rw [itinRecord, hrec]
          exact hzplan
        · rw [itinRecord, hrec]
          exact hzropes
        · rw [itinRecord, hrec]
          exact hztime
        · rw [itinRecord, hother (by decide) (by decide) (.inr (by decide)), hz3]
        · rw [itinRecord, hrec]
          exact hzclusters
        · rw [itinRecord, hcount, hzobj (by decide) (by decide) (by decide) (.inr (by decide))]
      · rw [if_neg hhere] at hexec
        by_cases hfree : y'.state = .free
        · rw [if_pos hfree] at hexec
          refine ⟨_, hexec, hzplan, hzropes, hztime, ?_, fun h => absurd h hhere, fun _ _ => ⟨hzclusters, ?_⟩, fun _ h => absurd hfree h⟩
          · rw [obj_bump_ne _ (by decide) (by decide) (.inl (by omega)), hz3]
          · rw [obj_bump_same, hzobj (by decide) (by omega) (by omega) (.inl (by omega))]
        · rw [if_neg hfree] at hexec
          obtain ⟨hplan, hropes, htime, hobjs⟩ := signalSlot_signalled z hc k (e.arg1 % 65536)
          refine ⟨_, hexec, ?_, hropes.trans hzropes, htime.trans hztime, (hobjs (by decide)).trans hz3, fun h => absurd h hhere,
            fun _ h => absurd h hfree, fun _ _ => ?_⟩
          · rw [hplan]
            exact hzplan
          · have hsignal := slot_signalSlot_same (s := z) (c := c) (n := k) (k := e.arg1 % 65536) (by rw [hslot]; exact hfree)
            rw [hslot, hzft] at hsignal
            obtain ⟨hwait, hready, hrest'⟩ := hsignal
            have hzero : y'.counter - e.arg1 % 65536 = 0 ↔ low := Nat.sub_eq_zero_iff_le
            split
            · next h => exact hwait h.1 (hzero.mpr h.2)
            · next hnot =>
              split
              · next h => exact hready h.1 (hzero.mpr h.2.1) h.2.2
              · next hnot' =>
                exact hrest' (fun h h0 => hnot ⟨h, hzero.mp h0⟩) (fun h h0 h1 => hnot' ⟨h, hzero.mp h0, h1⟩)
    · have hexec : exec .markEvent s = .next (actMark z s.plan.next e) := by
        change fireEvent s 4 = _
        rw [hfire hnext, act, nextEvent_typ hnext]
        rfl
      have hlog := cairn_logged z 9 4 0 (toLE 8 e.arg1)
      refine ⟨_, hexec, ?_, ?_, ?_, ?_, ?_⟩
      · rw [actMark, hlog.rest, hzrest]
      · rw [actMark, hlog.rest, hzrest]
      · rw [actMark, hlog.rest, hzrest]
      · rw [actMark, hlog.rest, hzrest]
      · rw [actMark, hlog.obj (by decide) (.inl (by decide)), hz3]
  · have herr : objectFor s .can 0x6810 2 = .error (0x0D, k) := by
      rw [objectFor]
      change (match withheld s 0x6810 with | some d => _ | none => _) = _
      rw [hk]
      rfl
    have hexec : exec .planApply s = .next (answered (s, 0x0D, k)) := by
      change (if canUp s then Host.Outcome.next (answered (writeObj s .can 0x6810 2 [1])) else _) = _
      rw [if_pos hup, writeObj_error herr]
    rw [answered_abort _ (by decide)] at hexec
    exact ⟨_, hexec, rfl, rfl, obj_bump_same _ _ _⟩
  · have hexec := exec_planApply ⟨hup, hk⟩
    rw [planGo_none hx, answered_abort _ (by decide)] at hexec
    exact ⟨_, hexec, rfl, rfl, rfl⟩
  · have hexec := exec_planApply ⟨hup, hk⟩
    rw [planGo_invalid hst hx ha, answered_ok] at hexec
    refine ⟨_, hexec, rfl, ?_, ?_, rfl, rfl, rfl⟩
    · exact (obj_putObj_ne _ _ (by decide) (by decide) (.inr (by decide))).trans (obj_putObj_same _ _ _ _)
    · exact obj_putObj_same _ _ _ _
  · have hexec := exec_planApply ⟨hup, hk⟩
    obtain ⟨u, hu⟩ : ∃ u, u = l.foldl (fun s c => applySection s x c) s := ⟨_, rfl⟩
    have hplanned : Planned s u := by
      rw [hu]
      exact foldl_planned (fun w c => applySection_planned w x c) l s
    obtain ⟨p, hp⟩ : ∃ p, p = putObj (putObj (putObj u 0x6810 3 0) 0x6810 5 (imAt x 16 4)) 0x6810 6 (ft u) := ⟨_, rfl⟩
    rw [planGo_valid hst hx hl hu, answered_ok, ← hp] at hexec
    obtain ⟨htime, hropes, hhbm⟩ := hplanned
    have hft : ft u = ft s := by rw [ft, ft, ftAt, ftAt, htime]
    refine ⟨_, hexec, rfl, ?_, ?_, ?_, by rw [hp]; exact hropes, by rw [hp]; exact hhbm, fun c hc htyp => ?_, fun c hc htyp => ?_⟩
    · change obj p 0x6810 3 = _
      rw [hp, obj_putObj_ne _ _ (by decide) (by decide) (.inr (by decide)), obj_putObj_ne _ _ (by decide) (by decide) (.inr (by decide)), obj_putObj_same]
    · change obj p 0x6810 5 = _
      rw [hp, obj_putObj_ne _ _ (by decide) (by decide) (.inr (by decide)), obj_putObj_same]
    · change obj p 0x6810 6 = _
      rw [hp, obj_putObj_same, hft]
    · have happly : u = putObj s 0x4000 1 (imAt x c.at_ 2) := by
        rw [hu, hc, List.foldl_cons, List.foldl_nil, applySection, htyp]
        rfl
      change obj p 0x4000 1 = _
      rw [hp, obj_putObj_ne _ _ (by decide) (by decide) (.inl (by decide)), obj_putObj_ne _ _ (by decide) (by decide) (.inl (by decide)),
        obj_putObj_ne _ _ (by decide) (by decide) (.inl (by decide)), happly, obj_putObj_same]
    · have happly : u = loadItinerary s ((List.range (c.len / 32)).map (fun i => eventAt x (c.at_ + 32 * i))) := by
        rw [hu, hc, List.foldl_cons, List.foldl_nil, applySection, htyp]
        rfl
      change p.plan.next = 0 ∧ p.plan.events = _
      rw [hp]
      change u.plan.next = 0 ∧ u.plan.events = _
      rw [happly]
      exact ⟨rfl, rfl⟩

end Sys2Proof.Proofs

/-! An in-band WRITE whose answer counts in the object that it wrote (R19, R369). -/

namespace Sys2Proof.Proofs

open Sys2Proof.Machine Sys2Proof.Claim

/-- A WRITE of 8 bytes of 0 to object 0x8010:1C, which came by a port number that no device has: 0x2000 + 0x6010 is 0x8010, and
0x1C is PartnerLoss of a port's page. -/
def farRequest : MgmtReq := { hdr := { sub := 1, addr := 0x1C8010 }, payload := List.replicate 8 0, lp := 0x6010 }

/-- The state in which the agent serves it; the partner of that port is lost. -/
def farAgent : State := { State.reset with
  sys := { phase := .run }
  ports := [(0x6010, { partner := 2 })]
  dict := { mgmtQ := [farRequest] } }

/-- The row of the object. -/
def farRow : Row := rws 1 .u64 0 .any 64

/-- The RESPONSE that the lost partner never takes is counted over the value written. -/
theorem obj_mgmtWrite_farAgent : (match exec .mgmtWrite farAgent with
    | .next t => obj t 0x8010 0x1C != 0
    | _ => false) = true := by decide

/-- Refutes O47: the port of a request is any number, and PartnerLoss of port 0x6010 is the object 0x8010:1C that it writes. -/
theorem not_inBandRequestsAreAnswered : ¬Obligations.InBandRequestsAreAnswered := by
  unfold Obligations.InBandRequestsAreAnswered
  intro h
  obtain ⟨-, -, -, hserved⟩ := h farAgent farRequest [] rfl
  obtain ⟨-, hrow⟩ := hserved (by decide) (by decide)
  obtain ⟨-, hwrite, -⟩ := hrow farRow rfl
  have hwritable : Writable farRow := ⟨.inr rfl, nofun⟩
  have hplain : Plain (mIdx farRequest) := by
    unfold Plain
    decide
  obtain ⟨t, hexec, -, -, hvalue, -⟩ := hwrite hwritable hplain rfl (by decide) rfl
  have hcounted := obj_mgmtWrite_farAgent
  rw [hexec] at hcounted
  exact bne_iff_ne.mp hcounted hvalue

end Sys2Proof.Proofs

/-! A retransmission that comes when the cells have run out (R38, R288). -/

namespace Sys2Proof.Proofs

open Sys2Proof.Machine Sys2Proof.Claim

/-- What the device sent to endpoint 5 and was not acknowledged. -/
def lateSent : Sent := { psn := 0, out := { hdr := {}, payload := [], lp := 0 } }

/-- Its context, whose timer expires 1,000 units after the start of local time. -/
def lateCtx : TxCtx := { next := 1, sent := [lateSent], due := some 1000 }

/-- The dp-cycle that runs began with one free cell; now the cells `used` are in use. -/
def fullState (used : List Nat) : State := { State.reset with
  sys := { phase := .run }
  xport := { tx := [(5, lateCtx)] }
  trav := { frees := { cyc := 0, atStart := 1 }, usedCells := used } }

/-- The context once the timer has sent its PSN again. -/
def lateAgain (s : State) : TxCtx :=
  { lateCtx with sent := [{ lateSent with retx := true, retxAt := some s.time.now }], due := some (s.time.now + 2 * rto s), lastEvent := s.time.now }

/-- The state at the deadline. -/
def fullLater (used : List Nat) : State := setTxAt (advanceTo (fullState used) 1000) 5 (lateAgain (advanceTo (fullState used) 1000))

theorem cyc_fullState (used : List Nat) : cyc (fullState used) = 0 ∧ cyc (fullLater used) = 16 := by
  obtain ⟨h1, h2, h3, h4⟩ : (fullState used).time.now = 0 ∧ (fullState used).time.cycAt = 0 ∧ (fullState used).time.cycBase = 0 ∧ dpU (fullState used) = 60 :=
    ⟨rfl, rfl, rfl, rfl⟩
  obtain ⟨g1, g2, g3, g4⟩ : (fullLater used).time.now = 1000 ∧ (fullLater used).time.cycAt = 0 ∧ (fullLater used).time.cycBase = 0 ∧ dpU (fullLater used) = 60 :=
    ⟨rfl, rfl, rfl, rfl⟩
  rw [cyc, cyc, h1, h2, h3, h4, g1, g2, g3, g4]
  decide

theorem cellsAtStart_fullState (used : List Nat) : cellsAtStart (fullState used) = 1 := by
  rw [cellsAtStart, cycFrees, (cyc_fullState used).1]
  rfl

theorem cellsAtStart_fullLater {used : List Nat} (h : used.length = 786432) : cellsAtStart (fullLater used) = 0 := by
  have hcyc : ¬(fullLater used).trav.frees.cyc = cyc (fullLater used) := by
    rw [(cyc_fullState used).2]
    exact nofun
  rw [cellsAtStart, cycFrees, if_neg hcyc]
  change 786432 - used.length = 0
  rw [h]

/-- An output for which no cell is free is discarded. -/
theorem lodge_full {s : State} {o : Output} (hcells : cellsAtStart s = 0) (hqueues : s.tm.queues = []) (hctl : o.ctl = false)
    (hpartner : (port s o.lp).partner ≠ 2) (hcredited : o.credited = false) (hspill : maySpill s (withSettings s o) = false) :
    lodge s o = dropOutput (bumpTen s (queueTid (withSettings s o)) 0x71) (withSettings s o) := by
  have hnone (lp cls tid sp : Nat) : queueOf s lp cls tid sp = none := by rw [queueOf, hqueues]; rfl
  rw [lodge]
  dsimp only
  rw [if_neg (show ¬(withSettings s o).ctl = true by rw [withSettings, hctl]; decide), if_neg (show ¬(port s (withSettings s o).lp).partner = 2 from hpartner),
    hnone, hcells]
  refine if_pos ?_
  rw [hspill, show (withSettings s o).credited = false from hcredited]
  simp

/-- The copy that goes again. -/
def lateOutput (s : State) : Output :=
  { lateSent.out with hdr := sentHdr (lateAgain s) lateSent true, frame := none, orig := false, counted := false, owner := true
                      head := noHead, cells := [], req := none, host := none, pair := none, reads := none }

theorem lodge_fullLater {used : List Nat} (h : used.length = 786432) (s : State) :
    lodge (fullLater used) (lateOutput s) = bumpTen (fullLater used) 0 0x71 := by
  have hspill : maySpill (fullLater used) (withSettings (fullLater used) (lateOutput s)) = false := by
    have hoff : obj (fullLater used) 0x5800 6 = 0 := rfl
    rw [maySpill, hoff, bit, Nat.zero_div, decide_eq_false (by decide), Bool.false_and]
  have hpartner : (port (fullLater used) (lateOutput s).lp).partner ≠ 2 := by
    change 0 ≠ 2
    decide
  rw [lodge_full (cellsAtStart_fullLater h) rfl rfl hpartner rfl hspill]
  rfl

/-- The retransmission finds no room. -/
theorem exec_fullState {used : List Nat} (h : used.length = 786432) :
    exec (.retransmitTimeout 5) (fullState used) = .next (finishScans (bumpTen (fullLater used) 0 0x71)) := by
  have hctx : firstCtx (fun c => if c.sent.isEmpty then none else c.due) 5 (fullState used).xport.tx = some (5, lateCtx, 1000) := rfl
  rw [← lodge_fullLater h (advanceTo (fullState used) 1000)]
  change execRetransmitTimeout 5 (fullState used) = _
  rw [execRetransmitTimeout]
  refine (live_on rfl _).trans ?_
  rw [hctx, fullLater]
  dsimp only
  obtain ⟨u, hu⟩ : ∃ u, u = advanceTo (fullState used) 1000 := ⟨_, rfl⟩
  rw [← hu]
  rfl

/-- Refutes O33: the room for a retransmission is that of its deadline, at which every cell may be in use. -/
theorem not_transportTimersActAtTheirDeadlines : ¬Obligations.TransportTimersActAtTheirDeadlines := by
  unfold Obligations.TransportTimersActAtTheirDeadlines
  rintro ⟨-, h, -⟩
  obtain ⟨used, hused⟩ : ∃ l : List Nat, l.length = 786432 := ⟨List.replicate 786432 0, List.length_replicate⟩
  obtain ⟨hfirst, -⟩ := h (fullState used) 5 5 lateCtx 1000 lateSent [] rfl rfl rfl rfl
  obtain ⟨t, hexec, -, -, -, hsent⟩ := hfirst rfl
  have hroom : Roomy (fullState used) 0 0 0 := ⟨nofun, by rw [cellsAtStart_fullState]; decide, rfl, by change 0 ≠ 2; decide⟩
  obtain ⟨q, hq, -⟩ := hsent rfl hroom
  rw [exec_fullState hused] at hexec
  obtain rfl := Host.Outcome.next.inj hexec
  have hnone : (finishScans (bumpTen (fullLater used) 0 0x71)).tm.queues = [] := rfl
  rw [hnone] at hq
  cases hq

end Sys2Proof.Proofs

/-! What a logical port sends next, the calendar and the cell store (R282, R294, R295, R305 to R311). -/

namespace Sys2Proof.Proofs

open Sys2Proof.Machine Sys2Proof.Claim

/-! ### The choice of a queue (R305, R307) -/

theorem mem_of_nextQueue {x : Sched} {qs : List Queue} {cls tid : Nat} {q : Queue} (h : nextQueue x qs cls tid = some q) : q ∈ qs := by
  unfold nextQueue at h
  extract_lets mine at h
  split at h
  · cases h
  · exact (List.mem_filter.mp (List.mem_of_find?_eq_some h)).1

theorem mem_of_pickTenant {s : State} {qs : List Queue} {cls n : Nat} {x y : Sched} {q : Queue}
    (h : pickTenant s qs cls n x = some (y, q)) : q ∈ qs := by
  induction n generalizing x with
  | zero => cases h
  | succ n ih =>
    unfold pickTenant at h
    split at h
    · cases h
    · split at h
      · cases h
      · next hq =>
        extract_lets fresh k d y' at h
        split at h
        · cases h
          exact mem_of_nextQueue hq
        · exact ih h

/-- A queue that may be sent from now: one of the port, of the class, with a head that is ready. -/
theorem chooseIn_ready {s : State} {lp cls : Nat} {x y : Sched} {q : Queue} (h : chooseIn s lp cls x = some (y, q)) :
    q ∈ s.tm.queues ∧ q.lp = lp ∧ q.cls = cls ∧ headReady s q = true := by
  obtain ⟨hmem, hready⟩ := List.mem_filter.mp (mem_of_pickTenant h)
  simp only [Bool.and_eq_true, beq_iff_eq] at hready
  obtain ⟨⟨hlp, hcls⟩, hhead⟩ := hready
  exact ⟨hmem, hlp, hcls, hhead⟩

theorem pickClass_ready {s : State} {lp n : Nat} {x y : Sched} {q : Queue} (h : pickClass s lp n x = some (y, q)) :
    q ∈ s.tm.queues ∧ q.lp = lp ∧ headReady s q = true := by
  induction n generalizing x with
  | zero => cases h
  | succ n ih =>
    unfold pickClass at h
    extract_lets up at h
    split at h
    · cases h
    · extract_lets c fresh d at h
      split at h
      · cases h
      · next hin =>
        split at h
        · cases h
          obtain ⟨hmem, hlp, -, hhead⟩ := chooseIn_ready hin
          exact ⟨hmem, hlp, hhead⟩
        · exact ih h

/-- The chosen queue, and the classes 7 and 6 before the rest. -/
theorem chooseQueue_ready {s : State} {lp : Nat} {x : Sched} {q : Queue} (h : chooseQueue s lp = some (x, q)) :
    q ∈ s.tm.queues ∧ q.lp = lp ∧ headReady s q = true ∧ ((chooseIn s lp 7 (schedOf s lp)).isSome = true → q.cls = 7) ∧
    (chooseIn s lp 7 (schedOf s lp) = none → (chooseIn s lp 6 (schedOf s lp)).isSome = true → q.cls = 6) := by
  unfold chooseQueue at h
  dsimp only at h
  split at h
  · next r h7 =>
    cases h
    obtain ⟨hmem, hlp, hcls, hhead⟩ := chooseIn_ready h7
    exact ⟨hmem, hlp, hhead, fun _ => hcls, fun hn => absurd (h7.symm.trans hn) nofun⟩
  · next h7 =>
    split at h
    · next r h6 =>
      cases h
      obtain ⟨hmem, hlp, hcls, hhead⟩ := chooseIn_ready h6
      exact ⟨hmem, hlp, hhead, fun hs => (by rw [h7] at hs; cases hs), fun _ _ => hcls⟩
    · next h6 =>
      obtain ⟨hmem, hlp, hhead⟩ := pickClass_ready h
      exact ⟨hmem, hlp, hhead, fun hs => (by rw [h7] at hs; cases hs), fun _ hs => (by rw [h6] at hs; cases hs)⟩

/-! ### A frame leaves (R286, R287, R305) -/

theorem finishScans_nil {s : State} (h : s.scree.scans = []) : finishScans s = s := by rw [finishScans, h]; rfl

theorem retire_only (s : State) (v : BitVec 16) : ∃ col', retire s v = { s with col := col' } := ⟨_, rfl⟩

theorem pitonRelease_only (s : State) (owner : Bool) (pool idx : Nat) :
    ∃ obj' trav', pitonRelease s owner pool idx = { s with obj := obj', trav := trav' } := by
  unfold pitonRelease
  split
  · exact ⟨_, _, rfl⟩
  · exact ⟨_, _, rfl⟩

theorem endOutput_only (s : State) (o : Output) : ∃ col' trav' pwr' obj',
    endOutput s o = { s with col := col', trav := trav', pwr := pwr', obj := obj' } := by
  have hret : ∃ col', (if o.counted then retire s o.hdr.rsver else s) = { s with col := col' } := by
    split
    · exact retire_only s _
    · exact ⟨_, rfl⟩
  obtain ⟨col', hret⟩ := hret
  obtain ⟨trav', pwr', hfree⟩ := freeStores_only { s with col := col' } o
  unfold endOutput
  rw [hret, hfree]
  dsimp only
  split
  · obtain ⟨obj', trav'', hp⟩ := pitonRelease_only { s with col := col', trav := trav', pwr := pwr' } false _ _
    rw [hp]
    exact ⟨_, _, _, _, rfl⟩
  · exact ⟨_, _, _, _, rfl⟩

/-- What a port keeps where only the cells it has sent are counted. -/
def sentFrom (s : State) (o : Output) : Port :=
  let p := port s o.lp
  let c := o.hdr.cls.toNat
  { p with cellsSent := lset p.cellsSent c (lget p.cellsSent c 0 + BitVec.ofNat 32 (outCells o)) }

theorem countCells_only (s : State) (o : Output) : ∃ ports', countCells s o = { s with ports := ports' } ∧
    (mget ports' o.lp {}).dstMac = (port s o.lp).dstMac ∧ (mget ports' o.lp {}).dstIp6 = (port s o.lp).dstIp6 := by
  unfold countCells
  dsimp only
  split
  · exact ⟨_, rfl, rfl, rfl⟩
  · refine ⟨mset s.ports o.lp (sentFrom s o), rfl, ?_, ?_⟩ <;> rw [mget_mset_same] <;> rfl

/-- The bytes of a frame hang on the port's addresses and settings, not on the cells it has sent. -/
theorem wireBytes_congr {s t : State} {o p : Output} (h : Sxt) (hobj : t.obj = s.obj) (hsys : t.sys = s.sys) (hlatched : t.latched = s.latched)
    (hmac : (port t o.lp).dstMac = (port s o.lp).dstMac) (hip : (port t o.lp).dstIp6 = (port s o.lp).dstIp6)
    (hp : ∃ k, p = { o with hdr := k }) : wireBytes t p h = wireBytes s o h := by
  have hforce (i a : Nat) : inForce t i a = inForce s i a := by rw [inForce, inForce, hlatched, hsys]
  obtain ⟨k, rfl⟩ := hp
  unfold wireBytes lpo
  dsimp only at hmac hip ⊢
  rw [hmac, hip, hforce, hforce, obj_congr hobj hsys]

theorem putOnWire_only (s : State) (o : Output) (h : Sxt) : ∃ obj' tm', putOnWire s o h =
    { s with obj := obj', tm := tm', out := .frame o.lp (wireBytes s o h) :: s.out } ∧ tm'.queues = s.tm.queues := by
  unfold putOnWire
  dsimp only
  split
  · exact ⟨_, _, rfl, rfl⟩
  · exact ⟨_, _, rfl, rfl⟩

/-- The header that goes on the wire: what the transport engine sends carries the CURRENT version. -/
def versioned (s : State) (o : Output) : Output :=
  if o.ctl || (o.orig && !o.counted && o.hdr.typ == 9) then { o with hdr := { o.hdr with rsver := s.col.ver.current } } else o

theorem versioned_same (s : State) (o : Output) : ∃ k, versioned s o = { o with hdr := k } := by
  unfold versioned
  split
  · exact ⟨_, rfl⟩
  · exact ⟨o.hdr, rfl⟩

theorem versioned_hdr (s : State) (o : Output) : (versioned s o).hdr.typ = o.hdr.typ ∧ (versioned s o).hdr.dst = o.hdr.dst ∧
    (versioned s o).hdr.src = o.hdr.src ∧ (versioned s o).orig = o.orig ∧ (versioned s o).req = o.req ∧ (versioned s o).lp = o.lp ∧
    (versioned s o).keepSrc = o.keepSrc := by
  unfold versioned
  split
  · exact ⟨rfl, rfl, rfl, rfl, rfl, rfl, rfl⟩
  · exact ⟨rfl, rfl, rfl, rfl, rfl, rfl, rfl⟩

theorem numbered_versioned (s : State) (o : Output) : numbered (versioned s o) = numbered o := by
  obtain ⟨htyp, -, -, horig, -⟩ := versioned_hdr s o
  rw [numbered, numbered, htyp, horig]

theorem sendOut_eq (s : State) (o : Output) : sendOut s o =
    (let e := originate s (versioned s o)
     let u := putOnWire (countCells e.1 (versioned s o)) (versioned s o) e.2
     if (versioned s o).orig && sequenced (versioned s o).hdr.typ then
       (if (versioned s o).counted then retire u (versioned s o).hdr.rsver else u)
     else endOutput u (versioned s o)) := rfl

/-- What the departure of a frame leaves: the frame on the wire; memory, ropes, time and queues as they were. -/
structure Departed (s t : State) (lp : Nat) (bs : List Byte) : Prop where
  ropes : t.ropes = s.ropes
  hbm : t.hbm = s.hbm
  time : t.time = s.time
  scans : t.scree = s.scree
  queues : t.tm.queues = s.tm.queues
  xport : t.xport = s.xport
  out : t.out = .frame lp bs :: s.out

theorem departed_endOutput {s t : State} {lp : Nat} {bs : List Byte} (h : Departed s t lp bs) (o : Output) : Departed s (endOutput t o) lp bs := by
  obtain ⟨col', trav', pwr', obj', e⟩ := endOutput_only t o
  rw [e]
  exact ⟨h.ropes, h.hbm, h.time, h.scans, h.queues, h.xport, h.out⟩

theorem departed_wire (s : State) (o p : Output) (h : Sxt) (hp : ∃ k, p = { o with hdr := k }) :
    Departed s (putOnWire (countCells s p) p h) o.lp (wireBytes s o h) := by
  have hlp : p.lp = o.lp := by obtain ⟨k, rfl⟩ := hp; rfl
  obtain ⟨ports', hcount, hmac, hip⟩ := countCells_only s p
  obtain ⟨obj', tm', hwire, hqueues⟩ := putOnWire_only { s with ports := ports' } p h
  rw [hlp] at hmac hip
  have hbytes : wireBytes { s with ports := ports' } p h = wireBytes s o h := wireBytes_congr h rfl rfl rfl hmac hip hp
  rw [hcount, hwire, hbytes, hlp]
  exact ⟨rfl, rfl, rfl, rfl, hqueues, rfl, rfl⟩

theorem sendOut_plain {s : State} {o : Output} (hn : numbered o = false) :
    Departed s (sendOut s o) o.lp (wireBytes s o (if o.ctl then { o.hdr with rsver := s.col.ver.current } else o.hdr)) := by
  have hhdr : (versioned s o).hdr = if o.ctl then { o.hdr with rsver := s.col.ver.current } else o.hdr := by
    unfold versioned
    cases hctl : o.ctl with
    | true => rfl
    | false =>
      have hnot : (o.orig && !o.counted && o.hdr.typ == 9) = false := by
        cases horig : o.orig with
        | false => rfl
        | true =>
          have hseq : sequenced o.hdr.typ = false := by rw [numbered, horig] at hn; exact hn
          have htyp : (o.hdr.typ == 9) = false := (Bool.or_eq_false_iff.mp hseq).2
          rw [htyp, Bool.and_false]
      rw [hnot]
      rfl
  have horig : originate s (versioned s o) = (s, (versioned s o).hdr) := by
    rw [originate, numbered_versioned, hn]
    rfl
  have hseq : ((versioned s o).orig && sequenced (versioned s o).hdr.typ) = false := (numbered_versioned s o).trans hn
  rw [sendOut_eq, horig, hseq, ← hhdr]
  exact departed_endOutput (departed_wire s o _ _ (versioned_same s o)) _

/-- The context that takes an output, and its next PSN. -/
theorem originate_numbered {s : State} {o : Output} (hn : numbered o = true) (hreq : o.req = none) :
    let k := ctxKey s (outSrc s o) o.hdr.dst
    let old := (txAt s k).getD {}
    ∃ n' c h, originate s o = (setTxAt { s with nextOut := n' } k c, h) ∧ c.next = old.next + 1 ∧
      c.sent.map (·.psn) = old.sent.map (·.psn) ++ [old.next] ∧ c.due.isSome = true := by
  intro k old
  have hdst : (outDst s o).getD 0 = o.hdr.dst := by rw [outDst, hreq]; rfl
  unfold originate
  rw [hn, hdst, hreq]
  dsimp only
  refine ⟨_, _, _, rfl, rfl, ?_, ?_⟩
  · rw [List.map_append]
    rfl
  · split
    · assumption
    · rfl

theorem sendOut_numbered {s : State} {o : Output} (hn : numbered o = true) (hreq : o.req = none) :
    let k := ctxKey s (outSrc s o) o.hdr.dst
    let old := (txAt s k).getD {}
    ∃ n' c bs, Departed (setTxAt { s with nextOut := n' } k c) (sendOut s o) o.lp bs ∧ c.next = old.next + 1 ∧
      c.sent.map (·.psn) = old.sent.map (·.psn) ++ [old.next] ∧ c.due.isSome = true := by
  obtain ⟨-, hdst, hsrc, -, hr, -, hkeep⟩ := versioned_hdr s o
  have houtSrc : outSrc s (versioned s o) = outSrc s o := by rw [outSrc, outSrc, hkeep, hr, hsrc]
  obtain ⟨n', c, h, horig, hnext, hpsn, hdue⟩ := originate_numbered (s := s) ((numbered_versioned s o).trans hn) (hr.trans hreq)
  rw [houtSrc, hdst] at horig hnext hpsn
  refine ⟨n', c, wireBytes (setTxAt { s with nextOut := n' } (ctxKey s (outSrc s o) o.hdr.dst) c) o h, ?_, hnext, hpsn, hdue⟩
  · have hseq : ((versioned s o).orig && sequenced (versioned s o).hdr.typ) = true := (numbered_versioned s o).trans hn
    rw [sendOut_eq, horig, hseq]
    have hwire := departed_wire (setTxAt { s with nextOut := n' } (ctxKey s (outSrc s o) o.hdr.dst) c) o _ h (versioned_same s o)
    dsimp only
    rw [if_pos rfl]
    split
    · exact ⟨hwire.ropes, hwire.hbm, hwire.time, hwire.scans, hwire.queues, hwire.xport, hwire.out⟩
    · exact hwire

/-! ### A port sends (R305, R308) -/

theorem depart_plain {s : State} {o : Output} (hpair : o.pair = none) (hreq : o.req = none) : depart s o = sendOut s o := by
  have h7 : stage7 s o = (s, some o) := by rw [stage7, hpair, hreq]
  have hscan : scanRsp o = none := by rw [scanRsp, hpair]
  rw [depart, h7]
  dsimp only
  rw [hscan]

/-- What stands in the queues once the head of `q` is taken. -/
def queuesAfter (s : State) (lp : Nat) (q : Queue) (rest : List Output) : List Queue :=
  (s.tm.queues.map (fun y => if y.is lp q.cls q.tid q.spread then { y with outs := rest } else y)).filter (fun y => !(y.outs.isEmpty && !y.spillMode))

theorem sendFrom_eq (s : State) (lp : Nat) (x : Sched) (q : Queue) (o : Output) (rest : List Output) : ∃ tm',
    tm'.queues = queuesAfter s lp q rest ∧ sendFrom s lp x q o rest =
      passTurns { depart { s with tm := tm' } o with pwr := { (depart { s with tm := tm' } o).pwr with
        idleSince := some (depart { s with tm := tm' } o).time.now } } lp := by
  exact ⟨_, rfl, rfl⟩

theorem passTurns_only (s : State) (lp : Nat) : ∃ x, passTurns s lp = setSched s lp x := ⟨_, rfl⟩

/-- What a port leaves that has sent a frame. -/
theorem sendFrom_departed {s v : State} {lp : Nat} {x : Sched} {q : Queue} {o : Output} {rest : List Output} {bs : List Byte} {tm' : TmSt}
    (hq : tm'.queues = queuesAfter s lp q rest)
    (heq : sendFrom s lp x q o rest = passTurns { depart { s with tm := tm' } o with pwr := { (depart { s with tm := tm' } o).pwr with
        idleSince := some (depart { s with tm := tm' } o).time.now } } lp)
    (hvr : v.ropes = s.ropes) (hvh : v.hbm = s.hbm) (hvt : v.time = s.time) (hvs : v.scree = s.scree) (hvq : v.tm = tm') (hvo : v.out = s.out)
    (hd : Departed v (depart { s with tm := tm' } o) o.lp bs) :
    let t := sendFrom s lp x q o rest
    t.ropes = s.ropes ∧ t.hbm = s.hbm ∧ t.time = s.time ∧ t.pwr.idleSince = some s.time.now ∧ t.tm.queues = queuesAfter s lp q rest ∧
      t.scree = s.scree ∧ t.xport = v.xport ∧ t.out = .frame o.lp bs :: s.out := by
  intro t
  obtain ⟨u, hu⟩ : ∃ u, u = depart { s with tm := tm' } o := ⟨_, rfl⟩
  rw [← hu] at heq hd
  obtain ⟨y, hpass⟩ := passTurns_only { u with pwr := { u.pwr with idleSince := some u.time.now } } lp
  have ht : t = setSched { u with pwr := { u.pwr with idleSince := some u.time.now } } lp y := heq.trans hpass
  rw [ht]
  refine ⟨hd.ropes.trans hvr, hd.hbm.trans hvh, hd.time.trans hvt, ?_, ?_, hd.scans.trans hvs, hd.xport, ?_⟩
  · exact congrArg (fun t : TimeSt => some t.now) (hd.time.trans hvt)
  · exact (hd.queues.trans (congrArg TmSt.queues hvq)).trans hq
  · exact hd.out.trans (congrArg _ hvo)

end Sys2Proof.Proofs

/-! What leaves a port, the calendar, the write stages and Piton, by their commands (R282, R294, R295, R305 to R311). -/

namespace Sys2Proof.Proofs

open Sys2Proof.Machine Sys2Proof.Claim

theorem shapeOf_congr {s t : State} (hobj : t.obj = s.obj) (hsys : t.sys = s.sys) (hnow : t.time.now = s.time.now) (hshape : t.tm.shape = s.tm.shape)
    (tid : Nat) : shapeOf t tid = shapeOf s tid := by
  simp only [shapeOf, ten, hshape, hnow, obj_congr hobj hsys]

theorem countStalls_none {s : State} {lp : Nat} (h : ∀ y ∈ s.tm.queues, shaperHolds s lp y.tid = false) : countStalls s lp = s := by
  unfold countStalls
  extract_lets waits held
  have hnone : ∀ q ∈ s.tm.queues, (q.lp == lp && waits q) = false := by
    intro q hq
    have hw : waits q = false := by
      unfold waits
      rw [h q hq]
      cases q.outs with
      | nil => rfl
      | cons o rest => exact Bool.and_false _
    rw [hw, Bool.and_false]
  have hheld : held = [] := by
    have : s.tm.queues.filter (fun q => q.lp == lp && waits q) = [] := List.filter_eq_nil_iff.mpr fun q hq => by
      rw [hnone q hq]; decide
    exact congrArg (List.map (·.tid)) this
  rw [hheld]
  rfl

theorem unpark_none {s : State} {lp : Nat} (h : ∀ e ∈ s.xport.parked, e.out.lp = lp → s.time.now < e.due) : unpark s lp = s := by
  have hnone : s.xport.parked.filter (fun x => x.out.lp == lp && decide (x.due ≤ s.time.now)) = [] :=
    List.filter_eq_nil_iff.mpr fun e he => by
      rw [Bool.and_eq_true, beq_iff_eq, decide_eq_true_eq]
      rintro ⟨hlp, hdue⟩
      exact absurd (h e he hlp) (Nat.not_lt.mpr hdue)
  unfold unpark
  extract_lets ready
  rw [hnone]
  rfl

/-- A port with nothing else to see to sends the head of the queue it has chosen. -/
theorem exec_outputTransmit {s : State} {lp : Nat} {x : Sched} {q : Queue} {o : Output} {rest : List Output} (hactive : active s lp = true)
    (hdue : pulseDue s lp = false) (hpair : (pairNoFree s lp).isSome = true) (hholds : ∀ y ∈ s.tm.queues, shaperHolds s lp y.tid = false)
    (hq : chooseQueue s lp = some (x, q)) (houts : q.outs = o :: rest) (hscans : s.scree.scans = [])
    (hparked : ∀ e ∈ s.xport.parked, e.out.lp = lp → s.time.now < e.due) :
    exec (.outputTransmit lp) s = .next (finishScans (sendFrom s lp x q o rest)) := by
  have hready : countPairWaits (countStalls (finishScans (unpark s lp)) lp) lp = s := by
    rw [unpark_none hparked, finishScans_nil hscans, countStalls_none hholds]
    exact if_pos hpair
  change execOutputTransmit lp s = _
  unfold execOutputTransmit
  rw [hactive, hdue, if_neg (by decide), if_neg (by decide)]
  extract_lets u v
  have hv : v = s := hready
  rw [hv, hq]
  dsimp only
  rw [houts]

theorem outSrc_congr {s t : State} (h : t.sys = s.sys) (o : Output) : outSrc t o = outSrc s o := by
  rw [outSrc, outSrc, devEp, devEp, h]

theorem ctxKey_congr {s t : State} (h : t.sys = s.sys) (src dst : BitVec 24) : ctxKey t src dst = ctxKey s src dst := by
  rw [ctxKey, ctxKey, devEp, devEp, h]

/-- The transmission of a frame, with what it leaves. -/
theorem outputTransmit_sent {s : State} {lp : Nat} {x : Sched} {q : Queue} {o : Output} {rest : List Output} (hactive : active s lp = true)
    (hdue : pulseDue s lp = false) (hpair : (pairNoFree s lp).isSome = true) (hholds : ∀ y ∈ s.tm.queues, shaperHolds s lp y.tid = false)
    (hq : chooseQueue s lp = some (x, q)) (houts : q.outs = o :: rest) (hop : o.pair = none) (hor : o.req = none) (hscans : s.scree.scans = [])
    (hparked : ∀ e ∈ s.xport.parked, e.out.lp = lp → s.time.now < e.due) :
    let sent (t : State) : Prop := t.ropes = s.ropes ∧ t.hbm = s.hbm ∧ t.time = s.time ∧
      t.pwr.idleSince = some s.time.now ∧ t.tm.queues = queuesAfter s lp q rest
    (numbered o = false → ∃ t, exec (.outputTransmit lp) s = .next t ∧ sent t ∧ t.out = .frame o.lp (wireBytes s o
      (if o.ctl then { o.hdr with rsver := s.col.ver.current } else o.hdr)) :: s.out) ∧
    (numbered o = true → ∃ t bs c, exec (.outputTransmit lp) s = .next t ∧ sent t ∧ t.out = .frame o.lp bs :: s.out ∧
      let k := ctxKey s (outSrc s o) o.hdr.dst
      txAt t k = some c ∧ let old := (txAt s k).getD {}
      c.next = old.next + 1 ∧ c.sent.map (·.psn) = old.sent.map (·.psn) ++ [old.next] ∧ c.due.isSome = true) := by
  intro sent
  have hexec := exec_outputTransmit hactive hdue hpair hholds hq houts hscans hparked
  obtain ⟨tm', hqs, heq⟩ := sendFrom_eq s lp x q o rest
  have hdep := depart_plain (s := { s with tm := tm' }) hop hor
  constructor
  · intro hn
    have hd := sendOut_plain (s := { s with tm := tm' }) hn
    rw [← hdep] at hd
    obtain ⟨hropes, hhbm, htime, hidle, hqueues, hscree, -, hout⟩ := sendFrom_departed (v := { s with tm := tm' }) hqs heq rfl rfl rfl rfl rfl rfl hd
    have hfin := finishScans_nil ((congrArg ScreeSt.scans hscree).trans hscans)
    rw [hfin] at hexec
    refine ⟨_, hexec, ⟨hropes, hhbm, htime, hidle, hqueues⟩, hout.trans ?_⟩
    rw [wireBytes_congr (s := s) (t := { s with tm := tm' }) (o := o) (p := o) _ rfl rfl rfl rfl rfl ⟨o.hdr, rfl⟩]
  · intro hn
    obtain ⟨n', c, bs, hd, hnext, hpsn, hcdue⟩ := sendOut_numbered (s := { s with tm := tm' }) hn hor
    rw [← hdep] at hd
    obtain ⟨hropes, hhbm, htime, hidle, hqueues, hscree, hxport, hout⟩ :=
      sendFrom_departed (v := setTxAt { { s with tm := tm' } with nextOut := n' } (ctxKey { s with tm := tm' } (outSrc { s with tm := tm' } o) o.hdr.dst) c) hqs heq rfl rfl rfl rfl rfl rfl hd
    have hfin := finishScans_nil ((congrArg ScreeSt.scans hscree).trans hscans)
    rw [hfin] at hexec
    refine ⟨_, bs, c, hexec, ⟨hropes, hhbm, htime, hidle, hqueues⟩, hout, ?_, hnext, hpsn, hcdue⟩
    rw [txAt, hxport]
    exact mfind_mset_same _ _ _

/-! ### The calendar (R310, R311) -/

theorem now_lt_cycStart_next (s : State) : s.time.now < cycStart s (cyc s + 1) := by
  rcases Nat.le_total s.time.cycAt s.time.now with hle | hlt
  · exact (cycStart_next hle).1
  · have hpos := dpU_pos s
    have hsub : s.time.now - s.time.cycAt = 0 := Nat.sub_eq_zero_of_le hlt
    rw [cycStart, cyc, hsub, Nat.zero_div, Nat.add_zero, Nat.add_sub_cancel_left, Nat.one_mul]
    omega

/-- New shaper values act from the next dp-cycle on. -/
theorem shapeOf_reshape {s : State} {tid : Nat} {f : State → State} :
    shapeOf (reshape s tid f) tid = shapeOf s tid := by
  obtain ⟨v, hv⟩ : ∃ v, v = f (settleShape s tid) := ⟨_, rfl⟩
  have hsettle : shapeOf (settleShape s tid) tid = shapeOf s tid := shapeOf_congr rfl rfl rfl rfl tid
  have heq : reshape s tid f = { v with tm := { v.tm with shape := mset v.tm.shape tid (cycStart v (cyc v + 1), (shapeOf s tid).1, (shapeOf s tid).2) } } := by
    rw [hv, ← hsettle]
    rfl
  have hfind : mfind (reshape s tid f).tm.shape tid = some (cycStart v (cyc v + 1), (shapeOf s tid).1, (shapeOf s tid).2) := by
    rw [heq]
    exact mfind_mset_same _ _ _
  have hlt : (reshape s tid f).time.now < cycStart v (cyc v + 1) := by
    rw [heq]
    exact now_lt_cycStart_next v
  rw [shapeOf, hfind]
  exact if_pos hlt

/-- A calendar entry whose FT has passed fires at once. -/
theorem calendarEntry_fires {s : State} {u : Nat} {e : CalEntry} (hstarted : started s = true) (hmode : obj s 0x5821 2 ≠ 0)
    (hdue : calDue s = some (u, e)) (hft : u ≤ ft s) :
    ∃ t, exec .calendarEntry s = .next t ∧ t.tm.calFt = u ∧ shapeOf t e.tid = shapeOf s e.tid ∧
      ten t e.tid 0x11 = (if shapeWritten s e.tid 0 then ten s e.tid 0x11 else e.rate) ∧
      ten t e.tid 0x12 = (if shapeWritten s e.tid 1 then ten s e.tid 0x12 else e.burst) ∧
      obj t 0x5821 4 = (obj s 0x5821 4 + 1) % 2 ^ 64 ∧ t.time = s.time := by
  obtain ⟨rate, hrate⟩ : ∃ rate, rate = if shapeWritten s e.tid 0 then ten s e.tid 0x11 else e.rate := ⟨_, rfl⟩
  obtain ⟨burst, hburst⟩ : ∃ burst, burst = if shapeWritten s e.tid 1 then ten s e.tid 0x12 else e.burst := ⟨_, rfl⟩
  obtain ⟨v, hv⟩ : ∃ v, v = setShape s e := ⟨_, rfl⟩
  have hset : v = reshape s e.tid (fun s => putObj (putObj s (0x3000 + e.tid) 0x11 rate) (0x3000 + e.tid) 0x12 burst) := by
    rw [hv, hrate, hburst]
    rfl
  have hobj : v.obj = (putObj (putObj s (0x3000 + e.tid) 0x11 rate) (0x3000 + e.tid) 0x12 burst).obj ∧ v.sys = s.sys ∧ v.time = s.time := by
    rw [hset]
    exact ⟨rfl, rfl, rfl⟩
  obtain ⟨hvobj, hvsys, hvtime⟩ := hobj
  have hread (i a : Nat) : obj v i a = obj (putObj (putObj s (0x3000 + e.tid) 0x11 rate) (0x3000 + e.tid) 0x12 burst) i a :=
    obj_congr hvobj hvsys i a
  have hshape : shapeOf v e.tid = shapeOf s e.tid := by
    rw [hset]
    exact shapeOf_reshape
  have hexec : exec .calendarEntry s = .next (calFire s u e) := by
    change execCalendarEntry s = _
    unfold execCalendarEntry
    rw [hstarted, if_neg (by simpa using hmode), hdue]
    dsimp only
    rw [advanceToFt_past hft]
  obtain ⟨nxt, hfire⟩ : ∃ nxt, calFire s u e = { bump v 0x5821 4 with tm := { (bump v 0x5821 4).tm with calFt := u, calNext := nxt } } :=
    ⟨if s.tm.calNext < s.tm.calendar.length then s.tm.calNext + 1 else 1, by rw [hv]; rfl⟩
  have hfobj (i a : Nat) : obj (calFire s u e) i a = obj (bump v 0x5821 4) i a := by rw [hfire]; rfl
  have hne (a : Nat) (ha : a < 256) (h4 : a ≠ 4) : ten (calFire s u e) e.tid a = obj v (0x3000 + e.tid) a := by
    rw [ten, hfobj, obj_bump_ne v (by decide) ha (.inr h4.symm)]
  refine ⟨_, hexec, by rw [hfire], ?_, ?_, ?_, ?_, by rw [hfire]; exact hvtime⟩
  · rw [← hshape]
    have h11 := hne 0x11 (by decide) (by decide)
    have h12 := hne 0x12 (by decide) (by decide)
    have hs : (calFire s u e).tm.shape = v.tm.shape := by rw [hfire]; rfl
    have hn : (calFire s u e).time = v.time := by rw [hfire]; rfl
    rw [shapeOf, shapeOf, h11, h12, hs, hn]
    rfl
  · rw [hne 0x11 (by decide) (by decide), hread, obj_putObj_ne _ _ (by decide) (by decide) (.inr (by decide)), obj_putObj_same, hrate]
  · rw [hne 0x12 (by decide) (by decide), hread, obj_putObj_same, hburst]
  · rw [hfobj, obj_bump_same, hread, obj_putObj_ne _ _ (by decide) (by decide) (.inr (by decide)),
      obj_putObj_ne _ _ (by decide) (by decide) (.inr (by decide))]

/-! ### The cell store and Piton (R282, R294, R295) -/

/-- The oldest cell of a write stage is written. -/
theorem cellWriteStage_written {s : State} {p f c : Nat} {fs : List Nat} {x : Frame} (hstage : mget s.trav.stage p [] = f :: fs)
    (hpick : pickCell s = some c) (hframe : mfind s.frames f = some x) (hon : on s = true) :
    ∃ t, exec (.cellWriteStage p) s = .next t ∧ mget t.trav.stage p [] = fs ∧
      t.trav.lastBank = c / 12288 ∧ t.trav.usedCells = insertNat c s.trav.usedCells ∧
      mfind t.frames f = some { x with cells := x.cells ++ [c] } ∧ t.ropes = s.ropes := by
  obtain ⟨st, hst⟩ : ∃ st, st = if fs.isEmpty then merase s.trav.stage p else mset s.trav.stage p fs := ⟨_, rfl⟩
  have hexec : exec (.cellWriteStage p) s = .next (giveCell { s with trav := { s.trav with stage := st } } f c) := by
    change execCellWriteStage p s = _
    unfold execCellWriteStage
    refine (live_on hon _).trans ?_
    rw [hstage, hpick, hst]
  have hgive : giveCell { s with trav := { s.trav with stage := st } } f c =
      setFrame (useCell { s with trav := { s.trav with stage := st } } c) f { x with cells := x.cells ++ [c] } := by
    rw [giveCell]
    dsimp only
    rw [hframe]
  rw [hgive] at hexec
  refine ⟨_, hexec, ?_, rfl, rfl, mfind_mset_same _ _ _, rfl⟩
  change mget st p [] = fs
  rw [hst]
  cases fs with
  | nil => exact congrArg (Option.getD · []) (mfind_merase_same s.trav.stage p)
  | cons g gs => exact mget_mset_same _ _ _ _

/-- The one spilled output of a queue comes back. -/
theorem spillReadback_back {s : State} {n hd : Nat} {e : Spill} {q : Queue} (hspilled : s.trav.spilled = [e]) (hn : e.queue = n)
    (hqueue : queueOf s e.out.lp e.out.hdr.cls.toNat (queueTid e.out) (n % 4) = some q) (hmedia : bufferMedia s (e.pool, e.buf) e.bytes = false)
    (hroom : queuedCells q * 128 < cellsAtStart s * 2 ^ ten s (queueTid e.out) 0x70) (hhead : pickHead s false = some hd)
    (hlen : outLen e.out ≤ 192) (hon : on s = true) (hframe : e.out.frame = none) (hwaits : bufferWaits s (e.pool, e.buf) e.bytes = false) :
    ∃ t, exec (.spillReadback n) s = .next t ∧ t.trav.spilled = [] ∧
      { q with spillMode := false, outs := q.outs ++ [{ e.out with head := hd, cells := [] }] } ∈ t.tm.queues := by
  obtain ⟨o, ho⟩ : ∃ o : Output, o = { e.out with head := hd, cells := [] } := ⟨_, rfl⟩
  have hcells : cellsFor (outLen e.out) = 0 := by rw [cellsFor, Nat.sub_eq_zero_of_le hlen]; rfl
  have hstores : takeStores s e.out = some (useHead s hd, o) := by
    rw [takeStores, hhead, hcells, ho]
    dsimp only
    rw [hframe]
    rfl
  have hid : o.id = e.out.id := by rw [ho]
  have hleft : s.trav.spilled.filter (fun x => x.out.id != o.id) = [] := by
    rw [hspilled, hid]
    exact List.filter_eq_nil_iff.mpr fun x hx => by rw [List.mem_singleton.mp hx]; simp
  have hone : s.trav.spilled.find? (fun e => e.queue == n) = some e := by rw [hspilled, List.find?_cons, hn, beq_self_eq_true]
  obtain ⟨u, hu⟩ : ∃ u, u = pitonRelease { useHead s hd with trav := { (useHead s hd).trav with spilled := [] } } true e.pool e.buf := ⟨_, rfl⟩
  have hback : readBack s n 1 = setQueue u { q with outs := q.outs ++ [o], spillMode := false } := by
    rw [readBack, hone]
    dsimp only
    rw [hqueue]
    dsimp only
    rw [hwaits, hmedia, if_neg (by decide), if_neg (by decide), if_pos hroom, hstores]
    dsimp only
    rw [hu]
    have hl : (useHead s hd).trav.spilled.filter (fun x => x.out.id != o.id) = [] := hleft
    rw [hl]
    rfl
  have hexec : exec (.spillReadback n) s = .next (passTurns (readBack s n 1) (n / (8 * 4096 * 4))) := by
    change execSpillReadback n s = _
    unfold execSpillReadback
    refine (live_on hon _).trans ?_
    rw [hspilled]
    rfl
  have huspilled : u.trav.spilled = [] := by rw [hu]; rfl
  obtain ⟨y, hpass⟩ := passTurns_only (readBack s n 1) (n / (8 * 4096 * 4))
  rw [hpass, hback] at hexec
  refine ⟨_, hexec, huspilled, ?_⟩
  rw [← ho]
  have hempty : ((q.outs ++ [o]).isEmpty && !false) = false := by simp
  change _ ∈ (if (q.outs ++ [o]).isEmpty && !false then _ else _ ++ [_])
  rw [hempty]
  exact List.mem_append_right _ (List.mem_singleton_self _)

/-- Counting the bytes of a buffer touches the channels' counters alone. -/
theorem fillBuffer_obj (s : State) (b : Nat × Nat) (n : Nat) {i a : Nat} (ha : a < 256) (h7 : a ≠ 7) (h : i ≠ 0x5000 ∨ a ≠ 0x10 ∧ a ≠ 0x11) :
    obj (fillBuffer s b n) i a = obj s i a := countWrite_objs s .spill (pitonAddr s b.1 b.2) n ha h7 h

theorem pitonAlloc_obj (s : State) (n i a : Nat) (ha : a < 256) (h : i ≠ 0x5801) : obj (pitonAlloc s n).1 i a = obj s i a := by
  unfold pitonAlloc
  extract_lets fits
  split
  · exact obj_bump_ne s (by decide) ha (.inl h.symm)
  · extract_lets u
    have hu : obj u i a = obj s i a := by
      unfold u
      split
      · rfl
      · exact obj_bump_ne s (by decide) ha (.inl h.symm)
    exact hu

theorem mfind_map_value {α : Type} (m : Map α) (f : α → α) (k : Nat) : mfind (m.map (fun e => (e.1, f e.2))) k = (mfind m k).map f := by
  induction m with
  | nil => rfl
  | cons e m ih =>
    obtain ⟨a, v⟩ := e
    simp only [List.map_cons, mfind]
    split
    · rfl
    · exact ih

/-- What stands where a retained output moves to Piton: the stores freed, the buffer's bytes counted. -/
def movedTo (s : State) (o : Output) (b : Nat × Nat) : State := fillBuffer (freeStores (bump s 0x5800 9) o) b (outLen o)

/-- The oldest retained output moves to its buffer. -/
theorem retainMove_moved {s u : State} {o : Output} {b : Nat × Nat} (hlimit : obj s 0x5800 4 < retainedCells s) (hold : oldestRetained s = some o)
    (halloc : pitonAlloc s (outLen o) = (u, some b)) : ∃ t, exec .retainMove s = .next t ∧ t.ropes = s.ropes ∧
      obj t 0x5800 9 = (obj s 0x5800 9 + 1) % 2 ^ 64 ∧
      (∀ k c, txAt s k = some c → txAt t k = some { c with
        sent := c.sent.map (fun y => if y.out.id = o.id then { y with spilled := some b } else y) }) ∧
      t.xport.parked = s.xport.parked.map (fun y => if y.out.id = o.id then { y with
        buf := some b, out := { y.out with frame := none, owner := true, cells := [], head := noHead } } else y) := by
  obtain ⟨v, hv⟩ : ∃ v, v = movedTo u o b := ⟨_, rfl⟩
  have hexec : exec .retainMove s = .next (markMoved v o b) := by
    change execRetainMove s = _
    unfold execRetainMove
    rw [if_neg (Nat.not_le.mpr hlimit), hold]
    dsimp only
    rw [halloc, hv]
    rfl
  have hu : u.ropes = s.ropes ∧ u.xport = s.xport ∧ obj u 0x5800 9 = obj s 0x5800 9 := by
    have hobj := pitonAlloc_obj s (outLen o) 0x5800 9 (by decide) (by decide)
    obtain ⟨obj', trav', e⟩ := pitonAlloc_only s (outLen o)
    rw [halloc] at e hobj
    refine ⟨?_, ?_, hobj⟩ <;> rw [show u = _ from e]
  obtain ⟨huropes, huxport, huobj⟩ := hu
  have hfree : ∃ w, v = fillBuffer w b (outLen o) ∧ w.ropes = u.ropes ∧ w.xport = u.xport ∧ w.obj = (bump u 0x5800 9).obj ∧ w.sys = u.sys := by
    obtain ⟨trav', pwr', e⟩ := freeStores_only (bump u 0x5800 9) o
    refine ⟨_, hv, ?_, ?_, ?_, ?_⟩ <;> rw [e] <;> rfl
  obtain ⟨w, hvw, hwropes, hwxport, hwobj, hwsys⟩ := hfree
  have hcount : obj v 0x5800 9 = (obj s 0x5800 9 + 1) % 2 ^ 64 := by
    rw [hvw, fillBuffer_obj _ _ _ (by decide) (by decide) (.inl (by decide)), obj_congr (s := bump u 0x5800 9) hwobj hwsys, obj_bump_same, huobj]
  have hkept : v.ropes = s.ropes ∧ v.xport = s.xport := by
    obtain ⟨obj', hbm', e⟩ := fillBuffer_only w b (outLen o)
    rw [hvw, e]
    exact ⟨hwropes.trans huropes, hwxport.trans huxport⟩
  obtain ⟨hropes, hxport⟩ := hkept
  refine ⟨_, hexec, hropes, hcount, fun k c hk => ?_, ?_⟩
  · rw [txAt, ← hxport] at hk
    refine (mfind_map_value v.xport.tx (fun c : TxCtx => { c with
      sent := c.sent.map (fun y => if y.out.id = o.id then { y with spilled := some b } else y) }) k).trans ?_
    rw [hk]
    rfl
  · rw [← hxport]
    rfl

/-- Settles O42: the choice of a queue, the frame on the wire and its context, the calendar, a cell, and Piton's outputs. -/
theorem outputsLeaveInTheirTurn : Obligations.OutputsLeaveInTheirTurn := by
  unfold Obligations.OutputsLeaveInTheirTurn
  refine ⟨fun s lp x q h => chooseQueue_ready h, fun s lp hactive hdue => ?_,
    fun s lp x q o rest hactive hdue hpair hholds hq houts hop hor hscans hparked =>
      outputTransmit_sent hactive hdue hpair hholds hq houts hop hor hscans hparked,
    fun s u e hstarted hmode hdue hft => calendarEntry_fires hstarted hmode hdue hft,
    fun s p f c fs x hstage hpick hframe hon => cellWriteStage_written hstage hpick hframe hon,
    fun s n hd e q hspilled hn hqueue hmedia hroom hhead hlen hon hframe hwaits =>
      spillReadback_back hspilled hn hqueue hmedia hroom hhead hlen hon hframe hwaits,
    fun s u o b hlimit hold halloc => retainMove_moved hlimit hold halloc⟩
  change execOutputTransmit lp s = _
  unfold execOutputTransmit
  rw [hactive, hdue]
  rfl

end Sys2Proof.Proofs

/-! What the sending and the discarding of outputs count (R19, R39, R271, R288). -/

namespace Sys2Proof.Proofs

open Sys2Proof.Machine Sys2Proof.Claim

/-! ### Sending counts in few objects and leaves the HBM's bytes -/

/-- The objects in which sending and discarding count; the ends of scans count as well where `b` says so. -/
def tallied (b : Bool) (i a : Nat) : Bool :=
  a == 0x1C || a == 0x1D || a == 0x54 || a == 0x71 || (a == 7 && decide (0x5010 ≤ i)) ||
    ((a == 0x0C || a == 0x0D) && decide (0x5810 ≤ i) && decide (i ≤ 0x5817)) || i == 0x1011 || i == 0x5000 || i == 0x5800 || i == 0x5801 ||
    i == 0x6080 || i == 0x7800 || (b && i == 0x6000 && (a == 8 || a == 9))

/-- What sending leaves: the identity, the bytes of the HBM, and every object in which it does not count. -/
structure Sends (b : Bool) (s₀ s : State) : Prop where
  sys : s.sys = s₀.sys
  mem : s.hbm.mem = s₀.hbm.mem
  objs : ∀ i a, a < 256 → tallied b i a = false → obj s i a = obj s₀ i a

/-- As `Sends`, of a state that comes with something else. -/
def PairSends {α : Type} (b : Bool) (s₀ : State) (p : State × α) : Prop := Sends b s₀ p.1

/-- As `PairSends`, of a state that there may be. -/
def OptPairSends {α : Type} (b : Bool) (s₀ : State) (o : Option (State × α)) : Prop := ∀ p, o = some p → Sends b s₀ p.1

section

variable {α β : Type} {b : Bool} {s₀ s : State}

theorem Sends.refl (b : Bool) (s : State) : Sends b s s := ⟨rfl, rfl, fun _ _ _ _ => rfl⟩

theorem Sends.trans {r t : State} (h : Sends b r s) (h' : Sends b s t) : Sends b r t :=
  ⟨h'.sys.trans h.sys, h'.mem.trans h.mem, fun i a ha hi => (h'.objs i a ha hi).trans (h.objs i a ha hi)⟩

/-- An update of other parts of the state. -/
theorem Sends.update {pending : List Instr} {free : Nat} {out : List Out} {answer : Answer} {time : TimeSt}
    {latched stored : Map Nat} {dict : DictSt} {ports : Map Port} {xport : Xport} {frames : Map Frame} {nextFrame nextOut : Nat} {col : ColSt}
    {tbl : TableSt} {pit : PitchSt} {ropes : Map Rope} {cores : Map Machine.Core} {clusters : Map Cluster} {flights : List Flight}
    {xlat : XlatSt} {scree : ScreeSt} {trav : TravSt} {tm : TmSt} {plan : PlanSt} {pwr : PwrSt} {rcv : RecSt}
    {cairn : CairnSt} {dbg : DebugSt} (h : Sends b s₀ s) :
    Sends b s₀ ⟨pending, free, out, answer, s.sys, time, s.obj, latched, stored, dict, ports, xport, frames, nextFrame, nextOut,
      col, tbl, pit, ropes, cores, clusters, flights, xlat, scree, trav, tm, s.hbm, plan, pwr, rcv, cairn, dbg⟩ :=
  ⟨h.sys, h.mem, h.objs⟩

theorem PairSends.mk {x : α} (h : Sends b s₀ s) : PairSends b s₀ (s, x) := h
theorem PairSends.fst {p : State × α} (h : PairSends b s₀ p) : Sends b s₀ p.1 := h
theorem PairSends.of_eq {p : State × α} {x : α} (h : PairSends b s₀ p) (e : p = (s, x)) : Sends b s₀ s := by
  rw [e] at h; exact h

theorem OptPairSends.none : OptPairSends b s₀ (none : Option (State × α)) := fun _ h => nomatch h
theorem OptPairSends.some {p : State × α} (h : PairSends b s₀ p) : OptPairSends b s₀ (some p) :=
  fun _ e => Option.some.inj e ▸ h
theorem OptPairSends.of_eq {o : Option (State × α)} {x : α} (h : OptPairSends b s₀ o) (e : o = Option.some (s, x)) :
    Sends b s₀ s := h (s, x) e

theorem Sends.foldl {f : State → β → State} {l : List β} (hf : ∀ s x, Sends b s₀ s → Sends b s₀ (f s x)) (h : Sends b s₀ s) :
    Sends b s₀ (l.foldl f s) := by
  induction l generalizing s with
  | nil => exact h
  | cons x l ih => exact ih (hf s x h)

theorem bumpBy_sends {i a n : Nat} (h : Sends b s₀ s) (ha : a < 256) (hq : tallied b i a = true) : Sends b s₀ (bumpBy s i a n) := by
  refine ⟨h.sys, h.mem, fun j c hc hj => (obj_bumpBy_ne s n ha hc ?_).trans (h.objs j c hc hj)⟩
  by_contra hsame
  obtain ⟨rfl, rfl⟩ : i = j ∧ a = c := by omega
  rw [hq] at hj
  cases hj

theorem bump_sends {i a : Nat} (h : Sends b s₀ s) (ha : a < 256) (hq : tallied b i a = true) : Sends b s₀ (bump s i a) :=
  bumpBy_sends h ha hq

theorem bumpTen_sends {i a : Nat} (h : Sends b s₀ s) (ha : a < 256) (hq : tallied b (0x3000 + i) a = true) : Sends b s₀ (bumpTen s i a) :=
  bumpBy_sends h ha hq

end

/-! #### The operations, one by one -/

/-- A write counts its bytes in the channels' objects, which begin at 0x5010. -/
theorem countWrite_below (s : State) (cls : ReqClass) (c n : Nat) {i a : Nat} (ha : a < 256) (hi : i < 0x5010) (h : i ≠ 0x5000) :
    obj (countWrite s cls c n) i a = obj s i a :=
  foldl_rel (R := fun s t => obj t i a = obj s i a) (fun _ => rfl) (fun h h' => h'.trans h) (fun s x => by
    dsimp only
    split
    · exact (activate_objs _ _ _ _ _ _ _ ha (.inl h)).trans (obj_bumpBy_ne s _ (by decide) ha (.inl (by omega)))
    · rfl) _ s

theorem fillBuffer_sends {b : Bool} {s₀ s : State} {c : Nat × Nat} {n : Nat} (h : Sends b s₀ s) : Sends b s₀ (fillBuffer s c n) := by
  have hmem : (fillBuffer s c n).hbm.mem = s.hbm.mem := by
    obtain ⟨o, p, ch, hcount⟩ := countWrite_only s .spill (pitonAddr s c.1 c.2) n
    rw [fillBuffer, hcount]
    rfl
  refine ⟨(fillBuffer_stays (Stays.refl s)).sys.trans h.sys, hmem.trans h.mem, fun i a ha hi => ?_⟩
  have h5000 : i ≠ 0x5000 := by
    rintro rfl
    simp [tallied] at hi
  refine Eq.trans ?_ (h.objs i a ha hi)
  by_cases h7 : a = 7
  · subst h7
    refine countWrite_below s .spill (pitonAddr s c.1 c.2) n (by decide) ?_ h5000
    by_contra hle
    simp [tallied, Nat.not_lt.mp hle] at hi
  · exact fillBuffer_obj s c n ha h7 (.inl h5000)

theorem cairnDrop_sends {b : Bool} {s₀ s : State} {level : Nat} (h : Sends b s₀ s) : Sends b s₀ (cairnDrop s level) := by
  unfold cairnDrop
  exact bump_sends (Sends.update h) (by decide) rfl

theorem draw_sends {b : Bool} {s₀ s : State} (h : Sends b s₀ s) : Sends b s₀ (draw s) := by
  unfold draw
  exact Sends.update h

theorem cairn_sends {b : Bool} {s₀ s : State} {src code sev : Nat} {data : List Byte} (h : Sends b s₀ s) :
    Sends b s₀ (cairn s src code sev data) := by
  unfold cairn
  split
  · exact h
  · split
    · exact cairnDrop_sends h
    · split
      · exact Sends.update h
      · exact cairnDrop_sends h

theorem stir_sends {b : Bool} {s₀ s : State} (h : Sends b s₀ s) : Sends b s₀ (stir s) := by
  unfold stir
  exact Sends.update h

theorem useHead_sends {b : Bool} {s₀ s : State} {h : Nat} (hs : Sends b s₀ s) : Sends b s₀ (useHead s h) := by
  unfold useHead
  exact Sends.update hs

theorem freeHead_sends {b : Bool} {s₀ s : State} {h : Nat} (hs : Sends b s₀ s) : Sends b s₀ (freeHead s h) := by
  unfold freeHead
  extract_lets c1 src1
  split
  · exact Sends.update hs
  · exact hs

theorem useCell_sends {b : Bool} {s₀ s : State} {c : Nat} (h : Sends b s₀ s) : Sends b s₀ (useCell s c) := by
  unfold useCell
  exact Sends.update h

theorem freeCellList_sends {b : Bool} {s₀ s : State} {cs : List Nat} (h : Sends b s₀ s) : Sends b s₀ (freeCellList s cs) := by
  unfold freeCellList
  split
  · exact h
  · extract_lets c1 src1
    exact stir_sends (Sends.update h)

theorem takeCells_sends {b : Bool} {s₀ s : State} {n : Nat} (h : Sends b s₀ s) : OptPairSends b s₀ (takeCells s n) := by
  induction n generalizing s with
  | zero => exact OptPairSends.some (PairSends.mk h)
  | succ n ih =>
    unfold takeCells
    split
    · exact OptPairSends.none
    · next c _ =>
      have hrest : OptPairSends b s₀ (takeCells (useCell s c) n) := ih (useCell_sends h)
      split
      · exact OptPairSends.none
      · next s' cs e => exact OptPairSends.some (PairSends.mk (hrest.of_eq e))

theorem setInFlight_sends {b : Bool} {s₀ s : State} {v : BitVec 16} {n : Nat} (h : Sends b s₀ s) : Sends b s₀ (setInFlight s v n) := by
  unfold setInFlight
  exact Sends.update h

theorem retire_sends {b : Bool} {s₀ s : State} {v : BitVec 16} (h : Sends b s₀ s) : Sends b s₀ (retire s v) := by
  unfold retire
  exact setInFlight_sends h

theorem dropStage_sends {b : Bool} {s₀ s : State} {f : Nat} (h : Sends b s₀ s) : Sends b s₀ (dropStage s f) := by
  unfold dropStage
  exact Sends.update h

theorem stopScan_sends {b : Bool} {s₀ s : State} {k code detail : Nat} (h : Sends b s₀ s) : Sends b s₀ (stopScan s k code detail) := by
  unfold stopScan
  split
  · exact h
  · extract_lets c1 src1
    exact Sends.update h

theorem scanRdBack_sends {b : Bool} {s₀ s : State} {k bytes : Nat} (h : Sends b s₀ s) : Sends b s₀ (scanRdBack s k bytes) := by
  unfold scanRdBack
  split
  · exact h
  · extract_lets t1 src1
    exact Sends.update h

theorem scanLost_sends {b : Bool} {s₀ s : State} {p : Pair} {addr : BitVec 64} {len : Nat} (h : Sends b s₀ s) :
    Sends b s₀ (scanLost s p addr len) := by
  unfold scanLost
  split
  · exact h
  · extract_lets s1
    have h1 : Sends b s₀ s1 := stopScan_sends h
    split
    · exact scanRdBack_sends h1
    · exact h1

theorem copiesSettle_sends {b : Bool} {s₀ s : State} {f : Nat} (h : Sends b s₀ s) : Sends b s₀ (copiesSettle s f) := by
  unfold copiesSettle
  extract_lets c1 s1 src1
  have h1 : Sends b s₀ s1 := dropStage_sends (freeCellList_sends (freeHead_sends h))
  split
  · exact Sends.update h1
  · exact h

theorem freeStores_sends {b : Bool} {s₀ s : State} {o : Output} (h : Sends b s₀ s) : Sends b s₀ (freeStores s o) := by
  unfold freeStores
  split
  · exact freeCellList_sends (freeHead_sends h)
  · extract_lets c1 s1 src1
    have h1 : Sends b s₀ s1 := by
      unfold s1
      split
      · exact h
      · exact freeHead_sends h
    split
    · exact copiesSettle_sends (Sends.update h1)
    · exact copiesSettle_sends (Sends.update h1)

theorem pitonAlloc_sends {b : Bool} {s₀ s : State} {n : Nat} (h : Sends b s₀ s) : PairSends b s₀ (pitonAlloc s n) := by
  unfold pitonAlloc
  extract_lets fits1
  split
  · exact PairSends.mk (bump_sends h (by decide) rfl)
  · extract_lets s1 src1
    have h1 : Sends b s₀ s1 := by
      unfold s1
      split
      · exact h
      · exact bump_sends h (by decide) rfl
    exact PairSends.mk (Sends.update h1)

theorem pitonRelease_sends {b : Bool} {s₀ s : State} {owner : Bool} {pool idx : Nat} (h : Sends b s₀ s) :
    Sends b s₀ (pitonRelease s owner pool idx) := by
  unfold pitonRelease
  split
  · extract_lets c1 src1
    exact Sends.update h
  · exact bump_sends h (by decide) rfl

theorem endOutput_sends {b : Bool} {s₀ s : State} {o : Output} (h : Sends b s₀ s) : Sends b s₀ (endOutput s o) := by
  unfold endOutput
  extract_lets s1
  have h1 : Sends b s₀ s1 := by
    unfold s1
    refine freeStores_sends ?_
    split
    · exact retire_sends h
    · exact h
  split
  · exact pitonRelease_sends h1
  · exact h1

theorem setQueue_sends {b : Bool} {s₀ s : State} {q : Queue} (h : Sends b s₀ s) : Sends b s₀ (setQueue s q) := by
  unfold setQueue
  extract_lets rest1 src1
  exact Sends.update h

theorem setCredit_sends {b : Bool} {s₀ s : State} {lp tid : Nat} {c : ℤ} (h : Sends b s₀ s) : Sends b s₀ (setCredit s lp tid c) := by
  unfold setCredit
  extract_lets x1 src1
  exact Sends.update h

theorem shaperStart_sends {b : Bool} {s₀ s : State} {lp tid : Nat} (h : Sends b s₀ s) : Sends b s₀ (shaperStart s lp tid) := by
  unfold shaperStart
  split
  · exact h
  · exact setCredit_sends h

theorem queueStart_sends {b : Bool} {s₀ s : State} {lp tid qn : Nat} (h : Sends b s₀ s) : Sends b s₀ (queueStart s lp tid qn) := by
  unfold queueStart
  split
  · split
    · extract_lets held1 x5 src1
      exact Sends.update h
    · exact shaperStart_sends h
  · exact shaperStart_sends h

theorem enqueue_sends {b : Bool} {s₀ s : State} {o : Output} (h : Sends b s₀ s) : Sends b s₀ (enqueue s o) := by
  unfold enqueue
  extract_lets tid1 sp1 s1 o1 s2 src1
  have h1 : Sends b s₀ s1 := by
    unfold s1
    split
    · exact h
    · exact queueStart_sends h
  have h2 : Sends b s₀ s2 := Sends.update h1
  split
  · exact Sends.update h2
  · exact Sends.update h2

theorem trySpill_sends {b : Bool} {s₀ s : State} {o : Output} {sp : Nat} (h : Sends b s₀ s) : PairSends b s₀ (trySpill s o sp) := by
  unfold trySpill
  extract_lets tid1 n1 cls1 qn1
  split
  · exact PairSends.mk h
  · have h1 : PairSends b s₀ (pitonAlloc s n1) := pitonAlloc_sends h
    split
    · next s1 s2 e2 =>
        have h2 := PairSends.of_eq h1 e2
        exact PairSends.mk h2
    · next s1 s2 x1 x2 e2 =>
        have h2 := PairSends.of_eq h1 e2
        extract_lets s3 q1 s4 o1 e3 src1 s5 src2
        have h3 : Sends b s₀ s3 := fillBuffer_sends (freeStores_sends (bump_sends h2 (by decide) rfl))
        have h4 : Sends b s₀ s4 := by
          unfold s4
          split
          · exact h3
          · exact queueStart_sends h3
        have h5 : Sends b s₀ s5 := Sends.update h4
        exact PairSends.mk (setQueue_sends h5)

theorem joinCtl_sends {b : Bool} {s₀ s : State} {o : Output} (h : Sends b s₀ s) : Sends b s₀ (joinCtl s o) := by
  unfold joinCtl
  split
  · have h1 : PairSends b s₀ (trySpill s o (spreadFor s o)) := trySpill_sends h
    split
    · next s1 s2 e2 =>
        have h2 := PairSends.of_eq h1 e2
        exact h2
    · next s1 s2 e2 =>
        have h2 := PairSends.of_eq h1 e2
        exact endOutput_sends (bump_sends h2 (by decide) rfl)
  · exact enqueue_sends h

theorem sendCtl_sends {b : Bool} {s₀ s : State} {lp : Nat} {h : Sxt} {payload : List Byte} (hs : Sends b s₀ s) :
    Sends b s₀ (sendCtl s lp h payload) := by
  unfold sendCtl
  split
  · exact hs
  · exact joinCtl_sends (useHead_sends hs)

theorem sendNak_sends {b : Bool} {s₀ s : State} {lp : Nat} {h : Sxt} {code detail : Nat} (hs : Sends b s₀ s) :
    Sends b s₀ (sendNak s lp h code detail) := by
  unfold sendNak
  exact sendCtl_sends hs

theorem setRx_sends {b : Bool} {s₀ s : State} {ep : BitVec 24} {c : RxCtx} (h : Sends b s₀ s) : Sends b s₀ (setRx s ep c) := by
  unfold setRx
  exact Sends.update h

theorem sendAck_sends {b : Bool} {s₀ s : State} {ep : BitVec 24} {c : RxCtx} (h : Sends b s₀ s) : Sends b s₀ (sendAck s ep c) := by
  unfold sendAck
  extract_lets s1
  have h1 : Sends b s₀ s1 := stir_sends (setRx_sends h)
  exact sendCtl_sends h1

theorem ackCheck_sends {b : Bool} {s₀ s : State} {ep : BitVec 24} (h : Sends b s₀ s) : Sends b s₀ (ackCheck s ep) := by
  unfold ackCheck
  split
  · exact h
  · extract_lets moved1
    split
    · exact h
    · split
      · exact sendAck_sends h
      · split
        · exact h
        · exact setRx_sends h

theorem settle_sends {b : Bool} {s₀ s : State} {ep : BitVec 24} {psn : BitVec 32} (h : Sends b s₀ s) : Sends b s₀ (settle s ep psn) := by
  unfold settle
  split
  · exact h
  · exact ackCheck_sends (setRx_sends h)

theorem finalNak_sends {b : Bool} {s₀ s : State} {lp : Nat} {h : Sxt} {code detail : Nat} (hs : Sends b s₀ s) :
    Sends b s₀ (finalNak s lp h code detail) := by
  unfold finalNak
  exact settle_sends (sendNak_sends hs)

theorem nakPair_sends {b : Bool} {s₀ s : State} {p : Pair} {code detail : Nat} (h : Sends b s₀ s) :
    Sends b s₀ (nakPair s p code detail) := by
  unfold nakPair
  exact sendCtl_sends h

theorem legNak_sends {b : Bool} {s₀ s : State} {o : Output} {code detail : Nat} (h : Sends b s₀ s) :
    Sends b s₀ (legNak s o code detail) := by
  unfold legNak
  split
  · exact h
  · extract_lets src1 s1
    have h1 : Sends b s₀ s1 := Sends.update h
    split
    · exact finalNak_sends h1
    · exact sendNak_sends h1

theorem setTxAt_sends {b : Bool} {s₀ s : State} {k : Nat} {c : TxCtx} (h : Sends b s₀ s) : Sends b s₀ (setTxAt s k c) := by
  unfold setTxAt
  exact Sends.update h

theorem dropTxAt_sends {b : Bool} {s₀ s : State} {k : Nat} (h : Sends b s₀ s) : Sends b s₀ (dropTxAt s k) := by
  unfold dropTxAt
  exact Sends.update h

theorem originate_sends {b : Bool} {s₀ s : State} {o : Output} (h : Sends b s₀ s) : PairSends b s₀ (originate s o) := by
  unfold originate
  split
  · exact PairSends.mk h
  · next e1 =>
      extract_lets src1 dst1 k1 c1 no1 src2 x1 id1 o1 s1 src3 s2 due1
      have h1 : Sends b s₀ s1 := Sends.update h
      have h2 : Sends b s₀ s2 := by
        unfold s2
        split
        · extract_lets q1
          exact Sends.update h1
        · exact h1
      exact PairSends.mk (setTxAt_sends h2)

theorem park_sends {b : Bool} {s₀ s : State} {o : Output} (h : Sends b s₀ s) : Sends b s₀ (park s o) := by
  unfold park
  extract_lets x1 src1
  exact Sends.update h

theorem countRefused_sends {b : Bool} {s₀ s : State} {tid : Nat} (h : Sends b s₀ s) : Sends b s₀ (countRefused s tid) := by
  unfold countRefused
  exact bumpTen_sends h (by decide) rfl

theorem vaultRequest_sends {b : Bool} {s₀ s : State} {o : Output} {q : Pair} (h : Sends b s₀ s) :
    OptPairSends b s₀ (vaultRequest s o q) := by
  unfold vaultRequest
  extract_lets t1 x1 lo1 n1 cut1 src1
  split
  · split
    · exact OptPairSends.some (PairSends.mk h)
    · exact OptPairSends.none
  · split
    · exact OptPairSends.none
    · split
      · split
        · exact OptPairSends.none
        · exact OptPairSends.some (PairSends.mk (bumpBy_sends h (by decide) rfl))
      · exact OptPairSends.some (PairSends.mk h)

theorem vaultRefuse_sends {b : Bool} {s₀ s : State} {o : Output} {q : Pair} (h : Sends b s₀ s) : Sends b s₀ (vaultRefuse s o q) := by
  unfold vaultRefuse
  extract_lets s1
  have h1 : Sends b s₀ s1 := endOutput_sends (countRefused_sends h)
  split
  · exact legNak_sends h1
  · exact nakPair_sends h1

theorem vaultReply_sends {b : Bool} {s₀ s : State} {o : Output} {p : Pair} (h : Sends b s₀ s) : PairSends b s₀ (vaultReply s o p) := by
  unfold vaultReply
  extract_lets x1 src1
  have h1 : PairSends b s₀
        (match p.enc, keysOf s p.tid.toNat with
        | true, some (k1, k2) => if (decide (p.kind = 0) && decide (x1 % 16 = 0) && decide (o.payload.length % 16 = 0)) = true then (bumpBy s 24704 9 o.payload.length, xts (aesDecrypt k1) k2 x1 o.payload) else (s, o.payload)
        | x, x_1 => (s, o.payload)) := by
    split
    · split
      · exact PairSends.mk (bumpBy_sends h (by decide) rfl)
      · exact PairSends.mk h
    · exact PairSends.mk h
  split
  · next s1 s2 x2 e1 =>
      have h2 := PairSends.of_eq h1 e1
      extract_lets body1
      exact PairSends.mk h2

theorem stage7_sends {b : Bool} {s₀ s : State} {o : Output} (h : Sends b s₀ s) : PairSends b s₀ (stage7 s o) := by
  unfold stage7
  split
  · next x1 x2 x3 e1 =>
      split
      · exact PairSends.mk h
      · have h1 : PairSends b s₀ (vaultReply s o x3) := vaultReply_sends h
        split
        · next s1 s2 x4 e3 =>
            have h2 := PairSends.of_eq h1 e3
            exact PairSends.mk h2
  · next x1 x2 x3 e1 e2 =>
      split
      · have h1 : OptPairSends b s₀ (vaultRequest s o x3) := vaultRequest_sends h
        split
        · next s1 s2 x4 e4 =>
            have h2 := OptPairSends.of_eq h1 e4
            exact PairSends.mk h2
        · exact PairSends.mk (vaultRefuse_sends h)
      · exact PairSends.mk h
  · exact PairSends.mk h

theorem dropOutput_sends {b : Bool} {s₀ s : State} {o : Output} (h : Sends b s₀ s) : Sends b s₀ (dropOutput s o) := by
  unfold dropOutput
  split
  · extract_lets s1 o1
    have h1 : Sends b s₀ s1 := by
      unfold s1
      split
      · exact retire_sends h
      · exact h
    split
    · split
      · exact park_sends h1
      · have h2 : PairSends b s₀ (stage7 s1 o1) := stage7_sends h1
        split
        · next s2 s3 x3 e4 =>
            have h3 := PairSends.of_eq h2 e4
            exact PairSends.fst (originate_sends h3)
        · next s2 s3 e4 =>
            have h3 := PairSends.of_eq h2 e4
            exact h3
    · split
      · exact park_sends h1
      · have h2 : PairSends b s₀ (stage7 s1 o1) := stage7_sends h1
        split
        · next s2 s3 x2 e4 =>
            have h3 := PairSends.of_eq h2 e4
            exact PairSends.fst (originate_sends h3)
        · next s2 s3 e4 =>
            have h3 := PairSends.of_eq h2 e4
            exact h3
  · exact endOutput_sends h

theorem answerLost_sends {b : Bool} {s₀ s : State} {o : Output} (h : Sends b s₀ s) : Sends b s₀ (answerLost s o) := by
  unfold answerLost
  split
  · split
    · exact scanRdBack_sends (stopScan_sends h)
    · split
      · exact legNak_sends h
      · exact nakPair_sends h
  · split
    · exact scanLost_sends h
    · exact h
  · exact h

theorem loseOutput_sends {b : Bool} {s₀ s : State} {o : Output} (h : Sends b s₀ s) : Sends b s₀ (loseOutput s o) := by
  unfold loseOutput
  exact answerLost_sends (endOutput_sends (bumpBy_sends h (by decide) rfl))

theorem spillOutput_sends {b : Bool} {s₀ s : State} {o : Output} {sp : Nat} (h : Sends b s₀ s) : Sends b s₀ (spillOutput s o sp) := by
  unfold spillOutput
  have h1 : PairSends b s₀ (trySpill s o sp) := trySpill_sends h
  split
  · next s1 s2 e1 =>
      have h2 := PairSends.of_eq h1 e1
      exact h2
  · next s1 s2 e1 =>
      have h2 := PairSends.of_eq h1 e1
      exact dropOutput_sends (bump_sends h2 (by decide) rfl)

theorem lodge_sends {b : Bool} {s₀ s : State} {o : Output} (h : Sends b s₀ s) : Sends b s₀ (lodge s o) := by
  unfold lodge
  extract_lets o1 tid1 sp1 cls1 qu1 q1 inSpill1 under1 qn1 ci1 avg1 col1 src1 s1 sel1 mark1 s2 o2
  have h1 : Sends b s₀ s1 := draw_sends (Sends.update h)
  have hcls : cls1 < 8 := o1.hdr.cls.isLt
  have htally (a : Nat) (ha : a = 0x0C ∨ a = 0x0D) : tallied b ci1 a = true := by
    unfold ci1
    rcases ha with rfl | rfl <;> simp [tallied] <;> omega
  have h2 : Sends b s₀ s2 := by
    unfold s2
    split
    · exact bump_sends h1 (by decide) (htally _ (.inr rfl))
    · exact h1
  split
  · exact joinCtl_sends h
  · split
    · exact loseOutput_sends h
    · split
      · exact dropOutput_sends (bumpTen_sends h (by decide) rfl)
      · split
        · exact spillOutput_sends h
        · split
          · exact dropOutput_sends (bump_sends h2 (by decide) (htally _ (.inl rfl)))
          · split
            · exact spillOutput_sends h2
            · exact enqueue_sends h2

theorem takeStores_sends {b : Bool} {s₀ s : State} {o : Output} (h : Sends b s₀ s) : OptPairSends b s₀ (takeStores s o) := by
  unfold takeStores
  split
  · exact OptPairSends.none
  · next hd _ =>
    have hcells : OptPairSends b s₀ (takeCells (useHead s hd) (cellsFor (outLen o))) := takeCells_sends (useHead_sends h)
    split
    · exact OptPairSends.some (PairSends.mk (useHead_sends h))
    · intro p e
      obtain ⟨q, hq, rfl⟩ := Option.map_eq_some_iff.mp e
      exact hcells q hq

theorem admitNew_sends {b : Bool} {s₀ s : State} {o : Output} (h : Sends b s₀ s) : Sends b s₀ (admitNew s o) := by
  unfold admitNew
  extract_lets o1 o2
  split
  · exact park_sends h
  · have h1 : OptPairSends b s₀ (takeStores s o1) := takeStores_sends h
    split
    · next s1 s2 x1 e2 =>
        have h2 := OptPairSends.of_eq h1 e2
        exact lodge_sends h2
    · split
      · exact park_sends h
      · exact endOutput_sends (bump_sends h (by decide) rfl)

theorem screeSend_sends {b : Bool} {s₀ s : State} {c : Scan} {h : Sxt} {payload : List Byte} {counted : Bool} (hs : Sends b s₀ s) :
    Sends b s₀ (screeSend s c h payload counted) := by
  unfold screeSend
  extract_lets x1
  exact admitNew_sends hs

theorem sendRows_sends {b : Bool} {s₀ s : State} {f : RowFrame} (h : Sends b s₀ s) : Sends b s₀ (sendRows s f) := by
  unfold sendRows
  split
  · exact h
  · extract_lets first1
    exact screeSend_sends h
theorem endScan_sends {s₀ s : State} {k : Nat} {c : Scan} (h : Sends true s₀ s) : Sends true s₀ (endScan s k c) := by
  have hsub (n : Nat) : (if n = 0 then 8 else 9) < 256 ∧ tallied true 0x6000 (if n = 0 then 8 else 9) = true := by split <;> decide
  unfold endScan
  extract_lets s1 src1 s2 s3 s4 src2
  have h1 : Sends true s₀ s1 := Sends.foldl (fun _ _ ht => sendRows_sends ht) h
  have h2 : Sends true s₀ s2 := Sends.update h1
  have h3 : Sends true s₀ s3 := screeSend_sends h2
  have h4 : Sends true s₀ s4 := bump_sends h3 (hsub _).1 (hsub _).2
  exact stir_sends (Sends.update h4)

theorem finishScans_sends {s₀ s : State} (h : Sends true s₀ s) : Sends true s₀ (finishScans s) := by
  unfold finishScans
  refine Sends.foldl ?_ h
  intro s1 x1 h1
  split
  · exact endScan_sends h1
  · exact h1

end Sys2Proof.Proofs

/-! What the flush of a port leaves (R52). -/

namespace Sys2Proof.Proofs

open Sys2Proof.Machine Sys2Proof.Claim

/-! ### Ports, ropes and the HBM's bytes stay where outputs and contexts go -/

/-- What leaves identity, time, ports, ropes and the bytes of the HBM, and counts where sending counts. -/
structure Calm (b : Bool) (s₀ s : State) : Prop where
  stays : Stays s₀ s
  sends : Sends b s₀ s

section

variable {β : Type} {b : Bool} {s₀ s : State}

theorem Calm.refl (b : Bool) (s : State) : Calm b s s := ⟨Stays.refl s, Sends.refl b s⟩

theorem Calm.foldl {f : State → β → State} {l : List β} (hf : ∀ s x, Calm b s₀ s → Calm b s₀ (f s x)) (h : Calm b s₀ s) :
    Calm b s₀ (l.foldl f s) := by
  induction l generalizing s with
  | nil => exact h
  | cons x l ih => exact ih (hf s x h)

/-- An update of the transport's and the traffic manager's parts of the state. -/
theorem Calm.update {xport : Xport} {xlat : XlatSt} {trav : TravSt} {tm : TmSt} (h : Calm b s₀ s) :
    Calm b s₀ { s with xport := xport, xlat := xlat, trav := trav, tm := tm } := ⟨Stays.update h.stays, Sends.update h.sends⟩

theorem bumpBy_calm {i a n : Nat} (h : Calm b s₀ s) (ha : a < 256) (hq : tallied b i a = true) : Calm b s₀ (bumpBy s i a n) :=
  ⟨bumpBy_stays h.stays, bumpBy_sends h.sends ha hq⟩

theorem emptySched_calm {lp : Nat} (h : Calm b s₀ s) : Calm b s₀ (emptySched s lp) := by
  unfold emptySched
  extract_lets s1
  have h1 : Calm b s₀ s1 := Calm.foldl (fun _ _ ht => Calm.update ht) h
  exact Calm.update h1

theorem takeQueued_calm {lp : Nat} (h : Calm b s₀ s) : Calm b s₀ (takeQueued s lp).1 := by
  unfold takeQueued
  extract_lets outs sp waits bufs src1 src2 src3 s1
  have h1 : Calm b s₀ s1 := Calm.update h
  exact emptySched_calm (Calm.foldl (fun _ _ ht => ⟨pitonRelease_stays ht.stays, pitonRelease_sends ht.sends⟩) h1)

theorem dropPort_calm {lp ctr : Nat} (h : Calm b s₀ s) (hctr : ctr = 0x1C ∨ ctr = 0x1D) : Calm b s₀ (dropPort s lp ctr) := by
  have htally : ctr < 256 ∧ tallied b (0x2000 + lp) ctr = true := by rcases hctr with rfl | rfl <;> exact ⟨by decide, rfl⟩
  have hq : Calm b s₀ (takeQueued s lp).1 := takeQueued_calm h
  unfold dropPort
  dsimp only
  refine Calm.foldl (fun t o ht => ?_) (bumpBy_calm hq htally.1 htally.2)
  have hend : Calm b s₀ (endOutput t o) := ⟨endOutput_stays ht.stays, endOutput_sends ht.sends⟩
  exact ⟨answerLost_stays hend.stays, answerLost_sends hend.sends⟩

end

theorem finishScans_calm {s₀ s : State} (h : Calm true s₀ s) : Calm true s₀ (finishScans s) :=
  ⟨finishScans_stays h.stays, finishScans_sends h.sends⟩

end Sys2Proof.Proofs

/-! A CRED whose instant finds every head slot freed in its own dp-cycle (R44, R281, R284). -/

namespace Sys2Proof.Proofs

open Sys2Proof.Machine Sys2Proof.Claim

/-! ### The lowest free number of a run -/

theorem lowestFree_run (a n : Nat) : lowestFree a (List.range' a n) = a + n := by
  induction n generalizing a with
  | zero => rfl
  | succ n ih =>
    rw [List.range'_succ, lowestFree, if_neg (Nat.lt_irrefl a), if_pos rfl, ih]
    omega

theorem lowestFree_run_above {lo a n : Nat} (hle : a ≤ lo) (hin : lo ≤ a + n) : lowestFree lo (List.range' a n) = a + n := by
  induction n generalizing a with
  | zero => rw [List.range'_zero, lowestFree]; omega
  | succ n ih =>
    rcases Nat.eq_or_lt_of_le hle with rfl | hlt
    · exact lowestFree_run _ _
    · rw [List.range'_succ, lowestFree, if_pos hlt, ih hlt (by omega)]
      omega

/-! ### The state -/

/-- Every head slot but the first is in use; the dp-cycle of the next CRED frees the first one. -/
def credHeads (used : List Nat) : State := { State.reset with
  sys := { phase := .run }
  obj := [(key 0x1012 1, 10), (key 0x1012 2, 0), (key 0x2000 0x0A, 1)]
  ports := [(0, { link := 2 })]
  trav := { usedHeads := used, frees := { cyc := 15, heads := [0] } } }

/-- The state at the instant of the CRED. -/
def credInstant (used : List Nat) : State :=
  modPort { advanceTo (credHeads used) 900 with free := (advanceTo (credHeads used) 900).free + 8 } 0 (fun p => { p with
    sentLimit := credLimits (credHeads used) 0, lastCred := (advanceTo (credHeads used) 900).time.now })

theorem credHeads_active (used : List Nat) : active (credHeads used) 0 = true ∧ lpo (credHeads used) 0 0x0A = 1 ∧
    obj (credHeads used) 0x1012 2 = 0 ∧ obj (credHeads used) 0x1012 1 = 10 := by
  have hcongr : active (credHeads used) 0 = active (credHeads []) 0 ∧ lpo (credHeads used) 0 0x0A = lpo (credHeads []) 0 0x0A ∧
      obj (credHeads used) 0x1012 2 = obj (credHeads []) 0x1012 2 ∧ obj (credHeads used) 0x1012 1 = obj (credHeads []) 0x1012 1 :=
    ⟨rfl, rfl, rfl, rfl⟩
  obtain ⟨h1, h2, h3, h4⟩ := hcongr
  rw [h1, h2, h3, h4]
  decide +kernel

theorem cyc_cred (used : List Nat) : cyc (credHeads used) = 0 ∧ cyc (credInstant used) = 15 := by
  obtain ⟨h1, h2, h3, h4⟩ : (credHeads used).time.now = 0 ∧ (credHeads used).time.cycAt = 0 ∧ (credHeads used).time.cycBase = 0 ∧
      dpU (credHeads used) = 60 := ⟨rfl, rfl, rfl, rfl⟩
  obtain ⟨g1, g2, g3, g4⟩ : (credInstant used).time.now = 900 ∧ (credInstant used).time.cycAt = 0 ∧ (credInstant used).time.cycBase = 0 ∧
      dpU (credInstant used) = 60 := ⟨rfl, rfl, rfl, rfl⟩
  rw [cyc, cyc, h1, h2, h3, h4, g1, g2, g3, g4]
  decide

/-- Before its instant the first head slot is free. -/
theorem pickHead_credHeads {used : List Nat} (h : lowestFree 0 used = 0) : (pickHead (credHeads used) true).isSome = true := by
  have hcyc : ¬(credHeads used).trav.frees.cyc = cyc (credHeads used) := by
    rw [(cyc_cred used).1]
    exact nofun
  have hseen : unseen (cycFrees (credHeads used)).heads (credHeads used).trav.usedHeads = used := by
    rw [cycFrees, if_neg hcyc]
    rfl
  rw [pickHead, hseen, h]
  rfl

/-- At its instant none is. -/
theorem pickHead_credInstant {used : List Nat} (hlo : lowestFree 0 (insertNat 0 used) = 262144) (hhi : lowestFree 4096 (insertNat 0 used) = 262144) :
    pickHead (credInstant used) true = none := by
  have hcyc : (credInstant used).trav.frees.cyc = cyc (credInstant used) := (cyc_cred used).2.symm
  have hseen : unseen (cycFrees (credInstant used)).heads (credInstant used).trav.usedHeads = insertNat 0 used := by
    rw [cycFrees, if_pos hcyc]
    rfl
  rw [pickHead, hseen, hlo, hhi]
  rfl

/-- The CRED finds no head slot and does not join a queue. -/
theorem exec_credHeads {used : List Nat} (hlo : lowestFree 0 (insertNat 0 used) = 262144) (hhi : lowestFree 4096 (insertNat 0 used) = 262144) :
    exec (.credSend 0) (credHeads used) = .next (credInstant used) := by
  obtain ⟨hactive, hmask, hstep, hinterval⟩ := credHeads_active used
  have hearly (l : List (BitVec 32)) (p : Port) : (List.range 8).any (fun c =>
      decide (obj (credHeads used) 0x1012 2 ≤ (lget l c 0 - lget p.sentLimit c 0).toNat) && decide (0 < obj (credHeads used) 0x1012 2)) = false := by
    rw [hstep]
    simp
  have hnone := pickHead_credInstant hlo hhi
  have hat : (port (credHeads used) 0).lastCred + nsU (obj (credHeads used) 0x1012 1) = 900 := by
    rw [hinterval]
    rfl
  change execCredSend 0 (credHeads used) = _
  unfold execCredSend
  extract_lets mask p lim early u body v
  have he : early = false := hearly lim p
  have hu : u = advanceTo (credHeads used) 900 := by
    unfold u
    rw [he, ← hat]
    rfl
  have hv : v = credInstant used := by
    unfold v
    rw [hu]
    rfl
  rw [hactive, show mask = 1 from hmask, hv, sendCtl, hnone]
  rfl

/-- Refutes O32: a CRED goes at its deadline, in whose dp-cycle every head slot may be taken or just freed. -/
theorem not_pulseCreditAndPause : ¬Obligations.PulseCreditAndPause := by
  unfold Obligations.PulseCreditAndPause
  intro h
  obtain ⟨used, hused⟩ : ∃ l : List Nat, l = List.range' 1 262143 := ⟨_, rfl⟩
  have hfirst : lowestFree 0 used = 0 := by rw [hused, List.range'_succ]; rfl
  have hall : insertNat 0 used = List.range' 0 262144 := by
    rw [hused, List.range'_succ (s := 0), List.range'_succ]
    rfl
  have hlo : lowestFree 0 (insertNat 0 used) = 262144 := by rw [hall, lowestFree_run]
  have hhi : lowestFree 4096 (insertNat 0 used) = 262144 := by rw [hall, lowestFree_run_above (by decide) (by decide)]
  obtain ⟨hactive, hmask, -⟩ := credHeads_active used
  obtain ⟨-, -, -, -, hcred, -⟩ := h (credHeads used) 0
  obtain ⟨t, hexec, -, -, q, hq, -⟩ := hcred hactive (by rw [hmask]; decide) (pickHead_credHeads hfirst) nofun
  rw [exec_credHeads hlo hhi] at hexec
  obtain rfl := Host.Outcome.next.inj hexec
  cases hq

end Sys2Proof.Proofs

/-! Training, and the writes of Mode, LaneMap and LanePolarity (R50 to R56, R60). -/

namespace Sys2Proof.Proofs

open Sys2Proof.Machine Sys2Proof.Claim

/-! ### One port trains, comes up and goes down -/

theorem linkState_port {s : State} {lp n : Nat} (h : linkState s lp = n) (hn : n < 4) : lpDefined s lp = true ∧ (port s lp).link = n := by
  unfold linkState at h
  split at h
  · omega
  · next hdef =>
    split at h
    · omega
    · exact ⟨by simpa using hdef, h⟩

/-- A port in a fresh training attempt. -/
def inTraining (p : Port) (now : Nat) : Port := { p with link := 1, trainAt := now, nextPulse := none }

theorem trainPort_enabled {s : State} {lp : Nat} (hdef : lpDefined s lp = true) (hen : lpo s lp 2 = 1) :
    trainPort s lp = setPort s lp (inTraining (port s lp) s.time.now) := if_pos (by rw [hdef, hen]; rfl)

/-- The counters of a port say nothing of its mode. -/
theorem lpDefined_bump (s : State) (lp n : Nat) {a : Nat} (ha : a < 256) (h1 : a ≠ 1) : lpDefined (bumpBy s (0x2000 + lp) a n) lp = lpDefined s lp := by
  have hmode : lpo (bumpBy s (0x2000 + lp) a n) (lp / 4 * 4) 1 = lpo s (lp / 4 * 4) 1 := obj_bumpBy_ne s n ha (by decide) (.inr h1)
  rw [lpDefined, lpDefined, hmode]
  rfl

theorem lpo_bump (s : State) (lp n : Nat) {a b : Nat} (ha : a < 256) (hb : b < 256) (h : a ≠ b) : lpo (bumpBy s (0x2000 + lp) a n) lp b = lpo s lp b :=
  obj_bumpBy_ne s n ha hb (.inr h)

/-- A link that is lost is counted and trains. -/
theorem loseLink_enabled {s : State} {lp : Nat} (hdef : lpDefined s lp = true) (hen : lpo s lp 2 = 1) :
    loseLink s lp = setPort (bumpLp s lp 0x21) lp (inTraining (port s lp) s.time.now) :=
  trainPort_enabled ((lpDefined_bump s lp 1 (by decide) (by decide)).trans hdef) ((lpo_bump s lp 1 (by decide) (by decide) (by decide)).trans hen)

/-- An attempt that takes 500 ms is abandoned. -/
theorem trainingTimeout_lost {s : State} {lp : Nat} (hlink : linkState s lp = 1) (hdef : lpDefined s lp = true) (hen : lpo s lp 2 = 1) :
    let u := advanceTo s ((port s lp).trainAt + 45000000000)
    exec (.trainingTimeout lp) s = .next (setPort (bumpLp u lp 0x21) lp (inTraining (port s lp) u.time.now)) := by
  have hat : msU 500 = 45000000000 := msU_eq 500
  obtain ⟨x, hx⟩ : ∃ x, x = (port s lp).trainAt + msU 500 := ⟨_, rfl⟩
  have hexec : exec (.trainingTimeout lp) s = .next (loseLink (advanceTo s x) lp) := by
    change execTrainingTimeout lp s = _
    rw [execTrainingTimeout, if_pos hlink, hx]
    rfl
  have hlose := loseLink_enabled (s := advanceTo s x) hdef hen
  have hport : port (advanceTo s x) lp = port s lp := rfl
  rw [hport] at hlose
  rw [← hat, ← hx, hexec, hlose]

theorem trainingComplete_up {s : State} {lp : Nat} (hlink : linkState s lp = 1) (hon : on s = true) :
    ∃ t, exec (.trainingComplete lp) s = .next t ∧ (port t lp).link = 2 ∧
      (port t lp).credLimit = List.replicate 8 0 ∧ (port t lp).cellsSent = List.replicate 8 0 ∧
      (port t lp).pauseUntil = (port s lp).pauseUntil ∧ (port t lp).xoffAt = (port s lp).xoffAt ∧
      (port t lp).credSeen = false ∧ (active t lp = true → (port t lp).nextPulse = some s.time.now) ∧
      t.time = s.time ∧ t.obj = s.obj ∧ ∀ q, q ≠ lp → port t q = port s q := by
  obtain ⟨v, hv⟩ : ∃ v, v = modPort s lp (fun p => { p with
      link := 2, credSeen := false, credLimit := List.replicate 8 0, cellsSent := List.replicate 8 0,
      grantLimit := List.replicate 8 0, sentLimit := List.replicate 8 0 }) := ⟨_, rfl⟩
  have hport : port v lp = { port s lp with link := 2, credSeen := false, credLimit := List.replicate 8 0, cellsSent := List.replicate 8 0
                                            grantLimit := List.replicate 8 0, sentLimit := List.replicate 8 0 } := by
    rw [hv, port_modPort_same]
  have hothers (q : Nat) (hq : q ≠ lp) : port v q = port s q := by rw [hv, port_modPort_ne _ _ hq]
  have hv0 : v.time = s.time ∧ v.obj = s.obj := by
    rw [hv]
    exact ⟨rfl, rfl⟩
  have hexec : exec (.trainingComplete lp) s = .next (enterPort v lp) := by
    change execTrainingComplete lp s = _
    rw [hv]
    exact if_pos (by rw [hlink, hon]; rfl)
  refine ⟨_, hexec, ?_⟩
  by_cases hactive : active v lp = true
  · rw [enterPort_active hactive, port_modPort_same, hport]
    exact ⟨rfl, rfl, rfl, rfl, rfl, rfl, fun _ => congrArg (fun t : TimeSt => some t.now) hv0.1, hv0.1, hv0.2,
      fun q hq => (port_modPort_ne _ _ hq).trans (hothers q hq)⟩
  · rw [enterPort_not hactive, hport]
    exact ⟨rfl, rfl, rfl, rfl, rfl, rfl, fun h => absurd h hactive, hv0.1, hv0.2, hothers⟩

/-! ### A physical port trains afresh (R52, R53) -/

/-- What the flush and the training of a port leave: the identity, the ropes, the settings of the ports, the other ports. -/
structure Retrained (ls : List Nat) (s t : State) : Prop where
  sys : t.sys = s.sys
  ropes : t.ropes = s.ropes
  settings : ∀ i a, 0x2000 ≤ i → i < 0x3000 → a < 0x10 → obj t i a = obj s i a
  others : ∀ q, q ∉ ls → port t q = port s q
  link : ∀ q ∈ ls, (port t q).link = if lpDefined s q && lpo s q 2 == 1 then 1 else 0

theorem lps_small (s : State) : lps s ≤ 384 := by
  unfold lps nLp
  split <;> decide

theorem lpDefined_congr {s t : State} (hsys : t.sys = s.sys) (hobj : ∀ i a, 0x2000 ≤ i → i < 0x3000 → a < 0x10 → obj t i a = obj s i a) (q : Nat) :
    (lpDefined t q && lpo t q 2 == 1) = (lpDefined s q && lpo s q 2 == 1) := by
  have hlps : lps t = lps s := by rw [lps, lps, hsys]
  by_cases hq : q < lps s
  · have hsmall := lps_small s
    have hmode : lpo t (q / 4 * 4) 1 = lpo s (q / 4 * 4) 1 := hobj _ _ (by omega) (by omega) (by decide)
    have hen : lpo t q 2 = lpo s q 2 := hobj _ _ (by omega) (by omega) (by decide)
    rw [lpDefined, lpDefined, hmode, hen, hlps]
  · rw [lpDefined, lpDefined, hlps, decide_eq_false hq]
    rfl

theorem tallied_setting (b : Bool) {i a : Nat} (hlo : 0x2000 ≤ i) (hhi : i < 0x3000) (ha : a < 0x10) : tallied b i a = false := by
  simp [tallied]
  omega

/-- One logical port is flushed and trains. -/
theorem flushTrain_retrained (s : State) (l : Nat) : Retrained [l] s (trainPort (flushQueued s l) l) := by
  obtain ⟨v, hv⟩ : ∃ v, v = flushQueued s l := ⟨_, rfl⟩
  have hcalm : Calm false s v := by
    rw [hv]
    exact dropPort_calm (Calm.refl false s) (.inr rfl)
  have hset (i a : Nat) (hlo : 0x2000 ≤ i) (hhi : i < 0x3000) (ha : a < 0x10) : obj v i a = obj s i a :=
    hcalm.sends.objs i a (by omega) (tallied_setting false hlo hhi ha)
  have hcond := lpDefined_congr hcalm.sends.sys hset l
  have hport (q : Nat) : port v q = port s q := by rw [port, port, hcalm.stays.ports]
  have hkept (f : Port → Port) (hf : ∀ p, (f p).link = if lpDefined s l && lpo s l 2 == 1 then 1 else 0) : Retrained [l] s (modPort v l f) := by
    refine ⟨hcalm.sends.sys, hcalm.stays.ropes, hset, fun q hq => ?_, fun q hq => ?_⟩
    · rw [port_modPort_ne _ _ (by simpa using hq), hport]
    · rw [List.mem_singleton.mp hq, port_modPort_same]
      exact hf _
  rw [← hv, trainPort, hcond]
  split
  · next h => exact hkept _ fun _ => (if_pos h).symm
  · next h => exact hkept _ fun _ => (if_neg h).symm

theorem Retrained.cons {l : Nat} {ls : List Nat} {s t u : State} (h : Retrained [l] s t) (h' : Retrained ls t u) (hl : l ∉ ls) :
    Retrained (l :: ls) s u where
  sys := h'.sys.trans h.sys
  ropes := h'.ropes.trans h.ropes
  settings i a hlo hhi ha := (h'.settings i a hlo hhi ha).trans (h.settings i a hlo hhi ha)
  others q hq := by
    obtain ⟨hne, hmem⟩ : q ≠ l ∧ q ∉ ls := by simpa using hq
    rw [h'.others q hmem, h.others q (by simpa using hne)]
  link q hq := by
    rcases List.mem_cons.mp hq with rfl | hmem
    · rw [h'.others q hl, h.link q (List.mem_singleton_self q)]
    · rw [h'.link q hmem, lpDefined_congr h.sys h.settings]

/-- The ports of a list are flushed and train, one after the other. -/
theorem retrain_all {ls : List Nat} (hdistinct : ls.Nodup) (s : State) : Retrained ls s (ls.foldl (fun s l => trainPort (flushQueued s l) l) s) := by
  induction ls generalizing s with
  | nil => exact ⟨rfl, rfl, fun _ _ _ _ _ => rfl, fun _ _ => rfl, nofun⟩
  | cons l ls ih =>
    obtain ⟨hl, hls⟩ := List.nodup_cons.mp hdistinct
    exact (flushTrain_retrained s l).cons (ih hls _) hl

/-- The logical ports of a physical one. -/
theorem retrainPhys_facts {s : State} {lp : Nat} (hphys : lp % 4 = 0) : let t := retrainPhys s lp
    t.ropes = s.ropes ∧ t.sys = s.sys ∧ (∀ i a, 0x2000 ≤ i → i < 0x3000 → a < 0x10 → obj t i a = obj s i a) ∧
      ∀ j, j < 4 → (port t (lp + j)).link = if lpDefined t (lp + j) && lpo t (lp + j) 2 == 1 then 1 else 0 := by
  intro t
  obtain ⟨ls, hls⟩ : ∃ ls, ls = (List.range 4).map (fun i => lp / 4 * 4 + i) := ⟨_, rfl⟩
  have hdistinct : ls.Nodup := by
    rw [hls]
    exact List.Nodup.map (fun a b h => Nat.add_left_cancel h) List.nodup_range
  have hmem (j : Nat) (hj : j < 4) : lp + j ∈ ls := by
    rw [hls]
    exact List.mem_map.mpr ⟨j, List.mem_range.mpr hj, by omega⟩
  obtain ⟨v, hv⟩ : ∃ v, v = ls.foldl (fun s l => trainPort (flushQueued s l) l) s := ⟨_, rfl⟩
  have hre : Retrained ls s v := by
    rw [hv]
    exact retrain_all hdistinct s
  have ht : t = finishScans v := by
    rw [hv, hls]
    rfl
  have hfin : Calm true v t := by
    rw [ht]
    exact finishScans_calm (Calm.refl true v)
  have hset (i a : Nat) (hlo : 0x2000 ≤ i) (hhi : i < 0x3000) (ha : a < 0x10) : obj t i a = obj s i a :=
    (hfin.sends.objs i a (by omega) (tallied_setting true hlo hhi ha)).trans (hre.settings i a hlo hhi ha)
  have hsys : t.sys = s.sys := hfin.sends.sys.trans hre.sys
  refine ⟨hfin.stays.ropes.trans hre.ropes, hsys, hset, fun j hj => ?_⟩
  rw [lpDefined_congr hsys hset, ← hre.link _ (hmem j hj), port, port, hfin.stays.ports]

/-! ### The writes (R52, R358) -/

/-- A setting that every port has, written on a port that may be. -/
theorem writeObj_port {s : State} {lp sub : Nat} {bs : List Byte} {r : Row} (hs : Served s (0x2000 + lp)) (hlp : lp < lps s) (hsub : sub ≠ 0)
    (hrow : (pageLp s.sys lp).2.find? (fun r => r.sub ≤ sub && sub < r.sub + r.cnt) = some r) (hacc : r.acc = .rws) (hty : ∀ m, r.ty ≠ .domain m)
    (hlen : bs.length = r.ty.width) : writeObj s .can (0x2000 + lp) sub bs =
      if sub = 1 ∧ lp % 4 ≠ 0 then (s, abReadOnly, 0) else if allowed r (ofLE bs) then portWrite s lp sub (fieldsOf (0x2000 + lp) sub (ofLE bs)) r
      else (s, abRange, 0) := by
  have hsmall := lps_small s
  have hpage : page s.sys (0x2000 + lp) = some (pageLp s.sys lp) := by
    unfold page
    rw [if_neg (by omega), if_neg (by omega), if_pos (by omega), Nat.add_sub_cancel_left]
    exact if_pos hlp
  have hin : inBandOnly (0x2000 + lp) r = false := by
    rw [inBandOnly]
    cases hr : r.ty with
    | domain m => exact absurd hr (hty m)
    | _ => simp; omega
  have hrowOf : rowOf s.sys (0x2000 + lp) sub = .ok r := rowOf_page (n := (pageLp s.sys lp).1) hpage hsub (by omega) hrow
  have hidx : (0x2000 + lp) / 4096 = 2 := by omega
  have hfour : (0x2000 + lp) % 4 = lp % 4 := by omega
  have hvalue (w : Nat) : valueWrite s (0x2000 + lp) sub w r = portWrite s lp sub (fieldsOf (0x2000 + lp) sub w) r := by
    rw [valueWrite]
    dsimp only
    rw [if_pos (by omega), Nat.add_sub_cancel_left]
  rw [writeObj, objectFor_served hs hrowOf hin]
  dsimp only
  rw [if_neg (by simp [hacc]), hidx, hfour]
  by_cases hfirst : sub = 1 ∧ lp % 4 ≠ 0
  · rw [if_pos hfirst, if_pos (by simpa using hfirst)]
  · rw [if_neg hfirst, if_neg (by simpa using hfirst)]
    cases hr : r.ty with
    | domain m => exact absurd hr (hty m)
    | _ =>
      dsimp only
      rw [← hr, hlen, bne_self_eq_false, hvalue]
      cases allowed r (ofLE bs) <;> rfl

theorem fieldsOf_port {lp sub : Nat} (v : Nat) (hlp : lp < 384) (hsub : sub ≠ 6) : fieldsOf (0x2000 + lp) sub v = v := by
  unfold fieldsOf
  rw [if_neg (by omega), if_neg (by omega), if_neg (by omega), if_neg (by omega), if_neg (by omega)]

/-- Mode, as the dictionary lists it. -/
def modeRow : Row := rws 1 .u8 0 (.codes [0, 1, 2])

theorem lpIndex_small {lp : Nat} (h : lp < 384) : lpIndex lp = 0x2000 + lp := by rw [lpIndex, Nat.min_eq_left (by omega)]

theorem exec_modeWrite {s : State} {lp : Nat} {v : BitVec 8} (h : lp < 384) : exec (.modeWrite lp v) s = put s (0x2000 + lp) 1 (toLE 1 v.toNat) := by
  rw [← lpIndex_small h]
  rfl

theorem writeObj_mode {s : State} {lp : Nat} {v : BitVec 8} (hs : Served s (0x2000 + lp)) (hlp : lp < lps s) :
    writeObj s .can (0x2000 + lp) 1 (toLE 1 v.toNat) = if 1 = 1 ∧ lp % 4 ≠ 0 then (s, abReadOnly, 0)
      else if allowed modeRow v.toNat then portWrite s lp 1 v.toNat modeRow else (s, abRange, 0) := by
  have hsmall := lps_small s
  have hbyte : ofLE (toLE 1 v.toNat) = v.toNat := (ofLE_toLE _ _).trans (Nat.mod_eq_of_lt v.isLt)
  have hlen : (toLE 1 v.toNat).length = modeRow.ty.width := length_toLE _ _
  rw [writeObj_port hs hlp (by decide) (show _ = some modeRow from rfl) rfl nofun hlen, hbyte, fieldsOf_port _ (by omega) (by decide)]

/-- A kept setting is in force, and the ports and ropes are as they were. -/
theorem keepValue_port {s : State} {lp sub v : Nat} {r : Row} (hacc : r.acc = .rws) : let k := keepValue s (0x2000 + lp) sub v r
    k.ropes = s.ropes ∧ obj k (0x2000 + lp) sub = v := by
  intro k
  have hk : k = storeLater (putObj s (0x2000 + lp) sub v) (0x2000 + lp) sub v := if_pos hacc
  rw [hk]
  exact ⟨rfl, obj_putObj_same s _ _ _⟩

/-- A write that retrains the physical port is answered, and holds. -/
theorem put_retrains {s : State} {lp sub v : Nat} {bs : List Byte} {r : Row} (hs : Served s (0x2000 + lp)) (hacc : r.acc = .rws) (hphys : lp % 4 = 0)
    (hlp : lp < lps s) (hsub : sub < 0x10)
    (hwrite : writeObj s .can (0x2000 + lp) sub bs = ackOk (retrainPhys (keepValue s (0x2000 + lp) sub v r) lp)) :
    ∃ t, put s (0x2000 + lp) sub bs = .next t ∧ t.answer = .ok [] ∧ lpo t lp sub = v ∧ t.ropes = s.ropes ∧
      ∀ j, j < 4 → (port t (lp + j)).link = if lpDefined t (lp + j) && lpo t (lp + j) 2 == 1 then 1 else 0 := by
  obtain ⟨k, hk⟩ : ∃ k, k = keepValue s (0x2000 + lp) sub v r := ⟨_, rfl⟩
  obtain ⟨hropes, hvalue⟩ := keepValue_port (s := s) (lp := lp) (sub := sub) (v := v) hacc
  have hsmall := lps_small s
  rw [← hk] at hropes hvalue hwrite
  obtain ⟨hr, -, hset, hlink⟩ := retrainPhys_facts (s := k) hphys
  obtain ⟨u, hu⟩ : ∃ u, u = retrainPhys k lp := ⟨_, rfl⟩
  rw [← hu] at hr hset hlink hwrite
  have hput : put s (0x2000 + lp) sub bs = .next { u with answer := .ok [] } := by rw [put_served hs, hwrite, answered_ok]
  exact ⟨_, hput, rfl, (hset _ _ (by omega) (by omega) hsub).trans hvalue, hr.trans hropes, hlink⟩

/-- Mode, written on the first logical port of a physical one. -/
theorem modeWrite_trains {s : State} {lp : Nat} {v : BitVec 8} (hs : Served s (0x2000 + lp)) (hlp : lp < lps s) (hphys : lp % 4 = 0) (hv : v.toNat ≤ 2) :
    ∃ t, exec (.modeWrite lp v) s = .next t ∧ t.answer = .ok [] ∧ lpo t lp 1 = v.toNat ∧ t.ropes = s.ropes ∧
      ∀ j, j < 4 → (port t (lp + j)).link = if lpDefined t (lp + j) && lpo t (lp + j) 2 == 1 then 1 else 0 := by
  have hsmall := lps_small s
  have hok : allowed modeRow v.toNat = true := by
    obtain h | h | h : v.toNat = 0 ∨ v.toNat = 1 ∨ v.toNat = 2 := by omega
    all_goals rw [h]; rfl
  rw [exec_modeWrite (by omega)]
  refine put_retrains hs (r := modeRow) rfl hphys hlp (by decide) ?_
  rw [writeObj_mode hs hlp, if_neg (by omega), if_pos hok]
  exact if_pos hphys

/-- LaneMap and LanePolarity, written there. -/
theorem laneWrite_trains {s : State} {lp sub v : Nat} {bs : List Byte} {r : Row} (hs : Served s (0x2000 + lp)) (hlp : lp < lps s) (hphys : lp % 4 = 0)
    (hsub : sub = 0x0C ∨ sub = 0x0D) (hrow : (pageLp s.sys lp).2.find? (fun r => r.sub ≤ sub && sub < r.sub + r.cnt) = some r) (hacc : r.acc = .rws)
    (hchk : r.chk = .any) (hty : r.ty = .u8 ∨ r.ty = .u16) (hlen : bs.length = r.ty.width) (hv : ofLE bs = v) :
    ∃ t, put s (0x2000 + lp) sub bs = .next t ∧ t.answer = .ok [] ∧ lpo t lp sub = v ∧ t.ropes = s.ropes ∧
      ∀ j, j < 4 → (port t (lp + j)).link = if lpDefined t (lp + j) && lpo t (lp + j) 2 == 1 then 1 else 0 := by
  have hsmall := lps_small s
  have hnodomain : ∀ m, r.ty ≠ .domain m := by rcases hty with h | h <;> rw [h] <;> exact nofun
  have hok : allowed r v = true := by rcases hty with h | h <;> rw [allowed, h, hchk] <;> rfl
  refine put_retrains hs hacc hphys hlp (by omega) ?_
  rw [writeObj_port hs hlp (by omega) hrow hacc hnodomain hlen, if_neg (by omega), hv, if_pos hok, fieldsOf_port v (by omega) (by omega)]
  rcases hsub with rfl | rfl
  · exact if_pos hphys
  · exact if_pos hphys

/-- A refused write is counted, and answered with its code. -/
theorem put_refused {s : State} {idx sub c : Nat} {bs : List Byte} (hs : Served s idx) (hc : c ≠ 0) (hwrite : writeObj s .can idx sub bs = (s, c, 0)) :
    put s idx sub bs = .next { bump s 0x0200 7 with answer := .abort c 0 } := by
  rw [put_served hs, hwrite, answered_abort s hc]

/-- Settles O31: one port's training and loss, then the writes that train a physical port. -/
theorem linksTrainComeUpAndGoDown : Obligations.LinksTrainComeUpAndGoDown := by
  unfold Obligations.LinksTrainComeUpAndGoDown
  refine ⟨fun s lp hen => ?_, fun s lp hs hlp => ?_⟩
  · intro p training lost
    refine ⟨fun hlink => ⟨fun hon => trainingComplete_up hlink hon, ?_, ?_⟩, fun hup => ⟨fun a b => ?_, ?_, fun hpwr => ?_⟩⟩
    · obtain ⟨hdef, -⟩ := linkState_port hlink (by decide)
      exact trainingTimeout_lost hlink hdef hen
    · obtain ⟨hdef, -⟩ := linkState_port hlink (by decide)
      exact (if_pos hlink).trans (congrArg Host.Outcome.next (trainPort_enabled hdef hen))
    · intro u
      obtain ⟨hdef, -⟩ := linkState_port (eq_of_beq hup) (by decide)
      refine (if_pos hup).trans (congrArg Host.Outcome.next ?_)
      split
      · refine loseLink_enabled (s := u) ?_ ?_
        · exact (lpDefined_bump _ lp b (by decide) (by decide)).trans ((lpDefined_bump s lp a (by decide) (by decide)).trans hdef)
        · exact (lpo_bump _ lp b (by decide) (by decide) (by decide)).trans ((lpo_bump s lp a (by decide) (by decide) (by decide)).trans hen)
      · rfl
    · obtain ⟨hdef, -⟩ := linkState_port (eq_of_beq hup) (by decide)
      exact (if_pos hup).trans (congrArg Host.Outcome.next (loseLink_enabled hdef hen))
    · exact if_pos (by simpa [hup] using hpwr)
  · intro trains refuses
    have hsmall := lps_small s
    refine ⟨fun v => ⟨fun hphys hv => modeWrite_trains hs hlp hphys hv, fun hphys hv => ?_, fun hphys => ?_⟩, fun v hphys => ⟨?_, ?_⟩⟩
    · have hbad : allowed modeRow v.toNat = false := by
        have hcodes : ([0, 1, 2] : List Nat).contains v.toNat = false := by
          simp
          omega
        exact Bool.and_eq_false_iff.mpr (.inr hcodes)
      have hwrite : writeObj s .can (0x2000 + lp) 1 (toLE 1 v.toNat) = (s, 5, 0) := by
        rw [writeObj_mode hs hlp, if_neg (by omega), hbad]
        rfl
      exact (exec_modeWrite (by omega)).trans (put_refused hs (by decide) hwrite)
    · have hwrite : writeObj s .can (0x2000 + lp) 1 (toLE 1 v.toNat) = (s, 3, 0) := by
        rw [writeObj_mode hs hlp, if_pos ⟨rfl, hphys⟩]
        rfl
      exact (exec_modeWrite (by omega)).trans (put_refused hs (by decide) hwrite)
    · have hv : ofLE (toLE 2 v.toNat) = v.toNat := (ofLE_toLE _ _).trans (Nat.mod_eq_of_lt v.isLt)
      have hexec : exec (.laneMapWrite lp false v) s = put s (0x2000 + lp) 0x0C (toLE 2 v.toNat) := by
        rw [← lpIndex_small (by omega : lp < 384)]
        rfl
      obtain ⟨t, hput, htrains⟩ := laneWrite_trains hs hlp hphys (.inl rfl) rfl rfl rfl (.inr rfl) (length_toLE _ _) hv
      exact ⟨t, hexec.trans hput, htrains⟩
    · have hexec : exec (.laneMapWrite lp true v) s = put s (0x2000 + lp) 0x0D (toLE 1 v.toNat) := by
        rw [← lpIndex_small (by omega : lp < 384)]
        rfl
      have hv : ofLE (toLE 1 v.toNat) = v.toNat % 256 := ofLE_toLE _ _
      obtain ⟨t, hput, htrains⟩ := laneWrite_trains hs hlp hphys (.inr rfl) rfl rfl rfl (.inl rfl) (length_toLE _ _) hv
      exact ⟨t, hexec.trans hput, htrains⟩

end Sys2Proof.Proofs

/-! What Scree's own frames leave, and the ends of scans (R257, R267, R268, R288). -/

namespace Sys2Proof.Proofs

open Sys2Proof.Machine Sys2Proof.Claim

/-! ### An output that asks for no RSP leaves Scree alone -/

theorem takeCells_only {s t : State} {n : Nat} {cs : List Nat} (h : takeCells s n = some (t, cs)) : ∃ trav', t = { s with trav := trav' } := by
  induction n generalizing s t cs with
  | zero => cases h; exact ⟨_, rfl⟩
  | succ n ih =>
    unfold takeCells at h
    split at h
    · cases h
    · next c _ =>
      split at h
      · cases h
      · next u ds hu =>
        cases h
        obtain ⟨trav', e⟩ := ih hu
        exact ⟨trav', e⟩

/-- An output with its stores asks what it asked. -/
theorem takeStores_only {s t : State} {o p : Output} (h : takeStores s o = some (t, p)) :
    (∃ trav', t = { s with trav := trav' }) ∧ ∃ hd cs, p = { o with head := hd, cells := cs } := by
  unfold takeStores at h
  split at h
  · cases h
  · next hd _ =>
    split at h
    · cases h
      exact ⟨⟨_, rfl⟩, hd, o.cells, rfl⟩
    · obtain ⟨⟨u, cs⟩, hu, hup⟩ := Option.map_eq_some_iff.mp h
      cases hup
      obtain ⟨trav', e⟩ := takeCells_only hu
      exact ⟨⟨trav', e⟩, hd, cs, rfl⟩

/-- An output that neither is an RSP nor asks Vault for anything, and whose requester no lost partner has to be told of. -/
structure Simple (s : State) (o : Output) : Prop where
  pair : o.pair = none
  clear : ∀ q, o.req = some q → q.enc = false
  told : o.req = none ∨ (port s o.lp).partner ≠ 2

theorem stage7_simple {s : State} {o : Output} (hpair : o.pair = none) (hclear : ∀ q, o.req = some q → q.enc = false) : stage7 s o = (s, some o) := by
  unfold stage7
  rw [hpair]
  cases hr : o.req with
  | none => rfl
  | some q =>
    dsimp only
    rw [hclear q hr]
    rfl

theorem scree_endOutput (s : State) (o : Output) : (endOutput s o).scree = s.scree := by
  obtain ⟨_, _, _, _, e⟩ := endOutput_only s o
  rw [e]

theorem scree_originate (s : State) (o : Output) : (originate s o).1.scree = s.scree := by
  unfold originate
  split
  · rfl
  · extract_lets src1 dst1 k1 c1 no1 src2 x1 id1 o1 s1 src3 s2 due1
    change s2.scree = s.scree
    unfold s2
    split <;> rfl

theorem scree_dropOutput {s : State} {o : Output} (hpair : o.pair = none) (hclear : ∀ q, o.req = some q → q.enc = false) :
    (dropOutput s o).scree = s.scree := by
  unfold dropOutput
  split
  · extract_lets s1 o1
    have h1 : s1.scree = s.scree := by
      unfold s1
      split <;> rfl
    have h7 : stage7 s1 o1 = (s1, some o1) := stage7_simple hpair hclear
    rw [h7, show o1.pair = none from hpair, Bool.false_or]
    split
    · exact h1
    · exact (scree_originate s1 o1).trans h1
  · exact scree_endOutput s o

theorem scree_trySpill (s : State) (o : Output) (sp : Nat) : (trySpill s o sp).1.scree = s.scree := by
  obtain ⟨_, _, _, _, _, _, e⟩ := trySpill_only s o sp
  rw [e]

theorem scree_spillOutput {s : State} {o : Output} (sp : Nat) (hpair : o.pair = none) (hclear : ∀ q, o.req = some q → q.enc = false) :
    (spillOutput s o sp).scree = s.scree := by
  have hs := scree_trySpill s o sp
  unfold spillOutput
  split
  · next h => rw [h] at hs; exact hs
  · next h => rw [h] at hs; exact (scree_dropOutput hpair hclear).trans hs

theorem scree_enqueue (s : State) (o : Output) : (enqueue s o).scree = s.scree := by
  obtain ⟨_, _, e⟩ := enqueue_only s o
  rw [e]

theorem scree_joinCtl (s : State) (o : Output) : (joinCtl s o).scree = s.scree := by
  have hs := scree_trySpill s o (spreadFor s o)
  unfold joinCtl
  split
  · split
    · next h => rw [h] at hs; exact hs
    · next h => rw [h] at hs; exact (scree_endOutput _ _).trans hs
  · exact scree_enqueue s o

theorem scree_loseOutput {s : State} {o : Output} (hpair : o.pair = none) (hreq : o.req = none) : (loseOutput s o).scree = s.scree := by
  unfold loseOutput answerLost
  rw [hreq, hpair]
  exact scree_endOutput _ _

theorem scree_lodge {s : State} {o : Output} (h : Simple s o) : (lodge s o).scree = s.scree := by
  unfold lodge
  extract_lets o1 tid1 sp1 cls1 qu1 q1 inSpill1 under1 qn1 ci1 avg1 col1 src1 s1 sel1 mark1 s2 o2
  have hp1 : o1.pair = none := h.pair
  have hc1 : ∀ q, o1.req = some q → q.enc = false := h.clear
  have h2 : s2.scree = s.scree := by
    unfold s2
    split <;> rfl
  have ho2 : o2.pair = o1.pair ∧ o2.req = o1.req := by
    unfold o2
    split <;> exact ⟨rfl, rfl⟩
  have hp2 : o2.pair = none := ho2.1.trans hp1
  have hc2 : ∀ q, o2.req = some q → q.enc = false := by rw [ho2.2]; exact hc1
  split
  · exact scree_joinCtl s o1
  · split
    · next hlost => exact scree_loseOutput hp1 (h.told.resolve_right fun hne => hne hlost)
    · split
      · exact scree_dropOutput hp1 hc1
      · split
        · exact scree_spillOutput sp1 hp1 hc1
        · split
          · exact (scree_dropOutput hp2 hc2).trans h2
          · split
            · exact (scree_spillOutput sp1 hp2 hc2).trans h2
            · exact (scree_enqueue s2 o2).trans h2

theorem scree_admitNew {s : State} {o : Output} (h : Simple s o) : (admitNew s o).scree = s.scree := by
  unfold admitNew
  extract_lets o1 o2
  split
  · rfl
  · split
    · next t p htake =>
      obtain ⟨⟨trav', rfl⟩, hd, cs, rfl⟩ := takeStores_only htake
      exact scree_lodge ⟨h.pair, h.clear, h.told⟩
    · split
      · rfl
      · exact scree_endOutput _ _

theorem scree_screeSend (s : State) (c : Scan) (h : Sxt) (payload : List Byte) (counted : Bool) : (screeSend s c h payload counted).scree = s.scree :=
  scree_admitNew ⟨rfl, nofun, .inl rfl⟩

theorem scree_sendRows (s : State) (f : RowFrame) : (sendRows s f).scree = s.scree := by
  unfold sendRows
  split
  · rfl
  · exact scree_screeSend _ _ _ _ _

theorem scree_sendAll (l : List RowFrame) (s : State) : (l.foldl sendRows s).scree = s.scree := by
  induction l generalizing s with
  | nil => rfl
  | cons f l ih => exact (ih _).trans (scree_sendRows s f)

/-! ### Scans end -/

/-- What the end of a scan leaves of Scree: the scan is gone with its row frames. -/
def withoutScan (x : ScreeSt) (k : Nat) : ScreeSt :=
  { x with scans := merase x.scans k, rowFrames := x.rowFrames.filter (fun f => f.scan != k) }

theorem endScan_facts (s : State) (k : Nat) (c : Scan) : let t := endScan s k c
    Stays s t ∧ t.scree = withoutScan s.scree k ∧ (∀ i a, a < 256 → tallied true i a = false → obj t i a = obj s i a) ∧
      ((c.stopped.getD (0, 0)).1 ≠ 0 → obj t 0x6000 9 = (obj s 0x6000 9 + 1) % 2 ^ 64) := by
  intro t
  obtain ⟨u, hu⟩ : ∃ u, u = (s.scree.rowFrames.filter (fun f => f.scan == k)).foldl sendRows s := ⟨_, rfl⟩
  have huscree : u.scree = s.scree := by rw [hu]; exact scree_sendAll _ s
  have husends : Sends false s u := by rw [hu]; exact Sends.foldl (fun _ _ h => sendRows_sends h) (Sends.refl false s)
  obtain ⟨w, hw⟩ : ∃ w, w = screeSend { u with scree := { u.scree with rowFrames := u.scree.rowFrames.filter (fun f => f.scan != k) } } c
      { sub := 2, last := true, addr := c.base } (summaryBytes c) true := ⟨_, rfl⟩
  have hwscree : w.scree = { u.scree with rowFrames := u.scree.rowFrames.filter (fun f => f.scan != k) } := by rw [hw]; exact scree_screeSend _ _ _ _ _
  have hwsends : Sends false s w := by rw [hw]; exact screeSend_sends (Sends.update husends)
  have ht : t = stir { bump w 0x6000 (if (c.stopped.getD (0, 0)).1 = 0 then 8 else 9) with
      scree := { (bump w 0x6000 (if (c.stopped.getD (0, 0)).1 = 0 then 8 else 9)).scree with scans := merase w.scree.scans k } } := by
    rw [hw, hu]
    rfl
  refine ⟨endScan_stays (Stays.refl s), ?_, (endScan_sends (Sends.refl true s)).objs, fun hcode => ?_⟩
  · rw [ht]
    change { w.scree with scans := merase w.scree.scans k } = _
    rw [hwscree, huscree]
    rfl
  · rw [ht, if_neg hcode]
    change obj (bump w 0x6000 9) 0x6000 9 = _
    rw [obj_bump_same, hwsends.objs _ _ (by decide) (by decide)]

/-- Where no scan is over, nothing ends. -/
theorem foldl_running {l : List (Nat × Scan)} (h : ∀ e ∈ l, scanOver e.2 = false) (s : State) :
    l.foldl (fun s e => if scanOver e.2 then endScan s e.1 e.2 else s) s = s :=
  foldl_eq_self l fun e he => if_neg (by rw [h e he]; decide)

theorem finishScans_running {s : State} (h : ∀ e ∈ s.scree.scans, scanOver e.2 = false) : finishScans s = s := foldl_running h s

/-- Where one scan is over, it ends. -/
theorem finishScans_one {s : State} {k : Nat} {c : Scan} {m : Map Scan} (hscans : s.scree.scans = mset m k c) (hm : ∀ e ∈ m, scanOver e.2 = false)
    (hover : scanOver c = true) : finishScans s = endScan s k c := by
  have hsplit : ∃ pre post, mset m k c = pre ++ (k, c) :: post ∧ (∀ e ∈ pre, e ∈ m) ∧ ∀ e ∈ post, e ∈ m := by
    clear hscans hm
    induction m with
    | nil => exact ⟨[], [], rfl, nofun, nofun⟩
    | cons e m ih =>
      obtain ⟨a, v⟩ := e
      unfold mset
      split
      · exact ⟨[], m, rfl, nofun, fun e he => List.mem_cons_of_mem _ he⟩
      · split
        · exact ⟨[], (a, v) :: m, rfl, nofun, fun e he => he⟩
        · obtain ⟨pre, post, heq, hpre, hpost⟩ := ih
          refine ⟨(a, v) :: pre, post, congrArg (List.cons (a, v)) heq, fun e he => ?_, fun e he => List.mem_cons_of_mem _ (hpost e he)⟩
          rcases List.mem_cons.mp he with rfl | h
          · exact List.mem_cons_self
          · exact List.mem_cons_of_mem _ (hpre e h)
  obtain ⟨pre, post, heq, hpre, hpost⟩ := hsplit
  rw [finishScans, hscans, heq, List.foldl_append, foldl_running (fun e he => hm e (hpre e he)), List.foldl_cons]
  dsimp only
  rw [if_pos hover, foldl_running (fun e he => hm e (hpost e he))]

end Sys2Proof.Proofs

/-! Segments, RDs and engines of a scan, by their commands (R255 to R258, R267 to R272). -/

namespace Sys2Proof.Proofs

open Sys2Proof.Machine Sys2Proof.Claim

/-! ### A segment is accepted or refused (R255, R256) -/

theorem scanOf_congr {s t : State} (h : t.scree.scans = s.scree.scans) (x : Sxt) : scanOf t x = scanOf s x := by rw [scanOf, scanOf, h]

theorem segRefused_congr {s t : State} (hscans : t.scree.scans = s.scree.scans) (hprogs : t.scree.progs = s.scree.progs)
    (hrole : ∀ lp, role t lp = role s lp) (g : Segment) : segRefused t g = segRefused s g := by
  unfold segRefused
  rw [scanOf_congr hscans, hprogs, hrole]

theorem segWaits_congr {s t : State} (hscans : t.scree.scans = s.scree.scans) (hprogs : t.scree.progs = s.scree.progs)
    (hpending : t.scree.pendingLoad = s.scree.pendingLoad) (hrole : ∀ lp, role t lp = role s lp) (hten : ∀ k, ten t k 0x62 = ten s k 0x62)
    (g : Segment) : segWaits t g = segWaits s g := by
  unfold segWaits slotPending contextFree
  rw [scanOf_congr hscans, segRefused_congr hscans hprogs hrole, hpending, hscans, hten]

/-- A segment with nothing in it is refused. -/
theorem segRefused_len {s : State} {g : Segment} (h : segRefused s g = none) : g.len ≠ 0 := by
  intro hlen
  unfold segRefused at h
  extract_lets tid sub prog before at h
  clear_value prog before
  split at h
  · split at h <;> cases h
  · extract_lets rb at h
    split at h
    · cases h
    · split at h
      · cases h
      · rw [hlen] at h
        cases h

/-- The state in which the one segment that waits is taken. -/
structure Taken (s u : State) : Prop where
  rest : u = { s with obj := u.obj, scree := { s.scree with waiting := [] } }
  obj : ∀ i a, a < 256 → a ≠ 5 → Machine.obj u i a = Machine.obj s i a

/-- The sequencer takes the one segment that waits, where it need not. -/
theorem exec_scanSegmentAccept {s : State} {g : Segment} (hon : on s = true) (habsent : absent s = false) (hwaiting : s.scree.waiting = [g])
    (hready : segWaits s g = false) : ∃ u, Taken s u ∧
      (segRefused s g = none → exec .scanSegmentAccept s = .next (acceptSegment u g)) ∧
      ∀ e, segRefused s g = some e → exec .scanSegmentAccept s = .next (refuseSegment u g e.1 e.2) := by
  obtain ⟨w, hw⟩ : ∃ w, w = bumpBy s 0x6000 5 0 := ⟨_, rfl⟩
  have hcount : countWaits s = w := by
    have hfresh : s.scree.waiting.filter (fun g => segWaits s g && !g.waited && !slotPending s g.hdr.tid.toNat g.hdr.sub.toNat) = [] := by
      rw [hwaiting, List.filter_cons, hready]
      rfl
    have hmap : s.scree.waiting.map (fun g => if segWaits s g && !slotPending s g.hdr.tid.toNat g.hdr.sub.toNat
        then { g with waited := true } else g) = s.scree.waiting := by
      rw [hwaiting, List.map_cons, hready]
      rfl
    rw [countWaits, hfresh, hmap, hw]
    rfl
  have hwobj (i a : Nat) (ha : a < 256) (h5 : a ≠ 5) : obj w i a = obj s i a := by
    rw [hw]
    exact obj_bumpBy_ne s 0 (by decide) ha (.inr h5.symm)
  have hwrest : w = { s with obj := w.obj } := by
    rw [hw]
    rfl
  obtain ⟨u, hu⟩ : ∃ u, u = { w with scree := { w.scree with waiting := [] } } := ⟨_, rfl⟩
  have hscree : w.scree = s.scree := by rw [hwrest]
  have hfind : w.scree.waiting.find? (fun g => !segWaits w g) = some g := by
    have hsame : segWaits w g = false := (segWaits_congr (by rw [hscree]) (by rw [hscree]) (by rw [hscree])
      (fun lp => hwobj _ 3 (by decide) (by decide)) (fun k => hwobj _ 0x62 (by decide) (by decide)) g).trans hready
    rw [hscree, hwaiting, List.find?_cons, hsame]
    rfl
  have herase : w.scree.waiting.erase g = [] := by rw [hscree, hwaiting, List.erase_cons_head]
  have hrefused : segRefused u g = segRefused s g := by
    refine segRefused_congr (by rw [hu, hscree]) (by rw [hu, hscree]) (fun lp => ?_) g
    rw [hu]
    exact hwobj _ 3 (by decide) (by decide)
  have hexec : exec .scanSegmentAccept s = match segRefused u g with
      | some (code, detail) => .next (refuseSegment u g code detail)
      | none => .next (acceptSegment u g) := by
    change execScanSegmentAccept s = _
    unfold execScanSegmentAccept
    refine (live_on hon _).trans ?_
    rw [habsent, hcount, if_neg (by decide)]
    dsimp only
    rw [hfind]
    dsimp only
    rw [herase]
    subst hu
    rfl
  rw [hrefused] at hexec
  refine ⟨u, ⟨?_, fun i a ha h5 => ?_⟩, fun h => ?_, fun e h => ?_⟩
  · rw [hu, hwrest]
  · rw [hu]
    exact hwobj i a ha h5
  · rw [hexec, h]
  · rw [hexec, h]

/-- The scan that a segment opens. -/
def opened (s : State) (g : Segment) (stopped : Option (Nat × Nat)) : Scan :=
  let p := mget s.scree.progs (progKey g.hdr.tid.toNat g.hdr.sub.toNat) []
  { hdr := g.hdr, hostLp := g.hostLp, count := g.count, prog := p, base := g.base, segs := [segRun s g (progRow p)], arrived := [g.num]
    firstAt := s.time.now, aggs := List.replicate (progNagg p) {}, ecn := g.ecn, stopped := stopped }

/-- The state with the new scan. -/
def withOpened (s u : State) (g : Segment) (stopped : Option (Nat × Nat)) : State :=
  versionUp (setScan { u with scree := { u.scree with nextScan := s.scree.nextScan + 1 } } s.scree.nextScan (opened s g stopped)) g.hdr.rsver

theorem acceptSegment_opens {s u : State} {g : Segment} (hu : Taken s u) (hnone : scanOf s g.hdr = none) : acceptSegment u g =
    finishScans (withOpened s u g (if mediaIn s (progAddr s g.hdr.tid.toNat g.hdr.sub.toNat) 4096 then some (0x0A, 0) else none)) := by
  have hof : scanOf u g.hdr = none := (scanOf_congr (by rw [hu.rest]) _).trans hnone
  unfold acceptSegment
  rw [hof, hu.rest]
  rfl

theorem scanOver_opened {s : State} {g : Segment} (hlen : g.len ≠ 0) : scanOver (opened s g none) = false := by
  have hleft : (opened s g none).segs.all (fun x => x.left == 0) = false := by
    have : ((g.len == 0) && true) = false := by simpa using hlen
    exact this
  rw [scanOver, hleft, Bool.and_false]
  rfl

/-- A segment opens a scan that runs. -/
theorem scanSegmentAccept_opens {s u : State} {g : Segment} (hu : Taken s u) (hnone : scanOf s g.hdr = none) (hok : segRefused s g = none)
    (hlost : mediaIn s (progAddr s g.hdr.tid.toNat g.hdr.sub.toNat) 4096 = false) (hrun : ∀ e ∈ s.scree.scans, scanOver e.2 = false) :
    acceptSegment u g = withOpened s u g none := by
  rw [acceptSegment_opens hu hnone, hlost, if_neg (by decide)]
  refine finishScans_running fun e he => ?_
  have hscans : (withOpened s u g none).scree.scans = mset s.scree.scans s.scree.nextScan (opened s g none) := by
    rw [withOpened, hu.rest]
    rfl
  rw [hscans] at he
  rcases mem_mset he with rfl | hm
  · exact scanOver_opened (segRefused_len hok)
  · exact hrun e hm

/-- A segment whose program is lost ends the scan that it opens. -/
theorem scanSegmentAccept_lost {s u : State} {g : Segment} (hu : Taken s u) (hnone : scanOf s g.hdr = none)
    (hlost : mediaIn s (progAddr s g.hdr.tid.toNat g.hdr.sub.toNat) 4096 = true) (hrun : ∀ e ∈ s.scree.scans, scanOver e.2 = false) :
    let t := acceptSegment u g
    t.scree.waiting = [] ∧ mfind t.scree.scans s.scree.nextScan = none ∧ obj t 0x6000 9 = (obj s 0x6000 9 + 1) % 2 ^ 64 := by
  intro t
  obtain ⟨v, hv⟩ : ∃ v, v = withOpened s u g (some (0x0A, 0)) := ⟨_, rfl⟩
  obtain ⟨c, hc⟩ : ∃ c, c = opened s g (some (0x0A, 0)) := ⟨_, rfl⟩
  have hvscree : v.scree = { s.scree with waiting := [], nextScan := s.scree.nextScan + 1, scans := mset s.scree.scans s.scree.nextScan c } := by
    rw [hv, hc, withOpened, hu.rest]
    rfl
  have hvobj : obj v 0x6000 9 = obj s 0x6000 9 := by
    rw [hv]
    exact hu.obj _ _ (by decide) (by decide)
  have hstop : c.stopped = some (0x0A, 0) := by rw [hc]; rfl
  have hover : scanOver c = true := by rw [hc]; rfl
  have ht : t = endScan v s.scree.nextScan c := by
    change acceptSegment u g = _
    rw [acceptSegment_opens hu hnone, hlost, if_pos rfl, ← hv]
    exact finishScans_one (by rw [hvscree]) hrun hover
  obtain ⟨-, hscree, -, hcount⟩ := endScan_facts v s.scree.nextScan c
  rw [ht, hscree, hcount (by rw [hstop]; decide), hvobj, hvscree]
  exact ⟨rfl, mfind_merase_same _ _, rfl⟩

/-- A refused segment of no scan is answered. -/
theorem refuseSegment_new {s u : State} {g : Segment} (hu : Taken s u) (hnone : scanOf s g.hdr = none) (code detail : Nat) :
    let t := refuseSegment u g code detail
    t.scree.waiting = [] ∧ t.scree.scans = s.scree.scans ∧ obj t 0x6000 0x0E = (obj s 0x6000 0x0E + 1) % 2 ^ 64 := by
  intro t
  have hof : scanOf (bump u 0x6000 0x0E) g.hdr = none := (scanOf_congr (by rw [hu.rest]; rfl) _).trans hnone
  have ht : t = sendNak (bump u 0x6000 0x0E) g.hostLp g.hdr code detail := by
    change refuseSegment u g code detail = _
    unfold refuseSegment
    dsimp only
    rw [hof]
  have hsends : Sends false (bump u 0x6000 0x0E) t := by
    rw [ht]
    exact sendNak_sends (Sends.refl false _)
  have hscree : t.scree = u.scree := by
    obtain ⟨_, _, _, _, _, _, e⟩ := sendCtl_only (bump u 0x6000 0x0E) g.hostLp
      { typ := 6, cls := 7, tid := g.hdr.tid, dst := g.hdr.src, src := g.hdr.dst, ostream := g.hdr.ostream, psn := g.hdr.psn
        tag := if code = 1 then 0 else g.hdr.tag, xarg := BitVec.ofNat 16 (detail * 256 + code), addr := if code = 6 then g.hdr.addr else 0 } []
    rw [ht, sendNak, e]
    rfl
  refine ⟨by rw [hscree, hu.rest], by rw [hscree, hu.rest], ?_⟩
  rw [hsends.objs _ _ (by decide) (by decide), obj_bump_same, hu.obj _ _ (by decide) (by decide)]

theorem segRun_congr {s u : State} (hu : Taken s u) (g : Segment) (rb : Nat) : segRun u g rb = segRun s g rb := by
  rw [hu.rest]
  rfl

/-- The first part of O40. -/
theorem segments_accepted {s : State} {g : Segment} (hon : on s = true) (habsent : absent s = false) (hwaiting : s.scree.waiting = [g])
    (hready : segWaits s g = false) (hrun : ∀ e ∈ s.scree.scans, scanOver e.2 = false) :
    let p := mget s.scree.progs (progKey g.hdr.tid.toNat g.hdr.sub.toNat) []
    let lost := mediaIn s (progAddr s g.hdr.tid.toNat g.hdr.sub.toNat) 4096
    (segRefused s g = none → scanOf s g.hdr = none → lost = true → ∃ t, exec .scanSegmentAccept s = .next t ∧
      t.scree.waiting = [] ∧ mfind t.scree.scans s.scree.nextScan = none ∧ obj t 0x6000 9 = (obj s 0x6000 9 + 1) % 2 ^ 64) ∧
    (segRefused s g = none → scanOf s g.hdr = none → lost = false → ∃ t, exec .scanSegmentAccept s = .next t ∧ t.scree.waiting = [] ∧
      t.scree.nextScan = s.scree.nextScan + 1 ∧ inFlightOf t g.hdr.rsver = inFlightOf s g.hdr.rsver + 1 ∧
      mfind t.scree.scans s.scree.nextScan = some { hdr := g.hdr, hostLp := g.hostLp, count := g.count, prog := p, base := g.base
                                                    segs := [segRun s g (progRow p)], arrived := [g.num]
                                                    firstAt := s.time.now, aggs := List.replicate (progNagg p) {}
                                                    ecn := g.ecn }) ∧
    (∀ k c, segRefused s g = none → scanOf s g.hdr = some (k, c) → ∃ t, exec .scanSegmentAccept s = .next t ∧
      t.scree.waiting = [] ∧ mfind t.scree.scans k =
        some { c with segs := c.segs ++ [segRun s g (progRow c.prog)], arrived := insertNat g.num c.arrived }) ∧
    (∀ e, segRefused s g = some e → scanOf s g.hdr = none → ∃ t, exec .scanSegmentAccept s = .next t ∧
      t.scree.waiting = [] ∧ t.scree.scans = s.scree.scans ∧ obj t 0x6000 0x0E = (obj s 0x6000 0x0E + 1) % 2 ^ 64) := by
  intro p lost
  obtain ⟨u, hu, haccept, hrefuse⟩ := exec_scanSegmentAccept hon habsent hwaiting hready
  refine ⟨fun hok hnone hlost => ⟨_, haccept hok, scanSegmentAccept_lost hu hnone hlost hrun⟩, fun hok hnone hlost => ?_, fun k c hok hof => ?_,
    fun e he hnone => ⟨_, hrefuse e he, refuseSegment_new hu hnone e.1 e.2⟩⟩
  · have hopen := haccept hok
    rw [scanSegmentAccept_opens hu hnone hok hlost hrun] at hopen
    obtain ⟨v, hv⟩ : ∃ v, v = withOpened s u g none := ⟨_, rfl⟩
    have hfacts : v.scree = { s.scree with waiting := [], nextScan := s.scree.nextScan + 1, scans := mset s.scree.scans s.scree.nextScan (opened s g none) } ∧
        v.col.ver.inFlight = mset s.col.ver.inFlight g.hdr.rsver.toNat (inFlightOf s g.hdr.rsver + 1) := by
      rw [hv, withOpened, hu.rest]
      exact ⟨rfl, rfl⟩
    obtain ⟨hscree, hflight⟩ := hfacts
    rw [← hv] at hopen
    refine ⟨v, hopen, by rw [hscree], by rw [hscree], ?_, ?_⟩
    · rw [inFlightOf, hflight, mget_mset_same]
    · rw [hscree]
      exact mfind_mset_same _ _ _
  · have hof' : scanOf u g.hdr = some (k, c) := (scanOf_congr (by rw [hu.rest]) _).trans hof
    have hjoin : acceptSegment u g = setScan u k { c with segs := c.segs ++ [segRun s g (progRow c.prog)], arrived := insertNat g.num c.arrived } := by
      unfold acceptSegment
      rw [hof']
      dsimp only
      rw [segRun_congr hu]
    have hexec := haccept hok
    rw [hjoin] at hexec
    refine ⟨_, hexec, ?_, mfind_mset_same _ _ _⟩
    change u.scree.waiting = []
    rw [hu.rest]

end Sys2Proof.Proofs

/-! RDs, engines and row frames of a scan, by their commands (R256 to R258, R267 to R272). -/

namespace Sys2Proof.Proofs

open Sys2Proof.Machine Sys2Proof.Claim

/-! ### Waits and RDs (R256, R258, R270) -/

/-- A scan without all its segments stops. -/
theorem segmentWait_stops {s : State} {k : Nat} {c : Scan} (hon : on s = true) (hscans : s.scree.scans = [(k, c)]) (hfew : c.arrived.length < c.count)
    (hstop : c.stopped = none) : ∃ t, exec (.segmentWaitExpiry k) s = .next t ∧
      t.time.now = max s.time.now (c.firstAt + 90 * obj s 0x6000 7) ∧
      (c.outstanding ≠ 0 → t.scree.scans = [(k, { c with stopped := some (0x0B, 1) })]) ∧
      (c.outstanding = 0 → t.scree.scans = [] ∧ obj t 0x6000 9 = (obj s 0x6000 9 + 1) % 2 ^ 64) := by
  obtain ⟨d, hd⟩ : ∃ d : Scan, d = { c with stopped := some (0x0B, 1) } := ⟨_, rfl⟩
  obtain ⟨v, hv⟩ : ∃ v, v = advanceTo s (c.firstAt + nsU (obj s 0x6000 7)) := ⟨_, rfl⟩
  have hnow : v.time.now = max s.time.now (c.firstAt + 90 * obj s 0x6000 7) := by rw [hv, advanceTo_now, nsU, Nat.mul_comm _ 90]
  have hvs : v.scree = s.scree ∧ v.obj = s.obj ∧ v.sys = s.sys := by
    rw [hv]
    exact ⟨rfl, rfl, rfl⟩
  obtain ⟨hvscree, hvobj, hvsys⟩ := hvs
  have hfind : mfind v.scree.scans k = some c := by rw [hvscree, hscans, mfind, if_pos rfl]
  obtain ⟨w, hw⟩ : ∃ w, w = { v with scree := { v.scree with scans := mset [(k, c)] k d } } := ⟨_, rfl⟩
  have hstopped : stopScan v k 0x0B 1 = w := by
    unfold stopScan
    rw [hfind]
    dsimp only
    rw [hstop, hw, hd, hvscree, hscans]
    rfl
  have hone : mset [(k, c)] k d = [(k, d)] := by rw [mset, if_pos rfl]
  have hexec : exec (.segmentWaitExpiry k) s = .next (finishScans w) := by
    change execSegmentWaitExpiry k s = _
    unfold execSegmentWaitExpiry
    refine (live_on hon _).trans ?_
    rw [← hvscree, hfind]
    dsimp only
    rw [if_pos (by rw [hstop, decide_eq_true hfew]; rfl), ← hv, hstopped]
  have hdo : d.outstanding = c.outstanding ∧ d.stopped = some (0x0B, 1) := by
    rw [hd]
    exact ⟨rfl, rfl⟩
  obtain ⟨hout, hds⟩ := hdo
  refine ⟨_, hexec, ?_, fun hne => ?_, fun hzero => ?_⟩
  · rw [(finishScans_stays (Stays.refl w)).time, hw]
    exact hnow
  · have hrun : finishScans w = w := finishScans_running fun e he => by
      rw [hw] at he
      rw [List.mem_singleton.mp (show e ∈ [(k, d)] from hone ▸ he), scanOver, hout, beq_false_of_ne hne]
      rfl
    rw [hrun, hw, ← hd]
    exact hone
  · have hnot : ∀ e ∈ [(k, c)], scanOver e.2 = false := fun e he => by
      have hlen : (c.arrived.length == c.count) = false := beq_false_of_ne (Nat.ne_of_lt hfew)
      rw [List.mem_singleton.mp he, scanOver, hstop, hlen, Bool.false_and, Option.isSome_none, Bool.or_self, Bool.and_false]
    have hover : scanOver d = true := by rw [scanOver, hout, hzero, hds]; rfl
    rw [finishScans_one (m := [(k, c)]) (by rw [hw]) hnot hover]
    obtain ⟨-, hscree, -, hcount⟩ := endScan_facts w k d
    refine ⟨?_, ?_⟩
    · rw [hscree, hw]
      change merase (mset [(k, c)] k d) k = []
      rw [hone, merase, List.filter_cons, bne_self_eq_false]
      rfl
    · rw [hcount (by rw [hds]; decide), hw]
      exact congrArg (fun n => (n + 1) % 2 ^ 64) (obj_congr hvobj hvsys _ _)

/-- The one scan is the next of its tenant. -/
theorem exec_scanRdIssue {s : State} {k : Nat} {c : Scan} {g : SegRun} (hon : on s = true) (habsent : absent s = false) (hscans : s.scree.scans = [(k, c)])
    (hstop : c.stopped = none) (hg : c.segs.find? (fun x => x.left != 0) = some g) : exec (.scanRdIssue c.hdr.tid) s =
      if ten s c.hdr.tid.toNat 0x61 < mget s.scree.window c.hdr.tid.toNat 0 then .next (stallTenant s c.hdr.tid.toNat)
      else .next (scanRd { s with scree := { s.scree with stalled := s.scree.stalled.filter (· != c.hdr.tid.toNat) } } k c) := by
  have hany : c.segs.any (fun x => x.left != 0) = true := List.any_eq_true.mpr ⟨g, List.mem_of_find?_eq_some hg, List.find?_some (p := fun x : SegRun => x.left != 0) hg⟩
  have hlive : s.scree.scans.filter (fun e => e.2.hdr.tid == c.hdr.tid && e.2.stopped.isNone && e.2.segs.any (fun g => g.left != 0)) = [(k, c)] := by
    rw [hscans, List.filter_cons, hany, hstop, beq_self_eq_true]
    rfl
  have hhead (p : Nat × Scan → Bool) : (List.filter p [(k, c)] ++ [(k, c)]).head? = some (k, c) := by
    rw [List.filter_cons]
    split <;> rfl
  change execScanRdIssue c.hdr.tid s = _
  unfold execScanRdIssue
  refine (live_on hon _).trans ?_
  dsimp only
  rw [habsent, if_neg (by decide), hlive, hhead]

/-- The RD of a scan in pass-through mode. -/
theorem scanRd_issued {s : State} {k : Nat} {c : Scan} {g : SegRun} (hscans : s.scree.scans = [(k, c)])
    (hg : c.segs.find? (fun x => x.left != 0) = some g) (hmode : ten s c.hdr.tid.toNat 0x50 = 0) (hpartner : (port s g.lp).partner ≠ 2) :
    let t := scanRd s k c
    let m := min g.left (4096 - g.gaddr.toNat % 4096)
    t.ropes = s.ropes ∧ t.scree.stalled = s.scree.stalled ∧ mget t.scree.window c.hdr.tid.toNat 0 = mget s.scree.window c.hdr.tid.toNat 0 + m ∧
      mfind t.scree.scans k = some { c with
        issuedAny := true, outstanding := c.outstanding + 1
        segs := putSeg c.segs { g with
          granule := some (g.gaddr.extractLsb' 21 27).toNat, enc := false, taddr := g.taddr + BitVec.ofNat 64 m
          gaddr := g.gaddr + BitVec.ofNat 64 m, row := g.row + m / progRow c.prog, left := g.left - m } } := by
  intro t m
  obtain ⟨h, hh⟩ : ∃ h : SegRun, h = { g with enc := false, granule := some (bits g.gaddr.toNat 47 21) } := ⟨_, rfl⟩
  obtain ⟨d, hd⟩ : ∃ d : Scan, d = { c with issuedAny := true, outstanding := c.outstanding + 1, segs := putSeg c.segs (segStep h (progRow c.prog) m) } :=
    ⟨_, rfl⟩
  obtain ⟨w, hw⟩ : ∃ w, w = { setScan s k d with scree := { (setScan s k d).scree with
        window := mset (setScan s k d).scree.window c.hdr.tid.toNat (mget (setScan s k d).scree.window c.hdr.tid.toNat 0 + m)
        lastScan := mset (setScan s k d).scree.lastScan c.hdr.tid.toNat k } } := ⟨_, rfl⟩
  obtain ⟨u, hu⟩ : ∃ u, u = sendScanRd w k c h m := ⟨_, rfl⟩
  have ht : t = finishScans u := by
    change scanRd s k c = _
    unfold scanRd
    rw [hg]
    dsimp only
    rw [if_pos hmode, hu, hw, hd, hh]
    rfl
  have hwscans : w.scree.scans = [(k, d)] := by
    rw [hw]
    change mset s.scree.scans k d = _
    rw [hscans, mset, if_pos rfl]
  have hsimple : (sendScanRd w k c h m).scree = w.scree := by
    refine scree_admitNew ⟨rfl, fun q hq => ?_, .inr ?_⟩
    · cases hq
      rw [hh]
    · rw [hw, hh]
      exact hpartner
  have hrun : finishScans u = u := finishScans_running fun e he => by
    rw [hu, hsimple, hwscans] at he
    rw [List.mem_singleton.mp he, scanOver, hd]
    rfl
  have hstays : Stays w u := by
    rw [hu]
    unfold sendScanRd
    exact admitNew_stays (versionUp_stays (Stays.refl w))
  have hropes : w.ropes = s.ropes ∧ w.scree.stalled = s.scree.stalled ∧
      w.scree.window = mset s.scree.window c.hdr.tid.toNat (mget s.scree.window c.hdr.tid.toNat 0 + m) := by
    rw [hw]
    exact ⟨rfl, rfl, rfl⟩
  obtain ⟨hwropes, hwstalled, hwwindow⟩ := hropes
  have hbits : bits g.gaddr.toNat 47 21 = (g.gaddr.extractLsb' 21 27).toNat := bits_toNat g.gaddr 47 21
  rw [ht, hrun]
  refine ⟨hstays.ropes.trans hwropes, ?_, ?_, ?_⟩
  · rw [hu, hsimple, hwstalled]
  · rw [hu, hsimple, hwwindow, mget_mset_same]
  · rw [hu, hsimple, hwscans, mfind, if_pos rfl, hd, hh, hbits]
    rfl

/-- A tenant's RDs wait for its window, or one is issued. -/
theorem scanRdIssue_facts {s : State} {k : Nat} {c : Scan} {g : SegRun} (hon : on s = true) (habsent : absent s = false) (hscans : s.scree.scans = [(k, c)])
    (hstop : c.stopped = none) (hg : c.segs.find? (fun x => x.left != 0) = some g) :
    let tid := c.hdr.tid.toNat
    let m := min g.left (4096 - g.gaddr.toNat % 4096)
    (ten s tid 0x61 < mget s.scree.window tid 0 → exec (.scanRdIssue c.hdr.tid) s = .next (
        if tid ∈ s.scree.stalled then s
        else bumpTen { s with scree := { s.scree with stalled := insertNat tid s.scree.stalled } } tid 0x64)) ∧
      (mget s.scree.window tid 0 ≤ ten s tid 0x61 → ten s tid 0x50 = 0 → (port s g.lp).partner ≠ 2 →
        ∃ t, exec (.scanRdIssue c.hdr.tid) s = .next t ∧ t.ropes = s.ropes ∧
          mget t.scree.window tid 0 = mget s.scree.window tid 0 + m ∧ tid ∉ t.scree.stalled ∧
          mfind t.scree.scans k = some { c with
            issuedAny := true, outstanding := c.outstanding + 1
            segs := putSeg c.segs { g with
              granule := some (g.gaddr.extractLsb' 21 27).toNat, enc := false, taddr := g.taddr + BitVec.ofNat 64 m
              gaddr := g.gaddr + BitVec.ofNat 64 m, row := g.row + m / progRow c.prog, left := g.left - m } }) := by
  intro tid m
  have hexec := exec_scanRdIssue hon habsent hscans hstop hg
  refine ⟨fun hlt => ?_, fun hle hmode hpartner => ?_⟩
  · rw [hexec, if_pos hlt, stallTenant]
    simp only [List.contains_eq_mem, decide_eq_true_eq]
    rfl
  · rw [if_neg (Nat.not_lt.mpr hle)] at hexec
    obtain ⟨v, hv⟩ : ∃ v, v = { s with scree := { s.scree with stalled := s.scree.stalled.filter (· != c.hdr.tid.toNat) } } := ⟨_, rfl⟩
    have hvs : v.scree.scans = [(k, c)] ∧ ten v tid 0x50 = 0 ∧ (port v g.lp).partner ≠ 2 ∧ v.ropes = s.ropes ∧ v.scree.window = s.scree.window ∧
        v.scree.stalled = s.scree.stalled.filter (· != tid) := by
      rw [hv]
      exact ⟨hscans, hmode, hpartner, rfl, rfl, rfl⟩
    obtain ⟨hvscans, hvmode, hvpartner, hvropes, hvwindow, hvstalled⟩ := hvs
    obtain ⟨hropes, hstalled, hwindow, hfind⟩ := scanRd_issued hvscans hg hvmode hvpartner
    rw [← hv] at hexec
    refine ⟨_, hexec, hropes.trans hvropes, hwindow.trans (by rw [hvwindow]), ?_, hfind⟩
    rw [hstalled, hvstalled]
    simp

end Sys2Proof.Proofs

/-! The engines of Scree and the row frames (R267 to R272). -/

namespace Sys2Proof.Proofs

open Sys2Proof.Machine Sys2Proof.Claim

/-! ### Rows are evaluated (R267) -/

/-- Of Scree only scans and row frames have changed. -/
def Filtered (s t : State) : Prop := t.scree = { s.scree with scans := t.scree.scans, rowFrames := t.scree.rowFrames }

theorem Filtered.trans {s t u : State} (h : Filtered s t) (h' : Filtered t u) : Filtered s u := by
  unfold Filtered at h h' ⊢
  rw [h', h]

/-- What the evaluation of `n` rows of a scan leaves: the counts of rows rise, frames may leave. -/
structure Evaluated (k n : Nat) (s t : State) : Prop where
  stays : Stays s t
  scree : Filtered s t
  objs : ∀ i a, a < 256 → tallied false i a = false → i ≠ 0x6000 ∨ a ≠ 0x0A ∧ a ≠ 0x0B → obj t i a = obj s i a
  count : obj s 0x6000 0x0A < 2 ^ 64 → obj t 0x6000 0x0A = (obj s 0x6000 0x0A + n) % 2 ^ 64
  there : (mfind t.scree.scans k).isSome = true

theorem Evaluated.refl {s : State} {k : Nat} (h : (mfind s.scree.scans k).isSome = true) : Evaluated k 0 s s :=
  ⟨Stays.refl s, rfl, fun _ _ _ _ _ => rfl, fun hlt => (Nat.mod_eq_of_lt hlt).symm, h⟩

theorem Evaluated.trans {s t u : State} {k m n : Nat} (h : Evaluated k m s t) (h' : Evaluated k n t u) : Evaluated k (m + n) s u where
  stays := h.stays.trans h'.stays
  scree := h.scree.trans h'.scree
  objs i a ha hi h6 := (h'.objs i a ha hi h6).trans (h.objs i a ha hi h6)
  count hlt := by
    have ht := h.count hlt
    rw [h'.count (by omega), ht]
    omega
  there := h'.there

/-- What the packing of a row leaves. -/
structure Packed (s t : State) : Prop where
  stays : Stays s t
  sends : Sends false s t
  scree : Filtered s t
  scans : t.scree.scans = s.scree.scans

/-- A matching row joins its frame, which leaves when it is full. -/
theorem packRow_packed (s : State) (e k : Nat) (c : Scan) (row : Nat) (bs : List Byte) : Packed s (packRow s e k c row bs) := by
  unfold packRow
  split
  · exact ⟨Stays.refl s, Sends.refl false s, rfl, rfl⟩
  · extract_lets f1 f s1
    have hstays : Stays s s1 := Stays.update (Stays.refl s)
    have hsends : Sends false s s1 := Sends.update (Sends.refl false s)
    split
    · have hscree := scree_sendRows s1 f
      refine ⟨sendRows_stays hstays, sendRows_sends hsends, ?_, ?_⟩
      · rw [Filtered, hscree]
        rfl
      · rw [hscree]
        rfl
    · exact ⟨Stays.update hstays, Sends.update hsends, rfl, rfl⟩

theorem evalRow_facts {s : State} {k : Nat} (e row : Nat) (bs : List Byte) (h : (mfind s.scree.scans k).isSome = true) :
    Evaluated k 1 s (evalRow s e k row bs) := by
  have hscans (d : Scan) : (mfind (mset s.scree.scans k d) k).isSome = true := by rw [mfind_mset_same]; rfl
  have hcount : obj (bump s 0x6000 0x0A) 0x6000 0x0A = (obj s 0x6000 0x0A + 1) % 2 ^ 64 := obj_bump_same s _ _
  have hbump (i a : Nat) (ha : a < 256) (h6 : i ≠ 0x6000 ∨ a ≠ 0x0A ∧ a ≠ 0x0B) : obj (bump s 0x6000 0x0A) i a = obj s i a :=
    obj_bump_ne s (by decide) ha (h6.imp Ne.symm fun h => h.1.symm)
  unfold evalRow
  split
  · next hnone => rw [hnone] at h; cases h
  · extract_lets u hit d aggs d2
    split
    · obtain ⟨v, hv⟩ : ∃ v, v = setScan (bump u 0x6000 0x0B) k d2 := ⟨_, rfl⟩
      have hvs : Stays s v := by
        rw [hv]
        exact Stays.update (bump_stays (bump_stays (Stays.refl s)))
      have hvscree : v.scree = { s.scree with scans := mset s.scree.scans k d2 } := by
        rw [hv]
        rfl
      have hvobj (i a : Nat) (ha : a < 256) (h6 : i ≠ 0x6000 ∨ a ≠ 0x0B) : obj v i a = obj u i a := by
        rw [hv]
        exact obj_bump_ne u (by decide) ha (h6.imp Ne.symm Ne.symm)
      obtain ⟨hstays, hsends, hscree, hsame⟩ := packRow_packed v e k d2 row bs
      rw [← hv]
      refine ⟨hvs.trans hstays, ?_, fun i a ha hi h6 => ?_, fun _ => ?_, ?_⟩
      · rw [Filtered, hscree, hvscree]
      · rw [hsends.objs i a ha hi, hvobj i a ha (h6.imp_right And.right), hbump i a ha h6]
      · rw [hsends.objs _ _ (by decide) (by decide), hvobj _ _ (by decide) (.inr (by decide)), hcount]
      · rw [hsame, hvscree]
        exact hscans d2
    · exact ⟨Stays.update (bump_stays (Stays.refl s)), rfl, fun i a ha _ h6 => hbump i a ha h6, fun _ => hcount, hscans d⟩

/-- The rows of an RSP are evaluated. -/
theorem evalRows_facts {s : State} {k : Nat} (e rb row : Nat) (bs : List Byte) (h : (mfind s.scree.scans k).isSome = true) :
    Evaluated k (bs.length / rb) s (evalRows s e k rb bs row) := by
  unfold evalRows
  generalize bs.length / rb = n
  induction n with
  | zero => exact .refl h
  | succ n ih =>
    rw [List.range_succ, List.foldl_append]
    exact ih.trans (evalRow_facts e (row + n) _ ih.there)

/-! ### The ends of scans, once more -/

/-- What the ends of scans leave. -/
structure Ended (s t : State) : Prop where
  stays : Stays s t
  scree : Filtered s t
  objs : ∀ i a, a < 256 → tallied true i a = false → obj t i a = obj s i a

theorem finishScans_ended (s : State) : Ended s (finishScans s) :=
  foldl_rel (R := Ended) (fun s => ⟨Stays.refl s, rfl, fun _ _ _ _ => rfl⟩)
    (fun h h' => ⟨h.stays.trans h'.stays, h.scree.trans h'.scree, fun i a ha hi => (h'.objs i a ha hi).trans (h.objs i a ha hi)⟩)
    (fun s e => by
      split
      · obtain ⟨hstays, hscree, hobjs, -⟩ := endScan_facts s e.1 e.2
        refine ⟨hstays, ?_, hobjs⟩
        rw [Filtered, hscree]
        rfl
      · exact ⟨Stays.refl s, rfl, fun _ _ _ _ => rfl⟩) s.scree.scans s

/-! ### An engine takes an RSP (R269, R272) -/

/-- The state in which an engine has taken an RSP, whose bytes have left the tenant's window. -/
structure RspTaken (s u : State) (e : Nat) (x : ScreeRsp) : Prop where
  rest : ∃ scans window, u = { advanceTo s (engineFrom s e) with
    scree := { s.scree with rspQ := s.scree.rspQ.erase x, lastTid := x.tid.toNat, scans := scans, window := window } }
  there : (mfind u.scree.scans x.scan).isSome = true

/-- The RSP leaves the queue of an engine's time. -/
def unqueued (s : State) (e : Nat) (x : ScreeRsp) : State :=
  { advanceTo s (engineFrom s e) with scree := { (advanceTo s (engineFrom s e)).scree with
      rspQ := (advanceTo s (engineFrom s e)).scree.rspQ.erase x, lastTid := x.tid.toNat } }

theorem rspTaken {s : State} (e : Nat) {x : ScreeRsp} {c : Scan} (hc : mfind s.scree.scans x.scan = some c) :
    RspTaken s (if x.bytes = 0 then unqueued s e x else scanRdBack (unqueued s e x) x.scan x.bytes) e x := by
  have hvc : mfind (unqueued s e x).scree.scans x.scan = some c := hc
  split
  · exact ⟨⟨s.scree.scans, s.scree.window, rfl⟩, by rw [hvc]; rfl⟩
  · have hback : scanRdBack (unqueued s e x) x.scan x.bytes = { unqueued s e x with scree := { (unqueued s e x).scree with
        scans := mset s.scree.scans x.scan { c with outstanding := c.outstanding - 1 }
        window := mset s.scree.window c.hdr.tid.toNat (mget s.scree.window c.hdr.tid.toNat 0 - x.bytes) } } := by
      unfold scanRdBack
      rw [hvc]
      rfl
    rw [hback]
    exact ⟨⟨_, _, rfl⟩, by rw [show mfind _ x.scan = _ from mfind_mset_same _ _ _]; rfl⟩

theorem engineTime_congr {s t : State} (h : t.pwr = s.pwr) (p : List Byte) (n : Nat) : engineTime t p n = engineTime s p n := by
  unfold engineTime dpU fstepNow
  rw [h]

/-- An engine is busy with an RSP, which its tenant is charged. -/
def loaded (u : State) (e : Nat) (x : ScreeRsp) (p : List Byte) : State :=
  let w := bumpBy u (0x3000 + x.tid.toNat) 0x65 x.data.length
  { w with scree := { w.scree with busy := mset w.scree.busy e (x.tid.toNat, w.time.now + engineTime w p x.data.length) } }

/-- The RSP is evaluated, and the scans that are over end. -/
def engineDone (u : State) (e : Nat) (x : ScreeRsp) (p : List Byte) : State :=
  finishScans (evalRows (loaded u e x p) e x.scan (progRow p) x.data x.row)

/-- What an engine leaves that has evaluated an RSP. -/
structure Done (u t : State) (e : Nat) (x : ScreeRsp) (p : List Byte) : Prop where
  time : t.time = u.time
  busy : mfind t.scree.busy e = some (x.tid.toNat, u.time.now + engineTime u p x.data.length)
  rspQ : t.scree.rspQ = u.scree.rspQ
  lastTid : t.scree.lastTid = u.scree.lastTid
  removed : t.scree.removed = u.scree.removed
  charged : obj t (0x3000 + x.tid.toNat) 0x65 = (obj u (0x3000 + x.tid.toNat) 0x65 + x.data.length) % 2 ^ 64
  rows : obj u 0x6000 0x0A < 2 ^ 64 → obj t 0x6000 0x0A = (obj u 0x6000 0x0A + x.data.length / progRow p) % 2 ^ 64
  retries : obj t 0x6000 0x0C = obj u 0x6000 0x0C

theorem engineDone_done {u : State} {x : ScreeRsp} (e : Nat) (p : List Byte) (h : (mfind u.scree.scans x.scan).isSome = true) :
    Done u (engineDone u e x p) e x p := by
  have htid := x.tid.isLt
  have hcharge : tallied true (0x3000 + x.tid.toNat) 0x65 = false ∧ tallied false (0x3000 + x.tid.toNat) 0x65 = false := by
    simp [tallied]
    omega
  obtain ⟨v, hv⟩ : ∃ v, v = loaded u e x p := ⟨_, rfl⟩
  have hvtime : v.time = u.time := by rw [hv]; rfl
  have hvscree : v.scree = { u.scree with busy := mset u.scree.busy e (x.tid.toNat, u.time.now + engineTime u p x.data.length) } := by
    rw [hv]
    rfl
  have hvsame (i a : Nat) (ha : a < 256) (h65 : a ≠ 0x65) : obj v i a = obj u i a := by
    rw [hv]
    exact obj_bumpBy_ne u _ (by decide) ha (.inr h65.symm)
  have hvcharge : obj v (0x3000 + x.tid.toNat) 0x65 = (obj u (0x3000 + x.tid.toNat) 0x65 + x.data.length) % 2 ^ 64 := by
    rw [hv]
    exact obj_bumpBy_same u _ _ _
  have hthere : (mfind v.scree.scans x.scan).isSome = true := by rw [hvscree]; exact h
  obtain ⟨w, hw⟩ : ∃ w, w = evalRows v e x.scan (progRow p) x.data x.row := ⟨_, rfl⟩
  have hev : Evaluated x.scan (x.data.length / progRow p) v w := by
    rw [hw]
    exact evalRows_facts e (progRow p) x.row x.data hthere
  have hend := finishScans_ended w
  have ht : engineDone u e x p = finishScans w := by rw [engineDone, hw, hv]
  rw [ht]
  have hscree := hev.scree.trans hend.scree
  unfold Filtered at hscree
  rw [hvscree] at hscree
  refine ⟨(hend.stays.time.trans hev.stays.time).trans hvtime, ?_, by rw [hscree], by rw [hscree], by rw [hscree], ?_, fun hlt => ?_, ?_⟩
  · rw [hscree]
    exact mfind_mset_same _ _ _
  · rw [hend.objs _ _ (by decide) hcharge.1, hev.objs _ _ (by decide) hcharge.2 (.inl (by omega)), hvcharge]
  · have hlt' : obj v 0x6000 0x0A < 2 ^ 64 := by rw [hvsame _ _ (by decide) (by decide)]; exact hlt
    rw [hend.objs _ _ (by decide) (by decide), hev.count hlt', hvsame _ _ (by decide) (by decide)]
  · rw [hend.objs _ _ (by decide) (by decide), hev.objs _ _ (by decide) (by decide) (.inr (by decide)), hvsame _ _ (by decide) (by decide)]

/-- An engine with a lasting fault leaves service, and the scan stops. -/
def engineLost (u : State) (e : Nat) (x : ScreeRsp) : State :=
  finishScans (stopScan (cairn (bump { u with scree := { u.scree with removed := insertNat e u.scree.removed } } 0x6000 0x0D) 7 1 3 (toLE 1 e)) x.scan 4 e)

theorem engineLost_facts (u : State) (e : Nat) (x : ScreeRsp) : let t := engineLost u e x
    t.scree.rspQ = u.scree.rspQ ∧ t.scree.removed = insertNat e u.scree.removed ∧ obj t 0x6000 0x0D = (obj u 0x6000 0x0D + 1) % 2 ^ 64 := by
  intro t
  obtain ⟨v, hv⟩ : ∃ v, v = bump { u with scree := { u.scree with removed := insertNat e u.scree.removed } } 0x6000 0x0D := ⟨_, rfl⟩
  have hvscree : v.scree = { u.scree with removed := insertNat e u.scree.removed } := by rw [hv]; rfl
  have hvobj : obj v 0x6000 0x0D = (obj u 0x6000 0x0D + 1) % 2 ^ 64 := by rw [hv]; exact obj_bump_same _ _ _
  obtain ⟨w, hw⟩ : ∃ w, w = cairn v 7 1 3 (toLE 1 e) := ⟨_, rfl⟩
  have hwsends : Sends false v w := by rw [hw]; exact cairn_sends (Sends.refl false v)
  have hwscree : w.scree = v.scree := by
    obtain ⟨_, _, h⟩ := cairn_only v 7 1 3 (toLE 1 e)
    rw [hw, h]
  have hstop : Filtered w (stopScan w x.scan 4 e) := by
    unfold stopScan
    split <;> rfl
  have hsends : Sends false w (stopScan w x.scan 4 e) := stopScan_sends (Sends.refl false w)
  have hend := finishScans_ended (stopScan w x.scan 4 e)
  have ht : t = finishScans (stopScan w x.scan 4 e) := by
    rw [hw, hv]
    rfl
  have hscree := hstop.trans hend.scree
  unfold Filtered at hscree
  rw [hwscree, hvscree] at hscree
  rw [ht]
  refine ⟨by rw [hscree], by rw [hscree], ?_⟩
  rw [hend.objs _ _ (by decide) (by decide), hsends.objs _ _ (by decide) (by decide), hwsends.objs _ _ (by decide) (by decide), hvobj]

/-- What an engine does with the RSP that it takes: it evaluates it, hands it to another engine, or leaves service. -/
theorem exec_screeRspEvaluate {s : State} {e : Nat} {x : ScreeRsp} {c : Scan} (hup : engineUp s e = true)
    (hnext : nextRsp (advanceTo s (engineFrom s e)) = some x) (hc : mfind s.scree.scans x.scan = some c) :
    let u := if x.bytes = 0 then unqueued s e x else scanRdBack (unqueued s e x) x.scan x.bytes
    exec (.screeRspEvaluate e 0) s = .next (engineDone u e x c.prog) ∧
    (∀ m, retryEngine (advanceTo s (engineFrom s e)) e = some m →
      exec (.screeRspEvaluate e 1) s = .next (engineDone (bump (advanceTo u (engineFrom u m)) 0x6000 0x0C) m x c.prog)) ∧
    exec (.screeRspEvaluate e 2) s = .next (engineLost u e x) := by
  intro u
  have hvc : mfind (unqueued s e x).scree.scans x.scan = some c := hc
  have hexec (parity : Nat) : execScreeRspEvaluate e parity s =
      (let mate := retryEngine (unqueued s e x) e
       let bad := parity != 0 && (2 ≤ parity || mate.isNone)
       if bad then .next (engineLost u e x)
       else
         let f := if parity = 0 then e else mate.getD e
         .next (engineDone (if parity = 0 then u else bump (advanceTo u (engineFrom u f)) 0x6000 0x0C) f x c.prog)) := by
    unfold execScreeRspEvaluate
    rw [hup, if_neg (by decide)]
    dsimp only
    rw [hnext]
    dsimp only
    change (match mfind (unqueued s e x).scree.scans x.scan with | none => _ | some c => _) = _
    rw [hvc]
    rfl
  refine ⟨hexec 0, fun m hm => (hexec 1).trans ?_, hexec 2⟩
  have hmate : retryEngine (unqueued s e x) e = some m := hm
  dsimp only
  rw [hmate]
  rfl

/-- The three ends of an RSP. -/
theorem screeRsp_facts {s : State} {e k : Nat} {x : ScreeRsp} {c : Scan} (hscans : s.scree.scans = [(k, c)]) (hup : engineUp s e = true)
    (hnext : nextRsp (advanceTo s (engineFrom s e)) = some x) (hk : x.scan = k) :
    (∃ t, exec (.screeRspEvaluate e 0) s = .next t ∧ t.time.now = max s.time.now (engineFrom s e) ∧
        mfind t.scree.busy e = some (x.tid.toNat, t.time.now + engineTime s c.prog x.data.length) ∧ t.scree.rspQ = s.scree.rspQ.erase x ∧ t.scree.lastTid = x.tid.toNat ∧
        obj t (0x3000 + x.tid.toNat) 0x65 = (obj s (0x3000 + x.tid.toNat) 0x65 + x.data.length) % 2 ^ 64 ∧
        (obj s 0x6000 0x0A < 2 ^ 64 →
          obj t 0x6000 0x0A = (obj s 0x6000 0x0A + x.data.length / progRow c.prog) % 2 ^ 64)) ∧
      (∀ m, retryEngine (advanceTo s (engineFrom s e)) e = some m → ∃ t, exec (.screeRspEvaluate e 1) s = .next t ∧
        t.time.now = max (max s.time.now (engineFrom s e)) (engineFrom s m) ∧ t.scree.rspQ = s.scree.rspQ.erase x ∧
        mfind t.scree.busy m = some (x.tid.toNat, t.time.now + engineTime s c.prog x.data.length) ∧
        t.scree.removed = s.scree.removed ∧ obj t 0x6000 0x0C = (obj s 0x6000 0x0C + 1) % 2 ^ 64) ∧
      ∃ t, exec (.screeRspEvaluate e 2) s = .next t ∧ t.scree.rspQ = s.scree.rspQ.erase x ∧
        t.scree.removed = insertNat e s.scree.removed ∧ obj t 0x6000 0x0D = (obj s 0x6000 0x0D + 1) % 2 ^ 64 := by
  have hc : mfind s.scree.scans x.scan = some c := by rw [hscans, hk, mfind, if_pos rfl]
  obtain ⟨hplain, hretry, hlost⟩ := exec_screeRspEvaluate hup hnext hc
  obtain ⟨u, hu⟩ : ∃ u, u = if x.bytes = 0 then unqueued s e x else scanRdBack (unqueued s e x) x.scan x.bytes := ⟨_, rfl⟩
  obtain ⟨⟨scans, window, hrest⟩, hthere⟩ := rspTaken e hc
  rw [← hu] at hplain hretry hlost hrest hthere
  have hu' : u.time = (advanceTo s (engineFrom s e)).time ∧ u.pwr = s.pwr ∧ u.scree.rspQ = s.scree.rspQ.erase x ∧ u.scree.lastTid = x.tid.toNat ∧
      u.scree.removed = s.scree.removed ∧ u.scree.busy = s.scree.busy ∧ u.obj = s.obj ∧ u.sys = s.sys := by
    rw [hrest]
    exact ⟨rfl, rfl, rfl, rfl, rfl, rfl, rfl, rfl⟩
  obtain ⟨htime, hpwr, hrspQ, hlast, hremoved, hbusy, hobj, hsys⟩ := hu'
  have hnow : u.time.now = max s.time.now (engineFrom s e) := by rw [htime, advanceTo_now]
  have hread (i a : Nat) : obj u i a = obj s i a := obj_congr hobj hsys i a
  refine ⟨⟨_, hplain, ?_⟩, fun m hm => ⟨_, hretry m hm, ?_⟩, ⟨_, hlost, ?_⟩⟩
  · have hd := engineDone_done e c.prog hthere
    have hcharged := hd.charged
    have hrows := hd.rows
    rw [hread] at hcharged
    rw [hread] at hrows
    refine ⟨by rw [hd.time, hnow], ?_, hd.rspQ.trans hrspQ, hd.lastTid.trans hlast, hcharged, hrows⟩
    rw [hd.busy, hd.time, engineTime_congr hpwr]
  · obtain ⟨v, hv⟩ : ∃ v, v = bump (advanceTo u (engineFrom u m)) 0x6000 0x0C := ⟨_, rfl⟩
    have hv' : v.time = (advanceTo u (engineFrom u m)).time ∧ v.pwr = u.pwr ∧ v.scree = u.scree ∧
        obj v 0x6000 0x0C = (obj u 0x6000 0x0C + 1) % 2 ^ 64 := by
      rw [hv]
      exact ⟨rfl, rfl, rfl, obj_bump_same _ _ _⟩
    obtain ⟨hvtime, hvpwr, hvscree, hvobj⟩ := hv'
    have hd := engineDone_done (u := v) m c.prog (by rw [hvscree]; exact hthere)
    have hfrom : engineFrom u m = engineFrom s m := by rw [engineFrom, engineFrom, hbusy]
    rw [← hv]
    refine ⟨?_, ?_, ?_, ?_, ?_⟩
    · rw [hd.time, hvtime, advanceTo_now, hnow, hfrom]
    · rw [hd.rspQ, hvscree, hrspQ]
    · rw [hd.busy, hd.time, engineTime_congr (hvpwr.trans hpwr)]
    · rw [hd.removed, hvscree, hremoved]
    · rw [hd.retries, hvobj, hread]
  · obtain ⟨hq, hr, ho⟩ := engineLost_facts u e x
    exact ⟨hq.trans hrspQ, hr.trans (by rw [hremoved]), ho.trans (by rw [hread])⟩

/-! ### Row frames (R267) -/

/-- A part-filled row frame leaves. -/
theorem rowFlush_facts {s : State} {f : RowFrame} (hon : on s = true) (hframes : s.scree.rowFrames = [f]) :
    ∃ t, exec (.rowFlushExpiry f.engine f.scan) s = .next t ∧
      t.scree.rowFrames = [] ∧ t.time.now = max s.time.now (f.firstAt + 90 * obj s 0x6000 6) ∧ t.scree.scans = s.scree.scans := by
  obtain ⟨v, hv⟩ : ∃ v, v = advanceTo s (f.firstAt + nsU (obj s 0x6000 6)) := ⟨_, rfl⟩
  have hvscree : v.scree = s.scree := by rw [hv]; rfl
  have hnow : v.time.now = max s.time.now (f.firstAt + 90 * obj s 0x6000 6) := by rw [hv, advanceTo_now, nsU, Nat.mul_comm _ 90]
  have hfind : s.scree.rowFrames.find? (fun x => x.engine == f.engine && x.scan == f.scan) = some f := by
    rw [hframes, List.find?_cons, beq_self_eq_true, beq_self_eq_true]
    rfl
  have hexec : exec (.rowFlushExpiry f.engine f.scan) s = .next (sendRows (dropRowFrame v f.engine f.scan) f) := by
    change execRowFlushExpiry f.engine f.scan s = _
    unfold execRowFlushExpiry
    refine (live_on hon _).trans ?_
    rw [hfind]
    dsimp only
    rw [← hv]
  have hdropped : (dropRowFrame v f.engine f.scan).scree = { s.scree with rowFrames := [] } := by
    have hnone : v.scree.rowFrames.filter (fun x => !(x.engine == f.engine && x.scan == f.scan)) = [] := by
      rw [hvscree, hframes, List.filter_cons, beq_self_eq_true, beq_self_eq_true]
      rfl
    unfold dropRowFrame
    dsimp only
    rw [hnone, hvscree]
  refine ⟨_, hexec, ?_, ?_, ?_⟩
  · rw [scree_sendRows, hdropped]
  · rw [(sendRows_stays (Stays.refl _)).time]
    exact hnow
  · rw [scree_sendRows, hdropped]

/-- Settles O40: segments, waits and RDs, engines, row frames. -/
theorem scansRunThroughTheirSegments : Obligations.ScansRunThroughTheirSegments := by
  unfold Obligations.ScansRunThroughTheirSegments
  refine ⟨fun s g hon habsent hwaiting hready hrun => segments_accepted hon habsent hwaiting hready hrun, fun s k c hon hscans =>
    ⟨fun hfew hstop => segmentWait_stops hon hscans hfew hstop, fun g habsent hstop hg => scanRdIssue_facts hon habsent hscans hstop hg,
      fun e x hup hnext hk => screeRsp_facts hscans hup hnext hk⟩, fun s f hon hframes => rowFlush_facts hon hframes⟩

end Sys2Proof.Proofs

/-! A frame comes to a port: the MAC's tests, its place in the buffer, and PULSE and CRED (R24, R44, R47, R281). -/

namespace Sys2Proof.Proofs

open Sys2Proof.Machine Sys2Proof.Claim

/-! ### The port MAC (R24) -/

theorem toLE_byte {n v i : Nat} (hi : i < n) : (toLE n v)[i]? = some (BitVec.ofNat 8 (v / 256 ^ i)) := by
  rw [toLE_eq_map_range, List.getElem?_map, List.getElem?_range hi]
  rfl

theorem slice_byte {bs : List Byte} {a n i : Nat} (hi : i < n) (hlen : a + n ≤ bs.length) : (slice bs a n)[i]? = some (lget bs (a + i) 0) := by
  have htake : ((bs.drop a).take n).length = n := by
    rw [List.length_take, List.length_drop]
    omega
  have hslice : slice bs a n = (bs.drop a).take n := by
    simp only [slice, htake, Nat.sub_self, List.replicate_zero, List.append_nil]
  rw [hslice, List.getElem?_take_of_lt hi, List.getElem?_drop, lget, List.getElem?_eq_getElem (by omega)]
  rfl

theorem macTest_short {bs : List Byte} (h : bs.length < 64) : macTest bs = .undersize := if_pos h

/-- The longest frame is one of 4,150 to 4,198 B. -/
theorem maxFrame_between (et : Nat) : 4150 ≤ (if et = 0x86DD then 4198 else 4150) ∧ (if et = 0x86DD then 4198 else 4150) ≤ 4198 := by
  split <;> decide

theorem macTest_long {bs : List Byte} (h : 4198 < bs.length) : macTest bs = .oversize := by
  rw [macTest, if_neg (by omega)]
  exact if_pos ((maxFrame_between _).2.trans_lt h)

/-- A last byte that is not the FCS's fails the frame. -/
theorem macTest_fcs {bs : List Byte} (hmin : 64 ≤ bs.length) (hmax : bs.length ≤ 4150)
    (h : ∃ i, i < 4 ∧ lget bs (bs.length - 4 + i) 0 ≠ BitVec.ofNat 8 (crc32 (bs.take (bs.length - 4)) / 256 ^ i)) : macTest bs = .fcs := by
  obtain ⟨i, hi, hne⟩ := h
  have hdiff : slice bs (bs.length - 4) 4 ≠ toLE 4 (crc32 (bs.take (bs.length - 4))) := fun heq => by
    have hbyte := congrArg (fun l : List Byte => l[i]?) heq
    rw [slice_byte hi (by omega), toLE_byte hi] at hbyte
    exact hne (Option.some.inj hbyte)
  rw [macTest, if_neg (by omega)]
  refine (if_neg (Nat.not_lt.mpr (hmax.trans (maxFrame_between _).1))).trans (if_pos ?_)
  simpa using hdiff

theorem linkUp_port {s : State} {lp : Nat} (h : linkUp s lp = true) : lp < 384 ∧ (port s lp).link = 2 := by
  obtain ⟨hdef, hlink⟩ := linkState_port (of_decide_eq_true h) (by decide)
  have hsmall := lps_small s
  rw [lpDefined, Bool.and_eq_true, decide_eq_true_eq] at hdef
  exact ⟨by omega, hlink⟩

/-- A port whose link is up is not one that sleeps. -/
theorem wokenBy_up {s : State} {lp : Nat} (h : linkUp s lp = true) : wokenBy s lp = s :=
  if_neg (by rw [(linkUp_port h).2]; simp)

theorem exec_frameFailed {s : State} {lp nb ctr : Nat} {bs : List Byte} (hon : on s = true) (hup : linkUp s lp = true)
    (h : macTest bs = .undersize ∧ ctr = 0x24 ∨ macTest bs = .oversize ∧ ctr = 0x18 ∨ macTest bs = .fcs ∧ ctr = 0x16) :
    exec (.frameReceived lp bs nb) s = .next (bumpLp (stir s) lp ctr) := by
  change execFrameReceived lp bs nb s = _
  rw [execFrameReceived, wokenBy_up hup]
  dsimp only
  rw [if_neg (by rw [hon, hup]; decide)]
  rcases h with ⟨htest, rfl⟩ | ⟨htest, rfl⟩ | ⟨htest, rfl⟩ <;> rw [htest] <;> rfl

/-! ### The frame is counted and stored (R281) -/

/-- What a step that took a frame of `n` bytes at a port leaves. -/
structure Took (lp n : Nat) (s t : State) : Prop where
  frames : lpo t lp 0x12 = (lpo s lp 0x12 + 1) % 2 ^ 64
  bytes : lpo t lp 0x14 = (lpo s lp 0x14 + n) % 2 ^ 64
  ropes : t.ropes = s.ropes
  hbm : t.hbm = s.hbm
  now : t.time.now = s.time.now

/-- A frame has come to a port and stands in the buffer: it is counted, and its source learned. -/
structure Arrived (lp n : Nat) (s t : State) : Prop where
  rest : t = { s with obj := t.obj, trav := t.trav, pwr := t.pwr, ports := t.ports }
  objs : ∀ i a, a < 256 → i ≠ 0x2000 + lp ∨ a ≠ 0x12 ∧ a ≠ 0x14 → obj t i a = obj s i a
  frames : lpo t lp 0x12 = (lpo s lp 0x12 + 1) % 2 ^ 64
  bytes : lpo t lp 0x14 = (lpo s lp 0x14 + n) % 2 ^ 64

theorem Arrived.took {lp n : Nat} {s t : State} (h : Arrived lp n s t) : Took lp n s t :=
  ⟨h.frames, h.bytes, by rw [h.rest], by rw [h.rest], by rw [h.rest]⟩

theorem Arrived.sys {lp n : Nat} {s t : State} (h : Arrived lp n s t) : t.sys = s.sys := by rw [h.rest]

theorem Arrived.role {lp n : Nat} {s t : State} (h : Arrived lp n s t) (q : Nat) : Machine.role t q = Machine.role s q :=
  h.objs _ _ (by decide) (.inr (by decide))

/-- The buffer, the idle timer and the ports are no part of what is counted. -/
theorem Arrived.update {lp n : Nat} {s t : State} {trav : TravSt} {pwr : PwrSt} {ports : Map Port} (h : Arrived lp n s t) :
    Arrived lp n s { t with trav := trav, pwr := pwr, ports := ports } where
  rest := by
    have hrest := h.rest
    rw [hrest]
  objs i a ha hi := h.objs i a ha hi
  frames := h.frames
  bytes := h.bytes

theorem unstore_only (s : State) (store : Nat × List Nat) :
    ∃ trav' pwr', unstore s store = { s with trav := trav', pwr := pwr' } := by
  obtain ⟨tr, htr⟩ := freeHead_only s store.1
  obtain ⟨tr', p', hcells⟩ := freeCellList_only (freeHead s store.1) store.2
  refine ⟨(unstore s store).trav, p', ?_⟩
  unfold unstore
  rw [hcells, htr]
  rfl

/-- A frame of at most 192 B needs a head slot and no cell. -/
theorem storeFrame_short {s : State} {lp nb : Nat} {bs : List Byte} (hlen : bs.length ≤ 192) (hhead : (pickHead s false).isSome = true)
    (hstage : (mget s.trav.stage (lp / 4) []).length ≤ 32) (hcells : stagedCells s ≤ cellsSeen s) :
    ∃ trav' hd, storeFrame s lp bs nb = ({ s with trav := trav' }, some (hd, [])) := by
  have hnone : cellsFor bs.length = 0 := by
    rw [cellsFor, show bs.length - 192 = 0 by omega]
    rfl
  obtain ⟨hd, hhd⟩ := Option.isSome_iff_exists.mp hhead
  rw [storeFrame, hnone, hhd]
  dsimp only
  rw [if_neg (by omega), Nat.min_zero, if_neg (by simp; omega), if_neg (by simp; omega)]
  exact ⟨_, hd, rfl⟩

/-- A frame of a header that the classifier takes, of at most 192 B, for which the buffer has a head slot. -/
structure Passes (s : State) (lp : Nat) (bs : List Byte) (off : Nat) (ip6 : Option (BitVec 128)) (ecn : BitVec 2) : Prop where
  live : on s = true
  up : linkUp s lp = true
  mac : macTest bs = .pass
  serves : inService s = true
  data : beAt bs 12 2 ≠ 0x8808
  parse : parseFrame s lp bs = .sxt off ip6 ecn
  good : sxtBad bs off = false
  head : (pickHead s false).isSome = true
  short : bs.length ≤ 192
  stage : (mget s.trav.stage (lp / 4) []).length ≤ 32
  cells : stagedCells s ≤ cellsSeen s
  scans : s.scree.scans = []

theorem parseFrame_congr {s t : State} (h : ∀ a, inForce t 0x1010 a = inForce s 0x1010 a) (lp : Nat) (bs : List Byte) :
    parseFrame t lp bs = parseFrame s lp bs := by
  simp only [parseFrame, parseIp6, h]

theorem exec_frameCounted {s : State} {lp nb : Nat} {bs : List Byte} {off : Nat} {ip6 : Option (BitVec 128)} {ecn : BitVec 2}
    (h : Passes s lp bs off ip6 ecn) : ∃ v hd, Arrived lp bs.length s v ∧ v.ports = s.ports ∧
      exec (.frameReceived lp bs nb) s = .next (finishScans (sxtNode v lp bs off ip6 ecn (hd, []))) := by
  obtain ⟨u, hu⟩ : ∃ u, u = if macTest bs == .pass && (pulseIn s lp bs).isSome then s else stir s := ⟨_, rfl⟩
  have hpwr : u = { s with pwr := { s.pwr with idleSince := u.pwr.idleSince } } := by
    rw [hu]
    split <;> rfl
  obtain ⟨w, hw⟩ : ∃ w, w = bumpBy (bumpLp u lp 0x12) (0x2000 + lp) 0x14 bs.length := ⟨_, rfl⟩
  have hrest : w = { s with obj := w.obj, pwr := { s.pwr with idleSince := w.pwr.idleSince } } := by
    rw [hw, hpwr]
    rfl
  have hobj (i a : Nat) : obj u i a = obj s i a := obj_congr (by rw [hpwr]) (by rw [hpwr]) i a
  have harrived : Arrived lp bs.length s w := by
    refine ⟨by rw [hrest], fun i a ha hi => ?_, ?_, ?_⟩
    · rw [hw, obj_bumpBy_ne _ _ (by decide) ha (by omega), bumpLp, obj_bump_ne _ (by decide) ha (by omega), hobj]
    · rw [hw, lpo, obj_bumpBy_ne _ _ (by decide) (by decide) (.inr (by decide)), bumpLp, obj_bump_same, hobj]
      rfl
    · rw [hw, lpo, obj_bumpBy_same, bumpLp, obj_bump_ne _ (by decide) (by decide) (.inr (by decide)), hobj]
      rfl
  have hsmall := (linkUp_port h.up).1
  have hserves : inService w = true := by
    rw [inService, outCause_congr harrived.sys fun c hc => harrived.objs _ _ (by decide) (.inl (by omega))]
    exact h.serves
  have hparse : parseFrame w lp bs = .sxt off ip6 ecn :=
    (parseFrame_congr (fun a => by rw [hrest]; rfl) lp bs).trans h.parse
  have hhead : pickHead w false = pickHead s false := by rw [hrest]; rfl
  have hcells : stagedCells w ≤ cellsSeen w := by rw [hrest]; exact h.cells
  have hstage : (mget w.trav.stage (lp / 4) []).length ≤ 32 := by rw [hrest]; exact h.stage
  obtain ⟨tr, hd, hstore⟩ := storeFrame_short (nb := nb) (lp := lp) h.short (hhead ▸ h.head) hstage hcells
  refine ⟨{ w with trav := tr }, hd, harrived.update, by rw [hrest], ?_⟩
  change execFrameReceived lp bs nb s = _
  rw [execFrameReceived, wokenBy_up h.up]
  dsimp only
  rw [if_neg (by rw [h.live, h.up]; decide), ← hu, h.mac, ← hw]
  dsimp only
  rw [if_neg (by rw [hserves]; decide), if_neg h.data, hstore]
  dsimp only
  rw [show parseFrame { w with trav := tr } lp bs = parseFrame w lp bs from rfl, hparse]

/-! ### PULSE, CRED and other link-local frames (R28, R44, R47) -/

/-- A partner known by the MAC address and the IPv6 address of a frame. -/
def metBy (p : Port) (bs : List Byte) (ip6 : Option (BitVec 128)) : Port :=
  { p with dstMac := BitVec.ofNat 48 (beAt bs 6 6), dstIp6 := ip6.getD p.dstIp6 }

/-- A port that grants credit for `n` cells more of a class. -/
def grantedFor (p : Port) (c n : Nat) : Port := { p with grantLimit := lset p.grantLimit c (lget p.grantLimit c 0 + BitVec.ofNat 32 n) }

/-- The state with a frame counted toward the credit granted, and its source learned. -/
def credited (s : State) (lp : Nat) (bs : List Byte) (off : Nat) (ip6 : Option (BitVec 128)) : State :=
  modPort (countGranted s lp bs (parseSxt (bs.drop off))) lp (fun p => metBy p bs ip6)

theorem countGranted_free {s : State} {lp : Nat} {bs : List Byte} {h : Sxt} (hfree : creditFree h.typ = true) : countGranted s lp bs h = s := if_pos hfree

/-- Of the ports only what is granted, and the partner's addresses, have changed. -/
structure Credited (lp : Nat) (s t : State) : Prop where
  rest : t = { s with ports := t.ports }
  ingress : (port t lp).ingress = (port s lp).ingress
  partner : ∀ q, (port t q).partner = (port s q).partner

theorem modPort_credited {s : State} {lp : Nat} {f : Port → Port} (hing : ∀ p, (f p).ingress = p.ingress) (hpart : ∀ p, (f p).partner = p.partner) :
    Credited lp s (modPort s lp f) where
  rest := rfl
  ingress := by rw [port_modPort_same, hing]
  partner q := by
    by_cases hq : q = lp
    · rw [hq, port_modPort_same, hpart]
    · rw [port_modPort_ne _ _ hq]

theorem credited_credited (s : State) (lp : Nat) (bs : List Byte) (off : Nat) (ip6 : Option (BitVec 128)) :
    Credited lp s (credited s lp bs off ip6) := by
  have hmet (u : State) : Credited lp u (modPort u lp (fun p => metBy p bs ip6)) := modPort_credited (fun _ => rfl) (fun _ => rfl)
  rw [credited, countGranted]
  split
  · exact hmet s
  · have hgrant : Credited lp s (modPort s lp (fun p => grantedFor p (parseSxt (bs.drop off)).cls.toNat (cdiv bs.length 256))) :=
      modPort_credited (fun _ => rfl) (fun _ => rfl)
    exact ⟨rfl, (hmet _).ingress.trans hgrant.ingress, fun q => ((hmet _).partner q).trans (hgrant.partner q)⟩

/-- The SXT node takes a good frame that is no PTP event and no RSP on to what its type asks for. -/
theorem sxtNode_taken {s : State} {lp : Nat} {bs : List Byte} {off : Nat} {ip6 : Option (BitVec 128)} {ecn : BitVec 2} {store : Nat × List Nat}
    (hgood : sxtBad bs off = false) (hplan : (parseSxt (bs.drop off)).typ ≠ 9) (hrsp : (parseSxt (bs.drop off)).typ ≠ 4) :
    let h := parseSxt (bs.drop off)
    let v := credited s lp bs off ip6
    sxtNode s lp bs off ip6 ecn store =
      if h.typ == 8 then unstore (pulseReceived v lp h) store
      else if h.typ == 7 then unstore (modPort v lp (fun p => { p with credSeen := true, credLimit := (List.range 8).map (fun c =>
        if bit h.xarg.toNat c then BitVec.ofNat 32 (beAt bs (off + 32 + 4 * c) 4) else lget (port v lp).credLimit c 0) })) store
      else if h.dst == 0xFFFFFF#24 then unstore v store
      else if h.typ == 5 && closesOwn v h then unstore (ackReceived v h) store
      else if h.typ == 6 && closesOwn v h then unstore (nakReceived v h) store
      else admitFrame v lp bs off ecn h store := by
  have h9 : ((parseSxt (bs.drop off)).typ == 9) = false := by simpa using hplan
  have h4 : ((parseSxt (bs.drop off)).typ == 4) = false := by simpa using hrsp
  rw [sxtNode, hgood, h9, h4]
  rfl

theorem finishScans_unstore {s : State} (store : Nat × List Nat) (h : s.scree.scans = []) : finishScans (unstore s store) = unstore s store := by
  obtain ⟨tr, p, hun⟩ := unstore_only s store
  exact finishScans_nil (by rw [hun]; exact h)

theorem Took.unstore {lp n : Nat} {s t : State} (h : Took lp n s t) (store : Nat × List Nat) : Took lp n s (Machine.unstore t store) := by
  obtain ⟨tr, p, hun⟩ := unstore_only t store
  rw [hun]
  exact ⟨h.frames, h.bytes, h.ropes, h.hbm, h.now⟩

theorem Took.leased {lp n : Nat} {s t u : State} (h : Took lp n s t) (h' : Leased t u) (hlp : lp < 384) : Took lp n s u where
  frames := (h'.objs (by decide) (by omega) (by omega) (.inl (by omega))).trans h.frames
  bytes := (h'.objs (by decide) (by omega) (by omega) (.inl (by omega))).trans h.bytes
  ropes := h'.ropes.trans h.ropes
  hbm := by rw [h'.rest]; exact h.hbm
  now := by rw [h'.time, h.now]

theorem Took.credited {lp n : Nat} {s t u : State} {q : Nat} (h : Took lp n s t) (h' : Credited q t u) : Took lp n s u := by
  rw [h'.rest]
  exact ⟨h.frames, h.bytes, h.ropes, h.hbm, h.now⟩

/-- The look at who may write leaves what the peer says of itself. -/
theorem recheckReadOnly_peerRdonly (s : State) : (recheckReadOnly s).rcv.peerRdonly = s.rcv.peerRdonly := by
  obtain ⟨d, rfl, hlook⟩ := recheckReadOnly_looked s
  rw [hlook.rcv]
  change (dropOver s).rcv.peerRdonly = _
  cases h : leaseOver s
  · rw [dropOver_of_held s h]
  · rw [dropOver_over h]
    rfl

/-- A port whose partner has sent a PULSE. -/
def partnerBack (p : Port) (now : Nat) (ep : BitVec 24) : Port :=
  { p with partner := 1, lossFrom := some now, missedFrom := some now, partnerEp := some ep }

theorem pulseReceived_facts (s : State) (lp : Nat) (h : Sxt) : let t := pulseReceived s lp h
    Leased { s with ports := t.ports } t ∧ port t lp = partnerBack (port s lp) s.time.now h.src ∧
      t.rcv.peerRdonly = if role s lp = 2 then bit h.xarg.toNat 1 else s.rcv.peerRdonly := by
  obtain ⟨u, hu⟩ : ∃ u, u = if role s lp = 2 then { s with rcv := { s.rcv with peerRdonly := bit h.xarg.toNat 1 } } else s := ⟨_, rfl⟩
  have hrest : u = { s with rcv := u.rcv } := by
    rw [hu]
    split <;> rfl
  have hrdonly : u.rcv.peerRdonly = if role s lp = 2 then bit h.xarg.toNat 1 else s.rcv.peerRdonly := by
    rw [hu]
    split <;> rfl
  obtain ⟨v, hv⟩ : ∃ v, v = modPort u lp (fun p => partnerBack p u.time.now h.src) := ⟨_, rfl⟩
  have hpulse : pulseReceived s lp h = recheckReadOnly v := by rw [hv, hu]; rfl
  have hleased := recheckReadOnly_leased v
  have hvrest : v = { s with ports := v.ports, rcv := v.rcv } := by
    rw [hv, hrest]
    rfl
  have hvrcv : v.rcv = u.rcv := by rw [hv]; rfl
  have hnow : u.time.now = s.time.now := by rw [hrest]
  have hport : port u lp = port s lp := by rw [hrest]; rfl
  dsimp only
  rw [hpulse]
  refine ⟨?_, ?_, ?_⟩
  · rw [hleased.ports]
    have hbase : Leased { s with ports := v.ports } v := by
      have hrcv := Leased.of_rcv { s with ports := v.ports } v.rcv
      rw [hvrest]
      exact hrcv
    exact hbase.trans hleased
  · rw [port, hleased.ports]
    change port v lp = _
    rw [hv, port_modPort_same, hnow, hport]
  · rw [recheckReadOnly_peerRdonly, hvrcv, hrdonly]

section
variable {s : State} {lp nb : Nat} {bs : List Byte} {off : Nat} {ip6 : Option (BitVec 128)} {ecn : BitVec 2}

theorem exec_framePulse (hpass : Passes s lp bs off ip6 ecn) (htyp : (parseSxt (bs.drop off)).typ = 8) :
    ∃ t, exec (.frameReceived lp bs nb) s = .next t ∧ Took lp bs.length s t ∧
      port t lp = partnerBack (metBy (port s lp) bs ip6) s.time.now (parseSxt (bs.drop off)).src ∧
      t.rcv.peerRdonly = if role s lp = 2 then (parseSxt (bs.drop off)).xarg.getLsbD 1 else s.rcv.peerRdonly := by
  obtain ⟨v, hd, harr, hports, hexec⟩ := exec_frameCounted (nb := nb) hpass
  have hfree : creditFree (parseSxt (bs.drop off)).typ = true := by rw [htyp]; decide
  have hcred := credited_credited v lp bs off ip6
  have hmet : port (credited v lp bs off ip6) lp = metBy (port s lp) bs ip6 := by
    rw [credited, countGranted_free hfree, port_modPort_same, port, hports]
    rfl
  obtain ⟨w, hw⟩ : ∃ w, w = credited v lp bs off ip6 := ⟨_, rfl⟩
  have hnode := sxtNode_taken (s := v) (lp := lp) (bs := bs) (ip6 := ip6) (ecn := ecn) (store := (hd, [])) hpass.good (by rw [htyp]; decide) (by rw [htyp]; decide)
  rw [← hw] at hnode hmet hcred
  dsimp only at hnode
  rw [if_pos (by rw [htyp]; rfl)] at hnode
  have hrole : role w lp = role s lp := by
    rw [hcred.rest]
    exact harr.role lp
  have hnow : w.time.now = s.time.now := by rw [hcred.rest, harr.rest]
  have hrcv : w.rcv = s.rcv := by rw [hcred.rest, harr.rest]
  have hscans : w.scree = s.scree := by rw [hcred.rest, harr.rest]
  obtain ⟨hleased, hport, hpeer⟩ := pulseReceived_facts w lp (parseSxt (bs.drop off))
  obtain ⟨x, hx⟩ : ∃ x, x = pulseReceived w lp (parseSxt (bs.drop off)) := ⟨_, rfl⟩
  rw [← hx] at hleased hport hpeer hnode
  have htook : Took lp bs.length s { w with ports := x.ports } := by
    have htook := harr.took.credited hcred
    exact ⟨htook.frames, htook.bytes, htook.ropes, htook.hbm, htook.now⟩
  have hxscans : x.scree.scans = [] := by
    rw [hleased.rest]
    exact (congrArg ScreeSt.scans hscans).trans hpass.scans
  rw [hnode, finishScans_unstore _ hxscans] at hexec
  have htook' := (htook.leased hleased (linkUp_port hpass.up).1).unstore (hd, [])
  obtain ⟨tr, p, hun⟩ := unstore_only x (hd, [])
  refine ⟨_, hexec, htook', ?_, ?_⟩
  · rw [hun]
    change port x lp = _
    rw [hport, hmet, hnow]
  · rw [hun]
    change x.rcv.peerRdonly = _
    rw [hpeer, hrole, hrcv, bit_getLsbD]

theorem exec_frameCred (hpass : Passes s lp bs off ip6 ecn) (htyp : (parseSxt (bs.drop off)).typ = 7) :
    ∃ t, exec (.frameReceived lp bs nb) s = .next t ∧ Took lp bs.length s t ∧ (port t lp).credSeen = true ∧
      ∀ c, c < 8 → lget (port t lp).credLimit c 0 = if (parseSxt (bs.drop off)).xarg.getLsbD c
        then BitVec.ofNat 32 (beAt bs (off + 32 + 4 * c) 4) else lget (port s lp).credLimit c 0 := by
  obtain ⟨v, hd, harr, hports, hexec⟩ := exec_frameCounted (nb := nb) hpass
  have hfree : creditFree (parseSxt (bs.drop off)).typ = true := by rw [htyp]; decide
  have hcred := credited_credited v lp bs off ip6
  have hmet : port (credited v lp bs off ip6) lp = metBy (port s lp) bs ip6 := by
    rw [credited, countGranted_free hfree, port_modPort_same, port, hports]
    rfl
  obtain ⟨w, hw⟩ : ∃ w, w = credited v lp bs off ip6 := ⟨_, rfl⟩
  have hnode := sxtNode_taken (s := v) (lp := lp) (bs := bs) (ip6 := ip6) (ecn := ecn) (store := (hd, [])) hpass.good (by rw [htyp]; decide) (by rw [htyp]; decide)
  rw [← hw] at hnode hmet hcred
  dsimp only at hnode
  rw [if_neg (by rw [htyp]; decide), if_pos (by rw [htyp]; rfl)] at hnode
  obtain ⟨x, hx⟩ : ∃ x, x = modPort w lp (fun p => { p with credSeen := true, credLimit := (List.range 8).map (fun c =>
      if bit (parseSxt (bs.drop off)).xarg.toNat c then BitVec.ofNat 32 (beAt bs (off + 32 + 4 * c) 4)
      else lget (port w lp).credLimit c 0) }) := ⟨_, rfl⟩
  rw [← hx] at hnode
  have hxrest : x = { w with ports := x.ports } := by rw [hx]; rfl
  have htook : Took lp bs.length s x := by
    rw [hxrest]
    have htook := harr.took.credited hcred
    exact ⟨htook.frames, htook.bytes, htook.ropes, htook.hbm, htook.now⟩
  have hscans : x.scree.scans = [] := by
    rw [hxrest]
    change w.scree.scans = []
    rw [hcred.rest, harr.rest]
    exact hpass.scans
  rw [hnode, finishScans_unstore _ hscans] at hexec
  obtain ⟨tr, p, hun⟩ := unstore_only x (hd, [])
  have hport : port (unstore x (hd, [])) lp = port x lp := by rw [hun]; rfl
  refine ⟨_, hexec, htook.unstore _, ?_, fun c hc => ?_⟩
  · rw [hport, hx, port_modPort_same]
  · rw [hport, hx, port_modPort_same, hmet]
    simp only [lget, List.getElem?_map, List.getElem?_range hc, Option.map_some, Option.getD_some, bit_getLsbD]
    rfl

/-- What only PULSE and CRED may carry to the link-local endpoint goes no further. -/
theorem exec_frameStopped (hpass : Passes s lp bs off ip6 ecn) (htyp : (parseSxt (bs.drop off)).typ.toNat < 4)
    (hdst : (parseSxt (bs.drop off)).dst = 0xFFFFFF) :
    ∃ t, exec (.frameReceived lp bs nb) s = .next t ∧ Took lp bs.length s t ∧
      t.frames = s.frames ∧ t.nextFrame = s.nextFrame ∧ t.col = s.col ∧ t.tm = s.tm := by
  obtain ⟨v, hd, harr, -, hexec⟩ := exec_frameCounted (nb := nb) hpass
  have hcred := credited_credited v lp bs off ip6
  obtain ⟨w, hw⟩ : ∃ w, w = credited v lp bs off ip6 := ⟨_, rfl⟩
  have hne (n : BitVec 4) (hn : 4 ≤ n.toNat) : ((parseSxt (bs.drop off)).typ == n) = false := by
    rw [beq_eq_false_iff_ne]
    intro heq
    rw [heq] at htyp
    omega
  have hnode := sxtNode_taken (s := v) (lp := lp) (bs := bs) (ip6 := ip6) (ecn := ecn) (store := (hd, [])) hpass.good
    (beq_eq_false_iff_ne.mp (hne 9 (by decide))) (beq_eq_false_iff_ne.mp (hne 4 (by decide)))
  rw [← hw] at hnode hcred
  dsimp only at hnode
  rw [hne 8 (by decide), hne 7 (by decide), hdst] at hnode
  change sxtNode v lp bs off ip6 ecn (hd, []) = unstore w (hd, []) at hnode
  have hrest : w = { s with obj := w.obj, trav := w.trav, pwr := w.pwr, ports := w.ports } := by
    rw [hcred.rest, harr.rest]
  have hscans : w.scree.scans = [] := by
    rw [hrest]
    exact hpass.scans
  rw [hnode, finishScans_unstore _ hscans] at hexec
  refine ⟨_, hexec, (harr.took.credited hcred).unstore _, ?_⟩
  obtain ⟨tr, p, hun⟩ := unstore_only w (hd, [])
  rw [hun, hrest]
  exact ⟨rfl, rfl, rfl, rfl⟩

end

end Sys2Proof.Proofs

/-! A frame in transit goes from ingress admission to its rule probes (R66 to R75, R110, R405). -/

namespace Sys2Proof.Proofs

open Sys2Proof.Machine Sys2Proof.Claim

/-! ### The write fence (R405) -/

theorem leaseOver_settled (s : State) : leaseOver (settleLease s) = false := by
  cases h : leaseOver s
  · rw [settleLease_calm h, h]
  · rw [settleLease_over h]
    obtain ⟨d, hd, hlook⟩ := recheckReadOnly_looked s
    have hnone : (recheckReadOnly s).rcv.leaseUntil = none := by
      rw [hlook.rcv, hd, dropOver_over h]
      rfl
    rw [leaseOver, hnone]
    rfl

theorem settleLease_leased (s : State) : Leased s (settleLease s) := by
  unfold settleLease
  split
  · exact recheckReadOnly_leased s
  · exact .refl s

/-- Whether the device must not write once a lease's end has been seen. -/
theorem settleLease_readOnly (s : State) : (settleLease s).rcv.readOnly =
    if leaseOver s then obj s 0x8002 1 == 1 && (!isPeerPresent s || s.rcv.writeFence) else s.rcv.readOnly := by
  cases h : leaseOver s
  · rw [settleLease_calm h]
    rfl
  · rw [settleLease_over h]
    obtain ⟨d, hd, hlook⟩ := recheckReadOnly_looked s
    have hleased : Leased s d := by
      rw [hd]
      exact (dropOver_leased s).1
    have hrcv : d.rcv = { s.rcv with leaseUntil := none } := by
      rw [hd, dropOver_over h]
      rfl
    rw [hlook.rcv]
    change mustNotWrite d = _
    rw [mustNotWrite, hleased.pair, hleased.peer, hrcv]
    simp

/-- What the fence reads: who may write, the pair, the roles of the ports and the mirrored tenants. -/
structure FencedAlike (lp : Nat) (s t : State) : Prop where
  sys : t.sys = s.sys
  readOnly : (settleLease t).rcv.readOnly = (settleLease s).rcv.readOnly
  role : Machine.role t lp = Machine.role s lp
  pair : obj t 0x8002 1 = obj s 0x8002 1
  tenants : ∀ a, a < 256 → obj t 0x8010 a = obj s 0x8010 a

theorem fenceBad_congr {lp : Nat} {s t : State} (h : FencedAlike lp s t) {x y : Sxt} (hdst : y.dst = x.dst) (htyp : y.typ = x.typ) (htid : y.tid = x.tid) :
    fenceBad t lp y = fenceBad s lp x := by
  have hsmall : 1 + x.tid.toNat / 64 < 256 := by omega
  rw [fenceBad, fenceBad, h.readOnly, devEp, devEp, h.sys, h.role, mirrored, mirrored, h.pair, hdst, htyp, htid, h.tenants _ hsmall]

/-! ### Policing and the source search (R66 to R70, R92) -/

/-- A tenant without a policer: the frame is green. -/
theorem police_off {s : State} {tid pre len : Nat} (h : ten s tid 0x20 % 4 = 0) :
    police s tid pre len = (bumpTen { s with col := { s.col with policers := mset s.col.policers tid (policer s tid) } } tid 0x25, 0, false) := by
  have hcol : colourOf (ten s tid 0x20) (policer s tid) pre len = (0, policer s tid) := by
    rw [colourOf, h]
    rfl
  rw [police, hcol]
  rfl

/-- What the searches and the probes of a frame may change: entries' marks, learn requests, counters, the frames held. -/
structure Searched (s t : State) : Prop where
  rest : t = { s with obj := t.obj, tbl := t.tbl, col := t.col, frames := t.frames }
  col : t.col = { s.col with learnQ := t.col.learnQ }
  objs : ∀ i a, a < 256 → i ≠ 0x4800 → i ≠ 0x1020 → obj t i a = obj s i a

theorem Searched.refl (s : State) : Searched s s := ⟨rfl, rfl, fun _ _ _ _ _ => rfl⟩

theorem Searched.trans {s t u : State} (h : Searched s t) (h' : Searched t u) : Searched s u where
  rest := by
    have hu := h'.rest
    rw [h.rest] at hu
    exact hu
  col := by
    have hu := h'.col
    rw [h.col] at hu
    exact hu
  objs i a ha h8 h2 := (h'.objs i a ha h8 h2).trans (h.objs i a ha h8 h2)

theorem setFrame_searched (s : State) (f : Nat) (x : Frame) : Searched s (setFrame s f x) := ⟨rfl, rfl, fun _ _ _ _ _ => rfl⟩

theorem bump_searched (s : State) {i a : Nat} (ha : a < 256) (h : i = 0x4800 ∨ i = 0x1020) : Searched s (bump s i a) :=
  ⟨rfl, rfl, fun _ _ hb _ _ => obj_bump_ne s ha hb (by omega)⟩

theorem epLookup_searched (s : State) (k : Nat) : Searched s (epLookup s k).1 ∧ (epLookup s k).1.frames = s.frames := by
  unfold epLookup
  split
  · exact ⟨.refl s, rfl⟩
  · exact ⟨⟨rfl, rfl, fun _ _ _ _ _ => rfl⟩, rfl⟩

/-- A station to learn is asked for, or counted where the requests are full. -/
theorem learnRequest_searched (u : State) (want : Bool) (req : LearnReq) :
    let t := if want then if u.col.learnQ.length < 4096 then { u with col := { u.col with learnQ := u.col.learnQ ++ [req] } } else bump u 0x4800 9 else u
    Searched u t ∧ t.frames = u.frames := by
  dsimp only
  split
  · split
    · exact ⟨⟨rfl, rfl, fun _ _ _ _ _ => rfl⟩, rfl⟩
    · exact ⟨bump_searched u (by decide) (.inl rfl), rfl⟩
  · exact ⟨.refl u, rfl⟩

theorem sourceLookup_searched (s : State) (lp : Nat) (h : Sxt) : Searched s (sourceLookup s lp h).1 ∧ (sourceLookup s lp h).1.frames = s.frames := by
  obtain ⟨hep, hframes⟩ := epLookup_searched s (epKey h.tid h.src)
  obtain ⟨hlearn, hsame⟩ := learnRequest_searched (epLookup s (epKey h.tid h.src)).1 _ { tid := h.tid, ep := h.src, lp := lp }
  exact ⟨hep.trans hlearn, hsame.trans hframes⟩

/-! ### The probes (R71, R74) -/

/-- One probe of a frame, as `ruleProbe` issues it. -/
def probeOnce (acc : State × List (BitVec 64)) (k : BitVec 64) : State × List (BitVec 64) :=
  match cacheFind acc.1 k with
  | some l => (cacheTouch (bump acc.1 0x4801 6) l, acc.2)
  | none => (bump acc.1 0x1020 6, acc.2 ++ [k])

/-- With an empty cache every probe misses. -/
theorem probes_miss {s : State} (h : s.col.cache = []) (keys : List (BitVec 64)) (acc : List (BitVec 64)) :
    ∃ t, keys.foldl probeOnce (s, acc) = (t, acc ++ keys) ∧ Searched s t ∧ t.frames = s.frames ∧ t.col = s.col := by
  induction keys generalizing s acc with
  | nil => exact ⟨s, by rw [List.append_nil]; rfl, .refl s, rfl, rfl⟩
  | cons k keys ih =>
    have hmiss : probeOnce (s, acc) k = (bump s 0x1020 6, acc ++ [k]) := by
      rw [probeOnce, cacheFind, h]
      rfl
    obtain ⟨t, hfold, hsearch, hframes, hcol⟩ := ih (s := bump s 0x1020 6) h (acc ++ [k])
    refine ⟨t, ?_, (bump_searched s (by decide) (.inr rfl)).trans hsearch, hframes, hcol⟩
    rw [List.foldl_cons, hmiss, hfold, List.append_assoc]
    rfl

/-- A frame whose probes all miss waits for its reads. -/
theorem ruleProbe_waits {s : State} (f : Nat) (hcache : s.col.cache = []) (hwaiting : s.col.waiting = []) :
    ∃ t, Searched s t ∧ t.frames = s.frames ∧ t.col = s.col ∧
      ruleProbe s f = { t with col := { t.col with waiting := [{ frame := f, misses := ruleKeys (hdrOf (frameOf s f)) }] } } := by
  obtain ⟨t, hfold, hsearch, hframes, hcol⟩ := probes_miss hcache (ruleKeys (hdrOf (frameOf s f))) []
  have hkeys : (ruleKeys (hdrOf (frameOf s f))).isEmpty = false := rfl
  obtain ⟨keys, hk⟩ : ∃ keys, keys = ruleKeys (hdrOf (frameOf s f)) := ⟨_, rfl⟩
  rw [← hk] at hfold hkeys
  have hprobe : ruleProbe s f = releaseWaiting { t with col := { t.col with waiting := t.col.waiting ++ [{ frame := f, misses := keys }] } } []
      (t.col.waiting ++ [{ frame := f, misses := keys }]) := by
    have hlet := congrArg (fun p : State × List (BitVec 64) => releaseWaiting { p.1 with col := { p.1.col with
      waiting := p.1.col.waiting ++ [{ frame := f, misses := p.2 }] } } [] (p.1.col.waiting ++ [{ frame := f, misses := p.2 }])) hfold
    rw [ruleProbe, ← hk]
    exact hlet
  refine ⟨t, hsearch, hframes, hcol, ?_⟩
  rw [hprobe, hcol, hwaiting, ← hk]
  change releaseWaiting _ [] [{ frame := f, misses := keys }] = _
  rw [releaseWaiting, hkeys]
  rfl

/-! ### From the version stamp to the probes (R70 to R75) -/

/-- A header under a version, in green. -/
def stampedHdr (h : Sxt) (v : BitVec 16) : Sxt := { h with rsver := v, colour := 0 }

/-- An ingress queue takes `n` cells more. -/
def queueMore (cls n : Nat) (p : Port) : Port := { p with ingress := lset p.ingress cls (lget p.ingress cls 0 + n) }

/-- A frame has entered: it counts under its version, and its class's ingress queue holds its cells. -/
def enteredCol (s : State) (lp cls n : Nat) : State :=
  modPort (versionUp { s with nextFrame := s.nextFrame + 1 } s.col.ver.current) lp (queueMore cls n)

/-- What the lookups of a frame in transit leave. -/
structure Transits (f lp : Nat) (bs : List Byte) (off : Nat) (h : Sxt) (s t : State) : Prop where
  ropes : t.ropes = s.ropes
  hbm : t.hbm = s.hbm
  now : t.time.now = s.time.now
  scree : t.scree = s.scree
  next : t.nextFrame = s.nextFrame + 1
  frame : ∃ x, mfind t.frames f = some x ∧ x.lp = lp ∧ x.arr = ft s ∧ x.off = off ∧ x.bytes = withHdr bs off (stampedHdr h s.col.ver.current)
  waiting : t.col.waiting.map (·.frame) = [f]
  inFlight : inFlightOf t s.col.ver.current = inFlightOf s s.col.ver.current + 1

theorem inFlight_versionUp (s : State) (v : BitVec 16) : inFlightOf (versionUp s v) v = inFlightOf s v + 1 := by
  rw [versionUp, setInFlight, inFlightOf]
  dsimp only
  rw [if_neg (by omega), mget_mset_same]

theorem versionUp_col {s t : State} (h : t.col = s.col) (v : BitVec 16) : (versionUp t v).col = (versionUp s v).col := by
  have hcount : inFlightOf t v = inFlightOf s v := by rw [inFlightOf, inFlightOf, h]
  rw [versionUp, versionUp, hcount, setInFlight, setInFlight]
  dsimp only
  rw [h]

theorem lget_lset_lt {α : Type} {l : List α} {i : Nat} (h : i < l.length) (x d : α) : lget (lset l i x) i d = x := by
  rw [lget, lset, List.getElem?_set_self h]
  rfl

section
variable {s : State} {lp cls n : Nat}

theorem enteredCol_leased : let a := enteredCol (settleLease s) lp cls n
    a = { s with obj := a.obj, rcv := a.rcv, dict := a.dict, cairn := a.cairn, nextFrame := s.nextFrame + 1, col := a.col, ports := a.ports } ∧
      a.rcv = (settleLease s).rcv ∧ (∀ i b, 0x2000 ≤ i → i < 0x4000 → b < 256 → obj a i b = obj s i b) ∧
      obj a 0x8002 1 = obj s 0x8002 1 ∧ (∀ b, b < 256 → obj a 0x8010 b = obj s 0x8010 b) ∧
      a.col = (versionUp s s.col.ver.current).col ∧ ∀ q, (port a q).partner = (port s q).partner := by
  obtain ⟨u, hu⟩ : ∃ u, u = settleLease s := ⟨_, rfl⟩
  have hleased : Leased s u := by rw [hu]; exact settleLease_leased s
  rw [← hu]
  have hcol : u.col = s.col := by rw [hleased.rest]
  have hnext : u.nextFrame = s.nextFrame := by rw [hleased.rest]
  refine ⟨?_, rfl, fun i b hlo hhi hb => hleased.objs hb (by omega) (by omega) (.inl (by omega)), hleased.pair,
    fun b hb => hleased.objs hb (by decide) (by decide) (.inl (by decide)), ?_, fun q => ?_⟩
  · have hrest := hleased.rest
    rw [enteredCol, hnext]
    generalize u.col.ver.current = v
    rw [hrest]
    rfl
  · have hver : (enteredCol u lp cls n).col = (versionUp u u.col.ver.current).col := rfl
    rw [hver, hcol]
    exact versionUp_col hcol _
  · have hport : port u q = port s q := by rw [port, hleased.ports]; rfl
    rw [← hport, enteredCol]
    by_cases hq : q = lp
    · rw [hq, port_modPort_same]
      rfl
    · rw [port_modPort_ne _ _ hq]
      rfl

/-- The fence judges a frame in transit as it did before the frame entered. -/
theorem fencedAlike_entered {c : State} (hsearch : Searched (enteredCol (settleLease s) lp cls n) c) (hlp : lp < 384) : FencedAlike lp s c := by
  obtain ⟨hrest, hrcv, hobjs, hpair, htenants, -, hpartner⟩ := enteredCol_leased (s := s) (lp := lp) (cls := cls) (n := n)
  obtain ⟨a, ha⟩ : ∃ a, a = enteredCol (settleLease s) lp cls n := ⟨_, rfl⟩
  rw [← ha] at hrest hrcv hobjs hpair htenants hpartner hsearch
  have hcrcv : c.rcv = (settleLease s).rcv := by rw [hsearch.rest]; exact hrcv
  have hctime : c.time = (settleLease s).time := by
    rw [hsearch.rest, (settleLease_leased s).time]
    change a.time = _
    rw [hrest]
  have hover : leaseOver c = false := by
    rw [leaseOver, hcrcv, hctime]
    exact leaseOver_settled s
  refine ⟨?_, ?_, ?_, ?_, fun b hb => ?_⟩
  · rw [hsearch.rest]
    change a.sys = _
    rw [hrest]
  · rw [settleLease_calm hover, hcrcv]
  · exact (hsearch.objs _ _ (by decide) (by omega) (by omega)).trans (hobjs _ _ (by omega) (by omega) (by decide))
  · exact (hsearch.objs _ _ (by decide) (by decide) (by decide)).trans hpair
  · exact (hsearch.objs _ _ hb (by decide) (by decide)).trans (htenants b hb)

/-- A frame whose searches have ended waits for its rule reads. -/
theorem transits_probed {d : State} {f : Nat} {z : Frame} {bs : List Byte} {off : Nat} {h : Sxt} (hsearch : Searched (enteredCol (settleLease s) lp cls n) d)
    (hport : z.lp = lp) (harr : z.arr = ft s) (hoff : z.off = off) (hbytes : z.bytes = withHdr bs off (stampedHdr h s.col.ver.current))
    (hcache : s.col.cache = []) (hwaiting : s.col.waiting = []) :
    let t := ruleProbe (setFrame d f z) f
    Transits f lp bs off h s t ∧ (∀ i a, 0x2000 ≤ i → i < 0x4000 → a < 256 → obj t i a = obj s i a) ∧
      (cls < (port s lp).ingress.length → lget (port t lp).ingress cls 0 = lget (port s lp).ingress cls 0 + n) := by
  obtain ⟨hrest, -, hobjs, -, -, hcol, -⟩ := enteredCol_leased (s := s) (lp := lp) (cls := cls) (n := n)
  have hports : (enteredCol (settleLease s) lp cls n).ports = (modPort s lp (queueMore cls n)).ports := by
    change (modPort (settleLease s) lp (queueMore cls n)).ports = _
    rw [modPort, modPort, setPort, setPort, port, port, (settleLease_leased s).ports]
  obtain ⟨a, ha⟩ : ∃ a, a = enteredCol (settleLease s) lp cls n := ⟨_, rfl⟩
  rw [← ha] at hrest hobjs hcol hsearch hports
  have hsearch' := hsearch.trans (setFrame_searched d f z)
  have hdcol := hsearch'.col
  obtain ⟨b, hb⟩ : ∃ b, b = setFrame d f z := ⟨_, rfl⟩
  rw [← hb] at hsearch' hdcol
  have hframe : mfind b.frames f = some z := by
    rw [hb]
    exact mfind_mset_same _ _ _
  have hbcache : b.col.cache = [] := by
    rw [hdcol, hcol]
    exact hcache
  have hbwaiting : b.col.waiting = [] := by
    rw [hdcol, hcol]
    exact hwaiting
  obtain ⟨t, hprobed, hframes, htcol, hprobe⟩ := ruleProbe_waits f hbcache hbwaiting
  rw [← hb, hprobe]
  have hall := hsearch'.trans hprobed
  have ht : t = { s with obj := t.obj, rcv := t.rcv, dict := t.dict, cairn := t.cairn, nextFrame := s.nextFrame + 1, col := t.col, ports := a.ports
                         frames := t.frames, tbl := t.tbl } := by
    have h := hall.rest
    rw [hrest] at h
    rw [h]
  refine ⟨⟨?_, ?_, ?_, ?_, ?_, ⟨z, ?_, hport, harr, hoff, hbytes⟩, rfl, ?_⟩, fun i e hlo hhi he => ?_, fun hlt => ?_⟩
  · rw [ht]
  · rw [ht]
  · rw [ht]
  · rw [ht]
  · rw [ht]
  · exact (congrArg (fun m => mfind m f) hframes).trans hframe
  · change mget t.col.ver.inFlight _ _ = _
    rw [htcol, hdcol, hcol]
    exact inFlight_versionUp s _
  · exact (hall.objs i e he (by omega) (by omega)).trans (hobjs i e hlo hhi he)
  · have hportt : port { t with col := { t.col with waiting := [{ frame := f, misses := ruleKeys (hdrOf (frameOf b f)) }] } } lp = port a lp := by
      rw [ht]
      rfl
    rw [hportt, port, hports]
    change lget (port (modPort s lp (queueMore cls n)) lp).ingress cls 0 = _
    rw [port_modPort_same]
    exact lget_lset_lt hlt _ _

end

/-- A frame in transit that the fence lets pass is searched for and goes to its rule probes. -/
theorem lookupStage_probes {s : State} {lp : Nat} {bs : List Byte} {off : Nat} {ecn : BitVec 2} {h : Sxt} {store : Nat × List Nat}
    (hdst : h.dst ≠ devEp s) (hfence : fenceBad s lp h = false) (hlp : lp < 384) :
    ∃ d z, Searched (enteredCol (settleLease s) lp h.cls.toNat (cdiv bs.length 256)) d ∧ z.lp = lp ∧ z.arr = ft s ∧ z.off = off ∧
      z.bytes = withHdr bs off (stampedHdr h s.col.ver.current) ∧
      lookupStage s lp bs off ecn h 0 store none = ruleProbe (setFrame d s.nextFrame z) s.nextFrame := by
  have hleased := settleLease_leased s
  have hcol : (settleLease s).col = s.col := by rw [hleased.rest]
  have hnext : (settleLease s).nextFrame = s.nextFrame := by rw [hleased.rest]
  unfold lookupStage
  extract_lets u here y f s1 s2 e x
  have hs2 : s2 = enteredCol (settleLease s) lp h.cls.toNat (cdiv bs.length 256) := rfl
  have hf : f = s.nextFrame := hnext
  have hy : y = stampedHdr h s.col.ver.current := congrArg (fun c : ColSt => stampedHdr h c.ver.current) hcol
  have hhere : here = false := by
    change (h.dst == devEp (settleLease s) && (none : Option Pair).isNone) = false
    rw [devEp, hleased.sys]
    simpa [devEp] using hdst
  have hx : x.lp = lp ∧ x.arr = ft s ∧ x.off = off ∧ x.bytes = withHdr bs off y := by
    refine ⟨rfl, ?_, rfl, rfl⟩
    change ft s2 = ft s
    rw [hs2, enteredCol_leased.1]
    rfl
  have hsearch := (sourceLookup_searched s2 lp y).1
  obtain ⟨hxlp, hxarr, hxoff, hxbytes⟩ := hx
  clear_value x e y f s2 s1 here u
  obtain ⟨b, src, hsrc⟩ : ∃ b src, sourceLookup s2 lp y = (b, src) := ⟨_, _, rfl⟩
  rw [hsrc] at hsearch ⊢
  obtain ⟨c, hc⟩ : ∃ c, c = setFrame b f { x with srcLp := src } := ⟨_, rfl⟩
  dsimp only
  rw [← hc]
  have hsc : Searched s2 c := by
    rw [hc]
    exact hsearch.trans (setFrame_searched _ _ _)
  have hfenced : fenceBad c lp y = false := by
    rw [fenceBad_congr (fencedAlike_entered (hs2 ▸ hsc) hlp) (x := h) (by rw [hy]; rfl) (by rw [hy]; rfl) (by rw [hy]; rfl)]
    exact hfence
  have hep := (epLookup_searched c (epKey y.tid y.dst)).1
  rw [hhere, hfenced, ← hf, ← hs2, ← hy]
  rcases hlook : epLookup c (epKey y.tid y.dst) with ⟨d, _ | w⟩
  · rw [hlook] at hep
    exact ⟨d, { x with srcLp := src, dkind := 1, destLp := 0 }, hsc.trans hep, hxlp, hxarr, hxoff, hxbytes, rfl⟩
  · rw [hlook] at hep
    exact ⟨d, { x with srcLp := src, dkind := 0, destLp := eLp w }, hsc.trans hep, hxlp, hxarr, hxoff, hxbytes, rfl⟩

/-! ### Ingress admission (R110) -/

/-- The state with a green frame of a tenant counted. -/
def policed (s : State) (tid : Nat) : State :=
  bumpTen { s with col := { s.col with policers := mset s.col.policers tid (policer s tid) } } tid 0x25

theorem policed_obj (s : State) (tid : Nat) {i a : Nat} (ha : a < 256) (hi : i ≠ 0x3000 + tid ∨ a ≠ 0x25) : obj (policed s tid) i a = obj s i a :=
  obj_bump_ne _ (by decide) ha (by omega)

/-- A frame in transit of a tenant without a policer is looked up. -/
theorem admitFrame_transit {s : State} {lp : Nat} {bs : List Byte} {off : Nat} {ecn : BitVec 2} {h : Sxt} {store : Nat × List Nat}
    (hfits : ingressFits s lp h.cls.toNat (cdiv bs.length 256) = true) (hdst : h.dst ≠ devEp s) (hmode : ten s h.tid.toNat 0x20 % 4 = 0) :
    admitFrame s lp bs off ecn h store = lookupStage (policed s h.tid.toNat) lp bs off ecn h 0 store none := by
  have hhere : (h.dst == devEp s) = false := beq_eq_false_iff_ne.mpr hdst
  rw [admitFrame, hfits, hhere, police_off hmode]
  rfl

section
variable {s : State} {lp nb : Nat} {bs : List Byte} {off : Nat} {ip6 : Option (BitVec 128)} {ecn : BitVec 2}

/-- A frame in transit that is policed has left what the fence reads. -/
theorem fencedAlike_policed {v : State} {tid : Nat} (htid : tid < 4096) (hlp : lp < 384) (harr : Arrived lp bs.length s v)
    (hpartner : ∀ q, (port v q).partner = (port s q).partner) : FencedAlike lp s (policed v tid) := by
  have hsys : (policed v tid).sys = s.sys := harr.sys
  have hrcv : (policed v tid).rcv = s.rcv := by
    change v.rcv = _
    rw [harr.rest]
  have hnow : (policed v tid).time = s.time := by
    change v.time = _
    rw [harr.rest]
  have hover : leaseOver (policed v tid) = leaseOver s := by rw [leaseOver, leaseOver, hrcv, hnow]
  have hobj (i a : Nat) (ha : a < 256) (h : i ≠ 0x2000 + lp ∨ a ≠ 0x12 ∧ a ≠ 0x14) (h' : i ≠ 0x3000 + tid ∨ a ≠ 0x25) : obj (policed v tid) i a = obj s i a :=
    (policed_obj v tid ha h').trans (harr.objs i a ha h)
  have hpeer : isPeerPresent (policed v tid) = isPeerPresent s :=
    isPeerPresent_congr hsys (fun q => hpartner q) (fun q _ => hobj _ _ (by decide) (.inr (by decide)) (.inr (by decide)))
  have hpair := hobj 0x8002 1 (by decide) (.inl (by omega)) (.inl (by omega))
  refine ⟨hsys, ?_, hobj _ _ (by decide) (.inr (by decide)) (.inr (by decide)), hpair, fun a ha => hobj _ a ha (.inl (by omega)) (.inl (by omega))⟩
  rw [settleLease_readOnly, settleLease_readOnly, hover, hpair, hpeer, hrcv]

/-- A frame for another device is held: it counts under the version in force and waits for its rule reads. -/
theorem exec_frameHeld (hpass : Passes s lp bs off ip6 ecn) (htyp : (parseSxt (bs.drop off)).typ.toNat < 4)
    (hlocal : (parseSxt (bs.drop off)).dst ≠ 0xFFFFFF) (hdst : (parseSxt (bs.drop off)).dst ≠ devEp s)
    (hfits : ingressFits s lp (parseSxt (bs.drop off)).cls.toNat 1 = true) (hmode : ten s (parseSxt (bs.drop off)).tid.toNat 0x20 % 4 = 0)
    (hfence : fenceBad s lp (parseSxt (bs.drop off)) = false) (hwaiting : s.col.waiting = []) (hcache : s.col.cache = [])
    (hing : (port s lp).ingress.length = 8) (hmin : 64 ≤ bs.length) :
    ∃ t, exec (.frameReceived lp bs nb) s = .next t ∧ Took lp bs.length s t ∧
      Transits s.nextFrame lp bs off (parseSxt (bs.drop off)) s t ∧
      lget (port t lp).ingress (parseSxt (bs.drop off)).cls.toNat 0 = lget (port s lp).ingress (parseSxt (bs.drop off)).cls.toNat 0 + 1 := by
  obtain ⟨v, hd, harr, hports, hexec⟩ := exec_frameCounted (nb := nb) hpass
  obtain ⟨hlp, -⟩ := linkUp_port hpass.up
  have hcred := credited_credited v lp bs off ip6
  have hne (n : BitVec 4) (hn : 4 ≤ n.toNat) : ((parseSxt (bs.drop off)).typ == n) = false := by
    rw [beq_eq_false_iff_ne]
    intro heq
    rw [heq] at htyp
    omega
  have hnode := sxtNode_taken (s := v) (lp := lp) (bs := bs) (ip6 := ip6) (ecn := ecn) (store := (hd, [])) hpass.good
    (beq_eq_false_iff_ne.mp (hne 9 (by decide))) (beq_eq_false_iff_ne.mp (hne 4 (by decide)))
  obtain ⟨w, hw⟩ : ∃ w, w = credited v lp bs off ip6 := ⟨_, rfl⟩
  obtain ⟨h, hh⟩ : ∃ h, h = parseSxt (bs.drop off) := ⟨_, rfl⟩
  rw [← hw, ← hh] at hnode
  rw [← hw] at hcred
  rw [← hh] at hne htyp hlocal hdst hfits hmode hfence ⊢
  dsimp only at hnode
  rw [hne 8 (by decide), hne 7 (by decide), hne 5 (by decide), hne 6 (by decide), show (h.dst == 0xFFFFFF#24) = false from beq_eq_false_iff_ne.mpr hlocal] at hnode
  change sxtNode v lp bs off ip6 ecn (hd, []) = admitFrame w lp bs off ecn h (hd, []) at hnode
  have hcells : cdiv bs.length 256 = 1 := by
    have hshort := hpass.short
    rw [cdiv]
    omega
  have harrw : Arrived lp bs.length s w := by
    rw [hcred.rest]
    exact harr.update
  have hpartner (q : Nat) : (port w q).partner = (port s q).partner := by rw [hcred.partner, port, port, hports]
  have hwing : (port w lp).ingress = (port s lp).ingress := by rw [hcred.ingress, port, port, hports]
  have htid : h.tid.toNat < 4096 := by omega
  have hfits' : ingressFits w lp h.cls.toNat (cdiv bs.length 256) = true := by
    rw [hcells, ingressFits, hwing, ingressLimit, harrw.objs 0x4000 7 (by decide) (.inl (by omega))]
    exact hfits
  have hep : devEp w = devEp s := by rw [devEp, devEp, harrw.sys]
  have hmode' : ten w h.tid.toNat 0x20 % 4 = 0 := by
    rw [ten, harrw.objs _ _ (by decide) (.inl (by omega))]
    exact hmode
  rw [admitFrame_transit hfits' (hep ▸ hdst) hmode'] at hnode
  have halike := fencedAlike_policed htid hlp harrw hpartner
  obtain ⟨p, hp⟩ : ∃ p, p = policed w h.tid.toNat := ⟨_, rfl⟩
  rw [← hp] at hnode halike
  have hprest : p = { s with obj := p.obj, trav := p.trav, pwr := p.pwr, ports := p.ports, col := { s.col with policers := p.col.policers } } := by
    rw [hp, harrw.rest]
    rfl
  have hepp : devEp p = devEp s := by rw [devEp, devEp, halike.sys]
  obtain ⟨d, z, hsearch, hzlp, hzarr, hzoff, hzbytes, hlookup⟩ := lookupStage_probes (s := p) (lp := lp) (bs := bs) (off := off) (ecn := ecn) (h := h)
    (store := (hd, [])) (hepp ▸ hdst) ((fenceBad_congr halike rfl rfl rfl).trans hfence) hlp
  have hpcol : p.col = { s.col with policers := p.col.policers } := by rw [hprest]
  obtain ⟨htransits, hobjs, hqueue⟩ := transits_probed (f := p.nextFrame) hsearch hzlp hzarr hzoff hzbytes (by rw [hpcol]; exact hcache) (by rw [hpcol]; exact hwaiting)
  have hping : (port p lp).ingress = (port s lp).ingress := by
    rw [hp]
    exact hwing
  have htook := harrw.took
  have hcount (a : Nat) (ha : a < 256) (h25 : a ≠ 0x25) : lpo p lp a = lpo w lp a := by
    rw [hp]
    exact policed_obj w _ ha (.inr h25)
  rw [← hlookup, ← hnode] at htransits hobjs hqueue
  obtain ⟨t, ht⟩ : ∃ t, t = sxtNode v lp bs off ip6 ecn (hd, []) := ⟨_, rfl⟩
  rw [← ht] at htransits hobjs hqueue hexec
  have hfinal : Transits s.nextFrame lp bs off h s t := by
    obtain ⟨hropes, hhbm, hnow, hscree, hnext, hframe, hwait, hfly⟩ := htransits
    have hver : p.col.ver = s.col.ver := by rw [hpcol]
    have hft : ft p = ft s := by rw [hprest]; rfl
    have hnf : p.nextFrame = s.nextFrame := by rw [hprest]
    have hflight : inFlightOf p s.col.ver.current = inFlightOf s s.col.ver.current := by rw [inFlightOf, inFlightOf, hver]
    rw [hver, hnf, hft] at hframe
    rw [hver, hflight] at hfly
    rw [hnf] at hwait hnext
    exact ⟨hropes.trans (by rw [hprest]), hhbm.trans (by rw [hprest]), hnow.trans (by rw [hprest]), hscree.trans (by rw [hprest]), hnext, hframe, hwait, hfly⟩
  rw [finishScans_nil (by rw [hfinal.scree]; exact hpass.scans)] at hexec
  refine ⟨t, hexec, ⟨?_, ?_, hfinal.ropes, hfinal.hbm, hfinal.now⟩, hfinal, ?_⟩
  · exact (hobjs _ _ (by omega) (by omega) (by decide)).trans ((hcount 0x12 (by decide) (by decide)).trans htook.frames)
  · exact (hobjs _ _ (by omega) (by omega) (by decide)).trans ((hcount 0x14 (by decide) (by decide)).trans htook.bytes)
  · rw [hping, hcells] at hqueue
    exact hqueue (by omega)

end

end Sys2Proof.Proofs

/-! FRAME_RECEIVED (R24, R28, R44, R47, R64, R74, R81, R110, R388, R402). -/

namespace Sys2Proof.Proofs

open Sys2Proof.Machine Sys2Proof.Claim

/-- Settles O30: the MAC's tests, the frames of the link-local endpoint, and a frame in transit up to its rule reads. -/
theorem framesAreTestedTakenAndStamped : Obligations.FramesAreTestedTakenAndStamped := by
  unfold Obligations.FramesAreTestedTakenAndStamped
  intro s lp bs nb hon hup
  have htaken (t : State) (h : Took lp bs.length s t) : lpo t lp 0x12 = (lpo s lp 0x12 + 1) % 2 ^ 64 ∧
      lpo t lp 0x14 = (lpo s lp 0x14 + bs.length) % 2 ^ 64 ∧ t.ropes = s.ropes ∧ t.hbm = s.hbm ∧ t.time.now = s.time.now :=
    ⟨h.frames, h.bytes, h.ropes, h.hbm, h.now⟩
  refine ⟨fun h => ?_, fun h => ?_, fun hmin hmax hfcs => ?_, ?_⟩
  · exact exec_frameFailed hon hup (.inl ⟨macTest_short h, rfl⟩)
  · exact exec_frameFailed hon hup (.inr (.inl ⟨macTest_long h, rfl⟩))
  · exact exec_frameFailed hon hup (.inr (.inr ⟨macTest_fcs hmin hmax hfcs, rfl⟩))
  intro off ip6 ecn hmac hserves hdata hparse hgood hhead hshort hstage hcells hscans
  have hpass : Passes s lp bs off ip6 ecn := ⟨hon, hup, hmac, hserves, hdata, hparse, hgood, hhead, hshort, hstage, hcells, hscans⟩
  have hmin : 64 ≤ bs.length := by
    by_contra hlt
    rw [macTest_short (by omega)] at hmac
    cases hmac
  refine ⟨fun htyp => ?_, fun htyp => ?_, fun htyp hdst => ?_, fun htyp hlocal hdst hfits hmode hfence hwaiting hcache hing => ?_⟩
  · obtain ⟨t, hexec, htook, hport, hpeer⟩ := exec_framePulse (nb := nb) hpass htyp
    exact ⟨t, hexec, htaken t htook, hport, hpeer⟩
  · obtain ⟨t, hexec, htook, hseen, hlimit⟩ := exec_frameCred (nb := nb) hpass htyp
    exact ⟨t, hexec, htaken t htook, hseen, hlimit⟩
  · obtain ⟨t, hexec, htook, hrest⟩ := exec_frameStopped (nb := nb) hpass htyp hdst
    exact ⟨t, hexec, htaken t htook, hrest⟩
  · obtain ⟨t, hexec, htook, htransits, hqueue⟩ := exec_frameHeld (nb := nb) hpass htyp hlocal hdst hfits hmode hfence hwaiting hcache hing hmin
    obtain ⟨x, hframe, hlp, harr, hoff, hbytes⟩ := htransits.frame
    exact ⟨t, x, hexec, htaken t htook, htransits.next, hframe, hlp, harr, hoff, hbytes, htransits.waiting, htransits.inFlight, hqueue⟩

end Sys2Proof.Proofs

/-! The table engine: its commands, their end, and the slots of the endpoint table (R90, R101, R105). -/

namespace Sys2Proof.Proofs

open Sys2Proof.Machine Sys2Proof.Claim

/-! ### The end of a command (R105, R167) -/

/-- What the end of the command of block `n` leaves: the block's outputs, the engine's turn, the TABLE event. -/
structure Finished (n : Nat) (b : TblBlock) (st : Nat) (u t : State) : Prop where
  rest : t = { u with ropes := t.ropes, cores := t.cores, tbl := t.tbl, pwr := t.pwr }
  tbl : t.tbl = { u.tbl with engineQ := u.tbl.engineQ.tail, blocks := t.tbl.blocks }
  block : blockOf t n = { b with status := st, moveGen := moveGenOf u b.goTable, by_ := none }
  calm : b.by_ = none → t.ropes = u.ropes
  told : ∀ r, b.by_ = some r → (∀ d m v, (rope u r).st ≠ .waiting (.event d m v)) →
    rope t r = { rope u r with pending := (rope u r).pending ||| evTable }

theorem endCmd_finished (u : State) (n : Nat) (b : TblBlock) (st : Nat) : Finished n b st u (endCmd u n b st) := by
  obtain ⟨x, hx⟩ : ∃ x, x = { b with status := st, moveGen := moveGenOf u b.goTable } := ⟨_, rfl⟩
  obtain ⟨v, hv⟩ : ∃ v, v = setBlock { u with tbl := { u.tbl with engineQ := u.tbl.engineQ.tail } } n x := ⟨_, rfl⟩
  have hend : endCmd u n b st = stir (tableEvent v n) := by
    rw [hv, hx]
    rfl
  have hblock : blockOf v n = x := by
    rw [hv]
    exact mget_mset_same _ _ _ _
  have hvrest : v = { u with tbl := v.tbl } := by rw [hv]; rfl
  have hvtbl : v.tbl = { u.tbl with engineQ := u.tbl.engineQ.tail, blocks := v.tbl.blocks } := by rw [hv]; rfl
  rw [hend]
  cases hby : b.by_ with
  | none =>
    have hcalm : tableEvent v n = v := by
      rw [tableEvent, hblock, hx]
      dsimp only
      rw [hby]
    rw [hcalm]
    refine ⟨?_, hvtbl, ?_, fun _ => ?_, fun r hr => absurd (hby.symm.trans hr) (Option.some_ne_none r).symm⟩
    · rw [hvrest]
      rfl
    · change blockOf v n = _
      rw [hblock, hx, hby]
    · change v.ropes = _
      rw [hvrest]
  | some r =>
    obtain ⟨w, hw⟩ : ∃ w, w = setBlock v n { x with by_ := none } := ⟨_, rfl⟩
    have htold : tableEvent v n = setEvent w r evTable := by
      rw [tableEvent, hblock, hx]
      dsimp only
      rw [hby, hw, hx]
    obtain ⟨rs, cs, honly⟩ := setEvent_only w r evTable
    have hwrest : w = { u with tbl := w.tbl } := by
      rw [hw, hvrest]
      rfl
    have hropes : rope w r = rope u r := by
      rw [hwrest]
      rfl
    rw [htold]
    refine ⟨?_, ?_, ?_, fun hnone => absurd (hby.symm.trans hnone) (Option.some_ne_none r), fun q hq hst => ?_⟩
    · rw [honly, hwrest]
      rfl
    · rw [honly]
      change w.tbl = { u.tbl with engineQ := u.tbl.engineQ.tail, blocks := w.tbl.blocks }
      rw [hw, setBlock, hvtbl]
    · rw [honly]
      change blockOf w n = _
      rw [hw]
      exact (mget_mset_same _ _ _ _).trans (by rw [hx])
    · obtain rfl := Option.some.inj (hby.symm.trans hq)
      change rope (setEvent w r evTable) r = _
      rw [rope_setEvent_joins (fun d m v h => absurd (hropes ▸ h) (hst d m v)), hropes]

/-- The end of a command says nothing of the objects, the tables or the classifier. -/
theorem Finished.obj {n st : Nat} {b : TblBlock} {u t : State} (h : Finished n b st u t) (i a : Nat) : Machine.obj t i a = Machine.obj u i a :=
  obj_congr (by rw [h.rest]) (by rw [h.rest]) i a

theorem Finished.ep {n st : Nat} {b : TblBlock} {u t : State} (h : Finished n b st u t) : t.tbl.ep = u.tbl.ep := by rw [h.tbl]
theorem Finished.hbm {n st : Nat} {b : TblBlock} {u t : State} (h : Finished n b st u t) : t.hbm = u.hbm := by rw [h.rest]
theorem Finished.col {n st : Nat} {b : TblBlock} {u t : State} (h : Finished n b st u t) : t.col = u.col := by rw [h.rest]
theorem Finished.sys {n st : Nat} {b : TblBlock} {u t : State} (h : Finished n b st u t) : t.sys = u.sys := by rw [h.rest]

/-! ### The slots of the endpoint table (R90, R91) -/

/-- Of the tables only the words of the endpoint table, and the mark that one was touched, have changed. -/
structure SlotsOnly (s t : State) : Prop where
  rest : t = { s with tbl := t.tbl }
  tbl : t.tbl = { s.tbl with ep := t.tbl.ep, sweepTouched := t.tbl.sweepTouched }

theorem SlotsOnly.refl (s : State) : SlotsOnly s s := ⟨rfl, rfl⟩

theorem SlotsOnly.trans {s t u : State} (h : SlotsOnly s t) (h' : SlotsOnly t u) : SlotsOnly s u := by
  refine ⟨?_, ?_⟩
  · have hu := h'.rest
    rw [h.rest] at hu
    exact hu
  · have hu := h'.tbl
    rw [h.tbl] at hu
    exact hu

theorem setEpSlot_slotsOnly (s : State) (p : Nat × Nat) (e : BitVec 64) : SlotsOnly s (setEpSlot s p e) := by
  have htouch : SlotsOnly s (touchBucket s p.1) := by
    unfold touchBucket
    split
    · exact ⟨rfl, rfl⟩
    · exact .refl s
  exact htouch.trans ⟨rfl, rfl⟩

theorem epWord_touchBucket (s : State) (b c : Nat) : epWord (touchBucket s b) c = epWord s c := by
  unfold touchBucket
  split <;> rfl

/-- A slot that is written holds what was written; the other slots stay. -/
theorem epSlot_setEpSlot (s : State) {p q : Nat × Nat} (hp : p.2 < 4) (hq : q.2 < 4) (e : BitVec 64) :
    epSlot (setEpSlot s p e) q = if q = p then e else epSlot s q := by
  rw [epSlot, setEpSlot, epWord_setEpWord]
  by_cases hb : q.1 = p.1
  · rw [if_pos hb, slotOf_withSlot _ hp hq]
    by_cases hi : q.2 = p.2
    · rw [if_pos hi, if_pos (Prod.ext hb hi)]
    · rw [if_neg hi, if_neg (fun h => hi (congrArg Prod.snd h)), epSlot, hb]
  · rw [if_neg hb, if_neg (fun h => hb (congrArg Prod.fst h)), epWord_touchBucket]
    rfl

/-- A key stands in one of four slots of its two buckets. -/
theorem mem_candSlots {h : Nat × Nat} {p : Nat × Nat} : p ∈ candSlots h ↔ p.2 < 4 ∧ (p.1 = h.1 ∨ p.1 = h.2) := by
  obtain ⟨b, i⟩ := p
  rw [candSlots, List.mem_append, List.mem_map]
  split
  · next heq =>
    simp only [List.mem_range, List.not_mem_nil, or_false, Prod.mk.injEq, ← heq, or_self]
    exact ⟨fun ⟨j, hj, hb, hi⟩ => ⟨hi ▸ hj, hb.symm⟩, fun ⟨hi, hb⟩ => ⟨i, hi, hb.symm, rfl⟩⟩
  · simp only [List.mem_map, List.mem_range, Prod.mk.injEq]
    constructor
    · rintro (⟨j, hj, hb, hi⟩ | ⟨j, hj, hb, hi⟩)
      · exact ⟨hi ▸ hj, .inl hb.symm⟩
      · exact ⟨hi ▸ hj, .inr hb.symm⟩
    · rintro ⟨hi, hb | hb⟩
      · exact .inl ⟨i, hi, hb.symm, rfl⟩
      · exact .inr ⟨i, hi, hb.symm, rfl⟩

/-- An entry that is made of its parts shows them. -/
theorem epEntry_parts {hit static : Bool} {k lp : Nat} (hk : k < 2 ^ 36) (hlp : lp < 512) : let e := epEntry hit static k lp
    eValid e = true ∧ eKey e = k ∧ eLp e = lp ∧ eHit e = hit ∧ eStatic e = static := by
  have hflag (x : Bool) : b2n x ≤ 1 ∧ x = decide (b2n x = 1) := by cases x <;> decide
  obtain ⟨hhit, hhit1⟩ := hflag hit
  obtain ⟨hstatic, hstatic1⟩ := hflag static
  have hnat : (epEntry hit static k lp).toNat = 2 ^ 63 + b2n hit * 2 ^ 62 + b2n static * 2 ^ 61 + k * 2 ^ 24 + lp * 2 ^ 15 := by
    rw [epEntry, BitVec.toNat_ofNat, Nat.mod_eq_of_lt hk, Nat.mod_eq_of_lt hlp]
    omega
  dsimp only
  simp only [eValid, eHit, eStatic, ← bit_getLsbD, eKey, eLp, bits, bit, hnat]
  refine ⟨?_, by omega, by omega, ?_, ?_⟩
  · rw [decide_eq_true_eq]
    omega
  · conv_rhs => rw [hhit1]
    rw [decide_eq_decide]
    omega
  · conv_rhs => rw [hstatic1]
    rw [decide_eq_decide]
    omega

end Sys2Proof.Proofs

/-! Chains of displacements: what the search finds, and what placement along a chain leaves (R93). -/

namespace Sys2Proof.Proofs

open Sys2Proof.Machine Sys2Proof.Claim

/-! ### The search -/

section
variable {free : Nat × Nat → Bool} {next : Nat × Nat → List (Nat × Nat)}

/-- Each position of a chain is taken and its occupant may move to the one after it; the last is free. -/
def Leads (free : Nat × Nat → Bool) (next : Nat × Nat → List (Nat × Nat)) : List (Nat × Nat) → Prop
  | [] => False
  | [p] => free p = true
  | p :: q :: ps => free p = false ∧ q ∈ next p ∧ Leads free next (q :: ps)

/-- A chain starts at one of some positions, leads to a free one, and passes no position twice nor one already seen. -/
structure Chain (free : Nat × Nat → Bool) (next : Nat × Nat → List (Nat × Nat)) (seen starts cs : List (Nat × Nat)) : Prop where
  start : ∃ p ∈ starts, cs.head? = some p
  leads : Leads free next cs
  distinct : cs.Nodup
  unseen : ∀ p ∈ cs, p ∉ seen

theorem Chain.single {seen starts : List (Nat × Nat)} {p : Nat × Nat} (hp : p ∈ starts) (hfree : free p = true) (hseen : p ∉ seen) :
    Chain free next seen starts [p] :=
  ⟨⟨p, hp, rfl⟩, hfree, List.nodup_singleton p, fun _ hq => (List.mem_singleton.mp hq) ▸ hseen⟩

/-- A displacement before a chain makes a chain. -/
theorem Chain.cons {seen starts cs : List (Nat × Nat)} {p : Nat × Nat} (h : Chain free next (p :: seen) (next p) cs) (hp : p ∈ starts)
    (htaken : free p = false) (hseen : p ∉ seen) : Chain free next seen starts (p :: cs) := by
  obtain ⟨⟨q, hq, hhead⟩, hleads, hdistinct, hunseen⟩ := h
  obtain ⟨qs, rfl⟩ : ∃ qs, cs = q :: qs := by
    cases cs with
    | nil => cases hhead
    | cons x xs => exact ⟨xs, by rw [Option.some.inj hhead]⟩
  refine ⟨⟨p, hp, rfl⟩, ⟨htaken, hq, hleads⟩, ?_, fun x hx => ?_⟩
  · exact List.nodup_cons.mpr ⟨fun hmem => hunseen p hmem (List.mem_cons_self ..), hdistinct⟩
  · rcases List.mem_cons.mp hx with rfl | hx
    · exact hseen
    · exact fun hs => hunseen x hx (List.mem_cons_of_mem _ hs)

theorem chainFrom_sound {n : Nat} {seen ps cs : List (Nat × Nat)} (hseen : ∀ p ∈ seen, free p = false) (h : chainFrom free next n seen ps = some cs) :
    cs.length = n + 1 ∧ Chain free next seen ps cs := by
  induction n generalizing seen ps cs with
  | zero =>
    obtain ⟨p, hp, rfl⟩ := Option.map_eq_some_iff.mp h
    have hfree : free p = true := List.find?_some hp
    exact ⟨rfl, .single (List.mem_of_find?_eq_some hp) hfree fun hs => by rw [hseen p hs] at hfree; cases hfree⟩
  | succ n ih =>
    obtain ⟨p, hp, hfound⟩ := List.exists_of_findSome?_eq_some h
    split at hfound
    · cases hfound
    · next hnot =>
      obtain ⟨d, hd, rfl⟩ := Option.map_eq_some_iff.mp hfound
      obtain ⟨htaken, hnew⟩ : free p = false ∧ p ∉ seen := by simpa using hnot
      obtain ⟨hlen, hchain⟩ := ih (seen := p :: seen) (fun q hq => (List.mem_cons.mp hq).elim (· ▸ htaken) (hseen q)) hd
      exact ⟨by rw [List.length_cons, hlen], hchain.cons hp htaken hnew⟩

theorem chainFrom_complete {n : Nat} {seen ps cs : List (Nat × Nat)} (hlen : cs.length = n + 1) (h : Chain free next seen ps cs) :
    (chainFrom free next n seen ps).isSome = true := by
  induction n generalizing seen ps cs with
  | zero =>
    obtain ⟨p, rfl⟩ := List.length_eq_one_iff.mp hlen
    obtain ⟨⟨q, hq, hhead⟩, hfree, -, -⟩ := h
    obtain rfl := Option.some.inj hhead
    rw [chainFrom, Option.isSome_map, List.find?_isSome]
    exact ⟨p, hq, hfree⟩
  | succ n ih =>
    obtain ⟨p, q, qs, rfl⟩ : ∃ p q qs, cs = p :: q :: qs := by
      match cs, hlen with
      | p :: q :: qs, _ => exact ⟨p, q, qs, rfl⟩
    obtain ⟨⟨x, hx, hhead⟩, ⟨htaken, hmem, hleads⟩, hdistinct, hunseen⟩ := h
    obtain rfl := Option.some.inj hhead
    obtain ⟨hnot, hdistinct⟩ := List.nodup_cons.mp hdistinct
    have htail : Chain free next (p :: seen) (next p) (q :: qs) :=
      ⟨⟨q, hmem, rfl⟩, hleads, hdistinct, fun y hy hs => (List.mem_cons.mp hs).elim (fun heq => hnot (heq ▸ hy)) (hunseen y (List.mem_cons_of_mem _ hy))⟩
    have hsome := ih (by simpa using hlen) htail
    have hseen : p ∉ seen := hunseen p (List.mem_cons_self ..)
    rw [chainFrom, List.findSome?_isSome_iff]
    exact ⟨p, hx, by rw [if_neg (by simp [htaken, hseen]), Option.isSome_map, hsome]⟩

/-- The first that a search by rising number finds has none below it. -/
theorem findSome?_range {α : Type} {f : Nat → Option α} {k : Nat} {x : α} (h : (List.range k).findSome? f = some x) :
    ∃ n, n < k ∧ f n = some x ∧ ∀ m, m < n → f m = none := by
  induction k with
  | zero => cases h
  | succ k ih =>
    rw [List.range_succ, List.findSome?_append] at h
    cases hfirst : (List.range k).findSome? f with
    | some y =>
      rw [hfirst] at h
      obtain ⟨n, hn, hfound, hnone⟩ := ih (hfirst.trans h)
      exact ⟨n, by omega, hfound, hnone⟩
    | none =>
      rw [hfirst, List.findSome?_singleton] at h
      exact ⟨k, by omega, h, fun m hm => List.findSome?_eq_none_iff.mp hfirst m (List.mem_range.mpr hm)⟩

/-- The chain found is one of the shortest. -/
theorem findChain_shortest {ps cs : List (Nat × Nat)} (h : findChain free next ps = some cs) :
    cs.length ≤ 5 ∧ Chain free next [] ps cs ∧ ∀ d, Chain free next [] ps d → cs.length ≤ d.length := by
  obtain ⟨n, hn, hfound, hnone⟩ := findSome?_range h
  obtain ⟨hlen, hchain⟩ := chainFrom_sound (fun _ hp => absurd hp List.not_mem_nil) hfound
  refine ⟨by omega, hchain, fun d hd => ?_⟩
  by_contra hlt
  have hpos : d ≠ [] := by
    rintro rfl
    exact hd.leads
  have hdlen := List.length_pos_iff.mpr hpos
  have hsome := chainFrom_complete (n := d.length - 1) (by omega) hd
  rw [hnone _ (by omega)] at hsome
  cases hsome

/-- With a free position among the first there is no displacement. -/
theorem findChain_free {ps : List (Nat × Nat)} {p : Nat × Nat} (h : ps.find? free = some p) : findChain free next ps = some [p] := by
  have hzero : chainFrom free next 0 [] ps = some [p] := by rw [chainFrom, h]; rfl
  rw [findChain, List.range_succ_eq_map, List.findSome?_cons, hzero]

/-- What leads on leads on from each of its positions. -/
theorem Leads.append {l r : List (Nat × Nat)} (h : Leads free next (l ++ r)) (hr : r ≠ []) : Leads free next r := by
  induction l with
  | nil => exact h
  | cons p l ih =>
    refine ih ?_
    cases hl : l ++ r with
    | nil => exact absurd (List.append_eq_nil_iff.mp hl).2 hr
    | cons q qs =>
      rw [List.cons_append, hl] at h
      exact h.2.2

/-- A shortest chain passes only one of the positions it might start at. -/
theorem Chain.head_of_mem {ps cs : List (Nat × Nat)} (h : Chain free next [] ps cs) (hmin : ∀ d, Chain free next [] ps d → cs.length ≤ d.length)
    {q : Nat × Nat} (hq : q ∈ cs) (hstart : q ∈ ps) : cs.head? = some q := by
  obtain ⟨l, r, hsplit⟩ := List.append_of_mem hq
  obtain ⟨-, hleads, hdistinct, -⟩ := h
  rw [hsplit] at hleads hdistinct
  have hshort := hmin (q :: r) ⟨⟨q, hstart, rfl⟩, hleads.append (List.cons_ne_nil _ _), (List.nodup_append.mp hdistinct).2.1, fun _ _ => List.not_mem_nil⟩
  rw [hsplit, List.length_append] at hshort
  have hl : l = [] := List.eq_nil_of_length_eq_zero (by omega)
  rw [hsplit, hl]
  rfl

theorem Leads.step {cs : List (Nat × Nat)} (h : Leads free next cs) {i : Nat} {p q : Nat × Nat} (hp : cs[i]? = some p) (hq : cs[i + 1]? = some q) :
    free p = false ∧ q ∈ next p := by
  induction cs generalizing i with
  | nil => cases hp
  | cons x cs ih =>
    cases cs with
    | nil => cases hq
    | cons y cs =>
      cases i with
      | zero =>
        obtain rfl : x = p := Option.some.inj hp
        obtain rfl : y = q := Option.some.inj hq
        exact ⟨h.1, h.2.1⟩
      | succ i => exact ih h.2.2 hp hq

theorem Leads.last {cs : List (Nat × Nat)} (h : Leads free next cs) : ∃ p, cs.getLast? = some p ∧ free p = true := by
  induction cs with
  | nil => exact h.elim
  | cons x cs ih =>
    cases cs with
    | nil => exact ⟨x, rfl, h⟩
    | cons y cs =>
      obtain ⟨p, hp, hfree⟩ := ih h.2.2
      exact ⟨p, by rw [List.getLast?_cons_cons, hp], hfree⟩

/-- Every position of a chain is one of the first or one that an occupant may move to. -/
theorem Chain.all {ok : Nat × Nat → Prop} {seen ps cs : List (Nat × Nat)} (h : Chain free next seen ps cs) (hps : ∀ p ∈ ps, ok p)
    (hnext : ∀ p, ∀ q ∈ next p, ok q) : ∀ p ∈ cs, ok p := by
  obtain ⟨⟨x, hx, hhead⟩, hleads, -, -⟩ := h
  intro p hp
  obtain ⟨i, hi⟩ := List.getElem?_of_mem hp
  cases i with
  | zero =>
    rw [← List.head?_eq_getElem?, hhead] at hi
    exact Option.some.inj hi ▸ hps x hx
  | succ i =>
    obtain ⟨y, hy⟩ : ∃ y, cs[i]? = some y := ⟨cs[i]'(by have := List.getElem?_eq_some_iff.mp hi; obtain ⟨hlt, -⟩ := this; omega), List.getElem?_eq_getElem _⟩
    exact hnext y p (hleads.step hy hi).2

end

/-! ### Placement -/

section
variable {α : Type}

/-- Place an entry along a chain: each displaced entry moves one position on. -/
def placeAlong (slot : State → Nat × Nat → α) (write : State → Nat × Nat → α → State) (s : State) (e : α) : List (Nat × Nat) → State
  | [] => s
  | p :: ps => placeAlong slot write (write s p e) (slot s p) ps

/-- The slots after a placement along a chain. -/
structure Placed (slot : State → Nat × Nat → α) (ok : Nat × Nat → Prop) (e : α) (cs : List (Nat × Nat)) (s t : State) : Prop where
  head : ∀ p, cs.head? = some p → slot t p = e
  moved : ∀ i p q, cs[i]? = some p → cs[i + 1]? = some q → slot t q = slot s p
  others : ∀ q, ok q → q ∉ cs → slot t q = slot s q

/-- A write of a slot puts there what is written and leaves the other slots. -/
structure Writes (slot : State → Nat × Nat → α) (write : State → Nat × Nat → α → State) (inv : State → Prop) (ok : Nat × Nat → Prop) (good : α → Prop) : Prop where
  keeps : ∀ s p e, inv s → inv (write s p e)
  slot : ∀ s p q e, inv s → ok p → ok q → good e → slot (write s p e) q = if q = p then e else slot s q

variable {slot : State → Nat × Nat → α} {write : State → Nat × Nat → α → State} {inv : State → Prop} {ok : Nat × Nat → Prop} {good : α → Prop}

theorem Writes.placed (hw : Writes slot write inv ok good) {cs : List (Nat × Nat)} {s : State} {e : α} (hinv : inv s) (hok : ∀ p ∈ cs, ok p)
    (hdistinct : cs.Nodup) (he : good e) (hgood : ∀ i p q, cs[i]? = some p → cs[i + 1]? = some q → good (slot s p)) :
    Placed slot ok e cs s (placeAlong slot write s e cs) ∧ inv (placeAlong slot write s e cs) := by
  induction cs generalizing s e with
  | nil => exact ⟨⟨nofun, nofun, fun _ _ _ => rfl⟩, hinv⟩
  | cons x cs ih =>
    obtain ⟨hx, hdistinct⟩ := List.nodup_cons.mp hdistinct
    have hokx := hok x (List.mem_cons_self ..)
    have hokc (p : Nat × Nat) (hp : p ∈ cs) : ok p := hok p (List.mem_cons_of_mem _ hp)
    have hslot (q : Nat × Nat) (hq : ok q) : slot (write s x e) q = if q = x then e else slot s q := hw.slot s x q e hinv hokx hq he
    cases cs with
    | nil =>
      refine ⟨⟨fun p hp => ?_, nofun, fun q hq hnot => ?_⟩, hw.keeps s x e hinv⟩
      · obtain rfl := Option.some.inj hp
        exact (hslot x hokx).trans (if_pos rfl)
      · exact (hslot q hq).trans (if_neg (by simpa using hnot))
    | cons y cs =>
      have hsame (p : Nat × Nat) (hp : p ∈ y :: cs) : slot (write s x e) p = slot s p :=
        (hslot p (hokc p hp)).trans (if_neg fun heq : p = x => hx (heq ▸ hp))
      obtain ⟨⟨hhead, hmoved, hothers⟩, hinv'⟩ := ih (s := write s x e) (e := slot s x) (hw.keeps s x e hinv) hokc hdistinct (hgood 0 x y rfl rfl)
        fun i p q hp hq => by
          rw [hsame p (List.mem_of_getElem? hp)]
          exact hgood (i + 1) p q hp hq
      refine ⟨⟨fun p hp => ?_, fun i p q hp hq => ?_, fun q hq hnot => ?_⟩, hinv'⟩
      · obtain rfl := Option.some.inj hp
        exact (hothers x hokx hx).trans ((hslot x hokx).trans (if_pos rfl))
      · cases i with
        | zero =>
          obtain rfl : x = p := Option.some.inj hp
          exact hhead q hq
        | succ i => exact (hmoved i p q hp hq).trans (hsame p (List.mem_of_getElem? hp))
      · obtain ⟨hne, hnot⟩ : q ≠ x ∧ q ∉ y :: cs := by
          rw [List.mem_cons, not_or] at hnot
          exact hnot
        exact (hothers q hq hnot).trans ((hslot q hq).trans (if_neg hne))

end

end Sys2Proof.Proofs

/-! The commands of the endpoint table (R90 to R93, R101, R102). -/

namespace Sys2Proof.Proofs

open Sys2Proof.Machine Sys2Proof.Claim

/-! ### Slots along a chain (R93) -/

/-- Where the occupant of a slot of the endpoint table may move to. -/
def epNext (s : State) (p : Nat × Nat) : List (Nat × Nat) :=
  (List.range 4).map (fun i => (otherBucket (epHash s (eKey (epSlot s p))) p.1, i))

def epFree (s : State) (p : Nat × Nat) : Bool := !eValid (epSlot s p)

theorem mem_bucket {b : Nat} {q : Nat × Nat} (h : q ∈ (List.range 4).map (fun i => (b, i))) : q.2 < 4 ∧ q.1 = b := by
  obtain ⟨i, hi, rfl⟩ := List.mem_map.mp h
  exact ⟨List.mem_range.mp hi, rfl⟩

theorem epPlace_along (s : State) (e : BitVec 64) (ps : List (Nat × Nat)) : epPlace s e ps = placeAlong epSlot setEpSlot s e ps := by
  induction ps generalizing s e with
  | nil => rfl
  | cons p ps ih => exact ih _ _

theorem epSlot_writes : Writes epSlot setEpSlot (fun _ => True) (fun p => p.2 < 4) (fun _ => True) :=
  ⟨fun _ _ _ _ => trivial, fun s _ _ e _ hp hq _ => epSlot_setEpSlot s hp hq e⟩

theorem epPlace_slotsOnly (s : State) (e : BitVec 64) (ps : List (Nat × Nat)) : SlotsOnly s (epPlace s e ps) := by
  induction ps generalizing s e with
  | nil => exact .refl s
  | cons p ps ih => exact (setEpSlot_slotsOnly s p e).trans (ih _ _)

/-- The moves of a chain are counted in MoveGen. -/
def epMoved (s : State) (n : Nat) : State := putObj s 0x4800 0x0B ((obj s 0x4800 0x0B + n) % 2 ^ 32)

theorem epInsert_some {s : State} {e : BitVec 64} {ps : List (Nat × Nat)} (h : findChain (epFree s) (epNext s) (candSlots (epHash s (eKey e))) = some ps) :
    epInsert s e = some (epMoved (epPlace s e ps) (ps.length - 1)) := by
  unfold epInsert
  extract_lets free next
  have hfound : findChain free next (candSlots (epHash s (eKey e))) = some ps := h
  simp only [hfound]
  rfl

theorem epInsert_none {s : State} {e : BitVec 64} (h : findChain (epFree s) (epNext s) (candSlots (epHash s (eKey e))) = none) : epInsert s e = none := by
  unfold epInsert
  extract_lets free next
  have hfound : findChain free next (candSlots (epHash s (eKey e))) = none := h
  simp only [hfound]

/-- What an insertion of an endpoint entry along a chain leaves. -/
structure EpPlaced (e : BitVec 64) (ps : List (Nat × Nat)) (s t : State) : Prop where
  chain : Chain (epFree s) (epNext s) [] (candSlots (epHash s (eKey e))) ps
  short : ps.length ≤ 5
  placed : Placed epSlot (fun p => p.2 < 4) e ps s t
  rest : ∃ v, SlotsOnly s v ∧ t = epMoved v (ps.length - 1)

theorem epInsert_placed {s t : State} {e : BitVec 64} (h : epInsert s e = some t) : ∃ ps, EpPlaced e ps s t := by
  cases hfind : findChain (epFree s) (epNext s) (candSlots (epHash s (eKey e))) with
  | none =>
    rw [epInsert_none hfind] at h
    cases h
  | some ps =>
    rw [epInsert_some hfind] at h
    obtain rfl := Option.some.inj h
    obtain ⟨hshort, hchain, -⟩ := findChain_shortest hfind
    have hok := hchain.all (ok := fun p => p.2 < 4) (fun p hp => (mem_candSlots.mp hp).1) (fun p q hq => (mem_bucket hq).1)
    have hplaced := (epSlot_writes.placed (s := s) (e := e) trivial hok hchain.distinct trivial (fun _ _ _ _ _ => trivial)).1
    rw [← epPlace_along] at hplaced
    exact ⟨ps, hchain, hshort, ⟨hplaced.head, hplaced.moved, hplaced.others⟩, _, epPlace_slotsOnly s e ps, rfl⟩

/-- With a free slot in the key's buckets nothing moves. -/
theorem epInsert_free {s : State} {e : BitVec 64} {p : Nat × Nat} (h : (candSlots (epHash s (eKey e))).find? (epFree s) = some p) :
    epInsert s e = some (epMoved (setEpSlot s p e) 0) := epInsert_some (findChain_free h)

/-! ### Commands of the engine (R101) -/

theorem nextCmd_ep {s : State} {n op : Nat} {rest : List Nat} (hq : s.tbl.engineQ = n :: rest) (hop : (blockOf s n).goOp = op)
    (htable : (blockOf s n).goTable = 0) : nextCmd s op = some (n, blockOf s n) := by
  rw [nextCmd, hq]
  dsimp only
  rw [hop, htable]
  exact if_pos (by rw [decide_eq_true rfl]; rfl)

/-- What every command that ends leaves, from the state `s` in which its turn came. -/
structure Ran (s : State) (n : Nat) (rest : List Nat) (st : Nat) (t : State) : Prop where
  status : (blockOf t n).status = st
  queue : t.tbl.engineQ = rest
  calm : (blockOf s n).by_ = none → t.ropes = s.ropes
  hbm : t.hbm = s.hbm
  told : ∀ r, (blockOf s n).by_ = some r → (∀ d m u, (rope s r).st ≠ .waiting (.event d m u)) →
    rope t r = { rope s r with pending := (rope s r).pending ||| 1#64 <<< 58 }

theorem Finished.ran {s u t : State} {n st : Nat} {rest : List Nat} {b : TblBlock} (h : Finished n b st u t) (hq : s.tbl.engineQ = n :: rest)
    (hqueue : u.tbl.engineQ = s.tbl.engineQ) (hropes : u.ropes = s.ropes) (hhbm : u.hbm = s.hbm) (hby : b.by_ = (blockOf s n).by_) : Ran s n rest st t where
  status := by rw [h.block]
  queue := by
    rw [h.tbl]
    change u.tbl.engineQ.tail = rest
    rw [hqueue, hq]
    rfl
  calm hnone := (h.calm (hby.trans hnone)).trans hropes
  hbm := h.hbm.trans hhbm
  told r hr hst := by
    have hrope : rope u r = rope s r := by rw [rope, rope, hropes]
    have htold := h.told r (hby.trans hr) (by rw [hrope]; exact hst)
    rw [hrope] at htold
    exact htold

theorem SlotsOnly.finished_ran {s u t : State} {n st : Nat} {rest : List Nat} {b : TblBlock} (hslots : SlotsOnly s u) (h : Finished n b st u t)
    (hq : s.tbl.engineQ = n :: rest) (hby : b.by_ = (blockOf s n).by_) : Ran s n rest st t :=
  h.ran hq (by rw [hslots.tbl]) (by rw [hslots.rest]) (by rw [hslots.rest]) hby

section
variable {s : State} {n : Nat} {rest : List Nat}

/-! ### INSERT and DELETE -/

/-- The key, the port and the entry that a block asks for. -/
def askedKey (b : TblBlock) : Nat := bits b.key.toNat 35 0
def askedLp (b : TblBlock) : Nat := bits b.arg.toNat 8 0
def askedEntry (b : TblBlock) : BitVec 64 := epEntry true (bit b.arg.toNat 9) (askedKey b) (askedLp b)

theorem askedKey_lt (b : TblBlock) : askedKey b < 2 ^ 36 := by
  rw [askedKey, bits]
  omega

theorem eKey_asked (b : TblBlock) : eKey (askedEntry b) = askedKey b :=
  (epEntry_parts (askedKey_lt b) (by rw [askedLp, bits]; omega)).2.1

theorem exec_insertEp (hon : on s = true) (hq : s.tbl.engineQ = n :: rest) (hop : (blockOf s n).goOp = 1) (htable : (blockOf s n).goTable = 0)
    (hdef : lpDefined s (askedLp (blockOf s n)) = true) :
    (∀ p, epFind s (askedKey (blockOf s n)) = some p →
      exec .insert s = .next (endCmd (setEpSlot s p (askedEntry (blockOf s n))) n (blockOf s n) 0)) ∧
    (∀ t, epFind s (askedKey (blockOf s n)) = none → epInsert s (askedEntry (blockOf s n)) = some t →
      exec .insert s = .next (endCmd t n (blockOf s n) 0)) ∧
    (epFind s (askedKey (blockOf s n)) = none → epInsert s (askedEntry (blockOf s n)) = none →
      exec .insert s = .next (endCmd s n (blockOf s n) 2)) := by
  have hcmd := nextCmd_ep hq hop htable
  generalize blockOf s n = b at hcmd htable hdef ⊢
  have hundef : ¬(!lpDefined s (bits b.arg.toNat 8 0)) = true := by
    rw [show lpDefined s (bits b.arg.toNat 8 0) = true from hdef]
    decide
  have hfind : epFind s (bits b.key.toNat 35 0) = epFind s (askedKey b) := rfl
  have hins : epInsert s (epEntry true (bit b.arg.toNat 9) (bits b.key.toNat 35 0) (bits b.arg.toNat 8 0)) = epInsert s (askedEntry b) := rfl
  have hexec : exec .insert s = execInsert s := rfl
  refine ⟨fun p h => ?_, fun t h h' => ?_, fun h h' => ?_⟩
  · rw [hexec, execInsert, live_on hon, hcmd]
    refine (if_pos htable).trans ((if_neg hundef).trans ?_)
    rw [hfind, h]
    rfl
  · rw [hexec, execInsert, live_on hon, hcmd]
    refine (if_pos htable).trans ((if_neg hundef).trans ?_)
    rw [hfind, h]
    dsimp only
    rw [hins, h']
    rfl
  · rw [hexec, execInsert, live_on hon, hcmd]
    refine (if_pos htable).trans ((if_neg hundef).trans ?_)
    rw [hfind, h]
    dsimp only
    rw [hins, h']
    rfl

theorem exec_insertUndefined (hon : on s = true) (hq : s.tbl.engineQ = n :: rest) (hop : (blockOf s n).goOp = 1) (htable : (blockOf s n).goTable = 0)
    (hdef : lpDefined s (askedLp (blockOf s n)) = false) : exec .insert s = .fault (.unsupported 106) := by
  have hcmd := nextCmd_ep hq hop htable
  change execInsert s = _
  unfold execInsert
  refine (live_on hon _).trans ?_
  rw [hcmd]
  dsimp only
  exact (if_pos htable).trans (if_pos (by rw [show lpDefined s (bits (blockOf s n).arg.toNat 8 0) = false from hdef]; rfl))

theorem exec_deleteEp (hon : on s = true) (hq : s.tbl.engineQ = n :: rest) (hop : (blockOf s n).goOp = 2) (htable : (blockOf s n).goTable = 0) :
    (∀ p, epFind s (askedKey (blockOf s n)) = some p → exec .deleteEntry s = .next (endCmd (setEpSlot s p 0) n (blockOf s n) 0)) ∧
    (epFind s (askedKey (blockOf s n)) = none → exec .deleteEntry s = .next (endCmd s n (blockOf s n) 1)) := by
  have hcmd := nextCmd_ep hq hop htable
  have hfind : epFind s (bits (blockOf s n).key.toNat 35 0) = epFind s (askedKey (blockOf s n)) := rfl
  have hexec : exec .deleteEntry s = execDeleteEntry s := rfl
  constructor
  · intro p h
    rw [hexec, execDeleteEntry, live_on hon, hcmd]
    refine (if_pos htable).trans ?_
    rw [hfind, h]
    rfl
  · intro h
    rw [hexec, execDeleteEntry, live_on hon, hcmd]
    refine (if_pos htable).trans ?_
    rw [hfind, h]
    rfl

end

end Sys2Proof.Proofs

/-! SEARCH, NEXT, FLUSH_PORT and AGE_SWEEP on the endpoint table, and learning (R92, R93, R101, R102). -/

namespace Sys2Proof.Proofs

open Sys2Proof.Machine Sys2Proof.Claim

/-! ### The entries that stand in the table -/

theorem mem_epAll {s : State} {b i : Nat} {e : BitVec 64} :
    (b, i, e) ∈ epAll s ↔ ∃ w, (b, w) ∈ s.tbl.ep ∧ i < 4 ∧ e = slotOf w i ∧ eValid e = true := by
  rw [epAll, List.mem_flatMap]
  constructor
  · rintro ⟨⟨k, w⟩, hmem, h⟩
    obtain ⟨h, hvalid⟩ := List.mem_filter.mp h
    obtain ⟨j, hj, heq⟩ := List.mem_map.mp h
    obtain ⟨rfl, rfl, rfl⟩ : k = b ∧ j = i ∧ slotOf w j = e := by simpa using heq
    exact ⟨w, hmem, List.mem_range.mp hj, rfl, hvalid⟩
  · rintro ⟨w, hmem, hi, rfl, hvalid⟩
    exact ⟨(b, w), hmem, List.mem_filter.mpr ⟨List.mem_map.mpr ⟨i, List.mem_range.mpr hi, rfl⟩, hvalid⟩⟩

theorem slotOf_zero (i : Nat) : slotOf 0 i = 0 := by
  refine BitVec.eq_of_getLsbD_eq fun k hk => ?_
  rw [getLsbD_slotOf]
  simp

/-- Where each bucket is listed once, a valid entry is listed under its slot. -/
theorem mem_epAll_slot {s : State} (hrise : keysRise s.tbl.ep = true) {b i : Nat} {e : BitVec 64} :
    (b, i, e) ∈ epAll s ↔ i < 4 ∧ e = epSlot s (b, i) ∧ eValid e = true := by
  rw [mem_epAll]
  constructor
  · rintro ⟨w, hmem, hi, rfl, hvalid⟩
    have hword : epWord s b = w := by rw [epWord, mget, (mem_iff_mfind hrise).mp hmem]; rfl
    exact ⟨hi, by rw [epSlot, hword], hvalid⟩
  · rintro ⟨hi, rfl, hvalid⟩
    cases hfind : mfind s.tbl.ep b with
    | none =>
      have hzero : epSlot s (b, i) = 0 := by
        rw [epSlot, epWord, mget, hfind]
        exact slotOf_zero i
      rw [hzero] at hvalid
      exact absurd hvalid (by decide)
    | some w =>
      refine ⟨w, (mem_iff_mfind hrise).mpr hfind, hi, ?_, hvalid⟩
      rw [epSlot, epWord, mget, hfind]
      rfl

/-- Slots that are freed one after the other hold nothing; the others stay. -/
theorem freeSlots (l : List (Nat × Nat × BitVec 64)) (s : State) (hl : ∀ x ∈ l, x.2.1 < 4) :
    let t := l.foldl (fun s e => setEpSlot s (e.1, e.2.1) 0) s
    SlotsOnly s t ∧ ∀ q : Nat × Nat, q.2 < 4 → epSlot t q = if ∃ x ∈ l, (x.1, x.2.1) = q then 0 else epSlot s q := by
  induction l generalizing s with
  | nil => exact ⟨.refl s, fun q _ => (if_neg (by rintro ⟨x, hx, -⟩; cases hx)).symm⟩
  | cons y l ih =>
    obtain ⟨hslots, hall⟩ := ih (setEpSlot s (y.1, y.2.1) 0) fun x hx => hl x (List.mem_cons_of_mem _ hx)
    refine ⟨(setEpSlot_slotsOnly _ _ _).trans hslots, fun q hq => (hall q hq).trans ?_⟩
    rw [epSlot_setEpSlot s (hl y (List.mem_cons_self ..)) hq]
    simp only [List.mem_cons, exists_eq_or_imp]
    by_cases hrest : ∃ x ∈ l, (x.1, x.2.1) = q
    · rw [if_pos hrest, if_pos (.inr hrest)]
    · rw [if_neg hrest]
      by_cases hy : q = (y.1, y.2.1)
      · rw [if_pos hy, if_pos (.inl hy.symm)]
      · rw [if_neg hy, if_neg (by rintro (h | h); exacts [hy h.symm, hrest h])]

/-- The slots that FLUSH_PORT frees. -/
theorem flushed_slots {s : State} (hrise : keysRise s.tbl.ep = true) (arg : BitVec 32) :
    let t := ((epAll s).filter (fun e => flushes arg e.2.2)).foldl (fun s e => setEpSlot s (e.1, e.2.1) 0) s
    SlotsOnly s t ∧ ∀ q : Nat × Nat, q.2 < 4 → epSlot t q = if flushes arg (epSlot s q) then 0 else epSlot s q := by
  have hmem (x : Nat × Nat × BitVec 64) : x ∈ (epAll s).filter (fun e => flushes arg e.2.2) ↔
      x.2.1 < 4 ∧ x.2.2 = epSlot s (x.1, x.2.1) ∧ flushes arg x.2.2 = true := by
    rw [List.mem_filter, mem_epAll_slot hrise]
    refine ⟨fun ⟨⟨hi, he, _⟩, hf⟩ => ⟨hi, he, hf⟩, fun ⟨hi, he, hf⟩ => ⟨⟨hi, he, ?_⟩, hf⟩⟩
    rw [flushes, Bool.and_eq_true, Bool.and_eq_true, Bool.and_eq_true] at hf
    exact hf.1.1.1
  obtain ⟨hslots, hall⟩ := freeSlots _ s fun x hx => ((hmem x).mp hx).1
  refine ⟨hslots, fun q hq => (hall q hq).trans ?_⟩
  by_cases hf : flushes arg (epSlot s q) = true
  · rw [if_pos hf, if_pos ⟨(q.1, q.2, epSlot s q), (hmem _).mpr ⟨hq, rfl, hf⟩, rfl⟩]
  · rw [if_neg hf, if_neg]
    rintro ⟨x, hx, rfl⟩
    obtain ⟨-, he, hfx⟩ := (hmem x).mp hx
    exact hf (he ▸ hfx)

/-! ### SEARCH, NEXT, FLUSH_PORT and AGE_SWEEP -/

section
variable {s : State} {n : Nat} {rest : List Nat}

theorem exec_searchEp (hon : on s = true) (hq : s.tbl.engineQ = n :: rest) (hop : (blockOf s n).goOp = 3) (htable : (blockOf s n).goTable = 0) :
    (∀ p, epFind s (askedKey (blockOf s n)) = some p →
      exec .search s = .next (endCmd s n { blockOf s n with outEntry := epSlot s p } 0)) ∧
    (epFind s (askedKey (blockOf s n)) = none → exec .search s = .next (endCmd s n (blockOf s n) 1)) := by
  have hcmd := nextCmd_ep hq hop htable
  have hfind : epFind s (bits (blockOf s n).key.toNat 35 0) = epFind s (askedKey (blockOf s n)) := rfl
  have hexec : exec .search s = execSearch s := rfl
  constructor
  · intro p h
    rw [hexec, execSearch, live_on hon, hcmd]
    refine (if_pos htable).trans ?_
    rw [hfind, h]
    rfl
  · intro h
    rw [hexec, execSearch, live_on hon, hcmd]
    refine (if_pos htable).trans ?_
    rw [hfind, h]
    rfl

theorem exec_nextEp (hon : on s = true) (hq : s.tbl.engineQ = n :: rest) (hop : (blockOf s n).goOp = 4) (htable : (blockOf s n).goTable = 0) :
    (∀ x, (epAll s).find? (fun x => decide ((blockOf s n).cursor ≤ 4 * x.1 + x.2.1)) = some x →
      exec .nextSlot s = .next (endCmd s n { blockOf s n with outEntry := x.2.2, cursor := 4 * x.1 + x.2.1 + 1 } 0)) ∧
    ((epAll s).find? (fun x => decide ((blockOf s n).cursor ≤ 4 * x.1 + x.2.1)) = none → exec .nextSlot s = .next (endCmd s n (blockOf s n) 9)) := by
  have hcmd := nextCmd_ep hq hop htable
  have hexec : exec .nextSlot s = execNextSlot s := rfl
  constructor
  · rintro ⟨k, i, e⟩ h
    rw [hexec, execNextSlot, live_on hon, hcmd]
    refine (if_pos htable).trans ?_
    rw [h]
    rfl
  · intro h
    rw [hexec, execNextSlot, live_on hon, hcmd]
    refine (if_pos htable).trans ?_
    rw [h]
    rfl

/-- FLUSH_PORT, where no access makes a CAS fail. -/
theorem exec_flushEp (hon : on s = true) (hq : s.tbl.engineQ = n :: rest) (hop : (blockOf s n).goOp = 5) (htable : (blockOf s n).goTable = 0) :
    ∃ freed, exec (.flushPort []) s = .next (endCmd (bumpBy (((epAll s).filter (fun e => flushes (blockOf s n).arg e.2.2)).foldl
      (fun s e => setEpSlot s (e.1, e.2.1) 0) s) 0x4800 0x0D 0) n { blockOf s n with outEntry := freed } 0) := by
  have hcmd := nextCmd_ep hq hop htable
  have hexec : exec (.flushPort []) s = execFlushPort [] s := rfl
  have hall (l : List (Nat × Nat × BitVec 64)) : l.filter (fun e => !decide (2 ≤ ([] : List Nat).count e.1)) = l :=
    List.filter_eq_self.mpr fun _ _ => rfl
  obtain ⟨l, hl⟩ : ∃ l, l = (epAll s).filter (fun e => flushes (blockOf s n).arg e.2.2) := ⟨_, rfl⟩
  refine ⟨BitVec.ofNat 64 l.length, ?_⟩
  rw [hexec, execFlushPort, live_on hon, hcmd]
  refine (if_neg (not_not_intro htable)).trans ?_
  rw [← hl]
  dsimp only
  rw [hall]
  rfl

theorem exec_ageEp (hon : on s = true) (hq : s.tbl.engineQ = n :: rest) (hop : (blockOf s n).goOp = 6) (htable : (blockOf s n).goTable = 0) :
    exec .ageSweep s = .next (endCmd { s with tbl := { s.tbl with sweep := some (s.tbl.sweep.getD 0) } } n (blockOf s n)
      (if s.tbl.sweep.isSome then 6 else 0)) := by
  have hcmd := nextCmd_ep hq hop htable
  have hexec : exec .ageSweep s = execAgeSweep s := rfl
  rw [hexec, execAgeSweep, live_on hon, hcmd]
  refine (if_neg (not_not_intro htable)).trans ?_
  cases hsweep : s.tbl.sweep with
  | none => rfl
  | some b =>
    have hsame : { s with tbl := { s.tbl with sweep := some b } } = s := by rw [← hsweep]
    dsimp only
    rw [Option.getD_some, hsame]
    rfl

end

/-! ### Learning (R92) -/

/-- An endpoint entry with another port. -/
def withLp (e : BitVec 64) (lp : Nat) : BitVec 64 := (e &&& ~~~0x0000000000FF8000#64) ||| BitVec.ofNat 64 (lp * 2 ^ 15)

theorem getLsbD_withLp (e : BitVec 64) {lp k : Nat} (hlp : lp < 512) (hk : k < 64) :
    (withLp e lp).getLsbD k = if 15 ≤ k ∧ k < 24 then lp.testBit (k - 15) else e.getLsbD k := by
  have hmask : ∀ k, k < 64 → (0x0000000000FF8000#64).getLsbD k = decide (15 ≤ k ∧ k < 24) := by decide
  rw [withLp, BitVec.getLsbD_or, BitVec.getLsbD_and, BitVec.getLsbD_not, hmask k hk, BitVec.getLsbD_ofNat, Nat.testBit_mul_two_pow]
  by_cases hin : 15 ≤ k ∧ k < 24
  · rw [if_pos hin]
    simp [hin, hk]
  · rw [if_neg hin]
    by_cases hlow : 15 ≤ k
    · have hhigh : lp.testBit (k - 15) = false := Nat.testBit_lt_two_pow ((show lp < 2 ^ 9 from hlp).trans_le (Nat.pow_le_pow_right (n := 2) (by decide) (show 9 ≤ k - 15 by omega)))
      simp [hin, hk, hhigh]
    · simp [hk, hlow]

/-- An entry that moves to another port keeps its key and its marks. -/
theorem withLp_parts (e : BitVec 64) {lp : Nat} (hlp : lp < 512) :
    eValid (withLp e lp) = eValid e ∧ eKey (withLp e lp) = eKey e ∧ eLp (withLp e lp) = lp ∧ eStatic (withLp e lp) = eStatic e ∧ eHit (withLp e lp) = eHit e := by
  have hkept {k : Nat} (hk : k < 64) (hout : 24 ≤ k) : (withLp e lp).getLsbD k = e.getLsbD k :=
    (getLsbD_withLp e hlp hk).trans (if_neg (by omega))
  refine ⟨hkept (by decide) (by decide), ?_, ?_, hkept (by decide) (by decide), hkept (by decide) (by decide)⟩
  · rw [eKey, eKey, bits_toNat, bits_toNat]
    refine congrArg BitVec.toNat (BitVec.eq_of_getLsbD_eq fun k hk => ?_)
    rw [BitVec.getLsbD_extractLsb', BitVec.getLsbD_extractLsb', hkept (by omega) (by omega)]
  · have hport : (withLp e lp).extractLsb' 15 9 = BitVec.ofNat 9 lp := by
      refine BitVec.eq_of_getLsbD_eq fun k hk => ?_
      rw [BitVec.getLsbD_extractLsb', getLsbD_withLp e hlp (by omega), if_pos (by omega), BitVec.getLsbD_ofNat, Nat.add_sub_cancel_left]
    rw [eLp, bits_toNat, hport, BitVec.toNat_ofNat]
    exact Nat.mod_eq_of_lt hlp

theorem epKey_lt (tid : BitVec 12) (ep : BitVec 24) : epKey tid ep < 2 ^ 36 := by
  rw [epKey]
  omega

section
variable {s : State} {q : LearnReq} {rest : List LearnReq}

/-- A station that stands in the table stays, or moves to the port by which it came. -/
theorem exec_learnKnown (hon : on s = true) (hl : s.col.learnQ = q :: rest) {p : Nat × Nat} (hfind : epFind s (epKey q.tid q.ep) = some p) :
    let u := { s with col := { s.col with learnQ := rest } }
    exec .learnRequest s = if eStatic (epSlot s p) || eLp (epSlot s p) = q.lp then .next u
      else .next (bump (setEpSlot u p (withLp (epSlot s p) q.lp)) 0x4800 8) := by
  have hexec : exec .learnRequest s = execLearnRequest s := rfl
  obtain ⟨u, hu⟩ : ∃ u : State, u = { s with col := { s.col with learnQ := rest } } := ⟨_, rfl⟩
  have hfind' : epFind u (epKey q.tid q.ep) = some p := by
    rw [hu]
    exact hfind
  have hslot : epSlot u p = epSlot s p := by rw [hu]; rfl
  rw [hexec, execLearnRequest, live_on hon, hl]
  dsimp only
  rw [← hu, hfind']
  dsimp only
  rw [hslot]
  rfl

/-- A station that is new is learned in a free slot of its buckets. -/
theorem exec_learnNew (hon : on s = true) (hl : s.col.learnQ = q :: rest) {p : Nat × Nat} (hlp : q.lp < 512) (hfind : epFind s (epKey q.tid q.ep) = none)
    (hfree : (candSlots (epHash s (epKey q.tid q.ep))).find? (fun q => !eValid (epSlot s q)) = some p) :
    exec .learnRequest s = .next (epMoved (setEpSlot { s with col := { s.col with learnQ := rest } } p (epEntry true false (epKey q.tid q.ep) q.lp)) 0) := by
  have hexec : exec .learnRequest s = execLearnRequest s := rfl
  obtain ⟨u, hu⟩ : ∃ u : State, u = { s with col := { s.col with learnQ := rest } } := ⟨_, rfl⟩
  have hfind' : epFind u (epKey q.tid q.ep) = none := by
    rw [hu]
    exact hfind
  have hkey : eKey (epEntry true false (epKey q.tid q.ep) q.lp) = epKey q.tid q.ep := (epEntry_parts (epKey_lt _ _) hlp).2.1
  have hins : epInsert u (epEntry true false (epKey q.tid q.ep) q.lp) = some (epMoved (setEpSlot u p (epEntry true false (epKey q.tid q.ep) q.lp)) 0) := by
    refine epInsert_free ?_
    rw [hkey, hu]
    exact hfree
  rw [hexec, execLearnRequest, live_on hon, hl]
  dsimp only
  rw [← hu, hfind']
  dsimp only
  rw [hins]

end

end Sys2Proof.Proofs

/-! The slots of the rule table in the HBM (R98 to R100). -/

namespace Sys2Proof.Proofs

open Sys2Proof.Machine Sys2Proof.Claim

/-! ### An entry and its bytes (R98, R99) -/

/-- An entry as a slot may hold it. -/
def Slottable (e : RuleEntry) : Prop := e.valid = true ∧ e.result.length = 32 ∨ e = emptyRule

/-- The bytes of a slot that holds an entry. -/
def slotBytes (e : RuleEntry) : List Byte := if e.valid then ruleBytes e else List.replicate 64 0

theorem length_slotBytes (e : RuleEntry) : (slotBytes e).length = 64 := by
  rw [slotBytes]
  split
  · simp only [ruleBytes, List.length_append, length_toLE, List.length_replicate, length_slice]
  · rfl

theorem ruleOfBytes_ruleBytes {e : RuleEntry} (hvalid : e.valid = true) (hlen : e.result.length = 32) : ruleOfBytes (ruleBytes e) = e := by
  obtain ⟨key, first, last, valid, result⟩ := e
  obtain rfl : valid = true := hvalid
  obtain ⟨pad, hpad⟩ : ∃ pad : List Byte, pad = List.replicate 19 0 := ⟨_, rfl⟩
  have hpadlen : pad.length = 19 := by rw [hpad]; rfl
  have hbytes : ruleBytes ⟨key, first, last, true, result⟩ = toLE 8 key.toNat ++ (toLE 2 first.toNat ++ (toLE 2 last.toNat ++
      (toLE 1 1 ++ (pad ++ result)))) := by
    rw [ruleBytes, slice_self hlen, ← hpad]
    simp only [List.append_assoc]
    rfl
  have hkey : slice (ruleBytes ⟨key, first, last, true, result⟩) 0 8 = toLE 8 key.toNat := by
    rw [hbytes]
    exact slice_first (length_toLE _ _)
  have hfirst : slice (ruleBytes ⟨key, first, last, true, result⟩) 8 2 = toLE 2 first.toNat := by
    rw [hbytes]
    exact slice_middle (length_toLE _ _) (length_toLE _ _)
  have hlast : slice (ruleBytes ⟨key, first, last, true, result⟩) 10 2 = toLE 2 last.toNat := by
    rw [hbytes, ← List.append_assoc]
    exact slice_middle (by rw [List.length_append, length_toLE, length_toLE]) (length_toLE _ _)
  have hflag : slice (ruleBytes ⟨key, first, last, true, result⟩) 12 1 = toLE 1 1 := by
    rw [hbytes, ← List.append_assoc, ← List.append_assoc]
    exact slice_middle (by simp only [List.length_append, length_toLE]) (length_toLE _ _)
  have hresult : slice (ruleBytes ⟨key, first, last, true, result⟩) 32 32 = result := by
    rw [hbytes, ← List.append_assoc, ← List.append_assoc, ← List.append_assoc, ← List.append_assoc]
    exact slice_last (by simp only [List.length_append, length_toLE, hpadlen]) hlen
  rw [ruleOfBytes, hkey, hfirst, hlast, hflag, hresult, ofLE_toLE, ofLE_toLE, ofLE_toLE, ofLE_toLE, Nat.mod_eq_of_lt (show key.toNat < 256 ^ 8 from key.isLt),
    Nat.mod_eq_of_lt (show first.toNat < 256 ^ 2 from first.isLt), Nat.mod_eq_of_lt (show last.toNat < 256 ^ 2 from last.isLt), BitVec.ofNat_toNat,
    BitVec.ofNat_toNat, BitVec.ofNat_toNat, BitVec.setWidth_eq, BitVec.setWidth_eq, BitVec.setWidth_eq]
  rfl

theorem ruleOfBytes_slotBytes {e : RuleEntry} (h : Slottable e) : ruleOfBytes (slotBytes e) = e := by
  rcases h with ⟨hvalid, hlen⟩ | rfl
  · rw [slotBytes, if_pos hvalid, ruleOfBytes_ruleBytes hvalid hlen]
  · decide

theorem ruleAt_result (s : State) (base : Nat) (p : Nat × Nat) : (ruleAt s base p).result.length = 32 := length_slice _ _ _

/-- A slot holds the first 32 bytes of a result. -/
theorem slotBytes_slice (key : BitVec 64) (first last : BitVec 16) (valid : Bool) (r : List Byte) :
    slotBytes ⟨key, first, last, valid, slice r 0 32⟩ = slotBytes ⟨key, first, last, valid, r⟩ := by
  simp only [slotBytes, ruleBytes, slice_self (length_slice r 0 32)]

/-! ### Slots in memory -/

/-- Both copies of the rule table are there, apart from each other, and give all their lines. -/
structure RulesGood (s : State) : Prop where
  media : s.hbm.media = []
  test : s.hbm.test = none
  rebuild : s.hbm.rebuild = none
  apart : s.hbm.ruleBaseA + 2 ^ 28 ≤ s.hbm.ruleBaseB

theorem mediaIn_none {s : State} (h : s.hbm.media = []) (a n : Nat) : mediaIn s a n = false := by
  rw [mediaIn, h]
  rfl

theorem pairOut_none {s : State} (h : RulesGood s) (p : Nat) : pairOut s p = false := by
  rw [pairOut, h.test, h.rebuild]
  rfl

theorem ruleCopies_first {s : State} (h : RulesGood s) : (ruleCopies s).1 = s.hbm.ruleBaseA := by
  rw [ruleCopies, copyFor, pairOut_none h, pairOut_none h]
  split <;> rfl

theorem ruleSlot_first {s : State} (h : RulesGood s) (p : Nat × Nat) : ruleSlot s p = ruleAt s s.hbm.ruleBaseA p := by
  have hcopy : goodCopy s (ruleCopies s) p.1 = s.hbm.ruleBaseA := by
    rw [goodCopy, bucketMedia, mediaIn_none h.media, ruleCopies_first h]
    rfl
  rw [ruleSlot, hcopy, slotMedia, mediaIn_none h.media]
  rfl

theorem rdN_bytes (m : List Host.Cell) (a n : Nat) : rdN m a n = (List.range n).map (fun i => rd8 m (a + i)) := by
  induction n generalizing a with
  | zero => rfl
  | succ n ih =>
    rw [rdN, ih, List.range_succ_eq_map, List.map_cons, List.map_map]
    refine congrArg (rd8 m a :: ·) (List.map_congr_left fun i _ => ?_)
    rw [Function.comp_apply, Nat.succ_eq_add_one, Nat.add_right_comm, Nat.add_assoc]

theorem hbmRead_bytes (s : State) (a n : Nat) : hbmRead s a n = (List.range n).map (fun i => hbmByte s (a + i)) := by
  refine List.ext_getElem (by rw [length_hbmRead, List.length_map, List.length_range]) fun i hi hi' => ?_
  have hin : i < n := by rwa [length_hbmRead] at hi
  rw [List.getElem_map, List.getElem_range, hbmByte_eq]
  cases hsave : s.hbm.save with
  | none => simp only [hbmRead, hsave, rdN_bytes, List.getElem_map, List.getElem_range]
  | some v => simp only [hbmRead, hsave, rdN_bytes, List.getElem_map, List.getElem_zipIdx, List.getElem_range, Nat.zero_add]

theorem ruleAt_congr {s t : State} {base : Nat} {p : Nat × Nat}
    (h : ∀ i, i < 64 → hbmByte t (base + 256 * p.1 + 64 * p.2 + i) = hbmByte s (base + 256 * p.1 + 64 * p.2 + i)) : ruleAt t base p = ruleAt s base p := by
  rw [ruleAt, ruleAt, hbmRead_bytes, hbmRead_bytes]
  exact congrArg ruleOfBytes (List.map_congr_left fun i hi => h i (List.mem_range.mp hi))

theorem hbmWrite_bases (s : State) (k : ReqClass) (a : Nat) (bs : List Byte) :
    (hbmWrite s k a bs).hbm.ruleBaseA = s.hbm.ruleBaseA ∧ (hbmWrite s k a bs).hbm.ruleBaseB = s.hbm.ruleBaseB ∧
      (s.hbm.media = [] → (hbmWrite s k a bs).hbm.media = []) := by
  obtain ⟨o, p, cs, h⟩ := countWrite_only s k a bs.length
  rw [hbmWrite, h]
  refine ⟨rfl, rfl, fun hm => ?_⟩
  rw [clearMedia]
  dsimp only
  rw [hm]
  rfl

theorem hbmWrite_rulesGood {s : State} (h : RulesGood s) (k : ReqClass) (a : Nat) (bs : List Byte) : RulesGood (hbmWrite s k a bs) := by
  obtain ⟨hA, hB, hmedia⟩ := hbmWrite_bases s k a bs
  obtain ⟨-, -, htest, hrebuild⟩ := hbmWrite_fixed s k a bs
  exact ⟨hmedia h.media, htest.trans h.test, hrebuild.trans h.rebuild, by rw [hA, hB]; exact h.apart⟩

/-- The place of a slot in a copy of the rule table. -/
def slotOff (p : Nat × Nat) : Nat := 256 * p.1 + 64 * p.2

/-- A slot of the rule table. -/
def RulePos (p : Nat × Nat) : Prop := p.1 < 2 ^ 20 ∧ p.2 < 4

theorem setRule_eq {s : State} (h : RulesGood s) (p : Nat × Nat) (e : RuleEntry) :
    setRule s p e = if absent s then hbmWrite s .table (s.hbm.ruleBaseA + slotOff p) (slotBytes e)
      else hbmWrite (hbmWrite s .table (s.hbm.ruleBaseA + slotOff p) (slotBytes e)) .table (s.hbm.ruleBaseB + slotOff p) (slotBytes e) := by
  have hsecond := pairOut_none (hbmWrite_rulesGood h .table (s.hbm.ruleBaseA + slotOff p) (slotBytes e)) 1
  obtain ⟨o, m, honly⟩ := hbmWrite_only s .table (s.hbm.ruleBaseA + slotOff p) (slotBytes e)
  have habsent : absent (hbmWrite s .table (s.hbm.ruleBaseA + slotOff p) (slotBytes e)) = absent s := by
    rw [honly]
    rfl
  have hwrite : setRule s p e = writeCopies s s.hbm.ruleBaseA s.hbm.ruleBaseB (slotOff p) (slotBytes e) := rfl
  rw [hwrite, writeCopies, pairOut_none h, Bool.false_and, if_neg Bool.false_ne_true]
  rw [hsecond, Bool.false_and, Bool.or_false, habsent]

theorem setRule_rulesGood {s : State} (h : RulesGood s) (p : Nat × Nat) (e : RuleEntry) : RulesGood (setRule s p e) := by
  rw [setRule_eq h]
  split
  · exact hbmWrite_rulesGood h _ _ _
  · exact hbmWrite_rulesGood (hbmWrite_rulesGood h _ _ _) _ _ _

theorem setRule_baseA (s : State) (p : Nat × Nat) (e : RuleEntry) : (setRule s p e).hbm.ruleBaseA = s.hbm.ruleBaseA := by
  have hwrite : setRule s p e = writeCopies s s.hbm.ruleBaseA s.hbm.ruleBaseB (slotOff p) (slotBytes e) := rfl
  rw [hwrite, writeCopies]
  generalize hw : (if (pairOut s 0 && s.hbm.test.isSome) = true then s else hbmWrite s .table (s.hbm.ruleBaseA + slotOff p) (slotBytes e)) = w
  have hfirst : w.hbm.ruleBaseA = s.hbm.ruleBaseA := by
    rw [← hw]
    split
    · rfl
    · exact (hbmWrite_bases s _ _ _).1
  split
  · exact hfirst
  · exact (hbmWrite_bases w _ _ _).1.trans hfirst

/-- A byte of the first copy after a slot is written. -/
theorem hbmByte_setRule {s : State} (h : RulesGood s) (p : Nat × Nat) (e : RuleEntry) {b : Nat} (hb : b < s.hbm.ruleBaseA + 2 ^ 28) :
    hbmByte (setRule s p e) b = stored (s.hbm.ruleBaseA + slotOff p) (slotBytes e) b (hbmByte s b) := by
  rw [setRule_eq h]
  split
  · exact hbmByte_hbmWrite _ _ _ _ _
  · have hapart := h.apart
    rw [hbmByte_hbmWrite, stored, if_neg (by omega), hbmByte_hbmWrite]

/-- A slot that is written holds what was written; the other slots stay. -/
theorem ruleSlot_setRule {s : State} (h : RulesGood s) {p q : Nat × Nat} (hp : RulePos p) (hq : RulePos q) {e : RuleEntry} (he : Slottable e) :
    ruleSlot (setRule s p e) q = if q = p then e else ruleSlot s q := by
  obtain ⟨hp1, hp2⟩ := hp
  obtain ⟨hq1, hq2⟩ := hq
  have hlen := length_slotBytes e
  have hin (i : Nat) (hi : i < 64) : s.hbm.ruleBaseA + slotOff q + i < s.hbm.ruleBaseA + 2 ^ 28 := by
    rw [slotOff]
    omega
  rw [ruleSlot_first (setRule_rulesGood h p e), ruleSlot_first h, setRule_baseA]
  split
  · next heq =>
    subst heq
    rw [ruleAt, hbmRead_bytes]
    refine Eq.trans (congrArg ruleOfBytes ?_) (ruleOfBytes_slotBytes he)
    refine List.ext_getElem (by rw [List.length_map, List.length_range, hlen]) fun i hi hi' => ?_
    have hi64 : i < 64 := by rwa [hlen] at hi'
    have hplace : s.hbm.ruleBaseA + 256 * q.1 + 64 * q.2 + i = s.hbm.ruleBaseA + slotOff q + i := by
      rw [slotOff]
      omega
    rw [List.getElem_map, List.getElem_range, hplace, hbmByte_setRule h _ e (hin i hi64), stored, if_pos (by omega), Nat.add_sub_cancel_left,
      List.getD_eq_getElem _ _ hi']
  · next hne =>
    refine ruleAt_congr fun i hi => ?_
    have hplace : s.hbm.ruleBaseA + 256 * q.1 + 64 * q.2 + i = s.hbm.ruleBaseA + slotOff q + i := by
      rw [slotOff]
      omega
    have hapart : slotOff q + 64 ≤ slotOff p ∨ slotOff p + 64 ≤ slotOff q := by
      have hdiff : ¬(q.1 = p.1 ∧ q.2 = p.2) := fun h => hne (Prod.ext h.1 h.2)
      rw [slotOff, slotOff]
      omega
    rw [hplace, hbmByte_setRule h _ e (hin i hi), stored, if_neg (by omega)]

theorem ruleSlot_writes : Writes ruleSlot setRule RulesGood RulePos Slottable :=
  ⟨fun _ _ _ h => setRule_rulesGood h _ _, fun _ _ _ _ h hp hq he => ruleSlot_setRule h hp hq he⟩

/-- What stands in a valid slot may be written to another. -/
theorem ruleSlot_slottable {s : State} (h : RulesGood s) {p : Nat × Nat} (hvalid : (ruleSlot s p).valid = true) : Slottable (ruleSlot s p) :=
  .inl ⟨hvalid, by rw [ruleSlot_first h]; exact ruleAt_result _ _ _⟩

end Sys2Proof.Proofs

/-! Entries of the rule table: their search, their insertion along a chain, and the end of an older one (R77, R93, R100). -/

namespace Sys2Proof.Proofs

open Sys2Proof.Machine Sys2Proof.Claim

/-! ### The entries of a key -/

theorem ruleHash_lt (s : State) (k : BitVec 64) : (ruleHash s k).1 < 2 ^ 20 ∧ (ruleHash s k).2 < 2 ^ 20 :=
  ⟨Nat.mod_lt _ (by decide), Nat.mod_lt _ (by decide)⟩

theorem candSlots_rulePos {s : State} {k : BitVec 64} {p : Nat × Nat} (h : p ∈ candSlots (ruleHash s k)) : RulePos p := by
  obtain ⟨hi, hb⟩ := mem_candSlots.mp h
  obtain ⟨h0, h1⟩ := ruleHash_lt s k
  exact ⟨by rcases hb with hb | hb <;> omega, hi⟩

theorem mem_ruleFind {s : State} {k : BitVec 64} {p : Nat × Nat} {x : RuleEntry} :
    (p, x) ∈ ruleFind s k ↔ p ∈ candSlots (ruleHash s k) ∧ x = ruleSlot s p ∧ x.valid = true ∧ x.key = k := by
  rw [ruleFind, List.mem_filter, List.mem_map]
  constructor
  · rintro ⟨⟨q, hq, heq⟩, hgood⟩
    obtain ⟨rfl, rfl⟩ := Prod.mk.inj heq
    rw [Bool.and_eq_true, beq_iff_eq] at hgood
    exact ⟨hq, rfl, hgood.1, hgood.2⟩
  · rintro ⟨hq, rfl, hvalid, hkey⟩
    exact ⟨⟨p, hq, rfl⟩, by rw [Bool.and_eq_true, beq_iff_eq]; exact ⟨hvalid, hkey⟩⟩

/-- The slots of the rule table are the HBM's, with the variant of the device. -/
theorem ruleSlot_congr {s t : State} (hhbm : t.hbm = s.hbm) (hsys : t.sys = s.sys) (p : Nat × Nat) : ruleSlot t p = ruleSlot s p := by
  simp only [ruleSlot, goodCopy, ruleCopies, copyFor, absent, pairOut, bucketMedia, slotMedia, mediaIn, ruleAt, hbmRead, hhbm, hsys]

/-- The one entry that meets a test is the first that does. -/
theorem find?_unique {α : Type} {l : List α} {P : α → Bool} {a : α} (hmem : a ∈ l) (ha : P a = true) (h : ∀ x ∈ l, P x = true → x = a) :
    l.find? P = some a := by
  cases hfind : l.find? P with
  | none => exact absurd ha (List.find?_eq_none.mp hfind a hmem)
  | some x => rw [h x (List.mem_of_find?_eq_some hfind) (List.find?_some hfind)]

/-! ### Reads that do not fail (R331) -/

theorem readBuckets_good {s : State} (h : s.hbm.media = []) (base : Nat × Option Nat) (key : BitVec 64) (bs : List Nat) : readBuckets s base key bs = s := by
  have hheal (b : Nat) : healBucket s base b = (s, none) := by
    rw [healBucket, bucketMedia, mediaIn_none h]
    rfl
  rw [readBuckets]
  refine List.foldlRecOn bs _ (motive := fun u => u = s) rfl fun u hu b _ => ?_
  rw [hu, hheal]

theorem readKey_good {s : State} (h : s.hbm.media = []) (k : BitVec 64) : readKey s k = s := readBuckets_good h _ _ _

theorem throttledIn_none {s : State} (h : ∀ e ∈ s.hbm.pch, e.2.deferred = []) (a n : Nat) : throttledIn s .table a n = false := by
  rw [throttledIn, List.any_eq_false]
  intro e he
  rw [h e he, List.any_nil]
  decide

/-! ### Placement (R93) -/

def ruleNext (s : State) (p : Nat × Nat) : List (Nat × Nat) :=
  (List.range 4).map (fun i => (otherBucket (ruleHash s (ruleSlot s p).key) p.1, i))

def ruleFree (s : State) (p : Nat × Nat) : Bool := !(ruleSlot s p).valid

theorem rulePlace_along (s : State) (e : RuleEntry) (ps : List (Nat × Nat)) : rulePlace s e ps = placeAlong ruleSlot setRule s e ps := by
  induction ps generalizing s e with
  | nil => rfl
  | cons p ps ih => exact ih _ _

/-- Only bytes of the HBM and counters of the HBM's pages have changed. -/
structure RulesOnly (s t : State) : Prop where
  rest : t = { s with obj := t.obj, hbm := t.hbm }
  objs : ∀ i a, a < 256 → i < 0x5000 → obj t i a = obj s i a

theorem RulesOnly.refl (s : State) : RulesOnly s s := ⟨rfl, fun _ _ _ _ => rfl⟩

theorem RulesOnly.trans {s t u : State} (h : RulesOnly s t) (h' : RulesOnly t u) : RulesOnly s u := by
  refine ⟨?_, fun i a ha hi => (h'.objs i a ha hi).trans (h.objs i a ha hi)⟩
  have hu := h'.rest
  rw [h.rest] at hu
  exact hu

theorem setRule_rulesOnly (s : State) (p : Nat × Nat) (e : RuleEntry) : RulesOnly s (setRule s p e) := by
  have hwrite : setRule s p e = writeCopies s s.hbm.ruleBaseA s.hbm.ruleBaseB (slotOff p) (slotBytes e) := rfl
  obtain ⟨o, m, honly⟩ := writeCopies_only s s.hbm.ruleBaseA s.hbm.ruleBaseB (slotOff p) (slotBytes e)
  rw [hwrite]
  exact ⟨by rw [honly], fun i a ha hi => writeCopies_low s _ _ _ _ ha hi⟩

theorem rulePlace_rulesOnly (s : State) (e : RuleEntry) (ps : List (Nat × Nat)) : RulesOnly s (rulePlace s e ps) := by
  induction ps generalizing s e with
  | nil => exact .refl s
  | cons p ps ih => exact (setRule_rulesOnly s p e).trans (ih _ _)

theorem rulePlace_slice (s : State) (key : BitVec 64) (first last : BitVec 16) (valid : Bool) (r : List Byte) (ps : List (Nat × Nat)) :
    rulePlace s ⟨key, first, last, valid, slice r 0 32⟩ ps = rulePlace s ⟨key, first, last, valid, r⟩ ps := by
  cases ps with
  | nil => rfl
  | cons p ps =>
    have hset : setRule s p ⟨key, first, last, valid, slice r 0 32⟩ = setRule s p ⟨key, first, last, valid, r⟩ := by
      have hbytes := slotBytes_slice key first last valid r
      change writeCopies s _ _ _ (slotBytes _) = writeCopies s _ _ _ (slotBytes _)
      rw [hbytes]
    rw [rulePlace, rulePlace, hset]

/-- The moves of a chain are counted in MoveGen. -/
def ruleMoved (s : State) (n : Nat) : State := putObj s 0x4801 0x07 ((obj s 0x4801 0x07 + n) % 2 ^ 32)

theorem ruleInsert_some {s : State} {e : RuleEntry} {ps : List (Nat × Nat)} (hmedia : s.hbm.media = [])
    (h : findChain (ruleFree s) (ruleNext s) (candSlots (ruleHash s e.key)) = some ps) :
    ruleInsert s e = some (ruleMoved (cacheDrop (rulePlace s e ps) e.key) (ps.length - 1)) := by
  unfold ruleInsert
  extract_lets free next
  have hfound : findChain free next (candSlots (ruleHash s e.key)) = some ps := h
  simp only [hfound, readBuckets_good hmedia]
  rfl

theorem ruleInsert_none {s : State} {e : RuleEntry} (h : findChain (ruleFree s) (ruleNext s) (candSlots (ruleHash s e.key)) = none) : ruleInsert s e = none := by
  unfold ruleInsert
  extract_lets free next
  have hfound : findChain free next (candSlots (ruleHash s e.key)) = none := h
  simp only [hfound]

/-- Of a result only its first 32 bytes are inserted. -/
theorem ruleInsert_slice {s : State} (hmedia : s.hbm.media = []) (key : BitVec 64) (first last : BitVec 16) (valid : Bool) (r : List Byte) :
    ruleInsert s ⟨key, first, last, valid, r⟩ = ruleInsert s ⟨key, first, last, valid, slice r 0 32⟩ := by
  cases hfind : findChain (ruleFree s) (ruleNext s) (candSlots (ruleHash s key)) with
  | none => rw [ruleInsert_none (e := ⟨key, first, last, valid, r⟩) hfind, ruleInsert_none (e := ⟨key, first, last, valid, slice r 0 32⟩) hfind]
  | some ps =>
    rw [ruleInsert_some (e := ⟨key, first, last, valid, r⟩) hmedia hfind, ruleInsert_some (e := ⟨key, first, last, valid, slice r 0 32⟩) hmedia hfind,
      rulePlace_slice]

/-- What an insertion of a rule entry along a chain leaves. -/
structure RulePlaced (e : RuleEntry) (ps : List (Nat × Nat)) (s t : State) : Prop where
  chain : Chain (ruleFree s) (ruleNext s) [] (candSlots (ruleHash s e.key)) ps
  shortest : ∀ qs, Chain (ruleFree s) (ruleNext s) [] (candSlots (ruleHash s e.key)) qs → ps.length ≤ qs.length
  short : ps.length ≤ 5
  placed : Placed ruleSlot RulePos e ps s t
  good : RulesGood t
  rest : t = { s with obj := t.obj, hbm := t.hbm, col := t.col }
  cache : ∀ l ∈ t.col.cache, l.key ≠ e.key
  moves : obj t 0x4801 7 = (obj s 0x4801 7 + (ps.length - 1)) % 2 ^ 32

theorem cacheDrop_cache (s : State) (k : BitVec 64) : ∀ l ∈ (cacheDrop s k).col.cache, l.key ≠ k := fun l hl => by
  simpa using (List.mem_filter.mp hl).2

theorem ruleInsert_along {s : State} {e : RuleEntry} {ps : List (Nat × Nat)} (hgood : RulesGood s) (he : Slottable e)
    (hfind : findChain (ruleFree s) (ruleNext s) (candSlots (ruleHash s e.key)) = some ps) : ∃ t, ruleInsert s e = some t ∧ RulePlaced e ps s t := by
  obtain ⟨hshort, hchain, hmin⟩ := findChain_shortest hfind
  have hok := hchain.all (ok := RulePos) (fun p hp => candSlots_rulePos hp) (fun p q hq => by
    obtain ⟨hi, hb⟩ := mem_bucket hq
    obtain ⟨h0, h1⟩ := ruleHash_lt s (ruleSlot s p).key
    refine ⟨?_, hi⟩
    rw [hb, otherBucket]
    split <;> assumption)
  obtain ⟨hplaced, hgood'⟩ := ruleSlot_writes.placed hgood hok hchain.distinct he fun i p q hp hq =>
    ruleSlot_slottable hgood (by simpa [ruleFree] using (hchain.leads.step hp hq).1)
  rw [← rulePlace_along] at hplaced hgood'
  obtain ⟨v, hv⟩ : ∃ v, v = rulePlace s e ps := ⟨_, rfl⟩
  have honly := rulePlace_rulesOnly s e ps
  rw [← hv] at hplaced hgood' honly
  obtain ⟨t, ht⟩ : ∃ t, t = ruleMoved (cacheDrop v e.key) (ps.length - 1) := ⟨_, rfl⟩
  have hhbm : t.hbm = v.hbm := by rw [ht]; rfl
  have hsys : t.sys = v.sys := by rw [ht]; rfl
  have hslot (q : Nat × Nat) : ruleSlot t q = ruleSlot v q := ruleSlot_congr hhbm hsys q
  have hcol : t.col = (cacheDrop v e.key).col := by rw [ht]; rfl
  refine ⟨t, (ruleInsert_some hgood.media hfind).trans (by rw [ht, hv]), hchain, hmin, hshort, ⟨?_, ?_, ?_⟩, ?_, ?_, ?_, ?_⟩
  · exact fun p hp => (hslot p).trans (hplaced.head p hp)
  · exact fun i p q hp hq => (hslot q).trans (hplaced.moved i p q hp hq)
  · exact fun q hq hnot => (hslot q).trans (hplaced.others q hq hnot)
  · exact ⟨by rw [hhbm]; exact hgood'.media, by rw [hhbm]; exact hgood'.test, by rw [hhbm]; exact hgood'.rebuild, by rw [hhbm]; exact hgood'.apart⟩
  · rw [ht, honly.rest]
    rfl
  · rw [hcol]
    exact cacheDrop_cache v e.key
  · rw [ht, ruleMoved, obj_putObj_same]
    exact congrArg (fun x => (x + (ps.length - 1)) % 2 ^ 32) (honly.objs 0x4801 7 (by decide) (by decide))

end Sys2Proof.Proofs

/-! The commands of the rule table (R77, R101, R102). -/

namespace Sys2Proof.Proofs

open Sys2Proof.Machine Sys2Proof.Claim

/-! ### The older entry of a key ends (R77) -/

/-- An entry that an insertion for a version would end. -/
def ends (v : BitVec 16) (x : (Nat × Nat) × RuleEntry) : Bool := x.2.first != v && validFor x.2 v

theorem ruleHash_congr {s t : State} (h : t.tbl = s.tbl) (k : BitVec 64) : ruleHash t k = ruleHash s k := by rw [ruleHash, ruleHash, h]

/-- An entry that a shortest chain has moved does not come to a bucket of the key inserted. -/
theorem RulePlaced.entry {e : RuleEntry} {ps : List (Nat × Nat)} {s t : State} (h : RulePlaced e ps s t) {p : Nat × Nat}
    (hp : p ∈ candSlots (ruleHash s e.key)) : ruleSlot t p = e ∧ ps.head? = some p ∨ p ∉ ps ∧ ruleSlot t p = ruleSlot s p := by
  by_cases hmem : p ∈ ps
  · have hhead := h.chain.head_of_mem h.shortest hmem hp
    exact .inl ⟨h.placed.head p hhead, hhead⟩
  · exact .inr ⟨hmem, h.placed.others p (candSlots_rulePos hp) hmem⟩

theorem RulePlaced.tbl {e : RuleEntry} {ps : List (Nat × Nat)} {s t : State} (h : RulePlaced e ps s t) : t.tbl = s.tbl := by rw [h.rest]
theorem RulePlaced.sys {e : RuleEntry} {ps : List (Nat × Nat)} {s t : State} (h : RulePlaced e ps s t) : t.sys = s.sys := by rw [h.rest]

/-- Where no entry of the key is valid for the version, none ends. -/
theorem closeOlder_none {e : RuleEntry} {ps : List (Nat × Nat)} {s t : State} (h : RulePlaced e ps s t)
    (hnone : ∀ x ∈ ruleFind s e.key, validFor x.2 e.first = false) : closeOlder t e.key e.first = t := by
  have hfind : (ruleFind t e.key).find? (ends e.first) = none := by
    rw [List.find?_eq_none]
    rintro ⟨p, x⟩ hx
    obtain ⟨hp, rfl, hvalid, hkey⟩ := mem_ruleFind.mp hx
    rw [ruleHash_congr h.tbl] at hp
    rcases h.entry hp with ⟨heq, -⟩ | ⟨-, heq⟩
    · simp [ends, heq]
    · rw [heq] at hvalid hkey
      have hx := hnone (p, ruleSlot s p) (mem_ruleFind.mpr ⟨hp, rfl, hvalid, hkey⟩)
      simp [ends, heq, hx]
  rw [closeOlder]
  change (match (ruleFind t e.key).find? (ends e.first) with
    | some (p, x) => cacheDrop (setRule t p { x with last := e.first }) e.key
    | none => t) = t
  rw [hfind]

/-- The one entry of the key that is valid for the version ends. -/
theorem closeOlder_one {s : State} {k : BitVec 64} {v : BitVec 16} {p : Nat × Nat} {x : RuleEntry}
    (h : (ruleFind s k).find? (ends v) = some (p, x)) : closeOlder s k v = cacheDrop (setRule s p { x with last := v }) k := by
  rw [closeOlder]
  change (match (ruleFind s k).find? (ends v) with
    | some (p, x) => cacheDrop (setRule s p { x with last := v }) k
    | none => s) = _
  rw [h]

/-- A slot of the rule table after it is written and the key's cache lines go. -/
theorem ruleSlot_rewritten {s : State} (h : RulesGood s) {p q : Nat × Nat} (hp : RulePos p) (hq : RulePos q) {e : RuleEntry} (he : Slottable e) (k : BitVec 64) :
    ruleSlot (cacheDrop (setRule s p e) k) q = if q = p then e else ruleSlot s q :=
  (ruleSlot_congr (s := setRule s p e) rfl rfl q).trans (ruleSlot_setRule h hp hq he)

/-! ### The engine's turn -/

section
variable {s : State} {n : Nat} {rest : List Nat}

theorem nextCmd_rule {op : Nat} (hq : s.tbl.engineQ = n :: rest) (hop : (blockOf s n).goOp = op) (hd : ∀ e ∈ s.hbm.pch, e.2.deferred = []) :
    nextCmd s op = some (n, blockOf s n) := by
  have hwaits : keyWaits s (blockOf s n).key = false := by
    rw [keyWaits]
    dsimp only
    rw [bucketWaits, bucketWaits, throttledIn_none hd, throttledIn_none hd]
    rfl
  rw [nextCmd, hq]
  dsimp only
  rw [hop, hwaits, Bool.and_false]
  exact if_pos (by rw [decide_eq_true rfl]; rfl)

/-- What every rule command that ends leaves, from the state `s` in which its turn came. -/
structure RanRule (s : State) (n : Nat) (rest : List Nat) (st : Nat) (t : State) : Prop where
  status : (blockOf t n).status = st
  queue : t.tbl.engineQ = rest
  ep : t.tbl.ep = s.tbl.ep

theorem Finished.ranRule {u t : State} {st : Nat} {b : TblBlock} (h : Finished n b st u t) (hq : s.tbl.engineQ = n :: rest) (htbl : u.tbl = s.tbl) :
    RanRule s n rest st t where
  status := by rw [h.block]
  queue := by
    rw [h.tbl]
    change u.tbl.engineQ.tail = rest
    rw [htbl, hq]
    rfl
  ep := h.ep.trans (by rw [htbl])

/-- The target version is not the staging one. -/
theorem stagingGone_some {b : TblBlock} (h : b.target = 0 ∨ b.target ≠ s.col.ver.staging) :
    stagingGone s b = some (if b.target ≠ 0 ∧ verLe b.target s.col.ver.current = true then 5 else 4) := by
  rw [stagingGone]
  by_cases h0 : b.target = 0
  · rw [if_pos h0, if_neg (fun hn => hn.1 h0)]
    rfl
  · have hne := h.resolve_left h0
    rw [if_neg h0, if_neg hne]
    by_cases hle : verLe b.target s.col.ver.current = true
    · rw [if_pos hle, if_pos ⟨h0, hle⟩]
      rfl
    · rw [if_neg hle, if_neg (fun hn => hle hn.2)]
      rfl

theorem stagingGone_none {b : TblBlock} (h0 : b.target ≠ 0) (h : b.target = s.col.ver.staging) : stagingGone s b = none := by
  rw [stagingGone, if_neg h0]
  exact if_pos h

/-! ### INSERT -/

/-- The entry that a block asks for. -/
def askedRule (b : TblBlock) : RuleEntry := { key := b.key, first := b.target, valid := true, result := slice b.result 0 32 }

theorem askedRule_slottable (b : TblBlock) : Slottable (askedRule b) := .inl ⟨rfl, length_slice _ _ _⟩

/-- What INSERT does with a key whose target version is staging. -/
def inserts (s : State) (n : Nat) (b : TblBlock) : Res :=
  if (ruleFind s b.key).any (fun e => e.2.first == b.target) then .next (endCmd s n b 3)
  else if 3 ≤ (ruleFind s b.key).length then .next (endCmd s n b 8)
  else match ruleInsert s (askedRule b) with
    | some u => .next (endCmd (closeOlder u b.key b.target) n b 0)
    | none => .next (endCmd (bump s 0x4801 5) n b 2)

theorem exec_insertRule (hon : on s = true) (hq : s.tbl.engineQ = n :: rest) (hop : (blockOf s n).goOp = 1) (htable : (blockOf s n).goTable = 1)
    (hd : ∀ e ∈ s.hbm.pch, e.2.deferred = []) :
    (∀ st, stagingGone s (blockOf s n) = some st → exec .insert s = .next (endCmd s n (blockOf s n) st)) ∧
    (s.hbm.media = [] → stagingGone s (blockOf s n) = none → exec .insert s = inserts s n (blockOf s n)) := by
  have hcmd := nextCmd_rule hq hop hd
  have hexec : exec .insert s = execInsert s := rfl
  generalize blockOf s n = b at hcmd htable ⊢
  have hnot : ¬b.goTable = 0 := by omega
  constructor
  · intro st h
    rw [hexec, execInsert, live_on hon, hcmd]
    refine (if_neg hnot).trans ?_
    rw [h]
  · intro hmedia h
    rw [hexec, execInsert, live_on hon, hcmd]
    refine (if_neg hnot).trans ?_
    rw [h]
    dsimp only
    rw [readKey_good hmedia, inserts, ruleInsert_slice hmedia]
    rfl

theorem exec_deleteRule (hon : on s = true) (hq : s.tbl.engineQ = n :: rest) (hop : (blockOf s n).goOp = 2) (htable : (blockOf s n).goTable = 1)
    (hd : ∀ e ∈ s.hbm.pch, e.2.deferred = []) :
    (∀ st, stagingGone s (blockOf s n) = some st → exec .deleteEntry s = .next (endCmd s n (blockOf s n) st)) ∧
    (s.hbm.media = [] → stagingGone s (blockOf s n) = none →
      ((ruleFind s (blockOf s n).key).find? (fun e => validFor e.2 (blockOf s n).target) = none → exec .deleteEntry s = .next (endCmd s n (blockOf s n) 1)) ∧
      ∀ p x, (ruleFind s (blockOf s n).key).find? (fun e => validFor e.2 (blockOf s n).target) = some (p, x) →
        exec .deleteEntry s = .next (endCmd (cacheDrop (setRule s p (if x.first = (blockOf s n).target then emptyRule else
          { x with last := (blockOf s n).target })) (blockOf s n).key) n (blockOf s n) 0)) := by
  have hcmd := nextCmd_rule hq hop hd
  have hexec : exec .deleteEntry s = execDeleteEntry s := rfl
  generalize blockOf s n = b at hcmd htable ⊢
  have hnot : ¬b.goTable = 0 := by omega
  refine ⟨fun st h => ?_, fun hmedia h => ⟨fun hfind => ?_, fun p x hfind => ?_⟩⟩
  · rw [hexec, execDeleteEntry, live_on hon, hcmd]
    refine (if_neg hnot).trans ?_
    rw [h]
  · rw [hexec, execDeleteEntry, live_on hon, hcmd]
    refine (if_neg hnot).trans ?_
    rw [h]
    dsimp only
    rw [readKey_good hmedia, hfind]
    rfl
  · rw [hexec, execDeleteEntry, live_on hon, hcmd]
    refine (if_neg hnot).trans ?_
    rw [h]
    dsimp only
    rw [readKey_good hmedia, hfind]
    rfl

theorem exec_searchRule (hon : on s = true) (hq : s.tbl.engineQ = n :: rest) (hop : (blockOf s n).goOp = 3) (htable : (blockOf s n).goTable = 1)
    (hd : ∀ e ∈ s.hbm.pch, e.2.deferred = []) (hmedia : s.hbm.media = []) :
    (∀ x, (ruleFind s (blockOf s n).key).find? (fun e => validFor e.2 (blockOf s n).version) = some x →
      exec .search s = .next (endCmd s n (ruleOut (blockOf s n) x.2) 0)) ∧
    ((ruleFind s (blockOf s n).key).find? (fun e => validFor e.2 (blockOf s n).version) = none → exec .search s = .next (endCmd s n (blockOf s n) 1)) := by
  have hcmd := nextCmd_rule hq hop hd
  have hexec : exec .search s = execSearch s := rfl
  generalize blockOf s n = b at hcmd htable ⊢
  have hnot : ¬b.goTable = 0 := by omega
  constructor
  · intro x h
    rw [hexec, execSearch, live_on hon, hcmd]
    refine (if_neg hnot).trans ?_
    rw [readKey_good hmedia]
    dsimp only
    rw [h]
    rfl
  · intro h
    rw [hexec, execSearch, live_on hon, hcmd]
    refine (if_neg hnot).trans ?_
    rw [readKey_good hmedia]
    dsimp only
    rw [h]
    rfl

theorem exec_nextRule (hon : on s = true) (hq : s.tbl.engineQ = n :: rest) (hop : (blockOf s n).goOp = 4) (htable : (blockOf s n).goTable = 1)
    (hd : ∀ e ∈ s.hbm.pch, e.2.deferred = []) (hmedia : s.hbm.media = []) :
    (∀ x, (ruleAll s).find? (fun e => decide ((blockOf s n).cursor ≤ 4 * e.1.1 + e.1.2)) = some x →
      exec .nextSlot s = .next (endCmd s n { ruleOut (blockOf s n) x.2 with cursor := 4 * x.1.1 + x.1.2 + 1 } 0)) ∧
    ((ruleAll s).find? (fun e => decide ((blockOf s n).cursor ≤ 4 * e.1.1 + e.1.2)) = none →
      exec .nextSlot s = .next (endCmd s n (blockOf s n) 9)) := by
  have hcmd := nextCmd_rule hq hop hd
  have hexec : exec .nextSlot s = execNextSlot s := rfl
  generalize blockOf s n = b at hcmd htable ⊢
  have hnot : ¬b.goTable = 0 := by omega
  constructor
  · rintro ⟨⟨k, i⟩, e⟩ h
    rw [hexec, execNextSlot, live_on hon, hcmd]
    refine (if_neg hnot).trans ?_
    rw [h]
    dsimp only
    refine (if_neg (by rw [throttledIn_none hd]; decide)).trans ?_
    rw [readBuckets_good hmedia]
    rfl
  · intro h
    rw [hexec, execNextSlot, live_on hon, hcmd]
    refine (if_neg hnot).trans ?_
    rw [h]
    dsimp only
    refine (if_neg (by rw [throttledIn_none hd]; decide)).trans ?_
    rw [readBuckets_good hmedia]
    rfl

theorem exec_flushRule (hon : on s = true) (hq : s.tbl.engineQ = n :: rest) (hop : (blockOf s n).goOp = 5) (htable : (blockOf s n).goTable = 1)
    (hd : ∀ e ∈ s.hbm.pch, e.2.deferred = []) : exec (.flushPort []) s = .next (endCmd s n (blockOf s n) 7) := by
  have hcmd := nextCmd_rule hq hop hd
  have hexec : exec (.flushPort []) s = execFlushPort [] s := rfl
  rw [hexec, execFlushPort, live_on hon, hcmd]
  exact if_pos (by rw [htable]; decide)

theorem exec_ageRule (hon : on s = true) (hq : s.tbl.engineQ = n :: rest) (hop : (blockOf s n).goOp = 6) (htable : (blockOf s n).goTable = 1)
    (hd : ∀ e ∈ s.hbm.pch, e.2.deferred = []) : exec .ageSweep s = .next (endCmd s n (blockOf s n) 7) := by
  have hcmd := nextCmd_rule hq hop hd
  have hexec : exec .ageSweep s = execAgeSweep s := rfl
  rw [hexec, execAgeSweep, live_on hon, hcmd]
  exact if_pos (by rw [htable]; decide)

end

end Sys2Proof.Proofs

/-! INSERT, DELETE, SEARCH, NEXT, FLUSH_PORT, AGE_SWEEP and LEARN_REQUEST (R77, R91 to R93, R101, R102, R106). -/

namespace Sys2Proof.Proofs

open Sys2Proof.Machine Sys2Proof.Claim

/-! ### Insertions, as the table shows them -/

theorem epSlot_congr {s t : State} (h : t.tbl.ep = s.tbl.ep) (q : Nat × Nat) : epSlot t q = epSlot s q := by rw [epSlot, epSlot, epWord, epWord, h]

/-- An insertion of an endpoint entry along a chain: where its entries come to stand. -/
theorem EpPlaced.chained {e : BitVec 64} {ps : List (Nat × Nat)} {s u t : State} {k : Nat} (h : EpPlaced e ps s u) (hk : eKey e = k)
    (hep : t.tbl.ep = u.tbl.ep) (hobj : obj t 0x4800 0x0B = obj u 0x4800 0x0B) : ps.length ≤ 5 ∧
      (∃ p, ps.head? = some p ∧ p ∈ candSlots (epHash s k) ∧ epSlot t p = e) ∧
      (∃ p, ps.getLast? = some p ∧ eValid (epSlot s p) = false) ∧
      (∀ i p q, ps[i]? = some p → ps[i + 1]? = some q → eValid (epSlot s p) = true ∧ q.2 < 4 ∧
        q.1 = otherBucket (epHash s (eKey (epSlot s p))) p.1 ∧ epSlot t q = epSlot s p) ∧
      (∀ q : Nat × Nat, q.2 < 4 → q ∉ ps → epSlot t q = epSlot s q) ∧
      obj t 0x4800 0x0B = (obj s 0x4800 0x0B + (ps.length - 1)) % 2 ^ 32 := by
  have hslot := epSlot_congr hep
  obtain ⟨p, hp, hhead⟩ := h.chain.start
  obtain ⟨z, hz, hfree⟩ := h.chain.leads.last
  refine ⟨h.short, ⟨p, hhead, hk ▸ hp, (hslot p).trans (h.placed.head p hhead)⟩, ⟨z, hz, by simpa [epFree] using hfree⟩, fun i x q hx hq => ?_,
    fun q hq hnot => (hslot q).trans (h.placed.others q hq hnot), ?_⟩
  · obtain ⟨htaken, hnext⟩ := h.chain.leads.step hx hq
    obtain ⟨hi, hb⟩ := mem_bucket hnext
    exact ⟨by simpa [epFree] using htaken, hi, hb, (hslot q).trans (h.placed.moved i x q hx hq)⟩
  · obtain ⟨v, hv, hu⟩ := h.rest
    have hsame : obj v 0x4800 0x0B = obj s 0x4800 0x0B := by
      rw [hv.rest]
      rfl
    rw [hobj, hu, epMoved, obj_putObj_same, hsame]

/-- An insertion of a rule entry along a chain: where its entries come to stand. -/
theorem RulePlaced.chained {e : RuleEntry} {ps : List (Nat × Nat)} {s u t : State} {k : BitVec 64} (h : RulePlaced e ps s u) (hk : e.key = k)
    (hhbm : t.hbm = u.hbm) (hsys : t.sys = u.sys) (hcol : t.col = u.col) (hobj : obj t 0x4801 7 = obj u 0x4801 7) : ps.length ≤ 5 ∧
      (∃ p, ps.head? = some p ∧ p ∈ candSlots (ruleHash s k) ∧ ruleSlot t p = e) ∧
      (∃ p, ps.getLast? = some p ∧ (ruleSlot s p).valid = false) ∧
      (∀ i p q, ps[i]? = some p → ps[i + 1]? = some q → (ruleSlot s p).valid = true ∧ q.2 < 4 ∧
        q.1 = otherBucket (ruleHash s (ruleSlot s p).key) p.1 ∧ ruleSlot t q = ruleSlot s p) ∧
      (∀ q : Nat × Nat, q.1 < 2 ^ 20 → q.2 < 4 → q ∉ ps → ruleSlot t q = ruleSlot s q) ∧
      (∀ l ∈ t.col.cache, l.key ≠ k) ∧ obj t 0x4801 7 = (obj s 0x4801 7 + (ps.length - 1)) % 2 ^ 32 := by
  have hslot (q : Nat × Nat) : ruleSlot t q = ruleSlot u q := ruleSlot_congr hhbm hsys q
  obtain ⟨p, hp, hhead⟩ := h.chain.start
  obtain ⟨z, hz, hfree⟩ := h.chain.leads.last
  refine ⟨h.short, ⟨p, hhead, hk ▸ hp, (hslot p).trans (h.placed.head p hhead)⟩, ⟨z, hz, by simpa [ruleFree] using hfree⟩, fun i x q hx hq => ?_,
    fun q hq1 hq2 hnot => (hslot q).trans (h.placed.others q ⟨hq1, hq2⟩ hnot), ?_, hobj.trans h.moves⟩
  · obtain ⟨htaken, hnext⟩ := h.chain.leads.step hx hq
    obtain ⟨hi, hb⟩ := mem_bucket hnext
    exact ⟨by simpa [ruleFree] using htaken, hi, hb, (hslot q).trans (h.placed.moved i x q hx hq)⟩
  · rw [hcol, ← hk]
    exact h.cache

/-! ### INSERT on the rule table -/

section
variable {s : State} {n : Nat} {b : TblBlock}

theorem inserts_exists (h : ∃ x ∈ ruleFind s b.key, x.2.first = b.target) : inserts s n b = .next (endCmd s n b 3) := by
  obtain ⟨x, hx, hfirst⟩ := h
  exact if_pos (List.any_eq_true.mpr ⟨x, hx, by rw [hfirst, beq_self_eq_true]⟩)

theorem not_any_first (h : ∀ x ∈ ruleFind s b.key, x.2.first ≠ b.target) : ¬(ruleFind s b.key).any (fun e => e.2.first == b.target) = true := by
  rw [List.any_eq_true]
  rintro ⟨x, hx, heq⟩
  exact h x hx (beq_iff_eq.mp heq)

theorem inserts_limit (h : ∀ x ∈ ruleFind s b.key, x.2.first ≠ b.target) (hlen : 3 ≤ (ruleFind s b.key).length) :
    inserts s n b = .next (endCmd s n b 8) := (if_neg (not_any_first h)).trans (if_pos hlen)

theorem inserts_new (h : ∀ x ∈ ruleFind s b.key, x.2.first ≠ b.target) (hlen : (ruleFind s b.key).length < 3) :
    (∀ u, ruleInsert s (askedRule b) = some u → inserts s n b = .next (endCmd (closeOlder u b.key b.target) n b 0)) ∧
    (ruleInsert s (askedRule b) = none → inserts s n b = .next (endCmd (bump s 0x4801 5) n b 2)) := by
  constructor
  · intro u hu
    refine (if_neg (not_any_first h)).trans ((if_neg (Nat.not_le.mpr hlen)).trans ?_)
    rw [hu]
  · intro hnone
    refine (if_neg (not_any_first h)).trans ((if_neg (Nat.not_le.mpr hlen)).trans ?_)
    rw [hnone]

end

/-! ### The endpoint table -/

/-- The outcome of a command on the endpoint table. -/
theorem shownEp {i : Instr} {s t : State} {n st : Nat} {rest : List Nat} {f : State → Prop} (hexec : exec i s = .next t) (h : Ran s n rest st t) (hf : f t) :
    ∃ t, exec i s = .next t ∧ (blockOf t n).status = st ∧ t.tbl.engineQ = rest ∧ ((blockOf s n).by_ = none → t.ropes = s.ropes) ∧ t.hbm = s.hbm ∧
      (∀ r, (blockOf s n).by_ = some r → (∀ d m u, (rope s r).st ≠ .waiting (.event d m u)) →
        rope t r = { rope s r with pending := (rope s r).pending ||| 1#64 <<< 58 }) ∧ f t :=
  ⟨t, hexec, h.status, h.queue, h.calm, h.hbm, h.told, hf⟩

section
variable {s : State} {n : Nat} {rest : List Nat} (hq : s.tbl.engineQ = n :: rest)
include hq

/-- A command that writes one slot. -/
theorem slotWritten {p : Nat × Nat} (hp : p.2 < 4) (v : BitVec 64) (st : Nat) : let t := endCmd (setEpSlot s p v) n (blockOf s n) st
    Ran s n rest st t ∧ ∀ q : Nat × Nat, q.2 < 4 → epSlot t q = if q = p then v else epSlot s q := by
  have hfin := endCmd_finished (setEpSlot s p v) n (blockOf s n) st
  exact ⟨(setEpSlot_slotsOnly s p v).finished_ran hfin hq rfl, fun q hq => (epSlot_congr hfin.ep q).trans (epSlot_setEpSlot s hp hq v)⟩

/-- A command that writes many slots and counts what it could not write. -/
theorem slotsWritten {v : State} (hv : SlotsOnly s v) {b : TblBlock} (hby : b.by_ = (blockOf s n).by_) (failed st : Nat) :
    let t := endCmd (bumpBy v 0x4800 0x0D failed) n b st
    Ran s n rest st t ∧ t.tbl.ep = v.tbl.ep := by
  have hfin := endCmd_finished (bumpBy v 0x4800 0x0D failed) n b st
  refine ⟨hfin.ran hq ?_ ?_ ?_ hby, hfin.ep⟩
  · change v.tbl.engineQ = _
    rw [hv.tbl]
  · change v.ropes = _
    rw [hv.rest]
  · change v.hbm = _
    rw [hv.rest]

/-- A command that leaves the table. -/
theorem tableLeft (b : TblBlock) (hby : b.by_ = (blockOf s n).by_) (st : Nat) : let t := endCmd s n b st
    Ran s n rest st t ∧ t.tbl.ep = s.tbl.ep ∧ (blockOf t n).outEntry = b.outEntry ∧ (blockOf t n).cursor = b.cursor := by
  have hfin := endCmd_finished s n b st
  exact ⟨(SlotsOnly.refl s).finished_ran hfin hq hby, hfin.ep, by rw [hfin.block], by rw [hfin.block]⟩

/-- An insertion along a chain that ends. -/
theorem chainEnded {e : BitVec 64} {u : State} (hins : epInsert s e = some u) (st : Nat) :
    let t := endCmd u n (blockOf s n) st
    Ran s n rest st t ∧ ∃ ps, EpPlaced e ps s u ∧ t.tbl.ep = u.tbl.ep ∧ obj t 0x4800 0x0B = obj u 0x4800 0x0B := by
  have hfin := endCmd_finished u n (blockOf s n) st
  obtain ⟨ps, hplaced⟩ := epInsert_placed hins
  obtain ⟨v, hv, hu⟩ := hplaced.rest
  have htbl : u.tbl = v.tbl := by rw [hu]; rfl
  have hrest : u = { s with obj := u.obj, tbl := u.tbl } := by
    rw [hu, epMoved, hv.rest]
    rfl
  exact ⟨hfin.ran hq (by rw [htbl, hv.tbl]) (by rw [hrest]) (by rw [hrest]) rfl, ps, hplaced, hfin.ep, hfin.obj _ _⟩

end

end Sys2Proof.Proofs

/-! INSERT, DELETE, SEARCH, NEXT, FLUSH_PORT, AGE_SWEEP and LEARN_REQUEST, put together (R77, R91 to R93, R101, R102, R106). -/

namespace Sys2Proof.Proofs

open Sys2Proof.Machine Sys2Proof.Claim

theorem epFind_slot {s : State} {k : Nat} {p : Nat × Nat} (h : epFind s k = some p) :
    p.2 < 4 ∧ eValid (epSlot s p) = true ∧ eKey (epSlot s p) = k := by
  have hfound := List.find?_some h
  rw [Bool.and_eq_true, beq_iff_eq] at hfound
  exact ⟨(mem_candSlots.mp (List.mem_of_find?_eq_some h)).1, hfound⟩

/-! ### The rule table -/

/-- The outcome of a command on the rule table. -/
theorem shownRule {i : Instr} {s t : State} {n st : Nat} {rest : List Nat} {f : State → Prop} (hexec : exec i s = .next t) (h : RanRule s n rest st t)
    (hf : f t) : ∃ t, exec i s = .next t ∧ (blockOf t n).status = st ∧ t.tbl.engineQ = rest ∧ t.tbl.ep = s.tbl.ep ∧ f t :=
  ⟨t, hexec, h.status, h.queue, h.ep, hf⟩

theorem ruleInsert_placed {s u : State} {e : RuleEntry} (hgood : RulesGood s) (he : Slottable e) (h : ruleInsert s e = some u) : ∃ ps, RulePlaced e ps s u := by
  cases hfind : findChain (ruleFree s) (ruleNext s) (candSlots (ruleHash s e.key)) with
  | none =>
    rw [ruleInsert_none hfind] at h
    cases h
  | some ps =>
    obtain ⟨t, ht, hplaced⟩ := ruleInsert_along hgood he hfind
    rw [h] at ht
    exact ⟨ps, Option.some.inj ht ▸ hplaced⟩

section
variable {s : State} {n : Nat} {rest : List Nat} (hq : s.tbl.engineQ = n :: rest)
include hq

/-- A command that leaves the rule table. -/
theorem rulesLeft (b : TblBlock) (st : Nat) : let t := endCmd s n b st
    RanRule s n rest st t ∧ t.hbm = s.hbm ∧ (blockOf t n).cursor = b.cursor ∧
      (blockOf t n).outEntry = b.outEntry ∧ (blockOf t n).outVersions = b.outVersions ∧ (blockOf t n).result = b.result := by
  have hfin := endCmd_finished s n b st
  exact ⟨hfin.ranRule hq rfl, hfin.hbm, by rw [hfin.block], by rw [hfin.block], by rw [hfin.block], by rw [hfin.block]⟩

/-- A command that writes a slot of the rule table last. -/
theorem ruleWritten {u : State} (htbl : u.tbl = s.tbl) (hgood : RulesGood u) {p : Nat × Nat} (hp : RulePos p) {e : RuleEntry} (he : Slottable e)
    (b : TblBlock) (st : Nat) : let t := endCmd (cacheDrop (setRule u p e) b.key) n b st
    RanRule s n rest st t ∧ (∀ q, RulePos q → ruleSlot t q = if q = p then e else ruleSlot u q) ∧ ∀ l ∈ t.col.cache, l.key ≠ b.key := by
  have hfin := endCmd_finished (cacheDrop (setRule u p e) b.key) n b st
  refine ⟨hfin.ranRule hq ?_, fun q hq => ?_, ?_⟩
  · change (setRule u p e).tbl = s.tbl
    rw [(setRule_rulesOnly u p e).rest]
    exact htbl
  · rw [ruleSlot_congr hfin.hbm hfin.sys]
    exact ruleSlot_rewritten hgood hp hq he b.key
  · rw [hfin.col]
    exact cacheDrop_cache _ _

/-- An insertion of a rule entry that ends with none of its key to close. -/
theorem ruleChained {u : State} (hgood : RulesGood s) (b : TblBlock) (hnone : ∀ x ∈ ruleFind s b.key, validFor x.2 b.target = false)
    (hins : ruleInsert s (askedRule b) = some u) (st : Nat) : let t := endCmd (closeOlder u b.key b.target) n b st
    RanRule s n rest st t ∧ ∃ ps, RulePlaced (askedRule b) ps s u ∧ t.hbm = u.hbm ∧ t.sys = u.sys ∧ t.col = u.col ∧ obj t 0x4801 7 = obj u 0x4801 7 := by
  obtain ⟨ps, hplaced⟩ := ruleInsert_placed hgood (askedRule_slottable b) hins
  have hclose : closeOlder u b.key b.target = u := closeOlder_none hplaced hnone
  rw [hclose]
  have hfin := endCmd_finished u n b st
  exact ⟨hfin.ranRule hq hplaced.tbl, ps, hplaced, hfin.hbm, hfin.sys, hfin.col, hfin.obj _ _⟩

end

/-- A new entry of a key beside the one entry of it that is valid: that one is the one to close. -/
theorem older_found {s u : State} {e x : RuleEntry} {p f : Nat × Nat} (h : RulePlaced e [f] s u) (hone : ruleFind s e.key = [(p, x)])
    (hfirst : x.first ≠ e.first) (hvalid : validFor x e.first = true) (hfree : (ruleSlot s f).valid = false) :
    p ≠ f ∧ (ruleFind u e.key).find? (ends e.first) = some (p, x) ∧ ruleSlot u p = x := by
  have hmem : (p, x) ∈ ruleFind s e.key := by rw [hone]; exact List.mem_singleton_self _
  obtain ⟨hp, hx, hxvalid, hxkey⟩ := mem_ruleFind.mp hmem
  have hne : p ≠ f := by
    rintro rfl
    rw [← hx, hxvalid] at hfree
    cases hfree
  have hstays : ruleSlot u p = x := (h.placed.others p (candSlots_rulePos hp) (by simpa using hne)).trans hx.symm
  have hhash := ruleHash_congr h.tbl e.key
  refine ⟨hne, find?_unique ?_ ?_ ?_, hstays⟩
  · exact mem_ruleFind.mpr ⟨hhash.symm ▸ hp, hstays.symm, hxvalid, hxkey⟩
  · rw [ends, hvalid, Bool.and_true, bne_iff_ne]
    exact hfirst
  · rintro ⟨q, y⟩ hy hends
    obtain ⟨hq, rfl, hyvalid, hykey⟩ := mem_ruleFind.mp hy
    rw [hhash] at hq
    rcases h.entry hq with ⟨heq, -⟩ | ⟨-, heq⟩
    · simp [ends, heq] at hends
    · rw [heq] at hyvalid hykey ⊢
      have hold : (q, ruleSlot s q) ∈ ruleFind s e.key := mem_ruleFind.mpr ⟨hq, rfl, hyvalid, hykey⟩
      rw [hone] at hold
      exact List.mem_singleton.mp hold

/-- An insertion beside the one entry of its key, which is valid for the version and ends. -/
theorem insertedBeside {s : State} {n : Nat} {rest : List Nat} (hq : s.tbl.engineQ = n :: rest) (hgood : RulesGood s) {b : TblBlock} {x : RuleEntry}
    {p f : Nat × Nat} (hone : ruleFind s b.key = [(p, x)]) (hfirst : x.first ≠ b.target) (hvalid : validFor x b.target = true)
    (hfree : (candSlots (ruleHash s b.key)).find? (ruleFree s) = some f) : ∃ u, ruleInsert s (askedRule b) = some u ∧
    let t := endCmd (closeOlder u b.key b.target) n b 0
    RanRule s n rest 0 t ∧ (∀ q, RulePos q → ruleSlot t q = if q = f then askedRule b else if q = p then { x with last := b.target } else ruleSlot s q) ∧
      ∀ l ∈ t.col.cache, l.key ≠ b.key := by
  obtain ⟨u, hins, hplaced⟩ := ruleInsert_along hgood (askedRule_slottable b) (findChain_free (next := ruleNext s) hfree)
  have hempty : (ruleSlot s f).valid = false := by simpa [ruleFree] using List.find?_some hfree
  obtain ⟨hne, hfound, -⟩ := older_found hplaced hone hfirst hvalid hempty
  have hclose : closeOlder u b.key b.target = cacheDrop (setRule u p { x with last := b.target }) b.key := closeOlder_one hfound
  have hmem : (p, x) ∈ ruleFind s b.key := by
    rw [hone]
    exact List.mem_singleton_self _
  obtain ⟨hp, hx, hxvalid, -⟩ := mem_ruleFind.mp hmem
  have hslottable : Slottable { x with last := b.target } := .inl ⟨hxvalid, by rw [hx, ruleSlot_first hgood]; exact ruleAt_result _ _ _⟩
  obtain ⟨hran, hslots, hcache⟩ := ruleWritten hq hplaced.tbl hplaced.good (candSlots_rulePos hp) hslottable b 0
  rw [← hclose] at hran hslots hcache
  refine ⟨u, hins, hran, fun q hpos => (hslots q hpos).trans ?_, hcache⟩
  by_cases hqf : q = f
  · rw [if_neg (fun h => hne (h.symm.trans hqf)), if_pos hqf, hqf]
    exact hplaced.placed.head f rfl
  · rw [if_neg hqf]
    split
    · rfl
    · exact hplaced.placed.others q hpos (by simpa using hqf)

/-! ### Learning -/

/-- A station that has moved stands under its new port. -/
theorem learned_moved {s : State} {q : LearnReq} {rest : List LearnReq} (hon : on s = true) (hl : s.col.learnQ = q :: rest) {p : Nat × Nat}
    (hfind : epFind s (epKey q.tid q.ep) = some p) (hstay : ¬(eStatic (epSlot s p) = true ∨ eLp (epSlot s p) = q.lp)) :
    ∃ t, exec .learnRequest s = .next t ∧ t.col.learnQ = rest ∧ t.ropes = s.ropes ∧ epSlot t p = withLp (epSlot s p) q.lp ∧
      obj t 0x4800 8 = (obj s 0x4800 8 + 1) % 2 ^ 64 := by
  have hslot := (epFind_slot hfind).1
  obtain ⟨u, hu⟩ : ∃ u : State, u = { s with col := { s.col with learnQ := rest } } := ⟨_, rfl⟩
  obtain ⟨w, hw⟩ : ∃ w, w = setEpSlot u p (withLp (epSlot s p) q.lp) := ⟨_, rfl⟩
  have hexec : exec .learnRequest s = .next (bump w 0x4800 8) := by
    rw [hw, hu]
    exact (exec_learnKnown hon hl hfind).trans (if_neg (by simpa using hstay))
  have hslots := setEpSlot_slotsOnly u p (withLp (epSlot s p) q.lp)
  have hmoved : epSlot w p = withLp (epSlot s p) q.lp := by
    rw [hw]
    exact (epSlot_setEpSlot u hslot hslot _).trans (if_pos rfl)
  have hobj : obj w 0x4800 8 = obj s 0x4800 8 := by
    rw [hw, hslots.rest, hu]
    rfl
  rw [← hw] at hslots
  refine ⟨_, hexec, ?_, ?_, hmoved, by rw [obj_bump_same, hobj]⟩
  · change w.col.learnQ = rest
    rw [hslots.rest, hu]
  · change w.ropes = s.ropes
    rw [hslots.rest, hu]

/-- A station that is new stands under its port in a free slot. -/
theorem learned_new {s : State} {q : LearnReq} {rest : List LearnReq} (hon : on s = true) (hl : s.col.learnQ = q :: rest) {p : Nat × Nat}
    (hlp : q.lp < 512) (hfind : epFind s (epKey q.tid q.ep) = none)
    (hfree : (candSlots (epHash s (epKey q.tid q.ep))).find? (fun q => !eValid (epSlot s q)) = some p) :
    ∃ t, exec .learnRequest s = .next t ∧ t.col.learnQ = rest ∧ t.ropes = s.ropes ∧ epSlot t p = epEntry true false (epKey q.tid q.ep) q.lp := by
  have hslot : p.2 < 4 := (mem_candSlots.mp (List.mem_of_find?_eq_some hfree)).1
  obtain ⟨u, hu⟩ : ∃ u : State, u = { s with col := { s.col with learnQ := rest } } := ⟨_, rfl⟩
  have hexec := exec_learnNew hon hl hlp hfind hfree
  rw [← hu] at hexec
  generalize epEntry true false (epKey q.tid q.ep) q.lp = e at hexec ⊢
  have hslots := setEpSlot_slotsOnly u p e
  refine ⟨_, hexec, ?_, ?_, (epSlot_setEpSlot u hslot hslot _).trans (if_pos rfl)⟩
  · change (setEpSlot u p e).col.learnQ = rest
    rw [hslots.rest, hu]
  · change (setEpSlot u p e).ropes = s.ropes
    rw [hslots.rest, hu]

/-! ### The obligation -/

/-- Settles O34: a command of the engine on either table, by what it finds there, and learning. -/
theorem endpointCommandsChangeTheirSlots : Obligations.EndpointCommandsChangeTheirSlots := by
  unfold Obligations.EndpointCommandsChangeTheirSlots
  refine ⟨?_, ?_, ?_⟩
  · intro s n rest hon hq b k lp e runs only same chain htable
    have hk : k = askedKey b := (bits_toNat b.key 35 0).symm
    have hlp : lp = askedLp b := (bits_toNat b.arg 8 0).symm
    have he : e = askedEntry b := by
      rw [askedEntry, ← hk, ← hlp, bit_getLsbD]
    have hkey : eKey (askedEntry b) = k := (eKey_asked b).trans hk.symm
    have hslot {p : Nat × Nat} (h : epFind s k = some p) := (epFind_slot h).1
    refine ⟨fun hop hdef => exec_insertUndefined hon hq hop htable (hlp ▸ hdef), fun hdef => ⟨fun p hp hop => ?_, fun p hnone hfree hop => ?_,
      fun hnone hsome hop => ?_, fun hnone hfull hop => ?_⟩, fun p hp hop => ?_, fun hnone hop => ?_, fun p hp hop => ?_, fun hnone hop => ?_,
      fun x hx hop => ?_, fun hnone hop => ?_, fun hrise hop => ?_, fun hop => ?_⟩
    · obtain ⟨hran, hslots⟩ := slotWritten hq (hslot hp) (askedEntry b) 0
      refine shownEp ((exec_insertEp hon hq hop htable (hlp ▸ hdef)).1 p (hk ▸ hp)) hran fun q hq4 => ?_
      rw [he]
      exact hslots q hq4
    · have hins := epInsert_free (s := s) (e := askedEntry b) (p := p) (by rw [hkey]; exact hfree)
      have hp : p.2 < 4 := (mem_candSlots.mp (List.mem_of_find?_eq_some hfree)).1
      obtain ⟨hran, -, -, hep, -⟩ := chainEnded hq hins 0
      refine shownEp ((exec_insertEp hon hq hop htable (hlp ▸ hdef)).2.1 _ (hk ▸ hnone) hins) hran fun q hq4 => ?_
      rw [he, epSlot_congr hep]
      exact epSlot_setEpSlot s hp hq4 _
    · obtain ⟨u, hins⟩ := Option.isSome_iff_exists.mp (he ▸ hsome)
      obtain ⟨hran, ps, hplaced, hep, hobj⟩ := chainEnded hq hins 0
      exact shownEp ((exec_insertEp hon hq hop htable (hlp ▸ hdef)).2.1 u (hk ▸ hnone) hins) hran ⟨ps, he ▸ hplaced.chained hkey hep hobj⟩
    · obtain ⟨hran, hep, -, -⟩ := tableLeft hq b rfl 2
      exact shownEp ((exec_insertEp hon hq hop htable (hlp ▸ hdef)).2.2 (hk ▸ hnone) (he ▸ hfull)) hran hep
    · obtain ⟨hran, hslots⟩ := slotWritten hq (hslot hp) 0 0
      exact shownEp ((exec_deleteEp hon hq hop htable).1 p (hk ▸ hp)) hran hslots
    · obtain ⟨hran, hep, -, -⟩ := tableLeft hq b rfl 1
      exact shownEp ((exec_deleteEp hon hq hop htable).2 (hk ▸ hnone)) hran hep
    · obtain ⟨hran, hep, hout, -⟩ := tableLeft hq { b with outEntry := epSlot s p } rfl 0
      exact shownEp ((exec_searchEp hon hq hop htable).1 p (hk ▸ hp)) hran ⟨hep, hout⟩
    · obtain ⟨hran, hep, -, -⟩ := tableLeft hq b rfl 1
      exact shownEp ((exec_searchEp hon hq hop htable).2 (hk ▸ hnone)) hran hep
    · obtain ⟨hran, hep, hout, hcur⟩ := tableLeft hq { b with outEntry := x.2.2, cursor := 4 * x.1 + x.2.1 + 1 } rfl 0
      exact shownEp ((exec_nextEp hon hq hop htable).1 x hx) hran ⟨hep, hout, hcur⟩
    · obtain ⟨hran, hep, -, -⟩ := tableLeft hq b rfl 9
      refine shownEp ((exec_nextEp hon hq hop htable).2 (List.find?_eq_none.mpr fun x hx => ?_)) hran hep
      have hlt : 4 * x.1 + x.2.1 < b.cursor := hnone x hx
      simpa using hlt
    · obtain ⟨freed, hexec⟩ := exec_flushEp hon hq hop htable
      obtain ⟨hslots, hall⟩ := flushed_slots hrise b.arg
      obtain ⟨hran, hep⟩ := slotsWritten hq hslots (b := { b with outEntry := freed }) rfl 0 0
      exact shownEp hexec hran fun q hq4 => (epSlot_congr hep q).trans (hall q hq4)
    · have hfin := endCmd_finished { s with tbl := { s.tbl with sweep := some (s.tbl.sweep.getD 0) } } n b (if s.tbl.sweep.isSome then 6 else 0)
      exact shownEp (exec_ageEp hon hq hop htable) (hfin.ran hq rfl rfl rfl rfl) ⟨hfin.ep, by rw [hfin.tbl]⟩
  · intro s n rest hon hq b v es new runs same slots shows chain htable hd hmedia htest hrebuild hapart
    have hgood : RulesGood s := ⟨hmedia, htest, hrebuild, hapart⟩
    have hstage (h0 : v ≠ 0) (hv : v = s.col.ver.staging) : stagingGone s b = none := stagingGone_none h0 hv
    refine ⟨fun hv => ⟨fun hop => ?_, fun hop => ?_⟩, fun h0 hv => ⟨fun hex hop => ?_, fun hall hlen hop => ?_, fun hall hlen => ⟨fun hsome hop => ?_, fun hnone hop => ?_⟩,
      fun p x f hone hfirst hvalid hfree hop => ?_, fun p x hfind hop => ?_, fun hnone hop => ?_⟩, fun x hx hop => ?_, fun hnone hop => ?_,
      fun x hx hop => ?_, fun hnone hop => ?_, fun hop => ?_, fun hop => ?_⟩
    · obtain ⟨hran, hhbm, -⟩ := rulesLeft hq b (if v ≠ 0 ∧ verLe v s.col.ver.current = true then 5 else 4)
      exact shownRule ((exec_insertRule hon hq hop htable hd).1 _ (stagingGone_some hv)) hran hhbm
    · obtain ⟨hran, hhbm, -⟩ := rulesLeft hq b (if v ≠ 0 ∧ verLe v s.col.ver.current = true then 5 else 4)
      exact shownRule ((exec_deleteRule hon hq hop htable hd).1 _ (stagingGone_some hv)) hran hhbm
    · obtain ⟨hran, hhbm, -⟩ := rulesLeft hq b 3
      exact shownRule (((exec_insertRule hon hq hop htable hd).2 hmedia (hstage h0 hv)).trans (inserts_exists hex)) hran hhbm
    · obtain ⟨hran, hhbm, -⟩ := rulesLeft hq b 8
      exact shownRule (((exec_insertRule hon hq hop htable hd).2 hmedia (hstage h0 hv)).trans (inserts_limit hall hlen)) hran hhbm
    · obtain ⟨u, hins⟩ := Option.isSome_iff_exists.mp hsome
      obtain ⟨hran, ps, hplaced, hhbm, hsys, hcol, hobj⟩ := ruleChained hq hgood b (fun x hx => (hall x hx).2) hins 0
      exact shownRule (((exec_insertRule hon hq hop htable hd).2 hmedia (hstage h0 hv)).trans ((inserts_new (fun x hx => (hall x hx).1) hlen).1 u hins)) hran
        ⟨ps, hplaced.chained rfl hhbm hsys hcol hobj⟩
    · have hfin := endCmd_finished (bump s 0x4801 5) n b 2
      exact shownRule (((exec_insertRule hon hq hop htable hd).2 hmedia (hstage h0 hv)).trans ((inserts_new (fun x hx => (hall x hx).1) hlen).2 hnone))
        (hfin.ranRule hq rfl) ⟨hfin.hbm, (hfin.obj _ _).trans (obj_bump_same _ _ _)⟩
    · obtain ⟨u, hins, hran, hslots, hcache⟩ := insertedBeside hq hgood hone hfirst hvalid hfree
      have hnew : ∀ y ∈ ruleFind s b.key, y.2.first ≠ v := fun y hy => by
        rw [show ruleFind s b.key = _ from hone] at hy
        rw [List.mem_singleton.mp hy]
        exact hfirst
      have hlen : (ruleFind s b.key).length < 3 := by
        rw [show ruleFind s b.key = _ from hone, List.length_singleton]
        decide
      exact shownRule (((exec_insertRule hon hq hop htable hd).2 hmedia (hstage h0 hv)).trans ((inserts_new hnew hlen).1 u hins)) hran
        ⟨fun q hq1 hq2 => hslots q ⟨hq1, hq2⟩, hcache⟩
    · obtain ⟨hp, hx, hxvalid, -⟩ := mem_ruleFind.mp (List.mem_of_find?_eq_some hfind)
      have hslottable : Slottable (if x.first = v then emptyRule else { x with last := v }) := by
        split
        · exact .inr rfl
        · exact .inl ⟨hxvalid, by rw [hx, ruleSlot_first hgood]; exact ruleAt_result _ _ _⟩
      obtain ⟨hran, hslots, hcache⟩ := ruleWritten hq rfl hgood (candSlots_rulePos hp) hslottable b 0
      exact shownRule (((exec_deleteRule hon hq hop htable hd).2 hmedia (hstage h0 hv)).2 p x hfind) hran ⟨fun q hq1 hq2 => hslots q ⟨hq1, hq2⟩, hcache⟩
    · obtain ⟨hran, hhbm, -⟩ := rulesLeft hq b 1
      exact shownRule (((exec_deleteRule hon hq hop htable hd).2 hmedia (hstage h0 hv)).1 hnone) hran hhbm
    · obtain ⟨hran, hhbm, -, hentry, hversions, hresult⟩ := rulesLeft hq (ruleOut b x.2) 0
      exact shownRule ((exec_searchRule hon hq hop htable hd hmedia).1 x hx) hran ⟨hhbm, hentry, hversions, hresult⟩
    · obtain ⟨hran, hhbm, -⟩ := rulesLeft hq b 1
      exact shownRule ((exec_searchRule hon hq hop htable hd hmedia).2 hnone) hran hhbm
    · obtain ⟨hran, hhbm, hcur, hentry, hversions, hresult⟩ := rulesLeft hq { ruleOut b x.2 with cursor := 4 * x.1.1 + x.1.2 + 1 } 0
      exact shownRule ((exec_nextRule hon hq hop htable hd hmedia).1 x hx) hran ⟨hhbm, ⟨hentry, hversions, hresult⟩, hcur⟩
    · obtain ⟨hran, hhbm, hcur, -⟩ := rulesLeft hq b 9
      refine shownRule ((exec_nextRule hon hq hop htable hd hmedia).2 (List.find?_eq_none.mpr fun x hx => ?_)) hran ⟨hhbm, hcur⟩
      have hlt : 4 * x.1.1 + x.1.2 < b.cursor := hnone x hx
      simpa using hlt
    · obtain ⟨hran, hhbm, -⟩ := rulesLeft hq b 7
      exact shownRule (exec_flushRule hon hq hop htable hd) hran hhbm
    · obtain ⟨hran, hhbm, -⟩ := rulesLeft hq b 7
      exact shownRule (exec_ageRule hon hq hop htable hd) hran hhbm
  · intro s q rest hon hl hlp k
    refine ⟨fun p hp => ?_, fun p hnone hfree => learned_new hon hl hlp hnone hfree⟩
    obtain ⟨hslot, hvalid, hkey⟩ := epFind_slot hp
    by_cases hstay : eStatic (epSlot s p) = true ∨ eLp (epSlot s p) = q.lp
    · have hexec := (exec_learnKnown hon hl hp).trans (if_pos (by simpa using hstay))
      exact ⟨_, hexec, rfl, rfl, fun _ => rfl, fun hstatic hne => absurd hstay (by rw [hstatic]; simpa using hne)⟩
    · obtain ⟨t, hexec, hrest, hropes, hmoved, hcount⟩ := learned_moved hon hl hp hstay
      obtain ⟨hv, hk, hport, hstatic, hhit⟩ := withLp_parts (epSlot s p) hlp
      refine ⟨t, hexec, hrest, hropes, fun h => absurd h hstay, fun hs _ => ?_⟩
      rw [hmoved]
      exact ⟨hv.trans hvalid, hk.trans hkey, hport, hstatic.trans hs, hhit, hcount⟩

end Sys2Proof.Proofs
